-- ==== Sys2Proof/Word.lean ====
section
/-!
DEFINITION. The word types: a byte as the buses carry it and a 32-bit word.
-/
namespace Sys2Proof

/-- A byte. -/
abbrev Byte := BitVec 8

/-- A 32-bit word of a register, a mailbox or a packet. -/
abbrev Word := BitVec 32

end Sys2Proof
end

