-- ==== Sys2Proof/Config.lean ====
section
/-!
DEFINITION. What one part or one firmware image fixes, and the free values: constants without a body, so that no proof can
see them. Each one's log entry is named beside it.
-/
namespace Sys2Proof

/-- The revision letter and digit on the part (R382; log 9). -/
opaque Config.sysRev : Nat
/-- The part's serial number, 16 ASCII bytes as one number (R429; log 9). -/
opaque Config.serial : Nat

/-- The grain at which the module begins to place a strip: its own choice (R26, R128; log 20). -/
opaque Config.placeAt : Nat → Nat
/-- The stand-in of a failed sensor whose neighbours' stand-ins rest on its own, in 1/8 °C (R546; log 36). -/
opaque Config.standIn : Nat → Int
/-- The 16-bit SECDED check of a 32-byte word (R104; log 78). -/
opaque Config.secded : List Byte → Nat
/-- A free byte: the error code of an event that names a failure R146 gives no code (log 21). -/
opaque Config.freeByte : Nat → Nat
/-- Which engine of a pool serves a job (R157; log 21). -/
opaque Config.poolEngine : Nat → Nat
/-- How long a refresh pre-emption held a channel, in ns; at most 2,500 (R119; log 22). -/
opaque Config.preemptTime : Nat → Nat

/-- The 58 bits that a lane has sent before a block: scrambled IDLE blocks, markers and rate-matching slots among them (R241, R246,
R247; log 79). -/
opaque Config.laneHistory : Nat → Nat

/-- The density −log₁₀ of a ratio of samples, at the precision of the pipeline (R306; log 14). -/
opaque Config.density : Rat → Rat
/-- The target coefficient where a solve finds δ = −1 and R312's quotient has no value (log 25). -/
opaque Config.zeroTarget : Nat → Rat
/-- The quotient target / C of R312 where the coefficient C is 0 (log 25). -/
opaque Config.zeroCoef : Nat → Rat

/-- Whether a time that falls between two units of its packet field goes to the upper one: an even number keeps the lower
(R45, R56; log 11). -/
opaque Config.roundUp : Rat → Nat

/-- atan2 in degrees (R473; log 14). -/
opaque Config.atan2Deg : Int → Int → Rat

/-! The security functions (chapter 14; log 13): the algorithms that the manual names by their standards, the part's own secrets
and the certificates it was made with. A key is the number of its public point; a hash is 384 bits. -/

/-- The DRBG's next number (R483). -/
opaque Config.random : Nat → Nat
/-- SHA-384 of bytes. -/
opaque Config.sha384 : List Byte → Nat
/-- Whether a signature over bytes verifies under a key (ECDSA P-384 over SHA-384). -/
opaque Config.sigOk : Nat → List Byte → List Byte → Bool
/-- The device's signature over bytes. -/
opaque Config.deviceSign : List Byte → List Byte
/-- The device's own certificate chain. -/
opaque Config.deviceChain : List Byte
/-- The first 16 bytes of SHA-384 of the device public key, as a number. -/
opaque Config.deviceKeyId : Nat
/-- The role extension's object identifier, as a number (R484). -/
opaque Config.roleOid : Nat
/-- The compressed point of an ephemeral key from a random number (49 bytes). -/
opaque Config.ephemeral : Nat → List Byte
/-- The x-coordinate of the ECDH shared point of a private number and a point (R489). -/
opaque Config.ecdh : Nat → List Byte → Nat
/-- HKDF-SHA-384 of an input key, a salt and an info (R489). -/
opaque Config.hkdf : List Byte → List Byte → List Byte → List Byte
/-- The AES-256-GCM ciphertext of a payload under a key and a nonce (R489). -/
opaque Config.gcmCipher : List Byte → List Byte → List Byte → List Byte
/-- The AES-256-GCM tag of a ciphertext under a key and a nonce with its additional data (R489). -/
opaque Config.gcmTag : List Byte → List Byte → List Byte → List Byte → Nat
/-- The whole length of a certificate, from its first bytes. -/
opaque Config.certLength : List Byte → Nat
/-- Whether bytes parse as an X.509 v3 certificate with a P-384 key (R493). -/
opaque Config.certParses : List Byte → Bool
/-- Whether a certificate is self-signed. -/
opaque Config.selfSigned : List Byte → Bool
/-- The public key of the first certificate of a chain. -/
opaque Config.certKey : List Byte → Nat
/-- The element identity in a certificate (R227). -/
opaque Config.certIdentity : List Byte → Nat
/-- The first certificate of a chain. -/
opaque Config.certLeaf : List Byte → List Byte
/-- Whether a chain of 1 to 4 certificates ends at a root, its dates checked against a device time when one is given (R484). -/
opaque Config.chainOk : List Byte → List Byte → Option Nat → Bool
/-- The value of a leaf's role extension, 0 when it has none (R484). -/
opaque Config.certRole : List Byte → Nat
/-- The fused firmware and debug keys. -/
opaque Config.firmwareKey : Nat
opaque Config.debugKey : Nat
/-- The image in a slot as bytes, before any load (log 9). -/
opaque Config.slotImage : Nat → List Byte

end Sys2Proof
end

