-- ==== Sys2Proof/Machine/Regs.lean ====
section
/-!
DEFINITION. The registers and fields of the manual's field tables, chapters 02 to 19: one constructor of `Reg` for each
register name, one `Field` for each row of a field table, in the order in which the tables list them (R407). `Bank` holds
register contents as a sparse list in one canonical form: an entry stands only where a register differs from its reset value.
-/
namespace Sys2Proof.Machine

/-- The registers, each under the manual's own name (an instance number in the name is the register's index, R407). -/
inductive Reg where
  | POS_ENC_CTRL | POS_SOURCE | POS_SCALE | POS_MIRROR | POS_REV | POS_SLIP | POS_PRED | POS_LEAD | POS_RATE
  | POS_ACCEL | POS_BAR | POS_FLIGHT | POS_STATUS | POS_ENC_STATUS | POS_LINE | POS_COUNT | POS_INDEX_COUNT
  | POS_SPEED | POS_PASS | POS_NEXT | POS_MISSED | POS_SHED | POS_DROP | POS_PSHORT | TIM_CTRL | TIM_PTP | TIM_PPS
  | TIM_LOCK | TIM_ETH_ASYM | TIM_NOW_LO | TIM_NOW_HI | TIM_INCR | TIM_OFFSET | TIM_PPS_IN_TIME | TIM_ERROR | TIM_TXQ
  | TIM_STATUS | TIM_TRIG_CTRL | TIM_TRIG_TIME | TIM_TRIG_PERIOD | TIM_TRIG_COUNT | TIM_TRIG_STATUS | IMG_CTRL
  | IMG_AGE | IMG_BALANCE | IMG_SCRUB | IMG_STATUS | IMG_CAP | IMG_FREE | IMG_ECC | IMG_RETIRED | IMG_PREEMPT
  | IMG_MOVES | IMG_OVERRUN | IMG_LAT | IMG_TEMP | JLC_CTRL | JLC_POLICY | JLC_STATUS | JLC_LAST_ERR | JLC_RETRIES
  | JLC_FAILED | JLC_SUBST | JLC_REENC | JLC_REPL | WFT_CFG | WFT_SCREEN | WFT_CELL | WFT_TONE | WFT_MASK | WFT_CORR
  | WFT_NOZZLE | WFT_STATUS | WFT_COVER | WFT_FIFO | WFT_ROUTED | WFT_LOST | WFT_BLOCKS | WFT_REED | FIR_CFG
  | FIR_SUPPLY | FIR_CONS | FIR_STATUS | FIR_PATH | FIR_SWITCHES | FIR_PREHEAT | FIR_HEAD_TEMP | FIR_HEAD_TOTAL
  | FIR_HEAD_PENDING | FIR_HEAD_SEQ | FIR_INK_TOTAL | FIR_INK_PENDING | FIR_INK_SEQ | FL_HUB | FL_CTRL | FL_EYE
  | FL_STATUS | FL_LANE | FL_HUBSTATE | FL_BLOCK_ERR | FL_LOCK_LOSS | FL_CRC_ERR | FL_RESTRIPE | FL_SHED | FL_UNACKED
  | FL_EYE_RES | CAM_CTRL | CAM_GEOM | CAM_POS | CAM_PITCH | CAM_OFF | CAM_FRAME | CAM_PHASE | CAM_AE | CAM_TRIM
  | CAM_STATUS | CAM_GOOD | CAM_TRUNC | CAM_SHORT | CAM_LONG | CAM_ERR | CAM_SKIP | CLP_CTRL | CLP_SOLVE | CLP_LIMITS
  | CLP_SLOT | CLP_K | CLP_DCURVE | CLP_LADDER | CLP_LSLOT | CLP_CLASS | CLP_FREEZE | CLP_COEF | CLP_DELTA
  | CLP_STATUS | CLP_SOLVES | CLP_GROUPS | CLP_REJECT | CLP_LADDERS | SYS_ROLE | PAIR_HEALTH | PAIR_CTRL
  | PAIR_STATUS | PAIR_EPOCH | PAIR_LEASE_UNTIL | PAIR_TAKEOVERS | PAIR_MISSED | PAIR_MISMATCH | PAIR_GAP_FIRST
  | PAIR_GAP_LAST | SYS_ID | SYS_REV | SYS_FW_VERSION | SYS_STATE | MBX_STATUS | DB_H2D_SET | DB_H2D_STATUS
  | DB_D2H_STATUS | DB_D2H_MASK | LCK | EVT_HEAD | EVT_TAIL | MBX_TAKEN | MBX_REJECTS | MBX_FRAME_ERR | EVT_LOST
  | SET_STATUS | MOT_CFG | MOT_PROFILE | MOT_HOME | MOT_HOME_RANGE | MOT_HOME_OFS | MOT_STALL | MOT_GROUP
  | MOT_STATUS | MOT_FAULT | MOT_POS | MOT_TARGET | MOT_VEL | MOT_LOAD | MOT_LATCH | MOT_STALLS | SEC_CTRL | SEC_FUSE
  | SEC_AUDIT | SEC_GLITCH | SEC_STATUS | RST_CAUSE | RST_START_FAILS | RST_CTRL | THM_CTRL | THM_HOLD | CAL_CTRL
  | THM_STATUS | THM_SENSOR_FAIL | THM_T | THM_MAX | THM_PEAK | CAL_STATUS | CAL_AON | CAL_BEMF_OFS | CAL_TEMP
  | CAL_COUNT | SYS_GPIO | SYS_GPIO_PULL | SYS_GPIO_IN | PWR_CTRL | PWR_STATUS | PWR_VIN | PWR_IIN | PWR_POWER
  | PWR_VENC | PWR_WARN | PWR_WARN_LAST | PWR_SHORT | FAULT_SUMMARY | FAULT_MASK | SYS_FATAL
  deriving DecidableEq, Repr

/-- The access codes of R4 that the field tables use. -/
inductive Access where | ro | rw | w1c | wo
  deriving DecidableEq, Repr

/-- When a written value governs the module's behaviour (R6). -/
inductive Effect where | none | atOnce | nextPick | setSwap | strip | frame | nextStart
  deriving DecidableEq, Repr

/-- The class of WRITE in which a register's writable fields are written (R409, R606); `set` is WRITE in class SET,
`bar0` marks a register that only its BAR0 offset reaches, and `none` one that no WRITE reaches. -/
inductive WClass where | set | sys | img | head | clp | mot | tim | pair | cam | sec | bar0 | none
  deriving DecidableEq, Repr

/-- One row of a field table: its register, lowest bit, width, access, moment of effect, reset value and valid range. -/
structure Field where
  reg   : Reg
  lo    : Nat
  width : Nat
  acc   : Access
  eff   : Effect
  reset : Nat
  min   : Nat
  max   : Nat
  deriving DecidableEq, Repr

/-- What the manual says of a whole register: REG_ID code and number (R407), indices, elements, width, whether its fields
belong to the configuration sets and are web-anchored (R65), its class of WRITE, and whether MRAM keeps it across a start. -/
structure RegInfo where
  code    : Nat
  num     : Nat
  count   : Nat
  elems   : Nat
  width   : Nat
  isSet   : Bool
  isWeb   : Bool
  wclass  : WClass
  persist : Bool
  deriving DecidableEq, Repr

/-- The register table. -/
def regInfo : Reg → RegInfo
  | .POS_ENC_CTRL => ⟨2, 1, 2, 1, 16, true, false, .set, false⟩
  | .POS_SOURCE => ⟨2, 2, 1, 1, 6, true, false, .set, false⟩
  | .POS_SCALE => ⟨2, 3, 2, 1, 32, true, false, .set, false⟩
  | .POS_MIRROR => ⟨2, 4, 1, 1, 40, true, false, .set, false⟩
  | .POS_REV => ⟨2, 5, 1, 1, 8, true, false, .set, false⟩
  | .POS_SLIP => ⟨2, 6, 1, 1, 24, true, false, .set, false⟩
  | .POS_PRED => ⟨2, 7, 1, 1, 32, true, false, .set, false⟩
  | .POS_LEAD => ⟨2, 8, 1, 1, 24, true, false, .set, false⟩
  | .POS_RATE => ⟨2, 9, 1, 1, 30, true, false, .set, false⟩
  | .POS_ACCEL => ⟨2, 10, 1, 1, 32, true, false, .set, false⟩
  | .POS_BAR => ⟨2, 11, 16, 1, 32, true, true, .set, false⟩
  | .POS_FLIGHT => ⟨2, 12, 16, 1, 20, true, true, .set, false⟩
  | .POS_STATUS => ⟨2, 13, 1, 1, 20, false, false, .sys, false⟩
  | .POS_ENC_STATUS => ⟨2, 14, 2, 1, 8, false, false, .sys, false⟩
  | .POS_LINE => ⟨2, 15, 1, 1, 64, false, false, .sys, false⟩
  | .POS_COUNT => ⟨2, 16, 2, 1, 48, false, false, .sys, false⟩
  | .POS_INDEX_COUNT => ⟨2, 17, 2, 1, 48, false, false, .sys, false⟩
  | .POS_SPEED => ⟨2, 18, 1, 1, 32, false, false, .sys, false⟩
  | .POS_PASS => ⟨2, 19, 1, 1, 32, false, false, .sys, false⟩
  | .POS_NEXT => ⟨2, 20, 16, 1, 48, false, false, .sys, false⟩
  | .POS_MISSED => ⟨2, 21, 16, 1, 64, false, false, .sys, false⟩
  | .POS_SHED => ⟨2, 22, 16, 1, 64, false, false, .sys, false⟩
  | .POS_DROP => ⟨2, 23, 16, 1, 64, false, false, .sys, false⟩
  | .POS_PSHORT => ⟨2, 24, 16, 1, 64, false, false, .sys, false⟩
  | .TIM_CTRL => ⟨16, 1, 1, 1, 10, false, false, .tim, false⟩
  | .TIM_PTP => ⟨16, 2, 1, 1, 15, false, false, .tim, false⟩
  | .TIM_PPS => ⟨16, 3, 1, 1, 30, false, false, .tim, false⟩
  | .TIM_LOCK => ⟨16, 4, 1, 1, 24, false, false, .tim, false⟩
  | .TIM_ETH_ASYM => ⟨16, 5, 2, 1, 16, false, false, .tim, false⟩
  | .TIM_NOW_LO => ⟨0, 1024, 1, 1, 32, false, false, .bar0, false⟩
  | .TIM_NOW_HI => ⟨0, 1025, 1, 1, 32, false, false, .bar0, false⟩
  | .TIM_INCR => ⟨16, 6, 1, 1, 64, false, false, .tim, false⟩
  | .TIM_OFFSET => ⟨16, 7, 1, 1, 96, false, false, .tim, false⟩
  | .TIM_PPS_IN_TIME => ⟨16, 8, 1, 1, 64, false, false, .tim, false⟩
  | .TIM_ERROR => ⟨16, 9, 1, 1, 32, false, false, .tim, false⟩
  | .TIM_TXQ => ⟨16, 10, 2, 1, 32, false, false, .tim, false⟩
  | .TIM_STATUS => ⟨16, 11, 1, 1, 21, false, false, .tim, false⟩
  | .TIM_TRIG_CTRL => ⟨16, 12, 8, 1, 32, false, false, .tim, false⟩
  | .TIM_TRIG_TIME => ⟨16, 13, 8, 1, 64, false, false, .tim, false⟩
  | .TIM_TRIG_PERIOD => ⟨16, 14, 8, 1, 32, false, false, .tim, false⟩
  | .TIM_TRIG_COUNT => ⟨16, 15, 8, 1, 32, false, false, .tim, false⟩
  | .TIM_TRIG_STATUS => ⟨16, 16, 1, 1, 24, false, false, .tim, false⟩
  | .IMG_CTRL => ⟨3, 1, 1, 1, 12, false, false, .img, false⟩
  | .IMG_AGE => ⟨3, 2, 1, 1, 32, false, false, .img, false⟩
  | .IMG_BALANCE => ⟨3, 3, 1, 1, 12, false, false, .img, false⟩
  | .IMG_SCRUB => ⟨3, 4, 1, 1, 12, false, false, .img, false⟩
  | .IMG_STATUS => ⟨3, 5, 1, 1, 24, false, false, .img, false⟩
  | .IMG_CAP => ⟨3, 6, 1, 1, 32, false, false, .img, false⟩
  | .IMG_FREE => ⟨3, 7, 1, 1, 32, false, false, .img, false⟩
  | .IMG_ECC => ⟨3, 8, 1, 1, 64, false, false, .img, false⟩
  | .IMG_RETIRED => ⟨3, 9, 1, 1, 16, false, false, .img, true⟩
  | .IMG_PREEMPT => ⟨3, 10, 1, 1, 32, false, false, .img, false⟩
  | .IMG_MOVES => ⟨3, 11, 1, 1, 32, false, false, .img, false⟩
  | .IMG_OVERRUN => ⟨3, 12, 1, 1, 32, false, false, .img, false⟩
  | .IMG_LAT => ⟨3, 13, 16, 1, 16, false, false, .img, false⟩
  | .IMG_TEMP => ⟨3, 14, 4, 1, 8, false, false, .img, false⟩
  | .JLC_CTRL => ⟨4, 1, 1, 1, 6, false, false, .img, false⟩
  | .JLC_POLICY => ⟨4, 2, 16, 1, 1, true, true, .set, false⟩
  | .JLC_STATUS => ⟨4, 3, 1, 1, 6, false, false, .img, false⟩
  | .JLC_LAST_ERR => ⟨4, 4, 1, 1, 13, false, false, .img, false⟩
  | .JLC_RETRIES => ⟨4, 5, 16, 1, 32, false, false, .img, false⟩
  | .JLC_FAILED => ⟨4, 6, 16, 1, 32, false, false, .img, false⟩
  | .JLC_SUBST => ⟨4, 7, 16, 1, 64, false, false, .img, false⟩
  | .JLC_REENC => ⟨4, 8, 1, 1, 32, false, false, .img, false⟩
  | .JLC_REPL => ⟨4, 9, 1, 1, 32, false, false, .img, false⟩
  | .WFT_CFG => ⟨5, 1, 16, 1, 23, true, true, .set, false⟩
  | .WFT_SCREEN => ⟨5, 2, 16, 1, 34, true, true, .set, false⟩
  | .WFT_CELL => ⟨5, 3, 16, 8192, 24, true, true, .set, false⟩
  | .WFT_TONE => ⟨5, 4, 4096, 1, 8, true, true, .set, false⟩
  | .WFT_MASK => ⟨5, 5, 16, 1, 4096, true, true, .set, false⟩
  | .WFT_CORR => ⟨5, 6, 16, 106496, 16, false, false, .sys, false⟩
  | .WFT_NOZZLE => ⟨5, 7, 1024, 4096, 2, false, false, .sys, false⟩
  | .WFT_STATUS => ⟨5, 8, 1, 1, 3, false, false, .sys, false⟩
  | .WFT_COVER => ⟨5, 9, 16, 1, 64, false, false, .sys, false⟩
  | .WFT_FIFO => ⟨5, 10, 16, 1, 32, false, false, .sys, false⟩
  | .WFT_ROUTED => ⟨5, 11, 16, 1, 64, false, false, .sys, false⟩
  | .WFT_LOST => ⟨5, 12, 16, 1, 64, false, false, .sys, false⟩
  | .WFT_BLOCKS => ⟨5, 13, 16, 1, 64, false, false, .sys, false⟩
  | .WFT_REED => ⟨5, 14, 1, 1, 13, false, false, .sys, false⟩
  | .FIR_CFG => ⟨6, 1, 16, 1, 24, true, true, .set, false⟩
  | .FIR_SUPPLY => ⟨6, 2, 16, 1, 10, true, true, .set, false⟩
  | .FIR_CONS => ⟨6, 3, 1, 1, 16, false, false, .head, false⟩
  | .FIR_STATUS => ⟨6, 4, 1, 1, 8, false, false, .head, false⟩
  | .FIR_PATH => ⟨6, 5, 1, 1, 16, false, false, .head, false⟩
  | .FIR_SWITCHES => ⟨6, 6, 16, 1, 32, false, false, .head, false⟩
  | .FIR_PREHEAT => ⟨6, 7, 24, 1, 32, false, false, .head, false⟩
  | .FIR_HEAD_TEMP => ⟨6, 8, 512, 1, 8, false, false, .head, false⟩
  | .FIR_HEAD_TOTAL => ⟨6, 9, 512, 1, 64, false, false, .head, true⟩
  | .FIR_HEAD_PENDING => ⟨6, 10, 512, 1, 64, false, false, .head, true⟩
  | .FIR_HEAD_SEQ => ⟨6, 11, 512, 1, 32, false, false, .head, true⟩
  | .FIR_INK_TOTAL => ⟨6, 12, 16, 1, 64, false, false, .head, true⟩
  | .FIR_INK_PENDING => ⟨6, 13, 16, 1, 64, false, false, .head, true⟩
  | .FIR_INK_SEQ => ⟨6, 14, 16, 1, 32, false, false, .head, true⟩
  | .FL_HUB => ⟨7, 1, 24, 1, 28, false, false, .head, true⟩
  | .FL_CTRL => ⟨7, 2, 1, 1, 28, false, false, .head, true⟩
  | .FL_EYE => ⟨7, 3, 1, 1, 12, false, false, .head, false⟩
  | .FL_STATUS => ⟨7, 4, 1, 1, 10, false, false, .head, false⟩
  | .FL_LANE => ⟨7, 5, 24, 1, 7, false, false, .head, false⟩
  | .FL_HUBSTATE => ⟨7, 6, 24, 1, 32, false, false, .head, false⟩
  | .FL_BLOCK_ERR => ⟨7, 7, 24, 1, 32, false, false, .head, false⟩
  | .FL_LOCK_LOSS => ⟨7, 8, 24, 1, 32, false, false, .head, false⟩
  | .FL_CRC_ERR => ⟨7, 9, 24, 1, 32, false, false, .head, false⟩
  | .FL_RESTRIPE => ⟨7, 10, 24, 1, 32, false, false, .head, false⟩
  | .FL_SHED => ⟨7, 11, 24, 1, 64, false, false, .head, false⟩
  | .FL_UNACKED => ⟨7, 12, 24, 1, 32, false, false, .head, false⟩
  | .FL_EYE_RES => ⟨7, 13, 24, 1, 16, false, false, .head, false⟩
  | .CAM_CTRL => ⟨8, 1, 2, 1, 32, false, false, .cam, false⟩
  | .CAM_GEOM => ⟨8, 2, 2, 1, 31, false, false, .cam, false⟩
  | .CAM_POS => ⟨8, 3, 2, 1, 24, false, false, .cam, false⟩
  | .CAM_PITCH => ⟨8, 4, 2, 1, 17, false, false, .cam, false⟩
  | .CAM_OFF => ⟨8, 5, 2, 1, 24, false, false, .cam, false⟩
  | .CAM_FRAME => ⟨8, 6, 2, 1, 24, false, false, .cam, false⟩
  | .CAM_PHASE => ⟨8, 7, 2, 1, 24, false, false, .cam, false⟩
  | .CAM_AE => ⟨8, 8, 2, 1, 24, false, false, .cam, false⟩
  | .CAM_TRIM => ⟨8, 9, 2, 1, 16, false, false, .cam, false⟩
  | .CAM_STATUS => ⟨8, 10, 2, 1, 9, false, false, .cam, false⟩
  | .CAM_GOOD => ⟨8, 11, 2, 1, 32, false, false, .cam, false⟩
  | .CAM_TRUNC => ⟨8, 12, 2, 1, 32, false, false, .cam, false⟩
  | .CAM_SHORT => ⟨8, 13, 2, 1, 32, false, false, .cam, false⟩
  | .CAM_LONG => ⟨8, 14, 2, 1, 32, false, false, .cam, false⟩
  | .CAM_ERR => ⟨8, 15, 2, 1, 32, false, false, .cam, false⟩
  | .CAM_SKIP => ⟨8, 16, 2, 1, 32, false, false, .cam, false⟩
  | .CLP_CTRL => ⟨9, 1, 1, 1, 31, true, false, .set, false⟩
  | .CLP_SOLVE => ⟨9, 2, 1, 1, 32, true, false, .set, false⟩
  | .CLP_LIMITS => ⟨9, 3, 1, 1, 44, true, false, .set, false⟩
  | .CLP_SLOT => ⟨9, 4, 16, 1, 5, true, false, .set, false⟩
  | .CLP_K => ⟨9, 5, 32, 1, 16, true, false, .set, false⟩
  | .CLP_DCURVE => ⟨9, 6, 264, 1, 16, true, false, .set, false⟩
  | .CLP_LADDER => ⟨9, 7, 1, 1, 28, true, true, .set, false⟩
  | .CLP_LSLOT => ⟨9, 8, 1, 1, 64, true, true, .set, false⟩
  | .CLP_CLASS => ⟨9, 9, 1, 1, 28, true, true, .set, false⟩
  | .CLP_FREEZE => ⟨9, 10, 1, 1, 16, false, false, .clp, false⟩
  | .CLP_COEF => ⟨9, 11, 16, 53248, 16, false, false, .clp, false⟩
  | .CLP_DELTA => ⟨9, 12, 8, 53248, 16, false, false, .clp, false⟩
  | .CLP_STATUS => ⟨9, 13, 1, 1, 18, false, false, .clp, false⟩
  | .CLP_SOLVES => ⟨9, 14, 1, 1, 32, false, false, .clp, false⟩
  | .CLP_GROUPS => ⟨9, 15, 1, 1, 64, false, false, .clp, false⟩
  | .CLP_REJECT => ⟨9, 16, 1, 1, 64, false, false, .clp, false⟩
  | .CLP_LADDERS => ⟨9, 17, 1, 1, 32, false, false, .clp, false⟩
  | .SYS_ROLE => ⟨0, 4, 1, 1, 32, false, false, .bar0, false⟩
  | .PAIR_HEALTH => ⟨0, 10, 1, 1, 32, false, false, .bar0, false⟩
  | .PAIR_CTRL => ⟨11, 1, 1, 1, 24, false, false, .pair, false⟩
  | .PAIR_STATUS => ⟨11, 2, 1, 1, 18, false, false, .none, false⟩
  | .PAIR_EPOCH => ⟨11, 3, 1, 1, 32, false, false, .pair, true⟩
  | .PAIR_LEASE_UNTIL => ⟨11, 4, 1, 1, 64, false, false, .pair, false⟩
  | .PAIR_TAKEOVERS => ⟨11, 5, 1, 1, 32, false, false, .pair, true⟩
  | .PAIR_MISSED => ⟨11, 6, 1, 1, 32, false, false, .pair, false⟩
  | .PAIR_MISMATCH => ⟨11, 7, 16, 1, 64, false, false, .pair, false⟩
  | .PAIR_GAP_FIRST => ⟨11, 8, 16, 1, 48, false, false, .pair, false⟩
  | .PAIR_GAP_LAST => ⟨11, 9, 16, 1, 48, false, false, .pair, false⟩
  | .SYS_ID => ⟨0, 0, 1, 1, 32, false, false, .bar0, false⟩
  | .SYS_REV => ⟨0, 1, 1, 1, 16, false, false, .bar0, false⟩
  | .SYS_FW_VERSION => ⟨0, 2, 1, 1, 32, false, false, .bar0, false⟩
  | .SYS_STATE => ⟨0, 3, 1, 1, 10, false, false, .bar0, false⟩
  | .MBX_STATUS => ⟨0, 192, 6, 1, 32, false, false, .bar0, false⟩
  | .DB_H2D_SET => ⟨0, 64, 1, 1, 32, false, false, .bar0, false⟩
  | .DB_H2D_STATUS => ⟨0, 65, 1, 1, 32, false, false, .bar0, false⟩
  | .DB_D2H_STATUS => ⟨0, 66, 1, 1, 32, false, false, .bar0, false⟩
  | .DB_D2H_MASK => ⟨0, 67, 1, 1, 32, false, false, .bar0, false⟩
  | .LCK => ⟨0, 128, 32, 1, 3, false, false, .bar0, false⟩
  | .EVT_HEAD => ⟨0, 2048, 1, 1, 32, false, false, .bar0, false⟩
  | .EVT_TAIL => ⟨0, 2049, 1, 1, 32, false, false, .bar0, false⟩
  | .MBX_TAKEN => ⟨17, 1, 6, 1, 32, false, false, .none, false⟩
  | .MBX_REJECTS => ⟨17, 2, 6, 1, 32, false, false, .none, false⟩
  | .MBX_FRAME_ERR => ⟨17, 3, 6, 1, 32, false, false, .none, false⟩
  | .EVT_LOST => ⟨17, 4, 1, 1, 32, false, false, .none, false⟩
  | .SET_STATUS => ⟨1, 1, 1, 1, 128, false, false, .sys, false⟩
  | .MOT_CFG => ⟨10, 1, 8, 1, 32, false, false, .mot, false⟩
  | .MOT_PROFILE => ⟨10, 2, 8, 1, 128, false, false, .mot, false⟩
  | .MOT_HOME => ⟨10, 3, 8, 1, 128, false, false, .mot, false⟩
  | .MOT_HOME_RANGE => ⟨10, 4, 8, 1, 64, false, false, .mot, false⟩
  | .MOT_HOME_OFS => ⟨10, 5, 8, 1, 48, false, false, .mot, false⟩
  | .MOT_STALL => ⟨10, 6, 8, 1, 64, false, false, .mot, false⟩
  | .MOT_GROUP => ⟨10, 7, 4, 1, 9, false, false, .mot, false⟩
  | .MOT_STATUS => ⟨10, 8, 8, 1, 24, false, false, .mot, false⟩
  | .MOT_FAULT => ⟨10, 9, 8, 1, 12, false, false, .mot, false⟩
  | .MOT_POS => ⟨10, 10, 8, 1, 48, false, false, .mot, false⟩
  | .MOT_TARGET => ⟨10, 11, 8, 1, 48, false, false, .mot, false⟩
  | .MOT_VEL => ⟨10, 12, 8, 1, 32, false, false, .mot, false⟩
  | .MOT_LOAD => ⟨10, 13, 8, 1, 16, false, false, .mot, false⟩
  | .MOT_LATCH => ⟨10, 14, 8, 1, 48, false, false, .mot, false⟩
  | .MOT_STALLS => ⟨10, 15, 8, 1, 32, false, false, .mot, false⟩
  | .SEC_CTRL => ⟨12, 1, 1, 1, 19, false, false, .sec, true⟩
  | .SEC_FUSE => ⟨12, 2, 1, 1, 9, false, false, .sec, true⟩
  | .SEC_AUDIT => ⟨12, 3, 1, 1, 64, false, false, .sec, true⟩
  | .SEC_GLITCH => ⟨12, 4, 1, 1, 16, false, false, .sec, false⟩
  | .SEC_STATUS => ⟨12, 5, 1, 1, 24, false, false, .sec, false⟩
  | .RST_CAUSE => ⟨0, 5, 1, 1, 25, false, false, .bar0, false⟩
  | .RST_START_FAILS => ⟨0, 6, 1, 1, 24, false, false, .bar0, true⟩
  | .RST_CTRL => ⟨15, 1, 1, 1, 1, false, false, .sys, false⟩
  | .THM_CTRL => ⟨13, 1, 1, 1, 25, false, false, .sys, false⟩
  | .THM_HOLD => ⟨13, 2, 1, 1, 16, false, false, .sys, false⟩
  | .CAL_CTRL => ⟨18, 1, 1, 1, 5, false, false, .sys, false⟩
  | .THM_STATUS => ⟨13, 3, 1, 1, 20, false, false, .sys, false⟩
  | .THM_SENSOR_FAIL => ⟨13, 4, 1, 1, 16, false, false, .sys, false⟩
  | .THM_T => ⟨13, 5, 16, 1, 17, false, false, .sys, false⟩
  | .THM_MAX => ⟨13, 6, 1, 1, 20, false, false, .sys, false⟩
  | .THM_PEAK => ⟨13, 7, 1, 1, 16, false, false, .sys, false⟩
  | .CAL_STATUS => ⟨18, 2, 1, 1, 2, false, false, .sys, false⟩
  | .CAL_AON => ⟨18, 3, 1, 1, 24, false, false, .sys, false⟩
  | .CAL_BEMF_OFS => ⟨18, 4, 8, 1, 32, false, false, .sys, false⟩
  | .CAL_TEMP => ⟨18, 5, 4096, 1, 8, false, false, .sys, false⟩
  | .CAL_COUNT => ⟨18, 6, 1, 1, 32, false, false, .sys, false⟩
  | .SYS_GPIO => ⟨1, 2, 1, 1, 32, false, false, .sys, false⟩
  | .SYS_GPIO_PULL => ⟨1, 3, 1, 1, 16, false, false, .sys, false⟩
  | .SYS_GPIO_IN => ⟨1, 4, 1, 1, 16, false, false, .sys, false⟩
  | .PWR_CTRL => ⟨14, 1, 1, 1, 1, false, false, .sys, false⟩
  | .PWR_STATUS => ⟨14, 2, 1, 1, 18, false, false, .sys, false⟩
  | .PWR_VIN => ⟨14, 3, 1, 1, 32, false, false, .sys, false⟩
  | .PWR_IIN => ⟨14, 4, 1, 1, 16, false, false, .sys, false⟩
  | .PWR_POWER => ⟨14, 5, 1, 1, 16, false, false, .sys, false⟩
  | .PWR_VENC => ⟨14, 6, 1, 1, 16, false, false, .sys, false⟩
  | .PWR_WARN => ⟨14, 7, 1, 1, 32, false, false, .sys, true⟩
  | .PWR_WARN_LAST => ⟨14, 8, 1, 1, 32, false, false, .sys, false⟩
  | .PWR_SHORT => ⟨14, 9, 1, 1, 16, false, false, .sys, false⟩
  | .FAULT_SUMMARY => ⟨0, 8, 1, 1, 19, false, false, .bar0, false⟩
  | .FAULT_MASK => ⟨0, 9, 1, 1, 32, false, false, .bar0, false⟩
  | .SYS_FATAL => ⟨1, 5, 1, 1, 7, false, false, .sys, true⟩

/-! ### POS_ENC_CTRL: R71 -/
def Fld.POS_ENC_CTRL_ENC_EN : Field := ⟨.POS_ENC_CTRL, 0, 1, .rw, .setSwap, 0, 0, 1⟩
def Fld.POS_ENC_CTRL_ENC_DIR : Field := ⟨.POS_ENC_CTRL, 1, 1, .rw, .setSwap, 0, 0, 1⟩
def Fld.POS_ENC_CTRL_ENC_FILTER : Field := ⟨.POS_ENC_CTRL, 2, 3, .rw, .setSwap, 2, 0, 7⟩
def Fld.POS_ENC_CTRL_ENC_Z_STATE : Field := ⟨.POS_ENC_CTRL, 5, 2, .rw, .setSwap, 3, 0, 3⟩
def Fld.POS_ENC_CTRL_ENC_Z_CHECK : Field := ⟨.POS_ENC_CTRL, 7, 1, .rw, .setSwap, 1, 0, 1⟩
def Fld.POS_ENC_CTRL_ENC_Z_MAX_WIDTH : Field := ⟨.POS_ENC_CTRL, 8, 8, .rw, .setSwap, 4, 0, 255⟩
/-! ### POS_SOURCE: R71 -/
def Fld.POS_SOURCE_PRIMARY : Field := ⟨.POS_SOURCE, 0, 1, .rw, .setSwap, 0, 0, 1⟩
def Fld.POS_SOURCE_ENC_FALLBACK : Field := ⟨.POS_SOURCE, 1, 1, .rw, .setSwap, 0, 0, 1⟩
def Fld.POS_SOURCE_SLIP_EN : Field := ⟨.POS_SOURCE, 2, 1, .rw, .setSwap, 0, 0, 1⟩
def Fld.POS_SOURCE_SLIP_ACTION : Field := ⟨.POS_SOURCE, 3, 1, .rw, .setSwap, 0, 0, 1⟩
def Fld.POS_SOURCE_PASS_MODE : Field := ⟨.POS_SOURCE, 4, 1, .rw, .setSwap, 0, 0, 1⟩
def Fld.POS_SOURCE_PASS_BOTH : Field := ⟨.POS_SOURCE, 5, 1, .rw, .setSwap, 0, 0, 1⟩
/-! ### POS_SCALE: R71 -/
def Fld.POS_SCALE_LINES_PER_COUNT : Field := ⟨.POS_SCALE, 0, 32, .rw, .setSwap, 16777216, 0, 4294967295⟩
/-! ### POS_MIRROR: R71 -/
def Fld.POS_MIRROR_PASS_MIRROR : Field := ⟨.POS_MIRROR, 0, 40, .rw, .setSwap, 0, 0, 1099511627775⟩
/-! ### POS_REV: R71 -/
def Fld.POS_REV_REV_WINDOW : Field := ⟨.POS_REV, 0, 8, .rw, .setSwap, 4, 0, 255⟩
/-! ### POS_SLIP: R71 -/
def Fld.POS_SLIP_SLIP_SPAN : Field := ⟨.POS_SLIP, 0, 16, .rw, .setSwap, 40, 1, 65535⟩
def Fld.POS_SLIP_SLIP_LIMIT : Field := ⟨.POS_SLIP, 16, 8, .rw, .setSwap, 8, 0, 255⟩
/-! ### POS_PRED: R71 -/
def Fld.POS_PRED_PRED_ALPHA : Field := ⟨.POS_PRED, 0, 8, .rw, .setSwap, 64, 1, 255⟩
def Fld.POS_PRED_PRED_BETA : Field := ⟨.POS_PRED, 8, 8, .rw, .setSwap, 32, 1, 255⟩
def Fld.POS_PRED_PRED_MIN_RATE : Field := ⟨.POS_PRED, 16, 16, .rw, .setSwap, 500, 0, 65535⟩
/-! ### POS_LEAD: R71 -/
def Fld.POS_LEAD_LEAD_TIME : Field := ⟨.POS_LEAD, 0, 9, .rw, .setSwap, 60, 20, 500⟩
def Fld.POS_LEAD_FIRE_REVISE : Field := ⟨.POS_LEAD, 16, 8, .rw, .setSwap, 8, 0, 255⟩
/-! ### POS_RATE: R71 -/
def Fld.POS_RATE_RATE_MAX : Field := ⟨.POS_RATE, 0, 18, .rw, .setSwap, 128000, 0, 262143⟩
def Fld.POS_RATE_OVERSPEED_MODE : Field := ⟨.POS_RATE, 18, 1, .rw, .setSwap, 0, 0, 1⟩
def Fld.POS_RATE_SLIP_MAX : Field := ⟨.POS_RATE, 19, 8, .rw, .setSwap, 4, 0, 255⟩
def Fld.POS_RATE_SHED_WIDTH : Field := ⟨.POS_RATE, 27, 3, .rw, .setSwap, 3, 0, 5⟩
/-! ### POS_ACCEL: R71 -/
def Fld.POS_ACCEL_ACCEL_LIMIT : Field := ⟨.POS_ACCEL, 0, 32, .rw, .setSwap, 500000, 0, 4294967295⟩
/-! ### POS_BAR: R71 -/
def Fld.POS_BAR_BAR_OFFSET : Field := ⟨.POS_BAR, 0, 24, .rw, .setSwap, 0, 0, 16777215⟩
def Fld.POS_BAR_BAR_FINE : Field := ⟨.POS_BAR, 24, 8, .rw, .setSwap, 0, 0, 255⟩
/-! ### POS_FLIGHT: R71 -/
def Fld.POS_FLIGHT_FLIGHT_ADVANCE : Field := ⟨.POS_FLIGHT, 0, 20, .rw, .setSwap, 0, 0, 1048575⟩
/-! ### POS_STATUS: R71 -/
def Fld.POS_STATUS_REVERSAL : Field := ⟨.POS_STATUS, 0, 1, .w1c, .atOnce, 0, 0, 1⟩
def Fld.POS_STATUS_OVERSPEED : Field := ⟨.POS_STATUS, 1, 1, .w1c, .atOnce, 0, 0, 1⟩
def Fld.POS_STATUS_SLIP : Field := ⟨.POS_STATUS, 2, 1, .w1c, .atOnce, 0, 0, 1⟩
def Fld.POS_STATUS_ENC0_FAULT : Field := ⟨.POS_STATUS, 3, 1, .w1c, .atOnce, 0, 0, 1⟩
def Fld.POS_STATUS_ENC1_FAULT : Field := ⟨.POS_STATUS, 4, 1, .w1c, .atOnce, 0, 0, 1⟩
def Fld.POS_STATUS_ENC_SWITCH : Field := ⟨.POS_STATUS, 5, 1, .w1c, .atOnce, 0, 0, 1⟩
def Fld.POS_STATUS_ACCEL : Field := ⟨.POS_STATUS, 6, 1, .w1c, .atOnce, 0, 0, 1⟩
def Fld.POS_STATUS_PASS_SHORT : Field := ⟨.POS_STATUS, 7, 1, .w1c, .atOnce, 0, 0, 1⟩
def Fld.POS_STATUS_MISSED : Field := ⟨.POS_STATUS, 8, 1, .w1c, .atOnce, 0, 0, 1⟩
def Fld.POS_STATUS_FROZEN : Field := ⟨.POS_STATUS, 16, 1, .ro, .none, 0, 0, 1⟩
def Fld.POS_STATUS_CRAWL : Field := ⟨.POS_STATUS, 17, 1, .ro, .none, 0, 0, 1⟩
def Fld.POS_STATUS_SOURCE : Field := ⟨.POS_STATUS, 18, 1, .ro, .none, 0, 0, 1⟩
def Fld.POS_STATUS_IN_OVERSPEED : Field := ⟨.POS_STATUS, 19, 1, .ro, .none, 0, 0, 1⟩
/-! ### POS_ENC_STATUS: R71 -/
def Fld.POS_ENC_STATUS_ILLEGAL : Field := ⟨.POS_ENC_STATUS, 0, 1, .w1c, .atOnce, 0, 0, 1⟩
def Fld.POS_ENC_STATUS_OVERRATE : Field := ⟨.POS_ENC_STATUS, 1, 1, .w1c, .atOnce, 0, 0, 1⟩
def Fld.POS_ENC_STATUS_OPEN_A : Field := ⟨.POS_ENC_STATUS, 2, 1, .w1c, .atOnce, 0, 0, 1⟩
def Fld.POS_ENC_STATUS_OPEN_B : Field := ⟨.POS_ENC_STATUS, 3, 1, .w1c, .atOnce, 0, 0, 1⟩
def Fld.POS_ENC_STATUS_OPEN_Z : Field := ⟨.POS_ENC_STATUS, 4, 1, .w1c, .atOnce, 0, 0, 1⟩
def Fld.POS_ENC_STATUS_INV_A : Field := ⟨.POS_ENC_STATUS, 5, 1, .w1c, .atOnce, 0, 0, 1⟩
def Fld.POS_ENC_STATUS_INV_B : Field := ⟨.POS_ENC_STATUS, 6, 1, .w1c, .atOnce, 0, 0, 1⟩
def Fld.POS_ENC_STATUS_INV_Z : Field := ⟨.POS_ENC_STATUS, 7, 1, .w1c, .atOnce, 0, 0, 1⟩
/-! ### POS_LINE: R71 -/
def Fld.POS_LINE_LINE : Field := ⟨.POS_LINE, 0, 64, .ro, .none, 0, 0, 18446744073709551615⟩
/-! ### POS_COUNT: R71 -/
def Fld.POS_COUNT_COUNT : Field := ⟨.POS_COUNT, 0, 48, .ro, .none, 0, 0, 281474976710655⟩
/-! ### POS_INDEX_COUNT: R71 -/
def Fld.POS_INDEX_COUNT_INDEX_COUNT : Field := ⟨.POS_INDEX_COUNT, 0, 48, .ro, .none, 0, 0, 281474976710655⟩
/-! ### POS_SPEED: R71 -/
def Fld.POS_SPEED_LINE_RATE : Field := ⟨.POS_SPEED, 0, 32, .ro, .none, 0, 0, 4294967295⟩
/-! ### POS_PASS: R71 -/
def Fld.POS_PASS_PASS : Field := ⟨.POS_PASS, 0, 32, .ro, .none, 0, 0, 4294967295⟩
/-! ### POS_NEXT: R71 -/
def Fld.POS_NEXT_NEXT_LINE : Field := ⟨.POS_NEXT, 0, 48, .ro, .none, 0, 0, 281474976710655⟩
/-! ### POS_MISSED: R71 -/
def Fld.POS_MISSED_LINES_MISSED_NOT_READY : Field := ⟨.POS_MISSED, 0, 64, .ro, .none, 0, 0, 18446744073709551615⟩
/-! ### POS_SHED: R71 -/
def Fld.POS_SHED_LINES_MISSED_SHED : Field := ⟨.POS_SHED, 0, 64, .ro, .none, 0, 0, 18446744073709551615⟩
/-! ### POS_DROP: R71 -/
def Fld.POS_DROP_LINES_DROPPED_OVERSPEED : Field := ⟨.POS_DROP, 0, 64, .ro, .none, 0, 0, 18446744073709551615⟩
/-! ### POS_PSHORT: R71 -/
def Fld.POS_PSHORT_LINES_MISSED_PASS : Field := ⟨.POS_PSHORT, 0, 64, .ro, .none, 0, 0, 18446744073709551615⟩
/-! ### TIM_CTRL: R102 -/
def Fld.TIM_CTRL_SOURCE : Field := ⟨.TIM_CTRL, 0, 2, .rw, .nextPick, 0, 0, 3⟩
def Fld.TIM_CTRL_SERVO_OWNER : Field := ⟨.TIM_CTRL, 2, 1, .rw, .atOnce, 0, 0, 1⟩
def Fld.TIM_CTRL_SLEW_RATE : Field := ⟨.TIM_CTRL, 3, 7, .rw, .atOnce, 50, 1, 100⟩
/-! ### TIM_PTP: R102 -/
def Fld.TIM_PTP_DOMAIN : Field := ⟨.TIM_PTP, 0, 8, .rw, .nextStart, 0, 0, 255⟩
def Fld.TIM_PTP_PORT_EN : Field := ⟨.TIM_PTP, 8, 2, .rw, .nextStart, 0, 0, 3⟩
def Fld.TIM_PTP_DELAY_MECH : Field := ⟨.TIM_PTP, 10, 1, .rw, .nextStart, 0, 0, 1⟩
def Fld.TIM_PTP_TRANSPORT : Field := ⟨.TIM_PTP, 11, 2, .rw, .nextStart, 0, 0, 2⟩
def Fld.TIM_PTP_CLOCK_ROLE : Field := ⟨.TIM_PTP, 13, 2, .rw, .nextStart, 0, 0, 2⟩
/-! ### TIM_PPS: R102 -/
def Fld.TIM_PPS_PPS_GATE : Field := ⟨.TIM_PPS, 0, 1, .rw, .atOnce, 1, 0, 1⟩
def Fld.TIM_PPS_PPS_WIDTH : Field := ⟨.TIM_PPS, 1, 29, .rw, .atOnce, 10000, 1, 500000⟩
/-! ### TIM_LOCK: R102 -/
def Fld.TIM_LOCK_LOCK_LIMIT : Field := ⟨.TIM_LOCK, 0, 16, .rw, .atOnce, 100, 0, 65535⟩
def Fld.TIM_LOCK_HOLDOVER_TIME : Field := ⟨.TIM_LOCK, 16, 8, .rw, .atOnce, 3, 0, 255⟩
/-! ### TIM_ETH_ASYM: R102 -/
def Fld.TIM_ETH_ASYM_ASYM : Field := ⟨.TIM_ETH_ASYM, 0, 16, .rw, .atOnce, 0, 0, 65535⟩
/-! ### TIM_NOW_LO: R102 -/
def Fld.TIM_NOW_LO_NOW_LO : Field := ⟨.TIM_NOW_LO, 0, 32, .ro, .none, 0, 0, 4294967295⟩
/-! ### TIM_NOW_HI: R102 -/
def Fld.TIM_NOW_HI_NOW_HI : Field := ⟨.TIM_NOW_HI, 0, 32, .ro, .none, 0, 0, 4294967295⟩
/-! ### TIM_INCR: R102 -/
def Fld.TIM_INCR_INCR : Field := ⟨.TIM_INCR, 0, 64, .rw, .atOnce, 4294967296, 0, 18446744073709551615⟩
/-! ### TIM_OFFSET: R102 -/
def Fld.TIM_OFFSET_OFFSET : Field := ⟨.TIM_OFFSET, 0, 96, .ro, .none, 0, 0, 2^96 - 1⟩
/-! ### TIM_PPS_IN_TIME: R102 -/
def Fld.TIM_PPS_IN_TIME_PPS_IN_TIME : Field := ⟨.TIM_PPS_IN_TIME, 0, 64, .ro, .none, 0, 0, 18446744073709551615⟩
/-! ### TIM_ERROR: R102 -/
def Fld.TIM_ERROR_SERVO_ERROR : Field := ⟨.TIM_ERROR, 0, 32, .ro, .none, 0, 0, 4294967295⟩
/-! ### TIM_TXQ: R102 -/
def Fld.TIM_TXQ_TXQ_LOST : Field := ⟨.TIM_TXQ, 0, 16, .ro, .none, 0, 0, 65535⟩
def Fld.TIM_TXQ_TXQ_STALE : Field := ⟨.TIM_TXQ, 16, 16, .ro, .none, 0, 0, 65535⟩
/-! ### TIM_STATUS: R102 -/
def Fld.TIM_STATUS_LOCK_LOST : Field := ⟨.TIM_STATUS, 0, 1, .w1c, .atOnce, 0, 0, 1⟩
def Fld.TIM_STATUS_STEPPED : Field := ⟨.TIM_STATUS, 1, 1, .w1c, .atOnce, 0, 0, 1⟩
def Fld.TIM_STATUS_TXQ_OVERFLOW : Field := ⟨.TIM_STATUS, 2, 1, .w1c, .atOnce, 0, 0, 1⟩
def Fld.TIM_STATUS_PPS_MISSING : Field := ⟨.TIM_STATUS, 3, 1, .w1c, .atOnce, 0, 0, 1⟩
def Fld.TIM_STATUS_LOCKED : Field := ⟨.TIM_STATUS, 16, 1, .ro, .none, 0, 0, 1⟩
def Fld.TIM_STATUS_HOLDOVER : Field := ⟨.TIM_STATUS, 17, 1, .ro, .none, 0, 0, 1⟩
def Fld.TIM_STATUS_STEP_HELD : Field := ⟨.TIM_STATUS, 18, 1, .ro, .none, 0, 0, 1⟩
def Fld.TIM_STATUS_SOURCE_NOW : Field := ⟨.TIM_STATUS, 19, 2, .ro, .none, 0, 0, 3⟩
/-! ### TIM_TRIG_CTRL: R102 -/
def Fld.TIM_TRIG_CTRL_TARGET : Field := ⟨.TIM_TRIG_CTRL, 0, 3, .rw, .atOnce, 0, 0, 7⟩
def Fld.TIM_TRIG_CTRL_INDEX : Field := ⟨.TIM_TRIG_CTRL, 3, 4, .rw, .atOnce, 0, 0, 15⟩
def Fld.TIM_TRIG_CTRL_ACTION : Field := ⟨.TIM_TRIG_CTRL, 7, 2, .rw, .atOnce, 0, 0, 3⟩
def Fld.TIM_TRIG_CTRL_LATE_POLICY : Field := ⟨.TIM_TRIG_CTRL, 9, 2, .rw, .atOnce, 0, 0, 2⟩
def Fld.TIM_TRIG_CTRL_ALIGN_PICK : Field := ⟨.TIM_TRIG_CTRL, 11, 1, .rw, .atOnce, 0, 0, 1⟩
def Fld.TIM_TRIG_CTRL_NOTIFY : Field := ⟨.TIM_TRIG_CTRL, 12, 1, .rw, .atOnce, 0, 0, 1⟩
def Fld.TIM_TRIG_CTRL_LEASE_GATE : Field := ⟨.TIM_TRIG_CTRL, 13, 1, .rw, .atOnce, 1, 0, 1⟩
def Fld.TIM_TRIG_CTRL_OWNER : Field := ⟨.TIM_TRIG_CTRL, 14, 2, .ro, .none, 0, 0, 3⟩
def Fld.TIM_TRIG_CTRL_PULSE_WIDTH : Field := ⟨.TIM_TRIG_CTRL, 16, 16, .rw, .atOnce, 0, 0, 65535⟩
/-! ### TIM_TRIG_TIME: R102 -/
def Fld.TIM_TRIG_TIME_TIME : Field := ⟨.TIM_TRIG_TIME, 0, 64, .rw, .atOnce, 0, 0, 18446744073709551615⟩
/-! ### TIM_TRIG_PERIOD: R102 -/
def Fld.TIM_TRIG_PERIOD_PERIOD : Field := ⟨.TIM_TRIG_PERIOD, 0, 32, .rw, .atOnce, 0, 0, 4294967295⟩
/-! ### TIM_TRIG_COUNT: R102 -/
def Fld.TIM_TRIG_COUNT_COUNT : Field := ⟨.TIM_TRIG_COUNT, 0, 32, .rw, .atOnce, 0, 0, 4294967295⟩
/-! ### TIM_TRIG_STATUS: R102 -/
def Fld.TIM_TRIG_STATUS_LATE : Field := ⟨.TIM_TRIG_STATUS, 0, 8, .w1c, .atOnce, 0, 0, 255⟩
def Fld.TIM_TRIG_STATUS_MISSED : Field := ⟨.TIM_TRIG_STATUS, 8, 8, .w1c, .atOnce, 0, 0, 255⟩
def Fld.TIM_TRIG_STATUS_ARMED : Field := ⟨.TIM_TRIG_STATUS, 16, 8, .ro, .none, 0, 0, 255⟩
/-! ### IMG_CTRL: R135 -/
def Fld.IMG_CTRL_IMG_ECC_EN : Field := ⟨.IMG_CTRL, 0, 1, .rw, .nextStart, 1, 0, 1⟩
def Fld.IMG_CTRL_GRAIN : Field := ⟨.IMG_CTRL, 1, 4, .rw, .nextStart, 4, 0, 8⟩
def Fld.IMG_CTRL_EYE_MIN : Field := ⟨.IMG_CTRL, 5, 7, .rw, .atOnce, 30, 0, 127⟩
/-! ### IMG_AGE: R135 -/
def Fld.IMG_AGE_AGE_C0 : Field := ⟨.IMG_AGE, 0, 8, .rw, .nextPick, 4, 1, 16⟩
def Fld.IMG_AGE_AGE_C1 : Field := ⟨.IMG_AGE, 8, 8, .rw, .nextPick, 4, 1, 16⟩
def Fld.IMG_AGE_AGE_C2 : Field := ⟨.IMG_AGE, 16, 7, .rw, .nextPick, 20, 5, 100⟩
def Fld.IMG_AGE_AGE_C3 : Field := ⟨.IMG_AGE, 23, 9, .rw, .nextPick, 40, 10, 200⟩
/-! ### IMG_BALANCE: R135 -/
def Fld.IMG_BALANCE_BALANCE_EN : Field := ⟨.IMG_BALANCE, 0, 1, .rw, .nextPick, 1, 0, 1⟩
def Fld.IMG_BALANCE_MOVE_TRIGGER : Field := ⟨.IMG_BALANCE, 1, 11, .rw, .nextPick, 700, 300, 1100⟩
/-! ### IMG_SCRUB: R135 -/
def Fld.IMG_SCRUB_SCRUB_PERIOD : Field := ⟨.IMG_SCRUB, 0, 8, .rw, .nextPick, 24, 1, 255⟩
def Fld.IMG_SCRUB_ROW_RETIRE_LIMIT : Field := ⟨.IMG_SCRUB, 8, 4, .rw, .nextPick, 4, 1, 15⟩
/-! ### IMG_STATUS: R135 -/
def Fld.IMG_STATUS_ECC_CORR : Field := ⟨.IMG_STATUS, 0, 1, .w1c, .atOnce, 0, 0, 1⟩
def Fld.IMG_STATUS_ECC_UNCORR : Field := ⟨.IMG_STATUS, 1, 1, .w1c, .atOnce, 0, 0, 1⟩
def Fld.IMG_STATUS_REFRESH_DOUBLED : Field := ⟨.IMG_STATUS, 2, 1, .w1c, .atOnce, 0, 0, 1⟩
def Fld.IMG_STATUS_REFRESH_PREEMPT : Field := ⟨.IMG_STATUS, 3, 1, .w1c, .atOnce, 0, 0, 1⟩
def Fld.IMG_STATUS_TRAIN_MARGIN : Field := ⟨.IMG_STATUS, 4, 1, .w1c, .atOnce, 0, 0, 1⟩
def Fld.IMG_STATUS_C0_OVERRUN : Field := ⟨.IMG_STATUS, 5, 1, .w1c, .atOnce, 0, 0, 1⟩
def Fld.IMG_STATUS_MOVE_FAIL : Field := ⟨.IMG_STATUS, 6, 1, .w1c, .atOnce, 0, 0, 1⟩
def Fld.IMG_STATUS_STRIP_DAMAGED : Field := ⟨.IMG_STATUS, 7, 1, .w1c, .atOnce, 0, 0, 1⟩
def Fld.IMG_STATUS_DOUBLED_NOW : Field := ⟨.IMG_STATUS, 16, 4, .ro, .none, 0, 0, 15⟩
def Fld.IMG_STATUS_TRAINING_NOW : Field := ⟨.IMG_STATUS, 20, 4, .ro, .none, 0, 0, 15⟩
/-! ### IMG_CAP: R135 -/
def Fld.IMG_CAP_IMG_CAPACITY : Field := ⟨.IMG_CAP, 0, 32, .ro, .none, 15104, 0, 4294967295⟩
/-! ### IMG_FREE: R135 -/
def Fld.IMG_FREE_IMG_FREE_MIB : Field := ⟨.IMG_FREE, 0, 32, .ro, .none, 15104, 0, 4294967295⟩
/-! ### IMG_ECC: R135 -/
def Fld.IMG_ECC_ECC_CORRECTED : Field := ⟨.IMG_ECC, 0, 32, .ro, .none, 0, 0, 4294967295⟩
def Fld.IMG_ECC_ECC_UNCORRECTED : Field := ⟨.IMG_ECC, 32, 32, .ro, .none, 0, 0, 4294967295⟩
/-! ### IMG_RETIRED: R135 -/
def Fld.IMG_RETIRED_ROWS_RETIRED : Field := ⟨.IMG_RETIRED, 0, 16, .ro, .none, 0, 0, 65535⟩
/-! ### IMG_PREEMPT: R135 -/
def Fld.IMG_PREEMPT_REFRESH_PREEMPTS : Field := ⟨.IMG_PREEMPT, 0, 32, .ro, .none, 0, 0, 4294967295⟩
/-! ### IMG_MOVES: R135 -/
def Fld.IMG_MOVES_STRIP_MOVES : Field := ⟨.IMG_MOVES, 0, 32, .ro, .none, 0, 0, 4294967295⟩
/-! ### IMG_OVERRUN: R135 -/
def Fld.IMG_OVERRUN_C0_OVERRUNS : Field := ⟨.IMG_OVERRUN, 0, 32, .ro, .none, 0, 0, 4294967295⟩
/-! ### IMG_LAT: R135 -/
def Fld.IMG_LAT_C0_LAT_MAX : Field := ⟨.IMG_LAT, 0, 16, .ro, .none, 0, 0, 65535⟩
/-! ### IMG_TEMP: R135 -/
def Fld.IMG_TEMP_TRAIN_TEMP : Field := ⟨.IMG_TEMP, 0, 8, .ro, .none, 0, 0, 255⟩
/-! ### JLC_CTRL: R166 -/
def Fld.JLC_CTRL_STORED_FALLBACK : Field := ⟨.JLC_CTRL, 0, 1, .rw, .atOnce, 1, 0, 1⟩
def Fld.JLC_CTRL_COST_LIMIT : Field := ⟨.JLC_CTRL, 1, 5, .rw, .atOnce, 8, 2, 16⟩
/-! ### JLC_POLICY: R166 -/
def Fld.JLC_POLICY_STRIP_FAIL_POLICY : Field := ⟨.JLC_POLICY, 0, 1, .rw, .setSwap, 0, 0, 1⟩
/-! ### JLC_STATUS: R166 -/
def Fld.JLC_STATUS_INGEST_REJECT : Field := ⟨.JLC_STATUS, 0, 1, .w1c, .atOnce, 0, 0, 1⟩
def Fld.JLC_STATUS_STRIP_RETRY : Field := ⟨.JLC_STATUS, 1, 1, .w1c, .atOnce, 0, 0, 1⟩
def Fld.JLC_STATUS_STRIP_FAIL : Field := ⟨.JLC_STATUS, 2, 1, .w1c, .atOnce, 0, 0, 1⟩
def Fld.JLC_STATUS_REENCODED : Field := ⟨.JLC_STATUS, 3, 1, .w1c, .atOnce, 0, 0, 1⟩
def Fld.JLC_STATUS_REPL_REJECT : Field := ⟨.JLC_STATUS, 4, 1, .w1c, .atOnce, 0, 0, 1⟩
def Fld.JLC_STATUS_RESUME_BAD : Field := ⟨.JLC_STATUS, 5, 1, .w1c, .atOnce, 0, 0, 1⟩
/-! ### JLC_LAST_ERR: R166 -/
def Fld.JLC_LAST_ERR_ERROR_CODE : Field := ⟨.JLC_LAST_ERR, 0, 8, .ro, .none, 0, 0, 255⟩
def Fld.JLC_LAST_ERR_ERROR_SOURCE : Field := ⟨.JLC_LAST_ERR, 8, 5, .ro, .none, 0, 0, 31⟩
/-! ### JLC_RETRIES: R166 -/
def Fld.JLC_RETRIES_STRIP_RETRIES : Field := ⟨.JLC_RETRIES, 0, 32, .ro, .none, 0, 0, 4294967295⟩
/-! ### JLC_FAILED: R166 -/
def Fld.JLC_FAILED_STRIPS_FAILED : Field := ⟨.JLC_FAILED, 0, 32, .ro, .none, 0, 0, 4294967295⟩
/-! ### JLC_SUBST: R166 -/
def Fld.JLC_SUBST_LINES_SUBSTITUTED : Field := ⟨.JLC_SUBST, 0, 64, .ro, .none, 0, 0, 18446744073709551615⟩
/-! ### JLC_REENC: R166 -/
def Fld.JLC_REENC_STRIPS_REENCODED : Field := ⟨.JLC_REENC, 0, 32, .ro, .none, 0, 0, 4294967295⟩
/-! ### JLC_REPL: R166 -/
def Fld.JLC_REPL_REPL_REJECTS : Field := ⟨.JLC_REPL, 0, 32, .ro, .none, 0, 0, 4294967295⟩
/-! ### WFT_CFG: R201 -/
def Fld.WFT_CFG_CH_EN : Field := ⟨.WFT_CFG, 0, 1, .rw, .setSwap, 0, 0, 1⟩
def Fld.WFT_CFG_INPUT_FORMAT : Field := ⟨.WFT_CFG, 1, 1, .rw, .setSwap, 0, 0, 1⟩
def Fld.WFT_CFG_SCALE_X : Field := ⟨.WFT_CFG, 2, 2, .rw, .setSwap, 0, 0, 3⟩
def Fld.WFT_CFG_SCALE_Y : Field := ⟨.WFT_CFG, 4, 2, .rw, .setSwap, 0, 0, 3⟩
def Fld.WFT_CFG_SELVEDGE_WIDTH : Field := ⟨.WFT_CFG, 6, 9, .rw, .setSwap, 32, 0, 256⟩
def Fld.WFT_CFG_STITCH_MASK : Field := ⟨.WFT_CFG, 15, 4, .rw, .setSwap, 1, 0, 15⟩
def Fld.WFT_CFG_ROW_SHARE : Field := ⟨.WFT_CFG, 19, 1, .rw, .setSwap, 0, 0, 1⟩
def Fld.WFT_CFG_SUB_NEIGHBOUR : Field := ⟨.WFT_CFG, 20, 1, .rw, .setSwap, 1, 0, 1⟩
def Fld.WFT_CFG_SUB_REACH : Field := ⟨.WFT_CFG, 21, 1, .rw, .setSwap, 1, 0, 1⟩
def Fld.WFT_CFG_WEAK_AS_OUT : Field := ⟨.WFT_CFG, 22, 1, .rw, .setSwap, 0, 0, 1⟩
/-! ### WFT_SCREEN: R201 -/
def Fld.WFT_SCREEN_TILE_W : Field := ⟨.WFT_SCREEN, 0, 9, .rw, .setSwap, 1, 1, 256⟩
def Fld.WFT_SCREEN_TILE_H : Field := ⟨.WFT_SCREEN, 9, 9, .rw, .setSwap, 1, 1, 256⟩
def Fld.WFT_SCREEN_SHIFT_X : Field := ⟨.WFT_SCREEN, 18, 8, .rw, .setSwap, 0, 0, 255⟩
def Fld.WFT_SCREEN_SHIFT_Y : Field := ⟨.WFT_SCREEN, 26, 8, .rw, .setSwap, 0, 0, 255⟩
/-! ### WFT_CELL: R201 -/
def Fld.WFT_CELL_T1_T2_T3 : Field := ⟨.WFT_CELL, 0, 24, .rw, .setSwap, 12615744, 0, 16777215⟩
/-! ### WFT_TONE: R201 -/
def Fld.WFT_TONE_TONE : Field := ⟨.WFT_TONE, 0, 8, .rw, .setSwap, 0, 0, 255⟩
/-! ### WFT_MASK: R201 -/
def Fld.WFT_MASK_MASK : Field := ⟨.WFT_MASK, 0, 4096, .rw, .setSwap, 0, 0, 2^4096 - 1⟩
/-! ### WFT_CORR: R201 -/
def Fld.WFT_CORR_GAIN : Field := ⟨.WFT_CORR, 0, 8, .ro, .strip, 128, 0, 255⟩
def Fld.WFT_CORR_OFFSET : Field := ⟨.WFT_CORR, 8, 8, .ro, .strip, 0, 0, 255⟩
/-! ### WFT_NOZZLE: R201 -/
def Fld.WFT_NOZZLE_STATE : Field := ⟨.WFT_NOZZLE, 0, 2, .ro, .strip, 0, 0, 3⟩
/-! ### WFT_STATUS: R201 -/
def Fld.WFT_STATUS_COVER_LOW : Field := ⟨.WFT_STATUS, 0, 1, .w1c, .atOnce, 0, 0, 1⟩
def Fld.WFT_STATUS_DOTS_LOST : Field := ⟨.WFT_STATUS, 1, 1, .w1c, .atOnce, 0, 0, 1⟩
def Fld.WFT_STATUS_CORR_DISCARD : Field := ⟨.WFT_STATUS, 2, 1, .w1c, .atOnce, 0, 0, 1⟩
/-! ### WFT_COVER: R201 -/
def Fld.WFT_COVER_COVER_NOW : Field := ⟨.WFT_COVER, 0, 32, .ro, .none, 0, 0, 4294967295⟩
def Fld.WFT_COVER_COVER_MIN : Field := ⟨.WFT_COVER, 32, 32, .ro, .none, 4294967295, 0, 4294967295⟩
/-! ### WFT_FIFO: R201 -/
def Fld.WFT_FIFO_FIFO_LINES : Field := ⟨.WFT_FIFO, 0, 8, .ro, .none, 0, 0, 255⟩
def Fld.WFT_FIFO_LINE_COST : Field := ⟨.WFT_FIFO, 16, 16, .ro, .none, 0, 0, 65535⟩
/-! ### WFT_ROUTED: R201 -/
def Fld.WFT_ROUTED_DOTS_ROUTED : Field := ⟨.WFT_ROUTED, 0, 64, .ro, .none, 0, 0, 18446744073709551615⟩
/-! ### WFT_LOST: R201 -/
def Fld.WFT_LOST_STEPS_LOST : Field := ⟨.WFT_LOST, 0, 64, .ro, .none, 0, 0, 18446744073709551615⟩
/-! ### WFT_BLOCKS: R201 -/
def Fld.WFT_BLOCKS_CORR_BLOCKS : Field := ⟨.WFT_BLOCKS, 0, 32, .ro, .none, 0, 0, 4294967295⟩
def Fld.WFT_BLOCKS_CORR_DISCARDS : Field := ⟨.WFT_BLOCKS, 32, 32, .ro, .none, 0, 0, 4294967295⟩
/-! ### WFT_REED: R201 -/
def Fld.WFT_REED_REED_ENTRIES : Field := ⟨.WFT_REED, 0, 13, .ro, .none, 0, 0, 8191⟩
/-! ### FIR_CFG: R236 -/
def Fld.FIR_CFG_ENERGY_PATH : Field := ⟨.FIR_CFG, 0, 2, .rw, .setSwap, 0, 0, 2⟩
def Fld.FIR_CFG_PREHEAT_EN : Field := ⟨.FIR_CFG, 2, 1, .rw, .setSwap, 1, 0, 1⟩
def Fld.FIR_CFG_PREHEAT_EVERY : Field := ⟨.FIR_CFG, 3, 3, .rw, .setSwap, 3, 2, 5⟩
def Fld.FIR_CFG_HIST_DEPTH : Field := ⟨.FIR_CFG, 6, 2, .rw, .setSwap, 1, 0, 3⟩
def Fld.FIR_CFG_HIST_HOLD : Field := ⟨.FIR_CFG, 8, 16, .rw, .setSwap, 10000, 0, 65535⟩
/-! ### FIR_SUPPLY: R236 -/
def Fld.FIR_SUPPLY_SUPPLY_EN : Field := ⟨.FIR_SUPPLY, 0, 1, .rw, .setSwap, 0, 0, 1⟩
def Fld.FIR_SUPPLY_SUPPLY_HUB : Field := ⟨.FIR_SUPPLY, 1, 5, .rw, .setSwap, 0, 0, 23⟩
def Fld.FIR_SUPPLY_SUPPLY_SLOT : Field := ⟨.FIR_SUPPLY, 6, 4, .rw, .setSwap, 0, 0, 15⟩
/-! ### FIR_CONS: R236 -/
def Fld.FIR_CONS_CONS_POLICY : Field := ⟨.FIR_CONS, 0, 1, .rw, .atOnce, 0, 0, 1⟩
def Fld.FIR_CONS_CONS_TIMEOUT : Field := ⟨.FIR_CONS, 8, 8, .rw, .atOnce, 100, 10, 255⟩
/-! ### FIR_STATUS: R236 -/
def Fld.FIR_STATUS_PATH_SWITCHED : Field := ⟨.FIR_STATUS, 0, 1, .w1c, .atOnce, 0, 0, 1⟩
def Fld.FIR_STATUS_PREHEAT_MISSING : Field := ⟨.FIR_STATUS, 1, 1, .w1c, .atOnce, 0, 0, 1⟩
def Fld.FIR_STATUS_HEAD_COLD : Field := ⟨.FIR_STATUS, 2, 1, .w1c, .atOnce, 0, 0, 1⟩
def Fld.FIR_STATUS_PREHEAT_FAULT : Field := ⟨.FIR_STATUS, 3, 1, .w1c, .atOnce, 0, 0, 1⟩
def Fld.FIR_STATUS_CONS_AUTH_FAIL : Field := ⟨.FIR_STATUS, 4, 1, .w1c, .atOnce, 0, 0, 1⟩
def Fld.FIR_STATUS_CONS_TIMEOUT : Field := ⟨.FIR_STATUS, 5, 1, .w1c, .atOnce, 0, 0, 1⟩
def Fld.FIR_STATUS_CONS_SEQ_FAULT : Field := ⟨.FIR_STATUS, 6, 1, .w1c, .atOnce, 0, 0, 1⟩
def Fld.FIR_STATUS_CONS_BACKLOG : Field := ⟨.FIR_STATUS, 7, 1, .w1c, .atOnce, 0, 0, 1⟩
/-! ### FIR_PATH: R236 -/
def Fld.FIR_PATH_PATH_NOW : Field := ⟨.FIR_PATH, 0, 16, .ro, .none, 0, 0, 65535⟩
/-! ### FIR_SWITCHES: R236 -/
def Fld.FIR_SWITCHES_PATH_SWITCHES : Field := ⟨.FIR_SWITCHES, 0, 32, .ro, .none, 0, 0, 4294967295⟩
/-! ### FIR_PREHEAT: R236 -/
def Fld.FIR_PREHEAT_PREHEAT_MISSES : Field := ⟨.FIR_PREHEAT, 0, 32, .ro, .none, 0, 0, 4294967295⟩
/-! ### FIR_HEAD_TEMP: R236 -/
def Fld.FIR_HEAD_TEMP_HEAD_TEMP : Field := ⟨.FIR_HEAD_TEMP, 0, 8, .ro, .none, 0, 0, 255⟩
/-! ### FIR_HEAD_TOTAL: R236 -/
def Fld.FIR_HEAD_TOTAL_HEAD_TOTAL : Field := ⟨.FIR_HEAD_TOTAL, 0, 64, .ro, .none, 0, 0, 18446744073709551615⟩
/-! ### FIR_HEAD_PENDING: R236 -/
def Fld.FIR_HEAD_PENDING_HEAD_PENDING : Field := ⟨.FIR_HEAD_PENDING, 0, 64, .ro, .none, 0, 0, 18446744073709551615⟩
/-! ### FIR_HEAD_SEQ: R236 -/
def Fld.FIR_HEAD_SEQ_HEAD_SEQ : Field := ⟨.FIR_HEAD_SEQ, 0, 32, .ro, .none, 0, 0, 4294967295⟩
/-! ### FIR_INK_TOTAL: R236 -/
def Fld.FIR_INK_TOTAL_INK_TOTAL : Field := ⟨.FIR_INK_TOTAL, 0, 64, .ro, .none, 0, 0, 18446744073709551615⟩
/-! ### FIR_INK_PENDING: R236 -/
def Fld.FIR_INK_PENDING_INK_PENDING : Field := ⟨.FIR_INK_PENDING, 0, 64, .ro, .none, 0, 0, 18446744073709551615⟩
/-! ### FIR_INK_SEQ: R236 -/
def Fld.FIR_INK_SEQ_INK_SEQ : Field := ⟨.FIR_INK_SEQ, 0, 32, .ro, .none, 0, 0, 4294967295⟩
/-! ### FL_HUB: R284 -/
def Fld.FL_HUB_HUB_EN : Field := ⟨.FL_HUB, 0, 1, .rw, .nextStart, 0, 0, 1⟩
def Fld.FL_HUB_FIRST_LANE : Field := ⟨.FL_HUB, 1, 5, .rw, .nextStart, 0, 0, 23⟩
def Fld.FL_HUB_WIDTH : Field := ⟨.FL_HUB, 6, 3, .rw, .nextStart, 1, 1, 4⟩
def Fld.FL_HUB_RATE : Field := ⟨.FL_HUB, 9, 2, .rw, .nextStart, 3, 0, 3⟩
def Fld.FL_HUB_FAILOVER_ON_LINK : Field := ⟨.FL_HUB, 11, 1, .rw, .atOnce, 0, 0, 1⟩
def Fld.FL_HUB_ASYM : Field := ⟨.FL_HUB, 12, 16, .rw, .atOnce, 0, 0, 65535⟩
/-! ### FL_CTRL: R284 -/
def Fld.FL_CTRL_REJOIN_HOLD : Field := ⟨.FL_CTRL, 0, 10, .rw, .atOnce, 10, 1, 1000⟩
def Fld.FL_CTRL_UNACKED_LIMIT : Field := ⟨.FL_CTRL, 10, 10, .rw, .atOnce, 10, 1, 1000⟩
def Fld.FL_CTRL_BRINGUP_TIMEOUT : Field := ⟨.FL_CTRL, 20, 8, .rw, .atOnce, 20, 5, 255⟩
/-! ### FL_EYE: R284 -/
def Fld.FL_EYE_EYE_LANE : Field := ⟨.FL_EYE, 0, 5, .rw, .atOnce, 0, 0, 31⟩
def Fld.FL_EYE_EYE_BITS : Field := ⟨.FL_EYE, 5, 6, .rw, .atOnce, 27, 20, 40⟩
def Fld.FL_EYE_EYE_START : Field := ⟨.FL_EYE, 11, 1, .wo, .atOnce, 0, 0, 1⟩
/-! ### FL_STATUS: R284 -/
def Fld.FL_STATUS_LANE_DOWN : Field := ⟨.FL_STATUS, 0, 1, .w1c, .atOnce, 0, 0, 1⟩
def Fld.FL_STATUS_RESTRIPED : Field := ⟨.FL_STATUS, 1, 1, .w1c, .atOnce, 0, 0, 1⟩
def Fld.FL_STATUS_HUB_SHED : Field := ⟨.FL_STATUS, 2, 1, .w1c, .atOnce, 0, 0, 1⟩
def Fld.FL_STATUS_ACK_LOST : Field := ⟨.FL_STATUS, 3, 1, .w1c, .atOnce, 0, 0, 1⟩
def Fld.FL_STATUS_CRC_ERROR : Field := ⟨.FL_STATUS, 4, 1, .w1c, .atOnce, 0, 0, 1⟩
def Fld.FL_STATUS_MISWIRED : Field := ⟨.FL_STATUS, 5, 1, .w1c, .atOnce, 0, 0, 1⟩
def Fld.FL_STATUS_CMD_TIMEOUT : Field := ⟨.FL_STATUS, 6, 1, .w1c, .atOnce, 0, 0, 1⟩
def Fld.FL_STATUS_HUB_UNSYNC : Field := ⟨.FL_STATUS, 7, 1, .w1c, .atOnce, 0, 0, 1⟩
def Fld.FL_STATUS_DUAL_ACTIVE : Field := ⟨.FL_STATUS, 8, 1, .w1c, .atOnce, 0, 0, 1⟩
def Fld.FL_STATUS_UNACKED : Field := ⟨.FL_STATUS, 9, 1, .w1c, .atOnce, 0, 0, 1⟩
/-! ### FL_LANE: R284 -/
def Fld.FL_LANE_LOCKED : Field := ⟨.FL_LANE, 0, 1, .ro, .none, 0, 0, 1⟩
def Fld.FL_LANE_INVERTED : Field := ⟨.FL_LANE, 1, 1, .ro, .none, 0, 0, 1⟩
def Fld.FL_LANE_GROUP_LANE : Field := ⟨.FL_LANE, 2, 2, .ro, .none, 0, 0, 3⟩
def Fld.FL_LANE_IN_USE : Field := ⟨.FL_LANE, 4, 1, .ro, .none, 0, 0, 1⟩
def Fld.FL_LANE_HUB_RX_LOCK : Field := ⟨.FL_LANE, 5, 1, .ro, .none, 0, 0, 1⟩
def Fld.FL_LANE_MISWIRED : Field := ⟨.FL_LANE, 6, 1, .ro, .none, 0, 0, 1⟩
/-! ### FL_HUBSTATE: R284 -/
def Fld.FL_HUBSTATE_STATE : Field := ⟨.FL_HUBSTATE, 0, 2, .ro, .none, 0, 0, 3⟩
def Fld.FL_HUBSTATE_LANE_MASK : Field := ⟨.FL_HUBSTATE, 2, 4, .ro, .none, 0, 0, 15⟩
def Fld.FL_HUBSTATE_SHED : Field := ⟨.FL_HUBSTATE, 6, 1, .ro, .none, 0, 0, 1⟩
def Fld.FL_HUBSTATE_FOLLOWS_ME : Field := ⟨.FL_HUBSTATE, 7, 1, .ro, .none, 0, 0, 1⟩
def Fld.FL_HUBSTATE_HUB_STATUS : Field := ⟨.FL_HUBSTATE, 16, 16, .ro, .none, 0, 0, 65535⟩
/-! ### FL_BLOCK_ERR: R284 -/
def Fld.FL_BLOCK_ERR_BLOCK_ERRORS : Field := ⟨.FL_BLOCK_ERR, 0, 32, .ro, .none, 0, 0, 4294967295⟩
/-! ### FL_LOCK_LOSS: R284 -/
def Fld.FL_LOCK_LOSS_LOCK_LOSSES : Field := ⟨.FL_LOCK_LOSS, 0, 32, .ro, .none, 0, 0, 4294967295⟩
/-! ### FL_CRC_ERR: R284 -/
def Fld.FL_CRC_ERR_CRC_ERRORS : Field := ⟨.FL_CRC_ERR, 0, 32, .ro, .none, 0, 0, 4294967295⟩
/-! ### FL_RESTRIPE: R284 -/
def Fld.FL_RESTRIPE_LINES_LOST_RESTRIPE : Field := ⟨.FL_RESTRIPE, 0, 32, .ro, .none, 0, 0, 4294967295⟩
/-! ### FL_SHED: R284 -/
def Fld.FL_SHED_LINES_SHED_LINK : Field := ⟨.FL_SHED, 0, 64, .ro, .none, 0, 0, 18446744073709551615⟩
/-! ### FL_UNACKED: R284 -/
def Fld.FL_UNACKED_LINES_UNACKED : Field := ⟨.FL_UNACKED, 0, 32, .ro, .none, 0, 0, 4294967295⟩
/-! ### FL_EYE_RES: R284 -/
def Fld.FL_EYE_RES_EYE_WIDTH : Field := ⟨.FL_EYE_RES, 0, 6, .ro, .none, 0, 0, 63⟩
def Fld.FL_EYE_RES_EYE_HEIGHT : Field := ⟨.FL_EYE_RES, 8, 8, .ro, .none, 0, 0, 255⟩
/-! ### CAM_CTRL: R326 -/
def Fld.CAM_CTRL_CAM_EN : Field := ⟨.CAM_CTRL, 0, 1, .rw, .atOnce, 0, 0, 1⟩
def Fld.CAM_CTRL_LANES : Field := ⟨.CAM_CTRL, 1, 2, .rw, .frame, 2, 0, 2⟩
def Fld.CAM_CTRL_FORMAT : Field := ⟨.CAM_CTRL, 3, 1, .rw, .frame, 1, 0, 1⟩
def Fld.CAM_CTRL_BANDS : Field := ⟨.CAM_CTRL, 4, 2, .rw, .frame, 3, 0, 3⟩
def Fld.CAM_CTRL_LANE_INV : Field := ⟨.CAM_CTRL, 6, 4, .rw, .frame, 0, 0, 15⟩
def Fld.CAM_CTRL_CLK_INV : Field := ⟨.CAM_CTRL, 10, 1, .rw, .frame, 0, 0, 1⟩
def Fld.CAM_CTRL_TRIG_EN : Field := ⟨.CAM_CTRL, 11, 1, .rw, .frame, 1, 0, 1⟩
def Fld.CAM_CTRL_AE_EN : Field := ⟨.CAM_CTRL, 12, 1, .rw, .frame, 1, 0, 1⟩
def Fld.CAM_CTRL_STORE_FRAMES : Field := ⟨.CAM_CTRL, 13, 3, .rw, .nextStart, 2, 0, 7⟩
def Fld.CAM_CTRL_CCI_SPEED : Field := ⟨.CAM_CTRL, 16, 2, .rw, .frame, 1, 0, 2⟩
def Fld.CAM_CTRL_TRIG_WIDTH : Field := ⟨.CAM_CTRL, 18, 14, .rw, .frame, 125, 0, 16383⟩
/-! ### CAM_GEOM: R326 -/
def Fld.CAM_GEOM_CAM_WIDTH : Field := ⟨.CAM_GEOM, 0, 16, .rw, .frame, 0, 64, 32768⟩
def Fld.CAM_GEOM_CAM_ROWS : Field := ⟨.CAM_GEOM, 16, 7, .rw, .frame, 8, 1, 64⟩
def Fld.CAM_GEOM_ROW_STEP : Field := ⟨.CAM_GEOM, 23, 8, .rw, .frame, 2, 2, 255⟩
/-! ### CAM_POS: R326 -/
def Fld.CAM_POS_CAM_X0 : Field := ⟨.CAM_POS, 0, 24, .rw, .frame, 0, 0, 16777215⟩
/-! ### CAM_PITCH: R326 -/
def Fld.CAM_PITCH_X_PITCH : Field := ⟨.CAM_PITCH, 0, 16, .rw, .frame, 512, 0, 65535⟩
def Fld.CAM_PITCH_X_DIR : Field := ⟨.CAM_PITCH, 16, 1, .rw, .frame, 0, 0, 1⟩
/-! ### CAM_OFF: R326 -/
def Fld.CAM_OFF_CAM_OFFSET : Field := ⟨.CAM_OFF, 0, 24, .rw, .frame, 0, 0, 16777215⟩
/-! ### CAM_FRAME: R326 -/
def Fld.CAM_FRAME_FRAME_SPACING : Field := ⟨.CAM_FRAME, 0, 24, .rw, .frame, 9449, 0, 16777215⟩
/-! ### CAM_PHASE: R326 -/
def Fld.CAM_PHASE_FRAME_PHASE : Field := ⟨.CAM_PHASE, 0, 24, .rw, .frame, 0, 0, 16777215⟩
/-! ### CAM_AE: R326 -/
def Fld.CAM_AE_AE_TARGET : Field := ⟨.CAM_AE, 0, 8, .rw, .frame, 200, 0, 255⟩
def Fld.CAM_AE_AE_PCT : Field := ⟨.CAM_AE, 8, 7, .rw, .frame, 99, 0, 127⟩
def Fld.CAM_AE_AE_PERIOD : Field := ⟨.CAM_AE, 16, 8, .rw, .frame, 16, 0, 255⟩
/-! ### CAM_TRIM: R326 -/
def Fld.CAM_TRIM_X_TRIM : Field := ⟨.CAM_TRIM, 0, 8, .ro, .none, 0, 0, 255⟩
def Fld.CAM_TRIM_Y_TRIM : Field := ⟨.CAM_TRIM, 8, 8, .ro, .none, 0, 0, 255⟩
/-! ### CAM_STATUS: R326 -/
def Fld.CAM_STATUS_TRUNCATED : Field := ⟨.CAM_STATUS, 0, 1, .w1c, .atOnce, 0, 0, 1⟩
def Fld.CAM_STATUS_SHORT : Field := ⟨.CAM_STATUS, 1, 1, .w1c, .atOnce, 0, 0, 1⟩
def Fld.CAM_STATUS_LONG : Field := ⟨.CAM_STATUS, 2, 1, .w1c, .atOnce, 0, 0, 1⟩
def Fld.CAM_STATUS_LINK_ERROR : Field := ⟨.CAM_STATUS, 3, 1, .w1c, .atOnce, 0, 0, 1⟩
def Fld.CAM_STATUS_TIMEOUT : Field := ⟨.CAM_STATUS, 4, 1, .w1c, .atOnce, 0, 0, 1⟩
def Fld.CAM_STATUS_CCI_FAIL : Field := ⟨.CAM_STATUS, 5, 1, .w1c, .atOnce, 0, 0, 1⟩
def Fld.CAM_STATUS_TRIG_FAULT : Field := ⟨.CAM_STATUS, 6, 1, .w1c, .atOnce, 0, 0, 1⟩
def Fld.CAM_STATUS_AE_LIMIT : Field := ⟨.CAM_STATUS, 7, 1, .w1c, .atOnce, 0, 0, 1⟩
def Fld.CAM_STATUS_NO_STORE : Field := ⟨.CAM_STATUS, 8, 1, .w1c, .atOnce, 0, 0, 1⟩
/-! ### CAM_GOOD: R326 -/
def Fld.CAM_GOOD_FRAMES_GOOD : Field := ⟨.CAM_GOOD, 0, 32, .ro, .none, 0, 0, 4294967295⟩
/-! ### CAM_TRUNC: R326 -/
def Fld.CAM_TRUNC_FRAMES_TRUNCATED : Field := ⟨.CAM_TRUNC, 0, 32, .ro, .none, 0, 0, 4294967295⟩
/-! ### CAM_SHORT: R326 -/
def Fld.CAM_SHORT_FRAMES_SHORT : Field := ⟨.CAM_SHORT, 0, 32, .ro, .none, 0, 0, 4294967295⟩
/-! ### CAM_LONG: R326 -/
def Fld.CAM_LONG_FRAMES_LONG : Field := ⟨.CAM_LONG, 0, 32, .ro, .none, 0, 0, 4294967295⟩
/-! ### CAM_ERR: R326 -/
def Fld.CAM_ERR_FRAMES_ERROR : Field := ⟨.CAM_ERR, 0, 32, .ro, .none, 0, 0, 4294967295⟩
/-! ### CAM_SKIP: R326 -/
def Fld.CAM_SKIP_FRAMES_SKIPPED : Field := ⟨.CAM_SKIP, 0, 32, .ro, .none, 0, 0, 4294967295⟩
/-! ### CLP_CTRL: R327 -/
def Fld.CLP_CTRL_CLP_EN : Field := ⟨.CLP_CTRL, 0, 1, .rw, .setSwap, 0, 0, 1⟩
def Fld.CLP_CTRL_GROUP_SIZE : Field := ⟨.CLP_CTRL, 1, 2, .rw, .setSwap, 1, 0, 3⟩
def Fld.CLP_CTRL_CLP_LENGTH : Field := ⟨.CLP_CTRL, 3, 8, .rw, .setSwap, 5, 1, 200⟩
def Fld.CLP_CTRL_CLP_GAIN : Field := ⟨.CLP_CTRL, 11, 8, .rw, .setSwap, 128, 1, 255⟩
def Fld.CLP_CTRL_STEP_MAX : Field := ⟨.CLP_CTRL, 19, 8, .rw, .setSwap, 10, 1, 255⟩
def Fld.CLP_CTRL_WHITE_TC : Field := ⟨.CLP_CTRL, 27, 4, .rw, .setSwap, 6, 2, 12⟩
/-! ### CLP_SOLVE: R327 -/
def Fld.CLP_SOLVE_MIN_OBS : Field := ⟨.CLP_SOLVE, 0, 16, .rw, .setSwap, 256, 0, 65535⟩
def Fld.CLP_SOLVE_MIN_EXCITE : Field := ⟨.CLP_SOLVE, 16, 8, .rw, .setSwap, 13, 0, 255⟩
def Fld.CLP_SOLVE_COND : Field := ⟨.CLP_SOLVE, 24, 4, .rw, .setSwap, 12, 0, 15⟩
def Fld.CLP_SOLVE_RIDGE : Field := ⟨.CLP_SOLVE, 28, 4, .rw, .setSwap, 4, 0, 15⟩
/-! ### CLP_LIMITS: R327 -/
def Fld.CLP_LIMITS_COEF_MIN : Field := ⟨.CLP_LIMITS, 0, 16, .rw, .setSwap, 8192, 0, 65535⟩
def Fld.CLP_LIMITS_COEF_MAX : Field := ⟨.CLP_LIMITS, 16, 16, .rw, .setSwap, 24576, 0, 65535⟩
def Fld.CLP_LIMITS_DMAX : Field := ⟨.CLP_LIMITS, 32, 12, .rw, .setSwap, 1843, 0, 4095⟩
/-! ### CLP_SLOT: R327 -/
def Fld.CLP_SLOT_SLOT : Field := ⟨.CLP_SLOT, 0, 4, .rw, .setSwap, 15, 0, 15⟩
def Fld.CLP_SLOT_LADDER_EN : Field := ⟨.CLP_SLOT, 4, 1, .rw, .setSwap, 0, 0, 1⟩
/-! ### CLP_K: R327 -/
def Fld.CLP_K_K : Field := ⟨.CLP_K, 0, 16, .rw, .setSwap, 0, 0, 65535⟩
/-! ### CLP_DCURVE: R327 -/
def Fld.CLP_DCURVE_DCURVE : Field := ⟨.CLP_DCURVE, 0, 16, .rw, .setSwap, 0, 0, 65535⟩
/-! ### CLP_LADDER: R327 -/
def Fld.CLP_LADDER_LADDER_INTERVAL : Field := ⟨.CLP_LADDER, 0, 8, .rw, .setSwap, 20, 0, 255⟩
def Fld.CLP_LADDER_RUNGS : Field := ⟨.CLP_LADDER, 8, 4, .rw, .setSwap, 8, 2, 15⟩
def Fld.CLP_LADDER_DASH : Field := ⟨.CLP_LADDER, 12, 8, .rw, .setSwap, 32, 0, 255⟩
def Fld.CLP_LADDER_GAP : Field := ⟨.CLP_LADDER, 20, 8, .rw, .setSwap, 8, 0, 255⟩
/-! ### CLP_LSLOT: R327 -/
def Fld.CLP_LSLOT_LADDER_PERIOD : Field := ⟨.CLP_LSLOT, 0, 32, .rw, .setSwap, 0, 0, 4294967295⟩
def Fld.CLP_LSLOT_LADDER_PHASE : Field := ⟨.CLP_LSLOT, 32, 32, .rw, .setSwap, 0, 0, 4294967295⟩
/-! ### CLP_CLASS: R327 -/
def Fld.CLP_CLASS_LADDER_OUT : Field := ⟨.CLP_CLASS, 0, 8, .rw, .setSwap, 77, 0, 255⟩
def Fld.CLP_CLASS_LADDER_WEAK : Field := ⟨.CLP_CLASS, 8, 8, .rw, .setSwap, 179, 0, 255⟩
def Fld.CLP_CLASS_LADDER_DEV : Field := ⟨.CLP_CLASS, 16, 8, .rw, .setSwap, 8, 0, 255⟩
def Fld.CLP_CLASS_LADDER_CONFIRM : Field := ⟨.CLP_CLASS, 24, 4, .rw, .setSwap, 2, 0, 15⟩
/-! ### CLP_FREEZE: R327 -/
def Fld.CLP_FREEZE_FREEZE : Field := ⟨.CLP_FREEZE, 0, 16, .rw, .atOnce, 0, 0, 65535⟩
/-! ### CLP_COEF: R327 -/
def Fld.CLP_COEF_COEF : Field := ⟨.CLP_COEF, 0, 16, .ro, .strip, 16384, 0, 65535⟩
/-! ### CLP_DELTA: R327 -/
def Fld.CLP_DELTA_DELTA : Field := ⟨.CLP_DELTA, 0, 16, .ro, .none, 0, 0, 65535⟩
/-! ### CLP_STATUS: R327 -/
def Fld.CLP_STATUS_SOLVE_LATE : Field := ⟨.CLP_STATUS, 0, 1, .w1c, .atOnce, 0, 0, 1⟩
def Fld.CLP_STATUS_ILL_COND : Field := ⟨.CLP_STATUS, 1, 1, .w1c, .atOnce, 0, 0, 1⟩
def Fld.CLP_STATUS_COEF_LIMIT : Field := ⟨.CLP_STATUS, 2, 1, .w1c, .atOnce, 0, 0, 1⟩
def Fld.CLP_STATUS_LADDER_FAILED : Field := ⟨.CLP_STATUS, 3, 1, .w1c, .atOnce, 0, 0, 1⟩
def Fld.CLP_STATUS_REG_LOST : Field := ⟨.CLP_STATUS, 4, 1, .w1c, .atOnce, 0, 0, 1⟩
def Fld.CLP_STATUS_NO_CAMERA : Field := ⟨.CLP_STATUS, 5, 1, .w1c, .atOnce, 0, 0, 1⟩
def Fld.CLP_STATUS_UNCORRECTABLE : Field := ⟨.CLP_STATUS, 6, 1, .w1c, .atOnce, 0, 0, 1⟩
def Fld.CLP_STATUS_LADDER_NO_SLOT : Field := ⟨.CLP_STATUS, 7, 1, .w1c, .atOnce, 0, 0, 1⟩
def Fld.CLP_STATUS_SOLVING : Field := ⟨.CLP_STATUS, 16, 1, .ro, .none, 0, 0, 1⟩
def Fld.CLP_STATUS_HOLDING : Field := ⟨.CLP_STATUS, 17, 1, .ro, .none, 0, 0, 1⟩
/-! ### CLP_SOLVES: R327 -/
def Fld.CLP_SOLVES_SOLVES : Field := ⟨.CLP_SOLVES, 0, 32, .ro, .none, 0, 0, 4294967295⟩
/-! ### CLP_GROUPS: R327 -/
def Fld.CLP_GROUPS_GROUPS_SKIPPED : Field := ⟨.CLP_GROUPS, 0, 32, .ro, .none, 0, 0, 4294967295⟩
def Fld.CLP_GROUPS_GROUPS_ILL_COND : Field := ⟨.CLP_GROUPS, 32, 32, .ro, .none, 0, 0, 4294967295⟩
/-! ### CLP_REJECT: R327 -/
def Fld.CLP_REJECT_OBS_REJECTED : Field := ⟨.CLP_REJECT, 0, 64, .ro, .none, 0, 0, 18446744073709551615⟩
/-! ### CLP_LADDERS: R327 -/
def Fld.CLP_LADDERS_LADDERS : Field := ⟨.CLP_LADDERS, 0, 32, .ro, .none, 0, 0, 4294967295⟩
/-! ### SYS_ROLE: R368 -/
def Fld.SYS_ROLE_ROLE : Field := ⟨.SYS_ROLE, 0, 2, .ro, .none, 2, 0, 3⟩
def Fld.SYS_ROLE_UNIT : Field := ⟨.SYS_ROLE, 2, 1, .ro, .none, 0, 0, 1⟩
def Fld.SYS_ROLE_LEASE_HELD : Field := ⟨.SYS_ROLE, 3, 1, .ro, .none, 0, 0, 1⟩
def Fld.SYS_ROLE_PEER_UP : Field := ⟨.SYS_ROLE, 4, 1, .ro, .none, 0, 0, 1⟩
def Fld.SYS_ROLE_HB_OK : Field := ⟨.SYS_ROLE, 5, 1, .ro, .none, 0, 0, 1⟩
def Fld.SYS_ROLE_EPOCH_LOW : Field := ⟨.SYS_ROLE, 8, 24, .ro, .none, 0, 0, 16777215⟩
/-! ### PAIR_HEALTH: R368 -/
def Fld.PAIR_HEALTH_SCORE : Field := ⟨.PAIR_HEALTH, 0, 8, .ro, .none, 0, 0, 255⟩
def Fld.PAIR_HEALTH_SYNCED : Field := ⟨.PAIR_HEALTH, 8, 1, .ro, .none, 0, 0, 1⟩
def Fld.PAIR_HEALTH_TAKEOVER_READY : Field := ⟨.PAIR_HEALTH, 9, 1, .ro, .none, 0, 0, 1⟩
def Fld.PAIR_HEALTH_RESYNC_STAGE : Field := ⟨.PAIR_HEALTH, 10, 3, .ro, .none, 0, 0, 7⟩
def Fld.PAIR_HEALTH_MATCH_RUN : Field := ⟨.PAIR_HEALTH, 16, 16, .ro, .none, 0, 0, 65535⟩
/-! ### PAIR_CTRL: R368 -/
def Fld.PAIR_CTRL_HEALTH_MIN : Field := ⟨.PAIR_CTRL, 0, 7, .rw, .atOnce, 50, 0, 127⟩
def Fld.PAIR_CTRL_FAILOVER_ON_SELFTEST : Field := ⟨.PAIR_CTRL, 7, 1, .rw, .atOnce, 1, 0, 1⟩
def Fld.PAIR_CTRL_PAIR_JOIN_WAIT : Field := ⟨.PAIR_CTRL, 8, 8, .rw, .nextStart, 20, 5, 255⟩
def Fld.PAIR_CTRL_REPL_RATE : Field := ⟨.PAIR_CTRL, 16, 8, .rw, .nextPick, 20, 1, 50⟩
/-! ### PAIR_STATUS: R368 -/
def Fld.PAIR_STATUS_TAKEOVER : Field := ⟨.PAIR_STATUS, 0, 1, .w1c, .atOnce, 0, 0, 1⟩
def Fld.PAIR_STATUS_RELEASED : Field := ⟨.PAIR_STATUS, 1, 1, .w1c, .atOnce, 0, 0, 1⟩
def Fld.PAIR_STATUS_RECORD_MISSED : Field := ⟨.PAIR_STATUS, 2, 1, .w1c, .atOnce, 0, 0, 1⟩
def Fld.PAIR_STATUS_PARTNER_LOST : Field := ⟨.PAIR_STATUS, 3, 1, .w1c, .atOnce, 0, 0, 1⟩
def Fld.PAIR_STATUS_DEGRADED : Field := ⟨.PAIR_STATUS, 4, 1, .w1c, .atOnce, 0, 0, 1⟩
def Fld.PAIR_STATUS_MISMATCH : Field := ⟨.PAIR_STATUS, 5, 1, .w1c, .atOnce, 0, 0, 1⟩
def Fld.PAIR_STATUS_HEALTH_LOW : Field := ⟨.PAIR_STATUS, 6, 1, .w1c, .atOnce, 0, 0, 1⟩
def Fld.PAIR_STATUS_SELFTEST_FAIL : Field := ⟨.PAIR_STATUS, 7, 1, .w1c, .atOnce, 0, 0, 1⟩
def Fld.PAIR_STATUS_TAKEOVER_REFUSED : Field := ⟨.PAIR_STATUS, 8, 1, .w1c, .atOnce, 0, 0, 1⟩
def Fld.PAIR_STATUS_SUPERSEDED : Field := ⟨.PAIR_STATUS, 9, 1, .w1c, .atOnce, 0, 0, 1⟩
def Fld.PAIR_STATUS_DEGRADED_NOW : Field := ⟨.PAIR_STATUS, 16, 1, .ro, .none, 0, 0, 1⟩
def Fld.PAIR_STATUS_HANDOVER_PENDING : Field := ⟨.PAIR_STATUS, 17, 1, .ro, .none, 0, 0, 1⟩
/-! ### PAIR_EPOCH: R368 -/
def Fld.PAIR_EPOCH_EPOCH : Field := ⟨.PAIR_EPOCH, 0, 32, .ro, .none, 0, 0, 4294967295⟩
/-! ### PAIR_LEASE_UNTIL: R368 -/
def Fld.PAIR_LEASE_UNTIL_LEASE_UNTIL : Field := ⟨.PAIR_LEASE_UNTIL, 0, 64, .ro, .none, 0, 0, 18446744073709551615⟩
/-! ### PAIR_TAKEOVERS: R368 -/
def Fld.PAIR_TAKEOVERS_TAKEOVERS : Field := ⟨.PAIR_TAKEOVERS, 0, 32, .ro, .none, 0, 0, 4294967295⟩
/-! ### PAIR_MISSED: R368 -/
def Fld.PAIR_MISSED_RECORDS_MISSED : Field := ⟨.PAIR_MISSED, 0, 32, .ro, .none, 0, 0, 4294967295⟩
/-! ### PAIR_MISMATCH: R368 -/
def Fld.PAIR_MISMATCH_MISMATCHES : Field := ⟨.PAIR_MISMATCH, 0, 32, .ro, .none, 0, 0, 4294967295⟩
def Fld.PAIR_MISMATCH_MISMATCHES_EXPLAINED : Field := ⟨.PAIR_MISMATCH, 32, 32, .ro, .none, 0, 0, 4294967295⟩
/-! ### PAIR_GAP_FIRST: R368 -/
def Fld.PAIR_GAP_FIRST_GAP_FIRST : Field := ⟨.PAIR_GAP_FIRST, 0, 48, .ro, .none, 0, 0, 281474976710655⟩
/-! ### PAIR_GAP_LAST: R368 -/
def Fld.PAIR_GAP_LAST_GAP_LAST : Field := ⟨.PAIR_GAP_LAST, 0, 48, .ro, .none, 0, 0, 281474976710655⟩
/-! ### SYS_ID: R382 -/
def Fld.SYS_ID_DEVICE : Field := ⟨.SYS_ID, 0, 16, .ro, .none, 33280, 0, 65535⟩
def Fld.SYS_ID_VENDOR : Field := ⟨.SYS_ID, 16, 16, .ro, .none, 7788, 0, 65535⟩
/-! ### SYS_REV: R382 -/
def Fld.SYS_REV_REV_DIGIT : Field := ⟨.SYS_REV, 0, 8, .ro, .none, 0, 0, 255⟩
def Fld.SYS_REV_REV_LETTER : Field := ⟨.SYS_REV, 8, 8, .ro, .none, 0, 0, 255⟩
/-! ### SYS_FW_VERSION: R382 -/
def Fld.SYS_FW_VERSION_BUILD : Field := ⟨.SYS_FW_VERSION, 0, 16, .ro, .none, 0, 0, 65535⟩
def Fld.SYS_FW_VERSION_MINOR : Field := ⟨.SYS_FW_VERSION, 16, 8, .ro, .none, 0, 0, 255⟩
def Fld.SYS_FW_VERSION_MAJOR : Field := ⟨.SYS_FW_VERSION, 24, 8, .ro, .none, 0, 0, 255⟩
/-! ### SYS_STATE: R382 -/
def Fld.SYS_STATE_STATE : Field := ⟨.SYS_STATE, 0, 4, .ro, .none, 2, 0, 15⟩
def Fld.SYS_STATE_ATTACH : Field := ⟨.SYS_STATE, 4, 1, .ro, .none, 0, 0, 1⟩
def Fld.SYS_STATE_LINK_RATE : Field := ⟨.SYS_STATE, 5, 2, .ro, .none, 0, 0, 3⟩
def Fld.SYS_STATE_LINK_WIDTH : Field := ⟨.SYS_STATE, 7, 3, .ro, .none, 0, 0, 7⟩
/-! ### MBX_STATUS: R394 -/
def Fld.MBX_STATUS_IN_PENDING : Field := ⟨.MBX_STATUS, 0, 1, .ro, .none, 0, 0, 1⟩
def Fld.MBX_STATUS_OUT_FULL : Field := ⟨.MBX_STATUS, 1, 1, .ro, .none, 0, 0, 1⟩
def Fld.MBX_STATUS_OUT_ACK : Field := ⟨.MBX_STATUS, 2, 1, .wo, .atOnce, 0, 0, 1⟩
def Fld.MBX_STATUS_CHAN_RESET : Field := ⟨.MBX_STATUS, 3, 1, .wo, .atOnce, 0, 0, 1⟩
def Fld.MBX_STATUS_QUEUED : Field := ⟨.MBX_STATUS, 4, 3, .ro, .none, 0, 0, 7⟩
def Fld.MBX_STATUS_BUSY_REJECT : Field := ⟨.MBX_STATUS, 8, 1, .w1c, .atOnce, 0, 0, 1⟩
def Fld.MBX_STATUS_ABORTED : Field := ⟨.MBX_STATUS, 9, 1, .w1c, .atOnce, 1, 0, 1⟩
def Fld.MBX_STATUS_IGNORED_WRITE : Field := ⟨.MBX_STATUS, 10, 1, .w1c, .atOnce, 0, 0, 1⟩
def Fld.MBX_STATUS_SESSION : Field := ⟨.MBX_STATUS, 11, 1, .ro, .none, 0, 0, 1⟩
def Fld.MBX_STATUS_REJECT_TAG : Field := ⟨.MBX_STATUS, 16, 16, .ro, .none, 0, 0, 65535⟩
/-! ### DB_H2D_SET: R396 -/
def Fld.DB_H2D_SET_RING : Field := ⟨.DB_H2D_SET, 0, 32, .wo, .atOnce, 0, 0, 4294967295⟩
/-! ### DB_H2D_STATUS: R396 -/
def Fld.DB_H2D_STATUS_PENDING : Field := ⟨.DB_H2D_STATUS, 0, 32, .ro, .none, 0, 0, 4294967295⟩
/-! ### DB_D2H_STATUS: R396 -/
def Fld.DB_D2H_STATUS_STATUS : Field := ⟨.DB_D2H_STATUS, 0, 32, .w1c, .atOnce, 2097935, 0, 4294967295⟩
/-! ### DB_D2H_MASK: R396 -/
def Fld.DB_D2H_MASK_MASK : Field := ⟨.DB_D2H_MASK, 0, 32, .rw, .atOnce, 4294967295, 0, 4294967295⟩
/-! ### LCK: R400 -/
def Fld.LCK_HOLDER : Field := ⟨.LCK, 0, 3, .ro, .atOnce, 0, 0, 7⟩
/-! ### EVT_HEAD: R403 -/
def Fld.EVT_HEAD_HEAD : Field := ⟨.EVT_HEAD, 0, 32, .ro, .none, 0, 0, 4294967295⟩
/-! ### EVT_TAIL: R403 -/
def Fld.EVT_TAIL_TAIL : Field := ⟨.EVT_TAIL, 0, 32, .rw, .atOnce, 0, 0, 4294967295⟩
/-! ### MBX_TAKEN: R404 -/
def Fld.MBX_TAKEN_MESSAGES_TAKEN : Field := ⟨.MBX_TAKEN, 0, 32, .ro, .none, 0, 0, 4294967295⟩
/-! ### MBX_REJECTS: R404 -/
def Fld.MBX_REJECTS_BUSY_REJECTS : Field := ⟨.MBX_REJECTS, 0, 32, .ro, .none, 0, 0, 4294967295⟩
/-! ### MBX_FRAME_ERR: R404 -/
def Fld.MBX_FRAME_ERR_FRAME_ERRORS : Field := ⟨.MBX_FRAME_ERR, 0, 32, .ro, .none, 0, 0, 4294967295⟩
/-! ### EVT_LOST: R404 -/
def Fld.EVT_LOST_EVENTS_LOST : Field := ⟨.EVT_LOST, 0, 32, .ro, .none, 0, 0, 4294967295⟩
/-! ### SET_STATUS: R426 -/
def Fld.SET_STATUS_SWAP_PENDING : Field := ⟨.SET_STATUS, 0, 1, .ro, .none, 0, 0, 1⟩
def Fld.SET_STATUS_VALIDATED : Field := ⟨.SET_STATUS, 1, 1, .ro, .none, 0, 0, 1⟩
def Fld.SET_STATUS_POINT : Field := ⟨.SET_STATUS, 2, 2, .ro, .none, 0, 0, 3⟩
def Fld.SET_STATUS_SNAPSHOT_BAD : Field := ⟨.SET_STATUS, 4, 1, .w1c, .atOnce, 0, 0, 1⟩
def Fld.SET_STATUS_CHANNELS_PENDING : Field := ⟨.SET_STATUS, 16, 16, .ro, .none, 0, 0, 65535⟩
def Fld.SET_STATUS_SWAP_LINE : Field := ⟨.SET_STATUS, 32, 48, .ro, .none, 0, 0, 281474976710655⟩
def Fld.SET_STATUS_SWAP_SEQ : Field := ⟨.SET_STATUS, 96, 32, .ro, .none, 0, 0, 4294967295⟩
/-! ### MOT_CFG: R477 -/
def Fld.MOT_CFG_AX_EN : Field := ⟨.MOT_CFG, 0, 1, .rw, .nextPick, 0, 0, 1⟩
def Fld.MOT_CFG_DIR_INV : Field := ⟨.MOT_CFG, 1, 1, .rw, .nextPick, 0, 0, 1⟩
def Fld.MOT_CFG_EN_POL : Field := ⟨.MOT_CFG, 2, 1, .rw, .nextPick, 0, 0, 1⟩
def Fld.MOT_CFG_LIM_NC : Field := ⟨.MOT_CFG, 3, 1, .rw, .nextPick, 1, 0, 1⟩
def Fld.MOT_CFG_HOME_POL : Field := ⟨.MOT_CFG, 4, 1, .rw, .nextPick, 0, 0, 1⟩
def Fld.MOT_CFG_LIM_STOP : Field := ⟨.MOT_CFG, 5, 1, .rw, .nextPick, 0, 0, 1⟩
def Fld.MOT_CFG_FLT_EN : Field := ⟨.MOT_CFG, 6, 1, .rw, .nextPick, 1, 0, 1⟩
def Fld.MOT_CFG_MICROSTEPS : Field := ⟨.MOT_CFG, 7, 9, .rw, .nextPick, 16, 1, 256⟩
def Fld.MOT_CFG_STEP_WIDTH : Field := ⟨.MOT_CFG, 16, 8, .rw, .nextPick, 125, 3, 255⟩
def Fld.MOT_CFG_DIR_SETUP : Field := ⟨.MOT_CFG, 24, 8, .rw, .nextPick, 125, 3, 255⟩
/-! ### MOT_PROFILE: R477 -/
def Fld.MOT_PROFILE_VMAX : Field := ⟨.MOT_PROFILE, 0, 32, .rw, .nextPick, 10000, 1, 4000000⟩
def Fld.MOT_PROFILE_AMAX : Field := ⟨.MOT_PROFILE, 32, 32, .rw, .nextPick, 100000, 0, 4294967295⟩
def Fld.MOT_PROFILE_DMAX : Field := ⟨.MOT_PROFILE, 64, 32, .rw, .nextPick, 100000, 0, 4294967295⟩
def Fld.MOT_PROFILE_JMAX : Field := ⟨.MOT_PROFILE, 96, 32, .rw, .nextPick, 10000, 0, 4294967295⟩
/-! ### MOT_HOME: R477 -/
def Fld.MOT_HOME_HOME_DIR : Field := ⟨.MOT_HOME, 0, 1, .rw, .nextPick, 0, 0, 1⟩
def Fld.MOT_HOME_HOME_DEBOUNCE : Field := ⟨.MOT_HOME, 1, 14, .rw, .nextPick, 200, 10, 10000⟩
def Fld.MOT_HOME_INDEX_SRC : Field := ⟨.MOT_HOME, 15, 5, .rw, .nextPick, 0, 0, 31⟩
def Fld.MOT_HOME_HOME_FAST : Field := ⟨.MOT_HOME, 32, 32, .rw, .nextPick, 5000, 0, 4294967295⟩
def Fld.MOT_HOME_HOME_SLOW : Field := ⟨.MOT_HOME, 64, 32, .rw, .nextPick, 1000, 0, 4294967295⟩
def Fld.MOT_HOME_HOME_BACKOFF : Field := ⟨.MOT_HOME, 96, 32, .rw, .nextPick, 400, 0, 4294967295⟩
/-! ### MOT_HOME_RANGE: R477 -/
def Fld.MOT_HOME_RANGE_HOME_RANGE : Field := ⟨.MOT_HOME_RANGE, 0, 32, .rw, .nextPick, 10000000, 0, 4294967295⟩
def Fld.MOT_HOME_RANGE_INDEX_WINDOW : Field := ⟨.MOT_HOME_RANGE, 32, 32, .rw, .nextPick, 3200, 0, 4294967295⟩
/-! ### MOT_HOME_OFS: R477 -/
def Fld.MOT_HOME_OFS_HOME_OFFSET : Field := ⟨.MOT_HOME_OFS, 0, 48, .rw, .nextPick, 0, 0, 281474976710655⟩
/-! ### MOT_STALL: R477 -/
def Fld.MOT_STALL_STALL_EN : Field := ⟨.MOT_STALL, 0, 1, .rw, .nextPick, 0, 0, 1⟩
def Fld.MOT_STALL_STALL_ANGLE : Field := ⟨.MOT_STALL, 1, 8, .rw, .nextPick, 100, 30, 180⟩
def Fld.MOT_STALL_STALL_PICKS : Field := ⟨.MOT_STALL, 9, 4, .rw, .nextPick, 3, 1, 15⟩
def Fld.MOT_STALL_BEMF_PHASE : Field := ⟨.MOT_STALL, 13, 8, .rw, .nextPick, 128, 0, 255⟩
def Fld.MOT_STALL_BEMF_TRIM : Field := ⟨.MOT_STALL, 21, 9, .rw, .nextPick, 0, 0, 511⟩
def Fld.MOT_STALL_STALL_MIN_RATE : Field := ⟨.MOT_STALL, 32, 32, .rw, .nextPick, 3200, 0, 4294967295⟩
/-! ### MOT_GROUP: R477 -/
def Fld.MOT_GROUP_AXES : Field := ⟨.MOT_GROUP, 0, 8, .rw, .nextPick, 0, 0, 255⟩
def Fld.MOT_GROUP_KIND : Field := ⟨.MOT_GROUP, 8, 1, .rw, .nextPick, 0, 0, 1⟩
/-! ### MOT_STATUS: R477 -/
def Fld.MOT_STATUS_ACCEL_DEFERRED : Field := ⟨.MOT_STATUS, 0, 1, .w1c, .atOnce, 0, 0, 1⟩
def Fld.MOT_STATUS_MOVING : Field := ⟨.MOT_STATUS, 16, 1, .ro, .none, 0, 0, 1⟩
def Fld.MOT_STATUS_HOMED : Field := ⟨.MOT_STATUS, 17, 1, .ro, .none, 0, 0, 1⟩
def Fld.MOT_STATUS_HOMING : Field := ⟨.MOT_STATUS, 18, 1, .ro, .none, 0, 0, 1⟩
def Fld.MOT_STATUS_BLIND : Field := ⟨.MOT_STATUS, 19, 1, .ro, .none, 0, 0, 1⟩
def Fld.MOT_STATUS_LIMP_IN : Field := ⟨.MOT_STATUS, 20, 1, .ro, .none, 0, 0, 1⟩
def Fld.MOT_STATUS_LIMN_IN : Field := ⟨.MOT_STATUS, 21, 1, .ro, .none, 0, 0, 1⟩
def Fld.MOT_STATUS_HOME_IN : Field := ⟨.MOT_STATUS, 22, 1, .ro, .none, 0, 0, 1⟩
def Fld.MOT_STATUS_FLT_IN : Field := ⟨.MOT_STATUS, 23, 1, .ro, .none, 0, 0, 1⟩
/-! ### MOT_FAULT: R477 -/
def Fld.MOT_FAULT_HOME_UNSTABLE : Field := ⟨.MOT_FAULT, 0, 1, .w1c, .atOnce, 0, 0, 1⟩
def Fld.MOT_FAULT_HOME_LIMIT : Field := ⟨.MOT_FAULT, 1, 1, .w1c, .atOnce, 0, 0, 1⟩
def Fld.MOT_FAULT_HOME_NOT_FOUND : Field := ⟨.MOT_FAULT, 2, 1, .w1c, .atOnce, 0, 0, 1⟩
def Fld.MOT_FAULT_HOME_NO_INDEX : Field := ⟨.MOT_FAULT, 3, 1, .w1c, .atOnce, 0, 0, 1⟩
def Fld.MOT_FAULT_LIMIT_POS : Field := ⟨.MOT_FAULT, 4, 1, .w1c, .atOnce, 0, 0, 1⟩
def Fld.MOT_FAULT_LIMIT_NEG : Field := ⟨.MOT_FAULT, 5, 1, .w1c, .atOnce, 0, 0, 1⟩
def Fld.MOT_FAULT_LIM_WRONG : Field := ⟨.MOT_FAULT, 6, 1, .w1c, .atOnce, 0, 0, 1⟩
def Fld.MOT_FAULT_DRIVER : Field := ⟨.MOT_FAULT, 7, 1, .w1c, .atOnce, 0, 0, 1⟩
def Fld.MOT_FAULT_OUT_SHORT : Field := ⟨.MOT_FAULT, 8, 1, .w1c, .atOnce, 0, 0, 1⟩
def Fld.MOT_FAULT_STALL : Field := ⟨.MOT_FAULT, 9, 1, .w1c, .atOnce, 0, 0, 1⟩
def Fld.MOT_FAULT_SENSE_FAULT : Field := ⟨.MOT_FAULT, 10, 1, .w1c, .atOnce, 0, 0, 1⟩
def Fld.MOT_FAULT_STOPPED_HARD : Field := ⟨.MOT_FAULT, 11, 1, .w1c, .atOnce, 0, 0, 1⟩
/-! ### MOT_POS: R477 -/
def Fld.MOT_POS_POSITION : Field := ⟨.MOT_POS, 0, 48, .ro, .none, 0, 0, 281474976710655⟩
/-! ### MOT_TARGET: R477 -/
def Fld.MOT_TARGET_TARGET : Field := ⟨.MOT_TARGET, 0, 48, .ro, .none, 0, 0, 281474976710655⟩
/-! ### MOT_VEL: R477 -/
def Fld.MOT_VEL_VELOCITY : Field := ⟨.MOT_VEL, 0, 32, .ro, .none, 0, 0, 4294967295⟩
/-! ### MOT_LOAD: R477 -/
def Fld.MOT_LOAD_LOAD_ANGLE : Field := ⟨.MOT_LOAD, 0, 16, .ro, .none, 0, 0, 65535⟩
/-! ### MOT_LATCH: R477 -/
def Fld.MOT_LATCH_HOME_LATCH : Field := ⟨.MOT_LATCH, 0, 48, .ro, .none, 0, 0, 281474976710655⟩
/-! ### MOT_STALLS: R477 -/
def Fld.MOT_STALLS_STALLS : Field := ⟨.MOT_STALLS, 0, 32, .ro, .none, 0, 0, 4294967295⟩
/-! ### SEC_CTRL: R511 -/
def Fld.SEC_CTRL_CERT_MODE : Field := ⟨.SEC_CTRL, 0, 1, .rw, .atOnce, 1, 0, 1⟩
def Fld.SEC_CTRL_AUDIT_WRAP : Field := ⟨.SEC_CTRL, 1, 1, .rw, .atOnce, 0, 0, 1⟩
def Fld.SEC_CTRL_SESSION_IDLE : Field := ⟨.SEC_CTRL, 2, 12, .rw, .atOnce, 600, 10, 4095⟩
def Fld.SEC_CTRL_GLITCH_LIMIT : Field := ⟨.SEC_CTRL, 14, 4, .rw, .nextStart, 4, 1, 15⟩
def Fld.SEC_CTRL_GLITCH_EN : Field := ⟨.SEC_CTRL, 18, 1, .rw, .nextStart, 1, 0, 1⟩
/-! ### SEC_FUSE: R511 -/
def Fld.SEC_FUSE_ROLLBACK_COUNT : Field := ⟨.SEC_FUSE, 0, 7, .ro, .none, 0, 0, 127⟩
def Fld.SEC_FUSE_PREFERRED : Field := ⟨.SEC_FUSE, 8, 1, .ro, .none, 0, 0, 1⟩
/-! ### SEC_AUDIT: R511 -/
def Fld.SEC_AUDIT_NEWEST_SEQ : Field := ⟨.SEC_AUDIT, 0, 32, .ro, .none, 0, 0, 4294967295⟩
def Fld.SEC_AUDIT_ACKED_SEQ : Field := ⟨.SEC_AUDIT, 32, 32, .ro, .none, 0, 0, 4294967295⟩
/-! ### SEC_GLITCH: R511 -/
def Fld.SEC_GLITCH_GLITCHES : Field := ⟨.SEC_GLITCH, 0, 16, .ro, .none, 0, 0, 65535⟩
/-! ### SEC_STATUS: R511 -/
def Fld.SEC_STATUS_GLITCH : Field := ⟨.SEC_STATUS, 0, 1, .w1c, .atOnce, 0, 0, 1⟩
def Fld.SEC_STATUS_AUTH_FAIL : Field := ⟨.SEC_STATUS, 1, 1, .w1c, .atOnce, 0, 0, 1⟩
def Fld.SEC_STATUS_RNG_FAIL : Field := ⟨.SEC_STATUS, 2, 1, .w1c, .atOnce, 0, 0, 1⟩
def Fld.SEC_STATUS_AUDIT_OVERWRITE : Field := ⟨.SEC_STATUS, 3, 1, .w1c, .atOnce, 0, 0, 1⟩
def Fld.SEC_STATUS_BOOT_FALLBACK : Field := ⟨.SEC_STATUS, 4, 1, .w1c, .atOnce, 0, 0, 1⟩
def Fld.SEC_STATUS_PEER_AUTH_FAIL : Field := ⟨.SEC_STATUS, 5, 1, .w1c, .atOnce, 0, 0, 1⟩
def Fld.SEC_STATUS_CERTIFIED : Field := ⟨.SEC_STATUS, 16, 1, .ro, .none, 0, 0, 1⟩
def Fld.SEC_STATUS_OWNED : Field := ⟨.SEC_STATUS, 17, 1, .ro, .none, 0, 0, 1⟩
def Fld.SEC_STATUS_DEBUG_OPEN : Field := ⟨.SEC_STATUS, 18, 1, .ro, .none, 0, 0, 1⟩
def Fld.SEC_STATUS_LOCKOUT : Field := ⟨.SEC_STATUS, 19, 1, .ro, .none, 0, 0, 1⟩
def Fld.SEC_STATUS_RUNNING_SLOT : Field := ⟨.SEC_STATUS, 20, 1, .ro, .none, 0, 0, 1⟩
def Fld.SEC_STATUS_DEV_IMAGE : Field := ⟨.SEC_STATUS, 21, 1, .ro, .none, 0, 0, 1⟩
def Fld.SEC_STATUS_PAIR_BOUND : Field := ⟨.SEC_STATUS, 22, 1, .ro, .none, 0, 0, 1⟩
def Fld.SEC_STATUS_AUDIT_FULL : Field := ⟨.SEC_STATUS, 23, 1, .ro, .none, 0, 0, 1⟩
/-! ### RST_CAUSE: R542 -/
def Fld.RST_CAUSE_POR : Field := ⟨.RST_CAUSE, 0, 1, .w1c, .atOnce, 1, 0, 1⟩
def Fld.RST_CAUSE_PIN_EXT : Field := ⟨.RST_CAUSE, 1, 1, .w1c, .atOnce, 0, 0, 1⟩
def Fld.RST_CAUSE_PIN_SELF : Field := ⟨.RST_CAUSE, 2, 1, .w1c, .atOnce, 0, 0, 1⟩
def Fld.RST_CAUSE_STRAP_FAULT : Field := ⟨.RST_CAUSE, 3, 1, .w1c, .atOnce, 0, 0, 1⟩
def Fld.RST_CAUSE_FUSE_RETRY : Field := ⟨.RST_CAUSE, 4, 1, .w1c, .atOnce, 0, 0, 1⟩
def Fld.RST_CAUSE_START_FAIL : Field := ⟨.RST_CAUSE, 5, 1, .w1c, .atOnce, 0, 0, 1⟩
def Fld.RST_CAUSE_SELF_CAUSE : Field := ⟨.RST_CAUSE, 8, 4, .ro, .none, 0, 0, 15⟩
def Fld.RST_CAUSE_WARM : Field := ⟨.RST_CAUSE, 16, 1, .ro, .none, 0, 0, 1⟩
def Fld.RST_CAUSE_LOADED : Field := ⟨.RST_CAUSE, 17, 1, .ro, .none, 0, 0, 1⟩
def Fld.RST_CAUSE_WARM_OK : Field := ⟨.RST_CAUSE, 18, 1, .ro, .none, 0, 0, 1⟩
def Fld.RST_CAUSE_RECOVERY : Field := ⟨.RST_CAUSE, 19, 1, .ro, .none, 0, 0, 1⟩
def Fld.RST_CAUSE_STRAP_CODE : Field := ⟨.RST_CAUSE, 20, 4, .ro, .none, 0, 0, 15⟩
def Fld.RST_CAUSE_STRAP_VALID : Field := ⟨.RST_CAUSE, 24, 1, .ro, .none, 0, 0, 1⟩
/-! ### RST_START_FAILS: R542 -/
def Fld.RST_START_FAILS_START_FAILS : Field := ⟨.RST_START_FAILS, 0, 8, .ro, .none, 0, 0, 255⟩
def Fld.RST_START_FAILS_FAILED_START_LIMIT : Field := ⟨.RST_START_FAILS, 8, 4, .ro, .none, 4, 0, 15⟩
def Fld.RST_START_FAILS_RECOVERY_CAUSE : Field := ⟨.RST_START_FAILS, 12, 4, .ro, .none, 0, 0, 15⟩
def Fld.RST_START_FAILS_LAST_FAIL_STEP : Field := ⟨.RST_START_FAILS, 16, 8, .ro, .none, 0, 0, 255⟩
/-! ### RST_CTRL: R542 -/
def Fld.RST_CTRL_WARM_ARM : Field := ⟨.RST_CTRL, 0, 1, .wo, .atOnce, 0, 0, 1⟩
/-! ### THM_CTRL: R559 -/
def Fld.THM_CTRL_THROTTLE_T : Field := ⟨.THM_CTRL, 0, 8, .rw, .nextPick, 105, 80, 115⟩
def Fld.THM_CTRL_THROTTLE_STEP : Field := ⟨.THM_CTRL, 8, 4, .rw, .nextPick, 3, 1, 5⟩
def Fld.THM_CTRL_THM_HYST : Field := ⟨.THM_CTRL, 12, 4, .rw, .nextPick, 3, 1, 10⟩
def Fld.THM_CTRL_STOP_T : Field := ⟨.THM_CTRL, 16, 8, .rw, .nextPick, 118, 90, 120⟩
def Fld.THM_CTRL_HANDOVER_ON_STOP : Field := ⟨.THM_CTRL, 24, 1, .rw, .nextPick, 1, 0, 1⟩
/-! ### THM_HOLD: R559 -/
def Fld.THM_HOLD_THROTTLE_HOLD : Field := ⟨.THM_HOLD, 0, 16, .rw, .nextPick, 10000, 100, 65535⟩
/-! ### CAL_CTRL: R559 -/
def Fld.CAL_CTRL_CAL_DELTA_T : Field := ⟨.CAL_CTRL, 0, 5, .rw, .nextPick, 8, 2, 20⟩
/-! ### THM_STATUS: R559 -/
def Fld.THM_STATUS_SENSOR_FAIL : Field := ⟨.THM_STATUS, 0, 1, .w1c, .atOnce, 0, 0, 1⟩
def Fld.THM_STATUS_THROTTLED : Field := ⟨.THM_STATUS, 1, 1, .w1c, .atOnce, 0, 0, 1⟩
def Fld.THM_STATUS_STOPPED : Field := ⟨.THM_STATUS, 2, 1, .w1c, .atOnce, 0, 0, 1⟩
def Fld.THM_STATUS_TRIPPED : Field := ⟨.THM_STATUS, 3, 1, .w1c, .atOnce, 0, 0, 1⟩
def Fld.THM_STATUS_LEVEL : Field := ⟨.THM_STATUS, 16, 3, .ro, .none, 0, 0, 7⟩
def Fld.THM_STATUS_EXCLUDED_ANY : Field := ⟨.THM_STATUS, 19, 1, .ro, .none, 0, 0, 1⟩
/-! ### THM_SENSOR_FAIL: R559 -/
def Fld.THM_SENSOR_FAIL_SENSOR_FAIL_BITS : Field := ⟨.THM_SENSOR_FAIL, 0, 16, .w1c, .atOnce, 0, 0, 65535⟩
/-! ### THM_T: R559 -/
def Fld.THM_T_TEMP : Field := ⟨.THM_T, 0, 16, .ro, .none, 0, 0, 65535⟩
def Fld.THM_T_STAND_IN : Field := ⟨.THM_T, 16, 1, .ro, .none, 0, 0, 1⟩
/-! ### THM_MAX: R559 -/
def Fld.THM_MAX_MAX : Field := ⟨.THM_MAX, 0, 16, .ro, .none, 0, 0, 65535⟩
def Fld.THM_MAX_MAX_SRC : Field := ⟨.THM_MAX, 16, 4, .ro, .none, 0, 0, 15⟩
/-! ### THM_PEAK: R559 -/
def Fld.THM_PEAK_PEAK : Field := ⟨.THM_PEAK, 0, 16, .ro, .none, 0, 0, 65535⟩
/-! ### CAL_STATUS: R559 -/
def Fld.CAL_STATUS_LANE_DEFERRED : Field := ⟨.CAL_STATUS, 0, 1, .w1c, .atOnce, 0, 0, 1⟩
def Fld.CAL_STATUS_AON_RANGE : Field := ⟨.CAL_STATUS, 1, 1, .w1c, .atOnce, 0, 0, 1⟩
/-! ### CAL_AON: R559 -/
def Fld.CAL_AON_AON_FREQ : Field := ⟨.CAL_AON, 0, 24, .ro, .none, 0, 0, 16777215⟩
/-! ### CAL_BEMF_OFS: R559 -/
def Fld.CAL_BEMF_OFS_OFFSET_A : Field := ⟨.CAL_BEMF_OFS, 0, 16, .ro, .none, 0, 0, 65535⟩
def Fld.CAL_BEMF_OFS_OFFSET_B : Field := ⟨.CAL_BEMF_OFS, 16, 16, .ro, .none, 0, 0, 65535⟩
/-! ### CAL_TEMP: R559 -/
def Fld.CAL_TEMP_LAST_CAL_TEMP : Field := ⟨.CAL_TEMP, 0, 8, .ro, .none, 0, 0, 255⟩
/-! ### CAL_COUNT: R559 -/
def Fld.CAL_COUNT_CALIBRATIONS : Field := ⟨.CAL_COUNT, 0, 32, .ro, .none, 0, 0, 4294967295⟩
/-! ### SYS_GPIO: R568 -/
def Fld.SYS_GPIO_DIR : Field := ⟨.SYS_GPIO, 0, 16, .rw, .atOnce, 0, 0, 65535⟩
def Fld.SYS_GPIO_OUT : Field := ⟨.SYS_GPIO, 16, 16, .rw, .atOnce, 0, 0, 65535⟩
/-! ### SYS_GPIO_PULL: R568 -/
def Fld.SYS_GPIO_PULL_PULL_EN : Field := ⟨.SYS_GPIO_PULL, 0, 16, .rw, .atOnce, 65535, 0, 65535⟩
/-! ### SYS_GPIO_IN: R568 -/
def Fld.SYS_GPIO_IN_LEVEL : Field := ⟨.SYS_GPIO_IN, 0, 16, .ro, .none, 0, 0, 65535⟩
/-! ### PWR_CTRL: R599 -/
def Fld.PWR_CTRL_VENC_EN : Field := ⟨.PWR_CTRL, 0, 1, .rw, .atOnce, 1, 0, 1⟩
/-! ### PWR_STATUS: R599 -/
def Fld.PWR_STATUS_VIN_WARN : Field := ⟨.PWR_STATUS, 0, 1, .w1c, .atOnce, 0, 0, 1⟩
def Fld.PWR_STATUS_VIN_STOP : Field := ⟨.PWR_STATUS, 1, 1, .w1c, .atOnce, 0, 0, 1⟩
def Fld.PWR_STATUS_VIN_HIGH : Field := ⟨.PWR_STATUS, 2, 1, .w1c, .atOnce, 0, 0, 1⟩
def Fld.PWR_STATUS_VENC_FAULT : Field := ⟨.PWR_STATUS, 3, 1, .w1c, .atOnce, 0, 0, 1⟩
def Fld.PWR_STATUS_INPUT_TRIP : Field := ⟨.PWR_STATUS, 4, 1, .w1c, .atOnce, 0, 0, 1⟩
def Fld.PWR_STATUS_RAIL_FAULT : Field := ⟨.PWR_STATUS, 5, 1, .w1c, .atOnce, 0, 0, 1⟩
def Fld.PWR_STATUS_OUT_SHORT : Field := ⟨.PWR_STATUS, 6, 1, .w1c, .atOnce, 0, 0, 1⟩
def Fld.PWR_STATUS_WARN_NOW : Field := ⟨.PWR_STATUS, 16, 1, .ro, .none, 0, 0, 1⟩
def Fld.PWR_STATUS_VENC_ON : Field := ⟨.PWR_STATUS, 17, 1, .ro, .none, 1, 0, 1⟩
/-! ### PWR_VIN: R599 -/
def Fld.PWR_VIN_VIN_MV : Field := ⟨.PWR_VIN, 0, 16, .ro, .none, 0, 0, 65535⟩
def Fld.PWR_VIN_VIN_MIN_MV : Field := ⟨.PWR_VIN, 16, 16, .ro, .none, 65535, 0, 65535⟩
/-! ### PWR_IIN: R599 -/
def Fld.PWR_IIN_IIN_MA : Field := ⟨.PWR_IIN, 0, 16, .ro, .none, 0, 0, 65535⟩
/-! ### PWR_POWER: R599 -/
def Fld.PWR_POWER_INPUT_POWER : Field := ⟨.PWR_POWER, 0, 16, .ro, .none, 0, 0, 65535⟩
/-! ### PWR_VENC: R599 -/
def Fld.PWR_VENC_VENC_MA : Field := ⟨.PWR_VENC, 0, 16, .ro, .none, 0, 0, 65535⟩
/-! ### PWR_WARN: R599 -/
def Fld.PWR_WARN_WARN_COUNT : Field := ⟨.PWR_WARN, 0, 32, .ro, .none, 0, 0, 4294967295⟩
/-! ### PWR_WARN_LAST: R599 -/
def Fld.PWR_WARN_LAST_WARN_LAST : Field := ⟨.PWR_WARN_LAST, 0, 32, .ro, .none, 0, 0, 4294967295⟩
/-! ### PWR_SHORT: R599 -/
def Fld.PWR_SHORT_SHORT_SIGNALS : Field := ⟨.PWR_SHORT, 0, 16, .ro, .none, 0, 0, 65535⟩
/-! ### FAULT_SUMMARY: R605 -/
def Fld.FAULT_SUMMARY_SUBSYSTEM : Field := ⟨.FAULT_SUMMARY, 1, 18, .w1c, .atOnce, 0, 0, 262143⟩
/-! ### FAULT_MASK: R605 -/
def Fld.FAULT_MASK_MASK : Field := ⟨.FAULT_MASK, 0, 32, .rw, .atOnce, 196608, 0, 4294967295⟩
/-! ### SYS_FATAL: R608 -/
def Fld.SYS_FATAL_RAIL : Field := ⟨.SYS_FATAL, 0, 1, .w1c, .atOnce, 0, 0, 1⟩
def Fld.SYS_FATAL_CLOCK_IN : Field := ⟨.SYS_FATAL, 1, 1, .w1c, .atOnce, 0, 0, 1⟩
def Fld.SYS_FATAL_TIME_CLOCK : Field := ⟨.SYS_FATAL, 2, 1, .w1c, .atOnce, 0, 0, 1⟩
def Fld.SYS_FATAL_SRAM_UNCORR : Field := ⟨.SYS_FATAL, 3, 1, .w1c, .atOnce, 0, 0, 1⟩
def Fld.SYS_FATAL_CORE_MEM_UNCORR : Field := ⟨.SYS_FATAL, 4, 1, .w1c, .atOnce, 0, 0, 1⟩
def Fld.SYS_FATAL_WATCHDOG : Field := ⟨.SYS_FATAL, 5, 1, .w1c, .atOnce, 0, 0, 1⟩
def Fld.SYS_FATAL_LOCKSTEP : Field := ⟨.SYS_FATAL, 6, 1, .w1c, .atOnce, 0, 0, 1⟩

/-- The fields of a register, in table order. -/
def regFields : Reg → List Field
  | .POS_ENC_CTRL => [Fld.POS_ENC_CTRL_ENC_EN, Fld.POS_ENC_CTRL_ENC_DIR, Fld.POS_ENC_CTRL_ENC_FILTER,
      Fld.POS_ENC_CTRL_ENC_Z_STATE, Fld.POS_ENC_CTRL_ENC_Z_CHECK, Fld.POS_ENC_CTRL_ENC_Z_MAX_WIDTH]
  | .POS_SOURCE => [Fld.POS_SOURCE_PRIMARY, Fld.POS_SOURCE_ENC_FALLBACK, Fld.POS_SOURCE_SLIP_EN,
      Fld.POS_SOURCE_SLIP_ACTION, Fld.POS_SOURCE_PASS_MODE, Fld.POS_SOURCE_PASS_BOTH]
  | .POS_SCALE => [Fld.POS_SCALE_LINES_PER_COUNT]
  | .POS_MIRROR => [Fld.POS_MIRROR_PASS_MIRROR]
  | .POS_REV => [Fld.POS_REV_REV_WINDOW]
  | .POS_SLIP => [Fld.POS_SLIP_SLIP_SPAN, Fld.POS_SLIP_SLIP_LIMIT]
  | .POS_PRED => [Fld.POS_PRED_PRED_ALPHA, Fld.POS_PRED_PRED_BETA, Fld.POS_PRED_PRED_MIN_RATE]
  | .POS_LEAD => [Fld.POS_LEAD_LEAD_TIME, Fld.POS_LEAD_FIRE_REVISE]
  | .POS_RATE => [Fld.POS_RATE_RATE_MAX, Fld.POS_RATE_OVERSPEED_MODE, Fld.POS_RATE_SLIP_MAX, Fld.POS_RATE_SHED_WIDTH]
  | .POS_ACCEL => [Fld.POS_ACCEL_ACCEL_LIMIT]
  | .POS_BAR => [Fld.POS_BAR_BAR_OFFSET, Fld.POS_BAR_BAR_FINE]
  | .POS_FLIGHT => [Fld.POS_FLIGHT_FLIGHT_ADVANCE]
  | .POS_STATUS => [Fld.POS_STATUS_REVERSAL, Fld.POS_STATUS_OVERSPEED, Fld.POS_STATUS_SLIP,
      Fld.POS_STATUS_ENC0_FAULT, Fld.POS_STATUS_ENC1_FAULT, Fld.POS_STATUS_ENC_SWITCH, Fld.POS_STATUS_ACCEL,
      Fld.POS_STATUS_PASS_SHORT, Fld.POS_STATUS_MISSED, Fld.POS_STATUS_FROZEN, Fld.POS_STATUS_CRAWL,
      Fld.POS_STATUS_SOURCE, Fld.POS_STATUS_IN_OVERSPEED]
  | .POS_ENC_STATUS => [Fld.POS_ENC_STATUS_ILLEGAL, Fld.POS_ENC_STATUS_OVERRATE, Fld.POS_ENC_STATUS_OPEN_A,
      Fld.POS_ENC_STATUS_OPEN_B, Fld.POS_ENC_STATUS_OPEN_Z, Fld.POS_ENC_STATUS_INV_A, Fld.POS_ENC_STATUS_INV_B,
      Fld.POS_ENC_STATUS_INV_Z]
  | .POS_LINE => [Fld.POS_LINE_LINE]
  | .POS_COUNT => [Fld.POS_COUNT_COUNT]
  | .POS_INDEX_COUNT => [Fld.POS_INDEX_COUNT_INDEX_COUNT]
  | .POS_SPEED => [Fld.POS_SPEED_LINE_RATE]
  | .POS_PASS => [Fld.POS_PASS_PASS]
  | .POS_NEXT => [Fld.POS_NEXT_NEXT_LINE]
  | .POS_MISSED => [Fld.POS_MISSED_LINES_MISSED_NOT_READY]
  | .POS_SHED => [Fld.POS_SHED_LINES_MISSED_SHED]
  | .POS_DROP => [Fld.POS_DROP_LINES_DROPPED_OVERSPEED]
  | .POS_PSHORT => [Fld.POS_PSHORT_LINES_MISSED_PASS]
  | .TIM_CTRL => [Fld.TIM_CTRL_SOURCE, Fld.TIM_CTRL_SERVO_OWNER, Fld.TIM_CTRL_SLEW_RATE]
  | .TIM_PTP => [Fld.TIM_PTP_DOMAIN, Fld.TIM_PTP_PORT_EN, Fld.TIM_PTP_DELAY_MECH, Fld.TIM_PTP_TRANSPORT,
      Fld.TIM_PTP_CLOCK_ROLE]
  | .TIM_PPS => [Fld.TIM_PPS_PPS_GATE, Fld.TIM_PPS_PPS_WIDTH]
  | .TIM_LOCK => [Fld.TIM_LOCK_LOCK_LIMIT, Fld.TIM_LOCK_HOLDOVER_TIME]
  | .TIM_ETH_ASYM => [Fld.TIM_ETH_ASYM_ASYM]
  | .TIM_NOW_LO => [Fld.TIM_NOW_LO_NOW_LO]
  | .TIM_NOW_HI => [Fld.TIM_NOW_HI_NOW_HI]
  | .TIM_INCR => [Fld.TIM_INCR_INCR]
  | .TIM_OFFSET => [Fld.TIM_OFFSET_OFFSET]
  | .TIM_PPS_IN_TIME => [Fld.TIM_PPS_IN_TIME_PPS_IN_TIME]
  | .TIM_ERROR => [Fld.TIM_ERROR_SERVO_ERROR]
  | .TIM_TXQ => [Fld.TIM_TXQ_TXQ_LOST, Fld.TIM_TXQ_TXQ_STALE]
  | .TIM_STATUS => [Fld.TIM_STATUS_LOCK_LOST, Fld.TIM_STATUS_STEPPED, Fld.TIM_STATUS_TXQ_OVERFLOW,
      Fld.TIM_STATUS_PPS_MISSING, Fld.TIM_STATUS_LOCKED, Fld.TIM_STATUS_HOLDOVER, Fld.TIM_STATUS_STEP_HELD,
      Fld.TIM_STATUS_SOURCE_NOW]
  | .TIM_TRIG_CTRL => [Fld.TIM_TRIG_CTRL_TARGET, Fld.TIM_TRIG_CTRL_INDEX, Fld.TIM_TRIG_CTRL_ACTION,
      Fld.TIM_TRIG_CTRL_LATE_POLICY, Fld.TIM_TRIG_CTRL_ALIGN_PICK, Fld.TIM_TRIG_CTRL_NOTIFY,
      Fld.TIM_TRIG_CTRL_LEASE_GATE, Fld.TIM_TRIG_CTRL_OWNER, Fld.TIM_TRIG_CTRL_PULSE_WIDTH]
  | .TIM_TRIG_TIME => [Fld.TIM_TRIG_TIME_TIME]
  | .TIM_TRIG_PERIOD => [Fld.TIM_TRIG_PERIOD_PERIOD]
  | .TIM_TRIG_COUNT => [Fld.TIM_TRIG_COUNT_COUNT]
  | .TIM_TRIG_STATUS => [Fld.TIM_TRIG_STATUS_LATE, Fld.TIM_TRIG_STATUS_MISSED, Fld.TIM_TRIG_STATUS_ARMED]
  | .IMG_CTRL => [Fld.IMG_CTRL_IMG_ECC_EN, Fld.IMG_CTRL_GRAIN, Fld.IMG_CTRL_EYE_MIN]
  | .IMG_AGE => [Fld.IMG_AGE_AGE_C0, Fld.IMG_AGE_AGE_C1, Fld.IMG_AGE_AGE_C2, Fld.IMG_AGE_AGE_C3]
  | .IMG_BALANCE => [Fld.IMG_BALANCE_BALANCE_EN, Fld.IMG_BALANCE_MOVE_TRIGGER]
  | .IMG_SCRUB => [Fld.IMG_SCRUB_SCRUB_PERIOD, Fld.IMG_SCRUB_ROW_RETIRE_LIMIT]
  | .IMG_STATUS => [Fld.IMG_STATUS_ECC_CORR, Fld.IMG_STATUS_ECC_UNCORR, Fld.IMG_STATUS_REFRESH_DOUBLED,
      Fld.IMG_STATUS_REFRESH_PREEMPT, Fld.IMG_STATUS_TRAIN_MARGIN, Fld.IMG_STATUS_C0_OVERRUN,
      Fld.IMG_STATUS_MOVE_FAIL, Fld.IMG_STATUS_STRIP_DAMAGED, Fld.IMG_STATUS_DOUBLED_NOW, Fld.IMG_STATUS_TRAINING_NOW]
  | .IMG_CAP => [Fld.IMG_CAP_IMG_CAPACITY]
  | .IMG_FREE => [Fld.IMG_FREE_IMG_FREE_MIB]
  | .IMG_ECC => [Fld.IMG_ECC_ECC_CORRECTED, Fld.IMG_ECC_ECC_UNCORRECTED]
  | .IMG_RETIRED => [Fld.IMG_RETIRED_ROWS_RETIRED]
  | .IMG_PREEMPT => [Fld.IMG_PREEMPT_REFRESH_PREEMPTS]
  | .IMG_MOVES => [Fld.IMG_MOVES_STRIP_MOVES]
  | .IMG_OVERRUN => [Fld.IMG_OVERRUN_C0_OVERRUNS]
  | .IMG_LAT => [Fld.IMG_LAT_C0_LAT_MAX]
  | .IMG_TEMP => [Fld.IMG_TEMP_TRAIN_TEMP]
  | .JLC_CTRL => [Fld.JLC_CTRL_STORED_FALLBACK, Fld.JLC_CTRL_COST_LIMIT]
  | .JLC_POLICY => [Fld.JLC_POLICY_STRIP_FAIL_POLICY]
  | .JLC_STATUS => [Fld.JLC_STATUS_INGEST_REJECT, Fld.JLC_STATUS_STRIP_RETRY, Fld.JLC_STATUS_STRIP_FAIL,
      Fld.JLC_STATUS_REENCODED, Fld.JLC_STATUS_REPL_REJECT, Fld.JLC_STATUS_RESUME_BAD]
  | .JLC_LAST_ERR => [Fld.JLC_LAST_ERR_ERROR_CODE, Fld.JLC_LAST_ERR_ERROR_SOURCE]
  | .JLC_RETRIES => [Fld.JLC_RETRIES_STRIP_RETRIES]
  | .JLC_FAILED => [Fld.JLC_FAILED_STRIPS_FAILED]
  | .JLC_SUBST => [Fld.JLC_SUBST_LINES_SUBSTITUTED]
  | .JLC_REENC => [Fld.JLC_REENC_STRIPS_REENCODED]
  | .JLC_REPL => [Fld.JLC_REPL_REPL_REJECTS]
  | .WFT_CFG => [Fld.WFT_CFG_CH_EN, Fld.WFT_CFG_INPUT_FORMAT, Fld.WFT_CFG_SCALE_X, Fld.WFT_CFG_SCALE_Y,
      Fld.WFT_CFG_SELVEDGE_WIDTH, Fld.WFT_CFG_STITCH_MASK, Fld.WFT_CFG_ROW_SHARE, Fld.WFT_CFG_SUB_NEIGHBOUR,
      Fld.WFT_CFG_SUB_REACH, Fld.WFT_CFG_WEAK_AS_OUT]
  | .WFT_SCREEN => [Fld.WFT_SCREEN_TILE_W, Fld.WFT_SCREEN_TILE_H, Fld.WFT_SCREEN_SHIFT_X, Fld.WFT_SCREEN_SHIFT_Y]
  | .WFT_CELL => [Fld.WFT_CELL_T1_T2_T3]
  | .WFT_TONE => [Fld.WFT_TONE_TONE]
  | .WFT_MASK => [Fld.WFT_MASK_MASK]
  | .WFT_CORR => [Fld.WFT_CORR_GAIN, Fld.WFT_CORR_OFFSET]
  | .WFT_NOZZLE => [Fld.WFT_NOZZLE_STATE]
  | .WFT_STATUS => [Fld.WFT_STATUS_COVER_LOW, Fld.WFT_STATUS_DOTS_LOST, Fld.WFT_STATUS_CORR_DISCARD]
  | .WFT_COVER => [Fld.WFT_COVER_COVER_NOW, Fld.WFT_COVER_COVER_MIN]
  | .WFT_FIFO => [Fld.WFT_FIFO_FIFO_LINES, Fld.WFT_FIFO_LINE_COST]
  | .WFT_ROUTED => [Fld.WFT_ROUTED_DOTS_ROUTED]
  | .WFT_LOST => [Fld.WFT_LOST_STEPS_LOST]
  | .WFT_BLOCKS => [Fld.WFT_BLOCKS_CORR_BLOCKS, Fld.WFT_BLOCKS_CORR_DISCARDS]
  | .WFT_REED => [Fld.WFT_REED_REED_ENTRIES]
  | .FIR_CFG => [Fld.FIR_CFG_ENERGY_PATH, Fld.FIR_CFG_PREHEAT_EN, Fld.FIR_CFG_PREHEAT_EVERY, Fld.FIR_CFG_HIST_DEPTH,
      Fld.FIR_CFG_HIST_HOLD]
  | .FIR_SUPPLY => [Fld.FIR_SUPPLY_SUPPLY_EN, Fld.FIR_SUPPLY_SUPPLY_HUB, Fld.FIR_SUPPLY_SUPPLY_SLOT]
  | .FIR_CONS => [Fld.FIR_CONS_CONS_POLICY, Fld.FIR_CONS_CONS_TIMEOUT]
  | .FIR_STATUS => [Fld.FIR_STATUS_PATH_SWITCHED, Fld.FIR_STATUS_PREHEAT_MISSING, Fld.FIR_STATUS_HEAD_COLD,
      Fld.FIR_STATUS_PREHEAT_FAULT, Fld.FIR_STATUS_CONS_AUTH_FAIL, Fld.FIR_STATUS_CONS_TIMEOUT,
      Fld.FIR_STATUS_CONS_SEQ_FAULT, Fld.FIR_STATUS_CONS_BACKLOG]
  | .FIR_PATH => [Fld.FIR_PATH_PATH_NOW]
  | .FIR_SWITCHES => [Fld.FIR_SWITCHES_PATH_SWITCHES]
  | .FIR_PREHEAT => [Fld.FIR_PREHEAT_PREHEAT_MISSES]
  | .FIR_HEAD_TEMP => [Fld.FIR_HEAD_TEMP_HEAD_TEMP]
  | .FIR_HEAD_TOTAL => [Fld.FIR_HEAD_TOTAL_HEAD_TOTAL]
  | .FIR_HEAD_PENDING => [Fld.FIR_HEAD_PENDING_HEAD_PENDING]
  | .FIR_HEAD_SEQ => [Fld.FIR_HEAD_SEQ_HEAD_SEQ]
  | .FIR_INK_TOTAL => [Fld.FIR_INK_TOTAL_INK_TOTAL]
  | .FIR_INK_PENDING => [Fld.FIR_INK_PENDING_INK_PENDING]
  | .FIR_INK_SEQ => [Fld.FIR_INK_SEQ_INK_SEQ]
  | .FL_HUB => [Fld.FL_HUB_HUB_EN, Fld.FL_HUB_FIRST_LANE, Fld.FL_HUB_WIDTH, Fld.FL_HUB_RATE,
      Fld.FL_HUB_FAILOVER_ON_LINK, Fld.FL_HUB_ASYM]
  | .FL_CTRL => [Fld.FL_CTRL_REJOIN_HOLD, Fld.FL_CTRL_UNACKED_LIMIT, Fld.FL_CTRL_BRINGUP_TIMEOUT]
  | .FL_EYE => [Fld.FL_EYE_EYE_LANE, Fld.FL_EYE_EYE_BITS, Fld.FL_EYE_EYE_START]
  | .FL_STATUS => [Fld.FL_STATUS_LANE_DOWN, Fld.FL_STATUS_RESTRIPED, Fld.FL_STATUS_HUB_SHED, Fld.FL_STATUS_ACK_LOST,
      Fld.FL_STATUS_CRC_ERROR, Fld.FL_STATUS_MISWIRED, Fld.FL_STATUS_CMD_TIMEOUT, Fld.FL_STATUS_HUB_UNSYNC,
      Fld.FL_STATUS_DUAL_ACTIVE, Fld.FL_STATUS_UNACKED]
  | .FL_LANE => [Fld.FL_LANE_LOCKED, Fld.FL_LANE_INVERTED, Fld.FL_LANE_GROUP_LANE, Fld.FL_LANE_IN_USE,
      Fld.FL_LANE_HUB_RX_LOCK, Fld.FL_LANE_MISWIRED]
  | .FL_HUBSTATE => [Fld.FL_HUBSTATE_STATE, Fld.FL_HUBSTATE_LANE_MASK, Fld.FL_HUBSTATE_SHED,
      Fld.FL_HUBSTATE_FOLLOWS_ME, Fld.FL_HUBSTATE_HUB_STATUS]
  | .FL_BLOCK_ERR => [Fld.FL_BLOCK_ERR_BLOCK_ERRORS]
  | .FL_LOCK_LOSS => [Fld.FL_LOCK_LOSS_LOCK_LOSSES]
  | .FL_CRC_ERR => [Fld.FL_CRC_ERR_CRC_ERRORS]
  | .FL_RESTRIPE => [Fld.FL_RESTRIPE_LINES_LOST_RESTRIPE]
  | .FL_SHED => [Fld.FL_SHED_LINES_SHED_LINK]
  | .FL_UNACKED => [Fld.FL_UNACKED_LINES_UNACKED]
  | .FL_EYE_RES => [Fld.FL_EYE_RES_EYE_WIDTH, Fld.FL_EYE_RES_EYE_HEIGHT]
  | .CAM_CTRL => [Fld.CAM_CTRL_CAM_EN, Fld.CAM_CTRL_LANES, Fld.CAM_CTRL_FORMAT, Fld.CAM_CTRL_BANDS,
      Fld.CAM_CTRL_LANE_INV, Fld.CAM_CTRL_CLK_INV, Fld.CAM_CTRL_TRIG_EN, Fld.CAM_CTRL_AE_EN,
      Fld.CAM_CTRL_STORE_FRAMES, Fld.CAM_CTRL_CCI_SPEED, Fld.CAM_CTRL_TRIG_WIDTH]
  | .CAM_GEOM => [Fld.CAM_GEOM_CAM_WIDTH, Fld.CAM_GEOM_CAM_ROWS, Fld.CAM_GEOM_ROW_STEP]
  | .CAM_POS => [Fld.CAM_POS_CAM_X0]
  | .CAM_PITCH => [Fld.CAM_PITCH_X_PITCH, Fld.CAM_PITCH_X_DIR]
  | .CAM_OFF => [Fld.CAM_OFF_CAM_OFFSET]
  | .CAM_FRAME => [Fld.CAM_FRAME_FRAME_SPACING]
  | .CAM_PHASE => [Fld.CAM_PHASE_FRAME_PHASE]
  | .CAM_AE => [Fld.CAM_AE_AE_TARGET, Fld.CAM_AE_AE_PCT, Fld.CAM_AE_AE_PERIOD]
  | .CAM_TRIM => [Fld.CAM_TRIM_X_TRIM, Fld.CAM_TRIM_Y_TRIM]
  | .CAM_STATUS => [Fld.CAM_STATUS_TRUNCATED, Fld.CAM_STATUS_SHORT, Fld.CAM_STATUS_LONG, Fld.CAM_STATUS_LINK_ERROR,
      Fld.CAM_STATUS_TIMEOUT, Fld.CAM_STATUS_CCI_FAIL, Fld.CAM_STATUS_TRIG_FAULT, Fld.CAM_STATUS_AE_LIMIT,
      Fld.CAM_STATUS_NO_STORE]
  | .CAM_GOOD => [Fld.CAM_GOOD_FRAMES_GOOD]
  | .CAM_TRUNC => [Fld.CAM_TRUNC_FRAMES_TRUNCATED]
  | .CAM_SHORT => [Fld.CAM_SHORT_FRAMES_SHORT]
  | .CAM_LONG => [Fld.CAM_LONG_FRAMES_LONG]
  | .CAM_ERR => [Fld.CAM_ERR_FRAMES_ERROR]
  | .CAM_SKIP => [Fld.CAM_SKIP_FRAMES_SKIPPED]
  | .CLP_CTRL => [Fld.CLP_CTRL_CLP_EN, Fld.CLP_CTRL_GROUP_SIZE, Fld.CLP_CTRL_CLP_LENGTH, Fld.CLP_CTRL_CLP_GAIN,
      Fld.CLP_CTRL_STEP_MAX, Fld.CLP_CTRL_WHITE_TC]
  | .CLP_SOLVE => [Fld.CLP_SOLVE_MIN_OBS, Fld.CLP_SOLVE_MIN_EXCITE, Fld.CLP_SOLVE_COND, Fld.CLP_SOLVE_RIDGE]
  | .CLP_LIMITS => [Fld.CLP_LIMITS_COEF_MIN, Fld.CLP_LIMITS_COEF_MAX, Fld.CLP_LIMITS_DMAX]
  | .CLP_SLOT => [Fld.CLP_SLOT_SLOT, Fld.CLP_SLOT_LADDER_EN]
  | .CLP_K => [Fld.CLP_K_K]
  | .CLP_DCURVE => [Fld.CLP_DCURVE_DCURVE]
  | .CLP_LADDER => [Fld.CLP_LADDER_LADDER_INTERVAL, Fld.CLP_LADDER_RUNGS, Fld.CLP_LADDER_DASH, Fld.CLP_LADDER_GAP]
  | .CLP_LSLOT => [Fld.CLP_LSLOT_LADDER_PERIOD, Fld.CLP_LSLOT_LADDER_PHASE]
  | .CLP_CLASS => [Fld.CLP_CLASS_LADDER_OUT, Fld.CLP_CLASS_LADDER_WEAK, Fld.CLP_CLASS_LADDER_DEV,
      Fld.CLP_CLASS_LADDER_CONFIRM]
  | .CLP_FREEZE => [Fld.CLP_FREEZE_FREEZE]
  | .CLP_COEF => [Fld.CLP_COEF_COEF]
  | .CLP_DELTA => [Fld.CLP_DELTA_DELTA]
  | .CLP_STATUS => [Fld.CLP_STATUS_SOLVE_LATE, Fld.CLP_STATUS_ILL_COND, Fld.CLP_STATUS_COEF_LIMIT,
      Fld.CLP_STATUS_LADDER_FAILED, Fld.CLP_STATUS_REG_LOST, Fld.CLP_STATUS_NO_CAMERA, Fld.CLP_STATUS_UNCORRECTABLE,
      Fld.CLP_STATUS_LADDER_NO_SLOT, Fld.CLP_STATUS_SOLVING, Fld.CLP_STATUS_HOLDING]
  | .CLP_SOLVES => [Fld.CLP_SOLVES_SOLVES]
  | .CLP_GROUPS => [Fld.CLP_GROUPS_GROUPS_SKIPPED, Fld.CLP_GROUPS_GROUPS_ILL_COND]
  | .CLP_REJECT => [Fld.CLP_REJECT_OBS_REJECTED]
  | .CLP_LADDERS => [Fld.CLP_LADDERS_LADDERS]
  | .SYS_ROLE => [Fld.SYS_ROLE_ROLE, Fld.SYS_ROLE_UNIT, Fld.SYS_ROLE_LEASE_HELD, Fld.SYS_ROLE_PEER_UP,
      Fld.SYS_ROLE_HB_OK, Fld.SYS_ROLE_EPOCH_LOW]
  | .PAIR_HEALTH => [Fld.PAIR_HEALTH_SCORE, Fld.PAIR_HEALTH_SYNCED, Fld.PAIR_HEALTH_TAKEOVER_READY,
      Fld.PAIR_HEALTH_RESYNC_STAGE, Fld.PAIR_HEALTH_MATCH_RUN]
  | .PAIR_CTRL => [Fld.PAIR_CTRL_HEALTH_MIN, Fld.PAIR_CTRL_FAILOVER_ON_SELFTEST, Fld.PAIR_CTRL_PAIR_JOIN_WAIT,
      Fld.PAIR_CTRL_REPL_RATE]
  | .PAIR_STATUS => [Fld.PAIR_STATUS_TAKEOVER, Fld.PAIR_STATUS_RELEASED, Fld.PAIR_STATUS_RECORD_MISSED,
      Fld.PAIR_STATUS_PARTNER_LOST, Fld.PAIR_STATUS_DEGRADED, Fld.PAIR_STATUS_MISMATCH, Fld.PAIR_STATUS_HEALTH_LOW,
      Fld.PAIR_STATUS_SELFTEST_FAIL, Fld.PAIR_STATUS_TAKEOVER_REFUSED, Fld.PAIR_STATUS_SUPERSEDED,
      Fld.PAIR_STATUS_DEGRADED_NOW, Fld.PAIR_STATUS_HANDOVER_PENDING]
  | .PAIR_EPOCH => [Fld.PAIR_EPOCH_EPOCH]
  | .PAIR_LEASE_UNTIL => [Fld.PAIR_LEASE_UNTIL_LEASE_UNTIL]
  | .PAIR_TAKEOVERS => [Fld.PAIR_TAKEOVERS_TAKEOVERS]
  | .PAIR_MISSED => [Fld.PAIR_MISSED_RECORDS_MISSED]
  | .PAIR_MISMATCH => [Fld.PAIR_MISMATCH_MISMATCHES, Fld.PAIR_MISMATCH_MISMATCHES_EXPLAINED]
  | .PAIR_GAP_FIRST => [Fld.PAIR_GAP_FIRST_GAP_FIRST]
  | .PAIR_GAP_LAST => [Fld.PAIR_GAP_LAST_GAP_LAST]
  | .SYS_ID => [Fld.SYS_ID_DEVICE, Fld.SYS_ID_VENDOR]
  | .SYS_REV => [Fld.SYS_REV_REV_DIGIT, Fld.SYS_REV_REV_LETTER]
  | .SYS_FW_VERSION => [Fld.SYS_FW_VERSION_BUILD, Fld.SYS_FW_VERSION_MINOR, Fld.SYS_FW_VERSION_MAJOR]
  | .SYS_STATE => [Fld.SYS_STATE_STATE, Fld.SYS_STATE_ATTACH, Fld.SYS_STATE_LINK_RATE, Fld.SYS_STATE_LINK_WIDTH]
  | .MBX_STATUS => [Fld.MBX_STATUS_IN_PENDING, Fld.MBX_STATUS_OUT_FULL, Fld.MBX_STATUS_OUT_ACK,
      Fld.MBX_STATUS_CHAN_RESET, Fld.MBX_STATUS_QUEUED, Fld.MBX_STATUS_BUSY_REJECT, Fld.MBX_STATUS_ABORTED,
      Fld.MBX_STATUS_IGNORED_WRITE, Fld.MBX_STATUS_SESSION, Fld.MBX_STATUS_REJECT_TAG]
  | .DB_H2D_SET => [Fld.DB_H2D_SET_RING]
  | .DB_H2D_STATUS => [Fld.DB_H2D_STATUS_PENDING]
  | .DB_D2H_STATUS => [Fld.DB_D2H_STATUS_STATUS]
  | .DB_D2H_MASK => [Fld.DB_D2H_MASK_MASK]
  | .LCK => [Fld.LCK_HOLDER]
  | .EVT_HEAD => [Fld.EVT_HEAD_HEAD]
  | .EVT_TAIL => [Fld.EVT_TAIL_TAIL]
  | .MBX_TAKEN => [Fld.MBX_TAKEN_MESSAGES_TAKEN]
  | .MBX_REJECTS => [Fld.MBX_REJECTS_BUSY_REJECTS]
  | .MBX_FRAME_ERR => [Fld.MBX_FRAME_ERR_FRAME_ERRORS]
  | .EVT_LOST => [Fld.EVT_LOST_EVENTS_LOST]
  | .SET_STATUS => [Fld.SET_STATUS_SWAP_PENDING, Fld.SET_STATUS_VALIDATED, Fld.SET_STATUS_POINT,
      Fld.SET_STATUS_SNAPSHOT_BAD, Fld.SET_STATUS_CHANNELS_PENDING, Fld.SET_STATUS_SWAP_LINE, Fld.SET_STATUS_SWAP_SEQ]
  | .MOT_CFG => [Fld.MOT_CFG_AX_EN, Fld.MOT_CFG_DIR_INV, Fld.MOT_CFG_EN_POL, Fld.MOT_CFG_LIM_NC,
      Fld.MOT_CFG_HOME_POL, Fld.MOT_CFG_LIM_STOP, Fld.MOT_CFG_FLT_EN, Fld.MOT_CFG_MICROSTEPS, Fld.MOT_CFG_STEP_WIDTH,
      Fld.MOT_CFG_DIR_SETUP]
  | .MOT_PROFILE => [Fld.MOT_PROFILE_VMAX, Fld.MOT_PROFILE_AMAX, Fld.MOT_PROFILE_DMAX, Fld.MOT_PROFILE_JMAX]
  | .MOT_HOME => [Fld.MOT_HOME_HOME_DIR, Fld.MOT_HOME_HOME_DEBOUNCE, Fld.MOT_HOME_INDEX_SRC, Fld.MOT_HOME_HOME_FAST,
      Fld.MOT_HOME_HOME_SLOW, Fld.MOT_HOME_HOME_BACKOFF]
  | .MOT_HOME_RANGE => [Fld.MOT_HOME_RANGE_HOME_RANGE, Fld.MOT_HOME_RANGE_INDEX_WINDOW]
  | .MOT_HOME_OFS => [Fld.MOT_HOME_OFS_HOME_OFFSET]
  | .MOT_STALL => [Fld.MOT_STALL_STALL_EN, Fld.MOT_STALL_STALL_ANGLE, Fld.MOT_STALL_STALL_PICKS,
      Fld.MOT_STALL_BEMF_PHASE, Fld.MOT_STALL_BEMF_TRIM, Fld.MOT_STALL_STALL_MIN_RATE]
  | .MOT_GROUP => [Fld.MOT_GROUP_AXES, Fld.MOT_GROUP_KIND]
  | .MOT_STATUS => [Fld.MOT_STATUS_ACCEL_DEFERRED, Fld.MOT_STATUS_MOVING, Fld.MOT_STATUS_HOMED,
      Fld.MOT_STATUS_HOMING, Fld.MOT_STATUS_BLIND, Fld.MOT_STATUS_LIMP_IN, Fld.MOT_STATUS_LIMN_IN,
      Fld.MOT_STATUS_HOME_IN, Fld.MOT_STATUS_FLT_IN]
  | .MOT_FAULT => [Fld.MOT_FAULT_HOME_UNSTABLE, Fld.MOT_FAULT_HOME_LIMIT, Fld.MOT_FAULT_HOME_NOT_FOUND,
      Fld.MOT_FAULT_HOME_NO_INDEX, Fld.MOT_FAULT_LIMIT_POS, Fld.MOT_FAULT_LIMIT_NEG, Fld.MOT_FAULT_LIM_WRONG,
      Fld.MOT_FAULT_DRIVER, Fld.MOT_FAULT_OUT_SHORT, Fld.MOT_FAULT_STALL, Fld.MOT_FAULT_SENSE_FAULT,
      Fld.MOT_FAULT_STOPPED_HARD]
  | .MOT_POS => [Fld.MOT_POS_POSITION]
  | .MOT_TARGET => [Fld.MOT_TARGET_TARGET]
  | .MOT_VEL => [Fld.MOT_VEL_VELOCITY]
  | .MOT_LOAD => [Fld.MOT_LOAD_LOAD_ANGLE]
  | .MOT_LATCH => [Fld.MOT_LATCH_HOME_LATCH]
  | .MOT_STALLS => [Fld.MOT_STALLS_STALLS]
  | .SEC_CTRL => [Fld.SEC_CTRL_CERT_MODE, Fld.SEC_CTRL_AUDIT_WRAP, Fld.SEC_CTRL_SESSION_IDLE,
      Fld.SEC_CTRL_GLITCH_LIMIT, Fld.SEC_CTRL_GLITCH_EN]
  | .SEC_FUSE => [Fld.SEC_FUSE_ROLLBACK_COUNT, Fld.SEC_FUSE_PREFERRED]
  | .SEC_AUDIT => [Fld.SEC_AUDIT_NEWEST_SEQ, Fld.SEC_AUDIT_ACKED_SEQ]
  | .SEC_GLITCH => [Fld.SEC_GLITCH_GLITCHES]
  | .SEC_STATUS => [Fld.SEC_STATUS_GLITCH, Fld.SEC_STATUS_AUTH_FAIL, Fld.SEC_STATUS_RNG_FAIL,
      Fld.SEC_STATUS_AUDIT_OVERWRITE, Fld.SEC_STATUS_BOOT_FALLBACK, Fld.SEC_STATUS_PEER_AUTH_FAIL,
      Fld.SEC_STATUS_CERTIFIED, Fld.SEC_STATUS_OWNED, Fld.SEC_STATUS_DEBUG_OPEN, Fld.SEC_STATUS_LOCKOUT,
      Fld.SEC_STATUS_RUNNING_SLOT, Fld.SEC_STATUS_DEV_IMAGE, Fld.SEC_STATUS_PAIR_BOUND, Fld.SEC_STATUS_AUDIT_FULL]
  | .RST_CAUSE => [Fld.RST_CAUSE_POR, Fld.RST_CAUSE_PIN_EXT, Fld.RST_CAUSE_PIN_SELF, Fld.RST_CAUSE_STRAP_FAULT,
      Fld.RST_CAUSE_FUSE_RETRY, Fld.RST_CAUSE_START_FAIL, Fld.RST_CAUSE_SELF_CAUSE, Fld.RST_CAUSE_WARM,
      Fld.RST_CAUSE_LOADED, Fld.RST_CAUSE_WARM_OK, Fld.RST_CAUSE_RECOVERY, Fld.RST_CAUSE_STRAP_CODE,
      Fld.RST_CAUSE_STRAP_VALID]
  | .RST_START_FAILS => [Fld.RST_START_FAILS_START_FAILS, Fld.RST_START_FAILS_FAILED_START_LIMIT,
      Fld.RST_START_FAILS_RECOVERY_CAUSE, Fld.RST_START_FAILS_LAST_FAIL_STEP]
  | .RST_CTRL => [Fld.RST_CTRL_WARM_ARM]
  | .THM_CTRL => [Fld.THM_CTRL_THROTTLE_T, Fld.THM_CTRL_THROTTLE_STEP, Fld.THM_CTRL_THM_HYST, Fld.THM_CTRL_STOP_T,
      Fld.THM_CTRL_HANDOVER_ON_STOP]
  | .THM_HOLD => [Fld.THM_HOLD_THROTTLE_HOLD]
  | .CAL_CTRL => [Fld.CAL_CTRL_CAL_DELTA_T]
  | .THM_STATUS => [Fld.THM_STATUS_SENSOR_FAIL, Fld.THM_STATUS_THROTTLED, Fld.THM_STATUS_STOPPED,
      Fld.THM_STATUS_TRIPPED, Fld.THM_STATUS_LEVEL, Fld.THM_STATUS_EXCLUDED_ANY]
  | .THM_SENSOR_FAIL => [Fld.THM_SENSOR_FAIL_SENSOR_FAIL_BITS]
  | .THM_T => [Fld.THM_T_TEMP, Fld.THM_T_STAND_IN]
  | .THM_MAX => [Fld.THM_MAX_MAX, Fld.THM_MAX_MAX_SRC]
  | .THM_PEAK => [Fld.THM_PEAK_PEAK]
  | .CAL_STATUS => [Fld.CAL_STATUS_LANE_DEFERRED, Fld.CAL_STATUS_AON_RANGE]
  | .CAL_AON => [Fld.CAL_AON_AON_FREQ]
  | .CAL_BEMF_OFS => [Fld.CAL_BEMF_OFS_OFFSET_A, Fld.CAL_BEMF_OFS_OFFSET_B]
  | .CAL_TEMP => [Fld.CAL_TEMP_LAST_CAL_TEMP]
  | .CAL_COUNT => [Fld.CAL_COUNT_CALIBRATIONS]
  | .SYS_GPIO => [Fld.SYS_GPIO_DIR, Fld.SYS_GPIO_OUT]
  | .SYS_GPIO_PULL => [Fld.SYS_GPIO_PULL_PULL_EN]
  | .SYS_GPIO_IN => [Fld.SYS_GPIO_IN_LEVEL]
  | .PWR_CTRL => [Fld.PWR_CTRL_VENC_EN]
  | .PWR_STATUS => [Fld.PWR_STATUS_VIN_WARN, Fld.PWR_STATUS_VIN_STOP, Fld.PWR_STATUS_VIN_HIGH,
      Fld.PWR_STATUS_VENC_FAULT, Fld.PWR_STATUS_INPUT_TRIP, Fld.PWR_STATUS_RAIL_FAULT, Fld.PWR_STATUS_OUT_SHORT,
      Fld.PWR_STATUS_WARN_NOW, Fld.PWR_STATUS_VENC_ON]
  | .PWR_VIN => [Fld.PWR_VIN_VIN_MV, Fld.PWR_VIN_VIN_MIN_MV]
  | .PWR_IIN => [Fld.PWR_IIN_IIN_MA]
  | .PWR_POWER => [Fld.PWR_POWER_INPUT_POWER]
  | .PWR_VENC => [Fld.PWR_VENC_VENC_MA]
  | .PWR_WARN => [Fld.PWR_WARN_WARN_COUNT]
  | .PWR_WARN_LAST => [Fld.PWR_WARN_LAST_WARN_LAST]
  | .PWR_SHORT => [Fld.PWR_SHORT_SHORT_SIGNALS]
  | .FAULT_SUMMARY => [Fld.FAULT_SUMMARY_SUBSYSTEM]
  | .FAULT_MASK => [Fld.FAULT_MASK_MASK]
  | .SYS_FATAL => [Fld.SYS_FATAL_RAIL, Fld.SYS_FATAL_CLOCK_IN, Fld.SYS_FATAL_TIME_CLOCK, Fld.SYS_FATAL_SRAM_UNCORR,
      Fld.SYS_FATAL_CORE_MEM_UNCORR, Fld.SYS_FATAL_WATCHDOG, Fld.SYS_FATAL_LOCKSTEP]

/-- Part 1 of the register list. -/
def regList1 : List Reg := [
  .POS_ENC_CTRL, .POS_SOURCE, .POS_SCALE, .POS_MIRROR, .POS_REV, .POS_SLIP, .POS_PRED, .POS_LEAD, .POS_RATE,
  .POS_ACCEL, .POS_BAR, .POS_FLIGHT, .POS_STATUS, .POS_ENC_STATUS, .POS_LINE, .POS_COUNT, .POS_INDEX_COUNT,
  .POS_SPEED, .POS_PASS, .POS_NEXT, .POS_MISSED, .POS_SHED, .POS_DROP, .POS_PSHORT, .TIM_CTRL, .TIM_PTP, .TIM_PPS,
  .TIM_LOCK, .TIM_ETH_ASYM, .TIM_NOW_LO, .TIM_NOW_HI, .TIM_INCR, .TIM_OFFSET, .TIM_PPS_IN_TIME, .TIM_ERROR, .TIM_TXQ,
  .TIM_STATUS, .TIM_TRIG_CTRL, .TIM_TRIG_TIME, .TIM_TRIG_PERIOD, .TIM_TRIG_COUNT, .TIM_TRIG_STATUS, .IMG_CTRL,
  .IMG_AGE]
/-- Part 2 of the register list. -/
def regList2 : List Reg := [
  .IMG_BALANCE, .IMG_SCRUB, .IMG_STATUS, .IMG_CAP, .IMG_FREE, .IMG_ECC, .IMG_RETIRED, .IMG_PREEMPT, .IMG_MOVES,
  .IMG_OVERRUN, .IMG_LAT, .IMG_TEMP, .JLC_CTRL, .JLC_POLICY, .JLC_STATUS, .JLC_LAST_ERR, .JLC_RETRIES, .JLC_FAILED,
  .JLC_SUBST, .JLC_REENC, .JLC_REPL, .WFT_CFG, .WFT_SCREEN, .WFT_CELL, .WFT_TONE, .WFT_MASK, .WFT_CORR, .WFT_NOZZLE,
  .WFT_STATUS, .WFT_COVER, .WFT_FIFO, .WFT_ROUTED, .WFT_LOST, .WFT_BLOCKS, .WFT_REED, .FIR_CFG, .FIR_SUPPLY,
  .FIR_CONS, .FIR_STATUS, .FIR_PATH, .FIR_SWITCHES, .FIR_PREHEAT, .FIR_HEAD_TEMP, .FIR_HEAD_TOTAL]
/-- Part 3 of the register list. -/
def regList3 : List Reg := [
  .FIR_HEAD_PENDING, .FIR_HEAD_SEQ, .FIR_INK_TOTAL, .FIR_INK_PENDING, .FIR_INK_SEQ, .FL_HUB, .FL_CTRL, .FL_EYE,
  .FL_STATUS, .FL_LANE, .FL_HUBSTATE, .FL_BLOCK_ERR, .FL_LOCK_LOSS, .FL_CRC_ERR, .FL_RESTRIPE, .FL_SHED, .FL_UNACKED,
  .FL_EYE_RES, .CAM_CTRL, .CAM_GEOM, .CAM_POS, .CAM_PITCH, .CAM_OFF, .CAM_FRAME, .CAM_PHASE, .CAM_AE, .CAM_TRIM,
  .CAM_STATUS, .CAM_GOOD, .CAM_TRUNC, .CAM_SHORT, .CAM_LONG, .CAM_ERR, .CAM_SKIP, .CLP_CTRL, .CLP_SOLVE, .CLP_LIMITS,
  .CLP_SLOT, .CLP_K, .CLP_DCURVE, .CLP_LADDER, .CLP_LSLOT, .CLP_CLASS, .CLP_FREEZE]
/-- Part 4 of the register list. -/
def regList4 : List Reg := [
  .CLP_COEF, .CLP_DELTA, .CLP_STATUS, .CLP_SOLVES, .CLP_GROUPS, .CLP_REJECT, .CLP_LADDERS, .SYS_ROLE, .PAIR_HEALTH,
  .PAIR_CTRL, .PAIR_STATUS, .PAIR_EPOCH, .PAIR_LEASE_UNTIL, .PAIR_TAKEOVERS, .PAIR_MISSED, .PAIR_MISMATCH,
  .PAIR_GAP_FIRST, .PAIR_GAP_LAST, .SYS_ID, .SYS_REV, .SYS_FW_VERSION, .SYS_STATE, .MBX_STATUS, .DB_H2D_SET,
  .DB_H2D_STATUS, .DB_D2H_STATUS, .DB_D2H_MASK, .LCK, .EVT_HEAD, .EVT_TAIL, .MBX_TAKEN, .MBX_REJECTS, .MBX_FRAME_ERR,
  .EVT_LOST, .SET_STATUS, .MOT_CFG, .MOT_PROFILE, .MOT_HOME, .MOT_HOME_RANGE, .MOT_HOME_OFS, .MOT_STALL, .MOT_GROUP,
  .MOT_STATUS, .MOT_FAULT]
/-- Part 5 of the register list. -/
def regList5 : List Reg := [
  .MOT_POS, .MOT_TARGET, .MOT_VEL, .MOT_LOAD, .MOT_LATCH, .MOT_STALLS, .SEC_CTRL, .SEC_FUSE, .SEC_AUDIT, .SEC_GLITCH,
  .SEC_STATUS, .RST_CAUSE, .RST_START_FAILS, .RST_CTRL, .THM_CTRL, .THM_HOLD, .CAL_CTRL, .THM_STATUS,
  .THM_SENSOR_FAIL, .THM_T, .THM_MAX, .THM_PEAK, .CAL_STATUS, .CAL_AON, .CAL_BEMF_OFS, .CAL_TEMP, .CAL_COUNT,
  .SYS_GPIO, .SYS_GPIO_PULL, .SYS_GPIO_IN, .PWR_CTRL, .PWR_STATUS, .PWR_VIN, .PWR_IIN, .PWR_POWER, .PWR_VENC,
  .PWR_WARN, .PWR_WARN_LAST, .PWR_SHORT, .FAULT_SUMMARY, .FAULT_MASK, .SYS_FATAL]
/-- Every register, in the order of `Reg`. -/
def regList : List Reg := regList1 ++ regList2 ++ regList3 ++ regList4 ++ regList5

/-- The registers that a REG_ID's subsystem code and register number name (R407). -/
def regOfId (code num : Nat) : Option Reg :=
  regList.find? fun r => (regInfo r).code == code && (regInfo r).num == num

/-- Mask 1 of R191, GRADIENT, as 4,096 bits: bit 256 r + j is m(j, r). -/
def gradientMask : Nat :=
  (List.range 4096).foldl
    (fun a n => if 255 - n % 256 > (5 * (n % 256) + 11 * (n / 256)) % 16 * 16 + 8 then a + 2 ^ n else a) 0

/-- The reset value of one instance of a register: the field tables' Reset column, and the entries that depend on the
index: tone curve entry v is v (R182), curve point u of CLP_DCURVE is min(u, 16) x 2,048 (R314), a stitch mask is mask 1
of R191, GRADIENT, at every one of its 4,096 bits. -/
def resetVal (r : Reg) (idx : Nat) : Nat :=
  match r with
  | .WFT_TONE => idx % 256
  | .CLP_DCURVE => Nat.min (idx % 33) 16 * 2048
  | .WFT_MASK => gradientMask
  | r => (regFields r).foldl (fun a f => a + f.reset * 2 ^ f.lo) 0

/-- The key of one register instance in a bank. -/
def regKey (r : Reg) (idx elem : Nat) : Nat := (r.ctorIdx * 8192 + idx) * 131072 + elem

/-- The reset value that a key stands for (0 for a key of no register). -/
def keyReset (k : Nat) : Nat :=
  match regList[k / (8192 * 131072)]? with
  | some r => resetVal r (k / 131072 % 8192)
  | none => 0

/-- A bank: register instances that differ from reset, by key. -/
abbrev Bank := List (Nat × Nat)

/-- The canonical form: keys strictly rising, and no entry equal to its reset value. -/
def bankWf : Bank → Bool
  | [] => true
  | [(k, v)] => v != keyReset k
  | (k, v) :: (k', v') :: rest => v != keyReset k && decide (k < k') && bankWf ((k', v') :: rest)

/-- The value a bank holds at a key. -/
def bankLookup : Bank → Nat → Nat
  | [], k => keyReset k
  | (k', v) :: rest, k => if k' = k then v else if k < k' then keyReset k else bankLookup rest k

/-- A bank with one key written, in canonical form. -/
def bankWrite : Bank → Nat → Nat → Bank
  | [], k, v => if v = keyReset k then [] else [(k, v)]
  | (k', v') :: rest, k, v =>
    if k < k' then (if v = keyReset k then (k', v') :: rest else (k, v) :: (k', v') :: rest)
    else if k = k' then (if v = keyReset k then rest else (k, v) :: rest)
    else (k', v') :: bankWrite rest k v

/-- The whole value of a register instance. -/
def bankReg (b : Bank) (r : Reg) (idx elem : Nat) : Nat := bankLookup b (regKey r idx elem)

/-- One field of a register instance. -/
def bankGet (b : Bank) (f : Field) (idx elem : Nat := 0) : Nat := bitsOf (bankReg b f.reg idx elem) f.lo f.width

/-- A bank with one field of a register instance written. -/
def bankSet (b : Bank) (f : Field) (idx : Nat) (v : Nat) (elem : Nat := 0) : Bank :=
  bankWrite b (regKey f.reg idx elem) (putBits (bankReg b f.reg idx elem) f.lo f.width v)

/-- The bank with the registers that `keep` names, the others at reset. -/
def bankKeep (b : Bank) (keep : Reg → Bool) : Bank :=
  b.filter fun (k, _) => match regList[k / (8192 * 131072)]? with | some r => keep r | none => false

/-- A value within a field's valid range: the table's range, and the fields whose valid values are not one range (FL_HUB
WIDTH is 1, 2 or 4, R242; CLP_SLOT SLOT is 0 to 7 or 15, R310). -/
def fieldValueOk (f : Field) (v : Nat) : Bool :=
  decide (f.min ≤ v) && decide (v ≤ f.max) &&
    (if f = Fld.FL_HUB_WIDTH then v == 1 || v == 2 || v == 4
     else if f = Fld.CLP_SLOT_SLOT then v ≤ 7 || v == 15 else true)

end Sys2Proof.Machine
end

