-- ==== Sys2Proof/Machine/Types.lean ====
section
/-!
DEFINITION. The data types of the block: what the commands carry and what State holds, chapter by chapter. Times are device
time in nanoseconds (R74) unless a docstring says counter ticks; a line is a 48-bit web-line number held as an integer.
-/
namespace Sys2Proof.Machine

/-! ### States, roles, events (R382, R368, R401) -/

/-- SYS_STATE.STATE (R382). -/
inductive SysSt where
  | off | reset | boot | recovery | ready | armed | printing | paused | safeStop
  deriving DecidableEq, Repr

/-- SYS_ROLE.ROLE (R368). -/
inductive Role where | solo | active | standby
  deriving DecidableEq, Repr

/-- One event: the 16 bytes of R401. -/
structure Event where
  time   : Nat
  code   : Nat
  source : Nat
  arg    : Nat
  deriving DecidableEq, Repr

/-- One entry of the persistent log (R611): its sequence number and event. -/
structure LogEntry where
  seq : Nat
  ev  : Event
  deriving DecidableEq, Repr

/-! ### Mailboxes and the host's side (chapter 11) -/

/-- A reply of R384; the module sets FLAGS.REPLY in every one. -/
structure Reply where
  cls     : Nat
  op      : Nat
  tag     : Nat
  result  : Nat
  detail  : Nat := 0
  isRepeat : Bool := false
  single  : Bool := false
  payload : List Byte := []
  deriving DecidableEq, Repr

/-- A message taken and not yet replied to in a mailbox: executing while `reply` is none, held under R339 while `hold`
names the pick whose record carries it, its reply discarded when `drop` (R391). -/
structure Flight where
  cls   : Nat
  op    : Nat
  tag   : Nat
  reply : Option Reply := none
  hold  : Option Nat := none
  drop  : Bool := false
  deriving DecidableEq, Repr

/-- A state-changing message recorded under R393. -/
structure Recorded where
  tag   : Nat
  reply : Reply
  deriving DecidableEq, Repr

/-- One of the six message channels: k = 0 to 3 for N0 to N3, 4 for S0, 5 for S1 (R381). `servedAt` is the pick of the last message
taken, which throttling counts (R549). `gcm` is the encrypted payload and the tag of the reply in a secure channel's outbound mailbox,
none under a tag field of zeros; `sent` numbers the session's replies, and `plain` counts those of messages taken before it opened that
have still to go out (R487, R489). -/
structure Mbx where
  inbox     : List Byte := []
  pending   : Bool := false
  gcm       : Option (List Byte × List Byte) := none
  sent      : Nat := 0
  plain     : Nat := 0
  out       : Option Reply := none
  queue     : List Reply := []
  flight    : List Flight := []
  recent    : List Recorded := []
  comparing : Bool := false
  rejectTag : Nat := 0
  busyEv    : Bool := false
  frameEv   : Bool := false
  servedAt  : Option Nat := none
  secure    : Bool := false
  deriving DecidableEq, Repr

/-- A data transfer of R380 that a taken message names. -/
structure Transfer where
  num    : Nat
  length : Nat
  data   : List Byte := []
  ackedAt : Nat := 0
  lastAck : Nat := 0
  deriving DecidableEq, Repr

/-- A SET.TABLE, or a CLP.COEF_SET as table 5 with its first group as offset, whose data comes by reference (R322, R380, R420, R428). -/
structure TableLoad where
  chan     : Nat
  tag      : Nat
  table    : Nat
  index    : Nat
  offset   : Nat
  length   : Nat
  transfer : Nat
  deriving DecidableEq, Repr

/-- The Ethernet session of R378. -/
structure Session where
  source : Nat
  udp    : Nat
  port   : Nat
  num    : Nat
  last   : Nat
  taken  : List (Nat × Nat) := []
  notify : Option Nat := none
  deriving DecidableEq, Repr

/-- The host attachment: channels, locks, event ring, log, filter and Ethernet session. `setNow` are the W1C bits that the module has
set at counter tick `setTick`, as (register key, mask): a write of the same cycle leaves them set (R5). -/
structure HostIf where
  chans   : List Mbx := List.replicate 6 {}
  locks   : List Nat := List.replicate 32 0
  ring    : List Event := List.replicate 64 ⟨0, 0, 0, 0⟩
  evHead  : Nat := 0
  queued  : List Event := []
  logged  : Nat := 0
  lost    : Nat := 0
  filter  : List (Nat × Nat) := []
  log     : List LogEntry := []
  logNext : Nat := 0
  session : Option Session := none
  lastSession : Nat := 0
  transfers : List Transfer := []
  tables   : List TableLoad := []
  irqSent : List (Nat × Nat) := []
  irqDue  : List Nat := []
  dgSeq   : Nat := 0
  setTick : Nat := 0
  setNow  : List (Nat × Nat) := []
  netConfig : List (Nat × List Nat) := []
  netActive : List (Nat × List Nat) := []
  deriving DecidableEq, Repr

/-! ### Device time (chapter 03) -/

/-- A pending step (R81): D in ns and the number of the pick whose boundary applies it. -/
structure TimeStep where
  amount : Int
  pick   : Nat
  deriving DecidableEq, Repr

/-- The identifier of a PTP event message (R89): messageType, domainNumber and sequenceId. -/
structure PtpIdent where
  kind   : Nat
  domain : Nat
  seq    : Nat
  deriving DecidableEq, Repr

/-- An entry of a transmit time-stamp queue (R89). -/
structure TxStamp where
  ident   : PtpIdent
  stamp   : Nat
  arrived : Nat
  deriving DecidableEq, Repr

/-- An occurrence that still acts under the settings it had (R99): its device time and the TIM_TRIGn_CTRL of then. -/
structure OldTrig where
  due  : Nat
  ctrl : Nat
  deriving DecidableEq, Repr

/-- The running side of a time trigger; its settings are TIM_TRIGn registers (R102). `acted` counts the occurrences that have acted,
`lateDue` tells of an occurrence that is late and acts at once (R96, R98), and `old` is the occurrence of replaced settings. -/
structure Trigger where
  armed   : Bool := false
  acted   : Nat := 0
  next    : Nat := 0
  nextPick : Nat := 0
  capture : Int × Int := (0, 0)
  skipped : Nat := 0
  lateDue : Bool := false
  old     : Option OldTrig := none
  deriving DecidableEq, Repr

/-- Device time: the counter, OFFSET and INCR in units of 2^-32 ns (R73, R74), the pick (R16), the servo, PPS, triggers.
`slewOnly` tells that the unit has taken over and its source's servo has not yet reached lock (R94), `relock` that the source has
changed since its servo last declared or lost lock (R86); `prevStart` is the start of the pick before, `ppsOut` the counter tick at
which PPS_OUT falls (R92), and `camOut` the levels of the two camera trigger outputs. -/
structure TimeSt where
  counter  : Nat := 0
  offset   : Int := 0
  incr     : Nat := 2 ^ 32
  slewLeft : Int := 0
  slewing  : Bool := false
  nowHi    : Nat := 0
  steps    : List TimeStep := []
  pick     : Nat := 0
  pickStart : Nat := 0
  nextBoundary : Nat := 100000
  locked   : Bool := false
  holdover : Bool := false
  stepHeld : Bool := false
  slewOnly : Bool := false
  source   : Nat := 0
  goodRun  : Nat := 0
  badRun   : Nat := 0
  lastMeasure : Nat := 0
  ppsSecond : Option Nat := none
  ppsExpected : Option Nat := none
  ppsOut   : Option Nat := none
  relock   : Bool := false
  prevStart : Nat := 0
  camOut   : List Bool := [false, false]
  rxStamps : List Nat := [0, 0]
  txq      : List (List TxStamp) := [[], []]
  trigs    : List Trigger := List.replicate 8 {}
  deriving DecidableEq, Repr

/-! ### Web position (chapter 02) -/

/-- One encoder input: levels, count (held as an integer; POS_COUNTn is its low 48 bits), run counters of the index checks,
the pairs the fail-safe comparator finds open, and the illegal transitions of the pick. -/
structure Encoder where
  a        : Bool := false
  b        : Bool := false
  z        : Bool := false
  count    : Int := 0
  indexCount : Int := 0
  lastEdge : Option Nat := none
  openA    : Bool := false
  openB    : Bool := false
  openZ    : Bool := false
  illegal  : Nat := 0
  zCount   : Int := 0
  zA       : Bool := false
  zB       : Bool := false
  runA     : Nat := 0
  runB     : Nat := 0
  runZ     : Nat := 0
  deriving DecidableEq, Repr

/-- The predictor of R46: p and v exact rationals (lines, lines per tick), t_last in counter ticks; `pend` is the latest edge
of a 250 ns interval that has had its update (R47). -/
structure Predictor where
  p        : Rat := 0
  v        : Rat := 0
  tLast    : Nat := 0
  zLast    : Rat := 0
  lastRun  : Nat := 0
  pend     : Option (Nat × Rat) := none
  deriving DecidableEq, Repr

/-- Web position: positions are signed 40.24 numbers held as integers in 2^-24 line (R33). `moves` holds the last movements of the
reported position, oldest first, each as the position reached and the device time of its edge, and `movesFrom` the position before
the first of them: the moments that crawl mode names (R49). -/
structure PosSt where
  enc      : List Encoder := List.replicate 2 {}
  source   : Nat := 0
  pos      : Int := 0
  hwm      : Int := 0
  depth    : Nat := 0
  deepest  : Nat := 0
  frozen   : Bool := false
  crawl    : Bool := false
  pred     : Predictor := {}
  v1       : Rat := 0
  v2       : Rat := 0
  accelEx  : Bool := false
  pass     : Nat := 0
  passFwd  : Bool := true
  fallback : Bool := false
  slipAdv  : Int := 0
  slipSec  : Int := 0
  indexWait : Bool := false
  boundaryCount : Int := 0
  boundaryPos : Int := 0
  boundaryHwm : Int := 0
  moves    : List (Int × Nat) := []
  movesFrom : Int := 0
  encTerm  : Bool := false
  deriving DecidableEq, Repr

/-! ### Image store (chapters 04 and 12) -/

/-- An image of the directory (R430). Handles run from 1 to 4,095 (R427). -/
structure Image where
  handle : Nat
  name   : List Byte
  format : Nat
  lps    : Nat
  width  : Nat
  height : Nat
  deriving DecidableEq, Repr

/-- A stored strip: its JLC bytes, decode cost (R147), placement as grain numbers (R107, R128), store CRC, damage mark, the number
of this copy and the reads in flight on it (R132). -/
structure Strip where
  handle  : Nat
  index   : Nat
  bytes   : List Byte
  cost    : Nat
  grains  : List Nat
  crc     : Nat
  damaged : Bool := false
  copy    : Nat := 0
  refs    : Nat := 0
  deriving DecidableEq, Repr

/-- A copy of a strip that the directory no longer names, with the reads still on it (R132): `chan` is the ink channel whose move left
it, 16 for one that a new store left. -/
structure OldCopy where
  chan  : Nat
  strip : Strip
  deriving DecidableEq, Repr

/-- A strip move in flight (R129 to R133): the ink channel it serves, the copy it reads and the new copy's grains. -/
structure StripMove where
  chan   : Nat
  handle : Nat
  index  : Nat
  src    : Nat
  grains : List Nat
  ready  : Bool := false
  deriving DecidableEq, Repr

/-- Who made a request of the store: a weft channel's read of a copy of a strip, the frame writes of a camera port, a strip being
stored, the move of an ink channel, the scrubber. -/
inductive MemUser where
  | read (chan copy : Nat)
  | frame (port : Nat)
  | store (handle index : Nat)
  | move (chan : Nat)
  | scrub
  deriving DecidableEq, Repr

/-- A request of a DRAM channel (R112, R113): its class, the row it touches, whether it writes, and the counter tick of its
acceptance. -/
structure MemReq where
  cls   : Nat
  bank  : Nat
  row   : Nat
  write : Bool
  user  : MemUser
  since : Nat := 0
  deriving DecidableEq, Repr

/-- The result of training one item of one byte lane (R109, R111): 0 read delay, 1 write delay, 2 read gate, 3 write levelling, with
the setting at the centre of its eye and the eye's width in per cent of a unit interval. -/
structure EyeWidth where
  lane  : Nat
  item  : Nat
  width : Nat
  setting : Nat := 0
  deriving DecidableEq, Repr

/-- One DRAM channel (R109 to R122); temperatures in whole degrees. `queue` are its requests, oldest first, `waiting` those whose class
has no free entry (R112), `openRows` the open row of each bank, `refreshOrder` its banks from the one owed a refresh longest (R117),
`busy` the requests served per bank since the last pick number that is a multiple of 8 (R129), `trained` the results that MRAM holds
and `settings` those in use (R109, R110). -/
structure DramChan where
  debt     : Nat := 0
  doubled  : Bool := false
  noPostpone : Bool := false
  temp     : Int := 0
  due      : Option Nat := none
  training : Bool := false
  corrected : Nat := 0
  queue    : List MemReq := []
  waiting  : List MemReq := []
  openRows : List (Nat × Nat) := []
  refreshOrder : List Nat := List.range 16
  busy     : List Nat := List.replicate 16 0
  trained  : List EyeWidth := []
  settings : List EyeWidth := []
  deriving DecidableEq, Repr

/-- An IMG.INGEST in progress (R431): the message it answers, and what is left to store. -/
structure Ingest where
  chan    : Nat
  tag     : Nat
  handle  : Nat
  jlc     : Bool
  next    : Nat
  left    : Nat
  stored  : Nat := 0
  data    : List Byte := []
  used    : Nat := 0
  index   : Nat := 0
  transfer : Option Nat := none
  deriving DecidableEq, Repr

/-- A strip that the partner's deliveries have failed (R156, R367): failures in a row and when to ask again. -/
structure ReplRetry where
  handle : Nat
  index  : Nat
  fails  : Nat
  askAt  : Option Nat := none
  deriving DecidableEq, Repr

/-- A strip this unit has been asked to send again (R367): requests for it so far. -/
structure SendAsk where
  handle : Nat
  index  : Nat
  count  : Nat
  deriving DecidableEq, Repr

/-- A row of the store: channel, bank, row. -/
structure RowId where
  chan : Nat
  bank : Nat
  row  : Nat
  deriving DecidableEq, Repr

/-- The image store and memory controller. `scrubAt` is the next row of the scrubber's pass and `scrubFrom` when the pass began
(R125); `olds` are the copies that the directory has left (R132). -/
structure StoreSt where
  images  : List Image := []
  nextHandle : Nat := 1
  strips  : List Strip := []
  moves   : List StripMove := []
  olds    : List OldCopy := []
  nextCopy : Nat := 1
  scrubAt : Nat := 0
  scrubFrom : Option Nat := none
  dram    : List DramChan := List.replicate 4 {}
  rowErrs : List (RowId × Nat) := []
  retired : List RowId := []
  latNow  : List Nat := List.replicate 16 0
  latHist : List (List Nat) := List.replicate 16 []
  ingests : List Ingest := []
  retries : List ReplRetry := []
  asks    : List SendAsk := []
  lastBreak : Option Nat := none
  grainInForce : Nat := 4
  eccInForce : Bool := true
  deriving DecidableEq, Repr

/-! ### Heads, reed table and configuration sets (chapters 06, 07 and 12) -/

/-- A head type record (R185, R206). -/
structure HeadType where
  rows      : Nat
  phases    : Nat
  nozzles   : Nat
  shiftB    : Int
  offsetB   : Int
  maxRate   : Nat
  phaseMode : Nat
  preheatOk : Bool
  hotOk     : Bool
  preheatMin : Int
  volSmall  : Nat
  volMedium : Nat
  volLarge  : Nat
  deriving DecidableEq, Repr

/-- A head placement record (R186); a row's channel is none when the record holds 0xFF. -/
structure Placement where
  hub    : Nat
  port   : Nat
  type   : Nat
  chanA  : Option Nat
  chanB  : Option Nat
  desc   : Bool
  maskEn : Bool
  x      : Int
  first  : Nat
  last   : Nat
  y      : Int
  mask   : Nat
  deriving DecidableEq, Repr

/-- A reed table entry (R189), with the head that its HUB and PORT name. -/
structure ReedEntry where
  first   : Nat
  span    : Nat
  hub     : Nat
  port    : Nat
  nozzle  : Nat
  desc    : Bool
  chan    : Nat
  mask    : Nat
  enable  : Bool
  rowB    : Bool
  lead    : Bool
  trail   : Bool
  head    : Nat
  deriving DecidableEq, Repr

/-- A configuration set (R416): the fields of the set as a bank, head type records by TYPE_ID, placements by HEAD_ID, the
energy tables that differ from R208's reset, the hand-written correction image and coefficient image as (channel, column or
group, value), and the reed table. -/
structure CfgSet where
  regs   : Bank := []
  types  : List (Nat × HeadType) := []
  places : List (Nat × Placement) := []
  energy : List (Nat × List Nat) := []
  corr   : List (Nat × Nat × Nat) := []
  coef   : List (Nat × Nat × Nat) := []
  reed   : List ReedEntry := []
  deriving DecidableEq, Repr

/-- A pending swap (R424): POINT, the line or pass named, whether the change waits only for the next pick, the channels that
have changed, whether the time-anchored part has, and the blocks of the manual correction image applied per channel, 26 when none is
left and 27 while the channel's entries have not come to change (R181). -/
structure Swap where
  point    : Nat
  line     : Int
  whole    : Bool
  changed  : List Bool := List.replicate 16 false
  timeDone : Bool := false
  passSeen : Bool := false
  manual   : List Nat := List.replicate 16 27
  deriving DecidableEq, Repr

/-- The two sets, the swap under way and the snapshot in MRAM (R416 to R426). `prior` holds the sets that completed swaps
replaced, each with its swap line, while lines below that line are in flight (R66). -/
structure SetsSt where
  active    : CfgSet := {}
  shadow    : CfgSet := {}
  validated : Bool := false
  swap      : Option Swap := none
  point     : Nat := 0
  line      : Int := 0
  seq       : Nat := 0
  snapshot  : Option CfgSet := none
  prior     : List (CfgSet × Int) := []
  deriving DecidableEq, Repr

/-! ### The job (R434 to R440) -/

/-- The repeat descriptor of R174. -/
structure Repeat where
  mode    : Nat := 0
  originX : Int := 0
  drop    : Nat := 0
  shift   : Nat := 0
  repeats : Nat := 0
  deriving DecidableEq, Repr

/-- The current or last job. -/
structure Job where
  id         : Nat := 0
  streamed   : Bool := false
  originMode : Nat := 0
  channels   : Nat := 0
  startGap   : Nat := 0
  first      : Int := 0
  lineCount  : Nat := 0
  rep        : Repeat := {}
  passLines  : Nat := 0
  passStride : Nat := 0
  passCount  : Nat := 0
  ingestRate : Nat := 0
  images     : List Nat := List.replicate 16 0
  last       : Option Int := none
  pauseAt    : Option Int := none
  stopAt     : Option Int := none
  passPrint  : Nat := 0
  endCause   : Nat := 0
  shift      : Int := 0
  deriving DecidableEq, Repr

/-! ### Lines of a weft channel (chapters 05 to 07) -/

/-- The dot codes of one head row on one line: nozzles with a code other than 0. -/
structure RowDots where
  head  : Nat
  hub   : Nat
  port  : Nat
  rowB  : Bool
  dots  : List (Nat × Nat)
  deriving DecidableEq, Repr

/-- A rendered line in the line FIFO (R197, R199); `hist` marks the history path, `subst` a line of R163. -/
structure RLine where
  line  : Int
  rows  : List RowDots
  hist  : Bool := false
  subst : Bool := false
  deriving DecidableEq, Repr

/-- A head row of a sent line: its fire time, and whether it is settled (R266) and was reported fired. -/
structure SentRow where
  head    : Nat
  hub     : Nat
  port    : Nat
  rowB    : Bool
  fire    : Nat
  units   : Nat
  ink     : Nat
  settled : Bool := false
  fired   : Bool := false
  deriving DecidableEq, Repr

/-- A line sent and kept until it is settled; `withdrawn` after R36, `shift` the delay of R61. `later` are the rows of the hubs whose
send window has not yet opened (R52, R203), and `crawl` marks a line placed as R49 states. -/
structure SentLine where
  line   : Int
  shift  : Int := 0
  sentAt : Nat
  rows   : List SentRow
  dots   : List RowDots
  later  : List RowDots := []
  hist   : Bool := false
  crawl  : Bool := false
  withdrawn : Bool := false
  missed : Bool := false
  deriving DecidableEq, Repr

/-- A strip in a buffer half or quarter (R161): waiting to be stored (R437), being read and decoded, verified, or to be
substituted (R163). `copy` is the copy of the strip that its read takes (R132). -/
structure BufStrip where
  stream   : Nat
  index    : Nat
  firstLine : Int
  lines    : Nat
  tries    : Nat := 0
  reading  : Bool := false
  ready    : Bool := false
  failed   : Bool := false
  copy     : Nat := 0
  data     : List Byte := []
  deriving DecidableEq, Repr

/-- A correction block (R178, R180): first column, entries, the image line that begins the strip after its boundary, and the
coefficients that travel with it (R315) as (group, value). -/
structure CorrBlock where
  chan    : Nat
  column  : Nat
  entries : List Nat
  line    : Int
  coefs   : List (Nat × Nat) := []
  deriving DecidableEq, Repr

/-- A nozzle state change waiting for a strip boundary or a pick boundary (R192); `loop` tells that the colour loop made it. -/
structure NozzleChange where
  chan   : Nat
  head   : Nat
  rowB   : Bool
  nozzle : Nat
  state  : Nat
  line   : Option Int
  loop   : Bool := false
  deriving DecidableEq, Repr

/-- A named energy-path change (R221). -/
structure PathChange where
  chan : Nat
  hist : Bool
  line : Int
  deriving DecidableEq, Repr

/-- A copy of a channel's correction store and coefficients taken from the active (R343), as registers and base entries: it applies at
the strip boundary that image line `line` begins. -/
structure CorrCopy where
  line : Int
  live : Bank
  base : List (Nat × Nat)
  deriving DecidableEq, Repr

/-- One weft channel and its firing path. `hist` is the history of R217, newest line first; `sentKeys` the nozzles sent drops on
the last lines sent (R213); `oldSpan` a pre-heat length that holds until a line (R212); `maskSpan` the span whose mask each row
last received; `mainFrom` the first line of the job, or of the main path after its last switch; `beyond` the line that follows the lines
withdrawn (R37); `corrLost` that a correction block was discarded and the store not yet copied again (R343), `corrCopy` the copy that
waits for its boundary, and `corrFrom` the line from which mismatches count again since; `lastFired` the last line acknowledged as fired
on every row (R356). -/
structure Chan where
  next      : Int := 0
  render    : Int := 0
  fifo      : List RLine := []
  sent      : List SentLine := []
  lastSent  : Option Int := none
  lastFire  : Nat := 0
  overspeed : Bool := false
  overLine  : Int := 0
  bufs      : List BufStrip := []
  lastGood  : List (Nat × List Byte) := []
  hist      : List (List (Nat × Nat)) := []
  onHist    : Bool := false
  warmPicks : Nat := 0
  missedEv  : Option Int := none
  lostPick  : Nat := 0
  substLines : List Int := []
  coverLow  : Bool := false
  maskSpan  : List (Nat × Int) := []
  oldSpan   : Option (Nat × Int) := none
  sentKeys  : List (Int × List (Nat × Nat)) := []
  mainFrom  : Int := 0
  inkRem    : Nat := 0
  beyond    : Int := 0
  corrLost  : Bool := false
  corrCopy  : Option CorrCopy := none
  corrFrom  : Option Int := none
  lastFired : Option Int := none
  deriving DecidableEq, Repr

/-- A secure element's account (R226 to R234): the commit in flight, the flags around it, the CONS_RESET message that waits
for the element's reply (R502), and the last reply accepted, with its signature (R500). `cert` is its certificate as far as
ELEMENT_INFO has read it (R499). -/
structure Element where
  key      : Nat
  seq      : Nat := 0
  amount   : Nat := 0
  nonce    : Nat := 0
  inFlight : Bool := false
  attempts : Nat := 0
  sentAt   : Nat := 0
  lastDone : Nat := 0
  seqFault : Bool := false
  lastSeqSeen : Nat := 0
  identity : Nat := 0
  certOk   : Bool := false
  cert     : List Byte := []
  reading  : Bool := false
  rebase   : Option (Nat × Nat) := none
  lastRecord : List Byte := []
  lastSig  : List Byte := []
  deriving DecidableEq, Repr

/-- The print path: channels, waiting blocks and changes, those named since the last pick record, elements, the last reports of
each head, and the last energy table that a swap sent each head port, as (hub, port, first line, table) (R209, R270). -/
structure PrintSt where
  chans    : List Chan := List.replicate 16 {}
  blocks   : List CorrBlock := []
  nozzles  : List NozzleChange := []
  paths    : List PathChange := []
  sendBlocks  : List CorrBlock := []
  sendNozzles : List NozzleChange := []
  sendPaths   : List PathChange := []
  elements : List Element := []
  tables   : List (Nat × Nat × Int × List Nat) := []
  raised   : List (Nat × Nat) := []
  coldNow  : List Nat := []
  coldPrev : List Nat := []
  coldEv   : List Nat := []
  warmBad  : List Nat := []
  warmNow  : List Nat := []
  deriving DecidableEq, Repr

/-! ### Motion axes (chapter 13) -/

/-- A homing sequence (R458 to R462). STAGE: 0 approach, 1 index search, 2 braking after the latch, 3 back-off. `edge` is the
last edge into the active level, with its time and count. -/
structure Homing where
  kind  : Nat
  stage : Nat := 0
  start : Int
  mark  : Int := 0
  latch : Option Int := none
  edge  : Option (Nat × Int) := none
  edges : List Nat := []
  deriving DecidableEq, Repr

/-- The limits of a move: VMAX, AMAX, DMAX, JMAX; 0 selects the axis's configured limit. -/
structure Limits where
  v : Nat := 0
  a : Nat := 0
  d : Nat := 0
  j : Nat := 0
  deriving DecidableEq, Repr

/-- Limits in force, in steps/s, steps/s² and steps/s³. -/
structure Rates where
  v : Rat := 0
  a : Rat := 0
  d : Rat := 0
  j : Rat := 0
  deriving DecidableEq, Repr

/-- One axis. `x` and `prev` are the commanded positions for the next and the last pick boundary in 2^-32 step (R451), `v` and
`a` in steps/s and steps/s². `own` is what MOT.MOVE gave, `lim` the limits in force for the move and `want` those last asked for
(R455). `brake` tells that the last pick braked, `hold` that the axis accelerates no more, `ramp` that it brakes to rest. `limP`,
`limN`, `home` and `flt` are the levels at the inputs, true above the threshold; `cause` the MOT_FAULT bits whose cause stands. `dir` is
the level of AXn_DIR, `stepEnd` when the last pulse on AXn_STEP falls (R447, R448), and `held` the outputs that OUT_SHORT holds
inactive (R467). -/
structure Axis where
  x      : Int := 0
  prev   : Int := 0
  v      : Rat := 0
  a      : Rat := 0
  target : Int := 0
  jerk   : Bool := false
  own    : Limits := {}
  lim    : Rates := {}
  want   : Rates := {}
  moving : Bool := false
  ramp   : Bool := false
  brake  : Bool := false
  hold   : Bool := false
  homing : Option Homing := none
  homed  : Bool := false
  blind  : Bool := false
  limP   : Bool := true
  limN   : Bool := true
  home   : Bool := false
  flt    : Bool := true
  shorts : List Nat := []
  cause  : Nat := 0
  stallRun : Nat := 0
  stallAt : Int := 0
  railA  : Nat := 0
  railB  : Nat := 0
  calDue : Bool := false
  sampled : Option Nat := none
  dir    : Bool := false
  stepEnd : Nat := 0
  held   : List Nat := []
  deriving DecidableEq, Repr

/-- A group move under way (R456): the group, a virtual lead that runs the profile with the start and travel of its axis, and
each member still on the path with its start position (2^-32 step) and travel. -/
structure GroupRun where
  group   : Nat
  lead    : Axis
  start   : Int
  delta   : Int
  members : List (Nat × Int × Int)
  deriving DecidableEq, Repr

/-- What a motion message asks to start at the next boundary (R469). -/
inductive MotStart where
  | move (axis : Nat) (jerk : Bool) (target : Int) (lim : Limits)
  | group (g : Nat) (targets : List Int)
  | home (axis kind : Nat)
  deriving DecidableEq, Repr

/-- A motion message that waits for its boundary, with the channel and tag that it answers. -/
structure MotReq where
  chan : Nat
  tag  : Nat
  what : MotStart
  deriving DecidableEq, Repr

/-- The motion axes: axes, group moves, messages that wait for step 3, the MOT.STOPs that wait for it as (axes, kind), the
triggers claimed for back-EMF sampling (R472), and the events already raised in this pick (R478). -/
structure MotSt where
  axes   : List Axis := List.replicate 8 {}
  groups : List GroupRun := []
  reqs   : List MotReq := []
  stops  : List (Nat × Nat) := []
  trigs  : List (Option Nat) := [none, none]
  raised : List (Nat × Nat) := []
  deriving DecidableEq, Repr

/-! ### Pairing (chapter 10) -/

/-- The host changes of a pick record (R337): the shadow set and swap, the image directory, the job, every field outside the
sets, the cameras' profiles and white resets, the ladder bands, the time triggers, and the tags and replies of each channel's last
state-changing messages (R340). -/
structure HostPart where
  sets   : SetsSt
  images : List Image
  nextHandle : Nat
  job    : Job
  state  : SysSt
  live   : Bank
  profiles : List (List Byte)
  whites : List Nat
  bands  : List (Int × Nat)
  lastLadder : Int
  trigs  : List Trigger
  recent : List (List Recorded)
  deriving DecidableEq, Repr

/-- The position part of a pick record (R337, R616). -/
structure PosPart where
  pos     : Int
  hwm     : Int
  pass    : Nat
  passFwd : Bool
  frozen  : Bool
  source  : Nat
  count   : Int
  countPos : Int
  next    : List Int
  placed  : Bool
  deriving DecidableEq, Repr

/-- The parts of a record that the standby copies (R337); none is the one-block marker of a part that did not change. `sticky` holds
the W1C bits set and those cleared, as register masks by key, and the events raised. -/
structure RecParts where
  host     : Option HostPart := none
  position : Option PosPart := none
  counters : Option (Bank × List (Nat × Nat)) := none
  cons     : Option (Bank × List Element) := none
  corr     : Option (List CorrBlock × List NozzleChange × List PathChange) := none
  sticky   : Option (List (Nat × Nat) × List (Nat × Nat) × List Event) := none
  motion   : Option MotSt := none
  steps    : List TimeStep := []
  deriving DecidableEq, Repr

/-- A pick record (R337) or flush record (R580): its lease part and the other parts. RELEASE carries the fault code. -/
structure PickRecord where
  pick       : Nat
  epoch      : Nat
  leaseUntil : Nat
  release    : Option Nat := none
  handover   : Option Nat := none
  handHub    : Option Nat := none
  flush      : Bool := false
  parts      : RecParts := {}
  deriving DecidableEq, Repr

/-- An item the unit sends its partner over the peer link. -/
inductive PeerItem where
  | record (r : PickRecord)
  | ack (pick : Nat) (refuse synced ready : Bool)
  | lineCrc (chan hub : Nat) (line : Int) (crc : Nat) (subst : Bool)
  | askParts (picks : List Nat)
  | askStrip (handle index : Nat)
  | strip (handle index : Nat) (bytes : List Byte)
  | resync (stage : Nat)
  | copyCorr (chan : Nat)
  | timeRequest (now : Nat)
  | setup
  deriving DecidableEq, Repr

/-- The parts of the state as the last record described them, to tell which parts changed (R337). -/
structure SentBase where
  host     : Option HostPart := none
  position : Option PosPart := none
  counters : Option (Bank × List (Nat × Nat)) := none
  cons     : Option (Bank × List Element) := none
  sticky   : Bank := []
  motion   : Option MotSt := none
  deriving DecidableEq, Repr

/-- The lease, the epoch and the partner (chapter 10). `cut` is the tick of the last renewal while the cut timer runs, `crcs` and
`peerCrcs` the per-line CRCs that wait for the other unit's (R342), `released` the fault code of a RELEASE received, `partAt` the
pick of the last host, position, counter, consumable and motion part and of the last list of time steps applied (R338), `recNext` the next lines of the last position part, `sentRecs` the records sent (R338), `sampled` the sticky
bits as step 1 of the boundary under way sampled them (R17), `gaps` the
channels whose gap is not yet reported, with Lr and the hubs whose first acknowledgement under the new epoch is awaited (R356). -/
structure PairSt where
  role       : Role := .standby
  capable    : Bool := true
  unitB      : Bool := false
  lease      : Bool := false
  forceStandby : Bool := false
  seenEpoch  : Nat := 0
  leaseUntil : Nat := 0
  cut        : Option Nat := none
  cutFell    : Option Nat := none
  hbOut      : Bool := false
  hbRun      : Bool := true
  hbLast     : Nat := 0
  hbOk       : Bool := false
  peerUp     : Bool := false
  peerLast   : Nat := 0
  lastRec    : Option Nat := none
  recLease   : Nat := 0
  recEpoch   : Nat := 0
  ackTimes   : List (Nat × Nat) := []
  applied    : Bool := false
  gotRecord  : Bool := false
  synced     : Bool := false
  score      : Nat := 0
  stage      : Nat := 0
  matchRun   : Nat := 0
  matchCount : Nat := 0
  chanRun    : List Nat := List.replicate 16 0
  chanLast   : List Int := List.replicate 16 (-1)
  waiting    : List Nat := []
  partnerSynced : Bool := false
  partnerReady : Bool := false
  partnerFound : Bool := false
  partnerLost : Bool := false
  ackPick    : Nat := 0
  ackAt      : Nat := 0
  handover   : Option Nat := none
  handMsg    : Option (Nat × Nat) := none
  handHub    : Option Nat := none
  joinFrom   : Option Nat := none
  degPeer    : Bool := false
  degHb      : Bool := false
  mismatchEv : List Nat := []
  crcs       : List (Nat × Nat × Int × Nat) := []
  peerCrcs   : List (Nat × Nat × Int × Nat × Bool) := []
  released   : Option Nat := none
  refused    : Bool := false
  handPick   : Nat := 0
  gaps       : List (Nat × Int × List Nat) := []
  partAt     : List Nat := List.replicate 6 0
  recNext    : List Int := []
  sentRecs   : List PickRecord := []
  base       : SentBase := {}
  sampled    : Option Bank := none
  sentEvents : Nat := 0
  placed     : Bool := false
  keys       : Option Nat := none
  keyedRecs  : Nat := 0
  deriving DecidableEq, Repr

/-! ### What leaves the module -/

/-- A packet or block to a hub (chapter 08). Line ids are the low 32 bits (R63). FIRE_TIME lists rows as (head port, row B, fire
time), none for WITHDRAW (R258); LINE_PERIOD is in 1/256 ns. `nozzles` is NOZZLES_PER_ROW of the head type; CONSUMABLE_AUTH names its
element by TARGET and PORT or SLOT (R263); `marker` and `idle` are sent on each lane of a group (R245, R248). -/
inductive HubPacket where
  | lineData (port : Nat) (rowB : Bool) (line : Nat) (hist : Bool) (nozzles : Nat) (dots : List (Nat × Nat))
  | fireTime (line period shed : Nat) (rows : List (Nat × Bool × Option Nat))
  | preheat (port : Nat) (rowB : Bool) (first every nozzles : Nat) (mask : List Nat)
  | energy (port line : Nat) (table : List Nat)
  | cons (element target slot : Nat) (record : List Byte)
  | headCmd (cmd tag : Nat) (args : List Byte)
  | timeSync (seq t1 : Nat) (prevOffset : Int) (prevDelay prevSeq : Nat)
  | laneState (locked uses : Nat)
  | restripe (mask line : Nat)
  | idle
  | marker (width hub seq : Nat)
  deriving DecidableEq, Repr

/-- What the last command put on the module's outputs. `lane` shows the 66-bit blocks that one lane carries, in order: the 2-bit sync
header and the 64 scrambled payload bits of each (R240, R241). `eye` names the lane to scan and the bits per point. -/
inductive Output where
  | irq (vector : Nat)
  | datagram (kind chan seq : Nat) (body : List Byte)
  | value (words : List Nat)
  | hostWrite (addr : Nat) (bytes : List Byte)
  | hub (hub epoch : Nat) (standby : Bool) (p : HubPacket)
  | peer (p : PeerItem)
  | trigger (target index action width : Nat)
  | pps (level : Bool)
  | followUp (port : Nat) (ident : PtpIdent) (stamp : Nat)
  | step (axis : Nat) (pulses : List (Nat × Nat))
  | dir (axis : Nat) (level : Bool) (time : Nat)
  | smbus (bytes : List Byte)
  | cci (port : Nat) (bytes : List Byte)
  | pin (name : String) (level : Bool)
  | eye (lane bits : Nat)
  | lane (lane : Nat) (blocks : List (Nat × Nat))
  | camera (port : Nat)
  deriving DecidableEq, Repr

/-! ### What the commands carry -/

/-- The firmware servo's adjustment after a measurement: the control law is not the manual's, so the sender names it. -/
inductive ServoAct where
  | none
  | incr (incr : Nat)
  | slew (d : Int)
  | step (d : Int)
  deriving DecidableEq, Repr

/-- A PTP exchange that this unit began: its port and the identifier of the event message sent (R89). -/
structure PtpExchange where
  port  : Nat
  ident : PtpIdent
  deriving DecidableEq, Repr

/-- What a sampling trigger reads (R95): for BEMF_SAMPLE the two conversions of R472, for GPIO_SAMPLE the level. -/
structure TrigSample where
  trig : Nat
  a    : Int
  b    : Int
  deriving DecidableEq, Repr

/-- What a read of the store finds in a row (R123, R124). -/
inductive EccFound where | clean | corrected | uncorrectable
  deriving DecidableEq, Repr

/-- A word in which a read has found an error (R123, R124). -/
structure EccAt where
  row   : RowId
  word  : Nat
  found : EccFound
  deriving DecidableEq, Repr

/-- Data a message references (R428): the bytes a read of host memory returns, the stated length, the TRANSFER number over
Ethernet, and how the read failed (0 not, 1 completion timeout, 2 an error of R374). -/
structure DataRef where
  addr     : Nat := 0
  bytes    : List Byte := []
  length   : Nat := 0
  transfer : Nat := 0
  fail     : Nat := 0
  deriving DecidableEq, Repr

/-- A codec job descriptor (R157) with the bytes that its reads of host memory return. -/
structure CodecJob where
  op       : Nat
  resume   : Bool
  fallback : Bool
  lps      : Nat
  width    : Nat
  count    : Nat
  src      : Nat
  srcLen   : Nat
  dst      : Nat
  dstLen   : Nat
  hdr      : Nat
  resumeAt : Nat
  source   : List Byte
  record   : List Byte
  fail     : Nat := 0
  deriving DecidableEq, Repr

/-- The payload of JOB.START (R434). -/
structure JobParams where
  streamed   : Bool := false
  originMode : Nat := 0
  channels   : Nat := 0
  startGap   : Nat := 0
  firstLine  : Nat := 0
  lineCount  : Nat := 0
  mode       : Nat := 0
  originX    : Int := 0
  drop       : Nat := 0xFFFFFFFF
  shift      : Nat := 0xFFFFFFFF
  repeats    : Nat := 0
  passLines  : Nat := 0
  passStride : Nat := 0
  passCount  : Nat := 0
  ingestRate : Nat := 0
  images     : List Nat := []
  deriving DecidableEq, Repr

/-- The payload of HEAD.PLACE (R186), fields as sent. -/
structure PlaceMsg where
  head  : Nat
  hub   : Nat
  port  : Nat
  type  : Nat
  chanA : Nat
  chanB : Nat
  flags : Nat
  x     : Int
  first : Nat
  last  : Nat
  y     : Int
  mask  : Nat
  deriving DecidableEq, Repr

/-- The header fields of a datagram that name its session (R376, R378). -/
structure Dgram where
  src     : Nat
  udp     : Nat
  port    : Fin 2
  session : Nat
  seq     : Nat
  deriving DecidableEq, Repr

/-- What a resynchronisation stage has copied from the active (R364). -/
inductive ResyncData where
  | sets (s : SetsSt)
  | store (images : List Image) (strips : List Strip)
  | corr (live : Bank) (base : List (Nat × Nat)) (hist : List (List (List (Nat × Nat))))
  | totals (live : Bank) (log : List LogEntry)
  deriving DecidableEq, Repr

end Sys2Proof.Machine
end

