-- ==== Sys2Proof/Machine/LinkTypes.lean ====
section
/-!
DEFINITION. The state of the lanes and hubs (chapter 08), and what the link's events carry.
-/
namespace Sys2Proof.Machine

/-- One lane FL0 to FL23 (R238 to R251). `since` is when both ends last gained lock with no invalid header after it (R280);
`map` is the polarity and lane order kept in MRAM (R250); `tx` and `rx` are the scrambler of its transmitter and the descrambler of its
receiver, the last 58 bits sent and received, the latest in bit 0 (R241). -/
structure LaneSt where
  locked    : Bool := false
  inverted  : Bool := false
  groupLane : Nat := 0
  ordered   : Bool := false
  hubRx     : Bool := false
  miswired  : Bool := false
  since     : Nat := 0
  map       : Option (Bool × Nat) := none
  tx        : Nat := 0
  rx        : Nat := 0
  deriving DecidableEq, Repr

/-- What a HUB_INFO reply says (R262). -/
structure HubInfo where
  hub       : Nat
  caps      : Nat
  rates     : Nat
  widths    : Nat
  maxHeads  : Nat
  lineDepth : Nat
  vendor    : Nat
  version   : Nat
  deriving DecidableEq, Repr

/-- A HEAD_CMD request without its answer (R262): the host message that asked for it, if any. -/
structure HubCmd where
  cmd      : Nat
  tag      : Nat
  args     : List Byte
  attempts : Nat := 1
  sentAt   : Nat
  msg      : Option (Nat × Nat) := none
  deriving DecidableEq, Repr

/-- A head port's record in a HUB_ACK (R264). -/
structure AckRec where
  port   : Nat
  temp   : Int
  status : Nat
  lastA  : Nat
  lastB  : Nat
  firedA : Nat
  firedB : Nat
  deriving DecidableEq, Repr

/-- A HUB_ACK as received (R264): `valid` when R255 does not discard it; `epoch` is the hub's followed epoch. -/
structure HubAck where
  valid   : Bool
  epoch   : Nat
  ackTime : Nat
  status  : Nat
  temp    : Int
  recs    : List AckRec
  deriving DecidableEq, Repr

/-- One hub and its lane group. STATE: 0 DOWN, 1 TRAIN, 2 IDENTIFY, 3 UP (R248). `cuts` are the lines that each re-stripe cut and that no
acknowledgement has settled (R278); `markRef` is the MARKER_SEQ that arrived first of the last ones and when, against which the lanes
are deskewed (R246); `markSeq` is the count of the markers sent (R245); `farLocks` is byte 1 of the hub's last LANE_STATE. -/
structure HubSt where
  state     : Nat := 0
  mask      : Nat := 0
  trainedAt : Nat := 0
  info      : Option HubInfo := none
  shed      : Bool := false
  shedEv    : Bool := false
  lastShed  : Option Int := none
  shedUntil : Bool := false
  resuming  : Bool := false
  narrow    : Option Nat := none
  cuts      : List (List Int) := []
  status    : Nat := 0
  epoch     : Nat := 0
  lastAck   : Nat := 0
  ackTime   : Nat := 0
  ackLost   : Bool := false
  unsync    : Bool := false
  dual      : Bool := false
  recs      : List AckRec := []
  cmds      : List HubCmd := []
  nextTag   : Nat := 0
  syncSeq   : Nat := 0
  syncT1    : Option Nat := none
  prevOffset : Int := 0
  prevDelay : Nat := 0
  prevSeq   : Nat := 0
  lostPick  : Nat := 0
  markRef   : Option (Nat × Nat) := none
  markSeq   : Nat := 0
  farLocks  : Nat := 0
  deriving DecidableEq, Repr

/-- The links: lanes, hubs, the eye scan that runs, as its lane and EYE_BITS (R281), or one that throttling defers (R549), and the acknowledgements that a standby keeps until a record or a
takeover settles them (R355). -/
structure LinkSt where
  lanes : List LaneSt := List.replicate 24 {}
  hubs  : List HubSt := List.replicate 24 {}
  scan  : Option (Nat × Nat) := none
  scanDue : Bool := false
  grids : List (Nat × List Nat) := []
  acks  : List (Nat × HubAck) := []
  deriving DecidableEq, Repr

/-- A 66-bit block at a lane's receiver pins (R240): the 58 bits that came before its sync header's payload, which the descrambler needs,
the latest in bit 0; the 2-bit header, 1 for 01 and 2 for 10; and the 64 payload bits, bit 0 the first. -/
structure WireBlock where
  before  : Nat
  header  : Nat
  payload : Nat
  deriving DecidableEq, Repr

/-- A LANE_MARKER block (R245). -/
structure Marker where
  groupLane : Nat
  width     : Nat
  unitB     : Bool
  fromHub   : Bool
  hub       : Nat
  seq       : Nat
  deriving DecidableEq, Repr

end Sys2Proof.Machine
end

