-- ==== Sys2Proof/Machine/UnitTypes.lean ====
section
/-!
DEFINITION. The state of the security functions, the reset controller, the temperature subsystem, the supply and the management
and test ports (chapters 14 to 18), and what their events carry.
-/
namespace Sys2Proof.Machine

/-! ### Security (chapter 14) -/

/-- An audit entry (R508). -/
structure AuditEntry where
  seq     : Nat
  time    : Nat
  code    : Nat
  chan    : Nat
  role    : Nat
  subject : Nat
  result  : Nat
  detail  : Nat := 0
  chain   : Nat
  deriving DecidableEq, Repr

/-- The session of S0 or S1 (R487 to R491). STAGE: 0 none, 1 SESSION_OPEN taken, 2 open, 3 set-up abandoned. `secret` is the random
number of the module's ephemeral key, `hostKey` and `salt` what R489 derives the 72 bytes `keys` from; `taken` numbers the host's messages. -/
structure SecSession where
  stage    : Nat := 0
  openedAt : Nat := 0
  last     : Nat := 0
  taken    : Nat := 0
  t1       : Nat := 0
  chain    : List Byte := []
  total    : Nat := 0
  role     : Nat := 0
  subject  : Nat := 0
  unowned  : Bool := false
  secret   : Nat := 0
  hostKey  : List Byte := []
  salt     : List Byte := []
  keys     : List Byte := []
  deriving DecidableEq, Repr

/-- A firmware slot as the module knows it: whether its image passed signature and digest at its load, why not (1 signature,
2 digest), the header fields, and the digest kept in MRAM (R495, R496). -/
structure FwSlot where
  valid    : Bool := false
  why      : Nat := 1
  version  : Nat := 0
  rollback : Nat := 0
  dev      : Bool := false
  digest   : Option Nat := none
  deriving DecidableEq, Repr

/-- A certificate that TRUST_SET is sending piece by piece (R493). -/
structure TrustPart where
  kind  : Nat
  slot  : Nat
  total : Nat
  bytes : List Byte
  deriving DecidableEq, Repr

/-- A firmware load whose image arrives as a TRANSFER (R380, R497). -/
structure FwLoad where
  chan : Nat
  tag  : Nat
  slot : Nat
  transfer : Nat
  deriving DecidableEq, Repr

/-- The instructions of the JTAG port (R504). -/
inductive JtagInstr where
  | idcode | bypass | sample | extest | clamp | highz | other
  deriving DecidableEq, Repr

/-- The security functions. `trust` holds the certificates kept in MRAM: the owner root, the four consumable roots, the
partner's. -/
structure SecSt where
  audit    : List AuditEntry := []
  sessions : List SecSession := [{}, {}]
  owner    : Option (List Byte) := none
  roots    : List (Option (List Byte)) := [none, none, none, none]
  partner  : Option (List Byte) := none
  part     : Option TrustPart := none
  slots    : List FwSlot := [{ valid := true, why := 0 }, {}]
  load     : Option FwLoad := none
  target   : Nat := 0
  challenge : Option (Nat × Nat) := none
  scopes   : Nat := 0
  rngFailed : Bool := false
  certified : Bool := false
  jtag     : JtagInstr := .idcode
  deriving DecidableEq, Repr

/-! ### Reset and start (chapter 15) -/

/-- The reset controller, the always-on domain and what MRAM holds beside the registers marked so. `free` is the counter tick
before which reset is not released (R515); `warm` that the conditions of R527 up to the strap hold; `prev` the state before the reset;
`pend` the pending counts as MRAM holds them (R225). `restart` is a DIAG.RESTART whose reply is not yet released (R442), as channel,
tag and time of the reply; `lastStrap` the code recorded at the last start (R527); `failed` that the last start failed (R535);
`fatal` a fault of R609 that the next start reports; `both` that the strap lies between bands and `n0Owner` the attachment that N0
belongs to then, true for Ethernet (R523). -/
structure RstSt where
  free      : Nat := 0
  warm      : Bool := false
  prev      : SysSt := .off
  pend      : Bank := []
  armedAt   : Option Nat := none
  restart   : Option (Nat × Nat × Nat) := none
  lastStrap : Option Nat := none
  failed    : Bool := false
  fatal     : Option Nat := none
  both      : Bool := false
  n0Owner   : Option Bool := none
  deriving DecidableEq, Repr

/-- What a start finds on its way (R530): whether CLK_IN runs, fuse loads that failed, the four strap readings in units of 10 Ω, the
trained PCIe rate and width as SYS_STATE codes them, and the outcome of each step's check. `mac` lists the trust anchors whose MAC
fails as (kind, slot); `eyes` the eye widths of the DRAM channels trained in full, `quickBad` the channels whose quick check fails,
`temps` the readings of the sixteen sensors. -/
structure StartInfo where
  clock    : Bool := true
  fuseFails : Nat := 0
  strap    : List Nat := [0, 0, 0, 0]
  rate     : Nat := 3
  width    : Nat := 4
  bist     : Bool := true
  digestOk : Bool := true
  snapshot : Bool := true
  mac      : List (Nat × Nat) := []
  rng      : Bool := true
  train    : Bool := true
  eyes     : List (Nat × List EyeWidth) := []
  quickBad : List Nat := []
  store    : Bool := true
  temps    : List Int := []
  deriving DecidableEq, Repr

/-! ### Temperature (chapter 16) -/

/-- One sensor: last raw code, picks it has not changed, reading and value in force (1/8 °C), exclusion, stand-in, and the
picks passed since the host asked for re-admission (R545 to R547). -/
structure Sensor where
  raw      : Nat := 0
  same     : Nat := 0
  reading  : Int := 0
  value    : Int := 0
  excluded : Bool := false
  passed   : Option Nat := none
  deriving DecidableEq, Repr

/-- The temperature subsystem: sensors, the highest THM_MAX, picks below the threshold of R548, whether R550 has acted since THM_MAX
was last below STOP_T, whether the unit stopped as a standby or tripped (R550, R552), the sensor and reading of a trip that the firmware
has not reported yet, the lanes whose transmit band is being removed
from its group, the pick of the last recentring, the lanes whose deferral is reported (R554), and whether the always-on oscillator is
out of range (R557). -/
structure ThmSt where
  sensors : List Sensor := List.replicate 16 {}
  peak    : Option Int := none
  below   : Nat := 0
  stopRun : Bool := false
  standbyStop : Bool := false
  tripped : Bool := false
  tripNote : Option (Nat × Int) := none
  bands   : List Nat := []
  bandPick : Option Nat := none
  reported : List Nat := []
  aonBad  : Bool := false
  deriving DecidableEq, Repr

/-- What a temperature sensor delivers at a pick: its raw code, whether the conversion reports an error, and the reading with
the dither removed (R545). -/
structure TempIn where
  raw  : Nat
  err  : Bool
  temp : Int
  deriving DecidableEq, Repr

/-! ### Supply, management port, pins (chapters 17 and 18) -/

/-- The supply: whether a warning is in force, when the last one began and ended, in ticks of the counter that go on below 0
through a reset, and whether its 10 ms have passed (R580 to R583); since when VENC_OUT is folded back, whether it is fed from
outside (R591); a trip of the electronic fuse that MRAM holds for the next start (R578); and the outputs in OUT_SHORT (R595). -/
structure PwrSt where
  warning  : Bool := false
  warnFrom : Int := 0
  warnEnd  : Option Int := none
  stopped  : Bool := false
  folded   : Option Int := none
  fed      : Bool := false
  tripped  : Bool := false
  shorts   : List Nat := []
  deriving DecidableEq, Repr

end Sys2Proof.Machine
end

