-- ==== Sys2Proof/Machine/VisionTypes.lean ====
section
/-!
DEFINITION. The state of the camera ports, the shared pipeline and the colour loop (chapter 09), and what their events carry.
-/
namespace Sys2Proof.Machine

/-- A frame being received or waiting for the pipeline: its number and base line (R291), the complete rows by band, the bands
of the row in progress, rows received, and its mark: 0 none, 1 TRUNCATED, 2 SHORT, 3 LONG, 4 ERROR. -/
structure CamFrame where
  num    : Int := 0
  base   : Int := 0
  rows   : List (List (List Nat)) := []
  cur    : List (List Nat) := []
  got    : Nat := 0
  mark   : Nat := 0
  ended  : Bool := false
  ladder : Bool := false
  deriving DecidableEq, Repr

/-- A camera control write (R300, R302): register, value, band (4 for the exposure), whether it is the retry, and whether it
waits for the next frame boundary. -/
structure CciWrite where
  reg   : Nat
  value : Nat
  band  : Nat
  retry : Bool := false
  waits : Bool := false
  deriving DecidableEq, Repr

/-- A row trigger armed (R292): number and first line of its frame, row, device time. -/
structure RowArm where
  num    : Int
  base   : Int
  row    : Nat
  time   : Nat
  ladder : Bool := false
  deriving DecidableEq, Repr

/-- A camera port. `white` holds the white references that a sample has replaced since the reset of R307, as (band * 32,768 +
pixel, W, samples); `cciDone` the gains whose writes have completed and that apply at the next frame boundary; `cut` the frames, ladder frames marked, of
which a row was not triggered (R293); `whiteNo` the white resets so far (R307); `lost` the runs of lines, first and length, of the ladder band under way whose measurements were
discarded (R295, R298); `store` that the port has its frame store, and `enBefore` whether CAM_EN was 1 before the reset that the next
start follows (R290). -/
structure CamPort where
  frames   : List CamFrame := []
  armed    : List RowArm := []
  nextRow  : Option (Int × Nat) := none
  ladderRow : Option (Int × Nat) := none
  cut      : List (Bool × Int) := []
  lost     : List (Int × Nat) := []
  expect   : Option RowArm := none
  white    : List (Nat × Rat × Nat) := []
  whiteNo  : Nat := 0
  gains    : List Nat := [0, 0, 0, 0]
  cci      : List CciWrite := []
  cciDone  : List (Nat × Nat) := []
  aeCount  : Nat := 0
  hist     : List (List Nat) := []
  zones    : List (List Nat) := []
  profile  : List Byte := []
  ring     : List (Nat × List Byte) := []
  slot     : Nat := 0
  held     : Bool := false
  store    : Bool := false
  enBefore : Bool := false
  trigNo   : Option Nat := none
  deriving DecidableEq, Repr

/-- The cameras and the pipeline they share (R294): the port it serves, and the counter's tick at which it took that port's frame. -/
structure VisionSt where
  cams    : List CamPort := List.replicate 2 {}
  serving : Option Nat := none
  tookAt  : Nat := 0
  deriving DecidableEq, Repr

/-- The coverage of one row of a frame in one ink slot (R309): drop units by pixel. -/
structure CovRec where
  port  : Nat
  num   : Int
  row   : Nat
  slot  : Nat
  units : List (Nat × Nat)
  deriving DecidableEq, Repr

/-- A group's accumulators (R308): N, the upper triangle of H by rows, and h. -/
structure Accum where
  n : Nat := 0
  m : List Rat := List.replicate 36 0
  v : List Rat := List.replicate 8 0
  deriving DecidableEq, Repr

/-- The colour loop. `base` holds the entries of the base image that differ from 0x0080, keyed 106,496 c + x (R313); `issue`
the next block to issue per channel (R314); `bands` the ladder bands placed, as (first line, lines); `okRuns` the ladders in a
row that found a nozzle OK, keyed 4,096 (2 head + row) + nozzle (R320); `thawed` the channels whose FREEZE was cleared since the last
solve (R321). -/
structure ColourSt where
  cov      : List CovRec := []
  cur      : List (Nat × Accum) := []
  solving  : Option (List (Nat × Accum)) := none
  intStart : Int := 0
  intLen   : Nat := 0
  intDone  : List Bool := [false, false]
  late     : Bool := false
  base     : List (Nat × Nat) := []
  issue    : List (Option Nat) := List.replicate 16 none
  lastLadder : Int := 0
  bands    : List (Int × Nat) := []
  noSlot   : Bool := false
  okRuns   : List (Nat × Nat) := []
  thawed   : Nat := 0
  deriving DecidableEq, Repr

/-- A dash of a measured ladder (R319): its nozzle, strength, and centroid offset in 1/16 column. -/
structure Dash where
  head   : Nat
  rowB   : Bool
  nozzle : Nat
  strength : Int
  dx     : Int
  deriving DecidableEq, Repr

/-- What one port measured of a ladder (R319): the dashes found and the along-web offset, in 1/16 line, of the first rung of each
sub-band by its number. -/
structure LadderScan where
  port   : Fin 2
  dashes : List Dash
  rungs  : List (Nat × Int)
  deriving DecidableEq, Repr

end Sys2Proof.Machine
end

