-- ==== Sys2Proof/Machine/Operands.lean ====
section
/-!
DEFINITION. The operands of the commands that no single chapter's types hold.
-/
namespace Sys2Proof.Machine

/-- What the sensors and measurements of one pick boundary give (R17): the sixteen temperature sensors, the DRAM channels'
refresh-rate reports (R118), VIN, input and VENC currents (R599), the always-on oscillator's frequency (R557), the self-test
slice of the pick if it failed and whether it lies in the print path (R344), a standby's measurement of the active's device
time with its adjustment (R93), the 3.3 V outputs and axis outputs still shorted (R596, R467), and the axes in SENSE range. -/
structure PickInputs where
  temps    : List TempIn := []
  hot      : List Bool := [false, false, false, false]
  vin      : Nat := 24000
  iin      : Nat := 0
  venc     : Nat := 0
  aon      : Nat := 8000000
  slice    : Option (Nat × Bool) := none
  peerErr  : Option (Int × ServoAct) := none
  shorts   : List Nat := []
  fed      : Bool := false
  lats     : List (Nat × Nat × Nat) := []
  gpio     : Nat := 0
  axShorts : List (Nat × Nat) := []
  deriving DecidableEq, Repr

/-- A CONSUMABLE_AUTH packet from a hub (R263): a reply or a SEQ_REJECT, with its record and signature. -/
inductive ConsReply where
  | reply (record : List Byte) (sig : List Byte)
  | seqReject (record : List Byte) (sig : List Byte)
  deriving DecidableEq, Repr

end Sys2Proof.Machine
end

