-- ==== Sys2Proof/Syntax.lean ====
section
/-!
DEFINITION. The commands of the block: one constructor for each row of the table of operations and events. The table gives
its rows no operands; the operands here are what the row's rule says the event or message carries (log 3), and `t`, the tick
of the device-time counter at which it happens (log 1).
-/
namespace Sys2Proof

open Sys2Proof.Machine

/-- A command. -/
inductive Instr where
  /-- PICK_BOUNDARY (R17): Device time reaches a whole multiple of 100,000 ns and the module runs the five ordered steps of the pick boundary. -/
  | pickBoundary (t : Nat) (x : PickInputs)
  /-- TIM_NOW_LO_READ (R76): A read of TIM_NOW_LO returns device time [31:0] and latches [63:32] into TIM_NOW_HI. -/
  | timNowLoRead (t : Nat)
  /-- TRIGGER_ACT (R97): An armed time trigger reaches its occurrence time and acts on its target. -/
  | triggerAct (t : Nat) (samples : List TrigSample)
  /-- SLEW_DONE (R80): A slew has applied its whole D and the rate returns to the base INCR. -/
  | slewDone (t : Nat)
  /-- SERVO_MEASUREMENT (R84): A time-source measurement arrives and the servo adjusts time and may declare or lose lock. -/
  | servoMeasurement (t : Nat) (err : Int) (act : ServoAct) (exch : Option PtpExchange)
  /-- HOLDOVER_EXPIRE (R85): No measurement arrives for HOLDOVER_TIME and lock is lost. -/
  | holdoverExpire (t : Nat)
  /-- PTP_EVENT_RECEIVE (R87): A PTP event message arrives on an Ethernet port and is time-stamped. -/
  | ptpEventReceive (t : Nat) (port : Fin 2) (kind : Nat)
  /-- PTP_TX_TIMESTAMP (R89): A transmitted PTP event message's time-stamp enters the port's queue. -/
  | ptpTxTimestamp (t : Nat) (port : Fin 2) (ident : PtpIdent) (reads : Nat)
  /-- TXQ_ENTRY_STALE (R90): A queue entry unread for 100 ms is discarded and counted. -/
  | txqEntryStale (t : Nat) (port : Fin 2)
  /-- PPS_IN_EDGE (R91): A rising edge on PPS_IN is time-stamped and feeds the PPS servo. -/
  | ppsInEdge (t : Nat) (act : ServoAct)
  /-- PPS_MISSING (R91): No PPS_IN edge arrives within 1.1 s of the expected one. -/
  | ppsMissing (t : Nat)
  /-- PPS_OUT_PULSE (R92): PPS_OUT rises at a whole second of device time and falls after PPS_WIDTH. -/
  | ppsOutPulse (t : Nat)
  /-- ENCODER_TRANSITION (R27): A valid transition of A or B changes the encoder count and updates position. -/
  | encoderTransition (t : Nat) (enc : Fin 2) (a : Bool) (b : Bool) (heldA : Nat) (heldB : Nat)
  /-- SYNTHETIC_UPDATE (R48): The prediction runs two counts past the last edge and a synthetic predictor update lowers velocity. -/
  | syntheticUpdate (t : Nat)
  /-- INDEX_EDGE (R30): A rising Z edge latches the count into POS_INDEX_COUNTn. -/
  | indexEdge (t : Nat) (enc : Fin 2) (held : Nat)
  /-- INDEX_PULSE_END (R617): A Z falling edge ends an index pulse, whose width and A/B state are checked. -/
  | indexPulseEnd (t : Nat) (enc : Fin 2) (held : Nat)
  /-- ENCODER_PAIR_OPEN (R31): The fail-safe comparator finds an encoder pair open and counting stops. -/
  | encoderPairOpen (t : Nat) (enc : Fin 2) (pair : Fin 3)
  /-- ENCODER_PAIR_CLOSED (R32): Both pairs are found closed again and counting resumes. -/
  | encoderPairClosed (t : Nat) (enc : Fin 2) (pair : Fin 3) (a : Bool) (b : Bool)
  /-- LINE_SEND (R52): A line's send window opens and LINE_DATA and FIRE_TIME go to every hub it uses. -/
  | lineSend (t : Nat) (c : Fin 16)
  /-- LINE_MISSED_NOT_READY (R53): A line is not ready by FIRE_TIME − LEAD_TIME and is missed and counted. -/
  | lineMissedNotReady (t : Nat) (c : Fin 16)
  /-- LINE_RENDER (R200): A weft channel renders its next line once the FIFO has room and the source strip is verified. -/
  | lineRender (t : Nat) (c : Fin 16)
  /-- STRIP_DECODE_DONE (R161): A weft-channel decoder reaches END or fails, and the strip is released or retried. -/
  | stripDecodeDone (t : Nat) (c : Fin 16) (read : Option (List Byte)) (ecc : List EccAt)
  /-- STRIP_RESTORED (R127): A verified copy of a damaged strip arrives from the partner and is committed. -/
  | stripRestored (t : Nat) (handle : Nat) (index : Nat) (bytes : List Byte)
  /-- SCRUB_READ (R125): The scrubber reads the next words of the store in class C3. -/
  | scrubRead (t : Nat) (found : List (Nat × EccFound))
  /-- REFRESH_DUE (R117): A per-bank refresh falls due and is issued or postponed into the debt. -/
  | refreshDue (t : Nat) (dram : Fin 4)
  /-- RETRAIN_START (R121): A due retrain starts once cover allows, or after waiting 64 picks. -/
  | retrainStart (t : Nat) (dram : Fin 4)
  /-- RETRAIN_DONE (R122): A retrain completes and its temperature is recorded. -/
  | retrainDone (t : Nat) (dram : Fin 4) (temp : Int) (eyes : List EyeWidth)
  /-- STRIP_MOVE_COPY_DONE (R130): A strip move's copy and read-back finish and the move is readied or abandoned. -/
  | stripMoveCopyDone (t : Nat) (c : Fin 16) (ok : Bool) (ecc : List EccAt)
  /-- STRIP_MOVE_COMMIT (R131): A ready move commits at a strip boundary of the channel's fetch order. -/
  | stripMoveCommit (t : Nat) (c : Fin 16)
  /-- OLD_COPY_FREE (R132): The last read of the old copy completes and the old copy is freed. -/
  | oldCopyFree (t : Nat) (c : Fin 16)
  /-- RAW_STRIP_ENCODED (R152): A pool encoder finishes an ingested raw strip and it is stored. -/
  | rawStripEncoded (t : Nat) (ch : Fin 6) (tag : Nat) (engine : Fin 4)
  /-- INGEST_STRIP_DECODED (R153): A pool decoder finishes an ingested JLC strip and it is stored or rejected. -/
  | ingestStripDecoded (t : Nat) (ch : Fin 6) (tag : Nat) (engine : Fin 2)
  /-- REPL_STRIP_RECEIVED (R155): A replicated strip arrives and is decoded and published, or rejected. -/
  | replStripReceived (t : Nat) (handle : Nat) (index : Nat) (bytes : List Byte)
  /-- REPL_RETRY_TIMER (R367): A strip that failed three deliveries is requested again every 10 s. -/
  | replRetryTimer (t : Nat)
  /-- HUB_ACK_RECEIVE (R266): A HUB_ACK arrives and the module reads fired and missed lines per row. -/
  | hubAckReceive (t : Nat) (hub : Fin 24) (ack : HubAck)
  /-- LINES_UNACKED (R267): A sent line stays unsettled for UNACKED_LIMIT and is given up. -/
  | linesUnacked (t : Nat) (c : Fin 16)
  /-- ACK_LOST (R267): No valid HUB_ACK arrives from an UP hub for 200 µs. -/
  | ackLost (t : Nat) (hub : Fin 24)
  /-- HIST_HOLD_EXPIRE (R220): HIST_HOLD picks of warm heads pass and an AUTO channel returns to the main path. -/
  | histHoldExpire (t : Nat) (c : Fin 16)
  /-- CONS_COMMIT_START (R226): 1 s passes or the pending count reaches 2^24 and a commit request is sent. -/
  | consCommitStart (t : Nat) (elem : Nat)
  /-- CONS_REPLY_RECEIVE (R229): A CONSUMABLE_AUTH reply arrives and is verified and accepted or refused. -/
  | consReplyReceive (t : Nat) (elem : Nat) (hub : Fin 24) (valid : Bool) (reply : ConsReply)
  /-- CONS_TIMEOUT (R230): No acceptable reply arrives within CONS_TIMEOUT and the request is resent. -/
  | consTimeout (t : Nat) (elem : Nat)
  /-- LANE_LOCK_ACQUIRED (R243): A receiver sees 64 valid headers and declares block lock. -/
  | laneLockAcquired (t : Nat) (lane : Fin 24) (inverted : Bool)
  /-- LANE_DOWN (R277): A receiver loses block lock and the lane goes down. -/
  | laneDown (t : Nat) (lane : Fin 24)
  /-- RESTRIPE_NARROW (R278): At the next line boundary RESTRIPE is sent with the narrower mask. -/
  | restripeNarrow (t : Nat) (hub : Fin 24) (cut : List Int)
  /-- LANE_STATE_RECEIVE (R277): A LANE_STATE block reports the far end's receive lock. -/
  | laneStateReceive (t : Nat) (lane : Fin 24) (w : WireBlock)
  /-- LANE_MARKER_RECEIVE (R245): A LANE_MARKER block is received for order, deskew and identity. -/
  | laneMarkerReceive (t : Nat) (lane : Fin 24) (w : WireBlock)
  /-- BRINGUP_TIMEOUT (R249): A group is still in TRAIN at BRINGUP_TIMEOUT and comes up on qualifying lanes or retrains. -/
  | bringupTimeout (t : Nat) (hub : Fin 24)
  /-- HUB_UP (R248): A valid HUB_INFO reply arrives and the group becomes UP. -/
  | hubUp (t : Nat) (hub : Fin 24) (info : HubInfo)
  /-- LANE_REJOINED (R280): A down lane holds lock for REJOIN_HOLD and rejoins by RESTRIPE. -/
  | laneRejoined (t : Nat) (lane : Fin 24)
  /-- HEAD_CMD_RESPONSE (R262): A hub answers a HEAD_CMD request. -/
  | headCmdResponse (t : Nat) (hub : Fin 24) (valid : Bool) (cmd : Nat) (ctag : Nat) (status : Nat) (args : List Byte)
  /-- CMD_TIMEOUT (R262): A HEAD_CMD goes unanswered for 10 ms and is retried or reported. -/
  | cmdTimeout (t : Nat) (hub : Fin 24) (ctag : Nat)
  /-- TIME_SYNC_SEND (R273): Every 50 µs the unit sends a TIME_SYNC request on each UP group. -/
  | timeSyncSend (t : Nat)
  /-- TIME_SYNC_RESPONSE (R274): A TIME_SYNC response arrives and delay and offset are computed. -/
  | timeSyncResponse (t : Nat) (hub : Fin 24) (valid : Bool) (seq : Nat) (t2 : Nat) (t3 : Nat)
  /-- EYE_START (R281): A write of 1 to EYE_START begins an eye scan of EYE_LANE. -/
  | eyeStart (t : Nat)
  /-- EYE_DONE (R281): An eye scan completes and its results are reported. -/
  | eyeDone (t : Nat) (counts : List Nat)
  /-- FRAME_START_RECEIVE (R287): A CSI-2 frame start arrives on a camera port. -/
  | frameStartReceive (t : Nat) (port : Fin 2)
  /-- ROW_PACKET_RECEIVE (R287): A long packet of a camera row arrives and is checked. -/
  | rowPacketReceive (t : Nat) (port : Fin 2) (band : Fin 4) (fault : Fin 3) (samples : List Nat)
  /-- FRAME_END_RECEIVE (R296): A frame end arrives and the frame is complete, short or long. -/
  | frameEndReceive (t : Nat) (port : Fin 2)
  /-- FRAME_TRUNCATED (R295): A port's input buffer overflows and the rest of the frame is discarded. -/
  | frameTruncated (t : Nat) (port : Fin 2)
  /-- FRAME_TIMEOUT (R297): No frame start arrives within 1 ms of row 0's trigger. -/
  | frameTimeout (t : Nat) (port : Fin 2)
  /-- TRIG_FAULT (R325): A camera trigger output reads back differently from its pulse. -/
  | trigFault (t : Nat) (port : Fin 2)
  /-- FRAME_PROCESSED (R294): The shared pipeline finishes a frame and takes the next waiting one. -/
  | frameProcessed (t : Nat)
  /-- SOLVE_DONE (R312): The service cores finish a solve and coefficients are updated. -/
  | solveDone (t : Nat)
  /-- CCI_TRANSFER_DONE (R302): A camera control transfer completes or fails and is retried. -/
  | cciTransferDone (t : Nat) (port : Fin 2) (ok : Bool)
  /-- LADDER_DONE (R320): A ladder is measured and its findings and trims are applied. -/
  | ladderDone (t : Nat) (scans : List LadderScan)
  /-- PICK_RECORD_RECEIVE (R338): A standby receives a pick record whole and applies it in full or not at all. -/
  | pickRecordReceive (t : Nat) (tagOk : Bool) (r : PickRecord)
  /-- FLUSH_RECORD_RECEIVE (R580): A standby receives a flush record and applies it as a pick record. -/
  | flushRecordReceive (t : Nat) (tagOk : Bool) (r : PickRecord)
  /-- RECORD_ACK_RECEIVE (R339): The partner acknowledges a record and held replies are released. -/
  | recordAckReceive (t : Nat) (pick : Nat) (refuse : Bool) (synced : Bool) (ready : Bool)
  /-- LINE_CRC_RECEIVE (R342): A per-line CRC arrives and the standby compares it with its own. -/
  | lineCrcReceive (t : Nat) (c : Fin 16) (hub : Fin 24) (line : Int) (crc : Nat) (subst tagOk : Bool)
  /-- PEER_LINK_LOST (R333): No valid record or CRC packet arrives for 2 picks. -/
  | peerLinkLost (t : Nat)
  /-- HEARTBEAT_IN_EDGE (R334): An edge on PAIR_HB_IN restarts the static heartbeat count. -/
  | heartbeatInEdge (t : Nat)
  /-- HEARTBEAT_STATIC (R334): PAIR_HB_IN shows no edge for 2 picks. -/
  | heartbeatStatic (t : Nat)
  /-- PARTNER_LOST (R362): The active sees neither acknowledgements nor heartbeat edges for 2 picks. -/
  | partnerLost (t : Nat)
  /-- TAKEOVER (R353): The standby's takeover conditions hold, or RELEASE or H arrives, and it becomes active under a new epoch. -/
  | takeover (t : Nat)
  /-- LEASE_EXPIRE (R346): Device time passes LEASE_UNTIL without renewal and the lease is lost. -/
  | leaseExpire (t : Nat)
  /-- CUT_TIMER_EXPIRE (R348): The cut timer counts out and hardware drops the lease and rests the outputs. -/
  | cutTimerExpire (t : Nat)
  /-- JOIN_WAIT_EXPIRE (R331): PAIR_JOIN_WAIT passes with no active partner and the unit claims the active role. -/
  | joinWaitExpire (t : Nat)
  /-- RESYNC_STAGE_DONE (R364): A resynchronisation stage finishes its copy and the next stage begins. -/
  | resyncStageDone (t : Nat) (data : ResyncData)
  /-- PEER_LINK_SETUP (R501): At peer-link bring-up the units authenticate and derive record keys. -/
  | peerLinkSetup (t : Nat) (ok : Bool) (key : Nat)
  /-- MAILBOX_WRITE (R385): The host writes an inbound mailbox, ignored while a message is pending. -/
  | mailboxWrite (t : Nat) (ch : Fin 6) (offset : Nat) (bytes : List Byte)
  /-- DOORBELL_POST (R385): A write to DB_H2D_SET posts the inbound mailbox of a channel. -/
  | doorbellPost (t : Nat) (value : Nat)
  /-- REPLY_RELEASE (R389): A write of OUT_ACK releases the reply and moves the next waiting reply in. -/
  | replyRelease (t : Nat) (ch : Fin 6)
  /-- CHANNEL_RESET_HOST (R391): A write of CHAN_RESET empties the channel from the host side. -/
  | channelResetHost (t : Nat) (ch : Fin 6)
  /-- PCIE_RESET (R373): PERST, hot reset, FLR, link-down or D3hot resets the PCIe endpoint only. -/
  | pcieReset (t : Nat)
  /-- LOCK_READ (R397): A read of a lock register acquires a free lock or returns the holder. -/
  | lockRead (t : Nat) (lock : Fin 32) (master : Fin 6)
  /-- LOCK_RELEASE (R398): A write by the holder releases a lock. -/
  | lockRelease (t : Nat) (lock : Fin 32) (master : Fin 6)
  /-- EVT_TAIL_WRITE (R402): The host writes EVT_TAIL to consume events. -/
  | evtTailWrite (t : Nat) (value : Nat)
  /-- REGISTER_WRITE (R4): A write to a register without behaviour of its own stores, clears or sets bits. -/
  | registerWrite (t : Nat) (bar4 : Bool) (offset : Nat) (value : Nat)
  /-- HELLO (R378): A HELLO datagram opens an Ethernet session. -/
  | hello (t : Nat) (src : Nat) (udp : Nat) (port : Fin 2)
  /-- SESSION_TIMEOUT (R378): No datagram arrives within 2 s and the Ethernet session ends. -/
  | sessionTimeout (t : Nat)
  /-- MSG_DATAGRAM (R379): A MSG datagram posts a message, or repeats a SEQ and the reply is resent. -/
  | msgDatagram (t : Nat) (d : Dgram) (ch : Fin 6) (outAck : Bool) (bytes : List Byte)
  /-- REG_READ_DATAGRAM (R377): A REG_READ datagram reads BAR0 registers with their side effects. -/
  | regReadDatagram (t : Nat) (d : Dgram) (offset : Nat) (count : Nat)
  /-- REG_WRITE_DATAGRAM (R377): A REG_WRITE datagram writes BAR0 registers. -/
  | regWriteDatagram (t : Nat) (d : Dgram) (offset : Nat) (values : List Nat)
  /-- DATA_DATAGRAM (R380): A DATA datagram delivers ingest bytes of a transfer. -/
  | dataDatagram (t : Nat) (d : Dgram) (transfer : Nat) (offset : Nat) (bytes : List Byte)
  /-- DATA_ACK_TIMER (R380): 1 ms passes with data arriving and DATA_ACK is sent. -/
  | dataAckTimer (t : Nat)
  /-- NOTIFY_REPEAT (R379): Every 100 ms unanswered NOTIFY and REPLY datagrams are repeated. -/
  | notifyRepeat (t : Nat)
  /-- READ (R408): READ returns words of a register by REG_ID. -/
  | read (t : Nat) (ch : Fin 6) (tag : Nat) (cls : Nat) (regId : Nat) (count : Nat) (setSel : Nat) (elem : Nat)
  /-- WRITE (R409): WRITE sets masked bits of a register by REG_ID in the permitted class. -/
  | write (t : Nat) (ch : Fin 6) (tag : Nat) (cls : Nat) (regId : Nat) (elem : Nat) (pairs : List (Nat × Nat))
  /-- SYS_INFO (R429): SYS.INFO returns identity, slot, strap and capacity. -/
  | sysInfo (t : Nat) (ch : Fin 6) (tag : Nat)
  /-- SYS_STATE (R429): SYS.STATE returns state, role, faults, position and pick number. -/
  | sysState (t : Nat) (ch : Fin 6) (tag : Nat)
  /-- SAFE_STOP (R415): SYS.SAFE_STOP makes an orderly stop with cause 1. -/
  | safeStop (t : Nat) (ch : Fin 6) (tag : Nat)
  /-- CLEAR_STOP (R415): SYS.CLEAR_STOP returns SAFE_STOP to READY when the cause is gone. -/
  | clearStop (t : Nat) (ch : Fin 6) (tag : Nat)
  /-- NET_CONFIG (R429): SYS.NET_CONFIG stores Ethernet addresses for the next start. -/
  | netConfig (t : Nat) (ch : Fin 6) (tag : Nat) (port : Nat) (mode : Nat) (address : Nat) (netmask : Nat) (gateway : Nat)
  /-- SET_TABLE (R420): SET.TABLE writes a table of the shadow set. -/
  | setTable (t : Nat) (ch : Fin 6) (tag : Nat) (table : Nat) (index : Nat) (offset : Nat) (length : Nat) (ref : Bool) (data : DataRef)
  /-- SET_COPY (R417): SET.COPY makes the shadow set equal to the active set. -/
  | setCopy (t : Nat) (ch : Fin 6) (tag : Nat)
  /-- SET_DEFAULTS (R417): SET.DEFAULTS resets every field of the shadow set. -/
  | setDefaults (t : Nat) (ch : Fin 6) (tag : Nat)
  /-- SET_VALIDATE (R421): SET.VALIDATE checks the shadow set and builds its reed table. -/
  | setValidate (t : Nat) (ch : Fin 6) (tag : Nat)
  /-- SET_SWAP (R424): SET.SWAP accepts a swap at a pick, web line or pass. -/
  | setSwap (t : Nat) (ch : Fin 6) (tag : Nat) (point : Nat) (line : Nat)
  /-- SET_CANCEL (R425): SET.CANCEL withdraws a pending swap that has not taken effect. -/
  | setCancel (t : Nat) (ch : Fin 6) (tag : Nat)
  /-- SET_STATUS (R426): SET.STATUS returns SET_STATUS. -/
  | setStatus (t : Nat) (ch : Fin 6) (tag : Nat)
  /-- IMG_CREATE (R430): IMG.CREATE creates an image and returns its handle. -/
  | imgCreate (t : Nat) (ch : Fin 6) (tag : Nat) (name : List Byte) (format : Nat) (lps : Nat) (width : Nat) (height : Nat)
  /-- IMG_INGEST (R431): IMG.INGEST stores raw lines or JLC strips of an image. -/
  | imgIngest (t : Nat) (ch : Fin 6) (tag : Nat) (handle : Nat) (form : Nat) (first : Nat) (count : Nat) (data : DataRef)
  /-- IMG_DELETE (R433): IMG.DELETE frees an image. -/
  | imgDelete (t : Nat) (ch : Fin 6) (tag : Nat) (handle : Nat)
  /-- IMG_INFO (R430): IMG.INFO returns an image's description and stored strips. -/
  | imgInfo (t : Nat) (ch : Fin 6) (tag : Nat) (handle : Nat)
  /-- IMG_LIST (R430): IMG.LIST returns up to 56 image handles. -/
  | imgList (t : Nat) (ch : Fin 6) (tag : Nat) (first : Nat)
  /-- IMG_ENCODE (R158): IMG.ENCODE runs a host encode job, stopping with a resume record when output runs out. -/
  | imgEncode (t : Nat) (ch : Fin 6) (tag : Nat) (job : CodecJob)
  /-- IMG_DECODE (R157): IMG.DECODE decodes strips from host memory into host memory. -/
  | imgDecode (t : Nat) (ch : Fin 6) (tag : Nat) (job : CodecJob)
  /-- JOB_START (R434): JOB.START checks and arms a job and places the position. -/
  | jobStart (t : Nat) (ch : Fin 6) (tag : Nat) (p : JobParams)
  /-- JOB_PAUSE (R438): JOB.PAUSE names the line before which every channel stops. -/
  | jobPause (t : Nat) (ch : Fin 6) (tag : Nat) (kind : Nat) (line : Nat)
  /-- JOB_RESUME (R439): JOB.RESUME shifts the position by D and returns to ARMED. -/
  | jobResume (t : Nat) (ch : Fin 6) (tag : Nat) (gap : Nat)
  /-- JOB_STOP (R438): JOB.STOP ends the job at a named line. -/
  | jobStop (t : Nat) (ch : Fin 6) (tag : Nat) (kind : Nat) (line : Nat)
  /-- JOB_STATUS (R440): JOB.STATUS returns the job's state and position. -/
  | jobStatus (t : Nat) (ch : Fin 6) (tag : Nat)
  /-- HEAD_TYPE (R185): HEAD.TYPE writes a head type record into the shadow set. -/
  | headType (t : Nat) (ch : Fin 6) (tag : Nat) (id : Nat) (rec : HeadType)
  /-- HEAD_PLACE (R186): HEAD.PLACE writes a head placement record into the shadow set. -/
  | headPlace (t : Nat) (ch : Fin 6) (tag : Nat) (rec : PlaceMsg)
  /-- HEAD_ENERGY_TABLE (R208): HEAD.ENERGY_TABLE writes a head type's energy table into the shadow set. -/
  | headEnergyTable (t : Nat) (ch : Fin 6) (tag : Nat) (type : Nat) (entries : List Nat)
  /-- HEAD_SUPPLY (R441): HEAD.SUPPLY writes a channel's ink supply fields into the shadow set. -/
  | headSupply (t : Nat) (ch : Fin 6) (tag : Nat) (channel : Nat) (en : Nat) (hub : Nat) (slot : Nat)
  /-- HEAD_NOZZLE_STATE (R192): HEAD.NOZZLE_STATE sets or clears MASKED on a run of nozzles. -/
  | headNozzleState (t : Nat) (ch : Fin 6) (tag : Nat) (head : Nat) (row : Nat) (action : Nat) (first : Nat) (count : Nat)
  /-- HEAD_HUB_CMD (R441): HEAD.HUB_CMD sends HUB_INFO, EYE_SCAN or ELEMENT_INFO to a hub. -/
  | headHubCmd (t : Nat) (ch : Fin 6) (tag : Nat) (hub : Nat) (cmd : Nat) (args : List Byte)
  /-- CLP_FREEZE (R321): CLP.FREEZE sets or clears FREEZE per channel. -/
  | clpFreeze (t : Nat) (ch : Fin 6) (tag : Nat) (mask : Nat) (value : Nat)
  /-- CLP_WHITE_RESET (R307): CLP.WHITE_RESET resets the white references of ports. -/
  | clpWhiteReset (t : Nat) (ch : Fin 6) (tag : Nat) (ports : Nat)
  /-- CLP_LADDER_NOW (R316): CLP.LADDER_NOW names a ladder slot line directly. -/
  | clpLadderNow (t : Nat) (ch : Fin 6) (tag : Nat) (line : Nat)
  /-- CLP_COEF_SET (R322): CLP.COEF_SET writes a coefficient image into the shadow set. -/
  | clpCoefSet (t : Nat) (ch : Fin 6) (tag : Nat) (channel : Nat) (first : Nat) (count : Nat) (ref : Bool) (data : DataRef)
  /-- CLP_READ_COEF (R323): CLP.READ_COEF returns coefficients, deltas or base gains. -/
  | clpReadCoef (t : Nat) (ch : Fin 6) (tag : Nat) (kind : Nat) (index : Nat) (first : Nat) (count : Nat)
  /-- CAM_CONFIG (R288): CAM.CONFIG writes a camera port's configuration. -/
  | camConfig (t : Nat) (ch : Fin 6) (tag : Nat) (port : Nat) (values : List Nat)
  /-- CAM_PROFILE (R301): CAM.PROFILE gives the camera's control registers. -/
  | camProfile (t : Nat) (ch : Fin 6) (tag : Nat) (port : Nat) (profile : List Byte)
  /-- CAM_STATS (R299): CAM.STATS returns histogram or zone statistics. -/
  | camStats (t : Nat) (ch : Fin 6) (tag : Nat) (port : Nat) (band : Nat) (kind : Nat) (first : Nat) (count : Nat)
  /-- CAM_READ_FRAME (R441): CAM.READ_FRAME copies a stored frame to host memory. -/
  | camReadFrame (t : Nat) (ch : Fin 6) (tag : Nat) (port : Nat) (slot : Nat) (data : DataRef)
  /-- TIM_SET_INCR (R79): TIM.SET_INCR writes INCR and re-bases OFFSET. -/
  | timSetIncr (t : Nat) (ch : Fin 6) (tag : Nat) (incr : Nat)
  /-- TIM_SLEW (R80): TIM.SLEW starts a slew of D nanoseconds. -/
  | timSlew (t : Nat) (ch : Fin 6) (tag : Nat) (d : Int)
  /-- TIM_STEP (R81): TIM.STEP schedules a step of device time two boundaries ahead. -/
  | timStep (t : Nat) (ch : Fin 6) (tag : Nat) (d : Int)
  /-- TIM_PPS_SECOND (R91): TIM.PPS_SECOND names the TAI second of the next PPS edge. -/
  | timPpsSecond (t : Nat) (ch : Fin 6) (tag : Nat) (second : Nat)
  /-- TIM_TRIG_SET (R96): TIM.TRIG_SET arms or replaces a time trigger, rejecting or firing late ones. -/
  | timTrigSet (t : Nat) (ch : Fin 6) (tag : Nat) (trig : Nat) (ctrl : Nat) (time : Nat) (period : Nat) (count : Nat)
  /-- TIM_TRIG_CANCEL (R99): TIM.TRIG_CANCEL disarms a trigger unless its occurrence is under 200 ns away. -/
  | timTrigCancel (t : Nat) (ch : Fin 6) (tag : Nat) (trig : Nat)
  /-- MOT_CONFIG (R477): MOT.CONFIG writes an axis's configuration and profile limits. -/
  | motConfig (t : Nat) (ch : Fin 6) (tag : Nat) (axis : Nat) (lim : Limits) (stall : Nat)
  /-- MOT_MOVE (R454): MOT.MOVE starts or retargets a move of an axis. -/
  | motMove (t : Nat) (ch : Fin 6) (tag : Nat) (axis : Nat) (kind : Nat) (target : Int) (vmax : Nat) (amax : Nat) (dmax : Nat) (jmax : Nat)
  /-- MOT_GROUP_MOVE (R456): MOT.GROUP_MOVE moves a group along a straight line. -/
  | motGroupMove (t : Nat) (ch : Fin 6) (tag : Nat) (group : Nat) (targets : List Int)
  /-- MOT_HOME (R458): MOT.HOME starts a homing sequence. -/
  | motHome (t : Nat) (ch : Fin 6) (tag : Nat) (axis : Nat) (type : Nat)
  /-- MOT_STOP (R469): MOT.STOP brings axes to rest by ramp or at once. -/
  | motStop (t : Nat) (ch : Fin 6) (tag : Nat) (axes : Nat) (kind : Nat)
  /-- MOT_STATUS (R441): MOT.STATUS returns an axis's status. -/
  | motStatus (t : Nat) (ch : Fin 6) (tag : Nat) (axis : Nat)
  /-- DIAG_EYE_GRID (R281): DIAG.EYE_GRID writes a lane's full eye grid to host memory. -/
  | diagEyeGrid (t : Nat) (ch : Fin 6) (tag : Nat) (lane : Nat) (data : DataRef)
  /-- DIAG_PLACEMENT (R441): DIAG.PLACEMENT returns the placement of a strip's grains. -/
  | diagPlacement (t : Nat) (ch : Fin 6) (tag : Nat) (handle : Nat) (strip : Nat)
  /-- DIAG_SELFTEST (R441): DIAG.SELFTEST tests a slice and returns pass or fail. -/
  | diagSelftest (t : Nat) (ch : Fin 6) (tag : Nat) (slice : Nat) (pass : Bool)
  /-- DIAG_RESTART_WARM (R442): DIAG.RESTART with KIND 0 sets WARM_OK and asserts RESET_N. -/
  | diagRestartWarm (t : Nat) (ch : Fin 6) (tag : Nat)
  /-- DIAG_RESTART_COLD (R442): DIAG.RESTART with KIND 1 asserts RESET_N for a cold start. -/
  | diagRestartCold (t : Nat) (ch : Fin 6) (tag : Nat)
  /-- PAIR_STATUS (R442): PAIR.STATUS returns role, health, status and readouts. -/
  | pairStatus (t : Nat) (ch : Fin 6) (tag : Nat)
  /-- PAIR_CONFIG (R442): PAIR.CONFIG writes PAIR_CTRL. -/
  | pairConfig (t : Nat) (ch : Fin 6) (tag : Nat) (value : Nat) (mask : Nat)
  /-- PAIR_HANDOVER (R357): PAIR.HANDOVER names a handover boundary H. -/
  | pairHandover (t : Nat) (ch : Fin 6) (tag : Nat) (lead : Nat)
  /-- PAIR_RESYNC (R369): PAIR.RESYNC restarts a standby's resynchronisation from stage 1. -/
  | pairResync (t : Nat) (ch : Fin 6) (tag : Nat)
  /-- PAIR_CLEAR (R369): PAIR.CLEAR clears PAIR_STATUS W1C bits. -/
  | pairClear (t : Nat) (ch : Fin 6) (tag : Nat) (bits : Nat)
  /-- LOG_INFO (R443): EVT.LOG_INFO returns the oldest and newest log sequence numbers. -/
  | logInfo (t : Nat) (ch : Fin 6) (tag : Nat)
  /-- LOG_READ (R443): EVT.LOG_READ returns log entries from a sequence number. -/
  | logRead (t : Nat) (ch : Fin 6) (tag : Nat) (seq : Nat) (count : Nat)
  /-- EVT_FILTER (R443): EVT.FILTER replaces the unit's event ring filter. -/
  | evtFilter (t : Nat) (ch : Fin 6) (tag : Nat) (pairs : List (Nat × Nat))
  /-- SEC_INFO (R492): SEC.INFO returns security status, identity and slot information. -/
  | secInfo (t : Nat) (ch : Fin 6) (tag : Nat)
  /-- CERT_GET (R488): SEC.CERT_GET returns part of the device certificate chain. -/
  | certGet (t : Nat) (ch : Fin 6) (tag : Nat) (offset : Nat)
  /-- SESSION_OPEN (R488): SEC.SESSION_OPEN starts a secure session key exchange. -/
  | sessionOpen (t : Nat) (ch : Fin 6) (tag : Nat) (key : List Byte) (nonce : List Byte)
  /-- CERT_PUT (R488): SEC.CERT_PUT delivers part of the host certificate chain. -/
  | certPut (t : Nat) (ch : Fin 6) (tag : Nat) (total : Nat) (offset : Nat) (bytes : List Byte)
  /-- SESSION_FINISH (R489): SEC.SESSION_FINISH authenticates the host and opens the session keys. -/
  | sessionFinish (t : Nat) (ch : Fin 6) (tag : Nat) (sig : List Byte)
  /-- SESSION_CLOSE (R490): SEC.SESSION_CLOSE ends the session and wipes its keys. -/
  | sessionClose (t : Nat) (ch : Fin 6) (tag : Nat)
  /-- SESSION_SETUP_TIMEOUT (R488): SESSION_FINISH does not arrive within 10 s and the set-up is abandoned. -/
  | sessionSetupTimeout (t : Nat) (x : Fin 2)
  /-- SESSION_IDLE_EXPIRE (R490): No message is taken for SESSION_IDLE and the session ends. -/
  | sessionIdleExpire (t : Nat) (x : Fin 2)
  /-- FW_LOAD (R497): SEC.FW_LOAD writes and verifies an image in the slot not running. -/
  | fwLoad (t : Nat) (ch : Fin 6) (tag : Nat) (slot : Nat) (data : DataRef)
  /-- FW_ACTIVATE (R497): SEC.FW_ACTIVATE sets PREFERRED to a valid slot. -/
  | fwActivate (t : Nat) (ch : Fin 6) (tag : Nat) (slot : Nat)
  /-- FW_COMMIT (R498): SEC.FW_COMMIT blows rollback fuses to the running image's index. -/
  | fwCommit (t : Nat) (ch : Fin 6) (tag : Nat)
  /-- TRUST_SET (R493): SEC.TRUST_SET installs an owner root, consumable root or partner certificate. -/
  | trustSet (t : Nat) (ch : Fin 6) (tag : Nat) (kind : Nat) (slot : Nat) (total : Nat) (offset : Nat) (bytes : List Byte)
  /-- TRUST_CLEAR (R493): SEC.TRUST_SET with KIND 3 clears a consumable root or partner identity. -/
  | trustClear (t : Nat) (ch : Fin 6) (tag : Nat) (slot : Nat)
  /-- CONS_RESET (R502): SEC.CONS_RESET re-establishes the record of one secure element. -/
  | consReset (t : Nat) (ch : Fin 6) (tag : Nat) (target : Nat) (index : Nat)
  /-- CONS_TRANSFER (R503): SEC.CONS_TRANSFER moves a pending count between records. -/
  | consTransfer (t : Nat) (ch : Fin 6) (tag : Nat) (target : Nat) (src : Nat) (dst : Nat)
  /-- SEC_CONFIG (R481): SEC.CONFIG writes SEC_CTRL and clears SEC_STATUS bits. -/
  | secConfig (t : Nat) (ch : Fin 6) (tag : Nat) (value : Nat) (mask : Nat) (clear : Nat)
  /-- DEBUG_CHALLENGE (R505): SEC.DEBUG with KIND 1 issues a debug challenge. -/
  | debugChallenge (t : Nat) (ch : Fin 6) (tag : Nat) (scope : Nat)
  /-- DEBUG_UNLOCK (R505): SEC.DEBUG with KIND 2 unlocks debug with a signed token. -/
  | debugUnlock (t : Nat) (ch : Fin 6) (tag : Nat) (scope : Nat) (token : List Byte)
  /-- AUDIT_READ (R509): SEC.AUDIT with KIND 1 returns audit entries. -/
  | auditRead (t : Nat) (ch : Fin 6) (tag : Nat) (count : Nat) (seq : Nat)
  /-- AUDIT_SIGN (R509): SEC.AUDIT with KIND 2 returns a signed head of the audit log. -/
  | auditSign (t : Nat) (ch : Fin 6) (tag : Nat) (nonce : List Byte)
  /-- AUDIT_ACKNOWLEDGE (R509): SEC.AUDIT with KIND 3 marks entries acknowledged. -/
  | auditAcknowledge (t : Nat) (ch : Fin 6) (tag : Nat) (seq : Nat)
  /-- GLITCH (R506): A voltage or clock monitor detects a glitch and session keys are wiped. -/
  | glitch (t : Nat) (detector : Fin 4)
  /-- RNG_FAIL (R483): An entropy health test fails. -/
  | rngFail (t : Nat) (test : Fin 2)
  /-- JTAG_INSTRUCTION (R504): A JTAG instruction is loaded and acted on under the debug lock. -/
  | jtagInstruction (t : Nat) (inst : JtagInstr)
  /-- LIMIT_INPUT_CHANGE (R464): A limit input becomes active and the axis stops or a wiring fault is reported. -/
  | limitInputChange (t : Nat) (axis : Fin 8) (pos : Bool) (level : Bool)
  /-- DRIVER_FAULT (R466): AXn_FLT_N reads low and stepping stops. -/
  | driverFault (t : Nat) (axis : Fin 8) (level : Bool)
  /-- OUT_SHORT_AXIS (R467): A motion output differs from its driven level for 2 µs. -/
  | outShortAxis (t : Nat) (axis : Fin 8) (out : Fin 3)
  /-- HOME_INPUT_EDGE (R459): An edge of the home input records the commanded count. -/
  | homeInputEdge (t : Nat) (axis : Fin 8) (level : Bool)
  /-- HOME_DEBOUNCE_EXPIRE (R459): The home input holds its level for HOME_DEBOUNCE and home is latched. -/
  | homeDebounceExpire (t : Nat) (axis : Fin 8)
  /-- POWER_ON (R518): VIN rises above 8.6 V with rails in regulation and power-on reset releases. -/
  | powerOn (t : Nat)
  /-- VIN_BELOW_POR (R518): VIN falls below 5.5 V and power-on reset asserts. -/
  | vinBelowPor (t : Nat)
  /-- RESET_N_LOW (R515): A low level on RESET_N is recognised and the module drives the 2 ms stretch. -/
  | resetNLow (t : Nat) (ns : Nat) (taken : Bool)
  /-- SELF_REFRESH_TIMEOUT (R529): A DRAM channel does not confirm self-refresh within 50 µs and WARM_OK clears. -/
  | selfRefreshTimeout (t : Nat)
  /-- RESET_RELEASE (R515): RESET_N reads high 10 µs after the stretch and reset is released. -/
  | resetRelease (t : Nat)
  /-- START (R530): After release the module runs the cold or warm start steps to READY or RECOVERY. -/
  | start (t : Nat) (info : StartInfo)
  /-- START_TIMEOUT (R535): A start has not reached READY 5 s after release and fails. -/
  | startTimeout (t : Nat)
  /-- WATCHDOG_EXPIRE (R516): The control cores do not service the watchdog for 500 ms. -/
  | watchdogExpire (t : Nat)
  /-- LOCKSTEP_MISMATCH (R8): The lockstep control cores disagree and RESET_N is asserted. -/
  | lockstepMismatch (t : Nat)
  /-- WARM_ARM (R528): A write of 1 to WARM_ARM sets WARM_OK for 10 s. -/
  | warmArm (t : Nat) (ch : Fin 6) (tag : Nat)
  /-- WARM_ARM_EXPIRE (R528): 10 s pass after WARM_ARM and WARM_OK clears. -/
  | warmArmExpire (t : Nat)
  /-- FATAL_FAULT (R608): Firmware detects a fatal fault, records it, releases the lease and resets or stops. -/
  | fatalFault (t : Nat) (bit : Fin 5)
  /-- VIN_WARN (R580): VIN stays below 8.4 V for 2 µs and the unit flushes state while printing. -/
  | vinWarn (t : Nat) (mv : Nat)
  /-- VIN_WARN_END (R582): VIN stays above 8.6 V for 100 µs and the warning ends. -/
  | vinWarnEnd (t : Nat)
  /-- VIN_WARN_STOP (R583): A warning lasts 10 ms and the unit makes an orderly stop. -/
  | vinWarnStop (t : Nat)
  /-- VIN_HIGH (R595): VIN rises above the VIN_HIGH threshold. -/
  | vinHigh (t : Nat) (mv : Nat)
  /-- INPUT_TRIP (R578): Input current exceeds 9.0 A for 100 µs and the electronic fuse disconnects. -/
  | inputTrip (t : Nat)
  /-- VENC_OVERLOAD (R591): VENC_OUT is held below 4.0 V for 1 ms and its limit folds back. -/
  | vencOverload (t : Nat)
  /-- VENC_RETRY (R591): Every 100 ms a folded-back VENC_OUT retries full current. -/
  | vencRetry (t : Nat) (ok : Bool)
  /-- VENC_BACKFEED (R591): VENC_OUT is held above 5.3 V from outside and is turned off. -/
  | vencBackfeed (t : Nat) (mv : Nat)
  /-- RAIL_FAULT (R595): An internal rail leaves regulation or CLK_IN is lost. -/
  | railFault (t : Nat) (rail : Fin 16)
  /-- OUT_SHORT (R595): A 3.3 V output reads back differently for 2 µs. -/
  | outShort (t : Nat) (sig : Fin 32)
  /-- THERMAL_TRIP (R552): A sensor reads 123 °C for 1 ms and hardware stops rendering and drops the lease. -/
  | thermalTrip (t : Nat) (sensor : Fin 16) (temp : Int)
  /-- THROTTLE_FALL (R548): THM_MAX stays below threshold less hysteresis for THROTTLE_HOLD picks and the level falls. -/
  | throttleFall (t : Nat)
  /-- SENSOR_FAIL_WRITE (R547): A write of 1 to a THM_SENSOR_FAIL bit starts re-admission. -/
  | sensorFailWrite (t : Nat) (ch : Fin 6) (tag : Nat) (bits : Nat)
  /-- SENSOR_READMITTED (R547): A sensor passes every check for 64 picks and is re-admitted. -/
  | sensorReadmitted (t : Nat) (sensor : Fin 16)
  /-- MG_READ_STATE (R570): SMBus command 0x00 returns SYS_STATE.STATE. -/
  | mgReadState (t : Nat)
  /-- MG_READ_ROLE (R570): SMBus command 0x01 returns SYS_ROLE [7:0]. -/
  | mgReadRole (t : Nat)
  /-- MG_READ_TEMP (R570): SMBus command 0x02 returns THM_MAX in whole °C. -/
  | mgReadTemp (t : Nat)
  /-- MG_READ_FAULTS (R570): SMBus command 0x03 returns FAULT_SUMMARY. -/
  | mgReadFaults (t : Nat)
  /-- MG_READ_LEVEL (R570): SMBus command 0x04 returns the throttle level. -/
  | mgReadLevel (t : Nat)
  /-- MG_ALERT_RESPONSE (R571): The target answers the SMBus Alert Response Address while MG_ALERT_N is low. -/
  | mgAlertResponse (t : Nat)
  /-- MISSED_PARTS_REQUEST (R338): The active receives the standby's request for the parts of pick records it missed and sends them. -/
  | missedPartsRequest (t : Nat) (picks : List Nat)
  /-- STRIP_REQUEST (R367): The sending unit receives a request for a strip again and resends it, verifying its own copy on the third request. -/
  | stripRequest (t : Nat) (handle : Nat) (index : Nat)
  /-- GPIO_INDEX_EDGE (R458): A rising edge on the GPIO that INDEX_SRC names ends a SWITCH_INDEX homing search. -/
  | gpioIndexEdge (t : Nat) (gpio : Fin 16)
  /-- LANE_STATE_REPEAT (R277): Every 10 µs while any lane of a group is down each end sends LANE_STATE again on every lane it still transmits on. -/
  | laneStateRepeat (t : Nat) (hub : Fin 24)
  /-- MG_BUS_TIMEOUT (R595): The management target finds MG_SCL or MG_SDA held low from outside and releases the bus after 25 ms. -/
  | mgBusTimeout (t : Nat)
  deriving DecidableEq, Repr

end Sys2Proof
end

