-- ==== Sys2Proof/Decode.lean ====
section
/-!
DEFINITION. The command that a word of the opcode table spells. The table of this block gives its rows no bits: the commands
are events and messages, not words. No word spells a command.
-/
namespace Sys2Proof

/-- The command spelled by the table's bits: the table gives no row any bits, so there is none. -/
def decodeTableWord (_nbits _w : Nat) : Option Instr := none

end Sys2Proof
end

