-- ==== Sys2Proof/Machine/Packets.lean ====
section
/-!
DEFINITION. The bytes of packets and control blocks to and from a hub (R240, R242, R245, R253 to R263, R273), and the scrambled blocks
that a lane carries (R240, R241, R246).
-/
namespace Sys2Proof.Machine

/-- One row's codes as a bit string of `b` bits a nozzle, nozzle 0 in the lowest bits. -/
def packRow (b nozzles : Nat) (dots : List (Nat × Nat)) : List Byte :=
  leBytes (ceilDiv (nozzles * b) 8) (dots.foldl (fun a d => a + d.2 * 2 ^ (b * d.1)) 0)

/-- A block of a lane: its sync header says control or data, and it carries 8 bytes (R240). -/
structure Block where
  control : Bool
  bytes   : List Byte
  deriving DecidableEq, Repr

/-- The CHECK byte of a control block's bytes 1 to 6 (R242). -/
def blockCheck (bs : List Byte) : Byte := bs.foldl (· ^^^ ·) 0xA5

/-- A control block of a type with six bytes and their CHECK (R242). -/
def checkedBlock (type : Nat) (bs : List Byte) : Block := ⟨true, leBytes 1 type ++ bs ++ [blockCheck bs]⟩

/-- The types of END0 to END7 (R242). -/
def endType (k : Nat) : Nat := [0x87, 0x99, 0xAA, 0xB4, 0xCC, 0xD2, 0xE1, 0xFF].getD k 0

/-- An IDLE block (R242). -/
def idleBlock : Block := ⟨true, leBytes 8 0x1E⟩

/-- A packet's blocks (R253): START with its first 7 bytes, data blocks of 8, and ENDk with the last k. -/
def packetBlocks (b : List Byte) : List Block :=
  let rest := b.drop 7
  let n := rest.length / 8
  let last := rest.drop (8 * n)
  ⟨true, leBytes 1 0x78 ++ b.take 7⟩ ::
    ((List.range n).map fun i => ⟨false, (rest.drop (8 * i)).take 8⟩) ++
    [⟨true, leBytes 1 (endType last.length) ++ last ++ List.replicate (7 - last.length) 0⟩]

/-- A packet: the 16-byte header with its PACKET_CRC, and the payload (R254). -/
def packetOf (type target line epoch : Nat) (unitB standby : Bool) (payload : List Byte) : List Byte :=
  let flags := payload.length % 2 ^ 13 + 2 ^ 13 * bit standby + 2 ^ 14 * bit unitB
  let head := leBytes 1 type ++ leBytes 1 target ++ leBytes 2 flags ++ leBytes 4 line ++ leBytes 4 epoch
  head ++ leBytes 4 (crc32c (head ++ payload)) ++ payload

/-- Whether a receiver keeps a packet (R255): its length and its PACKET_CRC fit. -/
def packetFits (b : List Byte) : Bool :=
  decide (16 ≤ b.length) && (leAt b 2 2 % 2 ^ 13 == b.length - 16) && (leAt b 12 4 == crc32c (b.take 12 ++ b.drop 16))

/-- TARGET of a head row (R254). -/
def rowTarget (port : Nat) (rowB : Bool) : Nat := port % 32 + 32 * bit rowB

/-- The payload of FIRE_TIME (R258). BASE_TIME is the earliest of the rows' times (log 75). -/
def firePayload (period shed : Nat) (rows : List (Nat × Bool × Option Nat)) : List Byte :=
  let base := match rows.filterMap (·.2.2) with
    | [] => 0
    | f :: fs => fs.foldl Nat.min f
  leBytes 8 base ++ leBytes 4 period ++ leBytes 4 shed ++ leBytes 1 rows.length ++ leBytes 3 0 ++
    rows.flatMap fun (port, rowB, fire) =>
      leBytes 1 (rowTarget port rowB + 64 * bit fire.isNone) ++ leBytes 3 0 ++
        leBytes 4 (match fire with | some f => f - base | none => 0)

/-- TYPE, TARGET, LINE_ID and payload of a packet to a hub (R256 to R263, R273); none for a control block. -/
def packetParts : HubPacket → Option (Nat × Nat × Nat × List Byte)
  | .lineData port rowB line hist nozzles dots =>
    let b := if hist then 3 else 2
    some (1, rowTarget port rowB, line, leBytes 1 b ++ leBytes 1 0 ++ leBytes 2 nozzles ++ packRow b nozzles dots)
  | .fireTime line period shed rows => some (2, 64, line, firePayload period shed rows)
  | .preheat port rowB first every nozzles mask =>
    some (3, rowTarget port rowB, first, leBytes 1 (Nat.log2 every) ++ leBytes 1 0 ++ leBytes 2 nozzles ++
      packRow 1 nozzles (mask.map fun n => (n, 1)))
  | .energy port line table => some (4, port % 32, line, table.flatMap (leBytes 4))
  | .headCmd cmd tag args => some (5, 64, 0, leBytes 1 cmd ++ leBytes 1 tag ++ leBytes 2 0 ++ args)
  | .timeSync seq t1 off delay prev =>
    some (7, 64, 0, leBytes 1 1 ++ leBytes 1 seq ++ leBytes 2 0 ++ leBytes 8 t1 ++ leBytes 4 (unsignedOf 32 off) ++ leBytes 4 delay ++
      leBytes 1 prev ++ leBytes 3 0)
  | .cons _ target slot record =>
    some (8, if target = 0 then slot % 32 else 64, 0,
      leBytes 1 1 ++ leBytes 1 target ++ leBytes 1 (if target = 0 then 0 else slot) ++ leBytes 1 0 ++ record)
  | .laneState _ _ => none
  | .restripe _ _ => none
  | .idle => none
  | .marker _ _ _ => none

/-- The control block that group lane k carries for what is sent on each lane (R242, R245); IDLE for a packet. -/
def controlBlock (k : Nat) (unitB : Bool) : HubPacket → Block
  | .laneState locked uses => checkedBlock 0x2D (leBytes 1 locked ++ leBytes 1 uses ++ leBytes 4 0)
  | .restripe mask line => checkedBlock 0x33 (leBytes 1 mask ++ leBytes 4 line ++ leBytes 1 0)
  | .marker width hub seq =>
    checkedBlock 0x4B (leBytes 1 k ++ leBytes 1 width ++ leBytes 1 (bit unitB) ++ leBytes 1 hub ++ leBytes 2 seq)
  | _ => idleBlock

/-- The blocks that carry a packet, under an epoch and the flags of R254 (R253); a control block alone, as on group lane 0. -/
def outBlocks (epoch : Nat) (unitB standby : Bool) (p : HubPacket) : List Block :=
  match packetParts p with
  | some (type, target, line, payload) => packetBlocks (packetOf type target line epoch unitB standby payload)
  | none => [controlBlock 0 unitB p]

/-- The blocks that lane j of m carries of a packet (R246): consecutive blocks take the lanes in order, and IDLE blocks fill the last
slot. -/
def stripe (bs : List Block) (m j : Nat) : List Block :=
  (List.range (ceilDiv bs.length m)).map fun i => (bs[m * i + j]?).getD idleBlock

/-! ### Scrambling (R241) -/

/-- The sync header of a block (R240): 01 for data, 10 for control. -/
def syncHeader (b : Block) : Nat := if b.control then 2 else 1

/-- The self-synchronising scrambler x^58 + x^39 + 1 over n bits of p, the lowest first, after the 58 bits of `st`: the bits sent and the
58 bits then behind them (R241). -/
def scramble : Nat → Nat → Nat → Nat × Nat
  | 0, _, st => (0, st)
  | n + 1, p, st =>
    let b := bit (p.testBit 0 ^^ (st.testBit 38 ^^ st.testBit 57))
    let (q, st) := scramble n (p / 2) ((2 * st + b) % 2 ^ 58)
    (b + 2 * q, st)

/-- The descrambler of the same polynomial: the bits behind n scrambled bits of p (R241). -/
def descramble : Nat → Nat → Nat → Nat × Nat
  | 0, _, st => (0, st)
  | n + 1, p, st =>
    let b := bit (p.testBit 0 ^^ (st.testBit 38 ^^ st.testBit 57))
    let (q, st) := descramble n (p / 2) ((2 * st + bit (p.testBit 0)) % 2 ^ 58)
    (b + 2 * q, st)

/-- Blocks as a lane sends them after the 58 bits of `st`: headers in clear, payloads scrambled (R240, R241). -/
def wireBlocks : List Block → Nat → List (Nat × Nat) × Nat
  | [], st => ([], st)
  | b :: bs, st =>
    let (p, st) := scramble 64 (ofLe b.bytes) st
    let (ws, st) := wireBlocks bs st
    ((syncHeader b, p) :: ws, st)

/-- What a receiver makes of a block (R242): an invalid header or block, a marker, a LANE_STATE with its two masks, or a block of the
group stream. -/
inductive RxBlock where
  | invalid
  | marker (m : Marker)
  | laneState (locked uses : Nat)
  | stream
  deriving DecidableEq, Repr

/-- A control block read by its type; a failing CHECK or an unknown type makes it invalid (R242, R245). -/
def readControl (b : List Byte) : RxBlock :=
  let type := leAt b 0 1
  let checked : Bool := leAt b 7 1 == (blockCheck (bytesAt b 1 6)).toNat
  if type = 0x4B then
    if checked then
      .marker { groupLane := leAt b 1 1, width := leAt b 2 1, unitB := (leAt b 3 1).testBit 0, fromHub := (leAt b 3 1).testBit 1,
                hub := leAt b 4 1, seq := leAt b 5 2 }
    else .invalid
  else if type = 0x2D then (if checked then .laneState (leAt b 1 1 % 16) (leAt b 2 1 % 16) else .invalid)
  else if type = 0x33 then (if checked then .stream else .invalid)
  else if type = 0x1E ∨ type = 0x78 ∨ (List.range 8).any (fun k => endType k == type) then .stream
  else .invalid

/-- A block read from its header and descrambled payload (R240, R242). -/
def readBlock (header payload : Nat) : RxBlock :=
  if header = 1 then .stream else if header = 2 then readControl (leBytes 8 payload) else .invalid

end Sys2Proof.Machine
end

