-- ==== Sys2Proof/Machine/State.lean ====
section
/-!
DEFINITION. The state of the block, the two ways a step can stop, and the machine right after the release of reset.
-/
namespace Sys2Proof.Machine

/-- The module's own state: SYS_STATE.STATE, the state before it, the causes of orderly stops that stand (R415), and how the
host is attached (R520). -/
structure SysCtl where
  st       : SysSt := .boot
  stopCause : Nat := 0
  ethernet : Bool := false
  linkRate : Nat := 0
  linkWidth : Nat := 0
  deriving DecidableEq, Repr

/-- The state. `pending` is the queue of commands that wait, first in first out; `out` is what the last command put on the
module's outputs (log 5) and `freeCtr` the counter behind fresh free values (log 6): these three are the model's own. `live`
holds every register outside the sets as last written; `pickEff`, `startEff` and `frameEff` hold the values in force of
fields that take effect at the next pick, start or frame (R6). -/
structure State where
  pending  : List Instr := []
  out      : List Output := []
  freeCtr  : Nat := 0
  sys      : SysCtl := {}
  time     : TimeSt := {}
  pos      : PosSt := {}
  host     : HostIf := {}
  live     : Bank := []
  pickEff  : Bank := []
  startEff : Bank := []
  frameEff : List Bank := [[], []]
  store    : StoreSt := {}
  sets     : SetsSt := {}
  job      : Job := {}
  print    : PrintSt := {}
  pair     : PairSt := {}
  link     : LinkSt := {}
  vision   : VisionSt := {}
  colour   : ColourSt := {}
  mot      : MotSt := {}
  sec      : SecSt := {}
  rst      : RstSt := {}
  thm      : ThmSt := {}
  pwr      : PwrSt := {}
  deriving DecidableEq, Repr

/-- The ways the machine stops with a fault. -/
inductive Fault where
  /-- Raised by no command: the manual gives each one an effect in every state. Safe: nothing rests on it. -/
  | unraised
  deriving DecidableEq, Repr

/-- The ways a command is refused. -/
inductive Refusal where
  /-- Raised by a row whose meaning has not been written. Safe: nothing is claimed of it. -/
  | notModelled (mnemonic : String)
  deriving DecidableEq, Repr

/-- The machine right after the release of reset, in BOOT: every register at the Reset column of its field table; the fields
the manual gives no reset value stand as log entries 7, 8 and 10 name them. -/
def State.reset : State := {}

end Sys2Proof.Machine
end

