-- ==== Sys2Proof/Machine/Ops.lean ====
section
/-!
DEFINITION. The operations every family shares: device time (R73 to R80), registers and fields (R4, R6), events (R401, R610),
sticky bits and their summary (R601), doorbells and interrupts (R375, R396), changes of device state (R413), replies and the
course of one message (R385 to R395, R339 to R341).
-/
namespace Sys2Proof.Machine

/-! ### Lists of like things -/

/-- The element at an index, or a default. -/
def nth {α : Type} (l : List α) (i : Nat) (d : α) : α := (l[i]?).getD d

/-- The list with the element at an index changed. -/
def upd {α : Type} (l : List α) (i : Nat) (f : α → α) : List α := l.modify i f

/-- The last `n` elements. -/
def lastN {α : Type} (n : Nat) (l : List α) : List α := l.drop (l.length - n)

/-- A rational held in whole units where the manual gives no rounding: a whole number stays, another goes to the unit below or
above it (R45, R56, R451, R473; log 11). -/
def roundNs (q : Rat) : Int := if q.den = 1 then q.num else q.floor + (Config.roundUp q % 2 : Nat)

/-! ### Device time -/

/-- Device time in whole nanoseconds: OFFSET + counter x INCR, truncated (R74). -/
def deviceTime (t : TimeSt) : Nat := ((t.offset + t.counter * t.incr) / 2 ^ 32).toNat

/-- Device time now. -/
def now (s : State) : Nat := deviceTime s.time

/-- The part of a slew that `ticks` apply at SLEW_RATE ppm (R80), in 2^-32 ns, held to what is left. -/
def slewPart (left : Int) (ticks rate : Nat) : Int :=
  let full : Int := (ticks * 2 ^ 32 * rate / 1000000 : Nat)
  if 0 ≤ left then min left full else max left (-full)

/-- The counter moves on to tick `t` (never back), and a slew applies its part (R73, R80). -/
def advanceTime (tm : TimeSt) (t rate : Nat) : TimeSt :=
  let part := slewPart tm.slewLeft (t - tm.counter) rate
  { tm with counter := Nat.max tm.counter t, offset := tm.offset + part, slewLeft := tm.slewLeft - part }

/-! ### Registers and fields -/

/-- The set that governs channel c (R66): the shadow set once the channel has changed under a pending swap. -/
def cfgOf (s : State) (c : Nat) : CfgSet :=
  match s.sets.swap with
  | none => s.sets.active
  | some w => if nth w.changed c false then s.sets.shadow else s.sets.active

/-- The set that governs time-anchored fields (R67). -/
def timeCfg (s : State) : CfgSet :=
  match s.sets.swap with
  | none => s.sets.active
  | some w => if w.timeDone then s.sets.shadow else s.sets.active

/-- The value of a field that now governs the module's behaviour (R6). -/
def fld (s : State) (f : Field) (i : Nat := 0) : Nat :=
  match f.eff with
  | .nextPick => bankGet s.pickEff f i
  | .nextStart => bankGet s.startEff f i
  | .frame => bankGet (nth s.frameEff i []) f i
  | .setSwap => bankGet (if (regInfo f.reg).isWeb then cfgOf s i else timeCfg s).regs f i
  | _ => bankGet s.live f i

/-- The value of a field as last written outside the sets. -/
def liveFld (s : State) (f : Field) (i : Nat := 0) (e : Nat := 0) : Nat := bankGet s.live f i e

/-- A field outside the sets written. -/
def setFld (s : State) (f : Field) (i v : Nat) (e : Nat := 0) : State := { s with live := bankSet s.live f i v e }

/-- A counter field advanced, in its own width. -/
def bump (s : State) (f : Field) (i : Nat := 0) (n : Nat := 1) : State := setFld s f i (liveFld s f i + n)

/-- An output appended. -/
def emit (s : State) (o : Output) : State := { s with out := s.out ++ [o] }

/-- A fresh number for the next free value (log 6). -/
def fresh (s : State) : Nat × State := (s.freeCtr, { s with freeCtr := s.freeCtr + 1 })

/-! ### Doorbells, interrupts, events, sticky bits -/

/-- The MSI-X vector of a bit of DB_D2H_STATUS (R375); bits without one never interrupt. -/
def irqVector (n : Nat) : Option Nat :=
  if n ≤ 3 ∨ n = 21 ∨ n = 22 then some 0 else if n = 8 ∨ n = 9 then some 1
  else if 16 ≤ n ∧ n ≤ 20 then some 2 else if 24 ≤ n ∧ n ≤ 31 then some 3 else none

/-- An interrupt on a vector, at most one per vector per microsecond (R375); one that comes sooner waits. -/
def raiseIrq (s : State) (v : Nat) : State :=
  let h := s.host
  let last := (h.irqSent.find? (·.1 == v)).map (·.2)
  if (match last with | some t => decide (now s < t + 1000) | none => false) then
    { s with host := { h with irqDue := if h.irqDue.contains v then h.irqDue else h.irqDue ++ [v] } }
  else
    emit { s with host := { h with irqSent := (v, now s) :: h.irqSent.filter (·.1 != v), irqDue := h.irqDue.filter (· != v) } }
      (.irq v)

/-- The events from EVT_TAIL to EVT_HEAD, oldest first. -/
def ringEvents (s : State) : List Event :=
  let tail := liveFld s Fld.EVT_TAIL_TAIL
  (List.range ((s.host.evHead + 2 ^ 32 - tail) % 2 ^ 32)).map fun i => nth s.host.ring ((tail + i) % 64) ⟨0, 0, 0, 0⟩

/-- The 16 bytes of an event entry (R401). -/
def eventBytes (e : Event) : List Byte := leBytes 8 e.time ++ leBytes 2 e.code ++ leBytes 2 e.source ++ leBytes 4 e.arg

/-- A datagram to the host over the open session (R376), with the module's datagram count. -/
def sendDatagram (s : State) (kind chan : Nat) (body : List Byte) : State :=
  match s.host.session with
  | none => s
  | some _ =>
    emit { s with host := { s.host with dgSeq := s.host.dgSeq + 1 } } (.datagram kind chan s.host.dgSeq body)

/-- NOTIFY (R377, R379). -/
def sendNotify (s : State) : State :=
  sendDatagram { s with host := { s.host with session := s.host.session.map fun x => { x with notify := some (now s) } } }
    8 0 (leBytes 4 (liveFld s Fld.DB_D2H_STATUS_STATUS) ++ leBytes 4 s.host.evHead ++ (ringEvents s).flatMap eventBytes)

/-- The notice of a bit of DB_D2H_STATUS that is set and unmasked: an interrupt over PCIe, NOTIFY over Ethernet. -/
def notifyBit (s : State) (n : Nat) : State :=
  let s := if s.sys.ethernet ∨ s.rst.both then sendNotify s else s
  if s.sys.ethernet then s
  else match irqVector n with
    | some v => raiseIrq s v
    | none => s

/-- Bits of a register that the module sets now, whether or not they were set before (R5). -/
def noteSet (s : State) (key mask : Nat) : State :=
  let old := if s.host.setTick = s.time.counter then s.host.setNow else []
  { s with host := { s.host with setTick := s.time.counter, setNow := (key, mask) :: old } }

/-- The value a host writes to a register without the W1C bits that the module has set in the same cycle (R5). -/
def spared (s : State) (key w1c v : Nat) : Nat :=
  if s.host.setTick = s.time.counter then
    s.host.setNow.foldl (fun v x => if x.1 = key then v - (v &&& (x.2 &&& w1c)) else v) v
  else v

/-- A bit of DB_D2H_STATUS set by the module (R396). -/
def doorbell (s : State) (n : Nat) : State :=
  let s := noteSet s (regKey .DB_D2H_STATUS 0 0) (2 ^ n)
  let st := liveFld s Fld.DB_D2H_STATUS_STATUS
  if st.testBit n then s
  else
    let s := setFld s Fld.DB_D2H_STATUS_STATUS 0 (st + 2 ^ n)
    if (liveFld s Fld.DB_D2H_MASK_MASK).testBit n then s else notifyBit s n

/-- An event raised now: it waits for step 5 of the next boundary (R17, R402). -/
def raiseAt (s : State) (time code source arg : Nat) : State :=
  { s with host := { s.host with queued := s.host.queued ++ [⟨time, code, source, arg % 2 ^ 32⟩] } }

/-- An event raised with device time now. -/
def raise (s : State) (code source arg : Nat) : State := raiseAt s (now s) code source arg

/-- The low 32 bits of a line or of a signed argument (R72). -/
def low32 (x : Int) : Nat := unsignedOf 32 x

/-- A signed argument that saturates at 32 bits. -/
def sat32 (x : Int) : Nat := unsignedOf 32 (satSigned 32 x)

/-- The summary bit that gathers a register's sticky bits (R606). -/
def summaryBit (r : Reg) : Nat :=
  match r with
  | .RST_CAUSE => 15
  | .MBX_STATUS => 17
  | r => (regInfo r).code

/-- A bit of FAULT_SUMMARY set (R601); doorbell bit 19 when its mask bit is 0 (R396). -/
def setSummary (s : State) (k : Nat) : State :=
  let s := if k = 0 then s else noteSet s (regKey .FAULT_SUMMARY 0 0) (2 ^ (Fld.FAULT_SUMMARY_SUBSYSTEM.lo + (k - 1)))
  let v := liveFld s Fld.FAULT_SUMMARY_SUBSYSTEM
  if k = 0 ∨ v.testBit (k - 1) then s
  else
    let s := setFld s Fld.FAULT_SUMMARY_SUBSYSTEM 0 (v + 2 ^ (k - 1))
    if (liveFld s Fld.FAULT_MASK_MASK).testBit k then s else doorbell s 19

/-- Bit `b` of a W1C field set by the module: a change from 0 to 1 sets the summary bit (R601). RST_CAUSE.POR never does. -/
def sticky (s : State) (f : Field) (i : Nat := 0) (b : Nat := 0) : State :=
  let s := noteSet s (regKey f.reg i 0) (2 ^ (f.lo + b))
  let v := liveFld s f i
  if v.testBit b then s
  else
    let s := setFld s f i (v + 2 ^ b)
    if f = Fld.RST_CAUSE_POR then s else setSummary s (summaryBit f.reg)

/-- Whether bit `b` of a W1C field is set. -/
def stickyOn (s : State) (f : Field) (i : Nat := 0) (b : Nat := 0) : Bool := (liveFld s f i).testBit b

/-- The unit as an event source (R370): 0 unit A, 1 unit B. -/
def unitNo (s : State) : Nat := bit s.pair.unitB

/-- The throttle level (R548). -/
def throttle (s : State) : Nat := liveFld s Fld.THM_STATUS_LEVEL

/-- The value in force of a temperature sensor in whole °C, rounded down (R120; log 78). -/
def sensorC (s : State) (k : Nat) : Int := (nth s.thm.sensors k {}).value / 8

/-- The first CAL_TEMP index of a calibration item (R559): DRAM channels, lane receivers, transmit bands, references, axes
(log 28). -/
def calBase (item : Nat) : Nat := match item with | 1 => 0 | 2 => 4 | 3 => 32 | 4 => 60 | _ => 76

/-- A calibration item completed at a temperature (R558, R559). -/
def calDone (s : State) (item inst : Nat) (temp : Int) : State :=
  raise (bump (setFld s Fld.CAL_TEMP_LAST_CAL_TEMP (calBase item + inst) (unsignedOf 8 temp)) Fld.CAL_COUNT_CALIBRATIONS) 0x1201 inst item

/-! ### Device state -/

/-- The code of a device state (R382). -/
def stateCode : SysSt → Nat
  | .off => 0 | .reset => 1 | .boot => 2 | .recovery => 3 | .ready => 4
  | .armed => 5 | .printing => 6 | .paused => 7 | .safeStop => 8

/-- A change of device state with its event and doorbell (R413). -/
def setState (s : State) (st : SysSt) : State :=
  if s.sys.st = st then s
  else
    let prev := stateCode s.sys.st
    doorbell (raise { s with sys := { s.sys with st := st } } 0x0101 0 (stateCode st + 256 * prev)) 24

/-- Whether a job is in ARMED, PRINTING or PAUSED. -/
def jobOn (s : State) : Bool := s.sys.st == .armed || s.sys.st == .printing || s.sys.st == .paused

/-- Whether the firmware runs and takes messages. -/
def serving (s : State) : Bool := s.sys.st != .off && s.sys.st != .reset && s.sys.st != .boot

/-- The role's code (R368). -/
def roleCode : Role → Nat
  | .solo => 0 | .active => 1 | .standby => 2

/-- The print path acts on the hubs' behalf: SOLO, or ACTIVE with the lease. -/
def driving (s : State) : Bool := s.pair.lease && !s.pair.forceStandby

/-- The weft channels and the Flean transmitters are off: a standby stopped for temperature, or the hardware trip (R550, R552). -/
def linesOff (s : State) : Bool := s.thm.standbyStop || s.thm.tripped

/-- An item on the peer link (R330); the hardware trip puts its transmitters in electrical idle (R552). -/
def toPeer (s : State) (p : PeerItem) : State := if s.thm.tripped then s else emit s (.peer p)

/-- What a group carries in each of its states (R244, R248): lane blocks from TRAIN on, HUB_INFO too in IDENTIFY, the rest in UP. -/
def mayCarry (st : Nat) : HubPacket → Bool
  | .idle => st != 0
  | .marker _ _ _ => st != 0
  | .laneState _ _ => st != 0
  | .headCmd cmd _ _ => st == 3 || (st == 2 && cmd == 1)
  | _ => st == 3

/-- Blocks on one lane, scrambled behind the bits that the lane has sent (R240, R241). -/
def sendBlocks (s : State) (n : Nat) (bs : List Block) : State :=
  let (k, s) := fresh s
  let (ws, st) := wireBlocks bs (Config.laneHistory k % 2 ^ 58)
  emit { s with link := { s.link with lanes := upd s.link.lanes n fun l => { l with tx := st } } } (.lane n ws)

/-- The lanes of hub u's group that send, by number in the group (R238): every lane until the group is UP, then those of the mask (R244,
R277). -/
def sendLanes (s : State) (u : Nat) : List Nat :=
  let h := nth s.link.hubs u {}
  (List.range (fld s Fld.FL_HUB_WIDTH u)).filter fun k => h.state == 1 || h.mask.testBit k

/-- What goes to a hub as its lanes carry it (R246): a control block on every lane, a packet's blocks over the lanes in turn. -/
def onLanes (s : State) (u : Nat) (p : HubPacket) : State :=
  let first := fld s Fld.FL_HUB_FIRST_LANE u
  let ks := sendLanes s u
  let standby := !driving s
  match packetParts p with
  | none => ks.foldl (fun s k => sendBlocks s (first + k) [controlBlock k s.pair.unitB p]) s
  | some _ =>
    let bs := outBlocks (liveFld s Fld.PAIR_EPOCH_EPOCH) s.pair.unitB standby p
    (List.range ks.length).foldl (fun s j => sendBlocks s (first + nth ks j 0) (stripe bs ks.length j)) s

/-- A packet or control block to a hub under the unit's epoch; STANDBY is clear only while the unit holds the lease (R348, R352). Nothing
leaves while the transmitters are off, nor what the group's state does not carry (R244). -/
def toHub (s : State) (hub : Nat) (p : HubPacket) : State :=
  if linesOff s || !mayCarry (nth s.link.hubs hub {}).state p then s
  else onLanes (emit s (.hub hub (liveFld s Fld.PAIR_EPOCH_EPOCH) (!driving s) p)) hub p

/-! ### The start of every command -/

/-- What every command does first: the counter reaches tick `t`, the outputs of the command before are gone, and interrupts
that waited for their microsecond go out. -/
def begin (s : State) (t : Nat) : State :=
  let s := { s with out := [], time := advanceTime s.time t (liveFld s Fld.TIM_CTRL_SLEW_RATE) }
  s.host.irqDue.foldl raiseIrq s

/-! ### Messages -/

/-- The result of a message's action: code, detail, reply payload, and whether the reply comes later. -/
structure MsgRes where
  result  : Nat
  detail  : Nat := 0
  payload : List Byte := []
  later   : Bool := false
  deriving DecidableEq, Repr

/-- A result naming an object: its kind in [31:28] and number in [27:8] of RESULT (R412), as the detail of [31:8]. -/
def named (result kind obj : Nat) : MsgRes := ⟨result, kind * 2 ^ 20 + obj, [], false⟩

/-- The channel's number in the doorbell registers (R385). -/
def chanBit (k : Nat) : Nat := if k < 4 then k else k + 4

/-- A mailbox channel. -/
def mbx (s : State) (k : Nat) : Mbx := nth s.host.chans k {}

/-- A mailbox channel changed. -/
def setMbx (s : State) (k : Nat) (f : Mbx → Mbx) : State := { s with host := { s.host with chans := upd s.host.chans k f } }

/-- Messages of a channel outstanding (R387). -/
def outstanding (m : Mbx) : Nat := (if m.out.isSome then 1 else 0) + m.queue.length + m.flight.length

/-- Replies that are ready, in the order the messages were taken (R387): into the outbound mailbox or the overflow queue;
the last component tells whether the outbound mailbox filled. -/
def pumpFlights : List Flight → Option Reply → List Reply → Bool → List Flight × Option Reply × List Reply × Bool
  | [], out, q, filled => ([], out, q, filled)
  | f :: fs, out, q, filled =>
    match f.reply, f.hold with
    | some r, none =>
      if f.drop then pumpFlights fs out q filled
      else match out with
        | none => pumpFlights fs (some r) q true
        | some o => pumpFlights fs (some o) (q ++ [r]) filled
    | _, _ => (f :: fs, out, q, filled)

/-- The first 12 bytes of a reply's header (R384), with FLAGS.REPLY, REPEAT and SINGLE. -/
def replyFront (r : Reply) : List Byte :=
  let flags := 1 + 2 * bit r.isRepeat + 2 ^ 15 * bit r.single
  leBytes 2 r.payload.length ++ leBytes 1 r.op ++ leBytes 1 r.cls ++ leBytes 2 flags ++ leBytes 2 r.tag ++
    leBytes 4 (r.result + 256 * r.detail)

/-- The 16-byte header and payload of a reply (R384). -/
def replyBytes (r : Reply) : List Byte :=
  replyFront r ++ leBytes 4 (crc32c (replyFront r ++ leBytes 4 0 ++ r.payload)) ++ r.payload

/-- What the outbound mailbox of channel k holds: its reply, and on S0 and S1 the payload as encrypted and the 16-byte tag field
(R384, R487, R489). -/
def outBytes (m : Mbx) (k : Nat) : Option (List Byte) :=
  m.out.map fun r =>
    if k < 4 then replyBytes r
    else match m.gcm with
      | some (c, tag) => replyBytes { r with payload := c } ++ tag
      | none => replyBytes r ++ leBytes 16 0

/-! ### The security core's record of what happens (R480, R490, R508, R510) -/

/-- The session of channel S0 or S1. -/
def secSession (s : State) (k : Nat) : SecSession := nth s.sec.sessions (k - 4) {}

/-- A session changed. -/
def setSession (s : State) (k : Nat) (f : SecSession → SecSession) : State :=
  { s with sec := { s.sec with sessions := upd s.sec.sessions (k - 4) f } }

/-- The 64 bytes of an audit entry (R508). -/
def auditBytes (e : AuditEntry) : List Byte :=
  leBytes 4 e.seq ++ leBytes 8 e.time ++ leBytes 2 e.code ++ leBytes 1 e.chan ++ leBytes 1 e.role ++ leBytes 16 e.subject ++
    leBytes 4 e.result ++ leBytes 12 e.detail ++ leBytes 16 e.chain

/-- An audit entry written, with the session of its channel (none for k < 4); a full log loses its oldest entry, which is
reported when it has not been acknowledged, and whenever AUDIT_WRAP is 1 (R508, R510). -/
def audit (s : State) (code k result : Nat) : State :=
  let x : SecSession := if 4 ≤ k then secSession s k else {}
  let on := x.stage == 2
  let seq := (liveFld s Fld.SEC_AUDIT_NEWEST_SEQ + 1) % 2 ^ 32
  let chain := match s.sec.audit.getLast? with | some e => Config.sha384 (auditBytes e) % 2 ^ 128 | none => 0
  let e : AuditEntry := { seq := seq, time := now s, code := code, chan := if 4 ≤ k then chanBit k else 0,
                          role := if on then x.role else 0, subject := if on then x.subject else 0, result := result, chain := chain }
  let old := s.sec.audit
  let s := setFld { s with sec := { s.sec with audit := lastN 4096 (old ++ [e]) } } Fld.SEC_AUDIT_NEWEST_SEQ 0 seq
  match old.head? with
  | some o =>
    if 4096 ≤ old.length ∧ (liveFld s Fld.SEC_CTRL_AUDIT_WRAP = 1 ∨ liveFld s Fld.SEC_AUDIT_ACKED_SEQ < o.seq) then
      raise (sticky s Fld.SEC_STATUS_AUDIT_OVERWRITE) 0x0C10 0 o.seq
    else s
  | none => s

/-- Whether the log is full for messages that do not read it (R510). -/
def auditFull (s : State) : Bool :=
  decide (4032 ≤ liveFld s Fld.SEC_AUDIT_NEWEST_SEQ - liveFld s Fld.SEC_AUDIT_ACKED_SEQ) && liveFld s Fld.SEC_CTRL_AUDIT_WRAP == 0

/-- The slot that runs. -/
def runningSlot (s : State) : FwSlot := nth s.sec.slots (liveFld s Fld.SEC_STATUS_RUNNING_SLOT) {}

/-- Whether none of the conditions of R480 holds; GLITCH_EN 0 leaves the certified configuration too (R506, R511). -/
def isCertified (s : State) : Bool :=
  liveFld s Fld.SEC_CTRL_CERT_MODE == 1 && s.sec.owner.isSome && s.sec.scopes == 0 && !(runningSlot s).dev &&
    (!s.pair.capable || s.sec.partner.isSome) && liveFld s Fld.SEC_CTRL_AUDIT_WRAP == 0 &&
    decide (liveFld s Fld.SEC_CTRL_SESSION_IDLE ≤ 3600) && s.sys.st != .recovery && !s.sec.rngFailed && fld s Fld.SEC_CTRL_GLITCH_EN == 1

/-- A change of CERTIFIED is reported and audited (R480). -/
def noteCertified (s : State) : State :=
  let c := isCertified s
  if s.sec.certified = c then s
  else audit (raise { s with sec := { s.sec with certified := c } } 0x0C01 0 (bit c)) 0x0C01 0 (bit c)

/-- A module-side reset of a channel (R392): every message without a reply is ABORTED. The record of R393 stays unless the
start clears it. -/
def moduleReset (s : State) (k : Nat) : State :=
  let s := setMbx s k fun m => { m with inbox := [], pending := false, out := none, queue := [], flight := [] }
  let s := doorbell (doorbell (sticky s Fld.MBX_STATUS_ABORTED k) (chanBit k)) 21
  raise s 0x1102 (chanBit k) 2

/-- A firmware load that is cut short leaves its slot not valid (R497). -/
def dropLoad (s : State) : State :=
  match s.sec.load with
  | some l => { s with host := { s.host with transfers := s.host.transfers.filter (·.num != l.transfer) },
                       sec := { s.sec with load := none, slots := upd s.sec.slots l.slot fun x => { x with valid := false } } }
  | none => s

/-- A session ends with its cause (R490): its keys are wiped, and except at SESSION_CLOSE the channel is reset. -/
def endSecure (s : State) (k cause : Nat) : State :=
  if k < 4 ∨ (secSession s k).stage ≠ 2 then s
  else
    let s := audit (raise s 0x0C03 (chanBit k) cause) 0x0C03 k cause
    let s := setSession (setMbx s k fun m => { m with secure := false }) k fun _ => {}
    let s := match s.sec.load with | some l => if l.chan = k then dropLoad s else s | none => s
    if cause = 1 then s else moduleReset s k

/-- The GCM nonce of a direction's message number: its IV prefix, at byte 64 or 68 of the keys, and the number (R489). -/
def gcmNonce (keys : List Byte) (prefixAt n : Nat) : List Byte := bytesAt keys prefixAt 4 ++ leBytes 8 n

/-- The encrypted payload of reply number n and the tag over it and header bytes 0 to 11 (R489). -/
def sealReply (keys : List Byte) (n : Nat) (r : Reply) : List Byte × List Byte :=
  let key := bytesAt keys 32 32
  let nonce := gcmNonce keys 68 n
  let c := bytesAt (Config.gcmCipher key nonce r.payload) 0 r.payload.length
  (c, leBytes 16 (Config.gcmTag key nonce (replyFront r) c))

/-- The reply in a secure channel's outbound mailbox takes its tag field: the seal of R489 under the session's next number, or zeros when
no session is open or its message came before this one opened (R487). -/
def sealOut (s : State) (k : Nat) : State :=
  match (mbx s k).out with
  | none => s
  | some r =>
    if k < 4 then s
    else if (secSession s k).stage ≠ 2 ∨ (mbx s k).plain ≠ 0 then setMbx s k fun m => { m with gcm := none, plain := m.plain - 1 }
    else setMbx s k fun m => { m with gcm := some (sealReply (secSession s k).keys (m.sent + 1) r), sent := m.sent + 1 }

/-- The notice that the outbound mailbox of a channel filled: its doorbell bit (R396) and REPLY over Ethernet (R377). -/
def outFilled (s : State) (k : Nat) : State :=
  let s := doorbell (sealOut s k) (chanBit k)
  if s.sys.ethernet ∨ s.rst.both then
    match outBytes (mbx s k) k with
    | some bs => sendDatagram s 4 (chanBit k) bs
    | none => s
  else s

/-- Move a channel's ready replies out (R387). -/
def pump (s : State) (k : Nat) : State :=
  let m := mbx s k
  let (fl, out, q, filled) := pumpFlights m.flight m.out m.queue false
  let s := setMbx s k fun m => { m with flight := fl, out := out, queue := q }
  if filled then outFilled s k else s

/-- Put a reply to the message with this tag, executing on a channel. A state-changing message is recorded (R393); while the
unit is ACTIVE and the message changed state, the reply waits for the record that carries it (R339), but for EVT.FILTER (R410). -/
def answer (s : State) (k tag : Nat) (changes : Bool) (r : MsgRes) : State :=
  match (mbx s k).flight.find? (fun f => f.tag == tag && f.reply.isNone) with
  | none => s
  | some fl =>
    let rep : Reply := { cls := fl.cls, op := fl.op, tag := tag, result := r.result, detail := r.detail, payload := r.payload }
    let held := changes && !(fl.cls == 0x0B && fl.op == 0x12) && (r.result == 0 || r.result == 11) && decide (s.pair.role = .active)
    let s := setMbx s k fun m =>
      { m with
        flight := m.flight.map fun f => if f.tag = tag ∧ f.reply.isNone then
          { f with reply := some rep, hold := if held then some s.time.pick else none } else f
        recent := if changes then lastN 8 (m.recent ++ [⟨tag, rep⟩]) else m.recent }
    pump s k

/-- The opcodes each class knows (R406, R410, R441). -/
def knownOp (cls op : Nat) : Bool :=
  match cls with
  | 0x01 => op == 1 || op == 2 || (0x10 ≤ op && op ≤ 0x14)
  | 0x02 => op == 1 || op == 2 || (0x10 ≤ op && op ≤ 0x16)
  | 0x03 => op == 1 || op == 2 || (0x10 ≤ op && op ≤ 0x16)
  | 0x04 => op == 1 || op == 2 || (0x10 ≤ op && op ≤ 0x14)
  | 0x05 => op == 1 || op == 2 || (0x10 ≤ op && op ≤ 0x15)
  | 0x06 => op == 1 || op == 2 || (0x10 ≤ op && op ≤ 0x14)
  | 0x07 => op == 1 || op == 2 || (0x10 ≤ op && op ≤ 0x15)
  | 0x08 => op == 1 || op == 2 || (0x10 ≤ op && op ≤ 0x15)
  | 0x09 => op == 1 || op == 2 || (0x10 ≤ op && op ≤ 0x14)
  | 0x0A => op == 1 || op == 2 || (0x10 ≤ op && op ≤ 0x13)
  | 0x0B => op == 1 || op == 2 || (0x10 ≤ op && op ≤ 0x12)
  | 0x0C => op == 1 || op == 2 || (0x10 ≤ op && op ≤ 0x13)
  | 0x0F => 0x10 ≤ op && op ≤ 0x1E
  | _ => false

/-- The firmware-update messages of SEC in RECOVERY (R395, R492). -/
def recoverySec (op : Nat) : Bool := 0x10 ≤ op && op ≤ 0x17

/-- A message of S0 or S1 taken: the idle time starts again and the session's message number grows (R489, R490). -/
def touchSec (s : State) (k : Nat) : State :=
  if k < 4 ∨ (secSession s k).stage ≠ 2 then s else setSession s k fun x => { x with last := now s, taken := x.taken + 1 }

/-- Whether the next message of a session would have number 2^32 (R490). -/
def numbersSpent (s : State) (k : Nat) : Bool :=
  decide (4 ≤ k) && (secSession s k).stage == 2 && decide (2 ^ 32 ≤ (secSession s k).taken + 1)

/-- Whether the channel and class may be used in the device state (R395). -/
def permitted (s : State) (k cls op : Nat) : Bool :=
  if s.sys.st = .recovery then
    (k == 0 || k == 4) && (cls == 0x01 || cls == 0x0A || (cls == 0x0F && k == 4 && recoverySec op))
  else true

/-- The tags of a channel still awaiting their replies (R386), until the host has released them. -/
def tagBusy (m : Mbx) (tag : Nat) : Bool :=
  m.flight.any (·.tag == tag) || m.queue.any (·.tag == tag) || (match m.out with | some r => r.tag == tag | none => false)

/-- The checks of R386 after the CRC, in their order: the result of the first that fails, or 0. `sealed` tells that an S0 or
S1 message came under an open session's keys, or is one of the set-up messages that need none (R487). -/
def takeCheck (s : State) (k cls op tag : Nat) (isSealed : Bool) : Nat :=
  if 4 ≤ k ∧ !isSealed then 7
  else if cls = 0x0F ∧ k < 4 then 7
  else if cls ≠ 0x0F ∧ 4 ≤ k ∧ (secSession s k).unowned then 7
  else if !permitted s k cls op then 5
  else if tagBusy (mbx s k) tag then 4
  else if !knownOp cls op then 2
  else 0

/-- R388: a message on a channel with five outstanding is taken and discarded; in a session it uses its number (log 13). -/
def busyReject (s : State) (k tag : Nat) : State :=
  let s := touchSec s k
  let ev := (mbx s k).busyEv
  let s := bump s Fld.MBX_REJECTS_BUSY_REJECTS k
  let s := setMbx s k fun m => { m with rejectTag := tag, busyEv := true }
  let s := doorbell (sticky s Fld.MBX_STATUS_BUSY_REJECT k) 22
  if ev then s else raise s 0x1101 (chanBit k) tag

/-- A frame error counted, with its event at most once per pick for each channel (R386, R405). -/
def frameError (s : State) (k result tag : Nat) : State :=
  let ev := (mbx s k).frameEv
  let s := bump s Fld.MBX_FRAME_ERR_FRAME_ERRORS k
  let s := setMbx s k fun m => { m with frameEv := true }
  if ev then s else raise s 0x1104 (chanBit k) (result + 2 ^ 16 * tag)

/-- A message enters execution. -/
def enterFlight (s : State) (k cls op tag : Nat) : State :=
  setMbx s k fun m => { m with flight := m.flight ++ [{ cls := cls, op := op, tag := tag }] }

/-- A message in execution is acted on: the comparison of R393, the role's refusal of R341, then its action. -/
def runMessage (s : State) (k tag : Nat) (changes exempt : Bool) (act : State → State × MsgRes) : State :=
  let m := mbx s k
  match (if m.comparing then m.recent.find? (·.tag == tag) else none) with
  | some rec =>
    pump (setMbx s k fun m => { m with flight := m.flight.map fun f =>
      if f.tag = tag ∧ f.reply.isNone then { f with reply := some { rec.reply with isRepeat := true } } else f }) k
  | none =>
    let s := setMbx s k fun m => { m with comparing := false }
    if changes ∧ s.pair.role = .standby ∧ !exempt then answer s k tag false ⟨13, 0, [], false⟩
    else
      let (s, r) := act s
      if r.later then s else answer s k tag changes r

/-- Whether the message pending in an inbound mailbox is the one with this class, opcode and tag (R384). -/
def pendingIs (m : Mbx) (cls op tag : Nat) : Bool :=
  m.pending && leAt m.inbox 2 1 == op && leAt m.inbox 3 1 == cls && leAt m.inbox 4 2 % 2 == 0 && leAt m.inbox 6 2 == tag

/-- A taken message refused by a check of R386: its reply, in turn. -/
def refuseTaken (s : State) (k cls op tag result : Nat) : State :=
  let s := if result = 3 ∨ result = 10 ∨ result = 7 then frameError s k result tag else s
  let rep : Reply := { cls := cls, op := op, tag := tag, result := result }
  pump (setMbx s k fun m => { m with flight := m.flight ++ [{ cls := cls, op := op, tag := tag, reply := some rep }] }) k

/-- A message taken is counted (R404, R489). -/
def countTaken (s : State) (k : Nat) : State :=
  bump (setMbx (touchSec s k) k fun m => { m with servedAt := some s.time.pick }) Fld.MBX_TAKEN_MESSAGES_TAKEN k

/-- The module takes the pending message, which empties the inbound mailbox (R385). -/
def takePending (s : State) (k : Nat) : State :=
  countTaken (setMbx s k fun m => { m with pending := false, inbox := [] }) k

/-- Whether a message needs no open session on S0 or S1: the set-up messages of SEC (R487, R488). -/
def setupOp (cls op : Nat) : Bool := cls == 0x0F && 0x10 ≤ op && op ≤ 0x14

/-- Whether the control cores take a message on the channel now (R549): from level 3 each channel at most once per pick, at level 4
only N0 and S0. -/
def takesNow (s : State) (k : Nat) : Bool :=
  (decide (throttle s < 4) || k == 0 || k == 4) && (decide (throttle s < 3) || (mbx s k).servedAt != some s.time.pick)

/-- A message posted that throttling leaves pending: the part of its header that names it (R384). -/
def leavePending (s : State) (k cls op tag : Nat) : State :=
  setMbx s k fun m => { m with pending := true, inbox := leBytes 2 0 ++ leBytes 1 op ++ leBytes 1 cls ++ leBytes 2 0 ++ leBytes 2 tag }

/-- One message on channel k from its taking to its reply. A message that a doorbell post left pending (R385) is taken here;
a message while another is pending is a write that the module ignores; otherwise the message is posted and taken at once, with
R388 and the checks of R386. Nothing takes a message while the firmware does not run. -/
def message (s : State) (k cls op tag : Nat) (changes exempt : Bool) (act : State → State × MsgRes) : State :=
  if !serving s then s
  else if pendingIs (mbx s k) cls op tag then
    if !takesNow s k then s
    else runMessage (enterFlight (takePending s k) k cls op tag) k tag changes exempt act
  else if (mbx s k).pending then sticky s Fld.MBX_STATUS_IGNORED_WRITE k
  else if !takesNow s k then leavePending s k cls op tag
  else if numbersSpent s k then endSecure s k 4
  else if 5 ≤ outstanding (mbx s k) then busyReject s k tag
  else
    let s := countTaken s k
    let e := takeCheck s k cls op tag ((mbx s k).secure || setupOp cls op)
    if e = 0 then runMessage (enterFlight s k cls op tag) k tag changes exempt act
    else refuseTaken s k cls op tag e

end Sys2Proof.Machine
end

