-- ==== Sys2Proof/Machine/Reed.lean ====
section
/-!
DEFINITION. Head geometry (R185 to R188): the rows of each chain, their selvedge zones, and the reed table built from them,
with the 64-bit layout of an entry (R189) and the stitch masks (R190, R191).
-/
namespace Sys2Proof.Machine

/-- The head type record of an identifier in a set. -/
def setType (c : CfgSet) (t : Nat) : Option HeadType := (c.types.find? (·.1 == t)).map (·.2)

/-- The placement of a head in a set. -/
def setPlace (c : CfgSet) (h : Nat) : Option Placement := (c.places.find? (·.1 == h)).map (·.2)

/-- A record table with one record written, in identifier order. -/
def tableSet {α : Type} : List (Nat × α) → Nat → α → List (Nat × α)
  | [], k, v => [(k, v)]
  | (k', v') :: rest, k, v =>
    if k < k' then (k, v) :: (k', v') :: rest
    else if k = k' then (k, v) :: rest else (k', v') :: tableSet rest k v

/-- The reset energy table of R208: entry 0 without drive, the others waveform 1 at unit amplitude and width. -/
def energyReset : List Nat := 0 :: List.replicate 7 0x808001

/-- The energy table of a head type in a set: eight entries of WAVEFORM, AMPLITUDE, WIDTH in bytes 0 to 2. -/
def setEnergy (c : CfgSet) (t : Nat) : List Nat := ((c.energy.find? (·.1 == t)).map (·.2)).getD energyReset

/-- A head row assigned to a channel, with the columns it covers and the nozzle at its lowest column. -/
structure ChainRow where
  head   : Nat
  place  : Placement
  type   : HeadType
  rowB   : Bool
  lo     : Int
  hi     : Int
  zoneLo : Bool := false
  zoneHi : Bool := false
  deriving DecidableEq, Repr

/-- The column of nozzle n of a row (R186, R188). -/
def rowColumn (p : Placement) (t : HeadType) (rowB : Bool) (n : Int) : Int :=
  (if p.desc then p.x - n else p.x + n) + (if rowB then t.shiftB else 0)

/-- The nozzle of a row at a column. -/
def rowNozzle (p : Placement) (t : HeadType) (rowB : Bool) (x : Int) : Int :=
  let x' := x - (if rowB then t.shiftB else 0)
  if p.desc then p.x - x' else x' - p.x

/-- One head row with its columns held to 0 to 106,495 (R188). -/
def chainRow (h : Nat) (p : Placement) (t : HeadType) (rowB : Bool) : ChainRow :=
  let a := rowColumn p t rowB p.first
  let b := rowColumn p t rowB p.last
  { head := h, place := p, type := t, rowB := rowB, lo := max (min a b) 0, hi := min (max a b) 106495 }

/-- Insertion of a row by its lowest column. -/
def insertRow (r : ChainRow) : List ChainRow → List ChainRow
  | [] => [r]
  | x :: xs => if r.lo ≤ x.lo then r :: x :: xs else x :: insertRow r xs

/-- Rows in order of their lowest column (R188). -/
def sortRows (rs : List ChainRow) : List ChainRow := rs.foldr insertRow []

/-- The head rows of a channel: those of row A and those of row B. -/
def channelRows (c : CfgSet) (ch : Nat) (rowB : Bool) : List ChainRow :=
  sortRows (c.places.filterMap fun (h, p) =>
    if (if rowB then p.chanB else p.chanA) = some ch then
      match setType c p.type with
      | some t => let r := chainRow h p t rowB
                  if r.lo ≤ r.hi then some r else none
      | none => none
    else none)

/-- How a channel uses its heads (R187): 0 not at all, 1 single-row, 2 double-row, 3 mixed. -/
def channelKind (c : CfgSet) (ch : Nat) : Nat :=
  let used := c.places.filter fun (_, p) => p.chanA = some ch ∨ p.chanB = some ch
  let both := used.filter fun (_, p) => p.chanA = some ch ∧ p.chanB = some ch
  if used.isEmpty then 0 else if both.isEmpty then 1 else if both.length = used.length then 2 else 3

/-- The chains of a channel (R187): one of all rows in a single-row channel, chains A and B in a double-row channel. -/
def channelChains (c : CfgSet) (ch : Nat) : List (List ChainRow) :=
  if channelKind c ch = 2 then [channelRows c ch false, channelRows c ch true]
  else [sortRows (channelRows c ch false ++ channelRows c ch true)]

/-- A failing check of SET.VALIDATE (R421, R422): its failure code and the objects it names. -/
structure Failure where
  code : Nat
  kind : Nat := 0
  obj  : Nat := 0
  kind2 : Nat := 0
  obj2 : Nat := 0
  deriving DecidableEq, Repr

/-- Steps 2 and 3 of R188 along a chain from row `a` on: the trim of each adjacent pair to exactly `sw` columns of
overlap. -/
def trimFrom (sw : Int) (a : ChainRow) : List ChainRow → Except Failure (List ChainRow)
  | [] => .ok [a]
  | b :: rest =>
    let o := a.hi - b.lo + 1
    if o < sw then .error ⟨9, 3, a.head, 3, b.head⟩
    else
      let cut := (o - sw) / 2
      let a' := { a with hi := a.hi - cut, zoneHi := true }
      let b' := { b with lo := b.lo + (o - sw - cut), zoneLo := true }
      match trimFrom sw b' rest with
      | .ok rows => .ok (a' :: rows)
      | .error e => .error e

/-- The trim of a whole chain (R188). -/
def trimChain (sw : Int) : List ChainRow → Except Failure (List ChainRow)
  | [] => .ok []
  | a :: rest => trimFrom sw a rest

/-- Step 4 of R188: a row keeps room for its zones. -/
def zonesFit (sw : Int) (r : ChainRow) : Bool :=
  decide (r.lo ≤ r.hi) && decide (sw * (bit r.zoneLo + bit r.zoneHi : Nat) ≤ r.hi - r.lo + 1)

/-- One reed table entry over columns `lo` to `hi` of a row (R188 steps 5 and 6, R189). -/
def reedEntry (ch sw defMask : Nat) (r : ChainRow) (lo hi : Int) : ReedEntry :=
  { first := lo.toNat, span := (hi - lo + 1).toNat, hub := r.place.hub, port := r.place.port,
    nozzle := (rowNozzle r.place r.type r.rowB lo).toNat, desc := r.place.desc, chan := ch,
    mask := if r.zoneHi ∧ r.place.maskEn then r.place.mask else defMask,
    enable := true, rowB := r.rowB,
    lead := r.zoneLo && decide (lo < r.lo + sw), trail := r.zoneHi && decide (r.hi - sw < hi),
    head := r.head }

/-- The entries of a row, split at its 4,095th column (R188 step 5). -/
def rowEntries (ch sw defMask : Nat) (r : ChainRow) : List ReedEntry :=
  if r.hi - r.lo + 1 ≤ 4095 then [reedEntry ch sw defMask r r.lo r.hi]
  else [reedEntry ch sw defMask r r.lo (r.lo + 4094), reedEntry ch sw defMask r (r.lo + 4095) r.hi]

/-- Steps 2 to 6 of R188 for one chain of a channel. -/
def buildChain (ch sw defMask : Nat) (rows : List ChainRow) : Except Failure (List ReedEntry) :=
  match trimChain sw rows with
  | .error e => .error e
  | .ok rows =>
    match rows.find? fun r => !zonesFit sw r with
    | some r => .error ⟨10, 3, r.head, 0, 0⟩
    | none => .ok (rows.flatMap (rowEntries ch sw defMask))

/-- Step 1 of R188 for one placement, with the hubs enabled; true when it may stand. -/
def placementOk (c : CfgSet) (hubOn : Nat → Bool) (p : Placement) : Bool :=
  match setType c p.type with
  | none => false
  | some t => hubOn p.hub && !(decide (t.rows = 1) && p.chanB.isSome) && decide (p.first ≤ p.last) &&
      decide (p.last < t.nozzles)

/-- The columns a chain reaches. -/
def chainSpan (rows : List ChainRow) : Int × Int :=
  (rows.foldl (fun a r => min a r.lo) 106496, rows.foldl (fun a r => max a r.hi) (-1))

/-- The reed entries of one channel, or its failing check (R187, R188). -/
def buildChannel (c : CfgSet) (ch : Nat) : Except Failure (List ReedEntry) :=
  let sw := bankGet c.regs Fld.WFT_CFG_SELVEDGE_WIDTH ch
  let m := bankGet c.regs Fld.WFT_CFG_STITCH_MASK ch
  let chains := channelChains c ch
  if channelKind c ch = 3 then .error ⟨12, 1, ch, 0, 0⟩
  else if channelKind c ch = 2 ∧ (chains.map chainSpan).dedup.length ≠ 1 then .error ⟨12, 1, ch, 0, 0⟩
  else
    chains.foldl (fun acc rows =>
      match acc with
      | .error e => .error e
      | .ok es => match buildChain ch sw m rows with
        | .error e => .error e
        | .ok es' => .ok (es ++ es')) (.ok [])

/-- The reed table of a set, or the first failing check (R188). -/
def buildReed (c : CfgSet) (hubOn : Nat → Bool) : Except Failure (List ReedEntry) :=
  match c.places.find? fun (_, p) => !placementOk c hubOn p with
  | some (h, _) => .error ⟨19, 3, h, 0, 0⟩
  | none =>
    (List.range 16).foldl (fun acc ch =>
      match acc with
      | .error e => .error e
      | .ok es => match buildChannel c ch with
        | .error e => .error e
        | .ok es' => if 4096 < es.length + es'.length then .error ⟨11, 1, ch, 0, 0⟩ else .ok (es ++ es')) (.ok [])

/-- The 64-bit layout of an entry (R189). -/
def reedWord (e : ReedEntry) : Nat :=
  e.first * 2 ^ 47 + e.span * 2 ^ 35 + e.hub * 2 ^ 30 + e.port * 2 ^ 25 + e.nozzle * 2 ^ 13 + bit e.desc * 2 ^ 12 +
  e.chan * 2 ^ 8 + e.mask * 2 ^ 4 + bit e.enable * 8 + bit e.rowB * 4 + bit e.lead * 2 + bit e.trail

/-- Whether an entry covers a column. -/
def entryHas (e : ReedEntry) (x : Nat) : Bool := decide (e.first ≤ x) && decide (x < e.first + e.span)

/-- The nozzle of an entry at a column (R189). -/
def entryNozzle (e : ReedEntry) (x : Nat) : Nat := if e.desc then e.nozzle - (x - e.first) else e.nozzle + (x - e.first)

/-- Bit m of stitch mask `mask` at (j, r) (R191); masks 4 to 15 from the set. -/
def stitchBit (regs : Bank) (mask j r : Nat) : Bool :=
  match mask with
  | 0 => decide (j < 128)
  | 1 => decide (255 - j > (5 * j + 11 * r) % 16 * 16 + 8)
  | 2 => (j + r) % 2 == 0
  | 3 => r % 2 == 0
  | m => (bankReg regs .WFT_MASK m 0).testBit (r * 256 + j)

end Sys2Proof.Machine
end

