-- ==== Sys2Proof/Machine/Render.lean ====
section
/-!
DEFINITION. From source pixel to nozzle code (chapters 06 and 07): repeat addressing (R173), correction and tone (R176),
screening (R183), selvedge zones (R190), routing and raising (R193 to R196), history and energy indices (R211, R216), line
cost and FIFO depth (R198, R199), tile edges (R619) and drop units (R207, R223).
-/
namespace Sys2Proof.Machine

/-- A source pixel of R173, or BLANK. -/
inductive Source where
  | blank
  | pixel (col line stream : Nat)
  deriving DecidableEq, Repr

/-- The lines by which odd tile columns are shifted (R174). -/
def dropOf (r : Repeat) (h : Nat) : Nat := if r.drop = 0xFFFFFFFF then h / 2 else r.drop

/-- The columns by which odd tile rows are shifted (R174). -/
def shiftOf (r : Repeat) (w : Nat) : Nat := if r.shift = 0xFFFFFFFF then w / 2 else r.shift

/-- source(x, y) of R173; `sx`, `sy` are the replication factors, `w`, `h` the image's size. -/
def sourceOf (r : Repeat) (w h sx sy : Nat) (x y : Int) : Source :=
  let u := (x - r.originX) / (sx : Int)
  let v := y / (sy : Int)
  match r.mode with
  | 0 => if u < 0 ∨ (w : Int) ≤ u ∨ (h : Int) ≤ v then .blank else .pixel u.toNat v.toNat 0
  | 1 => .pixel (u % w).toNat (v % h).toNat 0
  | 2 =>
    let s := (u / w) % 2
    .pixel (u % w).toNat ((v + s * (dropOf r h : Int)) % h).toNat s.toNat
  | _ =>
    let b := (v / h) % 2
    .pixel ((u + b * (shiftOf r w : Int)) % w).toNat (v % h).toNat 0

/-- The image line that a fetch stream reads for a job line (R171, R173); none where NONE has run out. -/
def streamLine (r : Repeat) (h sy stream : Nat) (y : Int) : Option Nat :=
  let v := y / (sy : Int)
  match r.mode with
  | 0 => if v < 0 ∨ (h : Int) ≤ v then none else some v.toNat
  | 2 => some ((v + (stream : Int) * (dropOf r h : Int)) % h).toNat
  | _ => some (v % h).toNat

/-- The bytes of one image line (R169). -/
def lineBytes (format width : Nat) : Nat := if format = 0 then width else ceilDiv width 4

/-- A pixel of a line: its contone byte, or its 2-bit code (R169). -/
def pixelAt (format : Nat) (bs : List Byte) (col : Nat) : Nat :=
  if format = 0 then ((bs[col]?).getD 0).toNat else ((bs[col / 4]?).getD 0).toNat / 4 ^ (col % 4) % 4

/-- The corrected value of R176: tone curve, then the column's GAIN (1.7) and OFFSET (signed). -/
def correct (tone gain offset : Nat) : Nat :=
  let g : Int := ((tone * gain + 64) / 128 : Nat)
  (min 255 (max 0 (g + signedOf 8 offset))).toNat

/-- The dot code of R183 against one cell's thresholds. -/
def screenCode (cell c : Nat) : Nat :=
  if c > bitsOf cell 16 8 then 3 else if c > bitsOf cell 8 8 then 2 else if c > bitsOf cell 0 8 then 1 else 0

/-- The cell number of column x and job line y (R183). -/
def cellIndex (regs : Bank) (ch : Nat) (x : Nat) (y : Int) : Nat :=
  let tw := bankGet regs Fld.WFT_SCREEN_TILE_W ch
  let th := bankGet regs Fld.WFT_SCREEN_TILE_H ch
  let i := (x + bankGet regs Fld.WFT_SCREEN_SHIFT_X ch) % tw
  let j := ((y + (bankGet regs Fld.WFT_SCREEN_SHIFT_Y ch : Int)) % (th : Int)).toNat
  j * tw + i

/-- What a fetch stream offers a line: verified bytes, or a substitution that sends its columns blank (R163). -/
inductive StreamLine where
  | bytes (bs : List Byte)
  | blank
  deriving DecidableEq, Repr

/-- The dot code of one column before placement (R173, R176, R177, R183). -/
def columnCode (c : CfgSet) (corr : Bank) (ch : Nat) (rep : Repeat) (w h : Nat) (streams : Nat → StreamLine)
    (y : Int) (x : Nat) : Nat :=
  let fmt := bankGet c.regs Fld.WFT_CFG_INPUT_FORMAT ch
  let sx := bankGet c.regs Fld.WFT_CFG_SCALE_X ch + 1
  let sy := bankGet c.regs Fld.WFT_CFG_SCALE_Y ch + 1
  let contone (v : Nat) : Nat :=
    let t := bankGet c.regs Fld.WFT_TONE_TONE (256 * ch + v)
    let e := correct t (bankGet corr Fld.WFT_CORR_GAIN ch x) (bankGet corr Fld.WFT_CORR_OFFSET ch x)
    screenCode (bankGet c.regs Fld.WFT_CELL_T1_T2_T3 ch (cellIndex c.regs ch x y)) e
  match sourceOf rep w h sx sy x y with
  | .blank => if fmt = 0 then contone 0 else 0
  | .pixel col _ stream =>
    match streams stream with
    | .blank => 0
    | .bytes bs => if fmt = 0 then contone (pixelAt 0 bs col) else pixelAt 1 bs col

/-- A candidate nozzle for a column. -/
structure Nozzle where
  head   : Nat
  hub    : Nat
  port   : Nat
  rowB   : Bool
  nozzle : Nat
  deriving DecidableEq, Repr

/-- The nozzle of an entry at a column. -/
def nozzleOf (e : ReedEntry) (x : Nat) : Nozzle := ⟨e.head, e.hub, e.port, e.rowB, entryNozzle e x⟩

/-- The lowest column of an entry's row among a chain's entries (R188). -/
def rowLow (entries : List ReedEntry) (e : ReedEntry) : Nat :=
  (entries.filter fun x => x.head == e.head && x.rowB == e.rowB).foldl (fun a x => Nat.min a x.first) e.first

/-- The nozzles of one chain at a column, the one R190 chooses first: in a zone, the stitch mask of the lower row picks
between the two heads. The lower row is the one that begins lower, and of two that begin together the one whose entry has no zone at
its low end. `entries` are the chain's enabled entries. -/
def chainChoice (regs : Bank) (sw : Nat) (entries : List ReedEntry) (x : Nat) (y : Int) : List Nozzle :=
  match entries.filter (fun e => entryHas e x) with
  | [] => []
  | [e] => [nozzleOf e x]
  | a :: b :: _ =>
    let la := rowLow entries a
    let lb := rowLow entries b
    let (low, high) := if la < lb ∨ (la = lb ∧ !a.lead) then (a, b) else (b, a)
    let k := x - Nat.max la lb
    let j := if sw = 0 then 0 else k * 256 / sw
    if stitchBit regs low.mask j (y % 16).toNat then [nozzleOf low x, nozzleOf high x]
    else [nozzleOf high x, nozzleOf low x]

/-- A nozzle's state in the nozzle state map (R192): 0 OK, 1 WEAK, 2 OUT, 3 MASKED. -/
def nozzleState (live : Bank) (n : Nozzle) : Nat := bankGet live Fld.WFT_NOZZLE_STATE (2 * n.head + bit n.rowB) n.nozzle

/-- Whether a nozzle is usable (R193). -/
def nozzleUsable (live : Bank) (weakOut : Bool) (n : Nozzle) : Bool :=
  let st := nozzleState live n
  st == 0 || (st == 1 && !weakOut)

/-- The nozzles a column may print through, in the order of R190, R193 steps 1 and 2, and R195. -/
def columnChoices (c : CfgSet) (ch : Nat) (x : Nat) (y : Int) : List Nozzle :=
  let sw := bankGet c.regs Fld.WFT_CFG_SELVEDGE_WIDTH ch
  let mine := c.reed.filter fun e => e.chan == ch && e.enable
  if channelKind c ch = 2 then
    let a := chainChoice c.regs sw (mine.filter (!·.rowB)) x y
    let b := chainChoice c.regs sw (mine.filter (·.rowB)) x y
    if bankGet c.regs Fld.WFT_CFG_ROW_SHARE ch = 1 ∧ y % 2 = 1 then b ++ a else a ++ b
  else chainChoice c.regs sw mine x y

/-- A column of a line under placement: its code, the nozzle it prints through, and whether that is the chosen one. -/
structure Placed where
  code   : Nat
  want   : Nat
  target : Option Nozzle
  routed : Bool
  deriving DecidableEq, Repr

/-- R190 and steps 1 and 2 of R193 for one column. -/
def placeColumn (c : CfgSet) (live : Bank) (ch : Nat) (x : Nat) (y : Int) (code : Nat) : Placed :=
  let opts := columnChoices c ch x y
  let weak := bankGet c.regs Fld.WFT_CFG_WEAK_AS_OUT ch == 1
  match opts with
  | [] => ⟨0, 0, none, false⟩
  | first :: _ =>
    match opts.find? (nozzleUsable live weak) with
    | some n => ⟨code, 0, some n, code != 0 && n != first⟩
    | none => ⟨0, code, none, false⟩

/-- One raise step on one side of a lost dot (R194): `reach` columns outward at most; none when it is lost. -/
def raiseStep (cols : List Placed) (i : Nat) (up : Bool) : Nat → Nat → Option (List Placed)
  | _, 0 => none
  | d, n + 1 =>
    if !up ∧ i < d then none
    else
      let k := if up then i + d else i - d
      match cols[k]? with
      | none => none
      | some p =>
        if p.target.isSome ∧ p.code < 3 then some (cols.set k { p with code := p.code + 1 })
        else raiseStep cols i up (d + 1) n

/-- The sides of the raises of a lost dot (R194); true is the higher column. -/
def raiseSides (code : Nat) (y : Int) : List Bool :=
  let chosen := decide (y % 2 = 1)
  match code with
  | 1 => [chosen]
  | 2 => [false, true]
  | _ => [false, true, chosen]

/-- Step 3 and 4 of R193 over the lost dots in ascending column order: the columns, dots routed and steps lost. -/
def raiseLost (on : Bool) (reach : Nat) (y : Int) : Nat → Nat → List Placed → Nat → Nat → List Placed × Nat × Nat
  | 0, _, cols, routed, lost => (cols, routed, lost)
  | n + 1, i, cols, routed, lost =>
    match cols[i]? with
    | none => (cols, routed, lost)
    | some p =>
      if p.want = 0 then raiseLost on reach y n (i + 1) cols routed lost
      else if !on then raiseLost on reach y n (i + 1) cols routed (lost + 1)
      else
        let (cols, lost) := (raiseSides p.want y).foldl (fun (a : List Placed × Nat) up =>
          match raiseStep a.1 i up 1 reach with
          | some cols => (cols, a.2)
          | none => (a.1, a.2 + 1)) (cols, lost)
        raiseLost on reach y n (i + 1) cols (routed + 1) lost

/-- The columns a channel's enabled entries reach: the lowest and how many (R198). -/
def channelSpan (c : CfgSet) (ch : Nat) : Nat × Nat :=
  let mine := c.reed.filter fun e => e.chan == ch && e.enable
  if mine.isEmpty then (0, 0)
  else
    let lo := mine.foldl (fun a e => Nat.min a e.first) 106496
    let hi := mine.foldl (fun a e => Nat.max a (e.first + e.span)) 0
    (lo, hi - lo)

/-- The head rows of a channel: (head, placement, row B) (R197). -/
def headRows (c : CfgSet) (ch : Nat) : List (Nat × Placement × Bool) :=
  c.places.flatMap fun (h, p) =>
    (if p.chanA = some ch then [(h, p, false)] else []) ++ (if p.chanB = some ch then [(h, p, true)] else [])

/-- A line rendered into the codes of each head row (R197), with the dots routed and the steps lost. -/
def renderLine (c : CfgSet) (live : Bank) (ch : Nat) (rep : Repeat) (w h : Nat) (streams : Nat → StreamLine)
    (y : Int) : List RowDots × Nat × Nat :=
  let (lo, p) := channelSpan c ch
  let cols := (List.range p).map fun i =>
    placeColumn c live ch (lo + i) y (columnCode c live ch rep w h streams y (lo + i))
  let routed := cols.countP (·.routed)
  let on := bankGet c.regs Fld.WFT_CFG_SUB_NEIGHBOUR ch == 1
  let reach := bankGet c.regs Fld.WFT_CFG_SUB_REACH ch + 1
  let (cols, routed, lost) := raiseLost on reach y p 0 cols routed 0
  let rows := (headRows c ch).map fun (hd, pl, b) =>
    { head := hd, hub := pl.hub, port := pl.port, rowB := b,
      dots := cols.filterMap fun q => match q.target with
        | some n => if n.head = hd ∧ n.rowB = b ∧ q.code ≠ 0 then some (n.nozzle, q.code) else none
        | none => none : RowDots }
  (rows, routed, lost)

/-- The dots of a line by (2 head + row, nozzle), the form the history keeps. -/
def dotKeys (rows : List RowDots) : List (Nat × Nat) := rows.flatMap fun r => r.dots.map fun d => (2 * r.head + bit r.rowB, d.1)

/-- Whether a nozzle was sent a drop on any of the `depth` lines before (R216); `hist` newest first. -/
def wasHot (hist : List (List (Nat × Nat))) (depth head : Nat) (rowB : Bool) (n : Nat) : Bool :=
  (hist.take depth).any fun l => l.contains (2 * head + bit rowB, n)

/-- The energy index of a nozzle on the history path (R216). -/
def energyIndex (hot : Bool) (code : Nat) : Nat := if code = 0 then 0 else 2 * code + bit hot

/-- The drop units of a code (R207). -/
def dropUnits (code : Nat) : Nat := match code with | 1 => 1 | 2 => 2 | 3 => 4 | _ => 0

/-- The drop units of one row's dots. -/
def rowUnits (dots : List (Nat × Nat)) : Nat := (dots.map fun d => dropUnits d.2).sum

/-- The ink of one row's dots in 0.01 pl (R206, R223). -/
def rowInk (t : HeadType) (dots : List (Nat × Nat)) : Nat :=
  (dots.map fun d => match d.2 with | 1 => t.volSmall | 2 => t.volMedium | 3 => t.volLarge | _ => 0).sum

/-- The nozzles of the head rows of a channel on row path A or B (R198): a single-row channel uses path A only. -/
def pathNozzles (c : CfgSet) (ch : Nat) (pathB : Bool) : Nat :=
  let double := channelKind c ch == 2
  ((headRows c ch).filterMap fun (_, p, b) =>
    if (double && b) == pathB then (setType c p.type).map (·.nozzles) else none).sum

/-- The reed entries of a channel on row path A or B (R198). -/
def pathEntries (c : CfgSet) (ch : Nat) (pathB : Bool) : Nat :=
  let double := channelKind c ch == 2
  (c.reed.filter fun e => e.chan == ch && ((double && e.rowB) == pathB)).length

/-- The render cost of one line with T tile edges (R198). -/
def renderCost (c : CfgSet) (ch t : Nat) : Nat :=
  let (_, p) := channelSpan c ch
  24 + Nat.max (ceilDiv p 16 + t)
    (Nat.max (ceilDiv (pathNozzles c ch false) 16 + pathEntries c ch false)
      (ceilDiv (pathNozzles c ch true) 16 + pathEntries c ch true))

/-- Whether a channel's ENERGY_PATH permits the history path (R217, R219). -/
def permitsHistory (c : CfgSet) (ch : Nat) : Bool := bankGet c.regs Fld.FIR_CFG_ENERGY_PATH ch != 0

/-- The bytes of one line in the line FIFO (R199). -/
def fifoLineBytes (c : CfgSet) (ch : Nat) : Nat :=
  ceilDiv ((pathNozzles c ch false + pathNozzles c ch true) * (if permitsHistory c ch then 3 else 2)) 8 +
    32 * (headRows c ch).length

/-- The line FIFO depth F (R199); none when the channel has no head row and F is unlimited. -/
def fifoDepth (c : CfgSet) (ch : Nat) : Option Nat :=
  if (headRows c ch).isEmpty then none else some (262144 / fifoLineBytes c ch)

/-- Whether a column is a tile edge against the column before it (R619): `stepped` tells that the input column changed. -/
def isTileEdge (stepped : Bool) (a b : Source) : Bool :=
  match a, b with
  | .blank, .blank => false
  | .blank, .pixel _ _ _ => true
  | .pixel _ _ _, .blank => true
  | .pixel _ _ _, .pixel cb _ _ => stepped && cb == 0

/-- The tile edges that a job line crosses within `p` columns from `lo` (R619). -/
def tileEdges (rep : Repeat) (w h sx sy lo : Nat) (y : Int) (p : Nat) : Nat :=
  (List.range (p - 1)).countP fun i =>
    isTileEdge (decide (((lo + i : Nat) - rep.originX) / (sx : Int) ≠ ((lo + i + 1 : Nat) - rep.originX) / (sx : Int)))
      (sourceOf rep w h sx sy (lo + i : Nat) y) (sourceOf rep w h sx sy (lo + i + 1 : Nat) y)

/-- The largest number of tile edges that any line of a job crosses within a channel's span: edges depend on the line only
through whether NONE has run out and through the tile row's parity in BRICK; `odd` tells that a line of the job lies in an odd tile
row. -/
def maxTileEdges (c : CfgSet) (ch : Nat) (rep : Repeat) (w h : Nat) (odd : Bool) : Nat :=
  let (lo, p) := channelSpan c ch
  let sx := bankGet c.regs Fld.WFT_CFG_SCALE_X ch + 1
  let sy := bankGet c.regs Fld.WFT_CFG_SCALE_Y ch + 1
  Nat.max (tileEdges rep w h sx sy lo 0 p) (if odd then tileEdges rep w h sx sy lo (h * sy : Nat) p else 0)

/-- The channel's rate limit (R59): the smallest of RATE_MAX, the declared HEAD_MAX_RATEs it uses and 128,000 lines/s. RATE_MAX is
time-anchored and the head types are web-anchored (R67, R71), so under a swap each may come from another set. -/
def rateLimitOf (time web : CfgSet) (ch : Nat) : Nat :=
  (headRows web ch).foldl (fun a r => match setType web r.2.1.type with
    | some t => if t.maxRate = 0 then a else Nat.min a t.maxRate
    | none => a) (Nat.min (bankGet time.regs Fld.POS_RATE_RATE_MAX) 128000)

/-- The rate limit of a channel under one set. -/
def rateLimit (c : CfgSet) (ch : Nat) : Nat := rateLimitOf c c ch

end Sys2Proof.Machine
end

