-- ==== Sys2Proof/Machine/Link.lean ====
section
/-!
DEFINITION. The Flean link to the head hubs (chapter 08): lane groups and their bring-up, loads, lost and rejoined lanes, hub
commands, time synchronisation and eye scans.
-/
namespace Sys2Proof.Machine

/-! ### Groups and loads -/

/-- A lane. -/
def laneOf (s : State) (n : Nat) : LaneSt := nth s.link.lanes n {}

/-- A lane changed. -/
def setLane (s : State) (n : Nat) (f : LaneSt → LaneSt) : State :=
  { s with link := { s.link with lanes := upd s.link.lanes n f } }

/-- A hub. -/
def hubOf (s : State) (u : Nat) : HubSt := nth s.link.hubs u {}

/-- A hub changed. -/
def setHub (s : State) (u : Nat) (f : HubSt → HubSt) : State :=
  { s with link := { s.link with hubs := upd s.link.hubs u f } }

/-- Whether hub u is enabled since the start (R284). -/
def hubEnabled (s : State) (u : Nat) : Bool := fld s Fld.FL_HUB_HUB_EN u == 1

/-- The lanes of hub u's group (R238). -/
def groupLanes (s : State) (u : Nat) : List Nat :=
  (List.range (fld s Fld.FL_HUB_WIDTH u)).map (fld s Fld.FL_HUB_FIRST_LANE u + ·)

/-- Whether hub u's group meets R238: an allowed width, an aligned first lane inside the lanes, no overlap. -/
def groupValid (s : State) (u : Nat) : Bool :=
  let w := fld s Fld.FL_HUB_WIDTH u
  let f := fld s Fld.FL_HUB_FIRST_LANE u
  (w == 1 || w == 2 || w == 4) && f % w == 0 && decide (f + w ≤ 24) &&
    (List.range 24).all fun v => v == u || !hubEnabled s v || (groupLanes s v).all fun n => !(groupLanes s u).contains n

/-- The hub that a lane serves. -/
def laneHub (s : State) (n : Nat) : Option Nat :=
  (List.range 24).find? fun u => hubEnabled s u && (hubOf s u).state != 0 && (groupLanes s u).contains n

/-- The payload of one lane in units of 10 Mb/s (R20). -/
def lanePayload (rate : Nat) : Nat := match rate with | 0 => 587 | 1 => 968 | 2 => 1173 | _ => 2420

/-- The head rows of a channel on a hub. -/
def rowsOnHub (c : CfgSet) (ch u : Nat) : List (Nat × Placement × Bool) := (headRows c ch).filter fun r => r.2.1.hub == u

/-- Nozzles per row of a head row. -/
def rowNozzles (c : CfgSet) (r : Nat × Placement × Bool) : Nat := ((setType c r.2.1.type).map (·.nozzles)).getD 0

/-- Bits per nozzle of a channel (R219, R276). -/
def codeBits (c : CfgSet) (ch : Nat) : Nat := if permitsHistory c ch then 3 else 2

/-- Whether a channel's heads all accept pre-heat (R219). -/
def preheatOk (c : CfgSet) (ch : Nat) : Bool :=
  (headRows c ch).all fun r => match setType c r.2.1.type with | some t => t.preheatOk | none => true

/-- Whether a channel may run the main path (R219). -/
def mayRunMain (c : CfgSet) (ch : Nat) : Bool :=
  match bankGet c.regs Fld.FIR_CFG_ENERGY_PATH ch with
  | 0 => true
  | 1 => false
  | _ => preheatOk c ch

/-- PREHEAT_EVERY of a channel in lines (R212, R236). -/
def preheatEvery (c : CfgSet) (ch : Nat) : Nat := 2 ^ bankGet c.regs Fld.FIR_CFG_PREHEAT_EVERY ch

/-- 32 K_c of R276: the blocks per line that a channel sends a hub. -/
def blocks32 (c : CfgSet) (ch u : Nat) : Nat :=
  let rows := rowsOnHub c ch u
  let b := codeBits c ch
  if rows.isEmpty then 0
  else
    32 * ceilDiv (38 + 8 * rows.length) 8 +
    32 * (rows.map fun r => ceilDiv (22 + ceilDiv (rowNozzles c r * b) 8) 8).sum +
    (if mayRunMain c ch then
      32 / preheatEvery c ch * (rows.map fun r => ceilDiv (22 + ceilDiv (rowNozzles c r) 8) 8).sum else 0)

/-- The factor of R19 in 1/10,000: 1.1825 for a channel on the main path only whose masks span 4 lines (R215), else 1.12. -/
def loadFactor (c : CfgSet) (ch : Nat) : Nat := if permitsHistory c ch = false ∧ preheatEvery c ch = 4 then 11825 else 11200

/-- R19 and R276 for hub u on `lanes` lanes. -/
def loadOk (c : CfgSet) (rate u lanes : Nat) : Bool :=
  let room := lanes * lanePayload rate * 10000000
  let bits := ((List.range 16).map fun ch => ((rowsOnHub c ch u).map (rowNozzles c)).sum * codeBits c ch * loadFactor c ch).sum
  let sum := ((List.range 16).map fun ch => 64 * blocks32 c ch u * rateLimit c ch).sum
  decide (bits * bankGet c.regs Fld.POS_RATE_RATE_MAX ≤ room * 10000) && decide (sum ≤ room * 32)

/-- How many lanes a mask holds. -/
def maskSize (m : Nat) : Nat := (List.range 4).countP m.testBit

/-- Whether the active set's load fits hub u on the lanes of a mask. -/
def hubFits (s : State) (u mask : Nat) : Bool :=
  decide (0 < maskSize mask) && loadOk s.sets.active (fld s Fld.FL_HUB_RATE u) u (maskSize mask)

/-! ### Commands to hubs (R262) -/

/-- A HEAD_CMD request sent, with its tag; a group that does not carry it gets none (R244). -/
def sendCmd (s : State) (u cmd : Nat) (args : List Byte) (msg : Option (Nat × Nat)) : State :=
  let tag := (hubOf s u).nextTag
  let c : HubCmd := { cmd := cmd, tag := tag, args := args, sentAt := now s, msg := msg }
  if !mayCarry (hubOf s u).state (.headCmd cmd tag args) then s
  else toHub (setHub s u fun h => { h with nextTag := (tag + 1) % 256, cmds := h.cmds ++ [c] }) u (.headCmd cmd tag args)

/-- The arguments of HEAD_CONFIG for a placed head. -/
def headConfigArgs (p : Placement) (t : HeadType) : List Byte :=
  leBytes 1 p.port ++ leBytes 1 t.rows ++ leBytes 1 t.phases ++ leBytes 1 t.phaseMode ++ leBytes 2 t.nozzles ++
    leBytes 1 p.type ++ leBytes 1 0

/-- HEAD_CONFIG for every head of a set on hub u (R262). -/
def sendConfigs (s : State) (c : CfgSet) (u : Nat) : State :=
  c.places.foldl (fun s (_, p) =>
    match setType c p.type with
    | some t => if p.hub = u then sendCmd s u 2 (headConfigArgs p t) none else s
    | none => s) s

/-! ### Bring-up (R248 to R251) -/

/-- Whether a lane meets the conditions of R249. -/
def laneReady (l : LaneSt) : Bool := l.locked && l.ordered && l.hubRx && !l.miswired

/-- The mask, by learnt GROUP_LANE, of the lanes of a group that are ready. -/
def readyMask (s : State) (u : Nat) : Nat :=
  (groupLanes s u).foldl (fun m n => let l := laneOf s n; if laneReady l then m ||| 2 ^ l.groupLane else m) 0

/-- The receive locks of a group, by learnt GROUP_LANE. -/
def lockMask (s : State) (u : Nat) : Nat :=
  (groupLanes s u).foldl (fun m n => let l := laneOf s n; if l.locked then m ||| 2 ^ l.groupLane else m) 0

/-- LANE_STATE on every lane the module still transmits on (R277). -/
def sendLaneState (s : State) (u : Nat) : State := toHub s u (.laneState (lockMask s u) (hubOf s u).mask)

/-- A LANE_MARKER on every lane, with the next MARKER_SEQ (R245). -/
def sendMarker (s : State) (u : Nat) : State :=
  let q := ((hubOf s u).markSeq + 1) % 2 ^ 16
  toHub (setHub s u fun h => { h with markSeq := q }) u (.marker (fld s Fld.FL_HUB_WIDTH u) u q)

/-- What a group sends in TRAIN and IDENTIFY, again and again (R248): IDLE, LANE_MARKER and LANE_STATE. -/
def sendTraining (s : State) (u : Nat) : State := sendLaneState (sendMarker (toHub s u .idle) u) u

/-- A group begins TRAIN (R248). The commands of messages go on towards their answer or CMD_TIMEOUT (R262). -/
def startTrain (s : State) (u : Nat) : State :=
  sendTraining (setHub s u fun h =>
    { h with state := 1, mask := 0, trainedAt := now s, narrow := none, markRef := none, cmds := h.cmds.filter (·.msg.isSome) }) u

/-- A group moves to IDENTIFY on the lanes of a mask, which LANE_STATE announces (R249), and HUB_INFO is sent. -/
def identify (s : State) (u mask : Nat) : State :=
  sendCmd (sendLaneState (setHub s u fun h => { h with state := 2, mask := mask }) u) u 1 [] none

/-- TRAIN is left when every lane is ready; a miswired lane is left out when the others meet the load rule (R251). -/
def tryTrained (s : State) (u : Nat) : State :=
  let ls := groupLanes s u
  let good := ls.filter fun n => !(laneOf s n).miswired
  if (hubOf s u).state = 1 ∧ !good.isEmpty ∧ good.all (fun n => laneReady (laneOf s n)) ∧
      (good.length = ls.length ∨ hubFits s u (readyMask s u)) then identify s u (readyMask s u)
  else s

/-- The groups brought up at a start (R238, R248): a group that breaks R238 stays DOWN with event 0x0708. -/
def startGroups (s : State) : State :=
  (List.range 24).foldl (fun s u =>
    if !hubEnabled s u then s
    else if groupValid s u then startTrain s u
    else raise s 0x0708 u 0) s

/-- Whether the stored lane maps were applied at this start (R250). -/
def warmMaps (s : State) : Bool := liveFld s Fld.RST_CAUSE_WARM == 1

/-- A group whose first blocks contradict a stored map learns its polarity and lane order anew (R250, R531). -/
def learnAnew (s : State) (u : Nat) : State :=
  (groupLanes s u).foldl (fun s n => setLane s n fun l => { l with map := none, ordered := false }) (raise s 0x0F03 0 8)

/-- LANE_LOCK_ACQUIRED (R243, R244, R250). -/
def execLaneLockAcquired (t : Nat) (lane : Fin 24) (inverted : Bool) (s : State) : Host.Outcome State Fault Refusal :=
  let s := begin s t
  .next (match laneHub s lane with
    | none => s
    | some u =>
      if (laneOf s lane).locked then s
      else
        let s := match (laneOf s lane).map with
          | some x => if warmMaps s && x.1 != inverted then learnAnew s u else s
          | none => s
        tryTrained (sendLaneState (setLane s lane fun l => { l with locked := true, inverted := inverted, since := now s }) u) u)

/-- An invalid header or block on a lane (R242, R284): counted, and the hold of R280 begins again. -/
def invalidBlock (s : State) (n : Nat) : State :=
  setLane (bump s Fld.FL_BLOCK_ERR_BLOCK_ERRORS n) n fun l => { l with since := now s }

/-- A block at a lane's receiver, descrambled and read (R240 to R242): one whose pair is inverted is inverted first (R244). -/
def receiveBlock (s : State) (n : Nat) (w : WireBlock) : State × RxBlock :=
  let inv := (laneOf s n).inverted
  let header := if inv then 3 - w.header % 4 else w.header % 4
  let payload := if inv then 2 ^ 64 - 1 - w.payload % 2 ^ 64 else w.payload % 2 ^ 64
  let before := if inv then 2 ^ 58 - 1 - w.before % 2 ^ 58 else w.before % 2 ^ 58
  let (p, st) := descramble 64 payload before
  (setLane s n fun l => { l with rx := st }, readBlock header p)

/-! ### Losing a lane (R277 to R280) -/

/-- The lines of a hub are shed from now on (R279); a hub with FAILOVER_ON_LINK 1 also asks for a handover. -/
def beginShed (s : State) (u mask : Nat) : State :=
  let s := setHub s u fun h => { h with shed := true, shedEv := false, lastShed := none }
  if fld s Fld.FL_HUB_FAILOVER_ON_LINK u = 1 ∧ s.pair.role = .active then
    let s := raise s 0x0706 u mask
    if s.pair.handover.isSome then s
    else { s with pair := { s.pair with handover := some (s.time.pick + 4), handHub := some u } }
  else s

/-- What an UP group does when lanes have gone (R278, R279): the mask that remains, a re-stripe when it carries the load. -/
def afterLoss (s : State) (u : Nat) : State :=
  let h := hubOf s u
  let left := h.mask &&& readyMask s u
  if h.state = 2 then (if left = 0 then startTrain s u else setHub s u fun h => { h with mask := left })
  else if h.state ≠ 3 then s
  else if left = 0 then
    let s := if h.shed then s else beginShed s u 0
    raise (startTrain s u) 0x0708 u 3
  else if left = h.mask then s
  else if h.shed then setHub s u fun h => { h with mask := left, narrow := none }
  else if hubFits s u left then setHub s u fun h => { h with narrow := some left }
  else beginShed (setHub s u fun h => { h with mask := left, narrow := none }) u left

/-- A loss of lock on a lane at one end (R277): counted, reported, and the group acts. -/
def lostLane (s : State) (n u far : Nat) : State :=
  let s := sticky (bump s Fld.FL_LOCK_LOSS_LOCK_LOSSES n) Fld.FL_STATUS_LANE_DOWN
  afterLoss (sendLaneState (raise s 0x0701 n far) u) u

/-- The invalid headers that make a loss of lock (R243). -/
def lossHeaders : Nat := 16

/-- LANE_DOWN (R243, R277): the module's own receiver loses lock; the 16 invalid headers that show it are counted (R284). -/
def execLaneDown (t : Nat) (lane : Fin 24) (s : State) : Host.Outcome State Fault Refusal :=
  let s := begin s t
  .next (match laneHub s lane with
    | none => s
    | some u =>
      if (laneOf s lane).locked then
        lostLane (setLane (bump s Fld.FL_BLOCK_ERR_BLOCK_ERRORS lane lossHeaders) lane fun l =>
          { l with locked := false, ordered := false }) lane u 0
      else s)

/-- The far end's locks (R277), by GROUP_LANE: each lane whose order is known follows its bit, and a lock lost there is a loss of the
lane. -/
def takeLaneState (s : State) (u locked : Nat) : State :=
  let s := setHub s u fun h => { h with farLocks := locked }
  tryTrained ((groupLanes s u).foldl (fun s n =>
    let l := laneOf s n
    let rx := locked.testBit l.groupLane
    if l.map.isNone || rx == l.hubRx then s
    else
      let s := setLane s n fun l => { l with hubRx := rx, since := now s }
      if rx then s else lostLane s n u 1) s) u

/-- A lane that carries the markers of another hub, or of a module, is excluded (R251). -/
def excludeLane (s : State) (u lane : Nat) (m : Marker) : State :=
  if (laneOf s lane).miswired then s
  else
    let s := sticky (setLane s lane fun l => { l with miswired := true }) Fld.FL_STATUS_MISWIRED
    let s := raise s 0x0709 lane ((bit m.unitB + 2 * bit m.fromHub) * 256 + m.hub)
    tryTrained (afterLoss s u) u

/-- The lane rate in units of 50 kb/s (R239). -/
def laneRate (code : Nat) : Nat := match code with | 0 => 125000 | 1 => 206250 | 2 => 250000 | _ => 515625

/-- Whether a marker that arrives now is within 32 blocks of the first lane's marker with its MARKER_SEQ (R246). -/
def deskewed (s : State) (u seq : Nat) : Bool :=
  match (hubOf s u).markRef with
  | some (q, at') => q != seq || decide ((now s - at') * laneRate (fld s Fld.FL_HUB_RATE u) ≤ 32 * 66 * 20000)
  | none => true

/-- A marker of the group's own hub (R245, R246, R250, R280): it teaches the lane's order and deskews it against the other lanes; a
lane that was excluded is no longer; one that contradicts a stored map after a warm start makes the group learn anew. A marker
of another WIDTH, or beyond it, teaches nothing (log 79). -/
def takeMarker (s : State) (u lane : Nat) (m : Marker) : State :=
  let w := fld s Fld.FL_HUB_WIDTH u
  let s := if (laneOf s lane).miswired then setLane s lane fun l => { l with miswired := false, since := now s } else s
  if m.width ≠ w ∨ w ≤ m.groupLane then s
  else
    let l := laneOf s lane
    let differs : Bool := match l.map with | some x => x != (l.inverted, m.groupLane) | none => false
    let s := if warmMaps s && !l.ordered && differs then learnAnew s u else s
    let aligned := deskewed s u m.seq
    let first : Bool := match (hubOf s u).markRef with | some (q, _) => q != m.seq | none => true
    let s := if first then setHub s u fun h => { h with markRef := some (m.seq, now s) } else s
    tryTrained (setLane s lane fun l =>
      { l with ordered := aligned || l.ordered, groupLane := m.groupLane, map := some (l.inverted, m.groupLane),
               hubRx := (hubOf s u).farLocks.testBit m.groupLane }) u

/-- A block that a locked lane receives (R240 to R242): an invalid one is counted, a LANE_STATE and a marker are read. -/
def laneBlock (s : State) (u lane : Nat) (w : WireBlock) : State :=
  if !(laneOf s lane).locked then s
  else match receiveBlock s lane w with
    | (s, .invalid) => invalidBlock s lane
    | (s, .laneState locked _) => takeLaneState s u locked
    | (s, .marker m) => if m.hub ≠ u ∨ !m.fromHub then excludeLane s u lane m else takeMarker s u lane m
    | (s, .stream) => s

/-- LANE_STATE_RECEIVE (R242, R248, R277). -/
def execLaneStateReceive (t : Nat) (lane : Fin 24) (w : WireBlock) (s : State) : Host.Outcome State Fault Refusal :=
  let s := begin s t
  .next (match laneHub s lane with
    | none => s
    | some u => laneBlock s u lane w)

/-- LANE_MARKER_RECEIVE (R242, R245, R246, R250, R251). -/
def execLaneMarkerReceive (t : Nat) (lane : Fin 24) (w : WireBlock) (s : State) : Host.Outcome State Fault Refusal :=
  let s := begin s t
  .next (match laneHub s lane with
    | none => s
    | some u => laneBlock s u lane w)

/-- BRINGUP_TIMEOUT (R249). -/
def execBringupTimeout (t : Nat) (hub : Fin 24) (s : State) : Host.Outcome State Fault Refusal :=
  let s := begin s t
  let h := hubOf s hub
  .next (if h.state ≠ 1 ∨ now s < h.trainedAt + 1000000 * liveFld s Fld.FL_CTRL_BRINGUP_TIMEOUT then s
    else if hubFits s hub (readyMask s hub) then identify s hub (readyMask s hub)
    else startTrain (raise s 0x0708 hub 1) hub)

/-- The end of shedding (R280): event 0x0705, and the rows of the hub take a mask with their first line. -/
def endShed (s : State) (u : Nat) : State :=
  if (hubOf s u).shed then
    let s := raise s 0x0705 u (match (hubOf s u).lastShed with | some l => low32 l | none => 0)
    let heads := (s.sets.active.places.filter fun p => p.2.hub == u).map (·.1)
    let s := setHub s u fun h => { h with shed := false, shedEv := false }
    { s with print := { s.print with chans := s.print.chans.map fun c =>
      { c with maskSpan := c.maskSpan.filter fun m => !heads.contains (m.1 / 2) } } }
  else s

/-- The energy tables that swaps have sent the heads of hub u, again (R209): the hub may have missed them. -/
def sendPending (s : State) (u : Nat) : State :=
  (s.print.tables.filter (·.1 == u)).foldl (fun s x => toHub s u (.energy x.2.1 (low32 x.2.2.1) x.2.2.2)) s

/-- HUB_UP (R248, R262): HUB_INFO of the group's own hub; HEAD_CONFIG for every head of the active set. -/
def execHubUp (t : Nat) (hub : Fin 24) (info : HubInfo) (s : State) : Host.Outcome State Fault Refusal :=
  let s := begin s t
  .next (if (hubOf s hub).state ≠ 2 ∨ info.hub ≠ hub then s
    else
      let s := setHub s hub fun h =>
        { h with state := 3, info := some info, lastAck := now s, ackLost := false, cmds := h.cmds.filter fun c => c.cmd != 1 || c.msg.isSome }
      let s := sendPending (sendConfigs (raise s 0x0707 hub (hubOf s hub).mask) s.sets.active hub) hub
      if hubFits s hub (hubOf s hub).mask then endShed s hub else s)

/-- The line id that a RESTRIPE names: the lowest line that a channel of the hub has still to send. -/
def nextHubLine (s : State) (u : Nat) : Nat :=
  let used := (List.range 16).filter fun c => !(rowsOnHub (cfgOf s c) c u).isEmpty
  match used.map fun c => (nth s.print.chans c {}).next with
  | [] => 0
  | x :: xs => low32 (xs.foldl min x)

/-- RESTRIPE_NARROW (R278): at the next line boundary of the group stream. `cut` names the lines whose packets were
incomplete, at most two; they are counted when the hub's acknowledgement settles them unfired. -/
def execRestripeNarrow (t : Nat) (hub : Fin 24) (cut : List Int) (s : State) : Host.Outcome State Fault Refusal :=
  let s := begin s t
  .next (match (hubOf s hub).narrow with
    | none => s
    | some m =>
      let s := setHub s hub fun h => { h with mask := m, narrow := none, cuts := if cut.isEmpty then h.cuts else h.cuts ++ [cut.take 2] }
      let s := toHub s hub (.restripe m (nextHubLine s hub))
      if cut.isEmpty then raise (sticky s Fld.FL_STATUS_RESTRIPED) 0x0703 hub 0 else s)

/-- LANE_REJOINED (R280): after a re-stripe that still waits for its line boundary (R278). -/
def execLaneRejoined (t : Nat) (lane : Fin 24) (s : State) : Host.Outcome State Fault Refusal :=
  let s := begin s t
  .next (match laneHub s lane with
    | none => s
    | some u =>
      let l := laneOf s lane
      let h := hubOf s u
      if h.state ≠ 3 ∨ !laneReady l ∨ h.mask.testBit l.groupLane ∨ h.narrow.isSome ∨
          now s < l.since + 1000000 * liveFld s Fld.FL_CTRL_REJOIN_HOLD then s
      else
        let m := h.mask ||| 2 ^ l.groupLane
        let s := toHub (setHub s u fun h => { h with mask := m }) u (.restripe m (nextHubLine s u))
        let s := raise s 0x0702 lane m
        if hubFits s u m then endShed s u else s)

/-- LANE_STATE_REPEAT (R248, R277): in TRAIN and IDENTIFY the blocks of the bring-up go out again, and in UP LANE_STATE while a lane of
the group is down. -/
def execLaneStateRepeat (t : Nat) (hub : Fin 24) (s : State) : Host.Outcome State Fault Refusal :=
  let s := begin s t
  let st := (hubOf s hub).state
  .next (if st = 1 ∨ st = 2 then sendTraining s hub
    else if st = 3 ∧ (groupLanes s hub).any (fun n => !laneReady (laneOf s n)) then sendLaneState s hub else s)

/-! ### Commands, time synchronisation and acknowledgements' absence -/

/-- A packet from a hub discarded (R255). -/
def discardPacket (s : State) (u : Nat) : State := sticky (bump s Fld.FL_CRC_ERR_CRC_ERRORS u) Fld.FL_STATUS_CRC_ERROR

/-- The result of a hub's STATUS as the host message's reply (R262; log 24). -/
def hubResult (status : Nat) : Nat := match status with | 0 => 0 | 1 => 4 | 2 => 4 | 3 => 1 | _ => 14

/-- CMD_TIMEOUT (R262): 10 ms without an answer; the third attempt's is reported. HUB_INFO of a bring-up is asked again. -/
def execCmdTimeout (t : Nat) (hub : Fin 24) (ctag : Nat) (s : State) : Host.Outcome State Fault Refusal :=
  let s := begin s t
  .next (match (hubOf s hub).cmds.find? (·.tag == ctag) with
    | none => s
    | some c =>
      if now s < c.sentAt + 10000000 then s
      else if c.attempts < 3 then
        let c' := { c with attempts := c.attempts + 1, sentAt := now s }
        toHub (setHub s hub fun h => { h with cmds := h.cmds.map fun x => if x = c then c' else x }) hub
          (.headCmd c.cmd c.tag c.args)
      else
        let s := setHub s hub fun h => { h with cmds := h.cmds.filter (· != c) }
        let s := raise (sticky s Fld.FL_STATUS_CMD_TIMEOUT) 0x070B hub (c.cmd * 256 + c.tag)
        match c.msg with
        | some (k, tag) => answer s k tag false ⟨9, 0, [], false⟩
        | none => if c.cmd = 1 ∧ (hubOf s hub).state = 2 then sendCmd s hub 1 [] none else s)

/-- HEAD_HUB_CMD (R441): HUB_INFO, EYE_SCAN or ELEMENT_INFO; its reply comes with the hub's answer. -/
def execHeadHubCmd (t : Nat) (ch : Fin 6) (tag hub cmd : Nat) (args : List Byte) (s : State) :
    Host.Outcome State Fault Refusal :=
  .next (message (begin s t) ch 5 0x15 tag false false fun s =>
    if 24 ≤ hub ∨ !(cmd == 1 || cmd == 5 || cmd == 6) then (s, ⟨4, 0, [], false⟩)
    else if (hubOf s hub).state ≠ 3 then (s, named 5 2 hub)
    else (sendCmd s hub cmd args (some (ch.val, tag)), ⟨0, 0, [], true⟩))

/-- TIME_SYNC_SEND (R273): a request on every UP group. -/
def execTimeSyncSend (t : Nat) (s : State) : Host.Outcome State Fault Refusal :=
  let s := begin s t
  .next ((List.range 24).foldl (fun s u =>
    let h := hubOf s u
    if h.state ≠ 3 then s
    else
      let q := (h.syncSeq + 1) % 256
      toHub (setHub s u fun h => { h with syncSeq := q, syncT1 := some (now s) }) u
        (.timeSync q (now s) h.prevOffset h.prevDelay h.prevSeq)) s)

/-- TIME_SYNC_RESPONSE (R274): delay and offset in 1/16 ns, from the times at the pins. -/
def execTimeSyncResponse (t : Nat) (hub : Fin 24) (valid : Bool) (seq t2 t3 : Nat) (s : State) :
    Host.Outcome State Fault Refusal :=
  let s := begin s t
  let h := hubOf s hub
  .next (if !valid then discardPacket s hub
    else match h.syncT1 with
      | none => s
      | some t1 =>
        if seq ≠ h.syncSeq then s
        else
          let rtt : Int := ((now s : Int) - t1) - ((t3 : Int) - t2)
          let delay := 8 * rtt
          let asym := signedOf 16 (liveFld s Fld.FL_HUB_ASYM hub)
          let off := 16 * ((t2 : Int) - t1) - delay - 16 * asym
          setHub s hub fun h => { h with syncT1 := none, prevOffset := satSigned 32 off,
                                         prevDelay := satNat 32 delay.toNat, prevSeq := seq })

/-- ACK_LOST (R267): 200 µs without a valid HUB_ACK from an UP hub. -/
def execAckLost (t : Nat) (hub : Fin 24) (s : State) : Host.Outcome State Fault Refusal :=
  let s := begin s t
  let h := hubOf s hub
  .next (if h.state = 3 ∧ h.lastAck + 200000 ≤ now s ∧ !h.ackLost then
      raise (sticky (setHub s hub fun h => { h with ackLost := true }) Fld.FL_STATUS_ACK_LOST) 0x070A hub
        ((now s - h.lastAck) / 1000)
    else s)

/-! ### Eye scans (R281) -/

/-- A scan of EYE_LANE begins; the module scans one lane at a time, and defers a scan while the throttle level is above 0 (R549). -/
def startEye (s : State) : State :=
  let n := liveFld s Fld.FL_EYE_EYE_LANE
  if s.link.scan.isSome ∨ 24 ≤ n then s
  else if 1 ≤ throttle s then { s with link := { s.link with scanDue := true } }
  else
    let k := liveFld s Fld.FL_EYE_EYE_BITS
    emit { s with link := { s.link with scan := some (n, k), scanDue := false } } (.eye n k)

/-- EYE_START (R281). -/
def execEyeStart (t : Nat) (s : State) : Host.Outcome State Fault Refusal := .next (startEye (begin s t))

/-- The zeros that follow one another from the centre of a list outward on one side. -/
def zeroRun (l : List Nat) : Nat := (l.takeWhile (· == 0)).length

/-- Zero-error points around the centre of a list, the centre at index `c`. -/
def zeroSpan (l : List Nat) (c : Nat) : Nat :=
  if nth l c 1 = 0 then zeroRun (l.drop c) + zeroRun (l.take c).reverse else 0

/-- EYE_DONE (R281): the grid of 64 phases of 127 thresholds, phase by phase, each point a count over 2^EYE_BITS bits; width at the
centre threshold, height at the centre phase, each held to its field. -/
def execEyeDone (t : Nat) (counts : List Nat) (s : State) : Host.Outcome State Fault Refusal :=
  let s := begin s t
  .next (match s.link.scan with
    | none => s
    | some (n, k) =>
      let counts := counts.map (Nat.min (2 ^ k))
      let atPhase (p : Nat) : List Nat := (List.range 127).map fun v => nth counts (127 * p + v) 0
      let centre := (List.range 64).map fun p => nth counts (127 * p + 63) 0
      let w := Nat.min 63 (zeroSpan centre 32)
      let h := zeroSpan (atPhase 32) 63
      let s := { s with link := { s.link with scan := none, grids := (n, counts) :: s.link.grids.filter (·.1 != n) } }
      let s := setFld (setFld s Fld.FL_EYE_RES_EYE_WIDTH n w) Fld.FL_EYE_RES_EYE_HEIGHT n h
      raise s 0x070E n (h * 256 + w))

/-- DIAG_EYE_GRID (R281, R428, R441): the lane's last grid to host memory. -/
def execDiagEyeGrid (t : Nat) (ch : Fin 6) (tag lane : Nat) (data : DataRef) (s : State) : Host.Outcome State Fault Refusal :=
  .next (message (begin s t) ch 10 0x10 tag true true fun s =>
    if s.sys.ethernet then (s, ⟨5, 0, [], false⟩)
    else if 24 ≤ lane ∨ data.length < 65024 then (s, ⟨4, 0, [], false⟩)
    else match s.link.grids.find? (·.1 == lane) with
      | none => (s, named 5 7 lane)
      | some g => (emit s (.hostWrite data.addr ((List.range 8128).flatMap fun i => leBytes 8 (nth g.2 i 0))), ⟨0, 0, [], false⟩))

end Sys2Proof.Machine
end

