-- ==== Sys2Proof/Machine/Colour.lean ====
section
/-!
DEFINITION. Strip boundaries of a channel (R172), the correction store and its blocks (R178 to R181, R313, R314), nozzle state
changes (R192), ladder bands (R316, R317), coverage (R309) and the solve of the colour loop (R308 to R312).
-/
namespace Sys2Proof.Machine

/-! ### Strip boundaries -/

/-- A weft channel. -/
def chan (s : State) (c : Nat) : Chan := nth s.print.chans c {}

/-- A weft channel changed. -/
def setChan (s : State) (c : Nat) (f : Chan → Chan) : State := { s with print := { s.print with chans := upd s.print.chans c f } }

/-- The set that governs image line L before a pending swap: the active one, or below the line of a completed swap the one that it
replaced (R66). -/
def priorAt (s : State) (line : Int) : CfgSet :=
  match s.sets.prior.find? fun p => decide (line < p.2) with
  | some p => p.1
  | none => s.sets.active

/-- The set that governs image line L of channel c (R66): the shadow set from the swap line on, and the old one below it even once
the channel has changed. -/
def cfgAt (s : State) (c : Nat) (line : Int) : CfgSet :=
  match s.sets.swap with
  | none => priorAt s line
  | some w =>
    if w.whole ∨ w.point = 2 then (if nth w.changed c false then s.sets.shadow else priorAt s line)
    else if line < w.line then priorAt s line
    else s.sets.shadow

/-- The rate limit of a channel at an image line (R59, R67). -/
def limitAt (s : State) (c : Nat) (line : Int) : Nat := rateLimitOf (timeCfg s) (cfgAt s c line) c

/-- The image of channel c in the job. -/
def jobImage (s : State) (c : Nat) : Option Image := s.store.images.find? (·.handle == nth s.job.images c 0)

/-- Whether the running job uses channel c. -/
def inJob (s : State) (c : Nat) : Bool := jobOn s && s.job.channels.testBit c

/-- SCALE_Y of a channel as a factor. -/
def scaleY (s : State) (c : Nat) : Nat := bankGet (cfgOf s c).regs Fld.WFT_CFG_SCALE_Y c + 1

/-- PASS mode. -/
def passMode (s : State) : Bool := fld s Fld.POS_SOURCE_PASS_MODE == 1


/-- PASS_STRIDE; 0 means PASS_LINES. -/
def passStride (j : Job) : Nat := if j.passStride = 0 then j.passLines else j.passStride

/-- The first image line of the printing pass under way or to come. -/
def passStart (s : State) : Int := s.job.first + Int.ofNat (s.job.passPrint * passStride s.job)

/-- Output lines left in the even-column stream's strip at image line L, L itself among them (R172). -/
def linesLeft (s : State) (c : Nat) (line : Int) : Int :=
  match jobImage s c with
  | none => 1
  | some m =>
    let sy : Int := scaleY s c
    let y := line - s.job.first
    let u := (y / sy) % m.height
    let stop := min ((u / m.lps + 1) * m.lps) (m.height : Int)
    (stop - u) * sy - y % sy

/-- The first image line of the printing pass that image line L belongs to in PASS mode, counted from the one under way. -/
def passOf (s : State) (line : Int) : Int :=
  let a := passStart s
  if line < a + s.job.passLines ∨ passStride s.job = 0 then a
  else a + (line - a) / (passStride s.job : Int) * (passStride s.job : Int)

/-- The first strip boundary after image line L in fetch order (R172). In PASS mode a strip is fetched anew for each pass, so the
first line of a pass begins one. -/
def nextBoundary (s : State) (c : Nat) (line : Int) : Int :=
  let b := line + linesLeft s c line
  let a := passOf s line
  if passMode s ∧ a + s.job.passLines ≤ b then a + passStride s.job else b

/-- Whether image line L begins a strip of the channel (R172). -/
def isBoundary (s : State) (c : Nat) (line : Int) : Bool :=
  decide (line = s.job.first) || (passMode s && decide (line = passStart s)) || decide (nextBoundary s c (line - 1) = line)

/-- The line that begins the strip two strips beyond the one the channel is decoding (R180, R192, R221). -/
def namedBoundary (s : State) (c : Nat) : Int :=
  let d := match ((chan s c).bufs.filter (·.stream == 0)).getLast? with
    | some b => b.firstLine
    | none => (chan s c).render
  nextBoundary s c (nextBoundary s c d)

/-! ### The correction store -/

/-- Columns of a channel (R178). -/
def columns : Nat := 106496

/-- The base image's entry of a column (R313). -/
def baseEntry (s : State) (c x : Nat) : Nat := ((s.colour.base.find? (·.1 == columns * c + x)).map (·.2)).getD 0x80

/-- GROUP_SIZE in columns. -/
def groupSize (s : State) : Nat := 2 ^ (fld s Fld.CLP_CTRL_GROUP_SIZE + 1)

/-- The coefficient of a channel's group. -/
def coefOf (s : State) (c g : Nat) : Nat := liveFld s Fld.CLP_COEF_COEF c g

/-- The entries of one group's columns (R313): floors of q, one more on the first columns up to the rounded sum, at most 255,
beside the base OFFSET. -/
def groupEntries (s : State) (c g : Nat) : List Nat :=
  let n := groupSize s
  let bases := (List.range n).map fun i => baseEntry s c (g * n + i)
  let num := bases.map fun e => bitsOf e 0 8 * coefOf s c g
  let floors := num.map (· / 16384)
  let extra := (num.sum + 8192) / 16384 - floors.sum
  (List.range n).map fun i => Nat.min 255 (nth floors i 0 + (if i < extra then 1 else 0)) + bitsOf (nth bases i 0) 8 8 * 256

/-- The entries of block k, columns 4,096 k onwards. -/
def blockEntries (s : State) (c k : Nat) : List Nat :=
  let n := groupSize s
  (List.range (4096 / n)).flatMap fun j => groupEntries s c (4096 * k / n + j)

/-- The entries of a block written into a bank's correction store (R179). -/
def entriesInto (b : Bank) (c col : Nat) (es : List Nat) : Bank :=
  (List.range es.length).foldl (fun b i => bankWrite b (regKey .WFT_CORR c (col + i)) (nth es i 0x80)) b

/-- The entries of a block written into the correction store (R179). -/
def writeEntries (s : State) (c col : Nat) (es : List Nat) : State := { s with live := entriesInto s.live c col es }

/-- A block applied at its boundary (R179), with event 0x0503: a copy of the store that waits takes it in too (R343). -/
def applyBlock (s : State) (b : CorrBlock) : State :=
  let s := writeEntries { s with print := { s.print with blocks := s.print.blocks.filter (· != b) } } b.chan b.column b.entries
  let s := setChan s b.chan fun x =>
    { x with corrCopy := x.corrCopy.map fun y => { y with live := entriesInto y.live b.chan b.column b.entries } }
  raise (bump s Fld.WFT_BLOCKS_CORR_BLOCKS b.chan) 0x0503 b.chan (low32 b.line)

/-- A block that arrives after its boundary (R180); a standby asks the active for the channel's correction store (R343). -/
def discardBlock (s : State) (b : CorrBlock) : State :=
  let s := { s with print := { s.print with blocks := s.print.blocks.filter (· != b) } }
  let s := if s.pair.role = .standby ∧ !(chan s b.chan).corrLost then toPeer s (.copyCorr b.chan) else s
  let s := setChan s b.chan fun x => { x with corrLost := true }
  raise (sticky (bump s Fld.WFT_BLOCKS_CORR_DISCARDS b.chan) Fld.WFT_STATUS_CORR_DISCARD) 0x0505 b.chan b.column

/-- Whether a block's boundary has passed in its channel: a line at or after it has begun to render (R180). -/
def blockLate (s : State) (b : CorrBlock) : Bool := inJob s b.chan && decide (b.line < (chan s b.chan).render)

/-- A block that reaches the unit with its coefficients (R315): it waits for its boundary, or is discarded when that has passed
(R180). -/
def takeBlock (s : State) (b : CorrBlock) : State :=
  let s := b.coefs.foldl (fun s x => setFld s Fld.CLP_COEF_COEF b.chan x.2 x.1) s
  if blockLate s b then discardBlock s b else { s with print := { s.print with blocks := s.print.blocks ++ [b] } }

/-- The boundary that the next block of a channel names (R180): one of its own, after those of the blocks that wait (R179). -/
def blockBoundary (s : State) (c : Nat) : Int :=
  (s.print.blocks.filter (·.chan == c)).foldl (fun a b => max a (nextBoundary s c b.line)) (namedBoundary s c)

/-- Whether manual blocks of a swap are still to come in channel c (R181). -/
def manualDue (s : State) (c : Nat) : Bool :=
  match s.sets.swap with
  | some w => decide (nth w.manual c 26 < 26)
  | none => false

/-- The next block of a changed channel issued, naming its boundary (R314): not for a frozen channel, nor while manual blocks
are to come. -/
def issueBlock (s : State) (c : Nat) : State :=
  match nth s.colour.issue c none with
  | none => s
  | some k =>
    if (liveFld s Fld.CLP_FREEZE_FREEZE).testBit c ∨ manualDue s c ∨ s.pair.role = .standby then s
    else
      let n := groupSize s
      let cs := (List.range (4096 / n)).map fun j => (4096 * k / n + j, coefOf s c (4096 * k / n + j))
      let b : CorrBlock := { chan := c, column := 4096 * k, entries := blockEntries s c k, line := blockBoundary s c, coefs := cs }
      let s := { s with print := { s.print with blocks := s.print.blocks ++ [b], sendBlocks := s.print.sendBlocks ++ [b] } }
      { s with colour := { s.colour with issue := upd s.colour.issue c fun _ => if k + 1 < 26 then some (k + 1) else none } }

/-- The blocks of a channel due at image line L (R179): that of this boundary, after any of boundaries that the channel has passed
without rendering their lines. -/
def dueBlocks (s : State) (c : Nat) (line : Int) : State :=
  (s.print.blocks.filter fun b => b.chan == c && decide (b.line ≤ line)).foldl applyBlock s

/-- Whether a key of a bank is one of a channel's in its correction store or coefficients. -/
def corrKey (c k : Nat) : Bool :=
  [Reg.WFT_CORR, .CLP_COEF].any fun r => decide (regKey r c 0 ≤ k) && decide (k < regKey r (c + 1) 0)

/-- A copy of a channel's correction store, coefficients and base image in place of its own (R343): from its line on mismatches in the
channel count again. -/
def applyCopy (s : State) (c : Nat) (x : CorrCopy) : State :=
  let live := (x.live.filter fun e => corrKey c e.1).foldl (fun b e => bankWrite b e.1 e.2) (s.live.filter fun e => !corrKey c e.1)
  let mine (e : Nat × Nat) : Bool := e.1 / columns == c
  let base := s.colour.base.filter (fun e => !mine e) ++ x.base.filter mine
  setChan { s with live := live, colour := { s.colour with base := base } } c fun y =>
    { y with corrLost := false, corrCopy := none, corrFrom := some x.line }

/-- The copy of a channel's correction store due at image line L (R343). -/
def dueCopy (s : State) (c : Nat) (line : Int) : State :=
  match (chan s c).corrCopy with
  | some x => if x.line ≤ line then applyCopy s c x else s
  | none => s

/-- A copy that has arrived names its boundary as a block does (R180, R343); in a channel that renders no job line it applies at once. -/
def takeCopy (s : State) (c : Nat) (live : Bank) (base : List (Nat × Nat)) : State :=
  let x : CorrCopy := { line := blockBoundary s c, live := live, base := base }
  if !(chan s c).corrLost then s
  else if inJob s c then setChan s c fun y => { y with corrCopy := some x }
  else applyCopy s c { x with line := (chan s c).next }

/-- The base image and coefficients of a channel as a swap leaves them (R322), and whether its entries change (R181). -/
def swapColour (s : State) (c : Nat) (old new : CfgSet) : State × Bool :=
  let mine (l : List (Nat × Nat × Nat)) := l.filter (·.1 == c)
  let corr := mine new.corr
  let coef := mine new.coef
  let byCorr := corr != mine old.corr
  let byCoef := coef != mine old.coef
  let s := if byCorr then
      let keys := corr.map fun e => columns * c + e.2.1
      let base := s.colour.base.filter (fun e => !keys.contains e.1) ++
        (corr.filter (·.2.2 != 0x80)).map fun e => (columns * c + e.2.1, e.2.2)
      let live := s.live.filter fun e => !(decide (regKey .CLP_COEF c 0 ≤ e.1) && decide (e.1 < regKey .CLP_COEF (c + 1) 0))
      { s with colour := { s.colour with base := base }, live := live }
    else s
  let s := if byCoef then coef.foldl (fun s e => setFld s Fld.CLP_COEF_COEF c e.2.2 e.2.1) s else s
  (s, byCorr || byCoef)

/-- One manual block of a swap applied at the strip boundary of channel c that image line L begins (R181), with event 0x0503; the
channel's loop blocks are gone. -/
def manualBlock (s : State) (c : Nat) (line : Int) : State :=
  match s.sets.swap with
  | none => s
  | some w =>
    let k := nth w.manual c 26
    if k < 26 then
      let s := bump (writeEntries s c (4096 * k) (blockEntries s c k)) Fld.WFT_BLOCKS_CORR_BLOCKS c
      let s := raise s 0x0503 c (low32 line)
      { s with sets := { s.sets with swap := some { w with manual := upd w.manual c (· + 1) } } }
    else s

/-! ### Nozzle states (R192) -/

/-- The channel that a head row prints in. -/
def rowChannel (s : State) (head : Nat) (rowB : Bool) : Option Nat :=
  match setPlace s.sets.active head with
  | some p => if rowB then p.chanB else p.chanA
  | none => none

/-- A nozzle's state now. -/
def nozzleNow (s : State) (head : Nat) (rowB : Bool) (n : Nat) : Nat := liveFld s Fld.WFT_NOZZLE_STATE (2 * head + bit rowB) n

/-- A change of a nozzle's state accepted, from the colour loop or the host: at a named strip boundary while the channel renders job
lines, else at the next pick boundary. -/
def queueNozzle (s : State) (loop : Bool) (head : Nat) (rowB : Bool) (n st : Nat) : State :=
  match rowChannel s head rowB with
  | some c =>
    let x : NozzleChange := ⟨c, head, rowB, n, st, if inJob s c then some (namedBoundary s c) else none, loop⟩
    { s with print := { s.print with nozzles := s.print.nozzles ++ [x], sendNozzles := s.print.sendNozzles ++ [x] } }
  | none =>
    let x : NozzleChange := ⟨16, head, rowB, n, st, none, loop⟩
    { s with print := { s.print with nozzles := s.print.nozzles ++ [x], sendNozzles := s.print.sendNozzles ++ [x] } }

/-- One change to the nozzle state map; the colour loop never writes a nozzle that is MASKED (R192). The second component counts the
changes applied. -/
def applyNozzle (a : State × Nat) (x : NozzleChange) : State × Nat :=
  if x.loop && nozzleNow a.1 x.head x.rowB x.nozzle == 3 then a
  else (setFld a.1 Fld.WFT_NOZZLE_STATE (2 * x.head + bit x.rowB) x.state x.nozzle, a.2 + 1)

/-- Changes applied to the nozzle state map, with event 0x0504 for their channel. -/
def applyNozzles (s : State) (c : Nat) (xs : List NozzleChange) : State :=
  let s := { s with print := { s.print with nozzles := s.print.nozzles.filter fun x => !xs.contains x } }
  let (s, n) := xs.foldl applyNozzle (s, 0)
  if n = 0 then s else raise s 0x0504 c n

/-- At a strip boundary at image line L: at most 64 changes named for it or an earlier one. -/
def dueNozzles (s : State) (c : Nat) (line : Int) : State :=
  applyNozzles s c ((s.print.nozzles.filter fun x => x.chan == c &&
    (match x.line with | some l => decide (l ≤ line) | none => false)).take 64)

/-- At a pick boundary, without the limit: every change accepted while its channel rendered no job line, and those of a channel that
renders none now (R192). -/
def pickNozzles (s : State) : State :=
  (List.range 17).foldl (fun s c =>
    applyNozzles s c (s.print.nozzles.filter fun x => x.chan == c && (x.line.isNone || !inJob s c))) s

/-! ### Ladders (R316, R317) -/

/-- The chains of a ladder channel that hold a row, in order. -/
def ladderChains (c : CfgSet) (ch : Nat) : List (List ChainRow) :=
  if bankGet c.regs Fld.CLP_SLOT_LADDER_EN ch = 1 then (channelChains c ch).filter (!·.isEmpty) else []

/-- The lines of one sub-band. -/
def subBandLines (c : CfgSet) : Nat :=
  bankGet c.regs Fld.CLP_LADDER_RUNGS 0 * (bankGet c.regs Fld.CLP_LADDER_DASH 0 + bankGet c.regs Fld.CLP_LADDER_GAP 0)

/-- LADDER_LINES (R317). -/
def ladderLines (c : CfgSet) : Nat := subBandLines c * 2 * ((List.range 16).map fun ch => (ladderChains c ch).length).sum

/-- Whether an image line lies in a ladder slot of the job. -/
def inLadderSlot (c : CfgSet) (line : Int) : Bool :=
  let p := bankGet c.regs Fld.CLP_LSLOT_LADDER_PERIOD 0
  let ph : Int := bankGet c.regs Fld.CLP_LSLOT_LADDER_PHASE 0
  p != 0 && decide (ph ≤ line) && decide ((line - ph) % p < ladderLines c)

/-- The ladder band that holds an image line: the line's number in it. -/
def bandLine (s : State) (line : Int) : Option Nat :=
  (s.colour.bands.find? fun b => decide (b.1 ≤ line) && decide (line < b.1 + b.2)).map fun b => (line - b.1).toNat

/-- The sub-bands of the channels before channel ch. -/
def subBandsBefore (c : CfgSet) (ch : Nat) : Nat := ((List.range ch).map fun k => 2 * (ladderChains c k).length).sum

/-- The codes of one head row on a line of a ladder band (R317): `sub` is the row's sub-band. -/
def ladderDots (c : CfgSet) (live : Bank) (r : ChainRow) (sub line : Nat) : List (Nat × Nat) :=
  let dash := bankGet c.regs Fld.CLP_LADDER_DASH 0
  let step := dash + bankGet c.regs Fld.CLP_LADDER_GAP 0
  let l := line - sub * subBandLines c
  if line < sub * subBandLines c ∨ subBandLines c ≤ l then []
  else
    (List.range (r.place.last + 1 - r.place.first)).filterMap fun i =>
      let n := r.place.first + i
      let q := n % bankGet c.regs Fld.CLP_LADDER_RUNGS 0 * step
      if q ≤ l ∧ l < q + dash ∧ bankGet live Fld.WFT_NOZZLE_STATE (2 * r.head + bit r.rowB) n ≠ 3 then some (n, 3) else none

/-- A channel's rows on a line of a ladder band: dashes in a ladder channel, code 0 in the others. -/
def renderLadder (c : CfgSet) (live : Bank) (ch line : Nat) : List RowDots :=
  let chains := ladderChains c ch
  let dots := (List.range chains.length).flatMap fun k =>
    let rows := nth chains k []
    (List.range rows.length).filterMap fun i =>
      (rows[i]?).map fun r => (r.head, r.rowB, ladderDots c live r (subBandsBefore c ch + 2 * k + i % 2) line)
  (headRows c ch).map fun (h, p, b) =>
    { head := h, hub := p.hub, port := p.port, rowB := b,
      dots := ((dots.find? fun d => d.1 == h && d.2.1 == b).map (·.2.2)).getD [] }

/-- Lines of web per metre times a number of metres, at 1,200 lines per inch. -/
def metres (m : Nat) : Nat := m * 6000000 / 127

/-- The first line that no channel has begun to render, and that is not before the job's first (R68; log 43). -/
def unrendered (s : State) : Int :=
  ((List.range 16).filter (inJob s)).foldl (fun a c => max a (chan s c).render) s.job.first

/-- The first ladder slot at or after an image line, when the set declares slots (R316). -/
def nextSlot (c : CfgSet) (line : Int) : Option Int :=
  let p := bankGet c.regs Fld.CLP_LSLOT_LADDER_PERIOD 0
  let ph : Int := bankGet c.regs Fld.CLP_LSLOT_LADDER_PHASE 0
  if p = 0 then none else some (if line ≤ ph then ph else ph + (line - ph + p - 1) / p * p)

/-- A ladder placed at a slot line: the bands stand in the order of their lines. -/
def placeLadder (s : State) (line : Int) : State :=
  let before := s.colour.bands.filter fun b => decide (b.1 < line)
  let after := s.colour.bands.filter fun b => decide (line < b.1)
  { s with colour := { s.colour with
    bands := before ++ [(line, ladderLines s.sets.active)] ++ after, lastLadder := line, noSlot := false } }

/-- No slot within 2 × LADDER_INTERVAL of the last ladder (R316): reported once. -/
def noLadderSlot (s : State) (web : Int) : State :=
  if s.colour.noSlot then s
  else
    raise (sticky { s with colour := { s.colour with noSlot := true } } Fld.CLP_STATUS_LADDER_NO_SLOT) 0x090A 0
      (web * 127 / 6000000).toNat

/-- LADDER_SCHEDULE at a pick boundary (R316), while the loop's ladders have channels to print: the first slot that no channel has begun
to render, once LADDER_INTERVAL has passed; a slot beyond 2 × LADDER_INTERVAL is taken when that is reported. -/
def scheduleLadder (s : State) : State :=
  let c := s.sets.active
  let every := metres (bankGet c.regs Fld.CLP_LADDER_LADDER_INTERVAL 0)
  let at_ := unrendered s
  let web := at_ - s.colour.lastLadder
  if s.sys.st ≠ .printing ∨ ladderLines c = 0 ∨ web < every then s
  else
    match nextSlot c at_ with
    | some l =>
      if s.colour.bands.any (·.1 == l) then s
      else if l - s.colour.lastLadder ≤ 2 * every then placeLadder s l
      else if 2 * every ≤ web then placeLadder (noLadderSlot s web) l
      else s
    | none => if 2 * every ≤ web then noLadderSlot s web else s

/-! ### Coverage (R309) -/

/-- A camera port. -/
def cam (s : State) (k : Nat) : CamPort := nth s.vision.cams k {}

/-- A camera port changed. -/
def setCam (s : State) (k : Nat) (f : CamPort → CamPort) : State :=
  { s with vision := { s.vision with cams := upd s.vision.cams k f } }

/-- Whether a camera port is enabled. -/
def camOn (s : State) (k : Nat) : Bool := liveFld s Fld.CAM_CTRL_CAM_EN k == 1

/-- The channel column x of a pixel (R303); none outside 0 to 106,495. -/
def pixelColumn (s : State) (k p : Nat) : Option Nat :=
  let p := if fld s Fld.CAM_PITCH_X_DIR k = 1 then fld s Fld.CAM_GEOM_CAM_WIDTH k - 1 - p else p
  let x := signedOf 24 (fld s Fld.CAM_POS_CAM_X0 k) + signedOf 8 (liveFld s Fld.CAM_TRIM_X_TRIM k) +
    ((p * fld s Fld.CAM_PITCH_X_PITCH k + 128) / 256 : Nat)
  if x < 1 ∨ (columns : Int) ≤ x then none else some x.toNat

/-- The drop units of a channel's line by column (R193, R194). -/
def columnUnits (c : CfgSet) (rows : List RowDots) : List (Int × Nat) :=
  rows.flatMap fun r => match setPlace c r.head with
    | some p => match setType c p.type with
      | some t => r.dots.map fun d => (rowColumn p t r.rowB d.1, dropUnits d.2)
      | none => []
    | none => []

/-- Units added to a coverage row, by pixel. -/
def addUnits (l : List (Nat × Nat)) (p u : Nat) : List (Nat × Nat) :=
  if l.any (·.1 == p) then l.map fun e => if e.1 = p then (p, e.2 + u) else e else l ++ [(p, u)]

/-- The row of frame n of a port that images a line, if any (R291). -/
def imagedRow (s : State) (k : Nat) (line : Int) : Option (Int × Nat) :=
  let sp : Int := fld s Fld.CAM_FRAME_FRAME_SPACING k
  let st := fld s Fld.CAM_GEOM_ROW_STEP k
  let d := line - (fld s Fld.CAM_PHASE_FRAME_PHASE k : Int)
  if sp ≤ 0 ∨ st = 0 then none
  else
    let j := ((d % sp).toNat) / st
    if (d % sp).toNat % st ≤ 1 ∧ j < fld s Fld.CAM_GEOM_CAM_ROWS k then some (d / sp, j) else none

/-- The coverage records of a port with one row's units added; at most 16 frames a port (R309). -/
def addCoverage (l : List CovRec) (k : Nat) (num : Int) (row slot : Nat) (us : List (Nat × Nat)) : List CovRec :=
  let same (r : CovRec) : Bool := r.port == k && r.num == num && r.row == row && r.slot == slot
  let l := if l.any same then l.map fun r => if same r then { r with units := us.foldl (fun a u => addUnits a u.1 u.2) r.units } else r
    else l ++ [⟨k, num, row, slot, us⟩]
  let nums := ((l.filter (·.port == k)).map (·.num)).dedup
  let old := nums.take (nums.length - 16)
  l.filter fun r => !(r.port == k && old.contains r.num)

/-- A rendered line recorded for every enabled port whose frame images it (R309). -/
def recordCoverage (s : State) (c : Nat) (cfg : CfgSet) (line : Int) (rows : List RowDots) : State :=
  let slot := fld s Fld.CLP_SLOT_SLOT c
  if 8 ≤ slot then s
  else
    (List.range 2).foldl (fun s k =>
      match (if camOn s k then imagedRow s k line else none) with
      | none => s
      | some (num, row) =>
        let us := columnUnits cfg rows
        let px := (List.range (fld s Fld.CAM_GEOM_CAM_WIDTH k)).filterMap fun p =>
          match pixelColumn s k p with
          | some x =>
            let u := (us.filter fun e => e.1 == (x : Int) - 1 || e.1 == (x : Int)).map (·.2)
            if u.sum = 0 then none else some (p, u.sum)
          | none => none
        { s with colour := { s.colour with cov := addCoverage s.colour.cov k num row slot px } }) s

/-- U of a slot at a pixel and row, capped at 32 (R305). -/
def coverUnits (s : State) (k : Nat) (num : Int) (row slot p : Nat) : Nat :=
  match s.colour.cov.find? fun r => r.port == k && r.num == num && r.row == row && r.slot == slot with
  | some r => Nat.min 32 (((r.units.find? (·.1 == p)).map (·.2)).getD 0)
  | none => 0

/-! ### Accumulation and solve (R305 to R312) -/

/-- An exact value rounded to IEEE 754 single precision, to nearest even (R308; log 14). -/
def toSingle (r : Rat) : Rat :=
  if r = 0 then 0
  else
    let a := |r|
    let e : Int := (Nat.log2 a.num.natAbs : Int) - Nat.log2 a.den
    let e := if (2 : Rat) ^ e ≤ a then e else e - 1
    let unit := (2 : Rat) ^ (max (e - 23) (-149))
    let q := r / unit
    let f := q.floor
    let d := q - f
    let n := if d < 1 / 2 then f else if 1 / 2 < d then f + 1 else if f % 2 = 0 then f else f + 1
    n * unit

/-- The place of H[i][j], i at most j, in the upper triangle by rows. -/
def triIndex (i j : Nat) : Nat := i * 8 - i * (i - 1) / 2 + (j - i)

/-- An observation added to a group's accumulators (R308). -/
def addObs (a : Accum) (x : List Rat) (r : Rat) : Accum :=
  { n := a.n + 1
    m := (List.range 8).foldl (fun m i => (List.range 8).foldl (fun m j =>
      if i ≤ j then upd m (triIndex i j) fun h => toSingle (h + nth x i 0 * nth x j 0) else m) m) a.m
    v := (List.range 8).map fun i => toSingle (nth a.v i 0 + nth x i 0 * r) }

/-- The accumulators of a group with an observation added. -/
def addGroup (l : List (Nat × Accum)) (g : Nat) (x : List Rat) (r : Rat) : List (Nat × Accum) :=
  if l.any (·.1 == g) then l.map fun e => if e.1 = g then (g, addObs e.2 x r) else e
  else l ++ [(g, addObs {} x r)]

/-- The predicted contributions x of the slots in a band (R305). -/
def contributions (s : State) (units : Nat → Nat) (band : Nat) : List Rat :=
  (List.range 8).map fun i =>
    (fld s Fld.CLP_K_K (4 * i + band) : Rat) / 16384 * ((fld s Fld.CLP_DCURVE_DCURVE (33 * i + units i) : Rat) / 32768)

/-- Elimination of a symmetric system from its first row: the solution, or none when a pivot lies below the limit. The pivots
are those of the Cholesky factor. -/
def solveRows (lim : Rat) : Nat → List (List Rat) → Option (List Rat)
  | 0, _ => some []
  | _, [] => some []
  | n + 1, row :: rows =>
    match row with
    | [] => some []
    | p :: rest =>
      if p < lim ∨ p ≤ 0 then none
      else
        let left := rows.map fun r => match r with
          | [] => []
          | q :: qs => (List.range qs.length).map fun i => nth qs i 0 - q / p * nth rest i 0
        match solveRows lim n left with
        | none => none
        | some xs => some ((nth rest (rest.length - 1) 0 - ((List.range xs.length).map fun i => nth rest i 0 * nth xs i 0).sum) / p :: xs)

/-- H[i][j] of a group. -/
def hAt (a : Accum) (i j : Nat) : Rat := nth a.m (if i ≤ j then triIndex i j else triIndex j i) 0

/-- Whether a slot has a channel. -/
def slotUsed (s : State) (i : Nat) : Bool := (List.range 16).any fun c => fld s Fld.CLP_SLOT_SLOT c == i

/-- The excited slots of a group (R312). -/
def excited (s : State) (a : Accum) : List Nat :=
  (List.range 8).filter fun i => slotUsed s i &&
    decide ((a.n : Rat) * ((fld s Fld.CLP_SOLVE_MIN_EXCITE : Rat) / 256) ^ 2 ≤ hAt a i i)

/-- δ of the excited slots of a group; none when it is ill-conditioned (R312). -/
def groupDelta (s : State) (a : Accum) : Option (List (Nat × Rat)) :=
  let es := excited s a
  let trace := (es.map fun i => hAt a i i).sum
  let add := trace / es.length * (fld s Fld.CLP_SOLVE_RIDGE : Rat) / 4096
  let diag := es.map fun i => hAt a i i + add
  let lim := diag.foldl max 0 / 2 ^ fld s Fld.CLP_SOLVE_COND
  let rows := es.map fun i => (es.map fun j => hAt a i j + (if i = j then add else 0)) ++ [nth a.v i 0]
  (solveRows lim es.length rows).map fun xs => es.zip xs

/-- A value held between two bounds. -/
def clampRat (x lo hi : Rat) : Rat := max lo (min hi x)

/-- The new coefficient of a channel's group from δ (R312), rounded to nearest. -/
def newCoef (s : State) (k old : Nat) (d : Rat) : Nat :=
  let lo : Rat := (fld s Fld.CLP_LIMITS_COEF_MIN : Rat) / 16384
  let hi : Rat := (fld s Fld.CLP_LIMITS_COEF_MAX : Rat) / 16384
  let target := clampRat (if 1 + d = 0 then Config.zeroTarget k else 1 / (1 + d)) lo hi
  let c : Rat := (old : Rat) / 16384
  let step : Rat := (fld s Fld.CLP_CTRL_STEP_MAX : Rat) / 1000
  let e := clampRat ((if c = 0 then Config.zeroCoef k else target / c) - 1) (-step) step
  (clampRat (c * (1 + (fld s Fld.CLP_CTRL_CLP_GAIN : Rat) / 256 * e)) lo hi * 16384 + 1 / 2).floor.toNat

/-- The solve of one group (R312): coefficients and δ written; the last component counts it as updated. -/
def solveGroup (s : State) (g : Nat) (a : Accum) : State × Bool :=
  if a.n < fld s Fld.CLP_SOLVE_MIN_OBS then (bump s Fld.CLP_GROUPS_GROUPS_SKIPPED, false)
  else match groupDelta s a with
    | none => (bump s Fld.CLP_GROUPS_GROUPS_ILL_COND, false)
    | some ds =>
      let s := ds.foldl (fun s (i, d) =>
        let s := setFld s Fld.CLP_DELTA_DELTA i (unsignedOf 16 (satSigned 16 (d * 32768 + 1 / 2).floor)) g
        (List.range 16).foldl (fun s c =>
          if fld s Fld.CLP_SLOT_SLOT c = i ∧ !(liveFld s Fld.CLP_FREEZE_FREEZE).testBit c then
            let (k, s) := fresh s
            setFld s Fld.CLP_COEF_COEF c (newCoef s k (coefOf s c g) d) g
          else s) s) s
      (s, !ds.isEmpty)

/-- The groups of a slot held at a limit. -/
def atLimit (s : State) (i : Nat) (groups : List Nat) : Nat :=
  groups.countP fun g => (List.range 16).any fun c => fld s Fld.CLP_SLOT_SLOT c == i &&
    (coefOf s c g == fld s Fld.CLP_LIMITS_COEF_MIN || coefOf s c g == fld s Fld.CLP_LIMITS_COEF_MAX)

/-- The set handed to the service cores, and the next integration begun (R310), when the last is solved. -/
def handOff (s : State) : State :=
  if s.colour.solving.isSome then s
  else
    let len := metres (fld s Fld.CLP_CTRL_CLP_LENGTH)
    let k := s.colour.intStart + s.colour.intLen
    setFld { s with colour := { s.colour with
        solving := some s.colour.cur, cur := [], intStart := k, intLen := len, intDone := [false, false], late := false } }
      Fld.CLP_STATUS_SOLVING 0 1

/-- SOLVE_DONE (R311, R312, R314): the solve's results; a standby's solve writes nothing (R315), and from throttle level 2 solving
pauses (R549). -/
def execSolveDone (t : Nat) (s : State) : Host.Outcome State Fault Refusal :=
  let s := begin s t
  .next (if 2 ≤ throttle s then s else match s.colour.solving with
    | none => s
    | some groups =>
      let s := setFld { s with colour := { s.colour with solving := none } } Fld.CLP_STATUS_SOLVING 0 0
      if s.pair.role = .standby then s
      else
        let before := s
        let s := setFld (setFld s Fld.CLP_GROUPS_GROUPS_SKIPPED 0 0) Fld.CLP_GROUPS_GROUPS_ILL_COND 0 0
        let total := ceilDiv columns (groupSize s)
        let s := setFld s Fld.CLP_GROUPS_GROUPS_SKIPPED 0 (total - groups.length)
        let (s, n) := groups.foldl (fun (p : State × Nat) e =>
          let (s, up) := solveGroup p.1 e.1 e.2
          (s, p.2 + bit up)) (s, 0)
        let s := raise (doorbell (bump s Fld.CLP_SOLVES_SOLVES) 27) 0x0901 0 n
        let ill := liveFld s Fld.CLP_GROUPS_GROUPS_ILL_COND
        let s := if ill = 0 then s else raise (sticky s Fld.CLP_STATUS_ILL_COND) 0x0903 0 ill
        let s := (List.range 8).foldl (fun s i =>
          let k := if slotUsed s i then atLimit s i (groups.map (·.1)) else 0
          if k = 0 then s else raise (sticky s Fld.CLP_STATUS_COEF_LIMIT) 0x0904 i k) s
        let changed (c : Nat) : Bool := groups.any fun g => coefOf s c g.1 != coefOf before c g.1
        let thawed (c : Nat) : Bool := s.colour.thawed.testBit c && decide (fld s Fld.CLP_SLOT_SLOT c < 8)
        let mark (c : Nat) : Option Nat :=
          if (changed c || thawed c) && !(liveFld s Fld.CLP_FREEZE_FREEZE).testBit c then some 0 else nth s.colour.issue c none
        { s with colour := { s.colour with issue := (List.range 16).map mark, thawed := 0 } })

/-- After a takeover without an enabled camera (R315). -/
def colourTakeover (s : State) : State :=
  if fld s Fld.CLP_CTRL_CLP_EN = 1 ∧ !camOn s 0 ∧ !camOn s 1 then
    raise (sticky s Fld.CLP_STATUS_NO_CAMERA) 0x0909 0 0
  else s

/-- The slots whose channels are all pre-screened (R324). -/
def prescreened (c : CfgSet) (i : Nat) : Option Nat :=
  let mine := (List.range 16).filter fun ch => bankGet c.regs Fld.CLP_SLOT_SLOT ch == i
  if !mine.isEmpty ∧ mine.all (fun ch => bankGet c.regs Fld.WFT_CFG_INPUT_FORMAT ch == 1) then
    some ((mine.map (2 ^ ·)).sum) else none

/-- R324 at a completed swap: the slots that the new set makes wholly pre-screened. -/
def swapSlots (s : State) (old new : CfgSet) : State :=
  (List.range 8).foldl (fun s i => match prescreened new i, prescreened old i with
    | some m, none => raise (sticky s Fld.CLP_STATUS_UNCORRECTABLE) 0x090B i m
    | _, _ => s) s

/-! ### CLP messages -/

/-- CLP_FREEZE (R321). -/
def execClpFreeze (t : Nat) (ch : Fin 6) (tag mask value : Nat) (s : State) : Host.Outcome State Fault Refusal :=
  .next (message (begin s t) ch 6 0x10 tag true false fun s =>
    let v := liveFld s Fld.CLP_FREEZE_FREEZE
    let m := mask % 65536
    let v' := (v &&& (65535 ^^^ m)) ||| (value % 65536 &&& m)
    let s := { s with colour := { s.colour with thawed := (s.colour.thawed ||| v) &&& (65535 ^^^ v') } }
    (setFld s Fld.CLP_FREEZE_FREEZE 0 v', ⟨0, 0, [], false⟩))

/-- CLP_WHITE_RESET (R307). -/
def execClpWhiteReset (t : Nat) (ch : Fin 6) (tag ports : Nat) (s : State) : Host.Outcome State Fault Refusal :=
  .next (message (begin s t) ch 6 0x11 tag true false fun s =>
    if 4 ≤ ports then (s, ⟨4, 0, [], false⟩)
    else ((List.range 2).foldl (fun s k => if ports.testBit k then setCam s k fun p => { p with white := [], whiteNo := p.whiteNo + 1 } else s) s,
      ⟨0, 0, [], false⟩))

/-- CLP_LADDER_NOW (R316, R441): a ladder slot line that no channel has begun to render. -/
def execClpLadderNow (t : Nat) (ch : Fin 6) (tag line : Nat) (s : State) : Host.Outcome State Fault Refusal :=
  .next (message (begin s t) ch 6 0x12 tag true false fun s =>
    let c := s.sets.active
    if nextSlot c line ≠ some (line : Int) ∨ ladderLines c = 0 then (s, ⟨4, 0, [], false⟩)
    else if jobOn s ∧ Int.ofNat line < unrendered s then (s, ⟨12, 0, [], false⟩)
    else (placeLadder s line, ⟨0, 0, [], false⟩))

/-- CLP_READ_COEF (R323): coefficients, δ or base gains, two bytes each. -/
def execClpReadCoef (t : Nat) (ch : Fin 6) (tag kind index first count : Nat) (s : State) : Host.Outcome State Fault Refusal :=
  .next (message (begin s t) ch 6 0x14 tag false false fun s => (s,
    if 2 < kind ∨ 112 < count ∨ (if kind = 1 then 8 else 16) ≤ index then ⟨4, 0, [], false⟩
    else ⟨0, 0, (List.range count).flatMap fun i => leBytes 2 (match kind with
      | 0 => coefOf s index (first + i)
      | 1 => liveFld s Fld.CLP_DELTA_DELTA index (first + i)
      | _ => bitsOf (baseEntry s index (first + i)) 0 8), false⟩))

end Sys2Proof.Machine
end

