-- ==== Sys2Proof/Machine/Compare.lean ====
section
/-!
DEFINITION. The standby's comparison of lines with the active's (R342, R343), its health score (R345) and the stages of
resynchronisation (R364, R365).
-/
namespace Sys2Proof.Machine

/-- The health score changed, within 0 to 100; a fall below HEALTH_MIN is reported (R345). -/
def changeScore (s : State) (d : Int) : State :=
  let min := liveFld s Fld.PAIR_CTRL_HEALTH_MIN
  let old := s.pair.score
  let new := Nat.min 100 ((old : Int) + d).toNat
  let s := { s with pair := { s.pair with score := new } }
  if min ≤ old ∧ new < min then raise (sticky s Fld.PAIR_STATUS_HEALTH_LOW) 0x0B0A (unitNo s) new else s

/-- The enabled channels of the active set. -/
def enabledChans (s : State) : List Nat := (List.range 16).filter fun c => bankGet s.sets.active.regs Fld.WFT_CFG_CH_EN c == 1

/-- SYNCED is reached in stage 5 once 1,000 consecutive lines of every enabled channel have matched (R365). -/
def judgeSynced (s : State) : State :=
  if s.pair.stage = 5 ∧ (enabledChans s).all (fun c => decide (1000 ≤ nth s.pair.chanRun c 0)) then
    let s := { s with pair := { s.pair with synced := true, score := 100, stage := 0, matchCount := 0 } }
    doorbell (raise s 0x0B0C (unitNo s) 0) 29
  else s

/-- A stage of resynchronisation begins (R364): its data is asked for; stage 5 compares lines. -/
def startStage (s : State) (n : Nat) : State :=
  let s := { s with pair := { s.pair with stage := n } }
  let s := doorbell (raise s 0x0B0B (unitNo s) n) 29
  if n < 5 then toPeer s (.resync n)
  else judgeSynced { s with pair := { s.pair with chanRun := List.replicate 16 0, chanLast := List.replicate 16 (-1) } }

/-- Resynchronisation starts from stage 1. -/
def startResync (s : State) : State := startStage { s with pair := { s.pair with synced := false, matchRun := 0 } } 1

/-- A comparison without an unexplained mismatch: 10,000 in a row raise the score (R345). -/
def countCompare (s : State) : State :=
  let n := s.pair.matchCount + 1
  let s := { s with pair := { s.pair with matchCount := if n = 10000 then 0 else n } }
  if n = 10000 then changeScore s 1 else s

/-- A run of matched lines goes on: a line counts once, whichever of its lane groups is compared first. -/
def matchLine (s : State) (c : Nat) (line : Int) : State :=
  let p := s.pair
  let s := if nth p.chanLast c (-1) = line then s
    else { s with pair := { p with
      matchRun := satNat 16 (p.matchRun + 1), chanRun := upd p.chanRun c (· + 1), chanLast := upd p.chanLast c fun _ => line } }
  judgeSynced (countCompare s)

/-- The runs of a channel end. -/
def endRuns (s : State) (c : Nat) : State :=
  { s with pair := { s.pair with matchRun := 0, chanRun := upd s.pair.chanRun c fun _ => 0 } }

/-- A mismatch without a known cause (R342, R345): event 0x0B09 at most once per pick per channel. -/
def mismatch (s : State) (c : Nat) (line : Int) : State :=
  let s := sticky (bump (endRuns s c) Fld.PAIR_MISMATCH_MISMATCHES c) Fld.PAIR_STATUS_MISMATCH
  let s := changeScore { s with pair := { s.pair with matchCount := 0 } } (-10)
  if s.pair.mismatchEv.contains c then s
  else raise { s with pair := { s.pair with mismatchEv := c :: s.pair.mismatchEv } } 0x0B09 c (low32 line)

/-- Whether a channel's line lies under a discarded block (R343): until the copy of the correction store has applied, and before the line
from which it does. -/
def corrExplains (s : State) (c : Nat) (line : Int) : Bool :=
  (chan s c).corrLost || (match (chan s c).corrFrom with | some l => decide (line < l) | none => false)

/-- One lane group of a line compared (R342, R343): a line that either unit substituted, or of a channel with a discarded block, is
explained. -/
def compareLine (s : State) (c : Nat) (line : Int) (equal subst : Bool) : State :=
  if equal then matchLine s c line
  else if subst ∨ (chan s c).substLines.contains line ∨ corrExplains s c line then
    countCompare (bump (endRuns s c) Fld.PAIR_MISMATCH_MISMATCHES_EXPLAINED c)
  else mismatch s c line

/-- The standby's own CRC of a line and lane group: compared with the active's, or kept until that arrives. -/
def ownCrc (s : State) (c u : Nat) (line : Int) (crc : Nat) : State :=
  match s.pair.peerCrcs.find? fun x => x.1 == c && x.2.1 == u && x.2.2.1 == line with
  | some x =>
    compareLine { s with pair := { s.pair with peerCrcs := s.pair.peerCrcs.filter (· != x) } } c line (x.2.2.2.1 == crc) x.2.2.2.2
  | none => { s with pair := { s.pair with crcs := lastN 4096 (s.pair.crcs ++ [(c, u, line, crc)]) } }

/-- Whether the unit takes what its partner sends: a pair with firmware running and record keys (R329, R501, R614). -/
def peerTalks (s : State) : Bool := s.pair.capable && serving s && s.pair.keys.isSome

/-- A failure of what the partner sends (R500, R501, R508, R512): 1 the set-up, 2 a tag, 3 a consumable signature. -/
def peerAuthFail (s : State) (which : Nat) : State :=
  audit (raise (sticky s Fld.SEC_STATUS_PEER_AUTH_FAIL) 0x0C0F (unitNo s) which) 0x0C0F 0 which

/-- A packet of the peer link as its tag leaves it (R501): one that fails is invalid and changes nothing else. -/
def ifAuthentic (s : State) (tagOk : Bool) (act : State → State) : State :=
  if !peerTalks s ∨ tagOk then act s else peerAuthFail s 2

/-- A pick record under the link's keys counted: the 2^31st asks for a fresh set-up, and the keys stay until it is done (R501). -/
def countKeyed (s : State) : State :=
  let n := s.pair.keyedRecs + 1
  let s := { s with pair := { s.pair with keyedRecs := n } }
  if n = 2 ^ 31 then toPeer s .setup else s

/-- LINE_CRC_RECEIVE (R342, R614): compared with the standby's own, or kept until it has rendered the line. -/
def execLineCrcReceive (t : Nat) (c : Fin 16) (hub : Fin 24) (line : Int) (crc : Nat) (subst tagOk : Bool) (s : State) :
    Host.Outcome State Fault Refusal :=
  .next (ifAuthentic (begin s t) tagOk fun s =>
    if s.pair.role ≠ .standby ∨ !peerTalks s then s
    else
      let s := { s with pair := { s.pair with peerLast := now s } }
      match s.pair.crcs.find? fun x => x.1 == c.val && x.2.1 == hub.val && x.2.2.1 == line with
      | some x => compareLine { s with pair := { s.pair with crcs := s.pair.crcs.filter (· != x) } } c line (x.2.2.2 == crc) subst
      | none => { s with pair := { s.pair with peerCrcs := lastN 4096 (s.pair.peerCrcs ++ [(c.val, hub.val, line, crc, subst)]) } })

end Sys2Proof.Machine
end

