-- ==== Sys2Proof/Machine/Codec.lean ====
section
/-!
DEFINITION. The line codec of chapter 05: the JLC strip (R137 to R140), its tokens (R141 to R144), the decoder (R145, R146,
R618), the decode cost (R147, R148), the module's own encoder (R149 to R151) and the stop and resume of an encode job
(R157 to R159).
-/
namespace Sys2Proof.Machine

/-- A strip's header fields (R137). -/
structure StripHead where
  lineWidth : Nat
  lineCount : Nat
  mode      : Nat
  length    : Nat
  crc       : Nat
  deriving DecidableEq, Repr

/-- A finished decode: its output bytes and its decode cost; or the error code of R146 with the cycles spent so far. -/
inductive Decoded where
  | ok (head : StripHead) (bytes : List Byte) (cost : Nat)
  | bad (code : Nat) (cost : Nat)
  deriving DecidableEq, Repr

/-- The payload bound of R140 for a coded strip. -/
def payloadBound (w n : Nat) : Nat := n * (w + ceilDiv w 64) + 1

/-- The header checks of R145, in their order: the code of the first that fails, or 0. -/
def headError (h : List Byte) (s : StripHead) : Nat :=
  if leAt h 0 4 ≠ 0x31434C4A then 1
  else if leAt h 20 4 ≠ crc32c (bytesAt h 0 20) then 2
  else if leAt h 24 8 ≠ 0 then 16
  else if leAt h 11 1 ≠ 0 then 6
  else if s.lineWidth < 1 ∨ 262144 < s.lineWidth then 3
  else if s.lineCount < 1 ∨ 4096 < s.lineCount ∨ 262144 < s.lineWidth * s.lineCount then 4
  else if 1 < s.mode then 5
  else if s.mode = 0 ∧ s.length ≠ s.lineWidth * s.lineCount then 7
  else if s.mode = 1 ∧ payloadBound s.lineWidth s.lineCount < s.length then 7
  else 0

/-- The header fields in 32 bytes (R137). -/
def readHead (h : List Byte) : StripHead :=
  ⟨leAt h 4 4, leAt h 8 2, leAt h 10 1, leAt h 12 4, leAt h 16 4⟩

/-- The 32 bytes of a header (R137). -/
def writeHead (s : StripHead) : List Byte :=
  let front := leBytes 4 0x31434C4A ++ leBytes 4 s.lineWidth ++ leBytes 2 s.lineCount ++ leBytes 1 s.mode ++
    leBytes 1 0 ++ leBytes 4 s.length ++ leBytes 4 s.crc
  front ++ leBytes 4 (crc32c front) ++ leBytes 8 0

/-- `n` bytes, each a copy of the byte `d` places back in an output held last byte first (R144). -/
def copyBack (d : Nat) : Nat → List Byte → List Byte
  | 0, rev => rev
  | n + 1, rev => copyBack d n ((rev[d - 1]?).getD 0 :: rev)

/-- `n` bytes of the previous line; line 0's previous line is zeros (R143). -/
def copyUp (w n line : Nat) (rev : List Byte) : List Byte :=
  if line = 0 then List.replicate n 0 ++ rev else copyBack w n rev

/-- The cycles of one token of `n` output bytes (R147). -/
def tokenCost (n : Nat) : Nat := Nat.max 1 (ceilDiv n 16)

/-- The token loop of R145 over the payload bytes left, the output so far (last byte first), its length and the cycles
spent; `fuel` bounds the tokens by the payload's length. -/
def decodeTokens (w n : Nat) : Nat → List Byte → List Byte → Nat → Nat → Except (Nat × Nat) (List Byte × Nat)
  | 0, _, _, _, c => .error (12, c)
  | fuel + 1, p, rev, k, c =>
    if n * w ≤ k then
      match p with
      | [] => .error (12, c)
      | op :: rest =>
        if op ≠ 0xFF then .error (12, c) else if rest ≠ [] then .error (13, c + 1) else .ok (rev, c + 1)
    else
      match p with
      | [] => .error (12, c)
      | op :: rest =>
        let x := op.toNat
        let r := w - k % w
        let line := k / w
        if x = 0xFF then .error (11, c)
        else if 0xE4 ≤ x then .error (8, c)
        else if x < 0x40 then
          let m := x + 1
          if r < m then .error (9, c)
          else if rest.length < m then .error (12, c)
          else decodeTokens w n fuel (rest.drop m) ((rest.take m).reverse ++ rev) (k + m) (c + tokenCost m)
        else if x < 0x80 then
          let m := x - 0x40 + 3
          if r < m then .error (9, c)
          else match rest with
            | [] => .error (12, c)
            | v :: rest => decodeTokens w n fuel rest (List.replicate m v ++ rev) (k + m) (c + tokenCost m)
        else if x < 0xC0 then
          let m := (x - 0x80 + 1) * 4
          if r < m then .error (9, c)
          else decodeTokens w n fuel rest (copyUp w m line rev) (k + m) (c + tokenCost m)
        else if x < 0xE0 then
          let m := x - 0xC0 + 4
          if r < m then .error (9, c)
          else match rest with
            | d0 :: d1 :: rest =>
              let d := d0.toNat + 256 * d1.toNat
              if d = 0 ∨ k < d then .error (10, c)
              else decodeTokens w n fuel rest (copyBack d m rev) (k + m)
                (c + if d < 16 then ceilDiv m d else tokenCost m)
            | _ => .error (12, c)
        else if x = 0xE0 then
          match rest with
          | c0 :: c1 :: rest =>
            let m := c0.toNat + 256 * c1.toNat + 67
            if r < m then .error (9, c)
            else match rest with
              | [] => .error (12, c)
              | v :: rest => decodeTokens w n fuel rest (List.replicate m v ++ rev) (k + m) (c + tokenCost m)
          | _ => .error (12, c)
        else if x = 0xE1 then
          match rest with
          | c0 :: c1 :: rest =>
            let m := (c0.toNat + 256 * c1.toNat + 65) * 4
            if r < m then .error (9, c)
            else decodeTokens w n fuel rest (copyUp w m line rev) (k + m) (c + tokenCost m)
          | _ => .error (12, c)
        else if x = 0xE2 then decodeTokens w n fuel rest (copyUp w r line rev) (k + r) (c + tokenCost r)
        else decodeTokens w n fuel rest (List.replicate r 0 ++ rev) (k + r) (c + tokenCost r)

/-- The decode cost of R147 from the sum of the token cycles. -/
def decodeCost (length cycles : Nat) : Nat := 64 + Nat.max (ceilDiv length 16) cycles

/-- Decode the strip that begins the bytes available (R145, R618). -/
def decodeStrip (bs : List Byte) : Decoded :=
  if bs.length < 32 then .bad 7 0
  else
    let s := readHead bs
    let e := headError bs s
    if e ≠ 0 then .bad e 0
    else if bs.length - 32 < s.length then .bad 12 (decodeCost 0 0)
    else
      let p := (bs.drop 32).take s.length
      if s.mode = 0 then
        if crc32c p ≠ s.crc then .bad 14 (64 + ceilDiv s.length 16) else .ok s p (64 + ceilDiv s.length 16)
      else
        match decodeTokens s.lineWidth s.lineCount (p.length + 1) p [] 0 0 with
        | .error (code, c) => .bad code (decodeCost s.length c)
        | .ok (rev, c) =>
          let out := rev.reverse
          if crc32c out ≠ s.crc then .bad 14 (decodeCost s.length c) else .ok s out (decodeCost s.length c)

/-- A weft-channel decode against the recorded cost (R147): COST_EXCEEDED when the recorded cycles run out first. -/
def decodeWithin (recorded : Nat) (bs : List Byte) : Decoded :=
  match decodeStrip bs with
  | .ok h out c => if recorded < c then .bad 20 recorded else .ok h out c
  | .bad e c => if recorded < c then .bad 20 recorded else .bad e c

/-- The cost limit of a strip of `u` original bytes (R148). -/
def costLimit (u perCycle : Nat) : Nat := ceilDiv u perCycle + 128

/-! ### The module's encoder -/

/-- A token of the encoder: its bytes, the input bytes it covers and its cycles. -/
structure Token where
  bytes : List Byte
  cover : Nat
  cost  : Nat
  isLit : Bool := false
  deriving DecidableEq, Repr

/-- The leading bytes, at most `n`, at which two lists agree. -/
def runEq : Nat → List Byte → List Byte → Nat
  | n + 1, a :: as, b :: bs => if a = b then runEq n as bs + 1 else 0
  | _, _, _ => 0

/-- The slot of R149 for the four bytes at a position. -/
def encSlot (bs : List Byte) : Nat := leAt bs 0 4 * 0x9E3779B1 % 2 ^ 32 / 2 ^ 20

/-- The candidate table after the encoder moves past `n` positions from `p` on (R149); newest entry first. -/
def encNote (strip : List Byte) (p : Nat) : Nat → List (Nat × Nat) → List (Nat × Nat)
  | 0, t => t
  | n + 1, t =>
    encNote strip (p + 1) n (if p + 3 < strip.length then (encSlot (strip.drop p), p) :: t else t)

/-- The literal token of the pending run (R150). -/
def litToken (lits : List Byte) : Token :=
  ⟨BitVec.ofNat 8 (lits.length - 1) :: lits, lits.length, tokenCost lits.length, true⟩

/-- The pending run's token, before any other (R150); none when nothing is pending. -/
def flushLits (lits : List Byte) (acc : List Token) : List Token := if lits = [] then acc else litToken lits :: acc

/-- The encoder's decision at position `p` (R150): the token it emits, or none when the byte joins the literal run. -/
def encDecide (strip : List Byte) (w p : Nat) (table : List (Nat × Nat)) : Option Token :=
  let r := w - p % w
  let here := strip.drop p
  let prev := if p < w then List.replicate r 0 else strip.drop (p - w)
  let u := runEq r here prev
  let zeros := runEq r here (List.replicate r 0)
  if u = r then some ⟨[0xE2], r, tokenCost r, false⟩
  else if zeros = r then some ⟨[0xE3], r, tokenCost r, false⟩
  else
    let up := Nat.min (u / 4 * 4) 262400
    let v := (here[0]?).getD 0
    let f := Nat.min (runEq r here (List.replicate r v)) 65602
    let cand := if here.length < 4 then none else (table.find? fun e => e.1 == encSlot here).map (·.2)
    let w' := match cand with
      | none => 0
      | some q => if 65535 < p - q then 0 else runEq (Nat.min r 35) here (strip.drop q)
    let up := if up < 4 then 0 else up
    let f := if f < 3 then 0 else f
    let win := if w' < 4 then 0 else w'
    if up = 0 ∧ f = 0 ∧ win = 0 then none
    else if f ≤ up ∧ win ≤ up then
      some (if up ≤ 256 then ⟨[BitVec.ofNat 8 (0x80 + up / 4 - 1)], up, tokenCost up, false⟩
        else ⟨0xE1 :: leBytes 2 (up / 4 - 65), up, tokenCost up, false⟩)
    else if win ≤ f then
      some (if f ≤ 66 then ⟨[BitVec.ofNat 8 (0x40 + f - 3), v], f, tokenCost f, false⟩
        else ⟨0xE0 :: (leBytes 2 (f - 67) ++ [v]), f, tokenCost f, false⟩)
    else
      let d := p - cand.getD 0
      some ⟨BitVec.ofNat 8 (0xC0 + win - 4) :: leBytes 2 d, win, if d < 16 then ceilDiv win d else tokenCost win, false⟩

/-- The encoder over one strip from position `p`: literals pending, candidate table and tokens so far, last first. -/
def encLoop (strip : List Byte) (w : Nat) : Nat → Nat → List Byte → List (Nat × Nat) → List Token → List Token
  | 0, _, lits, _, acc => flushLits lits acc
  | fuel + 1, p, lits, table, acc =>
    if strip.length ≤ p then flushLits lits acc
    else match encDecide strip w p table with
      | some tok => encLoop strip w fuel (p + tok.cover) [] (encNote strip p tok.cover table) (tok :: flushLits lits acc)
      | none =>
        let lits := lits ++ [(strip[p]?).getD 0]
        let table := encNote strip p 1 table
        if lits.length = 64 ∨ (p + 1) % w = 0 then encLoop strip w fuel (p + 1) [] table (litToken lits :: acc)
        else encLoop strip w fuel (p + 1) lits table acc

/-- The token stream of a strip of `w`-byte lines, END last (R149, R150). -/
def encodeTokens (w : Nat) (strip : List Byte) : List Token :=
  (encLoop strip w (strip.length + 1) 0 [] [] []).reverse ++ [⟨[0xFF], 0, 1, false⟩]

/-- A strip as the encoder writes it: header, payload and decode cost. -/
structure Encoded where
  head    : StripHead
  payload : List Byte
  cost    : Nat
  deriving DecidableEq, Repr

/-- The bytes of a strip: header then payload. -/
def Encoded.bytes (e : Encoded) : List Byte := writeHead e.head ++ e.payload

/-- A strip in stored mode (R140). -/
def storedStrip (w : Nat) (strip : List Byte) : Encoded :=
  ⟨⟨w, strip.length / w, 0, strip.length, crc32c strip⟩, strip, 64 + ceilDiv strip.length 16⟩

/-- A strip in coded mode. -/
def codedStrip (w : Nat) (strip : List Byte) : Encoded :=
  let toks := encodeTokens w strip
  let p := toks.flatMap (·.bytes)
  ⟨⟨w, strip.length / w, 1, p.length, crc32c strip⟩, p, decodeCost p.length (toks.map (·.cost)).sum⟩

/-- Whether the encoder falls back to stored mode (R151): over the cost limit always, not shorter under the setting. -/
def fallsBack (fallback overCost : Bool) (perCycle u : Nat) (e : Encoded) : Bool :=
  (overCost && decide (costLimit u perCycle < e.cost)) || (fallback && decide (u ≤ e.payload.length))

/-- The module's own encoder on ingest (R151, R152). -/
def encodeStrip (fallback : Bool) (perCycle w : Nat) (strip : List Byte) : Encoded :=
  let e := codedStrip w strip
  if fallsBack fallback true perCycle strip.length e then storedStrip w strip else e

/-! ### Codec jobs that stop when the output buffer runs out (R158, R159) -/

/-- Where an encode job stands in a strip: input covered, payload written, the tokens still to come. -/
structure EncPoint where
  covered : Nat
  written : Nat
  left    : List Token
  deriving DecidableEq, Repr

/-- Emit whole tokens while they fit in `room` bytes (R158): the bytes, and the point reached. -/
def emitTokens : List Token → Nat → Nat → Nat → List Byte × EncPoint
  | [], cov, wr, _ => ([], ⟨cov, wr, []⟩)
  | t :: ts, cov, wr, room =>
    if room < t.bytes.length then ([], ⟨cov, wr, t :: ts⟩)
    else
      let (bs, pt) := emitTokens ts (cov + t.cover) (wr + t.bytes.length) (room - t.bytes.length)
      (t.bytes ++ bs, pt)

/-- The tokens that follow the first `n` covered bytes and `m` payload bytes of a stream. -/
def dropTokens : List Token → Nat → List Token
  | [], _ => []
  | t :: ts, m => if m = 0 then t :: ts else dropTokens ts (m - t.bytes.length)

/-- The first 48 bytes of the resume record (R159). -/
def resumeFront (w lps stripSource covered soFar crcState pend index : Nat) : List Byte :=
  leBytes 4 1 ++ leBytes 4 w ++ leBytes 2 lps ++ leBytes 2 (covered / w) ++ leBytes 4 (covered % w) ++
  leBytes 8 stripSource ++ leBytes 4 covered ++ leBytes 4 soFar ++ leBytes 4 crcState ++ leBytes 1 pend ++ leBytes 3 0 ++
  leBytes 4 index ++ leBytes 4 0

/-- The 64-byte resume record (R159). -/
def resumeRecord (w lps stripSource covered soFar crcState pend index : Nat) : List Byte :=
  let f := resumeFront w lps stripSource covered soFar crcState pend index
  f ++ leBytes 4 (crc32c f) ++ leBytes 12 0

/-- Cut a byte string into pieces of `n` bytes, the last one shorter; `fuel` bounds the pieces. -/
def cutEvery (n : Nat) : Nat → List Byte → List (List Byte)
  | 0, _ => []
  | _, [] => []
  | fuel + 1, bs => bs.take n :: cutEvery n fuel (bs.drop n)

/-- What an encode job call has produced. -/
structure EncodeRun where
  output   : List Byte := []
  headers  : List Byte := []
  done     : Nat := 0
  consumed : Nat := 0
  stopped  : Option (List Byte) := none
  deriving DecidableEq, Repr

/-- An encode job over the strips that remain (R157, R158). `index` counts strips of the job completed before, `src` is
the offset of this strip's first byte, `soFar` the payload bytes an earlier call already wrote for it, `room` the output
bytes left. Fallback applies only to a strip whose coded payload lies wholly in this output buffer (R151). -/
def encodeJob (w lps perCycle : Nat) (fallback : Bool) : List (List Byte) → Nat → Nat → Nat → Nat → EncodeRun → EncodeRun
  | [], _, _, _, _, acc => acc
  | s :: ss, index, src, soFar, room, acc =>
    let e := codedStrip w s
    let stored := storedStrip w s
    if soFar = 0 ∧ e.payload.length ≤ room ∧ stored.payload.length ≤ room ∧
        fallback ∧ fallsBack true true perCycle s.length e then
      encodeJob w lps perCycle fallback ss (index + 1) (src + s.length) 0 (room - stored.payload.length)
        { acc with output := acc.output ++ stored.payload, headers := acc.headers ++ writeHead stored.head,
                   done := acc.done + 1, consumed := src + s.length }
    else
      let toks := encodeTokens w s
      let rest := dropTokens toks soFar
      let cov := s.length - (rest.map (·.cover)).sum
      let (bs, pt) := emitTokens rest cov soFar room
      match pt.left with
      | [] =>
        encodeJob w lps perCycle fallback ss (index + 1) (src + s.length) 0 (room - bs.length)
          { acc with output := acc.output ++ bs, headers := acc.headers ++ writeHead e.head,
                     done := acc.done + 1, consumed := src + s.length }
      | t :: _ =>
        let pend := if t.isLit then t.cover else 0
        let crcState := (s.take pt.covered).foldl crcByte 0xFFFFFFFF
        { acc with output := acc.output ++ bs, consumed := src + pt.covered,
                   stopped := some (resumeRecord w lps src pt.covered pt.written crcState pend index) }

/-- What a decode job has produced (R157). -/
structure DecodeRun where
  output   : List Byte := []
  done     : Nat := 0
  consumed : Nat := 0
  code     : Nat := 0
  full     : Bool := false
  deriving DecidableEq, Repr

/-- A decode job: `count` strips, stopping before one that would not fit whole in the output buffer (R157). -/
def decodeJob : Nat → List Byte → Nat → DecodeRun → DecodeRun
  | 0, _, _, acc => acc
  | n + 1, bs, room, acc =>
    match decodeStrip bs with
    | .bad e _ => { acc with code := e }
    | .ok h out _ =>
      if room < out.length then { acc with full := true }
      else decodeJob n (bs.drop (32 + h.length)) (room - out.length)
        { acc with output := acc.output ++ out, done := acc.done + 1, consumed := acc.consumed + 32 + h.length }

end Sys2Proof.Machine
end

