-- ==== Sys2Proof/Machine/Dram.lean ====
section
/-!
DEFINITION. The four DRAM channels of the image store (chapter 04): where a data byte lies (R104, R107), the request queues with
their reservations and order (R112, R113, R115, R116), per-bank refresh (R117 to R119) and retraining (R109, R111, R120 to R122).
A request is one run of words of a row; it leaves its queue no later than the event that shows its access complete (log 78).
-/
namespace Sys2Proof.Machine

/-! ### Addresses -/

/-- Bytes of an interleave grain (R107, R135): the GRAIN in force since the start. -/
def grainBytes (s : State) : Nat := 256 * 2 ^ s.store.grainInForce

/-- Data bytes per row (R107). -/
def rowData (s : State) : Nat := if s.store.eccInForce then 1920 else 2048

/-- A data byte address mapped to a location of the store (R107): channel, bank, row, word, byte. -/
def mapAddress (grain d a : Nat) : Nat × Nat × Nat × Nat × Nat :=
  let chan := a / grain % 4
  let b := a / (4 * grain) * grain + a % grain
  let u := b / d
  (chan, (u % 16) ^^^ (u / 16 % 16), u / 16, b % d / 32, b % d % 32)

/-- The row that holds row unit u of a channel (R107). -/
def unitRow (chan u : Nat) : RowId := ⟨chan, (u % 16) ^^^ (u / 16 % 16), u / 16⟩

/-- The row unit of a row: `unitRow` the other way. -/
def rowUnit (r : RowId) : Nat := 16 * r.row + (r.bank ^^^ (r.row % 16))

/-- The row that holds the first byte of a grain. -/
def grainRow (s : State) (g : Nat) : RowId := unitRow (g % 4) (g / 4 * grainBytes s / rowData s)

/-- The rows a grain's bytes lie in, in order. -/
def grainRows (s : State) (g : Nat) : List RowId :=
  let a := g / 4 * grainBytes s
  let u := a / rowData s
  (List.range ((a + grainBytes s - 1) / rowData s - u + 1)).map fun i => unitRow (g % 4) (u + i)

/-- The grain whose bytes a word of a row holds. -/
def grainAt (s : State) (r : RowId) (word : Nat) : Nat :=
  (rowUnit r * rowData s + 32 * word) / grainBytes s * 4 + r.chan

/-- The places in its row of the two check bytes of a data word, with ECC on (R104). -/
def checkPlace (word : Nat) : Nat × Nat := (1920 + 2 * word, 1921 + 2 * word)

/-! ### Channels -/

/-- A DRAM channel. -/
def dramCh (s : State) (n : Nat) : DramChan := nth s.store.dram n {}

/-- A DRAM channel changed. -/
def setDram (s : State) (n : Nat) (f : DramChan → DramChan) : State :=
  { s with store := { s.store with dram := upd s.store.dram n f } }

/-! ### Request queues (R112, R113, R115, R116) -/

/-- Entries of a class in a queue. -/
def classEntries (q : List MemReq) (k : Nat) : Nat := q.countP (·.cls == k)

/-- Whether a queue of 64 entries has a free one for a class (R112): C0 has 24 and C1 8 of its own, and C2 and C3 share the other 32
with those that are unused. -/
def hasEntry (q : List MemReq) (k : Nat) : Bool :=
  decide (q.length < 64) &&
    match k with
    | 0 => decide (classEntries q 0 < 24)
    | 1 => decide (classEntries q 1 < 8)
    | _ => true

/-- The requests that wait, in order: each enters the queue at tick `t` when its class has a free entry, or goes on waiting (R112). -/
def letIn (t : Nat) : List MemReq → List MemReq → List MemReq × List MemReq
  | [], q => ([], q)
  | r :: w, q =>
    if hasEntry q r.cls then letIn t w (q ++ [{ r with since := t }])
    else
      let (w', q') := letIn t w q
      (r :: w', q')

/-- Whether two requests touch the same row and one of them writes. -/
def conflicts (a b : MemReq) : Bool := a.bank == b.bank && a.row == b.row && (a.write || b.write)

/-- Whether a bank's queue is served strictly in arrival order (R115): it holds a read behind a write to the same row. -/
def inOrder (bank : Nat) : List MemReq → Bool
  | [] => false
  | o :: rest => (o.write && o.bank == bank && rest.any fun r => !r.write && r.bank == bank && r.row == o.row) || inOrder bank rest

/-- The requests of a queue that may be served next, oldest first: none passes an older one to the same row when either writes (R116),
and none passes an older one of its bank while the bank is in arrival order (R115). -/
def eligible (q : List MemReq) : List MemReq → List MemReq → List MemReq
  | _, [] => []
  | older, r :: rest =>
    let held := older.any fun o => conflicts o r || (o.bank == r.bank && inOrder r.bank q)
    (if held then [] else [r]) ++ eligible q (older ++ [r]) rest

/-- The age limit of a class in ns (R113, R135). -/
def ageLimit (s : State) (k : Nat) : Nat :=
  match k with
  | 0 => 250 * fld s Fld.IMG_AGE_AGE_C0
  | 1 => 1000 * fld s Fld.IMG_AGE_AGE_C1
  | 2 => 1000 * fld s Fld.IMG_AGE_AGE_C2
  | _ => 5000 * fld s Fld.IMG_AGE_AGE_C3

/-- Whether a request hits the open row of its bank. -/
def opensRow (d : DramChan) (r : MemReq) : Bool := d.openRows.contains (r.bank, r.row)

/-- The next request of a channel (R113): one beyond its class's age limit, the oldest first; otherwise the lowest class present, in it
one that hits an open row, and then the oldest. -/
def nextRequest (s : State) (d : DramChan) : Option MemReq :=
  let el := eligible d.queue [] d.queue
  match el.find? fun r => decide (ageLimit s r.cls < s.time.counter - r.since) with
  | some r => some r
  | none =>
    let lowest := [0, 1, 2, 3].find? fun k => el.any fun r => r.cls == k
    match lowest with
    | none => none
    | some k =>
      let mine := el.filter (·.cls == k)
      match mine.find? (opensRow d) with
      | some r => some r
      | none => mine.head?

/-- A request served: it leaves the queue, its row is open, its bank has been busy, and waiting requests enter. -/
def serveReq (s : State) (d : DramChan) (r : MemReq) : DramChan :=
  let (w, q) := letIn s.time.counter d.waiting (d.queue.erase r)
  { d with queue := q, waiting := w, openRows := (r.bank, r.row) :: d.openRows.filter (·.1 != r.bank),
           busy := upd d.busy r.bank (· + 1) }

/-- Whether an access has requests left in a channel. -/
def pendingOf (d : DramChan) (u : MemUser) : Bool := (d.queue ++ d.waiting).any (·.user == u)

/-- A channel serves its queue in order until no request of an access is left; each serving takes one request away. -/
def serveUntil (s : State) (u : MemUser) : Nat → DramChan → DramChan
  | 0, d => d
  | fuel + 1, d =>
    if !pendingOf d u then d
    else match nextRequest s d with
      | some r => serveUntil s u fuel (serveReq s d r)
      | none => d

/-- An access has completed: every channel has served its requests. -/
def finishAccess (s : State) (u : MemUser) : State :=
  (List.range 4).foldl (fun s n => setDram s n fun d => serveUntil s u (d.queue.length + d.waiting.length) d) s

/-- The requests of a class to rows, as they arrive at their channels. -/
def request (s : State) (u : MemUser) (cls : Nat) (write : Bool) (rows : List RowId) : State :=
  (List.range 4).foldl (fun s n => setDram s n fun d =>
    let mine := (rows.filter (·.chan == n)).map fun r => ({ cls := cls, bank := r.bank, row := r.row, write := write, user := u } : MemReq)
    let (w, q) := letIn s.time.counter (d.waiting ++ mine) d.queue
    { d with queue := q, waiting := w }) s

/-- A whole access in one command: its requests, and their serving. -/
def access (s : State) (u : MemUser) (cls : Nat) (write : Bool) (rows : List RowId) : State :=
  finishAccess (request s u cls write rows) u

/-! ### Refresh -/

/-- The banks without a request waiting, the one owed longest first (R117). -/
def idleBanks (d : DramChan) : List Nat := d.refreshOrder.filter fun b => !(d.queue ++ d.waiting).any (·.bank == b)

/-- A refresh issued to a bank, whose row it closes. -/
def refreshBank (d : DramChan) (b : Nat) : DramChan :=
  { d with refreshOrder := d.refreshOrder.filter (· != b) ++ [b], openRows := d.openRows.filter (·.1 != b) }

/-- A refresh issued to the bank owed longest. -/
def refreshOldest (d : DramChan) : DramChan := match d.refreshOrder with | b :: _ => refreshBank d b | [] => d

/-- A refresh of the debt issued into a further idle bank, when there is one (log 22). -/
def payDebt (d : DramChan) : DramChan :=
  match idleBanks d with
  | b :: _ => if 0 < d.debt then
      let d := refreshBank d b
      { d with debt := d.debt - 1, noPostpone := d.noPostpone && decide (1 < d.debt) }
    else d
  | [] => d

/-- A due refresh of a channel (R117, R118): into an idle bank, or postponed into the debt; at a debt of 8, or while postponing is
disabled, to the bank owed longest. -/
def dueRefresh (d : DramChan) : DramChan :=
  match idleBanks d with
  | b :: _ => payDebt (refreshBank d b)
  | [] => if d.noPostpone ∨ 8 ≤ d.debt then refreshOldest d else { d with debt := d.debt + 1 }

/-- REFRESH_DUE (R117). -/
def execRefreshDue (t : Nat) (dram : Fin 4) (s : State) : Host.Outcome State Fault Refusal :=
  .next (setDram (begin s t) dram dueRefresh)

/-- A refresh pre-emption of a channel (R119): the refreshes owed beyond 8 go back to back to the banks owed longest. -/
def preempt (s : State) (n : Nat) : State :=
  let (k, s) := fresh s
  let s := setDram s n fun d => { (List.range (d.debt - 8)).foldl (fun d _ => refreshOldest d) d with debt := 8 }
  let s := { s with store := { s.store with lastBreak := some s.time.pick } }
  let s := sticky (bump s Fld.IMG_PREEMPT_REFRESH_PREEMPTS) Fld.IMG_STATUS_REFRESH_PREEMPT
  raise s 0x0305 n (Config.preemptTime k % 2501)

/-- Step 1 of R17 for one channel's refresh-rate report (R118, R119). -/
def refreshReport (s : State) (n : Nat) (hot : Bool) : State :=
  let d := dramCh s n
  if hot && !d.doubled then
    let s := setDram s n fun d => { d with doubled := true, debt := 2 * d.debt, noPostpone := decide (0 < d.debt) }
    let s := raise (sticky s Fld.IMG_STATUS_REFRESH_DOUBLED) 0x0304 n (2 * d.debt)
    if 8 < 2 * d.debt then preempt s n else s
  else if !hot && d.doubled then setDram s n fun d => { d with doubled := false }
  else s

/-! ### Training -/

/-- Training results with the items of a new training in place of the old ones. -/
def mergeEyes (old new : List EyeWidth) : List EyeWidth :=
  old.filter (fun e => !new.any fun f => f.lane == e.lane && f.item == e.item) ++ new

/-- Step 1 of R17 for one channel's temperature (R120): a retrain falls due, or has waited one pick more. -/
def retrainReport (s : State) (n : Nat) (temp : Int) : State :=
  let d := dramCh s n
  match d.due with
  | some w => setDram s n fun d => { d with due := some (w + 1) }
  | none =>
    if fld s Fld.CAL_CTRL_CAL_DELTA_T ≤ (temp - d.temp).natAbs ∧ !d.training then
      setDram s n fun d => { d with due := some 0 }
    else s

/-- Whether every weft channel that reads the store has more than 6 µs of cover (R121): a strip's grains lie in all four channels. -/
def coverAllows (s : State) : Bool :=
  (List.range 16).all fun c => !(jobOn s && s.job.channels.testBit c) || decide (6000 < liveFld s Fld.WFT_COVER_COVER_NOW c)

/-- RETRAIN_START (R121): one channel at a time, not within one pick of another interruption, and only with cover, unless it
has waited 64 picks. -/
def execRetrainStart (t : Nat) (dram : Fin 4) (s : State) : Host.Outcome State Fault Refusal :=
  let s := begin s t
  let quiet : Bool := (match s.store.lastBreak with | some p => decide (p + 1 < s.time.pick) | none => true) &&
    s.thm.bandPick != some s.time.pick
  .next (match (dramCh s dram).due with
    | some w =>
      if !(s.store.dram.any (·.training)) && ((quiet && coverAllows s) || decide (64 ≤ w)) then
        let s := setDram s dram fun d => { d with training := true, due := none }
        { s with store := { s.store with lastBreak := some s.time.pick } }
      else s
    | none => s)

/-- Eye widths below EYE_MIN reported (R111). -/
def judgeEyes (s : State) (n : Nat) (eyes : List EyeWidth) : State :=
  eyes.foldl (fun s e =>
    if e.width < liveFld s Fld.IMG_CTRL_EYE_MIN then
      raise (sticky s Fld.IMG_STATUS_TRAIN_MARGIN) 0x0307 n (e.lane % 16 * 16 + e.item % 16)
    else s) s

/-- RETRAIN_DONE (R120, R122, R558): the read and write delays of the channel take their new settings. -/
def execRetrainDone (t : Nat) (dram : Fin 4) (temp : Int) (eyes : List EyeWidth) (s : State) :
    Host.Outcome State Fault Refusal :=
  let s := begin s t
  .next (if (dramCh s dram).training then
      let s := setDram s dram fun d =>
        { d with training := false, temp := temp, trained := mergeEyes d.trained eyes, settings := mergeEyes d.settings eyes }
      let s := setFld s Fld.IMG_TEMP_TRAIN_TEMP dram (unsignedOf 8 temp)
      calDone (raise (judgeEyes s dram eyes) 0x0306 dram (low32 temp)) 1 dram temp
    else s)

end Sys2Proof.Machine
end

