-- ==== Sys2Proof/Machine/Store.lean ====
section
/-!
DEFINITION. The strips of the image store (chapter 04): placement, damaged strips, errors and scrub, moves.
-/
namespace Sys2Proof.Machine

/-! ### Placement -/

/-- MiB of the frame stores taken at the start (R290): STORE_FRAMES slots of 1 MiB for each port that has one. -/
def frameStores (s : State) : Nat :=
  ((List.range 2).map fun k => if (nth s.vision.cams k {}).store then fld s Fld.CAM_CTRL_STORE_FRAMES k else 0).sum

/-- Rows that spare rows replace (R105, R126). -/
def spareRows : Nat := 4096

/-- Image capacity in MiB (R105, R126, R290): less one row's data for each row retired beyond the spares, and less the frame stores. -/
def imgCapacity (s : State) : Nat :=
  let base := if s.store.eccInForce then 15104 else 16128
  let extra := s.store.retired.length - spareRows
  (base * 2 ^ 20 - extra * rowData s) / 2 ^ 20 - frameStores s

/-- MiB of headroom for moves and for strips from the partner (R105). -/
def headroom : Nat := 128

/-- The grains that strips may lie in: those of the image capacity and of the headroom. -/
def poolGrains (s : State) : Nat := (imgCapacity s + headroom) * 2 ^ 20 / grainBytes s

/-- Grains in use by strips, moves and old copies. -/
def usedGrains (s : State) : List Nat :=
  s.store.strips.flatMap (·.grains) ++ s.store.moves.flatMap (·.grains) ++ s.store.olds.flatMap (·.strip.grains)

/-- Whether a grain lies in a row that is retired and has no spare row in its place (R126). -/
def badGrain (s : State) (g : Nat) : Bool := (s.store.retired.drop spareRows).any fun r => (grainRows s g).contains r

/-- Free image capacity in bytes (R106). -/
def freeBytes (s : State) : Nat :=
  imgCapacity s * 2 ^ 20 - (s.store.strips.map fun x => x.grains.length).sum * grainBytes s

/-- `n` grains that are free, from `g` on; `fuel` bounds the search. -/
def takeGrains (free : Nat → Bool) (total : Nat) : Nat → Nat → Nat → List Nat
  | 0, _, _ => []
  | fuel + 1, g, n =>
    if n = 0 then []
    else if free (g % total) then g % total :: takeGrains free total fuel (g + 1) (n - 1)
    else takeGrains free total fuel (g + 1) n

/-- The first free grain from `g` on that a test admits. -/
def findGrain (ok : Nat → Bool) (total : Nat) : Nat → Nat → Option Nat
  | 0, _ => none
  | fuel + 1, g => if ok (g % total) then some (g % total) else findGrain ok total fuel (g + 1)

/-- The bank of a channel in which a placement starts. -/
def startBank (s : State) (gs : List Nat) : Option (Nat × Nat) := gs.head?.map fun g => ((grainRow s g).chan, (grainRow s g).bank)

/-- Grains for a strip of `len` bytes (R128, log 20): free ones, from the first that starts in none of the banks to avoid, or from any
when there is none. -/
def allocGrains (s : State) (len : Nat) (avoid : List (Nat × Nat)) : List Nat × State :=
  let n := ceilDiv len (grainBytes s)
  let used := usedGrains s
  let total := poolGrains s
  let (k, s) := fresh s
  let free (g : Nat) : Bool := !used.contains g && !badGrain s g
  let fuel := n + used.length + rowData s * (s.store.retired.length - spareRows)
  let apart (g : Nat) : Bool := free g && !avoid.contains ((grainRow s g).chan, (grainRow s g).bank)
  let start := (findGrain apart total (fuel + 4096) (Config.placeAt k)).getD (Config.placeAt k)
  (takeGrains free total fuel start n, s)

/-! ### The directory -/

/-- An image by handle. -/
def findImage (s : State) (h : Nat) : Option Image := s.store.images.find? (·.handle == h)

/-- A stored strip. -/
def findStrip (s : State) (h i : Nat) : Option Strip := s.store.strips.find? fun x => x.handle == h && x.index == i

/-- Bytes of an image line (R169). -/
def imageLine (m : Image) : Nat := lineBytes m.format m.width

/-- Strips of an image (R431). -/
def imageStrips (m : Image) : Nat := ceilDiv m.height m.lps

/-- Lines of strip i of an image; the last may be shorter (R431). -/
def stripLines (m : Image) (i : Nat) : Nat := Nat.min m.lps (m.height - i * m.lps)

/-- The low 32 bits of a strip's first line within its image (R136). -/
def stripArg (s : State) (h i : Nat) : Nat := match findImage s h with | some m => i * m.lps % 2 ^ 32 | none => 0

/-- Whether the job that runs uses an image. -/
def jobUses (s : State) (h : Nat) : Bool :=
  jobOn s && (List.range 16).any fun c => s.job.channels.testBit c && nth s.job.images c 0 == h

/-- The directory with a strip entered, in the place of any other copy of it. -/
def putStrip (l : List Strip) (x : Strip) : List Strip :=
  l.filter (fun y => !(y.handle == x.handle && y.index == x.index)) ++ [x]

/-- The event and doorbell of a restoration (R127, R432). -/
def restored (s : State) (h i : Nat) : State := doorbell (raise s 0x030B h (stripArg s h i)) 26

/-- The rows that a copy of a strip lies in. -/
def stripRows (s : State) (gs : List Nat) : List RowId := gs.flatMap (grainRows s)

/-- A copy of a strip by its number: the directory's own, or one that it has left (R132). -/
def findCopy (s : State) (n : Nat) : Option Strip :=
  match s.store.strips.find? (·.copy == n) with
  | some x => some x
  | none => (s.store.olds.find? (·.strip.copy == n)).map (·.strip)

/-- A read of a copy by an ink channel begins: its reference count grows, and its requests arrive in class C0 (R132). -/
def beginRead (s : State) (c n : Nat) : State :=
  let rows := match findCopy s n with | some x => stripRows s x.grains | none => []
  request { s with store := { s.store with strips := s.store.strips.map fun y => if y.copy = n then { y with refs := y.refs + 1 } else y } }
    (.read c n) 0 false rows

/-- A read of a copy ends: one reference fewer (R132). An old copy that a new store left is free when none is left. -/
def endRead (s : State) (c n : Nat) : State :=
  let s := finishAccess s (.read c n)
  let olds := s.store.olds.map fun o => if o.strip.copy = n then { o with strip := { o.strip with refs := o.strip.refs - 1 } } else o
  { s with store := { s.store with
    strips := s.store.strips.map fun y => if y.copy = n then { y with refs := y.refs - 1 } else y
    olds := olds.filter fun o => !(o.chan == 16 && o.strip.refs == 0) } }

/-- The strips that a channel's buffer waits for begin to be read when they are stored (R161, R437). -/
def startReads (s : State) (c : Nat) : State :=
  let h := nth s.job.images c 0
  let bufs := (nth s.print.chans c {}).bufs
  let go (b : BufStrip) : Option Strip := if b.reading || b.ready || b.failed then none else findStrip s h b.index
  let s' := (bufs.filterMap go).foldl (fun s x => beginRead s c x.copy) s
  { s' with print := { s'.print with chans := upd s'.print.chans c fun y =>
    { y with bufs := y.bufs.map fun b => match go b with | some x => { b with reading := true, copy := x.copy } | none => b } } }

/-- A strip of an image has been stored: the channels of the job that wait for it begin to read. -/
def stripStored (s : State) (h : Nat) : State :=
  (List.range 16).foldl (fun s c => if s.job.channels.testBit c ∧ nth s.job.images c 0 = h then startReads s c else s) s

/-- A move abandoned (R130): the new copy freed, event 0x0309. -/
def abandonMove (s : State) (m : StripMove) : State :=
  let s := finishAccess { s with store := { s.store with moves := s.store.moves.filter (· != m) } } (.move m.chan)
  raise (sticky s Fld.IMG_STATUS_MOVE_FAIL) 0x0309 m.handle (stripArg s m.handle m.index)

/-- The picks in which an ink channel of the job begins to read a strip in the first two repeats, at its highest rate (R128, log 20). -/
def readPicks (s : State) (c i : Nat) : List Int :=
  match findImage s (nth s.job.images c 0) with
  | none => []
  | some m =>
    let cfg := cfgOf s c
    let sy := bankGet cfg.regs Fld.WFT_CFG_SCALE_Y c + 1
    let off := signedOf 32 (bankGet cfg.regs Fld.POS_BAR_BAR_OFFSET c)
    (List.range (Nat.min 2 s.job.rep.repeats)).map fun r =>
      let line : Int := (i * m.lps * sy + r * m.height * sy : Nat) + off
      line * 10000 / (Nat.max 1 (rateLimit cfg c) : Nat)

/-- Whether two strips are expected to be read in the same pick (R128). -/
def samePick (s : State) (h i h' i' : Nat) : Bool :=
  jobOn s && (List.range 16).any fun c => s.job.channels.testBit c && nth s.job.images c 0 == h &&
    (List.range 16).any fun d => s.job.channels.testBit d && nth s.job.images d 0 == h' &&
      (readPicks s c i).any (readPicks s d i').contains

/-- The banks in which the other strips that are read in a strip's picks start (R128). -/
def picksBanks (s : State) (h i : Nat) : List (Nat × Nat) :=
  (s.store.strips.filter fun y => !(y.handle == h && y.index == i) && samePick s h i y.handle y.index).filterMap fun y =>
    startBank s y.grains

/-- Rows written anew count their errors from then on (R126). -/
def wroteRows (s : State) (rows : List RowId) : State :=
  { s with store := { s.store with rowErrs := s.store.rowErrs.filter fun e => !rows.contains e.1 } }

/-- Store a verified strip as a new placement (R128), its writes in class `cls`; a move of the copy before it is abandoned, and that
copy is kept until its reads end (R130, R132, R432). -/
def storeStrip (s : State) (h i : Nat) (bytes : List Byte) (cost : Nat) (cls : Nat := 2) : State :=
  let s := (s.store.moves.filter fun m => m.handle == h && m.index == i).foldl abandonMove s
  let old := findStrip s h i
  let (gs, s) := allocGrains s bytes.length (picksBanks s h i)
  let rows := stripRows s gs
  let s := access (wroteRows s rows) (.store h i) cls true rows
  let x : Strip := { handle := h, index := i, bytes := bytes, cost := cost, grains := gs, crc := crc32c bytes, copy := s.store.nextCopy }
  let left := match old with
    | some o => if 0 < o.refs then [{ chan := 16, strip := o : OldCopy }] else []
    | none => []
  let s := { s with store := { s.store with
    strips := putStrip s.store.strips x, olds := s.store.olds ++ left, nextCopy := s.store.nextCopy + 1 } }
  let s := if jobUses s h then stripStored s h else s
  match old with
  | some o => if o.damaged then restored s h i else s
  | none => s

/-- A unit's partner can hold a verified copy (R127): a pair whose peer link carries records. -/
def partnerCopy (s : State) : Bool := s.pair.role != .solo && s.pair.peerUp

/-- A strip found damaged (R127): marked and reported once, and its copy asked of the partner. -/
def damageStrip (s : State) (h i : Nat) : State :=
  match findStrip s h i with
  | none => s
  | some x =>
    let s := if x.damaged then s
      else
        let s := { s with store := { s.store with strips := s.store.strips.map fun y =>
          if y.handle = h ∧ y.index = i then { y with damaged := true } else y } }
        doorbell (raise (sticky s Fld.IMG_STATUS_STRIP_DAMAGED) 0x030A h (stripArg s h i)) 26
    if partnerCopy s then toPeer s (.askStrip h i) else s

/-! ### Errors and scrub -/

/-- The corrected errors of a row, and whether the row is retired (R126). -/
def rowErrors (s : State) (r : RowId) : Nat := ((s.store.rowErrs.find? (·.1 == r)).map (·.2)).getD 0

/-- A row that no spare row can replace is cleared (R126): the grains of each strip that lie in it are moved to others. -/
def clearRow (s : State) (r : RowId) : State :=
  (s.store.strips.filter fun x => x.grains.any fun g => (grainRows s g).contains r).foldl (fun s x =>
    x.grains.foldl (fun s g =>
      if !(grainRows s g).contains r then s
      else
        let (gs, s) := allocGrains s (grainBytes s) []
        let swap (y : Strip) : Strip :=
          if y.copy = x.copy then { y with grains := y.grains.map fun k => if k = g then gs.headD g else k } else y
        { s with store := { s.store with strips := s.store.strips.map swap } }) s) s

/-- A row retired: recorded in MRAM with event 0x0303 (R126). A spare row takes its place and its contents; without one left its
contents go to other rows. -/
def retireRow (s : State) (r : RowId) : State :=
  let s := { s with store := { s.store with
    retired := s.store.retired ++ [r], rowErrs := s.store.rowErrs.filter (·.1 != r) } }
  let s := if spareRows < s.store.retired.length then clearRow s r else s
  raise (setFld s Fld.IMG_RETIRED_ROWS_RETIRED 0 s.store.retired.length) 0x0303 r.chan (r.bank * 2 ^ 28 + r.row)

/-- A single-bit error corrected in a row (R123, R126). -/
def correctedError (s : State) (r : RowId) : State :=
  let s := sticky (bump s Fld.IMG_ECC_ECC_CORRECTED) Fld.IMG_STATUS_ECC_CORR
  let n := rowErrors s r + 1
  let s := { s with store := { s.store with
    rowErrs := (r, n) :: s.store.rowErrs.filter (·.1 != r)
    dram := upd s.store.dram r.chan fun d => { d with corrected := d.corrected + 1 } } }
  if fld s Fld.IMG_SCRUB_ROW_RETIRE_LIMIT ≤ n then retireRow s r else s

/-- The strips that hold a word of a row. -/
def stripsAt (s : State) (r : RowId) (word : Nat) : List Strip := s.store.strips.filter fun x => x.grains.contains (grainAt s r word)

/-- An uncorrectable error in a word (R124, R126, R127). -/
def uncorrectableError (s : State) (r : RowId) (word : Nat) : State :=
  let s := sticky (bump s Fld.IMG_ECC_ECC_UNCORRECTED) Fld.IMG_STATUS_ECC_UNCORR
  let s := raise s 0x0302 r.chan (r.bank * 2 ^ 28 + r.row)
  let s := (stripsAt s r word).foldl (fun s x => damageStrip s x.handle x.index) s
  retireRow s r

/-- What a read finds in a word (R123, R124); without ECC it finds nothing. -/
def noteEcc (s : State) (e : EccAt) : State :=
  if !s.store.eccInForce then s
  else match e.found with
    | .clean => s
    | .corrected => correctedError s e.row
    | .uncorrectable => uncorrectableError s e.row e.word

/-- The errors that a read of a copy finds in its own words. -/
def ownErrors (s : State) (x : Strip) (es : List EccAt) : List EccAt :=
  if s.store.eccInForce then es.filter fun e => x.grains.contains (grainAt s e.row e.word) else []

/-- Whether a read returned a poisoned word (R124). -/
def poisoned (es : List EccAt) : Bool := es.any fun e => e.found == .uncorrectable

/-- The 32 bytes of a data word of a row. -/
def wordAt (s : State) (r : RowId) (word : Nat) : List Byte :=
  match stripsAt s r word with
  | x :: _ =>
    let place := (x.grains.takeWhile (· != grainAt s r word)).length
    bytesAt x.bytes (place * grainBytes s + (rowUnit r * rowData s + 32 * word) % grainBytes s) 32
  | [] => (List.range 32).map fun b => BitVec.ofNat 8 (Config.freeByte (r.row * 64 + word + b))

/-- The 2,048 bytes of a row as they are stored (R104): with ECC on 60 data words, the check of word k at `checkPlace k`, and 8 bytes
unused; with ECC off 64 data words. What a word outside every strip holds is free. -/
def rowImage (s : State) (r : RowId) : List Byte :=
  if s.store.eccInForce then
    ((List.range 60).flatMap (wordAt s r)) ++ ((List.range 60).flatMap fun k => leBytes 2 (Config.secded (wordAt s r k))) ++
      (List.range 8).map fun b => BitVec.ofNat 8 (Config.freeByte b)
  else (List.range 64).flatMap (wordAt s r)

/-- Rows of the store, in the order in which the scrubber takes them: channels, then banks, then rows. -/
def scrubRow (n : Nat) : RowId := ⟨n % 4, n / 4 % 16, n / 64⟩

/-- The rows of one pass (R125). -/
def scrubRows : Nat := 4 * 16 * 131072

/-- SCRUB_READ (R125): the next row of the pass is read in class C3, with what is found in its words treated under R123 and R124. A pass
begins SCRUB_PERIOD after the one before it. The scrubber pauses while the throttle level is above 0 (R549). -/
def execScrubRead (t : Nat) (found : List (Nat × EccFound)) (s : State) : Host.Outcome State Fault Refusal :=
  let s := begin s t
  let starts : Bool := match s.store.scrubFrom with
    | some f => decide (f + fld s Fld.IMG_SCRUB_SCRUB_PERIOD * 3600000000000 ≤ now s)
    | none => true
  .next (if 1 ≤ throttle s ∨ (s.store.scrubAt = 0 ∧ !starts) then s
    else
      let r := scrubRow s.store.scrubAt
      let s := access s .scrub 3 false [r]
      let from' := if s.store.scrubAt = 0 then some (now s) else s.store.scrubFrom
      let s := { s with store := { s.store with scrubAt := (s.store.scrubAt + 1) % scrubRows, scrubFrom := from' } }
      found.foldl (fun s e => noteEcc s ⟨r, e.1, e.2⟩) s)

/-! ### Strip moves -/

/-- The move of an ink channel in flight. -/
def moveOf (s : State) (c : Nat) : Option StripMove := s.store.moves.find? (·.chan == c)

/-- The start of a move of a strip of an ink channel (R129, R133): at most one per channel, four in all, one per strip. The new copy
starts in another bank than the old one. -/
def startMove (s : State) (c h i : Nat) : State :=
  match findStrip s h i with
  | none => s
  | some x =>
    if (moveOf s c).isSome ∨ 4 ≤ s.store.moves.length ∨ s.store.moves.any (fun m => m.handle == h && m.index == i) ∨ x.damaged then s
    else
      let (gs, s) := allocGrains s x.bytes.length ((startBank s x.grains).toList ++ picksBanks s h i)
      let s := { s with store := { s.store with moves := s.store.moves ++
        [{ chan := c, handle := h, index := i, src := x.copy, grains := gs }] } }
      request (request s (.move c) 3 false (stripRows s x.grains)) (.move c) 3 true (stripRows s gs)

/-- STRIP_MOVE_COPY_DONE (R123, R124, R130): ready when every write has completed and the read-back matches the store CRC, as `ok` says;
otherwise abandoned. `ecc` is what the reads of the source found: a poisoned word is a damaged strip (R127). -/
def execStripMoveCopyDone (t : Nat) (c : Fin 16) (ok : Bool) (ecc : List EccAt) (s : State) : Host.Outcome State Fault Refusal :=
  let s := begin s t
  .next (match moveOf s c with
    | none => s
    | some m =>
      if m.ready then s
      else
        let s := finishAccess s (.move c)
        let es := match findCopy s m.src with | some x => ownErrors s x ecc | none => []
        let s := es.foldl noteEcc s
        if ok && !poisoned es then
          let s := wroteRows s (stripRows s m.grains)
          { s with store := { s.store with moves := s.store.moves.map fun x => if x = m then { x with ready := true } else x } }
        else abandonMove s m)

/-- The old copy freed when no read is left on it (R132), with event 0x0308. -/
def freeOld (s : State) (o : OldCopy) : State :=
  let s := { s with store := { s.store with olds := s.store.olds.filter (· != o) } }
  raise s 0x0308 o.strip.handle (stripArg s o.strip.handle o.strip.index)

/-- STRIP_MOVE_COMMIT (R131): the directory points to the new copy; reads in flight stay on the old one. -/
def execStripMoveCommit (t : Nat) (c : Fin 16) (s : State) : Host.Outcome State Fault Refusal :=
  let s := begin s t
  .next (match moveOf s c with
    | none => s
    | some m =>
      match findStrip s m.handle m.index with
      | none => s
      | some x =>
        if !m.ready then s
        else
          let x' := { x with grains := m.grains, refs := 0, copy := s.store.nextCopy }
          let s := { s with store := { s.store with
            strips := s.store.strips.map fun y => if y = x then x' else y
            olds := s.store.olds ++ [{ chan := c, strip := x }]
            moves := s.store.moves.filter (· != m)
            nextCopy := s.store.nextCopy + 1 } }
          bump s Fld.IMG_MOVES_STRIP_MOVES)

/-- OLD_COPY_FREE (R132): the last read of the old copy has completed. -/
def execOldCopyFree (t : Nat) (c : Fin 16) (s : State) : Host.Outcome State Fault Refusal :=
  let s := begin s t
  .next (match s.store.olds.find? fun o => o.chan == c.val && o.strip.refs == 0 with
    | some o => freeOld s o
    | none => s)

/-- The C0 latency of a read of an ink channel recorded (R129, R134): beyond its limit it is an overrun. -/
def noteLatency (s : State) (c ns : Nat) : State :=
  { s with store := { s.store with latNow := upd s.store.latNow c fun x => Nat.max x ns } }

/-- The longest C0 latency of a channel over its last 8 picks (R129). -/
def latMax (s : State) (c : Nat) : Nat := (nth s.store.latHist c []).foldl Nat.max 0

/-- The requests that the bank in which a strip starts has served (R129). -/
def bankLoad (s : State) (x : Strip) : Nat :=
  match startBank s x.grains with
  | some (n, b) => nth (dramCh s n).busy b 0
  | none => 0

/-- The strip of an ink channel that starts in the busiest bank (R129). -/
def busiestStrip (s : State) : List Strip → Option Strip
  | [] => none
  | x :: rest =>
    match busiestStrip s rest with
    | some y => if bankLoad s y ≤ bankLoad s x then some x else some y
    | none => some x

/-- A pick's latencies close (R129): eight picks are kept, and a latency beyond MOVE_TRIGGER starts a move of one of the channel's
strips from the busiest bank. -/
def closeLatency (s : State) (c : Nat) : State :=
  let s := { s with store := { s.store with
    latHist := upd s.store.latHist c fun h => lastN 8 (h ++ [nth s.store.latNow c 0])
    latNow := upd s.store.latNow c fun _ => 0 } }
  let s := setFld s Fld.IMG_LAT_C0_LAT_MAX c (latMax s c)
  if fld s Fld.IMG_BALANCE_BALANCE_EN = 1 ∧ fld s Fld.IMG_BALANCE_MOVE_TRIGGER < latMax s c ∧ s.job.channels.testBit c ∧ jobOn s then
    match busiestStrip s (s.store.strips.filter (·.handle == nth s.job.images c 0)) with
    | some x => startMove s c x.handle x.index
    | none => s
  else s

/-- The load of the banks counted anew every eighth pick (R129, log 20). -/
def renewLoads (s : State) : State :=
  if s.time.pick % 8 = 0 then (List.range 4).foldl (fun s n => setDram s n fun d => { d with busy := List.replicate 16 0 }) s else s

end Sys2Proof.Machine
end

