-- ==== Sys2Proof/Machine/Images.lean ====
section
/-!
DEFINITION. Images and their strips (R24, R106, R152 to R160, R365 to R367, R427 to R433): the IMG messages, the pool engines'
completions, replication, and the host's codec jobs.
-/
namespace Sys2Proof.Machine

/-! ### The directory messages -/

/-- The first free handle at or after `h`, going round 1 to 4,095 (R427). -/
def freeHandle (used : List Nat) : Nat → Nat → Nat
  | 0, h => h
  | fuel + 1, h => if used.contains h then freeHandle used fuel (h % 4095 + 1) else h

/-- The 32 bytes of a name, zero-padded. -/
def padName (n : List Byte) : List Byte := bytesAt n 0 32

/-- The action of IMG.CREATE (R430). -/
def actCreate (name : List Byte) (format lps width height : Nat) (s : State) : State × MsgRes :=
  let line := lineBytes format width
  if width = 0 ∨ height = 0 ∨ lps < 1 ∨ 4096 < lps ∨ 1 < format ∨ s.store.images.any (fun m => m.name == padName name) ∨
      262144 < line ∨ 262144 < lps * line then (s, ⟨4, 0, [], false⟩)
  else if 4095 ≤ s.store.images.length then (s, ⟨6, 0, [], false⟩)
  else
    let h := freeHandle (s.store.images.map (·.handle)) 4095 s.store.nextHandle
    let m : Image := ⟨h, padName name, format, lps, width, height⟩
    ({ s with store := { s.store with images := s.store.images ++ [m], nextHandle := h % 4095 + 1 } },
      ⟨0, 0, leBytes 4 h, false⟩)

/-- IMG_CREATE (R430). -/
def execImgCreate (t : Nat) (ch : Fin 6) (tag : Nat) (name : List Byte) (format lps width height : Nat) (s : State) :
    Host.Outcome State Fault Refusal :=
  .next (message (begin s t) ch 3 0x10 tag true false (actCreate name format lps width height))

/-- The stored strips of an image. -/
def stripsOf (s : State) (h : Nat) : List Strip := s.store.strips.filter (·.handle == h)

/-- IMG_INFO (R430): the layout of IMG.CREATE, then strips stored, strips damaged and bytes stored. -/
def execImgInfo (t : Nat) (ch : Fin 6) (tag handle : Nat) (s : State) : Host.Outcome State Fault Refusal :=
  .next (message (begin s t) ch 3 0x13 tag false false fun s => (s, match findImage s handle with
    | none => ⟨4, 0, [], false⟩
    | some m =>
      let xs := stripsOf s handle
      ⟨0, 0, m.name ++ leBytes 1 m.format ++ leBytes 1 0 ++ leBytes 2 m.lps ++ leBytes 4 m.width ++ leBytes 4 m.height ++
        leBytes 4 xs.length ++ leBytes 4 (xs.countP (·.damaged)) ++ leBytes 8 (xs.map (·.bytes.length)).sum, false⟩))

/-- Ascending insertion of a number. -/
def insertNat (n : Nat) : List Nat → List Nat
  | [] => [n]
  | x :: xs => if n ≤ x then n :: x :: xs else x :: insertNat n xs

/-- IMG_LIST (R430): up to 56 handles from FIRST upwards. -/
def execImgList (t : Nat) (ch : Fin 6) (tag first : Nat) (s : State) : Host.Outcome State Fault Refusal :=
  .next (message (begin s t) ch 3 0x14 tag false false fun s =>
    let hs := ((s.store.images.map (·.handle)).filter (first ≤ ·)).foldr insertNat []
    (s, ⟨0, 0, (hs.take 56).flatMap (leBytes 4), false⟩))

/-- The action of IMG.DELETE (R133, R433). -/
def actDelete (handle : Nat) (s : State) : State × MsgRes :=
  match findImage s handle with
  | none => (s, ⟨4, 0, [], false⟩)
  | some _ =>
    if jobUses s handle then (s, ⟨5, 0, [], false⟩)
    else
      let s := (s.store.moves.filter fun m => m.handle == handle).foldl abandonMove s
      ({ s with store := { s.store with
          images := s.store.images.filter (·.handle != handle), strips := s.store.strips.filter (·.handle != handle) } },
        ⟨0, 0, [], false⟩)

/-- IMG_DELETE (R433). -/
def execImgDelete (t : Nat) (ch : Fin 6) (tag handle : Nat) (s : State) : Host.Outcome State Fault Refusal :=
  .next (message (begin s t) ch 3 0x12 tag true false (actDelete handle))

/-! ### Ingest -/

/-- The bytes that a data reference's read returns: LENGTH of them, absent ones as zeros (log 16). -/
def refBytes (d : DataRef) : List Byte := (d.bytes ++ List.replicate (d.length - d.bytes.length) 0).take d.length

/-- The result of a failed DMA read (R374). -/
def dmaResult (fail : Nat) : Nat := if fail = 1 then 9 else 14

/-- The raw bytes of strips `first` to `first + count - 1` of an image (R431). -/
def rawLength (m : Image) (first count : Nat) : Nat :=
  (Nat.min ((first + count) * m.lps) m.height - first * m.lps) * imageLine m

/-- The action of IMG.INGEST (R428, R431, R432): the checks, then an ingest that the pool engines carry on. -/
def actIngest (k tag handle form first count : Nat) (data : DataRef) (s : State) : State × MsgRes :=
  match findImage s handle with
  | none => (s, ⟨4, 0, [], false⟩)
  | some m =>
    if count = 0 ∨ imageStrips m < first + count ∨ 1 < form ∨ (form = 0 ∧ data.length < rawLength m first count) then
      (s, ⟨4, 0, [], false⟩)
    else if jobUses s handle ∧ (List.range count).any (fun i => match findStrip s handle (first + i) with
        | some x => !x.damaged | none => false) then (s, ⟨5, 0, [], false⟩)
    else if data.fail ≠ 0 ∧ !s.sys.ethernet then (s, ⟨dmaResult data.fail, 0, [], false⟩)
    else
      let src := if s.sys.ethernet then [] else refBytes data
      let num := if s.sys.ethernet then some data.transfer else none
      let g : Ingest :=
        { chan := k, tag := tag, handle := handle, jlc := form == 1, next := first, left := count, data := src, transfer := num }
      let tr := if s.sys.ethernet then [({ num := data.transfer, length := data.length } : Transfer)] else []
      ({ s with store := { s.store with ingests := s.store.ingests ++ [g] },
                host := { s.host with transfers := s.host.transfers ++ tr } }, ⟨0, 0, [], true⟩)

/-- IMG_INGEST (R431). -/
def execImgIngest (t : Nat) (ch : Fin 6) (tag handle form first count : Nat) (data : DataRef) (s : State) :
    Host.Outcome State Fault Refusal :=
  .next (message (begin s t) ch 3 0x11 tag true false (actIngest ch tag handle form first count data))

/-- The ingest that a message started. -/
def findIngest (s : State) (k tag : Nat) : Option Ingest := s.store.ingests.find? fun g => g.chan == k && g.tag == tag

/-- The bytes of an ingest that have arrived, and whether all have. -/
def ingestData (s : State) (g : Ingest) : List Byte × Bool :=
  match g.transfer with
  | none => (g.data, true)
  | some n => match s.host.transfers.find? (·.num == n) with
    | some x => (x.data, decide (x.length ≤ x.data.length))
    | none => ([], false)

/-- An ingest changed. -/
def setIngest (s : State) (g g' : Ingest) : State :=
  { s with store := { s.store with ingests := s.store.ingests.map fun x => if x = g then g' else x } }

/-- An ingest ended: its reply, with the strips it stored (R431). -/
def endIngest (s : State) (g : Ingest) (result : Nat) : State :=
  let s := { s with
    store := { s.store with ingests := s.store.ingests.filter (· != g) },
    host := { s.host with transfers := s.host.transfers.filter fun x => some x.num != g.transfer } }
  answer s g.chan g.tag true ⟨result, 0, leBytes 4 g.stored, false⟩

/-- A codec error noted in JLC_LAST_ERROR (R146). -/
def noteCodecError (s : State) (code source : Nat) : State :=
  setFld (setFld s Fld.JLC_LAST_ERR_ERROR_CODE 0 code) Fld.JLC_LAST_ERR_ERROR_SOURCE 0 source

/-- R165 for one strip: whether its decode, `mult` streams of it, takes more than 90 % of its output lines' time at a
channel's rate limit. -/
def costTooHigh (s : State) (c cost lines mult : Nat) : Bool :=
  let cfg := cfgOf s c
  let n := lines * (bankGet cfg.regs Fld.WFT_CFG_SCALE_Y c + 1)
  decide (9 * n * 1000000000 < 10 * (mult * cost) * rateLimit cfg c)

/-- R165 applied to a strip ingested while a streamed job uses its image. -/
def streamedTooCostly (s : State) (h cost lines : Nat) : Bool :=
  jobOn s && s.job.streamed && (List.range 16).any fun c =>
    s.job.channels.testBit c && nth s.job.images c 0 == h && costTooHigh s c cost lines (if s.job.rep.mode = 2 then 2 else 1)

/-- R154: a coded strip over its cost limit is re-encoded with the module's own encoder. -/
def costChecked (s : State) (h i : Nat) (hd : StripHead) (bytes out : List Byte) (cost : Nat) : State × List Byte × Nat :=
  if hd.mode = 1 ∧ costLimit out.length (liveFld s Fld.JLC_CTRL_COST_LIMIT) < cost then
    let e := encodeStrip (liveFld s Fld.JLC_CTRL_STORED_FALLBACK == 1) (liveFld s Fld.JLC_CTRL_COST_LIMIT) hd.lineWidth out
    let s := sticky (bump s Fld.JLC_REENC_STRIPS_REENCODED) Fld.JLC_STATUS_REENCODED
    (raise s 0x0404 h (stripArg s h i), e.bytes, e.cost)
  else (s, bytes, cost)

/-- A strip as it goes to the partner (R155): in coded form. -/
def sendForm (x : Strip) : List Byte :=
  match decodeStrip x.bytes with
  | .ok hd out _ => if hd.mode = 0 then (codedStrip hd.lineWidth out).bytes else x.bytes
  | .bad _ _ => x.bytes

/-- A strip sent to the partner (R155). -/
def sendStrip (s : State) (h i : Nat) : State :=
  match findStrip s h i with
  | some x => toPeer s (.strip h i (sendForm x))
  | none => s

/-- R165 fails a strip's ingest as under R153, with result NO_RESOURCE; R146 gives the failure no code, so the event's
error byte is free (log 21). -/
def rejectCost (s : State) (g : Ingest) (engine : Nat) : State :=
  let (k, s) := fresh s
  let s := raise (sticky s Fld.JLC_STATUS_INGEST_REJECT) 0x0403 (16 + engine) (g.index * 256 + Config.freeByte k % 256)
  endIngest s g 6

/-- The next strip of an ingest stored (R128, R106, R165, R155), or the ingest ended. `used` is where the next strip begins; `engine`
is the pool decoder that the event of a refused strip names. -/
def ingestStrip (s : State) (g : Ingest) (bytes : List Byte) (cost lines used engine : Nat) : State :=
  if streamedTooCostly s g.handle cost lines then rejectCost s g engine
  else if freeBytes s < ceilDiv bytes.length (grainBytes s) * grainBytes s then endIngest s g 6
  else
    let s := storeStrip s g.handle g.next bytes cost
    let s := { s with store := { s.store with asks := s.store.asks.filter fun a => !(a.handle == g.handle && a.index == g.next) } }
    let s := if s.pair.role = .active then sendStrip s g.handle g.next else s
    let g' := { g with next := g.next + 1, left := g.left - 1, stored := g.stored + 1, used := used, index := g.index + 1 }
    let s := setIngest s g g'
    if g'.left = 0 then endIngest s g' 0 else s

/-- RAW_STRIP_ENCODED (R152): the next strip's lines, encoded with the settings of R149 to R151. -/
def execRawStripEncoded (t : Nat) (ch : Fin 6) (tag : Nat) (engine : Fin 4) (s : State) : Host.Outcome State Fault Refusal :=
  let s := begin s t
  .next (match findIngest s ch tag with
    | none => s
    | some g =>
      if g.jlc then s
      else match findImage s g.handle with
        | none => endIngest s g 4
        | some m =>
          let n := stripLines m g.next * imageLine m
          let (d, _) := ingestData s g
          if d.length < g.used + n then s
          else
            let e := encodeStrip (liveFld s Fld.JLC_CTRL_STORED_FALLBACK == 1) (liveFld s Fld.JLC_CTRL_COST_LIMIT)
              (imageLine m) ((d.drop g.used).take n)
            ingestStrip s g e.bytes e.cost (stripLines m g.next) (g.used + n) (engine % 2))

/-- The checks of R153 after those of the decoder: WIDTH_MISMATCH, then BAD_COUNT. -/
def imageCheck (m : Image) (i : Nat) (hd : StripHead) : Nat :=
  if hd.lineWidth ≠ imageLine m then 17 else if hd.lineCount ≠ stripLines m i then 4 else 0

/-- A failing strip of an ingest (R153): event 0x0403, CRC for CRC_MISMATCH and BAD_PARAM for the others. -/
def rejectIngest (s : State) (g : Ingest) (engine code : Nat) : State :=
  let s := noteCodecError (sticky s Fld.JLC_STATUS_INGEST_REJECT) code (16 + engine)
  let s := raise s 0x0403 (16 + engine) (g.index * 256 + code)
  endIngest s g (if code = 14 then 10 else 4)

/-- INGEST_STRIP_DECODED (R153). -/
def execIngestStripDecoded (t : Nat) (ch : Fin 6) (tag : Nat) (engine : Fin 2) (s : State) : Host.Outcome State Fault Refusal :=
  let s := begin s t
  .next (match findIngest s ch tag with
    | none => s
    | some g =>
      if !g.jlc then s
      else match findImage s g.handle with
        | none => endIngest s g 4
        | some m =>
          let (d, whole) := ingestData s g
          let bs := d.drop g.used
          match decodeStrip bs with
          | .bad code _ => if !whole && (code == 7 || code == 12) then s else rejectIngest s g engine code
          | .ok hd out cost =>
            let e := imageCheck m g.next hd
            if e ≠ 0 then rejectIngest s g engine e
            else
              let len := 32 + hd.length
              let (s', bytes, cost) := costChecked s g.handle g.next hd (bs.take len) out cost
              ingestStrip s' g bytes cost hd.lineCount (g.used + len) engine)

/-! ### Replication (R155, R156, R367) -/

/-- The failures in a row of deliveries of a strip. -/
def retryOf (s : State) (h i : Nat) : Option ReplRetry := s.store.retries.find? fun r => r.handle == h && r.index == i

/-- The retries without those of a strip. -/
def dropRetry (s : State) (h i : Nat) : State :=
  { s with store := { s.store with retries := s.store.retries.filter fun r => !(r.handle == h && r.index == i) } }

/-- A strip marked damaged in the receiving unit's own directory (R367), entered there if it was not. -/
def markDamaged (s : State) (h i : Nat) : State :=
  match findStrip s h i with
  | some _ => damageStrip s h i
  | none =>
    let x : Strip := { handle := h, index := i, bytes := [], cost := 0, grains := [], crc := 0, damaged := true }
    let s := { s with store := { s.store with strips := putStrip s.store.strips x } }
    doorbell (raise (sticky s Fld.IMG_STATUS_STRIP_DAMAGED) 0x030A h (stripArg s h i)) 26

/-- A delivery that failed to decode (R156, R367). -/
def replReject (s : State) (h i code : Nat) : State :=
  let (k, s) := fresh s
  let s := noteCodecError s code (16 + Config.poolEngine k % 2)
  let s := sticky (bump s Fld.JLC_REPL_REPL_REJECTS) Fld.JLC_STATUS_REPL_REJECT
  let s := raise s 0x0405 h (stripArg s h i)
  let n := match retryOf s h i with | some r => r.fails + 1 | none => 1
  let keep (s : State) (ask : Option Nat) : State :=
    let s := dropRetry s h i
    { s with store := { s.store with retries := s.store.retries ++ [⟨h, i, n, ask⟩] } }
  if n < 3 then toPeer (keep s none) (.askStrip h i)
  else if n = 3 then keep (markDamaged s h i) (some (now s + 10000000000))
  else keep s (some (now s + 10000000000))

/-- A received strip that decodes is published in the directory (R155, R154). -/
def publishStrip (s : State) (h i : Nat) (bytes : List Byte) (hd : StripHead) (out : List Byte) (cost : Nat) : State :=
  let s := dropRetry s h i
  if hd.mode = 1 ∧ out.length ≤ hd.length then
    let e := storedStrip hd.lineWidth out
    storeStrip s h i e.bytes e.cost 3
  else
    let (s, bytes, cost) := costChecked s h i hd bytes out cost
    storeStrip s h i bytes cost 3

/-- STRIP_RESTORED (R127, R154, R155): a verified copy of a damaged strip arrives from the partner. -/
def execStripRestored (t handle index : Nat) (bytes : List Byte) (s : State) : Host.Outcome State Fault Refusal :=
  let s := begin s t
  .next (match findStrip s handle index, decodeStrip bytes with
    | some x, .ok hd out cost => if x.damaged then publishStrip s handle index (bytes.take (32 + hd.length)) hd out cost else s
    | _, _ => s)

/-- REPL_STRIP_RECEIVED (R155, R156). -/
def execReplStripReceived (t handle index : Nat) (bytes : List Byte) (s : State) : Host.Outcome State Fault Refusal :=
  let s := begin s t
  .next (if s.pair.role ≠ .standby then s
    else match findImage s handle, decodeStrip bytes with
      | none, _ => s
      | some _, .ok hd out cost => publishStrip s handle index (bytes.take (32 + hd.length)) hd out cost
      | some _, .bad code _ => replReject s handle index code)

/-- REPL_RETRY_TIMER (R367): every 10 s, the strips that three deliveries failed are asked for again. -/
def execReplRetryTimer (t : Nat) (s : State) : Host.Outcome State Fault Refusal :=
  let s := begin s t
  let due (r : ReplRetry) : Bool := match r.askAt with | some a => decide (a ≤ now s) | none => false
  let s' := (s.store.retries.filter due).foldl (fun s r => toPeer s (.askStrip r.handle r.index)) s
  let later := s.store.retries.map fun r => if due r then { r with askAt := some (now s + 10000000000) } else r
  .next { s' with store := { s'.store with retries := later } }

/-- STRIP_REQUEST (R367): the strip is sent again; on the third request the sender decodes its own copy first. -/
def execStripRequest (t handle index : Nat) (s : State) : Host.Outcome State Fault Refusal :=
  let s := begin s t
  .next (match findStrip s handle index with
    | none => s
    | some x =>
      let same (a : SendAsk) : Bool := a.handle == handle && a.index == index
      let n := ((s.store.asks.find? same).map (·.count)).getD 0 + 1
      let s := { s with store := { s.store with asks := s.store.asks.filter (fun a => !same a) ++ [⟨handle, index, n⟩] } }
      if n = 3 then
        match decodeStrip x.bytes with
        | .ok _ _ _ => sendStrip s handle index
        | .bad code _ =>
          let (k, s) := fresh s
          damageStrip (noteCodecError s code (16 + Config.poolEngine k % 2)) handle index
      else if x.damaged then s else sendStrip s handle index)

/-! ### Host codec jobs (R157 to R160) -/

/-- The reply payload of a codec job (R157). -/
def codecReply (done consumed produced code : Nat) : List Byte :=
  leBytes 4 done ++ leBytes 8 consumed ++ leBytes 4 produced ++ leBytes 1 code

/-- Whether the fields of an encode job's descriptor are in range, with a source of whole lines for every strip. -/
def encodeOk (j : CodecJob) : Bool :=
  j.op == 1 && decide (1 ≤ j.lps) && decide (j.lps ≤ 4096) && decide (1 ≤ j.width) && decide (j.width * j.lps ≤ 262144) &&
  decide (1 ≤ j.count) && decide ((j.count - 1) * j.lps * j.width < j.srcLen) && j.srcLen % j.width == 0

/-- The bytes a codec job reads from SRC_ADDR. -/
def jobSource (j : CodecJob) : List Byte := (j.source ++ List.replicate (j.srcLen - j.source.length) 0).take j.srcLen

/-- R160: the code with which a resume record is refused, or 0. -/
def recordError (j : CodecJob) : Nat :=
  let r := j.record
  if leAt r 48 4 ≠ crc32c (bytesAt r 0 48) then 18
  else if leAt r 0 4 ≠ 1 ∨ leAt r 4 4 ≠ j.width ∨ leAt r 8 2 ≠ j.lps ∨ leAt r 16 8 ≠ leAt r 40 4 * j.lps * j.width ∨
      j.count ≤ leAt r 40 4 then 19
  else if leAt r 24 4 ≠ leAt r 10 2 * j.width + leAt r 12 4 ∨ j.width ≤ leAt r 12 4 then 19
  else 0

/-- The action of IMG.ENCODE (R157, R158, R160). -/
def actEncode (j : CodecJob) (s : State) : State × MsgRes :=
  if s.sys.ethernet then (s, ⟨5, 0, [], false⟩)
  else if !encodeOk j then (s, ⟨4, 0, [], false⟩)
  else if j.fail ≠ 0 then (s, ⟨dmaResult j.fail, 0, [], false⟩)
  else
    let e := if j.resume then recordError j else 0
    if e ≠ 0 then
      let (k, s) := fresh s
      let src := 18 + Config.poolEngine k % 4
      let s := noteCodecError (sticky s Fld.JLC_STATUS_RESUME_BAD) e src
      (raise s 0x0406 src e, ⟨4, 0, codecReply 0 0 0 e, false⟩)
    else
      let strips := cutEvery (j.lps * j.width) j.count ((jobSource j).take (j.count * j.lps * j.width))
      let idx := if j.resume then leAt j.record 40 4 else 0
      let soFar := if j.resume then leAt j.record 28 4 else 0
      let run := encodeJob j.width j.lps (liveFld s Fld.JLC_CTRL_COST_LIMIT) j.fallback (strips.drop idx) idx
        (idx * j.lps * j.width) soFar j.dstLen {}
      let s := emit (emit s (.hostWrite j.dst run.output)) (.hostWrite j.hdr run.headers)
      match run.stopped with
      | some rec => (emit s (.hostWrite j.resumeAt rec), ⟨11, 0, codecReply run.done run.consumed run.output.length 0, false⟩)
      | none => (s, ⟨0, 0, codecReply run.done run.consumed run.output.length 0, false⟩)

/-- IMG_ENCODE (R158). -/
def execImgEncode (t : Nat) (ch : Fin 6) (tag : Nat) (job : CodecJob) (s : State) : Host.Outcome State Fault Refusal :=
  .next (message (begin s t) ch 3 0x15 tag false false (actEncode job))

/-- The action of IMG.DECODE (R157): errors as R153 answers them. -/
def actDecode (j : CodecJob) (s : State) : State × MsgRes :=
  if s.sys.ethernet then (s, ⟨5, 0, [], false⟩)
  else if j.op ≠ 2 ∨ j.count = 0 then (s, ⟨4, 0, [], false⟩)
  else if j.fail ≠ 0 then (s, ⟨dmaResult j.fail, 0, [], false⟩)
  else
    let run := decodeJob j.count (jobSource j) j.dstLen {}
    let s := emit s (.hostWrite j.dst run.output)
    let p := codecReply run.done run.consumed run.output.length run.code
    if run.code ≠ 0 then
      let (k, s) := fresh s
      (noteCodecError s run.code (16 + Config.poolEngine k % 2), ⟨if run.code = 14 then 10 else 4, 0, p, false⟩)
    else (s, ⟨if run.full then 11 else 0, 0, p, false⟩)

/-- IMG_DECODE (R157). -/
def execImgDecode (t : Nat) (ch : Fin 6) (tag : Nat) (job : CodecJob) (s : State) : Host.Outcome State Fault Refusal :=
  .next (message (begin s t) ch 3 0x16 tag false false (actDecode job))

/-- DIAG_PLACEMENT (R441): for each grain of a strip its DRAM channel, bank, row and CRC, 12 bytes a grain (log 23), as many
as the reply's payload holds. -/
def execDiagPlacement (t : Nat) (ch : Fin 6) (tag handle strip : Nat) (s : State) : Host.Outcome State Fault Refusal :=
  .next (message (begin s t) ch 10 0x11 tag false false fun s => (s, match findStrip s handle strip with
    | none => ⟨4, 0, [], false⟩
    | some x =>
      let parts := (List.range x.grains.length).zip x.grains
      ⟨0, 0, (parts.take (if ch.val < 4 then 20 else 18)).flatMap fun (i, g) =>
        let r := grainRow s g
        leBytes 1 r.chan ++ leBytes 1 r.bank ++ leBytes 2 0 ++ leBytes 4 r.row ++
          leBytes 4 (crc32c ((x.bytes.drop (i * grainBytes s)).take (grainBytes s))), false⟩))

end Sys2Proof.Machine
end

