-- ==== Sys2Proof/Machine/Swap.lean ====
section
/-!
DEFINITION. What a set swap changes and when it is complete (R66, R67, R69, R181, R209, R212, R222, R262, R322, R324, R424,
R425).
-/
namespace Sys2Proof.Machine

/-- A pending swap changed. -/
def setSwap (s : State) (f : Swap → Swap) : State := { s with sets := { s.sets with swap := s.sets.swap.map f } }

/-- Whether a channel has nothing left to change under a swap. -/
def chanSwapped (w : Swap) (c : Nat) : Bool := nth w.changed c false && decide (26 ≤ nth w.manual c 26)

/-- The completion of a swap once every channel and the time-anchored fields have changed (R419, R424). -/
def completeSwap (s : State) : State :=
  match s.sets.swap with
  | none => s
  | some w =>
    if w.timeDone && (List.range 16).all (chanSwapped w) then
      let old := s.sets.active
      let new := s.sets.shadow
      let inFlight (l : Int) : Bool := s.print.chans.any fun x => x.sent.any fun y => decide (y.line < l)
      let prior := if w.whole || w.point == 2 then [] else (s.sets.prior ++ [(old, w.line)]).filter fun p => inFlight p.2
      let s := { s with sets := { s.sets with
        active := new, swap := none, seq := (s.sets.seq + 1) % 2 ^ 32, snapshot := some new, prior := prior } }
      doorbell (raise (swapSlots s old new) 0x0102 0 (if w.whole then 0 else low32 w.line)) 17
    else s

/-- The path that a channel's ENERGY_PATH starts it on (R219). -/
def startPath (c : CfgSet) (ch : Nat) : Bool :=
  match bankGet c.regs Fld.FIR_CFG_ENERGY_PATH ch with
  | 0 => false
  | 1 => true
  | _ => !preheatOk c ch

/-- A bit per channel of FIR_PATH.PATH_NOW. -/
def setPathNow (s : State) (c : Nat) (hist : Bool) : State :=
  setFld s Fld.FIR_PATH_PATH_NOW 0 (putBits (liveFld s Fld.FIR_PATH_PATH_NOW) c 1 (bit hist))

/-- Whether a set changes a channel's path: by its ENERGY_PATH (R222), or under AUTO by head types whose PREHEAT_OK differs
(R219). -/
def pathChanges (old new : CfgSet) (c : Nat) : Bool :=
  let a := bankGet old.regs Fld.FIR_CFG_ENERGY_PATH c
  let b := bankGet new.regs Fld.FIR_CFG_ENERGY_PATH c
  a != b || (2 ≤ b && preheatOk old c != preheatOk new c)

/-- The path of a channel under a set that changes it at the swap line; a change under R220 still pending is discarded (R222). The
first span after a switch to the main path begins anew (R213). -/
def swapPath (s : State) (c : Nat) (line : Int) (old new : CfgSet) : State :=
  if !pathChanges old new c then s
  else
    let h := startPath new c
    let s := { s with print := { s.print with paths := s.print.paths.filter (·.chan != c) } }
    setPathNow (setChan s c fun x =>
      let x := if x.onHist && !h then { x with mainFrom := line, maskSpan := [] } else x
      { x with onHist := h, warmPicks := 0 }) c h

/-- A new PREHEAT_EVERY waits for the first line at or after L that begins a span under both lengths (R212). -/
def swapSpan (s : State) (c : Nat) (line : Int) (old new : CfgSet) : State :=
  let a := preheatEvery old c
  let b := preheatEvery new c
  if a = b then s
  else
    let m : Int := Nat.max a b
    setChan s c fun x => { x with oldSpan := some (a, (line + m - 1) / m * m) }

/-- ENERGY_TABLE and HEAD_CONFIG for the heads of a channel that the swap changes, ahead of the first line that uses them
(R209, R262). A head of two channels gets them with the first of the two to change. -/
def swapHeads (s : State) (c : Nat) (line : Int) (old new : CfgSet) : State :=
  new.places.foldl (fun s (h, p) =>
    let mine := p.chanA == some c || p.chanB == some c
    let other := if p.chanA = some c then p.chanB else p.chanA
    let before := match s.sets.swap, other with
      | some w, some d => d != c && nth w.changed d false
      | _, _ => false
    if !mine || before then s
    else
      let was := setPlace old h
      let s := match setType new p.type with
        | some t =>
          if was = some p ∧ setType old p.type = some t then s else sendCmd s p.hub 2 (headConfigArgs p t) none
        | none => s
      if was.map (·.type) = some p.type ∧ setEnergy old p.type = setEnergy new p.type then s
      else
        let es := setEnergy new p.type
        let keep := s.print.tables.filter fun x => !(x.1 == p.hub && x.2.1 == p.port)
        let s := { s with print := { s.print with tables := keep ++ [(p.hub, p.port, line, es)] } }
        toHub s p.hub (.energy p.port (low32 line) es)) s

/-- The channel's correction entries come to change (R181, R322): its loop blocks are discarded and the manual blocks begin. -/
def beginManual (s : State) (c : Nat) : State :=
  match s.sets.swap with
  | none => s
  | some w =>
    if nth w.manual c 27 ≠ 27 then s
    else
      let (s, entries) := swapColour s c s.sets.active s.sets.shadow
      let gone := if entries then s.print.blocks.filter (·.chan == c) else []
      let keep (l : List CorrBlock) : List CorrBlock := l.filter fun b => !gone.contains b
      let s := bump { s with print := { s.print with blocks := keep s.print.blocks, sendBlocks := keep s.print.sendBlocks } }
        Fld.WFT_BLOCKS_CORR_DISCARDS c gone.length
      setSwap s fun w => { w with manual := w.manual.set c (if entries then 0 else 26) }

/-- The channel's render reaches image line L: from the swap line on its manual blocks go in (R181). -/
def manualFrom (s : State) (c : Nat) (line : Int) : State :=
  match s.sets.swap with
  | some w => if !w.whole ∧ w.point ≠ 2 ∧ w.line ≤ line then beginManual s c else s
  | none => s

/-- The web-anchored fields of channel c change at image line L (R66): the manual images of R181 and R322 begin, path and spans
follow R222 and R212, the heads are told. -/
def changeChannel (s : State) (c : Nat) (line : Int) : State :=
  match s.sets.swap with
  | none => s
  | some w =>
    if nth w.changed c false then s
    else
      let old := s.sets.active
      let new := s.sets.shadow
      let s := swapSpan (swapPath (beginManual (swapHeads s c line old new) c) c line old new) c line old new
      setSwap s fun w => { w with changed := w.changed.set c true }

/-- The time-anchored fields change (R67), and with them the channels that no job line will change: the source encoder
follows PRIMARY where the set changes it. -/
def changeTimed (s : State) : State :=
  match s.sets.swap with
  | none => s
  | some w =>
    if w.timeDone then s
    else
      let was := bankGet s.sets.active.regs Fld.POS_SOURCE_PRIMARY 0
      let now' := bankGet s.sets.shadow.regs Fld.POS_SOURCE_PRIMARY 0
      let s := if was = now' then s else { s with pos := { s.pos with source := now' } }
      let s := setSwap s fun w => { w with timeDone := true }
      (List.range 16).foldl (fun s c => if inJob s c then s else changeChannel s c (chan s c).next) s

/-- The manual blocks of a channel still to come, all at once: no line is being rendered. -/
def restOfManual (s : State) (c : Nat) : State := (List.range 26).foldl (fun s _ => manualBlock s c (chan s c).next) s

/-- Everything of a pending swap that has not changed changes now: the whole set at a pick boundary in READY or SAFE_STOP
(R424), or the rest of it when a job has ended (R425). -/
def changeAll (s : State) : State :=
  let s := (List.range 16).foldl (fun s c => restOfManual (changeChannel s c (chan s c).next) c) s
  completeSwap (changeTimed s)

/-- Step 2 of R17 for a pending swap (R67, R70, R424). While a job waits for the Z edge that places its origin, the position of
before does not count as having reached the swap line (log 43). -/
def swapAtBoundary (s : State) : State :=
  match s.sets.swap with
  | none => s
  | some w =>
    if w.whole then changeAll s
    else if !jobOn s then s
    else if w.point = 0 ∨ (w.point = 1 ∧ !s.pos.indexWait ∧ w.line * 2 ^ 24 ≤ s.pos.hwm) ∨ (w.point = 2 ∧ w.passSeen) then
      completeSwap (changeTimed s)
    else s

/-- The start of the pass that a PASS swap names: the web-anchored fields of every channel change (R70). -/
def swapAtPass (s : State) : State :=
  match s.sets.swap with
  | none => s
  | some w =>
    if w.point = 2 ∧ !w.passSeen ∧ w.line ≤ s.pos.pass then
      let s := (List.range 16).foldl (fun s c => changeChannel s c (chan s c).next) s
      completeSwap (setSwap s fun w => { w with passSeen := true })
    else s

/-- The channel's change before it passes image line L: with the first line at or after the swap line (R66). -/
def swapBefore (s : State) (c : Nat) (line : Int) : State :=
  match s.sets.swap with
  | some w => if !w.whole ∧ w.point ≠ 2 ∧ w.line ≤ line then completeSwap (changeChannel s c w.line) else s
  | none => s

end Sys2Proof.Machine
end

