-- ==== Sys2Proof/Machine/Fire.lean ====
section
/-!
DEFINITION. Where and when a line fires (R44, R45, R203), the withdrawal and revision of fire times (R36, R37, R54), which lines
a channel may still send (R436, R438), missed lines (R53), and the end of a job (R413, R415, R425, R436).
-/
namespace Sys2Proof.Machine

/-! ### The predictor seen in the coordinates of the pass (R42, R46) -/

/-- Whether the pass runs against the counting direction. -/
def returning (s : State) : Bool := passMode s && !s.pos.passFwd

/-- A raw position, in lines, as the pass counts it: PASS_MIRROR − p on a return pass (R42). -/
def passX (s : State) (x : Rat) : Rat := if returning s then (fld s Fld.POS_MIRROR_PASS_MIRROR : Rat) - x else x

/-- The reported web-line position, that of the high-water mark, in lines of the pass. -/
def webPos (s : State) : Rat := passX s ((s.pos.hwm : Rat) / 2 ^ 24)

/-- The velocity in the direction of the pass, lines per tick. -/
def passVel (s : State) : Rat := if returning s then -s.pos.pred.v else s.pos.pred.v

/-- Device time at a raw tick (R74), not truncated. -/
def tickTime (s : State) (tick : Rat) : Rat := ((s.time.offset : Rat) + tick * s.time.incr) / 2 ^ 32

/-- The device time at which the web reaches a position (R46); none while v ≤ 0. -/
def arrival (s : State) (x : Rat) : Option Rat :=
  if passVel s ≤ 0 then none
  else some (tickTime s (s.pos.pred.tLast + (x - passX s s.pos.pred.p) / passVel s))

/-- The predicted line period in ns; none while the rate is 0 or not known. -/
def linePeriod (s : State) : Option Rat :=
  if passVel s ≤ 0 then none else some ((s.time.incr : Rat) / (2 ^ 32 * passVel s))

/-- The predicted line rate, lines/s (R71); 0 while the predicted velocity is negative (log 41). -/
def lineRate (s : State) : Rat := if passVel s ≤ 0 ∨ s.time.incr = 0 then 0 else 1000000000 * 2 ^ 32 * passVel s / s.time.incr

/-- LINE_PERIOD as FIRE_TIME carries it: 24.8, saturating (R56, R258). -/
def periodField (s : State) : Nat :=
  match linePeriod s with
  | some q => satNat 32 (roundNs (256 * q)).toNat
  | none => 2 ^ 32 - 1

/-- The shed width in ns: SHED_WIDTH of the line period (R57). -/
def shedField (s : State) : Nat :=
  match linePeriod s with
  | some q => satNat 32 (roundNs (q * 2 ^ fld s Fld.POS_RATE_SHED_WIDTH / 64)).toNat
  | none => 2 ^ 32 - 1

/-- LEAD_TIME in ns. -/
def leadNs (s : State) : Int := Int.ofNat (1000 * fld s Fld.POS_LEAD_LEAD_TIME)

/-! ### Passes and the lines of a job (R41 to R43, R436) -/

/-- Whether the pass under way prints (R42). -/
def passPrints (s : State) : Bool := !returning s || fld s Fld.POS_SOURCE_PASS_BOTH == 1

/-- Whether an image line is one that the job still sends: not after its last line, before the pause and stop lines, and in
PASS mode a line of the pass under way (R436, R438). In PASS mode the pause and stop entries hold pass numbers. -/
def lineWanted (s : State) (line : Int) : Bool :=
  (match s.job.last with | some l => decide (line ≤ l) | none => true) &&
  (if passMode s then
    passPrints s && decide (passStart s ≤ line) && decide (line < passStart s + s.job.passLines) &&
      (match s.job.pauseAt with | some p => decide ((s.pos.pass : Int) < p) | none => true) &&
      (match s.job.stopAt with | some p => decide ((s.pos.pass : Int) < p) | none => true) &&
      (s.job.passCount == 0 || decide (s.job.passPrint < s.job.passCount))
  else
    (match s.job.pauseAt with | some p => decide (line < p) | none => true) &&
      (match s.job.stopAt with | some p => decide (line < p) | none => true))

/-- Whether a channel has no line left to send before the job ends, stops or pauses. -/
def lastReached (s : State) (c : Nat) : Bool :=
  let after (p : Option Int) (x : Int) : Bool := match p with | some p => decide (p ≤ x) | none => false
  if passMode s then
    (s.job.passCount != 0 && decide (s.job.passCount ≤ s.job.passPrint)) ||
      after (s.job.last.map (· + 1)) (passStart s) || after s.job.pauseAt s.pos.pass || after s.job.stopAt s.pos.pass
  else
    let x := (chan s c).next
    after (s.job.last.map (· + 1)) x || after s.job.pauseAt x || after s.job.stopAt x

/-! ### Nominal and firing positions (R44, R203) -/

/-- The nominal position of image line L in channel c, in lines of the pass. -/
def nominal (s : State) (c : Nat) (line : Int) : Rat :=
  let regs := (cfgAt s c line).regs
  let off : Rat := (signedOf 24 (bankGet regs Fld.POS_BAR_BAR_OFFSET c) : Rat) + (bankGet regs Fld.POS_BAR_BAR_FINE c : Rat) / 256
  if passMode s then ((line - passStart s : Int) : Rat) + (if returning s then -off else off) else (line : Rat) + off

/-- How far a head row's firing position lies beyond the nominal position (R203). -/
def rowOffset (cfg : CfgSet) (head : Nat) (rowB : Bool) : Rat :=
  match setPlace cfg head with
  | none => 0
  | some p =>
    let b : Int := match setType cfg p.type with | some t => if rowB then t.offsetB else 0 | none => 0
    ((p.y + b : Int) : Rat) / 256

/-- FLIGHT_ADVANCE of a channel at a line. -/
def flightAdvance (s : State) (c : Nat) (line : Int) : Nat := bankGet (cfgAt s c line).regs Fld.POS_FLIGHT_FLIGHT_ADVANCE c

/-- The FIRE_TIME of a position (R45). -/
def fireTime (s : State) (c : Nat) (line : Int) (x : Rat) : Option Int :=
  (arrival s x).map fun q => roundNs q - Int.ofNat (flightAdvance s c line)

/-- The device time at which the reported position reached a position of the pass, and 0 where that was before the movements kept;
none while it has not. -/
def reachedAt (s : State) (x : Rat) : Option Nat :=
  if webPos s < x then none
  else if x ≤ passX s ((s.pos.movesFrom : Rat) / 2 ^ 24) then some 0
  else some (((s.pos.moves.find? fun m => decide (x ≤ passX s ((m.1 : Rat) / 2 ^ 24))).map (·.2)).getD 0)

/-- The FIRE_TIMEs of a line: for its nominal position and for each of its head rows. In crawl mode all of them are LEAD_TIME from
the moment the web reached the nominal position (R49; log 39). -/
def lineFire (s : State) (c : Nat) (line : Int) (rows : List RowDots) : Option (Int × List Int) :=
  let x := nominal s c line
  if s.pos.crawl then
    (reachedAt s x).map fun m =>
      let f := Int.ofNat m + leadNs s
      (f, rows.map fun _ => f)
  else
    match fireTime s c line x with
    | none => none
    | some f => some (f, rows.map fun r =>
        (fireTime s c line (x + rowOffset (cfgAt s c line) r.head r.rowB)).getD f)

/-- The earliest of a line's FIRE_TIMEs. -/
def earliest (f : Int) (fs : List Int) : Int :=
  match fs with
  | [] => f
  | x :: xs => xs.foldl min x

/-! ### Withdrawing, revising and resuming (R36, R37, R54) -/

/-- Whether the module withholds lines and fire times from a hub: it is shed, or its group carries no traffic (R248, R279). -/
def withheld (s : State) (u : Nat) : Bool := (hubOf s u).shed || (hubOf s u).state != 3

/-- FIRE_TIME packets for some rows of a line, one for each hub. -/
def sendFire (s : State) (line : Int) (rows : List (Nat × Nat × Bool × Option Nat)) : State :=
  ((rows.map (·.1)).dedup).foldl (fun s u =>
    toHub s u (.fireTime (low32 line) (periodField s) (shedField s)
      ((rows.filter (·.1 == u)).map fun r => (r.2.1, r.2.2.1, r.2.2.2)))) s

/-- Whether a sent row still waits for its fire time on a hub that takes fire times (R36, R54, R279). -/
def rowOpen (s : State) (r : SentRow) : Bool := !r.settled && decide (now s < r.fire) && !withheld s r.hub

/-- A sent line whose rows not yet at their fire time are withdrawn, with those not yet sent; a withdrawn row counts as settled and
not fired. -/
def withdrawnLine (s : State) (l : SentLine) : SentLine :=
  if l.rows.any (rowOpen s) || !l.later.isEmpty then
    { l with withdrawn := true, later := [],
             rows := l.rows.map fun r => if rowOpen s r then { r with settled := true } else r }
  else l

/-- Every FIRE_TIME of channel c that has not reached its time is withdrawn (R36). -/
def withdrawChan (s : State) (c : Nat) : State :=
  let before := s
  let s := (chan s c).sent.foldl (fun s l =>
    sendFire s l.line ((l.rows.filter (rowOpen before)).map fun r => (r.hub, r.port, r.rowB, none))) s
  setChan s c fun x => { x with sent := x.sent.map (withdrawnLine before) }

/-- Every FIRE_TIME that has not reached its time is withdrawn. -/
def withdrawAll (s : State) : State := (List.range 16).foldl withdrawChan s

/-- Scheduling freezes (R36). -/
def freeze (s : State) : State := withdrawAll { s with pos := { s.pos with frozen := true } }

/-- Whether a line still has something to settle or to send. -/
def lineLive (l : SentLine) : Bool := l.withdrawn || !l.later.isEmpty || l.rows.any (!·.settled)

/-- The rows of a withdrawn line that no hub has reported fired: those that are sent again (R38). -/
def unfired (l : SentLine) : List RowDots := l.dots.filter fun d => !(l.rows.any fun r => r.fired && r.head == d.head && r.rowB == d.rowB)

/-- The lines to send again (R37, R38): withdrawn, with a row that no hub has reported fired. -/
def againLines (x : Chan) : List Int := (x.sent.filter fun l => l.withdrawn && !(unfired l).isEmpty).map (·.line)

/-- The least line of a list that is at least `lo`. -/
def leastFrom (lo : Int) (ls : List Int) : Option Int :=
  (ls.filter fun l => decide (lo ≤ l)).foldl (fun a l => some (match a with | some b => min b l | none => l)) none

/-- The channel resumes at its first line that no hub has reported fired on any head (R37); the withdrawn lines before it are not sent
again. -/
def resumeChan (s : State) (c : Nat) : State :=
  setChan s c fun x =>
    let first := leastFrom (-(2 ^ 48)) ((x.sent.filter fun l => l.withdrawn && l.rows.all (!·.fired)).map (·.line))
    let past (l : SentLine) : Bool := match first with | some a => decide (l.line < a) | none => true
    let sent := (x.sent.map fun l => if past l then { l with withdrawn := false } else l).filter lineLive
    match first with
    | some l => { x with sent := sent, beyond := max x.next x.beyond, next := l }
    | none => { x with sent := sent }

/-- The line after L in the channel's order of sending. -/
def lineAfter (x : Chan) (line : Int) : Int :=
  match leastFrom (line + 1) (againLines x) with
  | some l => l
  | none => max (line + 1) x.beyond

/-- A channel whose next line is a withdrawn one that has since been reported fired on every row goes on to the line after it. -/
def skipFired (x : Chan) : Chan :=
  let done (l : SentLine) : Bool := l.withdrawn && (unfired l).isEmpty
  let y := { x with sent := x.sent.map fun l => if done l then { l with withdrawn := false } else l }
  if x.sent.any fun l => done l && l.line == x.next then { y with next := lineAfter y x.next } else y

/-- A row's new FIRE_TIME when R54 sends it: more than FIRE_REVISE away, and at least 2 µs ahead. -/
def revisedRow (s : State) (c : Nat) (l : SentLine) (period : Rat) (r : SentRow) : Option Nat :=
  if !rowOpen s r then none
  else
    match fireTime s c l.line (nominal s c l.line + rowOffset (cfgAt s c l.line) r.head r.rowB) with
    | none => none
    | some f =>
      let f := f + l.shift
      let d : Int := f - Int.ofNat r.fire
      if (fld s Fld.POS_LEAD_FIRE_REVISE : Rat) * period < 256 * (d.natAbs : Rat) ∧ Int.ofNat (now s) + 2000 ≤ f then some f.toNat
      else none

/-- A sent line re-predicted at an update (R54): packets for the rows revised, and the line with its new times. A line sent in crawl
mode keeps the place of R49 (R58). -/
def reviseLine (s : State) (c : Nat) (l : SentLine) : State × SentLine :=
  match linePeriod s with
  | none => (s, l)
  | some q =>
    let rows := l.rows.map fun r => match revisedRow s c l q r with
      | some f => ((r.hub, r.port, r.rowB, some f), { r with fire := f }, true)
      | none => ((r.hub, r.port, r.rowB, none), r, false)
    let new := (rows.filter (·.2.2)).map (·.1)
    if new.isEmpty then (s, l) else (sendFire s l.line new, { l with rows := rows.map (·.2.1) })

/-- Every sent line of a channel re-predicted; the last sent FIRE_TIME of the channel follows its line, with the delay of R61. -/
def reviseChan (s : State) (c : Nat) : State :=
  let (s, ls) := (chan s c).sent.foldl (fun (a : State × List SentLine) l =>
    let (s, l) := if l.withdrawn || l.crawl then (a.1, l) else reviseLine a.1 c l
    (s, a.2 ++ [l])) (s, [])
  setChan s c fun x =>
    let moved : Option SentLine := match x.lastSent with
      | some m => (ls.find? (·.line == m)).filter fun l => !x.sent.contains l
      | none => none
    let last := match moved with
      | some l => (match fireTime s c l.line (nominal s c l.line) with | some f => (f + l.shift).toNat | none => x.lastFire)
      | none => x.lastFire
    { x with sent := ls, lastFire := last }

/-- R54 at an update, for every channel. -/
def reviseAll (s : State) : State := if s.pos.frozen then s else (List.range 16).foldl reviseChan s

/-! ### The end of a job -/

/-- A change to READY completes a pending swap in every channel (R425). -/
def toReady (s : State) : State := changeAll (setState s .ready)

/-- The channels stop fetching: reads under way end, FIFOs and buffers empty. -/
def stopFetch (s : State) : State :=
  (List.range 16).foldl (fun s c =>
    let s := ((chan s c).bufs.filter fun b => !b.ready && !b.failed).foldl (fun s b => endRead s c b.copy) s
    setChan s c fun x => { x with fifo := [], bufs := [] }) s

/-- The job ends with a cause (R415, R436, R438): event 0x0105 and doorbell 25 (R444). -/
def endJob (s : State) (cause : Nat) : State :=
  let s := stopFetch { s with sets := { s.sets with prior := [] } }
  doorbell (raise { s with job := { s.job with endCause := cause } } 0x0105 0 cause) 25

/-- The channels of the job that send lines: a channel with no head row sends none (R199). -/
def sendingChans (s : State) : List Nat := (List.range 16).filter fun c => inJob s c && !(headRows (cfgOf s c) c).isEmpty

/-- Whether every channel of the job has settled its last sent line and has none left (R413). -/
def allSettled (s : State) : Bool := (sendingChans s).all fun c => (chan s c).sent.isEmpty && lastReached s c

/-- The line that a pause reports. -/
def pauseLine (s : State) : Int := if passMode s then passStart s else s.job.pauseAt.getD 0

/-- PRINTING ends when every channel has settled (R413): the stop before the pause before the job's own last line. -/
def checkJob (s : State) : State :=
  if s.sys.st = .printing ∧ !s.pos.frozen ∧ allSettled s then
    if s.job.stopAt.isSome then toReady (endJob s 2)
    else
      let done := (sendingChans s).all fun c => lastReached { s with job := { s.job with pauseAt := none } } c
      if s.job.pauseAt.isSome ∧ !done then raise (setState s .paused) 0x0106 0 (low32 (pauseLine s))
      else toReady (endJob s 1)
  else s

/-! ### Lines that are not sent -/

/-- Event 0x0205 and MISSED for a line missed in a channel: at most once per pick (R58). -/
def noteMissed (s : State) (c : Nat) (line : Int) : State :=
  let s := sticky s Fld.POS_STATUS_MISSED
  if (chan s c).missedEv.isSome then s
  else raise (setChan s c fun x => { x with missedEv := some line }) 0x0205 c (low32 line)

/-- A channel passes a line without sending it. -/
def passLine (s : State) (c : Nat) (line : Int) : State :=
  setChan s c fun x =>
    let next := lineAfter x line
    let sent := x.sent.filter fun l => !(l.withdrawn && l.line == line)
    { x with next := next, render := max x.render (line + 1), fifo := x.fifo.filter fun r => decide (line < r.line), sent := sent }

/-- A line not ready in time (R53): missed, counted, never sent later. -/
def missLine (s : State) (c : Nat) (line : Int) : State :=
  noteMissed (passLine (bump s Fld.POS_MISSED_LINES_MISSED_NOT_READY c) c line) c line

/-- A line dropped for overspeed (R60, R61): the last one affected so far (R62). -/
def dropLine (s : State) (c : Nat) (line : Int) : State :=
  let s := passLine (bump s Fld.POS_DROP_LINES_DROPPED_OVERSPEED c) c line
  setChan s c fun x => { x with overLine := if x.overspeed then line else x.overLine }

end Sys2Proof.Machine
end

