-- ==== Sys2Proof/Machine/Motion.lean ====
section
/-!
DEFINITION. The motion axes (chapter 13): profiles and groups (R450 to R457), homing (R458 to R462), limits, driver faults and
shorted outputs (R463 to R470), back-EMF and stall (R472 to R474), and step 3 of the pick boundary (R469).
-/
namespace Sys2Proof.Machine

/-! ### Axes -/

/-- An axis. -/
def axis (s : State) (n : Nat) : Axis := nth s.mot.axes n {}

/-- An axis changed. -/
def setAxis (s : State) (n : Nat) (f : Axis → Axis) : State := { s with mot := { s.mot with axes := upd s.mot.axes n f } }

/-- A motion event, at most once per pick for each axis (R478). -/
def motEvent (s : State) (code n arg : Nat) : State :=
  if s.mot.raised.contains (code, n) then s
  else raise { s with mot := { s.mot with raised := (code, n) :: s.mot.raised } } code n arg

/-- Whether the unit acts on its own limit, fault and stall inputs (R475). -/
def actsOnInputs (s : State) : Bool := s.pair.role != .standby

/-- Whether an input of the axis is active: a limit under LIM_NC (R463), home under HOME_POL. -/
def limitActive (s : State) (n : Nat) (pos : Bool) : Bool :=
  let level := if pos then (axis s n).limP else (axis s n).limN
  if fld s Fld.MOT_CFG_LIM_NC n = 1 then !level else level

/-- Whether the home input is active. -/
def homeActive (s : State) (n : Nat) : Bool := (axis s n).home != (fld s Fld.MOT_CFG_HOME_POL n == 1)

/-- The commanded position now, in steps: R451 interpolates within the pick. -/
def xNow (s : State) (n : Nat) : Rat :=
  let m := axis s n
  let d := Nat.min 100000 (now s - s.time.pickStart)
  ((m.prev : Rat) + ((m.x - m.prev : Int) : Rat) * d / 100000) / 2 ^ 32

/-- The commanded count at a position on the way from `a` to `b`: the last integer crossed. -/
def countOn (a b : Int) (x : Rat) : Int := if a ≤ b then x.floor else x.ceil

/-- The commanded count now. -/
def countNow (s : State) (n : Nat) : Int := countOn (axis s n).prev (axis s n).x (xNow s n)

/-- Whether an axis has motion under way. -/
def axisMoves (m : Axis) : Bool := m.v != 0 || m.x != m.prev || m.moving || m.ramp || m.homing.isSome

/-- The direction of motion: 1, −1, or 0 at rest. -/
def axisDir (m : Axis) : Int := if 0 < m.v ∨ m.prev < m.x then 1 else if m.v < 0 ∨ m.x < m.prev then -1 else 0

/-- The group move under way that an axis belongs to. -/
def groupOf (s : State) (n : Nat) : Option GroupRun := s.mot.groups.find? fun g => g.members.any (·.1 == n)

/-- A group move changed. -/
def setGroup (s : State) (g : Nat) (f : GroupRun → GroupRun) : State :=
  { s with mot := { s.mot with groups := s.mot.groups.map fun x => if x.group = g then f x else x } }

/-! ### Profiles (R452 to R455) -/

/-- What a profile heads for: rest, endless motion in a direction, or a position in 2^-32 step. -/
inductive Goal where
  | rest
  | run (d : Int)
  | reach (x : Int)
  deriving DecidableEq, Repr

/-- A square root held in 2^-32, rounded down (log 15). -/
def sqrtLow (q : Rat) : Rat := (Nat.sqrt (q * 2 ^ 64).floor.toNat : Rat) / 2 ^ 32

/-- The stopping distance from velocity u and acceleration b at deceleration d and jerk j (R453): the deceleration grows to its peak,
holds there, and returns to 0 as the axis comes to rest. -/
def jerkStop (u b d j : Rat) : Rat :=
  let peak := max (-b) (min d (sqrtLow (j * u + b * b / 2)))
  let t1 := (b + peak) / j
  let u1 := u + (b * b - peak * peak) / (2 * j)
  let t2 := max 0 (u1 - peak * peak / (2 * j)) / peak
  u * t1 + b * t1 * t1 / 2 - j * t1 * t1 * t1 / 6 + u1 * t2 - peak * t2 * t2 / 2 + peak * peak * peak / (6 * j * j)

/-- The stopping distance from speed u with acceleration b; none when the axis cannot stop. -/
def stopDistance (jerk : Bool) (r : Rates) (u b : Rat) : Option Rat :=
  if u = 0 ∧ b = 0 then some 0
  else if jerk then (if r.d = 0 ∨ r.j = 0 then none else some (jerkStop u b r.d r.j))
  else if r.d = 0 then (if u = 0 then some 0 else none)
  else some (u * u / (2 * r.d))

/-- The sign of a rational. -/
def signRat (v : Rat) : Int := if 0 < v then 1 else if v < 0 then -1 else 0

/-- The next acceleration on the way down to a speed (R453; log 15): the deepest within one pick's jerk and DMAX from which the
acceleration is back at 0 before the speed falls below. -/
def easeDown (r : Rates) (floor u b : Rat) : Rat :=
  let lo := max (-r.d) (b - r.j / 10000)
  let ok (x : Rat) : Bool := decide (floor + x * x / (2 * r.j) ≤ u + (b + x) / 2 / 10000)
  if ok lo then lo else if b ≤ 0 ∧ ok b then b else max lo (min 0 (b + r.j / 10000))

/-- The next acceleration on the way up to VMAX: the highest within one pick's jerk and AMAX from which the acceleration reaches 0
before the velocity reaches VMAX (R453; log 15). -/
def easeUp (r : Rates) (u b : Rat) : Rat :=
  let hi := min r.a (b + r.j / 10000)
  let ok (x : Rat) : Bool := decide (u + (b + x) / 2 / 10000 + x * x / (2 * r.j) ≤ r.v)
  if ok hi then hi else if 0 ≤ b ∧ b ≤ r.a ∧ ok b then b else max (b - r.j / 10000) (min 0 hi)

/-- A jerk-limited profile's next acceleration (R453): it brakes when the stopping distance from where the pick would end is not below
the distance left then. -/
def jerkNext (r : Rates) (hold endless : Bool) (u b : Rat) (go : Option Rat) : Rat :=
  let free := if r.v < u then easeDown r r.v u b
    else if hold then max (b - r.j / 10000) (min 0 (b + r.j / 10000)) else easeUp r u b
  match go with
  | none => easeDown r 0 u b
  | some q =>
    let u1 := max 0 (u + (b + free) / 2 / 10000)
    let late : Bool := match stopDistance true r u1 free with
      | some x => decide (q ≤ x + (u + u1) / 2 / 10000)
      | none => true
    if !endless && late then easeDown r 0 u b else free

/-- The speed of the next boundary when nothing calls for a brake (R452, R455). -/
def freeSpeed (r : Rates) (hold : Bool) (u : Rat) : Rat :=
  if r.v < u then max r.v (u - r.d / 10000) else if hold then u else min r.v (u + r.a / 10000)

/-- Whether the braking test of R452 is met. -/
def mustBrake (r : Rates) (u u1 go : Rat) : Bool :=
  r.d == 0 || decide (go ≤ u1 * u1 / (2 * r.d) + (u + u1) / 2 / 10000)

/-- One pick of a profile (R452, R453): the new position, velocity and acceleration, whether it braked, and whether it has come
to rest or landed. Positions round to 2^-32 step under log 11. -/
def profileStep (r : Rates) (jerk hold : Bool) (g : Goal) (x : Int) (v a : Rat) : Int × Rat × Rat × Bool × Bool :=
  let d : Int := match g with
    | .rest => signRat v
    | .run e => if v = 0 then e else signRat v
    | .reach t => if v = 0 then (t - x).sign else signRat v
  let u := v * d
  let b := a * d
  let go : Option Rat := match g with
    | .rest => none
    | .run e => if d = e then some (2 ^ 48) else none
    | .reach t => some (((t - x) * d : Int) / 2 ^ 32)
  let endless : Bool := match g with | .run e => d == e | _ => false
  let b1 := if jerk then jerkNext r hold endless u b go else 0
  let brake : Rat := max 0 (u - r.d / 10000)
  let fast := freeSpeed r hold u
  let (u1, braked) : Rat × Bool :=
    if jerk then (max 0 (min (max r.v u) (u + (b + b1) / 2 / 10000)), decide (b1 < 0))
    else match go with
      | none => (brake, true)
      | some q => if !endless && mustBrake r u fast q then (brake, true) else (fast, false)
  let step := (u + u1) / 2 / 10000
  let fwd := x + d * roundNs (step * 2 ^ 32)
  match g with
  | .reach t =>
    match go with
    | some q =>
      if q ≤ step ∨ (u1 = 0 ∧ q < 1) then (t, 0, 0, braked, true) else (fwd, u1 * d, if u1 = 0 then 0 else b1 * d, braked, false)
    | none => (fwd, u1 * d, b1 * d, braked, false)
  | _ => (fwd, u1 * d, if u1 = 0 then 0 else b1 * d, braked, u1 == 0)

/-- The configured limits of an axis in force. -/
def axisRates (s : State) (n : Nat) : Rates :=
  ⟨fld s Fld.MOT_PROFILE_VMAX n, fld s Fld.MOT_PROFILE_AMAX n, fld s Fld.MOT_PROFILE_DMAX n, 1000 * fld s Fld.MOT_PROFILE_JMAX n⟩

/-- The limits of a move: MOT.MOVE's own, or the configured one where it gave 0. -/
def moveRates (s : State) (n : Nat) (own : Limits) : Rates :=
  let c := axisRates s n
  ⟨if own.v = 0 then c.v else own.v, if own.a = 0 then c.a else own.a, if own.d = 0 then c.d else own.d,
    if own.j = 0 then c.j else 1000 * own.j⟩

/-- The lead's limits of a group move (R457): the least of the members' configured limits, scaled to the lead. -/
def groupRates (s : State) (delta : Int) (members : List (Nat × Int × Int)) : Rates :=
  let each (f : Rates → Rat) : Rat :=
    match (members.filter (·.2.2 != 0)).map fun m => f (axisRates s m.1) * (delta.natAbs : Rat) / (m.2.2.natAbs : Rat) with
    | [] => 0
    | q :: qs => qs.foldl min q
  ⟨each (·.v), each (·.a), each (·.d), each (·.j)⟩

/-- R455 for a profile whose limits have been asked to change: the limits in force, whether it holds its velocity, and the
stopping distance of a change that is deferred. -/
def changeRates (m : Axis) (want : Rates) : Axis × Option Rat :=
  let go : Rat := ((m.target * 2 ^ 32 - m.x).natAbs : Rat) / 2 ^ 32
  let u := m.v * signRat m.v
  let b := m.a * signRat m.v
  let tooFar (r : Rates) : Option Rat := match stopDistance m.jerk r u b with
    | some q => if go < q then some q else none
    | none => some (2 ^ 48)
  let r := { m.lim with v := want.v, a := want.a }
  let late := if want.d < r.d then tooFar { r with d := want.d } else none
  let r := if late.isSome then r else { r with d := want.d }
  let late2 := if m.jerk && decide (want.j < r.j) then tooFar { r with j := want.j } else none
  let r := if late2.isSome then r else { r with j := want.j }
  ({ m with lim := r, want := want, hold := m.hold || (m.brake && decide (m.lim.d < r.d)) },
   match late with | some q => some q | none => late2)

/-! ### Stopping (R464 to R468) -/

/-- An axis comes to rest on its ramp, with nothing to follow. -/
def rampAxis (m : Axis) : Axis := if axisMoves m then { m with ramp := true, moving := false, homing := none } else m

/-- An axis, or the group it moves with, brought to rest on its deceleration ramp. -/
def rampStop (s : State) (n : Nat) : State :=
  match groupOf s n with
  | some g => setGroup s g.group fun g => { g with lead := rampAxis g.lead }
  | none => setAxis s n rampAxis

/-- Every moving axis brought to rest on its ramp (R415). -/
def rampAll (s : State) : State := (List.range 8).foldl rampStop s

/-- The steps that an axis was to emit after now are withheld. -/
def cutSteps (s : State) (n : Nat) : State := if driving s then emit s (.step n []) else s

/-- A stop at once (R468): the axis keeps the count it has reached. `loses` tells that the cause clears HOMED whatever the
speed; the other members of a group brake along its path. -/
def stopNow (s : State) (n : Nat) (loses : Bool) : State :=
  let m := axis s n
  let x := countNow s n * 2 ^ 32
  let fast := decide ((fld s Fld.MOT_STALL_STALL_MIN_RATE n : Rat) < m.v * signRat m.v)
  let s := match groupOf s n with
    | some g => setGroup s g.group fun g => { g with lead := rampAxis g.lead, members := g.members.filter (·.1 != n) }
    | none => s
  let s := setAxis s n fun m =>
    { m with x := x, prev := x, v := 0, a := 0, moving := false, ramp := false, brake := false, hold := false, homing := none,
             homed := m.homed && !(loses || (axisMoves m && fast)) }
  if axisMoves m then cutSteps (sticky s Fld.MOT_FAULT_STOPPED_HARD n) n else s

/-- A motion fault whose cause stands from now on: bit `b` of MOT_FAULT. -/
def causeFault (s : State) (n : Nat) (f : Field) : State :=
  sticky (setAxis s n fun m => { m with cause := m.cause ||| 2 ^ f.lo }) f n

/-- A cause that is gone. -/
def causeGone (s : State) (n lo : Nat) : State :=
  setAxis s n fun m => { m with cause := if m.cause.testBit lo then m.cause - 2 ^ lo else m.cause }

/-- A homing sequence aborted with a bit of MOT_FAULT (R460, R461). -/
def abortHoming (s : State) (n : Nat) (f : Field) : State :=
  let s := sticky s f n
  motEvent s 0x0A06 n (bitsOf (bankReg s.live .MOT_FAULT n 0) 0 4)

/-! ### Homing (R458 to R462) -/

/-- A homing sequence changed. -/
def setHoming (s : State) (n : Nat) (f : Homing → Homing) : State := setAxis s n fun m => { m with homing := m.homing.map f }

/-- HOME_DIR as a sign. -/
def homeDir (s : State) (n : Nat) : Int := if fld s Fld.MOT_HOME_HOME_DIR n = 1 then 1 else -1

/-- Home is latched at a count: the axis brakes (R459). -/
def latchHome (s : State) (n : Nat) (count : Int) : State :=
  setHoming (setFld s Fld.MOT_LATCH_HOME_LATCH n (unsignedOf 48 count)) n fun h => { h with latch := some count, stage := 2 }

/-- An edge of the input that a homing sequence watches, into the active level or out of it (R459, R460). -/
def homeEdge (s : State) (n : Nat) (active : Bool) : State :=
  match (axis s n).homing with
  | none => s
  | some h =>
    if h.stage ≠ 0 then s
    else
      let span := 1000 * fld s Fld.MOT_HOME_HOME_DEBOUNCE n
      let edges := (h.edges.filter fun e => decide (now s ≤ e + span)) ++ [now s]
      if 8 < edges.length then rampStop (abortHoming s n Fld.MOT_FAULT_HOME_UNSTABLE) n
      else
        let e := if active then some (now s, countNow s n) else none
        setHoming s n fun h => { h with edges := edges, edge := e }

/-- HOME_INPUT_EDGE (R459). -/
def execHomeInputEdge (t : Nat) (axis : Fin 8) (level : Bool) (s : State) : Host.Outcome State Fault Refusal :=
  let s := setAxis (begin s t) axis fun m => { m with home := level }
  .next (match (Machine.axis s axis).homing with
    | some h => if actsOnInputs s && decide (h.kind ≤ 1) then homeEdge s axis (homeActive s axis) else s
    | none => s)

/-- HOME_DEBOUNCE_EXPIRE (R459): the active level has held since an edge. -/
def execHomeDebounceExpire (t : Nat) (axis : Fin 8) (s : State) : Host.Outcome State Fault Refusal :=
  let s := begin s t
  .next (match (Machine.axis s axis).homing with
    | none => s
    | some h =>
      match h.edge with
      | none => s
      | some (at_, count) =>
        if !actsOnInputs s ∨ h.stage ≠ 0 ∨ now s < at_ + 1000 * fld s Fld.MOT_HOME_HOME_DEBOUNCE axis then s
        else if h.kind = 1 then
          setHoming s axis fun h => { h with stage := 1, mark := count }
        else latchHome s axis count)

/-- A rising index edge of INDEX_SRC ends the searches that wait for it (R458). -/
def homeIndex (s : State) (src : Nat) : State :=
  if !actsOnInputs s then s
  else (List.range 8).foldl (fun s n =>
    match (axis s n).homing with
    | some h => if h.stage = 1 ∧ fld s Fld.MOT_HOME_INDEX_SRC n = src then latchHome s n (countNow s n) else s
    | none => s) s

/-- GPIO_INDEX_EDGE (R458). -/
def execGpioIndexEdge (t : Nat) (gpio : Fin 16) (s : State) : Host.Outcome State Fault Refusal :=
  .next (homeIndex (begin s t) (16 + gpio))

/-! ### Limits, driver faults, shorted outputs -/

/-- A limit that has become active (R461, R464, R465). -/
def limitHit (s : State) (n : Nat) (pos : Bool) : State :=
  let m := axis s n
  let toward := if pos then axisDir m == 1 else axisDir m == -1
  let both := limitActive s n true && limitActive s n false
  match m.homing with
  | some h =>
    if h.kind = 3 ∧ pos = decide (homeDir s n = 1) then homeEdge s n true
    else abortHoming (stopNow s n false) n Fld.MOT_FAULT_HOME_LIMIT
  | none =>
    if toward ∧ !both then
      let f := if pos then Fld.MOT_FAULT_LIMIT_POS else Fld.MOT_FAULT_LIMIT_NEG
      let s := if fld s Fld.MOT_CFG_LIM_STOP n = 1 then rampStop s n else stopNow s n false
      motEvent (causeFault s n f) 0x0A04 n (if pos then 1 else 2)
    else
      motEvent (causeFault (stopNow s n false) n Fld.MOT_FAULT_LIM_WRONG) 0x0A09 n
        (bit (limitActive s n true) + 2 * bit (limitActive s n false))

/-- LIMIT_INPUT_CHANGE (R463 to R465): the filtered level of a limit input. -/
def execLimitInputChange (t : Nat) (axis : Fin 8) (pos level : Bool) (s : State) : Host.Outcome State Fault Refusal :=
  let s := begin s t
  let was := limitActive s axis pos
  let s := setAxis s axis fun m => if pos then { m with limP := level } else { m with limN := level }
  let act := limitActive s axis pos
  .next (if was = act then s
    else if act then (if actsOnInputs s then limitHit s axis pos else s)
    else
      let s := causeGone (causeGone s axis (if pos then 4 else 5)) axis 6
      match (Machine.axis s axis).homing with
      | some h => if actsOnInputs s && h.kind == 3 && pos == decide (homeDir s axis = 1) then homeEdge s axis false else s
      | none => s)

/-- A driver fault acts (R466). -/
def driverFault (s : State) (n : Nat) : State := motEvent (sticky (stopNow s n true) Fld.MOT_FAULT_DRIVER n) 0x0A05 n 0

/-- DRIVER_FAULT (R466): the filtered level of AXn_FLT_N. -/
def execDriverFault (t : Nat) (axis : Fin 8) (level : Bool) (s : State) : Host.Outcome State Fault Refusal :=
  let s := setAxis (begin s t) axis fun m => { m with flt := level }
  .next (if level ∨ fld s Fld.MOT_CFG_FLT_EN axis = 0 ∨ !actsOnInputs s then s
    else driverFault s axis)

/-- OUT_SHORT_AXIS (R467): output 0 STEP, 1 DIR, 2 EN differs from its driven level. -/
def execOutShortAxis (t : Nat) (axis : Fin 8) (out : Fin 3) (s : State) : Host.Outcome State Fault Refusal :=
  let s := begin s t
  let held := if liveFld s Fld.MOT_FAULT_OUT_SHORT axis = 1 then (Machine.axis s axis).held else []
  let s := setAxis s axis fun m =>
    { m with shorts := if m.shorts.contains out.val then m.shorts else m.shorts ++ [out.val], held := held ++ [out.val] }
  .next (if !actsOnInputs s then s
    else motEvent (sticky (stopNow s axis true) Fld.MOT_FAULT_OUT_SHORT axis) 0x0A07 axis out)

/-- Whether OUT_SHORT holds an output at its inactive level, until MOT_FAULT is cleared (R467). -/
def shortHeld (s : State) (n out : Nat) : Bool := (axis s n).held.contains out && liveFld s Fld.MOT_FAULT_OUT_SHORT n == 1

/-- The level of AXn_EN (R349, R449, R467): low without the lease. -/
def enLevel (s : State) (n : Nat) : Bool :=
  s.pair.lease && ((fld s Fld.MOT_CFG_AX_EN n == 1 && !shortHeld s n 2) != (fld s Fld.MOT_CFG_EN_POL n == 1))

/-- The level of AXn_DIR (R349, R448, R467). -/
def dirLevel (s : State) (n : Nat) : Bool := s.pair.lease && (axis s n).dir && !shortHeld s n 1

/-! ### Step 3 of the pick boundary (R469) -/

/-- The MOT_FAULT bits whose cause stands are set again (R470). -/
def standingFaults (s : State) (n : Nat) (axShorts : List (Nat × Nat)) : State :=
  let s := setAxis s n fun m => { m with shorts := m.shorts.filter fun o => axShorts.contains (n, o) }
  let m := axis s n
  let s := if m.shorts.isEmpty then s else sticky s Fld.MOT_FAULT_OUT_SHORT n
  let s := if fld s Fld.MOT_CFG_FLT_EN n = 1 ∧ !m.flt then
      (if axisMoves m then driverFault s n else sticky s Fld.MOT_FAULT_DRIVER n) else s
  [Fld.MOT_FAULT_LIMIT_POS, Fld.MOT_FAULT_LIMIT_NEG, Fld.MOT_FAULT_LIM_WRONG, Fld.MOT_FAULT_SENSE_FAULT].foldl
    (fun s f => if m.cause.testBit f.lo then sticky s f n else s) s

/-- Whether an axis moves toward a limit that is active and has not stopped it: at the first pick after a takeover, when the unit takes
its decisions from its own inputs (R475). -/
def runsIntoLimit (s : State) (n : Nat) (pos : Bool) : Bool :=
  let m := axis s n
  let sought : Bool := match m.homing with | some h => h.kind == 3 && pos == decide (homeDir s n = 1) | none => false
  limitActive s n pos && axisMoves m && axisDir m == (if pos then 1 else -1) && !sought &&
    !m.cause.testBit (if pos then Fld.MOT_FAULT_LIMIT_POS else Fld.MOT_FAULT_LIMIT_NEG).lo

/-- Limits that an axis runs into. -/
def judgeLimits (s : State) (n : Nat) : State :=
  let s := if runsIntoLimit s n true then limitHit s n true else s
  if runsIntoLimit s n false then limitHit s n false else s

/-- The MOT.STOPs that wait (R457, R469): kind 1 stops at once, every member of a group with it. -/
def takeStops (s : State) : State :=
  let stops := s.mot.stops
  stops.foldl (fun s (axes, kind) =>
    (List.range 8).foldl (fun s n =>
      if !axes.testBit n then s
      else if kind = 0 then rampStop s n
      else match groupOf s n with
        | some g => g.members.foldl (fun s m => stopNow s m.1 false) s
        | none => stopNow s n false) s) { s with mot := { s.mot with stops := [] } }

/-- Limits of an axis that have changed while it moves (R455). -/
def limitChanges (s : State) (n : Nat) : State :=
  let m := axis s n
  let want := moveRates s n m.own
  let back : Bool := match m.homing with | some h => h.stage == 3 | none => false
  if !(m.moving || back) ∨ want = m.want then s
  else
    let (m', late) := changeRates m want
    let s := setAxis s n fun _ => m'
    match late with
    | some q => motEvent (sticky s Fld.MOT_STATUS_ACCEL_DEFERRED n) 0x0A08 n (satNat 32 (roundNs q).toNat)
    | none => s

/-- Limits of a group move that have changed, on its lead. -/
def groupLimitChanges (s : State) (g : GroupRun) : State :=
  let want := groupRates s g.delta g.members
  if !g.lead.moving ∨ want = g.lead.want then s
  else
    let (m', late) := changeRates g.lead want
    let s := setGroup s g.group fun g => { g with lead := m' }
    match late, g.members.find? fun m => m.2.2 == g.delta with
    | some q, some m => motEvent (sticky s Fld.MOT_STATUS_ACCEL_DEFERRED m.1) 0x0A08 m.1 (satNat 32 (roundNs q).toNat)
    | _, _ => s

/-- Whether any fault but LIMIT_POS and LIMIT_NEG bars an axis from moving (R470). -/
def faultBars (s : State) (n : Nat) : Bool := (bankReg s.live .MOT_FAULT n 0 &&& 0xFCF) != 0

/-- Whether an axis may start a move to a target (R449, R457, R464, R470). -/
def mayMove (s : State) (n : Nat) (target : Int) : Bool :=
  let x := (axis s n).x
  fld s Fld.MOT_CFG_AX_EN n == 1 && !faultBars s n && (groupOf s n).isNone &&
    !(limitActive s n true && decide (x < target * 2 ^ 32)) && !(limitActive s n false && decide (target * 2 ^ 32 < x))

/-- A move starts or takes a new target (R454). -/
def startMoveAxis (s : State) (n : Nat) (jerk : Bool) (target : Int) (own : Limits) : State :=
  let r := moveRates s n own
  setAxis s n fun m =>
    let d := signRat m.v
    let go : Rat := (((target * 2 ^ 32 - m.x) * d : Int) : Rat) / 2 ^ 32
    let reach : Bool := d == 0 || (match stopDistance jerk r (m.v * d) (m.a * d) with | some q => decide (q ≤ go) | none => false)
    { m with target := target, jerk := jerk, own := own, lim := r, want := r, moving := true, ramp := !reach, brake := false,
             hold := false, homing := none }

/-- The axes of a group. -/
def groupAxes (s : State) (g : Nat) : List Nat := (List.range 8).filter (fld s Fld.MOT_GROUP_AXES g).testBit

/-- Whether a group move may start (R449, R457, R470). -/
def mayGroup (s : State) (g : Nat) (targets : List Int) : Bool :=
  let ns := groupAxes s g
  targets.length == ns.length && (List.range ns.length).all fun i =>
    let n := nth ns i 0
    mayMove s n (nth targets i 0) && !axisMoves (axis s n)

/-- A group move starts (R456): the lead is the member with the largest travel, the lowest axis winning a tie. -/
def startGroup (s : State) (g : Nat) (targets : List Int) : State :=
  let ns := groupAxes s g
  let ms := (List.range ns.length).map fun i =>
    let n := nth ns i 0
    (n, (axis s n).x, nth targets i 0 * 2 ^ 32 - (axis s n).x)
  match ms.foldl (fun (a : Option (Nat × Int × Int)) m => match a with
      | some b => if b.2.2.natAbs < m.2.2.natAbs then some m else some b
      | none => some m) none with
  | none => s
  | some l =>
    let r := groupRates s l.2.2 ms
    let lead : Axis := { x := l.2.1, prev := l.2.1, target := (l.2.1 + l.2.2) / 2 ^ 32, jerk := fld s Fld.MOT_GROUP_KIND g == 1,
                         lim := r, want := r, moving := true }
    let s := (List.range ns.length).foldl (fun s i =>
      setAxis s (nth ns i 0) fun m => { m with target := nth targets i 0, moving := true, jerk := lead.jerk }) s
    { s with mot := { s.mot with groups := s.mot.groups ++ [⟨g, lead, l.2.1, l.2.2, ms⟩] } }

/-- Whether a homing sequence may start. -/
def mayHome (s : State) (n kind : Nat) : Bool :=
  fld s Fld.MOT_CFG_AX_EN n == 1 && !faultBars s n && (groupOf s n).isNone &&
    !(kind != 3 && limitActive s n (decide (homeDir s n = 1)))

/-- A motion message that waited for the boundary starts, or is refused, and is answered (R469). -/
def takeRequest (s : State) (q : MotReq) : State :=
  let ok := match q.what with
    | .move n _ target _ => mayMove s n target
    | .group g ts => mayGroup s g ts
    | .home n kind => mayHome s n kind
  if !ok then answer s q.chan q.tag true ⟨5, 0, [], false⟩
  else
    let s := match q.what with
      | .move n jerk target lim => startMoveAxis s n jerk target lim
      | .group g ts => startGroup s g ts
      | .home n kind =>
        let h : Homing := { kind := kind, start := (axis s n).x / 2 ^ 32 }
        let r := axisRates s n
        setAxis s n fun m =>
          { m with homing := some h, homed := false, moving := false, ramp := false, hold := false, brake := false,
                   jerk := false, stallRun := 0, own := {}, lim := r, want := r }
    answer s q.chan q.tag true ⟨0, 0, [], false⟩

/-- Moves, group moves and back-offs that have reached their end (R462, R478). -/
def completeMoves (s : State) : State :=
  let s := (List.range 8).foldl (fun s n =>
    let m := axis s n
    if (groupOf s n).isSome ∨ m.v ≠ 0 ∨ m.x ≠ m.target * 2 ^ 32 then s
    else match m.homing with
      | some h =>
        if h.stage = 3 then
          let latch := h.latch.getD 0
          let p := signedOf 48 (fld s Fld.MOT_HOME_OFS_HOME_OFFSET n) + (m.target - latch)
          let s := setAxis s n fun m =>
            { m with x := p * 2 ^ 32, prev := p * 2 ^ 32, target := p, homing := none, homed := true }
          motEvent s 0x0A02 n (low32 latch)
        else s
      | none =>
        if m.moving ∧ !m.ramp then motEvent (setAxis s n fun m => { m with moving := false }) 0x0A01 n (low32 m.target) else s) s
  s.mot.groups.foldl (fun s g =>
    if g.lead.v ≠ 0 ∨ (g.lead.moving ∧ g.lead.x ≠ g.lead.target * 2 ^ 32) then s
    else
      let s := { s with mot := { s.mot with groups := s.mot.groups.filter (·.group != g.group) } }
      g.members.foldl (fun s m =>
        let s := setAxis s m.1 fun a =>
          let x := (countOn m.2.1 (m.2.1 + m.2.2) ((a.x : Rat) / 2 ^ 32)) * 2 ^ 32
          { a with moving := false, x := x, prev := x, v := 0 }
        if g.lead.moving then motEvent s 0x0A01 m.1 (low32 (axis s m.1).target) else s) s) s

/-- What homing aborts on at the boundary (R461). -/
def homingLimits (s : State) (n : Nat) : State :=
  match (axis s n).homing with
  | none => s
  | some h =>
    let count := (axis s n).x / 2 ^ 32
    if h.stage = 0 ∧ fld s Fld.MOT_HOME_RANGE_HOME_RANGE n ≤ (count - h.start).natAbs then
      rampStop (abortHoming s n Fld.MOT_FAULT_HOME_NOT_FOUND) n
    else if h.stage = 1 ∧ fld s Fld.MOT_HOME_RANGE_INDEX_WINDOW n ≤ (count - h.mark).natAbs then
      rampStop (abortHoming s n Fld.MOT_FAULT_HOME_NO_INDEX) n
    else s

/-- What an axis heads for in the coming pick, with its limits; none when it stands. -/
def axisGoal (s : State) (n : Nat) : Option (Goal × Rates) :=
  let m := axis s n
  let r := axisRates s n
  let slow : Rates := { r with v := fld s Fld.MOT_HOME_HOME_SLOW n }
  match m.homing with
  | some h =>
    match h.stage with
    | 0 => some (.run (homeDir s n), if h.kind = 2 then slow else { r with v := fld s Fld.MOT_HOME_HOME_FAST n })
    | 1 => some (.run (homeDir s n), slow)
    | 2 => some (.rest, r)
    | _ => some (.reach (m.target * 2 ^ 32), { m.lim with v := slow.v })
  | none =>
    if m.ramp then some (.rest, if m.moving then m.lim else { m.lim with d := if m.lim.d = 0 then r.d else m.lim.d })
    else if m.moving then some (.reach (m.target * 2 ^ 32), m.lim) else none

/-- The rest position of an axis that has braked: the count it has reached. -/
def restCount (prev x : Int) : Int := countOn prev x ((x : Rat) / 2 ^ 32)

/-- One axis stepped for the coming pick (R451 to R453, R462). -/
def stepAxis (s : State) (n : Nat) : State :=
  if (groupOf s n).isSome then s
  else
    let m := axis s n
    match axisGoal s n with
    | none => setAxis s n fun m => { m with prev := m.x }
    | some (g, r) =>
      let (x, v, a, braked, done) := profileStep r m.jerk m.hold g m.x m.v m.a
      let m := { m with prev := m.x, x := x, v := v, a := a, brake := braked }
      if g = .rest ∧ done then
        let c := restCount m.prev m.x
        let m := { m with x := c * 2 ^ 32, ramp := false, brake := false }
        match m.homing with
        | some h =>
          if h.stage = 2 then
            let back := c - homeDir s n * fld s Fld.MOT_HOME_HOME_BACKOFF n
            let r := axisRates s n
            setAxis s n fun _ => { m with homing := some { h with stage := 3 }, target := back, lim := r, want := r }
          else setAxis s n fun _ => m
        | none => setAxis s n fun _ => m
      else setAxis s n fun _ => m

/-- One group stepped: the lead runs its profile, the members follow on the line (R456). -/
def stepGroup (s : State) (g : GroupRun) : State :=
  let l := g.lead
  let (x, v, a, braked, _) := profileStep l.lim l.jerk l.hold (if l.ramp then .rest else .reach (l.target * 2 ^ 32)) l.x l.v l.a
  let l := { l with prev := l.x, x := x, v := v, a := a, brake := braked }
  let s := setGroup s g.group fun g => { g with lead := l }
  g.members.foldl (fun s (n, start, d) =>
    let xi := if g.delta = 0 then start else start + (d * (x - g.start)).tdiv g.delta
    setAxis s n fun m => { m with prev := m.x, x := xi, v := if g.delta = 0 then 0 else v * d / g.delta }) s

/-- A time in ns to the nearest whole one (R451); a tie is left open (log 11). -/
def nearestNs (q : Rat) : Int := if q - q.floor = 1 / 2 then roundNs q else (q + 1 / 2).floor

/-- How many integers a pick crosses (R451). -/
def stepCount (a b : Int) : Nat :=
  let one : Int := 2 ^ 32
  if a < b then (b / one - a / one).toNat else if b < a then (-((-a) / one) + (-b) / one).toNat else 0

/-- When a pick's motion crosses its i-th integer, or would at the same rate (R451). -/
def stepTime (start : Nat) (a b : Int) (i : Nat) : Nat :=
  let one : Int := 2 ^ 32
  let at_ (s : Int) : Nat := start + (nearestNs (100000 * ((s * one - a : Int) : Rat) / ((b - a : Int) : Rat))).toNat
  if a < b then at_ (a / one + 1 + i) else at_ (-((-a) / one) - 1 - i)

/-- The pulses of a pick's steps (R447, R451): each rises at its edge, not before `first`, and falls after `width` or after half the time to
the next edge when that is shorter. The edge after the pick's last is taken at the pick's rate (log 62). -/
def stepPulses (start first width : Nat) (a b : Int) : List (Nat × Nat) :=
  (List.range (stepCount a b)).map fun i =>
    let e := Nat.max first (stepTime start a b i)
    let half := (roundNs (((stepTime start a b (i + 1) - e : Nat) : Rat) / 2)).toNat
    (e, e + Nat.min width half)

/-- The axis's direction and steps of the coming pick on its outputs, which only the holder of the lease drives (R349, R475). DIR changes
as the pick begins, once STEP is low, and the first edge follows by DIR_SETUP at least (R448). -/
def emitSteps (s : State) (n : Nat) : State :=
  let m := axis s n
  if stepCount m.prev m.x = 0 then s
  else
    let level : Bool := decide (m.prev < m.x) != (fld s Fld.MOT_CFG_DIR_INV n == 1)
    let turns : Bool := level != m.dir
    let at_ := Nat.max s.time.pickStart m.stepEnd
    let first := if turns then at_ + 8 * fld s Fld.MOT_CFG_DIR_SETUP n else 0
    let ps := stepPulses s.time.pickStart first (8 * fld s Fld.MOT_CFG_STEP_WIDTH n) m.prev m.x
    let s := setAxis s n fun m => { m with dir := level, stepEnd := match ps.getLast? with | some p => p.2 | none => m.stepEnd }
    if !driving s then s
    else emit (if turns then emit s (.dir n level at_) else s) (.step n ps)

/-- Step 3 of R17 (R469): standing faults, stops, limit changes, new moves and homing; then every profile steps. A standby
takes the decisions from the records and only steps the profiles. -/
def motionStep (s : State) (axShorts : List (Nat × Nat)) : State :=
  let s := { s with mot := { s.mot with raised := [] } }
  let s := completeMoves s
  let s := if actsOnInputs s then
      let s := (List.range 8).foldl (fun s n => homingLimits (judgeLimits (standingFaults s n axShorts) n) n) s
      let s := takeStops s
      let s := s.mot.groups.foldl groupLimitChanges ((List.range 8).foldl limitChanges s)
      let reqs := s.mot.reqs
      reqs.foldl takeRequest { s with mot := { s.mot with reqs := [] } }
    else s
  let s := s.mot.groups.foldl stepGroup s
  let s := (List.range 8).foldl stepAxis s
  let s := (List.range 8).foldl (fun s n => setAxis s n fun m =>
    { m with blind := decide (m.v * signRat m.v < (fld s Fld.MOT_STALL_STALL_MIN_RATE n : Rat)) }) s
  (List.range 8).foldl emitSteps s

/-! ### Back-EMF and stall (R472 to R474) -/

/-- The trigger of one half of the axes claimed, when one of them has STALL_EN and none is held; none when no trigger is
free (R472). -/
def claimBemf (s : State) (half : Nat) : Option State :=
  let want := (List.range 4).any fun i => liveFld s Fld.MOT_STALL_STALL_EN (4 * half + i) == 1
  match nth s.mot.trigs half none with
  | some k =>
    if want then some s
    else
      let s := setFld (setFld s Fld.TIM_TRIG_CTRL_OWNER k 0) Fld.TIM_TRIG_CTRL_TARGET k 0
      some { s with mot := { s.mot with trigs := s.mot.trigs.set half none } }
  | none =>
    if !want then some s
    else match (List.range 8).find? fun k => liveFld s Fld.TIM_TRIG_CTRL_OWNER k == 0 && !(nth s.time.trigs k {}).armed with
      | none => none
      | some k =>
        let s := setFld (setFld s Fld.TIM_TRIG_CTRL_OWNER k 1) Fld.TIM_TRIG_CTRL_TARGET k 3
        some { s with mot := { s.mot with trigs := s.mot.trigs.set half (some k) } }

/-- Both halves; none when one finds no trigger. -/
def claimStall (s : State) : Option State := (claimBemf s 0).bind fun s => claimBemf s 1

/-- An angle mapped into −180° to +180° (R473). -/
def wrapAngle (q : Rat) : Rat := q - 360 * ((q + 180) / 360).floor

/-- The load angle of a sample (R473). -/
def loadAngle (s : State) (n : Nat) (sa sb : Int) : Rat :=
  let span : Rat := 4 * (fld s Fld.MOT_CFG_MICROSTEPS n : Rat)
  let p := xNow s n
  let cmd := 360 * (p - span * (p / span).floor) / span
  let b := Config.atan2Deg sb sa
  let trim : Rat := signedOf 9 (fld s Fld.MOT_STALL_BEMF_TRIM n)
  if 0 ≤ axisDir (axis s n) then wrapAngle (cmd + 90 - b + trim) else wrapAngle (b + 90 - cmd + trim)

/-- The run of samples that hold at a rail. -/
def railRun (run : Nat) (code : Int) : Nat := if code ≤ 0 ∨ 4095 ≤ code then run + 1 else 0

/-- An estimate beyond STALL_ANGLE, or not (R474; on either side, since R471 finds a reversed winding near ±180°, log 62): a stall ends a type 2 approach, else it is a fault. -/
def judgeStall (s : State) (n : Nat) (q : Rat) : State :=
  if (fld s Fld.MOT_STALL_STALL_ANGLE n : Rat) < max q (-q) then
    let s := setAxis s n fun m =>
      { m with stallRun := m.stallRun + 1, stallAt := if m.stallRun = 0 then countNow s n else m.stallAt }
    let m := axis s n
    if m.stallRun < fld s Fld.MOT_STALL_STALL_PICKS n ∨ !actsOnInputs s then s
    else
      let s := setAxis s n fun m => { m with stallRun := 0 }
      match m.homing with
      | some h =>
        if h.kind = 2 ∧ h.stage = 0 then latchHome s n m.stallAt
        else motEvent (bump (sticky (stopNow s n true) Fld.MOT_FAULT_STALL n) Fld.MOT_STALLS_STALLS n) 0x0A03 n (low32 (roundNs q))
      | none =>
        motEvent (bump (sticky (stopNow s n true) Fld.MOT_FAULT_STALL n) Fld.MOT_STALLS_STALLS n) 0x0A03 n (low32 (roundNs q))
  else setAxis s n fun m => { m with stallRun := 0 }

/-- A back-EMF sample of axis n: the codes of SA and SB (R471 to R474), or, when its offset is due, the conversion of the
shorted inputs (R556). -/
def bemfSample (s : State) (n : Nat) (a b : Int) : State :=
  if liveFld s Fld.MOT_STALL_STALL_EN n = 0 then s
  else if (axis s n).calDue then
    let s := setAxis s n fun m => { m with calDue := false }
    let s := setFld (setFld s Fld.CAL_BEMF_OFS_OFFSET_A n (unsignedOf 16 (a - 2048))) Fld.CAL_BEMF_OFS_OFFSET_B n (unsignedOf 16 (b - 2048))
    calDone s 5 n (sensorC s 10)
  else
    let s := setAxis s n fun m => { m with railA := railRun m.railA a, railB := railRun m.railB b }
    let picks := fld s Fld.MOT_STALL_STALL_PICKS n
    let m := axis s n
    let s := if picks = m.railA ∧ actsOnInputs s then motEvent (causeFault s n Fld.MOT_FAULT_SENSE_FAULT) 0x0A0A n 1 else s
    let s := if picks = m.railB ∧ actsOnInputs s then motEvent (causeFault s n Fld.MOT_FAULT_SENSE_FAULT) 0x0A0A n 2 else s
    let s := if m.railA < picks ∧ m.railB < picks then causeGone s n 10 else s
    let sa := a - 2048 - signedOf 16 (liveFld s Fld.CAL_BEMF_OFS_OFFSET_A n)
    let sb := b - 2048 - signedOf 16 (liveFld s Fld.CAL_BEMF_OFS_OFFSET_B n)
    if sa * sa + sb * sb < 256 ∨ m.v * signRat m.v < (fld s Fld.MOT_STALL_STALL_MIN_RATE n : Rat) then s
    else
      let q := loadAngle s n sa sb
      judgeStall (setFld s Fld.MOT_LOAD_LOAD_ANGLE n (unsignedOf 16 (roundNs (16 * q)))) n q

/-! ### Messages -/

/-- Whether a target is a signed 48-bit number less than 2^47 steps away (R450). -/
def targetOk (x target : Int) : Bool :=
  decide (-(2 ^ 47) ≤ target) && decide (target < 2 ^ 47) && decide ((target * 2 ^ 32 - x).natAbs < 2 ^ 79)

/-- MOT_CONFIG (R472, R477): profile limits and the stall register of an axis. -/
def execMotConfig (t : Nat) (ch : Fin 6) (tag axis : Nat) (lim : Limits) (stall : Nat) (s : State) :
    Host.Outcome State Fault Refusal :=
  .next (message (begin s t) ch 7 0x10 tag true false fun s =>
    if 8 ≤ axis ∨ !fieldValueOk Fld.MOT_PROFILE_VMAX lim.v ∨ 2 ^ 32 ≤ lim.a ∨ 2 ^ 32 ≤ lim.d ∨ 2 ^ 32 ≤ lim.j ∨
        !((regFields .MOT_STALL).all fun f => fieldValueOk f (bitsOf stall f.lo f.width)) then (s, ⟨4, 0, [], false⟩)
    else
      let s' := setFld (setFld s Fld.MOT_PROFILE_VMAX axis lim.v) Fld.MOT_PROFILE_AMAX axis lim.a
      let s' := setFld (setFld s' Fld.MOT_PROFILE_DMAX axis lim.d) Fld.MOT_PROFILE_JMAX axis lim.j
      let s' := (regFields .MOT_STALL).foldl (fun s f => setFld s f axis (bitsOf stall f.lo f.width)) s'
      match claimStall s' with
      | some s' => (s', ⟨0, 0, [], false⟩)
      | none => (s, named 6 8 axis))

/-- A motion message that waits for its boundary. -/
def queueMotion (s : State) (ch tag : Nat) (w : MotStart) : State × MsgRes :=
  ({ s with mot := { s.mot with reqs := s.mot.reqs ++ [⟨ch, tag, w⟩] } }, ⟨0, 0, [], true⟩)

/-- Whether an axis's enable as written bars a move (R449). -/
def enabledAsWritten (s : State) (n : Nat) : Bool := liveFld s Fld.MOT_CFG_AX_EN n == 1

/-- MOT_MOVE (R449, R450, R454, R457, R464, R469, R470). -/
def execMotMove (t : Nat) (ch : Fin 6) (tag axis kind : Nat) (target : Int) (vmax amax dmax jmax : Nat) (s : State) :
    Host.Outcome State Fault Refusal :=
  .next (message (begin s t) ch 7 0x11 tag true false fun s =>
    let above (f : Field) (v : Nat) : Bool := decide (liveFld s f axis < v)
    if 8 ≤ axis ∨ 2 ≤ kind ∨ above Fld.MOT_PROFILE_VMAX vmax ∨ above Fld.MOT_PROFILE_AMAX amax ∨
        above Fld.MOT_PROFILE_DMAX dmax ∨ above Fld.MOT_PROFILE_JMAX jmax ∨ !targetOk (Machine.axis s axis).x target then
      (s, ⟨4, 0, [], false⟩)
    else if !enabledAsWritten s axis ∨ (groupOf s axis).isSome ∨ faultBars s axis ∨
        (limitActive s axis true ∧ (Machine.axis s axis).x < target * 2 ^ 32) ∨
        (limitActive s axis false ∧ target * 2 ^ 32 < (Machine.axis s axis).x) then (s, named 5 8 axis)
    else queueMotion s ch tag (.move axis (kind == 1) target ⟨vmax, amax, dmax, jmax⟩))

/-- MOT_GROUP_MOVE (R449, R456, R457, R469, R470). -/
def execMotGroupMove (t : Nat) (ch : Fin 6) (tag group : Nat) (targets : List Int) (s : State) :
    Host.Outcome State Fault Refusal :=
  .next (message (begin s t) ch 7 0x12 tag true false fun s =>
    let ns := if group < 4 then (List.range 8).filter (liveFld s Fld.MOT_GROUP_AXES group).testBit else []
    if 4 ≤ group ∨ ns.isEmpty then (s, ⟨4, 0, [], false⟩)
    else if targets.length ≠ ns.length then (s, ⟨3, 0, [], false⟩)
    else if (List.range ns.length).any (fun i => !targetOk (axis s (nth ns i 0)).x (nth targets i 0)) then (s, ⟨4, 0, [], false⟩)
    else match ns.find? fun n => !enabledAsWritten s n || axisMoves (axis s n) || faultBars s n with
      | some n => (s, named 5 8 n)
      | none => queueMotion s ch tag (.group group targets))

/-- MOT_HOME (R449, R457, R458, R461, R469, R470). -/
def execMotHome (t : Nat) (ch : Fin 6) (tag axis type : Nat) (s : State) : Host.Outcome State Fault Refusal :=
  .next (message (begin s t) ch 7 0x13 tag true false fun s =>
    if 8 ≤ axis ∨ 4 ≤ type ∨ (type = 2 ∧ (liveFld s Fld.MOT_STALL_STALL_EN axis = 0 ∨
        liveFld s Fld.MOT_HOME_HOME_SLOW axis < liveFld s Fld.MOT_STALL_STALL_MIN_RATE axis)) then (s, ⟨4, 0, [], false⟩)
    else if !enabledAsWritten s axis ∨ (groupOf s axis).isSome ∨ faultBars s axis then (s, named 5 8 axis)
    else queueMotion s ch tag (.home axis type))

/-- MOT_STOP (R457, R469): taken in step 3 of the next boundary. -/
def execMotStop (t : Nat) (ch : Fin 6) (tag axes kind : Nat) (s : State) : Host.Outcome State Fault Refusal :=
  .next (message (begin s t) ch 7 0x14 tag true false fun s =>
    if 256 ≤ axes ∨ 2 ≤ kind then (s, ⟨4, 0, [], false⟩)
    else ({ s with mot := { s.mot with stops := s.mot.stops ++ [(axes, kind)] } }, ⟨0, 0, [], false⟩))

/-- MOT_STATUS.[23:16] as the axis is now (R477). -/
def motStatusBits (s : State) (n : Nat) : Nat :=
  let m := axis s n
  bit (m.v != 0) + 2 * bit m.homed + 4 * bit m.homing.isSome + 8 * bit m.blind + 16 * bit (limitActive s n true) +
    32 * bit (limitActive s n false) + 64 * bit (homeActive s n) + 128 * bit (!m.flt)

/-- A readout register of an axis (R477). -/
def motReadout (s : State) (r : Reg) (n : Nat) : Nat :=
  match r with
  | .MOT_STATUS => bankReg s.live r n 0 % 2 ^ 16 + motStatusBits s n * 2 ^ 16
  | .MOT_POS => unsignedOf 48 (countNow s n)
  | .MOT_TARGET => unsignedOf 48 (axis s n).target
  | .MOT_VEL => unsignedOf 32 (roundNs (axis s n).v)
  | r => bankReg s.live r n 0

/-- MOT_STATUS (R441): the axis's status, fault and readout registers in the order of their table. -/
def execMotStatus (t : Nat) (ch : Fin 6) (tag axis : Nat) (s : State) : Host.Outcome State Fault Refusal :=
  .next (message (begin s t) ch 7 0x15 tag false false fun s =>
    if 8 ≤ axis then (s, ⟨4, 0, [], false⟩)
    else
      let w (r : Reg) (n : Nat) : List Byte := leBytes n (motReadout s r axis)
      (s, ⟨0, 0, w .MOT_STATUS 4 ++ w .MOT_FAULT 4 ++ w .MOT_POS 8 ++ w .MOT_TARGET 8 ++ w .MOT_VEL 4 ++ w .MOT_LOAD 4 ++
        w .MOT_LATCH 8 ++ w .MOT_STALLS 4, false⟩))

end Sys2Proof.Machine
end

