-- ==== Sys2Proof/Machine/Stop.lean ====
section
/-!
DEFINITION. The orderly stop (R415) and the messages that begin and clear one.
-/
namespace Sys2Proof.Machine

/-- The device states from which an orderly stop leads to SAFE_STOP (R413). -/
def mayStop (s : State) : Bool := s.sys.st == .ready || jobOn s

/-- An orderly stop with its cause (R415): fire times withdrawn, the job ended, event 0x0108, the axes on their ramps, and the
state SAFE_STOP. A job that was running ends with cause 3. The channels send no further line. -/
def orderlyStop (s : State) (cause : Nat) : State :=
  if !mayStop s then s
  else
    let s := withdrawAll s
    let s := if jobOn s then endJob s 3 else s
    let s := rampAll (raise s 0x0108 0 cause)
    setState { s with sys := { s.sys with stopCause := cause } } .safeStop

/-- SAFE_STOP (R415): cause 1. -/
def execSafeStop (t : Nat) (ch : Fin 6) (tag : Nat) (s : State) : Host.Outcome State Fault Refusal :=
  .next (message (begin s t) ch 1 0x12 tag true false fun s =>
    if mayStop s then (orderlyStop s 1, ⟨0, 0, [], false⟩) else if s.sys.st = .safeStop then (s, ⟨0, 0, [], false⟩)
    else (s, ⟨5, 0, [], false⟩))

/-- Whether an encoder has a position fault (R32). -/
def positionFault (s : State) (e : Nat) : Bool :=
  [Fld.POS_ENC_STATUS_OPEN_A, Fld.POS_ENC_STATUS_OPEN_B, Fld.POS_ENC_STATUS_INV_A, Fld.POS_ENC_STATUS_INV_B,
    Fld.POS_ENC_STATUS_OVERRATE].any (fun f => liveFld s f e == 1) || decide (4 < (nth s.pos.enc e {}).illegal)

end Sys2Proof.Machine
end

