-- ==== Sys2Proof/Machine/Vision.lean ====
section
/-!
DEFINITION. The camera ports (chapter 09): frames and their faults (R287 to R298), statistics and exposure (R299 to R302), the
colour loop's observations (R303 to R308), ladder findings (R304, R319, R320) and the CAM messages.
-/
namespace Sys2Proof.Machine

/-! ### Frames -/

/-- Bands of a port. -/
def camBands (s : State) (k : Nat) : Nat := fld s Fld.CAM_CTRL_BANDS k + 1

/-- The frame being received. -/
def receiving (p : CamPort) : Option CamFrame := match p.frames.getLast? with
  | some f => if f.ended then none else some f
  | none => none

/-- The frame being received changed. -/
def setFrame (s : State) (k : Nat) (f : CamFrame → CamFrame) : State :=
  setCam s k fun p => { p with frames := p.frames.dropLast ++ (p.frames.getLast?.map f).toList }

/-- The bytes of a camera control write (R301, R302): the device address with the write bit, the register address and the value, both
big-endian; the exposure takes two bytes (log 65). -/
def cciBytes (p : CamPort) (w : CciWrite) : List Byte :=
  let be (n v : Nat) : List Byte := (leBytes n v).reverse
  leBytes 1 (2 * (leAt p.profile 0 1 % 128)) ++ be (leAt p.profile 1 1) w.reg ++ be (if w.band < 4 then leAt p.profile 9 1 else 2) w.value

/-- A camera control write put on the bus (R302). -/
def sendCci (s : State) (k : Nat) (w : CciWrite) : State :=
  setCam (emit s (.cci k (cciBytes (cam s k) w))) k fun p => { p with cci := p.cci ++ [w] }

/-- A trigger claimed for a port (R95, R292): the first that the host has not armed, owner 2, with CAM_TRIG, pulse, REJECT and
LEASE_GATE 0. -/
def claimTrigger (s : State) (k : Nat) : State :=
  match (List.range 8).find? fun n => liveFld s Fld.TIM_TRIG_CTRL_OWNER n == 0 && !(nth s.time.trigs n {}).armed with
  | none => s
  | some n =>
    let s := setFld (setFld s Fld.TIM_TRIG_CTRL_TARGET n 1) Fld.TIM_TRIG_CTRL_INDEX n k
    let s := setFld (setFld s Fld.TIM_TRIG_CTRL_ACTION n 3) Fld.TIM_TRIG_CTRL_LATE_POLICY n 1
    let s := setFld (setFld s Fld.TIM_TRIG_CTRL_LEASE_GATE n 0) Fld.TIM_TRIG_CTRL_OWNER n 2
    setCam s k fun p => { p with trigNo := some n }

/-- A claimed trigger given back. -/
def freeTrigger (s : State) (k : Nat) : State :=
  match (cam s k).trigNo with
  | none => s
  | some n => setCam (setFld (setFld s Fld.TIM_TRIG_CTRL_OWNER n 0) Fld.TIM_TRIG_CTRL_TARGET n 0) k fun p =>
      { p with trigNo := none, armed := [] }

/-- The written fields of a port take effect (R6); a port with TRIG_EN holds a trigger, whose pulse is TRIG_WIDTH long (R292). -/
def frameFields (s : State) (k : Nat) : State :=
  let s := { s with frameEff := upd s.frameEff k fun _ => s.live }
  let want := camOn s k && fld s Fld.CAM_CTRL_TRIG_EN k == 1
  let s := if want ∧ (cam s k).trigNo.isNone then claimTrigger s k else if !want then freeTrigger s k else s
  match (cam s k).trigNo with
  | some n => setFld s Fld.TIM_TRIG_CTRL_PULSE_WIDTH n (fld s Fld.CAM_CTRL_TRIG_WIDTH k)
  | none => s

/-- A frame boundary of a port (R6, R300, R302): written fields take effect, completed gains apply with the white references
scaled by the same ratio, and failed transfers are tried again. -/
def frameBoundary (s : State) (k : Nat) : State :=
  let s := frameFields s k
  let p := cam s k
  let scale (b : Nat) : Rat := match p.cciDone.find? (·.1 == b) with
    | some d => if nth p.gains b 0 = 0 then 1 else (d.2 : Rat) / nth p.gains b 0
    | none => 1
  let white := p.white.map fun e => (e.1, e.2.1 * scale (e.1 / 32768), e.2.2)
  let gains := (List.range 4).map fun b => ((p.cciDone.find? (·.1 == b)).map (·.2)).getD (nth p.gains b 0)
  let again := p.cci.filter (·.waits)
  let s := setCam s k fun p => { p with white := white, gains := gains, cciDone := [], cci := p.cci.filter (!·.waits) }
  again.foldl (fun s w => sendCci s k { w with waits := false, retry := true }) s

/-- The bytes of one camera row (R288). -/
def rowBytes (s : State) (k : Nat) : Nat :=
  ceilDiv (fld s Fld.CAM_GEOM_CAM_WIDTH k * camBands s k * (if fld s Fld.CAM_CTRL_FORMAT k = 1 then 10 else 8)) 8

/-- ROW_L of a rate limit and the bytes of a camera row (R318). -/
def rowPitch (rateMax rowBytes : Nat) : Nat := 2 * ceilDiv (rateMax * rowBytes * 10) 24000000000

/-- The lines between the rows of a ladder band's frames (R318). -/
def ladderStep (s : State) (k : Nat) : Nat := rowPitch (bankGet s.sets.active.regs Fld.POS_RATE_RATE_MAX 0) (rowBytes s k)

/-- The lines of a ladder frame that is not complete: their measurements are discarded (R295, R298). -/
def loseLadder (s : State) (k : Nat) (base : Int) : State :=
  setCam s k fun p => { p with lost := p.lost ++ [(base, fld s Fld.CAM_GEOM_CAM_ROWS k * ladderStep s k)] }

/-- The frame being received is marked; what a ladder frame measured is discarded. -/
def markFrame (s : State) (k mark : Nat) : State :=
  let s := match receiving (cam s k) with
    | some f => if f.ladder then loseLadder s k f.base else s
    | none => s
  setFrame s k fun f => { f with mark := mark }

/-- A frame marked ERROR (R297). -/
def frameFault (s : State) (k row code : Nat) : State :=
  let s := markFrame s k 4
  raise (sticky (bump s Fld.CAM_ERR_FRAMES_ERROR k) Fld.CAM_STATUS_LINK_ERROR k) 0x0804 k (row % 256 * 256 + code)

/-- A frame counted as SHORT (R296). -/
def countShort (s : State) (k got : Nat) : State :=
  raise (sticky (bump s Fld.CAM_SHORT_FRAMES_SHORT k) Fld.CAM_STATUS_SHORT k) 0x0802 k got

/-- The frame being received is marked SHORT (R296). -/
def markShort (s : State) (k got : Nat) : State := countShort (markFrame s k 2) k got

/-- A frame marked TRUNCATED (R295). -/
def truncateFrame (s : State) (k got : Nat) : State :=
  let s := markFrame s k 1
  let s := setFrame s k fun f => { f with cur := [] }
  raise (sticky (bump s Fld.CAM_TRUNC_FRAMES_TRUNCATED k) Fld.CAM_STATUS_TRUNCATED k) 0x0801 k got

/-- The pipeline takes a port's frame when it serves none; of two that became ready in the same cycle, camera 0's (R294). -/
def takeFrame (s : State) (k : Nat) : State :=
  let tie : Bool := k == 0 && s.vision.serving == some 1 && s.vision.tookAt == s.time.counter && (cam s 1).frames.length == 1
  if s.vision.serving.isSome ∧ !tie then s
  else { s with vision := { s.vision with serving := some k, tookAt := s.time.counter } }

/-! ### Frames of which a row is not triggered (R293) -/

/-- Whether anything of a frame has been triggered: a row is armed, or its start is expected or has come. -/
def frameKnown (p : CamPort) (ladder : Bool) (num : Int) : Bool :=
  p.armed.any (fun a => a.ladder == ladder && a.num == num) || p.frames.any (fun f => f.ladder == ladder && f.num == num) ||
    (match p.expect with | some a => a.ladder == ladder && a.num == num | none => false)

/-- A row that is not triggered: its frame will be SHORT (R293). -/
def cutFrame (s : State) (k : Nat) (ladder : Bool) (num : Int) : State :=
  if (cam s k).cut.contains (ladder, num) then s else setCam s k fun p => { p with cut := p.cut ++ [(ladder, num)] }

/-- The rows of a frame have all been passed: one of which nothing was triggered counts as SHORT now. -/
def closeFrame (s : State) (k : Nat) (ladder : Bool) (num base : Int) : State :=
  if !(cam s k).cut.contains (ladder, num) || frameKnown (cam s k) ladder num then s
  else
    let s := setCam s k fun p => { p with cut := p.cut.filter (· != (ladder, num)) }
    countShort (if ladder then loseLadder s k base else s) k 0

/-- The end of the frame being received: one of which a row was not triggered is SHORT. -/
def endCut (s : State) (k : Nat) (f : CamFrame) : State :=
  if !(cam s k).cut.contains (f.ladder, f.num) then s
  else
    let s := setCam s k fun p => { p with cut := p.cut.filter (· != (f.ladder, f.num)) }
    if f.mark = 0 then markShort s k f.got else s

/-- FRAME_START_RECEIVE (R287, R297). -/
def execFrameStartReceive (t : Nat) (port : Fin 2) (s : State) : Host.Outcome State Fault Refusal :=
  let s := begin s t
  let k := port.val
  .next (if !camOn s k then s
    else
      let s := match receiving (cam s k) with
        | some f =>
          let s := if f.mark = 0 then markShort s k f.got else s
          setFrame (setCam s k fun p => { p with cut := p.cut.filter (· != (f.ladder, f.num)) }) k fun f => { f with ended := true }
        | none => s
      let s := frameBoundary s k
      match (cam s k).expect with
      | some a =>
        takeFrame (setCam s k fun p =>
          { p with expect := none, frames := p.frames ++ [{ num := a.num, base := a.base, ladder := a.ladder }] }) k
      | none =>
        let (n, s) := fresh s
        let s := takeFrame (setCam s k fun p => { p with frames := p.frames ++ [{}] }) k
        frameFault s k 0 (Config.freeByte n % 256))

/-- The bytes that a number of samples of a port take, packed (R288). -/
def sampleBytes (s : State) (k n : Nat) : Nat := ceilDiv (n * (if fld s Fld.CAM_CTRL_FORMAT k = 1 then 10 else 8)) 8

/-- Samples held of a frame. -/
def frameSamples (f : CamFrame) : Nat := ((f.rows ++ [f.cur]).map fun r => (r.map (·.length)).sum).sum

/-- The bytes in a port's input buffer (R289, R294): its frames but the one that the pipeline serves. -/
def bufferFill (s : State) (k : Nat) : Nat :=
  let wait := if s.vision.serving = some k then (cam s k).frames.drop 1 else (cam s k).frames
  (wait.map fun f => sampleBytes s k (frameSamples f)).sum

/-- Whether a row packet would overflow the input buffer of 2 MiB (R295): one of a frame that waits for the pipeline. -/
def overflows (s : State) (k n : Nat) : Bool :=
  !(s.vision.serving == some k && (cam s k).frames.length == 1) && decide (2 * 2 ^ 20 < bufferFill s k + sampleBytes s k n)

/-- ROW_PACKET_RECEIVE (R287, R295, R297): one band of a row; `fault` is 1 for an uncorrectable header, 2 for a payload CRC error. -/
def execRowPacketReceive (t : Nat) (port : Fin 2) (band : Fin 4) (fault : Fin 3) (samples : List Nat) (s : State) :
    Host.Outcome State Fault Refusal :=
  let s := begin s t
  let k := port.val
  .next (match receiving (cam s k) with
    | none => s
    | some f =>
      if f.mark ≠ 0 ∨ camBands s k ≤ band.val then s
      else if fault.val ≠ 0 then frameFault s k f.got fault
      else if samples.length ≠ fld s Fld.CAM_GEOM_CAM_WIDTH k then frameFault s k f.got 3
      else if band.val ≠ f.cur.length then frameFault s k f.got 4
      else if overflows s k samples.length then truncateFrame s k f.got
      else
        let cur := f.cur ++ [samples]
        if cur.length < camBands s k then setFrame s k fun f => { f with cur := cur }
        else if f.rows.length < fld s Fld.CAM_GEOM_CAM_ROWS k then
          setFrame s k fun f => { f with cur := [], got := f.got + 1, rows := f.rows ++ [cur] }
        else setFrame s k fun f => { f with cur := [], got := f.got + 1 })

/-- RAW10 samples as bytes: four samples in five bytes, the upper eight bits of each and then their lower two (log 26). -/
def pack10 : List Nat → List Byte
  | a :: b :: c :: d :: rest =>
    [a / 4, b / 4, c / 4, d / 4, a % 4 + b % 4 * 4 + c % 4 * 16 + d % 4 * 64].flatMap (leBytes 1) ++ pack10 rest
  | [] => []
  | tail =>
    tail.flatMap (fun v => leBytes 1 (v / 4)) ++
      leBytes 1 (tail.foldr (fun v x => v % 4 + 4 * x) 0)

/-- A frame's samples as the frame store keeps them: packed in RAW10, one byte a sample in RAW8 (log 26). -/
def frameBytes (s : State) (k : Nat) (f : CamFrame) : List Byte :=
  let l := f.rows.flatMap fun r => r.flatMap id
  if fld s Fld.CAM_CTRL_FORMAT k = 1 then pack10 l else l.flatMap (leBytes 1)

/-- The rows of DRAM in which a slot of a port's frame store lies (R290): 1 MiB beyond the image capacity and its headroom (log 78). -/
def slotRows (s : State) (k slot : Nat) : List RowId :=
  let before := if k = 1 ∧ (cam s 0).store then fld s Fld.CAM_CTRL_STORE_FRAMES 0 else 0
  let n := ceilDiv (2 ^ 20) (grainBytes s)
  stripRows s ((List.range n).map fun i => (imgCapacity s + headroom + before + slot) * 2 ^ 20 / grainBytes s + i)

/-- A frame written into the next slot of the port's ring, in class C1 (R289). -/
def storeFrame (s : State) (k slots : Nat) (f : CamFrame) : State :=
  let at_ := (cam s k).slot
  let s := access s (.frame k) 1 true (slotRows s k at_)
  setCam s k fun p => { p with slot := (at_ + 1) % slots, ring := (at_, frameBytes s k f) :: p.ring.filter (·.1 != at_) }

/-- FRAME_END_RECEIVE (R289, R290, R296). -/
def execFrameEndReceive (t : Nat) (port : Fin 2) (s : State) : Host.Outcome State Fault Refusal :=
  let s := begin s t
  let k := port.val
  .next (match receiving (cam s k) with
    | none => s
    | some f =>
      let rows := fld s Fld.CAM_GEOM_CAM_ROWS k
      let s := if f.mark ≠ 0 then s
        else if f.got < rows then markShort s k f.got
        else if rows < f.got then
          let s := markFrame s k 3
          raise (sticky (bump s Fld.CAM_LONG_FRAMES_LONG k) Fld.CAM_STATUS_LONG k) 0x0803 k (Nat.min 255 f.got)
        else if (cam s k).cut.contains (f.ladder, f.num) then s
        else bump s Fld.CAM_GOOD_FRAMES_GOOD k
      let s := match receiving (cam s k) with | some f => endCut s k f | none => s
      let s := setFrame s k fun f => { f with ended := true }
      let slots := fld s Fld.CAM_CTRL_STORE_FRAMES k
      if (cam s k).store ∧ slots ≠ 0 then storeFrame s k slots f else s)

/-- FRAME_TRUNCATED (R295): the port's input buffer is full. -/
def execFrameTruncated (t : Nat) (port : Fin 2) (s : State) : Host.Outcome State Fault Refusal :=
  let s := begin s t
  let k := port.val
  .next (match receiving (cam s k) with
    | none => s
    | some f =>
      if f.mark ≠ 0 then s else truncateFrame s k f.got)

/-- Whether a port's frames belong to the integration: it is enabled and triggers its camera. -/
def integrates (s : State) (k : Nat) : Bool := camOn s k && fld s Fld.CAM_CTRL_TRIG_EN k == 1

/-- The end of an integration judged when the frame with a base line is over, accumulated or not (R310, R311). -/
def judgeIntegration (s : State) (k : Nat) (base : Int) : State :=
  if fld s Fld.CLP_CTRL_CLP_EN = 0 ∨ s.sys.st ≠ .printing then s
  else
    let len := metres (fld s Fld.CLP_CTRL_CLP_LENGTH)
    let c := if s.colour.intLen = 0 then { s.colour with intLen := len } else s.colour
    let stop := c.intStart + c.intLen
    let fin := decide (stop ≤ base + (fld s Fld.CAM_FRAME_FRAME_SPACING k : Int))
    let s := { s with colour := { c with intDone := if fin then upd c.intDone k fun _ => true else c.intDone } }
    if !(List.range 2).all (fun q => !integrates s q || nth s.colour.intDone q false) then s
    else if s.colour.solving.isNone then handOff s
    else
      let s := { s with colour := { s.colour with intLen := s.colour.intLen + len, intDone := [false, false] } }
      if 4 * len ≤ s.colour.intLen ∧ !s.colour.late then
        raise (sticky { s with colour := { s.colour with late := true } } Fld.CLP_STATUS_SOLVE_LATE) 0x0902 0
          (s.colour.intLen * 127 / 6000000)
      else s

/-- FRAME_TIMEOUT (R297): 1 ms after row 0's trigger without a frame start; the frame is gone from its integration too. -/
def execFrameTimeout (t : Nat) (port : Fin 2) (s : State) : Host.Outcome State Fault Refusal :=
  let s := begin s t
  let k := port.val
  .next (match (cam s k).expect with
    | none => s
    | some a =>
      if now s < a.time + 1000000 then s
      else
        let s := setCam s k fun p => { p with expect := none, cut := p.cut.filter (· != (a.ladder, a.num)) }
        let s := raise (sticky (bump s Fld.CAM_ERR_FRAMES_ERROR k) Fld.CAM_STATUS_TIMEOUT k) 0x0805 k (low32 a.base)
        if a.ladder then loseLadder s k a.base else judgeIntegration s k a.base)

/-- TRIG_FAULT (R325): the trigger output reads back differently from its pulse. -/
def execTrigFault (t : Nat) (port : Fin 2) (s : State) : Host.Outcome State Fault Refusal :=
  let s := begin s t
  .next (raise (sticky s Fld.CAM_STATUS_TRIG_FAULT port) 0x0807 port 0)

/-! ### Row triggers (R291 to R293) -/

/-- The web position, in 2^-24 line, at which row j of the frame with a base line is triggered. -/
def rowPosition (s : State) (k : Nat) (base : Int) (offset : Int) : Int :=
  (base + offset + signedOf 24 (fld s Fld.CAM_OFF_CAM_OFFSET k) + signedOf 8 (liveFld s Fld.CAM_TRIM_Y_TRIM k)) * 2 ^ 24

/-- The base line of frame n (R291). -/
def frameBase (s : State) (k : Nat) (n : Int) : Int :=
  (fld s Fld.CAM_PHASE_FRAME_PHASE k : Int) + n * (fld s Fld.CAM_FRAME_FRAME_SPACING k : Int)

/-- The next row of the image frames from a position on: the first frame whose row 0 lies beyond it. -/
def firstFrame (s : State) (k : Nat) (pos : Int) : Int :=
  let sp : Int := fld s Fld.CAM_FRAME_FRAME_SPACING k
  if sp ≤ 0 then 0 else (pos - rowPosition s k (frameBase s k 0) 0) / (sp * 2 ^ 24) + 1

/-- A row trigger put on the port's claimed trigger; one less than 200 ns ahead is rejected as late (R96, R292). -/
def armRow (s : State) (k : Nat) (a : RowArm) : State :=
  if a.time < now s + 200 then s else setCam s k fun p => { p with armed := p.armed ++ [a] }

/-- Whether the row that images a line and the one after it lies in a ladder slot (R291, R306). -/
def rowInSlot (s : State) (line : Int) : Bool := inLadderSlot s.sets.active line || inLadderSlot s.sets.active (line + 1)

/-- A frame whose rows all lie in a ladder slot: none of them is triggered (R293). -/
def skipFrame (s : State) (k : Nat) (base : Int) : State :=
  judgeIntegration (raise (bump s Fld.CAM_SKIP_FRAMES_SKIPPED k) 0x0808 k (low32 base)) k base

/-- When a row at a position is dealt with, and its predicted time (R292): within 100 µs of that time (log 27), or, in crawl mode, once
the position has reached it, for 20 µs later. -/
def rowDue (s : State) (pos : Int) (crawl : Bool) (eta : Int → Option Nat) (at_ : Int) : Option Nat :=
  if crawl then (if at_ ≤ pos then some (now s + 20000) else none)
  else match eta at_ with
    | some e => if e ≤ now s + 100000 then some e else none
    | none => none

/-- A row dealt with: armed when its time lies at least 20 µs ahead, or its frame is short (R292, R293). The last row closes it. -/
def takeRow (s : State) (k : Nat) (a : RowArm) (last : Bool) : State :=
  let s := if now s + 20000 ≤ a.time then armRow s k a else cutFrame s k a.ladder a.num
  if last then closeFrame s k a.ladder a.num a.base else s

/-- The rows of one port's image frames armed from the predictor (R292). `fuel` bounds the rows of one update. -/
def armRows (s : State) (k : Nat) (pos : Int) (crawl : Bool) (eta : Int → Option Nat) : Nat → State
  | 0 => s
  | fuel + 1 =>
    let (n, j) := match (cam s k).nextRow with
      | some r => r
      | none => (firstFrame s k pos, 0)
    let s := setCam s k fun p => { p with nextRow := some (n, j) }
    let base := frameBase s k n
    let rows := fld s Fld.CAM_GEOM_CAM_ROWS k
    let st := fld s Fld.CAM_GEOM_ROW_STEP k
    match rowDue s pos crawl eta (rowPosition s k base (j * st : Nat)) with
    | none => s
    | some e =>
      if j = 0 ∧ (List.range rows).all (fun i => rowInSlot s (base + (i * st : Nat))) then
        armRows (skipFrame (setCam s k fun p => { p with nextRow := some (n + 1, 0) }) k base) k pos crawl eta fuel
      else
        let last := decide (rows ≤ j + 1)
        let s := setCam s k fun p => { p with nextRow := some (if last then (n + 1, 0) else (n, j + 1)) }
        armRows (takeRow s k ⟨n, base, j, e, false⟩ last) k pos crawl eta fuel

/-- The next row of the ladder band that a port images (R318): the band's first line and length, and the row's number in it. -/
def ladderNext (s : State) (k : Nat) (pos : Int) : Option (Int × Nat × Nat) :=
  let step := ladderStep s k
  let ahead (after : Option Int) : Option (Int × Nat × Nat) :=
    (s.colour.bands.find? fun b => (match after with | some a => decide (a < b.1) | none => true) &&
      decide (pos < rowPosition s k b.1 0)).map fun b => (b.1, b.2, 0)
  match (cam s k).ladderRow with
  | none => if step = 0 then none else ahead none
  | some (b, j) => match s.colour.bands.find? (·.1 == b) with
    | some x => if step = 0 then none else if j * step < x.2 then some (b, x.2, j) else ahead (some b)
    | none => if step = 0 then none else ahead (some b)

/-- The next row of a ladder band taken when it is due (R318): rows stand back to back, ROW_L lines apart. -/
def ladderRowTaken (s : State) (k : Nat) (pos : Int) (crawl : Bool) (eta : Int → Option Nat) : Option State :=
  match ladderNext s k pos with
  | none => none
  | some (b, len, j) =>
    let step := ladderStep s k
    let rows := fld s Fld.CAM_GEOM_CAM_ROWS k
    match rowDue s pos crawl eta (rowPosition s k b (j * step : Nat)) with
    | none => none
    | some e =>
      let s := setCam s k fun p => { p with ladderRow := some (b, j + 1), lost := if j = 0 then [] else p.lost,
                                            cut := if j = 0 then p.cut.filter (!·.1) else p.cut }
      let last := decide (rows ≤ j % rows + 1) || decide (len ≤ (j + 1) * step)
      some (takeRow s k ⟨(j / rows : Nat), b + (j / rows * rows * step : Nat), j % rows, e, true⟩ last)

/-- The rows of a ladder band armed (R318), as many as are due. `fuel` bounds the rows of one update. -/
def armLadder (s : State) (k : Nat) (pos : Int) (crawl : Bool) (eta : Int → Option Nat) : Nat → State
  | 0 => s
  | fuel + 1 => match ladderRowTaken s k pos crawl eta with
    | none => s
    | some s => armLadder s k pos crawl eta fuel

/-- Whether no frame of a port is under way: nothing received, expected or armed, and no frame's rows begun. -/
def camIdle (p : CamPort) : Bool :=
  (receiving p).isNone && p.expect.isNone && p.armed.isEmpty && (match p.nextRow with | some (_, j) => j == 0 | none => true)

/-- ROW_TRIGGER_ARM at a predictor update, for both ports (R292): not while scheduling is frozen or on a pass that does not print. A
port's next triggered frame begins with the arming of its first row, so its fields take effect while no frame is under way (R6). -/
def armCameras (s : State) (pos : Int) (crawl frozen : Bool) (eta : Int → Option Nat) : State :=
  (List.range 2).foldl (fun s k =>
    if !camOn s k then s
    else
      let s := if camIdle (cam s k) then frameFields s k else s
      if fld s Fld.CAM_CTRL_TRIG_EN k == 0 || frozen || (cam s k).trigNo.isNone then s
      else armLadder (armRows s k pos crawl eta 64) k pos crawl eta 64) s

/-- Frames given up as position jumps or a pass ends: one with rows still to trigger is short (R293), and the next is found anew. -/
def dropFrames (s : State) : State :=
  (List.range 2).foldl (fun s k =>
    let s := match (cam s k).nextRow with
      | some (n, j) => if j = 0 then s else closeFrame (cutFrame s k false n) k false n (frameBase s k n)
      | none => s
    setCam s k fun p => { p with nextRow := none, ladderRow := none }) s

/-- The row triggers of a port that are due act on its trigger output (R292): a frame start is expected after the first of a frame. -/
def fireRows (s : State) (k : Nat) : State :=
  let due := (cam s k).armed.filter fun a => decide (a.time ≤ now s)
  due.foldl (fun s a =>
    let s := setCam s k fun p =>
      let q := { p with armed := p.armed.filter (· != a) }
      { q with expect := if a.row != 0 && frameKnown { q with armed := [] } a.ladder a.num then q.expect else some a }
    emit s (.trigger 1 k 3 (fld s Fld.CAM_CTRL_TRIG_WIDTH k))) s

/-! ### Statistics and exposure (R299, R300) -/

/-- A sample as a 10-bit code: RAW8 samples are taken as v x 4 (R306). -/
def code10 (s : State) (k v : Nat) : Nat := if fld s Fld.CAM_CTRL_FORMAT k = 1 then v else v * 4

/-- The 256-bin histogram of a band (R299). -/
def histogram (s : State) (k : Nat) (f : CamFrame) (b : Nat) : List Nat :=
  f.rows.foldl (fun h r => (nth r b []).foldl (fun h v => upd h (code10 s k v / 4 % 256) (· + 1)) h) (List.replicate 256 0)

/-- The 64 x 4 zone averages of a band in 1/64 code (R299). -/
def zoneAverages (s : State) (k : Nat) (f : CamFrame) (b : Nat) : List Nat :=
  let w := fld s Fld.CAM_GEOM_CAM_WIDTH k
  let n := fld s Fld.CAM_GEOM_CAM_ROWS k
  (List.range 256).map fun i =>
    let z := i % 64
    let r := i / 64
    let rows := (f.rows.drop (r * n / 4)).take ((r + 1) * n / 4 - r * n / 4)
    let vs := rows.flatMap fun row => ((nth row b []).drop (z * w / 64)).take ((z + 1) * w / 64 - z * w / 64)
    if vs.isEmpty then 0 else (vs.map (code10 s k)).sum * 64 / vs.length

/-- The statistics of a complete or LONG frame. -/
def takeStats (s : State) (k : Nat) (f : CamFrame) : State :=
  let bs := List.range (camBands s k)
  setCam s k fun p => { p with hist := bs.map (histogram s k f), zones := bs.map (zoneAverages s k f) }

/-- The bin at which a percentage of the samples lie at or below. -/
def percentileBin (h : List Nat) (pct : Nat) : Nat → Nat → Nat → Nat
  | 0, i, _ => i
  | fuel + 1, i, acc =>
    let acc := acc + nth h i 0
    if pct * h.sum ≤ acc * 100 then i else percentileBin h pct fuel (i + 1) acc

/-- A 16-bit little-endian field of the camera profile (R301). -/
def profileWord (p : CamPort) (off : Nat) : Nat := leAt p.profile off 2

/-- One band's gain adjusted (R300): multiplied by AE_TARGET / P held to 0.94 to 1.06, rounded to nearest, within the profile. -/
def adjustGain (s : State) (k b : Nat) : State :=
  let p := cam s k
  let bin := percentileBin (nth p.hist b []) (fld s Fld.CAM_AE_AE_PCT k) 255 0 0
  let ratio : Rat := if bin = 0 then 53 / 50 else clampRat ((fld s Fld.CAM_AE_AE_TARGET k : Rat) / bin) (47 / 50) (53 / 50)
  let want := ((nth p.gains b 0 : Rat) * ratio + 1 / 2).floor.toNat
  let lo := profileWord p 10
  let hi := profileWord p 12
  let code := Nat.max lo (Nat.min hi want)
  let s := if want ≤ lo ∨ hi ≤ want then raise (sticky s Fld.CAM_STATUS_AE_LIMIT k) 0x0809 k b else s
  let reg := profileWord p 6
  if reg = 0 ∨ code = nth p.gains b 0 then s
  else sendCci s k { reg := reg + b * leAt p.profile 8 1, value := code, band := b }

/-- AE_ADJUST (R300): after every AE_PERIOD complete frames. -/
def adjustExposure (s : State) (k : Nat) : State :=
  let n := (cam s k).aeCount + 1
  if fld s Fld.CAM_CTRL_AE_EN k = 0 then s
  else if n < fld s Fld.CAM_AE_AE_PERIOD k then setCam s k fun p => { p with aeCount := n }
  else (List.range (camBands s k)).foldl (fun s b => adjustGain s k b) (setCam s k fun p => { p with aeCount := 0 })

/-- CCI_TRANSFER_DONE (R300, R302): the oldest transfer on the port's bus. -/
def execCciTransferDone (t : Nat) (port : Fin 2) (ok : Bool) (s : State) : Host.Outcome State Fault Refusal :=
  let s := begin s t
  let k := port.val
  .next (match (cam s k).cci.find? (!·.waits) with
    | none => s
    | some w =>
      let drop (s : State) : State := setCam s k fun p => { p with cci := p.cci.erase w }
      if ok then
        let s := drop s
        if w.band < 4 then setCam s k fun p => { p with cciDone := p.cciDone.filter (·.1 != w.band) ++ [(w.band, w.value)] } else s
      else if !w.retry then setCam s k fun p => { p with cci := p.cci.map fun x => if x = w then { x with waits := true } else x }
      else raise (sticky (drop s) Fld.CAM_STATUS_CCI_FAIL k) 0x0806 k w.reg)

/-! ### Observations (R305 to R308) -/

/-- The white reference of a band's pixel and its samples since the reset (R307). -/
def whiteOf (p : CamPort) (b px : Nat) : Rat × Nat :=
  match p.white.find? (·.1 == b * 32768 + px) with | some e => e.2 | none => (1000, 0)

/-- WHITE_REF_UPDATE (R307). The first sample since the reset replaces the reference. -/
def moveWhite (s : State) (k b px v : Nat) : State :=
  let (w, n) := whiteOf (cam s k) b px
  let w' : Rat := if n = 0 then v else w + ((v : Rat) - w) / 2 ^ fld s Fld.CLP_CTRL_WHITE_TC
  setCam s k fun p => { p with white := p.white.filter (·.1 != b * 32768 + px) ++ [(b * 32768 + px, w', n + 1)] }

/-- One pixel of one row in one band: an observation, rejected or accumulated (R306, R308). -/
def observe (s : State) (k g band px v : Nat) (row : Int) (units : Nat → Nat) : State :=
  let black := profileWord (cam s k) 14
  let (w, n) := whiteOf (cam s k) band px
  let x := contributions s units band
  if n < 2 ^ fld s Fld.CLP_CTRL_WHITE_TC then s
  else if 1020 ≤ v ∨ v ≤ black + 4 ∨ (fld s Fld.CLP_LIMITS_DMAX : Rat) / 1024 < x.sum ∨ rowInSlot s row then
    bump s Fld.CLP_REJECT_OBS_REJECTED
  else
    let m := Config.density (((v : Rat) - black) / (w - black))
    { s with colour := { s.colour with cur := addGroup s.colour.cur g x (m - x.sum) } }

/-- The colour loop's work on one pixel of one row. -/
def pixelWork (s : State) (k : Nat) (f : CamFrame) (j px : Nat) (row : List (List Nat)) : State :=
  match pixelColumn s k px with
  | none => s
  | some x =>
    let units (i : Nat) : Nat := coverUnits s k f.num j i px
    let blank := (List.range 8).all fun i => units i == 0
    let line := f.base + (j * fld s Fld.CAM_GEOM_ROW_STEP k : Nat)
    (List.range row.length).foldl (fun s b =>
      let v := code10 s k (nth (nth row b []) px 0)
      if blank then moveWhite s k b px v else observe s k (x / groupSize s) b px v line units) s

/-- The colour loop's work on a complete frame (R307, R308). -/
def frameWork (s : State) (k : Nat) (f : CamFrame) : State :=
  if fld s Fld.CLP_CTRL_CLP_EN = 0 ∨ s.sys.st ≠ .printing ∨ (cam s k).held ∨ f.ladder then s
  else
    let s := (List.range f.rows.length).foldl (fun s j =>
      (List.range (fld s Fld.CAM_GEOM_CAM_WIDTH k)).foldl (fun s px => pixelWork s k f j px (nth f.rows j [])) s) s
    { s with colour := { s.colour with cov := s.colour.cov.filter fun r => !(r.port == k && r.num == f.num) } }

/-- FRAME_PROCESSED (R294, R298): the pipeline finishes its frame and takes the next, first from the other port. -/
def execFrameProcessed (t : Nat) (s : State) : Host.Outcome State Fault Refusal :=
  let s := begin s t
  .next (match s.vision.serving with
    | none => s
    | some k =>
      match (cam s k).frames with
      | [] => { s with vision := { s.vision with serving := none } }
      | f :: rest =>
        if !f.ended then s
        else
          let s := setCam s k fun p => { p with frames := rest }
          let s := if f.mark = 0 ∨ f.mark = 3 then takeStats s k f else s
          let s := if f.mark = 3 then adjustExposure s k else s
          let s := if f.mark = 0 then frameWork (adjustExposure s k) k f else s
          let s := if f.ladder then s else judgeIntegration s k f.base
          let k' := 1 - k
          { s with vision := { s.vision with tookAt := s.time.counter, serving :=
            if !(cam s k').frames.isEmpty then some k' else if !(cam s k).frames.isEmpty then some k else none } })

/-! ### Ladder findings (R304, R319, R320) -/

/-- Ascending insertion of an integer. -/
def insertInt (n : Int) : List Int → List Int
  | [] => [n]
  | x :: xs => if n ≤ x then n :: x :: xs else x :: insertInt n xs

/-- The median of integers: the mean of the middle two when they are even in number. -/
def median (l : List Int) : Rat :=
  let o := l.foldr insertInt []
  let n := o.length
  if n = 0 then 0
  else if n % 2 = 1 then nth o (n / 2) 0 else ((nth o (n / 2 - 1) 0 + nth o (n / 2) 0 : Int) : Rat) / 2

/-- The `m` dashes nearest a nozzle in its head row, by distance then by number. -/
def nearest (d : Dash) (row : List Dash) : List Dash :=
  let others := row.filter (·.nozzle != d.nozzle)
  let dist (e : Dash) : Nat := ((e.nozzle : Int) - d.nozzle).natAbs
  let ins (e : Dash) (l : List Dash) : List Dash :=
    (l.takeWhile fun x => decide (dist x ≤ dist e)) ++ [e] ++ l.dropWhile fun x => decide (dist x ≤ dist e)
  (others.foldl (fun l e => ins e l) []).take 16

/-- The finding of a dash (R319): 0 OK, 1 WEAK, 2 OUT. -/
def finding (c : CfgSet) (d : Dash) (row : List Dash) : Nat :=
  let med := median ((nearest d row).map (·.strength))
  let q : Rat := if med = 0 then 0 else (d.strength : Rat) / med
  if q < (bankGet c.regs Fld.CLP_CLASS_LADDER_OUT 0 : Rat) / 256 then 2
  else if q < (bankGet c.regs Fld.CLP_CLASS_LADDER_WEAK 0 : Rat) / 256 ∨
      bankGet c.regs Fld.CLP_CLASS_LADDER_DEV 0 < d.dx.natAbs then 1
  else 0

/-- A dash that a ladder prints (R317): its nozzle and column, and the first line of its rung in the band. -/
structure LadderDash where
  head   : Nat
  rowB   : Bool
  nozzle : Nat
  column : Int
  line   : Nat
  deriving DecidableEq, Repr

/-- The dashes of one head row in its sub-band: those of the nozzles that print (R317). -/
def rowDashes (c : CfgSet) (live : Bank) (r : ChainRow) (sub : Nat) : List LadderDash :=
  match setType c r.place.type with
  | none => []
  | some t => (List.range (r.place.last + 1 - r.place.first)).filterMap fun i =>
      let n := r.place.first + i
      let step := bankGet c.regs Fld.CLP_LADDER_DASH 0 + bankGet c.regs Fld.CLP_LADDER_GAP 0
      if bankGet live Fld.WFT_NOZZLE_STATE (2 * r.head + bit r.rowB) n = 3 then none
      else some ⟨r.head, r.rowB, n, rowColumn r.place t r.rowB n,
        sub * subBandLines c + n % bankGet c.regs Fld.CLP_LADDER_RUNGS 0 * step⟩

/-- The dashes that a ladder of the set prints (R317). -/
def ladderDashes (c : CfgSet) (live : Bank) : List LadderDash :=
  (List.range 16).flatMap fun ch =>
    let chains := ladderChains c ch
    (List.range chains.length).flatMap fun k =>
      let rows := nth chains k []
      (List.range rows.length).flatMap fun i => match rows[i]? with
        | some r => rowDashes c live r (subBandsBefore c ch + 2 * k + i % 2)
        | none => []

/-- Whether a column lies in a port's view (R303). -/
def inView (s : State) (k : Nat) (x : Int) : Bool :=
  let w := fld s Fld.CAM_GEOM_CAM_WIDTH k
  let x0 := signedOf 24 (fld s Fld.CAM_POS_CAM_X0 k) + signedOf 8 (liveFld s Fld.CAM_TRIM_X_TRIM k)
  w != 0 && decide (x0 - 1 ≤ x) && decide (x ≤ x0 + (((w - 1) * fld s Fld.CAM_PITCH_X_PITCH k + 128) / 256 : Nat))

/-- The dashes that a port is expected to find (R320): those in its view. -/
def dashesExpected (s : State) (k : Nat) : List LadderDash :=
  (ladderDashes s.sets.active s.live).filter fun d => inView s k d.column

/-- Whether the measurement of a run of lines of the band under way was discarded (R295, R298). -/
def measureLost (p : CamPort) (line len : Nat) : Bool :=
  match p.ladderRow with
  | none => false
  | some (b, _) => p.lost.any fun r => decide (r.1 < b + line + len) && decide (b + line < r.1 + r.2)

/-- One nozzle's finding handled (R320); the second component counts the changes. -/
def applyFinding (s : State) (d : Dash) (f : Nat) : State × Nat :=
  let key := 4096 * (2 * d.head + bit d.rowB) + d.nozzle
  let st := nozzleNow s d.head d.rowB d.nozzle
  let runs := ((s.colour.okRuns.find? (·.1 == key)).map (·.2)).getD 0
  let setRuns (s : State) (n : Nat) : State :=
    { s with colour := { s.colour with okRuns := s.colour.okRuns.filter (·.1 != key) ++ if n = 0 then [] else [(key, n)] } }
  if st = 3 then (s, 0)
  else if f ≠ 0 then (if st = f then (setRuns s 0, 0) else (queueNozzle (setRuns s 0) true d.head d.rowB d.nozzle f, 1))
  else if st = 0 then (s, 0)
  else if runs + 1 < bankGet s.sets.active.regs Fld.CLP_CLASS_LADDER_CONFIRM 0 then (setRuns s (runs + 1), 0)
  else (queueNozzle (setRuns s 0) true d.head d.rowB d.nozzle 0, 1)

/-- A port held under R304 or no longer, with CLP_STATUS.HOLDING. -/
def holdPort (s : State) (k : Nat) (held : Bool) : State :=
  let s := setCam s k fun p => { p with held := held }
  setFld s Fld.CLP_STATUS_HOLDING 0 (bit (s.vision.cams.any (·.held)))

/-- REG_TRIM (R304): both trims from the medians, held when one would leave −64 to +63. -/
def trimPort (s : State) (x : LadderScan) : State :=
  let k := x.port.val
  let dx := median (x.dashes.map (·.dx)) / 16
  let dy := median (x.rungs.map (·.2)) / 16
  let ox := signedOf 8 (liveFld s Fld.CAM_TRIM_X_TRIM k)
  let oy := signedOf 8 (liveFld s Fld.CAM_TRIM_Y_TRIM k)
  let nx := ((ox : Rat) + dx + 1 / 2).floor
  let ny := ((oy : Rat) + dy + 1 / 2).floor
  if nx < -64 ∨ 63 < nx ∨ ny < -64 ∨ 63 < ny then
    let s := holdPort s k true
    raise (sticky s Fld.CLP_STATUS_REG_LOST) 0x0908 k (low32 (dx + 1 / 2).floor)
  else
    let s := holdPort s k false
    if nx = ox ∧ ny = oy then s
    else
      let s := setFld (setFld s Fld.CAM_TRIM_X_TRIM k (unsignedOf 8 nx)) Fld.CAM_TRIM_Y_TRIM k (unsignedOf 8 ny)
      raise s 0x0907 k (unsignedOf 8 nx * 256 + unsignedOf 8 ny)

/-- What of a scan is used (R295, R298): the measurements that no discarded frame made. -/
def keptScan (s : State) (x : LadderScan) : LadderScan :=
  let c := s.sets.active
  let p := cam s x.port
  let step := bankGet c.regs Fld.CLP_LADDER_DASH 0 + bankGet c.regs Fld.CLP_LADDER_GAP 0
  let want := dashesExpected s x.port
  let gone (d : Dash) : Bool := want.any fun e =>
    e.head == d.head && e.rowB == d.rowB && e.nozzle == d.nozzle && measureLost p e.line step
  { port := x.port
    dashes := x.dashes.filter fun d => !gone d
    rungs := x.rungs.filter fun r => !measureLost p (r.1 * subBandLines c) step }

/-- The dashes of a passed ladder as R319 judges them: those found, and of those expected and measured but not found, none of any
strength. -/
def judgedDashes (s : State) (x : LadderScan) : List Dash :=
  let c := s.sets.active
  let step := bankGet c.regs Fld.CLP_LADDER_DASH 0 + bankGet c.regs Fld.CLP_LADDER_GAP 0
  (dashesExpected s x.port).filterMap fun e =>
    match x.dashes.find? fun d => d.head == e.head && d.rowB == e.rowB && d.nozzle == e.nozzle with
    | some d => some d
    | none => if measureLost (cam s x.port) e.line step then none else some ⟨e.head, e.rowB, e.nozzle, 0, 0⟩

/-- The findings of a passed ladder (R319, R320); the second component counts the changes. A standby's write nothing (R315). -/
def applyFindings (s : State) (x : LadderScan) : State × Nat :=
  if s.pair.role = .standby then (s, 0)
  else
    let c := s.sets.active
    let all := judgedDashes s x
    all.foldl (fun (a : State × Nat) d =>
      let row := all.filter fun e => e.head == d.head && e.rowB == d.rowB
      let (s, k) := applyFinding a.1 d (finding c d row)
      (s, a.2 + k)) (s, 0)

/-- Whether a port's ladder passes (R320): at least half the expected dashes were found. -/
def ladderPasses (s : State) (x : LadderScan) : Bool := decide ((dashesExpected s x.port).length ≤ 2 * x.dashes.length)

/-- One port's scan of a ladder (R304, R320); the other components count the changes and the ports that passed. -/
def takeScan (a : State × Nat × Nat) (x : LadderScan) : State × Nat × Nat :=
  let x := keptScan a.1 x
  if ladderPasses a.1 x then
    let (s, n) := applyFindings a.1 x
    (trimPort s x, a.2.1 + n, a.2.2 + 1)
  else (raise (sticky a.1 Fld.CLP_STATUS_LADDER_FAILED) 0x0906 x.port x.dashes.length, a.2)

/-- LADDER_DONE (R304, R320): each port's scan is used when it found half the dashes. A standby trims its own cameras and writes nothing
else (R315, log 66). -/
def execLadderDone (t : Nat) (scans : List LadderScan) (s : State) : Host.Outcome State Fault Refusal :=
  let s := begin s t
  .next (if s.colour.bands.isEmpty then s
    else
      let s := doorbell (bump s Fld.CLP_LADDERS_LADDERS) 28
      let (s, n, ok) := scans.foldl takeScan (s, 0, 0)
      if ok = 0 then s else raise s 0x0905 0 n)

/-! ### CAM messages -/

/-- What a change of a port's configuration does at once (R292, R301, R307): a port that is enabled has no frame, so its fields take
effect, its white references begin anew and the exposure is written; one that is disabled gives its trigger back. The other fields wait
for the next frame. -/
def camChanged (s : State) (k : Nat) (wasOn : Bool) : State :=
  if camOn s k = wasOn then s
  else if camOn s k then
    let s := setCam s k fun p =>
      { p with white := [], frames := [], armed := [], nextRow := none, ladderRow := none, expect := none, cut := [], lost := [] }
    let s := frameFields s k
    let reg := profileWord (cam s k) 2
    if reg = 0 then s else sendCci s k { reg := reg, value := profileWord (cam s k) 4, band := 4 }
  else freeTrigger s k

/-- A port of the standby after a record (R293, R315): it triggers its own camera with the trigger that the active has claimed. -/
def adoptCamera (s : State) (k : Nat) (wasOn : Bool) : State :=
  let mine (n : Nat) : Bool := liveFld s Fld.TIM_TRIG_CTRL_OWNER n == 2 && liveFld s Fld.TIM_TRIG_CTRL_TARGET n == 1 &&
    liveFld s Fld.TIM_TRIG_CTRL_INDEX n == k
  camChanged (setCam s k fun p => { p with trigNo := (List.range 8).find? mine }) k wasOn

/-- The third condition of R309: the coverage records of the enabled ports and the accumulators fit. -/
def coverageFits (s : State) (c : CfgSet) : Bool :=
  let g := 2 ^ (bankGet c.regs Fld.CLP_CTRL_GROUP_SIZE 0 + 1)
  let px := ((List.range 2).map fun k => if camOn s k then
    liveFld s Fld.CAM_GEOM_CAM_WIDTH k * liveFld s Fld.CAM_GEOM_CAM_ROWS k else 0).sum
  decide (128 * px + 360 * ceilDiv columns g ≤ 100663296)

/-- The registers of CAM.CONFIG in order (R441). -/
def camRegs : List Reg := [.CAM_CTRL, .CAM_GEOM, .CAM_POS, .CAM_PITCH, .CAM_OFF, .CAM_FRAME, .CAM_PHASE, .CAM_AE]

/-- Whether a register's value has every field in its range. -/
def regValueOk (r : Reg) (v : Nat) : Bool := (regFields r).all fun f => fieldValueOk f (bitsOf v f.lo f.width)

/-- A register's value without its reserved bits, which the module ignores (R3). -/
def regDefined (r : Reg) (v : Nat) : Nat := ((regFields r).map fun f => bitsOf v f.lo f.width * 2 ^ f.lo).sum

/-- CAM_CONFIG (R288, R309, R441). -/
def execCamConfig (t : Nat) (ch : Fin 6) (tag port : Nat) (values : List Nat) (s : State) : Host.Outcome State Fault Refusal :=
  .next (message (begin s t) ch 12 0x10 tag true false fun s =>
    let bad := 2 ≤ port || values.length != 8 ||
      (List.range 8).any fun i => !regValueOk (nth camRegs i .CAM_CTRL) (nth values i 0)
    let ctrl := nth values 0 0
    let geom := nth values 1 0
    let size := bitsOf geom 0 16 * bitsOf geom 16 7 * (bitsOf ctrl 4 2 + 1) * (if bitsOf ctrl 3 1 = 1 then 10 else 8)
    if bad ∨ 8388608 < size then (s, ⟨4, 0, [], false⟩)
    else
      let live := (List.range 8).foldl (fun b i => bankWrite b (regKey (nth camRegs i .CAM_CTRL) port 0)
        (regDefined (nth camRegs i .CAM_CTRL) (nth values i 0))) s.live
      let s' := { s with live := live }
      if !coverageFits s' s.sets.active then (s, named 6 5 port)
      else (camChanged s' port (camOn s port), ⟨0, 0, [], false⟩))

/-- CAM_PROFILE (R301). -/
def execCamProfile (t : Nat) (ch : Fin 6) (tag port : Nat) (profile : List Byte) (s : State) : Host.Outcome State Fault Refusal :=
  .next (message (begin s t) ch 12 0x11 tag true false fun s =>
    let ab := leAt profile 1 1
    let gb := leAt profile 9 1
    if 2 ≤ port ∨ profile.length ≠ 16 ∨ !(ab == 1 || ab == 2) ∨ !(gb == 1 || gb == 2) ∨ leAt profile 12 2 < leAt profile 10 2 then
      (s, ⟨4, 0, [], false⟩)
    else (setCam s port fun p => { p with profile := profile, gains := List.replicate 4 (leAt profile 10 2) }, ⟨0, 0, [], false⟩))

/-- CAM_STATS (R299): four bytes a value. -/
def execCamStats (t : Nat) (ch : Fin 6) (tag port band kind first count : Nat) (s : State) : Host.Outcome State Fault Refusal :=
  .next (message (begin s t) ch 12 0x12 tag false false fun s => (s,
    if 2 ≤ port ∨ 4 ≤ band ∨ 1 < kind ∨ 56 < count ∨ 256 < first + count then ⟨4, 0, [], false⟩
    else
      let p := cam s port
      let l := if kind = 0 then nth p.hist band [] else nth p.zones band []
      ⟨0, 0, (List.range count).flatMap fun i => leBytes 4 (nth l (first + i) 0), false⟩))

/-- CAM_READ_FRAME (R289, R428, R441). -/
def execCamReadFrame (t : Nat) (ch : Fin 6) (tag port slot : Nat) (data : DataRef) (s : State) :
    Host.Outcome State Fault Refusal :=
  .next (message (begin s t) ch 12 0x13 tag false false fun s =>
    if s.sys.ethernet then (s, ⟨5, 0, [], false⟩)
    else if 2 ≤ port then (s, ⟨4, 0, [], false⟩)
    else match (cam s port).ring.find? (·.1 == slot) with
      | none => (s, named 5 5 port)
      | some f => if data.length < f.2.length then (s, ⟨4, 0, [], false⟩)
        else (emit s (.hostWrite data.addr f.2), ⟨0, 0, [], false⟩))

end Sys2Proof.Machine
end

