-- ==== Sys2Proof/Machine/Position.lean ====
section
/-!
DEFINITION. Encoders and web position (R27 to R41, R617), the line predictor (R46 to R49), overspeed (R59, R62), reversal and the
end of a carriage pass (R36, R37, R41, R43).
-/
namespace Sys2Proof.Machine

/-! ### Encoder inputs -/

/-- An encoder. -/
def enc (s : State) (e : Nat) : Encoder := nth s.pos.enc e {}

/-- An encoder changed. -/
def setEnc (s : State) (e : Nat) (f : Encoder → Encoder) : State := { s with pos := { s.pos with enc := upd s.pos.enc e f } }

/-- Whether an encoder is enabled. -/
def encOn (s : State) (e : Nat) : Bool := fld s Fld.POS_ENC_CTRL_ENC_EN e == 1

/-- LINES_PER_COUNT of an encoder in 2^-24 line. -/
def linesPerCount (s : State) (e : Nat) : Int := fld s Fld.POS_SCALE_LINES_PER_COUNT e

/-- Scheduling freezes and the unit stops (R40). -/
def encoderStop (s : State) : State := orderlyStop (freeze s) 2

/-- R40 for a position fault of the encoder that drives position, in ARMED or PRINTING: position goes to the secondary at its next
update, or the unit stops. The secondary is free of faults while it has no position fault (R32): a bit that is none, such as OPEN_Z,
does not keep it out (log 42). -/
def checkEncoder (s : State) : State :=
  let e := s.pos.source
  let other := 1 - e
  let sound := encOn s other && !positionFault s other
  if !(s.sys.st == .armed || s.sys.st == .printing) ∨ !positionFault s e ∨ (s.pos.fallback ∧ sound) then s
  else if fld s Fld.POS_SOURCE_ENC_FALLBACK = 1 ∧ e = fld s Fld.POS_SOURCE_PRIMARY ∧ sound then
    { s with pos := { s.pos with fallback := true } }
  else encoderStop { s with pos := { s.pos with fallback := false } }

/-- A bit of POS_ENC_STATUSn that becomes set, with ENCn_FAULT and event 0x0207 (R32). -/
def encBit (s : State) (e : Nat) (f : Field) : State :=
  if liveFld s f e = 1 then checkEncoder s
  else
    let s := sticky (sticky s f e) (if e = 0 then Fld.POS_STATUS_ENC0_FAULT else Fld.POS_STATUS_ENC1_FAULT)
    checkEncoder (raise s 0x0207 e (2 ^ f.lo))

/-- The status bit of a pair: 0 A, 1 B, 2 Z. -/
def openField (pair : Nat) : Field :=
  match pair with | 0 => Fld.POS_ENC_STATUS_OPEN_A | 1 => Fld.POS_ENC_STATUS_OPEN_B | _ => Fld.POS_ENC_STATUS_OPEN_Z

/-- Whether a pair is open. -/
def pairOpen (x : Encoder) (pair : Nat) : Bool := match pair with | 0 => x.openA | 1 => x.openB | _ => x.openZ

/-- A pair opened or closed. -/
def setPair (x : Encoder) (pair : Nat) (o : Bool) : Encoder :=
  match pair with | 0 => { x with openA := o } | 1 => { x with openB := o } | _ => { x with openZ := o }

/-- The open pairs of an enabled encoder have their bits set, again if the host has cleared them (R32). -/
def openBits (s : State) (e : Nat) : State :=
  if encOn s e then (List.range 3).foldl (fun s p => if pairOpen (enc s e) p then encBit s e (openField p) else s) s else s

/-- ENCODER_PAIR_OPEN (R31, R32). -/
def execEncoderPairOpen (t : Nat) (enc : Fin 2) (pair : Fin 3) (s : State) : Host.Outcome State Fault Refusal :=
  .next (openBits (setEnc (begin s t) enc fun x => setPair x pair true) enc)

/-- ENCODER_PAIR_CLOSED (R32): with A and B both closed again, counting resumes from their state. -/
def execEncoderPairClosed (t : Nat) (enc : Fin 2) (pair : Fin 3) (a b : Bool) (s : State) : Host.Outcome State Fault Refusal :=
  .next (setEnc (begin s t) enc fun x =>
    let x := setPair x pair false
    if !x.openA && !x.openB then { x with a := a, b := b } else x)

/-! ### The predictor (R46 to R49) -/

/-- update(t, z) of R46. -/
def predUpdate (p : Predictor) (alpha beta : Nat) (t : Nat) (z : Rat) : Predictor :=
  if t = p.tLast then { p with zLast := z }
  else
    let dt : Rat := ((t : Int) - (p.tLast : Int) : Int)
    let hat := p.p + p.v * dt
    let e := z - hat
    { p with p := hat + alpha / 256 * e, v := p.v + beta / 1024 * e / dt, tLast := t, zLast := z }

/-- Crawl mode is entered and left (R49). -/
def judgeCrawl (s : State) : State :=
  let min := fld s Fld.POS_PRED_PRED_MIN_RATE
  let r := lineRate s
  if r < (min : Rat) then { s with pos := { s.pos with crawl := true } }
  else if (5 * min : Rat) / 4 < r then { s with pos := { s.pos with crawl := false } }
  else s

/-- A channel enters or leaves overspeed (R59, R62). The first affected line is the channel's next line at that moment, the last one the
last that it sent or dropped since (log 39). -/
def judgeOverspeed (s : State) (c : Nat) : State :=
  let x := chan s c
  let fast := decide ((limitAt s c x.next : Rat) < lineRate s)
  if fast = x.overspeed then s
  else if fast then
    let s := setChan s c fun x => { x with overspeed := true, overLine := x.next }
    raise (sticky s Fld.POS_STATUS_OVERSPEED) 0x0203 c (low32 x.next)
  else raise (setChan s c fun x => { x with overspeed := false }) 0x0204 c (low32 x.overLine)

/-- The web-line position in 2^-24 line, as the pass counts it. -/
def webUnits (s : State) : Int := (webPos s * 2 ^ 24).floor

/-- What follows every update of the predictor: crawl mode, overspeed, revised fire times, camera rows (R49, R54, R62, R292). -/
def afterUpdate (s : State) : State :=
  let s := reviseAll ((List.range 16).foldl judgeOverspeed (judgeCrawl s))
  armCameras s (webUnits s) s.pos.crawl (s.pos.frozen || (passMode s && !passPrints s)) fun x => (arrival s ((x : Rat) / 2 ^ 24)).map fun q => (roundNs q).toNat

/-- An update with the set's coefficients. -/
def runUpdate (s : State) (t : Nat) (z : Rat) : State :=
  afterUpdate { s with pos := { s.pos with
    pred := predUpdate s.pos.pred (fld s Fld.POS_PRED_PRED_ALPHA) (fld s Fld.POS_PRED_PRED_BETA) t z } }

/-- The latest edge of a 250 ns interval that has passed gets its update (R47). -/
def flushUpdate (s : State) : State :=
  match s.pos.pred.pend with
  | none => s
  | some (t, z) =>
    if s.time.counter < s.pos.pred.lastRun + 250 then s
    else runUpdate { s with pos := { s.pos with pred := { s.pos.pred with pend := none, lastRun := s.pos.pred.lastRun + 250 } } } t z

/-- A counted edge at the counter's present tick (R47). -/
def edgeUpdate (s : State) (z : Rat) : State :=
  let t := s.time.counter
  if t < s.pos.pred.lastRun + 250 then { s with pos := { s.pos with pred := { s.pos.pred with pend := some (t, z) } } }
  else runUpdate { s with pos := { s.pos with pred := { s.pos.pred with pend := none, lastRun := t } } } t z

/-- The direction of the pass as a sign. -/
def passSign (s : State) : Int := if returning s then -1 else 1

/-- SYNTHETIC_UPDATE (R48): the prediction has run two counts past the last edge, and none that has arrived waits for its update. -/
def execSyntheticUpdate (t : Nat) (s : State) : Host.Outcome State Fault Refusal :=
  let s := flushUpdate (begin s t)
  let p := s.pos.pred
  let l : Rat := (passSign s * linesPerCount s s.pos.source : Int) / 2 ^ 24
  let ahead := p.p + p.v * (((s.time.counter : Int) - (p.tLast : Int) : Int) : Rat) - p.zLast
  .next (if p.pend.isSome ∨ passVel s ≤ 0 ∨ l = 0 ∨ ahead / l < 2 then s
    else
      let q := predUpdate p (fld s Fld.POS_PRED_PRED_ALPHA) (fld s Fld.POS_PRED_PRED_BETA) s.time.counter (p.zLast + l)
      afterUpdate { s with pos := { s.pos with pred := { q with zLast := p.zLast } } })

/-! ### Placing and shifting position (R435, R439) -/

/-- Position, high-water mark and the predictor's p and z_last moved by one amount, in 2^-24 line, at one instant. -/
def shiftPosition (s : State) (d : Int) : State :=
  let q : Rat := (d : Rat) / 2 ^ 24
  let p := s.pos.pred
  let pend := p.pend.map fun e => (e.1, e.2 + q)
  let pred := { p with p := p.p + q, zLast := p.zLast + q, pend := pend }
  { s with pair := { s.pair with placed := true }, pos := { s.pos with
    pos := s.pos.pos + d, hwm := s.pos.hwm + d, pred := pred, moves := s.pos.moves.map fun m => (m.1 + d, m.2),
    movesFrom := s.pos.movesFrom + d } }

/-- The lowest BAR_OFFSET of the job's channels (R435). -/
def leastBar (s : State) : Int :=
  let bars := ((List.range 16).filter s.job.channels.testBit).map fun c => signedOf 24 (fld s Fld.POS_BAR_BAR_OFFSET c)
  match bars with
  | [] => 0
  | b :: bs => bs.foldl min b

/-- After position moved by a jump, the cameras' next frames and the integration under way are those of the new position (R291,
R310). -/
def restartFrames (s : State) : State :=
  let s := dropFrames s
  let len := metres (fld s Fld.CLP_CTRL_CLP_LENGTH)
  let base := match (List.range 2).find? (camOn s) with
    | some k => frameBase s k (firstFrame s k (webUnits s))
    | none => webUnits s / 2 ^ 24
  { s with colour := { s.colour with intStart := base / len * len, intLen := len, intDone := [false, false] } }

/-- The reported position begins anew where it stands, reached now (R49). -/
def startMoves (s : State) : State :=
  { s with pos := { s.pos with moves := [(s.pos.hwm, now s)], movesFrom := s.pos.hwm - passSign s } }

/-- The reported position moves on by one count, at the edge's moment (R49): the last 256 movements are kept. -/
def noteMove (p : PosSt) (hwm : Int) (t : Nat) : PosSt :=
  let all := p.moves ++ [(hwm, t)]
  { p with hwm := hwm, moves := lastN 256 all, movesFrom := ((all.take (all.length - 256)).getLast?.map (·.1)).getD p.movesFrom }

/-- The placement of R435: in PASS mode pass 0 begins at −START_GAP, and a PASS swap that names it lands (R70). -/
def placePosition (s : State) : State :=
  let s :=
    if passMode s then
      let s := { s with pos := { s.pos with pass := 0, passFwd := true, hwm := s.pos.pos, depth := 0, deepest := 0 } }
      shiftPosition s (-(s.job.startGap : Int) * 2 ^ 24 - s.pos.hwm)
    else shiftPosition s ((s.job.first + leastBar s - s.job.startGap) * 2 ^ 24 - s.pos.hwm)
  let s := startMoves { s with pos := { s.pos with indexWait := false } }
  restartFrames (if passMode s then swapAtPass s else s)

/-! ### The end of a carriage pass (R41, R43, R70) -/

/-- The lines of the pass that a channel has not fired at its end: those not sent and those withdrawn. -/
def passLeft (s : State) (c : Nat) : Nat :=
  let x := chan s c
  let last := match s.job.last with | some l => min (passStart s + s.job.passLines) (l + 1) | none => passStart s + s.job.passLines
  (last - x.next).toNat + (x.sent.filter fun l => l.withdrawn && l.rows.all (!·.fired)).length

/-- One channel at the end of a printing pass: its unfired lines are counted and the channel goes to the next printing pass. -/
def endPassChan (s : State) (c : Nat) : State :=
  if !(sendingChans s).contains c then s
  else
    let n := passLeft s c
    let s := bump s Fld.POS_PSHORT_LINES_MISSED_PASS c n
    if n = 0 then s else raise (sticky s Fld.POS_STATUS_PASS_SHORT) 0x0209 c n

/-- The pass ends and the next begins in the opposite direction from the present position (R41). -/
def endPass (s : State) : State :=
  let printed := jobOn s && s.sys.st != .paused && !s.pos.indexWait && lineWanted s (passStart s)
  let s := if printed then (List.range 16).foldl endPassChan (withdrawAll s) else s
  let s := raise s 0x0208 s.pos.source s.pos.pass
  let s := { s with pos := { s.pos with pass := s.pos.pass + 1, passFwd := !s.pos.passFwd, hwm := s.pos.pos, depth := 0, deepest := 0 } }
  let s := dropFrames (startMoves s)
  let s := if printed then
      let s := stopFetch { s with job := { s.job with passPrint := s.job.passPrint + 1 } }
      let a := passStart s
      { s with print := { s.print with chans := s.print.chans.map fun x =>
        { x with next := a, render := a, beyond := a, sent := (x.sent.map fun l => { l with withdrawn := false }).filter lineLive } } }
    else s
  checkJob (swapAtPass s)

/-! ### Counted edges -/

/-- The encoders' advances compared (R39). -/
def checkSlip (s : State) : State :=
  if s.pos.slipAdv < Int.ofNat (fld s Fld.POS_SLIP_SLIP_SPAN * 256 * 2 ^ 24) then s
  else
    let d := s.pos.slipSec - s.pos.slipAdv
    let s := { s with pos := { s.pos with slipAdv := 0, slipSec := 0 } }
    if d.natAbs ≤ fld s Fld.POS_SLIP_SLIP_LIMIT * 2 ^ 24 then s
    else
      let s := raise (sticky s Fld.POS_STATUS_SLIP) 0x0206 (1 - fld s Fld.POS_SOURCE_PRIMARY) (sat32 (roundNs ((d : Rat) / 65536)))
      if fld s Fld.POS_SOURCE_SLIP_ACTION = 1 then orderlyStop s 3 else s

/-- A count of either encoder in the slip comparison. -/
def slipCount (s : State) (e : Nat) (delta : Int) : State :=
  if fld s Fld.POS_SOURCE_SLIP_EN = 0 then s
  else
    let d := delta * passSign s * linesPerCount s e
    if e = fld s Fld.POS_SOURCE_PRIMARY then checkSlip { s with pos := { s.pos with slipAdv := s.pos.slipAdv + d } }
    else { s with pos := { s.pos with slipSec := s.pos.slipSec + d } }

/-- Scheduling resumes as the count passes the high-water mark (R37). -/
def endFreeze (s : State) : State :=
  let deep := s.pos.deepest
  let s := { s with pos := { s.pos with frozen := false, deepest := 0 } }
  let s := if deep = 0 then s else raise s 0x0202 s.pos.source deep
  checkJob ((List.range 16).foldl resumeChan s)

/-- The reversal window is left, for the first time in this reversal or again deeper (R36, R41); scheduling that R40 has frozen already
stays so. -/
def reversal (s : State) (first : Bool) : State :=
  if passMode s then endPass s
  else if !first then s
  else freeze (raise (sticky s Fld.POS_STATUS_REVERSAL) 0x0201 s.pos.source (low32 (s.pos.hwm / 2 ^ 24)))

/-- One count of the encoder that drives position (R33, R35 to R37, R41). A freeze ends with the first count past the high-water mark,
whatever began it; event 0x0202 follows only where a reversal was counted. Where LINES_PER_COUNT changed below the mark, the mark's
position is the accumulated one from the count that passes it (log 42). -/
def positionCount (s : State) (delta : Int) : State :=
  let pos := s.pos.pos + delta * linesPerCount s s.pos.source
  if 0 < delta * passSign s then
    if s.pos.depth = 0 then
      let s := { s with pos := noteMove { s.pos with pos := pos } pos (now s) }
      if s.pos.frozen then endFreeze s else s
    else { s with pos := { s.pos with pos := pos, depth := s.pos.depth - 1 } }
  else
    let depth := s.pos.depth + 1
    let s := { s with pos := { s.pos with pos := pos, depth := depth } }
    if fld s Fld.POS_REV_REV_WINDOW < depth then
      reversal { s with pos := { s.pos with deepest := Nat.max s.pos.deepest depth } } (s.pos.deepest == 0)
    else s

/-- A counted edge of an encoder: slip, the fallback that waits for the secondary (R40), position and its update. -/
def countEdge (s : State) (e : Nat) (delta : Int) : State :=
  let s := setEnc s e fun x => { x with count := x.count + delta }
  let s := if s.pos.fallback ∧ e ≠ s.pos.source then
      let s := { s with pair := { s.pair with placed := true }, pos := { s.pos with source := e, fallback := false } }
      raise (sticky s Fld.POS_STATUS_ENC_SWITCH) 0x020B e (low32 (s.pos.hwm / 2 ^ 24))
    else s
  let s := slipCount s e delta
  if e = s.pos.source then
    let s := positionCount s delta
    edgeUpdate s ((s.pos.pos : Rat) / 2 ^ 24)
  else s

/-- The quadrature step of a change of A or B: +1 when A leads B (R27). -/
def quadrature (aChanged a b : Bool) : Int := if aChanged then (if a != b then 1 else -1) else (if a == b then 1 else -1)

/-- Whether a level that lasts so many nanoseconds passes the filter of an encoder's inputs (R28). -/
def passesFilter (s : State) (e held : Nat) : Bool := decide (4 * fld s Fld.POS_ENC_CTRL_ENC_FILTER e ≤ held)

/-- ENCODER_TRANSITION (R27 to R29, R32): the levels of A and B after the change, and how long each level that begins lasts. A level that
the filter rejects leaves the input as it was, so that the transition that ends it changes nothing. -/
def execEncoderTransition (t : Nat) (enc : Fin 2) (a b : Bool) (heldA heldB : Nat) (s : State) : Host.Outcome State Fault Refusal :=
  let s := flushUpdate (begin s t)
  let x := Machine.enc s enc
  let a := if passesFilter s enc heldA then a else x.a
  let b := if passesFilter s enc heldB then b else x.b
  .next (if !encOn s enc then setEnc s enc fun x => { x with a := a, b := b }
    else if x.openA ∨ x.openB ∨ (a = x.a ∧ b = x.b) then s
    else
      let fast := match x.lastEdge with | some e => decide (s.time.counter < e + 25) | none => false
      let s := setEnc s enc fun x => { x with a := a, b := b, lastEdge := some s.time.counter }
      if a ≠ x.a ∧ b ≠ x.b then
        let s := encBit (setEnc s enc fun x => { x with illegal := x.illegal + 1 }) enc Fld.POS_ENC_STATUS_ILLEGAL
        if fast then encBit s enc Fld.POS_ENC_STATUS_OVERRATE else s
      else
        let d := quadrature (a != x.a) a b
        let s := countEdge s enc (if fld s Fld.POS_ENC_CTRL_ENC_DIR enc = 1 then -d else d)
        if fast then encBit s enc Fld.POS_ENC_STATUS_OVERRATE else s)

/-! ### Index pulses (R30, R31, R617) -/

/-- Whether the index checks of an encoder act. -/
def indexChecked (s : State) (e : Nat) : Bool :=
  encOn s e && fld s Fld.POS_ENC_CTRL_ENC_Z_CHECK e == 1 && !(enc s e).openZ && liveFld s Fld.POS_ENC_STATUS_INV_Z e == 0

/-- INDEX_EDGE (R28, R30, R435, R458): a rising edge of Z, and how long the high level lasts. -/
def execIndexEdge (t : Nat) (enc : Fin 2) (held : Nat) (s : State) : Host.Outcome State Fault Refusal :=
  let s := flushUpdate (begin s t)
  .next (if !passesFilter s enc held ∨ (Machine.enc s enc).z then s
    else if !encOn s enc then setEnc s enc fun x => { x with z := true }
    else
      let s := setEnc s enc fun x => { x with z := true, indexCount := x.count, zCount := x.count, zA := x.a, zB := x.b }
      let s := if s.pos.indexWait ∧ s.pos.source = enc.val then placePosition s else s
      homeIndex s enc)

/-- A run of index pulses lengthened or ended; the third in a row is a detection. -/
def indexRun (s : State) (e : Nat) (differs : Bool) (get : Encoder → Nat) (set : Encoder → Nat → Encoder) (f : Field) : State :=
  let n := if differs then get (enc s e) + 1 else 0
  if 3 ≤ n then encBit (setEnc s e fun x => set x 0) e f else setEnc s e fun x => set x n

/-- INDEX_PULSE_END (R28, R617): a falling edge of Z, and how long the low level lasts. -/
def execIndexPulseEnd (t : Nat) (enc : Fin 2) (held : Nat) (s : State) : Host.Outcome State Fault Refusal :=
  let s := flushUpdate (begin s t)
  let x := Machine.enc s enc
  let s := if passesFilter s enc held then setEnc s enc fun x => { x with z := false } else s
  .next (if !passesFilter s enc held ∨ !x.z ∨ !indexChecked s enc then s
    else if fld s Fld.POS_ENC_CTRL_ENC_Z_MAX_WIDTH enc < (x.count - x.zCount).natAbs then
      indexRun s enc true (·.runZ) (fun x n => { x with runZ := n }) Fld.POS_ENC_STATUS_INV_Z
    else
      let want := fld s Fld.POS_ENC_CTRL_ENC_Z_STATE enc
      let s := indexRun s enc false (·.runZ) (fun x n => { x with runZ := n }) Fld.POS_ENC_STATUS_INV_Z
      let s := indexRun s enc (x.zA != want.testBit 1) (·.runA) (fun x n => { x with runA := n }) Fld.POS_ENC_STATUS_INV_A
      indexRun s enc (x.zB != want.testBit 0) (·.runB) (fun x n => { x with runB := n }) Fld.POS_ENC_STATUS_INV_B)

end Sys2Proof.Machine
end

