-- ==== Sys2Proof/Machine/Lines.lean ====
section
/-!
DEFINITION. The course of a line through a weft channel: strip fetch and decode (R161 to R164, R170, R171, R437), rendering
(R200, R216, R217), sending (R52, R56, R60, R61, R212, R213, R257, R258, R279), misses (R53), and hub acknowledgements
(R220 to R224, R266, R267).
-/
namespace Sys2Proof.Machine

/-! ### Strip fetch (R161, R170, R171, R437) -/

/-- The fetch streams of a job: two in HALF_DROP. -/
def streamsOf (s : State) : List Nat := if s.job.rep.mode = 2 then [0, 1] else [0]

/-- The image of channel c, its job line for image line L, and SCALE_Y at that line. -/
def jobLine (s : State) (c : Nat) (line : Int) : Option (Image × Int × Nat) :=
  (jobImage s c).map fun m => (m, line - s.job.first, bankGet (cfgAt s c line).regs Fld.WFT_CFG_SCALE_Y c + 1)

/-- The strip of a stream that image line L takes, with the output lines from L to the strip's end. -/
def stripAt (s : State) (c st : Nat) (line : Int) : Option (Nat × Nat) :=
  match jobLine s c line with
  | none => none
  | some (m, y, sy) =>
    match streamLine s.job.rep m.height sy st y with
    | none => none
    | some u =>
      let stop := Nat.min ((u / m.lps + 1) * m.lps) m.height
      some (u / m.lps, (stop - u) * sy - (y % (sy : Int)).toNat)

/-- Strips a stream's buffers have been given, in fetch order. -/
def streamBufs (x : Chan) (st : Nat) : List BufStrip := x.bufs.filter (·.stream == st)

/-- The next strip of a stream in a free half or quarter, when the job has one: at most two per stream. -/
def fetchNext (s : State) (c st : Nat) : State :=
  let x := chan s c
  let bs := streamBufs x st
  let line := match bs.getLast? with | some b => b.firstLine + b.lines | none => x.render
  if 2 ≤ bs.length ∨ !inJob s c ∨ !lineWanted s line then s
  else match stripAt s c st line with
    | none => s
    | some (i, n) => setChan s c fun x => { x with bufs := x.bufs ++ [{ stream := st, index := i, firstLine := line, lines := n }] }

/-- The free halves of a channel filled and the reads of stored strips begun. -/
def fillBuffers (s : State) (c : Nat) : State :=
  let s := (streamsOf s).foldl (fun s st => fetchNext (fetchNext s c st) c st) s
  startReads s c

/-- The buffers whose last line lies before image line L given back: reads under way end, and a verified strip becomes the one
that REPEAT_PREVIOUS repeats. -/
def dropBuffers (s : State) (c : Nat) (line : Int) : State :=
  let h := nth s.job.images c 0
  let gone (b : BufStrip) : Bool := decide (b.firstLine + b.lines ≤ line)
  let s := ((chan s c).bufs.filter fun b => gone b && b.reading && !b.ready && !b.failed).foldl (fun s b => endRead s c b.copy) s
  let w := match findImage s h with | some m => imageLine m | none => 0
  let s := setChan s c fun x =>
    let good := x.bufs.filter fun b => gone b && b.ready
    let last := good.foldl (fun l b => (b.stream, lastN w b.data) :: l.filter (·.1 != b.stream)) x.lastGood
    { x with bufs := x.bufs.filter (!gone ·), lastGood := last }
  fillBuffers s c

/-- A strip of a channel's buffer changed. -/
def setBuf (s : State) (c : Nat) (b b' : BufStrip) : State :=
  setChan s c fun x => { x with bufs := x.bufs.map fun y => if y = b then b' else y }

/-- The error of a decode that does not agree with the image and the strip's place in it, or 0 (R146, R153). -/
def decodedMisfit (s : State) (h i : Nat) (hd : StripHead) : Nat :=
  match findImage s h with
  | some m => imageCheck m i hd
  | none => 17

/-- A decode of a strip that failed, with an error of R146: fetched from the store once more, then substituted (R162, R163, R127). An
old copy's failure says nothing of the copy that the directory now holds (R132). -/
def decodeFailed (s : State) (c : Nat) (b : BufStrip) (code : Nat) : State :=
  let h := nth s.job.images c 0
  let s := setFld (setFld s Fld.JLC_LAST_ERR_ERROR_CODE 0 code) Fld.JLC_LAST_ERR_ERROR_SOURCE 0 c
  let s := endRead s c b.copy
  if b.tries = 0 then
    let s := sticky (bump s Fld.JLC_RETRIES_STRIP_RETRIES c) Fld.JLC_STATUS_STRIP_RETRY
    startReads (raise (setBuf s c b { b with tries := 1, reading := false }) 0x0401 c (stripArg s h b.index)) c
  else
    let s := setBuf s c b { b with failed := true, reading := false }
    let s := sticky (bump s Fld.JLC_FAILED_STRIPS_FAILED c) Fld.JLC_STATUS_STRIP_FAIL
    let s := raise s 0x0402 c (stripArg s h b.index)
    if (findStrip s h b.index).any (·.copy == b.copy) then damageStrip s h b.index else s

/-- The strips that a channel's decoder reads, of both streams, the one with the earliest first output line first and the even stream
first of two (R171). -/
def decodeOrder (s : State) (c : Nat) : List BufStrip :=
  let on (st : Nat) : List BufStrip := ((streamBufs (chan s c) st).find? fun b => b.reading && !b.ready && !b.failed).toList
  match on 0, on 1 with
  | [a], [b] => if a.firstLine ≤ b.firstLine then [a, b] else [b, a]
  | as, bs => as ++ bs

/-- STRIP_DECODE_DONE (R161 to R163, R171): the strip that the decoder works on. `read` gives the bytes when the store returned others
than those it holds; `ecc` is what the reads found (R123, R124). -/
def execStripDecodeDone (t : Nat) (c : Fin 16) (read : Option (List Byte)) (ecc : List EccAt) (s : State) :
    Host.Outcome State Fault Refusal :=
  let s := flushUpdate (begin s t)
  let h := nth s.job.images c 0
  .next (match decodeOrder s c with
    | [] => s
    | b :: _ =>
      match findCopy s b.copy with
      | none => decodeFailed s c b 12
      | some x =>
        let es := ownErrors s x ecc
        let s := es.foldl noteEcc s
        if poisoned es ∨ x.damaged then decodeFailed s c b 15
        else match decodeWithin x.cost (read.getD x.bytes) with
          | .bad e _ => decodeFailed s c b e
          | .ok hd out _ =>
            let e := decodedMisfit s h b.index hd
            if e = 0 then endRead (setBuf s c b { b with ready := true, reading := false, data := out }) c b.copy
            else decodeFailed s c b e)

/-! ### Cover (R200) -/

/-- The verified output lines of a channel not yet rendered. -/
def verifiedLines (s : State) (c : Nat) : Nat :=
  let x := chan s c
  let of (st : Nat) : Nat := ((streamBufs x st).takeWhile (·.ready)).foldl (fun a b => a + (b.firstLine + b.lines - max b.firstLine x.render).toNat) 0
  match streamsOf s with
  | [st] => of st
  | _ => Nat.min (of 0) (of 1)

/-- COVER_NOW and COVER_MIN brought up to date, and COVER_LOW when the cover of a channel of the job falls below 48 µs while printing;
while the line period is unbounded the cover is above every limit. -/
def judgeCover (s : State) (c : Nat) : State :=
  if (headRows (cfgOf s c) c).isEmpty then setFld (setFld s Fld.WFT_COVER_COVER_NOW c 0xFFFFFFFF) Fld.WFT_COVER_COVER_MIN c 0xFFFFFFFF
  else match linePeriod s with
    | none => setFld (setChan s c fun x => { x with coverLow := false }) Fld.WFT_COVER_COVER_NOW c 0xFFFFFFFF
    | some q =>
      let n := (chan s c).fifo.length + verifiedLines s c
      let ns := satNat 32 (roundNs (n * q)).toNat
      let s := setFld s Fld.WFT_COVER_COVER_NOW c ns
      let s := setFld s Fld.WFT_COVER_COVER_MIN c (Nat.min ns (liveFld s Fld.WFT_COVER_COVER_MIN c))
      let low := decide (n * q < 48000) && s.sys.st == .printing && inJob s c
      let was := (chan s c).coverLow
      let s := setChan s c fun x => { x with coverLow := low }
      if low && !was then raise (sticky s Fld.WFT_STATUS_COVER_LOW) 0x0501 c ns else s

/-! ### Energy path (R219 to R222) -/

/-- Whether the pending swap changes the path of a channel from a line at or before L (R219, R222). -/
def swapsPath (s : State) (c : Nat) (line : Int) : Bool :=
  match s.sets.swap with
  | some w => !nth w.changed c false && !w.whole && w.point != 2 && decide (w.line ≤ line) &&
      pathChanges s.sets.active s.sets.shadow c
  | none => false

/-- The path of image line L of a channel. -/
def pathAt (s : State) (c : Nat) (line : Int) : Bool :=
  if swapsPath s c line then startPath s.sets.shadow c else (chan s c).onHist

/-- A change of path takes effect (R221); with the main path the pre-heat spans begin anew (R213). -/
def applyPath (s : State) (p : PathChange) : State :=
  let s := { s with print := { s.print with paths := s.print.paths.filter (· != p) } }
  let s := setChan s p.chan fun x =>
    let x := if p.hist then x else { x with mainFrom := p.line, maskSpan := [] }
    { x with onHist := p.hist, warmPicks := 0 }
  let s := sticky (bump (setPathNow s p.chan p.hist) Fld.FIR_SWITCHES_PATH_SWITCHES p.chan) Fld.FIR_STATUS_PATH_SWITCHED
  raise s (if p.hist then 0x0601 else 0x0602) p.chan (low32 p.line)

/-- The path changes of a channel named for image line L or before it. -/
def duePaths (s : State) (c : Nat) (line : Int) : State :=
  if swapsPath s c line then s
  else (s.print.paths.filter fun p => p.chan == c && decide (p.line ≤ line)).foldl applyPath s

/-- The module decides a change of path under R220; the active names its boundary (R221). A channel that renders no job line
has no boundary and changes at once. -/
def requestPath (s : State) (c : Nat) (hist : Bool) : State :=
  if s.pair.role = .standby ∨ (chan s c).onHist = hist ∨ s.print.paths.any (·.chan == c) ∨
      bankGet (cfgOf s c).regs Fld.FIR_CFG_ENERGY_PATH c ≠ 2 ∨ !preheatOk (cfgOf s c) c then s
  else if inJob s c then
    let p : PathChange := ⟨c, hist, namedBoundary s c⟩
    { s with print := { s.print with paths := s.print.paths ++ [p], sendPaths := s.print.sendPaths ++ [p] } }
  else
    let p : PathChange := ⟨c, hist, (chan s c).next⟩
    applyPath { s with print := { s.print with sendPaths := s.print.sendPaths ++ [p] } } p

/-- HIST_HOLD_EXPIRE (R220): HIST_HOLD picks of warm heads. -/
def execHistHoldExpire (t : Nat) (c : Fin 16) (s : State) : Host.Outcome State Fault Refusal :=
  let s := flushUpdate (begin s t)
  let x := chan s c
  .next (if x.onHist ∧ fld s Fld.FIR_CFG_HIST_HOLD c ≤ x.warmPicks then requestPath s c false else s)

/-! ### Rendering (R197, R200, R216, R217) -/

/-- The bytes a stream offers image line L (R161, R163): of its verified strip, or of a substitution. -/
def streamData (s : State) (c st : Nat) (line : Int) : Option StreamLine :=
  match jobLine s c line with
  | none => none
  | some (m, y, sy) =>
    match streamLine s.job.rep m.height sy st y with
    | none => some .blank
    | some u =>
      match (streamBufs (chan s c) st).find? fun b => decide (b.firstLine ≤ line) && decide (line < b.firstLine + b.lines) with
      | none => none
      | some b =>
        let w := imageLine m
        if b.ready then some (.bytes ((b.data.drop (u % m.lps * w)).take w))
        else if b.failed then
          if bankGet (cfgAt s c line).regs Fld.JLC_POLICY_STRIP_FAIL_POLICY c = 1 then
            match (chan s c).lastGood.find? (·.1 == st) with
            | some g => some (.bytes g.2)
            | none => some .blank
          else some .blank
        else none

/-- Whether image line L takes a substituted strip. -/
def substituted (s : State) (c : Nat) (line : Int) : Bool :=
  (chan s c).bufs.any fun b => b.failed && decide (b.firstLine ≤ line) && decide (line < b.firstLine + b.lines)

/-- The strip boundary at image line L: one correction block, nozzle states, path changes, and the next block of the loop and
of a manual image (R172, R179, R181, R192, R221, R314). -/
def atBoundary (s : State) (c : Nat) (line : Int) : State :=
  let s := dueCopy (dueBlocks s c line) c line
  let s := dueNozzles (if manualDue s c then manualBlock s c line else s) c line
  issueBlock (duePaths s c line) c

/-- The channel comes to image line L, to render it or to pass it unrendered: what changes at a strip boundary changes there (R172,
R179, R181). -/
def comeToLine (s : State) (c : Nat) (line : Int) : State :=
  let s := manualFrom s c line
  if isBoundary s c line then atBoundary s c line else s

/-- The nozzle values of a line as sent: dot codes, or energy indices on the history path (R211, R216). -/
def sentRows (cfg : CfgSet) (hist : List (List (Nat × Nat))) (c : Nat) (onHist : Bool) (rows : List RowDots) : List RowDots :=
  if !onHist then rows
  else
    let depth := bankGet cfg.regs Fld.FIR_CFG_HIST_DEPTH c + 1
    rows.map fun r =>
      let hot : Bool := match setPlace cfg r.head with
        | some p => (match setType cfg p.type with | some t => t.hotOk | none => false)
        | none => false
      { r with dots := r.dots.map fun d => (d.1, energyIndex (hot && wasHot hist depth r.head r.rowB d.1) d.2) }

/-- The dot codes behind the values sent. -/
def dotCodes (onHist : Bool) (dots : List (Nat × Nat)) : List (Nat × Nat) := if onHist then dots.map fun d => (d.1, d.2 / 2) else dots

/-- NOZZLES_PER_ROW of a head of a set. -/
def headNozzles (cfg : CfgSet) (h : Nat) : Nat :=
  match setPlace cfg h with
  | some p => (match setType cfg p.type with | some t => t.nozzles | none => 0)
  | none => 0

/-- The payload of LINE_DATA for a row (R257). -/
def lineDataBytes (cfg : CfgSet) (onHist : Bool) (r : RowDots) : List Byte :=
  let n := headNozzles cfg r.head
  let b := if onHist then 3 else 2
  leBytes 1 b ++ leBytes 1 0 ++ leBytes 2 n ++ packRow b n r.dots

/-- The per-line CRC of each lane group (R197, R342): the active sends it to the partner, the standby keeps its own. -/
def lineCrcs (s : State) (cfg : CfgSet) (c : Nat) (l : RLine) : State :=
  if s.pair.role = .solo then s
  else ((l.rows.map (·.hub)).dedup).foldl (fun s u =>
    let crc := crc32c ((l.rows.filter (·.hub == u)).flatMap (lineDataBytes cfg l.hist))
    if s.pair.role = .active then
      if s.pair.peerUp then toPeer s (.lineCrc c u l.line crc l.subst) else s
    else ownCrc s c u l.line crc) s

/-- Image line L of channel c rendered into the FIFO. -/
def renderInto (s : State) (c : Nat) (line : Int) (streams : Nat → StreamLine) (m : Image) : State :=
  let cfg := cfgAt s c line
  let (rows, routed, lost) := match bandLine s line with
    | some k => (renderLadder cfg s.live c k, 0, 0)
    | none => renderLine cfg s.live c s.job.rep m.width m.height streams (line - s.job.first)
  let sub := substituted s c line && (bandLine s line).isNone
  let s := recordCoverage s c cfg line rows
  let onHist := pathAt s c line
  let x := chan s c
  let l : RLine := { line := line, rows := sentRows cfg x.hist c onHist rows, hist := onHist, subst := sub }
  let keep := permitsHistory cfg c || (s.sets.swap.isSome && permitsHistory s.sets.shadow c)
  let s := setChan s c fun x =>
    { x with fifo := x.fifo ++ [l], render := line + 1,
             hist := if keep then (dotKeys rows :: x.hist).take 4 else [],
             lostPick := x.lostPick + lost,
             substLines := if sub then lastN 64 (x.substLines ++ [line]) else x.substLines }
  let s := bump (bump s Fld.WFT_ROUTED_DOTS_ROUTED c routed) Fld.WFT_LOST_STEPS_LOST c lost
  let s := if lost = 0 then s else sticky s Fld.WFT_STATUS_DOTS_LOST
  let s := if sub then bump s Fld.JLC_SUBST_LINES_SUBSTITUTED c else s
  lineCrcs s cfg c l

/-- Whether the channel's line FIFO has room (R199). -/
def fifoRoom (s : State) (c : Nat) (line : Int) : Bool :=
  match fifoDepth (cfgAt s c line) c with
  | some f => decide ((chan s c).fifo.length < f)
  | none => false

/-- LINE_RENDER (R200): the channel's next line, when the job still wants it, the FIFO has room and its source is verified or
substituted. A tripped unit renders nothing (R552). -/
def execLineRender (t : Nat) (c : Fin 16) (s : State) : Host.Outcome State Fault Refusal :=
  let s := flushUpdate (begin s t)
  let line := (chan s c).render
  .next (if !inJob s c ∨ linesOff s ∨ !lineWanted s line ∨ !fifoRoom s c line then s
    else
      let s := fillBuffers s c
      match jobImage s c, streamData s c 0 line, (if s.job.rep.mode = 2 then streamData s c 1 line else some .blank) with
      | some m, some a, some b =>
        let s := comeToLine s c line
        let s := renderInto s c line (fun st => if st = 1 then b else a) m
        judgeCover (dropBuffers s c (line + 1)) c
      | _, _, _ => s)

/-! ### Sending (R52 to R61) -/

/-- The values of image line L ready to send: in the FIFO, or withdrawn and to be sent again to the heads that have not fired it
(R37, R38). -/
def readyLine (s : State) (c : Nat) (line : Int) : Option (List RowDots × Bool) :=
  let x := chan s c
  match x.fifo.find? (·.line == line) with
  | some l => some (l.rows, l.hist)
  | none => (x.sent.find? fun l => l.withdrawn && l.line == line).map fun l => (unfired l, l.hist)

/-- A line withheld from a hub (R279). -/
def shedLine (s : State) (u : Nat) (line : Int) : State :=
  let s := sticky (bump s Fld.FL_SHED_LINES_SHED_LINK u) Fld.FL_STATUS_HUB_SHED
  let first := !(hubOf s u).shedEv
  let s := setHub s u fun h => { h with shedEv := true, lastShed := some line }
  if first then raise s 0x0704 u (low32 line) else s

/-- The first line of the pre-heat span that holds a line, and the span's length (R212). -/
def spanOf (s : State) (c : Nat) (line : Int) : Int × Nat :=
  let e : Nat := match (chan s c).oldSpan with
    | some (a, stop) => if line < stop then a else preheatEvery (cfgAt s c line) c
    | none => preheatEvery (cfgAt s c line) c
  (line / (e : Int) * (e : Int), e)

/-- PREHEAT_MASK of a row for a span (R213), when the row has none for it yet. The span that holds the first line of the job, or of
the main path after a switch, takes every nozzle as idle before it. -/
def sendMask (s : State) (c : Nat) (line : Int) (r : RowDots) : State :=
  let cfg := cfgAt s c line
  let (start, every) := spanOf s c line
  let key := 2 * r.head + bit r.rowB
  let x := chan s c
  if x.maskSpan.contains (key, start) then s
  else match setPlace cfg r.head with
    | none => s
    | some p =>
      match setType cfg p.type with
      | none => s
      | some t =>
        let before := (spanOf s c (start - 1)).1
        let idle (n : Nat) : Bool := decide (start ≤ x.mainFrom) || !(x.sentKeys.any fun k => decide (before ≤ k.1) && decide (k.1 < start) && k.2.contains (key, n))
        let on := bankGet cfg.regs Fld.FIR_CFG_PREHEAT_EN c == 1 && t.preheatOk
        let bits := if on then (List.range t.nozzles).filter fun n =>
            nozzleNow s r.head r.rowB n != 3 && idle n else []
        let s := toHub s r.hub (.preheat r.port r.rowB (low32 start) every t.nozzles bits)
        setChan s c fun x => { x with maskSpan := x.maskSpan.filter (·.1 != key) ++ [(key, start)] }

/-- The packets of a line to one hub: masks, LINE_DATA per row, one FIRE_TIME (R212, R257, R258). -/
def sendToHub (s : State) (c : Nat) (line : Int) (onHist : Bool) (u : Nat) (rows : List (RowDots × Int)) : State :=
  let s := if onHist then s else rows.foldl (fun s r => sendMask s c line r.1) s
  let s := rows.foldl (fun s r => toHub s u (.lineData r.1.port r.1.rowB (low32 line) onHist (headNozzles (cfgAt s c line) r.1.head) r.1.dots)) s
  sendFire s line (rows.map fun r => (u, r.1.port, r.1.rowB, some r.2.toNat))

/-- The record kept of a row sent: its drop units and ink (R223). -/
def sentRow (cfg : CfgSet) (onHist : Bool) (r : RowDots) (f : Int) : SentRow :=
  let dots := dotCodes onHist r.dots
  let ink := match setPlace cfg r.head with
    | some p => (match setType cfg p.type with | some t => rowInk t dots | none => 0)
    | none => 0
  { head := r.head, hub := r.hub, port := r.port, rowB := r.rowB, fire := f.toNat, units := rowUnits dots, ink := ink }

/-- The first FIRE_TIME of a hub's rows of a line. -/
def hubFire (both : List (RowDots × Int)) (u : Nat) : Int :=
  match both.filter (·.1.hub == u) with
  | [] => 0
  | r :: rs => earliest r.2 (rs.map (·.2))

/-- Whether the send window of a hub's rows has opened (R52, R203; log 39): LEAD_TIME + 5 µs before the first of them. A hub gets its
rows of a line in one packet (R258). -/
def hubOpen (s : State) (both : List (RowDots × Int)) (u : Nat) : Bool :=
  decide (hubFire both u - leadNs s - 5000 ≤ Int.ofNat (now s))

/-- The rows of a line whose hubs' windows are open go out; a hub that is withheld is shed. -/
def sendRows (s : State) (c : Nat) (line : Int) (onHist : Bool) (due : List (RowDots × Int)) : State :=
  ((due.map (·.1.hub)).dedup).foldl (fun s u =>
    if withheld s u then shedLine s u line else sendToHub s c line onHist u (due.filter (·.1.hub == u))) s

/-- The nozzles sent drops by rows of a line, for the masks to come (R213). -/
def noteKeys (x : Chan) (line : Int) (onHist : Bool) (sent : List (RowDots × Int)) : List (Int × List (Nat × Nat)) :=
  let keys := dotKeys ((sent.map (·.1)).map fun r => { r with dots := dotCodes onHist r.dots })
  let all := if x.sentKeys.any (·.1 == line) then x.sentKeys.map fun k => if k.1 = line then (line, k.2 ++ keys) else k
    else x.sentKeys ++ [(line, keys)]
  let low := ((x.sent.filter fun l => !l.later.isEmpty).map (·.line)).foldl min line
  all.filter fun k => decide (low - 64 ≤ k.1)

/-- Image line L of channel c goes to the hubs it uses whose windows are open, with the fire times of its rows; the other hubs follow
in theirs. -/
def sendLine (s : State) (c : Nat) (line : Int) (rows : List RowDots) (onHist : Bool) (f : Int) (fs : List Int) (shift : Int) : State :=
  let cfg := cfgAt s c line
  let both := rows.zip fs
  let due := both.filter fun r => hubOpen s both r.1.hub
  let later := (both.filter fun r => !hubOpen s both r.1.hub).map (·.1)
  let sent := due.filter fun r => !withheld s r.1.hub
  let crawl := s.pos.crawl
  let s := sendRows s c line onHist due
  let l : SentLine := { line := line, shift := shift, sentAt := now s, rows := sent.map (fun r => sentRow cfg onHist r.1 r.2), dots := rows,
                        later := later, hist := onHist, crawl := crawl }
  let s := setChan s c fun x =>
    let next := lineAfter x line
    { x with fifo := x.fifo.filter (fun r => decide (line < r.line)), next := next, lastSent := some line, lastFire := f.toNat,
             sent := x.sent.filter (fun l => l.line != line) ++ (if lineLive l then [l] else []),
             sentKeys := noteKeys x line onHist sent,
             overLine := if x.overspeed then line else x.overLine }
  if s.sys.st = .armed then setState s .printing else s

/-- The rows of a sent line that still wait for their hubs' windows, with their FIRE_TIMEs now (R45, R203). -/
def laterRows (s : State) (c : Nat) (l : SentLine) : List (RowDots × Int) :=
  l.later.filterMap fun r =>
    (fireTime s c l.line (nominal s c l.line + rowOffset (cfgAt s c l.line) r.head r.rowB)).map fun f => (r, f + l.shift)

/-- A sent line goes to the hubs whose windows have opened since. -/
def sendOpened (s : State) (c : Nat) (l : SentLine) : State :=
  let both := laterRows s c l
  let due := both.filter fun r => hubOpen s both r.1.hub && decide (Int.ofNat (now s) ≤ hubFire both r.1.hub - leadNs s)
  if l.withdrawn || due.isEmpty then s
  else
    let cfg := cfgAt s c l.line
    let sent := due.filter fun r => !withheld s r.1.hub
    let s := sendRows s c l.line l.hist due
    setChan s c fun x =>
      let took (y : SentLine) : SentLine :=
        if y.line = l.line then
          { y with later := y.later.filter (fun r => !(due.any fun d => d.1.hub == r.hub)),
                   rows := y.rows ++ sent.map fun r => sentRow cfg l.hist r.1 r.2 }
        else y
      { x with sent := (x.sent.map took).filter lineLive, sentKeys := noteKeys x l.line l.hist sent }

/-- Whether channel c may put packets on the link: a job that uses it, scheduling not frozen, the origin placed (R36, R435). -/
def mayTransmit (s : State) (c : Nat) : Bool := inJob s c && !linesOff s && !s.pos.frozen && !s.pos.indexWait

/-- The lines already begun go to the hubs whose windows have opened. -/
def sendLater (s : State) (c : Nat) : State :=
  if mayTransmit s c then (chan s c).sent.foldl (fun s l => sendOpened s c l) s else s

/-- What overspeed makes of a line due at F (R60, R61): its delay, and whether it is sent. -/
def holdOrShed (s : State) (c : Nat) (line f : Int) : Int × Bool :=
  let x := chan s c
  let limit := limitAt s c line
  let gap := f - Int.ofNat x.lastFire
  if x.lastSent.isNone ∨ 1000000000 ≤ gap * limit then (0, true)
  else if fld s Fld.POS_RATE_OVERSPEED_MODE = 0 ∨ limit = 0 then (0, false)
  else
    let d := roundNs ((x.lastFire : Rat) + 1000000000 / (limit : Rat)) - f
    match linePeriod s with
    | some q => (d, !decide ((fld s Fld.POS_RATE_SLIP_MAX : Rat) * q < (d : Rat)))
    | none => (d, true)

/-- Whether channel c may take its next line: the job is not paused and still wants the line. -/
def maySend (s : State) (c : Nat) : Bool := mayTransmit s c && s.sys.st != .paused && lineWanted s (chan s c).next

/-- The channel's next line in its window, from LEAD_TIME + 5 µs to LEAD_TIME before its earliest FIRE_TIME: sent, or dropped for
overspeed (R49, R52, R60, R61). -/
def sendNext (s : State) (c : Nat) : State :=
  let line := (chan s c).next
  if !maySend s c then s
  else match readyLine s c line with
    | none => s
    | some (rows, onHist) =>
      match (if rows.isEmpty then none else lineFire s c line rows) with
      | none => s
      | some (f, fs) =>
        let n := Int.ofNat (now s)
        let (d, send) := holdOrShed s c line f
        let close := earliest f fs + d - leadNs s
        if n < close - 5000 ∨ close < n then s
        else
          let s := swapBefore s c line
          checkJob (judgeCover (if send then sendLine s c line rows onHist (f + d) (fs.map (· + d)) d else dropLine s c line) c)

/-- LINE_SEND (R49, R52, R60, R61): the lines of a channel whose windows are open at the tick. -/
def execLineSend (t : Nat) (c : Fin 16) (s : State) : Host.Outcome State Fault Refusal :=
  .next (sendNext (sendLater (flushUpdate (begin s t)) c) c)

/-- The rows of a begun line whose hubs' windows have passed unsent: they are not sent, and the line is missed (R53). -/
def missOpened (s : State) (c : Nat) (l : SentLine) : State :=
  let both := laterRows s c l
  let lost := both.filter fun r => decide (hubFire both r.1.hub - leadNs s < Int.ofNat (now s))
  if l.withdrawn || lost.isEmpty then s
  else
    let s := setChan s c fun x =>
      let took (y : SentLine) : SentLine :=
        if y.line = l.line then
          { y with missed := true, later := y.later.filter fun r => !(lost.any fun d => d.1.hub == r.hub) }
        else y
      { x with sent := (x.sent.map took).filter lineLive }
    if l.missed then s else noteMissed (bump s Fld.POS_MISSED_LINES_MISSED_NOT_READY c) c l.line

/-- The channel's next line missed when it has reached LEAD_TIME before its earliest FIRE_TIME without being ready, or its window has
passed (R53, R58, R69, R164). -/
def missNext (s : State) (c : Nat) : State :=
  let line := (chan s c).next
  let ready := readyLine s c line
  let rows := match ready with
    | some (r, _) => r
    | none => (headRows (cfgAt s c line) c).map fun (h, p, b) => { head := h, hub := p.hub, port := p.port, rowB := b, dots := [] }
  if !maySend s c ∨ rows.isEmpty then s
  else match lineFire s c line rows with
    | none => s
    | some (f, fs) =>
      let n := Int.ofNat (now s)
      let close := earliest f fs + (holdOrShed s c line f).1 - leadNs s
      if close < n ∨ (close = n ∧ ready.isNone) then
        let s := swapBefore s c line
        let s := if (chan s c).render ≤ line then comeToLine s c line else s
        checkJob (judgeCover (dropBuffers (missLine s c line) c (line + 1)) c)
      else s

/-- LINE_MISSED_NOT_READY (R53, R69, R164). -/
def execLineMissedNotReady (t : Nat) (c : Fin 16) (s : State) : Host.Outcome State Fault Refusal :=
  let s := flushUpdate (begin s t)
  let s := if mayTransmit s c then checkJob ((chan s c).sent.foldl (fun s l => missOpened s c l) s) else s
  .next (missNext s c)

/-! ### Hub acknowledgements (R214, R220, R223, R224, R266, R267) -/

/-- expand of R63: the 48-bit line of a 32-bit id near a line. -/
def expandLine (x : Nat) (ref : Int) : Int :=
  let d := ((x : Int) - ref) % 2 ^ 32
  ref + (if 2 ^ 31 ≤ d then d - 2 ^ 32 else d)

/-- An event at most once per pick for each source (R237). -/
def raiseOnce (s : State) (code source arg : Nat) : State :=
  if s.print.raised.contains (code, source) then s
  else raise { s with print := { s.print with raised := (code, source) :: s.print.raised } } code source arg

/-- A pending count grown by units; beyond 2^32 it is a backlog (R232). -/
def addPending (s : State) (f : Field) (i source n : Nat) : State :=
  let was := liveFld s f i
  let s := bump s f i n
  if was ≤ 2 ^ 32 ∧ 2 ^ 32 < was + n then
    raiseOnce (sticky s Fld.FIR_STATUS_CONS_BACKLOG) 0x0607 source (satNat 32 ((was + n) / 2 ^ 16))
  else s

/-- The drops of a row that fired: units to the head, volume to the channel's ink, in whole nanolitres (R223, R224). -/
def countRow (s : State) (c : Nat) (r : SentRow) : State :=
  let s := addPending s Fld.FIR_HEAD_PENDING_HEAD_PENDING r.head r.head r.units
  let ink := (chan s c).inkRem + r.ink
  addPending (setChan s c fun x => { x with inkRem := ink % 100000 }) Fld.FIR_INK_PENDING_INK_PENDING c (0x200 + c) (ink / 100000)

/-- Whether a row's acknowledgement reports a line fired: the FIRED bit at its distance before LAST (R266). -/
def firedBit (last : Int) (fired : Nat) (line : Int) : Bool := decide (last - line ≤ 63) && fired.testBit (last - line).toNat

/-- One row of a sent line read against an acknowledgement: the row, and whether it fired or was missed by it. -/
def settleRow (last : Int) (fired : Nat) (l : SentLine) (r : SentRow) : SentRow × Bool × Bool :=
  let f := firedBit last fired l.line
  if last < l.line ∨ r.fired then (r, false, false)
  else if f then ({ r with settled := true, fired := true }, true, false)
  else if r.settled then (r, false, false)
  else ({ r with settled := true }, false, true)

/-- One sent line of a channel read against a row's acknowledgement (R266). -/
def settleLine (s : State) (c u port : Nat) (rowB : Bool) (last : Int) (fired : Nat) (count : Bool) (l : SentLine) : State × SentLine :=
  let mine (r : SentRow) : Bool := r.hub == u && r.port == port && r.rowB == rowB
  let out := l.rows.map fun r => if mine r then settleRow last fired l r else (r, false, false)
  let s := if count then (out.filter (·.2.1)).foldl (fun s r => countRow s c r.1) s else s
  let l := { l with rows := out.map (·.1) }
  let s := if l.rows.all (·.fired) && l.later.isEmpty then
      setChan s c fun x => { x with lastFired := some (match x.lastFired with | some f => max f l.line | none => l.line) } else s
  if out.any (·.2.2) ∧ !l.missed then
    let s := if count then noteMissed (bump s Fld.POS_SHED_LINES_MISSED_SHED c) c l.line else s
    (s, { l with missed := true })
  else (s, l)

/-- The lines that each re-stripe cut, once a row's LAST has passed them (R278). -/
def settleCut (s : State) (u : Nat) (last : Int) : State :=
  (hubOf s u).cuts.foldl (fun s cut => match cut with
    | [] => s
    | l :: ls =>
      if ls.foldl max l ≤ last then
        let s := setHub s u fun h => { h with cuts := h.cuts.filter (· != cut) }
        let s := bump s Fld.FL_RESTRIPE_LINES_LOST_RESTRIPE u (ls.length + 1)
        raise (sticky s Fld.FL_STATUS_RESTRIPED) 0x0703 (u + 256 * (ls.length + 1)) (low32 (ls.foldl min l))
      else s) s

/-- A settled row of an acknowledgement, for the channel it prints in (R64, R265, R266). A report from an old epoch leaves the choice of
the next line alone (R234). -/
def ackRow (s : State) (u port : Nat) (rowB : Bool) (last fired : Nat) (count old : Bool) : State :=
  (List.range 16).foldl (fun s c =>
    let x := chan s c
    if x.sent.any fun l => l.rows.any fun r => r.hub == u && r.port == port && r.rowB == rowB then
      let line := expandLine last x.next
      let (s, ls) := x.sent.foldl (fun (a : State × List SentLine) l =>
        let (s, l) := settleLine a.1 c u port rowB line fired count l
        (s, a.2 ++ [l])) (s, [])
      settleCut (setChan s c fun x => let x := if old then { x with sent := ls } else skipFired { x with sent := ls }; { x with sent := x.sent.filter lineLive }) u line
    else s) s

/-- The head that a hub's head port serves in the active set. -/
def headAt (s : State) (u port : Nat) : Option (Nat × Placement) := s.sets.active.places.find? fun p => p.2.hub == u && p.2.port == port

/-- The channels that a head prints in. -/
def headChannels (p : Placement) : List Nat := p.chanA.toList ++ p.chanB.toList

/-- A change to the history path asked for by a head's report, unless it is of an old epoch (R220, R234). -/
def reportPath (s : State) (p : Placement) (old : Bool) : State :=
  if old then s else (headChannels p).foldl (fun s c => requestPath s c true) s

/-- A head's report of its temperature (R220): HEAD_COLD in the second pick in a row below PREHEAT_TEMP_MIN. -/
def headTemp (s : State) (h : Nat) (p : Placement) (temp : Int) (old : Bool) : State :=
  let s := setFld s Fld.FIR_HEAD_TEMP_HEAD_TEMP h (unsignedOf 8 temp)
  match setType s.sets.active p.type with
  | none => s
  | some t =>
    let s := if t.preheatMin ≠ -128 ∧ temp < t.preheatMin + 3 then
        { s with print := { s.print with warmBad := s.print.warmBad ++ headChannels p } }
      else { s with print := { s.print with warmNow := if s.print.warmNow.contains h then s.print.warmNow else h :: s.print.warmNow } }
    if t.preheatMin = -128 ∨ t.preheatMin ≤ temp then s
    else
      let s := { s with print := { s.print with coldNow := if s.print.coldNow.contains h then s.print.coldNow else h :: s.print.coldNow } }
      if s.print.coldPrev.contains h ∧ !s.print.coldEv.contains h then
        let s := { s with print := { s.print with coldEv := h :: s.print.coldEv } }
        reportPath (raise (sticky s Fld.FIR_STATUS_HEAD_COLD) 0x0608 h (low32 temp)) p old
      else s

/-- One head port's record (R214, R220, R264); `old` tells that it comes from an epoch before the unit's (R234). -/
def ackHead (s : State) (u : Nat) (r : AckRec) (count old : Bool) : State :=
  let s := if r.status.testBit 6 then ackRow s u r.port false r.lastA r.firedA count old else s
  let s := if r.status.testBit 7 then ackRow s u r.port true r.lastB r.firedB count old else s
  let s := if r.status.testBit 0 then
      raiseOnce (sticky (bump s Fld.FIR_PREHEAT_PREHEAT_MISSES u) Fld.FIR_STATUS_PREHEAT_MISSING) 0x0603 u r.port else s
  match headAt s u r.port with
  | none => s
  | some (h, p) =>
    let s := headTemp s h p r.temp old
    if r.status.testBit 1 then
      let s := sticky s Fld.FIR_STATUS_PREHEAT_FAULT
      let s := { s with print := { s.print with warmBad := s.print.warmBad ++ headChannels p } }
      reportPath s p old
    else s

/-- Every record of an acknowledgement. -/
def readAck (s : State) (u : Nat) (ack : HubAck) (count : Bool) : State :=
  let old := decide (ack.epoch < liveFld s Fld.PAIR_EPOCH_EPOCH)
  ack.recs.foldl (fun s r => ackHead s u r count old) s

/-- What a HUB_ACK says of the hub itself: unlocked link time and two acting ports are reported once (R271, R275). -/
def hubReport (s : State) (u : Nat) (ack : HubAck) : State :=
  let h := hubOf s u
  let unsync := !ack.status.testBit 10
  let dual := ack.status.testBit 11
  let s := setHub s u fun h =>
    { h with status := ack.status, epoch := ack.epoch, lastAck := now s, ackTime := ack.ackTime, ackLost := false, unsync := unsync,
             dual := dual, recs := ack.recs }
  let s := if unsync && !h.unsync then
      raise (sticky s Fld.FL_STATUS_HUB_UNSYNC) 0x070C u (low32 (roundNs ((h.prevOffset : Rat) / 16))) else s
  if dual && !h.dual then raise (sticky s Fld.FL_STATUS_DUAL_ACTIVE) 0x070D u ack.epoch else s

/-- The lines of a channel unsettled on a row beyond UNACKED_LIMIT are given up (R267), counted for each hub. -/
def giveUp (s : State) (c : Nat) : State :=
  let limit := 1000000 * liveFld s Fld.FL_CTRL_UNACKED_LIMIT
  let old (l : SentLine) : Bool := decide (l.sentAt + limit ≤ now s)
  let s := (chan s c).sent.foldl (fun s l =>
    if old l then (((l.rows.filter (!·.settled)).map (·.hub)).dedup).foldl (fun s u =>
      setHub (sticky (bump s Fld.FL_UNACKED_LINES_UNACKED u) Fld.FL_STATUS_UNACKED) u fun h => { h with lostPick := h.lostPick + 1 }) s
    else s) s
  setChan s c fun x =>
    let sent := x.sent.map fun l => if old l then { l with rows := l.rows.map fun r => { r with settled := true } } else l
    { x with sent := sent.filter lineLive }

/-- LINES_UNACKED (R267): event 0x070F follows at the pick boundary with the lines given up in the pick. -/
def execLinesUnacked (t : Nat) (c : Fin 16) (s : State) : Host.Outcome State Fault Refusal :=
  .next (checkJob (giveUp (flushUpdate (begin s t)) c))

end Sys2Proof.Machine
end

