-- ==== Sys2Proof/Machine/Cons.lean ====
section
/-!
DEFINITION. The authenticated increment (R226 to R234, R263, R499): an element is named by the head it counts, 0 to 511, or by
0x200 + c for the ink supply of channel c, which is also its event source (R237).
-/
namespace Sys2Proof.Machine

/-- An element's account. -/
def elem (s : State) (k : Nat) : Element := (s.print.elements.find? (·.key == k)).getD { key := k }

/-- An element's account changed. -/
def setElem (s : State) (k : Nat) (f : Element → Element) : State :=
  let e := f (elem s k)
  let l := s.print.elements
  let l' := if l.any (·.key == k) then l.map (fun x => if x.key = k then e else x) else l ++ [e]
  { s with print := { s.print with elements := l' } }

/-- The pending count, committed total and SEQ of an element, as the registers that hold them, with their index. -/
def elemRegs (k : Nat) : Field × Field × Field × Nat :=
  if k < 512 then (Fld.FIR_HEAD_PENDING_HEAD_PENDING, Fld.FIR_HEAD_TOTAL_HEAD_TOTAL, Fld.FIR_HEAD_SEQ_HEAD_SEQ, k)
  else (Fld.FIR_INK_PENDING_INK_PENDING, Fld.FIR_INK_TOTAL_INK_TOTAL, Fld.FIR_INK_SEQ_INK_SEQ, k - 512)

/-- An element's pending count. -/
def elemPending (s : State) (k : Nat) : Nat := liveFld s (elemRegs k).1 (elemRegs k).2.2.2

/-- An element's committed total. -/
def elemTotal (s : State) (k : Nat) : Nat := liveFld s (elemRegs k).2.1 (elemRegs k).2.2.2

/-- The SEQ of an element's last accepted commit. -/
def elemSeq (s : State) (k : Nat) : Nat := liveFld s (elemRegs k).2.2.1 (elemRegs k).2.2.2

/-- An element's pending count set. -/
def setPending (s : State) (k n : Nat) : State := setFld s (elemRegs k).1 (elemRegs k).2.2.2 n

/-- An element's total and SEQ set. -/
def setTotal (s : State) (k total seq : Nat) : State :=
  setFld (setFld s (elemRegs k).2.1 (elemRegs k).2.2.2 total) (elemRegs k).2.2.1 (elemRegs k).2.2.2 seq

/-- The hub that reaches an element, and the TARGET and PORT or SLOT that name it there (R262, R263): a placed head, or a
supply whose channel has SUPPLY_EN. -/
def elemHub (s : State) (k : Nat) : Option (Nat × Nat × Nat) :=
  let c := k - 512
  if k < 512 then (setPlace s.sets.active k).map fun p => (p.hub, 0, p.port)
  else if k < 528 ∧ bankGet s.sets.active.regs Fld.FIR_SUPPLY_SUPPLY_EN c = 1 then
    some (bankGet s.sets.active.regs Fld.FIR_SUPPLY_SUPPLY_HUB c, 1, bankGet s.sets.active.regs Fld.FIR_SUPPLY_SUPPLY_SLOT c)
  else none

/-- The 48-byte commit record (R227). -/
def commitRecord (ident seq inc total nonce : Nat) : List Byte :=
  leBytes 4 1 ++ leBytes 8 ident ++ leBytes 4 seq ++ leBytes 8 inc ++ leBytes 8 total ++ leBytes 16 nonce

/-- A request sent to an element with a new nonce (R227, R230): CONSUMABLE_AUTH with KIND 1, from the unit that holds the lease (R233). -/
def sendRequest (s : State) (k seq inc : Nat) : State :=
  match (if driving s then elemHub s k else none) with
  | none => s
  | some (u, target, slot) =>
    let (n, s) := fresh s
    let nonce := Config.random n % 2 ^ 128
    let s := setElem s k fun e => { e with nonce := nonce, sentAt := now s }
    toHub s u (.cons k target slot (commitRecord (elem s k).identity seq inc 0 nonce))

/-- A commit of the whole pending count begins (R226). -/
def startCommit (s : State) (k : Nat) : State :=
  let seq := (elemSeq s k + 1) % 2 ^ 32
  let amount := elemPending s k
  sendRequest (setElem s k fun e => { e with inFlight := true, attempts := 1, seq := seq, amount := amount }) k seq amount

/-- A commit in flight sent again, with the same SEQ and INCREMENT (R230, R234). -/
def resendCommit (s : State) (k : Nat) : State := sendRequest s k (elem s k).seq (elem s k).amount

/-- The next piece of an element's certificate asked for with ELEMENT_INFO (R262, R499). -/
def readCert (s : State) (k : Nat) : State :=
  match elemHub s k with
  | none => s
  | some (u, target, slot) =>
    let off := (elem s k).cert.length
    let s := setElem s k fun e => { e with reading := true, sentAt := now s, attempts := Nat.max 1 e.attempts }
    sendCmd s u 6 (leBytes 1 target ++ leBytes 1 slot ++ leBytes 2 off) none

/-- Under CONS_POLICY 1 a failed authentication or sequence fault makes an orderly stop (R231, R415). -/
def consPolicy (s : State) : State := if liveFld s Fld.FIR_CONS_CONS_POLICY = 1 then orderlyStop s 4 else s

/-- A reply, or a certificate, that failed verification (R231, R499). -/
def consAuthFail (s : State) (k seq : Nat) : State :=
  consPolicy (raiseOnce (sticky s Fld.FIR_STATUS_CONS_AUTH_FAIL) 0x0604 k seq)

/-- A certificate chains to one of the consumable roots (R499). -/
def certChains (s : State) (cert : List Byte) : Bool :=
  s.sec.roots.any fun r => match r with
    | some root => Config.chainOk cert root (if s.time.locked then some (now s) else none)
    | none => false

/-- Whether an element's commit is due (R226). -/
def commitDue (s : State) (k : Nat) : Bool :=
  decide ((elem s k).lastDone + 1000000000 ≤ now s) || decide (2 ^ 24 ≤ elemPending s k)

/-- Whether the unit may send an element a commit: it holds the lease, the random source works, no commit is in flight, the
pending count is not zero and no sequence fault stands (R226, R231, R233, R483). -/
def mayCommit (s : State) (k : Nat) : Bool :=
  driving s && serving s && !s.sec.rngFailed && !(elem s k).inFlight && !(elem s k).seqFault && (elem s k).rebase.isNone &&
    elemPending s k != 0 && (elemHub s k).isSome

/-- CONS_COMMIT_START (R226): the request goes out; an element whose certificate has not been read is asked for it first and
its commit begins when the chain is found good (R499). A chain that failed is read again at R230's pace. -/
def execConsCommitStart (t k : Nat) (s : State) : Host.Outcome State Fault Refusal :=
  let s := begin s t
  .next (if !(mayCommit s k && commitDue s k) then s
    else if (elem s k).certOk then startCommit s k
    else if (elem s k).reading ∨ 0 < (elem s k).attempts then s
    else readCert s k)

/-- Whether a request waits for an element's reply with this nonce (R229). -/
def awaits (e : Element) (nonce : Nat) : Bool := (e.inFlight || e.rebase.isSome) && e.nonce == nonce

/-- The pending count of an element as it stands goes to MRAM (R225, R229). -/
def keepPending (s : State) (k : Nat) : State :=
  let f := (elemRegs k).1
  { s with rst := { s.rst with pend := bankSet s.rst.pend f (elemRegs k).2.2.2 (elemPending s k) } }

/-- The account re-established from the element's signed reply (R502). -/
def rebaseElem (s : State) (k chan tag seq total : Nat) : State :=
  let s := setTotal s k total seq
  let s := setElem s k fun e => { e with rebase := none, seqFault := false, seq := seq }
  answer (audit (raise s 0x0C0D k seq) 0x0C9A chan 0) chan tag true ⟨0, 0, leBytes 4 seq ++ leBytes 8 total, false⟩

/-- CONS_REPLY_RECEIVE (R229, R231, R255, R502). A packet that R255 discards is counted; a reply to no outstanding request is
ignored. -/
def execConsReplyReceive (t k : Nat) (hub : Fin 24) (valid : Bool) (reply : ConsReply) (s : State) : Host.Outcome State Fault Refusal :=
  let s := begin s t
  let (reject, record, sig) : Bool × List Byte × List Byte := match reply with
    | .reply r g => (false, r, g)
    | .seqReject r g => (true, r, g)
  let e := elem s k
  let ident := leAt record 4 8
  let seq := leAt record 12 4
  let inc := leAt record 16 8
  let total := leAt record 24 8
  .next (if !valid then discardPacket s hub
    else if !serving s ∨ !awaits e (leAt record 32 16) then s
    else if !Config.sigOk (Config.certKey e.cert) (record.take 48) sig then consAuthFail s k e.seq
    else if ident ≠ e.identity then s
    else match e.rebase with
      | some (chan, tag) => rebaseElem s k chan tag seq total
      | none =>
        if reject then
          let s := setElem s k fun e => { e with inFlight := false, seqFault := true, lastSeqSeen := seq, attempts := 0 }
          consPolicy (raiseOnce (sticky s Fld.FIR_STATUS_CONS_SEQ_FAULT) 0x0606 k seq)
        else if seq ≠ e.seq ∨ inc ≠ e.amount then s
        else if total ≠ (elemTotal s k + e.amount) % 2 ^ 64 then consAuthFail s k e.seq
        else
          let s := keepPending (setPending (setTotal s k total seq) k (elemPending s k - e.amount)) k
          setElem s k fun e =>
            { e with inFlight := false, attempts := 0, lastDone := now s, lastRecord := record.take 48, lastSig := sig })

/-- CONS_TIMEOUT in nanoseconds (R230). -/
def consTimeout (s : State) : Nat := 1000000 * liveFld s Fld.FIR_CONS_CONS_TIMEOUT

/-- Try an element again: the same request, or its certificate. -/
def consRetry (s : State) (k : Nat) : State :=
  if s.sec.rngFailed ∨ !driving s then s
  else if (elem s k).inFlight then resendCommit s k
  else readCert (setElem s k fun e => { e with cert := [] }) k

/-- CONS_TIMEOUT (R230): the request goes again after CONS_TIMEOUT; after the third attempt the failure is reported, and the
retries go once a second. A CONS_RESET that the element does not answer in three attempts is answered TIMEOUT (log 33). -/
def execConsTimeout (t k : Nat) (s : State) : Host.Outcome State Fault Refusal :=
  let s := begin s t
  let e := elem s k
  let waited := now s - e.sentAt
  .next (if !serving s ∨ !(e.inFlight || e.rebase.isSome || decide (0 < e.attempts)) then s
    else if e.attempts < 3 then
      if waited < consTimeout s then s
      else
        let s := setElem s k fun e => { e with attempts := e.attempts + 1 }
        if e.rebase.isSome then sendRequest s k 0 0 else consRetry s k
    else if e.attempts = 3 then
      if waited < consTimeout s then s
      else
        let s := setElem s k fun e => { e with attempts := if e.rebase.isSome then 0 else 4 }
        let s := raiseOnce (sticky s Fld.FIR_STATUS_CONS_TIMEOUT) 0x0605 k e.seq
        match e.rebase with
        | some (chan, tag) => answer (audit (setElem s k fun e => { e with rebase := none }) 0x0C9A chan 9) chan tag true ⟨9, 0, [], false⟩
        | none => s
    else if waited < 1000000000 then s
    else consRetry s k)

/-- The element that an ELEMENT_INFO request named. -/
def elemAt (s : State) (u : Nat) (args : List Byte) : Option Nat :=
  ((List.range 528).filter fun k => (elem s k).reading).find? fun k =>
    elemHub s k == some (u, leAt args 0 1, leAt args 1 1)

/-- A piece of an element's certificate arrived (R499): the next is asked for, or the chain is judged. -/
def certPiece (s : State) (k : Nat) (bytes : List Byte) : State :=
  let s := setElem s k fun e => { e with cert := e.cert ++ bytes, reading := false }
  let cert := (elem s k).cert
  if cert.length < Config.certLength cert then readCert s k
  else if certChains s (cert.take (Config.certLength cert)) then
    let s := setElem s k fun e =>
      { e with cert := cert.take (Config.certLength cert), certOk := true, identity := Config.certIdentity cert % 2 ^ 64, attempts := 0 }
    match (elem s k).rebase with
    | some _ => sendRequest (setElem s k fun e => { e with attempts := 1 }) k 0 0
    | none => if mayCommit s k then startCommit s k else s
  else
    let s := setElem s k fun e => { e with attempts := Nat.max 1 e.attempts, sentAt := now s }
    consAuthFail s k ((elemSeq s k + 1) % 2 ^ 32)

/-- HEAD_CMD_RESPONSE (R262): the answer goes to the message that asked, or the certificate piece to its element. -/
def execHeadCmdResponse (t : Nat) (hub : Fin 24) (valid : Bool) (cmd ctag status : Nat) (args : List Byte) (s : State) :
    Host.Outcome State Fault Refusal :=
  let s := begin s t
  .next (if !valid then discardPacket s hub
    else match (hubOf s hub).cmds.find? fun c => c.cmd == cmd && c.tag == ctag with
      | none => s
      | some c =>
        let s := setHub s hub fun h => { h with cmds := h.cmds.filter (· != c) }
        match c.msg with
        | some (k, tag) => answer s k tag false ⟨hubResult status, 0, args.take (if k < 4 then 240 else 224), false⟩
        | none =>
          match (if cmd = 6 then elemAt s hub c.args else none) with
          | none => s
          | some k =>
            if status = 0 then certPiece s k args
            else setElem s k fun e => { e with reading := false, attempts := Nat.max 1 e.attempts })

end Sys2Proof.Machine
end

