-- ==== Sys2Proof/Machine/HostIf.lean ====
section
/-!
DEFINITION. The host attachment of chapter 11: inbound mailboxes and doorbell posts, the release of replies, resets of either
side, locks, the event ring, and the Ethernet session with its datagrams (those that carry register accesses are in Access).
-/
namespace Sys2Proof.Machine

/-- Bytes written into a mailbox at an offset; a mailbox shorter than the offset holds zeros up to it. -/
def writeBytes (m : List Byte) (off : Nat) (bs : List Byte) : List Byte :=
  let m := m ++ List.replicate (off + bs.length - m.length) 0
  m.take off ++ bs ++ m.drop (off + bs.length)

/-- Whether a write to a mailbox has a size and place the window accepts (R372): 4 or 8 bytes, aligned, inside 256 bytes. -/
def mailboxAccess (off n : Nat) : Bool := (n == 4 || n == 8) && off % n == 0 && decide (off + n ≤ 256)

/-- Whether BAR0 is served: not before step 2 of a start (R532). -/
def barOpen (s : State) : Bool := s.sys.st != .off && s.sys.st != .reset

/-- The host writes an inbound mailbox (R385). -/
def writeMailbox (s : State) (k off : Nat) (bs : List Byte) : State :=
  if !mailboxAccess off bs.length then s
  else if (mbx s k).pending then sticky s Fld.MBX_STATUS_IGNORED_WRITE k
  else setMbx s k fun m => { m with inbox := writeBytes m.inbox off bs }

/-- MAILBOX_WRITE (R385). -/
def execMailboxWrite (t : Nat) (ch : Fin 6) (offset : Nat) (bytes : List Byte) (s : State) :
    Host.Outcome State Fault Refusal :=
  let s := begin s t
  .next (if barOpen s then writeMailbox s ch offset bytes else s)

/-- The greatest payload of a channel (R384). -/
def payloadLimit (k : Nat) : Nat := if k < 4 then 240 else 224

/-- Whether a mailbox's CRC field matches its header and payload (R384). -/
def crcMatches (m : List Byte) : Bool :=
  leAt m 12 4 == crc32c (bytesAt m 0 12 ++ leBytes 4 0 ++ bytesAt m 16 (leAt m 0 2))

/-- Whether the tag field of a session's next message fits its encrypted payload and header bytes 0 to 11 (R489). -/
def tagFits (x : SecSession) (front body : List Byte) (tag : Nat) : Bool :=
  tag == Config.gcmTag (bytesAt x.keys 0 32) (gcmNonce x.keys 64 (x.taken + 1)) front body % 2 ^ 128

/-- The module looks at a posted message: R388 first, then the checks of R386 in their order; a message that passes
stays pending until its own command takes it. -/
def lookAt (s : State) (k : Nat) : State :=
  let m := mbx s k
  let len := leAt m.inbox 0 2
  let op := leAt m.inbox 2 1
  let cls := leAt m.inbox 3 1
  let tag := leAt m.inbox 6 2
  if !serving s ∨ !m.pending ∨ !takesNow s k then s
  else if numbersSpent s k then endSecure s k 4
  else if 5 ≤ outstanding m then busyReject (setMbx s k fun m => { m with pending := false, inbox := [] }) k tag
  else if payloadLimit k < len then refuseTaken (takePending s k) k cls op tag 3
  else if !crcMatches m.inbox then refuseTaken (takePending s k) k cls op tag 10
  else
    let body := bytesAt m.inbox 16 len
    let tagField := leAt m.inbox (16 + len) 16
    let auth := k < 4 || (if m.secure then tagFits (secSession s k) (bytesAt m.inbox 0 12) body tagField else setupOp cls op && tagField == 0)
    let e := takeCheck s k cls op tag auth
    if e = 0 then s
    else
      let s := refuseTaken (takePending s k) k cls op tag e
      if m.secure && !auth then
        endSecure (raise (sticky s Fld.SEC_STATUS_AUTH_FAIL) 0x0C04 (chanBit k) 4) k 3
      else s

/-- A message posted on a channel (R385). -/
def postChannel (s : State) (k : Nat) : State := lookAt (setMbx s k fun m => { m with pending := true }) k

/-- Whether an attachment may post on a channel: N0 of a unit whose strap lies between bands belongs to the first that does (R523). -/
def mayPost (s : State) (k : Nat) (ethernet : Bool) : Bool := !s.rst.both || k != 0 || s.rst.n0Owner != some (!ethernet)

/-- A channel posted by an attachment. -/
def postFrom (s : State) (k : Nat) (ethernet : Bool) : State :=
  if !mayPost s k ethernet then s
  else postChannel (if s.rst.both && k == 0 then { s with rst := { s.rst with n0Owner := some ethernet } } else s) k

/-- A write to DB_H2D_SET (R385, R396): each channel bit set posts its channel unless a post of it is still pending. -/
def postDoorbells (s : State) (value : Nat) (ethernet : Bool) : State :=
  (List.range 6).foldl (fun s k =>
    if value.testBit (chanBit k) && !(mbx s k).pending then postFrom s k ethernet else s) s

/-- DOORBELL_POST (R385). -/
def execDoorbellPost (t value : Nat) (s : State) : Host.Outcome State Fault Refusal :=
  let s := begin s t
  .next (if barOpen s then postDoorbells s value s.sys.ethernet else s)

/-- The host releases the reply of a channel (R389): the oldest waiting reply moves in. -/
def releaseReply (s : State) (k : Nat) : State :=
  let m := mbx s k
  match m.out with
  | none => s
  | some _ =>
    match m.queue with
    | [] => setMbx s k fun m => { m with out := none }
    | r :: q => outFilled (setMbx s k fun m => { m with out := some r, queue := q }) k

/-- REPLY_RELEASE (R389). -/
def execReplyRelease (t : Nat) (ch : Fin 6) (s : State) : Host.Outcome State Fault Refusal :=
  let s := begin s t
  .next (if barOpen s then pump (releaseReply s ch) ch else s)

/-- A host-side reset of a channel (R391): mailboxes and overflow queue empty, the messages in execution go on and their
replies are discarded; the first messages taken afterwards are compared with the record (R393). -/
def hostReset (s : State) (k : Nat) : State :=
  let s := setMbx s k fun m =>
    { m with inbox := [], pending := false, out := none, queue := [], comparing := true,
             flight := m.flight.map fun f => { f with drop := true, hold := none } }
  let s := pump s k
  let s := raise (doorbell (sticky s Fld.MBX_STATUS_ABORTED k) 21) 0x1102 (chanBit k) 1
  endSecure s k 5

/-- CHANNEL_RESET_HOST (R391). -/
def execChannelResetHost (t : Nat) (ch : Fin 6) (s : State) : Host.Outcome State Fault Refusal :=
  let s := begin s t
  .next (if barOpen s then hostReset s ch else s)

/-- Every lock a master holds, released (R400). -/
def releaseLocks (s : State) (master : Nat) : State :=
  { s with host := { s.host with locks := s.host.locks.map fun x => if x = master + 1 then 0 else x } }

/-- A host-side reset of every channel, with the locks of one master (R373, R378). -/
def hostDetach (s : State) (master : Nat) : State := releaseLocks ((List.range 6).foldl hostReset s) master

/-- PCIE_RESET (R373): the endpoint alone resets; printing and the module's state go on. Without the PCIe attachment there is
no endpoint to reset. -/
def execPcieReset (t : Nat) (s : State) : Host.Outcome State Fault Refusal :=
  let s := begin s t
  let free (o : Option Bool) : Option Bool := if o = some false then none else o
  .next (if s.sys.ethernet || !barOpen s then s
    else
      let s := hostDetach { s with rst := { s.rst with n0Owner := free s.rst.n0Owner } } 3
      { s with sys := { s.sys with linkRate := 0, linkWidth := 0 } })

/-- A read of a lock by a master (R397, R399): the value returned, and the lock acquired when it was free. -/
def readLock (s : State) (l master : Nat) : Nat × State :=
  let v := nth s.host.locks l 0
  if 24 ≤ l ∧ 2 ≤ master then (7, s)
  else if v = 0 then (0, { s with host := { s.host with locks := upd s.host.locks l fun _ => master + 1 } })
  else (v, s)

/-- LOCK_READ (R397). Master 5 has access only after an unlock of SCOPE 2 (R505). -/
def execLockRead (t : Nat) (lock : Fin 32) (master : Fin 6) (s : State) : Host.Outcome State Fault Refusal :=
  let s := begin s t
  .next (if master.val = 5 ∧ !s.sec.scopes.testBit 1 then s
    else
      let (v, s) := readLock s lock master
      emit s (.value [v]))

/-- A write to a lock by a master (R398). -/
def writeLock (s : State) (l master : Nat) : State :=
  if nth s.host.locks l 0 = master + 1 then
    { s with host := { s.host with locks := upd s.host.locks l fun _ => 0 } }
  else s

/-- LOCK_RELEASE (R398). -/
def execLockRelease (t : Nat) (lock : Fin 32) (master : Fin 6) (s : State) : Host.Outcome State Fault Refusal :=
  .next (writeLock (begin s t) lock master)

/-! ### The event ring and the persistent log -/

/-- Whether the ring's filter keeps an event out of the ring (R443). -/
def filtered (filter : List (Nat × Nat)) (e : Event) : Bool := filter.any fun (c, m) => (e.code &&& m) == c

/-- Entries the host has not consumed (R402). -/
def ringUsed (s : State) : Nat := (s.host.evHead + 2 ^ 32 - liveFld s Fld.EVT_TAIL_TAIL) % 2 ^ 32

/-- One event into the persistent log, with the next sequence number (R443, R611). -/
def logEvent (s : State) (e : Event) : State :=
  { s with host := { s.host with log := lastN 4096 (s.host.log ++ [⟨s.host.logNext, e⟩])
                                 logNext := s.host.logNext + 1 } }

/-- One event into the ring: its entry, then EVT_HEAD (R402). -/
def pushRing (s : State) (e : Event) : State :=
  { s with host := { s.host with ring := s.host.ring.set (s.host.evHead % 64) e
                                 evHead := (s.host.evHead + 1) % 2 ^ 32 } }

/-- One event for the ring: unless the filter keeps it out, its entry, or the count of lost events (R402, R403). -/
def ringEvent (s : State) (e : Event) : State :=
  if filtered s.host.filter e then s
  else if 64 ≤ ringUsed s then
    let s := bump s Fld.EVT_LOST_EVENTS_LOST
    { s with host := { s.host with lost := s.host.lost + 1 } }
  else pushRing s e

/-- One queued event written, to the log and to the ring (R611). -/
def writeEvent (s : State) (e : Event) : State := ringEvent (logEvent s e) e

/-- The queued events that the log does not hold yet, written to it (R537, R580). -/
def logQueued (s : State) : State :=
  let s := (s.host.queued.drop s.host.logged).foldl logEvent s
  { s with host := { s.host with logged := s.host.queued.length } }

/-- Step 5 of R17: the events queued, in order, first the report of events lost at the first boundary with room (R403).
Doorbell bit 16 when EVT_HEAD advances (R396). -/
def flushEvents (s : State) : State :=
  let head := s.host.evHead
  let q := s.host.queued
  let s := if 0 < s.host.lost ∧ ringUsed s < 64 then
      let e : Event := ⟨now s, 0x1103, 0, s.host.lost % 2 ^ 32⟩
      writeEvent { s with host := { s.host with lost := 0 } } e
    else s
  let s := (q.drop s.host.logged).foldl writeEvent ((q.take s.host.logged).foldl ringEvent s)
  let s := { s with host := { s.host with queued := [], logged := 0 } }
  if s.host.evHead = head then s
  else
    let s := doorbell s 16
    if s.sys.ethernet then sendNotify s else s

/-- A write of EVT_TAIL (R402): ignored outside EVT_HEAD - 64 to EVT_HEAD, compared modulo 2^32. -/
def writeTail (s : State) (v : Nat) : State :=
  if (s.host.evHead + 2 ^ 32 - v % 2 ^ 32) % 2 ^ 32 ≤ 64 then
    let s := setFld s Fld.EVT_TAIL_TAIL 0 v
    { s with host := { s.host with session := s.host.session.map fun x => { x with notify := none } } }
  else s

/-- EVT_TAIL_WRITE (R402). -/
def execEvtTailWrite (t value : Nat) (s : State) : Host.Outcome State Fault Refusal := .next (writeTail (begin s t) value)

/-! ### Ethernet-only attachment -/

/-- Whether a datagram belongs to the open session: its number and its source (R378). -/
def inSession (s : State) (d : Dgram) : Bool :=
  (s.sys.ethernet || s.rst.both) && match s.host.session with
  | some x => x.num == d.session && x.source == d.src && x.udp == d.udp && x.port == d.port
  | none => false

/-- The session's time-out restarts (R378). -/
def touchSession (s : State) : State :=
  { s with host := { s.host with session := s.host.session.map fun x => { x with last := now s } } }

/-- The messages that wait for a transfer: their data will not come, and they end without a reply (R380, R391). -/
def dropTransfers (s : State) : State :=
  let gone := s.host.tables.map (fun x => (x.chan, x.tag)) ++
    (s.store.ingests.filter (·.transfer.isSome)).map (fun g => (g.chan, g.tag)) ++ s.sec.load.toList.map (fun l => (l.chan, l.tag))
  let s := dropLoad s
  let chans := (List.range s.host.chans.length).map fun k =>
    let m := mbx s k
    { m with flight := m.flight.filter fun f => !(f.reply.isNone && gone.contains (k, f.tag)) }
  { s with host := { s.host with chans := chans, tables := [], transfers := [] }
           store := { s.store with ingests := s.store.ingests.filter (·.transfer.isNone) } }

/-- The end of a session (R378): host-side reset of every channel, locks of master 4 released, event 0x1106. -/
def endSession (s : State) (cause : Nat) : State :=
  match s.host.session with
  | none => s
  | some x =>
    let s := if s.rst.n0Owner = some true then { s with rst := { s.rst with n0Owner := none } } else s
    let s := dropTransfers (hostDetach s 4)
    raise { s with host := { s.host with session := none } } 0x1106 x.port cause

/-- SESSION_TIMEOUT (R378): 2 s without a datagram. -/
def execSessionTimeout (t : Nat) (s : State) : Host.Outcome State Fault Refusal :=
  let s := begin s t
  .next (match s.host.session with
    | some x => if x.last + 2000000000 ≤ now s then endSession s 1 else s
    | none => s)

/-- A new session is opened and HELLO_ACK sent (R377, R378). -/
def openSession (s : State) (src udp port : Nat) : State :=
  let n := s.host.lastSession + 1
  let s := { s with host := { s.host with lastSession := n
                                          session := some { source := src, udp := udp, port := port, num := n, last := now s } } }
  raise (sendDatagram s 2 0 []) 0x1105 port n

/-- HELLO (R378): from the open session's own source it replaces the session; from another it is ignored while the session
has had a datagram within 2 s. -/
def execHello (t src udp : Nat) (port : Fin 2) (s : State) : Host.Outcome State Fault Refusal :=
  let s := begin s t
  .next (if !(s.sys.ethernet || s.rst.both) || !serving s then s
    else match s.host.session with
      | none => openSession s src udp port
      | some x =>
        if x.source = src ∧ x.udp = udp ∧ x.port = port then openSession (endSession s 2) src udp port
        else if now s < x.last + 2000000000 then s
        else openSession (endSession s 1) src udp port)

/-- MSG_DATAGRAM (R377, R379): OUT_ACK first; a SEQ already taken has its channel's reply resent; otherwise the bytes go into
the inbound mailbox and the channel is posted. -/
def execMsgDatagram (t : Nat) (d : Dgram) (ch : Fin 6) (outAck : Bool) (bytes : List Byte) (s : State) :
    Host.Outcome State Fault Refusal :=
  let s := begin s t
  .next (if !inSession s d then s
    else
      let s := touchSession s
      let taken := match s.host.session with | some x => x.taken.contains (ch.val, d.seq) | none => false
      if taken then
        match outBytes (mbx s ch) ch with
        | some bs => sendDatagram s 4 (chanBit ch) bs
        | none => s
      else
        let s := if outAck then pump (releaseReply s ch) ch else s
        if (mbx s ch).pending then sticky s Fld.MBX_STATUS_IGNORED_WRITE ch
        else if !mayPost s ch true then s
        else
          let s := { s with host := { s.host with session := s.host.session.map fun x => { x with taken := x.taken ++ [(ch.val, d.seq)] } } }
          postFrom (setMbx s ch fun m => { m with inbox := bytes.take 256 }) ch true)

/-- DATA_ACK for a transfer (R377, R380). -/
def sendDataAck (s : State) (x : Transfer) : State :=
  let s := sendDatagram s 10 0 (leBytes 4 x.num ++ leBytes 4 0 ++ leBytes 8 x.data.length)
  { s with host := { s.host with transfers := s.host.transfers.map fun y =>
    if y.num = x.num then { y with ackedAt := x.data.length, lastAck := now s } else y } }

/-- Whether the acknowledgement of a transfer is withheld (R380, R549): host ingest pauses at throttle level 4. -/
def ackWithheld (s : State) (num : Nat) : Bool := decide (4 ≤ throttle s) && s.store.ingests.any (·.transfer == some num)

/-- DATA_ACK_TIMER (R380): 1 ms with data arriving. -/
def execDataAckTimer (t : Nat) (s : State) : Host.Outcome State Fault Refusal :=
  let s := begin s t
  let due (x : Transfer) : Bool := x.ackedAt < x.data.length && x.lastAck + 1000000 ≤ now s && !ackWithheld s x.num
  .next ((s.host.transfers.filter due).foldl sendDataAck s)

/-- NOTIFY_REPEAT (R379): every 100 ms, an unanswered NOTIFY and every unreleased REPLY go again. -/
def execNotifyRepeat (t : Nat) (s : State) : Host.Outcome State Fault Refusal :=
  let s := begin s t
  .next (match s.host.session with
    | none => s
    | some x =>
      let s := if x.notify.isSome then sendNotify s else s
      (List.range 6).foldl (fun s k => match outBytes (mbx s k) k with
        | some bs => sendDatagram s 4 (chanBit k) bs
        | none => s) s)

end Sys2Proof.Machine
end

