-- ==== Sys2Proof/Machine/Sets.lean ====
section
/-!
DEFINITION. The configuration sets (R416 to R420, R423 to R426) and the HEAD messages that write the shadow set or the nozzle
state map (R185, R186, R192, R206, R208, R441).
-/
namespace Sys2Proof.Machine

/-- The shadow set changed: its validation no longer holds (R416, R418). -/
def setShadow (s : State) (f : CfgSet → CfgSet) : State :=
  { s with sets := { s.sets with shadow := f s.sets.shadow, validated := false } }

/-- A message that writes the shadow set: STATE while a swap is pending (R416), BAD_PARAM when its fields are not in range. -/
def shadowWrite (bad : Bool) (f : CfgSet → CfgSet) (s : State) : State × MsgRes :=
  if s.sets.swap.isSome then (s, ⟨5, 0, [], false⟩)
  else if bad then (s, ⟨4, 0, [], false⟩)
  else (setShadow s f, ⟨0, 0, [], false⟩)

/-- SET_STATUS as a number (R426): the sets' own state with SNAPSHOT_BAD. -/
def setStatus (s : State) : Nat :=
  let waiting := match s.sets.swap with
    | none => 0
    | some w => ((List.range 16).map fun c => if chanSwapped w c then 0 else 2 ^ c).sum
  bit s.sets.swap.isSome + 2 * bit s.sets.validated + 4 * (s.sets.point % 4) +
    16 * liveFld s Fld.SET_STATUS_SNAPSHOT_BAD + 2 ^ 16 * waiting + 2 ^ 32 * unsignedOf 48 s.sets.line + 2 ^ 96 * (s.sets.seq % 2 ^ 32)

/-! ### SET.TABLE (R420) -/

/-- The size of a table in bytes; none for a table or index that does not exist. -/
def tableSize (table index : Nat) : Option Nat :=
  match table with
  | 1 => if index < 16 then some 256 else none
  | 2 => if index < 16 then some 32768 else none
  | 3 => if 4 ≤ index ∧ index < 16 then some 512 else none
  | 4 => if index < 16 then some 212992 else none
  | _ => none

/-- One byte of a table written: the tone curve, a cell's T1 to T3 (byte 3 is reserved), eight bits of a mask, or half of a
column's correction. -/
def tableByte (table index : Nat) (c : CfgSet) (off : Nat) (b : Byte) : CfgSet :=
  match table with
  | 1 => { c with regs := bankWrite c.regs (regKey .WFT_TONE (256 * index + off) 0) b.toNat }
  | 2 =>
    let k := regKey .WFT_CELL index (off / 4)
    if off % 4 = 3 then c else { c with regs := bankWrite c.regs k (putBits (bankLookup c.regs k) (8 * (off % 4)) 8 b.toNat) }
  | 3 =>
    let k := regKey .WFT_MASK index 0
    { c with regs := bankWrite c.regs k (putBits (bankLookup c.regs k) (8 * off) 8 b.toNat) }
  | _ =>
    let x := off / 2
    let old := ((c.corr.find? fun e => e.1 == index && e.2.1 == x).map (·.2.2)).getD 0x80
    let new := putBits old (8 * (off % 2)) 8 b.toNat
    { c with corr := c.corr.filter (fun e => !(e.1 == index && e.2.1 == x)) ++ [(index, x, new)] }

/-- Bytes of a table written from an offset. -/
def tableWrite (table index off : Nat) (bytes : List Byte) (c : CfgSet) : CfgSet :=
  (List.range bytes.length).foldl (fun c i => tableByte table index c (off + i) (nth bytes i 0)) c

/-- Whether a SET.TABLE names no table, runs past its end, or brings fewer bytes than LENGTH (inline: more than 224). -/
def tableBad (table index off len : Nat) (ref : Bool) (data : DataRef) : Bool :=
  match tableSize table index with
  | none => true
  | some n => decide (n < off + len) || (if ref then decide (data.length < len) else decide (224 < len))

/-- A run of coefficients of a channel from a group on, two bytes each (R322). -/
def coefWrite (channel first : Nat) (bytes : List Byte) (c : CfgSet) : CfgSet :=
  let n := bytes.length / 2
  let keep := c.coef.filter fun e => !(e.1 == channel && decide (first ≤ e.2.1) && decide (e.2.1 < first + n))
  { c with coef := keep ++ (List.range n).map fun i => (channel, first + i, leAt bytes (2 * i) 2) }

/-- The data of a SET.TABLE, or of a CLP.COEF_SET as table 5, into a set. -/
def loadWrite (x : TableLoad) (bytes : List Byte) (c : CfgSet) : CfgSet :=
  if x.table = 5 then coefWrite x.index x.offset (bytes.take x.length) c else tableWrite x.table x.index x.offset (bytes.take x.length) c

/-- A message that brings data for the shadow set, inline or by reference (R416, R420, R428): over Ethernet a reference names a TRANSFER,
and the reply comes with its last byte. -/
def actLoad (bad ref : Bool) (x : TableLoad) (data : DataRef) (s : State) : State × MsgRes :=
  if s.sets.swap.isSome then (s, ⟨5, 0, [], false⟩)
  else if bad then (s, ⟨4, 0, [], false⟩)
  else if !ref ∧ data.bytes.length ≠ x.length then (s, ⟨3, 0, [], false⟩)
  else if ref ∧ s.sys.ethernet then
    ({ s with host := { s.host with tables := s.host.tables ++ [x],
                                    transfers := s.host.transfers ++ [{ num := data.transfer, length := data.length }] } },
      ⟨0, 0, [], true⟩)
  else if ref ∧ data.fail ≠ 0 then (s, ⟨dmaResult data.fail, 0, [], false⟩)
  else (setShadow s (loadWrite x (if ref then refBytes data else data.bytes)), ⟨0, 0, [], false⟩)

/-- SET_TABLE (R420). -/
def execSetTable (t : Nat) (ch : Fin 6) (tag table index offset length : Nat) (ref : Bool) (data : DataRef) (s : State) :
    Host.Outcome State Fault Refusal :=
  .next (message (begin s t) ch 2 0x10 tag true false
    (actLoad (tableBad table index offset length ref data) ref ⟨ch, tag, table, index, offset, length, data.transfer⟩ data))

/-- CLP_COEF_SET (R322, R441): a run of coefficients of a channel into the shadow set. -/
def execClpCoefSet (t : Nat) (ch : Fin 6) (tag channel first count : Nat) (ref : Bool) (data : DataRef) (s : State) :
    Host.Outcome State Fault Refusal :=
  let bad : Bool := decide (16 ≤ channel) || decide (53248 < first + count) || (ref && decide (data.length < 2 * count))
  .next (message (begin s t) ch 6 0x13 tag true false
    (actLoad bad ref ⟨ch, tag, 5, channel, first, 2 * count, data.transfer⟩ data))

/-- A SET.TABLE or CLP.COEF_SET whose TRANSFER is complete takes effect (R380, R420); a swap accepted meanwhile makes it STATE (R416). -/
def finishTable (s : State) (x : TableLoad) : State :=
  match s.host.transfers.find? (·.num == x.transfer) with
  | none => s
  | some tr =>
    if tr.data.length < tr.length then s
    else
      let s := { s with host := { s.host with tables := s.host.tables.filter (· != x),
                                              transfers := s.host.transfers.filter (·.num != x.transfer) } }
      if !((mbx s x.chan).flight.any fun f => f.tag == x.tag && f.reply.isNone) then s
      else
        let (s, r) := shadowWrite false (loadWrite x tr.data) s
        answer s x.chan x.tag true r

/-! ### Copies, swaps and status -/

/-- SET_COPY (R417). -/
def execSetCopy (t : Nat) (ch : Fin 6) (tag : Nat) (s : State) : Host.Outcome State Fault Refusal :=
  .next (message (begin s t) ch 2 0x11 tag true false fun s => shadowWrite false (fun _ => s.sets.active) s)

/-- SET_DEFAULTS (R417). -/
def execSetDefaults (t : Nat) (ch : Fin 6) (tag : Nat) (s : State) : Host.Outcome State Fault Refusal :=
  .next (message (begin s t) ch 2 0x12 tag true false (shadowWrite false fun _ => {}))

/-- The action of SET.SWAP (R418, R423, R424): in READY and SAFE_STOP the whole set changes at the next pick. -/
def actSwap (point line : Nat) (s : State) : State × MsgRes :=
  let l : Int := if point = 1 then (line % 2 ^ 48 : Nat) else if point = 2 then line else unrendered s
  if 2 < point ∨ (point = 1 ∧ passMode s) ∨ (point = 2 ∧ !passMode s) then (s, ⟨4, 0, [], false⟩)
  else if s.sets.swap.isSome ∨ !s.sets.validated then (s, ⟨5, 0, [], false⟩)
  else if !jobOn s then
    ({ s with sets := { s.sets with swap := some { point := point, line := 0, whole := true }, point := point, line := 0 } },
      ⟨0, 0, [], false⟩)
  else if (point = 1 ∧ l < unrendered s) ∨ (point = 2 ∧ !s.pos.indexWait ∧ l ≤ s.pos.pass) then (s, ⟨12, 0, [], false⟩)
  else
    ({ s with sets := { s.sets with swap := some { point := point, line := l, whole := false }, point := point, line := l } },
      ⟨0, 0, [], false⟩)

/-- SET_SWAP (R423). -/
def execSetSwap (t : Nat) (ch : Fin 6) (tag point line : Nat) (s : State) : Host.Outcome State Fault Refusal :=
  .next (message (begin s t) ch 2 0x14 tag true false (actSwap point line))

/-- Whether no field of a pending swap has taken effect in any channel (R425). -/
def swapUntouched (w : Swap) : Bool := w.changed.all (!·) && !w.timeDone && w.manual.all (· == 27)

/-- SET_CANCEL (R425); with no swap pending it returns STATE (log 34). -/
def execSetCancel (t : Nat) (ch : Fin 6) (tag : Nat) (s : State) : Host.Outcome State Fault Refusal :=
  .next (message (begin s t) ch 2 0x15 tag true false fun s =>
    match s.sets.swap with
    | none => (s, ⟨5, 0, [], false⟩)
    | some w =>
      if swapUntouched w then
        (raise { s with sets := { s.sets with swap := none } } 0x0103 0 (if w.whole then 0 else low32 w.line), ⟨0, 0, [], false⟩)
      else (s, ⟨12, 0, [], false⟩))

/-- SET_STATUS (R426). -/
def execSetStatus (t : Nat) (ch : Fin 6) (tag : Nat) (s : State) : Host.Outcome State Fault Refusal :=
  .next (message (begin s t) ch 2 0x16 tag false false fun s => (s, ⟨0, 0, leBytes 16 (setStatus s), false⟩))

/-! ### HEAD messages -/

/-- Whether a head type record keeps its fields' ranges (R185, R206). -/
def typeOk (id : Nat) (r : HeadType) : Bool :=
  decide (id < 64) && (r.rows == 1 || r.rows == 2) && decide (1 ≤ r.phases) && decide (r.phases ≤ 16) &&
  decide (1 ≤ r.nozzles) && decide (r.nozzles ≤ 4096) && decide (r.phaseMode ≤ 1) &&
  decide (satSigned 16 r.shiftB = r.shiftB) && decide (satSigned 32 r.offsetB = r.offsetB) && decide (r.maxRate < 2 ^ 32) &&
  decide (satSigned 8 r.preheatMin = r.preheatMin) &&
  decide (r.volSmall < 65536) && decide (r.volMedium < 65536) && decide (r.volLarge < 65536)

/-- HEAD_TYPE (R185, R206). -/
def execHeadType (t : Nat) (ch : Fin 6) (tag id : Nat) (rec : HeadType) (s : State) : Host.Outcome State Fault Refusal :=
  .next (message (begin s t) ch 5 0x10 tag true false
    (shadowWrite (!typeOk id rec) fun c => { c with types := tableSet c.types id rec }))

/-- A row's channel field: 0 to 15, or 0xFF for an unused row (R186). -/
def rowField (x : Nat) : Option (Option Nat) := if x < 16 then some (some x) else if x = 255 then some none else none

/-- A placement record from its fields; none where R186 returns BAD_PARAM. -/
def placement (r : PlaceMsg) : Option Placement :=
  match rowField r.chanA, rowField r.chanB with
  | some a, some b =>
    if r.head < 512 ∧ r.hub < 24 ∧ r.port < 32 ∧ r.type < 64 ∧ r.mask < 16 ∧ r.flags < 4 ∧ r.first < 65536 ∧ r.last < 65536 ∧
        satSigned 32 r.x = r.x ∧ satSigned 32 r.y = r.y then
      some { hub := r.hub, port := r.port, type := r.type, chanA := a, chanB := b, desc := r.flags.testBit 0,
             maskEn := r.flags.testBit 1, x := r.x, first := r.first, last := r.last, y := r.y, mask := r.mask }
    else none
  | _, _ => none

/-- HEAD_PLACE (R186). -/
def execHeadPlace (t : Nat) (ch : Fin 6) (tag : Nat) (rec : PlaceMsg) (s : State) : Host.Outcome State Fault Refusal :=
  .next (message (begin s t) ch 5 0x11 tag true false
    (shadowWrite (placement rec).isNone fun c => match placement rec with
      | some p => { c with places := tableSet c.places rec.head p }
      | none => c))

/-- HEAD_ENERGY_TABLE (R208): eight entries of three bytes; a table that holds the reset values is not listed. -/
def execHeadEnergyTable (t : Nat) (ch : Fin 6) (tag type : Nat) (entries : List Nat) (s : State) :
    Host.Outcome State Fault Refusal :=
  let bad := decide (64 ≤ type) || entries.length != 8 || entries.any (2 ^ 24 ≤ ·)
  .next (message (begin s t) ch 5 0x12 tag true false (shadowWrite bad fun c =>
    { c with energy := if entries = energyReset then c.energy.filter (·.1 != type) else tableSet c.energy type entries }))

/-- HEAD_SUPPLY (R441): FIR_SUPPLY of a channel in the shadow set. -/
def execHeadSupply (t : Nat) (ch : Fin 6) (tag channel en hub slot : Nat) (s : State) : Host.Outcome State Fault Refusal :=
  let bad := decide (16 ≤ channel) || decide (1 < en) || decide (24 ≤ hub) || decide (16 ≤ slot)
  .next (message (begin s t) ch 5 0x13 tag true false (shadowWrite bad fun c =>
    { c with regs := bankWrite c.regs (regKey .FIR_SUPPLY channel 0) (en + 2 * hub + 64 * slot) }))

/-- HEAD_NOZZLE_STATE (R192, R441): nozzles set MASKED or cleared to OK, at a strip boundary or a pick boundary. -/
def execHeadNozzleState (t : Nat) (ch : Fin 6) (tag head row action first count : Nat) (s : State) :
    Host.Outcome State Fault Refusal :=
  .next (message (begin s t) ch 5 0x14 tag true false fun s =>
    if 512 ≤ head ∨ 1 < row ∨ 1 < action ∨ count = 0 ∨ 4096 < count ∨ 4096 < first + count then (s, ⟨4, 0, [], false⟩)
    else ((List.range count).foldl (fun s i => queueNozzle s false head (row == 1) (first + i) (3 * action)) s, ⟨0, 0, [], false⟩))

end Sys2Proof.Machine
end

