-- ==== Sys2Proof/Machine/Validate.lean ====
section
/-!
DEFINITION. SET.VALIDATE (R421, R422): the checks that the chapters bind to it, geometry first, then in the order of their
failure codes (log 35), and the reed table they leave in the shadow set (R188).
-/
namespace Sys2Proof.Machine

/-- The hubs that serve a head of a set. -/
def setHubs (c : CfgSet) : List Nat := (List.range 24).filter fun u => c.places.any fun p => p.2.hub == u

/-- The channels that have a head row in a set. -/
def setChannels (c : CfgSet) : List Nat := (List.range 16).filter fun ch => !(headRows c ch).isEmpty

/-- The first object that breaks a rule. -/
def firstBad (l : List Nat) (ok : Nat → Bool) (f : Nat → Failure) : Option Failure := (l.find? fun x => !ok x).map f

/-- FAIL 1: R19 and R276 at the group's configured width and rate. -/
def checkLoad (s : State) (c : CfgSet) : Option Failure :=
  firstBad (setHubs c) (fun u => loadOk c (fld s Fld.FL_HUB_RATE u) u (fld s Fld.FL_HUB_WIDTH u)) fun u => ⟨1, 2, u, 0, 0⟩

/-- FAIL 2: R259 against the LINE_DEPTH that the hub has declared. -/
def checkDepth (s : State) (c : CfgSet) : Option Failure :=
  let need := ceilDiv ((bankGet c.regs Fld.POS_LEAD_LEAD_TIME + 5) * bankGet c.regs Fld.POS_RATE_RATE_MAX) 1000000 + 2
  firstBad (setHubs c) (fun u => match (hubOf s u).info with | some i => decide (need ≤ i.lineDepth) | none => true)
    fun u => ⟨2, 2, u, 0, 0⟩

/-- The blocks of one PREHEAT_MASK of every row on a hub (R360). -/
def maskBlocks (c : CfgSet) (u : Nat) : Nat :=
  ((List.range 16).flatMap fun ch => (rowsOnHub c ch u).map fun r => ceilDiv (22 + ceilDiv (rowNozzles c r) 8) 8).sum

/-- FAIL 3: the switch margin of R360 in a pair, 4 µs and the packets' time within 20 µs. -/
def checkMargin (s : State) (c : CfgSet) : Option Failure :=
  if s.pair.role = .solo then none
  else firstBad (setHubs c) (fun u =>
    let k := ((List.range 16).map fun ch => blocks32 c ch u).sum + 32 * maskBlocks c u
    decide (64 * k * 1000000 ≤ 16 * 32 * (fld s Fld.FL_HUB_WIDTH u * lanePayload (fld s Fld.FL_HUB_RATE u) * 10000000)))
    fun u => ⟨3, 2, u, 0, 0⟩

/-- Whether a job has a line in an odd tile row (R173, R619), for tiles of `t` lines: in PASS mode the lines of its passes, whose places
within two tile rows repeat after 2 t passes. -/
def oddTileRow (s : State) (j : Job) (t : Nat) : Bool :=
  let hits (a b : Int) : Bool := decide ((if a / t % 2 = 1 then a else (a / t + 1) * t) ≤ b)
  let cut (b : Int) : Int := match j.last with | some l => min b (l - j.first) | none => b
  if t = 0 then false
  else if passMode s then
    (List.range (if j.passCount = 0 then 2 * t else Nat.min j.passCount (2 * t))).any fun k =>
      hits (k * passStride j : Nat) (cut ((k * passStride j : Nat) + (j.passLines : Int) - 1))
  else match j.last with
    | some l => decide ((t : Int) ≤ l - j.first)
    | none => true

/-- T of R619 for a channel of a set: the largest number of tile edges that a line of the running job crosses, else 0. -/
def edgesNow (s : State) (c : CfgSet) (ch : Nat) : Nat :=
  if inJob s ch then
    match jobImage s ch with
    | some m => maxTileEdges c ch s.job.rep m.width m.height (oddTileRow s s.job (m.height * scaleY s ch))
    | none => 0
  else 0

/-- R198 with T tile edges. -/
def costOk (c : CfgSet) (ch t : Nat) : Bool := decide (renderCost c ch t * rateLimit c ch ≤ 1000000000)

/-- FAIL 4: the render cost. -/
def checkCost (s : State) (c : CfgSet) : Option Failure :=
  firstBad (setChannels c) (fun ch => costOk c ch (edgesNow s c ch)) fun ch => ⟨4, 1, ch, 0, 0⟩

/-- FAIL 5: the line FIFO's cover (R199). -/
def checkFifo (c : CfgSet) : Option Failure :=
  firstBad (setChannels c) (fun ch => match fifoDepth c ch with
    | some f => decide (48000 * rateLimit c ch ≤ f * 1000000000)
    | none => true) fun ch => ⟨5, 1, ch, 0, 0⟩

/-- The nozzles in a channel's head rows. -/
def chanNozzles (c : CfgSet) (ch : Nat) : Nat := ((headRows c ch).map (rowNozzles c)).sum

/-- FAIL 6: the history store (R218). -/
def checkHistory (c : CfgSet) : Option Failure :=
  firstBad (List.range 16) (fun ch => !permitsHistory c ch ||
    decide ((((List.range (ch + 1)).filter (permitsHistory c)).map (chanNozzles c)).sum ≤ 1703936)) fun ch => ⟨6, 1, ch, 0, 0⟩

/-- FAIL 7: a channel on PREHEAT with a head type that does not accept pre-heat (R219). -/
def checkPreheat (c : CfgSet) : Option Failure :=
  ((List.range 16).filter fun ch => bankGet c.regs Fld.FIR_CFG_ENERGY_PATH ch == 0).findSome? fun ch =>
    ((headRows c ch).find? fun r => match setType c r.2.1.type with | some t => !t.preheatOk | none => false).map fun r =>
      ⟨7, 1, ch, 4, r.2.1.type⟩

/-- A cell keeps T1 ≤ T2 ≤ T3 (R183). -/
def cellOk (v : Nat) : Bool := decide (bitsOf v 0 8 ≤ bitsOf v 8 8) && decide (bitsOf v 8 8 ≤ bitsOf v 16 8)

/-- FAIL 8: the threshold order, over every cell that the set holds (R183, R184). -/
def checkCells (c : CfgSet) : Option Failure :=
  let lo := regKey .WFT_CELL 0 0
  (c.regs.find? fun e => decide (lo ≤ e.1) && decide (e.1 < regKey .WFT_CELL 16 0) && !cellOk e.2).map fun e =>
    ⟨8, 1, (e.1 - lo) / 131072, 0, (e.1 - lo) % 131072⟩

/-- FAIL 13: the drop volume order (R206). -/
def checkVolumes (c : CfgSet) : Option Failure :=
  (c.types.find? fun (_, t) => !(decide (t.volSmall ≤ t.volMedium) && decide (t.volMedium ≤ t.volLarge))).map fun (k, _) =>
    ⟨13, 4, k, 0, 0⟩

/-- FAIL 14: entry 0 of an energy table (R208). -/
def checkEnergy (c : CfgSet) : Option Failure :=
  (c.energy.find? fun (_, l) => nth l 0 0 % 256 != 0).map fun (k, _) => ⟨14, 4, k, 0, 0⟩

/-- FAIL 15: the band against LADDER_PERIOD; without slots there is no band to place (R316, R317). -/
def checkBand (c : CfgSet) : Option Failure :=
  let p := bankGet c.regs Fld.CLP_LSLOT_LADDER_PERIOD
  if p ≠ 0 ∧ p < ladderLines c then some ⟨15, 0, 0, 0, 0⟩ else none

/-- The enabled camera ports. -/
def portsOn (s : State) : List Nat := (List.range 2).filter (camOn s)

/-- FAIL 16: ROW_L against DASH for each enabled port of a set with ladders (R318). -/
def checkRows (s : State) (c : CfgSet) : Option Failure :=
  if ladderLines c = 0 then none
  else firstBad (portsOn s) (fun k =>
    decide (2 * rowPitch (bankGet c.regs Fld.POS_RATE_RATE_MAX) (rowBytes s k) ≤ bankGet c.regs Fld.CLP_LADDER_DASH))
    fun k => ⟨16, 5, k, 0, 0⟩

/-- The lowest BAR_OFFSET of a set. -/
def lowestBar (c : CfgSet) : Int :=
  (List.range 16).foldl (fun a ch => min a (signedOf 24 (bankGet c.regs Fld.POS_BAR_BAR_OFFSET ch)))
    (signedOf 24 (bankGet c.regs Fld.POS_BAR_BAR_OFFSET 0))

/-- The coverage traffic of R309, in bytes per second, for the enabled ports. -/
def coverTraffic (s : State) (c : CfgSet) : Rat :=
  let g := 2 ^ (bankGet c.regs Fld.CLP_CTRL_GROUP_SIZE + 1)
  ((portsOn s).map fun k =>
    let w := liveFld s Fld.CAM_GEOM_CAM_WIDTH k
    (bankGet c.regs Fld.POS_RATE_RATE_MAX : Rat) / (liveFld s Fld.CAM_FRAME_FRAME_SPACING k : Rat) *
      (128 * (w : Rat) + 720 * (w : Rat) / (g : Rat))).sum

/-- FAIL 17: the coverage records and their traffic (R309). -/
def checkCover (s : State) (c : CfgSet) : Option Failure :=
  let first := (portsOn s).headD 0
  match (portsOn s).find? fun k =>
      decide (14 * (liveFld s Fld.CAM_FRAME_FRAME_SPACING k : Int) <
        signedOf 24 (liveFld s Fld.CAM_OFF_CAM_OFFSET k) - lowestBar c) with
  | some k => some ⟨17, 5, k, 0, 0⟩
  | none => if 400000000 < coverTraffic s c ∨ !coverageFits s c then some ⟨17, 5, first, 0, 0⟩ else none

/-- FAIL 18: what may not change while a job runs (R71, R175). -/
def checkFixed (s : State) (c : CfgSet) : Option Failure :=
  let a := s.sets.active
  if !jobOn s then none
  else if [Fld.POS_SOURCE_PASS_MODE, Fld.POS_SOURCE_PRIMARY].any fun f => bankGet c.regs f 0 != bankGet a.regs f 0 then
    some ⟨18, 0, 0, 0, 0⟩
  else firstBad ((List.range 16).filter (inJob s)) (fun ch =>
    [Fld.WFT_CFG_INPUT_FORMAT, Fld.WFT_CFG_SCALE_X, Fld.WFT_CFG_SCALE_Y].all fun f => bankGet c.regs f ch == bankGet a.regs f ch)
    fun ch => ⟨18, 1, ch, 0, 0⟩

/-- FAIL 20: the tile's size (R184). -/
def checkTile (c : CfgSet) : Option Failure :=
  firstBad (List.range 16) (fun ch =>
    decide (bankGet c.regs Fld.WFT_SCREEN_TILE_W ch * bankGet c.regs Fld.WFT_SCREEN_TILE_H ch ≤ 8192)) fun ch => ⟨20, 1, ch, 0, 0⟩

/-- The first failing check after the geometry. -/
def failOf (s : State) (c : CfgSet) : Option Failure :=
  [checkLoad s c, checkDepth s c, checkMargin s c, checkCost s c, checkFifo c, checkHistory c, checkPreheat c, checkCells c,
    checkVolumes c, checkEnergy c, checkBand c, checkRows s c, checkCover s c, checkFixed s c, checkTile c].findSome? id

/-- The result code of a failure (R422). -/
def failResult (code : Nat) : Nat :=
  if code = 18 then 5 else if code ≤ 6 ∨ code = 11 ∨ code = 16 ∨ code = 17 then 6 else 4

/-- The reply to a failing SET.VALIDATE: the result names the first object (R412, R421). -/
def failReply (f : Failure) : MsgRes :=
  ⟨failResult f.code, f.kind * 2 ^ 20 + f.obj,
    leBytes 2 f.code ++ leBytes 1 f.kind ++ leBytes 1 f.kind2 ++ leBytes 4 f.obj ++ leBytes 4 f.obj2 ++ leBytes 4 0, false⟩

/-- LINE_COST of every channel with heads, as a check of R198 leaves it (R619). -/
def noteCosts (s : State) (c : CfgSet) (edges : Nat → Nat) (chs : List Nat) : State :=
  chs.foldl (fun s ch => setFld s Fld.WFT_FIFO_LINE_COST ch (satNat 16 (renderCost c ch (edges ch)))) s

/-- The action of SET.VALIDATE (R188, R416, R421): on success the reed table stands in the shadow set and event 0x0506 tells
its size. -/
def actValidate (s : State) : State × MsgRes :=
  if s.sets.swap.isSome then (s, ⟨5, 0, [], false⟩)
  else
    let c := s.sets.shadow
    match buildReed c (hubEnabled s) with
    | .error f => (s, failReply f)
    | .ok es =>
      let c := { c with reed := es }
      match failOf s c with
      | some f => (s, failReply f)
      | none =>
        let s := noteCosts { s with sets := { s.sets with shadow := c, validated := true } } c (edgesNow s c) (setChannels c)
        (raise s 0x0506 0 es.length, ⟨0, 0, leBytes 12 0 ++ leBytes 4 es.length, false⟩)

/-- SET_VALIDATE (R421). -/
def execSetValidate (t : Nat) (ch : Fin 6) (tag : Nat) (s : State) : Host.Outcome State Fault Refusal :=
  .next (message (begin s t) ch 2 0x13 tag true false actValidate)

end Sys2Proof.Machine
end

