-- ==== Sys2Proof/Machine/Job.lean ====
section
/-!
DEFINITION. The job (R434 to R440): its checks (R23, R165, R171, R175, R198, R252), its placement, pause, resume and stop.
-/
namespace Sys2Proof.Machine

/-! ### The checks of JOB.START -/

/-- The channels that a job names. -/
def jobChans (p : JobParams) : List Nat := (List.range 16).filter p.channels.testBit

/-- The image that a job names for a channel. -/
def paramImage (s : State) (p : JobParams) (c : Nat) : Option Image := findImage s (nth p.images c 0)

/-- The repeat descriptor of a job (R174). -/
def paramRepeat (p : JobParams) : Repeat := ⟨p.mode, p.originX, p.drop, p.shift, p.repeats⟩

/-- A field of JOB.START out of its range (R434, R174): a job names at least one channel (log 37). -/
def paramsBad (p : JobParams) : Bool :=
  decide (2 < p.originMode) || decide (3 < p.mode) || decide (p.channels % 2 ^ 16 = 0) || decide (2 ^ 16 ≤ p.channels) ||
  decide (2 ^ 48 ≤ p.firstLine) || decide (satSigned 32 p.originX ≠ p.originX)

/-- A channel without an image, or with one of another format (R434). -/
def imageBad (s : State) (p : JobParams) (c : Nat) : Bool :=
  match paramImage s p c with
  | none => true
  | some m => m.format != fld s Fld.WFT_CFG_INPUT_FORMAT c

/-- DROP and SHIFT within the image (R174), and in HALF_DROP a strip that a quarter of the buffer holds (R171). -/
def repeatBad (s : State) (p : JobParams) (c : Nat) : Bool :=
  match paramImage s p c with
  | none => true
  | some m =>
    (p.mode == 2 && ((p.drop != 0xFFFFFFFF && decide (m.height ≤ p.drop)) ||
      decide (131072 < Nat.min m.lps m.height * lineBytes m.format m.width))) ||
    (p.mode == 3 && p.shift != 0xFFFFFFFF && decide (m.width ≤ p.shift))

/-- The tile size of a channel in output pixels (R175). -/
def tileSize (s : State) (p : JobParams) (c : Nat) : Nat × Nat :=
  match paramImage s p c with
  | none => (0, 0)
  | some m => (m.width * (fld s Fld.WFT_CFG_SCALE_X c + 1), m.height * (fld s Fld.WFT_CFG_SCALE_Y c + 1))

/-- A strip of a channel's image that is not stored (R434). -/
def stripMissing (s : State) (p : JobParams) (c : Nat) : Bool :=
  match paramImage s p c with
  | none => true
  | some m => (List.range (imageStrips m)).any fun i => (findStrip s m.handle i).isNone

/-- R165 over the stored strips of a channel's image. -/
def costBad (s : State) (p : JobParams) (c : Nat) : Bool :=
  match paramImage s p c with
  | none => true
  | some m => (s.store.strips.filter (·.handle == m.handle)).any fun x =>
      costTooHigh s c x.cost (stripLines m x.index) (if p.mode = 2 then 2 else 1)

/-- The last line of a job from its first (R436). -/
def lastLine (s : State) (p : JobParams) : Option Int :=
  let tile : Nat := (tileSize s p ((jobChans p).headD 0)).2
  if p.lineCount ≠ 0 then some (p.firstLine + p.lineCount - 1)
  else if p.mode = 0 then some (p.firstLine + tile - 1)
  else if p.repeats ≠ 0 then some (p.firstLine + p.repeats * tile - 1)
  else none

/-- The job that JOB.START names. -/
def newJob (s : State) (p : JobParams) : Job :=
  { id := (s.job.id + 1) % 2 ^ 32, streamed := p.streamed, originMode := p.originMode, channels := p.channels,
    startGap := p.startGap, first := p.firstLine, lineCount := p.lineCount, rep := paramRepeat p, passLines := p.passLines,
    passStride := p.passStride, passCount := p.passCount, ingestRate := p.ingestRate,
    images := (List.range 16).map fun c => if p.channels.testBit c then nth p.images c 0 else 0, last := lastLine s p }

/-- T of R619 for a channel of the new job. -/
def paramEdges (s : State) (p : JobParams) (c : Nat) : Nat :=
  match paramImage s p c with
  | none => 0
  | some m => maxTileEdges (cfgOf s c) c (paramRepeat p) m.width m.height (oddTileRow s (newJob s p) (m.height * scaleY s c))

/-- The average compressed read rate of a channel at its rate limit, bytes per second (R23). -/
def readRate (s : State) (p : JobParams) (c : Nat) : Rat :=
  match paramImage s p c with
  | none => 0
  | some m =>
    let xs := s.store.strips.filter (·.handle == m.handle)
    let lines := (xs.map fun x => stripLines m x.index).sum * (fld s Fld.WFT_CFG_SCALE_Y c + 1)
    let bytes := (xs.map fun x => x.bytes.length).sum * (if p.mode = 2 then 2 else 1)
    if lines = 0 then 0 else (bytes : Rat) * (rateLimit (cfgOf s c) c : Rat) / (lines : Rat)

/-- R23: render reads, the allowances for cameras, scrub and accumulators, and the declared ingest, within 41 GB/s. -/
def bandwidthBad (s : State) (p : JobParams) : Bool :=
  decide (41000000000 < ((jobChans p).map (readRate s p)).sum + 3000000000 + 1000000 * (p.ingestRate : Rat))

/-- The highest line that the previous job sent or passed in any channel. -/
def previousHigh (s : State) : Int :=
  if s.job.id = 0 then -1
  else ((List.range 16).filter s.job.channels.testBit).foldl (fun a c => max a ((chan s c).next - 1)) (-1)

/-- The first failing check of JOB.START, in the order of log 37. -/
def startFails (s : State) (p : JobParams) : Option MsgRes :=
  let cs := jobChans p
  let hubs := (List.range 24).filter fun u => (List.range 16).any fun c => !(rowsOnHub (cfgOf s c) c u).isEmpty
  if s.sys.st ≠ .ready ∨ s.sets.swap.isSome then some ⟨5, 0, [], false⟩
  else if paramsBad p then some ⟨4, 0, [], false⟩
  else match cs.find? (imageBad s p) with
  | some c => some (named 4 1 c)
  | none =>
  match cs.find? (repeatBad s p), cs.find? fun c => tileSize s p c != tileSize s p (cs.headD 0) with
  | some c, _ => some (named 4 1 c)
  | _, some c => some (named 4 1 c)
  | none, none =>
  if p.originMode = 2 ∧ (p.firstLine : Int) ≤ previousHigh s then some ⟨4, 0, [], false⟩
  else match (if p.streamed then none else cs.find? (stripMissing s p)) with
  | some c => some (named 5 6 (nth p.images c 0))
  | none =>
  match hubs.find? fun u => (hubOf s u).state != 3 with
  | some u => some (named 5 2 u)
  | none =>
  match cs.find? (costBad s p), cs.find? fun c => !(headRows (cfgOf s c) c).isEmpty && !costOk (cfgOf s c) c (paramEdges s p c) with
  | some c, _ => some (named 6 1 c)
  | _, some c => some (named 6 1 c)
  | none, none => if bandwidthBad s p then some ⟨6, 0, [], false⟩ else none

/-! ### The start -/

/-- A channel at the start of a job: its next line is the first, its buffers and histories are empty, and its energy path is the
one that its set gives it (R219). -/
def startChan (s : State) (c : Nat) (first : Int) : State :=
  let s := setChan s c fun x =>
    { inkRem := x.inkRem, onHist := x.onHist, warmPicks := x.warmPicks, lostPick := x.lostPick, corrLost := x.corrLost,
      corrCopy := x.corrCopy.map fun y => { y with line := first },
      missedEv := x.missedEv, next := first, render := first, beyond := first, mainFrom := first }
  let cfg := cfgOf s c
  let path := bankGet cfg.regs Fld.FIR_CFG_ENERGY_PATH c
  let h := if path = 2 ∧ preheatOk cfg c then (chan s c).onHist else startPath cfg c
  setPathNow (setChan s c fun x => { x with onHist := h }) c h

/-- The origin of a job (R435): NOW places position at once, INDEX waits for a Z edge, KEEP leaves it. -/
def originOf (s : State) (mode : Nat) : State :=
  match mode with
  | 0 => placePosition s
  | 1 => { s with pos := { s.pos with indexWait := true } }
  | _ => s

/-- An accepted JOB.START (R413, R434, R435). -/
def beginJob (s : State) (p : JobParams) : State :=
  let s := noteCosts s (timeCfg s) (paramEdges s p) ((jobChans p).filter fun c => !(headRows (cfgOf s c) c).isEmpty)
  let s := { s with job := newJob s p, pos := { s.pos with indexWait := false } }
  let s := (jobChans p).foldl (fun s c => startChan s c p.firstLine) s
  let first : Int := p.firstLine
  let s := { s with colour := { s.colour with
    lastLadder := first, noSlot := false, bands := s.colour.bands.filter fun b => decide (first ≤ b.1), cov := [] } }
  let s := raise (setState s .armed) 0x0104 0 s.job.id
  checkEncoder ((jobChans p).foldl fillBuffers (originOf s p.originMode))

/-- JOB_START (R434). -/
def execJobStart (t : Nat) (ch : Fin 6) (tag : Nat) (p : JobParams) (s : State) : Host.Outcome State Fault Refusal :=
  .next (message (flushUpdate (begin s t)) ch 4 0x10 tag true false fun s =>
    match startFails s p with
    | some r => (s, r)
    | none => let s := beginJob s p; (s, ⟨0, 0, leBytes 4 s.job.id, false⟩))

/-! ### Pause, resume, stop, status -/

/-- The line or pass at which a JOB.PAUSE or JOB.STOP takes effect (R438): in PASS mode the end of the pass under way. -/
def chosenLine (s : State) (kind line : Nat) : Int :=
  if passMode s then s.pos.pass + 1 else if kind = 1 then (line % 2 ^ 48 : Nat) else unrendered s

/-- The line that the reply tells: in PASS mode the first of the next printing pass. -/
def toldLine (s : State) (kind line : Nat) : Int :=
  if passMode s then s.job.first + Int.ofNat ((s.job.passPrint + bit (passPrints s)) * passStride s.job)
  else chosenLine s kind line

/-- The reply of JOB.PAUSE and JOB.STOP: the line's low 20 bits in the detail, all 48 in the payload. -/
def lineReply (l : Int) : MsgRes := ⟨0, unsignedOf 20 l, leBytes 8 (unsignedOf 48 l), false⟩

/-- Whether a channel has begun to render the line named (R438). -/
def lineBegun (s : State) (kind line : Nat) : Bool :=
  !passMode s && kind == 1 && decide (Int.ofNat (line % 2 ^ 48) < unrendered s)

/-- JOB_PAUSE (R438). -/
def execJobPause (t : Nat) (ch : Fin 6) (tag kind line : Nat) (s : State) : Host.Outcome State Fault Refusal :=
  .next (message (flushUpdate (begin s t)) ch 4 0x11 tag true false fun s =>
    if s.sys.st ≠ .printing then (s, ⟨5, 0, [], false⟩)
    else if 1 < kind then (s, ⟨4, 0, [], false⟩)
    else if lineBegun s kind line then (s, ⟨12, 0, [], false⟩)
    else
      let told := toldLine s kind line
      (checkJob { s with job := { s.job with pauseAt := some (chosenLine s kind line) } }, lineReply told))

/-- D of R439 for a RESUME_GAP. -/
def resumeShift (s : State) (gap : Nat) : Int :=
  if passMode s then 0 else s.pos.hwm / 2 ^ 24 - (s.job.pauseAt.getD 0 + leastBar s - gap)

/-- JOB_RESUME (R439). -/
def execJobResume (t : Nat) (ch : Fin 6) (tag gap : Nat) (s : State) : Host.Outcome State Fault Refusal :=
  .next (message (flushUpdate (begin s t)) ch 4 0x12 tag true false fun s =>
    let d := resumeShift s gap
    if s.sys.st ≠ .paused then (s, ⟨5, 0, [], false⟩)
    else if d < 0 then (s, ⟨12, 0, [], false⟩)
    else
      let s := if d = 0 then s else restartFrames (shiftPosition s (-d * 2 ^ 24))
      let s := { s with job := { s.job with pauseAt := none, shift := s.job.shift + d } }
      let s := raise (setState s .armed) 0x0107 0 (satNat 32 d.toNat)
      (checkEncoder (((List.range 16).filter (inJob s)).foldl fillBuffers s), ⟨0, 0, [], false⟩))

/-- JOB_STOP (R413, R438): at once in ARMED and PAUSED, at the named line while printing. -/
def execJobStop (t : Nat) (ch : Fin 6) (tag kind line : Nat) (s : State) : Host.Outcome State Fault Refusal :=
  .next (message (flushUpdate (begin s t)) ch 4 0x13 tag true false fun s =>
    let told := toldLine s kind line
    if !jobOn s then (s, ⟨5, 0, [], false⟩)
    else if 1 < kind then (s, ⟨4, 0, [], false⟩)
    else if lineBegun s kind line then (s, ⟨12, 0, [], false⟩)
    else if s.sys.st = .printing then
      (checkJob { s with job := { s.job with stopAt := some (chosenLine s kind line) } }, lineReply told)
    else (toReady (endJob { s with pos := { s.pos with indexWait := false } } 2), lineReply told))

/-- POS_LINE (R33): the web-line position as a signed 40.24 number. -/
def posLine (s : State) : Nat := unsignedOf 64 s.pos.hwm

/-- LOWEST_NEXT of JOB.STATUS: the lowest next line of the channels used. -/
def lowestNext (s : State) : Int :=
  match ((List.range 16).filter s.job.channels.testBit).map fun c => (chan s c).next with
  | [] => 0
  | x :: xs => xs.foldl min x

/-- The reply of JOB.STATUS (R440). -/
def jobStatus (s : State) : List Byte :=
  leBytes 4 s.job.id ++ leBytes 1 (stateCode s.sys.st) ++ leBytes 1 s.job.endCause ++ leBytes 2 s.job.channels ++
  leBytes 8 (posLine s) ++ leBytes 8 (unsignedOf 48 s.job.first) ++ leBytes 8 (unsignedOf 48 (lowestNext s)) ++
  leBytes 8 (match s.job.last with | some l => unsignedOf 48 l | none => 2 ^ 48 - 1) ++
  leBytes 4 s.pos.pass ++ leBytes 4 (satNat 32 s.job.shift.toNat)

/-- JOB_STATUS (R440). -/
def execJobStatus (t : Nat) (ch : Fin 6) (tag : Nat) (s : State) : Host.Outcome State Fault Refusal :=
  .next (message (flushUpdate (begin s t)) ch 4 0x14 tag false false fun s => (s, ⟨0, 0, jobStatus s, false⟩))

end Sys2Proof.Machine
end

