-- ==== Sys2Proof/Machine/Time.lean ====
section
/-!
DEFINITION. Device time, network time, PPS and triggers (chapter 03).
-/
namespace Sys2Proof.Machine

/-- TIM_NOW_LO_READ (R76). -/
def execTimNowLoRead (t : Nat) (s : State) : Host.Outcome State Fault Refusal :=
  let s := begin s t
  let n := now s
  .next (emit { s with time := { s.time with nowHi := n / 2 ^ 32 % 2 ^ 32 } } (.value [n % 2 ^ 32]))

/-! ### Adjusting time -/

/-- INCR written with OFFSET re-based so that device time is continuous; none beyond 1,000 ppm (R79). -/
def setIncr (s : State) (n : Nat) : Option State :=
  if 1000 * 2 ^ 32 < 1000000 * ((n : Int) - 2 ^ 32).natAbs then none
  else some { s with time := { s.time with
    offset := s.time.offset + s.time.counter * ((s.time.incr : Int) - n), incr := n } }

/-- A slew of D ns, replacing what is left of the last (R80). -/
def startSlew (s : State) (d : Int) : State := { s with time := { s.time with slewLeft := d * 2 ^ 32, slewing := true } }

/-- A step of D ns accepted for the second boundary from now (R81). -/
def acceptStep (s : State) (d : Int) : State :=
  { s with time := { s.time with steps := s.time.steps ++ [⟨d, s.time.pick + 2⟩] } }

/-- SLEW_DONE (R80): the whole D has been applied and the rate returns to INCR. -/
def execSlewDone (t : Nat) (s : State) : Host.Outcome State Fault Refusal :=
  let s := begin s t
  .next (if s.time.slewLeft = 0 then { s with time := { s.time with slewing := false } } else s)

/-! ### Triggers -/

/-- A field of a trigger's registers. -/
def trigFld (s : State) (f : Field) (n : Nat) : Nat := liveFld s f n

/-- TIM_TRIGn_CTRL of a trigger. -/
def trigCtrl (s : State) (n : Nat) : Nat := bankReg s.live .TIM_TRIG_CTRL n 0

/-- A field of a TIM_TRIGn_CTRL word. -/
def ctrlFld (f : Field) (ctrl : Nat) : Nat := bitsOf ctrl f.lo f.width

/-- Whether a trigger target is an output edge (R95). -/
def outputTarget (g : Nat) : Bool := g == 1 || g == 2 || g == 6

/-- Whether a trigger rejects a late time: its LATE_POLICY, or its target's default (R95, R96). -/
def rejectsLate (s : State) (n : Nat) : Bool :=
  match trigFld s Fld.TIM_TRIG_CTRL_LATE_POLICY n with
  | 0 => outputTarget (trigFld s Fld.TIM_TRIG_CTRL_TARGET n)
  | p => p == 1

/-- Whether the lease holds back an occurrence with these settings (R101). -/
def leaseGated (s : State) (ctrl : Nat) : Bool :=
  outputTarget (ctrlFld Fld.TIM_TRIG_CTRL_TARGET ctrl) && ctrlFld Fld.TIM_TRIG_CTRL_LEASE_GATE ctrl == 1 &&
    (s.pair.role == .standby || !s.pair.lease)

/-- A trigger changed. -/
def setTrig (s : State) (n : Nat) (f : Trigger → Trigger) : State :=
  { s with time := { s.time with trigs := upd s.time.trigs n f } }

/-- A trigger of the module. -/
def trig (s : State) (n : Nat) : Trigger := nth s.time.trigs n {}

/-- The device time at which a pick begins or began, as the boundaries now lie: the present pick, the one before, or one to come. -/
def startOfPick (s : State) (k : Nat) : Nat :=
  if k < s.time.pick then s.time.prevStart
  else if k = s.time.pick then s.time.pickStart
  else s.time.nextBoundary + (k - s.time.pick - 1) * 100000

/-- The device time of a trigger's next occurrence (R97): with ALIGN_PICK it follows the boundary of its pick. -/
def occTime (s : State) (n : Nat) : Nat :=
  let g := trig s n
  if trigFld s Fld.TIM_TRIG_CTRL_ALIGN_PICK n = 1 then startOfPick s g.nextPick + trigFld s Fld.TIM_TRIG_TIME_TIME n % 100000
  else g.next

/-- Whether an occurrence of a trigger has come (R97), or a late one is to act (R96, R98). -/
def trigDue (s : State) (n : Nat) : Bool :=
  let g := trig s n
  g.armed && (g.lateDue || decide (occTime s n ≤ now s))

/-- Whether a trigger's next occurrence lies less than 200 ns ahead (R99). -/
def trigNear (s : State) (n : Nat) : Bool :=
  let g := trig s n
  g.armed && (g.lateDue || decide (occTime s n < now s + 200))

/-- Whether a trigger stays armed after an occurrence: it is periodic, and fewer than COUNT have acted (R97). -/
def staysArmed (s : State) (n acted : Nat) : Bool :=
  let c := trigFld s Fld.TIM_TRIG_COUNT_COUNT n
  trigFld s Fld.TIM_TRIG_PERIOD_PERIOD n != 0 && (c == 0 || decide (acted < c))

/-- `k` occurrences of a trigger have passed, and `acts` have acted: the next one follows, or the trigger is disarmed (R97). -/
def passOccurrences (s : State) (n k acts : Nat) : State :=
  let p := trigFld s Fld.TIM_TRIG_PERIOD_PERIOD n
  setTrig s n fun g =>
    { g with acted := g.acted + acts, next := g.next + k * p, nextPick := g.nextPick + k * (p / 100000),
             armed := staysArmed s n (g.acted + acts) }

/-- The occurrence that is due is used up, whether it acted or was held back by the lease (R97, R101). -/
def advanceTrigger (s : State) (n acts : Nat) : State :=
  if (trig s n).lateDue then passOccurrences (setTrig s n fun g => { g with lateDue := false }) n 0 acts
  else passOccurrences s n 1 acts

/-- The level of an output after an action: rise, fall, toggle, or a pulse, which ends low (R95). -/
def levelAfter (level : Bool) (action : Nat) : Bool :=
  match action with
  | 0 => true
  | 2 => !level
  | _ => false

/-- A GPIO_OUT trigger changes the OUT bit of its GPIO (R569), which the ball follows while it is an output of a unit that holds the
lease (R568). -/
def gpioEdge (s : State) (i action width : Nat) : State :=
  let v := liveFld s Fld.SYS_GPIO_OUT
  let low := if v.testBit i then v - 2 ^ i else v
  let s := setFld s Fld.SYS_GPIO_OUT 0 (if levelAfter (v.testBit i) action then low + 2 ^ i else low)
  if (liveFld s Fld.SYS_GPIO_DIR).testBit i && s.pair.lease then emit s (.trigger 2 i action width) else s

/-- A CAM_TRIG trigger changes the level of its camera port's trigger output. -/
def camEdge (s : State) (i action width : Nat) : State :=
  let level := levelAfter (nth s.time.camOut i false) action
  emit { s with time := { s.time with camOut := upd s.time.camOut i fun _ => level } } (.trigger 1 i action width)

/-- What an occurrence with these settings does to its target (R95): an edge or pulse goes out, doorbell bit 20 for DOORBELL or
NOTIFY, POS_CAPTURE latches count and web-line position. -/
def triggerOutput (s : State) (n ctrl : Nat) : State :=
  let g := ctrlFld Fld.TIM_TRIG_CTRL_TARGET ctrl
  let i := ctrlFld Fld.TIM_TRIG_CTRL_INDEX ctrl
  let action := ctrlFld Fld.TIM_TRIG_CTRL_ACTION ctrl
  let width := 8 * ctrlFld Fld.TIM_TRIG_CTRL_PULSE_WIDTH ctrl
  let s := if g = 1 then camEdge s i action width
    else if g = 2 then gpioEdge s i action width
    else if g = 5 then setTrig s n fun x => { x with capture := ((nth s.pos.enc i {}).count, s.pos.hwm) }
    else s
  if g = 6 ∨ ctrlFld Fld.TIM_TRIG_CTRL_NOTIFY ctrl = 1 then doorbell s 20 else s

/-- The occurrences that a forward step has passed (R98). Those of an ALIGN_PICK trigger follow the boundaries (R97). -/
def skippedCount (s : State) (n : Nat) : Nat :=
  let p := trigFld s Fld.TIM_TRIG_PERIOD_PERIOD n
  let g := trig s n
  if !g.armed || decide (now s ≤ g.next) || trigFld s Fld.TIM_TRIG_CTRL_ALIGN_PICK n == 1 then 0
  else if p = 0 then (if g.lateDue then 0 else 1) else (now s - g.next - 1) / p + 1

/-- R98 for one trigger after a forward step: a FIRE_NOW trigger is due at once, for all that it skipped. -/
def skipTrigger (s : State) (n : Nat) : State :=
  let m := skippedCount s n
  if m = 0 then s
  else if leaseGated s (trigCtrl s n) then passOccurrences s n m 0
  else if rejectsLate s n then
    let s := setTrig (passOccurrences s n m 0) n fun g => { g with skipped := g.skipped + m }
    raise (sticky s Fld.TIM_TRIG_STATUS_MISSED 0 n) 0x1007 n m
  else
    let s := setTrig (passOccurrences s n m 0) n fun g => { g with armed := true, lateDue := true }
    sticky s Fld.TIM_TRIG_STATUS_LATE 0 n

/-- A step of D ns applied now (R82, R83): device time moves, the next boundary is placed more than 20,000 ns ahead, triggers
passed are treated under R98. -/
def applyStep (s : State) (d : Int) : State :=
  let s := { s with time := { s.time with offset := s.time.offset + d * 2 ^ 32 } }
  let b := now s
  let s := { s with time := { s.time with prevStart := s.time.pickStart, pickStart := b, nextBoundary := ((b + 20000) / 100000 + 1) * 100000 } }
  let s := raise (sticky s Fld.TIM_STATUS_STEPPED) 0x1001 0 (sat32 d)
  if 0 < d then (List.range 8).foldl skipTrigger s else s

/-! ### Servo and lock -/

/-- The lock counters after a measurement (R84, R85). -/
def lockCounters (s : State) (err : Int) : State :=
  let lim := liveFld s Fld.TIM_LOCK_LOCK_LIMIT
  { s with time := { s.time with
    goodRun := if err.natAbs < lim then s.time.goodRun + 1 else 0
    badRun := if 4 * lim < err.natAbs then s.time.badRun + 1 else 0
    stepHeld := s.time.stepHeld && !decide (err.natAbs < lim)
    slewOnly := s.time.slewOnly && !(decide (err.natAbs < lim) && decide (7 ≤ s.time.goodRun))
    holdover := false, lastMeasure := s.time.counter } }

/-- PPS_OUT falls at once when PPS_GATE holds it low while LOCKED is 0 (R92). -/
def gatePps (s : State) : State :=
  if s.time.ppsOut.isSome && !s.time.locked && liveFld s Fld.TIM_PPS_PPS_GATE == 1 then
    emit { s with time := { s.time with ppsOut := none } } (.pps false)
  else s

/-- Lock is lost (R85). -/
def loseLock (s : State) : State :=
  let s := gatePps { s with time := { s.time with locked := false, relock := false } }
  raise (sticky s Fld.TIM_STATUS_LOCK_LOST) 0x1003 s.time.source (liveFld s Fld.TIM_ERROR_SERVO_ERROR)

/-- Lock declared after 8 good measurements, lost after 4 bad ones (R84, R85); PPS needs its second named (R91). A source that has
changed declares its own lock while LOCKED still stands (R86). -/
def judgeLock (s : State) : State :=
  if (!s.time.locked || s.time.relock) && decide (8 ≤ s.time.goodRun) && (s.time.source != 2 || s.time.ppsSecond.isSome) then
    raise { s with time := { s.time with locked := true, relock := false } } 0x1002 s.time.source (liveFld s Fld.TIM_ERROR_SERVO_ERROR)
  else if s.time.locked && decide (4 ≤ s.time.badRun) then loseLock s
  else s

/-- D held to the ±10 ms of a slew (R80). -/
def slewRange (d : Int) : Int := max (-10000000) (min d 10000000)

/-- The firmware servo's adjustment (R78, R81): not while the host owns the servo; a step needed while a job runs, or by a unit
that has taken over, is slewed (R94); a standby steps at once (R615). -/
def servoAdjust (s : State) (a : ServoAct) : State :=
  if liveFld s Fld.TIM_CTRL_SERVO_OWNER = 1 ∧ s.pair.role ≠ .standby then s
  else match a with
    | .none => s
    | .incr n => (setIncr s n).getD s
    | .slew d => startSlew s (slewRange d)
    | .step d =>
      if s.pair.role = .standby then applyStep s d
      else if jobOn s ∨ s.time.slewOnly then
        let s := startSlew s (slewRange d)
        { s with time := { s.time with stepHeld := s.time.stepHeld || jobOn s } }
      else acceptStep s d

/-- A measured error and what the servo does with it (R84, R85). -/
def takeMeasurement (s : State) (err : Int) (act : ServoAct) : State :=
  servoAdjust (judgeLock (lockCounters (setFld s Fld.TIM_ERROR_SERVO_ERROR 0 (sat32 err)) err)) act

/-- The oldest entry of a port's transmit queue read by the PTP stack (R89): the Follow_Up of a Sync or Pdelay_Resp carries its
time-stamp (R88). -/
def readTxStamp (s : State) (p : Nat) : State :=
  match nth s.time.txq p [] with
  | [] => s
  | e :: q =>
    let s := { s with time := { s.time with txq := upd s.time.txq p fun _ => q } }
    if e.ident.kind = 0 ∨ e.ident.kind = 3 then emit s (.followUp p e.ident e.stamp) else s

/-- The PTP stack reads a port's queue, oldest first, up to the entry of its exchange (R89). The second component tells whether the
entry was there: none is when its time-stamp was lost or discarded (R90). -/
def readExchange (s : State) (x : PtpExchange) : State × Bool :=
  match (nth s.time.txq x.port []).findIdx? (·.ident == x.ident) with
  | some i => ((List.range (i + 1)).foldl (fun s _ => readTxStamp s x.port) s, true)
  | none => (s, false)

/-- SERVO_MEASUREMENT (R84, R85, R90). Under SOURCE FREE there is no servo, and under SOURCE PPS the edges are the measurements (R91).
A measurement of an exchange that this unit began needs the exchange's time-stamp. -/
def execServoMeasurement (t : Nat) (err : Int) (act : ServoAct) (exch : Option PtpExchange) (s : State) :
    Host.Outcome State Fault Refusal :=
  let s := begin s t
  .next (if s.time.source = 0 ∨ s.time.source = 2 then s
    else match exch with
      | none => takeMeasurement s err act
      | some x =>
        let (s, found) := readExchange s x
        if found then takeMeasurement s err act else s)

/-- HOLDOVER_EXPIRE (R85): HOLDOVER_TIME has passed without a measurement. -/
def execHoldoverExpire (t : Nat) (s : State) : Host.Outcome State Fault Refusal :=
  let s := begin s t
  .next (if s.time.source = 0 ∨ s.time.counter < s.time.lastMeasure + liveFld s Fld.TIM_LOCK_HOLDOVER_TIME * 1000000000 then s
    else
      let s := { s with time := { s.time with holdover := true, goodRun := 0 } }
      if s.time.locked then loseLock s else s)

/-- The source in use changes (R86). -/
def changeSource (s : State) (src : Nat) : State :=
  if s.time.source = src then s
  else
    let prev := s.time.source
    raise { s with time := { s.time with source := src, relock := true, goodRun := 0, badRun := 0, lastMeasure := s.time.counter } } 0x1008 src prev

/-- The source the unit should follow: PARTNER as a standby, otherwise SOURCE in force (R86). -/
def wantedSource (s : State) : Nat := if s.pair.role = .standby ∧ s.pair.capable then 3 else fld s Fld.TIM_CTRL_SOURCE

/-! ### PTP and PPS -/

/-- Whether PTP runs on a port (R102). -/
def ptpPort (s : State) (p : Nat) : Bool := (fld s Fld.TIM_PTP_PORT_EN).testBit p

/-- A time-stamp on a port with its asymmetry correction (R87). -/
def ptpStamp (s : State) (p : Nat) : Nat := (now s + signedOf 16 (liveFld s Fld.TIM_ETH_ASYM_ASYM p)).toNat

/-- PTP_EVENT_RECEIVE (R87): Sync, Delay_Req, Pdelay_Req and Pdelay_Resp (kinds 0 to 3) are stamped on receipt. -/
def execPtpEventReceive (t : Nat) (port : Fin 2) (kind : Nat) (s : State) : Host.Outcome State Fault Refusal :=
  let s := begin s t
  .next (if ptpPort s port ∧ kind ≤ 3 then
    { s with time := { s.time with rxStamps := upd s.time.rxStamps port (fun _ => ptpStamp s port) } } else s)

/-- PTP_TX_TIMESTAMP (R89, R90): the stamp joins the queue, of which the PTP stack then reads the `reads` oldest entries (log 77). -/
def execPtpTxTimestamp (t : Nat) (port : Fin 2) (ident : PtpIdent) (reads : Nat) (s : State) : Host.Outcome State Fault Refusal :=
  let s := begin s t
  let q := nth s.time.txq port []
  .next (if !ptpPort s port then s
    else
      let s := if 16 ≤ q.length then
          let s := bump s Fld.TIM_TXQ_TXQ_LOST port
          raise (sticky s Fld.TIM_STATUS_TXQ_OVERFLOW) 0x1004 port (liveFld s Fld.TIM_TXQ_TXQ_LOST port)
        else { s with time := { s.time with txq := upd s.time.txq port (fun q => q ++ [⟨ident, ptpStamp s port, now s⟩]) } }
      (List.range reads).foldl (fun s _ => readTxStamp s port) s)

/-- TXQ_ENTRY_STALE (R90): entries unread for 100 ms are discarded and counted. -/
def execTxqEntryStale (t : Nat) (port : Fin 2) (s : State) : Host.Outcome State Fault Refusal :=
  let s := begin s t
  let isOld (e : TxStamp) : Bool := decide (e.arrived + 100000000 ≤ now s)
  let old := (nth s.time.txq port []).countP isOld
  let txq := upd s.time.txq port fun q => q.filter fun e => !isOld e
  .next (bump { s with time := { s.time with txq := txq } } Fld.TIM_TXQ_TXQ_STALE port old)

/-- The error that a PPS edge measures (R91): device time less the second named for it, or less the nearest whole second while none is
named (log 77). -/
def ppsError (s : State) : Int :=
  match s.time.ppsSecond with
  | some k => (now s : Int) - 1000000000 * k
  | none =>
    let r : Int := now s % 1000000000
    if r < 500000000 then r else r - 1000000000

/-- PPS_IN_EDGE (R91): the edge is stamped; the next is expected a second later and names the next TAI second. With SOURCE PPS the
edge is a measurement, and the servo answers it. -/
def execPpsInEdge (t : Nat) (act : ServoAct) (s : State) : Host.Outcome State Fault Refusal :=
  let s := begin s t
  let s := setFld s Fld.TIM_PPS_IN_TIME_PPS_IN_TIME 0 (now s)
  let err := ppsError s
  let s := if s.time.source = 2 then takeMeasurement s err .none else s
  let s := { s with time := { s.time with ppsExpected := some (now s + 1000000000)
                                          ppsSecond := s.time.ppsSecond.map (· + 1) } }
  .next (if s.time.source = 2 then servoAdjust s act else s)

/-- PPS_MISSING (R91): no edge within 1.1 s of the expected one, whatever the source. The edge expected next is a second after the
one that is missing (log 77). -/
def execPpsMissing (t : Nat) (s : State) : Host.Outcome State Fault Refusal :=
  let s := begin s t
  .next (match s.time.ppsExpected with
    | some e =>
      if e + 1100000000 ≤ now s then
        raise (sticky { s with time := { s.time with ppsExpected := some (e + 1000000000) } } Fld.TIM_STATUS_PPS_MISSING)
          0x1005 0 e
      else s
    | none => s)

/-- Whether device time is within 2 ns of a whole second (R92). -/
def atSecond (n : Nat) : Bool := decide (n % 1000000000 ≤ 2) || decide (999999998 ≤ n % 1000000000)

/-- PPS_OUT_PULSE (R92, R537): PPS_OUT falls when PPS_WIDTH has passed, and rises at a whole second unless PPS_GATE holds it low; it is low
in a start and in RECOVERY. -/
def execPpsOutPulse (t : Nat) (s : State) : Host.Outcome State Fault Refusal :=
  let s := begin s t
  .next (match s.time.ppsOut with
    | some f => if f ≤ s.time.counter then emit { s with time := { s.time with ppsOut := none } } (.pps false) else s
    | none =>
      if !serving s || s.sys.st == .recovery || !atSecond (now s) || (liveFld s Fld.TIM_PPS_PPS_GATE == 1 && !s.time.locked) then s
      else emit { s with time := { s.time with ppsOut := some (s.time.counter + 1000 * liveFld s Fld.TIM_PPS_PPS_WIDTH) } } (.pps true))

/-! ### TIM messages -/

/-- Whether the host may adjust time (R78). -/
def hostServo (s : State) : Bool := liveFld s Fld.TIM_CTRL_SERVO_OWNER == 1

/-- The action of TIM.SET_INCR (R78, R79). -/
def actSetIncr (n : Nat) (s : State) : State × MsgRes :=
  if !hostServo s then (s, ⟨5, 0, [], false⟩)
  else match setIncr s n with
    | some s => (s, ⟨0, 0, [], false⟩)
    | none => (s, ⟨4, 0, [], false⟩)

/-- TIM_SET_INCR (R79). -/
def execTimSetIncr (t : Nat) (ch : Fin 6) (tag incr : Nat) (s : State) : Host.Outcome State Fault Refusal :=
  .next (message (begin s t) ch 8 0x10 tag true false (actSetIncr incr))

/-- TIM_SLEW (R80): at most ±10 ms. -/
def execTimSlew (t : Nat) (ch : Fin 6) (tag : Nat) (d : Int) (s : State) : Host.Outcome State Fault Refusal :=
  .next (message (begin s t) ch 8 0x11 tag true false fun s =>
    if !hostServo s then (s, ⟨5, 0, [], false⟩)
    else if 10000000 < d.natAbs then (s, ⟨4, 0, [], false⟩)
    else (startSlew s d, ⟨0, 0, [], false⟩))

/-- TIM_STEP (R81). -/
def execTimStep (t : Nat) (ch : Fin 6) (tag : Nat) (d : Int) (s : State) : Host.Outcome State Fault Refusal :=
  .next (message (begin s t) ch 8 0x12 tag true false fun s =>
    if !hostServo s || jobOn s then (s, ⟨5, 0, [], false⟩) else (acceptStep s d, ⟨0, 0, [], false⟩))

/-- TIM_PPS_SECOND (R91). -/
def execTimPpsSecond (t : Nat) (ch : Fin 6) (tag second : Nat) (s : State) : Host.Outcome State Fault Refusal :=
  .next (message (begin s t) ch 8 0x13 tag true false fun s =>
    ({ s with time := { s.time with ppsSecond := some second } }, ⟨0, 0, [], false⟩))

/-- The highest INDEX of a trigger target (R95). -/
def targetIndexes (g : Nat) : Nat :=
  match g with
  | 1 => 2 | 2 => 16 | 3 => 8 | 4 => 16 | 5 => 2 | _ => 16

/-- The fields of a TIM.TRIG_SET that its rules refuse (R95, R97). -/
def trigBad (n ctrl period : Nat) : Bool :=
  let g := bitsOf ctrl 0 3
  decide (8 ≤ n) || decide (6 < g) || decide (targetIndexes g ≤ bitsOf ctrl 3 4) || bitsOf ctrl 9 2 == 3 ||
    (period != 0 && decide (period < 1000)) || (bitsOf ctrl 11 1 == 1 && period % 100000 != 0)

/-- The four registers of a trigger, OWNER unchanged (R102). -/
def writeTrig (s : State) (n ctrl time period count : Nat) : State :=
  let own := liveFld s Fld.TIM_TRIG_CTRL_OWNER n
  let live := bankWrite s.live (regKey .TIM_TRIG_CTRL n 0) (putBits ctrl 14 2 own)
  let live := bankSet (bankSet (bankSet live Fld.TIM_TRIG_TIME_TIME n time) Fld.TIM_TRIG_PERIOD_PERIOD n period)
    Fld.TIM_TRIG_COUNT_COUNT n count
  { s with live := live }

/-- A trigger armed at TIME (R97); with ALIGN_PICK it follows the pick that holds TIME. TARGET NONE arms nothing. Of a late FIRE_NOW
trigger the first occurrence acts at once, and each further one that lies in the past at a TRIGGER_ACT of its own (log 77). -/
def armTrig (s : State) (n : Nat) (late : Bool) : State :=
  let time := trigFld s Fld.TIM_TRIG_TIME_TIME n + (if late then trigFld s Fld.TIM_TRIG_PERIOD_PERIOD n else 0)
  setTrig s n fun g =>
    { g with armed := trigFld s Fld.TIM_TRIG_CTRL_TARGET n != 0, acted := 0, next := time, lateDue := late,
             nextPick := s.time.pick + (time - s.time.pickStart) / 100000 }

/-- An armed trigger after a WRITE of its registers (R6, R102, log 77): it follows them at once, from the first occurrence that does
not lie in the past. An idle trigger stays idle. -/
def rearmWritten (s : State) (n : Nat) : State :=
  let time := trigFld s Fld.TIM_TRIG_TIME_TIME n
  let p := trigFld s Fld.TIM_TRIG_PERIOD_PERIOD n
  let c := trigFld s Fld.TIM_TRIG_COUNT_COUNT n
  let next := if p = 0 then time else time + ceilDiv (now s - time) p * p
  setTrig s n fun g =>
    { g with armed := g.armed && (g.lateDue || ((p != 0 || decide (now s ≤ time)) && (c == 0 || decide (g.acted < c)) &&
               trigFld s Fld.TIM_TRIG_CTRL_TARGET n != 0)),
             next := next, nextPick := s.time.pick + (next - s.time.pickStart) / 100000 }

/-- The action of TIM.TRIG_SET (R96, R99, R101). A late FIRE_NOW trigger is due at once: its TRIGGER_ACT follows. The near occurrence
of the settings replaced stays to come under them. -/
def actTrigSet (n ctrl time period count : Nat) (s : State) : State × MsgRes :=
  if trigBad n ctrl period then (s, ⟨4, 0, [], false⟩)
  else if liveFld s Fld.TIM_TRIG_CTRL_OWNER n ≠ 0 then (s, ⟨6, 0, [], false⟩)
  else
    let s' := writeTrig s n ctrl time period count
    let late := decide (time < now s + 200) && bitsOf ctrl 0 3 != 0
    if late && rejectsLate s' n then (s, ⟨12, 0, [], false⟩)
    else
      let old := if trigNear s n then some ⟨Nat.max (now s) (occTime s n), trigCtrl s n⟩ else (trig s n).old
      let s := setTrig (armTrig s' n late) n fun g => { g with old := old }
      if late && !leaseGated s (trigCtrl s n) then
        (raise (sticky s Fld.TIM_TRIG_STATUS_LATE 0 n) 0x1006 n (now s - time), ⟨0, 0, [], false⟩)
      else (s, ⟨0, 0, [], false⟩)

/-- TIM_TRIG_SET (R96). -/
def execTimTrigSet (t : Nat) (ch : Fin 6) (tag trig ctrl time period count : Nat) (s : State) :
    Host.Outcome State Fault Refusal :=
  .next (message (begin s t) ch 8 0x14 tag true false (actTrigSet trig ctrl time period count))

/-- TIM_TRIG_CANCEL (R99). A trigger that a subsystem has claimed is not the host's to cancel. -/
def execTimTrigCancel (t : Nat) (ch : Fin 6) (tag trig : Nat) (s : State) : Host.Outcome State Fault Refusal :=
  .next (message (begin s t) ch 8 0x15 tag true false fun s =>
    if 8 ≤ trig then (s, ⟨4, 0, [], false⟩)
    else if liveFld s Fld.TIM_TRIG_CTRL_OWNER trig ≠ 0 then (s, ⟨5, 0, [], false⟩)
    else if trigNear s trig then (s, ⟨12, 0, [], false⟩)
    else (setTrig s trig fun g => { g with armed := false }, ⟨0, 0, [], false⟩))

end Sys2Proof.Machine
end

