-- ==== Sys2Proof/Machine/Record.lean ====
section
/-!
DEFINITION. The pick record (R336 to R340, R500, R580, R607, R613, R616): what the active puts into it, what the standby takes
from it, and the lease that a record renews (R346 to R349, R352, R354).
-/
namespace Sys2Proof.Machine

/-! ### Which registers travel (R337, R607) -/

/-- The subsystems whose fields belong to each unit alone: BAR0, PAIR, SEC, THM, PWR, RST, MBX and CAL (R341, R607). -/
def ownCodes : List Nat := [0, 0x0B, 0x0C, 0x0D, 0x0E, 0x0F, 0x11, 0x12]

/-- A register that the host writes and whose changes the record carries. -/
def hostReg (r : Reg) : Bool :=
  !(regInfo r).isSet && (regFields r).any (·.acc == .rw) && !ownCodes.contains (regInfo r).code

/-- The fired, missed, dropped and shed counters. -/
def counterReg (r : Reg) : Bool :=
  [Reg.POS_MISSED, .POS_SHED, .POS_DROP, .POS_PSHORT, .FL_SHED, .FL_UNACKED, .FL_RESTRIPE, .MOT_LATCH, .MOT_STALLS].contains r

/-- The registers of the consumable account (R233). -/
def consReg (r : Reg) : Bool :=
  [Reg.FIR_HEAD_TOTAL, .FIR_HEAD_PENDING, .FIR_HEAD_SEQ, .FIR_INK_TOTAL, .FIR_INK_PENDING, .FIR_INK_SEQ].contains r

/-- The registers whose W1C bits the record carries (R607). -/
def stickyReg (r : Reg) : Bool :=
  (regFields r).any (·.acc == .w1c) && (r == .FAULT_SUMMARY || !ownCodes.contains (regInfo r).code)

/-- The FAULT_SUMMARY bits that gather a unit's own registers: 11 to 15, 17 and 18 (R607), as the field numbers them from 1. -/
def ownSummary : Nat := ([11, 12, 13, 14, 15, 17, 18].map fun k => 2 ^ (k - 1)).sum

/-- The bits of a sticky register that travel: its W1C fields, without a unit's own summary bits. -/
def stickyBits (k : Nat) (v : Nat) : Nat :=
  match regList[k / (8192 * 131072)]? with
  | some r =>
    let v := (regFields r).foldl (fun a f => if f.acc == .w1c then a + bitsOf v f.lo f.width * 2 ^ f.lo else a) 0
    if r = .FAULT_SUMMARY then
      let own := ownSummary * 2 ^ Fld.FAULT_SUMMARY_SUBSYSTEM.lo
      v - (v &&& own)
    else v
  | none => 0

/-- A bank with the registers that `keep` names taken from another. -/
def bankTake (b new : Bank) (keep : Reg → Bool) : Bank :=
  (bankKeep new keep).foldl (fun b x => bankWrite b x.1 x.2) (bankKeep b fun r => !keep r)

/-! ### The parts of a record -/

/-- The host part. -/
def hostPart (s : State) : HostPart :=
  { sets := s.sets, images := s.store.images, nextHandle := s.store.nextHandle, job := s.job, state := s.sys.st,
    live := bankKeep s.live hostReg, profiles := s.vision.cams.map (·.profile), whites := s.vision.cams.map (·.whiteNo),
    bands := s.colour.bands, lastLadder := s.colour.lastLadder, trigs := s.time.trigs, recent := s.host.chans.map (·.recent) }

/-- The position part: the count and position sampled at the boundary (R616). -/
def posPart (s : State) : PosPart :=
  { pos := s.pos.pos, hwm := s.pos.boundaryHwm, pass := s.pos.pass, passFwd := s.pos.passFwd, frozen := s.pos.frozen,
    source := s.pos.source, count := s.pos.boundaryCount, countPos := s.pos.boundaryPos,
    next := s.print.chans.map (·.next), placed := s.pair.placed }

/-- The ACK_TIME of the last HUB_ACK counted for each hub. -/
def ackTimesNow (s : State) : List (Nat × Nat) :=
  ((List.range 24).filter fun u => (hubOf s u).lastAck != 0).map fun u => (u, (hubOf s u).ackTime)

/-- The counter part. -/
def counterPart (s : State) : Bank × List (Nat × Nat) := (bankKeep s.live counterReg, ackTimesNow s)

/-- The consumable part. -/
def consPart (s : State) : Bank × List Element := (bankKeep s.live consReg, s.print.elements)

/-- The sticky registers as they stand. -/
def stickyNow (s : State) : Bank := bankKeep s.live stickyReg

/-- The sticky registers that a record describes: as step 1 of the boundary sampled them (R17), or as they stand for a record sent
outside a boundary. -/
def stickySampled (s : State) : Bank := s.pair.sampled.getD (stickyNow s)

/-- The W1C bits set since a bank was taken and those cleared. -/
def stickyDelta (old new : Bank) : List (Nat × Nat) × List (Nat × Nat) :=
  let keys := ((old.map (·.1)) ++ (new.map (·.1))).dedup
  let was (k : Nat) : Nat := stickyBits k (bankLookup old k)
  let is' (k : Nat) : Nat := stickyBits k (bankLookup new k)
  ((keys.map fun k => (k, is' k - (is' k &&& was k))).filter (·.2 != 0),
   (keys.map fun k => (k, was k - (is' k &&& was k))).filter (·.2 != 0))

/-- A part that changed since the last record, or the marker of one that did not. -/
def changed {α : Type} [DecidableEq α] (x : α) (base : Option α) : Option α := if base = some x then none else some x

/-- The record of the pick under way (R337), with a RELEASE code or as a flush record. -/
def makeRecord (s : State) (release : Option Nat) (flush : Bool) : PickRecord :=
  let b := s.pair.base
  let (set, clear) := stickyDelta b.sticky (stickySampled s)
  let events := s.host.queued.drop s.pair.sentEvents
  let p := s.print
  { pick := s.time.pick, epoch := liveFld s Fld.PAIR_EPOCH_EPOCH, leaseUntil := s.pair.leaseUntil, release := release,
    handover := s.pair.handover, handHub := s.pair.handHub, flush := flush,
    parts :=
      { host := changed (hostPart s) b.host, position := changed (posPart s) b.position, counters := changed (counterPart s) b.counters,
        cons := changed (consPart s) b.cons,
        corr := if p.sendBlocks.isEmpty && p.sendNozzles.isEmpty && p.sendPaths.isEmpty then none
          else some (p.sendBlocks, p.sendNozzles, p.sendPaths),
        sticky := if set.isEmpty && clear.isEmpty && events.isEmpty then none else some (set, clear, events),
        motion := changed s.mot b.motion, steps := s.time.steps } }

/-- A record sent; what it carried is the base of the next. -/
def sendRecord (s : State) (release : Option Nat) (flush : Bool) : State :=
  let r := makeRecord s release flush
  let base : SentBase := { host := some (hostPart s), position := some (posPart s), counters := some (counterPart s),
                           cons := some (consPart s), sticky := stickySampled s, motion := some s.mot }
  let s := { s with print := { s.print with sendBlocks := [], sendNozzles := [], sendPaths := [] } }
  countKeyed <| toPeer { s with pair := { s.pair with
    base := base, sentRecs := lastN 64 (s.pair.sentRecs ++ [r]), sentEvents := s.host.queued.length, placed := false } } (.record r)

/-! ### The lease (R346, R347, R349, R352, R354) -/

/-- The unit ceases to hold the lease with a cause: its outputs are at rest, PAIR_LEASE is low, event 0x0B02, doorbell 18. -/
def loseLease (s : State) (cause : Nat) : State :=
  if !s.pair.lease then s
  else
    let s := (List.range 8).foldl (fun s n => if axisMoves (axis s n) then emit s (.step n []) else s) s
    let s := emit { s with pair := { s.pair with lease := false, cut := none } } (.pin "PAIR_LEASE" false)
    doorbell (raise s 0x0B02 (unitNo s) cause) 18

/-- The active releases the lease with a fault code (R352): outputs at rest, STANDBY forced, a record with RELEASE. -/
def releaseLease (s : State) (code : Nat) : State :=
  if s.pair.role ≠ .active ∨ !s.pair.lease then s
  else
    let s := loseLease (sticky { s with pair := { s.pair with forceStandby := true } } Fld.PAIR_STATUS_RELEASED) 3
    sendRecord s (some code) false

/-- The unit takes the STANDBY role: it follows the partner's time and copies its state again. -/
def toStandby (s : State) : State :=
  let s := { s with pair := { s.pair with
    role := .standby, synced := false, stage := 0, lastRec := none, applied := false, waiting := [], handover := none,
    handHub := none, handMsg := none, released := none, refused := false, partnerSynced := false, partnerReady := false, gaps := [],
    hbRun := !s.thm.tripped } }
  let s := doorbell s 18
  changeSource s (wantedSource s)

/-- A unit sees a higher epoch, or as unit B the same (R331, R354): it gives up the lease it holds and becomes STANDBY. -/
def supersede (s : State) (epoch : Nat) : State :=
  if s.pair.lease then
    raise (toStandby (sticky (loseLease s 4) Fld.PAIR_STATUS_SUPERSEDED)) 0x0B0F (unitNo s) epoch
  else toStandby s

/-- TAKEOVER_READY (R345, R338, R367, R550, R581). -/
def takeoverReady (s : State) : Bool :=
  s.pair.role == .standby && s.pair.synced && decide (liveFld s Fld.PAIR_CTRL_HEALTH_MIN ≤ s.pair.score) && s.pair.waiting.isEmpty &&
    !(s.store.retries.any fun r => decide (3 ≤ r.fails)) && !(s.pwr.stopped && s.pwr.warning) && !s.thm.standbyStop

/-! ### Applying a record (R338) -/

/-- A swap begun on the standby, with none of its channels changed. -/
def freshSwap (w : Swap) : Swap := { point := w.point, line := w.line, whole := w.whole }

/-- The configuration sets of a record: the standby swaps in its own channels, so a swap under way goes on, one that the record no
longer knows is cancelled or completed, and one that it newly names begins. -/
def applySets (s : State) (r : SetsSt) : State :=
  let same : Bool := match s.sets.swap, r.swap with
    | some o, some w => o.point == w.point && o.line == w.line && o.whole == w.whole && s.sets.seq == r.seq
    | _, _ => false
  let s := if s.sets.swap.isSome && !same then
      (if r.swap.isNone && s.sets.seq = r.seq then { s with sets := { s.sets with swap := none } } else changeAll s)
    else s
  let s := if s.sets.swap.isNone && s.sets.active != r.active then
      changeAll { s with sets := { s.sets with shadow := r.active, swap := some { point := 0, line := 0, whole := true } } }
    else s
  let begin' : Option Swap := match s.sets.swap, r.swap with
    | none, some w => if s.sets.seq = r.seq then some (freshSwap w) else none
    | o, _ => o
  { s with sets := { s.sets with shadow := r.shadow, validated := r.validated, point := r.point, line := r.line, swap := begin' } }

/-- The job and device state of a record: a job new to the standby starts in its channels, one that has ended stops fetching. -/
def applyJob (s : State) (j : Job) (st : SysSt) (next : List Int) : State :=
  let was := jobOn s
  let fresh' : Bool := j.id != s.job.id
  let s := if fresh' then
      let s := { stopFetch s with job := j, sets := { s.sets with prior := [] } }
      ((List.range 16).filter j.channels.testBit).foldl (fun s c => startChan s c (nth next c j.first)) s
    else { s with job := { j with passPrint := s.job.passPrint } }
  let s := if s.sys.st = st then s else doorbell { s with sys := { s.sys with st := st } } 24
  if jobOn s then (if fresh' then ((List.range 16).filter j.channels.testBit).foldl fillBuffers s else s)
  else if was then stopFetch s else s

/-- A camera port's profile and white resets of a record (R301, R307). -/
def applyCamera (s : State) (h : HostPart) (k : Nat) : State :=
  let p := cam s k
  let profile := nth h.profiles k []
  let n := nth h.whites k 0
  setCam s k fun _ => { p with
    profile := profile, whiteNo := n, white := if n = p.whiteNo then p.white else [],
    gains := if profile = p.profile then p.gains else List.replicate 4 (leAt profile 10 2) }

/-- The time triggers of a record: one that the host has set, written or cancelled at the active is set so here; the others go on by
themselves. -/
def takeTrigs (s : State) (h : HostPart) : List Trigger :=
  (List.range 8).map fun n =>
    let own := nth s.time.trigs n {}
    let his := nth h.trigs n {}
    let set : Bool := [Reg.TIM_TRIG_CTRL, .TIM_TRIG_TIME, .TIM_TRIG_PERIOD, .TIM_TRIG_COUNT].any fun r =>
      bankReg s.live r n 0 != bankReg h.live r n 0
    if set ∨ (own.armed ≠ his.armed ∧ own.acted ≤ his.acted) then his else own

/-- The host part of a record applied. -/
def applyHost (s : State) (h : HostPart) (next : List Int) : State :=
  let s := applyCamera (applyCamera s h 0) h 1
  let s := { s with time := { s.time with trigs := takeTrigs s h },
                    colour := { s.colour with bands := h.bands, lastLadder := h.lastLadder } }
  let on0 := camOn s 0
  let on1 := camOn s 1
  let s := { s with live := bankTake s.live h.live hostReg }
  let s := adoptCamera (adoptCamera s 0 on0) 1 on1
  let known (x : Strip) : Bool := h.images.any (·.handle == x.handle)
  let s := { s with store := { s.store with images := h.images, nextHandle := h.nextHandle, strips := s.store.strips.filter known } }
  let chans := (List.range s.host.chans.length).map fun k => { mbx s k with recent := nth h.recent k [] }
  applyJob (applySets { s with host := { s.host with chans := chans } } h.sets) h.job h.state next

/-- The position part applied (R616): at the first record and after a placement the position is related to the standby's own
count; otherwise the high-water marks are compared (R342). -/
def applyPosition (s : State) (p : PosPart) (compare : Bool) : State :=
  if !s.pair.applied ∨ p.placed then
    let s := { s with pos := { s.pos with source := p.source, pass := p.pass, passFwd := p.passFwd, frozen := p.frozen } }
    let s := shiftPosition s (p.countPos - s.pos.boundaryPos)
    let top := if returning s then min s.pos.pos p.hwm else max s.pos.pos p.hwm
    let lpc := linesPerCount s s.pos.source
    let depth := if lpc = 0 then 0 else ((top - s.pos.pos).natAbs + lpc.toNat - 1) / lpc.toNat
    let s := { s with pos := { s.pos with hwm := top, depth := depth }, pair := { s.pair with placed := false } }
    restartFrames s
  else if compare ∧ 2 ^ 24 < (p.hwm - s.pos.boundaryHwm).natAbs then mismatch s 0 (p.hwm / 2 ^ 24)
  else s

/-- The counters applied, with the acknowledgements that the active has counted: the standby's copies of them settle its lines
without counting (R355). -/
def applyCounters (s : State) (x : Bank × List (Nat × Nat)) : State :=
  let old (a : Nat × HubAck) : Bool := match x.2.find? (·.1 == a.1) with | some y => decide (a.2.ackTime ≤ y.2) | none => false
  let due := s.link.acks.filter old
  let s := { s with live := bankTake s.live x.1 counterReg, pair := { s.pair with ackTimes := x.2 },
                    link := { s.link with acks := s.link.acks.filter fun a => !old a } }
  checkJob (due.foldl (fun s a => readAck s a.1 a.2 false) s)

/-- Whether the last reply of every element of a record is signed by it and gives the total and SEQ that the record carries
(R500). -/
def consSigned (x : Bank × List Element) : Bool :=
  x.2.all fun e => e.lastRecord.isEmpty ||
    (Config.sigOk (Config.certKey e.cert) e.lastRecord e.lastSig &&
      leAt e.lastRecord 12 4 == bankGet x.1 (elemRegs e.key).2.2.1 (elemRegs e.key).2.2.2 &&
      leAt e.lastRecord 24 8 == bankGet x.1 (elemRegs e.key).2.1 (elemRegs e.key).2.2.2)

/-- W1C bits set and cleared as the active did (R607), with the standby's doorbell 19 for a summary bit newly set. -/
def applySticky (s : State) (set clear : List (Nat × Nat)) : State :=
  let was := liveFld s Fld.FAULT_SUMMARY_SUBSYSTEM
  let b := set.foldl (fun b x => bankWrite b x.1 (bankLookup b x.1 ||| x.2)) s.live
  let b := clear.foldl (fun b x => bankWrite b x.1 (bankLookup b x.1 - (bankLookup b x.1 &&& x.2))) b
  let s := set.foldl (fun s x => noteSet s x.1 x.2) { s with live := b }
  let is' := liveFld s Fld.FAULT_SUMMARY_SUBSYSTEM
  let rung := (List.range 19).any fun k => is'.testBit k && !was.testBit k && !(liveFld s Fld.FAULT_MASK_MASK).testBit (k + 1)
  if rung then doorbell s 19 else s

/-- The motion part applied: the standby keeps the levels at its own inputs (R475). -/
def applyMotion (s : State) (m : MotSt) : State :=
  let axes := (List.range 8).map fun n =>
    let own := axis s n
    { nth m.axes n {} with limP := own.limP, limN := own.limN, home := own.home, flt := own.flt, shorts := own.shorts, held := own.held }
  { s with mot := { m with axes := axes } }

/-- A part applied unless a later one has been: its number in `partAt`, the pick, and the application. -/
def applyPart {α : Type} (s : State) (n pick : Nat) (x : Option α) (f : State → α → State) : State :=
  match x with
  | none => s
  | some v => if nth s.pair.partAt n 0 ≤ pick then
      f { s with pair := { s.pair with partAt := upd s.pair.partAt n fun _ => pick } } v else s

/-- The changes of a record (R180, R192, R221): they wait for their boundaries; those that the active applied at the boundary that
ended the record's pick are applied. -/
def takeChanges (s : State) (bs : List CorrBlock) (ns : List NozzleChange) (ps : List PathChange) : State :=
  let s := bs.foldl takeBlock s
  pickNozzles { s with print := { s.print with nozzles := s.print.nozzles ++ ns, paths := s.print.paths ++ ps } }

/-- Every part of a record applied (R338). -/
def applyParts (s : State) (r : PickRecord) : State :=
  let next := match r.parts.position with | some p => p.next | none => []
  let compare : Bool := (s.pair.synced || s.pair.stage == 5) && !r.flush
  let s := applyPart s 0 r.pick r.parts.host fun s h => applyHost s h next
  let s := applyPart s 1 r.pick r.parts.position fun s p =>
    applyPosition { s with pair := { s.pair with recNext := p.next } } p compare
  let s := applyPart s 2 r.pick r.parts.counters applyCounters
  let s := applyPart s 3 r.pick r.parts.cons fun s x =>
    { s with live := bankTake s.live x.1 consReg, print := { s.print with elements := x.2 } }
  let s := match r.parts.corr with
    | some (b, n, p) => takeChanges s b n p
    | none => s
  let s := match r.parts.sticky with
    | some (a, b, es) => es.foldl logEvent (applySticky s a b)
    | none => s
  let s := applyPart s 4 r.pick r.parts.motion applyMotion
  let s := applyPart s 5 r.pick (some r.parts.steps) fun s x => { s with time := { s.time with steps := x } }
  { s with pair := { s.pair with applied := true } }

end Sys2Proof.Machine
end

