-- ==== Sys2Proof/Machine/Pair.lean ====
section
/-!
DEFINITION. Pairing (chapter 10): the peer link and the heartbeat, pick records and their acknowledgements, taking over, handover,
resynchronisation, and the PAIR messages.
-/
namespace Sys2Proof.Machine

/-- Two picks of device time. -/
def twoPicks : Nat := 200000

/-! ### What the partner shows (R333, R334, R361) -/

/-- Degraded operation begins (R361): 1 the peer link, 2 the heartbeat. -/
def degrade (s : State) (which : Nat) : State := raise (sticky s Fld.PAIR_STATUS_DEGRADED) 0x0B06 (unitNo s) which

/-- A valid item has arrived from the partner: the peer link is up again (R333, R361). -/
def peerSeen (s : State) : State :=
  let was := s.pair.degPeer
  let s := { s with pair := { s.pair with peerUp := true, peerLast := now s, degPeer := false } }
  if was then raise s 0x0B07 (unitNo s) 1 else s

/-- PEER_LINK_LOST (R333, R361, R400): with the heartbeat alive both units are degraded and a standby loses SYNCED. -/
def execPeerLinkLost (t : Nat) (s : State) : Host.Outcome State Fault Refusal :=
  let s := begin s t
  .next (if !s.pair.capable ∨ !s.pair.peerUp ∨ now s < s.pair.peerLast + twoPicks then s
    else
      let s := releaseLocks { s with pair := { s.pair with peerUp := false } } 2
      if now s < s.pair.hbLast + twoPicks then
        let s := degrade { s with pair := { s.pair with degPeer := true } } 1
        if s.pair.role = .standby then { s with pair := { s.pair with synced := false, stage := 0 } }
        else { s with pair := { s.pair with partnerSynced := false, partnerReady := false } }
      else s)

/-- HEARTBEAT_IN_EDGE (R334, R361, R362). -/
def execHeartbeatInEdge (t : Nat) (s : State) : Host.Outcome State Fault Refusal :=
  let s := begin s t
  .next (if !s.pair.capable then s
    else
      let was := s.pair.degHb
      let s := { s with pair := { s.pair with hbOk := true, hbLast := now s, degHb := false, partnerLost := false } }
      if was then raise s 0x0B07 (unitNo s) 2 else s)

/-- HEARTBEAT_STATIC (R334, R361): while records arrive, the heartbeat alone has failed. -/
def execHeartbeatStatic (t : Nat) (s : State) : Host.Outcome State Fault Refusal :=
  let s := begin s t
  .next (if !s.pair.capable ∨ !s.pair.hbOk ∨ now s < s.pair.hbLast + twoPicks then s
    else
      let s := { s with pair := { s.pair with hbOk := false } }
      if s.pair.peerUp ∧ now s < s.pair.peerLast + 100000 then degrade { s with pair := { s.pair with degHb := true } } 2 else s)

/-! ### Held replies (R339) -/

/-- A reply that was held goes out, with SINGLE when no partner holds the change. -/
def letGo (single : Bool) (upTo : Nat) (f : Flight) : Flight :=
  match f.hold with
  | some p => if p ≤ upTo then { f with hold := none, reply := f.reply.map fun r => { r with single := single } } else f
  | none => f

/-- Held replies of the picks up to one released, on every channel. -/
def releaseHeld (s : State) (single : Bool) (upTo : Nat) : State :=
  (List.range 6).foldl (fun s k => pump (setMbx s k fun m => { m with flight := m.flight.map (letGo single upTo) }) k) s

/-- PARTNER_LOST (R362): neither acknowledgements nor heartbeat edges for 2 picks; the active prints on alone. -/
def execPartnerLost (t : Nat) (s : State) : Host.Outcome State Fault Refusal :=
  let s := begin s t
  .next (if s.pair.role ≠ .active ∨ !s.pair.lease ∨ s.pair.partnerLost ∨ now s < s.pair.ackAt + twoPicks ∨
      now s < s.pair.hbLast + twoPicks then s
    else
      let s := { s with pair := { s.pair with partnerLost := true, partnerSynced := false, partnerReady := false } }
      let s := raise (sticky s Fld.PAIR_STATUS_PARTNER_LOST) 0x0B08 (unitNo s) s.pair.ackPick
      releaseHeld s true s.time.pick)

/-! ### Handover (R357) -/

/-- A handover ends without being carried out: PAIR.HANDOVER returns DENIED_PAIR. -/
def refuseHandover (s : State) : State :=
  let msg := s.pair.handMsg
  let s := { s with pair := { s.pair with handover := none, handHub := none, handMsg := none } }
  match msg with
  | some (k, tag) => answer s k tag true ⟨13, 0, [], false⟩
  | none => s

/-- The partner has accepted a handover: PAIR.HANDOVER returns OK. -/
def acceptHandover (s : State) : State :=
  match s.pair.handMsg with
  | some (k, tag) => answer { s with pair := { s.pair with handMsg := none } } k tag true ⟨0, 0, [], false⟩
  | none => s

/-- At H the active releases the lease with code 0, raises 0x0B0E, and becomes STANDBY. -/
def handOverNow (s : State) (h : Nat) : State :=
  toStandby (releaseLease (raise s 0x0B0E (unitNo s) h) 0)

/-- Whether the standby refuses a handover that a record names (R357). -/
def refusesHandover (s : State) (r : PickRecord) : Bool :=
  r.handover.isSome && (!takeoverReady s ||
    match r.handHub with
    | some u => (hubOf s u).state != 3 || !hubFits s u (hubOf s u).mask
    | none => false)

/-! ### Records received (R338, R340, R500, R615) -/

/-- A record that fails the check of R500: the boundary counts it as missed. -/
def badRecord (s : State) : State := peerAuthFail s 3

/-- The record's acknowledgement (R336, R357). -/
def ackRecord (s : State) (r : PickRecord) (refuse : Bool) : State :=
  toPeer s (.ack r.pick refuse s.pair.synced (takeoverReady s))

/-- The picks whose records are missing when one of a later pick arrives (R338): they are asked for. -/
def askMissed (s : State) (r : PickRecord) : State :=
  match s.pair.lastRec with
  | some n =>
    let lost := (List.range (r.pick - n - 1)).map (· + n + 1)
    if r.flush ∨ lost.isEmpty then s
    else toPeer { s with pair := { s.pair with waiting := s.pair.waiting ++ lost } } (.askParts lost)
  | none => { s with time := { s.time with pick := if r.flush then r.pick else r.pick + 1 } }

/-- A record applied, in order or as a part asked for. -/
def applyRecord (s : State) (r : PickRecord) : State :=
  let late : Bool := !r.flush && match s.pair.lastRec with | some n => decide (r.pick ≤ n) | none => false
  if late then
    if s.pair.waiting.contains r.pick then
      applyParts { s with pair := { s.pair with waiting := s.pair.waiting.filter (· != r.pick) } } r
    else s
  else
    let s := askMissed s r
    let restart : Bool := s.pair.stage != 0 && s.pair.recEpoch != 0 && r.epoch != s.pair.recEpoch
    let s := applyParts s r
    let refuse := refusesHandover s r
    let s := { s with pair := { s.pair with
      lastRec := if r.flush then s.pair.lastRec else some r.pick, recLease := r.leaseUntil, recEpoch := r.epoch,
      seenEpoch := Nat.max s.pair.seenEpoch r.epoch, gotRecord := true, released := r.release,
      handover := if refuse then none else r.handover, handHub := r.handHub } }
    let s := ackRecord s r refuse
    if restart ∨ (!s.pair.synced && s.pair.stage == 0) then startResync s else s

/-- A pick or flush record delivered (R331, R354, R614). A unit that holds the active role gives it up to a higher epoch, and as
unit B to its own. -/
def receiveRecord (s : State) (r : PickRecord) : State :=
  if !peerTalks s then s
  else
    let s := peerSeen (countKeyed s)
    let own := liveFld s Fld.PAIR_EPOCH_EPOCH
    if s.pair.role = .active ∧ !(own < r.epoch ∨ (own = r.epoch ∧ s.pair.unitB)) then s
    else
      let s := if s.pair.role = .active then supersede s r.epoch else s
      let s := { s with pair := { s.pair with joinFrom := none, partnerFound := true, refused := false } }
      if (match r.parts.cons with | some x => consSigned x | none => true) then applyRecord s r else badRecord s

/-- PICK_RECORD_RECEIVE (R338). -/
def execPickRecordReceive (t : Nat) (tagOk : Bool) (r : PickRecord) (s : State) : Host.Outcome State Fault Refusal :=
  .next (ifAuthentic (flushUpdate (begin s t)) tagOk fun s => receiveRecord s { r with flush := false })

/-- FLUSH_RECORD_RECEIVE (R580): applied as a pick record; it renews nothing. -/
def execFlushRecordReceive (t : Nat) (tagOk : Bool) (r : PickRecord) (s : State) : Host.Outcome State Fault Refusal :=
  .next (ifAuthentic (flushUpdate (begin s t)) tagOk fun s => receiveRecord s { r with flush := true })

/-- RECORD_ACK_RECEIVE (R339, R357): the changes of the pick are in both units, so their replies go out. -/
def execRecordAckReceive (t pick : Nat) (refuse synced ready : Bool) (s : State) : Host.Outcome State Fault Refusal :=
  let s := begin s t
  .next (if s.pair.role ≠ .active ∨ !peerTalks s then s
    else
      let s := peerSeen s
      let s := { s with pair := { s.pair with
        ackPick := Nat.max s.pair.ackPick pick, ackAt := now s, partnerLost := false, partnerSynced := synced, partnerReady := ready } }
      let s := releaseHeld s false pick
      if s.pair.handover.isNone then s
      else if refuse then refuseHandover s
      else if s.pair.handPick ≤ pick then acceptHandover s
      else s)

/-- MISSED_PARTS_REQUEST (R338): the active sends the records asked for again. -/
def execMissedPartsRequest (t : Nat) (picks : List Nat) (s : State) : Host.Outcome State Fault Refusal :=
  let s := begin s t
  .next (if s.pair.role ≠ .active ∨ !peerTalks s then s
    else (s.pair.sentRecs.filter fun r => picks.contains r.pick && !r.flush).foldl (fun s r => countKeyed (toPeer s (.record r))) s)

/-! ### Hub acknowledgements in a pair (R266, R331, R354, R355, R356) -/

/-- The gap of a channel reported once every hub of it has acknowledged under the new epoch (R356). -/
def reportGap (s : State) (c : Nat) (lr : Int) : State :=
  let first := match (chan s c).lastFired with | some l => l + 1 | none => s.job.first
  let first := min first lr
  let s := setFld s Fld.PAIR_GAP_FIRST_GAP_FIRST c (unsignedOf 48 first)
  let s := setFld s Fld.PAIR_GAP_LAST_GAP_LAST c (unsignedOf 48 (lr - 1))
  if first < lr then raise (raise s 0x0B04 c (low32 first)) 0x0B05 c (low32 (lr - 1)) else s

/-- The gaps that wait for no hub any more. -/
def reportGaps (s : State) : State :=
  let done := s.pair.gaps.filter (·.2.2.isEmpty)
  let s := { s with pair := { s.pair with gaps := s.pair.gaps.filter fun g => !g.2.2.isEmpty } }
  done.foldl (fun s g => reportGap s g.1 g.2.1) s

/-- A hub's first acknowledgement under the unit's epoch. -/
def gapAck (s : State) (u : Nat) (ack : HubAck) : State :=
  if s.pair.gaps.isEmpty ∨ ack.epoch ≠ liveFld s Fld.PAIR_EPOCH_EPOCH then s
  else reportGaps { s with pair := { s.pair with gaps := s.pair.gaps.map fun g => (g.1, g.2.1, g.2.2.filter (· != u)) } }

/-- What an acknowledgement does to the lines: the standby keeps it until a record has counted it, and settles its own lines from
it at once when one already has (R355). -/
def takeAck (s : State) (u : Nat) (ack : HubAck) : State :=
  if s.pair.role = .standby then
    match s.pair.ackTimes.find? (·.1 == u) with
    | some x => if ack.ackTime ≤ x.2 then checkJob (readAck s u ack false)
        else { s with link := { s.link with acks := lastN 4096 (s.link.acks ++ [(u, ack)]) } }
    | none => { s with link := { s.link with acks := lastN 4096 (s.link.acks ++ [(u, ack)]) } }
  else gapAck (checkJob (readAck s u ack true)) u ack

/-- HUB_ACK_RECEIVE (R255, R264, R266, R354): a packet that R255 discards is counted as a CRC error. -/
def execHubAckReceive (t : Nat) (hub : Fin 24) (ack : HubAck) (s : State) : Host.Outcome State Fault Refusal :=
  let s := flushUpdate (begin s t)
  .next (if !ack.valid then discardPacket s hub
    else if (hubOf s hub).state ≠ 3 then s
    else
      let s := hubReport s hub ack
      let s := if s.pair.role = .active ∧ liveFld s Fld.PAIR_EPOCH_EPOCH < ack.epoch then
          supersede { s with pair := { s.pair with seenEpoch := Nat.max s.pair.seenEpoch ack.epoch } } ack.epoch else s
      takeAck s hub ack)

/-! ### Taking over (R332, R351 to R356) -/

/-- The epoch of a new active (R332). -/
def newEpoch (s : State) : Nat :=
  ((s.link.hubs.map (·.epoch)).foldl Nat.max
    (Nat.max (liveFld s Fld.PAIR_EPOCH_EPOCH) (Nat.max s.pair.seenEpoch s.pair.recEpoch)) + 1) % 2 ^ 32

/-- The switch margin M of hub u in nanoseconds (R360). -/
def switchMargin (s : State) (u : Nat) : Rat :=
  let c := timeCfg s
  let k := ((List.range 16).map fun ch => blocks32 c ch u).sum + 32 * maskBlocks c u
  let lanes := maskSize (hubOf s u).mask
  if lanes = 0 then 4000 else 4000 + (2 * k * 100 : Nat) / ((lanes * lanePayload (fld s Fld.FL_HUB_RATE u) : Nat) : Rat)

/-- The hubs a channel's rows are on. -/
def chanHubs (s : State) (c : Nat) : List Nat := ((headRows (cfgOf s c) c).map (·.2.1.hub)).dedup

/-- The resume line Lr of a channel (R353). -/
def resumeLine (s : State) (c : Nat) : Int :=
  let m := ((chanHubs s c).map (switchMargin s)).foldl max 0
  let ok (l : SentLine) : Bool := !l.withdrawn && l.rows.all fun r => decide ((now s : Rat) + m ≤ r.fire)
  match leastFrom (-(2 ^ 48)) (((chan s c).sent.filter ok).map (·.line)) with
  | some l => l
  | none => (chan s c).next

/-- A line that the standby's stream sent goes to the hubs again under the new epoch. -/
def resendLine (s : State) (c : Nat) (l : SentLine) : State :=
  let rows := l.dots.filterMap fun d => (l.rows.find? fun r => r.head == d.head && r.rowB == d.rowB).map fun r => (d, (r.fire : Int))
  ((rows.map (·.1.hub)).dedup).foldl (fun s u =>
    if withheld s u then shedLine s u l.line else sendToHub s c l.line l.hist u (rows.filter (·.1.hub == u))) s

/-- One channel at T0: its resume line, its masks and lines again from there, and the gap still to report. -/
def takeoverChan (s : State) (c : Nat) : State :=
  let lr := resumeLine s c
  let s := setChan s c fun x => { x with maskSpan := [] }
  let again := (chan s c).sent.filter fun l => !l.withdrawn && decide (lr ≤ l.line)
  let s := again.foldl (fun s l => resendLine s c l) s
  let hubs := (chanHubs s c).filter fun u => !withheld s u
  { s with pair := { s.pair with gaps := s.pair.gaps ++ [(c, lr, hubs)] } }

/-- The energy tables that a swap sent and whose first line has not fired on some channel of the head (R270). -/
def resendTables (s : State) : State :=
  s.print.tables.foldl (fun s (u, port, line, es) =>
    let waits : Bool := match headAt s u port with
      | some (_, p) => (headChannels p).any fun c => match (chan s c).lastFired with | some l => decide (l < line) | none => true
      | none => false
    if waits then toHub s u (.energy port (low32 line) es) else s) s

/-- The unit claims the active role at T0 (R353): epoch, lease and cut timer; role, TAKEOVER, doorbell 18 and event 0x0B01. From
here its device time moves to its own source by slewing only (R94). -/
def claimActive (s : State) : State :=
  let e := newEpoch s
  let s := setFld s Fld.PAIR_EPOCH_EPOCH 0 e
  let s := emit { s with time := { s.time with slewOnly := true }, pair := { s.pair with
      lease := true, forceStandby := false, cut := some s.time.counter, leaseUntil := now s + 300000, hbRun := true, seenEpoch := e } }
    (.pin "PAIR_LEASE" true)
  let s := { s with pair := { s.pair with
    role := .active, synced := false, stage := 0, joinFrom := none, released := none, handover := none, handHub := none,
    refused := false, waiting := [], ackAt := now s, partnerSynced := false, partnerReady := false, partnerLost := false,
    degPeer := false, degHb := false, base := {}, sentRecs := [], sentEvents := 0, crcs := [], peerCrcs := [], gaps := [] } }
  let s := doorbell (sticky s Fld.PAIR_STATUS_TAKEOVER) 18
  bump (raise s 0x0B01 (unitNo s) e) Fld.PAIR_TAKEOVERS_TAKEOVERS

/-- The unit becomes ACTIVE (R353): it claims the role; then what the kept acknowledgements count (R355), the tables, the resumed
lines, and the commits in flight (R234). -/
def becomeActive (s : State) : State :=
  let s := claimActive s
  let s := changeSource s (wantedSource s)
  let chans := s.host.chans.map fun m => { m with comparing := true }
  let s := { s with host := { s.host with chans := chans } }
  let acks := s.link.acks
  let s : State := { s with link := { s.link with acks := [] } }
  let s := acks.foldl (fun s a => readAck s a.1 a.2 true) s
  let s := ((List.range 16).filter (inJob s)).foldl takeoverChan (resendTables s)
  let s := ((s.print.elements.filter (·.inFlight)).map (·.key)).foldl resendCommit s
  checkJob (colourTakeover (reportGaps s))

/-- The standby's takeover is refused for want of TAKEOVER_READY (R351): reported once. -/
def refuseTakeover (s : State) : State :=
  if s.pair.refused then s
  else raise (sticky { s with pair := { s.pair with refused := true } } Fld.PAIR_STATUS_TAKEOVER_REFUSED) 0x0B0D (unitNo s) s.pair.score

/-- LEASE_UNTIL as the standby knows it (R351): of the last record, or from the last heartbeat edge when the peer link was lost
before. -/
def leaseSeen (s : State) : Nat := if s.pair.degPeer then s.pair.hbLast + 300000 else s.pair.recLease

/-- Records have stopped, the heartbeat is static and LEASE_UNTIL + 100 µs has passed (R351). -/
def partnerGone (s : State) : Bool :=
  s.pair.partnerFound && decide (s.pair.peerLast + twoPicks ≤ now s) && decide (s.pair.hbLast + twoPicks ≤ now s) &&
    decide (leaseSeen s + 100000 < now s)

/-- Whether H + 10 µs of an accepted handover has come (R357). -/
def handoverDue (s : State) : Bool :=
  match s.pair.handover with
  | some h => decide (h < s.time.pick) || (h == s.time.pick && decide (s.time.pickStart + 10000 ≤ now s))
  | none => false

/-- TAKEOVER (R351, R352, R353, R357). -/
def execTakeover (t : Nat) (s : State) : Host.Outcome State Fault Refusal :=
  let s := flushUpdate (begin s t)
  let fatal := match s.pair.released with | some k => if k = 0 then none else some k | none => none
  .next (if s.pair.role ≠ .standby ∨ !s.pair.capable ∨ !serving s then s
    else if fatal.isSome ∨ handoverDue s ∨ partnerGone s then
      if !takeoverReady s then refuseTakeover s
      else
        let s := match fatal, s.pair.handover with
          | some k, _ => raise s 0x0B03 (unitNo s) k
          | none, some h => if handoverDue s then raise s 0x0B0E (unitNo s) h else s
          | none, none => s
        becomeActive s
    else s)

/-- LEASE_EXPIRE (R346, R347). -/
def execLeaseExpire (t : Nat) (s : State) : Host.Outcome State Fault Refusal :=
  let s := begin s t
  .next (if s.pair.role = .active ∧ s.pair.lease ∧ s.pair.leaseUntil ≤ now s then loseLease s 1 else s)

/-- CUT_TIMER_EXPIRE (R347, R348): 2,815 cycles of the always-on oscillator, 306 µs at the least, without a renewal. The event
waits for the firmware when it does not run. -/
def execCutTimerExpire (t : Nat) (s : State) : Host.Outcome State Fault Refusal :=
  let s := begin s t
  .next (match s.pair.cut with
    | none => s
    | some c =>
      if s.time.counter < c + 306000 ∨ !s.pair.lease then s
      else
        let s := { s with pair := { s.pair with hbRun := false, forceStandby := true } }
        if serving s then loseLease s 2
        else
          let s := { s with pair := { s.pair with cutFell := some (now s) } }
          emit { s with pair := { s.pair with lease := false, cut := none } } (.pin "PAIR_LEASE" false))

/-- JOIN_WAIT_EXPIRE (R331): no active partner found in PAIR_JOIN_WAIT, twice that for unit B. -/
def execJoinWaitExpire (t : Nat) (s : State) : Host.Outcome State Fault Refusal :=
  let s := begin s t
  let wait := fld s Fld.PAIR_CTRL_PAIR_JOIN_WAIT * 100000000 * (if s.pair.unitB then 2 else 1)
  .next (match s.pair.joinFrom with
    | some a => if s.pair.role = .standby ∧ s.pair.capable ∧ serving s ∧ a + wait ≤ now s then becomeActive s else s
    | none => s)

/-! ### Resynchronisation (R343, R364 to R366) -/

/-- The registers of the correction store, nozzle states and coefficients. -/
def corrReg (r : Reg) : Bool := [Reg.WFT_CORR, .WFT_NOZZLE, .CLP_COEF].contains r

/-- The registers of stage 4. -/
def totalReg (r : Reg) : Bool := consReg r || counterReg r || stickyReg r

/-- The stage whose copy some data is. -/
def stageOf : ResyncData → Nat
  | .sets _ => 1
  | .store _ _ => 2
  | .corr _ _ _ => 3
  | .totals _ _ => 4

/-- A strip of the active's directory as the copy has left it (R155, R156, R367): decoded before it is published, or damaged in both
units. -/
def copyStrip (s : State) (x : Strip) : State :=
  let same : Bool := match findStrip s x.handle x.index with | some y => y.bytes == x.bytes && y.damaged == x.damaged | none => false
  if same then s
  else if x.damaged then markDamaged s x.handle x.index
  else match decodeStrip (sendForm x) with
    | .ok hd out cost => publishStrip s x.handle x.index ((sendForm x).take (32 + hd.length)) hd out cost
    | .bad code _ => replReject s x.handle x.index code

/-- The data of a stage taken over (R364, R613): a unit's own W1C and summary bits stay its own. -/
def copyStage (s : State) (d : ResyncData) : State :=
  match d with
  | .sets x => { s with sets := x }
  | .store images strips =>
    let known (y : Strip) : Bool := strips.any fun x => x.handle == y.handle && x.index == y.index
    strips.foldl copyStrip { s with store := { s.store with images := images, strips := s.store.strips.filter known } }
  | .corr live base hist =>
    let chans := (List.range 16).map fun c => { chan s c with hist := nth hist c [], corrLost := false, corrCopy := none }
    { s with live := bankTake s.live live corrReg, colour := { s.colour with base := base }, print := { s.print with chans := chans } }
  | .totals live log =>
    let own := liveFld s Fld.FAULT_SUMMARY_SUBSYSTEM
    let s := { s with live := bankTake s.live live totalReg, host := { s.host with
      log := log, logNext := match log.getLast? with | some e => e.seq + 1 | none => 0 } }
    let given := liveFld s Fld.FAULT_SUMMARY_SUBSYSTEM
    setFld s Fld.FAULT_SUMMARY_SUBSYSTEM 0 ((given - (given &&& ownSummary)) + (own &&& ownSummary))

/-- The correction stores of the channels with a discarded block, as copied from the active (R343). -/
def takeCopies (s : State) (d : ResyncData) : State :=
  match d with
  | .corr live base _ => (List.range 16).foldl (fun s c => takeCopy s c live base) s
  | _ => s

/-- RESYNC_STAGE_DONE (R364): the stage's copy is complete and the next begins. A standby that is SYNCED takes a copy of the
correction store after a discarded block (R343).
From throttle level 3 resynchronisation pauses (R549). -/
def execResyncStageDone (t : Nat) (data : ResyncData) (s : State) : Host.Outcome State Fault Refusal :=
  let s := flushUpdate (begin s t)
  .next (if s.pair.role ≠ .standby ∨ !peerTalks s then s
    else if s.pair.stage = stageOf data then if 3 ≤ throttle s then s else startStage (copyStage s data) (s.pair.stage + 1)
    else if s.pair.synced then takeCopies s data
    else s)

/-! ### PAIR messages (R329, R369, R442) -/

/-- SYS_ROLE (R368). -/
def sysRole (s : State) : Nat :=
  roleCode s.pair.role + 4 * bit s.pair.unitB + 8 * bit s.pair.lease + 16 * bit s.pair.peerUp + 32 * bit s.pair.hbOk +
    256 * (liveFld s Fld.PAIR_EPOCH_EPOCH % 2 ^ 24)

/-- PAIR_HEALTH (R368). -/
def pairHealth (s : State) : Nat :=
  s.pair.score + 256 * bit s.pair.synced + 512 * bit (takeoverReady s) + 1024 * s.pair.stage + 65536 * satNat 16 s.pair.matchRun

/-- PAIR_STATUS (R368): the W1C bits with DEGRADED_NOW and HANDOVER_PENDING. -/
def pairStatusWord (s : State) : Nat :=
  bankReg s.live .PAIR_STATUS 0 0 % 2 ^ 16 + 2 ^ 16 * bit (s.pair.degPeer || s.pair.degHb) + 2 ^ 17 * bit s.pair.handover.isSome

/-- PAIR_STATUS (R369, R442). -/
def execPairStatus (t : Nat) (ch : Fin 6) (tag : Nat) (s : State) : Host.Outcome State Fault Refusal :=
  .next (message (begin s t) ch 9 0x10 tag false false fun s => (s, ⟨0, 0,
    leBytes 4 (sysRole s) ++ leBytes 4 (pairHealth s) ++ leBytes 4 (pairStatusWord s) ++ leBytes 4 (liveFld s Fld.PAIR_EPOCH_EPOCH) ++
      leBytes 8 s.pair.leaseUntil ++ leBytes 4 (liveFld s Fld.PAIR_TAKEOVERS_TAKEOVERS) ++
      leBytes 4 (liveFld s Fld.PAIR_MISSED_RECORDS_MISSED), false⟩))

/-- A PAIR message that a SOLO unit refuses with DENIED_PAIR (R329). -/
def pairMessage (act : State → State × MsgRes) (s : State) : State × MsgRes :=
  if s.pair.role = .solo then (s, ⟨13, 0, [], false⟩) else act s

/-- PAIR_CONFIG (R369, R442). -/
def execPairConfig (t : Nat) (ch : Fin 6) (tag value mask : Nat) (s : State) : Host.Outcome State Fault Refusal :=
  .next (message (begin s t) ch 9 0x11 tag true true (pairMessage fun s =>
    let old := bankReg s.live .PAIR_CTRL 0 0
    let m := mask % 2 ^ 24
    let v := (old - (old &&& m)) + (value &&& m)
    if (regFields .PAIR_CTRL).all fun f => fieldValueOk f (bitsOf v f.lo f.width) then
      ({ s with live := bankWrite s.live (regKey .PAIR_CTRL 0 0) v }, ⟨0, 0, [], false⟩)
    else (s, ⟨4, 0, [], false⟩)))

/-- PAIR_HANDOVER (R357): H lies LEAD picks ahead; the reply waits for the partner. -/
def execPairHandover (t : Nat) (ch : Fin 6) (tag lead : Nat) (s : State) : Host.Outcome State Fault Refusal :=
  .next (message (begin s t) ch 9 0x12 tag true true (pairMessage fun s =>
    if lead < 4 then (s, ⟨4, 0, [], false⟩)
    else if s.pair.role ≠ .active ∨ !s.pair.lease ∨ s.pair.handover.isSome then (s, ⟨5, 0, [], false⟩)
    else if !s.pair.partnerReady then (s, ⟨13, 0, [], false⟩)
    else ({ s with pair := { s.pair with
      handover := some (s.time.pick + lead), handPick := s.time.pick, handHub := none, handMsg := some (ch, tag) } }, ⟨0, 0, [], true⟩)))

/-- PAIR_RESYNC (R369): a standby starts again from stage 1. -/
def execPairResync (t : Nat) (ch : Fin 6) (tag : Nat) (s : State) : Host.Outcome State Fault Refusal :=
  .next (message (begin s t) ch 9 0x13 tag true true (pairMessage fun s =>
    if s.pair.role = .standby then (startResync s, ⟨0, 0, [], false⟩) else (s, ⟨5, 0, [], false⟩)))

/-- PAIR_CLEAR (R369, R607). -/
def execPairClear (t : Nat) (ch : Fin 6) (tag bits : Nat) (s : State) : Host.Outcome State Fault Refusal :=
  .next (message (begin s t) ch 9 0x14 tag true true (pairMessage fun s =>
    let v := bankReg s.live .PAIR_STATUS 0 0
    let b := spared s (regKey .PAIR_STATUS 0 0) (2 ^ 16 - 1) (bits % 2 ^ 16)
    ({ s with live := bankWrite s.live (regKey .PAIR_STATUS 0 0) (v - (v &&& b)) }, ⟨0, 0, [], false⟩)))

end Sys2Proof.Machine
end

