-- ==== Sys2Proof/Machine/Security.lean ====
section
/-!
DEFINITION. The security functions (chapter 14): sessions, firmware images, trust anchors, CONS_RESET and CONS_TRANSFER, SEC_CTRL,
debug, the audit log, glitches, the random source, the JTAG port and the peer-link set-up; and the data of an Ethernet transfer.
-/
namespace Sys2Proof.Machine

/-! ### Readouts (R511) -/

/-- A slot whose image is valid, with an index that ROLLBACK_COUNT still allows (R495). -/
def slotValid (s : State) (i : Nat) : Bool :=
  let x := nth s.sec.slots i {}
  x.valid && decide (liveFld s Fld.SEC_FUSE_ROLLBACK_COUNT ≤ x.rollback)

/-- LOCKOUT (R507). -/
def lockedOut (s : State) : Bool := decide (fld s Fld.SEC_CTRL_GLITCH_LIMIT ≤ liveFld s Fld.SEC_GLITCH_GLITCHES)

/-- SEC_STATUS as read (R511). -/
def secStatus (s : State) : Nat :=
  bankReg s.live .SEC_STATUS 0 0 % 2 ^ 6 + 2 ^ 16 * bit s.sec.certified + 2 ^ 17 * bit s.sec.owner.isSome +
    2 ^ 18 * bit (s.sec.scopes != 0) + 2 ^ 19 * bit (lockedOut s) + 2 ^ 20 * liveFld s Fld.SEC_STATUS_RUNNING_SLOT +
    2 ^ 21 * bit (runningSlot s).dev + 2 ^ 22 * bit s.sec.partner.isSome + 2 ^ 23 * bit (auditFull s)

/-! ### A SEC message (R485, R486, R487, R492, R508, R510) -/

/-- Whether the session's role permits an operation; `sub` is its KIND where the table tells kinds apart (R485, R486). -/
def rolePermits (s : State) (k op sub : Nat) : Bool :=
  let x := secSession s k
  if x.stage ≠ 2 ∨ op ≤ 0x15 then true
  else if x.unowned then op == 0x19 && sub == 0
  else match x.role with
    | 1 => op == 0x1E && (sub == 1 || sub == 2)
    | 3 => op == 0x16 || op == 0x17 || op == 0x1A || op == 0x1B || op == 0x1D
    | 4 => true
    | _ => false

/-- The action of a SEC message after its role and the log have been checked. -/
def secAct (k op sub : Nat) (act : State → State × MsgRes) (s : State) : State × MsgRes :=
  if !rolePermits s k op sub then (s, ⟨7, 0, [], false⟩)
  else if auditFull s ∧ 0x16 ≤ op ∧ op ≠ 0x1E then (s, ⟨6, 0, [], false⟩)
  else act s

/-- A set-up that has had 10 s without SESSION_FINISH is abandoned, with an audit entry of result 9 (R488). -/
def lapseSetup (s : State) (k : Nat) : State :=
  if serving s ∧ (secSession s k).stage = 1 ∧ (secSession s k).openedAt + 10000000000 ≤ now s then
    audit (setSession s k fun _ => { stage := 3 }) 0x0C92 k 9
  else s

/-- A SEC message and its audit entry (R508): with its result when it is replied to, or when it is refused unread. -/
def secMessage (s : State) (k op tag : Nat) (changes exempt : Bool) (sub : Nat) (act : State → State × MsgRes) : State :=
  let s := lapseSetup s k
  let free := takesNow s k && (pendingIs (mbx s k) 0x0F op tag || (!(mbx s k).pending && !numbersSpent s k && decide (outstanding (mbx s k) < 5)))
  let e := if pendingIs (mbx s k) 0x0F op tag then 0 else takeCheck s k 0x0F op tag ((mbx s k).secure || setupOp 0x0F op)
  let s := message s k 0x0F op tag changes exempt fun s =>
    let (s, r) := secAct k op sub act s
    (if r.later then s else audit s (0x0C80 + op) k r.result, r)
  if serving s ∧ free ∧ e ≠ 0 then audit s (0x0C80 + op) k e else s

/-- SEC_INFO (R492). -/
def execSecInfo (t : Nat) (ch : Fin 6) (tag : Nat) (s : State) : Host.Outcome State Fault Refusal :=
  .next (secMessage (begin s t) ch 0x10 tag false true 0 fun s =>
    let slot (i : Nat) : List Byte :=
      let x := nth s.sec.slots i {}
      leBytes 4 x.version ++ leBytes 2 x.rollback ++ leBytes 1 (bit (slotValid s i)) ++ [0]
    (s, ⟨0, 0, leBytes 4 (secStatus s) ++ leBytes 4 (bankReg s.live .SEC_FUSE 0 0) ++ leBytes 16 Config.serial ++
      leBytes 16 Config.deviceKeyId ++ slot 0 ++ slot 1 ++ leBytes 16 Config.roleOid, false⟩))

/-! ### Sessions (R486 to R491) -/

/-- The device private key may be used: no debug access has been unlocked (R505). -/
def keyUsable (s : State) : Bool := s.sec.scopes == 0

/-- The action of SESSION_OPEN (R488, R491): a key and a nonce of the module's own, signed with the transcript T1. -/
def actSessionOpen (k : Nat) (key nonce : List Byte) (s : State) : State × MsgRes :=
  if key.length ≠ 49 ∨ nonce.length ≠ 32 then (s, ⟨3, 0, [], false⟩)
  else if (secSession s k).stage = 2 ∨ lockedOut s ∨ !keyUsable s then (s, ⟨5, 0, [], false⟩)
  else if s.sec.rngFailed then (s, ⟨14, 0, [], false⟩)
  else
    let (a, s) := fresh s
    let (b, s) := fresh s
    let own := bytesAt (Config.ephemeral (Config.random a)) 0 49
    let mine := leBytes 32 (Config.random b)
    let label : List Byte := [0x4A, 0x50, 0x43, 0x38, 0x32, 0x30, 0x30, 0x20, 0x53, 0x45, 0x53, 0x53, 0x49, 0x4F, 0x4E]
    let t1 := Config.sha384 (label ++ leBytes 1 (chanBit k) ++ key ++ nonce ++ own ++ mine)
    (setSession s k fun _ => { stage := 1, openedAt := now s, t1 := t1, secret := Config.random a, hostKey := key, salt := nonce ++ mine },
     ⟨0, 0, own ++ mine ++ bytesAt (Config.deviceSign (leBytes 48 t1)) 0 96, false⟩)

/-- SESSION_OPEN (R488). -/
def execSessionOpen (t : Nat) (ch : Fin 6) (tag : Nat) (key nonce : List Byte) (s : State) : Host.Outcome State Fault Refusal :=
  .next (secMessage (begin s t) ch 0x12 tag false true 0 (actSessionOpen ch key nonce))

/-- CERT_GET (R488): a piece of the device certificate chain. -/
def execCertGet (t : Nat) (ch : Fin 6) (tag offset : Nat) (s : State) : Host.Outcome State Fault Refusal :=
  .next (secMessage (begin s t) ch 0x11 tag false true 0 fun s =>
    if (secSession s ch).stage = 3 then (s, ⟨5, 0, [], false⟩)
    else
      let piece := (Config.deviceChain.drop offset).take 220
      (s, ⟨0, 0, leBytes 2 Config.deviceChain.length ++ leBytes 2 piece.length ++ piece, false⟩))

/-- The action of CERT_PUT (R484, R488): pieces in order, at most 4,096 bytes in all. -/
def actCertPut (k total offset : Nat) (bytes : List Byte) (s : State) : State × MsgRes :=
  let x := secSession s k
  let have' := if offset = 0 then [] else x.chain
  if x.stage ≠ 1 then (s, ⟨5, 0, [], false⟩)
  else if total = 0 ∨ 4096 < total ∨ 220 < bytes.length ∨ offset ≠ have'.length ∨ total < offset + bytes.length ∨
      (offset ≠ 0 ∧ x.total ≠ total) then (s, ⟨4, 0, [], false⟩)
  else (setSession s k fun x => { x with chain := have' ++ bytes, total := total }, ⟨0, 0, [], false⟩)

/-- CERT_PUT (R488). -/
def execCertPut (t : Nat) (ch : Fin 6) (tag total offset : Nat) (bytes : List Byte) (s : State) : Host.Outcome State Fault Refusal :=
  .next (secMessage (begin s t) ch 0x13 tag false true 0 (actCertPut ch total offset bytes))

/-- The transcript hash T2 (R488). -/
def transcript2 (x : SecSession) : Nat := Config.sha384 (leBytes 48 x.t1 ++ leBytes 48 (Config.sha384 x.chain))

/-- What fails in the host's chain and signature (R484, R486, R488): 1 chain, 3 role, 2 signature, 0 nothing. -/
def finishFails (s : State) (x : SecSession) (sig : List Byte) : Nat :=
  let signed := Config.sigOk (Config.certKey x.chain) (leBytes 48 (transcript2 x)) sig
  match s.sec.owner with
  | some root =>
    let role := Config.certRole x.chain
    if !Config.chainOk x.chain root (if s.time.locked then some (now s) else none) then 1
    else if role = 0 ∨ 4 < role then 3
    else if !signed then 2 else 0
  | none =>
    if !(Config.certParses x.chain && Config.selfSigned x.chain && Config.certLength x.chain == x.chain.length) then 1
    else if !signed then 2 else 0

/-- The 72 bytes of R489: from the shared point's x-coordinate, the two nonces and T2. -/
def sessionKeys (x : SecSession) : List Byte :=
  bytesAt (Config.hkdf (leBytes 48 (Config.ecdh x.secret x.hostKey)) x.salt (leBytes 48 (transcript2 x))) 0 72

/-- The action of SESSION_FINISH (R488, R489). A set-up that fails is at its end. -/
def actSessionFinish (k : Nat) (sig : List Byte) (s : State) : State × MsgRes :=
  let x := secSession s k
  if x.stage ≠ 1 ∨ x.chain.isEmpty ∨ x.chain.length ≠ x.total then (s, ⟨5, 0, [], false⟩)
  else
    let bad := finishFails s x sig
    if bad ≠ 0 then
      let s := raise (sticky s Fld.SEC_STATUS_AUTH_FAIL) 0x0C04 (chanBit k) bad
      (setSession s k fun _ => { stage := 3 }, ⟨7, 0, [], false⟩)
    else
      let unowned := s.sec.owner.isNone
      let role := if unowned then 0 else Config.certRole x.chain
      let subject := Config.sha384 (Config.certLeaf x.chain) % 2 ^ 128
      let s := setSession s k fun _ =>
        { stage := 2, last := now s, role := role, subject := subject, unowned := unowned, keys := sessionKeys x }
      let s := setMbx s k fun m => { m with secure := true, sent := 0, plain := m.queue.length + m.flight.length }
      (raise s 0x0C02 (chanBit k) role, ⟨0, 0, leBytes 4 role, false⟩)

/-- SESSION_FINISH (R489). -/
def execSessionFinish (t : Nat) (ch : Fin 6) (tag : Nat) (sig : List Byte) (s : State) : Host.Outcome State Fault Refusal :=
  .next (secMessage (begin s t) ch 0x14 tag false true 0 (actSessionFinish ch sig))

/-- SESSION_CLOSE (R490): the keys are wiped as it is received, so its own reply carries a tag field of zeros (R487). -/
def execSessionClose (t : Nat) (ch : Fin 6) (tag : Nat) (s : State) : Host.Outcome State Fault Refusal :=
  .next (secMessage (begin s t) ch 0x15 tag false true 0 fun s => (endSecure s ch 1, ⟨0, 0, [], false⟩))

/-- SESSION_SETUP_TIMEOUT (R488): 10 s without SESSION_FINISH. -/
def execSessionSetupTimeout (t : Nat) (x : Fin 2) (s : State) : Host.Outcome State Fault Refusal :=
  let s := begin s t
  let k := 4 + x.val
  .next (lapseSetup s k)

/-- SESSION_IDLE_EXPIRE (R490): SESSION_IDLE seconds without a message. -/
def execSessionIdleExpire (t : Nat) (x : Fin 2) (s : State) : Host.Outcome State Fault Refusal :=
  let s := begin s t
  let k := 4 + x.val
  .next (if (secSession s k).last + liveFld s Fld.SEC_CTRL_SESSION_IDLE * 1000000000 ≤ now s then endSecure s k 2 else s)

/-! ### Firmware (R495 to R498) -/

/-- The slot that an image makes, and the result that refuses it, 0 when it is valid (R495, R497). -/
def judgeImage (s : State) (image : List Byte) : FwSlot × Nat :=
  let head := bytesAt image 0 256
  let len := leAt head 16 8
  let body := (image.drop 256).take len
  let digest := Config.sha384 body
  let x : FwSlot := { version := leAt head 8 4, rollback := leAt head 12 2, dev := leAt head 14 2 % 2 == 1 }
  if 66060032 < len then (x, 4)
  else if !Config.sigOk Config.firmwareKey (head.take 72) ((head.drop 72).take 96) then (x, 7)
  else if digest ≠ leAt head 24 48 % 2 ^ 384 ∨ body.length ≠ len then ({ x with why := 2 }, 7)
  else if head.take 4 ≠ [0x4A, 0x46, 0x57, 0x31] ∨ leAt head 4 4 ≠ 1 ∨ 1 < leAt head 14 2 ∨ (head.drop 168).any (· != 0) ∨
      64 < x.rollback ∨ x.rollback < liveFld s Fld.SEC_FUSE_ROLLBACK_COUNT then (x, 4)
  else ({ x with valid := true, why := 0, digest := some digest }, 0)

/-- The end of a firmware load with its data: the slot, event 0x0C05, and the reply (R497). -/
def finishImage (s : State) (slot : Nat) (image : List Byte) : State × MsgRes :=
  let (x, bad) := judgeImage s image
  let s := { s with sec := { s.sec with slots := upd s.sec.slots slot fun _ => x } }
  (raise s 0x0C05 slot (if bad = 0 then x.version else 0),
   if bad = 0 then ⟨0, 0, leBytes 4 x.version ++ leBytes 2 x.rollback, false⟩ else ⟨bad, 0, [], false⟩)

/-- The action of FW_LOAD (R497): over PCIe the data is read at once, over Ethernet it follows as a transfer. -/
def actFwLoad (k tag slot : Nat) (data : DataRef) (s : State) : State × MsgRes :=
  if 1 < slot then (s, ⟨4, 0, [], false⟩)
  else if slot = liveFld s Fld.SEC_STATUS_RUNNING_SLOT then (s, ⟨5, 0, [], false⟩)
  else if s.sec.load.isSome then (s, ⟨1, 0, [], false⟩)
  else
    let s := { s with sec := { s.sec with slots := upd s.sec.slots slot fun x => { x with valid := false } } }
    if s.sys.ethernet ∨ (s.rst.both ∧ data.transfer ≠ 0) then
      let tr : Transfer := { num := data.transfer, length := data.length }
      ({ s with sec := { s.sec with load := some ⟨k, tag, slot, data.transfer⟩ },
                host := { s.host with transfers := s.host.transfers ++ [tr] } }, ⟨0, 0, [], true⟩)
    else if data.fail ≠ 0 then (raise s 0x0C05 slot 0, ⟨dmaResult data.fail, 0, [], false⟩)
    else finishImage s slot (refBytes data)

/-- FW_LOAD (R497). -/
def execFwLoad (t : Nat) (ch : Fin 6) (tag slot : Nat) (data : DataRef) (s : State) : Host.Outcome State Fault Refusal :=
  .next (noteCertified (secMessage (begin s t) ch 0x16 tag false true 0 (actFwLoad ch tag slot data)))

/-- A firmware load whose transfer is complete (R380, R497). -/
def finishLoad (s : State) : State :=
  match s.sec.load with
  | none => s
  | some l => match s.host.transfers.find? (·.num == l.transfer) with
    | some tr =>
      if tr.data.length < tr.length then s
      else
        let s := { s with sec := { s.sec with load := none },
                          host := { s.host with transfers := s.host.transfers.filter (·.num != l.transfer) } }
        let (s, r) := finishImage s l.slot tr.data
        answer (audit s 0x0C96 l.chan r.result) l.chan l.tag false r
    | none => s

/-- FW_ACTIVATE (R497). -/
def execFwActivate (t : Nat) (ch : Fin 6) (tag slot : Nat) (s : State) : Host.Outcome State Fault Refusal :=
  .next (secMessage (begin s t) ch 0x17 tag false true 0 fun s =>
    if 1 < slot then (s, ⟨4, 0, [], false⟩)
    else if !slotValid s slot then (s, ⟨5, 0, [], false⟩)
    else (raise (setFld s Fld.SEC_FUSE_PREFERRED 0 slot) 0x0C06 slot (nth s.sec.slots slot {}).version, ⟨0, 0, [], false⟩))

/-- The rollback fuses blown to the target that MRAM holds (R498). -/
def blowFuses (s : State) : State :=
  if s.sec.target ≤ liveFld s Fld.SEC_FUSE_ROLLBACK_COUNT then s
  else raise (setFld s Fld.SEC_FUSE_ROLLBACK_COUNT 0 s.sec.target) 0x0C07 0 s.sec.target

/-- FW_COMMIT (R498). -/
def execFwCommit (t : Nat) (ch : Fin 6) (tag : Nat) (s : State) : Host.Outcome State Fault Refusal :=
  .next (secMessage (begin s t) ch 0x18 tag false true 0 fun s =>
    let s := { s with sec := { s.sec with target := Nat.max (liveFld s Fld.SEC_FUSE_ROLLBACK_COUNT) (runningSlot s).rollback } }
    let s := blowFuses s
    let other := 1 - liveFld s Fld.SEC_STATUS_RUNNING_SLOT
    (s, ⟨0, 0, leBytes 1 (liveFld s Fld.SEC_FUSE_ROLLBACK_COUNT) ++ leBytes 1 (bit (slotValid s other)), false⟩))

/-- DATA_DATAGRAM (R380): bytes of a transfer that a taken message names; bytes count once they follow without a gap. A table or
a firmware image that is complete with them takes effect. -/
def execDataDatagram (t : Nat) (d : Dgram) (transfer offset : Nat) (bytes : List Byte) (s : State) :
    Host.Outcome State Fault Refusal :=
  let s := begin s t
  .next (if !inSession s d then s
    else
      let s := touchSession s
      match s.host.transfers.find? (·.num == transfer) with
      | none => s
      | some x =>
        if x.data.length < offset then s
        else
          let x := { x with data := (x.data ++ bytes.drop (x.data.length - offset)).take x.length }
          let trs := s.host.transfers.map fun y => if y.num = transfer then x else y
          let s := { s with host := { s.host with transfers := trs } }
          let s := if 65536 ≤ x.data.length - x.ackedAt ∧ !ackWithheld s x.num then sendDataAck s x else s
          noteCertified (finishLoad ((s.host.tables.filter (·.transfer == transfer)).foldl finishTable s)))

/-! ### Trust anchors (R493) -/

/-- A trust anchor removed (R493): the owner root cannot be. -/
def clearTrust (kind : Nat) (s : State) : State × MsgRes :=
  match kind with
  | 1 => (raise { s with sec := { s.sec with roots := [none, none, none, none] } } 0x0C11 1 0, ⟨0, 0, [], false⟩)
  | 2 => (raise { s with sec := { s.sec with partner := none } } 0x0C11 2 0, ⟨0, 0, [], false⟩)
  | _ => (s, ⟨4, 0, [], false⟩)

/-- A new owner root ends every session but that of channel k (R493); the cause of event 0x0C03 is not stated. -/
def endOthers (s : State) (k : Nat) : State :=
  [4, 5].foldl (fun s j =>
    if j = k ∨ (secSession s j).stage ≠ 2 then s
    else
      let (n, s) := fresh s
      endSecure s j (Config.freeByte n)) s

/-- A whole certificate put in its place (R493). -/
def installTrust (k kind slot : Nat) (cert : List Byte) (s : State) : State × MsgRes :=
  if !Config.certParses cert ∨ (kind ≤ 1 ∧ !Config.selfSigned cert) then (s, ⟨4, 0, [], false⟩)
  else match kind with
    | 0 => (raise (endOthers { s with sec := { s.sec with owner := some cert } } k) 0x0C11 0 0, ⟨0, 0, [], false⟩)
    | 1 => (raise { s with sec := { s.sec with roots := upd s.sec.roots slot fun _ => some cert } } 0x0C11 1 slot, ⟨0, 0, [], false⟩)
    | _ => (raise { s with sec := { s.sec with partner := some cert } } 0x0C11 2 0, ⟨0, 0, [], false⟩)

/-- The action of TRUST_SET: pieces in order; it takes effect with the last (R493). -/
def actTrustSet (k kind slot total offset : Nat) (bytes : List Byte) (s : State) : State × MsgRes :=
  let held := if offset = 0 then [] else
    match s.sec.part with
    | some p => if p.kind = kind ∧ p.slot = slot ∧ p.total = total then p.bytes else []
    | none => []
  if kind = 3 then clearTrust slot s
  else if 3 < kind ∨ (kind = 1 ∧ 3 < slot) ∨ 218 < bytes.length ∨ offset ≠ held.length ∨ total < offset + bytes.length then
    (s, ⟨4, 0, [], false⟩)
  else if offset + bytes.length < total then
    ({ s with sec := { s.sec with part := some ⟨kind, slot, total, held ++ bytes⟩ } }, ⟨0, 0, [], false⟩)
  else installTrust k kind slot (held ++ bytes) { s with sec := { s.sec with part := none } }

/-- TRUST_SET (R493). -/
def execTrustSet (t : Nat) (ch : Fin 6) (tag kind slot total offset : Nat) (bytes : List Byte) (s : State) :
    Host.Outcome State Fault Refusal :=
  .next (noteCertified (secMessage (begin s t) ch 0x19 tag false true kind (actTrustSet ch kind slot total offset bytes)))

/-- TRUST_CLEAR (R493): TRUST_SET with KIND 3. -/
def execTrustClear (t : Nat) (ch : Fin 6) (tag slot : Nat) (s : State) : Host.Outcome State Fault Refusal :=
  .next (noteCertified (secMessage (begin s t) ch 0x19 tag false true 3 (clearTrust slot)))

/-! ### Consumable records (R494, R502, R503) -/

/-- The element that TARGET and INDEX name. -/
def targetElem (target index : Nat) : Option Nat :=
  if target = 0 ∧ index < 512 then some index else if target = 1 ∧ index < 16 then some (512 + index) else none

/-- The action of CONS_RESET (R502): a request with SEQ 0 and INCREMENT 0; the reply follows the element's. -/
def actConsReset (k tag target index : Nat) (s : State) : State × MsgRes :=
  match targetElem target index with
  | none => (s, ⟨4, 0, [], false⟩)
  | some e =>
    if (elemHub s e).isNone then (s, ⟨4, 0, [], false⟩)
    else if !driving s then (s, ⟨5, 0, [], false⟩)
    else if s.sec.rngFailed then (s, ⟨14, 0, [], false⟩)
    else if (elem s e).inFlight ∨ (elem s e).rebase.isSome then (s, ⟨1, 0, [], false⟩)
    else
      let s := setElem s e fun x => { x with rebase := some (k, tag), attempts := 1 }
      (if (elem s e).certOk then sendRequest s e 0 0 else readCert s e, ⟨0, 0, [], true⟩)

/-- CONS_RESET (R502). -/
def execConsReset (t : Nat) (ch : Fin 6) (tag target index : Nat) (s : State) : Host.Outcome State Fault Refusal :=
  .next (secMessage (begin s t) ch 0x1A tag true false 0 (actConsReset ch tag target index))

/-- The action of CONS_TRANSFER (R503). -/
def actConsTransfer (target src dst : Nat) (s : State) : State × MsgRes :=
  match targetElem target src, targetElem target dst with
  | some a, some b =>
    let busy (e : Nat) : Bool := (elem s e).inFlight || (elem s e).rebase.isSome
    if busy a || busy b then (s, ⟨1, 0, [], false⟩)
    else
      let n := elemPending s a
      let s := if a = b then s
        else
          let x := elem s a
          let s := keepPending (keepPending (setPending (setPending s b (elemPending s b + n)) a 0) a) b
          let s := if x.seqFault then setElem s b fun y => { y with seqFault := true, lastSeqSeen := x.lastSeqSeen } else s
          setElem s a fun y => { y with seqFault := false }
      (raise s 0x0C0E a b, ⟨0, 0, leBytes 8 n, false⟩)
  | _, _ => (s, ⟨4, 0, [], false⟩)

/-- CONS_TRANSFER (R503). -/
def execConsTransfer (t : Nat) (ch : Fin 6) (tag target src dst : Nat) (s : State) : Host.Outcome State Fault Refusal :=
  .next (secMessage (begin s t) ch 0x1B tag true false 0 (actConsTransfer target src dst))

/-! ### SEC_CTRL, debug and audit messages (R481, R505, R509) -/

/-- The action of SEC.CONFIG (R481, R492, R511). -/
def actSecConfig (value mask clear : Nat) (s : State) : State × MsgRes :=
  let old := bankReg s.live .SEC_CTRL 0 0
  let m := mask % 2 ^ 19
  let v := (old - (old &&& m)) + (value &&& m)
  let cert (w : Nat) : Bool := bitsOf w 0 1 == 1
  let wrap := bitsOf m 1 1 == 1 && bitsOf v 1 1 == 1
  let idle := bitsOf m 2 12 != 0 && decide (3600 < bitsOf v 2 12)
  if !((regFields .SEC_CTRL).all fun f => fieldValueOk f (bitsOf v f.lo f.width)) then (s, ⟨4, 0, [], false⟩)
  else if cert old ∧ cert v ∧ (wrap ∨ idle) then (s, ⟨5, 0, [], false⟩)
  else
    let st := bankReg s.live .SEC_STATUS 0 0
    let live := bankWrite s.live (regKey .SEC_CTRL 0 0) v
    let live := bankWrite live (regKey .SEC_STATUS 0 0) (st - (st &&& spared s (regKey .SEC_STATUS 0 0) (2 ^ 6 - 1) (clear % 2 ^ 6)))
    let s := noteCertified { s with live := live }
    (s, ⟨0, 0, leBytes 4 (secStatus s), false⟩)

/-- SEC_CONFIG (R481). -/
def execSecConfig (t : Nat) (ch : Fin 6) (tag value mask clear : Nat) (s : State) : Host.Outcome State Fault Refusal :=
  .next (secMessage (begin s t) ch 0x1C tag false true 0 (actSecConfig value mask clear))

/-- DEBUG_CHALLENGE (R505). -/
def execDebugChallenge (t : Nat) (ch : Fin 6) (tag scope : Nat) (s : State) : Host.Outcome State Fault Refusal :=
  .next (secMessage (begin s t) ch 0x1D tag false true 1 fun s =>
    if scope = 0 ∨ 2 < scope then (s, ⟨4, 0, [], false⟩)
    else if s.sec.rngFailed then (s, ⟨14, 0, [], false⟩)
    else
      let (n, s) := fresh s
      let c := Config.random n % 2 ^ 256
      ({ s with sec := { s.sec with challenge := some (c, now s) } }, ⟨0, 0, leBytes 32 c, false⟩))

/-- The action of an unlock (R481, R505). -/
def actUnlock (k scope : Nat) (token : List Byte) (s : State) : State × MsgRes :=
  if scope = 0 ∨ 2 < scope then (s, ⟨4, 0, [], false⟩)
  else if liveFld s Fld.SEC_CTRL_CERT_MODE = 1 then (s, ⟨5, 0, [], false⟩)
  else
    let good : Bool := match s.sec.challenge with
      | some (c, at') => decide (now s ≤ at' + 60000000000) &&
          Config.sigOk Config.debugKey (leBytes 16 Config.serial ++ leBytes 32 c ++ leBytes 1 scope) token
      | none => false
    let s := { s with sec := { s.sec with challenge := none } }
    if !good then (s, ⟨7, 0, [], false⟩)
    else
      let s := { s with sec := { s.sec with scopes := s.sec.scopes ||| scope } }
      (noteCertified (audit (raise s 0x0C0C (chanBit k) scope) 0x0C0C k scope), ⟨0, 0, [], false⟩)

/-- DEBUG_UNLOCK (R505). -/
def execDebugUnlock (t : Nat) (ch : Fin 6) (tag scope : Nat) (token : List Byte) (s : State) : Host.Outcome State Fault Refusal :=
  .next (secMessage (begin s t) ch 0x1D tag false true 2 (actUnlock ch scope token))

/-- AUDIT_READ (R509). -/
def execAuditRead (t : Nat) (ch : Fin 6) (tag count seq : Nat) (s : State) : Host.Outcome State Fault Refusal :=
  .next (secMessage (begin s t) ch 0x1E tag false true 1 fun s =>
    if count = 0 ∨ 3 < count then (s, ⟨4, 0, [], false⟩)
    else (s, ⟨0, 0, ((s.sec.audit.filter fun e => decide (seq ≤ e.seq)).take count).flatMap auditBytes, false⟩))

/-- AUDIT_SIGN (R509): the device key signs, unless debug has withheld it (R505). -/
def execAuditSign (t : Nat) (ch : Fin 6) (tag : Nat) (nonce : List Byte) (s : State) : Host.Outcome State Fault Refusal :=
  .next (secMessage (begin s t) ch 0x1E tag false true 2 fun s =>
    if !keyUsable s then (s, ⟨5, 0, [], false⟩)
    else
      let newest := leBytes 4 (liveFld s Fld.SEC_AUDIT_NEWEST_SEQ)
      let head := leBytes 48 (match s.sec.audit.getLast? with | some e => Config.sha384 (auditBytes e) | none => 0)
      (s, ⟨0, 0, newest ++ head ++ bytesAt (Config.deviceSign (newest ++ head ++ nonce)) 0 96, false⟩))

/-- AUDIT_ACKNOWLEDGE (R509). -/
def execAuditAcknowledge (t : Nat) (ch : Fin 6) (tag seq : Nat) (s : State) : Host.Outcome State Fault Refusal :=
  .next (secMessage (begin s t) ch 0x1E tag false true 3 fun s =>
    if liveFld s Fld.SEC_AUDIT_NEWEST_SEQ < seq then (s, ⟨4, 0, [], false⟩)
    else (setFld s Fld.SEC_AUDIT_ACKED_SEQ 0 (Nat.max seq (liveFld s Fld.SEC_AUDIT_ACKED_SEQ)), ⟨0, 0, [], false⟩))

/-! ### Glitches, the random source, JTAG, the peer link (R483, R501, R504, R506, R507) -/

/-- A set-up under way is abandoned with the security core's operation (R506). -/
def abandonSetup (s : State) (k : Nat) : State :=
  if (secSession s k).stage = 1 then setSession s k fun _ => { stage := 3 } else s

/-- GLITCH (R506, R507): the units set their peer link up again at once. -/
def execGlitch (t : Nat) (detector : Fin 4) (s : State) : Host.Outcome State Fault Refusal :=
  let s := begin s t
  let d := detector.val + 1
  .next (if !serving s ∨ fld s Fld.SEC_CTRL_GLITCH_EN = 0 then s
    else
      let s := endSecure (endSecure (abandonSetup (abandonSetup s 4) 5) 4 6) 5 6
      let s := { s with pair := { s.pair with keys := none } }
      let s := if s.pair.capable then toPeer s .setup else s
      let was := lockedOut s
      let n := satNat 16 (liveFld s Fld.SEC_GLITCH_GLITCHES + 1)
      let s := setFld (sticky s Fld.SEC_STATUS_GLITCH) Fld.SEC_GLITCH_GLITCHES 0 n
      let s := audit (raise s 0x0C0A d d) 0x0C0A 0 d
      if lockedOut s && !was then raise s 0x0C0B 0 n else s)

/-- RNG_FAIL (R483). -/
def execRngFail (t : Nat) (test : Fin 2) (s : State) : Host.Outcome State Fault Refusal :=
  let s := begin s t
  .next (if !serving s then s
    else
      let s := { s with sec := { s.sec with rngFailed := true } }
      noteCertified (raise (sticky s Fld.SEC_STATUS_RNG_FAIL) 0x0C09 0 (test.val + 1)))

/-- JTAG_INSTRUCTION (R504): an instruction that is not offered acts as BYPASS. -/
def execJtagInstruction (t : Nat) (i : JtagInstr) (s : State) : Host.Outcome State Fault Refusal :=
  let s := begin s t
  let drives := s.sys.st == .recovery || s.sec.scopes.testBit 0
  let acts : JtagInstr := match i with
    | .idcode => .idcode
    | .bypass => .bypass
    | .sample => .sample
    | .extest => if drives then .extest else .bypass
    | .clamp => if drives then .clamp else .bypass
    | .highz => if drives then .highz else .bypass
    | .other => .bypass
  .next { s with sec := { s.sec with jtag := acts } }

/-- PEER_LINK_SETUP (R501): on success the records have a key; not in RECOVERY (R537) nor while debug withholds the device key (R505). -/
def execPeerLinkSetup (t : Nat) (ok : Bool) (key : Nat) (s : State) : Host.Outcome State Fault Refusal :=
  let s := begin s t
  .next (if !s.pair.capable ∨ !serving s ∨ s.sys.st = .recovery ∨ !keyUsable s ∨ s.sec.rngFailed then s
    else if ok then { s with pair := { s.pair with keys := some key, keyedRecs := 0 } }
    else peerAuthFail { s with pair := { s.pair with keys := none } } 1)

end Sys2Proof.Machine
end

