-- ==== Sys2Proof/Machine/Reset.lean ====
section
/-!
DEFINITION. Resets, starts and recovery mode (chapter 15), fatal faults (R608, R609) and what a start loads from MRAM.
-/
namespace Sys2Proof.Machine

/-! ### What survives a reset (R348, R419, R511, R516 to R519, R528, R533, R542, R608) -/

/-- The fields that take effect at the next start and whose register MRAM is not said to keep: they are kept too. -/
def startFields : List Field :=
  [Fld.TIM_PTP_DOMAIN, Fld.TIM_PTP_PORT_EN, Fld.TIM_PTP_DELAY_MECH, Fld.TIM_PTP_TRANSPORT, Fld.TIM_PTP_CLOCK_ROLE,
    Fld.IMG_CTRL_IMG_ECC_EN, Fld.IMG_CTRL_GRAIN, Fld.PAIR_CTRL_PAIR_JOIN_WAIT]

/-- The calibration temperatures of DRAM channels, lane receivers and transmit bands, which a warm start keeps (R109, R533). -/
def calKept : Nat := 60

/-- The counters of lines that only a cold start clears (R71, log 38). -/
def lineCounters : List Reg := [.POS_MISSED, .POS_SHED, .POS_DROP, .POS_PSHORT]

/-- The registers that outlive a reset: those of MRAM, RST_CAUSE in the always-on domain, the fields above, the training and
calibration temperatures, the counters of lines, and the pending counts as MRAM holds them. -/
def keptLive (s : State) : Bank :=
  let b := bankKeep s.live fun r => ((regInfo r).persist && r != .FIR_HEAD_PENDING && r != .FIR_INK_PENDING) ||
    r == .RST_CAUSE || r == .CAL_TEMP || r == .IMG_TEMP || lineCounters.contains r
  let b := startFields.foldl (fun b f => bankSet b f 0 (liveFld s f)) b
  let b := (List.range 2).foldl (fun b k => bankSet b Fld.CAM_CTRL_STORE_FRAMES k (liveFld s Fld.CAM_CTRL_STORE_FRAMES k)) b
  let b := (List.range 24).foldl (fun b i => bankSet b Fld.CAL_TEMP_LAST_CAL_TEMP (calKept + i) 0) b
  let b := [Fld.RST_CAUSE_WARM, Fld.RST_CAUSE_LOADED, Fld.RST_CAUSE_RECOVERY, Fld.RST_CAUSE_STRAP_CODE, Fld.RST_CAUSE_STRAP_VALID,
    Fld.RST_START_FAILS_RECOVERY_CAUSE].foldl (fun b f => bankSet b f 0 0) b
  s.rst.pend.foldl (fun b x => bankWrite b x.1 x.2) b

/-- The account of an element that MRAM keeps: whether a sequence fault stands (R231); a commit in flight ends with the reset. -/
def keptElement (e : Element) : Element := { key := e.key, seqFault := e.seqFault, lastSeqSeen := e.lastSeqSeen }

/-- The image store through a reset: committed strips with no read in flight, the training temperatures, the rows' errors. -/
def keptStore (x : StoreSt) : StoreSt :=
  { images := x.images, nextHandle := x.nextHandle, strips := x.strips.map fun y => { y with refs := 0 },
    dram := x.dram.map fun d => { temp := d.temp, trained := d.trained }, nextCopy := x.nextCopy, rowErrs := x.rowErrs, retired := x.retired,
    grainInForce := x.grainInForce, eccInForce := x.eccInForce }

/-- The security functions through a reset: what MRAM and the fuses hold, and the JTAG port. -/
def keptSec (x : SecSt) : SecSt :=
  { audit := x.audit, owner := x.owner, roots := x.roots, partner := x.partner, slots := x.slots, target := x.target,
    certified := x.certified, jtag := x.jtag }

/-- The levels at an encoder's inputs. -/
def keptEncoder (x : Encoder) : Encoder := { a := x.a, b := x.b, z := x.z, openA := x.openA, openB := x.openB, openZ := x.openZ }

/-- The levels at an axis's inputs and outputs. -/
def keptAxis (x : Axis) : Axis := { limP := x.limP, limN := x.limN, home := x.home, flt := x.flt, shorts := x.shorts }

/-- A camera port through a reset: whether it was enabled, for the frame store that the next start takes (R290, log 65). A port of a
start that did not end, or of recovery mode, keeps what its last reset found. -/
def keptCam (s : State) (k : Nat) : CamPort :=
  { enBefore := if s.sys.st = .reset ∨ s.sys.st = .boot ∨ s.sys.st = .recovery then (nth s.vision.cams k {}).enBefore
      else liveFld s Fld.CAM_CTRL_CAM_EN k == 1 }

/-- The machine in reset: every subsystem at its reset values but for MRAM, the always-on domain, DRAM and the levels at its inputs. -/
def inReset (s : State) : State :=
  let s := dropLoad s
  { pending := s.pending, out := s.out, freeCtr := s.freeCtr, time := s.time,
    sys := { st := .reset },
    pos := { enc := s.pos.enc.map keptEncoder, encTerm := s.pos.encTerm },
    host := { log := s.host.log, logNext := s.host.logNext, netConfig := s.host.netConfig },
    live := keptLive s,
    store := keptStore s.store,
    vision := { cams := (List.range 2).map (keptCam s) },
    sets := { snapshot := s.sets.snapshot },
    print := { elements := s.print.elements.map keptElement },
    pair := { capable := s.pair.capable, unitB := s.pair.unitB, cutFell := s.pair.cutFell, hbRun := false },
    link := { lanes := s.link.lanes.map fun l => { map := l.map } },
    mot := { axes := s.mot.axes.map keptAxis },
    sec := keptSec s.sec,
    rst := { s.rst with prev := s.sys.st, warm := false, armedAt := none, restart := none, both := false, n0Owner := none },
    pwr := { s.pwr with stopped := false } }

/-- The outputs that a reset puts at rest within 2 µs (R539). -/
def outputsDown (s : State) : State :=
  let s := (List.range 8).foldl (fun s n => if axisMoves (axis s n) then emit s (.step n []) else s) s
  let s := if s.pair.lease then emit s (.pin "PAIR_LEASE" false) else s
  let s := if s.pair.hbOut then emit s (.pin "PAIR_HB_OUT" false) else s
  let s := if s.time.ppsOut.isSome then emit s (.pps false) else s
  let s : State := { s with time := { s.time with ppsOut := none, camOut := [false, false] } }
  emit (emit s (.pin "READY" false)) (.pin "FAULT_N" false)

/-- The time after a release by which a start has passed step 3, the bounds of steps 1 to 3 together (R530): a start cut short after
it counts as failed (R534). -/
def step3Done : Nat := 15000000

/-- A start cut short: START_FAILS as its step 3 raised it, LAST_FAIL_STEP the step it had reached, which only the start itself knows. -/
def cutShort (s : State) : State :=
  let n := liveFld s Fld.RST_START_FAILS_START_FAILS
  if s.sys.st ≠ .boot ∨ s.time.counter < step3Done ∨ liveFld s Fld.RST_START_FAILS_FAILED_START_LIMIT ≤ n then s
  else
    let (k, s) := fresh s
    setFld (setFld s Fld.RST_START_FAILS_START_FAILS 0 (satNat 8 (n + 1))) Fld.RST_START_FAILS_LAST_FAIL_STEP 0
      (3 + Config.freeByte k % 8)

/-- A reset is recognised (R515, R516, R528): `self` is the internal source, `ext` that RESET_N is low from outside until a tick. -/
def assertReset (s : State) (self : Option Nat) (ext : Option Nat) : State :=
  let s := match self with
    | some n => setFld (setFld s Fld.RST_CAUSE_PIN_SELF 0 1) Fld.RST_CAUSE_SELF_CAUSE 0 n
    | none => s
  let s := if ext.isSome then setFld s Fld.RST_CAUSE_PIN_EXT 0 1 else s
  let s := match self with
    | some 3 => s
    | some _ => setFld s Fld.RST_CAUSE_WARM_OK 0 0
    | none => s
  if s.sys.st = .off then s
  else if s.sys.st = .reset then { s with rst := { s.rst with free := Nat.max s.rst.free ((ext.getD 0) + 10000) } }
  else
    let s := inReset (outputsDown (cutShort s))
    emit { s with rst := { s.rst with free := Nat.max (s.time.counter + 2000000) (ext.getD 0) + 10000 } } (.pin "RESET_N" false)

/-! ### The events of the reset controller -/

/-- POWER_ON (R518): RST_CAUSE and WARM_OK are cleared and POR is set; the stretch of R515 begins. -/
def execPowerOn (t : Nat) (s : State) : Host.Outcome State Fault Refusal :=
  let s := begin s t
  .next (if s.sys.st ≠ .off then s
    else
      let s := { s with live := bankWrite s.live (regKey .RST_CAUSE 0 0) (resetVal .RST_CAUSE 0) }
      emit { s with sys := { s.sys with st := .reset }, rst := { s.rst with prev := .off, free := s.time.counter + 2010000 } }
        (.pin "RESET_N" false))

/-- The module loses its supply: everything but MRAM and the levels at its inputs is lost, and VENC_OUT is off (R518, R539). -/
def powerLost (s : State) : State :=
  let s := inReset (outputsDown (cutShort s))
  { s with sys := { s.sys with st := .off }, 
           store := { rowErrs := s.store.rowErrs, retired := s.store.retired,
                      dram := s.store.dram.map fun d => { temp := d.temp, trained := d.trained } }, pwr := { tripped := s.pwr.tripped } }

/-- VIN_BELOW_POR (R518). -/
def execVinBelowPor (t : Nat) (s : State) : Host.Outcome State Fault Refusal :=
  let s := begin s t
  .next (if s.sys.st = .off then s else powerLost s)

/-- Whether a DIAG.RESTART is due: its reply released, or 10 ms passed since the reply (R442). -/
def restartDue (s : State) : Bool :=
  match s.rst.restart with
  | some (k, tag, at') => !tagBusy (mbx s k) tag || decide (at' + 10000000 ≤ now s)
  | none => false

/-- RESET_N_LOW (R514 to R516, R528, R442): a low level of `ns`, which below 1 µs is ignored, from 1.5 µs on is a reset, and between
may be either, as `taken` says; or the module's own DIAG.RESTART that is due. -/
def execResetNLow (t ns : Nat) (taken : Bool) (s : State) : Host.Outcome State Fault Refusal :=
  let s := begin s t
  let ext : Option Nat := if 1500 ≤ ns || (1000 ≤ ns && taken) then some (s.time.counter + (ns - 1500)) else none
  .next (if restartDue s then assertReset s (some 3) ext
    else if ext.isSome then assertReset s none ext
    else s)

/-- SELF_REFRESH_TIMEOUT (R529). -/
def execSelfRefreshTimeout (t : Nat) (s : State) : Host.Outcome State Fault Refusal :=
  let s := begin s t
  .next (if s.sys.st = .reset then setFld s Fld.RST_CAUSE_WARM_OK 0 0 else s)

/-- RESET_RELEASE (R515, R16, R73, R75, R527, R528): RESET_N has been high for 10 µs. Device time restarts and the state is BOOT. -/
def execResetRelease (t : Nat) (s : State) : Host.Outcome State Fault Refusal :=
  let s := begin s t
  .next (if s.sys.st ≠ .reset ∨ s.time.counter < s.rst.free then s
    else
      let warm := liveFld s Fld.RST_CAUSE_WARM_OK == 1
      let s := setFld s Fld.RST_CAUSE_WARM_OK 0 0
      let n : Int := s.time.counter
      let pwr := { s.pwr with warnFrom := s.pwr.warnFrom - n, warnEnd := s.pwr.warnEnd.map (· - n), folded := s.pwr.folded.map (· - n) }
      emit { s with sys := { st := .boot }, time := {}, pwr := pwr, rst := { s.rst with warm := warm } } (.pin "RESET_N" true))

/-- WATCHDOG_EXPIRE (R516, R608, R609): hardware asserts reset; the next start reports the fault. -/
def execWatchdogExpire (t : Nat) (s : State) : Host.Outcome State Fault Refusal :=
  let s := begin s t
  .next (if s.sys.st = .off ∨ s.sys.st = .reset then s
    else assertReset { s with rst := { s.rst with fatal := some 6 } } (some 1) none)

/-- LOCKSTEP_MISMATCH (R8, R516, R608, R609). -/
def execLockstepMismatch (t : Nat) (s : State) : Host.Outcome State Fault Refusal :=
  let s := begin s t
  .next (if s.sys.st = .off ∨ s.sys.st = .reset then s
    else assertReset { s with rst := { s.rst with fatal := some 7 } } (some 2) none)

/-- WARM_ARM (R528): a write of 1 to RST_CTRL.WARM_ARM, by WRITE in class SYS. -/
def actWarmArm (s : State) : State × MsgRes :=
  if jobOn s ∨ s.sys.st = .recovery then (s, ⟨5, 0, [], false⟩)
  else
    (setFld { s with rst := { s.rst with armedAt := some (now s) } } Fld.RST_CAUSE_WARM_OK 0 1, ⟨0, 0, [], false⟩)

/-- WARM_ARM (R528, R341). -/
def execWarmArm (t : Nat) (ch : Fin 6) (tag : Nat) (s : State) : Host.Outcome State Fault Refusal :=
  .next (message (begin s t) ch 1 2 tag true true actWarmArm)

/-- WARM_ARM_EXPIRE (R528). -/
def execWarmArmExpire (t : Nat) (s : State) : Host.Outcome State Fault Refusal :=
  let s := begin s t
  .next (match s.rst.armedAt with
    | some a => if a + 10000000000 ≤ now s then
        setFld { s with rst := { s.rst with armedAt := none } } Fld.RST_CAUSE_WARM_OK 0 0 else s
    | none => s)

/-! ### The start (R520 to R538) -/

/-- The strap code of one reading in units of 10 Ω, by the accepted ranges of R521. -/
def strapCode (r : Nat) : Option Nat :=
  if r < 30 then some 0
  else if 20000 < r then some 15
  else
    let bands : List (Nat × Nat) := [(88, 112), (129, 165), (189, 241), (278, 354), (408, 520), (599, 763), (880, 1120),
      (1290, 1650), (1890, 2410), (2780, 3540), (4080, 5200), (5990, 7630), (8800, 11200), (12900, 16500)]
    (bands.findIdx? fun b => decide (b.1 ≤ r) && decide (r ≤ b.2)).map (· + 1)

/-- The strap: one code in all four readings, or between bands (R520). -/
def strapOf (rs : List Nat) : Option Nat :=
  match rs with
  | [] => none
  | r :: _ => match strapCode r with
    | some c => if rs.all fun x => strapCode x == some c then some c else none
    | none => none

/-- A start fails (R535): LAST_FAIL_STEP, and the module asserts reset with SELF_CAUSE 5. -/
def failStart (s : State) (step : Nat) : State :=
  let s := setFld s Fld.RST_START_FAILS_LAST_FAIL_STEP 0 step
  let s := { s with rst := { s.rst with failed := true } }
  assertReset s (some 5) none

/-- START_TIMEOUT (R535): 5 s after the release without READY. -/
def execStartTimeout (t : Nat) (s : State) : Host.Outcome State Fault Refusal :=
  let s := begin s t
  .next (if s.sys.st ≠ .boot ∨ now s < 5000000000 then s
    else
      let s := cutShort s
      failStart s (liveFld s Fld.RST_START_FAILS_LAST_FAIL_STEP))

/-- Step 2: the fuses and trims (R525, R526). -/
def stepFuses (s : State) (info : StartInfo) : State :=
  let s := if 0 < info.fuseFails then
      raise (sticky s Fld.RST_CAUSE_FUSE_RETRY) 0x0F05 0 (Nat.min 3 (info.fuseFails + 1)) else s
  if 3 ≤ info.fuseFails then s else setFld s Fld.RST_CAUSE_LOADED 0 1

/-- Step 3: the strap gives the attachment, the pair position and the encoders' termination, which a unit strapped SOLO or UNIT_A
connects (R329, R520 to R523, R566). -/
def stepStrap (s : State) (info : StartInfo) : State :=
  match strapOf info.strap with
  | none =>
    let s := raise (sticky s Fld.RST_CAUSE_STRAP_FAULT) 0x0F04 0 0xFF
    { s with sys := { s.sys with linkRate := info.rate, linkWidth := info.width }, rst := { s.rst with both := true },
             pos := { s.pos with encTerm := false }, pair := { s.pair with capable := false, unitB := false, role := .solo } }
  | some c =>
    let s := setFld (setFld s Fld.RST_CAUSE_STRAP_CODE 0 c) Fld.RST_CAUSE_STRAP_VALID 0 1
    let s := if c % 4 = 3 then raise (sticky s Fld.RST_CAUSE_STRAP_FAULT) 0x0F04 0 c else s
    let eth := c.testBit 2
    let paired : Bool := c % 4 == 1 || c % 4 == 2
    { s with pos := { s.pos with encTerm := c % 4 ≤ 1 }, sys := { s.sys with ethernet := eth, linkRate := if eth then 0 else info.rate, linkWidth := if eth then 0 else info.width },
             pair := { s.pair with capable := paired, unitB := c % 4 == 2, role := if paired then .standby else .solo } }

/-- Whether the start is warm (R527): the conditions that held at the release, and the strap of the last start. -/
def startsWarm (s : State) (info : StartInfo) : Bool :=
  s.rst.warm && (strapOf info.strap).isSome && strapOf info.strap == s.rst.lastStrap

/-- The reason to enter recovery mode that steps 2 and 3 find, 0 for none (R536). -/
def recoveryCause (s : State) (info : StartInfo) : Nat :=
  if 3 ≤ info.fuseFails then 5
  else match strapOf info.strap with
    | none => 3
    | some c =>
      if liveFld s Fld.RST_START_FAILS_FAILED_START_LIMIT ≤ liveFld s Fld.RST_START_FAILS_START_FAILS then 1
      else if c.testBit 3 then 2 else 0

/-- Step 5: the slot that runs (R495, R496): PREFERRED, or the other with BOOT_FALLBACK; none when neither is valid. A warm start
compares the digest that MRAM holds. -/
def stepFirmware (s : State) (info : StartInfo) (warm : Bool) : Option State :=
  let p := liveFld s Fld.SEC_FUSE_PREFERRED
  let s := if warm && (!info.digestOk || (nth s.sec.slots p {}).digest.isNone) then raise s 0x0F03 0 5 else s
  let run (s : State) (i : Nat) : State :=
    let slots := upd s.sec.slots i fun x => { x with digest := some (x.digest.getD (Config.sha384 (Config.slotImage i))) }
    setFld { s with sec := { s.sec with slots := slots } } Fld.SEC_STATUS_RUNNING_SLOT 0 i
  if slotValid s p then some (run s p)
  else if slotValid s (1 - p) then
    let why := if (nth s.sec.slots p {}).valid then 3 else (nth s.sec.slots p {}).why
    some (raise (sticky (run s (1 - p)) Fld.SEC_STATUS_BOOT_FALLBACK) 0x0C08 (1 - p) why)
  else none

/-- A trust anchor whose MAC fails is absent (R482). -/
def dropTrust (s : State) (x : Nat × Nat) : State :=
  let s := match x.1 with
    | 0 => { s with sec := { s.sec with owner := none } }
    | 1 => { s with sec := { s.sec with roots := upd s.sec.roots x.2 fun _ => none } }
    | _ => { s with sec := { s.sec with partner := none } }
  raise s 0x0C11 x.1 0xFF

/-- Step 6: MRAM (R419, R482, R534): trust anchors, the configuration snapshot in both sets. -/
def stepMram (s : State) (info : StartInfo) : State :=
  let s := (info.mac.filter (·.1 ≤ 2)).foldl dropTrust s
  let s := { s with host := { s.host with netActive := s.host.netConfig } }
  match (if info.snapshot then s.sets.snapshot else none) with
  | some c => { s with sets := { active := c, shadow := c, snapshot := some c } }
  | none => sticky { s with sets := {} } Fld.SET_STATUS_SNAPSHOT_BAD

/-- A DRAM channel trained in full (R109): its temperature, and the results of every item, which are in use from now on. -/
def trainChannel (s : State) (info : StartInfo) (n : Nat) : State :=
  let temp := nth info.temps (12 + n) 0 / 8
  let eyes := (info.eyes.filter (·.1 == n)).flatMap (·.2)
  let s := setDram s n fun d => { d with temp := temp, trained := eyes, settings := eyes }
  let s := setFld (setFld s Fld.IMG_TEMP_TRAIN_TEMP n (unsignedOf 8 temp)) Fld.CAL_TEMP_LAST_CAL_TEMP n (unsignedOf 8 temp)
  judgeEyes s n eyes

/-- The store emptied, with the grain and ECC that now take effect (R108). -/
def emptyStore (s : State) : State :=
  let ecc : Bool := liveFld s Fld.IMG_CTRL_IMG_ECC_EN == 1
  let x := { s.store with grainInForce := liveFld s Fld.IMG_CTRL_GRAIN, eccInForce := ecc }
  { s with store := { x with images := [], nextHandle := 1, strips := [], moves := [], olds := [], rowErrs := [] } }

/-- Step 7 of a cold start: every channel trained, the store empty. -/
def coldStore (s : State) (info : StartInfo) : State := (List.range 4).foldl (fun s n => trainChannel s info n) (emptyStore s)

/-- Step 7 of a warm start (R108, R110, R531): the stored results are loaded, channels whose quick check fails are trained in full, and a directory whose check
fails, or a changed grain or ECC, leaves the store empty. -/
def warmStore (s : State) (info : StartInfo) : State :=
  let s := (List.range 4).foldl (fun s n => setDram s n fun d => { d with settings := d.trained }) s
  let s := (info.quickBad.filter (· < 4)).foldl (fun s n => trainChannel (raise s 0x0F03 0 7) info n) s
  if !info.store then emptyStore (raise (raise s 0x030D 0 3) 0x0F03 0 7)
  else
    let code : Nat := if liveFld s Fld.IMG_CTRL_GRAIN ≠ s.store.grainInForce then 1
      else if (liveFld s Fld.IMG_CTRL_IMG_ECC_EN == 1) != s.store.eccInForce then 2 else 0
    if code = 0 then s else emptyStore (raise s 0x030D 0 code)

/-- The sensor that governs a lane's calibration: FL0 to FL11, FL12 to FL23, or PL0 to PL3 as lanes 24 to 27 (R544, R553). -/
def laneSensor (n : Nat) : Nat := if n < 12 then 4 else if n < 24 then 5 else 6

/-- Step 8 of a warm start: the stored polarity and lane order are applied (R250). -/
def applyMaps (s : State) : State :=
  { s with link := { s.link with lanes := s.link.lanes.map fun l => match l.map with
    | some (i, k) => { l with inverted := i, groupLane := k }
    | none => l } }

/-- Step 8: the lanes of a cold start learn their maps anew and are calibrated at the sensors' temperatures (R250, R553). -/
def coldLanes (s : State) (info : StartInfo) : State :=
  let s := { s with link := { s.link with lanes := List.replicate 24 {} } }
  (List.range 28).foldl (fun s n =>
    let temp := unsignedOf 8 (nth info.temps (laneSensor n) 0 / 8)
    setFld (setFld s Fld.CAL_TEMP_LAST_CAL_TEMP (calBase 2 + n) temp) Fld.CAL_TEMP_LAST_CAL_TEMP (calBase 3 + n) temp) s

/-- A change of device state that happened while the firmware did not run, reported at step 9; OFF stands in the log alone (R413). -/
def pastChange (s : State) (old new : SysSt) : State :=
  let e : Event := ⟨now s, 0x0101, 0, stateCode new + 256 * stateCode old⟩
  if old = .off then logEvent s e else { s with host := { s.host with queued := s.host.queued ++ [e] } }

/-- What the always-on domain and MRAM report at step 9 (R347, R535, R578, R609). -/
def pastFaults (s : State) : State :=
  let s := match s.pair.cutFell with
    | some at' => raiseAt { s with pair := { s.pair with cutFell := none } } at' 0x0B02 (unitNo s) 2
    | none => s
  let s := match s.rst.fatal with
    | some k => raise (sticky { s with rst := { s.rst with fatal := none } } (if k = 6 then Fld.SYS_FATAL_WATCHDOG else Fld.SYS_FATAL_LOCKSTEP))
        0x0109 0 k
    | none => s
  let s := if s.rst.failed then
      let n := liveFld s Fld.RST_START_FAILS_LAST_FAIL_STEP + 256 * liveFld s Fld.RST_START_FAILS_START_FAILS
      raise (sticky { s with rst := { s.rst with failed := false } } Fld.RST_CAUSE_START_FAIL) 0x0F06 0 n
    else s
  if s.pwr.tripped then raise (sticky { s with pwr := { s.pwr with tripped := false } } Fld.PWR_STATUS_INPUT_TRIP) 0x0E06 0 0 else s

/-- Step 9 (R392, R400, R443, R508, R533, R543): the subsystems stand at their reset values; the firmware runs. -/
def stepFirmwareStart (s : State) (info : StartInfo) (warm : Bool) : State :=
  let s := setFld s Fld.RST_CAUSE_WARM 0 (bit warm)
  let s := pastFaults (doorbell (pastChange (pastChange s s.rst.prev .reset) .reset .boot) 24)
  let s := raise s (if warm then 0x0F02 else 0x0F01) 0 (bankReg s.live .RST_CAUSE 0 0 % 2 ^ 16)
  let s := (List.range 6).foldl moduleReset s
  let s := if info.rng then s
    else
      let (k, s) := fresh s
      raise (sticky { s with sec := { s.sec with rngFailed := true } } Fld.SEC_STATUS_RNG_FAIL) 0x0C09 0 (1 + Config.freeByte k % 2)
  let n := s.time.counter / 100000
  let time := { s.time with pick := n, pickStart := n * 100000, nextBoundary := (n + 1) * 100000 }
  { s with time := time, rst := { s.rst with lastStrap := strapOf info.strap } }

/-- Every register in force at the start (R6). -/
def effective (s : State) : State := { s with startEff := s.live, pickEff := s.live, frameEff := [s.live, s.live] }

/-- The start enters recovery mode (R536, R537): START_FAILS unchanged, and the start's events in the log only. -/
def enterRecovery (s : State) (info : StartInfo) (warm : Bool) (cause : Nat) : State :=
  let s := blowFuses (setFld (setFld s Fld.RST_CAUSE_RECOVERY 0 1) Fld.RST_START_FAILS_RECOVERY_CAUSE 0 cause)
  let s : State := { s with store := { retired := s.store.retired, dram := s.store.dram.map fun d => { temp := d.temp, trained := d.trained } } }
  let s := stepFirmwareStart (stepMram ((stepFirmware s info warm).getD s) info) info warm
  let s := audit s 0x0C80 0 (liveFld s Fld.SEC_STATUS_RUNNING_SLOT)
  let s := raise s 0x0F07 0 cause
  let s := noteCertified (effective (setState s .recovery))
  let s := logQueued s
  { s with host := { s.host with queued := [], logged := 0 } }

/-- The summary bits of step 10 (R603). -/
def startSummary (s : State) : State :=
  regList.foldl (fun s r =>
    let has (i : Nat) : Bool := (regFields r).any fun f => f.acc == .w1c && f != Fld.RST_CAUSE_POR && liveFld s f i != 0
    if r != .FAULT_SUMMARY && (regFields r).any (·.acc == .w1c) && (List.range (regInfo r).count).any has then
      setSummary s (summaryBit r) else s) s

/-- The pairing at the end of a start (R329 to R331, R334): a SOLO unit holds the lease, unless the hardware trip acts (R552); a
pair-capable unit listens for an active partner. -/
def startPairing (s : State) : State :=
  if s.pair.capable then doorbell { s with pair := { s.pair with role := .standby, joinFrom := some (now s), hbRun := !s.thm.tripped } } 18
  else if s.thm.tripped then s
  else doorbell (emit { s with pair := { s.pair with role := .solo, lease := true } } (.pin "PAIR_LEASE" true)) 18

/-- The frame store of a port that was enabled before the start: taken from the image capacity, or NO_STORE when it is short (R290). -/
def takeFrameStore (s : State) (k : Nat) : State :=
  let slots := fld s Fld.CAM_CTRL_STORE_FRAMES k
  if !(nth s.vision.cams k {}).enBefore || slots == 0 then s
  else if freeBytes s < slots * 2 ^ 20 then sticky s Fld.CAM_STATUS_NO_STORE k
  else { s with vision := { s.vision with cams := upd s.vision.cams k fun p => { p with store := true } } }

/-- Step 10 (R530, R534, R219, R238, R290): READY. -/
def reachReady (s : State) : State :=
  let s := (List.range 2).foldl takeFrameStore (startPairing (effective s))
  let s := changeSource s (wantedSource s)
  let s := (List.range 16).foldl (fun s c =>
    let h := startPath s.sets.active c
    setPathNow (setChan s c fun x => { x with onHist := h }) c h) s
  let s := startGroups { s with pos := { s.pos with source := fld s Fld.POS_SOURCE_PRIMARY } }
  let s := startSummary (setFld s Fld.RST_START_FAILS_START_FAILS 0 0)
  emit (noteCertified (setState s .ready)) (.pin "READY" true)

/-- Steps 4 to 10 once step 3 lets the start go on. Fuses that a reset left to blow are blown before a slot is verified (R498). -/
def stepsOn (s : State) (info : StartInfo) (warm : Bool) : State :=
  let n := liveFld s Fld.RST_START_FAILS_START_FAILS
  let s := blowFuses (setFld s Fld.RST_START_FAILS_START_FAILS 0 (satNat 8 (n + 1)))
  if !warm && !info.bist then failStart s 4
  else match stepFirmware s info warm with
    | none => enterRecovery (setFld s Fld.RST_START_FAILS_START_FAILS 0 n) info warm 4
    | some s =>
      let s := stepMram s info
      if (!warm || info.quickBad.any (· < 4)) && !info.train then failStart s 7
      else
        let s := if warm then applyMaps (warmStore s info) else coldLanes (coldStore s info) info
        let s := stepFirmwareStart s info warm
        reachReady (audit s 0x0C80 0 (liveFld s Fld.SEC_STATUS_RUNNING_SLOT))

/-- A cold start clears the counters of lines (R71). -/
def clearLineCounters (s : State) : State := { s with live := bankKeep s.live fun r => !lineCounters.contains r }

/-- START (R530): the whole start, from the release to READY or RECOVERY, or to the reset of a failed start. -/
def execStart (t : Nat) (info : StartInfo) (s : State) : Host.Outcome State Fault Refusal :=
  let s := begin s t
  .next (if s.sys.st ≠ .boot then s
    else if !info.clock then failStart s 2
    else
      let s := stepStrap (stepFuses s info) info
      let warm := startsWarm s info
      let cause := recoveryCause s info
      let s := if warm then s else clearLineCounters s
      if cause = 0 then stepsOn s info warm else enterRecovery s info warm cause)

/-! ### Fatal faults (R608, R609) -/

/-- The SYS_FATAL field of a bit. -/
def fatalField (b : Nat) : Field :=
  match b with
  | 0 => Fld.SYS_FATAL_RAIL
  | 1 => Fld.SYS_FATAL_CLOCK_IN
  | 2 => Fld.SYS_FATAL_TIME_CLOCK
  | 3 => Fld.SYS_FATAL_SRAM_UNCORR
  | _ => Fld.SYS_FATAL_CORE_MEM_UNCORR

/-- A fatal fault of bits 0 to 4: SYS_FATAL and the log first, then the release of the lease, then its end. -/
def fatal (s : State) (b : Nat) : State :=
  if !serving s then s
  else
    let s := sticky s (fatalField b)
    let head := s.host.evHead
    let s := writeEvent s ⟨now s, 0x0109, 0, b + 1⟩
    let s := if s.host.evHead = head then s else doorbell s 16
    let s := releaseLease s (b + 1)
    if b = 3 ∧ s.pair.role ≠ .solo then orderlyStop s 7 else assertReset s (some 4) none

/-- FATAL_FAULT (R608). -/
def execFatalFault (t : Nat) (b : Fin 5) (s : State) : Host.Outcome State Fault Refusal := .next (fatal (begin s t) b)

end Sys2Proof.Machine
end

