-- ==== Sys2Proof/Machine/Thermal.lean ====
section
/-!
DEFINITION. Temperature sensors, throttling, the orderly stop and the hardware trip, calibration against temperature (chapter 16),
and the self-test of R344.
-/
namespace Sys2Proof.Machine

/-! ### Sensors (R544 to R547) -/

/-- The neighbours of a sensor. -/
def neighbours (k : Nat) : Nat × Nat :=
  match k with
  | 0 => (1, 2) | 1 => (0, 3) | 2 => (0, 3) | 3 => (1, 2) | 4 => (0, 2) | 5 => (1, 3) | 6 => (7, 9) | 7 => (6, 8)
  | 8 => (7, 0) | 9 => (6, 10) | 10 => (9, 11) | 11 => (10, 7) | 12 => (13, 15) | 13 => (14, 12) | 14 => (15, 13) | _ => (12, 14)

/-- The sensors in THM_MAX, which the trip and the count of R546 watch too. -/
def watched (k : Nat) : Bool := k < 10 || k == 11

/-- A sensor. -/
def sensor (s : State) (k : Nat) : Sensor := nth s.thm.sensors k {}

/-- A sensor changed. -/
def setSensor (s : State) (k : Nat) (f : Sensor → Sensor) : State :=
  { s with thm := { s.thm with sensors := upd s.thm.sensors k f } }

/-- The check of R545 that a sensor fails, 0 for none: 1 range, 2 stuck, 3 neighbours. -/
def sensorFails (s : State) (x : TempIn) (k : Nat) : Nat :=
  let far (n : Nat) : Bool := decide (120 < (x.temp - (sensor s n).reading).natAbs)
  if x.err || decide (x.temp < -440) || decide (1200 < x.temp) then 1
  else if 64 ≤ (sensor s k).same then 2
  else if far (neighbours k).1 && far (neighbours k).2 then 3 else 0

/-- The readings of a pick taken in, before any is judged. -/
def takeReadings (s : State) (xs : List TempIn) : State :=
  (List.range xs.length).foldl (fun s k => match xs[k]? with
    | some x => setSensor s k fun y => { y with raw := x.raw, same := if y.raw = x.raw then y.same + 1 else 0, reading := x.temp }
    | none => s) s

/-- One sensor judged: excluded when it fails (R546); while its re-admission runs, picks passed are counted (R547). -/
def judgeSensor (s : State) (x : TempIn) (k : Nat) : State :=
  let bad := sensorFails s x k
  let y := sensor s k
  if y.excluded then
    match y.passed with
    | some n => setSensor s k fun y => { y with passed := some (if bad = 0 then n + 1 else 0) }
    | none => s
  else if bad = 0 then s
  else
    let s := setSensor s k fun y => { y with excluded := true, passed := none }
    let s := sticky (sticky s Fld.THM_SENSOR_FAIL_SENSOR_FAIL_BITS 0 k) Fld.THM_STATUS_SENSOR_FAIL
    raise s 0x0D01 k bad

/-- Stand-ins that rest on values already known: 10 °C above the higher of the two neighbours (R546). -/
def standIns (excluded : Nat → Bool) (known : List (Nat × Int)) : List (Nat × Int) :=
  (List.range 16).foldl (fun known k =>
    if !excluded k || known.any (·.1 == k) then known
    else match known.find? (·.1 == (neighbours k).1), known.find? (·.1 == (neighbours k).2) with
      | some a, some b => known ++ [(k, max a.2 b.2 + 80)]
      | _, _ => known) known

/-- The values in force: readings, and stand-ins for the excluded sensors. Where excluded neighbours rest on each other the manual
gives no value (log 36). -/
def settleValues (s : State) : State :=
  let excluded (k : Nat) : Bool := (sensor s k).excluded
  let own := ((List.range 16).filter fun k => !excluded k).map fun k => (k, (sensor s k).reading)
  let known := (List.range 16).foldl (fun l _ => standIns excluded l) own
  let rest := (List.range 16).filter fun k => !known.any (·.1 == k)
  let (s, known) := rest.foldl (fun (p : State × List (Nat × Int)) k =>
    let (n, s) := fresh p.1
    (s, p.2 ++ [(k, Config.standIn n)])) (s, known)
  (List.range 16).foldl (fun s k =>
    let v := match known.find? (·.1 == k) with | some a => a.2 | none => 0
    let s := setSensor s k fun y => { y with value := v }
    setFld (setFld s Fld.THM_T_TEMP k (unsignedOf 16 v)) Fld.THM_T_STAND_IN k (bit (excluded k))) s

/-- THM_MAX and the sensor that gives it, the lowest of several. -/
def hottest (s : State) : Int × Nat :=
  ((List.range 16).filter watched).foldl (fun m k => if m.1 < (sensor s k).value then ((sensor s k).value, k) else m)
    ((sensor s 0).value, 0)

/-- THM_MAX, THM_MAX_SRC, THM_PEAK and EXCLUDED_ANY written. -/
def noteMax (s : State) : State :=
  let (m, k) := hottest s
  let peak : Int := match s.thm.peak with | some p => max p m | none => m
  let any := s.thm.sensors.any (·.excluded)
  let s := { s with thm := { s.thm with peak := some peak } }
  let s := setFld (setFld s Fld.THM_MAX_MAX 0 (unsignedOf 16 m)) Fld.THM_MAX_MAX_SRC 0 k
  setFld (setFld s Fld.THM_PEAK_PEAK 0 (unsignedOf 16 peak)) Fld.THM_STATUS_EXCLUDED_ANY 0 (bit any)

/-- SENSOR_READMITTED (R547): the bit cleared by the host and 64 picks passed. -/
def execSensorReadmitted (t : Nat) (k : Fin 16) (s : State) : Host.Outcome State Fault Refusal :=
  let s := begin s t
  let y := sensor s k
  .next (match y.passed with
    | some n =>
      if !y.excluded ∨ n < 64 ∨ (liveFld s Fld.THM_SENSOR_FAIL_SENSOR_FAIL_BITS).testBit k then s
      else
        let s := setSensor s k fun y => { y with excluded := false, passed := none }
        noteMax (settleValues (raise s 0x0D05 k (unsignedOf 32 y.reading)))
    | none => s)

/-- SENSOR_FAIL_WRITE (R547, R341): a WRITE in class SYS that clears bits of THM_SENSOR_FAIL; each starts a re-admission. -/
def clearSensorFail (s : State) (bits : Nat) : State :=
  let v := liveFld s Fld.THM_SENSOR_FAIL_SENSOR_FAIL_BITS
  let s := setFld s Fld.THM_SENSOR_FAIL_SENSOR_FAIL_BITS 0 (v - (v &&& bits))
  (List.range 16).foldl (fun s k =>
    if bits.testBit k && v.testBit k then setSensor s k fun y => { y with passed := some 0 } else s) s

/-- SENSOR_FAIL_WRITE (R547). -/
def execSensorFailWrite (t : Nat) (ch : Fin 6) (tag bits : Nat) (s : State) : Host.Outcome State Fault Refusal :=
  .next (message (begin s t) ch 1 2 tag true true fun s => 
    (clearSensorFail s (spared s (regKey .THM_SENSOR_FAIL 0 0) (2 ^ 16 - 1) (bits % 2 ^ 16)), ⟨0, 0, [], false⟩))

/-! ### Throttling (R548) -/

/-- The threshold of a level, in 1/8 °C. -/
def threshold (s : State) (k : Nat) : Int :=
  8 * Int.ofNat (fld s Fld.THM_CTRL_THROTTLE_T + (k - 1) * fld s Fld.THM_CTRL_THROTTLE_STEP)

/-- The level changes: THROTTLED when it is above 0, event 0x0D02. A scan that waited begins at level 0 (R549). -/
def setLevel (s : State) (k : Nat) : State :=
  let s := setFld s Fld.THM_STATUS_LEVEL 0 k
  let s := if 0 < k then sticky s Fld.THM_STATUS_THROTTLED else s
  let s := raise { s with thm := { s.thm with below := 0 } } 0x0D02 0 (k + 256 * unsignedOf 8 ((hottest s).1 / 8))
  if k = 0 ∧ s.link.scanDue then startEye s else s

/-- The level after a sample: it rises to the highest level whose threshold is met, and picks below the hysteresis are counted. -/
def judgeLevel (s : State) : State :=
  let m := (hottest s).1
  let met := ((List.range 5).filter fun k => 0 < k && decide (threshold s k ≤ m)).foldl Nat.max 0
  let k := throttle s
  if k < met then setLevel s met
  else
    let low : Bool := k != 0 && !(s.thm.sensors.any (·.excluded)) &&
      decide (m < threshold s k - 8 * Int.ofNat (fld s Fld.THM_CTRL_THM_HYST))
    { s with thm := { s.thm with below := if low then s.thm.below + 1 else 0 } }

/-- THROTTLE_FALL (R548). -/
def execThrottleFall (t : Nat) (s : State) : Host.Outcome State Fault Refusal :=
  let s := begin s t
  .next (if throttle s = 0 ∨ s.thm.below < fld s Fld.THM_HOLD_THROTTLE_HOLD ∨ s.thm.sensors.any (·.excluded) then s
    else setLevel s (throttle s - 1))

/-! ### Orderly stop and trip (R550 to R552) -/

/-- A handover begun by the unit itself, H 4 picks ahead (R357, R550). -/
def beginHandover (s : State) : State :=
  { s with pair := { s.pair with handover := some (s.time.pick + 4), handPick := s.time.pick, handHub := none } }

/-- A standby stops its weft channels and its transmitters (R550). -/
def stopStandby (s : State) : State :=
  let s := raise (stopFetch s) 0x0D03 (hottest s).2 3
  { s with thm := { s.thm with standbyStop := true } }

/-- THM_MAX has reached STOP_T, or too many sensors are excluded (R546, R550). -/
def thermalStop (s : State) : State :=
  let s := sticky { s with thm := { s.thm with stopRun := true } } Fld.THM_STATUS_STOPPED
  let src := (hottest s).2
  if s.pair.role = .active ∧ s.pair.lease ∧ fld s Fld.THM_CTRL_HANDOVER_ON_STOP = 1 ∧ s.pair.partnerReady then
    let s := raise s 0x0D03 src 1
    if s.pair.handover.isSome then s else beginHandover s
  else if s.pair.role = .standby then stopStandby s
  else orderlyStop (raise s 0x0D03 src 2) 6

/-- STOP_T − 10 °C, in 1/8 °C (R551). -/
def coolLevel (s : State) : Int := 8 * (Int.ofNat (fld s Fld.THM_CTRL_STOP_T) - 10)

/-- Whether more than four of the watched sensors are excluded (R546). -/
def manyExcluded (s : State) : Bool :=
  decide (4 < ((List.range 16).filter fun k => watched k && (sensor s k).excluded).length)

/-- A standby stopped for temperature renders again, from the lines of the last record, and compares them (R551). -/
def resumeStandby (s : State) : State :=
  let s := { s with thm := { s.thm with standbyStop := false } }
  if s.pair.role ≠ .standby then s
  else
    let s := if jobOn s then
        let cs := (List.range 16).filter s.job.channels.testBit
        cs.foldl fillBuffers (cs.foldl (fun s c => startChan s c (nth s.pair.recNext c (chan s c).next)) s)
      else s
    if s.pair.capable then startStage { s with pair := { s.pair with synced := false, matchRun := 0 } } 5 else s

/-- The unit has cooled below STOP_T − 10 °C: the trip lets go, with the lease of a SOLO unit, and a stopped standby resumes. -/
def coolDown (s : State) : State :=
  let s := if s.thm.tripped then
      let s := { s with thm := { s.thm with tripped := false }, pair := { s.pair with forceStandby := false, hbRun := true } }
      if s.pair.role = .solo ∧ serving s ∧ s.sys.st ≠ .recovery then doorbell (emit { s with pair := { s.pair with lease := true } } (.pin "PAIR_LEASE" true)) 18 else s
    else s
  if s.thm.standbyStop then resumeStandby s else s

/-- R550 and R551 after a sample. -/
def judgeStop (s : State) : State :=
  let m := (hottest s).1
  let over' : Bool := decide (8 * Int.ofNat (fld s Fld.THM_CTRL_STOP_T) ≤ m) || manyExcluded s
  let s := if over' then (if s.thm.stopRun then s else thermalStop s) else { s with thm := { s.thm with stopRun := false } }
  if m < coolLevel s ∧ !manyExcluded s ∧ (s.thm.tripped ∨ s.thm.standbyStop) then coolDown s else s

/-- The trip takes every lease-gated output to rest at once; a moving axis stops without a ramp (R552). -/
def tripOutputs (s : State) : State :=
  let s := (List.range 8).foldl (fun s n => if s.pair.lease && axisMoves (axis s n) then stopNow s n true else s) s
  let s := if s.pair.lease then doorbell (emit { s with pair := { s.pair with lease := false, cut := none } } (.pin "PAIR_LEASE" false)) 18 else s
  let s := if s.pair.hbOut then emit s (.pin "PAIR_HB_OUT" false) else s
  { s with pair := { s.pair with forceStandby := true, hbRun := false, hbOut := false }, thm := { s.thm with tripped := true } }

/-- What a unit becomes after a trip (R552): SAFE_STOP with cause 6, or the STANDBY role in a pair. -/
def tripEnd (s : State) : State :=
  if s.pair.role = .solo then orderlyStop s 6
  else
    let s := stopFetch s
    let s : State := { s with thm := { s.thm with standbyStop := true } }
    if s.pair.role = .active then toStandby s else s

/-- The firmware's part of a trip (R552): at once, or from the first pick on that it runs. -/
def reportTrip (s : State) : State :=
  match s.thm.tripNote with
  | some (k, temp) =>
    if serving s then
      tripEnd (raise (sticky { s with thm := { s.thm with tripNote := none } } Fld.THM_STATUS_TRIPPED) 0x0D04 k (unsignedOf 32 temp))
    else s
  | none => s

/-- THERMAL_TRIP (R552): the hardware acts; then the firmware reports it and enters SAFE_STOP, or takes the STANDBY role. -/
def execThermalTrip (t : Nat) (k : Fin 16) (temp : Int) (s : State) : Host.Outcome State Fault Refusal :=
  let s := begin s t
  .next (if !barOpen s || !watched k || (sensor s k).excluded || decide (temp < 984) || s.thm.tripped then s
    else
      let s := tripOutputs s
      reportTrip { s with thm := { s.thm with tripNote := some (k.val, temp) } })

/-! ### The self-test (R344, R345) -/

/-- A slice has failed. -/
def selfTestFail (s : State) (slice : Nat) (inPath : Bool) : State :=
  let s := raise (sticky s Fld.PAIR_STATUS_SELFTEST_FAIL) 0x0B10 (unitNo s) slice
  if s.pair.role = .standby then changeScore s (-25)
  else if s.pair.role = .active ∧ s.pair.lease ∧ inPath ∧ liveFld s Fld.PAIR_CTRL_FAILOVER_ON_SELFTEST = 1 ∧
      s.pair.partnerReady ∧ s.pair.handover.isNone then beginHandover s
  else s

/-- A condition that counts as a failed slice without naming one. -/
def asFailedSlice (s : State) : State :=
  let (n, s) := fresh s
  selfTestFail s (Config.freeByte n) true

/-! ### Calibration (R553 to R557) -/

/-- The drift of an item since its last calibration, in whole °C. -/
def drift (s : State) (item inst sens : Nat) : Nat :=
  (sensorC s sens - signedOf 8 (liveFld s Fld.CAL_TEMP_LAST_CAL_TEMP (calBase item + inst))).natAbs

/-- Whether an item is due. -/
def calNow (s : State) (item inst sens : Nat) : Bool := decide (fld s Fld.CAL_CTRL_CAL_DELTA_T ≤ drift s item inst sens)

/-- The lanes that run: those of an enabled group, and the peer link's of a pair-capable unit. -/
def runningLanes (s : State) : List Nat :=
  (List.range 28).filter fun n => if n < 24 then (laneHub s n).isSome else s.pair.capable

/-- Receivers, references and back-EMF converters (R553, R556): the first two at once, the last in its next sample window. -/
def calibrateAtOnce (s : State) : State :=
  let s := (runningLanes s).foldl (fun s n =>
    if calNow s 2 n (laneSensor n) then calDone s 2 n (sensorC s (laneSensor n)) else s) s
  let s := (List.range 16).foldl (fun s k => if calNow s 4 k k then calDone s 4 k (sensorC s k) else s) s
  (List.range 8).foldl (fun s n => if calNow s 5 n 10 then setAxis s n fun m => { m with calDue := true } else s) s

/-- Whether lines are being sent to a hub. -/
def hubBusy (s : State) (u : Nat) : Bool :=
  jobOn s && (hubOf s u).state == 3 && (List.range 16).any fun c => s.job.channels.testBit c && !(rowsOnHub (cfgOf s c) c u).isEmpty

/-- A lane's transmit band recentred. -/
def recentre (s : State) (n : Nat) : State :=
  let s := { s with thm := { s.thm with bands := s.thm.bands.filter (· != n), bandPick := some s.time.pick,
                                        reported := s.thm.reported.filter (· != n) } }
  calDone s 3 n (sensorC s (laneSensor n))

/-- A deferred recentring is reported once its drift reaches twice CAL_DELTA_T (R554). -/
def deferBand (s : State) (n : Nat) : State :=
  let d := drift s 3 n (laneSensor n)
  if d < 2 * fld s Fld.CAL_CTRL_CAL_DELTA_T ∨ s.thm.reported.contains n then s
  else raise (sticky { s with thm := { s.thm with reported := n :: s.thm.reported } } Fld.CAL_STATUS_LANE_DEFERRED) 0x1202 n d

/-- One lane whose band is due (R554): the lane leaves its group's mask by RESTRIPE when the others meet the load rules, is recentred
once it is out, and rejoins under R280; at rest it is recentred at once; otherwise it waits. One lane of a group at a time. -/
def bandLane (s : State) (n : Nat) : State :=
  if !calNow s 3 n (laneSensor n) then s
  else match laneHub s n with
    | none => recentre s n
    | some u =>
      let h := hubOf s u
      let b := 2 ^ (laneOf s n).groupLane
      let out : Bool := !h.mask.testBit (laneOf s n).groupLane
      let left := h.mask - b
      if h.state != 3 || !hubBusy s u || out then recentre s n
      else if s.thm.bands.any (fun m => m != n && laneHub s m == some u) || h.narrow.isSome then s
      else if !h.shed && hubFits s u left then
        let s := setLane (setHub s u fun h => { h with narrow := some left }) n fun l => { l with since := now s }
        { s with thm := { s.thm with bands := if s.thm.bands.contains n then s.thm.bands else s.thm.bands ++ [n] } }
      else deferBand s n

/-- The transmit bands: none in the same pick as a DRAM retrain. -/
def calibrateBands (s : State) : State :=
  if s.store.dram.any (·.training) || s.store.lastBreak == some s.time.pick then s else (runningLanes s).foldl bandLane s

/-- The always-on oscillator's frequency at the pick (R557). -/
def noteAon (s : State) (hz : Nat) : State :=
  let s := setFld s Fld.CAL_AON_AON_FREQ 0 hz
  let bad : Bool := hz < 6800000 || 9200000 < hz
  let was := s.thm.aonBad
  let s := { s with thm := { s.thm with aonBad := bad } }
  if bad && !was then asFailedSlice (raise (sticky s Fld.CAL_STATUS_AON_RANGE) 0x1203 0 hz) else s

/-- Step 1 of R17 for the temperatures, and step 2's calibration. -/
def sampleTemps (s : State) (xs : List TempIn) : State :=
  let s := takeReadings s xs
  let s := (List.range xs.length).foldl (fun s k => match xs[k]? with | some x => judgeSensor s x k | none => s) s
  judgeStop (judgeLevel (noteMax (settleValues (reportTrip s))))

end Sys2Proof.Machine
end

