-- ==== Sys2Proof/Machine/Power.lean ====
section
/-!
DEFINITION. Supply and outputs (chapter 18): supply warnings, the electronic fuse, VENC_OUT, internal rails, shorted outputs, and
the management port with the pins beside it (R570, R571).
-/
namespace Sys2Proof.Machine

/-! ### Supply warnings (R580 to R583) -/

/-- The pending counts as they stand go to MRAM (R225, R580). -/
def keepCounts (s : State) : State :=
  { s with rst := { s.rst with pend := bankKeep s.live fun r => r == .FIR_HEAD_PENDING || r == .FIR_INK_PENDING } }

/-- VIN_MIN_MV lowered to a reading of VIN (R599). -/
def noteVin (s : State) (mv : Nat) : State :=
  setFld s Fld.PWR_VIN_VIN_MIN_MV 0 (Nat.min (liveFld s Fld.PWR_VIN_VIN_MIN_MV) (satNat 16 mv))

/-- Whether a warning that asserts now continues the one before: it comes within 100 µs of its end (R581). -/
def continues (s : State) : Bool :=
  match s.pwr.warnEnd with
  | some e => decide (Int.ofNat s.time.counter ≤ e + 100000)
  | none => false

/-- What the module does when a warning asserts (R580, R581): the flush record, the counts and events to MRAM, then its report. -/
def warnActs (s : State) (mv : Nat) : State :=
  let s := if s.pair.role = .active ∧ s.pair.lease ∧ s.sys.st ≠ .boot ∧ s.sys.st ≠ .recovery then sendRecord s none true else s
  let s := bump (sticky (logQueued (keepCounts s)) Fld.PWR_STATUS_VIN_WARN) Fld.PWR_WARN_WARN_COUNT
  raise s 0x0E01 0 mv

/-- VIN_WARN (R580, R581). In reset nothing acts; the warning is in force. -/
def execVinWarn (t mv : Nat) (s : State) : Host.Outcome State Fault Refusal :=
  let s := begin s t
  .next (if s.sys.st = .off ∨ s.pwr.warning then s
    else
      let s := noteVin s mv
      if continues s then { s with pwr := { s.pwr with warning := true } }
      else
        let s : State := { s with pwr := { s.pwr with warning := true, warnFrom := s.time.counter, stopped := false } }
        if s.sys.st = .reset then s else warnActs s mv)

/-- VIN_WARN_END (R582). -/
def execVinWarnEnd (t : Nat) (s : State) : Host.Outcome State Fault Refusal :=
  let s := begin s t
  .next (if !s.pwr.warning then s
    else
      let s : State := { s with pwr := { s.pwr with warning := false, warnEnd := some s.time.counter } }
      if s.sys.st = .reset then s
      else
        let us := ((s.time.counter - s.pwr.warnFrom) / 1000).toNat
        raise (setFld s Fld.PWR_WARN_LAST_WARN_LAST 0 (satNat 32 us)) 0x0E02 0 us)

/-- VIN_WARN_STOP (R583): a warning has lasted 10 ms. -/
def execVinWarnStop (t : Nat) (s : State) : Host.Outcome State Fault Refusal :=
  let s := begin s t
  .next (if !s.pwr.warning ∨ s.pwr.stopped ∨ s.time.counter < s.pwr.warnFrom + 10000000 ∨ !serving s then s
    else
      let s := sticky { s with pwr := { s.pwr with stopped := true } } Fld.PWR_STATUS_VIN_STOP
      let s := raise s 0x0E03 0 (liveFld s Fld.PWR_VIN_VIN_MIN_MV)
      if s.pair.role = .standby then s else orderlyStop s 5)

/-- VIN_HIGH (R595): the module operates and reports. Above the 80 V of R575 the manual says only that damage may follow; a module that
goes on reports there too (DESIGN CHOICE, log 72). -/
def execVinHigh (t mv : Nat) (s : State) : Host.Outcome State Fault Refusal :=
  let s := begin s t
  .next (if !barOpen s then s else raise (sticky s Fld.PWR_STATUS_VIN_HIGH) 0x0E04 0 mv)

/-- INPUT_TRIP (R578): the always-on domain records the trip, and the module stops as at a loss of VIN. -/
def execInputTrip (t : Nat) (s : State) : Host.Outcome State Fault Refusal :=
  let s := begin s t
  .next (if s.sys.st = .off then s else powerLost { s with pwr := { s.pwr with tripped := true } })

/-! ### VENC_OUT (R591) -/

/-- Whether VENC_OUT delivers current. -/
def vencOn (s : State) : Bool := s.sys.st != .off && liveFld s Fld.PWR_CTRL_VENC_EN == 1 && !s.pwr.fed

/-- VENC_OUT folded back, with its report. -/
def foldBack (s : State) : State :=
  let s : State := { s with pwr := { s.pwr with folded := some s.time.counter } }
  if barOpen s then raise (sticky s Fld.PWR_STATUS_VENC_FAULT) 0x0E05 0 1 else s

/-- VENC_OVERLOAD (R591). -/
def execVencOverload (t : Nat) (s : State) : Host.Outcome State Fault Refusal :=
  let s := begin s t
  .next (if !vencOn s ∨ s.pwr.folded.isSome then s else foldBack s)

/-- VENC_RETRY (R591): full current again after 100 ms; an overload that is still there folds the limit back once more. -/
def execVencRetry (t : Nat) (ok : Bool) (s : State) : Host.Outcome State Fault Refusal :=
  let s := begin s t
  .next (match s.pwr.folded with
    | none => s
    | some f =>
      if s.time.counter < f + 100000000 then s
      else if ok || !vencOn s then { s with pwr := { s.pwr with folded := none } }
      else foldBack s)

/-- VENC_BACKFEED (R591): above 5.3 V the output turns off, also in reset, where nothing reports it. Above the 6.0 V of R575 the manual
says only that damage may follow; a module that goes on does the same there (DESIGN CHOICE, log 72). -/
def execVencBackfeed (t mv : Nat) (s : State) : Host.Outcome State Fault Refusal :=
  let s := begin s t
  .next (if mv ≤ 5300 ∨ s.pwr.fed ∨ s.sys.st = .off then s
    else
      let s : State := { s with pwr := { s.pwr with fed := true } }
      if barOpen s then raise (sticky s Fld.PWR_STATUS_VENC_FAULT) 0x0E05 0 2 else s)

/-! ### Rails, CLK_IN and shorted outputs (R595, R596) -/

/-- RAIL_FAULT (R352, R595, R608): rail 0 is CLK_IN. Its event is logged before the reset that a fatal fault ends in. -/
def execRailFault (t : Nat) (rail : Fin 16) (s : State) : Host.Outcome State Fault Refusal :=
  let s := begin s t
  .next (if !serving s then s
    else fatal (logQueued (raise (sticky s Fld.PWR_STATUS_RAIL_FAULT) 0x0E07 0 rail)) (if rail.val = 0 then 1 else 0))

/-- The level that GPIO g drives (R349, R568): its OUT bit while DIR makes it an output and the unit may drive lease-gated outputs. -/
def gpioDrives (s : State) (g : Nat) : Option Bool :=
  if (liveFld s Fld.SYS_GPIO_DIR).testBit g && driving s then some ((liveFld s Fld.SYS_GPIO_OUT).testBit g) else none

/-- Whether GPIO g has its weak pull-down (R565, R568): as PULL_EN keeps it, and always in the reset state of an output that may not drive. -/
def gpioPulled (s : State) (g : Nat) : Bool :=
  (liveFld s Fld.SYS_GPIO_PULL_PULL_EN).testBit g || ((liveFld s Fld.SYS_GPIO_DIR).testBit g && !driving s)

/-- Whether a code names an output that the unit drives: FAULT_N to PPS_OUT, or a GPIO configured as an output (R568). -/
def drivenOut (s : State) (k : Nat) : Bool :=
  decide (k ≤ 4) || (decide (16 ≤ k) && (gpioDrives s (k - 16)).isSome)

/-- OUT_SHORT (R595, R596). -/
def execOutShort (t : Nat) (k : Fin 32) (s : State) : Host.Outcome State Fault Refusal :=
  let s := begin s t
  .next (if !serving s ∨ !drivenOut s k ∨ s.pwr.shorts.contains k.val then s
    else
      let s : State := { s with pwr := { s.pwr with shorts := s.pwr.shorts ++ [k.val] } }
      let s := raise (sticky s Fld.PWR_STATUS_OUT_SHORT) 0x0E08 0 k
      if k.val = 2 then asFailedSlice s else s)

/-- SHORT_SIGNALS: one bit for each code below 16. -/
def shortSignals (s : State) : Nat := ((List.range 16).filter s.pwr.shorts.contains).foldl (fun a k => a + 2 ^ k) 0

/-- Step 1 of R17 for the supply: the readings of the pick, and the outputs that still read back wrong. -/
def samplePower (s : State) (x : PickInputs) : State :=
  let s := noteVin (setFld s Fld.PWR_VIN_VIN_MV 0 (satNat 16 x.vin)) x.vin
  let s := setFld (setFld s Fld.PWR_IIN_IIN_MA 0 (satNat 16 x.iin)) Fld.PWR_POWER_INPUT_POWER 0 (satNat 16 (x.vin * x.iin / 10000))
  let s := setFld s Fld.PWR_VENC_VENC_MA 0 (satNat 16 x.venc)
  { s with pwr := { s.pwr with shorts := s.pwr.shorts.filter x.shorts.contains, fed := s.pwr.fed && x.fed } }

/-! ### Computed readouts (R382) -/

/-- SYS_STATE (R382). -/
def sysStateWord (s : State) : Nat :=
  stateCode s.sys.st + 16 * bit s.sys.ethernet + 32 * s.sys.linkRate + 128 * s.sys.linkWidth

/-! ### The management port (R570, R571) and the level pins -/

/-- FAULT_SUMMARY AND NOT FAULT_MASK (R604). -/
def unmasked (s : State) : Nat :=
  let v := liveFld s Fld.FAULT_SUMMARY_SUBSYSTEM * 2
  v - (v &&& liveFld s Fld.FAULT_MASK_MASK)

/-- The level of FAULT_N (R537, R539, R604): low through a start and in RECOVERY, then while an unmasked bit stands. -/
def faultN (s : State) : Bool := serving s && s.sys.st != .recovery && unmasked s == 0

/-- MG_ALERT_N is low. -/
def alertLow (s : State) : Bool := serving s && (throttle s != 0 || unmasked s != 0)

/-- The address the target answers at. -/
def mgAddress (s : State) : Nat := if s.pair.unitB || s.rst.both then 0x4D else 0x4C

/-- The answer to a command, from step 9 of a start on. -/
def mgAnswer (s : State) (bs : List Byte) : State := if serving s then emit s (.smbus bs) else s

/-- MG_READ_STATE (R570). -/
def execMgReadState (t : Nat) (s : State) : Host.Outcome State Fault Refusal :=
  let s := begin s t
  .next (mgAnswer s (leBytes 1 (stateCode s.sys.st)))

/-- MG_READ_ROLE (R570). -/
def execMgReadRole (t : Nat) (s : State) : Host.Outcome State Fault Refusal :=
  let s := begin s t
  .next (mgAnswer s (leBytes 1 (sysRole s)))

/-- MG_READ_TEMP (R570): THM_MAX in whole °C. -/
def execMgReadTemp (t : Nat) (s : State) : Host.Outcome State Fault Refusal :=
  let s := begin s t
  .next (mgAnswer s (leBytes 1 (unsignedOf 8 (satSigned 8 (signedOf 16 (liveFld s Fld.THM_MAX_MAX) / 8)))))

/-- MG_READ_FAULTS (R570). -/
def execMgReadFaults (t : Nat) (s : State) : Host.Outcome State Fault Refusal :=
  let s := begin s t
  .next (mgAnswer s (leBytes 4 (liveFld s Fld.FAULT_SUMMARY_SUBSYSTEM * 2)))

/-- MG_READ_LEVEL (R570). -/
def execMgReadLevel (t : Nat) (s : State) : Host.Outcome State Fault Refusal :=
  let s := begin s t
  .next (mgAnswer s (leBytes 1 (throttle s)))

/-- MG_ALERT_RESPONSE (R571): the target's address, as an SMBus alert response carries it, while MG_ALERT_N is low. -/
def execMgAlertResponse (t : Nat) (s : State) : Host.Outcome State Fault Refusal :=
  let s := begin s t
  .next (if alertLow s then mgAnswer s (leBytes 1 (2 * mgAddress s)) else s)

/-- MG_BUS_TIMEOUT (R571, R595): the bus is released; the target holds no state of its own. -/
def execMgBusTimeout (t : Nat) (s : State) : Host.Outcome State Fault Refusal := .next (begin s t)

end Sys2Proof.Machine
end

