-- ==== Sys2Proof/Machine/Control.lean ====
section
/-!
DEFINITION. The messages of classes SYS, DIAG and EVT that act on the module as a whole (R414, R415, R429, R441 to R443).
-/
namespace Sys2Proof.Machine

/-! ### SYS (R415, R429) -/

/-- Whether the cause of an orderly stop is still present (R415, R551, R583). -/
def causePresent (s : State) (cause : Nat) : Bool :=
  match cause with
  | 2 => positionFault s s.pos.source
  | 4 => s.print.elements.any (·.seqFault) ||
      (liveFld s Fld.FIR_STATUS_CONS_AUTH_FAIL == 1 && s.print.elements.any fun e => e.inFlight || e.reading)
  | 5 => s.pwr.warning
  | 6 => decide (coolLevel s ≤ (hottest s).1) || manyExcluded s
  | 7 => liveFld s Fld.SYS_FATAL_SRAM_UNCORR == 1
  | _ => false

/-- CLEAR_STOP (R413 to R415). -/
def execClearStop (t : Nat) (ch : Fin 6) (tag : Nat) (s : State) : Host.Outcome State Fault Refusal :=
  .next (message (begin s t) ch 1 0x13 tag true false fun s =>
    if s.sys.st ≠ .safeStop ∨ causePresent s s.sys.stopCause then (s, ⟨5, 0, [], false⟩)
    else (toReady { s with sys := { s.sys with stopCause := 0 } }, ⟨0, 0, [], false⟩))

/-- The reply of SYS.INFO (R429). -/
def sysInfo (s : State) : List Byte :=
  let strap : Nat := if liveFld s Fld.RST_CAUSE_STRAP_VALID = 1 then liveFld s Fld.RST_CAUSE_STRAP_CODE else 0xFF
  leBytes 4 (0x8200 + 0x1E6C * 2 ^ 16) ++ leBytes 4 (Config.sysRev % 2 ^ 16) ++ leBytes 4 (runningSlot s).version ++
    leBytes 16 Config.serial ++ leBytes 1 (liveFld s Fld.SEC_STATUS_RUNNING_SLOT) ++ leBytes 1 strap ++
    leBytes 1 (liveFld s Fld.RST_START_FAILS_FAILED_START_LIMIT) ++ [0] ++ leBytes 4 (imgCapacity s)

/-- SYS_INFO (R429). -/
def execSysInfo (t : Nat) (ch : Fin 6) (tag : Nat) (s : State) : Host.Outcome State Fault Refusal :=
  .next (message (begin s t) ch 1 0x10 tag false false fun s => (s, ⟨0, 0, sysInfo s, false⟩))

/-- The reply of SYS.STATE (R429). -/
def sysStateReply (s : State) : List Byte :=
  leBytes 4 (sysStateWord s) ++ leBytes 4 (sysRole s) ++ leBytes 4 (liveFld s Fld.FAULT_SUMMARY_SUBSYSTEM * 2) ++
    leBytes 4 (bankReg s.live .RST_CAUSE 0 0) ++ leBytes 4 (setStatus s) ++ leBytes 8 (posLine s) ++ leBytes 8 s.time.pick

/-- SYS_STATE (R429). -/
def execSysState (t : Nat) (ch : Fin 6) (tag : Nat) (s : State) : Host.Outcome State Fault Refusal :=
  .next (message (flushUpdate (begin s t)) ch 1 0x11 tag false false fun s => (s, ⟨0, 0, sysStateReply s, false⟩))

/-- NET_CONFIG (R429): the port's mode and addresses, which take effect at the next start. -/
def execNetConfig (t : Nat) (ch : Fin 6) (tag port mode address netmask gateway : Nat) (s : State) :
    Host.Outcome State Fault Refusal :=
  .next (message (begin s t) ch 1 0x14 tag true false fun s =>
    if 1 < port ∨ 1 < mode then (s, ⟨4, 0, [], false⟩)
    else
      let rest := s.host.netConfig.filter (·.1 != port)
      ({ s with host := { s.host with netConfig := rest ++ [(port, [mode, address, netmask, gateway])] } }, ⟨0, 0, [], false⟩))

/-! ### DIAG (R441, R442, R538) -/

/-- DIAG_SELFTEST (R344, R441): one slice tested at the host's request; the reply says how it went. -/
def execDiagSelftest (t : Nat) (ch : Fin 6) (tag _slice : Nat) (pass : Bool) (s : State) : Host.Outcome State Fault Refusal :=
  .next (message (begin s t) ch 0x0A 0x12 tag false true fun s =>
    (s, ⟨0, 0, leBytes 1 (bit pass), false⟩))

/-- DIAG.RESTART (R414, R442, R528, R538): the reply first; the reset follows once it is released, or 10 ms later. -/
def actRestart (warm : Bool) (k tag : Nat) (s : State) : State × MsgRes :=
  if jobOn s then (s, ⟨5, 0, [], false⟩)
  else
    let recovery := s.sys.st == .recovery
    let s := if recovery then setFld s Fld.RST_START_FAILS_START_FAILS 0 0 else s
    let s := setFld s Fld.RST_CAUSE_WARM_OK 0 (bit (warm && !recovery))
    ({ s with rst := { s.rst with restart := some (k, tag, now s), armedAt := none } }, ⟨0, 0, [], false⟩)

/-- DIAG_RESTART_WARM (R442). -/
def execDiagRestartWarm (t : Nat) (ch : Fin 6) (tag : Nat) (s : State) : Host.Outcome State Fault Refusal :=
  .next (message (begin s t) ch 0x0A 0x13 tag true true (actRestart true ch tag))

/-- DIAG_RESTART_COLD (R442). -/
def execDiagRestartCold (t : Nat) (ch : Fin 6) (tag : Nat) (s : State) : Host.Outcome State Fault Refusal :=
  .next (message (begin s t) ch 0x0A 0x13 tag true true (actRestart false ch tag))

/-! ### EVT (R410, R443) -/

/-- The oldest sequence number in the log; with an empty log the one that comes next. -/
def oldestSeq (s : State) : Nat := match s.host.log with | e :: _ => e.seq | [] => s.host.logNext

/-- LOG_INFO (R443). -/
def execLogInfo (t : Nat) (ch : Fin 6) (tag : Nat) (s : State) : Host.Outcome State Fault Refusal :=
  .next (message (begin s t) ch 0x0B 0x10 tag false true fun s =>
    (s, ⟨0, 0, leBytes 4 (oldestSeq s) ++ leBytes 4 (s.host.logNext - 1), false⟩))

/-- The reply of EVT.LOG_READ. -/
def logRead (s : State) (seq count : Nat) : List Byte :=
  let first := Nat.max seq (oldestSeq s)
  let es := (s.host.log.filter fun e => decide (first ≤ e.seq)).take count
  leBytes 4 first ++ leBytes 1 es.length ++ [0, 0, 0] ++ es.flatMap fun e => eventBytes e.ev

/-- LOG_READ (R443). -/
def execLogRead (t : Nat) (ch : Fin 6) (tag seq count : Nat) (s : State) : Host.Outcome State Fault Refusal :=
  .next (message (begin s t) ch 0x0B 0x11 tag false true fun s =>
    if count = 0 ∨ (if ch.val < 4 then 14 else 13) < count then (s, ⟨4, 0, [], false⟩)
    else (s, ⟨0, 0, logRead s seq count, false⟩))

/-- EVT_FILTER (R410, R443): the unit's own filter. -/
def execEvtFilter (t : Nat) (ch : Fin 6) (tag : Nat) (pairs : List (Nat × Nat)) (s : State) : Host.Outcome State Fault Refusal :=
  .next (message (begin s t) ch 0x0B 0x12 tag true true fun s =>
    if 16 < pairs.length then (s, ⟨3, 0, [], false⟩)
    else
      let filter := pairs.map fun x => (x.1 % 2 ^ 16, x.2 % 2 ^ 16)
      ({ s with host := { s.host with filter := filter } }, ⟨0, 0, [], false⟩))

end Sys2Proof.Machine
end

