-- ==== Sys2Proof/Machine/Trigger.lean ====
section
/-!
DEFINITION. Time triggers that act (R95, R97, R100, R101, R292, R472, R569).
-/
namespace Sys2Proof.Machine

/-- The commanded position of an axis at an offset in ns from the start of the pick, in steps (R451). -/
def xAt (s : State) (n d : Nat) : Rat :=
  let m := axis s n
  ((m.prev : Rat) + ((m.x - m.prev : Int) : Rat) * d / 100000) / 2 ^ 32

/-- When an axis is sampled in this pick, as an offset from its start (R472): the first time in window n mod 4 at which the
commanded position equals s + BEMF_PHASE / 256; an offset conversion takes the start of the window (R556). -/
def bemfTime (s : State) (n : Nat) : Option Rat :=
  let w := 25000 * (n % 4)
  let phase : Rat := (fld s Fld.MOT_STALL_BEMF_PHASE n : Rat) / 256
  let a := xAt s n w - phase
  let b := xAt s n (w + 25000) - phase
  if (axis s n).calDue then some w
  else if a ≤ b then
    let k : Rat := a.ceil
    if a = k then some w else if k < b then some (w + 25000 * (k - a) / (b - a)) else none
  else
    let k : Rat := a.floor
    if a = k then some w else if b < k then some (w + 25000 * (k - a) / (b - a)) else none

/-- Whether an axis's sample of this pick is due and has not been taken. -/
def bemfDue (s : State) (n : Nat) : Bool :=
  liveFld s Fld.MOT_STALL_STALL_EN n == 1 && (axis s n).sampled != some s.time.pick &&
    match bemfTime s n with
    | some q => decide (q ≤ ((now s - s.time.pickStart : Nat) : Rat))
    | none => false

/-- One axis sampled with the codes that the command brings for the trigger. -/
def sampleAxis (s : State) (n k : Nat) (samples : List TrigSample) : State :=
  match samples.find? (·.trig == k) with
  | some x => bemfSample (setAxis s n fun m => { m with sampled := some s.time.pick }) n x.a x.b
  | none => s

/-- A trigger that motion holds samples the axes of its half. -/
def motionTrigger (s : State) (k : Nat) (samples : List TrigSample) : State :=
  (List.range 8).foldl (fun s n =>
    if nth s.mot.trigs (n / 4) none = some k ∧ bemfDue s n then sampleAxis s n k samples else s) s

/-- A sampling target reads what the command brings: the axis's codes, or the level of the GPIO (R95, R569). -/
def sampleTarget (s : State) (k ctrl : Nat) (samples : List TrigSample) : State :=
  let g := ctrlFld Fld.TIM_TRIG_CTRL_TARGET ctrl
  let i := ctrlFld Fld.TIM_TRIG_CTRL_INDEX ctrl
  match samples.find? (·.trig == k) with
  | some x => if g = 3 then bemfSample s i x.a x.b
    else if g = 4 then setTrig s k fun y => { y with capture := (x.a % 2, 0) } else s
  | none => s

/-- One occurrence of a host trigger acts under its settings (R95). -/
def occur (s : State) (k ctrl : Nat) (samples : List TrigSample) : State := sampleTarget (triggerOutput s k ctrl) k ctrl samples

/-- The near occurrence of settings that TIM.TRIG_SET has replaced (R99). -/
def oldOccurrence (s : State) (k : Nat) (samples : List TrigSample) : State :=
  match (trig s k).old with
  | some o =>
    if now s < o.due then s
    else
      let s := setTrig s k fun g => { g with old := none }
      if leaseGated s o.ctrl then s else occur s k o.ctrl samples
  | none => s

/-- A host trigger whose occurrence has come: it acts unless the lease holds it back (R97, R101). -/
def hostTrigger (s : State) (k : Nat) (samples : List TrigSample) : State :=
  let s := oldOccurrence s k samples
  if !trigDue s k then s
  else if leaseGated s (trigCtrl s k) then advanceTrigger s k 0
  else advanceTrigger (occur s k (trigCtrl s k) samples) k 1

/-- One trigger of the eight: those that a camera port or motion holds, and the host's own. -/
def actTrigger (s : State) (k : Nat) (samples : List TrigSample) : State :=
  match liveFld s Fld.TIM_TRIG_CTRL_OWNER k with
  | 1 => motionTrigger s k samples
  | 2 => (List.range 2).foldl (fun s p => if (cam s p).trigNo = some k then fireRows s p else s) s
  | _ => hostTrigger s k samples

/-- Whether an output is an action of a trigger on one target and index. -/
def actsOn (g i : Nat) : Output → Bool
  | .trigger g' i' _ _ => g' == g && i' == i
  | _ => false

/-- The actions of one tick on one output, in order: its level, and the pulse that stands at the end (R100). -/
def netAction (level : Bool) : List Output → Bool × Option Nat
  | [] => (level, none)
  | .trigger _ _ action width :: rest =>
    let (l, p) := netAction (levelAfter level action) rest
    if rest.isEmpty && action == 3 then (l, some width) else (l, p)
  | _ :: rest => netAction level rest

/-- What the actions of one tick put on one output (R100): the pulse, the edge, or nothing where the level is as before. -/
def netOutput (g i : Nat) (level : Bool) (acts : List Output) : List Output :=
  match netAction level acts with
  | (_, some w) => [.trigger g i 3 w]
  | (l, none) => if l = level then [] else [.trigger g i (bit level) 0]

/-- The outputs with more than one action on a camera trigger or GPIO in the tick brought to what the output shows (R100). -/
def netOutputs (s : State) (out : List Output) : List Output :=
  let targets := ((List.range 2).map fun i => (1, i, nth s.time.camOut i false)) ++
    (List.range 16).map fun i => (2, i, (liveFld s Fld.SYS_GPIO_OUT).testBit i)
  targets.foldl (fun out x =>
    let acts := out.filter (actsOn x.1 x.2.1)
    if acts.length < 2 then out else out.filter (fun o => !actsOn x.1 x.2.1 o) ++ netOutput x.1 x.2.1 x.2.2 acts) out

/-- TRIGGER_ACT (R97, R100): the triggers whose time has come, in ascending number. -/
def execTriggerAct (t : Nat) (samples : List TrigSample) (s : State) : Host.Outcome State Fault Refusal :=
  let s := begin s t
  let u := (List.range 8).foldl (fun s k => actTrigger s k samples) s
  .next { u with out := netOutputs s u.out }

end Sys2Proof.Machine
end

