-- ==== Sys2Proof/Machine/Readout.lean ====
section
/-!
DEFINITION. What a read of a register gives (R4, R381 to R383, R394, R396, R401, R404, R407, R408): the stored value, or the readout
computed from the state.
-/
namespace Sys2Proof.Machine

/-! ### Readouts computed from the state -/

/-- A list of bits as a number, the first as bit 0. -/
def bitsToNat (l : List Bool) : Nat := l.foldr (fun b n => bit b + 2 * n) 0

/-- Position readouts (R71). -/
def posReadout (s : State) (r : Reg) (i : Nat) : Nat :=
  match r with
  | .POS_STATUS => bankReg s.live r 0 0 % 2 ^ 16 + 2 ^ 16 * bit s.pos.frozen + 2 ^ 17 * bit s.pos.crawl + 2 ^ 18 * s.pos.source +
      2 ^ 19 * bit (s.print.chans.any (·.overspeed))
  | .POS_LINE => posLine s
  | .POS_COUNT => unsignedOf 48 (enc s i).count
  | .POS_INDEX_COUNT => unsignedOf 48 (enc s i).indexCount
  | .POS_SPEED => satNat 32 (roundNs (256 * lineRate s)).toNat
  | .POS_PASS => s.pos.pass % 2 ^ 32
  | .POS_NEXT => unsignedOf 48 (chan s i).next
  | r => bankReg s.live r i 0

/-- Whether a trigger is armed: the host's own, or one that a subsystem holds with something to do. -/
def trigArmed (s : State) (k : Nat) : Bool :=
  match liveFld s Fld.TIM_TRIG_CTRL_OWNER k with
  | 1 => s.mot.trigs.contains (some k)
  | 2 => s.vision.cams.any fun p => p.trigNo == some k && !p.armed.isEmpty
  | _ => (trig s k).armed

/-- Device-time readouts (R102). -/
def timReadout (s : State) (r : Reg) (i : Nat) : Nat :=
  match r with
  | .TIM_NOW_LO => now s % 2 ^ 32
  | .TIM_NOW_HI => s.time.nowHi
  | .TIM_INCR => s.time.incr
  | .TIM_OFFSET => unsignedOf 96 s.time.offset
  | .TIM_STATUS => bankReg s.live r 0 0 % 2 ^ 16 + 2 ^ 16 * bit s.time.locked + 2 ^ 17 * bit s.time.holdover +
      2 ^ 18 * bit s.time.stepHeld + 2 ^ 19 * s.time.source
  | .TIM_TRIG_STATUS => bankReg s.live r 0 0 % 2 ^ 16 + 2 ^ 16 * bitsToNat ((List.range 8).map (trigArmed s))
  | r => bankReg s.live r i 0

/-- Store and channel readouts (R135, R207). -/
def storeReadout (s : State) (r : Reg) (i : Nat) : Nat :=
  match r with
  | .IMG_STATUS => bankReg s.live r 0 0 % 2 ^ 16 + 2 ^ 16 * bitsToNat (s.store.dram.map (·.doubled)) +
      2 ^ 20 * bitsToNat (s.store.dram.map (·.training))
  | .IMG_CAP => imgCapacity s
  | .IMG_FREE => freeBytes s / 2 ^ 20
  | .WFT_FIFO =>
    let f := match fifoDepth s.sets.active i with | some n => Nat.min 255 n | none => 255
    f + 2 ^ 16 * liveFld s Fld.WFT_FIFO_LINE_COST i
  | .WFT_REED => s.sets.active.reed.length
  | .CLP_STATUS => bankReg s.live r 0 0 % 2 ^ 17 + 2 ^ 17 * bit (s.vision.cams.any (·.held))
  | r => bankReg s.live r i 0

/-- Link readouts (R282). FOLLOWS_ME: the hub acts, on this unit's port. -/
def linkReadout (s : State) (r : Reg) (i : Nat) : Nat :=
  match r with
  | .FL_LANE =>
    let l := laneOf s i
    let used : Bool := match laneHub s i with | some u => (hubOf s u).mask.testBit l.groupLane && (hubOf s u).state == 3 | none => false
    bit l.locked + 2 * bit l.inverted + 4 * (l.groupLane % 4) + 16 * bit used + 32 * bit l.hubRx + 64 * bit l.miswired
  | .FL_HUBSTATE =>
    let h := hubOf s i
    let follows : Bool := h.status.testBit 9 && bitsOf h.status 8 1 == unitNo s
    h.state % 4 + 4 * (h.mask % 16) + 64 * bit h.shed + 128 * bit follows + 2 ^ 16 * (h.status % 2 ^ 16)
  | r => bankReg s.live r i 0

/-- MBX_STATUS (R394). -/
def mbxStatus (s : State) (k : Nat) : Nat :=
  let m := mbx s k
  let sticky := bankReg s.live .MBX_STATUS k 0
  bit m.pending + 2 * bit m.out.isSome + 16 * m.queue.length + 2 ^ 8 * bitsOf sticky 8 3 + 2 ^ 11 * bit m.secure + 2 ^ 16 * m.rejectTag

/-- DB_H2D_STATUS (R396). -/
def postedChannels (s : State) : Nat := ((List.range 6).map fun k => bit (mbx s k).pending * 2 ^ chanBit k).sum

/-- BAR0 and unit readouts (R368, R382, R394, R396, R403, R429, R511, R568, R599). -/
def unitReadout (s : State) (r : Reg) (i : Nat) : Nat :=
  match r with
  | .SYS_ID => 0x8200 + 0x1E6C * 2 ^ 16
  | .SYS_REV => Config.sysRev % 2 ^ 16
  | .SYS_FW_VERSION => (runningSlot s).version
  | .SYS_STATE => sysStateWord s
  | .SYS_ROLE => sysRole s
  | .PAIR_HEALTH => pairHealth s
  | .PAIR_STATUS => pairStatusWord s
  | .PAIR_LEASE_UNTIL => s.pair.leaseUntil
  | .MBX_STATUS => mbxStatus s i
  | .DB_H2D_SET => 0
  | .DB_H2D_STATUS => postedChannels s
  | .LCK => nth s.host.locks i 0
  | .EVT_HEAD => s.host.evHead
  | .SET_STATUS => setStatus s
  | .SEC_STATUS => secStatus s
  | .SYS_GPIO_IN =>
    let driven := if s.pair.lease then liveFld s Fld.SYS_GPIO_DIR else 0
    let level := liveFld s Fld.SYS_GPIO_IN_LEVEL
    (level - (level &&& driven)) + (liveFld s Fld.SYS_GPIO_OUT &&& driven)
  | .PWR_STATUS => bankReg s.live r 0 0 % 2 ^ 16 + 2 ^ 16 * bit s.pwr.warning + 2 ^ 17 * bit (vencOn s)
  | .PWR_SHORT => shortSignals s
  | .RST_CTRL => 0
  | r => bankReg s.live r i 0

/-- The value of a register outside the sets, as a read gives it: a WO field reads 0. -/
def readout (s : State) (r : Reg) (i elem : Nat) : Nat :=
  match (regInfo r).code with
  | 2 => posReadout s r i
  | 3 | 9 => if (regInfo r).elems = 1 then storeReadout s r i else bankReg s.live r i elem
  | 5 => if (regInfo r).elems = 1 then storeReadout s r i else bankReg s.live r i elem
  | 7 => if r = .FL_EYE then bankReg s.live r i 0 % 2 ^ 11 else linkReadout s r i
  | 10 => motReadout s r i
  | 16 => timReadout s r i
  | 0 => if r = .TIM_NOW_LO ∨ r = .TIM_NOW_HI then timReadout s r i else unitReadout s r i
  | _ => unitReadout s r i

/-- The value that READ returns: a field of the sets from the set that SET_SEL names (R408). -/
def regValue (s : State) (r : Reg) (i elem sel : Nat) : Nat :=
  if (regInfo r).isSet then bankReg (if sel = 1 then s.sets.shadow else s.sets.active).regs r i elem else readout s r i elem

/-! ### The side effects of a read (R76, R397) -/

/-- Reading a register: its value, and for a lock and TIM_NOW_LO what the read does. -/
def readReg (s : State) (r : Reg) (i elem sel master : Nat) : Nat × State :=
  if r = .LCK then readLock s i master
  else if r = .TIM_NOW_LO then (now s % 2 ^ 32, { s with time := { s.time with nowHi := now s / 2 ^ 32 % 2 ^ 32 } })
  else (regValue s r i elem sel, s)

/-! ### Mailboxes and the event ring (R381, R401) -/

/-- The bytes of a window of BAR0 that holds no register of its own: the inbound and outbound mailboxes of N0 to N3 and the event
entries, by the number and index of R407. -/
def windowBytes (s : State) (num i : Nat) : Option (List Byte) :=
  if num = 0x100 ∧ i < 4 then some (bytesAt (mbx s i).inbox 0 256)
  else if num = 0x140 ∧ i < 4 then
    some (bytesAt ((outBytes (mbx s i) i).getD []) 0 256)
  else if num = 0x840 ∧ i < 64 then some (eventBytes (nth s.host.ring i ⟨0, 0, 0, 0⟩))
  else none

/-- Word `w` of what a REG_ID names, with what the read does; none beyond its words or where nothing stands (R407, R408). -/
def readWord (s : State) (code num i elem w sel master : Nat) : Option (Nat × State) :=
  match regOfId code num with
  | some r =>
    let x := regInfo r
    if x.count ≤ i ∨ x.elems ≤ elem ∨ x.width ≤ 32 * w then none
    else
      let (v, s) := readReg s r i elem sel master
      some (v / 2 ^ (32 * w) % 2 ^ 32, s)
  | none =>
    if code ≠ 0 then none
    else match windowBytes s num i with
      | some bs => if elem ≠ 0 ∨ bs.length ≤ 4 * w then none else some (leAt bs (4 * w) 4, s)
      | none => none

/-- The words that READ returns from a place on: through a wide register, then the following elements or indices; none when the read
leaves the register (R408). -/
def readWords (s : State) (code num i elem w sel master : Nat) : Nat → Option (List Nat × State)
  | 0 => some ([], s)
  | n + 1 =>
    let wide : Nat := match regOfId code num with | some r => (regInfo r).width | none => if num = 0x840 then 128 else 2048
    let byElem : Bool := match regOfId code num with | some r => decide (1 < (regInfo r).elems) | none => false
    match readWord s code num i elem w sel master with
    | none => none
    | some (v, s) =>
      let rest := if 32 * (w + 1) < wide then readWords s code num i elem (w + 1) sel master n
        else if byElem then readWords s code num i (elem + 1) 0 sel master n
        else readWords s code num (i + 1) 0 0 sel master n
      rest.map fun (vs, s) => (v :: vs, s)

/-- The lock master that the attached host is (R397, R400). -/
def hostMaster (ethernet : Bool) : Nat := if ethernet then 4 else 3

/-- READ (R408). -/
def actRead (regId count setSel elem : Nat) (s : State) : State × MsgRes :=
  if count = 0 ∨ 56 < count ∨ 1 < setSel then (s, ⟨4, 0, [], false⟩)
  else match readWords s (bitsOf regId 24 8) (bitsOf regId 12 12) (bitsOf regId 0 12) elem 0 setSel (hostMaster s.sys.ethernet) count with
    | some (vs, s) => (s, ⟨0, 0, vs.flatMap (leBytes 4), false⟩)
    | none => (s, ⟨4, 0, [], false⟩)

/-- READ (R408): in every class but SEC. Position is brought up to date first. -/
def execRead (t : Nat) (ch : Fin 6) (tag cls regId count setSel elem : Nat) (s : State) : Host.Outcome State Fault Refusal :=
  .next (message (flushUpdate (begin s t)) ch cls 1 tag false true (actRead regId count setSel elem))

end Sys2Proof.Machine
end

