-- ==== Sys2Proof/Machine/Access.lean ====
section
/-!
DEFINITION. Writes of registers: WRITE (R409), the direct register map BAR0 (R4, R5, R372, R381, R394, R396, R398, R402), and the
datagrams that carry register accesses (R377).
-/
namespace Sys2Proof.Machine

/-! ### What a WRITE asks for -/

/-- One register instance of a WRITE: index, element, the bits of VALUE and of MASK. -/
structure Edit where
  i     : Nat
  elem  : Nat
  value : Nat
  mask  : Nat
  deriving DecidableEq, Repr

/-- The edit of a word added to those before it. -/
def addEdit (es : List Edit) (i elem w value mask : Nat) : List Edit :=
  let v := value % 2 ^ 32 * 2 ^ (32 * w)
  let m := mask % 2 ^ 32 * 2 ^ (32 * w)
  if es.any fun e => e.i == i && e.elem == elem then
    es.map fun e => if e.i = i ∧ e.elem = elem then { e with value := e.value + v, mask := e.mask + m } else e
  else es ++ [⟨i, elem, v, m⟩]

/-- The edits that the pairs of a WRITE make from a place on, in the order in which READ reads words; none when they leave the register. -/
def editsOf (r : Reg) (i elem w : Nat) : List (Nat × Nat) → List Edit → Option (List Edit)
  | [], es => some es
  | (v, m) :: rest, es =>
    let x := regInfo r
    if x.count ≤ i ∨ x.elems ≤ elem ∨ Nat.max 1 x.width ≤ 32 * w then none
    else
      let es := addEdit es i elem w v m
      if 32 * (w + 1) < x.width then editsOf r i elem (w + 1) rest es
      else if 1 < x.elems then editsOf r i (elem + 1) 0 rest es
      else editsOf r (i + 1) 0 0 rest es

/-- The bits of a field in its register. -/
def fieldMask (f : Field) : Nat := (2 ^ f.width - 1) * 2 ^ f.lo

/-- The bits of a register that a WRITE may name: its RW, W1C and WO fields. -/
def writableMask (r : Reg) : Nat := ((regFields r).filter (·.acc != .ro)).foldl (fun a f => a + fieldMask f) 0

/-- The bits of a register with one kind of access. -/
def accessMask (r : Reg) (a : Access) : Nat := ((regFields r).filter (·.acc == a)).foldl (fun n f => n + fieldMask f) 0

/-- The number of a class in which a register is written (R409, R606); none for one that no WRITE reaches (log 19). -/
def writeClass : WClass → Option Nat
  | .set => some 2 | .sys => some 1 | .img => some 3 | .head => some 5 | .clp => some 6 | .mot => some 7
  | .tim => some 8 | .pair => some 9 | .cam => some 12 | .sec | .bar0 | .none => none

/-- The value of a register with an edit made: RW bits take VALUE, W1C bits are cleared by a 1 (R4). -/
def edited (r : Reg) (old : Nat) (e : Edit) : Nat :=
  let rw := e.mask &&& accessMask r .rw
  let clear := old &&& (e.value &&& (e.mask &&& accessMask r .w1c))
  let v := old - clear
  (v - (v &&& rw)) + (e.value &&& rw)

/-- Whether an edit names writable bits alone and leaves every RW field it touches in its valid range (R409). -/
def editOk (r : Reg) (old : Nat) (e : Edit) : Bool :=
  (e.mask &&& writableMask r) == e.mask &&
    (regFields r).all fun f => f.acc != .rw || (e.mask &&& fieldMask f) == 0 || fieldValueOk f (bitsOf (edited r old e) f.lo f.width)

/-- An edit without the W1C bits that the module has set in the same cycle (R5). -/
def sparedEdit (s : State) (r : Reg) (e : Edit) : Edit :=
  { e with value := spared s (regKey r e.i e.elem) (accessMask r .w1c) e.value }

/-- The bank that holds the registers a WRITE changes. -/
def writeBank (s : State) (r : Reg) : Bank := if (regInfo r).isSet then s.sets.shadow.regs else s.live

/-- The edits made in that bank. -/
def editBank (r : Reg) (b : Bank) (es : List Edit) : Bank :=
  es.foldl (fun b e => bankWrite b (regKey r e.i e.elem) (edited r (bankReg b r e.i e.elem) e)) b

/-! ### What a chapter adds to the write of a register -/

/-- MOT_CFG (R477): bits that a moving axis does not let change. -/
def motCfgFixed : Nat :=
  fieldMask Fld.MOT_CFG_MICROSTEPS + fieldMask Fld.MOT_CFG_DIR_INV + fieldMask Fld.MOT_CFG_EN_POL + fieldMask Fld.MOT_CFG_LIM_NC +
    fieldMask Fld.MOT_CFG_HOME_POL

/-- Whether an edit of MOT_CFG changes such a bit of a moving axis. -/
def motCfgBars (s : State) (e : Edit) : Bool :=
  let old := bankReg s.live .MOT_CFG e.i 0
  axisMoves (axis s e.i) && (old &&& motCfgFixed) != (edited .MOT_CFG old e &&& motCfgFixed)

/-- The motion registers: MOT_CFG and MOT_GROUP of what moves give STATE, an axis in two groups BAD_PARAM, and MOT_STALL claims its
triggers (R456, R472, R477). -/
def writeMotion (s : State) (r : Reg) (es : List Edit) : State × MsgRes :=
  let s' := { s with live := editBank r s.live es }
  match r with
  | .MOT_CFG => match es.find? (motCfgBars s) with
    | some e => (s, named 5 8 e.i)
    | none => (s', ⟨0, 0, [], false⟩)
  | .MOT_GROUP =>
    let twice : Bool := (List.range 8).any fun n =>
      decide (1 < ((List.range 4).filter fun g => (liveFld s' Fld.MOT_GROUP_AXES g).testBit n).length)
    let moves : Bool := es.any fun e => (e.mask &&& fieldMask Fld.MOT_GROUP_AXES) != 0 && s.mot.groups.any (·.group == e.i)
    if twice then (s, ⟨4, 0, [], false⟩) else if moves then (s, ⟨5, 0, [], false⟩) else (s', ⟨0, 0, [], false⟩)
  | .MOT_STALL => match claimStall s' with
    | some s' => (s', ⟨0, 0, [], false⟩)
    | none => (s, ⟨6, 0, [], false⟩)
  | _ => (s', ⟨0, 0, [], false⟩)

/-- The bytes of one frame under a port's registers as written (R291, R441). -/
def frameSize (s : State) (k : Nat) : Nat :=
  let ctrl := bankReg s.live .CAM_CTRL k 0
  let geom := bankReg s.live .CAM_GEOM k 0
  bitsOf geom 0 16 * bitsOf geom 16 7 * (bitsOf ctrl 4 2 + 1) * (if bitsOf ctrl 3 1 = 1 then 10 else 8)

/-- The camera registers: the checks of CAM.CONFIG, and what a change does at once. -/
def writeCamera (s : State) (r : Reg) (es : List Edit) : State × MsgRes :=
  let s' := { s with live := editBank r s.live es }
  if es.any fun e => decide (8388608 < frameSize s' e.i) then (s, ⟨4, 0, [], false⟩)
  else if r ≠ .CAM_STATUS ∧ !coverageFits s' s.sets.active then (s, named 6 5 (match es with | e :: _ => e.i | [] => 0))
  else if r = .CAM_STATUS then (s', ⟨0, 0, [], false⟩)
  else (es.foldl (fun s1 e => camChanged s1 e.i (camOn s e.i)) s', ⟨0, 0, [], false⟩)

/-- The time registers: INCR keeps time continuous within 1,000 ppm, and belongs to the host's servo (R79); a trigger that a
subsystem holds is not written, and one that R95 or R97 would not let TIM.TRIG_SET write is BAD_PARAM (log 77). -/
def writeTime (s : State) (r : Reg) (es : List Edit) : State × MsgRes :=
  match r with
  | .TIM_INCR => es.foldl (fun (p : State × MsgRes) e =>
      if p.2.result = 0 then actSetIncr ((p.1.time.incr - (p.1.time.incr &&& e.mask)) + (e.value &&& e.mask)) p.1 else p) (s, ⟨0, 0, [], false⟩)
  | .TIM_TRIG_CTRL | .TIM_TRIG_TIME | .TIM_TRIG_PERIOD | .TIM_TRIG_COUNT =>
    if es.any fun e => liveFld s Fld.TIM_TRIG_CTRL_OWNER e.i != 0 then (s, ⟨6, 0, [], false⟩)
    else
      let s' := { s with live := editBank r s.live es }
      if es.any fun e => trigBad e.i (trigCtrl s' e.i) (trigFld s' Fld.TIM_TRIG_PERIOD_PERIOD e.i) then (s, ⟨4, 0, [], false⟩)
      else (es.foldl (fun s e => rearmWritten s e.i) s', ⟨0, 0, [], false⟩)
  | .TIM_PPS => (gatePps { s with live := editBank r s.live es }, ⟨0, 0, [], false⟩)
  | _ => ({ s with live := editBank r s.live es }, ⟨0, 0, [], false⟩)

/-- COVER_MIN of every channel starts anew (R200). -/
def renewCover (s : State) : State := (List.range 16).foldl (fun s c => setFld s Fld.WFT_COVER_COVER_MIN c 0xFFFFFFFF) s

/-- The registers of class SYS: WARM_ARM (R528), the re-admission of sensors (R547), VIN_MIN_MV, which starts anew when VIN_WARN is
cleared (R599), and COVER_MIN, when COVER_LOW is (R200). -/
def writeSys (s : State) (r : Reg) (es : List Edit) : State × MsgRes :=
  let bits := es.foldl (fun n e => n ||| (e.value &&& e.mask)) 0
  match r with
  | .RST_CTRL => if bits.testBit 0 then actWarmArm s else (s, ⟨0, 0, [], false⟩)
  | .THM_SENSOR_FAIL => (clearSensorFail s bits, ⟨0, 0, [], false⟩)
  | .PWR_STATUS =>
    let s := { s with live := editBank r s.live es }
    (if bits.testBit 0 then setFld s Fld.PWR_VIN_VIN_MIN_MV 0 0xFFFF else s, ⟨0, 0, [], false⟩)
  | .WFT_STATUS =>
    let s := { s with live := editBank r s.live es }
    (if bits.testBit 0 then renewCover s else s, ⟨0, 0, [], false⟩)
  | _ => ({ s with live := editBank r s.live es }, ⟨0, 0, [], false⟩)

/-- FL_EYE: a 1 written to EYE_START begins a scan of the lane as written (R281). -/
def writeLink (s : State) (r : Reg) (es : List Edit) : State × MsgRes :=
  let s := { s with live := editBank r s.live es }
  let starts : Bool := r == .FL_EYE && es.any fun e => (e.value &&& (e.mask &&& fieldMask Fld.FL_EYE_EYE_START)) != 0
  (if starts then startEye s else s, ⟨0, 0, [], false⟩)

/-- A register outside the sets written. -/
def writeOutside (s : State) (r : Reg) (es : List Edit) : State × MsgRes :=
  match (regInfo r).wclass with
  | .mot => writeMotion s r es
  | .cam => writeCamera s r es
  | .tim => writeTime s r es
  | .sys => writeSys s r es
  | .head => writeLink s r es
  | _ => ({ s with live := editBank r s.live es }, ⟨0, 0, [], false⟩)

/-- WRITE (R409, R416): BAD_PARAM changes nothing; the sets are written in the shadow set. -/
def actWrite (ch cls regId elem : Nat) (pairs : List (Nat × Nat)) (s : State) : State × MsgRes :=
  let limit : Nat := if ch < 4 then 27 else 26
  match regOfId (bitsOf regId 24 8) (bitsOf regId 12 12) with
  | none => (s, ⟨4, 0, [], false⟩)
  | some r =>
    match editsOf r (bitsOf regId 0 12) elem 0 pairs [] with
    | none => (s, ⟨4, 0, [], false⟩)
    | some es =>
      let ok : Bool := !pairs.isEmpty && decide (pairs.length ≤ limit) && writeClass (regInfo r).wclass == some cls &&
        es.all fun e => editOk r (bankReg (writeBank s r) r e.i e.elem) e
      if !ok then (s, ⟨4, 0, [], false⟩)
      else if (regInfo r).isSet then shadowWrite false (fun c => { c with regs := editBank r c.regs es }) s
      else writeOutside s r (es.map (sparedEdit s r))

/-- Whether a standby takes a WRITE (R341): class PAIR, EVT or DIAG, and in class SYS its own THM_, CAL_, PWR_ and RST_ fields. -/
def standbyTakes (cls regId : Nat) : Bool :=
  let code := bitsOf regId 24 8
  (9 ≤ cls && cls ≤ 0x0B) || (cls == 1 && (code == 0x0D || code == 0x0E || code == 0x0F || code == 0x12))

/-- WRITE (R409). -/
def execWrite (t : Nat) (ch : Fin 6) (tag cls regId elem : Nat) (pairs : List (Nat × Nat)) (s : State) :
    Host.Outcome State Fault Refusal :=
  .next (message (begin s t) ch cls 2 tag true (standbyTakes cls regId) (actWrite ch cls regId elem pairs))

/-! ### The direct register map (R372, R381) -/

/-- What a BAR0 offset names: register or window number and index (R407); the word inside it. -/
def barPlace (off : Nat) : Nat × Nat × Nat :=
  if 0x200 ≤ off ∧ off < 0x280 then (0x80, (off - 0x200) / 4, 0)
  else if 0x300 ≤ off ∧ off < 0x318 then (0xC0, (off - 0x300) / 4, 0)
  else if 0x400 ≤ off ∧ off < 0xC00 then
    let n := (off - 0x400) / 0x200
    let o := (off - 0x400) % 0x200
    if o < 0x100 then (0x100, n, o / 4) else (0x140, n, (o - 0x100) / 4)
  else if 0x2100 ≤ off ∧ off < 0x2500 then (0x840, (off - 0x2100) / 16, (off - 0x2100) % 16 / 4)
  else (off / 4, 0, 0)

/-- A 32-bit read of BAR0 with its side effects; an offset not listed reads 0, one not aligned all ones. -/
def barRead (s : State) (off master : Nat) : Nat × State :=
  if off % 4 ≠ 0 then (0xFFFFFFFF, s)
  else
    let (num, i, w) := barPlace off
    (readWord s 0 num i 0 w 0 master).getD (0, s)

/-- A write to MBX_STATUS (R389, R391, R394). -/
def writeMbxStatus (s : State) (k v : Nat) : State :=
  let old := bankReg s.live .MBX_STATUS k 0
  let s := { s with live := bankWrite s.live (regKey .MBX_STATUS k 0) (edited .MBX_STATUS old (sparedEdit s .MBX_STATUS ⟨k, 0, v, accessMask .MBX_STATUS .w1c⟩)) }
  let s := if v.testBit 2 then pump (releaseReply s k) k else s
  if v.testBit 3 then hostReset s k else s

/-- A write to a register that BAR0 alone reaches and that has no behaviour of its own: RW bits are stored, W1C bits cleared (R4). -/
def storeReg (s : State) (r : Reg) (v : Nat) : State :=
  let old := bankReg s.live r 0 0
  { s with live := bankWrite s.live (regKey r 0 0) (edited r old (sparedEdit s r ⟨0, 0, v, accessMask r .rw ||| accessMask r .w1c⟩)) }

/-- DB_D2H_STATUS (R379, R396): doorbell bits cleared; an unanswered NOTIFY is answered. -/
def clearDoorbells (s : State) (v : Nat) : State :=
  let s := storeReg s .DB_D2H_STATUS v
  { s with host := { s.host with session := s.host.session.map fun x => { x with notify := none } } }

/-- DB_D2H_MASK (R375): a mask bit cleared while its status bit is set gives notice of the bit. -/
def writeMask (s : State) (v : Nat) : State :=
  let old := liveFld s Fld.DB_D2H_MASK_MASK
  let st := liveFld s Fld.DB_D2H_STATUS_STATUS
  let s := storeReg s .DB_D2H_MASK v
  (List.range 32).foldl (fun s n => if old.testBit n && !v.testBit n && st.testBit n then notifyBit s n else s) s

/-- A 32-bit write of BAR0 by an attachment. RO registers and offsets not listed ignore it. -/
def barWrite (s : State) (off v : Nat) (ethernet : Bool) : State :=
  let (num, i, w) := barPlace off
  let v := v % 2 ^ 32
  if off % 4 ≠ 0 then s
  else if num = 0x40 then postDoorbells s v ethernet
  else if num = 0x80 then writeLock s i (hostMaster ethernet)
  else if num = 0xC0 then writeMbxStatus s i v
  else if num = 0x100 then writeMailbox s i (4 * w) (leBytes 4 v)
  else if num = 0x801 then writeTail s v
  else match regOfId 0 num with
    | some r =>
      if r = .DB_D2H_STATUS then clearDoorbells s v
      else if r = .DB_D2H_MASK then writeMask s v
      else if r = .RST_CAUSE ∨ r = .FAULT_SUMMARY ∨ r = .FAULT_MASK then storeReg s r v else s
    | none => s

/-- Bits 8 and 9 of a doorbell register: what BAR4 shows of it (R383). -/
def secureBits : Nat := 2 ^ 8 + 2 ^ 9

/-- A 32-bit write of BAR4 (R383): the doorbells limited to bits 8 and 9, MBX_STATUS and the inbound mailboxes of S0 and S1. -/
def bar4Write (s : State) (off v : Nat) : State :=
  let v := v % 2 ^ 32
  if off % 4 ≠ 0 then s
  else if off = 0x100 then postDoorbells s (v &&& secureBits) false
  else if off = 0x108 then clearDoorbells s (v &&& secureBits)
  else if off = 0x10C then
    let old := bankReg s.live .DB_D2H_MASK 0 0
    writeMask s (old - (old &&& secureBits) + (v &&& secureBits))
  else if off = 0x310 ∨ off = 0x314 then writeMbxStatus s ((off - 0x300) / 4) v
  else if 0x400 ≤ off ∧ off < 0x500 then writeMailbox s 4 (off - 0x400) (leBytes 4 v)
  else if 0x600 ≤ off ∧ off < 0x700 then writeMailbox s 5 (off - 0x600) (leBytes 4 v)
  else s

/-- REGISTER_WRITE (R4, R372, R383): by the attached host, in BAR0 or, over PCIe alone, in BAR4; over Ethernet it comes as a datagram. -/
def execRegisterWrite (t : Nat) (bar4 : Bool) (offset value : Nat) (s : State) : Host.Outcome State Fault Refusal :=
  let s := flushUpdate (begin s t)
  .next (if !barOpen s then s
    else if bar4 then (if s.sys.ethernet then s else bar4Write s offset value)
    else barWrite s offset value s.sys.ethernet)

/-! ### Datagrams that carry register accesses (R377) -/

/-- Successive reads. -/
def barReads (s : State) (off : Nat) : Nat → List Nat × State
  | 0 => ([], s)
  | n + 1 =>
    let (v, s) := barRead s off 4
    let (vs, s) := barReads s (off + 4) n
    (v :: vs, s)

/-- REG_READ_DATAGRAM (R377). -/
def execRegReadDatagram (t : Nat) (d : Dgram) (offset count : Nat) (s : State) : Host.Outcome State Fault Refusal :=
  let s := flushUpdate (begin s t)
  .next (if !inSession s d ∨ count = 0 ∨ 64 < count then s
    else
      let (vs, s) := barReads (touchSession s) offset count
      sendDatagram s 7 0 (leBytes 4 d.seq ++ vs.flatMap (leBytes 4)))

/-- REG_WRITE_DATAGRAM (R377). -/
def execRegWriteDatagram (t : Nat) (d : Dgram) (offset : Nat) (values : List Nat) (s : State) : Host.Outcome State Fault Refusal :=
  let s := flushUpdate (begin s t)
  .next (if !inSession s d then s
    else
      let s := (List.range values.length).foldl (fun s i => barWrite s (offset + 4 * i) (nth values i 0) true) (touchSession s)
      sendDatagram s 7 0 (leBytes 4 d.seq))

end Sys2Proof.Machine
end

