-- ==== Sys2Proof/Machine/Pick.lean ====
section
/-!
DEFINITION. PICK_BOUNDARY: the five steps of R17, and what the manual ties to a pick.
-/
namespace Sys2Proof.Machine

/-! ### What a pick has gathered -/

/-- The losses of the pick, reported once per pick: lines given up of a hub (R267), steps lost of a channel (R196), words
corrected of a DRAM channel (R123). -/
def pickLosses (s : State) : State :=
  let s := (List.range 24).foldl (fun s u => match (hubOf s u).lostPick with
    | 0 => s
    | n => raise (setHub s u fun h => { h with lostPick := 0 }) 0x070F u n) s
  let s := (List.range 16).foldl (fun s c => match (chan s c).lostPick with
    | 0 => s
    | n => raise (setChan s c fun x => { x with lostPick := 0 }) 0x0502 c n) s
  (List.range 4).foldl (fun s n => match (dramCh s n).corrected with
    | 0 => s
    | m => raise (setDram s n fun d => { d with corrected := 0 }) 0x0301 n m) s

/-- Whether every head of a channel has reported itself warm in the pick, and none has reported otherwise or a pre-heat fault (R220). A
head type without the check asks for no report. -/
def chanWarm (s : State) (c : Nat) : Bool :=
  let cfg := cfgOf s c
  !s.print.warmBad.contains c && (headRows cfg c).all fun r =>
    s.print.warmNow.contains r.1 || (match setType cfg r.2.1.type with | some t => t.preheatMin == -128 | none => true)

/-- Picks in which every head of a channel on its history path was warm (R220). -/
def warmCount (s : State) : State :=
  (List.range 16).foldl (fun s c =>
    let auto : Bool := bankGet (cfgOf s c).regs Fld.FIR_CFG_ENERGY_PATH c == 2
    setChan s c fun x => { x with warmPicks := if auto && x.onHist && chanWarm s c then x.warmPicks + 1 else 0 }) s

/-- What may happen once per pick begins anew. -/
def renewLimits (s : State) : State :=
  let s := (List.range 16).foldl (fun s c => setChan s c fun x => { x with missedEv := none }) (warmCount s)
  let p := s.print
  let enc := s.pos.enc.map fun x => { x with illegal := 0 }
  let chans := s.host.chans.map fun m => { m with busyEv := false, frameEv := false }
  { s with print := { p with raised := [], coldEv := [], coldPrev := p.coldNow, coldNow := [], warmBad := [], warmNow := [] },
           pos := { s.pos with enc := enc }, host := { s.host with chans := chans }, pair := { s.pair with mismatchEv := [] } }

/-! ### Step 1 -/

/-- The predictor's velocity in lines per second, signed. -/
def signedRate (s : State) : Rat := if s.time.incr = 0 then 0 else 1000000000 * 2 ^ 32 * s.pos.pred.v / s.time.incr

/-- ACCEL_LIMIT (R51): velocity at this boundary less that two picks earlier, over 200 µs. -/
def judgeAccel (s : State) : State :=
  let v := signedRate s
  let d := v - s.pos.v2
  let a := 5000 * d
  let high : Bool := decide ((fld s Fld.POS_ACCEL_ACCEL_LIMIT : Rat) < |a|)
  let was := s.pos.accelEx
  let s := { s with pos := { s.pos with v2 := s.pos.v1, v1 := v, accelEx := high } }
  let s := if high then sticky s Fld.POS_STATUS_ACCEL else s
  if high && !was then raise s 0x020A s.pos.source (sat32 (roundNs a)) else s

/-- The encoder count and position sampled for the record (R616). -/
def sampleCounts (s : State) : State :=
  { s with pos := { s.pos with boundaryCount := (enc s s.pos.source).count, boundaryPos := s.pos.pos, boundaryHwm := s.pos.hwm } }

/-- One C0 read of the pick: channel, latency, and the addition that a pre-emption or retrain allowed it (R129, R134). -/
def takeLatency (s : State) (x : Nat × Nat × Nat) : State :=
  let s := noteLatency s x.1 x.2.1
  if ageLimit s 0 + 200 + Nat.min x.2.2 3000 < x.2.1 then
    raise (bump (sticky s Fld.IMG_STATUS_C0_OVERRUN) Fld.IMG_OVERRUN_C0_OVERRUNS) 0x030C x.1 x.2.1
  else s

/-- The store at a boundary: refresh reports, retrains that fall due, latencies (R118, R120, R129). -/
def sampleStore (s : State) (x : PickInputs) : State :=
  let s := (List.range 4).foldl (fun s n => retrainReport (refreshReport s n (nth x.hot n false)) n (sensorC s (12 + n))) s
  renewLoads ((List.range 16).foldl closeLatency (x.lats.foldl takeLatency s))

/-- The sticky bits sampled for the record (R17). -/
def sampleSticky (s : State) : State := { s with pair := { s.pair with sampled := some (stickyNow s) } }

/-- Step 1: temperatures, supply and the unit's own monitors. -/
def stepSample (s : State) (x : PickInputs) : State :=
  let s := sampleCounts (samplePower (sampleTemps s x.temps) x)
  let s := noteAon (setFld s Fld.SYS_GPIO_IN_LEVEL 0 x.gpio) x.aon
  match x.slice with
  | some (n, inPath) => selfTestFail s n inPath
  | none => s

/-! ### Step 2 -/

/-- The steps of time whose boundary has come (R81, R82). -/
def takeSteps (s : State) : State :=
  let due := s.time.steps.filter fun x => decide (x.pick ≤ s.time.pick)
  let s := { s with time := { s.time with steps := s.time.steps.filter fun x => !decide (x.pick ≤ s.time.pick) } }
  due.foldl (fun s x => applyStep s x.amount) s

/-- A standby's measurement of the active's time (R93). -/
def peerTime (s : State) (x : PickInputs) : State :=
  match x.peerErr with
  | some (err, act) =>
    if s.pair.role ≠ .standby ∨ s.time.source ≠ 3 then s
    else takeMeasurement s err act
  | none => s

/-- Step 2: writes that wait for a pick, the time source, steps of time, and the set fields whose swap pick has come. -/
def stepApply (s : State) (x : PickInputs) : State :=
  let s := takeSteps (peerTime { s with pickEff := s.live } x)
  let s := swapAtBoundary (changeSource s (wantedSource s))
  openBits (openBits s 0) 1

/-- Work of the print path that a boundary starts: nozzle changes and ladders, and the cover of each channel (R192, R200, R316). -/
def stepPrint (s : State) : State := (List.range 16).foldl judgeCover (scheduleLadder (pickNozzles s))

/-! ### Step 4 -/

/-- An action under the number of the pick that has ended. -/
def asPick (k : Nat) (f : State → State) (s : State) : State :=
  let n := s.time.pick
  let s := f { s with time := { s.time with pick := k } }
  { s with time := { s.time with pick := n } }

/-- Whether the boundary is the H of a handover (R357). -/
def atHandover (s : State) : Bool := match s.pair.handover with | some h => decide (h ≤ s.time.pick) | none => false

/-- The active at a boundary B (R336, R348, R357): the record, with the lease renewed to B + 300,000 ns and the cut timer restarted; at
H it releases the lease instead, and stops if it hands over for its temperature (R550). -/
def activeStep (s : State) (k : Nat) : State :=
  if atHandover s then
    let s := asPick k (fun s => handOverNow s (k + 1)) s
    if s.thm.stopRun then stopStandby s else s
  else
    let p := { s.pair with leaseUntil := s.time.pickStart + 300000, cut := some s.time.counter }
    asPick k (fun s => sendRecord s none false) { s with pair := p }

/-- A standby's round trip of this pick begins (R93): its request to the active over the peer link. -/
def askTime (s : State) : State := if s.time.source = 3 then toPeer s (.timeRequest (now s)) else s

/-- A standby at a boundary: its time request, and a pick without a valid record is counted (R93, R338, R345). -/
def standbyStep (s : State) : State :=
  let missed : Bool := s.pair.lastRec.isSome && !s.pair.gotRecord
  let s := askTime { s with pair := { s.pair with gotRecord := false } }
  if missed then changeScore (sticky (bump s Fld.PAIR_MISSED_RECORDS_MISSED) Fld.PAIR_STATUS_RECORD_MISSED) (-5) else s

/-- PAIR_HB_OUT toggles (R334). -/
def heartbeat (s : State) : State :=
  if s.pair.capable && s.pair.hbRun && (s.pair.role == .standby || s.pair.lease) then
    emit { s with pair := { s.pair with hbOut := !s.pair.hbOut } } (.pin "PAIR_HB_OUT" (!s.pair.hbOut))
  else s

/-- Step 4, at the end of pick k: pending counts to MRAM, record or its absence, heartbeat, and the replies that need not wait for a
partner (R225, R339). -/
def stepRecord (s : State) (k : Nat) : State :=
  let s := keepCounts s
  let s := if s.pair.role = .active ∧ s.pair.lease then activeStep s k else if s.pair.role = .standby then standbyStep s else s
  let s := heartbeat { s with pair := { s.pair with sampled := none } }
  if s.pair.role = .active ∧ s.pair.partnerSynced then s else releaseHeld s true k

/-! ### Step 5, and the whole boundary -/

/-- Step 5: the queued events reach the log and the ring (R402). -/
def stepEvents (s : State) : State :=
  let s := flushEvents s
  { s with pair := { s.pair with sentEvents := 0 } }

/-- The next pick begins at B (R16). -/
def beginPick (s : State) : State :=
  let b := s.time.nextBoundary
  { s with time := { s.time with pick := s.time.pick + 1, prevStart := s.time.pickStart, pickStart := b, nextBoundary := b + 100000 } }

/-- The boundary of a unit whose print path runs. -/
def fullBoundary (s : State) (x : PickInputs) : State :=
  let k := s.time.pick
  let s := beginPick (sampleSticky (sampleStore (stepSample (judgeAccel (renewLimits (pickLosses s))) x) x))
  let s := calibrateBands (calibrateAtOnce (stepPrint (stepApply s x)))
  stepRecord (motionStep s x.axShorts) k

/-- The boundary in RECOVERY (R537): samples, writes and events. -/
def recoveryBoundary (s : State) (x : PickInputs) : State :=
  let s := beginPick (stepSample (renewLimits s) x)
  { s with pickEff := s.live }

/-- PICK_BOUNDARY (R16 to R18): in BOOT the picks are only counted. -/
def execPickBoundary (t : Nat) (x : PickInputs) (s : State) : Host.Outcome State Fault Refusal :=
  let s := flushUpdate (begin s t)
  .next (if now s < s.time.nextBoundary ∨ !barOpen s then s
    else if s.sys.st = .boot then beginPick s
    else
      let s := stepEvents (if s.sys.st = .recovery then recoveryBoundary s x else fullBoundary s x)
      (List.range 6).foldl lookAt s)

end Sys2Proof.Machine
end

