-- ==== Sys2Proof/Machine/Dispatch.lean ====
section
/-!
DEFINITION. Which meaning each command calls: one arm per constructor of Instr, each one direct call of its own meaning.
-/
namespace Sys2Proof.Machine

def exec (i : Instr) (s : State) : Host.Outcome State Fault Refusal :=
  match i with
  | .pickBoundary t x => Sys2Proof.Machine.execPickBoundary t x s
  | .timNowLoRead t => Sys2Proof.Machine.execTimNowLoRead t s
  | .triggerAct t samples => Sys2Proof.Machine.execTriggerAct t samples s
  | .slewDone t => Sys2Proof.Machine.execSlewDone t s
  | .servoMeasurement t err act exch => Sys2Proof.Machine.execServoMeasurement t err act exch s
  | .holdoverExpire t => Sys2Proof.Machine.execHoldoverExpire t s
  | .ptpEventReceive t port kind => Sys2Proof.Machine.execPtpEventReceive t port kind s
  | .ptpTxTimestamp t port ident reads => Sys2Proof.Machine.execPtpTxTimestamp t port ident reads s
  | .txqEntryStale t port => Sys2Proof.Machine.execTxqEntryStale t port s
  | .ppsInEdge t act => Sys2Proof.Machine.execPpsInEdge t act s
  | .ppsMissing t => Sys2Proof.Machine.execPpsMissing t s
  | .ppsOutPulse t => Sys2Proof.Machine.execPpsOutPulse t s
  | .encoderTransition t enc a b heldA heldB => Sys2Proof.Machine.execEncoderTransition t enc a b heldA heldB s
  | .syntheticUpdate t => Sys2Proof.Machine.execSyntheticUpdate t s
  | .indexEdge t enc held => Sys2Proof.Machine.execIndexEdge t enc held s
  | .indexPulseEnd t enc held => Sys2Proof.Machine.execIndexPulseEnd t enc held s
  | .encoderPairOpen t enc pair => Sys2Proof.Machine.execEncoderPairOpen t enc pair s
  | .encoderPairClosed t enc pair a b => Sys2Proof.Machine.execEncoderPairClosed t enc pair a b s
  | .lineSend t c => Sys2Proof.Machine.execLineSend t c s
  | .lineMissedNotReady t c => Sys2Proof.Machine.execLineMissedNotReady t c s
  | .lineRender t c => Sys2Proof.Machine.execLineRender t c s
  | .stripDecodeDone t c read ecc => Sys2Proof.Machine.execStripDecodeDone t c read ecc s
  | .stripRestored t handle index bytes => Sys2Proof.Machine.execStripRestored t handle index bytes s
  | .scrubRead t found => Sys2Proof.Machine.execScrubRead t found s
  | .refreshDue t dram => Sys2Proof.Machine.execRefreshDue t dram s
  | .retrainStart t dram => Sys2Proof.Machine.execRetrainStart t dram s
  | .retrainDone t dram temp eyes => Sys2Proof.Machine.execRetrainDone t dram temp eyes s
  | .stripMoveCopyDone t c ok ecc => Sys2Proof.Machine.execStripMoveCopyDone t c ok ecc s
  | .stripMoveCommit t c => Sys2Proof.Machine.execStripMoveCommit t c s
  | .oldCopyFree t c => Sys2Proof.Machine.execOldCopyFree t c s
  | .rawStripEncoded t ch tag engine => Sys2Proof.Machine.execRawStripEncoded t ch tag engine s
  | .ingestStripDecoded t ch tag engine => Sys2Proof.Machine.execIngestStripDecoded t ch tag engine s
  | .replStripReceived t handle index bytes => Sys2Proof.Machine.execReplStripReceived t handle index bytes s
  | .replRetryTimer t => Sys2Proof.Machine.execReplRetryTimer t s
  | .hubAckReceive t hub ack => Sys2Proof.Machine.execHubAckReceive t hub ack s
  | .linesUnacked t c => Sys2Proof.Machine.execLinesUnacked t c s
  | .ackLost t hub => Sys2Proof.Machine.execAckLost t hub s
  | .histHoldExpire t c => Sys2Proof.Machine.execHistHoldExpire t c s
  | .consCommitStart t elem => Sys2Proof.Machine.execConsCommitStart t elem s
  | .consReplyReceive t elem hub valid reply => Sys2Proof.Machine.execConsReplyReceive t elem hub valid reply s
  | .consTimeout t elem => Sys2Proof.Machine.execConsTimeout t elem s
  | .laneLockAcquired t lane inverted => Sys2Proof.Machine.execLaneLockAcquired t lane inverted s
  | .laneDown t lane => Sys2Proof.Machine.execLaneDown t lane s
  | .restripeNarrow t hub cut => Sys2Proof.Machine.execRestripeNarrow t hub cut s
  | .laneStateReceive t lane w => Sys2Proof.Machine.execLaneStateReceive t lane w s
  | .laneMarkerReceive t lane w => Sys2Proof.Machine.execLaneMarkerReceive t lane w s
  | .bringupTimeout t hub => Sys2Proof.Machine.execBringupTimeout t hub s
  | .hubUp t hub info => Sys2Proof.Machine.execHubUp t hub info s
  | .laneRejoined t lane => Sys2Proof.Machine.execLaneRejoined t lane s
  | .headCmdResponse t hub valid cmd ctag status args => Sys2Proof.Machine.execHeadCmdResponse t hub valid cmd ctag status args s
  | .cmdTimeout t hub ctag => Sys2Proof.Machine.execCmdTimeout t hub ctag s
  | .timeSyncSend t => Sys2Proof.Machine.execTimeSyncSend t s
  | .timeSyncResponse t hub valid seq t2 t3 => Sys2Proof.Machine.execTimeSyncResponse t hub valid seq t2 t3 s
  | .eyeStart t => Sys2Proof.Machine.execEyeStart t s
  | .eyeDone t counts => Sys2Proof.Machine.execEyeDone t counts s
  | .frameStartReceive t port => Sys2Proof.Machine.execFrameStartReceive t port s
  | .rowPacketReceive t port band fault samples => Sys2Proof.Machine.execRowPacketReceive t port band fault samples s
  | .frameEndReceive t port => Sys2Proof.Machine.execFrameEndReceive t port s
  | .frameTruncated t port => Sys2Proof.Machine.execFrameTruncated t port s
  | .frameTimeout t port => Sys2Proof.Machine.execFrameTimeout t port s
  | .trigFault t port => Sys2Proof.Machine.execTrigFault t port s
  | .frameProcessed t => Sys2Proof.Machine.execFrameProcessed t s
  | .solveDone t => Sys2Proof.Machine.execSolveDone t s
  | .cciTransferDone t port ok => Sys2Proof.Machine.execCciTransferDone t port ok s
  | .ladderDone t scans => Sys2Proof.Machine.execLadderDone t scans s
  | .pickRecordReceive t tagOk r => Sys2Proof.Machine.execPickRecordReceive t tagOk r s
  | .flushRecordReceive t tagOk r => Sys2Proof.Machine.execFlushRecordReceive t tagOk r s
  | .recordAckReceive t pick refuse synced ready => Sys2Proof.Machine.execRecordAckReceive t pick refuse synced ready s
  | .lineCrcReceive t c hub line crc subst tagOk => Sys2Proof.Machine.execLineCrcReceive t c hub line crc subst tagOk s
  | .peerLinkLost t => Sys2Proof.Machine.execPeerLinkLost t s
  | .heartbeatInEdge t => Sys2Proof.Machine.execHeartbeatInEdge t s
  | .heartbeatStatic t => Sys2Proof.Machine.execHeartbeatStatic t s
  | .partnerLost t => Sys2Proof.Machine.execPartnerLost t s
  | .takeover t => Sys2Proof.Machine.execTakeover t s
  | .leaseExpire t => Sys2Proof.Machine.execLeaseExpire t s
  | .cutTimerExpire t => Sys2Proof.Machine.execCutTimerExpire t s
  | .joinWaitExpire t => Sys2Proof.Machine.execJoinWaitExpire t s
  | .resyncStageDone t data => Sys2Proof.Machine.execResyncStageDone t data s
  | .peerLinkSetup t ok key => Sys2Proof.Machine.execPeerLinkSetup t ok key s
  | .mailboxWrite t ch offset bytes => Sys2Proof.Machine.execMailboxWrite t ch offset bytes s
  | .doorbellPost t value => Sys2Proof.Machine.execDoorbellPost t value s
  | .replyRelease t ch => Sys2Proof.Machine.execReplyRelease t ch s
  | .channelResetHost t ch => Sys2Proof.Machine.execChannelResetHost t ch s
  | .pcieReset t => Sys2Proof.Machine.execPcieReset t s
  | .lockRead t lock master => Sys2Proof.Machine.execLockRead t lock master s
  | .lockRelease t lock master => Sys2Proof.Machine.execLockRelease t lock master s
  | .evtTailWrite t value => Sys2Proof.Machine.execEvtTailWrite t value s
  | .registerWrite t bar4 offset value => Sys2Proof.Machine.execRegisterWrite t bar4 offset value s
  | .hello t src udp port => Sys2Proof.Machine.execHello t src udp port s
  | .sessionTimeout t => Sys2Proof.Machine.execSessionTimeout t s
  | .msgDatagram t d ch outAck bytes => Sys2Proof.Machine.execMsgDatagram t d ch outAck bytes s
  | .regReadDatagram t d offset count => Sys2Proof.Machine.execRegReadDatagram t d offset count s
  | .regWriteDatagram t d offset values => Sys2Proof.Machine.execRegWriteDatagram t d offset values s
  | .dataDatagram t d transfer offset bytes => Sys2Proof.Machine.execDataDatagram t d transfer offset bytes s
  | .dataAckTimer t => Sys2Proof.Machine.execDataAckTimer t s
  | .notifyRepeat t => Sys2Proof.Machine.execNotifyRepeat t s
  | .read t ch tag cls regId count setSel elem => Sys2Proof.Machine.execRead t ch tag cls regId count setSel elem s
  | .write t ch tag cls regId elem pairs => Sys2Proof.Machine.execWrite t ch tag cls regId elem pairs s
  | .sysInfo t ch tag => Sys2Proof.Machine.execSysInfo t ch tag s
  | .sysState t ch tag => Sys2Proof.Machine.execSysState t ch tag s
  | .safeStop t ch tag => Sys2Proof.Machine.execSafeStop t ch tag s
  | .clearStop t ch tag => Sys2Proof.Machine.execClearStop t ch tag s
  | .netConfig t ch tag port mode address netmask gateway => Sys2Proof.Machine.execNetConfig t ch tag port mode address netmask gateway s
  | .setTable t ch tag table index offset length ref data => Sys2Proof.Machine.execSetTable t ch tag table index offset length ref data s
  | .setCopy t ch tag => Sys2Proof.Machine.execSetCopy t ch tag s
  | .setDefaults t ch tag => Sys2Proof.Machine.execSetDefaults t ch tag s
  | .setValidate t ch tag => Sys2Proof.Machine.execSetValidate t ch tag s
  | .setSwap t ch tag point line => Sys2Proof.Machine.execSetSwap t ch tag point line s
  | .setCancel t ch tag => Sys2Proof.Machine.execSetCancel t ch tag s
  | .setStatus t ch tag => Sys2Proof.Machine.execSetStatus t ch tag s
  | .imgCreate t ch tag name format lps width height => Sys2Proof.Machine.execImgCreate t ch tag name format lps width height s
  | .imgIngest t ch tag handle form first count data => Sys2Proof.Machine.execImgIngest t ch tag handle form first count data s
  | .imgDelete t ch tag handle => Sys2Proof.Machine.execImgDelete t ch tag handle s
  | .imgInfo t ch tag handle => Sys2Proof.Machine.execImgInfo t ch tag handle s
  | .imgList t ch tag first => Sys2Proof.Machine.execImgList t ch tag first s
  | .imgEncode t ch tag job => Sys2Proof.Machine.execImgEncode t ch tag job s
  | .imgDecode t ch tag job => Sys2Proof.Machine.execImgDecode t ch tag job s
  | .jobStart t ch tag p => Sys2Proof.Machine.execJobStart t ch tag p s
  | .jobPause t ch tag kind line => Sys2Proof.Machine.execJobPause t ch tag kind line s
  | .jobResume t ch tag gap => Sys2Proof.Machine.execJobResume t ch tag gap s
  | .jobStop t ch tag kind line => Sys2Proof.Machine.execJobStop t ch tag kind line s
  | .jobStatus t ch tag => Sys2Proof.Machine.execJobStatus t ch tag s
  | .headType t ch tag id rec => Sys2Proof.Machine.execHeadType t ch tag id rec s
  | .headPlace t ch tag rec => Sys2Proof.Machine.execHeadPlace t ch tag rec s
  | .headEnergyTable t ch tag type entries => Sys2Proof.Machine.execHeadEnergyTable t ch tag type entries s
  | .headSupply t ch tag channel en hub slot => Sys2Proof.Machine.execHeadSupply t ch tag channel en hub slot s
  | .headNozzleState t ch tag head row action first count => Sys2Proof.Machine.execHeadNozzleState t ch tag head row action first count s
  | .headHubCmd t ch tag hub cmd args => Sys2Proof.Machine.execHeadHubCmd t ch tag hub cmd args s
  | .clpFreeze t ch tag mask value => Sys2Proof.Machine.execClpFreeze t ch tag mask value s
  | .clpWhiteReset t ch tag ports => Sys2Proof.Machine.execClpWhiteReset t ch tag ports s
  | .clpLadderNow t ch tag line => Sys2Proof.Machine.execClpLadderNow t ch tag line s
  | .clpCoefSet t ch tag channel first count ref data => Sys2Proof.Machine.execClpCoefSet t ch tag channel first count ref data s
  | .clpReadCoef t ch tag kind index first count => Sys2Proof.Machine.execClpReadCoef t ch tag kind index first count s
  | .camConfig t ch tag port values => Sys2Proof.Machine.execCamConfig t ch tag port values s
  | .camProfile t ch tag port profile => Sys2Proof.Machine.execCamProfile t ch tag port profile s
  | .camStats t ch tag port band kind first count => Sys2Proof.Machine.execCamStats t ch tag port band kind first count s
  | .camReadFrame t ch tag port slot data => Sys2Proof.Machine.execCamReadFrame t ch tag port slot data s
  | .timSetIncr t ch tag incr => Sys2Proof.Machine.execTimSetIncr t ch tag incr s
  | .timSlew t ch tag d => Sys2Proof.Machine.execTimSlew t ch tag d s
  | .timStep t ch tag d => Sys2Proof.Machine.execTimStep t ch tag d s
  | .timPpsSecond t ch tag second => Sys2Proof.Machine.execTimPpsSecond t ch tag second s
  | .timTrigSet t ch tag trig ctrl time period count => Sys2Proof.Machine.execTimTrigSet t ch tag trig ctrl time period count s
  | .timTrigCancel t ch tag trig => Sys2Proof.Machine.execTimTrigCancel t ch tag trig s
  | .motConfig t ch tag axis lim stall => Sys2Proof.Machine.execMotConfig t ch tag axis lim stall s
  | .motMove t ch tag axis kind target vmax amax dmax jmax => Sys2Proof.Machine.execMotMove t ch tag axis kind target vmax amax dmax jmax s
  | .motGroupMove t ch tag group targets => Sys2Proof.Machine.execMotGroupMove t ch tag group targets s
  | .motHome t ch tag axis type => Sys2Proof.Machine.execMotHome t ch tag axis type s
  | .motStop t ch tag axes kind => Sys2Proof.Machine.execMotStop t ch tag axes kind s
  | .motStatus t ch tag axis => Sys2Proof.Machine.execMotStatus t ch tag axis s
  | .diagEyeGrid t ch tag lane data => Sys2Proof.Machine.execDiagEyeGrid t ch tag lane data s
  | .diagPlacement t ch tag handle strip => Sys2Proof.Machine.execDiagPlacement t ch tag handle strip s
  | .diagSelftest t ch tag slice pass => Sys2Proof.Machine.execDiagSelftest t ch tag slice pass s
  | .diagRestartWarm t ch tag => Sys2Proof.Machine.execDiagRestartWarm t ch tag s
  | .diagRestartCold t ch tag => Sys2Proof.Machine.execDiagRestartCold t ch tag s
  | .pairStatus t ch tag => Sys2Proof.Machine.execPairStatus t ch tag s
  | .pairConfig t ch tag value mask => Sys2Proof.Machine.execPairConfig t ch tag value mask s
  | .pairHandover t ch tag lead => Sys2Proof.Machine.execPairHandover t ch tag lead s
  | .pairResync t ch tag => Sys2Proof.Machine.execPairResync t ch tag s
  | .pairClear t ch tag bits => Sys2Proof.Machine.execPairClear t ch tag bits s
  | .logInfo t ch tag => Sys2Proof.Machine.execLogInfo t ch tag s
  | .logRead t ch tag seq count => Sys2Proof.Machine.execLogRead t ch tag seq count s
  | .evtFilter t ch tag pairs => Sys2Proof.Machine.execEvtFilter t ch tag pairs s
  | .secInfo t ch tag => Sys2Proof.Machine.execSecInfo t ch tag s
  | .certGet t ch tag offset => Sys2Proof.Machine.execCertGet t ch tag offset s
  | .sessionOpen t ch tag key nonce => Sys2Proof.Machine.execSessionOpen t ch tag key nonce s
  | .certPut t ch tag total offset bytes => Sys2Proof.Machine.execCertPut t ch tag total offset bytes s
  | .sessionFinish t ch tag sig => Sys2Proof.Machine.execSessionFinish t ch tag sig s
  | .sessionClose t ch tag => Sys2Proof.Machine.execSessionClose t ch tag s
  | .sessionSetupTimeout t x => Sys2Proof.Machine.execSessionSetupTimeout t x s
  | .sessionIdleExpire t x => Sys2Proof.Machine.execSessionIdleExpire t x s
  | .fwLoad t ch tag slot data => Sys2Proof.Machine.execFwLoad t ch tag slot data s
  | .fwActivate t ch tag slot => Sys2Proof.Machine.execFwActivate t ch tag slot s
  | .fwCommit t ch tag => Sys2Proof.Machine.execFwCommit t ch tag s
  | .trustSet t ch tag kind slot total offset bytes => Sys2Proof.Machine.execTrustSet t ch tag kind slot total offset bytes s
  | .trustClear t ch tag slot => Sys2Proof.Machine.execTrustClear t ch tag slot s
  | .consReset t ch tag target index => Sys2Proof.Machine.execConsReset t ch tag target index s
  | .consTransfer t ch tag target src dst => Sys2Proof.Machine.execConsTransfer t ch tag target src dst s
  | .secConfig t ch tag value mask clear => Sys2Proof.Machine.execSecConfig t ch tag value mask clear s
  | .debugChallenge t ch tag scope => Sys2Proof.Machine.execDebugChallenge t ch tag scope s
  | .debugUnlock t ch tag scope token => Sys2Proof.Machine.execDebugUnlock t ch tag scope token s
  | .auditRead t ch tag count seq => Sys2Proof.Machine.execAuditRead t ch tag count seq s
  | .auditSign t ch tag nonce => Sys2Proof.Machine.execAuditSign t ch tag nonce s
  | .auditAcknowledge t ch tag seq => Sys2Proof.Machine.execAuditAcknowledge t ch tag seq s
  | .glitch t detector => Sys2Proof.Machine.execGlitch t detector s
  | .rngFail t test => Sys2Proof.Machine.execRngFail t test s
  | .jtagInstruction t inst => Sys2Proof.Machine.execJtagInstruction t inst s
  | .limitInputChange t axis pos level => Sys2Proof.Machine.execLimitInputChange t axis pos level s
  | .driverFault t axis level => Sys2Proof.Machine.execDriverFault t axis level s
  | .outShortAxis t axis out => Sys2Proof.Machine.execOutShortAxis t axis out s
  | .homeInputEdge t axis level => Sys2Proof.Machine.execHomeInputEdge t axis level s
  | .homeDebounceExpire t axis => Sys2Proof.Machine.execHomeDebounceExpire t axis s
  | .powerOn t => Sys2Proof.Machine.execPowerOn t s
  | .vinBelowPor t => Sys2Proof.Machine.execVinBelowPor t s
  | .resetNLow t ns taken => Sys2Proof.Machine.execResetNLow t ns taken s
  | .selfRefreshTimeout t => Sys2Proof.Machine.execSelfRefreshTimeout t s
  | .resetRelease t => Sys2Proof.Machine.execResetRelease t s
  | .start t info => Sys2Proof.Machine.execStart t info s
  | .startTimeout t => Sys2Proof.Machine.execStartTimeout t s
  | .watchdogExpire t => Sys2Proof.Machine.execWatchdogExpire t s
  | .lockstepMismatch t => Sys2Proof.Machine.execLockstepMismatch t s
  | .warmArm t ch tag => Sys2Proof.Machine.execWarmArm t ch tag s
  | .warmArmExpire t => Sys2Proof.Machine.execWarmArmExpire t s
  | .fatalFault t bit => Sys2Proof.Machine.execFatalFault t bit s
  | .vinWarn t mv => Sys2Proof.Machine.execVinWarn t mv s
  | .vinWarnEnd t => Sys2Proof.Machine.execVinWarnEnd t s
  | .vinWarnStop t => Sys2Proof.Machine.execVinWarnStop t s
  | .vinHigh t mv => Sys2Proof.Machine.execVinHigh t mv s
  | .inputTrip t => Sys2Proof.Machine.execInputTrip t s
  | .vencOverload t => Sys2Proof.Machine.execVencOverload t s
  | .vencRetry t ok => Sys2Proof.Machine.execVencRetry t ok s
  | .vencBackfeed t mv => Sys2Proof.Machine.execVencBackfeed t mv s
  | .railFault t rail => Sys2Proof.Machine.execRailFault t rail s
  | .outShort t sig => Sys2Proof.Machine.execOutShort t sig s
  | .thermalTrip t sensor temp => Sys2Proof.Machine.execThermalTrip t sensor temp s
  | .throttleFall t => Sys2Proof.Machine.execThrottleFall t s
  | .sensorFailWrite t ch tag bits => Sys2Proof.Machine.execSensorFailWrite t ch tag bits s
  | .sensorReadmitted t sensor => Sys2Proof.Machine.execSensorReadmitted t sensor s
  | .mgReadState t => Sys2Proof.Machine.execMgReadState t s
  | .mgReadRole t => Sys2Proof.Machine.execMgReadRole t s
  | .mgReadTemp t => Sys2Proof.Machine.execMgReadTemp t s
  | .mgReadFaults t => Sys2Proof.Machine.execMgReadFaults t s
  | .mgReadLevel t => Sys2Proof.Machine.execMgReadLevel t s
  | .mgAlertResponse t => Sys2Proof.Machine.execMgAlertResponse t s
  | .missedPartsRequest t picks => Sys2Proof.Machine.execMissedPartsRequest t picks s
  | .stripRequest t handle index => Sys2Proof.Machine.execStripRequest t handle index s
  | .gpioIndexEdge t gpio => Sys2Proof.Machine.execGpioIndexEdge t gpio s
  | .laneStateRepeat t hub => Sys2Proof.Machine.execLaneStateRepeat t hub s
  | .mgBusTimeout t => Sys2Proof.Machine.execMgBusTimeout t s

end Sys2Proof.Machine
end

