-- ==== Sys2Proof/Safety.lean ====
section
/-!
DEFINITION. What counts as a safe state, the relation between fields that every step keeps; and the words in which statements
speak of a message: when a channel takes it and its action runs, the state its action runs on, and the replies a channel holds.
-/
namespace Sys2Proof

open Sys2Proof.Machine

/-- Every bank of registers is in its one canonical form, so that equal registers are equal data. -/
def banksOk (s : State) : Bool := bankWf s.live && bankWf s.pickEff && bankWf s.startEff && s.frameEff.all bankWf

/-- Channel k after it has taken a message and counted it (R385, R404, R490): the message that a doorbell post left pending, which
empties the inbound mailbox, or one posted now. -/
def takenState (s : State) (k cls op tag : Nat) : State :=
  if pendingIs (mbx s k) cls op tag then takePending s k else countTaken s k

/-- Channel k takes the message and its action runs at once: the firmware serves the channel (R395, R549), the message is the
pending one (R385) or none is pending and the channel has room (R388), the checks of R386 pass, no record of R393 is compared, and
a standby does not refuse it (R341). -/
def acts (s : State) (k cls op tag : Nat) (changes exempt : Bool) : Bool :=
  let u := takenState s k cls op tag
  serving s && takesNow s k &&
    (pendingIs (mbx s k) cls op tag || (!(mbx s k).pending && !numbersSpent s k && decide (outstanding (mbx s k) < 5))) &&
    decide (k < u.host.chans.length) && (takeCheck u k cls op tag ((mbx u k).secure || setupOp cls op) == 0) &&
    !(mbx u k).comparing && !(changes && decide (u.pair.role = .standby) && !exempt)

/-- The state on which a message's action runs: the message is in execution on its channel (R387). -/
def entered (s : State) (k cls op tag : Nat) : State :=
  setMbx (enterFlight (takenState s k cls op tag) k cls op tag) k fun m => { m with comparing := false }

/-- The state on which the action of a message of class SEC runs: a set-up of the channel that ran out is gone (R488). -/
def secEntered (s : State) (k op tag : Nat) : State := entered (lapseSetup s k) k 0x0F op tag

/-- A message of class SEC is taken and acted on: also the session's role permits it (R485, R486; `sub` is its KIND), and the audit
log has room for it (R510). -/
def secActs (s : State) (k op tag : Nat) (changes exempt : Bool) (sub : Nat) : Bool :=
  let u := lapseSetup s k
  acts u k 0x0F op tag changes exempt &&
    (pendingIs (mbx u k) 0x0F op tag || takeCheck u k 0x0F op tag ((mbx u k).secure || setupOp 0x0F op) == 0) &&
    rolePermits (secEntered s k op tag) k op sub && !(auditFull (secEntered s k op tag) && decide (0x16 ≤ op) && decide (op ≠ 0x1E))

/-- The replies a channel holds for the host: in its outbound mailbox, waiting behind it, or held back (R339, R387). -/
def heldReplies (m : Mbx) : List Reply := m.out.toList ++ m.queue ++ m.flight.filterMap (·.reply)

/-- The reply with a result, a detail and a payload to the message of a class, opcode and tag (R384). -/
def replyOf (cls op tag : Nat) (r : MsgRes) : Reply := ⟨cls, op, tag, r.result, r.detail, false, false, r.payload⟩

/-- The result OK with a payload (R384). -/
def okMsg (payload : List Byte := []) : MsgRes := ⟨0, 0, payload, false⟩

/-- A result that is not OK, with its detail (R384). -/
def failMsg (result : Nat) (detail : Nat := 0) : MsgRes := ⟨result, detail, [], false⟩

/-- From `s` to `u` nothing but the host interface, the registers outside the sets and the outputs has changed. -/
def HostOnly (s u : State) : Prop := { u with host := s.host, live := s.live, out := s.out } = s

/-- No register outside the sets has changed but those with the keys named. -/
def regsKept (s u : State) (keys : List Nat) : Prop := ∀ k, k ∉ keys → bankLookup u.live k = bankLookup s.live k

/-- No register outside the sets has changed but the doorbell and summary registers, which collect what happened, and those with
the keys named. -/
def regsKeptBut (s u : State) (keys : List Nat) : Prop :=
  regsKept s u (regKey .DB_D2H_STATUS 0 0 :: regKey .FAULT_SUMMARY 0 0 :: keys)

/-- From `s` to `u` a fault was reported and nothing else happened: bit `b` of a sticky field reads 1, with what follows from its
becoming set (R601), and one event has joined those that wait for the next boundary (R402). -/
def Reported (s u : State) (f : Field) (i b : Nat) (e : Event) : Prop :=
  stickyOn u f i b = true ∧ u.host.queued = s.host.queued ++ [e] ∧ HostOnly s u ∧ regsKeptBut s u [regKey f.reg i 0]

/-- From `s` to `u` an event was raised and nothing else happened (R402). -/
def Raised (s u : State) (e : Event) : Prop := { s with host := { s.host with queued := s.host.queued ++ [e] } } = u

/-- Whether the module has set a bit of a register in the cycle under way: a write of the same cycle leaves it set (R5). -/
def noted (s : State) (key b : Nat) : Bool :=
  s.host.setTick == s.time.counter && s.host.setNow.any fun x => x.1 == key && x.2.testBit b

/-- From `s` to `u` only packets have gone to hubs: nothing but the outputs, the free values they used and the scramblers of the lanes'
transmitters has changed (R241). -/
def SentOnly (s u : State) : Prop :=
  { u with out := s.out, freeCtr := s.freeCtr, link := { u.link with lanes := s.link.lanes } } = s ∧
    ∀ n, { laneOf u n with tx := (laneOf s n).tx } = laneOf s n

end Sys2Proof
end

