-- ==== Sys2Proof/Certificates/Slice0/Obligations.lean ====
section
/-!
DEFINITION. The statements for the provers.
-/
open Sys2Proof Sys2Proof.Machine

/-- For every command c, queue q and state s, step of s with c at the front of its queue is exec c on s with the queue's rest. -/
def Obligations.StepRunsFront : Prop :=
  ∀ (c : Instr) (q : List Instr) (s : State), step { s with pending := c :: q } = exec c { s with pending := q }

/-- With no command waiting a step leaves the state as it is. The model's choice (log 2): the spec has no row for the passing of
time. -/
def Obligations.EmptyQueueIdles : Prop :=
  ∀ s : State, s.pending = [] → step s = .next s

/-- Whatever command is carried out, the commands that wait behind it are the same, in the same order, when it answers a next
state. -/
def Obligations.QueueUntouched : Prop :=
  ∀ (c : Instr) (s u : State), exec c s = .next u → u.pending = s.pending

/-- Every command, in every state and with every operand, answers a next state: none ends in a fault or a refusal. That state has
the same commands waiting, and its registers are in canonical form when they were before. Where the absolute maximum ratings are
exceeded the model goes on as below them (log 72). -/
def Obligations.EveryCommandCompletes : Prop :=
  ∀ (c : Instr) (s : State),
    ∃ u, exec c s = .next u ∧ u.pending = s.pending ∧ (banksOk s = true → banksOk u = true)

/-- From every state whose banks of registers (live, next pick, next start, both camera ports' frames) are in canonical form, a
step that answers a next state answers one whose banks are too: equal registers stay equal data, whichever command is carried
out. -/
def Obligations.RegisterBanksCanonical : Prop :=
  ∀ s u : State, banksOk s = true → step s = .next u → banksOk u = true

/-- The state after reset has its banks of registers in canonical form. -/
def Obligations.ResetBanksCanonical : Prop :=
  banksOk State.reset = true

/-- After the release of reset: device time 0 with INCR 1.0, not locked (R75); pick 0 (R16); the device state reads 2, BOOT
(R382); DB_D2H_STATUS reads 0x0020_030F and DB_D2H_MASK 0xFFFF_FFFF (R396); SYS_ID reads 0x1E6C_8200 (R382); no lock is held
(R400); the event ring is empty (R403). That the model's reset state lies in BOOT is its choice (log 10). -/
def Obligations.ResetState : Prop :=
  now State.reset = 0 ∧ State.reset.time.incr = 2 ^ 32 ∧ State.reset.time.locked = false ∧ State.reset.time.pick = 0 ∧
    stateCode State.reset.sys.st = 2 ∧ liveFld State.reset Fld.DB_D2H_STATUS_STATUS = 0x0020030F ∧
    liveFld State.reset Fld.DB_D2H_MASK_MASK = 0xFFFFFFFF ∧ bankReg State.reset.live .SYS_ID 0 0 = 0x1E6C8200 ∧
    State.reset.host.locks = List.replicate 32 0 ∧ State.reset.host.evHead = liveFld State.reset Fld.EVT_TAIL_TAIL

/-- A field written reads as the written value in its width; a field of any other register, or of another instance or element of
it, and every field of the same register that shares no bit with it, reads as before. -/
def Obligations.RegisterReadAfterWrite : Prop :=
  ∀ (s : State) (f g : Field) (i v e j d : Nat), banksOk s = true → i < 8192 → e < 131072 → j < 8192 → d < 131072 →
    liveFld (setFld s f i v e) f i e = v % 2 ^ f.width ∧
    (g.reg ≠ f.reg ∨ j ≠ i ∨ d ≠ e → liveFld (setFld s f i v e) g j d = liveFld s g j d) ∧
    (g.reg = f.reg → (g.lo + g.width ≤ f.lo ∨ f.lo + f.width ≤ g.lo) → liveFld (setFld s f i v e) g i e = liveFld s g i e)

/-- The bytes of a field, least significant first, read back as its value in its width, and any bytes are the bytes of the value
they read as. -/
def Obligations.LittleEndianFields : Prop :=
  ∀ (n v : Nat) (bs : List Byte),
    (leBytes n v).length = n ∧ ofLe (leBytes n v) = v % 256 ^ n ∧ leBytes bs.length (ofLe bs) = bs ∧
    (leBytes (n + 1) v)[0]? = some (BitVec.ofNat 8 v)

/-- A reply to a message in execution, with its class, opcode, tag, result, detail and payload (R384), stands in the channel
afterwards: in the outbound mailbox, queued behind it, or held until the record that carries the change is acknowledged (R339,
R387). -/
def Obligations.ReplyReachesItsChannel : Prop :=
  ∀ (s : State) (k tag : Nat) (changes : Bool) (r : MsgRes) (f : Flight), k < s.host.chans.length →
    (mbx s k).flight.find? (fun f => f.tag == tag && f.reply.isNone) = some f → f.drop = false →
    replyOf f.cls f.op tag r ∈ heldReplies (mbx (answer s k tag changes r) k)

/-- Putting a reply changes nothing but the host interface, the outputs and, among the registers, DB_D2H_STATUS; on the host
interface every channel but the reply's own is as before. -/
def Obligations.ReplyFrame : Prop :=
  ∀ (s : State) (k tag : Nat) (changes : Bool) (r : MsgRes), banksOk s = true →
    HostOnly s (answer s k tag changes r) ∧ regsKept s (answer s k tag changes r) [regKey .DB_D2H_STATUS 0 0] ∧
    ∀ j, j ≠ k → mbx (answer s k tag changes r) j = mbx s j

/-- When a message's action runs, its channel holds it last in execution with its class, opcode and tag (R384, R387), no other
message of the channel in execution has its tag (R386), MESSAGES_TAKEN of the channel has risen by one (R404), and on the
channels N0 to N3 nothing but the host interface and that register has changed. -/
def Obligations.TakingAMessage : Prop :=
  ∀ (s : State) (k cls op tag : Nat) (changes exempt : Bool), banksOk s = true → k < 4 →
    acts s k cls op tag changes exempt = true →
    ∃ fs, (mbx (entered s k cls op tag) k).flight = fs ++ [{ cls := cls, op := op, tag := tag }] ∧ (∀ f ∈ fs, f.tag ≠ tag) ∧
      HostOnly s (entered s k cls op tag) ∧ regsKept s (entered s k cls op tag) [regKey .MBX_TAKEN k 0] ∧
      liveFld (entered s k cls op tag) Fld.MBX_TAKEN_MESSAGES_TAKEN k = (liveFld s Fld.MBX_TAKEN_MESSAGES_TAKEN k + 1) % 2 ^ 32

/-- A message posted on a channel that already has five outstanding messages is discarded: its tag goes to REJECT_TAG,
MBX_STATUS.BUSY_REJECT reads 1, doorbell bit 22 reads 1, no message is added to those in execution and no reply to those
waiting, and nothing but the host interface, the registers and the outputs changes; on S0 and S1 the session has used one more
message number (log 13). -/
def Obligations.SixthMessageDiscarded : Prop :=
  ∀ (s : State) (k cls op tag : Nat) (changes exempt : Bool) (act : State → State × MsgRes),
    banksOk s = true → serving s = true → (mbx s k).pending = false → takesNow s k = true → numbersSpent s k = false →
    k < s.host.chans.length → k < 8192 → 5 ≤ outstanding (mbx s k) →
    let u := message s k cls op tag changes exempt act
    HostOnly s { u with sec := s.sec } ∧ (k < 4 → u.sec = s.sec) ∧
      (4 ≤ k → (secSession s k).stage = 2 → k - 4 < s.sec.sessions.length → (secSession u k).taken = (secSession s k).taken + 1) ∧
      (mbx u k).rejectTag = tag ∧ stickyOn u Fld.MBX_STATUS_BUSY_REJECT k = true ∧
      (liveFld u Fld.DB_D2H_STATUS_STATUS).testBit 22 = true ∧ (mbx u k).flight = (mbx s k).flight ∧
      (mbx u k).out = (mbx s k).out ∧ (mbx u k).queue = (mbx s k).queue

/-- On a standby a message that would change state, and is not one of R341's exceptions, is replied DENIED_PAIR (13) without
acting, whatever its action is. -/
def Obligations.StandbyDeniesChanges : Prop :=
  ∀ (s : State) (k tag : Nat) (act : State → State × MsgRes), s.pair.role = .standby →
    (mbx s k).comparing = false →
    runMessage s k tag true false act = answer s k tag false (failMsg 13)

/-- While a channel compares its messages with its record, one whose tag matches a recorded one is not acted on: the recorded
reply stands in the channel again with FLAGS.REPEAT set, and the state outside the host interface, the registers and the outputs
is as before, whatever the message's action is. -/
def Obligations.RecordedMessageNotRepeated : Prop :=
  ∀ (s : State) (k cls op tag : Nat) (changes exempt : Bool) (act : State → State × MsgRes) (r : Recorded) (fs : List Flight),
    k < s.host.chans.length → (mbx s k).comparing = true → (mbx s k).recent.find? (·.tag == tag) = some r →
    (mbx s k).flight = fs ++ [{ cls := cls, op := op, tag := tag }] →
    let u := runMessage s k tag changes exempt act
    HostOnly s u ∧ { r.reply with isRepeat := true } ∈ heldReplies (mbx u k)

/-- When device time has reached the next boundary and the firmware or hardware of the unit runs, PICK_BOUNDARY completes and
the pick number is one more than before, whatever the boundary's five steps do (a time step among them). -/
def Obligations.PickNumberRises : Prop :=
  ∀ (s : State) (t : Nat) (x : PickInputs),
    let s0 := flushUpdate (begin s t)
    s0.time.nextBoundary ≤ now s0 → barOpen s0 = true →
    ∃ u, exec (.pickBoundary t x) s = .next u ∧ u.time.pick = s.time.pick + 1

/-- A read of TIM_NOW_LO returns bits 31:0 of device time and latches bits 63:32, and changes nothing else (R76). A PTP event
message received on an enabled port is stamped with device time plus the port's asymmetry (R87). A transmit time-stamp joins its
port's queue while it holds fewer than 16, and is counted, reported with TXQ_OVERFLOW and event 0x1004 and discarded when it is
full; the PTP stack then reads the oldest entries, and each of a Sync or Pdelay_Resp leaves in its Follow_Up (R88 to R90). Entries
unread for 100 ms leave the queue and are counted (R90). That the reads come with the command is the model's (log 77). -/
def Obligations.TimeReadsAndStamps : Prop :=
  ∀ (s : State) (t : Nat), banksOk s = true →
    let s0 := begin s t
    (∃ u, exec (.timNowLoRead t) s = .next u ∧ u.out = s0.out ++ [.value [now s0 % 2 ^ 32]] ∧
      u.time.nowHi = now s0 / 2 ^ 32 % 2 ^ 32 ∧ { u with out := s0.out, time := { u.time with nowHi := s0.time.nowHi } } = s0) ∧
    (∀ (port : Fin 2) (kind : Nat), ptpPort s0 port = true → kind ≤ 3 → port < s0.time.rxStamps.length →
      ∃ u, exec (.ptpEventReceive t port kind) s = .next u ∧
        nth u.time.rxStamps port 0 = (now s0 + signedOf 16 (liveFld s0 Fld.TIM_ETH_ASYM_ASYM port)).toNat ∧
        { u with time := { u.time with rxStamps := s0.time.rxStamps } } = s0) ∧
    (∀ (port : Fin 2) (ident : PtpIdent) (reads : Nat) q, ptpPort s0 port = true → (nth s0.time.txq port []).length < 16 →
      port < s0.time.txq.length → q = nth s0.time.txq port [] ++ [⟨ident, ptpStamp s0 port, now s0⟩] →
      ∃ u, exec (.ptpTxTimestamp t port ident reads) s = .next u ∧ nth u.time.txq port [] = q.drop reads ∧
        u.out = s0.out ++ ((q.take reads).filter fun e => decide (e.ident.kind = 0 ∨ e.ident.kind = 3)).map
          (fun e => .followUp port e.ident e.stamp) ∧
        { u with time := { u.time with txq := s0.time.txq }, out := s0.out } = s0) ∧
    (∀ (port : Fin 2) (ident : PtpIdent), ptpPort s0 port = true → 16 ≤ (nth s0.time.txq port []).length →
      ∃ u, exec (.ptpTxTimestamp t port ident 0) s = .next u ∧
        liveFld u Fld.TIM_TXQ_TXQ_LOST port = (liveFld s0 Fld.TIM_TXQ_TXQ_LOST port + 1) % 65536 ∧
        stickyOn u Fld.TIM_STATUS_TXQ_OVERFLOW = true ∧ HostOnly s0 u ∧
        u.host.queued = s0.host.queued ++ [⟨now s0, 0x1004, port, liveFld u Fld.TIM_TXQ_TXQ_LOST port⟩]) ∧
    (∀ port : Fin 2, port < s0.time.txq.length →
      ∃ u, exec (.txqEntryStale t port) s = .next u ∧
        nth u.time.txq port [] = (nth s0.time.txq port []).filter (fun e => decide (now s0 < e.arrived + 100000000)) ∧
        liveFld u Fld.TIM_TXQ_TXQ_STALE port = (liveFld s0 Fld.TIM_TXQ_TXQ_STALE port +
          (nth s0.time.txq port []).countP (fun e => decide (e.arrived + 100000000 ≤ now s0))) % 65536 ∧
        { u with time := s0.time, live := s0.live } = s0)

/-- A PPS edge is stamped and the next is expected a second later (R91); with SOURCE PPS it is a measurement against the second named
for it, and the eighth good one declares lock. An edge missing for 1.1 s is reported with event 0x1005 (R91). PPS_OUT rises at a
whole second unless gated and falls when PPS_WIDTH has passed (R92). A measurement is recorded and counted, and the eighth good
one in a row declares lock with event 0x1002 (R84); one whose own time-stamp is not in the queue counts for nothing (R90).
HOLDOVER_TIME without one sets HOLDOVER and loses lock with event 0x1003 (R85), and PPS_OUT falls with it where it is gated (R92).
A slew that is used up returns to the base rate (R80). Triggers act in ascending number, and of several actions on one output in a
tick it shows the last level alone (R100). -/
def Obligations.PpsAndLock : Prop :=
  ∀ (s : State) (t : Nat), banksOk s = true →
    let s0 := begin s t
    (∀ act : ServoAct, s0.time.source ≠ 2 →
      ∃ u, exec (.ppsInEdge t act) s = .next u ∧ liveFld u Fld.TIM_PPS_IN_TIME_PPS_IN_TIME = now s0 % 2 ^ 64 ∧
        u.time.ppsExpected = some (now s0 + 1000000000) ∧ u.time.ppsSecond = s0.time.ppsSecond.map (· + 1) ∧
        { u with live := s0.live, time := s0.time } = s0) ∧
    (∀ k err, s0.time.source = 2 → s0.time.locked = false → 7 ≤ s0.time.goodRun → s0.time.ppsSecond = some k →
      err = (now s0 : Int) - 1000000000 * k → err.natAbs < liveFld s0 Fld.TIM_LOCK_LOCK_LIMIT →
      ∃ u, exec (.ppsInEdge t .none) s = .next u ∧ liveFld u Fld.TIM_PPS_IN_TIME_PPS_IN_TIME = now s0 % 2 ^ 64 ∧
        liveFld u Fld.TIM_ERROR_SERVO_ERROR = sat32 err ∧ u.time.locked = true ∧ u.time.ppsSecond = some (k + 1) ∧
        u.time.ppsExpected = some (now s0 + 1000000000) ∧
        u.host.queued = s0.host.queued ++ [⟨now s0, 0x1002, 2, sat32 err⟩] ∧ HostOnly s0 { u with time := s0.time }) ∧
    (∀ e, s0.time.ppsExpected = some e → e + 1100000000 ≤ now s0 →
      ∃ u, exec (.ppsMissing t) s = .next u ∧
        Reported { s0 with time := { s0.time with ppsExpected := some (e + 1000000000) } } u Fld.TIM_STATUS_PPS_MISSING 0 0
          ⟨now s0, 0x1005, 0, e % 2 ^ 32⟩) ∧
    (s0.time.ppsOut = none → serving s0 = true → s0.sys.st ≠ .recovery →
      (now s0 % 1000000000 ≤ 2 ∨ 999999998 ≤ now s0 % 1000000000) → liveFld s0 Fld.TIM_PPS_PPS_GATE ≠ 1 ∨ s0.time.locked = true →
      ∃ u, exec (.ppsOutPulse t) s = .next u ∧ u.out = s0.out ++ [.pps true] ∧
        u.time.ppsOut = some (s0.time.counter + 1000 * liveFld s0 Fld.TIM_PPS_PPS_WIDTH) ∧
        { u with out := s0.out, time := { u.time with ppsOut := s0.time.ppsOut } } = s0) ∧
    (∀ f, s0.time.ppsOut = some f →
      (f ≤ s0.time.counter → exec (.ppsOutPulse t) s =
        .next { s0 with time := { s0.time with ppsOut := none }, out := s0.out ++ [.pps false] }) ∧
      (s0.time.counter < f → exec (.ppsOutPulse t) s = .next s0)) ∧
    (∀ (err : Int) (act : ServoAct), s0.time.source ≠ 0 → s0.time.source ≠ 2 →
      exec (.servoMeasurement t err act none) s =
        .next (servoAdjust (judgeLock (lockCounters (setFld s0 Fld.TIM_ERROR_SERVO_ERROR 0 (sat32 err)) err)) act)) ∧
    (∀ (err : Int) (act : ServoAct) (x : PtpExchange), (∀ e ∈ nth s0.time.txq x.port [], e.ident ≠ x.ident) →
      exec (.servoMeasurement t err act (some x)) s = .next s0) ∧
    (∀ err : Int, s0.time.source = 1 → s0.time.locked = false → 7 ≤ s0.time.goodRun →
      err.natAbs < liveFld s0 Fld.TIM_LOCK_LOCK_LIMIT →
      ∃ u, exec (.servoMeasurement t err .none none) s = .next u ∧ u.time.locked = true ∧ u.time.holdover = false ∧
        liveFld u Fld.TIM_ERROR_SERVO_ERROR = sat32 err ∧
        u.host.queued = s0.host.queued ++ [⟨now s0, 0x1002, 1, sat32 err⟩] ∧ HostOnly s0 { u with time := s0.time }) ∧
    (s0.time.source ≠ 0 → s0.time.locked = true →
      s0.time.lastMeasure + liveFld s0 Fld.TIM_LOCK_HOLDOVER_TIME * 1000000000 ≤ s0.time.counter →
      let falls := s0.time.ppsOut.isSome = true ∧ liveFld s0 Fld.TIM_PPS_PPS_GATE = 1
      ∃ u v, exec (.holdoverExpire t) s = .next u ∧
        Reported v u Fld.TIM_STATUS_LOCK_LOST 0 0 ⟨now s0, 0x1003, s0.time.source, liveFld s0 Fld.TIM_ERROR_SERVO_ERROR⟩ ∧
        (falls → v.out = s0.out ++ [.pps false] ∧ v.time.ppsOut = none) ∧
        (¬ falls → v.out = s0.out ∧ v.time.ppsOut = s0.time.ppsOut) ∧
        { v with out := s0.out, time := { v.time with ppsOut := s0.time.ppsOut } } =
          { s0 with time := { s0.time with holdover := true, goodRun := 0, locked := false, relock := false } }) ∧
    (s0.time.source ≠ 0 → s0.time.locked = false →
      s0.time.lastMeasure + liveFld s0 Fld.TIM_LOCK_HOLDOVER_TIME * 1000000000 ≤ s0.time.counter →
      exec (.holdoverExpire t) s = .next { s0 with time := { s0.time with holdover := true, goodRun := 0 } }) ∧
    (s0.time.slewLeft = 0 → exec (.slewDone t) s = .next { s0 with time := { s0.time with slewing := false } }) ∧
    (∀ (samples : List TrigSample) u, u = actTrigger (actTrigger (actTrigger (actTrigger (actTrigger (actTrigger (actTrigger
        (actTrigger s0 0 samples) 1 samples) 2 samples) 3 samples) 4 samples) 5 samples) 6 samples) 7 samples →
      exec (.triggerAct t samples) s = .next { u with out := netOutputs s0 u.out }) ∧
    (∀ n : Fin 8, (∀ k, k < 8 → k ≠ n.val → liveFld s0 Fld.TIM_TRIG_CTRL_OWNER k = 0 ∧ trigDue s0 k = false ∧ (trig s0 k).old = none) →
      liveFld s0 Fld.TIM_TRIG_CTRL_OWNER n = 0 → (trig s0 n).old = none → trigDue s0 n = true → (trig s0 n).lateDue = false →
      leaseGated s0 (trigCtrl s0 n) = false → liveFld s0 Fld.TIM_TRIG_CTRL_TARGET n = 6 → n < s0.time.trigs.length →
      ∃ u, exec (.triggerAct t []) s = .next u ∧ (liveFld u Fld.DB_D2H_STATUS_STATUS).testBit 20 = true ∧
        (trig u n).acted = (trig s0 n).acted + 1 ∧
        (trig u n).next = (trig s0 n).next + liveFld s0 Fld.TIM_TRIG_PERIOD_PERIOD n ∧
        ((trig u n).armed = true ↔ liveFld s0 Fld.TIM_TRIG_PERIOD_PERIOD n ≠ 0 ∧
          (liveFld s0 Fld.TIM_TRIG_COUNT_COUNT n = 0 ∨ (trig s0 n).acted + 1 < liveFld s0 Fld.TIM_TRIG_COUNT_COUNT n)))

/-- While the host owns the servo: TIM.SET_INCR within 1,000 ppm of 1.0 changes INCR and leaves device time as it reads (R79),
beyond it changes nothing and returns BAD_PARAM; TIM.SLEW within 10 ms replaces the slew (R80); TIM.STEP outside a job is queued
for the second boundary (R81), in one returns STATE. TIM.PPS_SECOND names the second of the next edge (R91). TIM.TRIG_SET of a
trigger no subsystem holds, in time, writes its registers and arms it at TIME (R96, R97); one that comes late under REJECT
returns TOO_LATE and changes nothing. TIM.TRIG_CANCEL disarms it (R99). Each replies as stated. -/
def Obligations.TimeMessages : Prop :=
  ∀ (s : State) (t : Nat) (ch : Fin 6) (tag : Nat), banksOk s = true →
    (∀ (incr : Nat) (e : State), acts (begin s t) ch 8 0x10 tag true false = true → e = entered (begin s t) ch 8 0x10 tag →
      hostServo e = true →
      (1000000 * ((incr : Int) - 2 ^ 32).natAbs ≤ 1000 * 2 ^ 32 →
        ∃ u, exec (.timSetIncr t ch tag incr) s = .next (answer u ch tag true okMsg) ∧ u.time.incr = incr ∧ now u = now e ∧
          { u with time := { u.time with incr := e.time.incr, offset := e.time.offset } } = e) ∧
      (1000 * 2 ^ 32 < 1000000 * ((incr : Int) - 2 ^ 32).natAbs →
        exec (.timSetIncr t ch tag incr) s = .next (answer e ch tag true (failMsg 4)))) ∧
    (∀ (d : Int) (e : State), acts (begin s t) ch 8 0x11 tag true false = true → e = entered (begin s t) ch 8 0x11 tag →
      hostServo e = true → d.natAbs ≤ 10000000 →
      exec (.timSlew t ch tag d) s =
        .next (answer { e with time := { e.time with slewLeft := d * 2 ^ 32, slewing := true } } ch tag true okMsg)) ∧
    (∀ (d : Int) (e : State), acts (begin s t) ch 8 0x12 tag true false = true → e = entered (begin s t) ch 8 0x12 tag →
      hostServo e = true →
      (jobOn e = false → exec (.timStep t ch tag d) s = .next (answer { e with time := { e.time with
          steps := e.time.steps ++ [⟨d, e.time.pick + 2⟩] } } ch tag true okMsg)) ∧
      (jobOn e = true → exec (.timStep t ch tag d) s = .next (answer e ch tag true (failMsg 5)))) ∧
    (∀ (second : Nat) (e : State), acts (begin s t) ch 8 0x13 tag true false = true → e = entered (begin s t) ch 8 0x13 tag →
      exec (.timPpsSecond t ch tag second) s =
        .next (answer { e with time := { e.time with ppsSecond := some second } } ch tag true okMsg)) ∧
    (∀ (n ctrl time period count : Nat) (e : State), acts (begin s t) ch 8 0x14 tag true false = true →
      e = entered (begin s t) ch 8 0x14 tag → trigBad n ctrl period = false → liveFld e Fld.TIM_TRIG_CTRL_OWNER n = 0 →
      n < e.time.trigs.length →
      (now e + 200 ≤ time → time < 2 ^ 64 → period < 2 ^ 32 → count < 2 ^ 32 → trigNear e n = false →
        ∃ u, exec (.timTrigSet t ch tag n ctrl time period count) s = .next (answer u ch tag true okMsg) ∧
          liveFld u Fld.TIM_TRIG_TIME_TIME n = time ∧ liveFld u Fld.TIM_TRIG_PERIOD_PERIOD n = period ∧
          liveFld u Fld.TIM_TRIG_COUNT_COUNT n = count ∧ liveFld u Fld.TIM_TRIG_CTRL_TARGET n = bitsOf ctrl 0 3 ∧
          liveFld u Fld.TIM_TRIG_CTRL_OWNER n = 0 ∧
          (trig u n).armed = decide (bitsOf ctrl 0 3 ≠ 0) ∧ (trig u n).acted = 0 ∧ (trig u n).next = time ∧
          { u with live := e.live, time := e.time } = e) ∧
      (time < now e + 200 → bitsOf ctrl 0 3 ≠ 0 → bitsOf ctrl 9 2 = 1 →
        exec (.timTrigSet t ch tag n ctrl time period count) s = .next (answer e ch tag true (failMsg 12)))) ∧
    (∀ (n : Nat) (e : State), acts (begin s t) ch 8 0x15 tag true false = true → e = entered (begin s t) ch 8 0x15 tag →
      n < 8 → liveFld e Fld.TIM_TRIG_CTRL_OWNER n = 0 → trigNear e n = false →
      exec (.timTrigCancel t ch tag n) s = .next (answer (setTrig e n fun g => { g with armed := false }) ch tag true okMsg))

/-- An open pair of an enabled encoder is noted and sets its bit and ENCn_FAULT (R31, R32). With A and B both closed again
counting resumes from their levels (R32). A change of one of A and B of an enabled encoder with both pairs closed is one count,
signed by which leads and by ENC_DIR (R27, R29); a change of both at once is counted illegal and sets ILLEGAL, and OVERRATE too when
it comes within 25 ns of the change before (R29, R32). A level that the filter rejects changes nothing (R28). The index
edge of an enabled encoder latches its count (R30), places the position of a job that waits for it (R435) and the homing of an
axis (R458); its end is noted (R617). A synthetic update runs the predictor one count on from the last edge (R48). -/
def Obligations.EncoderInputs : Prop :=
  ∀ (s : State) (t : Nat),
    let s0 := begin s t
    let s1 := flushUpdate s0
    let calm (n : Nat) := ∀ e, (enc s1 n).lastEdge = some e → e + 25 ≤ s1.time.counter
    (∀ (n : Fin 2) (pair : Fin 3), n < s0.pos.enc.length →
      ∃ u, exec (.encoderPairOpen t n pair) s = .next (openBits u n) ∧ pairOpen (enc u n) pair = true ∧
        (∀ p : Fin 3, p ≠ pair → pairOpen (enc u n) p = pairOpen (enc s0 n) p) ∧ (enc u n).count = (enc s0 n).count ∧
        { u with pos := { u.pos with enc := s0.pos.enc } } = s0) ∧
    (∀ (n : Fin 2) (pair : Fin 3) (a b : Bool), n < s0.pos.enc.length →
      ∃ u, exec (.encoderPairClosed t n pair a b) s = .next u ∧ pairOpen (enc u n) pair = false ∧
        ((enc u n).openA = false → (enc u n).openB = false → (enc u n).a = a ∧ (enc u n).b = b) ∧
        (enc u n).count = (enc s0 n).count ∧ { u with pos := { u.pos with enc := s0.pos.enc } } = s0) ∧
    (∀ (n : Fin 2) (a b : Bool) heldA heldB, encOn s1 n = true → (enc s1 n).openA = false → (enc s1 n).openB = false →
      (a ≠ (enc s1 n).a ∧ b = (enc s1 n).b ∧ passesFilter s1 n heldA = true ∨
        a = (enc s1 n).a ∧ b ≠ (enc s1 n).b ∧ passesFilter s1 n heldB = true) → calm n →
      exec (.encoderTransition t n a b heldA heldB) s = .next (countEdge
        (setEnc s1 n fun x => { x with a := a, b := b, lastEdge := some s1.time.counter }) n
        ((if a ≠ (enc s1 n).a then (if a = b then -1 else 1) else (if a = b then 1 else -1)) *
          (if fld s1 Fld.POS_ENC_CTRL_ENC_DIR n = 1 then -1 else 1)))) ∧
    (∀ (n : Fin 2) (a b : Bool) heldA heldB, encOn s1 n = true → passesFilter s1 n heldA = false → passesFilter s1 n heldB = false →
      exec (.encoderTransition t n a b heldA heldB) s = .next s1) ∧
    (∀ (n : Fin 2) (a b : Bool) heldA heldB, encOn s1 n = true → (enc s1 n).openA = false → (enc s1 n).openB = false →
      a ≠ (enc s1 n).a → b ≠ (enc s1 n).b → passesFilter s1 n heldA = true → passesFilter s1 n heldB = true → n < s1.pos.enc.length →
      ∃ u, (enc u n).illegal = (enc s1 n).illegal + 1 ∧ (enc u n).count = (enc s1 n).count ∧ (enc u n).a = a ∧ (enc u n).b = b ∧
        { u with pos := { u.pos with enc := s1.pos.enc } } = s1 ∧
        (calm n → exec (.encoderTransition t n a b heldA heldB) s = .next (encBit u n Fld.POS_ENC_STATUS_ILLEGAL)) ∧
        (¬ calm n → exec (.encoderTransition t n a b heldA heldB) s =
          .next (encBit (encBit u n Fld.POS_ENC_STATUS_ILLEGAL) n Fld.POS_ENC_STATUS_OVERRATE))) ∧
    (∀ (n : Fin 2) held, encOn s1 n = true → passesFilter s1 n held = true → (enc s1 n).z = false → n < s1.pos.enc.length →
      ∃ u, exec (.indexEdge t n held) s =
          .next (homeIndex (if s1.pos.indexWait = true ∧ s1.pos.source = n.val then placePosition u else u) n) ∧
        (enc u n).z = true ∧ (enc u n).indexCount = (enc s1 n).count ∧
        (enc u n).count = (enc s1 n).count ∧ { u with pos := { u.pos with enc := s1.pos.enc } } = s1) ∧
    (∀ (n : Fin 2) held, passesFilter s1 n held = false → exec (.indexEdge t n held) s = .next s1 ∧
      exec (.indexPulseEnd t n held) s = .next s1) ∧
    (∀ (n : Fin 2) held, passesFilter s1 n held = true → indexChecked (setEnc s1 n fun x => { x with z := false }) n = false →
      exec (.indexPulseEnd t n held) s = .next (setEnc s1 n fun x => { x with z := false })) ∧
    (∀ (n : Fin 2) held, passesFilter s1 n held = true → (enc s1 n).z = true →
      indexChecked (setEnc s1 n fun x => { x with z := false }) n = true →
      fld s1 Fld.POS_ENC_CTRL_ENC_Z_MAX_WIDTH n < ((enc s1 n).count - (enc s1 n).zCount).natAbs → (enc s1 n).runZ = 2 →
      n < s1.pos.enc.length →
      exec (.indexPulseEnd t n held) s =
        .next (encBit (setEnc s1 n fun x => { x with z := false, runZ := 0 }) n Fld.POS_ENC_STATUS_INV_Z)) ∧
    (∀ l p, l = ((passSign s1 * linesPerCount s1 s1.pos.source : Int) : Rat) / 2 ^ 24 → p = s1.pos.pred → p.pend = none →
      0 < passVel s1 → l ≠ 0 →
      2 ≤ (p.p + p.v * (((s1.time.counter : Int) - (p.tLast : Int) : Int) : Rat) - p.zLast) / l →
      ∃ u, exec (.syntheticUpdate t) s = .next (afterUpdate u) ∧ u.pos.pred.zLast = p.zLast ∧
        (p.tLast ≠ s1.time.counter → u.pos.pred.tLast = s1.time.counter) ∧
        { u with pos := { u.pos with pred := p } } = s1)

/-- While a channel may put nothing on the link (no job in it, scheduling frozen, the origin not placed) LINE_SEND and
LINE_MISSED_NOT_READY only pass time. A line ready within its window, from LEAD_TIME + 5 µs to LEAD_TIME before its earliest fire
time with overspeed's delay, is sent: its rows go to every hub whose window is open, the channel is past it, and an armed job
prints; one that overspeed drops is counted and passed; outside the window nothing more happens. A line that is not ready at
LEAD_TIME, or whose window has passed, is counted missed, with MISSED and event 0x0205, and passed. A wanted line whose streams
offer it is rendered into the FIFO. A strip decoded and verified becomes ready; one that is poisoned, damaged or does not decode is
fetched once more with event 0x0401, and after that has failed with event 0x0402. -/
def Obligations.LinesRenderedAndSent : Prop :=
  ∀ (s : State) (t : Nat) (c : Fin 16), banksOk s = true →
    let s1 := flushUpdate (begin s t)
    let s2 := sendLater s1 c
    let s3 := checkJob ((chan s1 c).sent.foldl (fun s l => missOpened s c l) s1)
    (mayTransmit s1 c = false → exec (.lineSend t c) s = .next s1 ∧ exec (.lineMissedNotReady t c) s = .next s1) ∧
    (maySend s2 c = false → exec (.lineSend t c) s = .next s2) ∧
    (∀ line rows onHist f fs d send close w, maySend s2 c = true → line = (chan s2 c).next →
      readyLine s2 c line = some (rows, onHist) → rows ≠ [] → lineFire s2 c line rows = some (f, fs) →
      holdOrShed s2 c line f = (d, send) → close = earliest f fs + d - leadNs s2 → w = swapBefore s2 c line →
      c < w.print.chans.length →
      ((now s2 : Int) < close - 5000 ∨ close < now s2 → exec (.lineSend t c) s = .next s2) ∧
      (close - 5000 ≤ now s2 → (now s2 : Int) ≤ close → send = true →
        ∃ u, exec (.lineSend t c) s = .next (checkJob (judgeCover u c)) ∧ (chan u c).lastSent = some line ∧
          (chan u c).lastFire = (f + d).toNat ∧ line < (chan u c).next ∧ (∀ l ∈ (chan u c).fifo, line < l.line) ∧
          (w.sys.st = .armed → u.sys.st = .printing) ∧
          (linesOff w = false → ∀ r ∈ rows.zip (fs.map (· + d)), hubOpen w (rows.zip (fs.map (· + d))) r.1.hub = true →
            withheld w r.1.hub = false → .hub r.1.hub (liveFld w Fld.PAIR_EPOCH_EPOCH) (!driving w) (.lineData r.1.port r.1.rowB
              (low32 line) onHist (headNozzles (cfgAt w c line) r.1.head) r.1.dots) ∈ u.out)) ∧
      (close - 5000 ≤ now s2 → (now s2 : Int) ≤ close → send = false →
        ∃ u, exec (.lineSend t c) s = .next (checkJob (judgeCover u c)) ∧ line < (chan u c).next ∧
          (∀ l ∈ (chan u c).fifo, line < l.line) ∧ u.out = w.out ∧ liveFld u Fld.POS_DROP_LINES_DROPPED_OVERSPEED c =
            (liveFld w Fld.POS_DROP_LINES_DROPPED_OVERSPEED c + 1) % 2 ^ 64)) ∧
    (∀ line rows f fs close v w, mayTransmit s1 c = true → maySend s3 c = true → line = (chan s3 c).next →
      rows = (match readyLine s3 c line with
        | some r => r.1
        | none => (headRows (cfgAt s3 c line) c).map fun (h, p, b) => ⟨h, p.hub, p.port, b, []⟩) →
      rows ≠ [] → lineFire s3 c line rows = some (f, fs) → close = earliest f fs + (holdOrShed s3 c line f).1 - leadNs s3 →
      w = swapBefore s3 c line → v = (if (chan w c).render ≤ line then comeToLine w c line else w) → c < v.print.chans.length →
      ((now s3 : Int) < close ∨ now s3 = close ∧ (readyLine s3 c line).isSome = true →
        exec (.lineMissedNotReady t c) s = .next s3) ∧
      (close < now s3 ∨ now s3 = close ∧ readyLine s3 c line = none →
        ∃ u, exec (.lineMissedNotReady t c) s = .next (checkJob (judgeCover (dropBuffers u c (line + 1)) c)) ∧
          line < (chan u c).next ∧ line < (chan u c).render ∧ (∀ l ∈ (chan u c).fifo, line < l.line) ∧
          liveFld u Fld.POS_MISSED_LINES_MISSED_NOT_READY c = (liveFld v Fld.POS_MISSED_LINES_MISSED_NOT_READY c + 1) % 2 ^ 64 ∧
          stickyOn u Fld.POS_STATUS_MISSED = true ∧
          ((chan v c).missedEv = none → (chan u c).missedEv = some line ∧
            u.host.queued = v.host.queued ++ [⟨now v, 0x0205, c, low32 line % 2 ^ 32⟩]))) ∧
    (∀ line m a b, line = (chan s1 c).render → inJob s1 c = true → linesOff s1 = false → lineWanted s1 line = true →
      fifoRoom s1 c line = true → jobImage (fillBuffers s1 c) c = some m → streamData (fillBuffers s1 c) c 0 line = some a →
      s1.job.rep.mode ≠ 2 → b = comeToLine (fillBuffers s1 c) c line → c < b.print.chans.length →
      ∃ u l, exec (.lineRender t c) s = .next (judgeCover (dropBuffers u c (line + 1)) c) ∧
        (chan u c).fifo = (chan b c).fifo ++ [l] ∧ l.line = line ∧ l.hist = pathAt b c line ∧ (chan u c).render = line + 1 ∧
        (pathAt b c line = false → bandLine b line = none → l.rows = (renderLine (cfgAt b c line) b.live c b.job.rep m.width m.height
          (fun st => if st = 1 then .blank else a) (line - b.job.first)).1)) ∧
    (∀ read ecc b bs x, decodeOrder s1 c = b :: bs → findCopy s1 b.copy = some x → ownErrors s1 x ecc = [] →
      (∀ hd out n, x.damaged = false → decodeWithin x.cost (read.getD x.bytes) = .ok hd out n →
        decodedMisfit s1 (nth s1.job.images c 0) b.index hd = 0 →
        ∃ u, exec (.stripDecodeDone t c read ecc) s = .next u ∧ (chan u c).bufs = (chan s1 c).bufs.map
            (fun y => if y = b then { b with ready := true, reading := false, data := out } else y) ∧
          u.store.strips = s1.store.strips.map (fun y => if y.copy = b.copy then { y with refs := y.refs - 1 } else y) ∧
          { u with store := s1.store, print := s1.print } = s1) ∧
      (∀ code, (x.damaged = true ∧ code = 15 ∨ x.damaged = false ∧ ∃ n, decodeWithin x.cost (read.getD x.bytes) = .bad code n) →
        code < 2 ^ 8 →
        (b.tries = 0 → ∃ u, exec (.stripDecodeDone t c read ecc) s = .next (startReads u c) ∧
          liveFld u Fld.JLC_LAST_ERR_ERROR_CODE = code ∧ liveFld u Fld.JLC_LAST_ERR_ERROR_SOURCE = c ∧
          liveFld u Fld.JLC_RETRIES_STRIP_RETRIES c = (liveFld s1 Fld.JLC_RETRIES_STRIP_RETRIES c + 1) % 2 ^ 32 ∧
          stickyOn u Fld.JLC_STATUS_STRIP_RETRY = true ∧ (chan u c).bufs = (chan s1 c).bufs.map
            (fun y => if y = b then { b with tries := 1, reading := false } else y) ∧
          u.host.queued = s1.host.queued ++ [⟨now s1, 0x0401, c, stripArg s1 (nth s1.job.images c 0) b.index⟩]) ∧
        (b.tries ≠ 0 → ∃ u, exec (.stripDecodeDone t c read ecc) s = .next u ∧
          liveFld u Fld.JLC_FAILED_STRIPS_FAILED c = (liveFld s1 Fld.JLC_FAILED_STRIPS_FAILED c + 1) % 2 ^ 32 ∧
          stickyOn u Fld.JLC_STATUS_STRIP_FAIL = true ∧ (chan u c).bufs = (chan s1 c).bufs.map
            (fun y => if y = b then { b with failed := true, reading := false } else y) ∧
          ⟨now s1, 0x0402, c, stripArg s1 (nth s1.job.images c 0) b.index⟩ ∈ u.host.queued)))

/-- The rows of a channel's lines that no acknowledgement has settled within UNACKED_LIMIT are given up and counted for each hub.
HIST_HOLD picks of warm heads end the history path, at a named boundary of a channel of the job and at once outside one. A valid
acknowledgement of a hub in state UP is noted with its epoch, which, when higher than an active's own, supersedes it; the rows at
or before LAST that have not fired are settled, fired where their FIRED bit says so. A standby keeps an acknowledgement later than
its records; an invalid one is discarded and counted. A standby keeps a line CRC of the active until its own line is rendered; one
whose tag fails is reported with PEER_AUTH_FAIL and event 0x0C0F. -/
def Obligations.LinesSettled : Prop :=
  ∀ (s : State) (t : Nat), banksOk s = true →
    let s0 := begin s t
    let s1 := flushUpdate s0
    (∀ (c : Fin 16) old, old = (fun l : SentLine => decide (l.sentAt + 1000000 * liveFld s1 Fld.FL_CTRL_UNACKED_LIMIT ≤ now s1)) →
      (∀ l ∈ (chan s1 c).sent, ∀ r ∈ l.rows, r.hub < 24) →
      ∃ u, exec (.linesUnacked t c) s = .next (checkJob u) ∧
        (chan u c).sent = ((chan s1 c).sent.map fun l =>
          if old l then { l with rows := l.rows.map fun r => { r with settled := true } } else l).filter lineLive ∧
        ∀ hub : Fin 24, liveFld u Fld.FL_UNACKED_LINES_UNACKED hub = (liveFld s1 Fld.FL_UNACKED_LINES_UNACKED hub +
          (chan s1 c).sent.countP (fun l => old l && l.rows.any fun r => !r.settled && r.hub == hub.val)) % 2 ^ 32) ∧
    (∀ c : Fin 16, (chan s1 c).onHist = true → fld s1 Fld.FIR_CFG_HIST_HOLD c ≤ (chan s1 c).warmPicks → s1.pair.role ≠ .standby →
      (∀ p ∈ s1.print.paths, p.chan ≠ c.val) → bankGet (cfgOf s1 c).regs Fld.FIR_CFG_ENERGY_PATH c = 2 →
      preheatOk (cfgOf s1 c) c = true →
      (inJob s1 c = true → exec (.histHoldExpire t c) s = .next { s1 with print := { s1.print with
        paths := s1.print.paths ++ [⟨c, false, namedBoundary s1 c⟩],
        sendPaths := s1.print.sendPaths ++ [⟨c, false, namedBoundary s1 c⟩] } }) ∧
      (inJob s1 c = false → ∃ u, exec (.histHoldExpire t c) s = .next u ∧ (chan u c).onHist = false ∧ (chan u c).warmPicks = 0 ∧
        (liveFld u Fld.FIR_PATH_PATH_NOW).testBit c = false ∧
        liveFld u Fld.FIR_SWITCHES_PATH_SWITCHES c = (liveFld s1 Fld.FIR_SWITCHES_PATH_SWITCHES c + 1) % 2 ^ 32 ∧
        stickyOn u Fld.FIR_STATUS_PATH_SWITCHED = true ∧
        u.print.sendPaths = s1.print.sendPaths ++ [⟨c, false, (chan s1 c).next⟩] ∧
        u.host.queued = s1.host.queued ++ [⟨now s1, 0x0602, c, low32 (chan s1 c).next % 2 ^ 32⟩])) ∧
    (∀ (hub : Fin 24) (ack : HubAck), ack.valid = false → ∃ u, exec (.hubAckReceive t hub ack) s = .next u ∧ HostOnly s1 u ∧
      liveFld u Fld.FL_CRC_ERR_CRC_ERRORS hub = (liveFld s1 Fld.FL_CRC_ERR_CRC_ERRORS hub + 1) % 2 ^ 32 ∧
      stickyOn u Fld.FL_STATUS_CRC_ERROR = true) ∧
    (∀ (hub : Fin 24) (ack : HubAck), ack.valid = true → (hubOf s1 hub).state = 3 → hub < s1.link.hubs.length →
      ∃ v, (hubOf v hub).epoch = ack.epoch ∧ (hubOf v hub).lastAck = now s1 ∧ (hubOf v hub).ackTime = ack.ackTime ∧
        (hubOf v hub).status = ack.status ∧ (hubOf v hub).ackLost = false ∧ (∀ h, h ≠ hub.val → hubOf v h = hubOf s1 h) ∧
        HostOnly s1 { v with link := s1.link } ∧
        (s1.pair.role = .active → liveFld s1 Fld.PAIR_EPOCH_EPOCH < ack.epoch →
          exec (.hubAckReceive t hub ack) s = .next (takeAck (supersede
            { v with pair := { v.pair with seenEpoch := Nat.max v.pair.seenEpoch ack.epoch } } ack.epoch) hub ack)) ∧
        (s1.pair.role ≠ .standby → (s1.pair.role = .active → ack.epoch ≤ liveFld s1 Fld.PAIR_EPOCH_EPOCH) →
          exec (.hubAckReceive t hub ack) s = .next (gapAck (checkJob (readAck v hub ack true)) hub ack)) ∧
        (s1.pair.role = .standby → (∀ x ∈ s1.pair.ackTimes, x.1 ≠ hub.val) → exec (.hubAckReceive t hub ack) s =
          .next { v with link := { v.link with acks := lastN 4096 (s1.link.acks ++ [(hub.val, ack)]) } })) ∧
    (∀ (w : State) (c u port : Nat) (rowB : Bool) (last : Int) (fired : Nat) (count : Bool) (l : SentLine),
      let y := (settleLine w c u port rowB last fired count l).2
      y.rows.length = l.rows.length ∧ ∀ i, i < l.rows.length → ∀ r r' : SentRow, l.rows[i]? = some r → y.rows[i]? = some r' →
        ((r.hub = u ∧ r.port = port ∧ r.rowB = rowB) → l.line ≤ last → r.fired = false →
          r'.settled = true ∧ (r'.fired = true ↔ last - l.line ≤ 63 ∧ fired.testBit (last - l.line).toNat = true)) ∧
        (¬ (r.hub = u ∧ r.port = port ∧ r.rowB = rowB) ∨ last < l.line → r' = r)) ∧
    (∀ (c : Fin 16) (hub : Fin 24) (line : Int) (crc : Nat) (subst : Bool), s0.pair.role = .standby → peerTalks s0 = true →
      ((∀ x ∈ s0.pair.crcs, ¬ (x.1 = c.val ∧ x.2.1 = hub.val ∧ x.2.2.1 = line)) →
        ∃ u, exec (.lineCrcReceive t c hub line crc subst true) s = .next u ∧ u.pair.peerLast = now s0 ∧
          u.pair.peerCrcs = lastN 4096 (s0.pair.peerCrcs ++ [(c.val, hub.val, line, crc, subst)]) ∧
          { u with pair := { u.pair with peerLast := s0.pair.peerLast, peerCrcs := s0.pair.peerCrcs } } = s0) ∧
      ∃ u, exec (.lineCrcReceive t c hub line crc subst false) s = .next u ∧ stickyOn u Fld.SEC_STATUS_PEER_AUTH_FAIL = true ∧
        ⟨now s0, 0x0C0F, unitNo s0, 2⟩ ∈ u.host.queued ∧ u.pair = s0.pair)

/-- IMG.CREATE with sizes in range, a new name and room gives the image a handle and returns it. IMG.INFO returns the layout of
IMG.CREATE with the strips stored, damaged and the bytes stored; IMG.LIST up to 56 handles in ascending order from FIRST;
IMG.DELETE of an image no job uses removes it and its strips. DIAG.PLACEMENT describes the grains of a stored strip. Each
replies as stated, and none of the queries changes anything but its channel. -/
def Obligations.ImageMessages : Prop :=
  ∀ (s : State) (t : Nat) (ch : Fin 6) (tag : Nat),
    (∀ name format lps width height e, acts (begin s t) ch 3 0x10 tag true false = true → e = entered (begin s t) ch 3 0x10 tag →
      0 < width → 0 < height → 1 ≤ lps → lps ≤ 4096 → format ≤ 1 → (∀ m ∈ e.store.images, m.name ≠ padName name) →
      lps * lineBytes format width ≤ 262144 → e.store.images.length < 4095 →
      ∃ u h, exec (.imgCreate t ch tag name format lps width height) s = .next (answer u ch tag true (okMsg (leBytes 4 h))) ∧
        u.store.images = e.store.images ++ [⟨h, padName name, format, lps, width, height⟩] ∧
        { u with store := { u.store with images := e.store.images, nextHandle := e.store.nextHandle } } = e) ∧
    (∀ handle m e, acts (begin s t) ch 3 0x13 tag false false = true → e = entered (begin s t) ch 3 0x13 tag →
      findImage e handle = some m →
      exec (.imgInfo t ch tag handle) s = .next (answer e ch tag false (okMsg (m.name ++ leBytes 1 m.format ++ leBytes 1 0 ++
        leBytes 2 m.lps ++ leBytes 4 m.width ++ leBytes 4 m.height ++ leBytes 4 (stripsOf e handle).length ++
        leBytes 4 ((stripsOf e handle).countP (·.damaged)) ++ leBytes 8 ((stripsOf e handle).map (·.bytes.length)).sum)))) ∧
    (∀ first e, acts (begin s t) ch 3 0x14 tag false false = true → e = entered (begin s t) ch 3 0x14 tag →
      ∃ hs : List Nat, exec (.imgList t ch tag first) s = .next (answer e ch tag false (okMsg ((hs.take 56).flatMap (leBytes 4)))) ∧
        hs.Pairwise (· ≤ ·) ∧ hs.Perm ((e.store.images.map (·.handle)).filter fun h => decide (first ≤ h))) ∧
    (∀ handle m e, acts (begin s t) ch 3 0x12 tag true false = true → e = entered (begin s t) ch 3 0x12 tag →
      findImage e handle = some m → jobUses e handle = false →
      ∃ u, exec (.imgDelete t ch tag handle) s = .next (answer u ch tag true okMsg) ∧ findImage u handle = none ∧
        u.store.images = e.store.images.filter (fun m => m.handle != handle) ∧ stripsOf u handle = []) ∧
    (∀ handle strip x e, acts (begin s t) ch 10 0x11 tag false false = true → e = entered (begin s t) ch 10 0x11 tag →
      findStrip e handle strip = some x →
      ∃ p, exec (.diagPlacement t ch tag handle strip) s = .next (answer e ch tag false (okMsg p)) ∧
        p.length = 12 * Nat.min x.grains.length (if ch.val < 4 then 20 else 18))

/-- IMG.INGEST with its checks passed starts an ingest that holds the bytes read, over Ethernet one that waits for its transfer, and
is not answered yet. A raw strip whose lines have arrived is encoded, and a coded strip that decodes and fits its image is cost-
checked; each is stored and the ingest goes on with the next strip, or after its last one is answered with the strips stored. A
strip that does not decode or fit is rejected with its code, INGEST_REJECT and event 0x0403, and ends its ingest; one for which
there is no room ends it with NO_RESOURCE, and so does one too costly to stream, with the same bit and event. IMG.ENCODE and
IMG.DECODE over PCIe with their checks passed write what the codec makes of the source to host memory and reply with the counts. -/
def Obligations.IngestAndCodecJobs : Prop :=
  ∀ (s : State) (t : Nat) (ch : Fin 6) (tag : Nat), banksOk s = true →
    let s0 := begin s t
    let advanced (g : Ingest) (used : Nat) : Ingest :=
      { g with next := g.next + 1, left := g.left - 1, stored := g.stored + 1, used := used, index := g.index + 1 }
    let holds (u : State) (g : Ingest) (b : List Byte) (k : Nat) : Prop :=
      ∃ x, findStrip u g.handle g.next = some x ∧ x.bytes = b ∧ x.cost = k ∧ x.crc = crc32c b ∧ x.damaged = false
    let goesOn (i : Instr) (w : State) (g : Ingest) (b : List Byte) (k lines used : Nat) : Prop :=
      streamedTooCostly w g.handle k lines = false → ceilDiv b.length (grainBytes w) * grainBytes w ≤ freeBytes w →
        (2 ≤ g.left → ∃ u, exec i s = .next u ∧ holds u g b k ∧ advanced g used ∈ u.store.ingests ∧ g ∉ u.store.ingests) ∧
        (g.left < 2 → ∃ u, exec i s = .next (answer u ch tag true (okMsg (leBytes 4 (g.stored + 1)))) ∧ holds u g b k ∧
          g ∉ u.store.ingests)
    let rejected (i : Instr) (g : Ingest) (engine code : Nat) : Prop :=
      ∃ u, exec i s = .next (answer u ch tag true ⟨if code = 14 then 10 else 4, 0, leBytes 4 g.stored, false⟩) ∧
        (code < 2 ^ 8 → liveFld u Fld.JLC_LAST_ERR_ERROR_CODE = code) ∧ liveFld u Fld.JLC_LAST_ERR_ERROR_SOURCE = 16 + engine ∧
        stickyOn u Fld.JLC_STATUS_INGEST_REJECT = true ∧ u.store.ingests = s0.store.ingests.filter (· != g) ∧
        u.host.queued = s0.host.queued ++ [⟨now s0, 0x0403, 16 + engine, (g.index * 256 + code) % 2 ^ 32⟩]
    (∀ handle form first count m (data : DataRef) e, acts (begin s t) ch 3 0x11 tag true false = true →
      e = entered (begin s t) ch 3 0x11 tag → findImage e handle = some m → 0 < count → first + count ≤ imageStrips m → form ≤ 1 →
      (form = 0 → rawLength m first count ≤ data.length) →
      (jobUses e handle = true → ∀ i, i < count → ∀ x, findStrip e handle (first + i) = some x → x.damaged = true) →
      (e.sys.ethernet = false → data.fail = 0) →
      ∃ u g, exec (.imgIngest t ch tag handle form first count data) s = .next u ∧ u.store.ingests = e.store.ingests ++ [g] ∧
        g.chan = ch.val ∧ g.tag = tag ∧ g.handle = handle ∧ g.jlc = decide (form = 1) ∧ g.next = first ∧ g.left = count ∧ g.stored = 0 ∧
        (e.sys.ethernet = false → g.data = refBytes data ∧ g.transfer = none ∧ u.host = e.host) ∧
        (e.sys.ethernet = true → g.transfer = some data.transfer ∧
          u.host = { e.host with transfers := e.host.transfers ++ [{ num := data.transfer, length := data.length }] }) ∧
        { u with store := { u.store with ingests := e.store.ingests }, host := e.host } = e) ∧
    (∀ (engine : Fin 4) g m n, findIngest s0 ch tag = some g → g.jlc = false → findImage s0 g.handle = some m →
      n = stripLines m g.next * imageLine m →
      ((ingestData s0 g).1.length < g.used + n → exec (.rawStripEncoded t ch tag engine) s = .next s0) ∧
      (g.used + n ≤ (ingestData s0 g).1.length →
        let e := encodeStrip (liveFld s0 Fld.JLC_CTRL_STORED_FALLBACK == 1) (liveFld s0 Fld.JLC_CTRL_COST_LIMIT) (imageLine m)
          (((ingestData s0 g).1.drop g.used).take n)
        goesOn (.rawStripEncoded t ch tag engine) s0 g e.bytes e.cost (stripLines m g.next) (g.used + n) ∧
        (streamedTooCostly s0 g.handle e.cost (stripLines m g.next) = true →
          ∃ u x, exec (.rawStripEncoded t ch tag engine) s = .next (answer u ch tag true ⟨6, 0, leBytes 4 g.stored, false⟩) ∧
            stickyOn u Fld.JLC_STATUS_INGEST_REJECT = true ∧
            u.host.queued = s0.host.queued ++ [⟨now s0, 0x0403, 16 + engine.val % 2, (g.index * 256 + x % 256) % 2 ^ 32⟩]) ∧
        (streamedTooCostly s0 g.handle e.cost (stripLines m g.next) = false →
          freeBytes s0 < ceilDiv e.bytes.length (grainBytes s0) * grainBytes s0 →
          ∃ u, exec (.rawStripEncoded t ch tag engine) s = .next (answer u ch tag true ⟨6, 0, leBytes 4 g.stored, false⟩) ∧
            u.store = { s0.store with ingests := s0.store.ingests.filter (· != g) }))) ∧
    (∀ (engine : Fin 2) g m, findIngest s0 ch tag = some g → g.jlc = true → findImage s0 g.handle = some m →
      (∀ hd out cost, decodeStrip ((ingestData s0 g).1.drop g.used) = .ok hd out cost →
        (∀ u b k, imageCheck m g.next hd = 0 →
          costChecked s0 g.handle g.next hd (((ingestData s0 g).1.drop g.used).take (32 + hd.length)) out cost = (u, b, k) →
          goesOn (.ingestStripDecoded t ch tag engine) u g b k hd.lineCount (g.used + (32 + hd.length))) ∧
        (imageCheck m g.next hd ≠ 0 → rejected (.ingestStripDecoded t ch tag engine) g engine (imageCheck m g.next hd))) ∧
      (∀ code n, decodeStrip ((ingestData s0 g).1.drop g.used) = .bad code n →
        ((ingestData s0 g).2 = true ∨ (code ≠ 7 ∧ code ≠ 12) → rejected (.ingestStripDecoded t ch tag engine) g engine code) ∧
        ((ingestData s0 g).2 = false → (code = 7 ∨ code = 12) → exec (.ingestStripDecoded t ch tag engine) s = .next s0))) ∧
    (∀ (j : CodecJob) e, acts (begin s t) ch 3 0x15 tag false false = true → e = entered (begin s t) ch 3 0x15 tag →
      e.sys.ethernet = false → encodeOk j = true → j.fail = 0 → j.resume = false →
      let run := encodeJob j.width j.lps (liveFld e Fld.JLC_CTRL_COST_LIMIT) j.fallback
        (cutEvery (j.lps * j.width) j.count ((jobSource j).take (j.count * j.lps * j.width))) 0 0 0 j.dstLen {}
      exec (.imgEncode t ch tag j) s = .next (answer
        { e with out := e.out ++ [.hostWrite j.dst run.output, .hostWrite j.hdr run.headers] ++
            (match run.stopped with | some r => [.hostWrite j.resumeAt r] | none => []) }
        ch tag false ⟨if run.stopped.isSome then 11 else 0, 0, codecReply run.done run.consumed run.output.length 0, false⟩)) ∧
    (∀ (j : CodecJob) e, acts (begin s t) ch 3 0x16 tag false false = true → e = entered (begin s t) ch 3 0x16 tag →
      e.sys.ethernet = false → j.op = 2 → 0 < j.count → j.fail = 0 → (decodeJob j.count (jobSource j) j.dstLen {}).code = 0 →
      let run := decodeJob j.count (jobSource j) j.dstLen {}
      exec (.imgDecode t ch tag j) s = .next (answer (emit e (.hostWrite j.dst run.output)) ch tag false
        ⟨if run.full then 11 else 0, 0, codecReply run.done run.consumed run.output.length 0, false⟩))

/-- A standby stores a strip that decodes, for an image it knows, in coded form or, where that is not shorter, stored; it counts one
that does not decode, with REPL_REJECT and event 0x0405, and asks for it again. A retry that is due asks the partner for its strip
again and waits 10 s. A partner that asks for a stored strip for the first time gets it. A damaged strip that is restored with
bytes that decode is stored anew and no longer damaged. -/
def Obligations.ReplicatedStrips : Prop :=
  ∀ (s : State) (t handle index : Nat) (bytes : List Byte), banksOk s = true →
    let s0 := begin s t
    let published (u : State) (hd : StripHead) (out : List Byte) (cost : Nat) : Prop :=
      ∃ x, findStrip u handle index = some x ∧ x.damaged = false ∧ x.crc = crc32c x.bytes ∧
        (hd.mode = 0 → x.bytes = bytes.take (32 + hd.length) ∧ x.cost = cost) ∧
        (hd.mode = 1 → out.length ≤ hd.length → x.bytes = (storedStrip hd.lineWidth out).bytes) ∧
        (hd.mode = 1 → hd.length < out.length → cost ≤ costLimit out.length (liveFld s0 Fld.JLC_CTRL_COST_LIMIT) →
          x.bytes = bytes.take (32 + hd.length) ∧ x.cost = cost)
    (∀ m hd out cost, s0.pair.role = .standby → findImage s0 handle = some m → decodeStrip bytes = .ok hd out cost →
      ∃ u, exec (.replStripReceived t handle index bytes) s = .next u ∧ published u hd out cost ∧
        ∀ r ∈ u.store.retries, ¬ (r.handle = handle ∧ r.index = index)) ∧
    (∀ m code n, s0.pair.role = .standby → findImage s0 handle = some m → decodeStrip bytes = .bad code n → code < 2 ^ 8 →
      (∀ r ∈ s0.store.retries, ¬ (r.handle = handle ∧ r.index = index)) → s0.thm.tripped = false →
      ∃ u, exec (.replStripReceived t handle index bytes) s = .next u ∧ liveFld u Fld.JLC_LAST_ERR_ERROR_CODE = code ∧
        liveFld u Fld.JLC_REPL_REPL_REJECTS = (liveFld s0 Fld.JLC_REPL_REPL_REJECTS + 1) % 2 ^ 32 ∧
        stickyOn u Fld.JLC_STATUS_REPL_REJECT = true ∧
        u.host.queued = s0.host.queued ++ [⟨now s0, 0x0405, handle, stripArg s0 handle index⟩] ∧
        u.store.retries = s0.store.retries ++ [⟨handle, index, 1, none⟩] ∧ .peer (.askStrip handle index) ∈ u.out) ∧
    (s0.thm.tripped = false → ∃ u, exec (.replRetryTimer t) s = .next u ∧
      (∀ r ∈ s0.store.retries, ∀ a, r.askAt = some a → a ≤ now s0 → .peer (.askStrip r.handle r.index) ∈ u.out) ∧
      (∀ r ∈ u.store.retries, ∀ a, r.askAt = some a → now s0 < a) ∧ { u with out := s0.out, store := s0.store } = s0) ∧
    (∀ x, findStrip s0 handle index = some x → x.damaged = false → s0.thm.tripped = false →
      (∀ a ∈ s0.store.asks, ¬ (a.handle = handle ∧ a.index = index)) →
      ∃ u, exec (.stripRequest t handle index) s = .next u ∧ u.out = s0.out ++ [.peer (.strip handle index (sendForm x))] ∧
        u.store.asks = s0.store.asks ++ [⟨handle, index, 1⟩] ∧
        { u with out := s0.out, store := { u.store with asks := s0.store.asks } } = s0) ∧
    (∀ x hd out cost, findStrip s0 handle index = some x → decodeStrip bytes = .ok hd out cost → x.damaged = true →
      ∃ u, exec (.stripRestored t handle index bytes) s = .next u ∧ published u hd out cost)

/-- A scrub read takes the next row of the pass while throttling allows: a corrected error is counted with ECC_CORR, an
uncorrectable one is counted with ECC_UNCORR and event 0x0302 and its row retired. A refresh that falls due goes to the idle bank
owed longest, with one of the debt after it, and is postponed when none is idle, at most eight. A channel due to retrain does so
when no other trains and 64 picks have passed, or cover allows; when done it holds the temperature, and reads it in TRAIN_TEMP,
and CALIBRATIONS rises with event 0x1201. A move whose copy is verified becomes ready, and one that is not, or whose source holds a
poisoned word, is abandoned with MOVE_FAIL and event 0x0309; a ready one is committed at one instant with its strip's grains
exchanged, and its old copy is freed when nothing reads it, with event 0x0308. -/
def Obligations.DramUpkeep : Prop :=
  ∀ (s : State) (t : Nat), banksOk s = true →
    let s0 := begin s t
    let r := scrubRow s0.store.scrubAt
    (1 ≤ throttle s0 → ∀ found, exec (.scrubRead t found) s = .next s0) ∧
    (throttle s0 = 0 → (s0.store.scrubAt ≠ 0 ∨ s0.store.scrubFrom = none) →
      (∃ u, exec (.scrubRead t []) s = .next u ∧ u.store.scrubAt = (s0.store.scrubAt + 1) % scrubRows ∧
        u.store.strips = s0.store.strips ∧ { u with store := s0.store } = s0) ∧
      (∀ word, s0.store.eccInForce = true →
        (∃ u, exec (.scrubRead t [(word, .corrected)]) s = .next u ∧ stickyOn u Fld.IMG_STATUS_ECC_CORR = true ∧
          liveFld u Fld.IMG_ECC_ECC_CORRECTED = (liveFld s0 Fld.IMG_ECC_ECC_CORRECTED + 1) % 2 ^ 32 ∧
          u.store.scrubAt = (s0.store.scrubAt + 1) % scrubRows ∧
          (rowErrors s0 r + 1 < fld s0 Fld.IMG_SCRUB_ROW_RETIRE_LIMIT →
            u.store.retired = s0.store.retired ∧ rowErrors u r = rowErrors s0 r + 1) ∧
          (fld s0 Fld.IMG_SCRUB_ROW_RETIRE_LIMIT ≤ rowErrors s0 r + 1 → u.store.retired = s0.store.retired ++ [r])) ∧
        ∃ u, exec (.scrubRead t [(word, .uncorrectable)]) s = .next u ∧ stickyOn u Fld.IMG_STATUS_ECC_UNCORR = true ∧
          liveFld u Fld.IMG_ECC_ECC_UNCORRECTED = (liveFld s0 Fld.IMG_ECC_ECC_UNCORRECTED + 1) % 2 ^ 32 ∧
          u.store.retired = s0.store.retired ++ [r] ∧
          ⟨now s0, 0x0302, r.chan, (r.bank * 2 ^ 28 + r.row) % 2 ^ 32⟩ ∈ u.host.queued)) ∧
    (∀ d : Fin 4, d < s0.store.dram.length →
      ∃ u, exec (.refreshDue t d) s = .next u ∧ { u with store := { u.store with dram := s0.store.dram } } = s0 ∧
        (∀ n, n ≠ d.val → dramCh u n = dramCh s0 n) ∧
        (∀ b bs, idleBanks (dramCh s0 d) = b :: bs → (dramCh u d).debt = (dramCh s0 d).debt - 1 ∧
          ((dramCh s0 d).debt = 0 → dramCh u d = { dramCh s0 d with
            refreshOrder := (dramCh s0 d).refreshOrder.filter (· != b) ++ [b]
            openRows := (dramCh s0 d).openRows.filter (·.1 != b) })) ∧
        (idleBanks (dramCh s0 d) = [] →
          ((dramCh s0 d).noPostpone = false → (dramCh s0 d).debt < 8 →
            dramCh u d = { dramCh s0 d with debt := (dramCh s0 d).debt + 1 }) ∧
          (((dramCh s0 d).noPostpone = true ∨ 8 ≤ (dramCh s0 d).debt) → (dramCh u d).debt = (dramCh s0 d).debt ∧
            ∀ b bs, (dramCh s0 d).refreshOrder = b :: bs → (dramCh u d).refreshOrder = bs.filter (· != b) ++ [b]))) ∧
    (∀ (d : Fin 4) w, d < s0.store.dram.length → (dramCh s0 d).due = some w → (∀ x ∈ s0.store.dram, x.training = false) →
      (64 ≤ w ∨ coverAllows s0 = true ∧ s0.thm.bandPick ≠ some s0.time.pick ∧
        ∀ p, s0.store.lastBreak = some p → p + 1 < s0.time.pick) →
      ∃ u, exec (.retrainStart t d) s = .next u ∧ (dramCh u d).training = true ∧ (dramCh u d).due = none ∧
        u.store.lastBreak = some s0.time.pick ∧ { u with store := s0.store } = s0) ∧
    (∀ (d : Fin 4) temp eyes, d < s0.store.dram.length → (dramCh s0 d).training = true →
      (∀ e ∈ eyes, liveFld s0 Fld.IMG_CTRL_EYE_MIN ≤ e.width) →
      ∃ u, exec (.retrainDone t d temp eyes) s = .next u ∧ (dramCh u d).training = false ∧ (dramCh u d).temp = temp ∧
        (dramCh u d).settings = mergeEyes (dramCh s0 d).settings eyes ∧
        liveFld u Fld.IMG_TEMP_TRAIN_TEMP d = unsignedOf 8 temp % 256 ∧
        liveFld u Fld.CAL_COUNT_CALIBRATIONS = (liveFld s0 Fld.CAL_COUNT_CALIBRATIONS + 1) % 2 ^ 32 ∧
        u.host.queued = s0.host.queued ++ [⟨now s0, 0x0306, d, low32 temp % 2 ^ 32⟩, ⟨now s0, 0x1201, d, 1⟩] ∧
        HostOnly s0 { u with store := s0.store }) ∧
    (∀ (c : Fin 16) m ecc, moveOf s0 c = some m → m.ready = false →
      ((∀ x, findCopy s0 m.src = some x → ownErrors s0 x ecc = []) →
        (∃ u, exec (.stripMoveCopyDone t c true ecc) s = .next u ∧ u.store.strips = s0.store.strips ∧
          u.store.moves = s0.store.moves.map (fun x => if x = m then { x with ready := true } else x) ∧
          { u with store := s0.store } = s0) ∧
        ∃ u, exec (.stripMoveCopyDone t c false ecc) s = .next u ∧ u.store.strips = s0.store.strips ∧
          u.store.moves = s0.store.moves.filter (· != m) ∧ stickyOn u Fld.IMG_STATUS_MOVE_FAIL = true ∧
          u.host.queued = s0.host.queued ++ [⟨now s0, 0x0309, m.handle, stripArg s0 m.handle m.index⟩]) ∧
      (∀ x ok, findCopy s0 m.src = some x → poisoned (ownErrors s0 x ecc) = true →
        ∃ u, exec (.stripMoveCopyDone t c ok ecc) s = .next u ∧ m ∉ u.store.moves ∧ stickyOn u Fld.IMG_STATUS_MOVE_FAIL = true ∧
          ⟨now s0, 0x0309, m.handle, stripArg s0 m.handle m.index⟩ ∈ u.host.queued)) ∧
    (∀ (c : Fin 16) m x, moveOf s0 c = some m → m.ready = true → findStrip s0 m.handle m.index = some x →
      ∃ u, exec (.stripMoveCommit t c) s = .next u ∧
        u.store.strips = s0.store.strips.map (fun y => if y = x then
          { x with grains := m.grains, refs := 0, copy := s0.store.nextCopy } else y) ∧
        u.store.olds = s0.store.olds ++ [⟨c, x⟩] ∧ u.store.moves = s0.store.moves.filter (· != m) ∧
        u.store.nextCopy = s0.store.nextCopy + 1 ∧
        liveFld u Fld.IMG_MOVES_STRIP_MOVES = (liveFld s0 Fld.IMG_MOVES_STRIP_MOVES + 1) % 2 ^ 32 ∧
        { u with live := s0.live, store := s0.store } = s0) ∧
    (∀ (c : Fin 16) o, (s0.store.olds.find? fun o => o.chan == c.val && o.strip.refs == 0) = some o →
      ∃ u, exec (.oldCopyFree t c) s = .next u ∧ Raised { s0 with store := { s0.store with olds := s0.store.olds.filter (· != o) } } u
        ⟨now s0, 0x0308, o.strip.handle, stripArg s0 o.strip.handle o.strip.index⟩)

/-- A lane of an enabled group that locks is noted with its polarity and the far end is told with LANE_STATE; one that loses lock loses
its order too, is counted and reported with event 0x0701 and its group acts on the loss. A block that a locked lane receives is
descrambled and read: an invalid one is counted and nothing else changes but the time of the lane's last fault; LANE_STATE that
confirms the locks known is noted; a marker of the group's own hub gives the lane its place, and one of another unit or hub
marks it miswired with event 0x0709. A ready lane that has held for REJOIN_HOLD, with no narrowing under way, rejoins the group's
mask with event 0x0702, and a RESTRIPE says so. A group that is not in TRAIN goes on as it was. -/
def Obligations.LaneEvents : Prop :=
  ∀ (s : State) (t : Nat) (lane : Fin 24) (u : Nat), banksOk s = true →
    let s0 := begin s t
    laneHub s0 lane = some u → lane < s0.link.lanes.length →
    (∀ inv, (laneOf s0 lane).locked = false → liveFld s0 Fld.RST_CAUSE_WARM = 0 →
      ∃ v, exec (.laneLockAcquired t lane inv) s = .next (tryTrained v u) ∧
        ((hubOf s0 u).state ≠ 1 → exec (.laneLockAcquired t lane inv) s = .next v) ∧
        SentOnly (setLane s0 lane fun l => { l with locked := true, inverted := inv, since := now s0 }) v ∧
        (linesOff s0 = false → .hub u (liveFld s0 Fld.PAIR_EPOCH_EPOCH) (!driving s0) (.laneState (lockMask v u) (hubOf s0 u).mask) ∈ v.out)) ∧
    ((laneOf s0 lane).locked = true →
      ∃ v, exec (.laneDown t lane) s = .next (afterLoss v u) ∧ ((hubOf s0 u).state = 1 → exec (.laneDown t lane) s = .next v) ∧
        (laneOf v lane).locked = false ∧ (laneOf v lane).ordered = false ∧
        liveFld v Fld.FL_LOCK_LOSS_LOCK_LOSSES lane = (liveFld s0 Fld.FL_LOCK_LOSS_LOCK_LOSSES lane + 1) % 2 ^ 32 ∧
        liveFld v Fld.FL_BLOCK_ERR_BLOCK_ERRORS lane = (liveFld s0 Fld.FL_BLOCK_ERR_BLOCK_ERRORS lane + 16) % 2 ^ 32 ∧
        stickyOn v Fld.FL_STATUS_LANE_DOWN = true ∧ v.host.queued = s0.host.queued ++ [⟨now s0, 0x0701, lane, 0⟩]) ∧
    (∀ w : WireBlock, (laneOf s0 lane).locked = false →
      exec (.laneStateReceive t lane w) s = .next s0 ∧ exec (.laneMarkerReceive t lane w) s = .next s0) ∧
    (∀ (w : WireBlock) rx, (laneOf s0 lane).locked = true → rx = (laneOf (receiveBlock s0 lane w).1 lane).rx →
      ((receiveBlock s0 lane w).2 = .invalid →
        ∃ v, exec (.laneStateReceive t lane w) s = .next v ∧ exec (.laneMarkerReceive t lane w) s = .next v ∧
          liveFld v Fld.FL_BLOCK_ERR_BLOCK_ERRORS lane = (liveFld s0 Fld.FL_BLOCK_ERR_BLOCK_ERRORS lane + 1) % 2 ^ 32 ∧
          (laneOf v lane) = { laneOf s0 lane with since := now s0, rx := rx } ∧ (∀ n, n ≠ lane.val → laneOf v n = laneOf s0 n) ∧
          regsKept s0 v [regKey .FL_BLOCK_ERR lane 0] ∧
          { v with live := s0.live, link := { v.link with lanes := s0.link.lanes } } = s0) ∧
      ((receiveBlock s0 lane w).2 = .stream → exec (.laneStateReceive t lane w) s = .next (setLane s0 lane fun l => { l with rx := rx })) ∧
      (∀ locked uses, (receiveBlock s0 lane w).2 = .laneState locked uses →
        (∀ n ∈ groupLanes s0 u, (laneOf s0 n).map = none ∨ (laneOf s0 n).hubRx = locked.testBit (laneOf s0 n).groupLane) →
        ∃ v, exec (.laneStateReceive t lane w) s = .next (tryTrained v u) ∧
          ((hubOf s0 u).state ≠ 1 → exec (.laneStateReceive t lane w) s = .next v) ∧
          v = setHub (setLane s0 lane fun l => { l with rx := rx }) u (fun h => { h with farLocks := locked }) ∧
          (hubOf v u).farLocks = locked) ∧
      (∀ m : Marker, (receiveBlock s0 lane w).2 = .marker m → m.hub = u → m.fromHub = true → m.width = fld s0 Fld.FL_HUB_WIDTH u →
        m.groupLane < m.width → liveFld s0 Fld.RST_CAUSE_WARM = 0 →
        ∃ v, exec (.laneMarkerReceive t lane w) s = .next (tryTrained v u) ∧
          ((hubOf s0 u).state ≠ 1 → exec (.laneMarkerReceive t lane w) s = .next v) ∧ (laneOf v lane).groupLane = m.groupLane ∧
          (laneOf v lane).map = some ((laneOf s0 lane).inverted, m.groupLane) ∧ (laneOf v lane).miswired = false ∧
          ((laneOf v lane).ordered = true ↔ deskewed s0 u m.seq = true ∨ (laneOf s0 lane).ordered = true) ∧
          (∀ n, n ≠ lane.val → laneOf v n = laneOf s0 n) ∧ { v with link := s0.link } = s0) ∧
      (∀ m : Marker, (receiveBlock s0 lane w).2 = .marker m → (m.hub ≠ u ∨ m.fromHub = false) → (laneOf s0 lane).miswired = false →
        ∃ v, exec (.laneMarkerReceive t lane w) s = .next (tryTrained (afterLoss v u) u) ∧
          Reported (setLane s0 lane fun l => { l with miswired := true, rx := rx }) v Fld.FL_STATUS_MISWIRED 0 0
            ⟨now s0, 0x0709, lane, ((bit m.unitB + 2 * bit m.fromHub) * 256 + m.hub) % 2 ^ 32⟩)) ∧
    ((hubOf s0 u).state = 3 → laneReady (laneOf s0 lane) = true → (hubOf s0 u).mask.testBit (laneOf s0 lane).groupLane = false →
      (hubOf s0 u).narrow = none → (laneOf s0 lane).since + 1000000 * liveFld s0 Fld.FL_CTRL_REJOIN_HOLD ≤ now s0 →
      ∃ v w, w = (hubOf s0 u).mask ||| 2 ^ (laneOf s0 lane).groupLane ∧
        exec (.laneRejoined t lane) s = .next (if hubFits v u w then endShed v u else v) ∧
        ((hubOf s0 u).shed = false → exec (.laneRejoined t lane) s = .next v) ∧ (hubOf v u).mask = w ∧
        (linesOff s0 = false → .hub u (liveFld s0 Fld.PAIR_EPOCH_EPOCH) (!driving s0) (.restripe w (nextHubLine s0 u)) ∈ v.out) ∧
        v.host.queued = s0.host.queued ++ [⟨now s0, 0x0702, lane, w % 2 ^ 32⟩])

/-- For a hub whose group is UP with a lane that is not ready, LANE_STATE with the group's locks and mask goes out; in TRAIN and
IDENTIFY IDLE, the next LANE_MARKER and LANE_STATE do; with every lane ready, or a group that is DOWN, nothing goes out. -/
def Obligations.LaneStateRepeats : Prop :=
  ∀ (s : State) (t : Nat) (hub : Fin 24),
    let s0 := begin s t
    let said (u : State) (p : HubPacket) : Prop :=
      linesOff s0 = false → .hub hub (liveFld s0 Fld.PAIR_EPOCH_EPOCH) (!driving s0) p ∈ u.out
    ((hubOf s0 hub).state = 3 → (∃ n ∈ groupLanes s0 hub, laneReady (laneOf s0 n) = false) →
      ∃ u, exec (.laneStateRepeat t hub) s = .next u ∧ SentOnly s0 u ∧ said u (.laneState (lockMask s0 hub) (hubOf s0 hub).mask)) ∧
    (((hubOf s0 hub).state = 1 ∨ (hubOf s0 hub).state = 2) →
      ∃ u q, exec (.laneStateRepeat t hub) s = .next u ∧ q = ((hubOf s0 hub).markSeq + 1) % 2 ^ 16 ∧
        SentOnly (setHub s0 hub fun h => { h with markSeq := q }) u ∧ said u .idle ∧
        said u (.marker (fld s0 Fld.FL_HUB_WIDTH hub) hub q) ∧ said u (.laneState (lockMask s0 hub) (hubOf s0 hub).mask)) ∧
    (((hubOf s0 hub).state = 0 ∨ (hubOf s0 hub).state = 3 ∧ ∀ n ∈ groupLanes s0 hub, laneReady (laneOf s0 n) = true) →
      exec (.laneStateRepeat t hub) s = .next s0)

/-- A group in TRAIN past BRINGUP_TIMEOUT is identified on its ready lanes, with LANE_STATE and HUB_INFO, when they carry the load, and
else begins TRAIN again with event 0x0708. HUB_INFO of the group's own hub brings it UP with event 0x0707. A group told to narrow
takes the narrower mask and its re-stripe goes out, with event 0x0703 when no line was cut. A hub's invalid answer is discarded
and counted; a valid one to a message is its reply. A command unanswered for 10 ms goes again, and after the third attempt is
given up with CMD_TIMEOUT and event 0x070B and its message answered TIMEOUT. HEAD.HUB_CMD to a hub that is UP sends the command,
and to one that is not returns STATE with the hub named. 200 µs without an acknowledgement from an UP hub is reported once with
event 0x070A. -/
def Obligations.HubLife : Prop :=
  ∀ (s : State) (t : Nat) (hub : Fin 24), banksOk s = true →
    let s0 := begin s t
    let h0 := hubOf s0 hub
    let said (u : State) (p : HubPacket) : Prop :=
      linesOff s0 = false → .hub hub (liveFld s0 Fld.PAIR_EPOCH_EPOCH) (!driving s0) p ∈ u.out
    (h0.state = 1 → h0.trainedAt + 1000000 * liveFld s0 Fld.FL_CTRL_BRINGUP_TIMEOUT ≤ now s0 →
      ∃ u, exec (.bringupTimeout t hub) s = .next u ∧ (∀ n, n ≠ hub.val → hubOf u n = hubOf s0 n) ∧
        (hubFits s0 hub (readyMask s0 hub) = true → (hubOf u hub).state = 2 ∧ (hubOf u hub).mask = readyMask s0 hub ∧
          said u (.laneState (lockMask s0 hub) (readyMask s0 hub)) ∧ said u (.headCmd 1 h0.nextTag []) ∧ u.host = s0.host) ∧
        (hubFits s0 hub (readyMask s0 hub) = false → (hubOf u hub).state = 1 ∧ (hubOf u hub).trainedAt = now s0 ∧
          u.host.queued = s0.host.queued ++ [⟨now s0, 0x0708, hub, 1⟩])) ∧
    (∀ info : HubInfo, h0.state = 2 → info.hub = hub →
      ∃ u, exec (.hubUp t hub info) s = .next (if hubFits u hub h0.mask then endShed u hub else u) ∧
        (h0.shed = false → exec (.hubUp t hub info) s = .next u) ∧
        (hubOf u hub).state = 3 ∧ (hubOf u hub).info = some info ∧ (hubOf u hub).mask = h0.mask ∧ (hubOf u hub).lastAck = now s0 ∧
        (∀ n, n ≠ hub.val → hubOf u n = hubOf s0 n) ∧ u.host.queued = s0.host.queued ++ [⟨now s0, 0x0707, hub, h0.mask % 2 ^ 32⟩]) ∧
    (∀ cut m, h0.narrow = some m →
      ∃ u, exec (.restripeNarrow t hub cut) s = .next u ∧ (hubOf u hub).mask = m ∧ (hubOf u hub).narrow = none ∧
        (h0.state = 3 → said u (.restripe m (nextHubLine s0 hub))) ∧
        (cut ≠ [] → (hubOf u hub).cuts = h0.cuts ++ [cut.take 2] ∧ u.host = s0.host) ∧
        (cut = [] → (hubOf u hub).cuts = h0.cuts ∧ stickyOn u Fld.FL_STATUS_RESTRIPED = true ∧
          u.host.queued = s0.host.queued ++ [⟨now s0, 0x0703, hub, 0⟩])) ∧
    (∀ cmd ctag status args,
      ∃ u, exec (.headCmdResponse t hub false cmd ctag status args) s = .next u ∧ HostOnly s0 u ∧
        liveFld u Fld.FL_CRC_ERR_CRC_ERRORS hub = (liveFld s0 Fld.FL_CRC_ERR_CRC_ERRORS hub + 1) % 2 ^ 32 ∧
        stickyOn u Fld.FL_STATUS_CRC_ERROR = true) ∧
    (∀ cmd ctag status args (c : HubCmd) (k tag : Nat), (h0.cmds.find? fun c => c.cmd == cmd && c.tag == ctag) = some c →
      c.msg = some (k, tag) →
      exec (.headCmdResponse t hub true cmd ctag status args) s = .next (answer
        (setHub s0 hub fun h => { h with cmds := h.cmds.filter (· != c) }) k tag false
        ⟨hubResult status, 0, args.take (if k < 4 then 240 else 224), false⟩)) ∧
    (∀ ctag (c : HubCmd), (h0.cmds.find? fun c => c.tag == ctag) = some c →
      (now s0 < c.sentAt + 10000000 → exec (.cmdTimeout t hub ctag) s = .next s0) ∧
      (c.sentAt + 10000000 ≤ now s0 → c.attempts < 3 → ∃ u, exec (.cmdTimeout t hub ctag) s = .next u ∧
        SentOnly (setHub s0 hub fun h => { h with cmds := h.cmds.map fun x =>
          if x = c then { c with attempts := c.attempts + 1, sentAt := now s0 } else x }) u ∧
        (h0.state = 3 → said u (.headCmd c.cmd c.tag c.args))) ∧
      (c.sentAt + 10000000 ≤ now s0 → 3 ≤ c.attempts →
        ∃ u, Reported (setHub s0 hub fun h => { h with cmds := h.cmds.filter (· != c) }) u Fld.FL_STATUS_CMD_TIMEOUT 0 0
            ⟨now s0, 0x070B, hub, (c.cmd * 256 + c.tag) % 2 ^ 32⟩ ∧
          (∀ k tag, c.msg = some (k, tag) → exec (.cmdTimeout t hub ctag) s = .next (answer u k tag false (failMsg 9))) ∧
          (c.msg = none → (c.cmd ≠ 1 ∨ h0.state ≠ 2) → exec (.cmdTimeout t hub ctag) s = .next u))) ∧
    (∀ (ch : Fin 6) (tag n cmd : Nat) args e, acts s0 ch 5 0x15 tag false false = true → e = entered s0 ch 5 0x15 tag → n < 24 →
      (cmd = 1 ∨ cmd = 5 ∨ cmd = 6) →
      ((hubOf e n).state = 3 → ∃ u c, exec (.headHubCmd t ch tag n cmd args) s = .next u ∧ c.cmd = cmd ∧ c.tag = (hubOf e n).nextTag ∧
        c.args = args ∧ c.sentAt = now e ∧ c.msg = some (ch.val, tag) ∧ (hubOf u n).cmds = (hubOf e n).cmds ++ [c] ∧
        SentOnly (setHub e n fun h => { h with nextTag := (h.nextTag + 1) % 256, cmds := h.cmds ++ [c] }) u ∧
        (linesOff e = false → .hub n (liveFld e Fld.PAIR_EPOCH_EPOCH) (!driving e) (.headCmd cmd (hubOf e n).nextTag args) ∈ u.out)) ∧
      ((hubOf e n).state ≠ 3 →
        exec (.headHubCmd t ch tag n cmd args) s = .next (answer e ch tag false (failMsg 5 (2 * 2 ^ 20 + n))))) ∧
    (h0.state = 3 → h0.lastAck + 200000 ≤ now s0 → h0.ackLost = false →
      ∃ u, exec (.ackLost t hub) s = .next u ∧ Reported (setHub s0 hub fun h => { h with ackLost := true }) u Fld.FL_STATUS_ACK_LOST 0 0
        ⟨now s0, 0x070A, hub, (now s0 - h0.lastAck) / 1000 % 2 ^ 32⟩)

/-- TIME_SYNC goes to every hub that is UP, each with its own next number, and its departure is noted; no other hub changes. The
response to the last number gives the offset and delay of the link, saturated in their fields; an invalid one is discarded. A
scan of EYE_LANE of 2^EYE_BITS bits a point begins when none runs, and waits while throttling holds it; when done its width and
height are in FL_EYE_RES, event 0x070E reports them and the grid is kept. DIAG.EYE_GRID over PCIe writes the kept grid to host
memory. -/
def Obligations.LinkTimeAndEyes : Prop :=
  ∀ (s : State) (t : Nat), banksOk s = true →
    let s0 := begin s t
    (∃ u, exec (.timeSyncSend t) s = .next u ∧ SentOnly { s0 with link := { s0.link with hubs := u.link.hubs } } u ∧
      ∀ h, h < 24 →
        ((hubOf s0 h).state = 3 →
          hubOf u h = { hubOf s0 h with syncSeq := ((hubOf s0 h).syncSeq + 1) % 256, syncT1 := some (now s0) } ∧
          (linesOff s0 = false → .hub h (liveFld s0 Fld.PAIR_EPOCH_EPOCH) (!driving s0) (.timeSync (((hubOf s0 h).syncSeq + 1) % 256)
            (now s0) (hubOf s0 h).prevOffset (hubOf s0 h).prevDelay (hubOf s0 h).prevSeq) ∈ u.out)) ∧
        ((hubOf s0 h).state ≠ 3 → hubOf u h = hubOf s0 h)) ∧
    (∀ (hub : Fin 24) seq t2 t3, ∃ u, exec (.timeSyncResponse t hub false seq t2 t3) s = .next u ∧ HostOnly s0 u ∧
      liveFld u Fld.FL_CRC_ERR_CRC_ERRORS hub = (liveFld s0 Fld.FL_CRC_ERR_CRC_ERRORS hub + 1) % 2 ^ 32 ∧
      stickyOn u Fld.FL_STATUS_CRC_ERROR = true) ∧
    (∀ (hub : Fin 24) t1 t2 t3, (hubOf s0 hub).syncT1 = some t1 →
      ∃ u, exec (.timeSyncResponse t hub true (hubOf s0 hub).syncSeq t2 t3) s = .next u ∧
        (hubOf u hub).prevDelay = satNat 32 (8 * (((now s0 : Int) - t1) - ((t3 : Int) - t2))).toNat ∧
        (hubOf u hub).prevOffset = satSigned 32 (16 * ((t2 : Int) - t1) - 8 * (((now s0 : Int) - t1) - ((t3 : Int) - t2)) -
          16 * signedOf 16 (liveFld s0 Fld.FL_HUB_ASYM hub)) ∧
        (hubOf u hub).syncT1 = none ∧ (hubOf u hub).prevSeq = (hubOf s0 hub).syncSeq ∧
        { u with link := { u.link with hubs := s0.link.hubs } } = s0) ∧
    (∀ n k, s0.link.scan = none → n = liveFld s0 Fld.FL_EYE_EYE_LANE → k = liveFld s0 Fld.FL_EYE_EYE_BITS → n < 24 →
      (throttle s0 = 0 → ∃ u, exec (.eyeStart t) s = .next u ∧ u.link.scan = some (n, k) ∧ u.link.scanDue = false ∧
        u.out = s0.out ++ [.eye n k] ∧ { u with out := s0.out, link := s0.link } = s0) ∧
      (1 ≤ throttle s0 → exec (.eyeStart t) s = .next { s0 with link := { s0.link with scanDue := true } })) ∧
    (∀ counts n k, s0.link.scan = some (n, k) → n < 24 →
      let grid := counts.map (Nat.min (2 ^ k))
      ∃ u w h, exec (.eyeDone t counts) s = .next u ∧ u.link.scan = none ∧ (u.link.grids.find? (·.1 == n)) = some (n, grid) ∧
        w = Nat.min 63 (zeroSpan ((List.range 64).map fun p => nth grid (127 * p + 63) 0) 32) ∧
        h = zeroSpan ((List.range 127).map fun v => nth grid (127 * 32 + v) 0) 63 ∧
        liveFld u Fld.FL_EYE_RES_EYE_WIDTH n = w ∧ liveFld u Fld.FL_EYE_RES_EYE_HEIGHT n = h ∧
        u.host.queued = s0.host.queued ++ [⟨now s0, 0x070E, n, h * 256 + w⟩] ∧ regsKept s0 u [regKey .FL_EYE_RES n 0]) ∧
    (∀ (ch : Fin 6) (tag lane : Nat) (data : DataRef) g e, acts s0 ch 10 0x10 tag true true = true →
      e = entered s0 ch 10 0x10 tag → e.sys.ethernet = false → lane < 24 → 65024 ≤ data.length →
      e.link.grids.find? (·.1 == lane) = some g →
      exec (.diagEyeGrid t ch tag lane data) s = .next (answer (emit e (.hostWrite data.addr
        ((List.range 8128).flatMap fun i => leBytes 8 (nth g.2 i 0)))) ch tag true okMsg))

/-- A commit that may go and is due goes out when the element's certificate has been read, and asks for the certificate when it
has not. The element's record for the commit in flight, with its nonce, identity, SEQ, INCREMENT and total, moves exactly the
committed amount from the pending count to the total when its signature verifies, and nothing otherwise but the fault of a
failed signature. A request unanswered for CONS_TIMEOUT goes again, and the third failure is reported with CONS_TIMEOUT and
event 0x0605. CONS_RESET of a reachable element asks it for its account; CONS_TRANSFER moves the whole pending count of one
element to another and returns it. -/
def Obligations.ConsumableAccounts : Prop :=
  ∀ (s : State) (t k : Nat), banksOk s = true →
    let s0 := begin s t
    (mayCommit s0 k = true → commitDue s0 k = true →
      ∃ u hub target slot, exec (.consCommitStart t k) s = .next u ∧
        ((elem s0 k).certOk = true ∨ (elem s0 k).reading = false ∧ (elem s0 k).attempts = 0 → elemHub s0 k = some (hub, target, slot)) ∧
        (∀ j, j ≠ k → elem u j = elem s0 j) ∧
        ((elem s0 k).certOk = true → (elem u k).inFlight = true ∧ (elem u k).attempts = 1 ∧ (elem u k).sentAt = now s0 ∧
          (elem u k).seq = (elemSeq s0 k + 1) % 2 ^ 32 ∧ (elem u k).amount = elemPending s0 k ∧
          ((hubOf s0 hub).state = 3 → linesOff s0 = false → .hub hub (liveFld s0 Fld.PAIR_EPOCH_EPOCH) false (.cons k target slot
            (commitRecord (elem s0 k).identity ((elemSeq s0 k + 1) % 2 ^ 32) (elemPending s0 k) 0 (elem u k).nonce)) ∈ u.out)) ∧
        ((elem s0 k).certOk = false → (elem s0 k).reading = false → (elem s0 k).attempts = 0 → (elem u k).reading = true ∧
          (elem u k).sentAt = now s0 ∧ (elem u k).inFlight = false ∧ ((hubOf s0 hub).state = 3 → linesOff s0 = false →
            .hub hub (liveFld s0 Fld.PAIR_EPOCH_EPOCH) false (.headCmd 6 (hubOf s0 hub).nextTag
              (leBytes 1 target ++ leBytes 1 slot ++ leBytes 2 (elem s0 k).cert.length)) ∈ u.out))) ∧
    (∀ record sig hub, k < 528 → serving s0 = true → (elem s0 k).inFlight = true → (elem s0 k).nonce = leAt record 32 16 →
      leAt record 4 8 = (elem s0 k).identity → (elem s0 k).rebase = none → leAt record 12 4 = (elem s0 k).seq →
      leAt record 16 8 = (elem s0 k).amount → leAt record 24 8 = (elemTotal s0 k + (elem s0 k).amount) % 2 ^ 64 →
      ∃ u, exec (.consReplyReceive t k hub true (.reply record sig)) s = .next
          (if Config.sigOk (Config.certKey (elem s0 k).cert) (record.take 48) sig then u else consAuthFail s0 k (elem s0 k).seq) ∧
        elemTotal u k = (elemTotal s0 k + (elem s0 k).amount) % 2 ^ 64 ∧ elemPending u k = elemPending s0 k - (elem s0 k).amount ∧
        elemSeq u k = (elem s0 k).seq ∧ (elem u k).inFlight = false ∧ (∀ j, j ≠ k → elem u j = elem s0 j) ∧
        { u with live := s0.live, print := s0.print, rst := s0.rst } = s0) ∧
    (∀ hub reply, ∃ u, exec (.consReplyReceive t k hub false reply) s = .next u ∧ HostOnly s0 u ∧
      liveFld u Fld.FL_CRC_ERR_CRC_ERRORS hub = (liveFld s0 Fld.FL_CRC_ERR_CRC_ERRORS hub + 1) % 2 ^ 32 ∧
      stickyOn u Fld.FL_STATUS_CRC_ERROR = true) ∧
    (serving s0 = true → (elem s0 k).inFlight = true → (elem s0 k).rebase = none → (elem s0 k).sentAt + consTimeout s0 ≤ now s0 →
      ((elem s0 k).attempts < 3 → exec (.consTimeout t k) s =
        .next (consRetry (setElem s0 k fun e => { e with attempts := e.attempts + 1 }) k)) ∧
      ((elem s0 k).attempts = 3 → (0x0605, k) ∉ s0.print.raised →
        ∃ u, exec (.consTimeout t k) s = .next u ∧ stickyOn u Fld.FIR_STATUS_CONS_TIMEOUT = true ∧ (elem u k).attempts = 4 ∧
          u.host.queued = s0.host.queued ++ [⟨now s0, 0x0605, k, (elem s0 k).seq % 2 ^ 32⟩])) ∧
    (∀ (ch : Fin 6) (tag target index x : Nat) e, secActs s0 ch 0x1A tag true false 0 = true → e = secEntered s0 ch 0x1A tag →
      targetElem target index = some x → (elemHub e x).isSome = true → driving e = true → e.sec.rngFailed = false →
      (elem e x).inFlight = false → (elem e x).rebase = none →
      ∃ u hub tgt slot, exec (.consReset t ch tag target index) s = .next u ∧ elemHub e x = some (hub, tgt, slot) ∧
        (elem u x).rebase = some (ch.val, tag) ∧ (elem u x).attempts = 1 ∧ (elem u x).sentAt = now e ∧
        (∀ j, j ≠ x → elem u j = elem e j) ∧ u.host = e.host ∧ u.live = e.live ∧
        ((elem e x).certOk = true → (hubOf e hub).state = 3 → linesOff e = false →
          .hub hub (liveFld e Fld.PAIR_EPOCH_EPOCH) false (.cons x tgt slot
            (commitRecord (elem e x).identity 0 0 0 (elem u x).nonce)) ∈ u.out)) ∧
    (∀ (ch : Fin 6) (tag target src dst a b : Nat) e, secActs s0 ch 0x1B tag true false 0 = true → e = secEntered s0 ch 0x1B tag →
      targetElem target src = some a → targetElem target dst = some b → a ≠ b → (elem e a).inFlight = false →
      (elem e a).rebase = none → (elem e b).inFlight = false → (elem e b).rebase = none → (elem e a).seqFault = false →
      elemPending e b + elemPending e a < 2 ^ 64 →
      ∃ u, exec (.consTransfer t ch tag target src dst) s =
          .next (answer (audit u 0x0C9B ch 0) ch tag true (okMsg (leBytes 8 (elemPending e a)))) ∧
        elemPending u a = 0 ∧ elemPending u b = elemPending e b + elemPending e a ∧
        u.host.queued = e.host.queued ++ [⟨now e, 0x0C0E, a, b⟩])

/-- A frame's start at an enabled port makes its written fields take effect (R6); the expected frame, with none under way, begins with
its number and base line and is taken to be processed, and a start that nothing expects begins a frame that is marked ERROR; no
register but those of triggers is written for an expected one. A start on a disabled port does nothing. A row packet with no fault, of
CAM_WIDTH samples, in band order and with room in the buffer joins the frame, and the last band of a row completes the row; a packet
with a fault, or of the wrong size or band, marks the frame ERROR and reports it, and one that overflows the buffer truncates the
frame. A frame's end with all its rows, of which every row was triggered, is counted GOOD; short of them or with a row not triggered
it is SHORT, and beyond them LONG; a port with a frame store keeps the frame in its next slot. An armed frame that has not come in 1 ms
is counted and reported. A trigger fault is reported. A frame not under way changes nothing. -/
def Obligations.FramesReceived : Prop :=
  ∀ (s : State) (t : Nat) (port : Fin 2), banksOk s = true → port < (begin s t).vision.cams.length →
    let s0 := begin s t
    (camOn s0 port = false → exec (.frameStartReceive t port) s = .next s0) ∧
    (∀ a, camOn s0 port = true → receiving (cam s0 port) = none → (cam s0 port).expect = some a → s0.vision.serving = none →
      ∃ u, exec (.frameStartReceive t port) s = .next u ∧ (cam u port).expect = none ∧ u.vision.serving = some port.val ∧
        (cam u port).frames = (cam s0 port).frames ++ [{ num := a.num, base := a.base, ladder := a.ladder }] ∧
        u.frameEff = (upd s0.frameEff port fun _ => s0.live) ∧
        { u with live := s0.live, vision := s0.vision, frameEff := s0.frameEff, out := s0.out } = s0 ∧
        ∀ k, (∀ n, k ≠ regKey .TIM_TRIG_CTRL n 0) → bankLookup u.live k = bankLookup s0.live k) ∧
    (camOn s0 port = true → receiving (cam s0 port) = none → (cam s0 port).expect = none →
      ∃ u code, exec (.frameStartReceive t port) s = .next u ∧ code < 256 ∧
        (cam u port).frames = (cam s0 port).frames ++ [{ mark := 4 }] ∧ stickyOn u Fld.CAM_STATUS_LINK_ERROR port = true ∧
        liveFld u Fld.CAM_ERR_FRAMES_ERROR port = (liveFld s0 Fld.CAM_ERR_FRAMES_ERROR port + 1) % 2 ^ 32 ∧
        u.host.queued = s0.host.queued ++ [⟨now s0, 0x0804, port, code⟩]) ∧
    (receiving (cam s0 port) = none → (∀ band fault samples, exec (.rowPacketReceive t port band fault samples) s = .next s0) ∧
      exec (.frameEndReceive t port) s = .next s0 ∧ exec (.frameTruncated t port) s = .next s0) ∧
    (∀ f, receiving (cam s0 port) = some f → f.mark = 0 →
      (∀ (band : Fin 4) samples, band < camBands s0 port → samples.length = fld s0 Fld.CAM_GEOM_CAM_WIDTH port →
        band = f.cur.length → overflows s0 port samples.length = false →
        (f.cur.length + 1 < camBands s0 port → exec (.rowPacketReceive t port band 0 samples) s =
          .next (setFrame s0 port fun f => { f with cur := f.cur ++ [samples] })) ∧
        (camBands s0 port ≤ f.cur.length + 1 → f.rows.length < fld s0 Fld.CAM_GEOM_CAM_ROWS port →
          exec (.rowPacketReceive t port band 0 samples) s = .next (setFrame s0 port fun f =>
            { f with cur := [], got := f.got + 1, rows := f.rows ++ [f.cur ++ [samples]] })) ∧
        (camBands s0 port ≤ f.cur.length + 1 → fld s0 Fld.CAM_GEOM_CAM_ROWS port ≤ f.rows.length →
          exec (.rowPacketReceive t port band 0 samples) s =
            .next (setFrame s0 port fun f => { f with cur := [], got := f.got + 1 }))) ∧
      (∀ (band : Fin 4) samples, band < camBands s0 port → samples.length = fld s0 Fld.CAM_GEOM_CAM_WIDTH port →
        band = f.cur.length → overflows s0 port samples.length = true →
        exec (.rowPacketReceive t port band 0 samples) s = exec (.frameTruncated t port) s) ∧
      (∀ (band : Fin 4) (fault : Fin 3) samples code, band < camBands s0 port →
        (fault ≠ 0 ∧ code = fault.val ∨ fault = 0 ∧ samples.length ≠ fld s0 Fld.CAM_GEOM_CAM_WIDTH port ∧ code = 3 ∨
          fault = 0 ∧ samples.length = fld s0 Fld.CAM_GEOM_CAM_WIDTH port ∧ band ≠ f.cur.length ∧ code = 4) →
        ∃ u, exec (.rowPacketReceive t port band fault samples) s = .next u ∧ stickyOn u Fld.CAM_STATUS_LINK_ERROR port = true ∧
          receiving (cam u port) = some { f with mark := 4 } ∧
          liveFld u Fld.CAM_ERR_FRAMES_ERROR port = (liveFld s0 Fld.CAM_ERR_FRAMES_ERROR port + 1) % 2 ^ 32 ∧
          u.host.queued = s0.host.queued ++ [⟨now s0, 0x0804, port, (f.got % 256 * 256 + code) % 2 ^ 32⟩] ∧
          HostOnly s0 { u with vision := s0.vision }) ∧
      (∃ u, exec (.frameEndReceive t port) s = .next u ∧ receiving (cam u port) = none ∧
        (cam u port).ring = (if (cam s0 port).store = true ∧ fld s0 Fld.CAM_CTRL_STORE_FRAMES port ≠ 0 then
          ((cam s0 port).slot, frameBytes s0 port f) :: (cam s0 port).ring.filter (·.1 != (cam s0 port).slot) else (cam s0 port).ring) ∧
        HostOnly s0 { u with vision := s0.vision, store := { u.store with dram := s0.store.dram } } ∧
        (f.got = fld s0 Fld.CAM_GEOM_CAM_ROWS port → (f.ladder, f.num) ∉ (cam s0 port).cut →
          liveFld u Fld.CAM_GOOD_FRAMES_GOOD port = (liveFld s0 Fld.CAM_GOOD_FRAMES_GOOD port + 1) % 2 ^ 32 ∧
          regsKept s0 u [regKey .CAM_GOOD port 0] ∧ u.host = s0.host) ∧
        (f.got < fld s0 Fld.CAM_GEOM_CAM_ROWS port ∨
            f.got = fld s0 Fld.CAM_GEOM_CAM_ROWS port ∧ (f.ladder, f.num) ∈ (cam s0 port).cut →
          liveFld u Fld.CAM_SHORT_FRAMES_SHORT port = (liveFld s0 Fld.CAM_SHORT_FRAMES_SHORT port + 1) % 2 ^ 32 ∧
          stickyOn u Fld.CAM_STATUS_SHORT port = true ∧
          u.host.queued = s0.host.queued ++ [⟨now s0, 0x0802, port, f.got % 2 ^ 32⟩]) ∧
        (fld s0 Fld.CAM_GEOM_CAM_ROWS port < f.got →
          liveFld u Fld.CAM_LONG_FRAMES_LONG port = (liveFld s0 Fld.CAM_LONG_FRAMES_LONG port + 1) % 2 ^ 32 ∧
          stickyOn u Fld.CAM_STATUS_LONG port = true ∧
          u.host.queued = s0.host.queued ++ [⟨now s0, 0x0803, port, Nat.min 255 f.got % 2 ^ 32⟩])) ∧
      (∃ u, exec (.frameTruncated t port) s = .next u ∧ stickyOn u Fld.CAM_STATUS_TRUNCATED port = true ∧
        receiving (cam u port) = some { f with mark := 1, cur := [] } ∧
        liveFld u Fld.CAM_TRUNC_FRAMES_TRUNCATED port = (liveFld s0 Fld.CAM_TRUNC_FRAMES_TRUNCATED port + 1) % 2 ^ 32 ∧
        u.host.queued = s0.host.queued ++ [⟨now s0, 0x0801, port, f.got % 2 ^ 32⟩] ∧ HostOnly s0 { u with vision := s0.vision })) ∧
    (∀ a, (cam s0 port).expect = some a → a.time + 1000000 ≤ now s0 →
      ∃ u, exec (.frameTimeout t port) s = .next u ∧ (cam u port).expect = none ∧ stickyOn u Fld.CAM_STATUS_TIMEOUT port = true ∧
        liveFld u Fld.CAM_ERR_FRAMES_ERROR port = (liveFld s0 Fld.CAM_ERR_FRAMES_ERROR port + 1) % 2 ^ 32 ∧
        ⟨now s0, 0x0805, port, low32 a.base % 2 ^ 32⟩ ∈ u.host.queued ∧
        (a.ladder = true → HostOnly s0 { u with vision := s0.vision })) ∧
    ∃ u, exec (.trigFault t port) s = .next u ∧ Reported s0 u Fld.CAM_STATUS_TRIG_FAULT port 0 ⟨now s0, 0x0807, port, 0⟩

/-- The frame being served, once ended, leaves its port's queue and the pipeline goes to the other port's frames first; a frame
that was faulted adds nothing to the statistics and neither does it to the exposure, and outside an integration changes nothing else;
a complete or LONG one replaces its port's histogram and zone averages, and with the exposure and the colour loop off nothing else. A
control write done leaves the bus and, for a gain, is noted for the frame boundary; one that failed waits to be tried once more, and
one that failed again is reported with CCI_FAIL and event 0x0806. A ladder of which fewer than half of the dashes expected of the
port were found, after those that discarded frames measured, is reported with LADDER_FAILED and event 0x0906; one that passes ends
with event 0x0905, on a standby with no change; each ladder done is counted with doorbell bit 28. -/
def Obligations.FramesProcessed : Prop :=
  ∀ (s : State) (t : Nat), banksOk s = true →
    let s0 := begin s t
    (∀ k f rest, s0.vision.serving = some k → k < s0.vision.cams.length → k < 2 → (cam s0 k).frames = f :: rest → f.ended = true →
      (f.mark ≠ 0 → f.mark ≠ 3 → f.ladder = true ∨ fld s0 Fld.CLP_CTRL_CLP_EN = 0 ∨ s0.sys.st ≠ .printing →
        ∃ u, exec (.frameProcessed t) s = .next u ∧ cam u k = { cam s0 k with frames := rest } ∧
          u.vision.serving = (if (cam s0 (1 - k)).frames ≠ [] then some (1 - k) else if rest ≠ [] then some k else none) ∧
          { u with vision := s0.vision } = s0) ∧
      ((f.mark = 0 ∨ f.mark = 3) → fld s0 Fld.CLP_CTRL_CLP_EN = 0 → fld s0 Fld.CAM_CTRL_AE_EN k = 0 →
        ∃ u, exec (.frameProcessed t) s = .next u ∧
          cam u k = { cam s0 k with
            frames := rest
            hist := (List.range (camBands s0 k)).map (histogram s0 k f)
            zones := (List.range (camBands s0 k)).map (zoneAverages s0 k f) } ∧
          u.vision.serving = (if (cam s0 (1 - k)).frames ≠ [] then some (1 - k) else if rest ≠ [] then some k else none) ∧
          { u with vision := s0.vision } = s0) ∧
      (f.mark = 0 → f.ladder = false → ∀ v, v = setCam s0 k (fun p => { p with frames := rest }) →
        ∃ w u, exec (.frameProcessed t) s = .next u ∧
          w = judgeIntegration (frameWork (adjustExposure (takeStats v k f) k) k f) k f.base ∧ { u with vision := w.vision } = w)) ∧
    (∀ (port : Fin 2) w, ((cam s0 port).cci.find? fun x => !x.waits) = some w → port < s0.vision.cams.length →
      (w.band < 4 → ∃ u, exec (.cciTransferDone t port true) s = .next u ∧ (cam u port).cci = (cam s0 port).cci.erase w ∧
        (cam u port).cciDone = (cam s0 port).cciDone.filter (·.1 != w.band) ++ [(w.band, w.value)] ∧
        { u with vision := s0.vision } = s0) ∧
      (w.retry = false → ∃ u, exec (.cciTransferDone t port false) s = .next u ∧
        (cam u port).cci = (cam s0 port).cci.map (fun x => if x = w then { x with waits := true } else x) ∧
        { u with vision := s0.vision } = s0) ∧
      (w.retry = true → ∃ u, exec (.cciTransferDone t port false) s = .next u ∧
        Reported (setCam s0 port fun p => { p with cci := p.cci.erase w }) u Fld.CAM_STATUS_CCI_FAIL port 0
          ⟨now s0, 0x0806, port, w.reg % 2 ^ 32⟩)) ∧
    (∀ x : LadderScan, s0.colour.bands ≠ [] → ladderPasses s0 (keptScan s0 x) = false →
      ∃ u, exec (.ladderDone t [x]) s = .next u ∧ stickyOn u Fld.CLP_STATUS_LADDER_FAILED = true ∧
        liveFld u Fld.CLP_LADDERS_LADDERS = (liveFld s0 Fld.CLP_LADDERS_LADDERS + 1) % 2 ^ 32 ∧ HostOnly s0 u ∧
        u.host.queued = s0.host.queued ++ [⟨now s0, 0x0906, x.port, (keptScan s0 x).dashes.length % 2 ^ 32⟩]) ∧
    (∀ x : LadderScan, s0.colour.bands ≠ [] → ladderPasses s0 (keptScan s0 x) = true → s0.pair.role = .standby →
      ∃ u, exec (.ladderDone t [x]) s = .next u ∧ (liveFld u Fld.DB_D2H_STATUS_STATUS).testBit 28 = true ∧
        liveFld u Fld.CLP_LADDERS_LADDERS = (liveFld s0 Fld.CLP_LADDERS_LADDERS + 1) % 2 ^ 32 ∧
        u.host.queued.getLast? = some ⟨now s0, 0x0905, 0, 0⟩ ∧ HostOnly s0 { u with vision := s0.vision })

/-- CAM.CONFIG with every register's value in range and room for the frame and the coverage writes the eight registers of the
port, of each value the bits that the register defines (R3), and nothing else when the port is not switched on or off by it; one that
switches it on empties its white references and lets its fields take effect; a value out of range changes nothing and returns
BAD_PARAM. CAM.PROFILE with
sizes in range keeps the profile and sets the gains to its minimum. CAM.STATS returns the entries asked for, and CAM.READ_FRAME
over PCIe writes a kept frame to host memory and returns NO frame as STATE with the port named. -/
def Obligations.CameraMessages : Prop :=
  ∀ (s : State) (t : Nat) (ch : Fin 6) (tag port : Nat), banksOk s = true →
    let s0 := begin s t
    (∀ values live size e, acts s0 ch 12 0x10 tag true false = true → e = entered s0 ch 12 0x10 tag → port < 2 → values.length = 8 →
      size = bitsOf (nth values 1 0) 0 16 * bitsOf (nth values 1 0) 16 7 * (bitsOf (nth values 0 0) 4 2 + 1) *
        (if bitsOf (nth values 0 0) 3 1 = 1 then 10 else 8) → size ≤ 8388608 →
      live = (List.range 8).foldl (fun b i => bankWrite b (regKey (nth camRegs i .CAM_CTRL) port 0)
        (regDefined (nth camRegs i .CAM_CTRL) (nth values i 0))) e.live →
      ((∀ i, i < 8 → regValueOk (nth camRegs i .CAM_CTRL) (nth values i 0) = true) →
        coverageFits { e with live := live } e.sets.active = true →
        (camOn { e with live := live } port = camOn e port → exec (.camConfig t ch tag port values) s =
          .next (answer { e with live := live } ch tag true okMsg)) ∧
        (camOn { e with live := live } port = true → camOn e port = false → port < e.vision.cams.length →
          ∃ u, exec (.camConfig t ch tag port values) s = .next (answer u ch tag true okMsg) ∧ (cam u port).white = [] ∧
            (cam u port).frames = [] ∧ u.frameEff = (upd e.frameEff port fun _ => live) ∧
            (∀ i, i < 8 → bankReg u.live (nth camRegs i .CAM_CTRL) port 0 = regDefined (nth camRegs i .CAM_CTRL) (nth values i 0)) ∧
            { u with live := e.live, vision := e.vision, frameEff := e.frameEff, out := e.out } = e)) ∧
      ((∃ i, i < 8 ∧ regValueOk (nth camRegs i .CAM_CTRL) (nth values i 0) = false) →
        exec (.camConfig t ch tag port values) s = .next (answer e ch tag true (failMsg 4)))) ∧
    (∀ profile e, acts s0 ch 12 0x11 tag true false = true → e = entered s0 ch 12 0x11 tag → port < 2 → profile.length = 16 →
      (leAt profile 1 1 = 1 ∨ leAt profile 1 1 = 2) → (leAt profile 9 1 = 1 ∨ leAt profile 9 1 = 2) →
      leAt profile 10 2 ≤ leAt profile 12 2 → port < e.vision.cams.length →
      ∃ u, exec (.camProfile t ch tag port profile) s = .next (answer u ch tag true okMsg) ∧ (cam u port).profile = profile ∧
        (cam u port).gains = List.replicate 4 (leAt profile 10 2) ∧ { u with vision := e.vision } = e) ∧
    (∀ band kind first count e, acts s0 ch 12 0x12 tag false false = true → e = entered s0 ch 12 0x12 tag → port < 2 → band < 4 →
      kind ≤ 1 → count ≤ 56 → first + count ≤ 256 →
      ∃ p, exec (.camStats t ch tag port band kind first count) s = .next (answer e ch tag false (okMsg p)) ∧ p.length = 4 * count ∧
        ∀ i, i < count → leAt p (4 * i) 4 =
          nth (if kind = 0 then nth (cam e port).hist band [] else nth (cam e port).zones band []) (first + i) 0 % 2 ^ 32) ∧
    (∀ slot (data : DataRef) e, acts s0 ch 12 0x13 tag false false = true → e = entered s0 ch 12 0x13 tag → e.sys.ethernet = false →
      port < 2 →
      (∀ f, (cam e port).ring.find? (·.1 == slot) = some f → f.2.length ≤ data.length →
        exec (.camReadFrame t ch tag port slot data) s = .next (answer (emit e (.hostWrite data.addr f.2)) ch tag false okMsg)) ∧
      ((cam e port).ring.find? (·.1 == slot) = none →
        exec (.camReadFrame t ch tag port slot data) s = .next (answer e ch tag false (failMsg 5 (5 * 2 ^ 20 + port)))))

/-- A solution done on a standby ends the solving there and changes no coefficient; one with no group to solve changes none either
and counts the groups as skipped. CLP.FREEZE writes the named bits of FREEZE and keeps the others, and notes the channels it frees;
CLP.WHITE_RESET empties the white references of the named ports; CLP.LADDER_NOW in a free slot not yet rendered places the ladder;
CLP.COEF_SET outside a pending swap, with its data in the message or by reference over PCIe, puts the coefficients into the shadow
set, which is no longer validated, and leaves every other one; by reference over Ethernet it waits for its TRANSFER; CLP.READ_COEF returns the coefficients, deltas or base entries asked for. Each replies as
stated. -/
def Obligations.ColourLoop : Prop :=
  ∀ (s : State) (t : Nat), banksOk s = true →
    let s0 := begin s t
    (∀ g, throttle s0 < 2 → s0.colour.solving = some g → s0.pair.role = .standby →
      exec (.solveDone t) s =
        .next (setFld { s0 with colour := { s0.colour with solving := none } } Fld.CLP_STATUS_SOLVING 0 0)) ∧
    (throttle s0 < 2 → s0.colour.solving = none → exec (.solveDone t) s = .next s0) ∧
    (throttle s0 < 2 → s0.colour.solving = some [] → s0.pair.role ≠ .standby →
      ∃ u, exec (.solveDone t) s = .next u ∧ u.colour.solving = none ∧
        liveFld u Fld.CLP_SOLVES_SOLVES = (liveFld s0 Fld.CLP_SOLVES_SOLVES + 1) % 2 ^ 32 ∧
        liveFld u Fld.CLP_GROUPS_GROUPS_SKIPPED = ceilDiv columns (groupSize s0) % 2 ^ 32 ∧
        (∀ c x, c < 8192 → x < 131072 → coefOf u c x = coefOf s0 c x)) ∧
    (∀ (ch : Fin 6) (tag mask value : Nat) e, acts s0 ch 6 0x10 tag true false = true → e = entered s0 ch 6 0x10 tag →
      ∃ u, exec (.clpFreeze t ch tag mask value) s = .next (answer u ch tag true okMsg) ∧
        { u with live := e.live, colour := e.colour } = e ∧ { u.colour with thawed := e.colour.thawed } = e.colour ∧
        regsKept e u [regKey .CLP_FREEZE 0 0] ∧
        (∀ i, i < 16 → u.colour.thawed.testBit i = ((e.colour.thawed.testBit i || (liveFld e Fld.CLP_FREEZE_FREEZE).testBit i) &&
          !(liveFld u Fld.CLP_FREEZE_FREEZE).testBit i)) ∧
        ∀ i, i < 16 → (liveFld u Fld.CLP_FREEZE_FREEZE).testBit i =
          if mask.testBit i then value.testBit i else (liveFld e Fld.CLP_FREEZE_FREEZE).testBit i) ∧
    (∀ (ch : Fin 6) (tag ports : Nat) e, acts s0 ch 6 0x11 tag true false = true → e = entered s0 ch 6 0x11 tag → ports < 4 →
      e.vision.cams.length = 2 →
      ∃ u, exec (.clpWhiteReset t ch tag ports) s = .next (answer u ch tag true okMsg) ∧
        (∀ k, k < 2 → cam u k = if ports.testBit k then { cam e k with white := [], whiteNo := (cam e k).whiteNo + 1 } else cam e k) ∧
        { u with vision := e.vision } = e) ∧
    (∀ (ch : Fin 6) (tag line : Nat) e, acts s0 ch 6 0x12 tag true false = true → e = entered s0 ch 6 0x12 tag →
      nextSlot e.sets.active line = some (line : Int) → ladderLines e.sets.active ≠ 0 →
      (jobOn e = false ∨ unrendered e ≤ line → ∃ u, exec (.clpLadderNow t ch tag line) s = .next (answer u ch tag true okMsg) ∧
        ((line : Int), ladderLines e.sets.active) ∈ u.colour.bands ∧ u.colour.lastLadder = line ∧
        (∀ b, b.1 ≠ (line : Int) → (b ∈ u.colour.bands ↔ b ∈ e.colour.bands)) ∧ { u with colour := e.colour } = e) ∧
      (jobOn e = true → (line : Int) < unrendered e → exec (.clpLadderNow t ch tag line) s = .next (answer e ch tag true (failMsg 12)))) ∧
    (∀ (ch : Fin 6) (tag channel first count : Nat) (ref : Bool) (data : DataRef) e bytes, acts s0 ch 6 0x13 tag true false = true →
      e = entered s0 ch 6 0x13 tag → e.sets.swap = none → channel < 16 → first + count ≤ 53248 →
      bytes = (if ref then refBytes data else data.bytes) →
      (ref = false → data.bytes.length = 2 * count) → (ref = true → 2 * count ≤ data.length ∧ data.fail = 0) →
      (ref = false ∨ e.sys.ethernet = false →
        ∃ u, exec (.clpCoefSet t ch tag channel first count ref data) s = .next (answer u ch tag true okMsg) ∧
          u.sets.validated = false ∧
          (∀ i, i < count → (channel, first + i, leAt bytes (2 * i) 2) ∈ u.sets.shadow.coef) ∧
          (∀ c g v, ¬ (c = channel ∧ first ≤ g ∧ g < first + count) →
            ((c, g, v) ∈ u.sets.shadow.coef ↔ (c, g, v) ∈ e.sets.shadow.coef)) ∧
          u.sets.active = e.sets.active ∧ { u with sets := e.sets } = e) ∧
      (ref = true → e.sys.ethernet = true →
        exec (.clpCoefSet t ch tag channel first count ref data) s = .next { e with host := { e.host with
          tables := e.host.tables ++ [⟨ch, tag, 5, channel, first, 2 * count, data.transfer⟩]
          transfers := e.host.transfers ++ [{ num := data.transfer, length := data.length }] } })) ∧
    (∀ (ch : Fin 6) (tag kind index first count : Nat) e, acts s0 ch 6 0x14 tag false false = true → e = entered s0 ch 6 0x14 tag →
      kind ≤ 2 → count ≤ 112 → index < (if kind = 1 then 8 else 16) →
      ∃ p, exec (.clpReadCoef t ch tag kind index first count) s = .next (answer e ch tag false (okMsg p)) ∧ p.length = 2 * count ∧
        (kind = 0 → ∀ i, i < count → leAt p (2 * i) 2 = coefOf e index (first + i) % 65536))

/-- A home input that changes is noted; on an axis that homes on it, in a unit that acts on inputs, it is an edge of that homing,
with the count it came at when the input becomes active, and more than eight within HOME_DEBOUNCE abort the homing. A home edge that
has stood for HOME_DEBOUNCE latches its count, or begins the index search. An index edge on a GPIO latches the count of each axis
that searches for it there. A limit input that becomes active stops the axis: with event 0x0A04 when it moves towards it, with
0x0A09 otherwise; one that ceases clears its causes. A driver fault with FLT_EN, and a shorted output, stop the axis at once, take its
HOMED and are reported with events 0x0A05 and 0x0A07; a standby only notes them. No other axis changes. -/
def Obligations.AxisInputs : Prop :=
  ∀ (s : State) (t : Nat) (n : Fin 8), banksOk s = true →
    let s0 := begin s t
    n < s0.mot.axes.length →
    (∀ level, ((axis s0 n).homing = none ∨ actsOnInputs s0 = false) →
      ∃ u, exec (.homeInputEdge t n level) s = .next u ∧ axis u n = { axis s0 n with home := level } ∧
        (∀ j, j ≠ n.val → axis u j = axis s0 j) ∧ { u with mot := s0.mot } = s0) ∧
    (∀ level h edges, (axis s0 n).homing = some h → h.kind ≤ 1 → h.stage = 0 → actsOnInputs s0 = true →
      edges = h.edges.filter (fun x => decide (now s0 ≤ x + 1000 * fld s0 Fld.MOT_HOME_HOME_DEBOUNCE n)) ++ [now s0] →
      ∃ u, exec (.homeInputEdge t n level) s = .next u ∧ (∀ j, j ≠ n.val → axis u j = axis s0 j) ∧
        (edges.length ≤ 8 → { u with mot := s0.mot } = s0 ∧ axis u n = { axis s0 n with
          home := level
          homing := some { h with
            edges := edges
            edge := if level != (fld s0 Fld.MOT_CFG_HOME_POL n == 1) then some (now s0, countNow s0 n) else none } }) ∧
        (8 < edges.length → stickyOn u Fld.MOT_FAULT_HOME_UNSTABLE n = true ∧
          ((0x0A06, n.val) ∉ s0.mot.raised → ∃ a, u.host.queued = s0.host.queued ++ [⟨now s0, 0x0A06, n, a⟩]))) ∧
    (∀ h at_ count, (axis s0 n).homing = some h → h.edge = some (at_, count) → actsOnInputs s0 = true → h.stage = 0 →
      at_ + 1000 * fld s0 Fld.MOT_HOME_HOME_DEBOUNCE n ≤ now s0 →
      ∃ u, exec (.homeDebounceExpire t n) s = .next u ∧ (∀ j, j ≠ n.val → axis u j = axis s0 j) ∧
        { u with mot := s0.mot, live := s0.live } = s0 ∧
        (h.kind ≠ 1 → liveFld u Fld.MOT_LATCH_HOME_LATCH n = unsignedOf 48 count ∧ regsKept s0 u [regKey .MOT_LATCH n 0] ∧
          axis u n = { axis s0 n with homing := some { h with latch := some count, stage := 2 } }) ∧
        (h.kind = 1 → u.live = s0.live ∧ axis u n = { axis s0 n with homing := some { h with stage := 1, mark := count } })) ∧
    (∀ g : Fin 16, ∃ u, exec (.gpioIndexEdge t g) s = .next u ∧ { u with mot := s0.mot, live := s0.live } = s0 ∧
      (∀ h, (axis s0 n).homing = some h → h.stage = 1 → fld s0 Fld.MOT_HOME_INDEX_SRC n = 16 + g → actsOnInputs s0 = true →
        liveFld u Fld.MOT_LATCH_HOME_LATCH n = unsignedOf 48 (countNow s0 n) ∧
        axis u n = { axis s0 n with homing := some { h with latch := some (countNow s0 n), stage := 2 } }) ∧
      ((actsOnInputs s0 = false ∨ fld s0 Fld.MOT_HOME_INDEX_SRC n ≠ 16 + g ∨ ∀ h, (axis s0 n).homing = some h → h.stage ≠ 1) →
        axis u n = axis s0 n ∧ bankLookup u.live (regKey .MOT_LATCH n 0) = bankLookup s0.live (regKey .MOT_LATCH n 0))) ∧
    (∀ pos level v, v = setAxis s0 n (fun m => if pos then { m with limP := level } else { m with limN := level }) →
      (limitActive s0 n pos = limitActive v n pos ∨ limitActive v n pos = true ∧ actsOnInputs s0 = false →
        exec (.limitInputChange t n pos level) s = .next v) ∧
      (limitActive s0 n pos = true → limitActive v n pos = false → (axis s0 n).homing = none →
        ∃ u, exec (.limitInputChange t n pos level) s = .next u ∧ { u with mot := s0.mot } = s0 ∧
          (axis u n).cause.testBit (if pos then 4 else 5) = false ∧ (axis u n).cause.testBit 6 = false ∧
          (∀ b, b ≠ (if pos then 4 else 5) → b ≠ 6 → (axis u n).cause.testBit b = (axis s0 n).cause.testBit b) ∧
          { axis u n with cause := (axis s0 n).cause } = axis v n) ∧
      (limitActive s0 n pos = false → limitActive v n pos = true → actsOnInputs s0 = true → (axis s0 n).homing = none →
        ∀ f code arg, f = (if pos then Fld.MOT_FAULT_LIMIT_POS else Fld.MOT_FAULT_LIMIT_NEG) ∧ code = 0x0A04 ∧
              arg = (if pos then 1 else 2) ∧ axisDir (axis s0 n) = (if pos then 1 else -1) ∧ limitActive s0 n (!pos) = false ∨
            f = Fld.MOT_FAULT_LIM_WRONG ∧ code = 0x0A09 ∧ arg = (if limitActive v n true then 1 else 0) + (if limitActive v n false then 2 else 0) ∧
              (axisDir (axis s0 n) ≠ (if pos then 1 else -1) ∨ limitActive s0 n (!pos) = true) →
          ∃ u, exec (.limitInputChange t n pos level) s = .next u ∧ stickyOn u f n = true ∧ (axis u n).cause.testBit f.lo = true ∧
            (code = 0x0A09 ∨ fld s0 Fld.MOT_CFG_LIM_STOP n ≠ 1 → axisMoves (axis u n) = false) ∧
            (((code, n.val) ∉ s0.mot.raised) → u.host.queued = s0.host.queued ++ [⟨now s0, code, n, arg⟩]) ∧
            HostOnly s0 { u with mot := s0.mot } ∧ regsKeptBut s0 u [regKey .MOT_FAULT n 0])) ∧
    (exec (.driverFault t n true) s = .next (setAxis s0 n fun m => { m with flt := true })) ∧
    (fld s0 Fld.MOT_CFG_FLT_EN n = 0 ∨ actsOnInputs s0 = false →
      exec (.driverFault t n false) s = .next (setAxis s0 n fun m => { m with flt := false })) ∧
    (fld s0 Fld.MOT_CFG_FLT_EN n ≠ 0 → actsOnInputs s0 = true →
      ∃ u, exec (.driverFault t n false) s = .next u ∧ stickyOn u Fld.MOT_FAULT_DRIVER n = true ∧ (axis u n).flt = false ∧
        axisMoves (axis u n) = false ∧ (axis u n).homed = false ∧ (∀ j, j ≠ n.val → axis u j = axis s0 j) ∧
        ((0x0A05, n.val) ∉ s0.mot.raised → u.host.queued = s0.host.queued ++ [⟨now s0, 0x0A05, n, 0⟩]) ∧
        HostOnly s0 { u with mot := s0.mot } ∧ regsKeptBut s0 u [regKey .MOT_FAULT n 0]) ∧
    (∀ o : Fin 3, ∃ u, exec (.outShortAxis t n o) s = .next u ∧ o.val ∈ (axis u n).shorts ∧ o.val ∈ (axis u n).held ∧
      (∀ j, j ≠ n.val → axis u j = axis s0 j) ∧ (actsOnInputs s0 = false → { u with mot := s0.mot } = s0) ∧
      (actsOnInputs s0 = true → stickyOn u Fld.MOT_FAULT_OUT_SHORT n = true ∧ axisMoves (axis u n) = false ∧
        (axis u n).homed = false ∧
        ((0x0A07, n.val) ∉ s0.mot.raised → u.host.queued = s0.host.queued ++ [⟨now s0, 0x0A07, n, o⟩]) ∧
        HostOnly s0 { u with mot := s0.mot } ∧ regsKeptBut s0 u [regKey .MOT_FAULT n 0]))

/-- A motion that its axis may make is queued for the next boundary with its message, which is answered when it ends, and
nothing else changes: MOT.MOVE within the axis's limits and target range, MOT.GROUP_MOVE with a target for each axis at rest of
the group, MOT.HOME of a kind the axis supports. An axis that is not enabled refuses with STATE and the axis named. MOT.STOP is
queued for the next boundary and answered. MOT.CONFIG with limits in range writes the profile and the stall settings of the
axis. MOT.STATUS returns the axis's eight readouts and changes nothing. -/
def Obligations.MotionMessages : Prop :=
  ∀ (s : State) (t : Nat) (ch : Fin 6) (tag : Nat), banksOk s = true →
    let s0 := begin s t
    (∀ n kind target v a d j e, acts s0 ch 7 0x11 tag true false = true → e = entered s0 ch 7 0x11 tag → n < 8 → kind < 2 →
      v ≤ liveFld e Fld.MOT_PROFILE_VMAX n → a ≤ liveFld e Fld.MOT_PROFILE_AMAX n → d ≤ liveFld e Fld.MOT_PROFILE_DMAX n →
      j ≤ liveFld e Fld.MOT_PROFILE_JMAX n → targetOk (axis e n).x target = true →
      (enabledAsWritten e n = true → groupOf e n = none → faultBars e n = false →
        (limitActive e n true = false ∨ target * 2 ^ 32 ≤ (axis e n).x) → (limitActive e n false = false ∨ (axis e n).x ≤ target * 2 ^ 32) →
        exec (.motMove t ch tag n kind target v a d j) s = .next { e with mot := { e.mot with
          reqs := e.mot.reqs ++ [⟨ch, tag, .move n (kind == 1) target ⟨v, a, d, j⟩⟩] } }) ∧
      (enabledAsWritten e n = false →
        exec (.motMove t ch tag n kind target v a d j) s = .next (answer e ch tag true (failMsg 5 (8 * 2 ^ 20 + n))))) ∧
    (∀ g targets ns e, acts s0 ch 7 0x12 tag true false = true → e = entered s0 ch 7 0x12 tag → g < 4 →
      ns = (List.range 8).filter (liveFld e Fld.MOT_GROUP_AXES g).testBit → ns ≠ [] → targets.length = ns.length →
      (∀ i, i < ns.length → targetOk (axis e (nth ns i 0)).x (nth targets i 0) = true) →
      (∀ n ∈ ns, enabledAsWritten e n = true ∧ axisMoves (axis e n) = false ∧ faultBars e n = false) →
      exec (.motGroupMove t ch tag g targets) s = .next { e with mot := { e.mot with
        reqs := e.mot.reqs ++ [⟨ch, tag, .group g targets⟩] } }) ∧
    (∀ n kind e, acts s0 ch 7 0x13 tag true false = true → e = entered s0 ch 7 0x13 tag → n < 8 → kind < 4 →
      (kind = 2 → liveFld e Fld.MOT_STALL_STALL_EN n ≠ 0 ∧
        liveFld e Fld.MOT_STALL_STALL_MIN_RATE n ≤ liveFld e Fld.MOT_HOME_HOME_SLOW n) →
      enabledAsWritten e n = true → groupOf e n = none → faultBars e n = false →
      exec (.motHome t ch tag n kind) s = .next { e with mot := { e.mot with reqs := e.mot.reqs ++ [⟨ch, tag, .home n kind⟩] } }) ∧
    (∀ axes kind e, acts s0 ch 7 0x14 tag true false = true → e = entered s0 ch 7 0x14 tag → axes < 256 → kind < 2 →
      exec (.motStop t ch tag axes kind) s =
        .next (answer { e with mot := { e.mot with stops := e.mot.stops ++ [(axes, kind)] } } ch tag true okMsg)) ∧
    (∀ n (lim : Limits) stall e v, acts s0 ch 7 0x10 tag true false = true → e = entered s0 ch 7 0x10 tag → n < 8 →
      fieldValueOk Fld.MOT_PROFILE_VMAX lim.v = true → lim.a < 2 ^ 32 → lim.d < 2 ^ 32 → lim.j < 2 ^ 32 →
      (∀ f ∈ regFields .MOT_STALL, fieldValueOk f (bitsOf stall f.lo f.width) = true) →
      v = (regFields .MOT_STALL).foldl (fun s f => setFld s f n (bitsOf stall f.lo f.width)) (setFld (setFld (setFld (setFld e
        Fld.MOT_PROFILE_VMAX n lim.v) Fld.MOT_PROFILE_AMAX n lim.a) Fld.MOT_PROFILE_DMAX n lim.d) Fld.MOT_PROFILE_JMAX n lim.j) →
      (∀ u, claimStall v = some u → exec (.motConfig t ch tag n lim stall) s = .next (answer u ch tag true okMsg)) ∧
      (claimStall v = none → exec (.motConfig t ch tag n lim stall) s = .next (answer e ch tag true (failMsg 6 (8 * 2 ^ 20 + n)))) ∧
      (liveFld v Fld.MOT_PROFILE_AMAX n = lim.a ∧ liveFld v Fld.MOT_PROFILE_DMAX n = lim.d ∧ liveFld v Fld.MOT_PROFILE_JMAX n = lim.j)) ∧
    (∀ n e, acts s0 ch 7 0x15 tag false false = true → e = entered s0 ch 7 0x15 tag → n < 8 →
      ∃ p, exec (.motStatus t ch tag n) s = .next (answer e ch tag false (okMsg p)) ∧ p.length = 44 ∧
        leAt p 8 8 = unsignedOf 48 (countNow e n))

/-- The peer link lost for two picks while the heartbeat lives: the link is down, the locks of master 2 are free, DEGRADED is
set with event 0x0B06, and a standby loses SYNCED. A heartbeat edge ends heartbeat degradation with event 0x0B07. A static
heartbeat with records arriving is degraded operation. An active that has neither acknowledgements nor heartbeat edges for two
picks reports PARTNER_LOST with event 0x0B08 and lets its held replies go as SINGLE. An active whose LEASE_UNTIL has come, and a
unit whose cut timer has run 306 µs without a renewal, ceases to hold the lease: PAIR_LEASE is low, the step outputs rest, event
0x0B02 with cause 1 or 2 and doorbell 18; the cut timer also stops the heartbeat. -/
def Obligations.PartnerPaths : Prop :=
  ∀ (s : State) (t : Nat), banksOk s = true →
    let s0 := begin s t
    (s0.pair.capable = true → s0.pair.peerUp = true → s0.pair.peerLast + 200000 ≤ now s0 → now s0 < s0.pair.hbLast + 200000 →
      ∃ u, exec (.peerLinkLost t) s = .next u ∧ u.pair.peerUp = false ∧ u.pair.degPeer = true ∧ u.pair.role = s0.pair.role ∧
        (s0.pair.role = .standby → u.pair.synced = false ∧ u.pair.stage = 0) ∧ stickyOn u Fld.PAIR_STATUS_DEGRADED = true ∧
        u.host.queued = s0.host.queued ++ [⟨now s0, 0x0B06, unitNo s0, 1⟩] ∧
        (∀ l, nth u.host.locks l 0 = if nth s0.host.locks l 0 = 3 then 0 else nth s0.host.locks l 0) ∧
        regsKeptBut s0 u [regKey .PAIR_STATUS 0 0] ∧
        { u with pair := s0.pair, host := s0.host, live := s0.live, out := s0.out } = s0) ∧
    (s0.pair.capable = true → ∃ u, exec (.heartbeatInEdge t) s = .next u ∧
      u.pair = { s0.pair with hbOk := true, hbLast := now s0, degHb := false, partnerLost := false } ∧
      u.host = { s0.host with queued := s0.host.queued ++ if s0.pair.degHb then [⟨now s0, 0x0B07, unitNo s0, 2⟩] else [] } ∧
      { u with pair := s0.pair, host := s0.host } = s0) ∧
    (s0.pair.capable = true → s0.pair.hbOk = true → s0.pair.hbLast + 200000 ≤ now s0 →
      (s0.pair.peerUp = true → now s0 < s0.pair.peerLast + 100000 → ∃ u, exec (.heartbeatStatic t) s = .next u ∧
        Reported { s0 with pair := { s0.pair with hbOk := false, degHb := true } } u Fld.PAIR_STATUS_DEGRADED 0 0
          ⟨now s0, 0x0B06, unitNo s0, 2⟩) ∧
      (s0.pair.peerUp = false ∨ s0.pair.peerLast + 100000 ≤ now s0 →
        exec (.heartbeatStatic t) s = .next { s0 with pair := { s0.pair with hbOk := false } })) ∧
    (s0.pair.role = .active → s0.pair.lease = true → s0.pair.partnerLost = false → s0.pair.ackAt + 200000 ≤ now s0 →
      s0.pair.hbLast + 200000 ≤ now s0 →
      ∃ v, exec (.partnerLost t) s = .next (releaseHeld v true v.time.pick) ∧
        Reported { s0 with pair := { s0.pair with partnerLost := true, partnerSynced := false, partnerReady := false } } v
          Fld.PAIR_STATUS_PARTNER_LOST 0 0 ⟨now s0, 0x0B08, unitNo s0, s0.pair.ackPick % 2 ^ 32⟩) ∧
    (s0.pair.role = .active → s0.pair.lease = true → s0.pair.leaseUntil ≤ now s0 →
      ∃ u, exec (.leaseExpire t) s = .next u ∧ u.pair = { s0.pair with lease := false, cut := none } ∧
        Output.pin "PAIR_LEASE" false ∈ u.out ∧ (∀ n, n < 8 → axisMoves (axis s0 n) = true → Output.step n [] ∈ u.out) ∧
        u.host.queued = s0.host.queued ++ [⟨now s0, 0x0B02, unitNo s0, 1⟩] ∧
        (liveFld u Fld.DB_D2H_STATUS_STATUS).testBit 18 = true ∧ regsKept s0 u [regKey .DB_D2H_STATUS 0 0] ∧
        { u with pair := s0.pair, host := s0.host, live := s0.live, out := s0.out } = s0) ∧
    (∀ c, s0.pair.cut = some c → s0.pair.lease = true →
      (s0.time.counter < c + 306000 → exec (.cutTimerExpire t) s = .next s0) ∧
      (c + 306000 ≤ s0.time.counter → serving s0 = true → ∃ u, exec (.cutTimerExpire t) s = .next u ∧
        u.pair = { s0.pair with lease := false, cut := none, hbRun := false, forceStandby := true } ∧
        Output.pin "PAIR_LEASE" false ∈ u.out ∧ u.host.queued = s0.host.queued ++ [⟨now s0, 0x0B02, unitNo s0, 2⟩] ∧
        (liveFld u Fld.DB_D2H_STATUS_STATUS).testBit 18 = true) ∧
      (c + 306000 ≤ s0.time.counter → serving s0 = false → exec (.cutTimerExpire t) s = .next
        { s0 with pair := { s0.pair with lease := false, cut := none, hbRun := false, forceStandby := true, cutFell := some (now s0) },
                  out := s0.out ++ [.pin "PAIR_LEASE" false] }))

/-- A record in which no part changed, of the pick after the last one applied or of a later pick, taken by a synchronised
standby: it is acknowledged, the picks between are asked for and awaited, and the lease and epoch it names are noted; a flush
record is taken the same way and leaves the number of the last record. An active ignores a record of a lower epoch. An
acknowledgement tells the active what its partner is and lets the replies held up to its pick go, none of them held back any
more; an offered handover is then accepted or refused. Records asked for again are sent again, each counted for the key. A record
whose authentication fails is discarded and reports PEER_AUTH_FAIL. A stage's data copied, the next stage begins; from throttle level
3 it waits. A key set up serves the peer link; a failed set-up takes the keys and reports PEER_AUTH_FAIL. -/
def Obligations.PairRecords : Prop :=
  ∀ (s : State) (t : Nat), banksOk s = true →
    let s0 := begin s t
    let s1 := flushUpdate s0
    (∀ (r : PickRecord) n, peerTalks s1 = true → s1.pair.role = .standby → s1.pair.synced = true → s1.pair.stage = 0 →
      s1.pair.lastRec = some n → n < r.pick → r.handover = none → r.parts = { steps := r.parts.steps } →
      nth s1.pair.partAt 5 0 ≤ r.pick → s1.thm.tripped = false → s1.pair.keyedRecs + 1 ≠ 2 ^ 31 →
      let lost := (List.range (r.pick - n - 1)).map (· + n + 1)
      (∃ u ready, exec (.pickRecordReceive t true r) s = .next u ∧ u.pair.lastRec = some r.pick ∧ u.pair.recLease = r.leaseUntil ∧
        u.pair.recEpoch = r.epoch ∧ u.pair.released = r.release ∧ u.pair.waiting = s1.pair.waiting ++ lost ∧
        u.pair.peerLast = now s1 ∧ u.pair.keyedRecs = s1.pair.keyedRecs + 1 ∧ u.time.steps = r.parts.steps ∧
        u.out = s1.out ++ (if lost = [] then [] else [.peer (.askParts lost)]) ++ [.peer (.ack r.pick false true ready)] ∧
        { u with pair := s1.pair, host := s1.host, out := s1.out, time := { u.time with steps := s1.time.steps } } = s1) ∧
      (∃ u ready, exec (.flushRecordReceive t true r) s = .next u ∧ u.pair.lastRec = some n ∧ u.pair.waiting = s1.pair.waiting ∧
        u.pair.recLease = r.leaseUntil ∧ u.out = s1.out ++ [.peer (.ack r.pick false true ready)])) ∧
    (∀ (r : PickRecord), peerTalks s1 = true → s1.pair.role = .active → s1.pair.degPeer = false →
      r.epoch < liveFld s1 Fld.PAIR_EPOCH_EPOCH → s1.pair.keyedRecs + 1 ≠ 2 ^ 31 →
      exec (.pickRecordReceive t true r) s =
        .next { s1 with pair := { s1.pair with peerUp := true, peerLast := now s1, keyedRecs := s1.pair.keyedRecs + 1 } }) ∧
    (∀ (r : PickRecord), peerTalks s1 = true → ∃ v, exec (.pickRecordReceive t false r) s = .next (audit v 0x0C0F 0 2) ∧
      exec (.flushRecordReceive t false r) s = .next (audit v 0x0C0F 0 2) ∧
      Reported s1 v Fld.SEC_STATUS_PEER_AUTH_FAIL 0 0 ⟨now s1, 0x0C0F, unitNo s1, 2⟩) ∧
    (∀ pick refuse synced ready, peerTalks s0 = true → s0.pair.role = .active →
      ∃ w, w.pair = { s0.pair with
          peerUp := true, peerLast := now s0, degPeer := false, ackPick := Nat.max s0.pair.ackPick pick, ackAt := now s0,
          partnerLost := false, partnerSynced := synced, partnerReady := ready } ∧
        w.host.chans = s0.host.chans ∧ { w with pair := s0.pair, host := s0.host } = s0 ∧
        exec (.recordAckReceive t pick refuse synced ready) s = .next (
          let u := releaseHeld w false pick
          if s0.pair.handover.isNone then u else if refuse then refuseHandover u
          else if s0.pair.handPick ≤ pick then acceptHandover u else u)) ∧
    (∀ (w : State) single upTo k, k < 6 → k < w.host.chans.length →
      (∀ f ∈ (mbx (releaseHeld w single upTo) k).flight, ∀ p, f.hold = some p → upTo < p) ∧
      (∀ f ∈ (mbx w k).flight, ∀ p r, f.hold = some p → p ≤ upTo → f.reply = some r → f.drop = false →
        { r with single := single } ∈ heldReplies (mbx (releaseHeld w single upTo) k))) ∧
    (∀ picks rs, rs = s0.pair.sentRecs.filter (fun r => picks.contains r.pick && !r.flush) → peerTalks s0 = true →
      s0.pair.role = .active → s0.thm.tripped = false → s0.pair.keyedRecs + rs.length < 2 ^ 31 →
      exec (.missedPartsRequest t picks) s = .next { s0 with
        pair := { s0.pair with keyedRecs := s0.pair.keyedRecs + rs.length }
        out := s0.out ++ rs.map fun r => .peer (.record r) }) ∧
    (∀ data, peerTalks s1 = true → s1.pair.role = .standby → s1.pair.stage = stageOf data →
      (throttle s1 < 3 → exec (.resyncStageDone t data) s = .next (startStage (copyStage s1 data) (s1.pair.stage + 1))) ∧
      (3 ≤ throttle s1 → exec (.resyncStageDone t data) s = .next s1)) ∧
    (∀ x, peerTalks s1 = true → s1.pair.role = .standby → s1.pair.stage = 1 → throttle s1 < 3 → s1.thm.tripped = false →
      ∃ u, exec (.resyncStageDone t (.sets x)) s = .next u ∧ u.sets = x ∧ u.pair = { s1.pair with stage := 2 } ∧
        u.out.getLast? = some (.peer (.resync 2)) ∧ u.host.queued = s1.host.queued ++ [⟨now s1, 0x0B0B, unitNo s1, 2⟩]) ∧
    (∀ key, s0.pair.capable = true → serving s0 = true → s0.sys.st ≠ .recovery → keyUsable s0 = true → s0.sec.rngFailed = false →
      exec (.peerLinkSetup t true key) s = .next { s0 with pair := { s0.pair with keys := some key, keyedRecs := 0 } } ∧
      ∃ v, exec (.peerLinkSetup t false key) s = .next (audit v 0x0C0F 0 1) ∧
        Reported { s0 with pair := { s0.pair with keys := none } } v Fld.SEC_STATUS_PEER_AUTH_FAIL 0 0 ⟨now s0, 0x0C0F, unitNo s0, 1⟩)

/-- A ready standby takes over when its partner's record released the lease for a fault (event 0x0B03), when 10 µs of the pick
of an accepted handover have passed (event 0x0B0E), or when records and heartbeat have ceased for two picks and LEASE_UNTIL +
100 µs has passed; one that is not ready refuses, reported once with TAKEOVER_REFUSED and event 0x0B0D; without such a reason
nothing happens. A unit that finds no active partner in PAIR_JOIN_WAIT, as unit B in twice that, becomes active. A unit that
claims the role has a new epoch, greater than any it has seen, the lease for 300 µs, the cut timer running, role ACTIVE,
TAKEOVER set and counted, doorbell 18 and event 0x0B01. -/
def Obligations.TakingOver : Prop :=
  ∀ (s : State) (t : Nat), banksOk s = true →
    let s0 := flushUpdate (begin s t)
    let gone := s0.pair.partnerFound = true ∧ s0.pair.peerLast + 200000 ≤ now s0 ∧ s0.pair.hbLast + 200000 ≤ now s0 ∧
      (if s0.pair.degPeer then s0.pair.hbLast + 300000 else s0.pair.recLease) + 100000 < now s0
    let due (h : Nat) := h < s0.time.pick ∨ (h = s0.time.pick ∧ s0.time.pickStart + 10000 ≤ now s0)
    (s0.pair.role = .standby → s0.pair.capable = true → serving s0 = true →
      (takeoverReady s0 = true →
        (∀ k, s0.pair.released = some (k + 1) →
          exec (.takeover t) s = .next (becomeActive (raise s0 0x0B03 (unitNo s0) (k + 1)))) ∧
        ((∀ k, s0.pair.released ≠ some (k + 1)) →
          (∀ h, s0.pair.handover = some h → due h →
            exec (.takeover t) s = .next (becomeActive (raise s0 0x0B0E (unitNo s0) h))) ∧
          ((∀ h, s0.pair.handover = some h → ¬ due h) → gone → exec (.takeover t) s = .next (becomeActive s0)))) ∧
      (takeoverReady s0 = false → s0.pair.refused = false →
        (gone ∨ (∃ k, s0.pair.released = some (k + 1)) ∨ ∃ h, s0.pair.handover = some h ∧ due h) →
        ∃ u, exec (.takeover t) s = .next u ∧ Reported { s0 with pair := { s0.pair with refused := true } } u
          Fld.PAIR_STATUS_TAKEOVER_REFUSED 0 0 ⟨now s0, 0x0B0D, unitNo s0, s0.pair.score % 2 ^ 32⟩) ∧
      ((∀ k, s0.pair.released ≠ some (k + 1)) → (∀ h, s0.pair.handover = some h → ¬ due h) → ¬ gone →
        exec (.takeover t) s = .next s0)) ∧
    (let s1 := begin s t
     ∀ a, s1.pair.joinFrom = some a → s1.pair.role = .standby → s1.pair.capable = true → serving s1 = true →
      let wait := fld s1 Fld.PAIR_CTRL_PAIR_JOIN_WAIT * 100000000 * (if s1.pair.unitB then 2 else 1)
      (a + wait ≤ now s1 → exec (.joinWaitExpire t) s = .next (becomeActive s1)) ∧
      (now s1 < a + wait → exec (.joinWaitExpire t) s = .next s1)) ∧
    (∀ w : State, banksOk w = true →
      let u := claimActive w
      liveFld u Fld.PAIR_EPOCH_EPOCH = newEpoch w ∧
      (liveFld w Fld.PAIR_EPOCH_EPOCH < 2 ^ 32 - 1 → w.pair.seenEpoch < 2 ^ 32 - 1 → w.pair.recEpoch < 2 ^ 32 - 1 →
        (∀ h ∈ w.link.hubs, h.epoch < 2 ^ 32 - 1) → liveFld w Fld.PAIR_EPOCH_EPOCH < newEpoch w ∧ w.pair.seenEpoch < newEpoch w ∧ w.pair.recEpoch < newEpoch w ∧
        ∀ h ∈ w.link.hubs, h.epoch < newEpoch w) ∧
      u.pair.role = .active ∧ u.pair.lease = true ∧ u.pair.leaseUntil = now w + 300000 ∧ u.pair.cut = some w.time.counter ∧
      stickyOn u Fld.PAIR_STATUS_TAKEOVER = true ∧ (liveFld u Fld.DB_D2H_STATUS_STATUS).testBit 18 = true ∧
      liveFld u Fld.PAIR_TAKEOVERS_TAKEOVERS = (liveFld w Fld.PAIR_TAKEOVERS_TAKEOVERS + 1) % 2 ^ 32 ∧
      u.host.queued = w.host.queued ++ [⟨now w, 0x0B01, unitNo w, newEpoch w⟩] ∧
      regsKeptBut w u [regKey .PAIR_EPOCH 0 0, regKey .PAIR_STATUS 0 0, regKey .PAIR_TAKEOVERS 0 0] ∧
      u.time = { w.time with slewOnly := true } ∧
      { u with pair := w.pair, host := w.host, live := w.live, out := w.out, time := w.time } = w)

/-- PAIR_STATUS reads the pair's registers. PAIR_CONFIG writes the bits of PAIR_CTRL that MASK names when every field stays in
range, and else returns BAD_PARAM. PAIR_HANDOVER with LEAD of at least 4 on an active with a ready partner and none pending
offers a handover LEAD picks ahead and is answered later; LEAD below 4 is BAD_PARAM, a unit that is not the active holder STATE,
a partner that is not ready DENIED_PAIR. PAIR_RESYNC of a standby starts again from stage 1; of another unit STATE. PAIR_CLEAR
clears the bits of PAIR_STATUS it names, but for one that was set in the same cycle (R5). All but PAIR_STATUS return DENIED_PAIR on a SOLO unit. -/
def Obligations.PairMessages : Prop :=
  ∀ (s : State) (t : Nat) (ch : Fin 6) (tag : Nat), banksOk s = true →
    let s0 := begin s t
    (∀ e, acts s0 ch 9 0x10 tag false false = true → e = entered s0 ch 9 0x10 tag →
      exec (.pairStatus t ch tag) s = .next (answer e ch tag false (okMsg (
        leBytes 4 (sysRole e) ++ leBytes 4 (pairHealth e) ++ leBytes 4 (pairStatusWord e) ++
        leBytes 4 (liveFld e Fld.PAIR_EPOCH_EPOCH) ++ leBytes 8 e.pair.leaseUntil ++
        leBytes 4 (liveFld e Fld.PAIR_TAKEOVERS_TAKEOVERS) ++ leBytes 4 (liveFld e Fld.PAIR_MISSED_RECORDS_MISSED))))) ∧
    (∀ value mask e, acts s0 ch 9 0x11 tag true true = true → e = entered s0 ch 9 0x11 tag → e.pair.role ≠ .solo →
      ∃ v, (∀ b, v.testBit b = if (mask % 2 ^ 24).testBit b then value.testBit b else (bankReg e.live .PAIR_CTRL 0 0).testBit b) ∧
        exec (.pairConfig t ch tag value mask) s = .next (
          if ∀ f ∈ regFields .PAIR_CTRL, fieldValueOk f (bitsOf v f.lo f.width) = true then
            answer { e with live := bankWrite e.live (regKey .PAIR_CTRL 0 0) v } ch tag true okMsg
          else answer e ch tag true (failMsg 4))) ∧
    (∀ lead e, acts s0 ch 9 0x12 tag true true = true → e = entered s0 ch 9 0x12 tag → e.pair.role ≠ .solo →
      (lead < 4 → exec (.pairHandover t ch tag lead) s = .next (answer e ch tag true (failMsg 4))) ∧
      (4 ≤ lead → (e.pair.role ≠ .active ∨ e.pair.lease = false ∨ e.pair.handover.isSome = true) →
        exec (.pairHandover t ch tag lead) s = .next (answer e ch tag true (failMsg 5))) ∧
      (4 ≤ lead → e.pair.role = .active → e.pair.lease = true → e.pair.handover = none → e.pair.partnerReady = false →
        exec (.pairHandover t ch tag lead) s = .next (answer e ch tag true (failMsg 13))) ∧
      (4 ≤ lead → e.pair.role = .active → e.pair.lease = true → e.pair.handover = none → e.pair.partnerReady = true →
        exec (.pairHandover t ch tag lead) s = .next { e with pair := { e.pair with
          handover := some (e.time.pick + lead), handPick := e.time.pick, handHub := none, handMsg := some (ch.val, tag) } })) ∧
    (∀ e, acts s0 ch 9 0x13 tag true true = true → e = entered s0 ch 9 0x13 tag →
      (e.pair.role = .standby → ∃ u, exec (.pairResync t ch tag) s = .next (answer u ch tag true okMsg) ∧
        u.pair = { e.pair with synced := false, matchRun := 0, stage := 1 } ∧
        (e.thm.tripped = false → u.out.getLast? = some (.peer (.resync 1))) ∧
        u.host.queued = e.host.queued ++ [⟨now e, 0x0B0B, unitNo e, 1⟩] ∧
        { u with pair := e.pair, host := e.host, live := e.live, out := e.out } = e) ∧
      (e.pair.role = .active → exec (.pairResync t ch tag) s = .next (answer e ch tag true (failMsg 5)))) ∧
    (∀ bits e, acts s0 ch 9 0x14 tag true true = true → e = entered s0 ch 9 0x14 tag → e.pair.role ≠ .solo →
      ∃ u, exec (.pairClear t ch tag bits) s = .next (answer u ch tag true okMsg) ∧
        (∀ b, (bankReg u.live .PAIR_STATUS 0 0).testBit b = ((bankReg e.live .PAIR_STATUS 0 0).testBit b &&
          (!(bits % 2 ^ 16).testBit b || noted e (regKey .PAIR_STATUS 0 0) b))) ∧
        regsKept e u [regKey .PAIR_STATUS 0 0] ∧ { u with live := e.live } = e) ∧
    (∀ value mask lead bits, s0.pair.role = .solo →
      (acts s0 ch 9 0x11 tag true true = true →
        exec (.pairConfig t ch tag value mask) s = .next (answer (entered s0 ch 9 0x11 tag) ch tag true (failMsg 13))) ∧
      (acts s0 ch 9 0x12 tag true true = true →
        exec (.pairHandover t ch tag lead) s = .next (answer (entered s0 ch 9 0x12 tag) ch tag true (failMsg 13))) ∧
      (acts s0 ch 9 0x13 tag true true = true →
        exec (.pairResync t ch tag) s = .next (answer (entered s0 ch 9 0x13 tag) ch tag true (failMsg 13))) ∧
      (acts s0 ch 9 0x14 tag true true = true →
        exec (.pairClear t ch tag bits) s = .next (answer (entered s0 ch 9 0x14 tag) ch tag true (failMsg 13))))

/-- A write of 4 or 8 aligned bytes into an inbound mailbox changes those bytes and no others; one while a post is pending is
ignored with IGNORED_WRITE. A doorbell post marks a channel's mailbox pending; of a module whose firmware runs, a message that
passes the checks stays there for its command, one too long or with a wrong CRC is taken and refused, and one on a channel with
five outstanding is discarded. A release moves the oldest waiting reply in with its doorbell bit, or leaves the outbound mailbox
empty. A host-side reset empties the mailboxes and the queue, discards the replies of the messages in execution, and reports
ABORTED with event 0x1102, cause 1. A reset of the PCIe endpoint does so on every channel and frees the locks of master 3, while
printing goes on. -/
def Obligations.Mailboxes : Prop :=
  ∀ (s : State) (t : Nat) (ch : Fin 6), banksOk s = true →
    let s0 := begin s t
    let posted := setMbx s0 ch fun m => { m with pending := true }
    let m0 := mbx s0 ch
    let len := leAt m0.inbox 0 2
    barOpen s0 = true → ch < s0.host.chans.length →
    (∀ off bytes, mailboxAccess off bytes.length = true → m0.pending = false →
      ∃ u, exec (.mailboxWrite t ch off bytes) s = .next u ∧ bytesAt (mbx u ch).inbox off bytes.length = bytes ∧
        (∀ i, i < off ∨ off + bytes.length ≤ i → bytesAt (mbx u ch).inbox i 1 = bytesAt m0.inbox i 1) ∧
        { mbx u ch with inbox := m0.inbox } = m0 ∧ (∀ j, j ≠ ch.val → mbx u j = mbx s0 j) ∧ { u with host := s0.host } = s0) ∧
    (∀ off bytes, mailboxAccess off bytes.length = true → m0.pending = true →
      ∃ u, exec (.mailboxWrite t ch off bytes) s = .next u ∧ u.host.chans = s0.host.chans ∧ HostOnly s0 u ∧
        stickyOn u Fld.MBX_STATUS_IGNORED_WRITE ch = true ∧ regsKeptBut s0 u [regKey .MBX_STATUS ch 0]) ∧
    (∀ value, s0.rst.both = false → serving s0 = false → ∃ u, exec (.doorbellPost t value) s = .next u ∧
      (∀ k, k < 6 → k < s0.host.chans.length →
        mbx u k = { mbx s0 k with pending := (mbx s0 k).pending || value.testBit (chanBit k) }) ∧ { u with host := s0.host } = s0) ∧
    (s0.rst.both = false → serving s0 = true → m0.pending = false → takesNow s0 ch = true → numbersSpent s0 ch = false →
      (5 ≤ outstanding m0 → exec (.doorbellPost t (2 ^ chanBit ch)) s = .next (
        busyReject (setMbx posted ch fun m => { m with pending := false, inbox := [] }) ch (leAt m0.inbox 6 2))) ∧
      (outstanding m0 < 5 → payloadLimit ch < len → exec (.doorbellPost t (2 ^ chanBit ch)) s = .next (
        refuseTaken (takePending posted ch) ch (leAt m0.inbox 3 1) (leAt m0.inbox 2 1) (leAt m0.inbox 6 2) 3)) ∧
      (outstanding m0 < 5 → len ≤ payloadLimit ch → crcMatches m0.inbox = false →
        exec (.doorbellPost t (2 ^ chanBit ch)) s = .next (
          refuseTaken (takePending posted ch) ch (leAt m0.inbox 3 1) (leAt m0.inbox 2 1) (leAt m0.inbox 6 2) 10)) ∧
      (outstanding m0 < 5 → len ≤ payloadLimit ch → crcMatches m0.inbox = true → ch < 4 →
        takeCheck posted ch (leAt m0.inbox 3 1) (leAt m0.inbox 2 1) (leAt m0.inbox 6 2) true = 0 →
        exec (.doorbellPost t (2 ^ chanBit ch)) s = .next posted)) ∧
    (∀ r r' q, m0.out = some r → m0.queue = r' :: q → ∃ u, exec (.replyRelease t ch) s = .next u ∧ (mbx u ch).out = some r' ∧
      (∃ more, (mbx u ch).queue = q ++ more) ∧ (liveFld u Fld.DB_D2H_STATUS_STATUS).testBit (chanBit ch) = true ∧
      HostOnly s0 { u with sec := s0.sec } ∧ (ch < 4 → u.sec = s0.sec) ∧ (∀ j, j ≠ ch.val → mbx u j = mbx s0 j)) ∧
    (∀ r, m0.out = some r → m0.queue = [] → m0.flight = [] → ∃ u, exec (.replyRelease t ch) s = .next u ∧
      mbx u ch = { m0 with out := none } ∧ (∀ j, j ≠ ch.val → mbx u j = mbx s0 j) ∧ { u with host := s0.host } = s0) ∧
    (∃ v, exec (.channelResetHost t ch) s = .next (endSecure v ch 5) ∧ HostOnly s0 v ∧ (mbx v ch).inbox = [] ∧
      (mbx v ch).pending = false ∧ (mbx v ch).out = none ∧ (mbx v ch).queue = [] ∧
      (∀ f ∈ (mbx v ch).flight, f.drop = true ∧ f.hold = none) ∧ (∀ j, j ≠ ch.val → mbx v j = mbx s0 j) ∧
      stickyOn v Fld.MBX_STATUS_ABORTED ch = true ∧ (liveFld v Fld.DB_D2H_STATUS_STATUS).testBit 21 = true ∧
      v.host.queued = s0.host.queued ++ [⟨now s0, 0x1102, chanBit ch, 1⟩] ∧ regsKeptBut s0 v [regKey .MBX_STATUS ch 0]) ∧
    (s0.sys.ethernet = false → ∃ u, exec (.pcieReset t) s = .next u ∧
      (∀ k, k < 6 → (mbx u k).inbox = [] ∧ (mbx u k).pending = false ∧ (mbx u k).out = none ∧ (mbx u k).queue = []) ∧
      (∀ l, nth u.host.locks l 0 = if nth s0.host.locks l 0 = 4 then 0 else nth s0.host.locks l 0) ∧
      u.sys = { s0.sys with linkRate := 0, linkWidth := 0 } ∧ u.job = s0.job ∧ u.pos = s0.pos ∧ u.print = s0.print ∧
      u.sets = s0.sets ∧ u.store = s0.store)

/-- Locks 24 to 31 are reserved to masters 0 and 1: a read of one of them by any other master returns 7 and acquires nothing. Of
the other reads, that of a free lock acquires it for the reading master and returns 0, that of a held one returns the holder's
number + 1 and changes nothing. Master 5 reads only while debug access is unlocked for it. No other lock and nothing else
changes. -/
def Obligations.LockReads : Prop :=
  ∀ (s : State) (t : Nat) (lock : Fin 32) (master : Fin 6),
    let s0 := begin s t
    let v := nth s0.host.locks lock 0
    (master.val = 5 → s0.sec.scopes.testBit 1 = false → exec (.lockRead t lock master) s = .next s0) ∧
    ((master.val = 5 → s0.sec.scopes.testBit 1 = true) →
      (24 ≤ lock.val → 2 ≤ master.val → exec (.lockRead t lock master) s = .next { s0 with out := s0.out ++ [.value [7]] }) ∧
      ((lock.val < 24 ∨ master.val < 2) → v ≠ 0 →
        exec (.lockRead t lock master) s = .next { s0 with out := s0.out ++ [.value [v]] }) ∧
      ((lock.val < 24 ∨ master.val < 2) → v = 0 → ∃ u, exec (.lockRead t lock master) s = .next u ∧
        u.out = s0.out ++ [.value [0]] ∧ (lock < s0.host.locks.length → nth u.host.locks lock 0 = master.val + 1) ∧
        (∀ l, l ≠ lock.val → nth u.host.locks l 0 = nth s0.host.locks l 0) ∧
        { u with out := s0.out, host := { u.host with locks := s0.host.locks } } = s0))

/-- A write of any value by the holder releases the lock; a write by any other master is ignored. No other lock and nothing else
changes. The value written is no operand of the row: it has no effect. -/
def Obligations.LockRelease : Prop :=
  ∀ (s : State) (t : Nat) (lock : Fin 32) (master : Fin 6),
    let s0 := begin s t
    (nth s0.host.locks lock 0 = master.val + 1 → ∃ u, exec (.lockRelease t lock master) s = .next u ∧ nth u.host.locks lock 0 = 0 ∧
      (∀ l, l ≠ lock.val → nth u.host.locks l 0 = nth s0.host.locks l 0) ∧
      { u with host := { u.host with locks := s0.host.locks } } = s0) ∧
    (nth s0.host.locks lock 0 ≠ master.val + 1 → exec (.lockRelease t lock master) s = .next s0)

/-- A write of EVT_TAIL within EVT_HEAD − 64 to EVT_HEAD, modulo 2^32, is stored and answers a NOTIFY; any other is ignored. In
BAR0 a 1 written to a bit of DB_D2H_STATUS or FAULT_SUMMARY clears it, but for one that was set in the same cycle (R5), the masks
are stored, and a write outside alignment does nothing; of BAR4, which only PCIe reaches, DB_D2H_STATUS shows its bits 8 and 9. READ of one word of a register returns it, READ with a count of 0 or above 56 or a set other than the two is BAD_PARAM,
and a read that leaves its register BAD_PARAM. WRITE of a word of a plain register stores the bits that MASK names and leaves
the rest; of a field of the sets it goes to the shadow set, which is then not validated, or returns STATE while a swap is
pending; WRITE of what is no register is BAD_PARAM and changes nothing. -/
def Obligations.RegisterAccess : Prop :=
  ∀ (s : State) (t : Nat), banksOk s = true →
    let s0 := begin s t
    let s1 := flushUpdate s0
    (∀ value, (s0.host.evHead + 2 ^ 32 - value % 2 ^ 32) % 2 ^ 32 ≤ 64 → ∃ u, exec (.evtTailWrite t value) s = .next u ∧
      liveFld u Fld.EVT_TAIL_TAIL = value % 2 ^ 32 ∧ regsKept s0 u [regKey .EVT_TAIL 0 0] ∧
      u.host = { s0.host with session := s0.host.session.map fun x => { x with notify := none } } ∧
      { u with live := s0.live, host := s0.host } = s0) ∧
    (∀ value, 64 < (s0.host.evHead + 2 ^ 32 - value % 2 ^ 32) % 2 ^ 32 → exec (.evtTailWrite t value) s = .next s0) ∧
    (barOpen s1 = true → ∀ value,
      (∃ u, exec (.registerWrite t false 0x108 value) s = .next u ∧ regsKept s1 u [regKey .DB_D2H_STATUS 0 0] ∧ HostOnly s1 u ∧
        ∀ b, b < 32 → (liveFld u Fld.DB_D2H_STATUS_STATUS).testBit b = ((liveFld s1 Fld.DB_D2H_STATUS_STATUS).testBit b &&
          (!value.testBit b || noted s1 (regKey .DB_D2H_STATUS 0 0) b))) ∧
      exec (.registerWrite t true 0x108 value) s =
        (if s1.sys.ethernet then .next s1 else exec (.registerWrite t false 0x108 (value &&& 0x300)) s) ∧
      (∃ u, exec (.registerWrite t false 0x20 value) s = .next u ∧ regsKept s1 u [regKey .FAULT_SUMMARY 0 0] ∧ { u with live := s1.live } = s1 ∧
        ∀ k, k < 18 → (liveFld u Fld.FAULT_SUMMARY_SUBSYSTEM).testBit k =
          ((liveFld s1 Fld.FAULT_SUMMARY_SUBSYSTEM).testBit k &&
            (!value.testBit (k + 1) || noted s1 (regKey .FAULT_SUMMARY 0 0) (k + 1)))) ∧
      (∃ u, exec (.registerWrite t false 0x10C value) s = .next u ∧ liveFld u Fld.DB_D2H_MASK_MASK = value % 2 ^ 32 ∧
        regsKept s1 u [regKey .DB_D2H_MASK 0 0] ∧ HostOnly s1 u) ∧
      (∀ bar4 offset, offset % 4 ≠ 0 → exec (.registerWrite t bar4 offset value) s = .next s1)) ∧
    (∀ (ch : Fin 6) (tag cls regId sel elem : Nat) r e,
      regOfId (bitsOf regId 24 8) (bitsOf regId 12 12) = some r → bitsOf regId 0 12 < (regInfo r).count → elem < (regInfo r).elems →
      0 < (regInfo r).width → r ≠ .LCK → r ≠ .TIM_NOW_LO → sel ≤ 1 → acts s1 ch cls 1 tag false true = true →
      e = entered s1 ch cls 1 tag → exec (.read t ch tag cls regId 1 sel elem) s =
        .next (answer e ch tag false (okMsg (leBytes 4 (regValue e r (bitsOf regId 0 12) elem sel % 2 ^ 32))))) ∧
    (∀ (ch : Fin 6) (tag cls regId count sel elem : Nat) e, acts s1 ch cls 1 tag false true = true → e = entered s1 ch cls 1 tag →
      (count = 0 ∨ 56 < count ∨ 1 < sel →
        exec (.read t ch tag cls regId count sel elem) s = .next (answer e ch tag false (failMsg 4))) ∧
      (0 < count → count ≤ 56 → sel ≤ 1 →
        let a := readWords e (bitsOf regId 24 8) (bitsOf regId 12 12) (bitsOf regId 0 12) elem 0 sel (hostMaster e.sys.ethernet) count
        (a = none → exec (.read t ch tag cls regId count sel elem) s = .next (answer e ch tag false (failMsg 4))) ∧
        (∀ vs u, a = some (vs, u) →
          exec (.read t ch tag cls regId count sel elem) s = .next (answer u ch tag false (okMsg (vs.flatMap (leBytes 4))))))) ∧
    (∀ (ch : Fin 6) (tag cls regId elem value mask : Nat) r e,
      acts s0 ch cls 2 tag true (standbyTakes cls regId) = true → e = entered s0 ch cls 2 tag →
      regOfId (bitsOf regId 24 8) (bitsOf regId 12 12) = some r → bitsOf regId 0 12 < (regInfo r).count → elem < (regInfo r).elems →
      0 < (regInfo r).width → writeClass (regInfo r).wclass = some cls → bitsOf regId 0 12 < 8192 → elem < 131072 →
      (mask % 2 ^ 32) &&& accessMask r .rw = mask % 2 ^ 32 → (mask % 2 ^ 32) &&& accessMask r .w1c = 0 →
      ((regInfo r).isSet = false → (regInfo r).wclass = .img ∨ (regInfo r).wclass = .clp ∨ (regInfo r).wclass = .pair →
        editOk r (bankReg e.live r (bitsOf regId 0 12) elem) ⟨bitsOf regId 0 12, elem, value % 2 ^ 32, mask % 2 ^ 32⟩ = true →
        ∃ u, exec (.write t ch tag cls regId elem [(value, mask)]) s = .next (answer u ch tag true okMsg) ∧
          (∀ b, (bankReg u.live r (bitsOf regId 0 12) elem).testBit b = if (mask % 2 ^ 32).testBit b then value.testBit b
            else (bankReg e.live r (bitsOf regId 0 12) elem).testBit b) ∧
          regsKept e u [regKey r (bitsOf regId 0 12) elem] ∧ { u with live := e.live } = e) ∧
      ((regInfo r).isSet = true →
        editOk r (bankReg e.sets.shadow.regs r (bitsOf regId 0 12) elem) ⟨bitsOf regId 0 12, elem, value % 2 ^ 32, mask % 2 ^ 32⟩ = true →
        (e.sets.swap.isSome = true → exec (.write t ch tag cls regId elem [(value, mask)]) s = .next (answer e ch tag true (failMsg 5))) ∧
        (e.sets.swap = none → ∃ u, exec (.write t ch tag cls regId elem [(value, mask)]) s = .next (answer u ch tag true okMsg) ∧
          u.sets.validated = false ∧ u.sets.active = e.sets.active ∧ { u with sets := e.sets } = e ∧
          u.sets.shadow.regs = bankWrite e.sets.shadow.regs (regKey r (bitsOf regId 0 12) elem)
            (edited r (bankReg e.sets.shadow.regs r (bitsOf regId 0 12) elem)
              ⟨bitsOf regId 0 12, elem, value % 2 ^ 32, mask % 2 ^ 32⟩)))) ∧
    (∀ (ch : Fin 6) (tag cls regId elem : Nat) pairs e,
      acts s0 ch cls 2 tag true (standbyTakes cls regId) = true → e = entered s0 ch cls 2 tag →
      (regOfId (bitsOf regId 24 8) (bitsOf regId 12 12) = none ∨ pairs = [] ∨ 27 < pairs.length) →
      exec (.write t ch tag cls regId elem pairs) s = .next (answer e ch tag true (failMsg 4)))

/-- HELLO with no session open opens one, with the next number, HELLO_ACK and event 0x1105; from another source it is ignored
while the session has had a datagram within 2 s. 2 s without a datagram end the session: channels emptied, locks of master 4
free, event 0x1106 with cause 1. A datagram outside the session changes nothing. MSG with a new SEQ puts its bytes into the
inbound mailbox and posts the channel; with a SEQ already taken the waiting REPLY goes again. REG_READ of 1 to 64 registers is
answered with what the reads return, REG_WRITE with its SEQ once the registers are written. DATA in order extends its transfer,
out of order it changes none, and each 64 KiB, or 1 ms of arriving data, is acknowledged, unless host ingest pauses (R549). An unanswered NOTIFY and every
unreleased REPLY go again. -/
def Obligations.EthernetSession : Prop :=
  ∀ (s : State) (t : Nat), banksOk s = true →
    let s0 := begin s t
    let s1 := flushUpdate s0
    (∀ src udp (port : Fin 2), s0.sys.ethernet = true → serving s0 = true →
      (s0.host.session = none → ∃ u, exec (.hello t src udp port) s = .next u ∧ u.host.lastSession = s0.host.lastSession + 1 ∧
        u.host.session = some { source := src, udp := udp, port := port, num := s0.host.lastSession + 1, last := now s0 } ∧
        u.out = s0.out ++ [.datagram 2 0 s0.host.dgSeq []] ∧
        u.host.queued = s0.host.queued ++ [⟨now s0, 0x1105, port, (s0.host.lastSession + 1) % 2 ^ 32⟩] ∧
        { u with host := s0.host, out := s0.out } = s0) ∧
      (∀ x, s0.host.session = some x → (x.source ≠ src ∨ x.udp ≠ udp ∨ x.port ≠ port) → now s0 < x.last + 2000000000 →
        exec (.hello t src udp port) s = .next s0)) ∧
    (∀ x, s0.host.session = some x →
      (now s0 < x.last + 2000000000 → exec (.sessionTimeout t) s = .next s0) ∧
      (x.last + 2000000000 ≤ now s0 → ∃ u, exec (.sessionTimeout t) s = .next u ∧ u.host.session = none ∧
        u.host.queued.getLast? = some ⟨now s0, 0x1106, x.port, 1⟩ ∧ u.host.transfers = [] ∧ u.host.tables = [] ∧
        (∀ k, k < 6 → (mbx u k).inbox = [] ∧ (mbx u k).pending = false ∧ (mbx u k).out = none ∧ (mbx u k).queue = []) ∧
        (∀ l, nth u.host.locks l 0 = if nth s0.host.locks l 0 = 5 then 0 else nth s0.host.locks l 0) ∧
        u.job = s0.job ∧ u.pos = s0.pos ∧ u.print = s0.print)) ∧
    (∀ (d : Dgram) (ch : Fin 6) outAck bytes offset count values transfer, inSession s0 d = false → inSession s1 d = false →
      exec (.msgDatagram t d ch outAck bytes) s = .next s0 ∧ exec (.regReadDatagram t d offset count) s = .next s1 ∧
      exec (.regWriteDatagram t d offset values) s = .next s1 ∧ exec (.dataDatagram t d transfer offset bytes) s = .next s0) ∧
    (∀ (d : Dgram) (ch : Fin 6) bytes x, inSession s0 d = true → s0.host.session = some x →
      ((ch.val, d.seq) ∉ x.taken → s0.rst.both = false → (mbx s0 ch).pending = false →
        ∃ v, exec (.msgDatagram t d ch false bytes) s =
            .next (postChannel (setMbx v ch fun m => { m with inbox := bytes.take 256 }) ch) ∧
          v.host.session = some { x with last := now s0, taken := x.taken ++ [(ch.val, d.seq)] } ∧
          { v with host := { v.host with session := s0.host.session } } = s0) ∧
      (∀ outAck bs, (ch.val, d.seq) ∈ x.taken → outBytes (mbx s0 ch) ch = some bs →
        ∃ u, exec (.msgDatagram t d ch outAck bytes) s = .next u ∧ u.host.session = some { x with last := now s0 } ∧
          u.host.chans = s0.host.chans ∧ u.out = s0.out ++ [.datagram 4 (chanBit ch) s0.host.dgSeq bs] ∧
          { u with host := s0.host, out := s0.out } = s0)) ∧
    (∀ (d : Dgram) offset count values, inSession s1 d = true →
      (0 < count → count ≤ 64 → exec (.regReadDatagram t d offset count) s = .next (
        let a := barReads (touchSession s1) offset count
        sendDatagram a.2 7 0 (leBytes 4 d.seq ++ a.1.flatMap (leBytes 4)))) ∧
      (count = 0 ∨ 64 < count → exec (.regReadDatagram t d offset count) s = .next s1) ∧
      exec (.regWriteDatagram t d offset values) s = .next (sendDatagram
        ((List.range values.length).foldl (fun u i => barWrite u (offset + 4 * i) (nth values i 0) true) (touchSession s1)) 7 0
        (leBytes 4 d.seq))) ∧
    (∀ (d : Dgram) transfer offset bytes x, inSession s0 d = true → s0.host.transfers.find? (·.num == transfer) = some x →
      (x.data.length < offset → exec (.dataDatagram t d transfer offset bytes) s = .next (touchSession s0)) ∧
      (offset ≤ x.data.length →
        let y := { x with data := (x.data ++ bytes.drop (x.data.length - offset)).take x.length }
        ∃ v : State, exec (.dataDatagram t d transfer offset bytes) s = .next (noteCertified (finishLoad (
            (v.host.tables.filter (·.transfer == transfer)).foldl finishTable v))) ∧
          (y.data.length < y.ackedAt + 65536 ∨ ackWithheld s0 y.num = true → v = { touchSession s0 with host := { (touchSession s0).host with
            transfers := s0.host.transfers.map fun (z : Transfer) => if z.num = transfer then y else z } }) ∧
          (65536 ≤ y.data.length - y.ackedAt → ackWithheld s0 y.num = false → ∃ n, v.out = s0.out ++ [.datagram 10 0 n
              (leBytes 4 y.num ++ leBytes 4 0 ++ leBytes 8 y.data.length)] ∧
            v.host.transfers = s0.host.transfers.map fun (z : Transfer) =>
              if z.num = transfer then { y with ackedAt := y.data.length, lastAck := now s0 } else z))) ∧
    (∀ x y, s0.host.transfers = [x] → s0.host.session = some y →
      (x.ackedAt < x.data.length → x.lastAck + 1000000 ≤ now s0 → ackWithheld s0 x.num = false → ∃ u, exec (.dataAckTimer t) s = .next u ∧
        u.out = s0.out ++ [.datagram 10 0 s0.host.dgSeq (leBytes 4 x.num ++ leBytes 4 0 ++ leBytes 8 x.data.length)] ∧
        u.host.transfers = [{ x with ackedAt := x.data.length, lastAck := now s0 }] ∧ { u with host := s0.host, out := s0.out } = s0) ∧
      (x.data.length ≤ x.ackedAt ∨ now s0 < x.lastAck + 1000000 ∨ ackWithheld s0 x.num = true →
        exec (.dataAckTimer t) s = .next s0)) ∧
    (∀ x, s0.host.session = some x → ∃ u, exec (.notifyRepeat t) s = .next u ∧
      (∀ k bs, k < 6 → outBytes (mbx s0 k) k = some bs → ∃ n, Output.datagram 4 (chanBit k) n bs ∈ u.out) ∧
      (x.notify.isSome = true → ∃ n body, Output.datagram 8 0 n body ∈ u.out) ∧ u.host.chans = s0.host.chans ∧
      { u with host := s0.host, out := s0.out } = s0)

/-- While a swap is pending, a message that writes the shadow set returns STATE. SET.TABLE brings the bytes of a table into the
shadow set: of a tone curve, each byte is its entry; a table that does not exist, or bytes past its end, is BAD_PARAM. SET.COPY
makes the shadow set equal to the active one and SET.DEFAULTS to the reset values; all leave the set not validated. SET.VALIDATE
of a set that passes stores its reed table and event 0x0506 gives its size; one that fails answers its failure. SET.SWAP of a
validated set in READY and SAFE_STOP is a swap of the whole set; under a job it names the line, or TOO_LATE once the line has
begun; SET.CANCEL takes back a swap of which nothing has taken effect, with event 0x0103, and returns TOO_LATE otherwise and
STATE with none pending. That SET.CANCEL returns STATE with none pending is the model's choice (log 34). -/
def Obligations.SetMessages : Prop :=
  ∀ (s : State) (t : Nat) (ch : Fin 6) (tag : Nat),
    let s0 := begin s t
    (∀ table index off len data e, acts s0 ch 2 0x10 tag true false = true → e = entered s0 ch 2 0x10 tag →
      (e.sets.swap.isSome = true →
        exec (.setTable t ch tag table index off len false data) s = .next (answer e ch tag true (failMsg 5))) ∧
      (e.sets.swap = none → (tableSize table index = none ∨ (∃ n, tableSize table index = some n ∧ n < off + len) ∨ 224 < len) →
        exec (.setTable t ch tag table index off len false data) s = .next (answer e ch tag true (failMsg 4))) ∧
      (∀ n, e.sets.swap = none → tableSize table index = some n → off + len ≤ n → len ≤ 224 → data.bytes.length = len →
        ∃ u, exec (.setTable t ch tag table index off len false data) s = .next (answer u ch tag true okMsg) ∧
          u.sets.validated = false ∧ u.sets.shadow = tableWrite table index off data.bytes e.sets.shadow ∧
          { u with sets := e.sets } = e ∧ { u.sets with shadow := e.sets.shadow, validated := e.sets.validated } = e.sets ∧
          (table = 1 → bankWf e.sets.shadow.regs = true → ∀ i, i < len →
            bankReg u.sets.shadow.regs .WFT_TONE (256 * index + (off + i)) 0 = (nth data.bytes i 0).toNat))) ∧
    (∀ e, acts s0 ch 2 0x11 tag true false = true → e = entered s0 ch 2 0x11 tag → exec (.setCopy t ch tag) s = .next (
      if e.sets.swap.isSome then answer e ch tag true (failMsg 5)
      else answer { e with sets := { e.sets with shadow := e.sets.active, validated := false } } ch tag true okMsg)) ∧
    (∀ e, acts s0 ch 2 0x12 tag true false = true → e = entered s0 ch 2 0x12 tag → exec (.setDefaults t ch tag) s = .next (
      if e.sets.swap.isSome then answer e ch tag true (failMsg 5)
      else answer { e with sets := { e.sets with shadow := {}, validated := false } } ch tag true okMsg)) ∧
    (∀ e, acts s0 ch 2 0x13 tag true false = true → e = entered s0 ch 2 0x13 tag →
      (e.sets.swap.isSome = true → exec (.setValidate t ch tag) s = .next (answer e ch tag true (failMsg 5))) ∧
      (∀ f, e.sets.swap = none → buildReed e.sets.shadow (hubEnabled e) = .error f →
        exec (.setValidate t ch tag) s = .next (answer e ch tag true (failReply f))) ∧
      (∀ es f, e.sets.swap = none → buildReed e.sets.shadow (hubEnabled e) = .ok es →
        failOf e { e.sets.shadow with reed := es } = some f →
        exec (.setValidate t ch tag) s = .next (answer e ch tag true (failReply f))) ∧
      (∀ es, e.sets.swap = none → buildReed e.sets.shadow (hubEnabled e) = .ok es →
        failOf e { e.sets.shadow with reed := es } = none →
        ∃ u, exec (.setValidate t ch tag) s = .next (answer u ch tag true (okMsg (leBytes 12 0 ++ leBytes 4 es.length))) ∧
          u.sets = { e.sets with shadow := { e.sets.shadow with reed := es }, validated := true } ∧
          u.host = { e.host with queued := e.host.queued ++ [⟨now e, 0x0506, 0, es.length % 2 ^ 32⟩] } ∧
          { u with sets := e.sets, host := e.host, live := e.live } = e)) ∧
    (∀ point line e, acts s0 ch 2 0x14 tag true false = true → e = entered s0 ch 2 0x14 tag →
      ((2 < point ∨ (point = 1 ∧ passMode e = true) ∨ (point = 2 ∧ passMode e = false)) →
        exec (.setSwap t ch tag point line) s = .next (answer e ch tag true (failMsg 4))) ∧
      (point = 0 → (e.sets.swap.isSome = true ∨ e.sets.validated = false) →
        exec (.setSwap t ch tag point line) s = .next (answer e ch tag true (failMsg 5))) ∧
      (point = 0 → e.sets.swap = none → e.sets.validated = true →
        (jobOn e = false → exec (.setSwap t ch tag point line) s = .next (answer { e with sets := { e.sets with
          swap := some { point := 0, line := 0, whole := true }, point := 0, line := 0 } } ch tag true okMsg)) ∧
        (jobOn e = true → exec (.setSwap t ch tag point line) s = .next (answer { e with sets := { e.sets with
          swap := some { point := 0, line := unrendered e, whole := false }, point := 0, line := unrendered e } } ch tag true okMsg))) ∧
      (point = 1 → passMode e = false → e.sets.swap = none → e.sets.validated = true → jobOn e = true → line < 2 ^ 48 →
        exec (.setSwap t ch tag point line) s = .next (
          if (line : Int) < unrendered e then answer e ch tag true (failMsg 12)
          else answer { e with sets := { e.sets with
            swap := some { point := 1, line := line, whole := false }, point := 1, line := line } } ch tag true okMsg))) ∧
    (∀ e, acts s0 ch 2 0x15 tag true false = true → e = entered s0 ch 2 0x15 tag →
      (e.sets.swap = none → exec (.setCancel t ch tag) s = .next (answer e ch tag true (failMsg 5))) ∧
      (∀ w, e.sets.swap = some w →
        (swapUntouched w = false → exec (.setCancel t ch tag) s = .next (answer e ch tag true (failMsg 12))) ∧
        (swapUntouched w = true → ∃ u, exec (.setCancel t ch tag) s = .next (answer u ch tag true okMsg) ∧
          Raised { e with sets := { e.sets with swap := none } } u ⟨now e, 0x0103, 0, if w.whole then 0 else unsignedOf 32 w.line⟩))) ∧
    (∀ e, acts s0 ch 2 0x16 tag false false = true → e = entered s0 ch 2 0x16 tag →
      exec (.setStatus t ch tag) s = .next (answer e ch tag false (okMsg (leBytes 16 (setStatus e)))))

/-- HEAD.TYPE, HEAD.PLACE, HEAD.ENERGY_TABLE and HEAD.SUPPLY with their fields in range write their record into the shadow set,
which is then not validated, and nothing else; with a field out of range they return BAD_PARAM, and STATE while a swap is
pending. HEAD.NOZZLE_STATE in range queues one change for each nozzle, MASKED or OK, which goes to the partner too; out of range
it returns BAD_PARAM. -/
def Obligations.HeadMessages : Prop :=
  ∀ (s : State) (t : Nat) (ch : Fin 6) (tag : Nat),
    let s0 := begin s t
    let done (e : State) (c : CfgSet) := answer { e with sets := { e.sets with shadow := c, validated := false } } ch tag true okMsg
    let outcome (e : State) (good : Prop) [Decidable good] (c : CfgSet) : State :=
      if e.sets.swap.isSome then answer e ch tag true (failMsg 5) else if good then done e c else answer e ch tag true (failMsg 4)
    (∀ id rec e, acts s0 ch 5 0x10 tag true false = true → e = entered s0 ch 5 0x10 tag →
      exec (.headType t ch tag id rec) s = .next (outcome e (id < 64 ∧ typeOk id rec = true)
        { e.sets.shadow with types := tableSet e.sets.shadow.types id rec })) ∧
    (∀ rec e, acts s0 ch 5 0x11 tag true false = true → e = entered s0 ch 5 0x11 tag →
      (∀ p, placement rec = some p → exec (.headPlace t ch tag rec) s = .next (outcome e True
        { e.sets.shadow with places := tableSet e.sets.shadow.places rec.head p })) ∧
      (placement rec = none → exec (.headPlace t ch tag rec) s = .next (outcome e False e.sets.shadow))) ∧
    (∀ type entries e, acts s0 ch 5 0x12 tag true false = true → e = entered s0 ch 5 0x12 tag →
      ∃ c : CfgSet, exec (.headEnergyTable t ch tag type entries) s =
          .next (outcome e (type < 64 ∧ entries.length = 8 ∧ ∀ x ∈ entries, x < 2 ^ 24) c) ∧
        setEnergy c type = entries ∧ { c with energy := e.sets.shadow.energy } = e.sets.shadow) ∧
    (∀ channel en hub slot e, acts s0 ch 5 0x13 tag true false = true → e = entered s0 ch 5 0x13 tag →
      ∃ c : CfgSet, exec (.headSupply t ch tag channel en hub slot) s =
          .next (outcome e (channel < 16 ∧ en < 2 ∧ hub < 24 ∧ slot < 16) c) ∧
        { c with regs := e.sets.shadow.regs } = e.sets.shadow ∧
        (bankWf e.sets.shadow.regs = true → channel < 16 → en < 2 → hub < 24 → slot < 16 →
          bankGet c.regs Fld.FIR_SUPPLY_SUPPLY_EN channel = en ∧ bankGet c.regs Fld.FIR_SUPPLY_SUPPLY_HUB channel = hub ∧
          bankGet c.regs Fld.FIR_SUPPLY_SUPPLY_SLOT channel = slot ∧
          ∀ k, k ≠ regKey .FIR_SUPPLY channel 0 → bankLookup c.regs k = bankLookup e.sets.shadow.regs k)) ∧
    (∀ head row action first count e, acts s0 ch 5 0x14 tag true false = true → e = entered s0 ch 5 0x14 tag →
      ((512 ≤ head ∨ 1 < row ∨ 1 < action ∨ count = 0 ∨ 4096 < count ∨ 4096 < first + count) →
        exec (.headNozzleState t ch tag head row action first count) s = .next (answer e ch tag true (failMsg 4))) ∧
      (head < 512 → row ≤ 1 → action ≤ 1 → 0 < count → count ≤ 4096 → first + count ≤ 4096 →
        ∃ u xs, exec (.headNozzleState t ch tag head row action first count) s = .next (answer u ch tag true okMsg) ∧
          u.print.nozzles = e.print.nozzles ++ xs ∧ u.print.sendNozzles = e.print.sendNozzles ++ xs ∧
          xs.map (fun x => (x.head, x.rowB, x.nozzle, x.state)) =
            (List.range count).map (fun i => (head, row == 1, first + i, 3 * action)) ∧
          { u with print := e.print } = e))

/-- JOB.START outside READY or with a swap pending returns STATE, with a field out of range BAD_PARAM, with a channel whose
image is absent or of another format BAD_PARAM with the channel named, with another failing check that check's result, and else
begins the job and answers its JOB_ID. JOB.PAUSE while printing pauses at the line it names, or at the first line not yet
rendered, which its reply tells; JOB.STOP of KIND 0 stops there, and at once in ARMED and PAUSED; a pause at a line that a
channel has begun to render returns TOO_LATE, and both return STATE where no such job is. JOB.RESUME outside PAUSED returns
STATE and with a shift below 0 TOO_LATE. SAFE_STOP in READY and under a job is an orderly stop with cause 1, after which the
state is SAFE_STOP; CLEAR_STOP leaves SAFE_STOP unless the cause is still present, which returns STATE. -/
def Obligations.JobMessages : Prop :=
  ∀ (s : State) (t : Nat) (ch : Fin 6) (tag : Nat),
    let s0 := begin s t
    let s1 := flushUpdate s0
    (∀ p e, acts s1 ch 4 0x10 tag true false = true → e = entered s1 ch 4 0x10 tag →
      ((e.sys.st ≠ .ready ∨ e.sets.swap.isSome = true) → exec (.jobStart t ch tag p) s = .next (answer e ch tag true (failMsg 5))) ∧
      (e.sys.st = .ready → e.sets.swap = none →
        ((2 < p.originMode ∨ 3 < p.mode ∨ p.channels % 2 ^ 16 = 0 ∨ 2 ^ 16 ≤ p.channels ∨ 2 ^ 48 ≤ p.firstLine) →
          exec (.jobStart t ch tag p) s = .next (answer e ch tag true (failMsg 4))) ∧
        (∀ c, paramsBad p = false → (jobChans p).find? (imageBad e p) = some c →
          exec (.jobStart t ch tag p) s = .next (answer e ch tag true (failMsg 4 (1 * 2 ^ 20 + c))))) ∧
      (∀ r, startFails e p = some r → exec (.jobStart t ch tag p) s = .next (answer e ch tag true r)) ∧
      (startFails e p = none → exec (.jobStart t ch tag p) s =
        .next (answer (beginJob e p) ch tag true (okMsg (leBytes 4 (beginJob e p).job.id))))) ∧
    (∀ kind line e, acts s1 ch 4 0x11 tag true false = true → e = entered s1 ch 4 0x11 tag →
      (e.sys.st ≠ .printing → exec (.jobPause t ch tag kind line) s = .next (answer e ch tag true (failMsg 5))) ∧
      (e.sys.st = .printing → 1 < kind → exec (.jobPause t ch tag kind line) s = .next (answer e ch tag true (failMsg 4))) ∧
      (e.sys.st = .printing → passMode e = false →
        (kind = 0 → exec (.jobPause t ch tag kind line) s = .next (answer
          (checkJob { e with job := { e.job with pauseAt := some (unrendered e) } }) ch tag true (lineReply (unrendered e)))) ∧
        (kind = 1 → line < 2 ^ 48 → exec (.jobPause t ch tag kind line) s = .next (
          if (line : Int) < unrendered e then answer e ch tag true (failMsg 12)
          else answer (checkJob { e with job := { e.job with pauseAt := some (line : Int) } }) ch tag true (lineReply line))))) ∧
    (∀ gap e, acts s1 ch 4 0x12 tag true false = true → e = entered s1 ch 4 0x12 tag →
      (e.sys.st ≠ .paused → exec (.jobResume t ch tag gap) s = .next (answer e ch tag true (failMsg 5))) ∧
      (e.sys.st = .paused → resumeShift e gap < 0 →
        exec (.jobResume t ch tag gap) s = .next (answer e ch tag true (failMsg 12))) ∧
      (e.sys.st = .paused → 0 ≤ resumeShift e gap → exec (.jobResume t ch tag gap) s = .next (
        let d := resumeShift e gap
        let u := if d = 0 then e else restartFrames (shiftPosition e (-d * 2 ^ 24))
        let v := raise (setState { u with job := { u.job with pauseAt := none, shift := u.job.shift + d } } .armed) 0x0107 0
          (satNat 32 d.toNat)
        answer (checkEncoder (((List.range 16).filter (inJob v)).foldl fillBuffers v)) ch tag true okMsg))) ∧
    (∀ kind line e, acts s1 ch 4 0x13 tag true false = true → e = entered s1 ch 4 0x13 tag →
      (jobOn e = false → exec (.jobStop t ch tag kind line) s = .next (answer e ch tag true (failMsg 5))) ∧
      (jobOn e = true → 1 < kind → exec (.jobStop t ch tag kind line) s = .next (answer e ch tag true (failMsg 4))) ∧
      (kind = 0 → passMode e = false → e.sys.st = .printing → exec (.jobStop t ch tag kind line) s = .next (answer
        (checkJob { e with job := { e.job with stopAt := some (unrendered e) } }) ch tag true (lineReply (unrendered e)))) ∧
      (kind = 0 → (e.sys.st = .armed ∨ e.sys.st = .paused) → exec (.jobStop t ch tag kind line) s = .next (answer
        (toReady (endJob { e with pos := { e.pos with indexWait := false } } 2)) ch tag true (lineReply (toldLine e 0 line))))) ∧
    (∀ e, acts s1 ch 4 0x14 tag false false = true → e = entered s1 ch 4 0x14 tag →
      exec (.jobStatus t ch tag) s = .next (answer e ch tag false (okMsg (
        leBytes 4 e.job.id ++ leBytes 1 (stateCode e.sys.st) ++ leBytes 1 e.job.endCause ++ leBytes 2 e.job.channels ++
        leBytes 8 (posLine e) ++ leBytes 8 (unsignedOf 48 e.job.first) ++ leBytes 8 (unsignedOf 48 (lowestNext e)) ++
        leBytes 8 (match e.job.last with | some l => unsignedOf 48 l | none => 2 ^ 48 - 1) ++
        leBytes 4 e.pos.pass ++ leBytes 4 (satNat 32 e.job.shift.toNat))))) ∧
    (∀ e, acts s0 ch 1 0x12 tag true false = true → e = entered s0 ch 1 0x12 tag →
      exec (.safeStop t ch tag) s = .next (if mayStop e then answer (orderlyStop e 1) ch tag true okMsg
        else if e.sys.st = .safeStop then answer e ch tag true okMsg else answer e ch tag true (failMsg 5))) ∧
    (∀ (w : State) cause, (w.sys.st = .ready ∨ w.sys.st = .armed ∨ w.sys.st = .printing ∨ w.sys.st = .paused) →
      (orderlyStop w cause).sys.st = .safeStop ∧ (orderlyStop w cause).sys.stopCause = cause) ∧
    (∀ e, acts s0 ch 1 0x13 tag true false = true → e = entered s0 ch 1 0x13 tag →
      exec (.clearStop t ch tag) s = .next (if e.sys.st = .safeStop ∧ causePresent e e.sys.stopCause = false then
          answer (toReady { e with sys := { e.sys with stopCause := 0 } }) ch tag true okMsg
        else answer e ch tag true (failMsg 5)))

/-- SYS.INFO and SYS.STATE answer the module's identity and state. NET.CONFIG with a port and mode in range is the port's
configuration, which takes effect at the next start, and the other port's is as before. DIAG.SELFTEST answers how the slice
went; DIAG.RESTART under a job returns STATE, else WARM_OK is set for a warm restart outside RECOVERY and the restart waits for
the release of its reply. EVT.LOG_INFO answers the oldest and newest sequence numbers, EVT.LOG_READ at most 14 entries, on S0
and S1 13, from a number on, and BAD_PARAM for other counts; EVT.FILTER stores at most 16 pairs, and more is BAD_LENGTH. -/
def Obligations.SystemMessages : Prop :=
  ∀ (s : State) (t : Nat) (ch : Fin 6) (tag : Nat), banksOk s = true →
    let s0 := begin s t
    (∀ e, acts s0 ch 1 0x10 tag false false = true → e = entered s0 ch 1 0x10 tag →
      exec (.sysInfo t ch tag) s = .next (answer e ch tag false (okMsg (
        leBytes 4 0x1E6C8200 ++ leBytes 4 (Config.sysRev % 2 ^ 16) ++ leBytes 4 (runningSlot e).version ++ leBytes 16 Config.serial ++
        leBytes 1 (liveFld e Fld.SEC_STATUS_RUNNING_SLOT) ++
        leBytes 1 (if liveFld e Fld.RST_CAUSE_STRAP_VALID = 1 then liveFld e Fld.RST_CAUSE_STRAP_CODE else 0xFF) ++
        leBytes 1 (liveFld e Fld.RST_START_FAILS_FAILED_START_LIMIT) ++ [0] ++ leBytes 4 (imgCapacity e))))) ∧
    (let s1 := flushUpdate s0
     ∀ e, acts s1 ch 1 0x11 tag false false = true → e = entered s1 ch 1 0x11 tag →
      exec (.sysState t ch tag) s = .next (answer e ch tag false (okMsg (
        leBytes 4 (sysStateWord e) ++ leBytes 4 (sysRole e) ++ leBytes 4 (liveFld e Fld.FAULT_SUMMARY_SUBSYSTEM * 2) ++
        leBytes 4 (bankReg e.live .RST_CAUSE 0 0) ++ leBytes 4 (setStatus e) ++ leBytes 8 (posLine e) ++ leBytes 8 e.time.pick)))) ∧
    (∀ port mode address netmask gateway e, acts s0 ch 1 0x14 tag true false = true → e = entered s0 ch 1 0x14 tag →
      ((1 < port ∨ 1 < mode) →
        exec (.netConfig t ch tag port mode address netmask gateway) s = .next (answer e ch tag true (failMsg 4))) ∧
      (port ≤ 1 → mode ≤ 1 →
        ∃ u, exec (.netConfig t ch tag port mode address netmask gateway) s = .next (answer u ch tag true okMsg) ∧
          (u.host.netConfig.find? (·.1 == port)) = some (port, [mode, address, netmask, gateway]) ∧
          (∀ p, p ≠ port → u.host.netConfig.find? (·.1 == p) = e.host.netConfig.find? (·.1 == p)) ∧
          { u with host := { u.host with netConfig := e.host.netConfig } } = e)) ∧
    (∀ slice pass e, acts s0 ch 10 0x12 tag false true = true → e = entered s0 ch 10 0x12 tag →
      exec (.diagSelftest t ch tag slice pass) s = .next (answer e ch tag false (okMsg (leBytes 1 (if pass then 1 else 0))))) ∧
    (∀ e, acts s0 ch 10 0x13 tag true true = true → e = entered s0 ch 10 0x13 tag →
      (jobOn e = true → exec (.diagRestartWarm t ch tag) s = .next (answer e ch tag true (failMsg 5)) ∧
        exec (.diagRestartCold t ch tag) s = .next (answer e ch tag true (failMsg 5))) ∧
      (jobOn e = false →
        ∃ u v, exec (.diagRestartWarm t ch tag) s = .next (answer u ch tag true okMsg) ∧
          exec (.diagRestartCold t ch tag) s = .next (answer v ch tag true okMsg) ∧
          u.rst = { e.rst with restart := some (ch.val, tag, now e), armedAt := none } ∧ v.rst = u.rst ∧
          liveFld u Fld.RST_CAUSE_WARM_OK = (if e.sys.st = .recovery then 0 else 1) ∧ liveFld v Fld.RST_CAUSE_WARM_OK = 0 ∧
          (e.sys.st = .recovery → liveFld u Fld.RST_START_FAILS_START_FAILS = 0) ∧
          { u with live := e.live, rst := e.rst } = e ∧ { v with live := e.live, rst := e.rst } = e)) ∧
    (∀ e, acts s0 ch 11 0x10 tag false true = true → e = entered s0 ch 11 0x10 tag →
      exec (.logInfo t ch tag) s =
        .next (answer e ch tag false (okMsg (leBytes 4 (oldestSeq e) ++ leBytes 4 (e.host.logNext - 1))))) ∧
    (∀ seq count e, acts s0 ch 11 0x11 tag false true = true → e = entered s0 ch 11 0x11 tag →
      ((count = 0 ∨ (ch.val < 4 ∧ 14 < count) ∨ (4 ≤ ch.val ∧ 13 < count)) →
        exec (.logRead t ch tag seq count) s = .next (answer e ch tag false (failMsg 4))) ∧
      (0 < count → (ch.val < 4 → count ≤ 14) → (4 ≤ ch.val → count ≤ 13) →
        let es := (e.host.log.filter fun x => decide (Nat.max seq (oldestSeq e) ≤ x.seq)).take count
        exec (.logRead t ch tag seq count) s = .next (answer e ch tag false (okMsg (
          leBytes 4 (Nat.max seq (oldestSeq e)) ++ leBytes 1 es.length ++ [0, 0, 0] ++ es.flatMap fun x => eventBytes x.ev))))) ∧
    (∀ pairs e, acts s0 ch 11 0x12 tag true true = true → e = entered s0 ch 11 0x12 tag →
      (16 < pairs.length → exec (.evtFilter t ch tag pairs) s = .next (answer e ch tag true (failMsg 3))) ∧
      (pairs.length ≤ 16 → exec (.evtFilter t ch tag pairs) s = .next (answer { e with host := { e.host with
        filter := pairs.map fun x => (x.1 % 2 ^ 16, x.2 % 2 ^ 16) } } ch tag true okMsg)))

/-- SEC.INFO and CERT_GET answer the core's state and a piece of the device chain. SESSION_OPEN with a key and a nonce of their
lengths, with no session open, no lockout and no debug access, begins a set-up with a key, a nonce and a signature of the
module's own; it returns HARDWARE_FAULT while the random source has failed and STATE otherwise. CERT_PUT takes the host's chain
piece by piece in order, and SESSION_FINISH of a whole chain opens the session with the role of the chain, event 0x0C02, when
chain, role and signature hold, and otherwise ends the set-up with AUTH, AUTH_FAIL and event 0x0C04. SESSION_CLOSE wipes the
session. A set-up without SESSION_FINISH for 10 s is at its end; an open session without a message for SESSION_IDLE ends with
cause 2. -/
def Obligations.SecureSessions : Prop :=
  ∀ (s : State) (t : Nat) (ch : Fin 6) (tag : Nat), banksOk s = true →
    let s0 := begin s t
    (∀ e, secActs s0 ch 0x10 tag false true 0 = true → e = secEntered s0 ch 0x10 tag →
      exec (.secInfo t ch tag) s = .next (answer (audit e 0x0C90 ch 0) ch tag false (okMsg (
        leBytes 4 (secStatus e) ++ leBytes 4 (bankReg e.live .SEC_FUSE 0 0) ++ leBytes 16 Config.serial ++
        leBytes 16 Config.deviceKeyId ++
        (leBytes 4 (nth e.sec.slots 0 {}).version ++ leBytes 2 (nth e.sec.slots 0 {}).rollback ++ leBytes 1 (bit (slotValid e 0)) ++ [0]) ++
        (leBytes 4 (nth e.sec.slots 1 {}).version ++ leBytes 2 (nth e.sec.slots 1 {}).rollback ++ leBytes 1 (bit (slotValid e 1)) ++ [0]) ++
        leBytes 16 Config.roleOid)))) ∧
    (∀ offset e, secActs s0 ch 0x11 tag false true 0 = true → e = secEntered s0 ch 0x11 tag → (secSession e ch).stage ≠ 3 →
      let piece := (Config.deviceChain.drop offset).take 220
      exec (.certGet t ch tag offset) s = .next (answer (audit e 0x0C91 ch 0) ch tag false
        (okMsg (leBytes 2 Config.deviceChain.length ++ leBytes 2 piece.length ++ piece)))) ∧
    (∀ key nonce e, secActs s0 ch 0x12 tag false true 0 = true → e = secEntered s0 ch 0x12 tag →
      ((key.length ≠ 49 ∨ nonce.length ≠ 32) → exec (.sessionOpen t ch tag key nonce) s =
        .next (answer (audit e 0x0C92 ch 3) ch tag false (failMsg 3))) ∧
      (key.length = 49 → nonce.length = 32 →
        (((secSession e ch).stage = 2 ∨ lockedOut e = true ∨ e.sec.scopes ≠ 0) → exec (.sessionOpen t ch tag key nonce) s =
          .next (answer (audit e 0x0C92 ch 5) ch tag false (failMsg 5))) ∧
        ((secSession e ch).stage ≠ 2 → lockedOut e = false → e.sec.scopes = 0 → e.sec.rngFailed = true →
          exec (.sessionOpen t ch tag key nonce) s = .next (answer (audit e 0x0C92 ch 14) ch tag false (failMsg 14))) ∧
        ((secSession e ch).stage ≠ 2 → lockedOut e = false → e.sec.scopes = 0 → e.sec.rngFailed = false →
          ∃ u own mine t1, exec (.sessionOpen t ch tag key nonce) s = .next (answer (audit u 0x0C92 ch 0) ch tag false
              (okMsg (own ++ mine ++ bytesAt (Config.deviceSign (leBytes 48 t1)) 0 96))) ∧
            own.length = 49 ∧ mine.length = 32 ∧ (ch.val - 4 < e.sec.sessions.length →
              secSession u ch = { stage := 1, openedAt := now e, t1 := t1, secret := Config.random e.freeCtr, hostKey := key,
                                  salt := nonce ++ mine }) ∧
            t1 = Config.sha384 ([0x4A, 0x50, 0x43, 0x38, 0x32, 0x30, 0x30, 0x20, 0x53, 0x45, 0x53, 0x53, 0x49, 0x4F, 0x4E] ++
              leBytes 1 (chanBit ch) ++ key ++ nonce ++ own ++ mine) ∧
            { u with sec := { u.sec with sessions := e.sec.sessions }, freeCtr := e.freeCtr } = e))) ∧
    (∀ total offset bytes e, secActs s0 ch 0x13 tag false true 0 = true → e = secEntered s0 ch 0x13 tag →
      ((secSession e ch).stage ≠ 1 → exec (.certPut t ch tag total offset bytes) s =
        .next (answer (audit e 0x0C93 ch 5) ch tag false (failMsg 5))) ∧
      ((secSession e ch).stage = 1 → offset = 0 → 0 < total → total ≤ 4096 → bytes.length ≤ 220 → bytes.length ≤ total →
        exec (.certPut t ch tag total offset bytes) s = .next (answer (audit
          (setSession e ch fun x => { x with chain := bytes, total := total }) 0x0C93 ch 0) ch tag false okMsg)) ∧
      ((secSession e ch).stage = 1 → 0 < offset → offset = (secSession e ch).chain.length → total = (secSession e ch).total →
        total ≤ 4096 → bytes.length ≤ 220 → offset + bytes.length ≤ total →
        exec (.certPut t ch tag total offset bytes) s = .next (answer (audit (setSession e ch fun x =>
          { x with chain := (secSession e ch).chain ++ bytes, total := total }) 0x0C93 ch 0) ch tag false okMsg)) ∧
      ((secSession e ch).stage = 1 → 0 < offset → offset ≠ (secSession e ch).chain.length →
        exec (.certPut t ch tag total offset bytes) s = .next (answer (audit e 0x0C93 ch 4) ch tag false (failMsg 4)))) ∧
    (∀ sig e, secActs s0 ch 0x14 tag false true 0 = true → e = secEntered s0 ch 0x14 tag →
      let x := secSession e ch
      ((x.stage ≠ 1 ∨ x.chain = [] ∨ x.chain.length ≠ x.total) →
        exec (.sessionFinish t ch tag sig) s = .next (answer (audit e 0x0C94 ch 5) ch tag false (failMsg 5))) ∧
      (x.stage = 1 → x.chain ≠ [] → x.chain.length = x.total → ch.val - 4 < e.sec.sessions.length → ch < e.host.chans.length →
        ∃ u v, exec (.sessionFinish t ch tag sig) s = .next (if finishFails e x sig = 0 then
            answer (audit u 0x0C94 ch 0) ch tag false (okMsg (leBytes 4 (secSession u ch).role))
            else answer (audit v 0x0C94 ch 7) ch tag false (failMsg 7)) ∧
          (secSession u ch).stage = 2 ∧ (secSession u ch).last = now e ∧ (secSession u ch).unowned = e.sec.owner.isNone ∧
          (secSession u ch).role = (if e.sec.owner.isNone then 0 else Config.certRole x.chain) ∧
          (secSession u ch).chain = [] ∧ (secSession u ch).keys = sessionKeys x ∧ (mbx u ch).secure = true ∧
          u.host.queued = e.host.queued ++ [⟨now e, 0x0C02, chanBit ch, (secSession u ch).role % 2 ^ 32⟩] ∧
          (secSession v ch) = { stage := 3 } ∧ stickyOn v Fld.SEC_STATUS_AUTH_FAIL = true ∧
          v.host.queued = e.host.queued ++ [⟨now e, 0x0C04, chanBit ch, finishFails e x sig % 2 ^ 32⟩])) ∧
    (∀ e, secActs s0 ch 0x15 tag false true 0 = true → e = secEntered s0 ch 0x15 tag →
      exec (.sessionClose t ch tag) s = .next (answer (audit (endSecure e ch 1) 0x0C95 ch 0) ch tag false okMsg)) ∧
    (∀ (w : State) k cause, 4 ≤ k → k - 4 < w.sec.sessions.length → k < w.host.chans.length → (secSession w k).stage = 2 →
      let u := endSecure w k cause
      secSession u k = {} ∧ (mbx u k).secure = false ∧ ⟨now w, 0x0C03, chanBit k, cause % 2 ^ 32⟩ ∈ u.host.queued ∧
      (cause ≠ 1 → (mbx u k).flight = [] ∧ (mbx u k).out = none ∧ (mbx u k).queue = [] ∧ (mbx u k).pending = false)) ∧
    (∀ x : Fin 2,
      let k := 4 + x.val
      (serving s0 = true → (secSession s0 k).stage = 1 → (secSession s0 k).openedAt + 10000000000 ≤ now s0 →
        exec (.sessionSetupTimeout t x) s = .next (audit (setSession s0 k fun _ => { stage := 3 }) 0x0C92 k 9)) ∧
      ((serving s0 = false ∨ (secSession s0 k).stage ≠ 1 ∨ now s0 < (secSession s0 k).openedAt + 10000000000) →
        exec (.sessionSetupTimeout t x) s = .next s0) ∧
      ((secSession s0 k).last + liveFld s0 Fld.SEC_CTRL_SESSION_IDLE * 1000000000 ≤ now s0 →
        exec (.sessionIdleExpire t x) s = .next (endSecure s0 k 2)) ∧
      (now s0 < (secSession s0 k).last + liveFld s0 Fld.SEC_CTRL_SESSION_IDLE * 1000000000 →
        exec (.sessionIdleExpire t x) s = .next s0))

/-- FW_LOAD of a slot that does not exist is BAD_PARAM, of the running slot STATE, and under another load BUSY; over PCIe the
image that host memory holds is judged and its slot, event 0x0C05 and the reply tell whether it is valid. FW_ACTIVATE of a valid
slot prefers it, with event 0x0C06; of another returns STATE. FW_COMMIT raises ROLLBACK_COUNT to the running image's index, with
event 0x0C07, and never lowers it. TRUST_SET takes a certificate in pieces, in order, and puts it in place with the last when it
parses, with event 0x0C11; a piece out of order is BAD_PARAM. TRUST_CLEAR removes the consumable roots or the partner's
certificate, and BAD_PARAM for the owner's. -/
def Obligations.FirmwareAndTrust : Prop :=
  ∀ (s : State) (t : Nat) (ch : Fin 6) (tag : Nat), banksOk s = true →
    let s0 := begin s t
    (∀ slot (data : DataRef) e, secActs s0 ch 0x16 tag false true 0 = true → e = secEntered s0 ch 0x16 tag →
      (1 < slot → exec (.fwLoad t ch tag slot data) s =
        .next (noteCertified (answer (audit e 0x0C96 ch 4) ch tag false (failMsg 4)))) ∧
      (slot ≤ 1 → slot = liveFld e Fld.SEC_STATUS_RUNNING_SLOT → exec (.fwLoad t ch tag slot data) s =
        .next (noteCertified (answer (audit e 0x0C96 ch 5) ch tag false (failMsg 5)))) ∧
      (slot ≤ 1 → slot ≠ liveFld e Fld.SEC_STATUS_RUNNING_SLOT → e.sec.load.isSome = true → exec (.fwLoad t ch tag slot data) s =
        .next (noteCertified (answer (audit e 0x0C96 ch 1) ch tag false (failMsg 1)))) ∧
      (slot ≤ 1 → slot ≠ liveFld e Fld.SEC_STATUS_RUNNING_SLOT → e.sec.load = none → e.sys.ethernet = false → e.rst.both = false →
        data.fail = 0 → slot < e.sec.slots.length →
        let j := judgeImage e (refBytes data)
        ∃ u, exec (.fwLoad t ch tag slot data) s = .next (noteCertified (answer (audit u 0x0C96 ch j.2) ch tag false
            (if j.2 = 0 then okMsg (leBytes 4 j.1.version ++ leBytes 2 j.1.rollback) else failMsg j.2))) ∧
          nth u.sec.slots slot {} = j.1 ∧ (∀ i, i ≠ slot → nth u.sec.slots i {} = nth e.sec.slots i {}) ∧
          u.host = { e.host with queued := e.host.queued ++ [⟨now e, 0x0C05, slot, (if j.2 = 0 then j.1.version else 0) % 2 ^ 32⟩] } ∧
          { u with host := e.host, sec := { u.sec with slots := e.sec.slots } } = e ∧
          (66060032 < leAt (refBytes data) 16 8 → j.2 = 4 ∧ j.1.valid = false))) ∧
    (∀ slot e, secActs s0 ch 0x17 tag false true 0 = true → e = secEntered s0 ch 0x17 tag →
      (1 < slot → exec (.fwActivate t ch tag slot) s = .next (answer (audit e 0x0C97 ch 4) ch tag false (failMsg 4))) ∧
      (slot ≤ 1 → slotValid e slot = false →
        exec (.fwActivate t ch tag slot) s = .next (answer (audit e 0x0C97 ch 5) ch tag false (failMsg 5))) ∧
      (slot ≤ 1 → slotValid e slot = true → ∃ u, exec (.fwActivate t ch tag slot) s =
          .next (answer (audit u 0x0C97 ch 0) ch tag false okMsg) ∧ liveFld u Fld.SEC_FUSE_PREFERRED = slot ∧
        liveFld u Fld.SEC_FUSE_ROLLBACK_COUNT = liveFld e Fld.SEC_FUSE_ROLLBACK_COUNT ∧ regsKept e u [regKey .SEC_FUSE 0 0] ∧
        u.host = { e.host with queued := e.host.queued ++ [⟨now e, 0x0C06, slot, (nth e.sec.slots slot {}).version % 2 ^ 32⟩] } ∧
        { u with live := e.live, host := e.host } = e)) ∧
    (∀ e, secActs s0 ch 0x18 tag false true 0 = true → e = secEntered s0 ch 0x18 tag → (runningSlot e).rollback < 2 ^ 7 →
      let old := liveFld e Fld.SEC_FUSE_ROLLBACK_COUNT
      let new := Nat.max old (runningSlot e).rollback
      ∃ u, exec (.fwCommit t ch tag) s = .next (answer (audit u 0x0C98 ch 0) ch tag false (okMsg (leBytes 1 new ++
          leBytes 1 (bit (slotValid u (1 - liveFld e Fld.SEC_STATUS_RUNNING_SLOT)))))) ∧
        liveFld u Fld.SEC_FUSE_ROLLBACK_COUNT = new ∧ u.sec = { e.sec with target := new } ∧ regsKept e u [regKey .SEC_FUSE 0 0] ∧
        u.host.queued = e.host.queued ++ (if old < new then [⟨now e, 0x0C07, 0, new⟩] else [])) ∧
    (∀ kind slot total offset bytes e, secActs s0 ch 0x19 tag false true kind = true → e = secEntered s0 ch 0x19 tag →
      (kind = 2 → offset = 0 → bytes.length = total → total ≤ 218 →
        ∃ u, exec (.trustSet t ch tag kind slot total offset bytes) s = .next (noteCertified (
            if Config.certParses bytes then answer (audit u 0x0C99 ch 0) ch tag false okMsg
            else answer (audit { e with sec := { e.sec with part := none } } 0x0C99 ch 4) ch tag false (failMsg 4))) ∧
          Raised { e with sec := { e.sec with part := none, partner := some bytes } } u ⟨now e, 0x0C11, 2, 0⟩) ∧
      (kind ≤ 2 → (kind = 1 → slot ≤ 3) → offset = 0 → bytes.length < total → bytes.length ≤ 218 →
        exec (.trustSet t ch tag kind slot total offset bytes) s = .next (noteCertified (answer (audit
          { e with sec := { e.sec with part := some ⟨kind, slot, total, bytes⟩ } } 0x0C99 ch 0) ch tag false okMsg))) ∧
      (kind ≤ 2 → 0 < offset → e.sec.part = none →
        exec (.trustSet t ch tag kind slot total offset bytes) s =
          .next (noteCertified (answer (audit e 0x0C99 ch 4) ch tag false (failMsg 4))))) ∧
    (∀ slot e, secActs s0 ch 0x19 tag false true 3 = true → e = secEntered s0 ch 0x19 tag →
      (slot = 1 → ∃ u, exec (.trustClear t ch tag slot) s = .next (noteCertified (answer (audit u 0x0C99 ch 0) ch tag false okMsg)) ∧
        Raised { e with sec := { e.sec with roots := [none, none, none, none] } } u ⟨now e, 0x0C11, 1, 0⟩) ∧
      (slot = 2 → ∃ u, exec (.trustClear t ch tag slot) s = .next (noteCertified (answer (audit u 0x0C99 ch 0) ch tag false okMsg)) ∧
        Raised { e with sec := { e.sec with partner := none } } u ⟨now e, 0x0C11, 2, 0⟩) ∧
      ((slot = 0 ∨ 2 < slot) → exec (.trustClear t ch tag slot) s =
        .next (noteCertified (answer (audit e 0x0C99 ch 4) ch tag false (failMsg 4)))))

/-- SEC.CONFIG writes the bits of SEC_CTRL that MASK names and clears the bits of SEC_STATUS it names, but for one set in the same
cycle (R5); a field out of range is
BAD_PARAM, and in the certified mode a setting of AUDIT_WRAP, or of SESSION_IDLE above an hour, STATE. DEBUG.CHALLENGE makes a
challenge; DEBUG.UNLOCK in the certified mode returns STATE, and opens the scope within 60 s of a challenge for a token that
verifies, and else returns AUTH. AUDIT.READ returns at most three entries, AUDIT.SIGN the newest number and hash with the
device's signature, AUDIT.ACKNOWLEDGE acknowledges up to a number that exists. Every audit entry carries the next number and the
time. A glitch ends sessions and the peer's keys, is counted and reported; a failed random source is reported; the JTAG port
drives pins only in RECOVERY or with debug access. -/
def Obligations.SecurityControl : Prop :=
  ∀ (s : State) (t : Nat) (ch : Fin 6) (tag : Nat), banksOk s = true →
    let s0 := begin s t
    (∀ value mask clear e, secActs s0 ch 0x1C tag false true 0 = true → e = secEntered s0 ch 0x1C tag →
      ∃ v w, (∀ b, v.testBit b = if (mask % 2 ^ 19).testBit b then value.testBit b else (bankReg e.live .SEC_CTRL 0 0).testBit b) ∧
        bankReg w.live .SEC_CTRL 0 0 = v ∧
        (∀ b, (bankReg w.live .SEC_STATUS 0 0).testBit b = ((bankReg e.live .SEC_STATUS 0 0).testBit b &&
          (!(clear % 2 ^ 6).testBit b || noted e (regKey .SEC_STATUS 0 0) b))) ∧
        regsKept e w [regKey .SEC_CTRL 0 0, regKey .SEC_STATUS 0 0] ∧ { w with live := e.live } = e ∧
        exec (.secConfig t ch tag value mask clear) s = .next (
          if ¬ ∀ f ∈ regFields .SEC_CTRL, fieldValueOk f (bitsOf v f.lo f.width) = true then
            answer (audit e 0x0C9C ch 4) ch tag false (failMsg 4)
          else if (bankReg e.live .SEC_CTRL 0 0).testBit 0 = true ∧ v.testBit 0 = true ∧
              ((mask.testBit 1 = true ∧ v.testBit 1 = true) ∨ (bitsOf (mask % 2 ^ 19) 2 12 ≠ 0 ∧ 3600 < bitsOf v 2 12)) then
            answer (audit e 0x0C9C ch 5) ch tag false (failMsg 5)
          else answer (audit (noteCertified w) 0x0C9C ch 0) ch tag false (okMsg (leBytes 4 (secStatus (noteCertified w)))))) ∧
    (∀ scope e, secActs s0 ch 0x1D tag false true 1 = true → e = secEntered s0 ch 0x1D tag →
      ((scope = 0 ∨ 2 < scope) →
        exec (.debugChallenge t ch tag scope) s = .next (answer (audit e 0x0C9D ch 4) ch tag false (failMsg 4))) ∧
      (1 ≤ scope → scope ≤ 2 → e.sec.rngFailed = true →
        exec (.debugChallenge t ch tag scope) s = .next (answer (audit e 0x0C9D ch 14) ch tag false (failMsg 14))) ∧
      (1 ≤ scope → scope ≤ 2 → e.sec.rngFailed = false → ∃ c, c < 2 ^ 256 ∧ exec (.debugChallenge t ch tag scope) s = .next (
        answer (audit { e with freeCtr := e.freeCtr + 1, sec := { e.sec with challenge := some (c, now e) } } 0x0C9D ch 0) ch tag false
          (okMsg (leBytes 32 c))))) ∧
    (∀ scope token e, secActs s0 ch 0x1D tag false true 2 = true → e = secEntered s0 ch 0x1D tag → 1 ≤ scope → scope ≤ 2 →
      (liveFld e Fld.SEC_CTRL_CERT_MODE = 1 →
        exec (.debugUnlock t ch tag scope token) s = .next (answer (audit e 0x0C9D ch 5) ch tag false (failMsg 5))) ∧
      (liveFld e Fld.SEC_CTRL_CERT_MODE = 0 → ∀ c at', e.sec.challenge = some (c, at') →
        exec (.debugUnlock t ch tag scope token) s = .next (
          let v := { e with sec := { e.sec with challenge := none } }
          let w := { v with sec := { v.sec with scopes := e.sec.scopes ||| scope } }
          if now e ≤ at' + 60000000000 ∧
              Config.sigOk Config.debugKey (leBytes 16 Config.serial ++ leBytes 32 c ++ leBytes 1 scope) token = true then
            answer (audit (noteCertified (audit (raise w 0x0C0C (chanBit ch) scope) 0x0C0C ch scope)) 0x0C9D ch 0) ch tag false okMsg
          else answer (audit v 0x0C9D ch 7) ch tag false (failMsg 7))) ∧
      (liveFld e Fld.SEC_CTRL_CERT_MODE = 0 → e.sec.challenge = none →
        exec (.debugUnlock t ch tag scope token) s = .next (answer (audit e 0x0C9D ch 7) ch tag false (failMsg 7)))) ∧
    (∀ count seq e, secActs s0 ch 0x1E tag false true 1 = true → e = secEntered s0 ch 0x1E tag →
      exec (.auditRead t ch tag count seq) s = .next (if 1 ≤ count ∧ count ≤ 3 then answer (audit e 0x0C9E ch 0) ch tag false
          (okMsg (((e.sec.audit.filter fun a => decide (seq ≤ a.seq)).take count).flatMap auditBytes))
        else answer (audit e 0x0C9E ch 4) ch tag false (failMsg 4))) ∧
    (∀ nonce e, secActs s0 ch 0x1E tag false true 2 = true → e = secEntered s0 ch 0x1E tag →
      (e.sec.scopes ≠ 0 → exec (.auditSign t ch tag nonce) s = .next (answer (audit e 0x0C9E ch 5) ch tag false (failMsg 5))) ∧
      (e.sec.scopes = 0 → ∀ a, e.sec.audit.getLast? = some a →
        let head := leBytes 4 (liveFld e Fld.SEC_AUDIT_NEWEST_SEQ) ++ leBytes 48 (Config.sha384 (auditBytes a))
        exec (.auditSign t ch tag nonce) s = .next (answer (audit e 0x0C9E ch 0) ch tag false
          (okMsg (head ++ bytesAt (Config.deviceSign (head ++ nonce)) 0 96))))) ∧
    (∀ seq e, secActs s0 ch 0x1E tag false true 3 = true → e = secEntered s0 ch 0x1E tag →
      (liveFld e Fld.SEC_AUDIT_NEWEST_SEQ < seq →
        exec (.auditAcknowledge t ch tag seq) s = .next (answer (audit e 0x0C9E ch 4) ch tag false (failMsg 4))) ∧
      (seq ≤ liveFld e Fld.SEC_AUDIT_NEWEST_SEQ → ∃ u,
        exec (.auditAcknowledge t ch tag seq) s = .next (answer (audit u 0x0C9E ch 0) ch tag false okMsg) ∧
        liveFld u Fld.SEC_AUDIT_ACKED_SEQ = Nat.max seq (liveFld e Fld.SEC_AUDIT_ACKED_SEQ) ∧
        liveFld u Fld.SEC_AUDIT_NEWEST_SEQ = liveFld e Fld.SEC_AUDIT_NEWEST_SEQ ∧ regsKept e u [regKey .SEC_AUDIT 0 0] ∧
        { u with live := e.live } = e)) ∧
    (∀ (w : State) code k result, banksOk w = true → ∃ a, (audit w code k result).sec.audit.getLast? = some a ∧ a.code = code ∧
      a.result = result ∧ a.time = now w ∧ a.seq = (liveFld w Fld.SEC_AUDIT_NEWEST_SEQ + 1) % 2 ^ 32 ∧
      liveFld (audit w code k result) Fld.SEC_AUDIT_NEWEST_SEQ = a.seq) ∧
    (∀ d : Fin 4, serving s0 = true → fld s0 Fld.SEC_CTRL_GLITCH_EN ≠ 0 →
      let w := endSecure (endSecure (abandonSetup (abandonSetup s0 4) 5) 4 6) 5 6
      ∃ u, exec (.glitch t d) s = .next u ∧ u.pair.keys = none ∧
        (s0.pair.capable = true → s0.thm.tripped = false → .peer .setup ∈ u.out) ∧ stickyOn u Fld.SEC_STATUS_GLITCH = true ∧
        (∀ k, k = 4 ∨ k = 5 → (secSession u k).stage ≠ 1 ∧ (secSession u k).stage ≠ 2) ∧
        liveFld u Fld.SEC_GLITCH_GLITCHES = Nat.min 65535 (liveFld w Fld.SEC_GLITCH_GLITCHES + 1) ∧
        ⟨now s0, 0x0C0A, d.val + 1, d.val + 1⟩ ∈ u.host.queued ∧
        (lockedOut w = false → lockedOut u = true →
          ⟨now s0, 0x0C0B, 0, Nat.min 65535 (liveFld w Fld.SEC_GLITCH_GLITCHES + 1)⟩ ∈ u.host.queued)) ∧
    (∀ test : Fin 2, serving s0 = true → ∃ v, exec (.rngFail t test) s = .next (noteCertified v) ∧
      Reported { s0 with sec := { s0.sec with rngFailed := true } } v Fld.SEC_STATUS_RNG_FAIL 0 0 ⟨now s0, 0x0C09, 0, test.val + 1⟩) ∧
    (∀ x : JtagInstr, ∃ u, exec (.jtagInstruction t x) s = .next u ∧ { u with sec := { u.sec with jtag := s0.sec.jtag } } = s0 ∧
      ((x = .idcode ∨ x = .bypass ∨ x = .sample) → u.sec.jtag = x) ∧ (x = .other → u.sec.jtag = .bypass) ∧
      ((x = .extest ∨ x = .clamp ∨ x = .highz) →
        u.sec.jtag = if s0.sys.st = .recovery ∨ s0.sec.scopes.testBit 0 = true then x else .bypass))

/-- Power-on of an unpowered module begins the stretch of the reset with POR alone set; loss of the supply leaves what MRAM
holds and no image. RESET_N low for less than 1 µs is ignored; from 1.5 µs on it is a reset, after which the log, the audit log
and the snapshot stand, the strips of the store stand unread, and the outputs are at rest; a reset is released no sooner than 2
ms and 10 µs later, and then device time and the pick begin again in BOOT. The watchdog and a lockstep mismatch reset the module
and are kept for the next start. The end of self-refresh clears WARM_OK; WARM_ARM outside RECOVERY and a job sets it for 10 s. -/
def Obligations.Resets : Prop :=
  ∀ (s : State) (t : Nat), banksOk s = true →
    let s0 := begin s t
    let down (u : State) (free : Nat) : Prop := u.sys = { st := .reset } ∧ u.rst.prev = s0.sys.st ∧ u.rst.free = free ∧ u.job = {} ∧
      u.host.log = s0.host.log ∧ u.sec.audit = s0.sec.audit ∧ u.sets = { snapshot := s0.sets.snapshot } ∧
      u.store.strips = s0.store.strips.map (fun y => { y with refs := 0 }) ∧ u.pair.lease = false ∧
      u.time = { s0.time with ppsOut := none, camOut := [false, false] } ∧ u.out.getLast? = some (.pin "RESET_N" false) ∧ Output.pin "READY" false ∈ u.out ∧
      (s0.pair.lease = true → Output.pin "PAIR_LEASE" false ∈ u.out)
    (s0.sys.st = .off → ∃ u, exec (.powerOn t) s = .next u ∧ u.sys = { s0.sys with st := .reset } ∧
      u.rst = { s0.rst with prev := .off, free := s0.time.counter + 2010000 } ∧ liveFld u Fld.RST_CAUSE_POR = 1 ∧
      liveFld u Fld.RST_CAUSE_PIN_EXT = 0 ∧ liveFld u Fld.RST_CAUSE_PIN_SELF = 0 ∧ liveFld u Fld.RST_CAUSE_WARM_OK = 0 ∧
      regsKept s0 u [regKey .RST_CAUSE 0 0] ∧ u.out = s0.out ++ [.pin "RESET_N" false]) ∧
    (s0.sys.st ≠ .off → ∃ u, exec (.vinBelowPor t) s = .next u ∧ u.sys.st = .off ∧ u.host.log = s0.host.log ∧
      u.sec.audit = s0.sec.audit ∧ u.sets = { snapshot := s0.sets.snapshot } ∧ u.store.images = [] ∧ u.store.strips = [] ∧
      u.job = {} ∧ u.sec.owner = s0.sec.owner ∧ u.sec.roots = s0.sec.roots) ∧
    (∀ ns taken, s0.rst.restart = none →
      ((ns < 1000 ∨ (ns < 1500 ∧ taken = false)) → exec (.resetNLow t ns taken) s = .next s0) ∧
      ((1500 ≤ ns ∨ (1000 ≤ ns ∧ taken = true)) → s0.sys.st ≠ .off → s0.sys.st ≠ .reset →
        ∃ u, exec (.resetNLow t ns taken) s = .next u ∧
          down u (Nat.max (s0.time.counter + 2000000) (s0.time.counter + (ns - 1500)) + 10000)) ∧
      (1500 ≤ ns → s0.sys.st = .reset → ∃ u, exec (.resetNLow t ns taken) s = .next u ∧ liveFld u Fld.RST_CAUSE_PIN_EXT = 1 ∧
        u.rst = { s0.rst with free := Nat.max s0.rst.free (s0.time.counter + (ns - 1500) + 10000) } ∧
        { u with live := s0.live, rst := s0.rst } = s0)) ∧
    (restartDue s0 = true → s0.sys.st ≠ .off → s0.sys.st ≠ .reset → ∀ taken, ∃ u, exec (.resetNLow t 0 taken) s = .next u ∧
      down u (Nat.max (s0.time.counter + 2000000) 0 + 10000)) ∧
    (s0.sys.st = .reset → ∃ u, exec (.selfRefreshTimeout t) s = .next u ∧ liveFld u Fld.RST_CAUSE_WARM_OK = 0 ∧
      regsKept s0 u [regKey .RST_CAUSE 0 0] ∧ { u with live := s0.live } = s0) ∧
    (s0.sys.st = .reset → s0.rst.free ≤ s0.time.counter → ∃ u, exec (.resetRelease t) s = .next u ∧ u.sys = { st := .boot } ∧
      u.time = {} ∧ u.rst = { s0.rst with warm := liveFld s0 Fld.RST_CAUSE_WARM_OK == 1 } ∧ liveFld u Fld.RST_CAUSE_WARM_OK = 0 ∧
      u.out = s0.out ++ [.pin "RESET_N" true] ∧
      { u with live := s0.live, sys := s0.sys, time := s0.time, rst := s0.rst, pwr := s0.pwr, out := s0.out } = s0) ∧
    ((s0.sys.st ≠ .reset ∨ s0.time.counter < s0.rst.free) → exec (.resetRelease t) s = .next s0) ∧
    (s0.sys.st ≠ .off → s0.sys.st ≠ .reset →
      (∃ u, exec (.watchdogExpire t) s = .next u ∧ u.rst.fatal = some 6 ∧ down u (Nat.max (s0.time.counter + 2000000) 0 + 10000)) ∧
      (∃ u, exec (.lockstepMismatch t) s = .next u ∧ u.rst.fatal = some 7 ∧ down u (Nat.max (s0.time.counter + 2000000) 0 + 10000))) ∧
    (∀ (ch : Fin 6) tag e, acts s0 ch 1 2 tag true true = true → e = entered s0 ch 1 2 tag →
      ((jobOn e = true ∨ e.sys.st = .recovery) → exec (.warmArm t ch tag) s = .next (answer e ch tag true (failMsg 5))) ∧
      (jobOn e = false → e.sys.st ≠ .recovery → ∃ u, exec (.warmArm t ch tag) s = .next (answer u ch tag true okMsg) ∧
        u.rst = { e.rst with armedAt := some (now e) } ∧ liveFld u Fld.RST_CAUSE_WARM_OK = 1 ∧
        regsKept e u [regKey .RST_CAUSE 0 0] ∧ { u with rst := e.rst, live := e.live } = e)) ∧
    (∀ a, s0.rst.armedAt = some a →
      (now s0 < a + 10000000000 → exec (.warmArmExpire t) s = .next s0) ∧
      (a + 10000000000 ≤ now s0 → ∃ u, exec (.warmArmExpire t) s = .next u ∧ u.rst = { s0.rst with armedAt := none } ∧
        liveFld u Fld.RST_CAUSE_WARM_OK = 0 ∧ { u with rst := s0.rst, live := s0.live } = s0))

/-- A start takes place in BOOT alone. It ends in READY, in RECOVERY or in the reset of a failed start: without CLK_IN in reset;
where the fuses fail three times, the strap lies between bands, the failed starts have reached their limit or the strap asks for
it, in RECOVERY. A start that has not reached READY 5 s after the release fails, which the next start reports. -/
def Obligations.Starts : Prop :=
  ∀ (s : State) (t : Nat) (info : StartInfo),
    let s0 := begin s t
    let s1 := stepStrap (stepFuses s0 info) info
    (s0.sys.st ≠ .boot → exec (.start t info) s = .next s0 ∧ exec (.startTimeout t) s = .next s0) ∧
    (s0.sys.st = .boot →
      (info.clock = false → ∃ u, exec (.start t info) s = .next u ∧ u.sys.st = .reset ∧ u.rst.failed = true) ∧
      (info.clock = true →
        (3 ≤ info.fuseFails ∨ strapOf info.strap = none ∨
          liveFld s1 Fld.RST_START_FAILS_FAILED_START_LIMIT ≤ liveFld s1 Fld.RST_START_FAILS_START_FAILS ∨
          ∃ c, strapOf info.strap = some c ∧ c.testBit 3 = true) →
        ∃ u, exec (.start t info) s = .next u ∧ u.sys.st = .recovery ∧ u.host.queued = []) ∧
      (∃ u, exec (.start t info) s = .next u ∧ (u.sys.st = .ready ∨ u.sys.st = .recovery ∨ u.sys.st = .reset)) ∧
      (now s0 < 5000000000 → exec (.startTimeout t) s = .next s0) ∧
      (5000000000 ≤ now s0 → ∃ u, exec (.startTimeout t) s = .next u ∧ u.sys.st = .reset ∧ u.rst.failed = true))

/-- While the firmware runs a fatal fault is written to the persistent log with event 0x0109 and then ends in a reset, but for
an uncorrectable SRAM error in a pair, which ends in an orderly stop with cause 7 after the lease is released. A rail fault sets
RAIL_FAULT, its own event 0x0E07 goes to the log, and it ends as a fatal fault. While the firmware does not run nothing happens. -/
def Obligations.FatalFaults : Prop :=
  ∀ (s : State) (t : Nat), banksOk s = true →
    let s0 := begin s t
    (∀ b : Fin 5,
      (serving s0 = false → exec (.fatalFault t b) s = .next s0) ∧
      (serving s0 = true → (b.val ≠ 3 ∨ s0.pair.role = .solo) → ∃ u, exec (.fatalFault t b) s = .next u ∧ u.sys.st = .reset ∧
        u.pair.lease = false ∧ u.host.log.getLast? = some ⟨s0.host.logNext, ⟨now s0, 0x0109, 0, b.val + 1⟩⟩) ∧
      (serving s0 = true → b.val = 3 → s0.pair.role ≠ .solo → ∃ v, exec (.fatalFault t b) s = .next (orderlyStop v 7) ∧
        v.host.log.getLast? = some ⟨s0.host.logNext, ⟨now s0, 0x0109, 0, 4⟩⟩ ∧
        (s0.pair.role = .active → v.pair.lease = false) ∧ v.sys = s0.sys ∧ v.job = s0.job)) ∧
    (∀ rail : Fin 16,
      (serving s0 = false → exec (.railFault t rail) s = .next s0) ∧
      (serving s0 = true → s0.host.logged ≤ s0.host.queued.length → ∃ v, exec (.railFault t rail) s =
          .next (fatal v (if rail.val = 0 then 1 else 0)) ∧ stickyOn v Fld.PWR_STATUS_RAIL_FAULT = true ∧
        (v.host.log.getLast?.map (·.ev)) = some ⟨now s0, 0x0E07, 0, rail⟩ ∧
        v.host.queued = s0.host.queued ++ [⟨now s0, 0x0E07, 0, rail⟩] ∧ v.host.logged = v.host.queued.length))

/-- A warning that asserts more than 100 µs after the last one ended is in force, lowers VIN_MIN_MV, keeps the pending counts in
MRAM, sets VIN_WARN, is counted and raises event 0x0E01; one within 100 µs continues the last. A warning in force changes
nothing. Its end records its length in microseconds with event 0x0E02. One of 10 ms sets VIN_STOP with event 0x0E03 and stops
the unit in order with cause 5, unless it is a standby. VIN above its range sets VIN_HIGH with event 0x0E04, whatever its voltage;
that it does so above the absolute maximum rating too is the model's choice (log 72). A trip of the electronic fuse takes the supply
and is kept for the next start. -/
def Obligations.SupplyWarnings : Prop :=
  ∀ (s : State) (t mv : Nat), banksOk s = true →
    let s0 := begin s t
    let low := Nat.min (liveFld s0 Fld.PWR_VIN_VIN_MIN_MV) (Nat.min (2 ^ 16 - 1) mv)
    ((s0.sys.st = .off ∨ s0.pwr.warning = true) → exec (.vinWarn t mv) s = .next s0) ∧
    (s0.sys.st ≠ .off → s0.pwr.warning = false → ∀ e, s0.pwr.warnEnd = some e → (s0.time.counter : Int) ≤ e + 100000 →
      ∃ u, exec (.vinWarn t mv) s = .next u ∧ u.pwr = { s0.pwr with warning := true } ∧ liveFld u Fld.PWR_VIN_VIN_MIN_MV = low ∧
        regsKept s0 u [regKey .PWR_VIN 0 0] ∧ { u with live := s0.live, pwr := s0.pwr } = s0) ∧
    (s0.sys.st ≠ .off → s0.sys.st ≠ .reset → s0.pwr.warning = false →
      (∀ e, s0.pwr.warnEnd = some e → e + 100000 < (s0.time.counter : Int)) →
      ∃ u, exec (.vinWarn t mv) s = .next u ∧
        u.pwr = { s0.pwr with warning := true, warnFrom := s0.time.counter, stopped := false } ∧
        liveFld u Fld.PWR_VIN_VIN_MIN_MV = low ∧ stickyOn u Fld.PWR_STATUS_VIN_WARN = true ∧
        liveFld u Fld.PWR_WARN_WARN_COUNT = (liveFld s0 Fld.PWR_WARN_WARN_COUNT + 1) % 2 ^ 32 ∧
        u.host.queued = s0.host.queued ++ [⟨now s0, 0x0E01, 0, mv % 2 ^ 32⟩] ∧
        (∀ i, i < 512 → bankLookup u.rst.pend (regKey .FIR_HEAD_PENDING i 0) = bankLookup s0.live (regKey .FIR_HEAD_PENDING i 0)) ∧
        u.host.logged = s0.host.queued.length ∧
        regsKeptBut s0 u [regKey .PWR_VIN 0 0, regKey .PWR_STATUS 0 0, regKey .PWR_WARN 0 0]) ∧
    (s0.pwr.warning = true → s0.sys.st ≠ .reset →
      let us := (((s0.time.counter : Int) - s0.pwr.warnFrom) / 1000).toNat
      ∃ u, exec (.vinWarnEnd t) s = .next u ∧ u.pwr = { s0.pwr with warning := false, warnEnd := some (s0.time.counter : Int) } ∧
        liveFld u Fld.PWR_WARN_LAST_WARN_LAST = Nat.min (2 ^ 32 - 1) us ∧ regsKept s0 u [regKey .PWR_WARN_LAST 0 0] ∧
        u.host = { s0.host with queued := s0.host.queued ++ [⟨now s0, 0x0E02, 0, us % 2 ^ 32⟩] } ∧
        { u with pwr := s0.pwr, live := s0.live, host := s0.host } = s0) ∧
    (s0.pwr.warning = false → exec (.vinWarnEnd t) s = .next s0) ∧
    (s0.pwr.warning = true → s0.pwr.stopped = false → s0.pwr.warnFrom + 10000000 ≤ (s0.time.counter : Int) → serving s0 = true →
      ∃ v, exec (.vinWarnStop t) s = .next (if s0.pair.role = .standby then v else orderlyStop v 5) ∧
        Reported { s0 with pwr := { s0.pwr with stopped := true } } v Fld.PWR_STATUS_VIN_STOP 0 0
          ⟨now s0, 0x0E03, 0, liveFld s0 Fld.PWR_VIN_VIN_MIN_MV⟩) ∧
    ((s0.pwr.warning = false ∨ s0.pwr.stopped = true ∨ (s0.time.counter : Int) < s0.pwr.warnFrom + 10000000) →
      exec (.vinWarnStop t) s = .next s0) ∧
    (barOpen s0 = true → ∃ u, exec (.vinHigh t mv) s = .next u ∧
      Reported s0 u Fld.PWR_STATUS_VIN_HIGH 0 0 ⟨now s0, 0x0E04, 0, mv % 2 ^ 32⟩) ∧
    (barOpen s0 = false → exec (.vinHigh t mv) s = .next s0) ∧
    (s0.sys.st ≠ .off → ∃ u, exec (.inputTrip t) s = .next u ∧ u.sys.st = .off ∧ u.pwr = { tripped := true } ∧
      u.host.log = s0.host.log)

/-- An overload of VENC_OUT folds its limit back, with VENC_FAULT and event 0x0E05, cause 1; 100 ms later the limit is full
again when the overload has gone, and folds back and reports once more when it has not. A feed from outside above 5.3 V turns
the output off with cause 2, in reset without a report; that it does so above the absolute maximum rating too is the model's choice
(log 72). A driven output that reads back wrong is reported once with OUT_SHORT and event 0x0E08; the heartbeat output counts as a failed
slice as well. -/
def Obligations.OutputFaults : Prop :=
  ∀ (s : State) (t : Nat), banksOk s = true →
    let s0 := begin s t
    let c := s0.time.counter
    (vencOn s0 = true → s0.pwr.folded = none → barOpen s0 = true → ∃ u, exec (.vencOverload t) s = .next u ∧
      Reported { s0 with pwr := { s0.pwr with folded := some (c : Int) } } u Fld.PWR_STATUS_VENC_FAULT 0 0 ⟨now s0, 0x0E05, 0, 1⟩) ∧
    ((vencOn s0 = false ∨ s0.pwr.folded.isSome = true) → exec (.vencOverload t) s = .next s0) ∧
    (∀ f, s0.pwr.folded = some f →
      (∀ ok, (c : Int) < f + 100000000 → exec (.vencRetry t ok) s = .next s0) ∧
      (f + 100000000 ≤ (c : Int) → exec (.vencRetry t true) s = .next { s0 with pwr := { s0.pwr with folded := none } }) ∧
      (f + 100000000 ≤ (c : Int) → vencOn s0 = true → barOpen s0 = true → ∃ u, exec (.vencRetry t false) s = .next u ∧
        Reported { s0 with pwr := { s0.pwr with folded := some (c : Int) } } u Fld.PWR_STATUS_VENC_FAULT 0 0
          ⟨now s0, 0x0E05, 0, 1⟩)) ∧
    (∀ mv, (mv ≤ 5300 → exec (.vencBackfeed t mv) s = .next s0) ∧
      (5300 < mv → s0.pwr.fed = false → barOpen s0 = true → ∃ u, exec (.vencBackfeed t mv) s = .next u ∧
        Reported { s0 with pwr := { s0.pwr with fed := true } } u Fld.PWR_STATUS_VENC_FAULT 0 0 ⟨now s0, 0x0E05, 0, 2⟩ ∧
        vencOn u = false) ∧
      (5300 < mv → s0.pwr.fed = false → s0.sys.st = .reset →
        exec (.vencBackfeed t mv) s = .next { s0 with pwr := { s0.pwr with fed := true } }) ∧
      ((s0.pwr.fed = true ∨ s0.sys.st = .off) → exec (.vencBackfeed t mv) s = .next s0)) ∧
    (∀ k : Fin 32,
      ((drivenOut s0 k = false ∨ k.val ∈ s0.pwr.shorts) → exec (.outShort t k) s = .next s0) ∧
      (serving s0 = true → drivenOut s0 k = true → k.val ∉ s0.pwr.shorts →
        ∃ v, exec (.outShort t k) s = .next (if k.val = 2 then asFailedSlice v else v) ∧
          Reported { s0 with pwr := { s0.pwr with shorts := s0.pwr.shorts ++ [k.val] } } v Fld.PWR_STATUS_OUT_SHORT 0 0
            ⟨now s0, 0x0E08, 0, k⟩))

/-- A watched sensor at 123 °C trips the hardware once: the lease and the heartbeat are gone and STANDBY is forced, and the
firmware reports it with TRIPPED and event 0x0D04, when it runs or once it does. A throttle level falls by one once the picks below its hysteresis have
reached THROTTLE_HOLD and no sensor is excluded, with event 0x0D02. A write that clears bits of THM_SENSOR_FAIL starts the re-
admission of their sensors and no others; a sensor that has passed 64 picks with its bit clear is excluded no more, with event
0x0D05. -/
def Obligations.Temperature : Prop :=
  ∀ (s : State) (t : Nat), banksOk s = true →
    let s0 := begin s t
    (∀ (k : Fin 16) (temp : Int),
      (barOpen s0 = true → watched k = true → (sensor s0 k).excluded = false → 984 ≤ temp → s0.thm.tripped = false →
        ∃ w, exec (.thermalTrip t k temp) s = .next (reportTrip w) ∧ w.thm.tripNote = some (k.val, temp) ∧ w.thm.tripped = true ∧
          w.pair.lease = false ∧
          w.pair.hbRun = false ∧ w.pair.hbOut = false ∧ w.pair.forceStandby = true) ∧
      ((watched k = false ∨ (sensor s0 k).excluded = true ∨ temp < 984 ∨ s0.thm.tripped = true) →
        exec (.thermalTrip t k temp) s = .next s0)) ∧
    (∀ w : State, serving w = false ∨ w.thm.tripNote = none → reportTrip w = w) ∧
    (∀ (w : State) (k : Nat) (temp : Int), banksOk w = true → serving w = true → w.thm.tripNote = some (k, temp) →
      ∃ v, reportTrip w = tripEnd v ∧ Reported { w with thm := { w.thm with tripNote := none } } v Fld.THM_STATUS_TRIPPED 0 0 ⟨now w, 0x0D04, k, unsignedOf 32 temp⟩) ∧
    (throttle s0 ≠ 0 → fld s0 Fld.THM_HOLD_THROTTLE_HOLD ≤ s0.thm.below → (∀ y ∈ s0.thm.sensors, y.excluded = false) →
      ∃ u, exec (.throttleFall t) s = .next (if throttle s0 = 1 ∧ s0.link.scanDue = true then startEye u else u) ∧
        throttle u = throttle s0 - 1 ∧ u.thm = { s0.thm with below := 0 } ∧
        u.host.queued = s0.host.queued ++ [⟨now s0, 0x0D02, 0, throttle s0 - 1 + 256 * unsignedOf 8 ((hottest s0).1 / 8)⟩] ∧
        regsKeptBut s0 u [regKey .THM_STATUS 0 0]) ∧
    ((throttle s0 = 0 ∨ s0.thm.below < fld s0 Fld.THM_HOLD_THROTTLE_HOLD ∨ ∃ y ∈ s0.thm.sensors, y.excluded = true) →
      exec (.throttleFall t) s = .next s0) ∧
    (∀ (ch : Fin 6) tag bits e, acts s0 ch 1 2 tag true true = true → e = entered s0 ch 1 2 tag → 16 ≤ e.thm.sensors.length →
      ∃ u, exec (.sensorFailWrite t ch tag bits) s = .next (answer u ch tag true okMsg) ∧
        (∀ b, b < 16 → (liveFld u Fld.THM_SENSOR_FAIL_SENSOR_FAIL_BITS).testBit b =
          ((liveFld e Fld.THM_SENSOR_FAIL_SENSOR_FAIL_BITS).testBit b &&
            (!bits.testBit b || noted e (regKey .THM_SENSOR_FAIL 0 0) b))) ∧
        (∀ k, k < 16 → sensor u k = if bits.testBit k ∧ noted e (regKey .THM_SENSOR_FAIL 0 0) k = false ∧
            (liveFld e Fld.THM_SENSOR_FAIL_SENSOR_FAIL_BITS).testBit k then
          { sensor e k with passed := some 0 } else sensor e k) ∧
        regsKept e u [regKey .THM_SENSOR_FAIL 0 0] ∧ { u with live := e.live, thm := { u.thm with sensors := e.thm.sensors } } = e) ∧
    (∀ (k : Fin 16) n, (sensor s0 k).passed = some n → k < s0.thm.sensors.length →
      let clear := (liveFld s0 Fld.THM_SENSOR_FAIL_SENSOR_FAIL_BITS).testBit k = false
      ((sensor s0 k).excluded = true → 64 ≤ n → clear → ∃ v, exec (.sensorReadmitted t k) s = .next (noteMax (settleValues v)) ∧
        sensor v k = { sensor s0 k with excluded := false, passed := none } ∧ (∀ j, j ≠ k.val → sensor v j = sensor s0 j) ∧
        v.host.queued = s0.host.queued ++ [⟨now s0, 0x0D05, k, unsignedOf 32 (sensor s0 k).reading⟩]) ∧
      (((sensor s0 k).excluded = false ∨ n < 64 ∨ ¬ clear) → exec (.sensorReadmitted t k) s = .next s0))

/-- While the firmware runs the target answers a read with the device state, the role, THM_MAX in whole °C, FAULT_SUMMARY and
the throttle level, each in its bytes, and changes nothing else; before, it answers nothing. While a throttle level stands or
an unmasked fault bit does, it answers an alert response with its address, 0x4D for unit B and for a unit whose strap gave no
code, 0x4C otherwise; with neither it does not answer. A time-out of the bus changes nothing. -/
def Obligations.ManagementPort : Prop :=
  ∀ (s : State) (t : Nat),
    let s0 := begin s t
    let say (bs : List Byte) : State := { s0 with out := s0.out ++ [.smbus bs] }
    (serving s0 = true →
      exec (.mgReadState t) s = .next (say (leBytes 1 (stateCode s0.sys.st))) ∧
      exec (.mgReadRole t) s = .next (say (leBytes 1 (roleCode s0.pair.role + 4 * bit s0.pair.unitB + 8 * bit s0.pair.lease +
        16 * bit s0.pair.peerUp + 32 * bit s0.pair.hbOk))) ∧
      exec (.mgReadTemp t) s = .next (say (leBytes 1 (unsignedOf 8 (satSigned 8 (signedOf 16 (liveFld s0 Fld.THM_MAX_MAX) / 8))))) ∧
      exec (.mgReadFaults t) s = .next (say (leBytes 4 (2 * liveFld s0 Fld.FAULT_SUMMARY_SUBSYSTEM))) ∧
      exec (.mgReadLevel t) s = .next (say (leBytes 1 (liveFld s0 Fld.THM_STATUS_LEVEL)))) ∧
    (serving s0 = false → exec (.mgReadState t) s = .next s0 ∧ exec (.mgReadRole t) s = .next s0 ∧
      exec (.mgReadTemp t) s = .next s0 ∧ exec (.mgReadFaults t) s = .next s0 ∧ exec (.mgReadLevel t) s = .next s0 ∧
      exec (.mgAlertResponse t) s = .next s0) ∧
    (let open' := ∃ k, k < 18 ∧ (liveFld s0 Fld.FAULT_SUMMARY_SUBSYSTEM).testBit k = true ∧
        (liveFld s0 Fld.FAULT_MASK_MASK).testBit (k + 1) = false
     (serving s0 = true → (liveFld s0 Fld.THM_STATUS_LEVEL ≠ 0 ∨ open') → exec (.mgAlertResponse t) s = .next
        (say [if s0.pair.unitB = true ∨ s0.rst.both = true then 0x9A else 0x98])) ∧
     (liveFld s0 Fld.THM_STATUS_LEVEL = 0 → ¬ open' → exec (.mgAlertResponse t) s = .next s0)) ∧
    exec (.mgBusTimeout t) s = .next s0
end

