-- ==== Sys2Proof/Laws/Bank.lean ====
section
/-!
SUPPORT. The laws of a register bank: writing one register keeps the canonical form, a read after a write gives what was
written, and a write leaves every other register alone.
-/
namespace Sys2Proof.Laws

open Sys2Proof.Machine

/-- Every key of a bank lies above a bound. -/
def keysAbove (k : Nat) (b : Bank) : Prop := ∀ e ∈ b, k < e.1

theorem bankWf_cons (k v : Nat) (b : Bank) : bankWf ((k, v) :: b) = true ↔ v ≠ keyReset k ∧ keysAbove k b ∧ bankWf b = true := by
  induction b generalizing k v with
  | nil => simp [bankWf, keysAbove]
  | cons e rest ih =>
    obtain ⟨k', v'⟩ := e
    have h := ih k' v'
    simp only [bankWf, Bool.and_eq_true, bne_iff_ne, decide_eq_true_eq]
    constructor
    · rintro ⟨⟨hv, hk⟩, hw⟩
      refine ⟨hv, ?_, hw⟩
      intro e he
      rcases List.mem_cons.mp he with rfl | he
      · exact hk
      · exact lt_trans hk ((h.mp hw).2.1 e he)
    · rintro ⟨hv, hk, hw⟩
      exact ⟨⟨hv, hk _ (List.mem_cons_self ..)⟩, hw⟩

theorem keysAbove_bankWrite {j k v : Nat} {b : Bank} (h : keysAbove j b) (hk : j < k) : keysAbove j (bankWrite b k v) := by
  induction b with
  | nil =>
    unfold bankWrite
    split <;> simp [keysAbove, hk]
  | cons e rest ih =>
    obtain ⟨k', v'⟩ := e
    have hr : keysAbove j rest := fun e he => h e (List.mem_cons_of_mem _ he)
    have h0 : j < k' := h _ (List.mem_cons_self ..)
    unfold bankWrite
    split_ifs
    · exact h
    · intro e he; rcases List.mem_cons.mp he with rfl | he
      · exact hk
      · exact h e he
    · exact hr
    · intro e he; rcases List.mem_cons.mp he with rfl | he
      · exact hk
      · exact hr e he
    · intro e he; rcases List.mem_cons.mp he with rfl | he
      · exact h0
      · exact ih hr e he

/-- A write keeps the canonical form. -/
theorem bankWf_bankWrite {b : Bank} (h : bankWf b = true) (k v : Nat) : bankWf (bankWrite b k v) = true := by
  induction b with
  | nil =>
    unfold bankWrite
    split <;> simp_all [bankWf]
  | cons e rest ih =>
    obtain ⟨k', v'⟩ := e
    have hc := (bankWf_cons k' v' rest).mp h
    unfold bankWrite
    split_ifs with h1 h2 h3 h4
    · exact h
    · refine (bankWf_cons k v _).mpr ⟨h2, ?_, h⟩
      intro e he; rcases List.mem_cons.mp he with rfl | he
      · exact h1
      · exact lt_trans h1 (hc.2.1 e he)
    · exact hc.2.2
    · subst h3; exact (bankWf_cons k v _).mpr ⟨h4, hc.2.1, hc.2.2⟩
    · exact (bankWf_cons k' v' _).mpr ⟨hc.1, keysAbove_bankWrite hc.2.1 (by omega), ih hc.2.2⟩

theorem bankLookup_below {k : Nat} {b : Bank} (h : keysAbove k b) : bankLookup b k = keyReset k := by
  cases b with
  | nil => rfl
  | cons e rest =>
    obtain ⟨k', v'⟩ := e
    have : k < k' := h _ (List.mem_cons_self ..)
    unfold bankLookup
    simp [this, show k' ≠ k by omega]

/-- A read after a write gives the value written. -/
theorem bankLookup_bankWrite {b : Bank} (h : bankWf b = true) (k v : Nat) : bankLookup (bankWrite b k v) k = v := by
  induction b with
  | nil =>
    unfold bankWrite
    split <;> simp_all [bankLookup]
  | cons e rest ih =>
    obtain ⟨k', v'⟩ := e
    have hc := (bankWf_cons k' v' rest).mp h
    unfold bankWrite
    split_ifs with h1 h2 h3 h4
    · rw [h2]; exact bankLookup_below fun e he => by
        rcases List.mem_cons.mp he with rfl | he
        · exact h1
        · exact lt_trans h1 (hc.2.1 e he)
    · simp [bankLookup]
    · subst h3; rw [h4]; exact bankLookup_below hc.2.1
    · simp [bankLookup]
    · unfold bankLookup
      simp only [show k' ≠ k by omega, if_false, show ¬ k < k' from h1]
      exact ih hc.2.2

/-- A write leaves every other key alone. -/
theorem bankLookup_bankWrite_ne {b : Bank} (h : bankWf b = true) {k j : Nat} (v : Nat) (hj : j ≠ k) :
    bankLookup (bankWrite b k v) j = bankLookup b j := by
  induction b with
  | nil =>
    unfold bankWrite
    split
    · rfl
    · simp only [bankLookup, show k ≠ j from hj.symm, if_false]; split <;> rfl
  | cons e rest ih =>
    obtain ⟨k', v'⟩ := e
    have hc := (bankWf_cons k' v' rest).mp h
    unfold bankWrite
    split_ifs with h1 h2 h3 h4
    · rfl
    · rw [bankLookup]
      simp only [hj.symm, if_false]
      split
      · rename_i hlt
        exact (bankLookup_below fun e he => by
          rcases List.mem_cons.mp he with rfl | he
          · omega
          · exact lt_trans (by omega) (hc.2.1 e he)).symm
      · rfl
    · subst h3
      rw [show bankLookup ((k, v') :: rest) j = if k = j then v' else if j < k then keyReset j else bankLookup rest j from rfl]
      simp only [hj.symm, if_false]
      split
      · exact bankLookup_below fun e he => lt_trans (by omega) (hc.2.1 e he)
      · rfl
    · subst h3
      simp only [bankLookup, hj.symm, if_false]
    · simp only [bankLookup]
      rw [ih hc.2.2]

/-- Leaving entries out keeps the canonical form. -/
theorem bankWf_filter {b : Bank} (h : bankWf b = true) (p : Nat × Nat → Bool) : bankWf (b.filter p) = true := by
  induction b with
  | nil => rfl
  | cons e rest ih =>
    obtain ⟨k, v⟩ := e
    have hc := (bankWf_cons k v rest).mp h
    by_cases hp : p (k, v) = true
    · rw [List.filter_cons_of_pos hp]
      exact (bankWf_cons k v _).mpr ⟨hc.1, fun e he => hc.2.1 e (List.mem_of_mem_filter he), ih hc.2.2⟩
    · rw [List.filter_cons_of_neg hp]; exact ih hc.2.2

theorem bankWf_bankSet {b : Bank} (h : bankWf b = true) (f : Field) (i v e : Nat) : bankWf (bankSet b f i v e) = true :=
  bankWf_bankWrite h _ _

theorem bankWf_foldl {α : Type} {f : Bank → α → Bank} (hf : ∀ b a, bankWf b = true → bankWf (f b a) = true) (l : List α) {b : Bank}
    (h : bankWf b = true) : bankWf (l.foldl f b) = true := by
  induction l generalizing b with
  | nil => exact h
  | cons a l ih => exact ih (hf _ _ h)

theorem bankWf_bankKeep {b : Bank} (h : bankWf b = true) (p : Reg → Bool) : bankWf (bankKeep b p) = true := bankWf_filter h _

end Sys2Proof.Laws
end

