-- ==== Sys2Proof/Laws/Bits.lean ====
section
/-!
SUPPORT. The bits of a word written through a mask.
-/
namespace Sys2Proof.Laws

/-- The lowest bit and the rest of a word written through a mask. -/
theorem mix_step (a m x : Nat) :
    ((a - (a &&& m)) + (x &&& m)) % 2 = (if m % 2 = 1 then x % 2 else a % 2) ∧
    ((a - (a &&& m)) + (x &&& m)) / 2 = (a / 2 - (a / 2 &&& m / 2)) + (x / 2 &&& m / 2) := by
  have h1 : (a &&& m) / 2 = a / 2 &&& m / 2 := Nat.and_div_two
  have h2 : (x &&& m) / 2 = x / 2 &&& m / 2 := Nat.and_div_two
  have h3 : (a &&& m) % 2 = a % 2 &&& m % 2 := by rw [show (2:Nat) = 2 ^ 1 from rfl, Nat.and_mod_two_pow]
  have h4 : (x &&& m) % 2 = x % 2 &&& m % 2 := by rw [show (2:Nat) = 2 ^ 1 from rfl, Nat.and_mod_two_pow]
  have h5 : a / 2 &&& m / 2 ≤ a / 2 := Nat.and_le_left
  have h6 : x / 2 &&& m / 2 ≤ x / 2 := Nat.and_le_left
  have h7 : a &&& m ≤ a := Nat.and_le_left
  rw [← h1, ← h2]
  generalize a &&& m = p at *
  generalize x &&& m = q at *
  have hm := Nat.mod_two_eq_zero_or_one m
  have ha := Nat.mod_two_eq_zero_or_one a
  have hx := Nat.mod_two_eq_zero_or_one x
  rcases hm with hm | hm <;> rcases ha with ha | ha <;> rcases hx with hx | hx <;> rw [hm, ha] at h3 <;> rw [hm, hx] at h4 <;>
    rw [hm, ha, hx] <;> norm_num at h3 h4 ⊢ <;> omega

/-- A word written through a mask has the bits of the value inside the mask and its own outside it. -/
theorem testBit_mix (b : Nat) : ∀ a m x : Nat,
    ((a - (a &&& m)) + (x &&& m)).testBit b = if m.testBit b then x.testBit b else a.testBit b := by
  induction b with
  | zero =>
    intro a m x
    simp only [Nat.testBit_zero, (mix_step a m x).1]
    by_cases h : m % 2 = 1 <;> simp [h]
  | succ b ih =>
    intro a m x
    simp only [Nat.testBit_add_one, (mix_step a m x).2]
    exact ih _ _ _

end Sys2Proof.Laws
end

