-- ==== Sys2Proof/Laws/KeepsBase.lean ====
section
/-!
SUPPORT. What every operation keeps: the queue of commands, and the canonical form of the register banks. One relation, with
the rules by which an operation built from others keeps it.
-/
namespace Sys2Proof.Laws

open Sys2Proof.Machine

/-- From `s` to `u` the queue is untouched and the banks stay canonical. -/
structure Keeps (s u : State) : Prop where
  queue : u.pending = s.pending
  banks : banksOk s = true → banksOk u = true

/-- The relation for a step's outcome: of the next state, if there is one. -/
def KeepsO (s : State) : Host.Outcome State Fault Refusal → Prop
  | .next u => Keeps s u
  | _ => True

/-- The relation for an operation that may answer nothing. -/
def KeepsQ (s : State) : Option State → Prop
  | some u => Keeps s u
  | none => True

/-- The relation for an operation that may answer a value and a state. -/
def KeepsQ2 {α : Type} (s : State) : Option (α × State) → Prop
  | some (_, u) => Keeps s u
  | none => True

theorem KeepsO.next {s u : State} (h : Keeps s u) : KeepsO s (.next u) := h

theorem KeepsQ.mk {s u : State} (h : Keeps s u) : KeepsQ s (some u) := h

theorem KeepsQ2.mk {α : Type} {s u : State} {a : α} (h : Keeps s u) : KeepsQ2 s (some (a, u)) := h

theorem Keeps.fst_of {α : Type} {s u : State} {p : State × α} {r : α} (e : p = (u, r)) (h : Keeps s p.1) : Keeps s u := by
  rw [e] at h; exact h

theorem Keeps.snd_of {α : Type} {s u : State} {p : α × State} {r : α} (e : p = (r, u)) (h : Keeps s p.2) : Keeps s u := by
  rw [e] at h; exact h

theorem KeepsQ.of {s u : State} {p : Option State} (e : p = some u) (h : KeepsQ s p) : Keeps s u := by
  rw [e] at h; exact h

theorem KeepsQ2.of {α : Type} {s u : State} {p : Option (α × State)} {r : α} (e : p = some (r, u)) (h : KeepsQ2 s p) : Keeps s u := by
  rw [e] at h; exact h

theorem KeepsQ.getD {s d : State} {p : Option State} (hp : KeepsQ s p) (hd : Keeps s d) : Keeps s (p.getD d) := by
  cases p with
  | none => exact hd
  | some u => exact hp

theorem Keeps.refl (s : State) : Keeps s s := ⟨rfl, id⟩

theorem Keeps.trans {a b c : State} (h : Keeps a b) (k : Keeps b c) : Keeps a c :=
  ⟨k.queue.trans h.queue, fun x => k.banks (h.banks x)⟩

/-- An update that names neither the queue nor a bank. -/
theorem Keeps.other {s0 x : State} (h : Keeps s0 x) {o f sy ti po ho st se jo pr pa li vi co mo sc rs th pw} :
    Keeps s0 ⟨x.pending, o, f, sy, ti, po, ho, x.live, x.pickEff, x.startEff, x.frameEff, st, se, jo, pr, pa, li, vi, co, mo, sc,
      rs, th, pw⟩ := ⟨h.queue, h.banks⟩

/-- An update of the live bank by a canonical one. -/
theorem Keeps.live {s0 x : State} (h : Keeps s0 x) {l : Bank} (hl : bankWf x.live = true → bankWf l = true)
    {o f sy ti po ho st se jo pr pa li vi co mo sc rs th pw} :
    Keeps s0 ⟨x.pending, o, f, sy, ti, po, ho, l, x.pickEff, x.startEff, x.frameEff, st, se, jo, pr, pa, li, vi, co, mo, sc,
      rs, th, pw⟩ := by
  refine ⟨h.queue, fun hb => ?_⟩
  have := h.banks hb
  simp only [banksOk, Bool.and_eq_true] at this ⊢
  exact ⟨⟨⟨hl this.1.1.1, this.1.1.2⟩, this.1.2⟩, this.2⟩

/-- The values in force of next-pick fields taken from the live ones. -/
theorem Keeps.effPick {s0 x : State} (h : Keeps s0 x) {o f sy ti po ho st se jo pr pa li vi co mo sc rs th pw} :
    Keeps s0 ⟨x.pending, o, f, sy, ti, po, ho, x.live, x.live, x.startEff, x.frameEff, st, se, jo, pr, pa, li, vi, co, mo, sc,
      rs, th, pw⟩ := by
  refine ⟨h.queue, fun hb => ?_⟩
  have := h.banks hb
  simp only [banksOk, Bool.and_eq_true] at this ⊢
  exact ⟨⟨⟨this.1.1.1, this.1.1.1⟩, this.1.2⟩, this.2⟩

/-- The values in force at a start, taken from the live ones. -/
theorem Keeps.effAll {s0 x : State} (h : Keeps s0 x) {o f sy ti po ho st se jo pr pa li vi co mo sc rs th pw} :
    Keeps s0 ⟨x.pending, o, f, sy, ti, po, ho, x.live, x.live, x.live, [x.live, x.live], st, se, jo, pr, pa, li, vi, co, mo, sc,
      rs, th, pw⟩ := by
  refine ⟨h.queue, fun hb => ?_⟩
  have := h.banks hb
  simp only [banksOk, Bool.and_eq_true] at this
  simp [banksOk, this.1.1.1]

/-- The values in force of a camera's frame fields, taken from the live ones. -/
theorem Keeps.effFrame {s0 x : State} (h : Keeps s0 x) {k : Nat} {o f sy ti po ho st se jo pr pa li vi co mo sc rs th pw} :
    Keeps s0 ⟨x.pending, o, f, sy, ti, po, ho, x.live, x.pickEff, x.startEff, upd x.frameEff k fun _ => x.live, st, se, jo, pr, pa,
      li, vi, co, mo, sc, rs, th, pw⟩ := by
  refine ⟨h.queue, fun hb => ?_⟩
  have := h.banks hb
  simp only [banksOk, Bool.and_eq_true] at this ⊢
  refine ⟨this.1, List.all_eq_true.mpr fun b hm => ?_⟩
  obtain ⟨i, hi, rfl⟩ := List.mem_iff_getElem.mp hm
  simp only [upd, List.getElem_modify]
  split
  · exact this.1.1.1
  · exact List.all_eq_true.mp this.2 _ (List.getElem_mem _)

/-- A reset: the values in force go back to the reset values. -/
theorem Keeps.cleared {s0 x : State} (h : Keeps s0 x) {l : Bank} (hl : bankWf x.live = true → bankWf l = true)
    {o f sy ti po ho st se jo pr pa li vi co mo sc rs th pw} :
    Keeps s0 ⟨x.pending, o, f, sy, ti, po, ho, l, [], [], [[], []], st, se, jo, pr, pa, li, vi, co, mo, sc, rs, th, pw⟩ := by
  refine ⟨h.queue, fun hb => ?_⟩
  have := h.banks hb
  simp only [banksOk, Bool.and_eq_true] at this
  simp [banksOk, hl this.1.1.1, bankWf]

theorem KeepsQ.bind {s : State} {p : Option State} {f : State → Option State} (hp : KeepsQ s p) (hf : ∀ x, Keeps s x → KeepsQ s (f x)) :
    KeepsQ s (p.bind f) := by
  cases p with
  | none => exact True.intro
  | some x => exact hf x hp

theorem KeepsQ2.getD {α : Type} {s : State} {p : Option (α × State)} {d : α × State} (hp : KeepsQ2 s p) (hd : Keeps s d.2) :
    Keeps s (p.getD d).2 := by
  cases p with
  | none => exact hd
  | some u => exact hp

theorem Keeps.foldl_fst {α β : Type} {s0 : State} {f : State × β → α → State × β} (l : List α) {p : State × β} (h : Keeps s0 p.1)
    (hf : ∀ x a, Keeps s0 x.1 → Keeps s0 (f x a).1) : Keeps s0 (l.foldl f p).1 := by
  induction l generalizing p with
  | nil => exact h
  | cons a l ih => exact ih (hf _ _ h)

theorem Keeps.foldl_snd {α β : Type} {s0 : State} {f : β × State → α → β × State} (l : List α) {p : β × State} (h : Keeps s0 p.2)
    (hf : ∀ x a, Keeps s0 x.2 → Keeps s0 (f x a).2) : Keeps s0 (l.foldl f p).2 := by
  induction l generalizing p with
  | nil => exact h
  | cons a l ih => exact ih (hf _ _ h)

theorem Keeps.ite {s0 a b : State} {c : Prop} [Decidable c] (ha : Keeps s0 a) (hb : Keeps s0 b) :
    Keeps s0 (if c then a else b) := by split <;> assumption

theorem Keeps.foldl {α : Type} {s0 : State} {f : State → α → State} (l : List α) {s : State} (h : Keeps s0 s)
    (hf : ∀ x a, Keeps s0 x → Keeps s0 (f x a)) : Keeps s0 (l.foldl f s) := by
  induction l generalizing s with
  | nil => exact h
  | cons a l ih => exact ih (hf _ _ h)

theorem bankWf_bankTake {b : Bank} (h : bankWf b = true) (n : Bank) (p : Reg → Bool) : bankWf (bankTake b n p) = true :=
  bankWf_foldl (fun _ _ h => bankWf_bankWrite h _ _) _ (bankWf_filter h _)

theorem bankWf_editBank {b : Bank} (h : bankWf b = true) (r : Reg) (es : List Edit) : bankWf (editBank r b es) = true :=
  bankWf_foldl (fun _ _ h => bankWf_bankWrite h _ _) _ h

theorem bankWf_entriesInto {b : Bank} (h : bankWf b = true) (c col : Nat) (es : List Nat) : bankWf (entriesInto b c col es) = true :=
  bankWf_foldl (fun _ _ h => bankWf_bankWrite h _ _) _ h

theorem bankWf_keptLive {s : State} (h : bankWf s.live = true) : bankWf (keptLive s) = true :=
  bankWf_foldl (fun _ _ h => bankWf_bankWrite h _ _) _
    (bankWf_foldl (fun _ _ h => bankWf_bankSet h _ _ _ _) _
      (bankWf_foldl (fun _ _ h => bankWf_bankSet h _ _ _ _) _
        (bankWf_foldl (fun _ _ h => bankWf_bankSet h _ _ _ _) _
          (bankWf_foldl (fun _ _ h => bankWf_bankSet h _ _ _ _) _ (bankWf_filter h _)))))

end Sys2Proof.Laws
end

