-- ==== Sys2Proof/Laws/KeepsShared.lean ====
section
/-!
SUPPORT. Every operation and command of the shared operations and the link (chapters 08, 11, 12, 19) keeps the queue and the canonical
banks, one lemma each.
-/
namespace Sys2Proof.Laws

open Sys2Proof.Machine

theorem fresh_keeps {s0 : State} {s : State} (hk : Keeps s0 s) :
    Keeps s0 (fresh s).2 := by
  unfold fresh
  dsimp only
  refine Keeps.other ?_
  exact hk

theorem emit_keeps {s0 : State} {s : State} {o : Output} (hk : Keeps s0 s) :
    Keeps s0 (emit s o) := by
  unfold emit
  refine Keeps.other ?_
  exact hk

theorem sendBlocks_keeps {s0 : State} {s : State} {n : ℕ} {bs : List Block} (hk : Keeps s0 s) :
    Keeps s0 (sendBlocks s n bs) := by
  unfold sendBlocks
  rcases e2 : fresh s with ⟨a0, a1⟩
  dsimp only
  refine emit_keeps ?_
  refine Keeps.other ?_
  refine Keeps.snd_of e2 ?_
  refine fresh_keeps ?_
  exact hk

theorem onLanes_keeps {s0 : State} {s : State} {u : ℕ} {p : HubPacket} (hk : Keeps s0 s) :
    Keeps s0 (onLanes s u p) := by
  unfold onLanes
  lift_lets
  intro u0
  clear_value u0
  intro u1
  clear_value u1
  intro u2
  clear_value u2
  intro u3
  clear_value u3
  split
  · rename_i q4 q5
    refine Keeps.foldl _ ?_ (fun x6 a7 hx8 => ?_)
    · exact hk
    · refine sendBlocks_keeps ?_
      exact hx8
  · rename_i q9 q10 q11
    refine Keeps.foldl _ ?_ (fun x12 a13 hx14 => ?_)
    · exact hk
    · refine sendBlocks_keeps ?_
      exact hx14

theorem toHub_keeps {s0 : State} {s : State} {hub : ℕ} {p : HubPacket} (hk : Keeps s0 s) :
    Keeps s0 (toHub s hub p) := by
  unfold toHub
  refine Keeps.ite ?_ ?_
  · exact hk
  · refine onLanes_keeps ?_
    refine emit_keeps ?_
    exact hk

theorem raiseAt_keeps {s0 : State} {s : State} {time : ℕ} {code : ℕ} {source : ℕ} {arg : ℕ} (hk : Keeps s0 s) :
    Keeps s0 (raiseAt s time code source arg) := by
  unfold raiseAt
  refine Keeps.other ?_
  exact hk

theorem raise_keeps {s0 : State} {s : State} {code : ℕ} {source : ℕ} {arg : ℕ} (hk : Keeps s0 s) :
    Keeps s0 (raise s code source arg) := by
  unfold raise
  refine raiseAt_keeps ?_
  exact hk

theorem noteSet_keeps {s0 : State} {s : State} {key : ℕ} {mask : ℕ} (hk : Keeps s0 s) :
    Keeps s0 (noteSet s key mask) := by
  unfold noteSet
  lift_lets
  intro u0
  intro u1
  clear_value u1
  refine Keeps.other ?_
  exact hk

theorem setFld_keeps {s0 : State} {s : State} {f : Machine.Field} {i : ℕ} {v : ℕ} {e : optParam ℕ 0} (hk : Keeps s0 s) :
    Keeps s0 (setFld s f i v e) := by
  unfold setFld
  refine Keeps.live ?_ (fun hb0 => ?_)
  · exact hk
  · refine bankWf_bankSet ?_ _ _ _ _
    assumption

theorem sendDatagram_keeps {s0 : State} {s : State} {kind : ℕ} {chan : ℕ} {body : List Byte} (hk : Keeps s0 s) :
    Keeps s0 (sendDatagram s kind chan body) := by
  unfold sendDatagram
  split
  · rename_i q0 q1
    exact hk
  · rename_i q2 q3 q4
    refine emit_keeps ?_
    refine Keeps.other ?_
    exact hk

theorem sendNotify_keeps {s0 : State} {s : State} (hk : Keeps s0 s) :
    Keeps s0 (sendNotify s) := by
  unfold sendNotify
  refine sendDatagram_keeps ?_
  refine Keeps.other ?_
  exact hk

theorem raiseIrq_keeps {s0 : State} {s : State} {v : ℕ} (hk : Keeps s0 s) :
    Keeps s0 (raiseIrq s v) := by
  unfold raiseIrq
  lift_lets
  intro u0
  clear_value u0
  intro u1
  clear_value u1
  refine Keeps.ite ?_ ?_
  · refine Keeps.other ?_
    exact hk
  · refine emit_keeps ?_
    refine Keeps.other ?_
    exact hk

theorem notifyBit_keeps {s0 : State} {s : State} {n : ℕ} (hk : Keeps s0 s) :
    Keeps s0 (notifyBit s n) := by
  unfold notifyBit
  lift_lets
  intro u0
  have h1 : Keeps s0 u0 := by
    unfold u0
    refine Keeps.ite ?_ ?_
    · refine sendNotify_keeps ?_
      exact hk
    · exact hk
  clear_value u0
  refine Keeps.ite ?_ ?_
  · exact h1
  · split
    · rename_i q2 q3 q4
      refine raiseIrq_keeps ?_
      exact h1
    · rename_i q5 q6
      exact h1

theorem doorbell_keeps {s0 : State} {s : State} {n : ℕ} (hk : Keeps s0 s) :
    Keeps s0 (doorbell s n) := by
  unfold doorbell
  lift_lets
  intro u0
  have h1 : Keeps s0 u0 := by
    unfold u0
    refine noteSet_keeps ?_
    exact hk
  clear_value u0
  intro u2
  clear_value u2
  intro u3
  have h4 : Keeps s0 u3 := by
    unfold u3
    refine setFld_keeps ?_
    exact h1
  clear_value u3
  refine Keeps.ite ?_ ?_
  · exact h1
  · refine Keeps.ite ?_ ?_
    · exact h4
    · refine notifyBit_keeps ?_
      exact h4

theorem setSummary_keeps {s0 : State} {s : State} {k : ℕ} (hk : Keeps s0 s) :
    Keeps s0 (setSummary s k) := by
  unfold setSummary
  lift_lets
  intro u0
  have h1 : Keeps s0 u0 := by
    unfold u0
    refine Keeps.ite ?_ ?_
    · exact hk
    · refine noteSet_keeps ?_
      exact hk
  clear_value u0
  intro u2
  clear_value u2
  intro u3
  have h4 : Keeps s0 u3 := by
    unfold u3
    refine setFld_keeps ?_
    exact h1
  clear_value u3
  refine Keeps.ite ?_ ?_
  · exact h1
  · refine Keeps.ite ?_ ?_
    · exact h4
    · refine doorbell_keeps ?_
      exact h4

theorem sticky_keeps {s0 : State} {s : State} {f : Machine.Field} {i : optParam ℕ 0} {b : optParam ℕ 0} (hk : Keeps s0 s) :
    Keeps s0 (sticky s f i b) := by
  unfold sticky
  lift_lets
  intro u0
  have h1 : Keeps s0 u0 := by
    unfold u0
    refine noteSet_keeps ?_
    exact hk
  clear_value u0
  intro u2
  clear_value u2
  intro u3
  have h4 : Keeps s0 u3 := by
    unfold u3
    refine setFld_keeps ?_
    exact h1
  clear_value u3
  refine Keeps.ite ?_ ?_
  · exact h1
  · refine Keeps.ite ?_ ?_
    · exact h4
    · refine setSummary_keeps ?_
      exact h4

theorem bump_keeps {s0 : State} {s : State} {f : Machine.Field} {i : optParam ℕ 0} {n : optParam ℕ 1} (hk : Keeps s0 s) :
    Keeps s0 (bump s f i n) := by
  unfold bump
  refine setFld_keeps ?_
  exact hk

theorem begin_keeps {s0 : State} {s : State} {t : ℕ} (hk : Keeps s0 s) :
    Keeps s0 (begin s t) := by
  unfold begin
  lift_lets
  intro u0
  have h1 : Keeps s0 u0 := by
    unfold u0
    refine Keeps.other ?_
    exact hk
  clear_value u0
  refine Keeps.foldl _ ?_ (fun x3 a4 hx5 => ?_)
  · exact h1
  · refine raiseIrq_keeps ?_
    exact hx5

theorem setState_keeps {s0 : State} {s : State} {st : SysSt} (hk : Keeps s0 s) :
    Keeps s0 (setState s st) := by
  unfold setState
  refine Keeps.ite ?_ ?_
  · exact hk
  · lift_lets
    intro u0
    clear_value u0
    intro u1
    clear_value u1
    refine doorbell_keeps ?_
    refine raise_keeps ?_
    refine Keeps.other ?_
    exact hk

theorem toPeer_keeps {s0 : State} {s : State} {p : PeerItem} (hk : Keeps s0 s) :
    Keeps s0 (toPeer s p) := by
  unfold toPeer
  refine Keeps.ite ?_ ?_
  · exact hk
  · refine emit_keeps ?_
    exact hk

theorem startEye_keeps {s0 : State} {s : State} (hk : Keeps s0 s) :
    Keeps s0 (startEye s) := by
  unfold startEye
  lift_lets
  intro u0
  clear_value u0
  intro u1
  clear_value u1
  intro u2
  clear_value u2
  refine Keeps.ite ?_ ?_
  · exact hk
  · refine Keeps.ite ?_ ?_
    · refine Keeps.other ?_
      exact hk
    · refine emit_keeps ?_
      refine Keeps.other ?_
      exact hk

theorem setHub_keeps {s0 : State} {s : State} {u : ℕ} {f : HubSt → HubSt} (hk : Keeps s0 s) :
    Keeps s0 (setHub s u f) := by
  unfold setHub
  refine Keeps.other ?_
  exact hk

theorem calDone_keeps {s0 : State} {s : State} {item : ℕ} {inst : ℕ} {temp : ℤ} (hk : Keeps s0 s) :
    Keeps s0 (calDone s item inst temp) := by
  unfold calDone
  refine raise_keeps ?_
  refine bump_keeps ?_
  refine setFld_keeps ?_
  exact hk

theorem setLane_keeps {s0 : State} {s : State} {n : ℕ} {f : LaneSt → LaneSt} (hk : Keeps s0 s) :
    Keeps s0 (setLane s n f) := by
  unfold setLane
  refine Keeps.other ?_
  exact hk

theorem sendCmd_keeps {s0 : State} {s : State} {u : ℕ} {cmd : ℕ} {args : List Byte} {msg : Option (ℕ × ℕ)} (hk : Keeps s0 s) :
    Keeps s0 (sendCmd s u cmd args msg) := by
  unfold sendCmd
  lift_lets
  intro u0
  clear_value u0
  intro u1
  clear_value u1
  refine Keeps.ite ?_ ?_
  · exact hk
  · refine toHub_keeps ?_
    refine setHub_keeps ?_
    exact hk

theorem setMbx_keeps {s0 : State} {s : State} {k : ℕ} {f : Mbx → Mbx} (hk : Keeps s0 s) :
    Keeps s0 (setMbx s k f) := by
  unfold setMbx
  refine Keeps.other ?_
  exact hk

theorem sealOut_keeps {s0 : State} {s : State} {k : ℕ} (hk : Keeps s0 s) :
    Keeps s0 (sealOut s k) := by
  unfold sealOut
  split
  · rename_i q0 q1
    exact hk
  · rename_i q2 q3 q4
    refine Keeps.ite ?_ ?_
    · exact hk
    · refine Keeps.ite ?_ ?_
      · refine setMbx_keeps ?_
        exact hk
      · refine setMbx_keeps ?_
        exact hk

theorem outFilled_keeps {s0 : State} {s : State} {k : ℕ} (hk : Keeps s0 s) :
    Keeps s0 (outFilled s k) := by
  unfold outFilled
  lift_lets
  intro u0
  have h1 : Keeps s0 u0 := by
    unfold u0
    refine doorbell_keeps ?_
    refine sealOut_keeps ?_
    exact hk
  clear_value u0
  refine Keeps.ite ?_ ?_
  · split
    · rename_i q2 q3 q4
      refine sendDatagram_keeps ?_
      exact h1
    · rename_i q5 q6
      exact h1
  · exact h1

theorem pump_keeps {s0 : State} {s : State} {k : ℕ} (hk : Keeps s0 s) :
    Keeps s0 (pump s k) := by
  unfold pump
  lift_lets
  intro u0
  clear_value u0
  rcases e5 : pumpFlights u0.flight u0.out u0.queue false with ⟨a1, a2, a3, a4⟩
  dsimp only
  refine Keeps.ite ?_ ?_
  · refine outFilled_keeps ?_
    refine setMbx_keeps ?_
    exact hk
  · refine setMbx_keeps ?_
    exact hk

theorem answer_keeps {s0 : State} {s : State} {k : ℕ} {tag : ℕ} {changes : Bool} {r : MsgRes} (hk : Keeps s0 s) :
    Keeps s0 (answer s k tag changes r) := by
  unfold answer
  split
  · rename_i q0 q1
    exact hk
  · rename_i q2 q3 q4
    lift_lets
    intro u5
    clear_value u5
    intro u6
    clear_value u6
    intro u7
    have h8 : Keeps s0 u7 := by
      unfold u7
      refine setMbx_keeps ?_
      exact hk
    clear_value u7
    refine pump_keeps ?_
    exact h8

theorem audit_keeps {s0 : State} {s : State} {code : ℕ} {k : ℕ} {result : ℕ} (hk : Keeps s0 s) :
    Keeps s0 (audit s code k result) := by
  unfold audit
  lift_lets
  intro u0
  clear_value u0
  intro u1
  clear_value u1
  intro u2
  clear_value u2
  intro u3
  clear_value u3
  intro u4
  clear_value u4
  intro u5
  clear_value u5
  intro u6
  clear_value u6
  intro u7
  have h8 : Keeps s0 u7 := by
    unfold u7
    refine setFld_keeps ?_
    refine Keeps.other ?_
    exact hk
  clear_value u7
  split
  · rename_i q10 q11 q12
    refine Keeps.ite ?_ ?_
    · refine raise_keeps ?_
      refine sticky_keeps ?_
      exact h8
    · exact h8
  · rename_i q13 q14
    exact h8

theorem setSession_keeps {s0 : State} {s : State} {k : ℕ} {f : SecSession → SecSession} (hk : Keeps s0 s) :
    Keeps s0 (setSession s k f) := by
  unfold setSession
  refine Keeps.other ?_
  exact hk

theorem dropLoad_keeps {s0 : State} {s : State} (hk : Keeps s0 s) :
    Keeps s0 (dropLoad s) := by
  unfold dropLoad
  split
  · rename_i q0 q1 q2
    refine Keeps.other ?_
    exact hk
  · rename_i q4 q5
    exact hk

theorem moduleReset_keeps {s0 : State} {s : State} {k : ℕ} (hk : Keeps s0 s) :
    Keeps s0 (moduleReset s k) := by
  unfold moduleReset
  lift_lets
  intro u0
  have h1 : Keeps s0 u0 := by
    unfold u0
    refine setMbx_keeps ?_
    exact hk
  clear_value u0
  intro u2
  have h3 : Keeps s0 u2 := by
    unfold u2
    refine doorbell_keeps ?_
    refine doorbell_keeps ?_
    refine sticky_keeps ?_
    exact h1
  clear_value u2
  refine raise_keeps ?_
  exact h3

theorem endSecure_keeps {s0 : State} {s : State} {k : ℕ} {cause : ℕ} (hk : Keeps s0 s) :
    Keeps s0 (endSecure s k cause) := by
  unfold endSecure
  refine Keeps.ite ?_ ?_
  · exact hk
  · lift_lets
    intro u0
    have h1 : Keeps s0 u0 := by
      unfold u0
      refine audit_keeps ?_
      refine raise_keeps ?_
      exact hk
    clear_value u0
    intro u2
    have h3 : Keeps s0 u2 := by
      unfold u2
      refine setSession_keeps ?_
      refine setMbx_keeps ?_
      exact h1
    clear_value u2
    intro u4
    have h5 : Keeps s0 u4 := by
      unfold u4
      split
      · rename_i q6 q7 q8
        refine Keeps.ite ?_ ?_
        · refine dropLoad_keeps ?_
          exact h3
        · exact h3
      · rename_i q9 q10
        exact h3
    clear_value u4
    refine Keeps.ite ?_ ?_
    · exact h5
    · refine moduleReset_keeps ?_
      exact h5

theorem touchSec_keeps {s0 : State} {s : State} {k : ℕ} (hk : Keeps s0 s) :
    Keeps s0 (touchSec s k) := by
  unfold touchSec
  refine Keeps.ite ?_ ?_
  · exact hk
  · refine setSession_keeps ?_
    exact hk

theorem busyReject_keeps {s0 : State} {s : State} {k : ℕ} {tag : ℕ} (hk : Keeps s0 s) :
    Keeps s0 (busyReject s k tag) := by
  unfold busyReject
  lift_lets
  intro u0
  have h1 : Keeps s0 u0 := by
    unfold u0
    refine touchSec_keeps ?_
    exact hk
  clear_value u0
  intro u2
  clear_value u2
  intro u3
  have h4 : Keeps s0 u3 := by
    unfold u3
    refine bump_keeps ?_
    exact h1
  clear_value u3
  intro u5
  have h6 : Keeps s0 u5 := by
    unfold u5
    refine setMbx_keeps ?_
    exact h4
  clear_value u5
  intro u7
  have h8 : Keeps s0 u7 := by
    unfold u7
    refine doorbell_keeps ?_
    refine sticky_keeps ?_
    exact h6
  clear_value u7
  refine Keeps.ite ?_ ?_
  · exact h8
  · refine raise_keeps ?_
    exact h8

theorem frameError_keeps {s0 : State} {s : State} {k : ℕ} {result : ℕ} {tag : ℕ} (hk : Keeps s0 s) :
    Keeps s0 (frameError s k result tag) := by
  unfold frameError
  lift_lets
  intro u0
  clear_value u0
  intro u1
  have h2 : Keeps s0 u1 := by
    unfold u1
    refine bump_keeps ?_
    exact hk
  clear_value u1
  intro u3
  have h4 : Keeps s0 u3 := by
    unfold u3
    refine setMbx_keeps ?_
    exact h2
  clear_value u3
  refine Keeps.ite ?_ ?_
  · exact h4
  · refine raise_keeps ?_
    exact h4

theorem refuseTaken_keeps {s0 : State} {s : State} {k : ℕ} {cls : ℕ} {op : ℕ} {tag : ℕ} {result : ℕ} (hk : Keeps s0 s) :
    Keeps s0 (refuseTaken s k cls op tag result) := by
  unfold refuseTaken
  lift_lets
  intro u0
  have h1 : Keeps s0 u0 := by
    unfold u0
    refine Keeps.ite ?_ ?_
    · refine frameError_keeps ?_
      exact hk
    · exact hk
  clear_value u0
  intro u2
  clear_value u2
  refine pump_keeps ?_
  refine setMbx_keeps ?_
  exact h1

theorem countTaken_keeps {s0 : State} {s : State} {k : ℕ} (hk : Keeps s0 s) :
    Keeps s0 (countTaken s k) := by
  unfold countTaken
  refine bump_keeps ?_
  refine setMbx_keeps ?_
  refine touchSec_keeps ?_
  exact hk

theorem takePending_keeps {s0 : State} {s : State} {k : ℕ} (hk : Keeps s0 s) :
    Keeps s0 (takePending s k) := by
  unfold takePending
  refine countTaken_keeps ?_
  refine setMbx_keeps ?_
  exact hk

theorem discardPacket_keeps {s0 : State} {s : State} {u : ℕ} (hk : Keeps s0 s) :
    Keeps s0 (discardPacket s u) := by
  unfold discardPacket
  refine sticky_keeps ?_
  refine bump_keeps ?_
  exact hk

theorem execAckLost_keeps {s0 : State} {t : ℕ} {hub : Fin 24} {s : State} (hk : Keeps s0 s) :
    KeepsO s0 (execAckLost t hub s) := by
  unfold execAckLost
  lift_lets
  intro u0
  have h1 : Keeps s0 u0 := by
    unfold u0
    refine begin_keeps ?_
    exact hk
  clear_value u0
  intro u2
  clear_value u2
  refine KeepsO.next ?_
  refine Keeps.ite ?_ ?_
  · refine raise_keeps ?_
    refine sticky_keeps ?_
    refine setHub_keeps ?_
    exact h1
  · exact h1

theorem learnAnew_keeps {s0 : State} {s : State} {u : ℕ} (hk : Keeps s0 s) :
    Keeps s0 (learnAnew s u) := by
  unfold learnAnew
  refine Keeps.foldl _ ?_ (fun x0 a1 hx2 => ?_)
  · refine raise_keeps ?_
    exact hk
  · refine setLane_keeps ?_
    exact hx2

theorem sendLaneState_keeps {s0 : State} {s : State} {u : ℕ} (hk : Keeps s0 s) :
    Keeps s0 (sendLaneState s u) := by
  unfold sendLaneState
  refine toHub_keeps ?_
  exact hk

theorem identify_keeps {s0 : State} {s : State} {u : ℕ} {mask : ℕ} (hk : Keeps s0 s) :
    Keeps s0 (identify s u mask) := by
  unfold identify
  refine sendCmd_keeps ?_
  refine sendLaneState_keeps ?_
  refine setHub_keeps ?_
  exact hk

theorem tryTrained_keeps {s0 : State} {s : State} {u : ℕ} (hk : Keeps s0 s) :
    Keeps s0 (tryTrained s u) := by
  unfold tryTrained
  lift_lets
  intro u0
  clear_value u0
  intro u1
  clear_value u1
  refine Keeps.ite ?_ ?_
  · refine identify_keeps ?_
    exact hk
  · exact hk

theorem execLaneLockAcquired_keeps {s0 : State} {t : ℕ} {lane : Fin 24} {inverted : Bool} {s : State} (hk : Keeps s0 s) :
    KeepsO s0 (execLaneLockAcquired t lane inverted s) := by
  unfold execLaneLockAcquired
  lift_lets
  intro u0
  have h1 : Keeps s0 u0 := by
    unfold u0
    refine begin_keeps ?_
    exact hk
  clear_value u0
  refine KeepsO.next ?_
  split
  · rename_i q2 q3
    exact h1
  · rename_i q4 q5 q6
    lift_lets
    intro u7
    have h8 : Keeps s0 u7 := by
      unfold u7
      split
      · rename_i q9 q10 q11
        refine Keeps.ite ?_ ?_
        · refine learnAnew_keeps ?_
          exact h1
        · exact h1
      · rename_i q12 q13
        exact h1
    clear_value u7
    refine Keeps.ite ?_ ?_
    · exact h1
    · refine tryTrained_keeps ?_
      refine sendLaneState_keeps ?_
      refine setLane_keeps ?_
      exact h8

theorem sendMarker_keeps {s0 : State} {s : State} {u : ℕ} (hk : Keeps s0 s) :
    Keeps s0 (sendMarker s u) := by
  unfold sendMarker
  lift_lets
  intro u0
  clear_value u0
  refine toHub_keeps ?_
  refine setHub_keeps ?_
  exact hk

theorem sendTraining_keeps {s0 : State} {s : State} {u : ℕ} (hk : Keeps s0 s) :
    Keeps s0 (sendTraining s u) := by
  unfold sendTraining
  refine sendLaneState_keeps ?_
  refine sendMarker_keeps ?_
  refine toHub_keeps ?_
  exact hk

theorem startTrain_keeps {s0 : State} {s : State} {u : ℕ} (hk : Keeps s0 s) :
    Keeps s0 (startTrain s u) := by
  unfold startTrain
  refine sendTraining_keeps ?_
  refine setHub_keeps ?_
  exact hk

theorem beginShed_keeps {s0 : State} {s : State} {u : ℕ} {mask : ℕ} (hk : Keeps s0 s) :
    Keeps s0 (beginShed s u mask) := by
  unfold beginShed
  lift_lets
  intro u0
  have h1 : Keeps s0 u0 := by
    unfold u0
    refine setHub_keeps ?_
    exact hk
  clear_value u0
  intro u2
  have h3 : Keeps s0 u2 := by
    unfold u2
    refine raise_keeps ?_
    exact h1
  clear_value u2
  intro u4
  clear_value u4
  refine Keeps.ite ?_ ?_
  · refine Keeps.ite ?_ ?_
    · exact h3
    · refine Keeps.other ?_
      exact h3
  · exact h1

theorem afterLoss_keeps {s0 : State} {s : State} {u : ℕ} (hk : Keeps s0 s) :
    Keeps s0 (afterLoss s u) := by
  unfold afterLoss
  lift_lets
  intro u0
  clear_value u0
  intro u1
  clear_value u1
  intro u2
  have h3 : Keeps s0 u2 := by
    unfold u2
    refine Keeps.ite ?_ ?_
    · exact hk
    · refine beginShed_keeps ?_
      exact hk
  clear_value u2
  refine Keeps.ite ?_ ?_
  · refine Keeps.ite ?_ ?_
    · refine startTrain_keeps ?_
      exact hk
    · refine setHub_keeps ?_
      exact hk
  · refine Keeps.ite ?_ ?_
    · exact hk
    · refine Keeps.ite ?_ ?_
      · refine raise_keeps ?_
        refine startTrain_keeps ?_
        exact h3
      · refine Keeps.ite ?_ ?_
        · exact hk
        · refine Keeps.ite ?_ ?_
          · refine setHub_keeps ?_
            exact hk
          · refine Keeps.ite ?_ ?_
            · refine setHub_keeps ?_
              exact hk
            · refine beginShed_keeps ?_
              refine setHub_keeps ?_
              exact hk

theorem lostLane_keeps {s0 : State} {s : State} {n : ℕ} {u : ℕ} {far : ℕ} (hk : Keeps s0 s) :
    Keeps s0 (lostLane s n u far) := by
  unfold lostLane
  lift_lets
  intro u0
  have h1 : Keeps s0 u0 := by
    unfold u0
    refine sticky_keeps ?_
    refine bump_keeps ?_
    exact hk
  clear_value u0
  refine afterLoss_keeps ?_
  refine sendLaneState_keeps ?_
  refine raise_keeps ?_
  exact h1

theorem execLaneDown_keeps {s0 : State} {t : ℕ} {lane : Fin 24} {s : State} (hk : Keeps s0 s) :
    KeepsO s0 (execLaneDown t lane s) := by
  unfold execLaneDown
  lift_lets
  intro u0
  have h1 : Keeps s0 u0 := by
    unfold u0
    refine begin_keeps ?_
    exact hk
  clear_value u0
  refine KeepsO.next ?_
  split
  · rename_i q2 q3
    exact h1
  · rename_i q4 q5 q6
    refine Keeps.ite ?_ ?_
    · refine lostLane_keeps ?_
      refine setLane_keeps ?_
      refine bump_keeps ?_
      exact h1
    · exact h1

theorem execRestripeNarrow_keeps {s0 : State} {t : ℕ} {hub : Fin 24} {cut : List ℤ} {s : State} (hk : Keeps s0 s) :
    KeepsO s0 (execRestripeNarrow t hub cut s) := by
  unfold execRestripeNarrow
  lift_lets
  intro u0
  have h1 : Keeps s0 u0 := by
    unfold u0
    refine begin_keeps ?_
    exact hk
  clear_value u0
  refine KeepsO.next ?_
  split
  · rename_i q2 q3
    exact h1
  · rename_i q4 q5 q6
    lift_lets
    intro u7
    have h8 : Keeps s0 u7 := by
      unfold u7
      refine setHub_keeps ?_
      exact h1
    clear_value u7
    intro u9
    have h10 : Keeps s0 u9 := by
      unfold u9
      refine toHub_keeps ?_
      exact h8
    clear_value u9
    refine Keeps.ite ?_ ?_
    · refine raise_keeps ?_
      refine sticky_keeps ?_
      exact h10
    · exact h10

theorem receiveBlock_keeps {s0 : State} {s : State} {n : ℕ} {w : WireBlock} (hk : Keeps s0 s) :
    Keeps s0 (receiveBlock s n w).1 := by
  unfold receiveBlock
  lift_lets
  intro u0
  clear_value u0
  intro u1
  clear_value u1
  intro u2
  clear_value u2
  intro u3
  clear_value u3
  rcases e6 : descramble 64 u2 u3 with ⟨a4, a5⟩
  dsimp only
  refine setLane_keeps ?_
  exact hk

theorem invalidBlock_keeps {s0 : State} {s : State} {n : ℕ} (hk : Keeps s0 s) :
    Keeps s0 (invalidBlock s n) := by
  unfold invalidBlock
  refine setLane_keeps ?_
  refine bump_keeps ?_
  exact hk

theorem takeLaneState_keeps {s0 : State} {s : State} {u : ℕ} {locked : ℕ} (hk : Keeps s0 s) :
    Keeps s0 (takeLaneState s u locked) := by
  unfold takeLaneState
  lift_lets
  intro u0
  have h1 : Keeps s0 u0 := by
    unfold u0
    refine setHub_keeps ?_
    exact hk
  clear_value u0
  refine tryTrained_keeps ?_
  refine Keeps.foldl _ ?_ (fun x2 a3 hx4 => ?_)
  · exact h1
  · lift_lets
    intro u5
    clear_value u5
    intro u6
    clear_value u6
    intro u7
    have h8 : Keeps s0 u7 := by
      unfold u7
      refine setLane_keeps ?_
      exact hx4
    clear_value u7
    refine Keeps.ite ?_ ?_
    · exact hx4
    · refine Keeps.ite ?_ ?_
      · exact h8
      · refine lostLane_keeps ?_
        exact h8

theorem excludeLane_keeps {s0 : State} {s : State} {u : ℕ} {lane : ℕ} {m : Marker} (hk : Keeps s0 s) :
    Keeps s0 (excludeLane s u lane m) := by
  unfold excludeLane
  refine Keeps.ite ?_ ?_
  · exact hk
  · lift_lets
    intro u0
    have h1 : Keeps s0 u0 := by
      unfold u0
      refine sticky_keeps ?_
      refine setLane_keeps ?_
      exact hk
    clear_value u0
    intro u2
    have h3 : Keeps s0 u2 := by
      unfold u2
      refine raise_keeps ?_
      exact h1
    clear_value u2
    refine tryTrained_keeps ?_
    refine afterLoss_keeps ?_
    exact h3

theorem takeMarker_keeps {s0 : State} {s : State} {u : ℕ} {lane : ℕ} {m : Marker} (hk : Keeps s0 s) :
    Keeps s0 (takeMarker s u lane m) := by
  unfold takeMarker
  lift_lets
  intro u0
  clear_value u0
  intro u1
  have h2 : Keeps s0 u1 := by
    unfold u1
    refine Keeps.ite ?_ ?_
    · refine setLane_keeps ?_
      exact hk
    · exact hk
  clear_value u1
  intro u3
  clear_value u3
  intro u4
  clear_value u4
  intro u5
  have h6 : Keeps s0 u5 := by
    unfold u5
    refine Keeps.ite ?_ ?_
    · refine learnAnew_keeps ?_
      exact h2
    · exact h2
  clear_value u5
  intro u7
  clear_value u7
  intro u8
  clear_value u8
  intro u9
  have h10 : Keeps s0 u9 := by
    unfold u9
    refine Keeps.ite ?_ ?_
    · refine setHub_keeps ?_
      exact h6
    · exact h6
  clear_value u9
  refine Keeps.ite ?_ ?_
  · exact h2
  · refine tryTrained_keeps ?_
    refine setLane_keeps ?_
    exact h10

theorem laneBlock_keeps {s0 : State} {s : State} {u : ℕ} {lane : ℕ} {w : WireBlock} (hk : Keeps s0 s) :
    Keeps s0 (laneBlock s u lane w) := by
  unfold laneBlock
  refine Keeps.ite ?_ ?_
  · exact hk
  · split
    · rename_i q0 q1 q2
      refine invalidBlock_keeps ?_
      refine Keeps.fst_of q2 ?_
      refine receiveBlock_keeps ?_
      exact hk
    · rename_i q3 q4 q5 q6 q7
      refine takeLaneState_keeps ?_
      refine Keeps.fst_of q7 ?_
      refine receiveBlock_keeps ?_
      exact hk
    · rename_i q8 q9 q10 q11
      refine Keeps.ite ?_ ?_
      · refine excludeLane_keeps ?_
        refine Keeps.fst_of q11 ?_
        refine receiveBlock_keeps ?_
        exact hk
      · refine takeMarker_keeps ?_
        refine Keeps.fst_of q11 ?_
        refine receiveBlock_keeps ?_
        exact hk
    · rename_i q12 q13 q14
      refine Keeps.fst_of q14 ?_
      refine receiveBlock_keeps ?_
      exact hk

theorem execLaneStateReceive_keeps {s0 : State} {t : ℕ} {lane : Fin 24} {w : WireBlock} {s : State} (hk : Keeps s0 s) :
    KeepsO s0 (execLaneStateReceive t lane w s) := by
  unfold execLaneStateReceive
  lift_lets
  intro u0
  have h1 : Keeps s0 u0 := by
    unfold u0
    refine begin_keeps ?_
    exact hk
  clear_value u0
  refine KeepsO.next ?_
  split
  · rename_i q2 q3
    exact h1
  · rename_i q4 q5 q6
    refine laneBlock_keeps ?_
    exact h1

theorem execLaneMarkerReceive_keeps {s0 : State} {t : ℕ} {lane : Fin 24} {w : WireBlock} {s : State} (hk : Keeps s0 s) :
    KeepsO s0 (execLaneMarkerReceive t lane w s) := by
  unfold execLaneMarkerReceive
  lift_lets
  intro u0
  have h1 : Keeps s0 u0 := by
    unfold u0
    refine begin_keeps ?_
    exact hk
  clear_value u0
  refine KeepsO.next ?_
  split
  · rename_i q2 q3
    exact h1
  · rename_i q4 q5 q6
    refine laneBlock_keeps ?_
    exact h1

theorem execBringupTimeout_keeps {s0 : State} {t : ℕ} {hub : Fin 24} {s : State} (hk : Keeps s0 s) :
    KeepsO s0 (execBringupTimeout t hub s) := by
  unfold execBringupTimeout
  lift_lets
  intro u0
  have h1 : Keeps s0 u0 := by
    unfold u0
    refine begin_keeps ?_
    exact hk
  clear_value u0
  intro u2
  clear_value u2
  refine KeepsO.next ?_
  refine Keeps.ite ?_ ?_
  · exact h1
  · refine Keeps.ite ?_ ?_
    · refine identify_keeps ?_
      exact h1
    · refine startTrain_keeps ?_
      refine raise_keeps ?_
      exact h1

theorem sendPending_keeps {s0 : State} {s : State} {u : ℕ} (hk : Keeps s0 s) :
    Keeps s0 (sendPending s u) := by
  unfold sendPending
  refine Keeps.foldl _ ?_ (fun x0 a1 hx2 => ?_)
  · exact hk
  · refine toHub_keeps ?_
    exact hx2

theorem sendConfigs_keeps {s0 : State} {s : State} {c : CfgSet} {u : ℕ} (hk : Keeps s0 s) :
    Keeps s0 (sendConfigs s c u) := by
  unfold sendConfigs
  refine Keeps.foldl _ ?_ (fun x0 a1 hx2 => ?_)
  · exact hk
  · rcases e5 : a1 with ⟨a3, a4⟩
    dsimp only
    split
    · rename_i q6 q7 q8
      refine Keeps.ite ?_ ?_
      · refine sendCmd_keeps ?_
        exact hx2
      · exact hx2
    · rename_i q9 q10
      exact hx2

theorem endShed_keeps {s0 : State} {s : State} {u : ℕ} (hk : Keeps s0 s) :
    Keeps s0 (endShed s u) := by
  unfold endShed
  refine Keeps.ite ?_ ?_
  · lift_lets
    intro u0
    have h1 : Keeps s0 u0 := by
      unfold u0
      refine raise_keeps ?_
      exact hk
    clear_value u0
    intro u2
    clear_value u2
    intro u3
    have h4 : Keeps s0 u3 := by
      unfold u3
      refine setHub_keeps ?_
      exact h1
    clear_value u3
    intro u5
    clear_value u5
    refine Keeps.other ?_
    exact h4
  · exact hk

theorem execHubUp_keeps {s0 : State} {t : ℕ} {hub : Fin 24} {info : HubInfo} {s : State} (hk : Keeps s0 s) :
    KeepsO s0 (execHubUp t hub info s) := by
  unfold execHubUp
  lift_lets
  intro u0
  have h1 : Keeps s0 u0 := by
    unfold u0
    refine begin_keeps ?_
    exact hk
  clear_value u0
  intro u2
  have h3 : Keeps s0 u2 := by
    unfold u2
    refine setHub_keeps ?_
    exact h1
  clear_value u2
  intro u4
  have h5 : Keeps s0 u4 := by
    unfold u4
    refine sendPending_keeps ?_
    refine sendConfigs_keeps ?_
    refine raise_keeps ?_
    exact h3
  clear_value u4
  refine KeepsO.next ?_
  refine Keeps.ite ?_ ?_
  · exact h1
  · refine Keeps.ite ?_ ?_
    · refine endShed_keeps ?_
      exact h5
    · exact h5

theorem execLaneRejoined_keeps {s0 : State} {t : ℕ} {lane : Fin 24} {s : State} (hk : Keeps s0 s) :
    KeepsO s0 (execLaneRejoined t lane s) := by
  unfold execLaneRejoined
  lift_lets
  intro u0
  have h1 : Keeps s0 u0 := by
    unfold u0
    refine begin_keeps ?_
    exact hk
  clear_value u0
  intro u2
  clear_value u2
  refine KeepsO.next ?_
  split
  · rename_i q3 q4
    exact h1
  · rename_i q5 q6 q7
    lift_lets
    intro u8
    clear_value u8
    intro u9
    clear_value u9
    intro u10
    have h11 : Keeps s0 u10 := by
      unfold u10
      refine toHub_keeps ?_
      refine setHub_keeps ?_
      exact h1
    clear_value u10
    intro u12
    have h13 : Keeps s0 u12 := by
      unfold u12
      refine raise_keeps ?_
      exact h11
    clear_value u12
    refine Keeps.ite ?_ ?_
    · exact h1
    · refine Keeps.ite ?_ ?_
      · refine endShed_keeps ?_
        exact h13
      · exact h13

theorem execCmdTimeout_keeps {s0 : State} {t : ℕ} {hub : Fin 24} {ctag : ℕ} {s : State} (hk : Keeps s0 s) :
    KeepsO s0 (execCmdTimeout t hub ctag s) := by
  unfold execCmdTimeout
  lift_lets
  intro u0
  have h1 : Keeps s0 u0 := by
    unfold u0
    refine begin_keeps ?_
    exact hk
  clear_value u0
  refine KeepsO.next ?_
  split
  · rename_i q2 q3
    exact h1
  · rename_i q4 q5 q6
    lift_lets
    intro u7
    clear_value u7
    intro u8
    have h9 : Keeps s0 u8 := by
      unfold u8
      refine setHub_keeps ?_
      exact h1
    clear_value u8
    intro u10
    have h11 : Keeps s0 u10 := by
      unfold u10
      refine raise_keeps ?_
      refine sticky_keeps ?_
      exact h9
    clear_value u10
    refine Keeps.ite ?_ ?_
    · exact h1
    · refine Keeps.ite ?_ ?_
      · refine toHub_keeps ?_
        refine setHub_keeps ?_
        exact h1
      · split
        · rename_i q12 q13 q14 q15
          refine answer_keeps ?_
          exact h11
        · rename_i q16 q17
          refine Keeps.ite ?_ ?_
          · refine sendCmd_keeps ?_
            exact h11
          · exact h11

theorem execTimeSyncSend_keeps {s0 : State} {t : ℕ} {s : State} (hk : Keeps s0 s) :
    KeepsO s0 (execTimeSyncSend t s) := by
  unfold execTimeSyncSend
  lift_lets
  intro u0
  have h1 : Keeps s0 u0 := by
    unfold u0
    refine begin_keeps ?_
    exact hk
  clear_value u0
  refine KeepsO.next ?_
  refine Keeps.foldl _ ?_ (fun x2 a3 hx4 => ?_)
  · exact h1
  · lift_lets
    intro u5
    clear_value u5
    intro u6
    clear_value u6
    refine Keeps.ite ?_ ?_
    · exact hx4
    · refine toHub_keeps ?_
      refine setHub_keeps ?_
      exact hx4

theorem execTimeSyncResponse_keeps {s0 : State} {t : ℕ} {hub : Fin 24} {valid : Bool} {seq : ℕ} {t2 : ℕ} {t3 : ℕ} {s : State}
    (hk : Keeps s0 s) :
    KeepsO s0 (execTimeSyncResponse t hub valid seq t2 t3 s) := by
  unfold execTimeSyncResponse
  lift_lets
  intro u0
  have h1 : Keeps s0 u0 := by
    unfold u0
    refine begin_keeps ?_
    exact hk
  clear_value u0
  intro u2
  clear_value u2
  intro u3
  clear_value u3
  refine KeepsO.next ?_
  refine Keeps.ite ?_ ?_
  · refine discardPacket_keeps ?_
    exact h1
  · split
    · rename_i q4 q5
      exact h1
    · rename_i q6 q7 q8
      lift_lets
      intro u9
      clear_value u9
      intro u10
      clear_value u10
      intro u11
      clear_value u11
      refine Keeps.ite ?_ ?_
      · exact h1
      · refine setHub_keeps ?_
        exact h1

theorem execEyeStart_keeps {s0 : State} {t : ℕ} {s : State} (hk : Keeps s0 s) :
    KeepsO s0 (execEyeStart t s) := by
  unfold execEyeStart
  refine KeepsO.next ?_
  refine startEye_keeps ?_
  refine begin_keeps ?_
  exact hk

theorem execEyeDone_keeps {s0 : State} {t : ℕ} {counts : List ℕ} {s : State} (hk : Keeps s0 s) :
    KeepsO s0 (execEyeDone t counts s) := by
  unfold execEyeDone
  lift_lets
  intro u0
  have h1 : Keeps s0 u0 := by
    unfold u0
    refine begin_keeps ?_
    exact hk
  clear_value u0
  intro u2
  clear_value u2
  refine KeepsO.next ?_
  split
  · rename_i q3 q4
    exact h1
  · rename_i q5 q6 q7 q8
    lift_lets
    intro u9
    clear_value u9
    intro u10
    clear_value u10
    intro u11
    clear_value u11
    intro u12
    clear_value u12
    intro u13
    clear_value u13
    intro u14
    have h15 : Keeps s0 u14 := by
      unfold u14
      refine Keeps.other ?_
      exact h1
    clear_value u14
    intro u17
    have h18 : Keeps s0 u17 := by
      unfold u17
      refine setFld_keeps ?_
      refine setFld_keeps ?_
      exact h15
    clear_value u17
    refine raise_keeps ?_
    exact h18

theorem noteCertified_keeps {s0 : State} {s : State} (hk : Keeps s0 s) :
    Keeps s0 (noteCertified s) := by
  unfold noteCertified
  lift_lets
  intro u0
  clear_value u0
  intro u1
  clear_value u1
  refine Keeps.ite ?_ ?_
  · exact hk
  · refine audit_keeps ?_
    refine raise_keeps ?_
    refine Keeps.other ?_
    exact hk

theorem runMessage_keeps {s0 : State} {s : State} {k : ℕ} {tag : ℕ} {changes : Bool} {exempt : Bool} {act : State → State × MsgRes}
    (hk : Keeps s0 s) (h_act : ∀ x, Keeps s0 x → Keeps s0 (act x).1) :
    Keeps s0 (runMessage s k tag changes exempt act) := by
  unfold runMessage
  lift_lets
  intro u0
  clear_value u0
  intro u1
  have h2 : Keeps s0 u1 := by
    unfold u1
    refine setMbx_keeps ?_
    exact hk
  clear_value u1
  split
  · rename_i q3 q4 q5
    lift_lets
    intro u6
    clear_value u6
    refine pump_keeps ?_
    refine setMbx_keeps ?_
    exact hk
  · rename_i q7 q8
    refine Keeps.ite ?_ ?_
    · refine answer_keeps ?_
      exact h2
    · rcases e11 : act u1 with ⟨a9, a10⟩
      dsimp only
      refine Keeps.ite ?_ ?_
      · refine Keeps.fst_of e11 ?_
        refine h_act _ ?_
        exact h2
      · refine answer_keeps ?_
        refine Keeps.fst_of e11 ?_
        refine h_act _ ?_
        exact h2

theorem enterFlight_keeps {s0 : State} {s : State} {k : ℕ} {cls : ℕ} {op : ℕ} {tag : ℕ} (hk : Keeps s0 s) :
    Keeps s0 (enterFlight s k cls op tag) := by
  unfold enterFlight
  refine setMbx_keeps ?_
  exact hk

theorem leavePending_keeps {s0 : State} {s : State} {k : ℕ} {cls : ℕ} {op : ℕ} {tag : ℕ} (hk : Keeps s0 s) :
    Keeps s0 (leavePending s k cls op tag) := by
  unfold leavePending
  refine setMbx_keeps ?_
  exact hk

theorem message_keeps {s0 : State} {s : State} {k : ℕ} {cls : ℕ} {op : ℕ} {tag : ℕ} {changes : Bool} {exempt : Bool}
    {act : State → State × MsgRes} (hk : Keeps s0 s) (h_act : ∀ x, Keeps s0 x → Keeps s0 (act x).1) :
    Keeps s0 (message s k cls op tag changes exempt act) := by
  unfold message
  refine Keeps.ite ?_ ?_
  · exact hk
  · refine Keeps.ite ?_ ?_
    · refine Keeps.ite ?_ ?_
      · exact hk
      · refine runMessage_keeps ?_ (fun x0 hx1 => ?_)
        · refine enterFlight_keeps ?_
          refine takePending_keeps ?_
          exact hk
        · refine h_act _ ?_
          exact hx1
    · refine Keeps.ite ?_ ?_
      · refine sticky_keeps ?_
        exact hk
      · refine Keeps.ite ?_ ?_
        · refine leavePending_keeps ?_
          exact hk
        · refine Keeps.ite ?_ ?_
          · refine endSecure_keeps ?_
            exact hk
          · refine Keeps.ite ?_ ?_
            · refine busyReject_keeps ?_
              exact hk
            · lift_lets
              intro u2
              have h3 : Keeps s0 u2 := by
                unfold u2
                refine countTaken_keeps ?_
                exact hk
              clear_value u2
              intro u4
              clear_value u4
              refine Keeps.ite ?_ ?_
              · refine runMessage_keeps ?_ (fun x5 hx6 => ?_)
                · refine enterFlight_keeps ?_
                  exact h3
                · refine h_act _ ?_
                  exact hx6
              · refine refuseTaken_keeps ?_
                exact h3

theorem execHeadHubCmd_keeps {s0 : State} {t : ℕ} {ch : Fin 6} {tag : ℕ} {hub : ℕ} {cmd : ℕ} {args : List Byte} {s : State}
    (hk : Keeps s0 s) :
    KeepsO s0 (execHeadHubCmd t ch tag hub cmd args s) := by
  unfold execHeadHubCmd
  refine KeepsO.next ?_
  refine message_keeps ?_ (fun x0 hx1 => ?_)
  · refine begin_keeps ?_
    exact hk
  · split
    · rename_i q2
      exact hx1
    · rename_i q3
      split
      · rename_i q4
        exact hx1
      · rename_i q5
        dsimp only
        refine sendCmd_keeps ?_
        exact hx1

theorem execDiagEyeGrid_keeps {s0 : State} {t : ℕ} {ch : Fin 6} {tag : ℕ} {lane : ℕ} {data : DataRef} {s : State}
    (hk : Keeps s0 s) :
    KeepsO s0 (execDiagEyeGrid t ch tag lane data s) := by
  unfold execDiagEyeGrid
  refine KeepsO.next ?_
  refine message_keeps ?_ (fun x0 hx1 => ?_)
  · refine begin_keeps ?_
    exact hk
  · split
    · rename_i q2
      exact hx1
    · rename_i q3
      split
      · rename_i q4
        exact hx1
      · rename_i q5
        split
        · rename_i q6 q7
          exact hx1
        · rename_i q8 q9 q10
          dsimp only
          refine emit_keeps ?_
          exact hx1

theorem startGroups_keeps {s0 : State} {s : State} (hk : Keeps s0 s) :
    Keeps s0 (startGroups s) := by
  unfold startGroups
  refine Keeps.foldl _ ?_ (fun x0 a1 hx2 => ?_)
  · exact hk
  · refine Keeps.ite ?_ ?_
    · exact hx2
    · refine Keeps.ite ?_ ?_
      · refine startTrain_keeps ?_
        exact hx2
      · refine raise_keeps ?_
        exact hx2

theorem execLaneStateRepeat_keeps {s0 : State} {t : ℕ} {hub : Fin 24} {s : State} (hk : Keeps s0 s) :
    KeepsO s0 (execLaneStateRepeat t hub s) := by
  unfold execLaneStateRepeat
  lift_lets
  intro u0
  have h1 : Keeps s0 u0 := by
    unfold u0
    refine begin_keeps ?_
    exact hk
  clear_value u0
  intro u2
  clear_value u2
  refine KeepsO.next ?_
  refine Keeps.ite ?_ ?_
  · refine sendTraining_keeps ?_
    exact h1
  · refine Keeps.ite ?_ ?_
    · refine sendLaneState_keeps ?_
      exact h1
    · exact h1

end Sys2Proof.Laws
end

