-- ==== Sys2Proof/Laws/KeepsImage.lean ====
section
/-!
SUPPORT. Every operation and command of the colour loop, the swap of sets, the image store and firing (chapters 04, 07, 09, 12) keeps the queue and the canonical
banks, one lemma each.
-/
namespace Sys2Proof.Laws

open Sys2Proof.Machine

theorem sendFire_keeps {s0 : State} {s : State} {line : ℤ} {rows : List (ℕ × ℕ × Bool × Option ℕ)} (hk : Keeps s0 s) :
    Keeps s0 (sendFire s line rows) := by
  unfold sendFire
  refine Keeps.foldl _ ?_ (fun x0 a1 hx2 => ?_)
  · exact hk
  · refine toHub_keeps ?_
    exact hx2

theorem reviseLine_keeps {s0 : State} {s : State} {c : ℕ} {l : SentLine} (hk : Keeps s0 s) :
    Keeps s0 (reviseLine s c l).1 := by
  unfold reviseLine
  split
  · rename_i q0 q1
    exact hk
  · rename_i q2 q3 q4
    lift_lets
    intro u5
    clear_value u5
    intro u6
    clear_value u6
    split
    · rename_i q7
      exact hk
    · rename_i q8
      dsimp only
      refine sendFire_keeps ?_
      exact hk

theorem setChan_keeps {s0 : State} {s : State} {c : ℕ} {f : Chan → Chan} (hk : Keeps s0 s) :
    Keeps s0 (setChan s c f) := by
  unfold setChan
  refine Keeps.other ?_
  exact hk

theorem reviseChan_keeps {s0 : State} {s : State} {c : ℕ} (hk : Keeps s0 s) :
    Keeps s0 (reviseChan s c) := by
  unfold reviseChan
  rcases e2 : List.foldl (fun a l => match if (l.withdrawn || l.crawl) = true then (a.1, l) else reviseLine a.1 c l with | (s, l) => (s, a.2 ++ [l])) (s, []) (chan s c).sent with ⟨a0, a1⟩
  dsimp only
  refine setChan_keeps ?_
  refine Keeps.foldl_fst _ ?_ (fun x3 a4 hx5 => ?_)
  · exact hk
  · dsimp only
    split
    · rename_i q6
      exact hx5
    · rename_i q7
      refine reviseLine_keeps ?_
      exact hx5

theorem reviseAll_keeps {s0 : State} {s : State} (hk : Keeps s0 s) :
    Keeps s0 (reviseAll s) := by
  unfold reviseAll
  refine Keeps.ite ?_ ?_
  · exact hk
  · refine Keeps.foldl _ ?_ (fun x0 a1 hx2 => ?_)
    · exact hk
    · refine reviseChan_keeps ?_
      exact hx2

theorem setCam_keeps {s0 : State} {s : State} {k : ℕ} {f : CamPort → CamPort} (hk : Keeps s0 s) :
    Keeps s0 (setCam s k f) := by
  unfold setCam
  refine Keeps.other ?_
  exact hk

theorem handOff_keeps {s0 : State} {s : State} (hk : Keeps s0 s) :
    Keeps s0 (handOff s) := by
  unfold handOff
  refine Keeps.ite ?_ ?_
  · exact hk
  · lift_lets
    intro u0
    clear_value u0
    intro u1
    clear_value u1
    intro u2
    clear_value u2
    refine setFld_keeps ?_
    refine Keeps.other ?_
    exact hk

theorem setDram_keeps {s0 : State} {s : State} {n : ℕ} {f : DramChan → DramChan} (hk : Keeps s0 s) :
    Keeps s0 (setDram s n f) := by
  unfold setDram
  refine Keeps.other ?_
  exact hk

theorem finishAccess_keeps {s0 : State} {s : State} {u : MemUser} (hk : Keeps s0 s) :
    Keeps s0 (finishAccess s u) := by
  unfold finishAccess
  refine Keeps.foldl _ ?_ (fun x0 a1 hx2 => ?_)
  · exact hk
  · refine setDram_keeps ?_
    exact hx2

theorem endRead_keeps {s0 : State} {s : State} {c : ℕ} {n : ℕ} (hk : Keeps s0 s) :
    Keeps s0 (endRead s c n) := by
  unfold endRead
  lift_lets
  intro u0
  have h1 : Keeps s0 u0 := by
    unfold u0
    refine finishAccess_keeps ?_
    exact hk
  clear_value u0
  intro u2
  clear_value u2
  intro u3
  clear_value u3
  refine Keeps.other ?_
  exact h1

theorem stopFetch_keeps {s0 : State} {s : State} (hk : Keeps s0 s) :
    Keeps s0 (stopFetch s) := by
  unfold stopFetch
  refine Keeps.foldl _ ?_ (fun x0 a1 hx2 => ?_)
  · exact hk
  · lift_lets
    intro u3
    have h4 : Keeps s0 u3 := by
      unfold u3
      refine Keeps.foldl _ ?_ (fun x5 a6 hx7 => ?_)
      · exact hx2
      · refine endRead_keeps ?_
        exact hx7
    clear_value u3
    refine setChan_keeps ?_
    exact h4

theorem withdrawChan_keeps {s0 : State} {s : State} {c : ℕ} (hk : Keeps s0 s) :
    Keeps s0 (withdrawChan s c) := by
  unfold withdrawChan
  lift_lets
  intro u0
  have h1 : Keeps s0 u0 := by
    unfold u0
    exact hk
  clear_value u0
  intro u2
  have h3 : Keeps s0 u2 := by
    unfold u2
    refine Keeps.foldl _ ?_ (fun x4 a5 hx6 => ?_)
    · exact hk
    · refine sendFire_keeps ?_
      exact hx6
  clear_value u2
  refine setChan_keeps ?_
  exact h3

theorem withdrawAll_keeps {s0 : State} {s : State} (hk : Keeps s0 s) :
    Keeps s0 (withdrawAll s) := by
  unfold withdrawAll
  refine Keeps.foldl _ ?_ (fun x0 a1 hx2 => ?_)
  · exact hk
  · refine withdrawChan_keeps ?_
    exact hx2

theorem endJob_keeps {s0 : State} {s : State} {cause : ℕ} (hk : Keeps s0 s) :
    Keeps s0 (endJob s cause) := by
  unfold endJob
  lift_lets
  intro u0
  clear_value u0
  intro u1
  have h2 : Keeps s0 u1 := by
    unfold u1
    refine stopFetch_keeps ?_
    refine Keeps.other ?_
    exact hk
  clear_value u1
  intro u4
  clear_value u4
  refine doorbell_keeps ?_
  refine raise_keeps ?_
  refine Keeps.other ?_
  exact h2

theorem request_keeps {s0 : State} {s : State} {u : MemUser} {cls : ℕ} {write : Bool} {rows : List RowId} (hk : Keeps s0 s) :
    Keeps s0 (request s u cls write rows) := by
  unfold request
  refine Keeps.foldl _ ?_ (fun x0 a1 hx2 => ?_)
  · exact hk
  · refine setDram_keeps ?_
    exact hx2

theorem beginRead_keeps {s0 : State} {s : State} {c : ℕ} {n : ℕ} (hk : Keeps s0 s) :
    Keeps s0 (beginRead s c n) := by
  unfold beginRead
  lift_lets
  intro u0
  clear_value u0
  intro u1
  clear_value u1
  refine request_keeps ?_
  refine Keeps.other ?_
  exact hk

theorem startReads_keeps {s0 : State} {s : State} {c : ℕ} (hk : Keeps s0 s) :
    Keeps s0 (startReads s c) := by
  unfold startReads
  lift_lets
  intro u0
  clear_value u0
  intro u1
  clear_value u1
  intro u2
  clear_value u2
  intro u3
  have h4 : Keeps s0 u3 := by
    unfold u3
    refine Keeps.foldl _ ?_ (fun x5 a6 hx7 => ?_)
    · exact hk
    · refine beginRead_keeps ?_
      exact hx7
  clear_value u3
  intro u8
  clear_value u8
  refine Keeps.other ?_
  exact h4

theorem setPathNow_keeps {s0 : State} {s : State} {c : ℕ} {hist : Bool} (hk : Keeps s0 s) :
    Keeps s0 (setPathNow s c hist) := by
  unfold setPathNow
  refine setFld_keeps ?_
  exact hk

theorem retrainReport_keeps {s0 : State} {s : State} {n : ℕ} {temp : ℤ} (hk : Keeps s0 s) :
    Keeps s0 (retrainReport s n temp) := by
  unfold retrainReport
  lift_lets
  intro u0
  clear_value u0
  split
  · rename_i q1 q2 q3
    refine setDram_keeps ?_
    exact hk
  · rename_i q4 q5
    refine Keeps.ite ?_ ?_
    · refine setDram_keeps ?_
      exact hk
    · exact hk

theorem preempt_keeps {s0 : State} {s : State} {n : ℕ} (hk : Keeps s0 s) :
    Keeps s0 (preempt s n) := by
  unfold preempt
  rcases e2 : fresh s with ⟨a0, a1⟩
  dsimp only
  refine raise_keeps ?_
  refine sticky_keeps ?_
  refine bump_keeps ?_
  refine Keeps.other ?_
  refine setDram_keeps ?_
  refine Keeps.snd_of e2 ?_
  refine fresh_keeps ?_
  exact hk

theorem refreshReport_keeps {s0 : State} {s : State} {n : ℕ} {hot : Bool} (hk : Keeps s0 s) :
    Keeps s0 (refreshReport s n hot) := by
  unfold refreshReport
  lift_lets
  intro u0
  clear_value u0
  intro u1
  have h2 : Keeps s0 u1 := by
    unfold u1
    refine setDram_keeps ?_
    exact hk
  clear_value u1
  intro u3
  have h4 : Keeps s0 u3 := by
    unfold u3
    refine raise_keeps ?_
    refine sticky_keeps ?_
    exact h2
  clear_value u3
  refine Keeps.ite ?_ ?_
  · refine Keeps.ite ?_ ?_
    · refine preempt_keeps ?_
      exact h4
    · exact h4
  · refine Keeps.ite ?_ ?_
    · refine setDram_keeps ?_
      exact hk
    · exact hk

theorem renewLoads_keeps {s0 : State} {s : State} (hk : Keeps s0 s) :
    Keeps s0 (renewLoads s) := by
  unfold renewLoads
  refine Keeps.ite ?_ ?_
  · refine Keeps.foldl _ ?_ (fun x0 a1 hx2 => ?_)
    · exact hk
    · refine setDram_keeps ?_
      exact hx2
  · exact hk

theorem allocGrains_keeps {s0 : State} {s : State} {len : ℕ} {avoid : List (ℕ × ℕ)} (hk : Keeps s0 s) :
    Keeps s0 (allocGrains s len avoid).2 := by
  unfold allocGrains
  lift_lets
  intro u0
  clear_value u0
  intro u1
  clear_value u1
  intro u2
  clear_value u2
  rcases e5 : fresh s with ⟨a3, a4⟩
  dsimp only
  refine Keeps.snd_of e5 ?_
  refine fresh_keeps ?_
  exact hk

theorem startMove_keeps {s0 : State} {s : State} {c : ℕ} {h : ℕ} {i : ℕ} (hk : Keeps s0 s) :
    Keeps s0 (startMove s c h i) := by
  unfold startMove
  split
  · rename_i q0 q1
    exact hk
  · rename_i q2 q3 q4
    refine Keeps.ite ?_ ?_
    · exact hk
    · rcases e7 : allocGrains s q3.bytes.length ((startBank s q3.grains).toList ++ picksBanks s h i) with ⟨a5, a6⟩
      dsimp only
      refine request_keeps ?_
      refine request_keeps ?_
      refine Keeps.other ?_
      refine Keeps.snd_of e7 ?_
      refine allocGrains_keeps ?_
      exact hk

theorem closeLatency_keeps {s0 : State} {s : State} {c : ℕ} (hk : Keeps s0 s) :
    Keeps s0 (closeLatency s c) := by
  unfold closeLatency
  lift_lets
  intro u0
  clear_value u0
  intro u1
  have h2 : Keeps s0 u1 := by
    unfold u1
    refine Keeps.other ?_
    exact hk
  clear_value u1
  intro u4
  have h5 : Keeps s0 u4 := by
    unfold u4
    refine setFld_keeps ?_
    exact h2
  clear_value u4
  refine Keeps.ite ?_ ?_
  · split
    · rename_i q6 q7 q8
      refine startMove_keeps ?_
      exact h5
    · rename_i q9 q10
      exact h5
  · exact h5

theorem noteLatency_keeps {s0 : State} {s : State} {c : ℕ} {ns : ℕ} (hk : Keeps s0 s) :
    Keeps s0 (noteLatency s c ns) := by
  unfold noteLatency
  refine Keeps.other ?_
  exact hk

theorem placeLadder_keeps {s0 : State} {s : State} {line : ℤ} (hk : Keeps s0 s) :
    Keeps s0 (placeLadder s line) := by
  unfold placeLadder
  lift_lets
  intro u0
  clear_value u0
  intro u1
  clear_value u1
  intro u2
  clear_value u2
  refine Keeps.other ?_
  exact hk

theorem noLadderSlot_keeps {s0 : State} {s : State} {web : ℤ} (hk : Keeps s0 s) :
    Keeps s0 (noLadderSlot s web) := by
  unfold noLadderSlot
  refine Keeps.ite ?_ ?_
  · exact hk
  · refine raise_keeps ?_
    refine sticky_keeps ?_
    refine Keeps.other ?_
    exact hk

theorem scheduleLadder_keeps {s0 : State} {s : State} (hk : Keeps s0 s) :
    Keeps s0 (scheduleLadder s) := by
  unfold scheduleLadder
  lift_lets
  intro u0
  clear_value u0
  intro u1
  clear_value u1
  intro u2
  clear_value u2
  intro u3
  clear_value u3
  refine Keeps.ite ?_ ?_
  · exact hk
  · split
    · rename_i q4 q5 q6
      refine Keeps.ite ?_ ?_
      · exact hk
      · refine Keeps.ite ?_ ?_
        · refine placeLadder_keeps ?_
          exact hk
        · refine Keeps.ite ?_ ?_
          · refine placeLadder_keeps ?_
            refine noLadderSlot_keeps ?_
            exact hk
          · exact hk
    · rename_i q7 q8
      refine Keeps.ite ?_ ?_
      · refine noLadderSlot_keeps ?_
        exact hk
      · exact hk

theorem applyNozzle_keeps {s0 : State} {a : State × ℕ} {x : NozzleChange} (hk : Keeps s0 a.1) :
    Keeps s0 (applyNozzle a x).1 := by
  unfold applyNozzle
  split
  · rename_i q0
    exact hk
  · rename_i q1
    dsimp only
    refine setFld_keeps ?_
    exact hk

theorem applyNozzles_keeps {s0 : State} {s : State} {c : ℕ} {xs : List NozzleChange} (hk : Keeps s0 s) :
    Keeps s0 (applyNozzles s c xs) := by
  unfold applyNozzles
  lift_lets
  intro u0
  clear_value u0
  intro u1
  have h2 : Keeps s0 u1 := by
    unfold u1
    refine Keeps.other ?_
    exact hk
  clear_value u1
  rcases e6 : List.foldl applyNozzle (u1, 0) xs with ⟨a4, a5⟩
  dsimp only
  refine Keeps.ite ?_ ?_
  · refine Keeps.fst_of e6 ?_
    refine Keeps.foldl_fst _ ?_ (fun x7 a8 hx9 => ?_)
    · exact h2
    · refine applyNozzle_keeps ?_
      exact hx9
  · refine raise_keeps ?_
    refine Keeps.fst_of e6 ?_
    refine Keeps.foldl_fst _ ?_ (fun x10 a11 hx12 => ?_)
    · exact h2
    · refine applyNozzle_keeps ?_
      exact hx12

theorem pickNozzles_keeps {s0 : State} {s : State} (hk : Keeps s0 s) :
    Keeps s0 (pickNozzles s) := by
  unfold pickNozzles
  refine Keeps.foldl _ ?_ (fun x0 a1 hx2 => ?_)
  · exact hk
  · refine applyNozzles_keeps ?_
    exact hx2

theorem writeEntries_keeps {s0 : State} {s : State} {c : ℕ} {col : ℕ} {es : List ℕ} (hk : Keeps s0 s) :
    Keeps s0 (writeEntries s c col es) := by
  unfold writeEntries
  refine Keeps.live ?_ (fun hb0 => ?_)
  · exact hk
  · refine bankWf_entriesInto ?_ _ _ _
    assumption

theorem manualBlock_keeps {s0 : State} {s : State} {c : ℕ} {line : ℤ} (hk : Keeps s0 s) :
    Keeps s0 (manualBlock s c line) := by
  unfold manualBlock
  split
  · rename_i q0 q1
    exact hk
  · rename_i q2 q3 q4
    lift_lets
    intro u5
    clear_value u5
    intro u6
    have h7 : Keeps s0 u6 := by
      unfold u6
      refine bump_keeps ?_
      refine writeEntries_keeps ?_
      exact hk
    clear_value u6
    intro u8
    have h9 : Keeps s0 u8 := by
      unfold u8
      refine raise_keeps ?_
      exact h7
    clear_value u8
    intro u10
    clear_value u10
    refine Keeps.ite ?_ ?_
    · refine Keeps.other ?_
      exact h9
    · exact hk

theorem restOfManual_keeps {s0 : State} {s : State} {c : ℕ} (hk : Keeps s0 s) :
    Keeps s0 (restOfManual s c) := by
  unfold restOfManual
  refine Keeps.foldl _ ?_ (fun x0 a1 hx2 => ?_)
  · exact hk
  · refine manualBlock_keeps ?_
    exact hx2

theorem swapSpan_keeps {s0 : State} {s : State} {c : ℕ} {line : ℤ} {old : CfgSet} {new : CfgSet} (hk : Keeps s0 s) :
    Keeps s0 (swapSpan s c line old new) := by
  unfold swapSpan
  lift_lets
  intro u0
  clear_value u0
  intro u1
  clear_value u1
  intro u2
  clear_value u2
  refine Keeps.ite ?_ ?_
  · exact hk
  · refine setChan_keeps ?_
    exact hk

theorem swapPath_keeps {s0 : State} {s : State} {c : ℕ} {line : ℤ} {old : CfgSet} {new : CfgSet} (hk : Keeps s0 s) :
    Keeps s0 (swapPath s c line old new) := by
  unfold swapPath
  refine Keeps.ite ?_ ?_
  · exact hk
  · lift_lets
    intro u0
    clear_value u0
    intro u1
    clear_value u1
    intro u2
    have h3 : Keeps s0 u2 := by
      unfold u2
      refine Keeps.other ?_
      exact hk
    clear_value u2
    refine setPathNow_keeps ?_
    refine setChan_keeps ?_
    exact h3

theorem swapColour_keeps {s0 : State} {s : State} {c : ℕ} {old : CfgSet} {new : CfgSet} (hk : Keeps s0 s) :
    Keeps s0 (swapColour s c old new).1 := by
  unfold swapColour
  lift_lets
  intro u0
  clear_value u0
  intro u1
  clear_value u1
  intro u2
  clear_value u2
  intro u3
  clear_value u3
  intro u4
  clear_value u4
  intro u5
  clear_value u5
  intro u6
  intro u7
  intro u8
  clear_value u8
  intro u9
  have h10 : Keeps s0 u9 := by
    unfold u9
    refine Keeps.ite ?_ ?_
    · refine Keeps.live ?_ (fun hb11 => ?_)
      · exact hk
      · unfold u7
        refine bankWf_filter ?_ _
        assumption
    · exact hk
  clear_value u9
  intro u12
  have h13 : Keeps s0 u12 := by
    unfold u12
    refine Keeps.ite ?_ ?_
    · refine Keeps.foldl _ ?_ (fun x14 a15 hx16 => ?_)
      · exact h10
      · refine setFld_keeps ?_
        exact hx16
    · exact h10
  clear_value u12
  exact h13

theorem setSwap_keeps {s0 : State} {s : State} {f : Swap → Swap} (hk : Keeps s0 s) :
    Keeps s0 (setSwap s f) := by
  unfold setSwap
  refine Keeps.other ?_
  exact hk

theorem beginManual_keeps {s0 : State} {s : State} {c : ℕ} (hk : Keeps s0 s) :
    Keeps s0 (beginManual s c) := by
  unfold beginManual
  split
  · rename_i q0 q1
    exact hk
  · rename_i q2 q3 q4
    refine Keeps.ite ?_ ?_
    · exact hk
    · rcases e7 : swapColour s c s.sets.active s.sets.shadow with ⟨a5, a6⟩
      dsimp only
      refine setSwap_keeps ?_
      refine bump_keeps ?_
      refine Keeps.other ?_
      refine Keeps.fst_of e7 ?_
      refine swapColour_keeps ?_
      exact hk

theorem swapHeads_keeps {s0 : State} {s : State} {c : ℕ} {line : ℤ} {old : CfgSet} {new : CfgSet} (hk : Keeps s0 s) :
    Keeps s0 (swapHeads s c line old new) := by
  unfold swapHeads
  refine Keeps.foldl _ ?_ (fun x0 a1 hx2 => ?_)
  · exact hk
  · rcases e5 : a1 with ⟨a3, a4⟩
    dsimp only
    refine Keeps.ite ?_ ?_
    · exact hx2
    · refine Keeps.ite ?_ ?_
      · split
        · rename_i q6 q7 q8
          refine Keeps.ite ?_ ?_
          · exact hx2
          · refine sendCmd_keeps ?_
            exact hx2
        · rename_i q9 q10
          exact hx2
      · refine toHub_keeps ?_
        refine Keeps.other ?_
        split
        · rename_i q12 q13 q14
          refine Keeps.ite ?_ ?_
          · exact hx2
          · refine sendCmd_keeps ?_
            exact hx2
        · rename_i q15 q16
          exact hx2

theorem changeChannel_keeps {s0 : State} {s : State} {c : ℕ} {line : ℤ} (hk : Keeps s0 s) :
    Keeps s0 (changeChannel s c line) := by
  unfold changeChannel
  split
  · rename_i q0 q1
    exact hk
  · rename_i q2 q3 q4
    refine Keeps.ite ?_ ?_
    · exact hk
    · lift_lets
      intro u5
      clear_value u5
      intro u6
      clear_value u6
      intro u7
      have h8 : Keeps s0 u7 := by
        unfold u7
        refine swapSpan_keeps ?_
        refine swapPath_keeps ?_
        refine beginManual_keeps ?_
        refine swapHeads_keeps ?_
        exact hk
      clear_value u7
      refine setSwap_keeps ?_
      exact h8

theorem swapSlots_keeps {s0 : State} {s : State} {old : CfgSet} {new : CfgSet} (hk : Keeps s0 s) :
    Keeps s0 (swapSlots s old new) := by
  unfold swapSlots
  refine Keeps.foldl _ ?_ (fun x0 a1 hx2 => ?_)
  · exact hk
  · split
    · rename_i q3 q4 q5 q6 q7
      refine raise_keeps ?_
      refine sticky_keeps ?_
      exact hx2
    · rename_i q8 q9 q10
      exact hx2

theorem completeSwap_keeps {s0 : State} {s : State} (hk : Keeps s0 s) :
    Keeps s0 (completeSwap s) := by
  unfold completeSwap
  split
  · rename_i q0 q1
    exact hk
  · rename_i q2 q3 q4
    refine Keeps.ite ?_ ?_
    · lift_lets
      intro u5
      clear_value u5
      intro u6
      clear_value u6
      intro u7
      clear_value u7
      intro u8
      clear_value u8
      intro u9
      clear_value u9
      intro u10
      have h11 : Keeps s0 u10 := by
        unfold u10
        refine Keeps.other ?_
        exact hk
      clear_value u10
      refine doorbell_keeps ?_
      refine raise_keeps ?_
      refine swapSlots_keeps ?_
      exact h11
    · exact hk

theorem changeTimed_keeps {s0 : State} {s : State} (hk : Keeps s0 s) :
    Keeps s0 (changeTimed s) := by
  unfold changeTimed
  split
  · rename_i q0 q1
    exact hk
  · rename_i q2 q3 q4
    refine Keeps.ite ?_ ?_
    · exact hk
    · lift_lets
      intro u5
      clear_value u5
      intro u6
      clear_value u6
      intro u7
      clear_value u7
      intro u8
      have h9 : Keeps s0 u8 := by
        unfold u8
        refine Keeps.ite ?_ ?_
        · exact hk
        · refine Keeps.other ?_
          exact hk
      clear_value u8
      intro u11
      have h12 : Keeps s0 u11 := by
        unfold u11
        refine setSwap_keeps ?_
        exact h9
      clear_value u11
      refine Keeps.foldl _ ?_ (fun x13 a14 hx15 => ?_)
      · exact h12
      · refine Keeps.ite ?_ ?_
        · exact hx15
        · refine changeChannel_keeps ?_
          exact hx15

theorem changeAll_keeps {s0 : State} {s : State} (hk : Keeps s0 s) :
    Keeps s0 (changeAll s) := by
  unfold changeAll
  lift_lets
  intro u0
  have h1 : Keeps s0 u0 := by
    unfold u0
    refine Keeps.foldl _ ?_ (fun x2 a3 hx4 => ?_)
    · exact hk
    · refine restOfManual_keeps ?_
      refine changeChannel_keeps ?_
      exact hx4
  clear_value u0
  refine completeSwap_keeps ?_
  refine changeTimed_keeps ?_
  exact h1

theorem swapAtBoundary_keeps {s0 : State} {s : State} (hk : Keeps s0 s) :
    Keeps s0 (swapAtBoundary s) := by
  unfold swapAtBoundary
  split
  · rename_i q0 q1
    exact hk
  · rename_i q2 q3 q4
    refine Keeps.ite ?_ ?_
    · refine changeAll_keeps ?_
      exact hk
    · refine Keeps.ite ?_ ?_
      · exact hk
      · refine Keeps.ite ?_ ?_
        · refine completeSwap_keeps ?_
          refine changeTimed_keeps ?_
          exact hk
        · exact hk

theorem freeze_keeps {s0 : State} {s : State} (hk : Keeps s0 s) :
    Keeps s0 (freeze s) := by
  unfold freeze
  refine withdrawAll_keeps ?_
  refine Keeps.other ?_
  exact hk

theorem toReady_keeps {s0 : State} {s : State} (hk : Keeps s0 s) :
    Keeps s0 (toReady s) := by
  unfold toReady
  refine changeAll_keeps ?_
  refine setState_keeps ?_
  exact hk

theorem checkJob_keeps {s0 : State} {s : State} (hk : Keeps s0 s) :
    Keeps s0 (checkJob s) := by
  unfold checkJob
  refine Keeps.ite ?_ ?_
  · refine Keeps.ite ?_ ?_
    · refine toReady_keeps ?_
      refine endJob_keeps ?_
      exact hk
    · lift_lets
      intro u0
      clear_value u0
      intro u1
      clear_value u1
      refine Keeps.ite ?_ ?_
      · refine raise_keeps ?_
        refine setState_keeps ?_
        exact hk
      · refine toReady_keeps ?_
        refine endJob_keeps ?_
        exact hk
  · exact hk

theorem resumeChan_keeps {s0 : State} {s : State} {c : ℕ} (hk : Keeps s0 s) :
    Keeps s0 (resumeChan s c) := by
  unfold resumeChan
  refine setChan_keeps ?_
  exact hk

theorem swapAtPass_keeps {s0 : State} {s : State} (hk : Keeps s0 s) :
    Keeps s0 (swapAtPass s) := by
  unfold swapAtPass
  split
  · rename_i q0 q1
    exact hk
  · rename_i q2 q3 q4
    refine Keeps.ite ?_ ?_
    · lift_lets
      intro u5
      have h6 : Keeps s0 u5 := by
        unfold u5
        refine Keeps.foldl _ ?_ (fun x7 a8 hx9 => ?_)
        · exact hk
        · refine changeChannel_keeps ?_
          exact hx9
      clear_value u5
      refine completeSwap_keeps ?_
      refine setSwap_keeps ?_
      exact h6
    · exact hk

theorem swapBefore_keeps {s0 : State} {s : State} {c : ℕ} {line : ℤ} (hk : Keeps s0 s) :
    Keeps s0 (swapBefore s c line) := by
  unfold swapBefore
  split
  · rename_i q0 q1 q2
    refine Keeps.ite ?_ ?_
    · refine completeSwap_keeps ?_
      refine changeChannel_keeps ?_
      exact hk
    · exact hk
  · rename_i q3 q4
    exact hk

theorem passLine_keeps {s0 : State} {s : State} {c : ℕ} {line : ℤ} (hk : Keeps s0 s) :
    Keeps s0 (passLine s c line) := by
  unfold passLine
  refine setChan_keeps ?_
  exact hk

theorem dropLine_keeps {s0 : State} {s : State} {c : ℕ} {line : ℤ} (hk : Keeps s0 s) :
    Keeps s0 (dropLine s c line) := by
  unfold dropLine
  lift_lets
  intro u0
  have h1 : Keeps s0 u0 := by
    unfold u0
    refine passLine_keeps ?_
    refine bump_keeps ?_
    exact hk
  clear_value u0
  refine setChan_keeps ?_
  exact h1

theorem noteMissed_keeps {s0 : State} {s : State} {c : ℕ} {line : ℤ} (hk : Keeps s0 s) :
    Keeps s0 (noteMissed s c line) := by
  unfold noteMissed
  lift_lets
  intro u0
  have h1 : Keeps s0 u0 := by
    unfold u0
    refine sticky_keeps ?_
    exact hk
  clear_value u0
  refine Keeps.ite ?_ ?_
  · exact h1
  · refine raise_keeps ?_
    refine setChan_keeps ?_
    exact h1

theorem manualFrom_keeps {s0 : State} {s : State} {c : ℕ} {line : ℤ} (hk : Keeps s0 s) :
    Keeps s0 (manualFrom s c line) := by
  unfold manualFrom
  split
  · rename_i q0 q1 q2
    refine Keeps.ite ?_ ?_
    · refine beginManual_keeps ?_
      exact hk
    · exact hk
  · rename_i q3 q4
    exact hk

theorem applyCopy_keeps {s0 : State} {s : State} {c : ℕ} {x : CorrCopy} (hk : Keeps s0 s) :
    Keeps s0 (applyCopy s c x) := by
  unfold applyCopy
  lift_lets
  intro u0
  intro u1
  clear_value u1
  intro u2
  intro u3
  clear_value u3
  refine setChan_keeps ?_
  refine Keeps.live ?_ (fun hb4 => ?_)
  · exact hk
  · unfold u0
    refine bankWf_foldl (fun b5 a6 hb7 => ?_) _ ?_
    · refine bankWf_bankWrite ?_ _ _
      assumption
    · refine bankWf_filter ?_ _
      assumption

theorem dueCopy_keeps {s0 : State} {s : State} {c : ℕ} {line : ℤ} (hk : Keeps s0 s) :
    Keeps s0 (dueCopy s c line) := by
  unfold dueCopy
  split
  · rename_i q0 q1 q2
    refine Keeps.ite ?_ ?_
    · refine applyCopy_keeps ?_
      exact hk
    · exact hk
  · rename_i q3 q4
    exact hk

theorem applyBlock_keeps {s0 : State} {s : State} {b : CorrBlock} (hk : Keeps s0 s) :
    Keeps s0 (applyBlock s b) := by
  unfold applyBlock
  lift_lets
  intro u0
  clear_value u0
  intro u1
  have h2 : Keeps s0 u1 := by
    unfold u1
    refine writeEntries_keeps ?_
    refine Keeps.other ?_
    exact hk
  clear_value u1
  intro u4
  have h5 : Keeps s0 u4 := by
    unfold u4
    refine setChan_keeps ?_
    exact h2
  clear_value u4
  refine raise_keeps ?_
  refine bump_keeps ?_
  exact h5

theorem dueBlocks_keeps {s0 : State} {s : State} {c : ℕ} {line : ℤ} (hk : Keeps s0 s) :
    Keeps s0 (dueBlocks s c line) := by
  unfold dueBlocks
  refine Keeps.foldl _ ?_ (fun x0 a1 hx2 => ?_)
  · exact hk
  · refine applyBlock_keeps ?_
    exact hx2

theorem dueNozzles_keeps {s0 : State} {s : State} {c : ℕ} {line : ℤ} (hk : Keeps s0 s) :
    Keeps s0 (dueNozzles s c line) := by
  unfold dueNozzles
  refine applyNozzles_keeps ?_
  exact hk

theorem issueBlock_keeps {s0 : State} {s : State} {c : ℕ} (hk : Keeps s0 s) :
    Keeps s0 (issueBlock s c) := by
  unfold issueBlock
  split
  · rename_i q0 q1
    exact hk
  · rename_i q2 q3 q4
    refine Keeps.ite ?_ ?_
    · exact hk
    · lift_lets
      intro u5
      clear_value u5
      intro u6
      intro u7
      clear_value u7
      intro u8
      clear_value u8
      intro u9
      have h10 : Keeps s0 u9 := by
        unfold u9
        refine Keeps.other ?_
        exact hk
      clear_value u9
      intro u12
      clear_value u12
      refine Keeps.other ?_
      exact h10

theorem missLine_keeps {s0 : State} {s : State} {c : ℕ} {line : ℤ} (hk : Keeps s0 s) :
    Keeps s0 (missLine s c line) := by
  unfold missLine
  refine noteMissed_keeps ?_
  refine passLine_keeps ?_
  refine bump_keeps ?_
  exact hk

theorem recordCoverage_keeps {s0 : State} {s : State} {c : ℕ} {cfg : CfgSet} {line : ℤ} {rows : List RowDots} (hk : Keeps s0 s) :
    Keeps s0 (recordCoverage s c cfg line rows) := by
  unfold recordCoverage
  lift_lets
  intro u0
  clear_value u0
  intro u1
  clear_value u1
  refine Keeps.ite ?_ ?_
  · exact hk
  · refine Keeps.foldl _ ?_ (fun x2 a3 hx4 => ?_)
    · exact hk
    · lift_lets
      intro u5
      split
      · rename_i q6 q7
        exact hx4
      · rename_i q8 q9 q10 q11
        refine Keeps.other ?_
        exact hx4

theorem damageStrip_keeps {s0 : State} {s : State} {h : ℕ} {i : ℕ} (hk : Keeps s0 s) :
    Keeps s0 (damageStrip s h i) := by
  unfold damageStrip
  split
  · rename_i q0 q1
    exact hk
  · rename_i q2 q3 q4
    lift_lets
    intro u5
    clear_value u5
    intro u6
    have h7 : Keeps s0 u6 := by
      unfold u6
      refine Keeps.other ?_
      exact hk
    clear_value u6
    intro u9
    have h10 : Keeps s0 u9 := by
      unfold u9
      refine Keeps.ite ?_ ?_
      · exact hk
      · refine doorbell_keeps ?_
        refine raise_keeps ?_
        refine sticky_keeps ?_
        exact h7
    clear_value u9
    refine Keeps.ite ?_ ?_
    · refine toPeer_keeps ?_
      exact h10
    · exact h10

theorem clearRow_keeps {s0 : State} {s : State} {r : RowId} (hk : Keeps s0 s) :
    Keeps s0 (clearRow s r) := by
  unfold clearRow
  refine Keeps.foldl _ ?_ (fun x0 a1 hx2 => ?_)
  · exact hk
  · refine Keeps.foldl _ ?_ (fun x3 a4 hx5 => ?_)
    · exact hx2
    · refine Keeps.ite ?_ ?_
      · exact hx5
      · rcases e8 : allocGrains x3 (grainBytes x3) [] with ⟨a6, a7⟩
        dsimp only
        refine Keeps.other ?_
        refine Keeps.snd_of e8 ?_
        refine allocGrains_keeps ?_
        exact hx5

theorem retireRow_keeps {s0 : State} {s : State} {r : RowId} (hk : Keeps s0 s) :
    Keeps s0 (retireRow s r) := by
  unfold retireRow
  lift_lets
  intro u0
  clear_value u0
  intro u1
  have h2 : Keeps s0 u1 := by
    unfold u1
    refine Keeps.other ?_
    exact hk
  clear_value u1
  intro u4
  have h5 : Keeps s0 u4 := by
    unfold u4
    refine Keeps.ite ?_ ?_
    · refine clearRow_keeps ?_
      exact h2
    · exact h2
  clear_value u4
  refine raise_keeps ?_
  refine setFld_keeps ?_
  exact h5

theorem correctedError_keeps {s0 : State} {s : State} {r : RowId} (hk : Keeps s0 s) :
    Keeps s0 (correctedError s r) := by
  unfold correctedError
  lift_lets
  intro u0
  have h1 : Keeps s0 u0 := by
    unfold u0
    refine sticky_keeps ?_
    refine bump_keeps ?_
    exact hk
  clear_value u0
  intro u2
  clear_value u2
  intro u3
  clear_value u3
  intro u4
  have h5 : Keeps s0 u4 := by
    unfold u4
    refine Keeps.other ?_
    exact h1
  clear_value u4
  refine Keeps.ite ?_ ?_
  · refine retireRow_keeps ?_
    exact h5
  · exact h5

theorem uncorrectableError_keeps {s0 : State} {s : State} {r : RowId} {word : ℕ} (hk : Keeps s0 s) :
    Keeps s0 (uncorrectableError s r word) := by
  unfold uncorrectableError
  lift_lets
  intro u0
  have h1 : Keeps s0 u0 := by
    unfold u0
    refine sticky_keeps ?_
    refine bump_keeps ?_
    exact hk
  clear_value u0
  intro u2
  have h3 : Keeps s0 u2 := by
    unfold u2
    refine raise_keeps ?_
    exact h1
  clear_value u2
  intro u4
  have h5 : Keeps s0 u4 := by
    unfold u4
    refine Keeps.foldl _ ?_ (fun x6 a7 hx8 => ?_)
    · exact h3
    · refine damageStrip_keeps ?_
      exact hx8
  clear_value u4
  refine retireRow_keeps ?_
  exact h5

theorem noteEcc_keeps {s0 : State} {s : State} {e : EccAt} (hk : Keeps s0 s) :
    Keeps s0 (noteEcc s e) := by
  unfold noteEcc
  refine Keeps.ite ?_ ?_
  · exact hk
  · split
    · rename_i q0 q1
      exact hk
    · rename_i q2 q3
      refine correctedError_keeps ?_
      exact hk
    · rename_i q4 q5
      refine uncorrectableError_keeps ?_
      exact hk

theorem abandonMove_keeps {s0 : State} {s : State} {m : StripMove} (hk : Keeps s0 s) :
    Keeps s0 (abandonMove s m) := by
  unfold abandonMove
  lift_lets
  intro u0
  clear_value u0
  intro u1
  have h2 : Keeps s0 u1 := by
    unfold u1
    refine finishAccess_keeps ?_
    refine Keeps.other ?_
    exact hk
  clear_value u1
  refine raise_keeps ?_
  refine sticky_keeps ?_
  exact h2

theorem access_keeps {s0 : State} {s : State} {u : MemUser} {cls : ℕ} {write : Bool} {rows : List RowId} (hk : Keeps s0 s) :
    Keeps s0 (access s u cls write rows) := by
  unfold access
  refine finishAccess_keeps ?_
  refine request_keeps ?_
  exact hk

theorem wroteRows_keeps {s0 : State} {s : State} {rows : List RowId} (hk : Keeps s0 s) :
    Keeps s0 (wroteRows s rows) := by
  unfold wroteRows
  refine Keeps.other ?_
  exact hk

theorem stripStored_keeps {s0 : State} {s : State} {h : ℕ} (hk : Keeps s0 s) :
    Keeps s0 (stripStored s h) := by
  unfold stripStored
  refine Keeps.foldl _ ?_ (fun x0 a1 hx2 => ?_)
  · exact hk
  · refine Keeps.ite ?_ ?_
    · refine startReads_keeps ?_
      exact hx2
    · exact hx2

theorem restored_keeps {s0 : State} {s : State} {h : ℕ} {i : ℕ} (hk : Keeps s0 s) :
    Keeps s0 (restored s h i) := by
  unfold restored
  refine doorbell_keeps ?_
  refine raise_keeps ?_
  exact hk

theorem storeStrip_keeps {s0 : State} {s : State} {h : ℕ} {i : ℕ} {bytes : List Byte} {cost : ℕ} {cls : optParam ℕ 2}
    (hk : Keeps s0 s) :
    Keeps s0 (storeStrip s h i bytes cost cls) := by
  unfold storeStrip
  lift_lets
  intro u0
  have h1 : Keeps s0 u0 := by
    unfold u0
    refine Keeps.foldl _ ?_ (fun x2 a3 hx4 => ?_)
    · exact hk
    · refine abandonMove_keeps ?_
      exact hx4
  clear_value u0
  intro u5
  clear_value u5
  intro u6
  clear_value u6
  rcases e9 : allocGrains u0 bytes.length (picksBanks u0 h i) with ⟨a7, a8⟩
  dsimp only
  split
  · rename_i q10 q11
    refine Keeps.ite ?_ ?_
    · refine restored_keeps ?_
      refine Keeps.ite ?_ ?_
      · refine stripStored_keeps ?_
        refine Keeps.other ?_
        refine access_keeps ?_
        refine wroteRows_keeps ?_
        refine Keeps.snd_of e9 ?_
        refine allocGrains_keeps ?_
        exact h1
      · refine Keeps.other ?_
        refine access_keeps ?_
        refine wroteRows_keeps ?_
        refine Keeps.snd_of e9 ?_
        refine allocGrains_keeps ?_
        exact h1
    · refine Keeps.ite ?_ ?_
      · refine stripStored_keeps ?_
        refine Keeps.other ?_
        refine access_keeps ?_
        refine wroteRows_keeps ?_
        refine Keeps.snd_of e9 ?_
        refine allocGrains_keeps ?_
        exact h1
      · refine Keeps.other ?_
        refine access_keeps ?_
        refine wroteRows_keeps ?_
        refine Keeps.snd_of e9 ?_
        refine allocGrains_keeps ?_
        exact h1
  · rename_i q16
    refine Keeps.ite ?_ ?_
    · refine stripStored_keeps ?_
      refine Keeps.other ?_
      refine access_keeps ?_
      refine wroteRows_keeps ?_
      refine Keeps.snd_of e9 ?_
      refine allocGrains_keeps ?_
      exact h1
    · refine Keeps.other ?_
      refine access_keeps ?_
      refine wroteRows_keeps ?_
      refine Keeps.snd_of e9 ?_
      refine allocGrains_keeps ?_
      exact h1

theorem execScrubRead_keeps {s0 : State} {t : ℕ} {found : List (ℕ × EccFound)} {s : State} (hk : Keeps s0 s) :
    KeepsO s0 (execScrubRead t found s) := by
  unfold execScrubRead
  lift_lets
  intro u0
  have h1 : Keeps s0 u0 := by
    unfold u0
    refine begin_keeps ?_
    exact hk
  clear_value u0
  intro u2
  clear_value u2
  intro u3
  clear_value u3
  intro u4
  have h5 : Keeps s0 u4 := by
    unfold u4
    refine access_keeps ?_
    exact h1
  clear_value u4
  intro u6
  clear_value u6
  intro u7
  clear_value u7
  intro u8
  have h9 : Keeps s0 u8 := by
    unfold u8
    refine Keeps.other ?_
    exact h5
  clear_value u8
  refine KeepsO.next ?_
  refine Keeps.ite ?_ ?_
  · exact h1
  · refine Keeps.foldl _ ?_ (fun x11 a12 hx13 => ?_)
    · exact h9
    · refine noteEcc_keeps ?_
      exact hx13

theorem execRefreshDue_keeps {s0 : State} {t : ℕ} {dram : Fin 4} {s : State} (hk : Keeps s0 s) :
    KeepsO s0 (execRefreshDue t dram s) := by
  unfold execRefreshDue
  refine KeepsO.next ?_
  refine setDram_keeps ?_
  refine begin_keeps ?_
  exact hk

theorem execRetrainStart_keeps {s0 : State} {t : ℕ} {dram : Fin 4} {s : State} (hk : Keeps s0 s) :
    KeepsO s0 (execRetrainStart t dram s) := by
  unfold execRetrainStart
  lift_lets
  intro u0
  have h1 : Keeps s0 u0 := by
    unfold u0
    refine begin_keeps ?_
    exact hk
  clear_value u0
  intro u2
  clear_value u2
  intro u3
  have h4 : Keeps s0 u3 := by
    unfold u3
    refine setDram_keeps ?_
    exact h1
  clear_value u3
  intro u5
  clear_value u5
  refine KeepsO.next ?_
  split
  · rename_i q6 q7 q8
    refine Keeps.ite ?_ ?_
    · refine Keeps.other ?_
      exact h4
    · exact h1
  · rename_i q10 q11
    exact h1

theorem judgeEyes_keeps {s0 : State} {s : State} {n : ℕ} {eyes : List EyeWidth} (hk : Keeps s0 s) :
    Keeps s0 (judgeEyes s n eyes) := by
  unfold judgeEyes
  refine Keeps.foldl _ ?_ (fun x0 a1 hx2 => ?_)
  · exact hk
  · refine Keeps.ite ?_ ?_
    · refine raise_keeps ?_
      refine sticky_keeps ?_
      exact hx2
    · exact hx2

theorem execRetrainDone_keeps {s0 : State} {t : ℕ} {dram : Fin 4} {temp : ℤ} {eyes : List EyeWidth} {s : State} (hk : Keeps s0 s) :
    KeepsO s0 (execRetrainDone t dram temp eyes s) := by
  unfold execRetrainDone
  lift_lets
  intro u0
  have h1 : Keeps s0 u0 := by
    unfold u0
    refine begin_keeps ?_
    exact hk
  clear_value u0
  intro u2
  have h3 : Keeps s0 u2 := by
    unfold u2
    refine setDram_keeps ?_
    exact h1
  clear_value u2
  intro u4
  have h5 : Keeps s0 u4 := by
    unfold u4
    refine setFld_keeps ?_
    exact h3
  clear_value u4
  refine KeepsO.next ?_
  refine Keeps.ite ?_ ?_
  · refine calDone_keeps ?_
    refine raise_keeps ?_
    refine judgeEyes_keeps ?_
    exact h5
  · exact h1

theorem execStripMoveCopyDone_keeps {s0 : State} {t : ℕ} {c : Fin 16} {ok : Bool} {ecc : List EccAt} {s : State} (hk : Keeps s0 s) :
    KeepsO s0 (execStripMoveCopyDone t c ok ecc s) := by
  unfold execStripMoveCopyDone
  lift_lets
  intro u0
  have h1 : Keeps s0 u0 := by
    unfold u0
    refine begin_keeps ?_
    exact hk
  clear_value u0
  intro u2
  have h3 : Keeps s0 u2 := by
    unfold u2
    refine finishAccess_keeps ?_
    exact h1
  clear_value u2
  refine KeepsO.next ?_
  split
  · rename_i q4 q5
    exact h1
  · rename_i q6 q7 q8
    lift_lets
    intro u9
    clear_value u9
    intro u10
    have h11 : Keeps s0 u10 := by
      unfold u10
      refine Keeps.foldl _ ?_ (fun x12 a13 hx14 => ?_)
      · exact h3
      · refine noteEcc_keeps ?_
        exact hx14
    clear_value u10
    intro u15
    have h16 : Keeps s0 u15 := by
      unfold u15
      refine wroteRows_keeps ?_
      exact h11
    clear_value u15
    intro u17
    clear_value u17
    refine Keeps.ite ?_ ?_
    · exact h1
    · refine Keeps.ite ?_ ?_
      · refine Keeps.other ?_
        exact h16
      · refine abandonMove_keeps ?_
        exact h11

theorem execStripMoveCommit_keeps {s0 : State} {t : ℕ} {c : Fin 16} {s : State} (hk : Keeps s0 s) :
    KeepsO s0 (execStripMoveCommit t c s) := by
  unfold execStripMoveCommit
  lift_lets
  intro u0
  have h1 : Keeps s0 u0 := by
    unfold u0
    refine begin_keeps ?_
    exact hk
  clear_value u0
  intro u2
  clear_value u2
  refine KeepsO.next ?_
  split
  · rename_i q3 q4
    exact h1
  · rename_i q5 q6 q7
    split
    · rename_i q8 q9
      exact h1
    · rename_i q10 q11 q12
      lift_lets
      intro u13
      clear_value u13
      intro u14
      have h15 : Keeps s0 u14 := by
        unfold u14
        refine Keeps.other ?_
        exact h1
      clear_value u14
      refine Keeps.ite ?_ ?_
      · exact h1
      · refine bump_keeps ?_
        exact h15

theorem freeOld_keeps {s0 : State} {s : State} {o : OldCopy} (hk : Keeps s0 s) :
    Keeps s0 (freeOld s o) := by
  unfold freeOld
  lift_lets
  intro u0
  clear_value u0
  intro u1
  have h2 : Keeps s0 u1 := by
    unfold u1
    refine Keeps.other ?_
    exact hk
  clear_value u1
  refine raise_keeps ?_
  exact h2

theorem execOldCopyFree_keeps {s0 : State} {t : ℕ} {c : Fin 16} {s : State} (hk : Keeps s0 s) :
    KeepsO s0 (execOldCopyFree t c s) := by
  unfold execOldCopyFree
  lift_lets
  intro u0
  have h1 : Keeps s0 u0 := by
    unfold u0
    refine begin_keeps ?_
    exact hk
  clear_value u0
  refine KeepsO.next ?_
  split
  · rename_i q2 q3 q4
    refine freeOld_keeps ?_
    exact h1
  · rename_i q5 q6
    exact h1

theorem solveGroup_keeps {s0 : State} {s : State} {g : ℕ} {a : Accum} (hk : Keeps s0 s) :
    Keeps s0 (solveGroup s g a).1 := by
  unfold solveGroup
  split
  · rename_i q0
    dsimp only
    refine bump_keeps ?_
    exact hk
  · rename_i q1
    split
    · rename_i q2 q3
      dsimp only
      refine bump_keeps ?_
      exact hk
    · rename_i q4 q5 q6
      lift_lets
      intro u7
      have h8 : Keeps s0 u7 := by
        unfold u7
        refine Keeps.foldl _ ?_ (fun x9 a10 hx11 => ?_)
        · exact hk
        · rcases e14 : a10 with ⟨a12, a13⟩
          dsimp only
          refine Keeps.foldl _ ?_ (fun x15 a16 hx17 => ?_)
          · refine setFld_keeps ?_
            exact hx11
          · refine Keeps.ite ?_ ?_
            · refine setFld_keeps ?_
              refine fresh_keeps ?_
              exact hx17
            · exact hx17
      clear_value u7
      exact h8

theorem execSolveDone_keeps {s0 : State} {t : ℕ} {s : State} (hk : Keeps s0 s) :
    KeepsO s0 (execSolveDone t s) := by
  unfold execSolveDone
  lift_lets
  intro u0
  have h1 : Keeps s0 u0 := by
    unfold u0
    refine begin_keeps ?_
    exact hk
  clear_value u0
  intro u2
  clear_value u2
  intro u3
  have h4 : Keeps s0 u3 := by
    unfold u3
    refine setFld_keeps ?_
    refine Keeps.other ?_
    exact h1
  clear_value u3
  intro u6
  have h7 : Keeps s0 u6 := by
    unfold u6
    exact h4
  clear_value u6
  intro u8
  have h9 : Keeps s0 u8 := by
    unfold u8
    refine setFld_keeps ?_
    refine setFld_keeps ?_
    exact h4
  clear_value u8
  intro u10
  clear_value u10
  refine KeepsO.next ?_
  refine Keeps.ite ?_ ?_
  · exact h1
  · split
    · rename_i q11 q12
      exact h1
    · rename_i q13 q14 q15
      lift_lets
      intro u16
      have h17 : Keeps s0 u16 := by
        unfold u16
        refine setFld_keeps ?_
        exact h9
      clear_value u16
      refine Keeps.ite ?_ ?_
      · exact h4
      · rcases e20 : List.foldl (fun p e => match solveGroup p.1 e.1 e.2 with | (s, up) => (s, p.2 + bit up)) (u16, 0) q14 with ⟨a18, a19⟩
        dsimp only
        refine Keeps.other ?_
        refine Keeps.foldl _ ?_ (fun x22 a23 hx24 => ?_)
        · refine Keeps.ite ?_ ?_
          · refine raise_keeps ?_
            refine doorbell_keeps ?_
            refine bump_keeps ?_
            refine Keeps.foldl_fst _ ?_ (fun x25 a26 hx27 => ?_)
            · exact h17
            · dsimp only
              refine solveGroup_keeps ?_
              exact hx27
          · refine raise_keeps ?_
            refine sticky_keeps ?_
            refine raise_keeps ?_
            refine doorbell_keeps ?_
            refine bump_keeps ?_
            refine Keeps.foldl_fst _ ?_ (fun x28 a29 hx30 => ?_)
            · exact h17
            · dsimp only
              refine solveGroup_keeps ?_
              exact hx30
        · refine Keeps.ite ?_ ?_
          · exact hx24
          · refine raise_keeps ?_
            refine sticky_keeps ?_
            exact hx24

theorem queueNozzle_keeps {s0 : State} {s : State} {loop : Bool} {head : ℕ} {rowB : Bool} {n : ℕ} {st : ℕ} (hk : Keeps s0 s) :
    Keeps s0 (queueNozzle s loop head rowB n st) := by
  unfold queueNozzle
  split
  · rename_i q0 q1 q2
    lift_lets
    intro u3
    clear_value u3
    intro u4
    clear_value u4
    refine Keeps.other ?_
    exact hk
  · rename_i q6 q7
    lift_lets
    intro u8
    clear_value u8
    intro u9
    clear_value u9
    refine Keeps.other ?_
    exact hk

theorem discardBlock_keeps {s0 : State} {s : State} {b : CorrBlock} (hk : Keeps s0 s) :
    Keeps s0 (discardBlock s b) := by
  unfold discardBlock
  lift_lets
  intro u0
  intro u1
  have h2 : Keeps s0 u1 := by
    unfold u1
    refine Keeps.other ?_
    exact hk
  intro u4
  have h5 : Keeps s0 u4 := by
    unfold u4
    refine Keeps.ite ?_ ?_
    · refine toPeer_keeps ?_
      exact h2
    · exact h2
  clear_value u4
  intro u6
  have h7 : Keeps s0 u6 := by
    unfold u6
    refine setChan_keeps ?_
    exact h5
  clear_value u6
  refine raise_keeps ?_
  refine sticky_keeps ?_
  refine bump_keeps ?_
  exact h7

theorem takeBlock_keeps {s0 : State} {s : State} {b : CorrBlock} (hk : Keeps s0 s) :
    Keeps s0 (takeBlock s b) := by
  unfold takeBlock
  lift_lets
  intro u0
  have h1 : Keeps s0 u0 := by
    unfold u0
    refine Keeps.foldl _ ?_ (fun x2 a3 hx4 => ?_)
    · exact hk
    · refine setFld_keeps ?_
      exact hx4
  clear_value u0
  intro u5
  clear_value u5
  refine Keeps.ite ?_ ?_
  · refine discardBlock_keeps ?_
    exact h1
  · refine Keeps.other ?_
    exact h1

theorem colourTakeover_keeps {s0 : State} {s : State} (hk : Keeps s0 s) :
    Keeps s0 (colourTakeover s) := by
  unfold colourTakeover
  refine Keeps.ite ?_ ?_
  · refine raise_keeps ?_
    refine sticky_keeps ?_
    exact hk
  · exact hk

theorem takeCopy_keeps {s0 : State} {s : State} {c : ℕ} {live : Bank} {base : List (ℕ × ℕ)} (hk : Keeps s0 s) :
    Keeps s0 (takeCopy s c live base) := by
  unfold takeCopy
  lift_lets
  intro u0
  clear_value u0
  refine Keeps.ite ?_ ?_
  · exact hk
  · refine Keeps.ite ?_ ?_
    · refine setChan_keeps ?_
      exact hk
    · refine applyCopy_keeps ?_
      exact hk

theorem execClpFreeze_keeps {s0 : State} {t : ℕ} {ch : Fin 6} {tag : ℕ} {mask : ℕ} {value : ℕ} {s : State} (hk : Keeps s0 s) :
    KeepsO s0 (execClpFreeze t ch tag mask value s) := by
  unfold execClpFreeze
  refine KeepsO.next ?_
  refine message_keeps ?_ (fun x0 hx1 => ?_)
  · refine begin_keeps ?_
    exact hk
  · lift_lets
    intro u2
    clear_value u2
    intro u3
    clear_value u3
    intro u4
    clear_value u4
    intro u5
    clear_value u5
    intro u6
    have h7 : Keeps s0 u6 := by
      unfold u6
      refine Keeps.other ?_
      exact hx1
    clear_value u6
    dsimp only
    refine setFld_keeps ?_
    exact h7

theorem execClpWhiteReset_keeps {s0 : State} {t : ℕ} {ch : Fin 6} {tag : ℕ} {ports : ℕ} {s : State} (hk : Keeps s0 s) :
    KeepsO s0 (execClpWhiteReset t ch tag ports s) := by
  unfold execClpWhiteReset
  refine KeepsO.next ?_
  refine message_keeps ?_ (fun x0 hx1 => ?_)
  · refine begin_keeps ?_
    exact hk
  · split
    · rename_i q2
      exact hx1
    · rename_i q3
      dsimp only
      refine Keeps.foldl _ ?_ (fun x4 a5 hx6 => ?_)
      · exact hx1
      · refine Keeps.ite ?_ ?_
        · refine setCam_keeps ?_
          exact hx6
        · exact hx6

theorem execClpLadderNow_keeps {s0 : State} {t : ℕ} {ch : Fin 6} {tag : ℕ} {line : ℕ} {s : State} (hk : Keeps s0 s) :
    KeepsO s0 (execClpLadderNow t ch tag line s) := by
  unfold execClpLadderNow
  refine KeepsO.next ?_
  refine message_keeps ?_ (fun x0 hx1 => ?_)
  · refine begin_keeps ?_
    exact hk
  · lift_lets
    intro u2
    clear_value u2
    split
    · rename_i q3
      exact hx1
    · rename_i q4
      split
      · rename_i q5
        exact hx1
      · rename_i q6
        dsimp only
        refine placeLadder_keeps ?_
        exact hx1

theorem execClpReadCoef_keeps {s0 : State} {t : ℕ} {ch : Fin 6} {tag : ℕ} {kind : ℕ} {index : ℕ} {first : ℕ} {count : ℕ} {s : State}
    (hk : Keeps s0 s) :
    KeepsO s0 (execClpReadCoef t ch tag kind index first count s) := by
  unfold execClpReadCoef
  refine KeepsO.next ?_
  refine message_keeps ?_ (fun x0 hx1 => ?_)
  · refine begin_keeps ?_
    exact hk
  · exact hx1

end Sys2Proof.Laws
end

