-- ==== Sys2Proof/Laws/KeepsMotion.lean ====
section
/-!
SUPPORT. Every operation and command of motion, stops and the cameras (chapters 09, 13) keeps the queue and the canonical
banks, one lemma each.
-/
namespace Sys2Proof.Laws

open Sys2Proof.Machine

theorem claimTrigger_keeps {s0 : State} {s : State} {k : ℕ} (hk : Keeps s0 s) :
    Keeps s0 (claimTrigger s k) := by
  unfold claimTrigger
  split
  · rename_i q0 q1
    exact hk
  · rename_i q2 q3 q4
    lift_lets
    intro u5
    have h6 : Keeps s0 u5 := by
      unfold u5
      refine setFld_keeps ?_
      refine setFld_keeps ?_
      exact hk
    clear_value u5
    intro u7
    have h8 : Keeps s0 u7 := by
      unfold u7
      refine setFld_keeps ?_
      refine setFld_keeps ?_
      exact h6
    clear_value u7
    intro u9
    have h10 : Keeps s0 u9 := by
      unfold u9
      refine setFld_keeps ?_
      refine setFld_keeps ?_
      exact h8
    clear_value u9
    refine setCam_keeps ?_
    exact h10

theorem freeTrigger_keeps {s0 : State} {s : State} {k : ℕ} (hk : Keeps s0 s) :
    Keeps s0 (freeTrigger s k) := by
  unfold freeTrigger
  split
  · rename_i q0 q1
    exact hk
  · rename_i q2 q3 q4
    refine setCam_keeps ?_
    refine setFld_keeps ?_
    refine setFld_keeps ?_
    exact hk

theorem frameFields_keeps {s0 : State} {s : State} {k : ℕ} (hk : Keeps s0 s) :
    Keeps s0 (frameFields s k) := by
  unfold frameFields
  lift_lets
  intro u0
  have h1 : Keeps s0 u0 := by
    unfold u0
    refine Keeps.effFrame ?_
    exact hk
  clear_value u0
  intro u3
  clear_value u3
  intro u4
  have h5 : Keeps s0 u4 := by
    unfold u4
    refine Keeps.ite ?_ ?_
    · refine claimTrigger_keeps ?_
      exact h1
    · refine Keeps.ite ?_ ?_
      · refine freeTrigger_keeps ?_
        exact h1
      · exact h1
  clear_value u4
  split
  · rename_i q6 q7 q8
    refine setFld_keeps ?_
    exact h5
  · rename_i q9 q10
    exact h5

theorem armRow_keeps {s0 : State} {s : State} {k : ℕ} {a : RowArm} (hk : Keeps s0 s) :
    Keeps s0 (armRow s k a) := by
  unfold armRow
  refine Keeps.ite ?_ ?_
  · exact hk
  · refine setCam_keeps ?_
    exact hk

theorem cutFrame_keeps {s0 : State} {s : State} {k : ℕ} {ladder : Bool} {num : ℤ} (hk : Keeps s0 s) :
    Keeps s0 (cutFrame s k ladder num) := by
  unfold cutFrame
  refine Keeps.ite ?_ ?_
  · exact hk
  · refine setCam_keeps ?_
    exact hk

theorem countShort_keeps {s0 : State} {s : State} {k : ℕ} {got : ℕ} (hk : Keeps s0 s) :
    Keeps s0 (countShort s k got) := by
  unfold countShort
  refine raise_keeps ?_
  refine sticky_keeps ?_
  refine bump_keeps ?_
  exact hk

theorem loseLadder_keeps {s0 : State} {s : State} {k : ℕ} {base : ℤ} (hk : Keeps s0 s) :
    Keeps s0 (loseLadder s k base) := by
  unfold loseLadder
  refine setCam_keeps ?_
  exact hk

theorem closeFrame_keeps {s0 : State} {s : State} {k : ℕ} {ladder : Bool} {num : ℤ} {base : ℤ} (hk : Keeps s0 s) :
    Keeps s0 (closeFrame s k ladder num base) := by
  unfold closeFrame
  refine Keeps.ite ?_ ?_
  · exact hk
  · lift_lets
    intro u0
    have h1 : Keeps s0 u0 := by
      unfold u0
      refine setCam_keeps ?_
      exact hk
    clear_value u0
    refine countShort_keeps ?_
    refine Keeps.ite ?_ ?_
    · refine loseLadder_keeps ?_
      exact h1
    · exact h1

theorem takeRow_keeps {s0 : State} {s : State} {k : ℕ} {a : RowArm} {last : Bool} (hk : Keeps s0 s) :
    Keeps s0 (takeRow s k a last) := by
  unfold takeRow
  lift_lets
  intro u0
  have h1 : Keeps s0 u0 := by
    unfold u0
    refine Keeps.ite ?_ ?_
    · refine armRow_keeps ?_
      exact hk
    · refine cutFrame_keeps ?_
      exact hk
  clear_value u0
  refine Keeps.ite ?_ ?_
  · refine closeFrame_keeps ?_
    exact h1
  · exact h1

theorem ladderRowTaken_keeps {s0 : State} {s : State} {k : ℕ} {pos : ℤ} {crawl : Bool} {eta : ℤ → Option ℕ} (hk : Keeps s0 s) :
    KeepsQ s0 (ladderRowTaken s k pos crawl eta) := by
  unfold ladderRowTaken
  split
  · rename_i q0 q1
    trivial
  · rename_i q2 q3 q4 q5 q6
    lift_lets
    intro u7
    clear_value u7
    intro u8
    clear_value u8
    intro u9
    have h10 : Keeps s0 u9 := by
      unfold u9
      refine setCam_keeps ?_
      exact hk
    clear_value u9
    intro u11
    clear_value u11
    split
    · rename_i q12 q13
      trivial
    · rename_i q14 q15 q16
      refine KeepsQ.mk ?_
      refine takeRow_keeps ?_
      exact h10

theorem armLadder_keeps {s0 s : State} {k : ℕ} {pos : ℤ} {crawl : Bool} {eta : ℤ → Option ℕ} {n : ℕ} (hk : Keeps s0 s) :
    Keeps s0 (armLadder s k pos crawl eta n) := by
  induction n generalizing s with
  | zero => exact hk
  | succ n ih =>
    unfold armLadder
    split
    · exact hk
    · rename_i u e
      exact ih (KeepsQ.of e (ladderRowTaken_keeps hk))

theorem judgeIntegration_keeps {s0 : State} {s : State} {k : ℕ} {base : ℤ} (hk : Keeps s0 s) :
    Keeps s0 (judgeIntegration s k base) := by
  unfold judgeIntegration
  refine Keeps.ite ?_ ?_
  · exact hk
  · lift_lets
    intro u0
    clear_value u0
    intro u1
    clear_value u1
    intro u2
    clear_value u2
    intro u3
    clear_value u3
    intro u4
    clear_value u4
    intro u5
    have h6 : Keeps s0 u5 := by
      unfold u5
      refine Keeps.other ?_
      exact hk
    clear_value u5
    intro u8
    clear_value u8
    intro u9
    have h10 : Keeps s0 u9 := by
      unfold u9
      refine Keeps.other ?_
      exact h6
    clear_value u9
    intro u12
    clear_value u12
    refine Keeps.ite ?_ ?_
    · exact h6
    · refine Keeps.ite ?_ ?_
      · refine handOff_keeps ?_
        exact h6
      · refine Keeps.ite ?_ ?_
        · refine raise_keeps ?_
          refine sticky_keeps ?_
          refine Keeps.other ?_
          exact h10
        · exact h10

theorem skipFrame_keeps {s0 : State} {s : State} {k : ℕ} {base : ℤ} (hk : Keeps s0 s) :
    Keeps s0 (skipFrame s k base) := by
  unfold skipFrame
  refine judgeIntegration_keeps ?_
  refine raise_keeps ?_
  refine bump_keeps ?_
  exact hk

theorem armRows_keeps {s0 s : State} {k : ℕ} {pos : ℤ} {crawl : Bool} {eta : ℤ → Option ℕ} {n : ℕ} (hk : Keeps s0 s) :
    Keeps s0 (armRows s k pos crawl eta n) := by
  induction n generalizing s with
  | zero => exact hk
  | succ n ih =>
    unfold armRows
    dsimp only
    repeat' first
      | split
      | with_reducible assumption
      | with_reducible exact hk
      | refine ih ?_
      | refine takeRow_keeps ?_
      | refine setCam_keeps ?_
      | refine skipFrame_keeps ?_

theorem armCameras_keeps {s0 : State} {s : State} {pos : ℤ} {crawl : Bool} {frozen : Bool} {eta : ℤ → Option ℕ} (hk : Keeps s0 s) :
    Keeps s0 (armCameras s pos crawl frozen eta) := by
  unfold armCameras
  refine Keeps.foldl _ ?_ (fun x0 a1 hx2 => ?_)
  · exact hk
  · refine Keeps.ite ?_ ?_
    · exact hx2
    · lift_lets
      intro u3
      have h4 : Keeps s0 u3 := by
        unfold u3
        refine Keeps.ite ?_ ?_
        · refine frameFields_keeps ?_
          exact hx2
        · exact hx2
      clear_value u3
      refine Keeps.ite ?_ ?_
      · exact h4
      · refine armLadder_keeps ?_
        refine armRows_keeps ?_
        exact h4

theorem setGroup_keeps {s0 : State} {s : State} {g : ℕ} {f : GroupRun → GroupRun} (hk : Keeps s0 s) :
    Keeps s0 (setGroup s g f) := by
  unfold setGroup
  refine Keeps.other ?_
  exact hk

theorem setAxis_keeps {s0 : State} {s : State} {n : ℕ} {f : Axis → Axis} (hk : Keeps s0 s) :
    Keeps s0 (setAxis s n f) := by
  unfold setAxis
  refine Keeps.other ?_
  exact hk

theorem rampStop_keeps {s0 : State} {s : State} {n : ℕ} (hk : Keeps s0 s) :
    Keeps s0 (rampStop s n) := by
  unfold rampStop
  split
  · rename_i q0 q1 q2
    refine setGroup_keeps ?_
    exact hk
  · rename_i q3 q4
    refine setAxis_keeps ?_
    exact hk

theorem rampAll_keeps {s0 : State} {s : State} (hk : Keeps s0 s) :
    Keeps s0 (rampAll s) := by
  unfold rampAll
  refine Keeps.foldl _ ?_ (fun x0 a1 hx2 => ?_)
  · exact hk
  · refine rampStop_keeps ?_
    exact hx2

theorem orderlyStop_keeps {s0 : State} {s : State} {cause : ℕ} (hk : Keeps s0 s) :
    Keeps s0 (orderlyStop s cause) := by
  unfold orderlyStop
  refine Keeps.ite ?_ ?_
  · exact hk
  · lift_lets
    intro u0
    have h1 : Keeps s0 u0 := by
      unfold u0
      refine withdrawAll_keeps ?_
      exact hk
    clear_value u0
    intro u2
    have h3 : Keeps s0 u2 := by
      unfold u2
      refine Keeps.ite ?_ ?_
      · refine endJob_keeps ?_
        exact h1
      · exact h1
    clear_value u2
    intro u4
    have h5 : Keeps s0 u4 := by
      unfold u4
      refine rampAll_keeps ?_
      refine raise_keeps ?_
      exact h3
    clear_value u4
    intro u6
    clear_value u6
    refine setState_keeps ?_
    refine Keeps.other ?_
    exact h5

theorem motEvent_keeps {s0 : State} {s : State} {code : ℕ} {n : ℕ} {arg : ℕ} (hk : Keeps s0 s) :
    Keeps s0 (motEvent s code n arg) := by
  unfold motEvent
  refine Keeps.ite ?_ ?_
  · exact hk
  · refine raise_keeps ?_
    refine Keeps.other ?_
    exact hk

theorem completeMoves_keeps {s0 : State} {s : State} (hk : Keeps s0 s) :
    Keeps s0 (completeMoves s) := by
  unfold completeMoves
  lift_lets
  intro u0
  have h1 : Keeps s0 u0 := by
    unfold u0
    refine Keeps.foldl _ ?_ (fun x2 a3 hx4 => ?_)
    · exact hk
    · lift_lets
      intro u5
      clear_value u5
      refine Keeps.ite ?_ ?_
      · exact hx4
      · split
        · rename_i q6 q7 q8
          lift_lets
          intro u9
          clear_value u9
          intro u10
          clear_value u10
          intro u11
          have h12 : Keeps s0 u11 := by
            unfold u11
            refine setAxis_keeps ?_
            exact hx4
          clear_value u11
          refine Keeps.ite ?_ ?_
          · refine motEvent_keeps ?_
            exact h12
          · exact hx4
        · rename_i q13 q14
          refine Keeps.ite ?_ ?_
          · refine motEvent_keeps ?_
            refine setAxis_keeps ?_
            exact hx4
          · exact hx4
  clear_value u0
  refine Keeps.foldl _ ?_ (fun x15 a16 hx17 => ?_)
  · exact h1
  · lift_lets
    intro u18
    have h19 : Keeps s0 u18 := by
      unfold u18
      refine Keeps.other ?_
      exact hx17
    clear_value u18
    refine Keeps.ite ?_ ?_
    · exact hx17
    · refine Keeps.foldl _ ?_ (fun x21 a22 hx23 => ?_)
      · exact h19
      · lift_lets
        intro u24
        have h25 : Keeps s0 u24 := by
          unfold u24
          refine setAxis_keeps ?_
          exact hx23
        clear_value u24
        refine Keeps.ite ?_ ?_
        · refine motEvent_keeps ?_
          exact h25
        · exact h25

theorem abortHoming_keeps {s0 : State} {s : State} {n : ℕ} {f : Machine.Field} (hk : Keeps s0 s) :
    Keeps s0 (abortHoming s n f) := by
  unfold abortHoming
  lift_lets
  intro u0
  have h1 : Keeps s0 u0 := by
    unfold u0
    refine sticky_keeps ?_
    exact hk
  clear_value u0
  refine motEvent_keeps ?_
  exact h1

theorem homingLimits_keeps {s0 : State} {s : State} {n : ℕ} (hk : Keeps s0 s) :
    Keeps s0 (homingLimits s n) := by
  unfold homingLimits
  split
  · rename_i q0 q1
    exact hk
  · rename_i q2 q3 q4
    lift_lets
    intro u5
    clear_value u5
    refine Keeps.ite ?_ ?_
    · refine rampStop_keeps ?_
      refine abortHoming_keeps ?_
      exact hk
    · refine Keeps.ite ?_ ?_
      · refine rampStop_keeps ?_
        refine abortHoming_keeps ?_
        exact hk
      · exact hk

theorem setHoming_keeps {s0 : State} {s : State} {n : ℕ} {f : Homing → Homing} (hk : Keeps s0 s) :
    Keeps s0 (setHoming s n f) := by
  unfold setHoming
  refine setAxis_keeps ?_
  exact hk

theorem homeEdge_keeps {s0 : State} {s : State} {n : ℕ} {active : Bool} (hk : Keeps s0 s) :
    Keeps s0 (homeEdge s n active) := by
  unfold homeEdge
  split
  · rename_i q0 q1
    exact hk
  · rename_i q2 q3 q4
    refine Keeps.ite ?_ ?_
    · exact hk
    · lift_lets
      intro u5
      clear_value u5
      intro u6
      clear_value u6
      intro u7
      clear_value u7
      refine Keeps.ite ?_ ?_
      · refine rampStop_keeps ?_
        refine abortHoming_keeps ?_
        exact hk
      · refine setHoming_keeps ?_
        exact hk

theorem cutSteps_keeps {s0 : State} {s : State} {n : ℕ} (hk : Keeps s0 s) :
    Keeps s0 (cutSteps s n) := by
  unfold cutSteps
  refine Keeps.ite ?_ ?_
  · refine emit_keeps ?_
    exact hk
  · exact hk

theorem stopNow_keeps {s0 : State} {s : State} {n : ℕ} {loses : Bool} (hk : Keeps s0 s) :
    Keeps s0 (stopNow s n loses) := by
  unfold stopNow
  lift_lets
  intro u0
  clear_value u0
  intro u1
  clear_value u1
  intro u2
  clear_value u2
  intro u3
  have h4 : Keeps s0 u3 := by
    unfold u3
    split
    · rename_i q5 q6 q7
      refine setGroup_keeps ?_
      exact hk
    · rename_i q8 q9
      exact hk
  clear_value u3
  intro u10
  have h11 : Keeps s0 u10 := by
    unfold u10
    refine setAxis_keeps ?_
    exact h4
  clear_value u10
  refine Keeps.ite ?_ ?_
  · refine cutSteps_keeps ?_
    refine sticky_keeps ?_
    exact h11
  · exact h11

theorem causeFault_keeps {s0 : State} {s : State} {n : ℕ} {f : Machine.Field} (hk : Keeps s0 s) :
    Keeps s0 (causeFault s n f) := by
  unfold causeFault
  refine sticky_keeps ?_
  refine setAxis_keeps ?_
  exact hk

theorem limitHit_keeps {s0 : State} {s : State} {n : ℕ} {pos : Bool} (hk : Keeps s0 s) :
    Keeps s0 (limitHit s n pos) := by
  unfold limitHit
  lift_lets
  intro u0
  clear_value u0
  intro u1
  clear_value u1
  intro u2
  clear_value u2
  intro u3
  clear_value u3
  intro u4
  have h5 : Keeps s0 u4 := by
    unfold u4
    refine Keeps.ite ?_ ?_
    · refine rampStop_keeps ?_
      exact hk
    · refine stopNow_keeps ?_
      exact hk
  clear_value u4
  split
  · rename_i q6 q7 q8
    refine Keeps.ite ?_ ?_
    · refine homeEdge_keeps ?_
      exact hk
    · refine abortHoming_keeps ?_
      refine stopNow_keeps ?_
      exact hk
  · rename_i q9 q10
    refine Keeps.ite ?_ ?_
    · refine motEvent_keeps ?_
      refine causeFault_keeps ?_
      exact h5
    · refine motEvent_keeps ?_
      refine causeFault_keeps ?_
      refine stopNow_keeps ?_
      exact hk

theorem judgeLimits_keeps {s0 : State} {s : State} {n : ℕ} (hk : Keeps s0 s) :
    Keeps s0 (judgeLimits s n) := by
  unfold judgeLimits
  lift_lets
  intro u0
  have h1 : Keeps s0 u0 := by
    unfold u0
    refine Keeps.ite ?_ ?_
    · refine limitHit_keeps ?_
      exact hk
    · exact hk
  clear_value u0
  refine Keeps.ite ?_ ?_
  · refine limitHit_keeps ?_
    exact h1
  · exact h1

theorem driverFault_keeps {s0 : State} {s : State} {n : ℕ} (hk : Keeps s0 s) :
    Keeps s0 (driverFault s n) := by
  unfold driverFault
  refine motEvent_keeps ?_
  refine sticky_keeps ?_
  refine stopNow_keeps ?_
  exact hk

theorem standingFaults_keeps {s0 : State} {s : State} {n : ℕ} {axShorts : List (ℕ × ℕ)} (hk : Keeps s0 s) :
    Keeps s0 (standingFaults s n axShorts) := by
  unfold standingFaults
  lift_lets
  intro u0
  have h1 : Keeps s0 u0 := by
    unfold u0
    refine setAxis_keeps ?_
    exact hk
  clear_value u0
  intro u2
  clear_value u2
  intro u3
  have h4 : Keeps s0 u3 := by
    unfold u3
    refine Keeps.ite ?_ ?_
    · exact h1
    · refine sticky_keeps ?_
      exact h1
  clear_value u3
  intro u5
  have h6 : Keeps s0 u5 := by
    unfold u5
    refine Keeps.ite ?_ ?_
    · refine Keeps.ite ?_ ?_
      · refine driverFault_keeps ?_
        exact h4
      · refine sticky_keeps ?_
        exact h4
    · exact h4
  clear_value u5
  refine Keeps.foldl _ ?_ (fun x7 a8 hx9 => ?_)
  · exact h6
  · refine Keeps.ite ?_ ?_
    · refine sticky_keeps ?_
      exact hx9
    · exact hx9

theorem takeStops_keeps {s0 : State} {s : State} (hk : Keeps s0 s) :
    Keeps s0 (takeStops s) := by
  unfold takeStops
  lift_lets
  intro u0
  intro u1
  clear_value u1
  refine Keeps.foldl _ ?_ (fun x2 a3 hx4 => ?_)
  · refine Keeps.other ?_
    exact hk
  · rcases e8 : a3 with ⟨a6, a7⟩
    dsimp only
    refine Keeps.foldl _ ?_ (fun x9 a10 hx11 => ?_)
    · exact hx4
    · refine Keeps.ite ?_ ?_
      · exact hx11
      · refine Keeps.ite ?_ ?_
        · refine rampStop_keeps ?_
          exact hx11
        · split
          · rename_i q12 q13 q14
            refine Keeps.foldl _ ?_ (fun x15 a16 hx17 => ?_)
            · exact hx11
            · refine stopNow_keeps ?_
              exact hx17
          · rename_i q18 q19
            refine stopNow_keeps ?_
            exact hx11

theorem groupLimitChanges_keeps {s0 : State} {s : State} {g : GroupRun} (hk : Keeps s0 s) :
    Keeps s0 (groupLimitChanges s g) := by
  unfold groupLimitChanges
  lift_lets
  intro u0
  clear_value u0
  refine Keeps.ite ?_ ?_
  · exact hk
  · rcases e3 : changeRates g.lead u0 with ⟨a1, a2⟩
    dsimp only
    split
    · rename_i q4 q5 q6 q7 q8
      refine motEvent_keeps ?_
      refine sticky_keeps ?_
      refine setGroup_keeps ?_
      exact hk
    · rename_i q9 q10 q11 q12
      refine setGroup_keeps ?_
      exact hk

theorem limitChanges_keeps {s0 : State} {s : State} {n : ℕ} (hk : Keeps s0 s) :
    Keeps s0 (limitChanges s n) := by
  unfold limitChanges
  lift_lets
  intro u0
  clear_value u0
  intro u1
  clear_value u1
  intro u2
  clear_value u2
  refine Keeps.ite ?_ ?_
  · exact hk
  · rcases e5 : changeRates u0 u1 with ⟨a3, a4⟩
    dsimp only
    split
    · rename_i q6 q7
      refine motEvent_keeps ?_
      refine sticky_keeps ?_
      refine setAxis_keeps ?_
      exact hk
    · rename_i q8
      refine setAxis_keeps ?_
      exact hk

theorem startMoveAxis_keeps {s0 : State} {s : State} {n : ℕ} {jerk : Bool} {target : ℤ} {own : Limits} (hk : Keeps s0 s) :
    Keeps s0 (startMoveAxis s n jerk target own) := by
  unfold startMoveAxis
  lift_lets
  intro u0
  clear_value u0
  refine setAxis_keeps ?_
  exact hk

theorem startGroup_keeps {s0 : State} {s : State} {g : ℕ} {targets : List ℤ} (hk : Keeps s0 s) :
    Keeps s0 (startGroup s g targets) := by
  unfold startGroup
  lift_lets
  intro u0
  clear_value u0
  intro u1
  clear_value u1
  split
  · rename_i q2 q3
    exact hk
  · rename_i q4 q5 q6
    lift_lets
    intro u7
    clear_value u7
    intro u8
    clear_value u8
    intro u9
    have h10 : Keeps s0 u9 := by
      unfold u9
      refine Keeps.foldl _ ?_ (fun x11 a12 hx13 => ?_)
      · exact hk
      · refine setAxis_keeps ?_
        exact hx13
    clear_value u9
    intro u14
    clear_value u14
    refine Keeps.other ?_
    exact h10

theorem takeRequest_keeps {s0 : State} {s : State} {q : MotReq} (hk : Keeps s0 s) :
    Keeps s0 (takeRequest s q) := by
  unfold takeRequest
  lift_lets
  intro u0
  clear_value u0
  intro u1
  have h2 : Keeps s0 u1 := by
    unfold u1
    dsimp only
    split
    · rename_i q3 q4 q5 q6 q7 q8
      refine startMoveAxis_keeps ?_
      exact hk
    · rename_i q9 q10 q11 q12
      refine startGroup_keeps ?_
      exact hk
    · rename_i q13 q14 q15 q16
      refine setAxis_keeps ?_
      exact hk
  clear_value u1
  refine Keeps.ite ?_ ?_
  · refine answer_keeps ?_
    exact hk
  · refine answer_keeps ?_
    exact h2

theorem stepGroup_keeps {s0 : State} {s : State} {g : GroupRun} (hk : Keeps s0 s) :
    Keeps s0 (stepGroup s g) := by
  unfold stepGroup
  lift_lets
  intro u0
  clear_value u0
  rcases e6 : profileStep u0.lim u0.jerk u0.hold (if u0.ramp = true then Goal.rest else Goal.reach (u0.target * 2 ^ 32)) u0.x u0.v u0.a with ⟨a1, a2, a3, a4, a5⟩
  dsimp only
  refine Keeps.foldl _ ?_ (fun x7 a8 hx9 => ?_)
  · refine setGroup_keeps ?_
    exact hk
  · refine setAxis_keeps ?_
    exact hx9

theorem stepAxis_keeps {s0 : State} {s : State} {n : ℕ} (hk : Keeps s0 s) :
    Keeps s0 (stepAxis s n) := by
  unfold stepAxis
  refine Keeps.ite ?_ ?_
  · exact hk
  · lift_lets
    intro u0
    clear_value u0
    intro u1
    clear_value u1
    split
    · rename_i q2 q3
      refine setAxis_keeps ?_
      exact hk
    · rename_i q4 q5 q6 q7
      rcases e13 : profileStep q6 u0.jerk u0.hold q5 u0.x u0.v u0.a with ⟨a8, a9, a10, a11, a12⟩
      dsimp only
      refine Keeps.ite ?_ ?_
      · split
        · rename_i q14 q15 q16
          refine Keeps.ite ?_ ?_
          · refine setAxis_keeps ?_
            exact hk
          · refine setAxis_keeps ?_
            exact hk
        · rename_i q17 q18
          refine setAxis_keeps ?_
          exact hk
      · refine setAxis_keeps ?_
        exact hk

theorem emitSteps_keeps {s0 : State} {s : State} {n : ℕ} (hk : Keeps s0 s) :
    Keeps s0 (emitSteps s n) := by
  unfold emitSteps
  lift_lets
  intro u0
  clear_value u0
  intro u1
  clear_value u1
  intro u2
  clear_value u2
  intro u3
  clear_value u3
  intro u4
  clear_value u4
  intro u5
  intro u6
  have h7 : Keeps s0 u6 := by
    unfold u6
    refine setAxis_keeps ?_
    exact hk
  clear_value u6
  refine Keeps.ite ?_ ?_
  · exact hk
  · refine Keeps.ite ?_ ?_
    · exact h7
    · refine emit_keeps ?_
      refine Keeps.ite ?_ ?_
      · refine emit_keeps ?_
        exact h7
      · exact h7

theorem motionStep_keeps {s0 : State} {s : State} {axShorts : List (ℕ × ℕ)} (hk : Keeps s0 s) :
    Keeps s0 (motionStep s axShorts) := by
  unfold motionStep
  lift_lets
  intro u0
  clear_value u0
  intro u1
  have h2 : Keeps s0 u1 := by
    unfold u1
    refine Keeps.other ?_
    exact hk
  clear_value u1
  intro u4
  have h5 : Keeps s0 u4 := by
    unfold u4
    refine completeMoves_keeps ?_
    exact h2
  clear_value u4
  intro u6
  have h7 : Keeps s0 u6 := by
    unfold u6
    refine Keeps.foldl _ ?_ (fun x8 a9 hx10 => ?_)
    · exact h5
    · refine homingLimits_keeps ?_
      refine judgeLimits_keeps ?_
      refine standingFaults_keeps ?_
      exact hx10
  clear_value u6
  intro u11
  have h12 : Keeps s0 u11 := by
    unfold u11
    refine takeStops_keeps ?_
    exact h7
  clear_value u11
  intro u13
  have h14 : Keeps s0 u13 := by
    unfold u13
    refine Keeps.foldl _ ?_ (fun x15 a16 hx17 => ?_)
    · refine Keeps.foldl _ ?_ (fun x18 a19 hx20 => ?_)
      · exact h12
      · refine limitChanges_keeps ?_
        exact hx20
    · refine groupLimitChanges_keeps ?_
      exact hx17
  clear_value u13
  intro u21
  clear_value u21
  intro u22
  clear_value u22
  intro u23
  have h24 : Keeps s0 u23 := by
    unfold u23
    refine Keeps.ite ?_ ?_
    · refine Keeps.foldl _ ?_ (fun x25 a26 hx27 => ?_)
      · refine Keeps.other ?_
        exact h14
      · refine takeRequest_keeps ?_
        exact hx27
    · exact h5
  clear_value u23
  intro u29
  have h30 : Keeps s0 u29 := by
    unfold u29
    refine Keeps.foldl _ ?_ (fun x31 a32 hx33 => ?_)
    · exact h24
    · refine stepGroup_keeps ?_
      exact hx33
  clear_value u29
  intro u34
  have h35 : Keeps s0 u34 := by
    unfold u34
    refine Keeps.foldl _ ?_ (fun x36 a37 hx38 => ?_)
    · exact h30
    · refine stepAxis_keeps ?_
      exact hx38
  clear_value u34
  intro u39
  have h40 : Keeps s0 u39 := by
    unfold u39
    refine Keeps.foldl _ ?_ (fun x41 a42 hx43 => ?_)
    · exact h35
    · refine setAxis_keeps ?_
      exact hx43
  clear_value u39
  refine Keeps.foldl _ ?_ (fun x44 a45 hx46 => ?_)
  · exact h40
  · refine emitSteps_keeps ?_
    exact hx46

theorem causeGone_keeps {s0 : State} {s : State} {n : ℕ} {lo : ℕ} (hk : Keeps s0 s) :
    Keeps s0 (causeGone s n lo) := by
  unfold causeGone
  refine setAxis_keeps ?_
  exact hk

theorem latchHome_keeps {s0 : State} {s : State} {n : ℕ} {count : ℤ} (hk : Keeps s0 s) :
    Keeps s0 (latchHome s n count) := by
  unfold latchHome
  refine setHoming_keeps ?_
  refine setFld_keeps ?_
  exact hk

theorem judgeStall_keeps {s0 : State} {s : State} {n : ℕ} {q : ℚ} (hk : Keeps s0 s) :
    Keeps s0 (judgeStall s n q) := by
  unfold judgeStall
  refine Keeps.ite ?_ ?_
  · lift_lets
    intro u0
    have h1 : Keeps s0 u0 := by
      unfold u0
      refine setAxis_keeps ?_
      exact hk
    clear_value u0
    intro u2
    clear_value u2
    intro u3
    have h4 : Keeps s0 u3 := by
      unfold u3
      refine setAxis_keeps ?_
      exact h1
    clear_value u3
    refine Keeps.ite ?_ ?_
    · exact h1
    · split
      · rename_i q5 q6 q7
        refine Keeps.ite ?_ ?_
        · refine latchHome_keeps ?_
          exact h4
        · refine motEvent_keeps ?_
          refine bump_keeps ?_
          refine sticky_keeps ?_
          refine stopNow_keeps ?_
          exact h4
      · rename_i q8 q9
        refine motEvent_keeps ?_
        refine bump_keeps ?_
        refine sticky_keeps ?_
        refine stopNow_keeps ?_
        exact h4
  · refine setAxis_keeps ?_
    exact hk

theorem bemfSample_keeps {s0 : State} {s : State} {n : ℕ} {a : ℤ} {b : ℤ} (hk : Keeps s0 s) :
    Keeps s0 (bemfSample s n a b) := by
  unfold bemfSample
  refine Keeps.ite ?_ ?_
  · exact hk
  · refine Keeps.ite ?_ ?_
    · lift_lets
      intro u0
      have h1 : Keeps s0 u0 := by
        unfold u0
        refine setAxis_keeps ?_
        exact hk
      clear_value u0
      intro u2
      have h3 : Keeps s0 u2 := by
        unfold u2
        refine setFld_keeps ?_
        refine setFld_keeps ?_
        exact h1
      clear_value u2
      refine calDone_keeps ?_
      exact h3
    · lift_lets
      intro u4
      have h5 : Keeps s0 u4 := by
        unfold u4
        refine setAxis_keeps ?_
        exact hk
      clear_value u4
      intro u6
      clear_value u6
      intro u7
      clear_value u7
      intro u8
      have h9 : Keeps s0 u8 := by
        unfold u8
        refine Keeps.ite ?_ ?_
        · refine motEvent_keeps ?_
          refine causeFault_keeps ?_
          exact h5
        · exact h5
      clear_value u8
      intro u10
      have h11 : Keeps s0 u10 := by
        unfold u10
        refine Keeps.ite ?_ ?_
        · refine motEvent_keeps ?_
          refine causeFault_keeps ?_
          exact h9
        · exact h9
      clear_value u10
      intro u12
      have h13 : Keeps s0 u12 := by
        unfold u12
        refine Keeps.ite ?_ ?_
        · refine causeGone_keeps ?_
          exact h11
        · exact h11
      clear_value u12
      intro u14
      clear_value u14
      intro u15
      clear_value u15
      intro u16
      clear_value u16
      refine Keeps.ite ?_ ?_
      · exact h13
      · refine judgeStall_keeps ?_
        refine setFld_keeps ?_
        exact h13

theorem fireRows_keeps {s0 : State} {s : State} {k : ℕ} (hk : Keeps s0 s) :
    Keeps s0 (fireRows s k) := by
  unfold fireRows
  lift_lets
  intro u0
  clear_value u0
  refine Keeps.foldl _ ?_ (fun x1 a2 hx3 => ?_)
  · exact hk
  · lift_lets
    intro u4
    have h5 : Keeps s0 u4 := by
      unfold u4
      refine setCam_keeps ?_
      exact hx3
    clear_value u4
    refine emit_keeps ?_
    exact h5

theorem dropFrames_keeps {s0 : State} {s : State} (hk : Keeps s0 s) :
    Keeps s0 (dropFrames s) := by
  unfold dropFrames
  refine Keeps.foldl _ ?_ (fun x0 a1 hx2 => ?_)
  · exact hk
  · lift_lets
    intro u3
    have h4 : Keeps s0 u3 := by
      unfold u3
      split
      · rename_i q5 q6 q7 q8
        refine Keeps.ite ?_ ?_
        · exact hx2
        · refine closeFrame_keeps ?_
          refine cutFrame_keeps ?_
          exact hx2
      · rename_i q9 q10
        exact hx2
    clear_value u3
    refine setCam_keeps ?_
    exact h4

theorem homeIndex_keeps {s0 : State} {s : State} {src : ℕ} (hk : Keeps s0 s) :
    Keeps s0 (homeIndex s src) := by
  unfold homeIndex
  refine Keeps.ite ?_ ?_
  · exact hk
  · refine Keeps.foldl _ ?_ (fun x0 a1 hx2 => ?_)
    · exact hk
    · split
      · rename_i q3 q4 q5
        refine Keeps.ite ?_ ?_
        · refine latchHome_keeps ?_
          exact hx2
        · exact hx2
      · rename_i q6 q7
        exact hx2

theorem setFrame_keeps {s0 : State} {s : State} {k : ℕ} {f : CamFrame → CamFrame} (hk : Keeps s0 s) :
    Keeps s0 (setFrame s k f) := by
  unfold setFrame
  refine setCam_keeps ?_
  exact hk

theorem markFrame_keeps {s0 : State} {s : State} {k : ℕ} {mark : ℕ} (hk : Keeps s0 s) :
    Keeps s0 (markFrame s k mark) := by
  unfold markFrame
  lift_lets
  intro u0
  have h1 : Keeps s0 u0 := by
    unfold u0
    split
    · rename_i q2 q3 q4
      refine Keeps.ite ?_ ?_
      · refine loseLadder_keeps ?_
        exact hk
      · exact hk
    · rename_i q5 q6
      exact hk
  clear_value u0
  refine setFrame_keeps ?_
  exact h1

theorem markShort_keeps {s0 : State} {s : State} {k : ℕ} {got : ℕ} (hk : Keeps s0 s) :
    Keeps s0 (markShort s k got) := by
  unfold markShort
  refine countShort_keeps ?_
  refine markFrame_keeps ?_
  exact hk

theorem sendCci_keeps {s0 : State} {s : State} {k : ℕ} {w : CciWrite} (hk : Keeps s0 s) :
    Keeps s0 (sendCci s k w) := by
  unfold sendCci
  refine setCam_keeps ?_
  refine emit_keeps ?_
  exact hk

theorem frameBoundary_keeps {s0 : State} {s : State} {k : ℕ} (hk : Keeps s0 s) :
    Keeps s0 (frameBoundary s k) := by
  unfold frameBoundary
  lift_lets
  intro u0
  have h1 : Keeps s0 u0 := by
    unfold u0
    refine frameFields_keeps ?_
    exact hk
  clear_value u0
  intro u2
  clear_value u2
  intro u3
  clear_value u3
  intro u4
  clear_value u4
  intro u5
  clear_value u5
  intro u6
  clear_value u6
  intro u7
  have h8 : Keeps s0 u7 := by
    unfold u7
    refine setCam_keeps ?_
    exact h1
  clear_value u7
  refine Keeps.foldl _ ?_ (fun x9 a10 hx11 => ?_)
  · exact h8
  · refine sendCci_keeps ?_
    exact hx11

theorem takeFrame_keeps {s0 : State} {s : State} {k : ℕ} (hk : Keeps s0 s) :
    Keeps s0 (takeFrame s k) := by
  unfold takeFrame
  lift_lets
  intro u0
  clear_value u0
  intro u1
  clear_value u1
  refine Keeps.ite ?_ ?_
  · exact hk
  · refine Keeps.other ?_
    exact hk

theorem frameFault_keeps {s0 : State} {s : State} {k : ℕ} {row : ℕ} {code : ℕ} (hk : Keeps s0 s) :
    Keeps s0 (frameFault s k row code) := by
  unfold frameFault
  lift_lets
  intro u0
  have h1 : Keeps s0 u0 := by
    unfold u0
    refine markFrame_keeps ?_
    exact hk
  clear_value u0
  refine raise_keeps ?_
  refine sticky_keeps ?_
  refine bump_keeps ?_
  exact h1

theorem execFrameStartReceive_keeps {s0 : State} {t : ℕ} {port : Fin 2} {s : State} (hk : Keeps s0 s) :
    KeepsO s0 (execFrameStartReceive t port s) := by
  unfold execFrameStartReceive
  lift_lets
  intro u0
  have h1 : Keeps s0 u0 := by
    unfold u0
    refine begin_keeps ?_
    exact hk
  clear_value u0
  intro u2
  clear_value u2
  intro u3
  have h4 : Keeps s0 u3 := by
    unfold u3
    split
    · rename_i q5 q6 q7
      lift_lets
      intro u8
      have h9 : Keeps s0 u8 := by
        unfold u8
        refine Keeps.ite ?_ ?_
        · refine markShort_keeps ?_
          exact h1
        · exact h1
      clear_value u8
      refine setFrame_keeps ?_
      refine setCam_keeps ?_
      exact h9
    · rename_i q10 q11
      exact h1
  clear_value u3
  intro u12
  have h13 : Keeps s0 u12 := by
    unfold u12
    refine frameBoundary_keeps ?_
    exact h4
  clear_value u12
  refine KeepsO.next ?_
  refine Keeps.ite ?_ ?_
  · exact h1
  · split
    · rename_i q14 q15 q16
      refine takeFrame_keeps ?_
      refine setCam_keeps ?_
      exact h13
    · rename_i q17 q18
      rcases e21 : fresh u12 with ⟨a19, a20⟩
      dsimp only
      refine frameFault_keeps ?_
      refine takeFrame_keeps ?_
      refine setCam_keeps ?_
      refine Keeps.snd_of e21 ?_
      refine fresh_keeps ?_
      exact h13

theorem truncateFrame_keeps {s0 : State} {s : State} {k : ℕ} {got : ℕ} (hk : Keeps s0 s) :
    Keeps s0 (truncateFrame s k got) := by
  unfold truncateFrame
  lift_lets
  intro u0
  have h1 : Keeps s0 u0 := by
    unfold u0
    refine markFrame_keeps ?_
    exact hk
  clear_value u0
  intro u2
  have h3 : Keeps s0 u2 := by
    unfold u2
    refine setFrame_keeps ?_
    exact h1
  clear_value u2
  refine raise_keeps ?_
  refine sticky_keeps ?_
  refine bump_keeps ?_
  exact h3

theorem execRowPacketReceive_keeps {s0 : State} {t : ℕ} {port : Fin 2} {band : Fin 4} {fault : Fin 3} {samples : List ℕ} {s : State}
    (hk : Keeps s0 s) :
    KeepsO s0 (execRowPacketReceive t port band fault samples s) := by
  unfold execRowPacketReceive
  lift_lets
  intro u0
  have h1 : Keeps s0 u0 := by
    unfold u0
    refine begin_keeps ?_
    exact hk
  clear_value u0
  intro u2
  clear_value u2
  refine KeepsO.next ?_
  split
  · rename_i q3 q4
    exact h1
  · rename_i q5 q6 q7
    lift_lets
    intro u8
    clear_value u8
    refine Keeps.ite ?_ ?_
    · exact h1
    · refine Keeps.ite ?_ ?_
      · refine frameFault_keeps ?_
        exact h1
      · refine Keeps.ite ?_ ?_
        · refine frameFault_keeps ?_
          exact h1
        · refine Keeps.ite ?_ ?_
          · refine frameFault_keeps ?_
            exact h1
          · refine Keeps.ite ?_ ?_
            · refine truncateFrame_keeps ?_
              exact h1
            · refine Keeps.ite ?_ ?_
              · refine setFrame_keeps ?_
                exact h1
              · refine Keeps.ite ?_ ?_
                · refine setFrame_keeps ?_
                  exact h1
                · refine setFrame_keeps ?_
                  exact h1

theorem endCut_keeps {s0 : State} {s : State} {k : ℕ} {f : CamFrame} (hk : Keeps s0 s) :
    Keeps s0 (endCut s k f) := by
  unfold endCut
  refine Keeps.ite ?_ ?_
  · exact hk
  · lift_lets
    intro u0
    have h1 : Keeps s0 u0 := by
      unfold u0
      refine setCam_keeps ?_
      exact hk
    clear_value u0
    refine Keeps.ite ?_ ?_
    · refine markShort_keeps ?_
      exact h1
    · exact h1

theorem storeFrame_keeps {s0 : State} {s : State} {k : ℕ} {slots : ℕ} {f : CamFrame} (hk : Keeps s0 s) :
    Keeps s0 (storeFrame s k slots f) := by
  unfold storeFrame
  lift_lets
  intro u0
  clear_value u0
  intro u1
  have h2 : Keeps s0 u1 := by
    unfold u1
    refine access_keeps ?_
    exact hk
  clear_value u1
  refine setCam_keeps ?_
  exact h2

theorem execFrameEndReceive_keeps {s0 : State} {t : ℕ} {port : Fin 2} {s : State} (hk : Keeps s0 s) :
    KeepsO s0 (execFrameEndReceive t port s) := by
  unfold execFrameEndReceive
  lift_lets
  intro u0
  have h1 : Keeps s0 u0 := by
    unfold u0
    refine begin_keeps ?_
    exact hk
  clear_value u0
  intro u2
  clear_value u2
  intro u3
  clear_value u3
  intro u4
  have h5 : Keeps s0 u4 := by
    unfold u4
    refine markFrame_keeps ?_
    exact h1
  clear_value u4
  refine KeepsO.next ?_
  split
  · rename_i q6 q7
    exact h1
  · rename_i q8 q9 q10
    lift_lets
    intro u11
    have h12 : Keeps s0 u11 := by
      unfold u11
      refine Keeps.ite ?_ ?_
      · exact h1
      · refine Keeps.ite ?_ ?_
        · refine markShort_keeps ?_
          exact h1
        · refine Keeps.ite ?_ ?_
          · refine raise_keeps ?_
            refine sticky_keeps ?_
            refine bump_keeps ?_
            exact h5
          · refine Keeps.ite ?_ ?_
            · exact h1
            · refine bump_keeps ?_
              exact h1
    clear_value u11
    intro u13
    have h14 : Keeps s0 u13 := by
      unfold u13
      split
      · rename_i q15 q16 q17
        refine endCut_keeps ?_
        exact h12
      · rename_i q18 q19
        exact h12
    clear_value u13
    intro u20
    have h21 : Keeps s0 u20 := by
      unfold u20
      refine setFrame_keeps ?_
      exact h14
    clear_value u20
    intro u22
    clear_value u22
    refine Keeps.ite ?_ ?_
    · refine storeFrame_keeps ?_
      exact h21
    · exact h21

theorem execFrameTruncated_keeps {s0 : State} {t : ℕ} {port : Fin 2} {s : State} (hk : Keeps s0 s) :
    KeepsO s0 (execFrameTruncated t port s) := by
  unfold execFrameTruncated
  lift_lets
  intro u0
  have h1 : Keeps s0 u0 := by
    unfold u0
    refine begin_keeps ?_
    exact hk
  clear_value u0
  intro u2
  clear_value u2
  refine KeepsO.next ?_
  split
  · rename_i q3 q4
    exact h1
  · rename_i q5 q6 q7
    refine Keeps.ite ?_ ?_
    · exact h1
    · refine truncateFrame_keeps ?_
      exact h1

theorem execFrameTimeout_keeps {s0 : State} {t : ℕ} {port : Fin 2} {s : State} (hk : Keeps s0 s) :
    KeepsO s0 (execFrameTimeout t port s) := by
  unfold execFrameTimeout
  lift_lets
  intro u0
  have h1 : Keeps s0 u0 := by
    unfold u0
    refine begin_keeps ?_
    exact hk
  clear_value u0
  intro u2
  clear_value u2
  refine KeepsO.next ?_
  split
  · rename_i q3 q4
    exact h1
  · rename_i q5 q6 q7
    lift_lets
    intro u8
    have h9 : Keeps s0 u8 := by
      unfold u8
      refine setCam_keeps ?_
      exact h1
    clear_value u8
    intro u10
    have h11 : Keeps s0 u10 := by
      unfold u10
      refine raise_keeps ?_
      refine sticky_keeps ?_
      refine bump_keeps ?_
      exact h9
    clear_value u10
    refine Keeps.ite ?_ ?_
    · exact h1
    · refine Keeps.ite ?_ ?_
      · refine loseLadder_keeps ?_
        exact h11
      · refine judgeIntegration_keeps ?_
        exact h11

theorem execTrigFault_keeps {s0 : State} {t : ℕ} {port : Fin 2} {s : State} (hk : Keeps s0 s) :
    KeepsO s0 (execTrigFault t port s) := by
  unfold execTrigFault
  lift_lets
  intro u0
  have h1 : Keeps s0 u0 := by
    unfold u0
    refine begin_keeps ?_
    exact hk
  clear_value u0
  refine KeepsO.next ?_
  refine raise_keeps ?_
  refine sticky_keeps ?_
  exact h1

theorem takeStats_keeps {s0 : State} {s : State} {k : ℕ} {f : CamFrame} (hk : Keeps s0 s) :
    Keeps s0 (takeStats s k f) := by
  unfold takeStats
  lift_lets
  intro u0
  clear_value u0
  refine setCam_keeps ?_
  exact hk

theorem adjustGain_keeps {s0 : State} {s : State} {k : ℕ} {b : ℕ} (hk : Keeps s0 s) :
    Keeps s0 (adjustGain s k b) := by
  unfold adjustGain
  lift_lets
  intro u0
  clear_value u0
  intro u1
  clear_value u1
  intro u2
  clear_value u2
  intro u3
  clear_value u3
  intro u4
  clear_value u4
  intro u5
  clear_value u5
  intro u6
  clear_value u6
  intro u7
  have h8 : Keeps s0 u7 := by
    unfold u7
    refine Keeps.ite ?_ ?_
    · refine raise_keeps ?_
      refine sticky_keeps ?_
      exact hk
    · exact hk
  clear_value u7
  intro u9
  clear_value u9
  refine Keeps.ite ?_ ?_
  · exact h8
  · refine sendCci_keeps ?_
    exact h8

theorem adjustExposure_keeps {s0 : State} {s : State} {k : ℕ} (hk : Keeps s0 s) :
    Keeps s0 (adjustExposure s k) := by
  unfold adjustExposure
  lift_lets
  intro u0
  clear_value u0
  refine Keeps.ite ?_ ?_
  · exact hk
  · refine Keeps.ite ?_ ?_
    · refine setCam_keeps ?_
      exact hk
    · refine Keeps.foldl _ ?_ (fun x1 a2 hx3 => ?_)
      · refine setCam_keeps ?_
        exact hk
      · refine adjustGain_keeps ?_
        exact hx3

theorem moveWhite_keeps {s0 : State} {s : State} {k : ℕ} {b : ℕ} {px : ℕ} {v : ℕ} (hk : Keeps s0 s) :
    Keeps s0 (moveWhite s k b px v) := by
  unfold moveWhite
  rcases e2 : whiteOf (cam s k) b px with ⟨a0, a1⟩
  dsimp only
  refine setCam_keeps ?_
  exact hk

theorem observe_keeps {s0 : State} {s : State} {k : ℕ} {g : ℕ} {band : ℕ} {px : ℕ} {v : ℕ} {row : ℤ} {units : ℕ → ℕ}
    (hk : Keeps s0 s) :
    Keeps s0 (observe s k g band px v row units) := by
  unfold observe
  lift_lets
  intro u0
  clear_value u0
  intro u1
  clear_value u1
  intro u2
  clear_value u2
  rcases e5 : whiteOf (cam s k) band px with ⟨a3, a4⟩
  dsimp only
  refine Keeps.ite ?_ ?_
  · exact hk
  · refine Keeps.ite ?_ ?_
    · refine bump_keeps ?_
      exact hk
    · refine Keeps.other ?_
      exact hk

theorem pixelWork_keeps {s0 : State} {s : State} {k : ℕ} {f : CamFrame} {j : ℕ} {px : ℕ} {row : List (List ℕ)} (hk : Keeps s0 s) :
    Keeps s0 (pixelWork s k f j px row) := by
  unfold pixelWork
  split
  · rename_i q0 q1
    exact hk
  · rename_i q2 q3 q4
    lift_lets
    intro u5
    clear_value u5
    intro u6
    clear_value u6
    intro u7
    clear_value u7
    refine Keeps.foldl _ ?_ (fun x8 a9 hx10 => ?_)
    · exact hk
    · lift_lets
      intro u11
      clear_value u11
      refine Keeps.ite ?_ ?_
      · refine moveWhite_keeps ?_
        exact hx10
      · refine observe_keeps ?_
        exact hx10

theorem frameWork_keeps {s0 : State} {s : State} {k : ℕ} {f : CamFrame} (hk : Keeps s0 s) :
    Keeps s0 (frameWork s k f) := by
  unfold frameWork
  refine Keeps.ite ?_ ?_
  · exact hk
  · lift_lets
    intro u0
    have h1 : Keeps s0 u0 := by
      unfold u0
      refine Keeps.foldl _ ?_ (fun x2 a3 hx4 => ?_)
      · exact hk
      · refine Keeps.foldl _ ?_ (fun x5 a6 hx7 => ?_)
        · exact hx4
        · refine pixelWork_keeps ?_
          exact hx7
    clear_value u0
    intro u8
    clear_value u8
    refine Keeps.other ?_
    exact h1

theorem execFrameProcessed_keeps {s0 : State} {t : ℕ} {s : State} (hk : Keeps s0 s) :
    KeepsO s0 (execFrameProcessed t s) := by
  unfold execFrameProcessed
  lift_lets
  intro u0
  have h1 : Keeps s0 u0 := by
    unfold u0
    refine begin_keeps ?_
    exact hk
  clear_value u0
  intro u2
  clear_value u2
  refine KeepsO.next ?_
  split
  · rename_i q3 q4
    exact h1
  · rename_i q5 q6 q7
    lift_lets
    intro u8
    clear_value u8
    split
    · rename_i q9 q10
      refine Keeps.other ?_
      exact h1
    · rename_i q12 q13 q14 q15
      lift_lets
      intro u16
      have h17 : Keeps s0 u16 := by
        unfold u16
        refine setCam_keeps ?_
        exact h1
      clear_value u16
      intro u18
      have h19 : Keeps s0 u18 := by
        unfold u18
        refine Keeps.ite ?_ ?_
        · refine takeStats_keeps ?_
          exact h17
        · exact h17
      clear_value u18
      intro u20
      have h21 : Keeps s0 u20 := by
        unfold u20
        refine Keeps.ite ?_ ?_
        · refine adjustExposure_keeps ?_
          exact h19
        · exact h19
      clear_value u20
      intro u22
      have h23 : Keeps s0 u22 := by
        unfold u22
        refine Keeps.ite ?_ ?_
        · refine frameWork_keeps ?_
          refine adjustExposure_keeps ?_
          exact h21
        · exact h21
      clear_value u22
      intro u24
      have h25 : Keeps s0 u24 := by
        unfold u24
        refine Keeps.ite ?_ ?_
        · exact h23
        · refine judgeIntegration_keeps ?_
          exact h23
      clear_value u24
      intro u26
      clear_value u26
      refine Keeps.ite ?_ ?_
      · exact h1
      · refine Keeps.other ?_
        exact h25

theorem execCciTransferDone_keeps {s0 : State} {t : ℕ} {port : Fin 2} {ok : Bool} {s : State} (hk : Keeps s0 s) :
    KeepsO s0 (execCciTransferDone t port ok s) := by
  unfold execCciTransferDone
  lift_lets
  intro u0
  have h1 : Keeps s0 u0 := by
    unfold u0
    refine begin_keeps ?_
    exact hk
  clear_value u0
  intro u2
  clear_value u2
  refine KeepsO.next ?_
  split
  · rename_i q3 q4
    exact h1
  · rename_i q5 q6 q7
    lift_lets
    intro u8
    have h9 : ∀ x, Keeps s0 x → Keeps s0 (u8 x) := by
      intro x10 hx11
      unfold u8
      refine setCam_keeps ?_
      exact hx11
    clear_value u8
    intro u12
    have h13 : Keeps s0 u12 := by
      unfold u12
      refine h9 _ ?_
      exact h1
    clear_value u12
    refine Keeps.ite ?_ ?_
    · refine Keeps.ite ?_ ?_
      · refine setCam_keeps ?_
        exact h13
      · exact h13
    · refine Keeps.ite ?_ ?_
      · refine setCam_keeps ?_
        exact h1
      · refine raise_keeps ?_
        refine sticky_keeps ?_
        refine h9 _ ?_
        exact h1

theorem applyFinding_keeps {s0 : State} {s : State} {d : Dash} {f : ℕ} (hk : Keeps s0 s) :
    Keeps s0 (applyFinding s d f).1 := by
  unfold applyFinding
  lift_lets
  intro u0
  clear_value u0
  intro u1
  clear_value u1
  intro u2
  clear_value u2
  intro u3
  have h4 : ∀ x a1, Keeps s0 x → Keeps s0 (u3 x a1) := by
    intro x5 a6 hx7
    unfold u3
    dsimp only
    refine Keeps.other ?_
    exact hx7
  clear_value u3
  split
  · rename_i q9
    exact hk
  · rename_i q10
    split
    · rename_i q11
      split
      · rename_i q12
        dsimp only
        refine h4 _ _ ?_
        exact hk
      · rename_i q13
        dsimp only
        refine queueNozzle_keeps ?_
        refine h4 _ _ ?_
        exact hk
    · rename_i q14
      split
      · rename_i q15
        exact hk
      · rename_i q16
        split
        · rename_i q17
          dsimp only
          refine h4 _ _ ?_
          exact hk
        · rename_i q18
          dsimp only
          refine queueNozzle_keeps ?_
          refine h4 _ _ ?_
          exact hk

theorem applyFindings_keeps {s0 : State} {s : State} {x : LadderScan} (hk : Keeps s0 s) :
    Keeps s0 (applyFindings s x).1 := by
  unfold applyFindings
  split
  · rename_i q0
    exact hk
  · rename_i q1
    lift_lets
    intro u2
    clear_value u2
    intro u3
    clear_value u3
    refine Keeps.foldl_fst _ ?_ (fun x4 a5 hx6 => ?_)
    · exact hk
    · lift_lets
      intro u7
      clear_value u7
      rcases e10 : applyFinding x4.1 a5 (finding u2 a5 u7) with ⟨a8, a9⟩
      dsimp only
      refine Keeps.fst_of e10 ?_
      refine applyFinding_keeps ?_
      exact hx6

theorem holdPort_keeps {s0 : State} {s : State} {k : ℕ} {held : Bool} (hk : Keeps s0 s) :
    Keeps s0 (holdPort s k held) := by
  unfold holdPort
  lift_lets
  intro u0
  have h1 : Keeps s0 u0 := by
    unfold u0
    refine setCam_keeps ?_
    exact hk
  clear_value u0
  refine setFld_keeps ?_
  exact h1

theorem trimPort_keeps {s0 : State} {s : State} {x : LadderScan} (hk : Keeps s0 s) :
    Keeps s0 (trimPort s x) := by
  unfold trimPort
  lift_lets
  intro u0
  clear_value u0
  intro u1
  clear_value u1
  intro u2
  clear_value u2
  intro u3
  clear_value u3
  intro u4
  clear_value u4
  intro u5
  clear_value u5
  intro u6
  clear_value u6
  intro u7
  have h8 : Keeps s0 u7 := by
    unfold u7
    refine holdPort_keeps ?_
    exact hk
  clear_value u7
  intro u9
  have h10 : Keeps s0 u9 := by
    unfold u9
    refine holdPort_keeps ?_
    exact hk
  clear_value u9
  intro u11
  have h12 : Keeps s0 u11 := by
    unfold u11
    refine setFld_keeps ?_
    refine setFld_keeps ?_
    exact h10
  clear_value u11
  refine Keeps.ite ?_ ?_
  · refine raise_keeps ?_
    refine sticky_keeps ?_
    exact h8
  · refine Keeps.ite ?_ ?_
    · exact h10
    · refine raise_keeps ?_
      exact h12

theorem takeScan_keeps {s0 : State} {a : State × ℕ × ℕ} {x : LadderScan} (hk : Keeps s0 a.1) :
    Keeps s0 (takeScan a x).1 := by
  unfold takeScan
  lift_lets
  intro u0
  clear_value u0
  split
  · rename_i q1
    rcases e4 : applyFindings a.1 u0 with ⟨a2, a3⟩
    dsimp only
    refine trimPort_keeps ?_
    refine Keeps.fst_of e4 ?_
    refine applyFindings_keeps ?_
    exact hk
  · rename_i q5
    dsimp only
    refine raise_keeps ?_
    refine sticky_keeps ?_
    exact hk

theorem execLadderDone_keeps {s0 : State} {t : ℕ} {scans : List LadderScan} {s : State} (hk : Keeps s0 s) :
    KeepsO s0 (execLadderDone t scans s) := by
  unfold execLadderDone
  lift_lets
  intro u0
  have h1 : Keeps s0 u0 := by
    unfold u0
    refine begin_keeps ?_
    exact hk
  clear_value u0
  intro u2
  have h3 : Keeps s0 u2 := by
    unfold u2
    refine doorbell_keeps ?_
    refine bump_keeps ?_
    exact h1
  clear_value u2
  refine KeepsO.next ?_
  refine Keeps.ite ?_ ?_
  · exact h1
  · rcases e7 : List.foldl takeScan (u2, 0, 0) scans with ⟨a4, a5, a6⟩
    dsimp only
    refine Keeps.ite ?_ ?_
    · refine Keeps.fst_of e7 ?_
      refine Keeps.foldl_fst _ ?_ (fun x8 a9 hx10 => ?_)
      · exact h3
      · refine takeScan_keeps ?_
        exact hx10
    · refine raise_keeps ?_
      refine Keeps.fst_of e7 ?_
      refine Keeps.foldl_fst _ ?_ (fun x11 a12 hx13 => ?_)
      · exact h3
      · refine takeScan_keeps ?_
        exact hx13

theorem camChanged_keeps {s0 : State} {s : State} {k : ℕ} {wasOn : Bool} (hk : Keeps s0 s) :
    Keeps s0 (camChanged s k wasOn) := by
  unfold camChanged
  refine Keeps.ite ?_ ?_
  · exact hk
  · refine Keeps.ite ?_ ?_
    · lift_lets
      intro u0
      have h1 : Keeps s0 u0 := by
        unfold u0
        refine setCam_keeps ?_
        exact hk
      clear_value u0
      intro u2
      have h3 : Keeps s0 u2 := by
        unfold u2
        refine frameFields_keeps ?_
        exact h1
      clear_value u2
      intro u4
      clear_value u4
      refine Keeps.ite ?_ ?_
      · exact h3
      · refine sendCci_keeps ?_
        exact h3
    · refine freeTrigger_keeps ?_
      exact hk

theorem adoptCamera_keeps {s0 : State} {s : State} {k : ℕ} {wasOn : Bool} (hk : Keeps s0 s) :
    Keeps s0 (adoptCamera s k wasOn) := by
  unfold adoptCamera
  lift_lets
  intro u0
  clear_value u0
  refine camChanged_keeps ?_
  refine setCam_keeps ?_
  exact hk

theorem claimBemf_keeps {s0 : State} {s : State} {half : ℕ} (hk : Keeps s0 s) :
    KeepsQ s0 (claimBemf s half) := by
  unfold claimBemf
  lift_lets
  intro u0
  clear_value u0
  split
  · rename_i q1 q2 q3
    lift_lets
    intro u4
    have h5 : Keeps s0 u4 := by
      unfold u4
      refine setFld_keeps ?_
      refine setFld_keeps ?_
      exact hk
    clear_value u4
    intro u6
    clear_value u6
    split
    · rename_i q7
      refine KeepsQ.mk ?_
      exact hk
    · rename_i q8
      refine KeepsQ.mk ?_
      refine Keeps.other ?_
      exact h5
  · rename_i q10 q11
    split
    · rename_i q12
      refine KeepsQ.mk ?_
      exact hk
    · rename_i q13
      split
      · rename_i q14 q15
        trivial
      · rename_i q16 q17 q18
        lift_lets
        intro u19
        have h20 : Keeps s0 u19 := by
          unfold u19
          refine setFld_keeps ?_
          refine setFld_keeps ?_
          exact hk
        clear_value u19
        intro u21
        clear_value u21
        refine KeepsQ.mk ?_
        refine Keeps.other ?_
        exact h20

theorem claimStall_keeps {s0 : State} {s : State} (hk : Keeps s0 s) :
    KeepsQ s0 (claimStall s) := by
  unfold claimStall
  refine KeepsQ.bind ?_ (fun x0 hx1 => ?_)
  · refine claimBemf_keeps ?_
    exact hk
  · refine claimBemf_keeps ?_
    exact hx1

theorem execSafeStop_keeps {s0 : State} {t : ℕ} {ch : Fin 6} {tag : ℕ} {s : State} (hk : Keeps s0 s) :
    KeepsO s0 (execSafeStop t ch tag s) := by
  unfold execSafeStop
  refine KeepsO.next ?_
  refine message_keeps ?_ (fun x0 hx1 => ?_)
  · refine begin_keeps ?_
    exact hk
  · split
    · rename_i q2
      dsimp only
      refine orderlyStop_keeps ?_
      exact hx1
    · rename_i q3
      split
      · rename_i q4
        exact hx1
      · rename_i q5
        exact hx1

theorem execCamConfig_keeps {s0 : State} {t : ℕ} {ch : Fin 6} {tag : ℕ} {port : ℕ} {values : List ℕ} {s : State} (hk : Keeps s0 s) :
    KeepsO s0 (execCamConfig t ch tag port values s) := by
  unfold execCamConfig
  refine KeepsO.next ?_
  refine message_keeps ?_ (fun x0 hx1 => ?_)
  · refine begin_keeps ?_
    exact hk
  · lift_lets
    intro u2
    clear_value u2
    intro u3
    clear_value u3
    intro u4
    clear_value u4
    intro u5
    clear_value u5
    intro u6
    intro u7
    have h8 : Keeps s0 u7 := by
      unfold u7
      refine Keeps.live ?_ (fun hb9 => ?_)
      · exact hx1
      · unfold u6
        refine bankWf_foldl (fun b10 a11 hb12 => ?_) _ ?_
        · refine bankWf_bankWrite ?_ _ _
          assumption
        · assumption
    clear_value u7
    split
    · rename_i q13
      exact hx1
    · rename_i q14
      split
      · rename_i q15
        exact hx1
      · rename_i q16
        dsimp only
        refine camChanged_keeps ?_
        exact h8

theorem execCamProfile_keeps {s0 : State} {t : ℕ} {ch : Fin 6} {tag : ℕ} {port : ℕ} {profile : List Byte} {s : State}
    (hk : Keeps s0 s) :
    KeepsO s0 (execCamProfile t ch tag port profile s) := by
  unfold execCamProfile
  refine KeepsO.next ?_
  refine message_keeps ?_ (fun x0 hx1 => ?_)
  · refine begin_keeps ?_
    exact hk
  · lift_lets
    intro u2
    clear_value u2
    intro u3
    clear_value u3
    split
    · rename_i q4
      exact hx1
    · rename_i q5
      dsimp only
      refine setCam_keeps ?_
      exact hx1

theorem execCamStats_keeps {s0 : State} {t : ℕ} {ch : Fin 6} {tag : ℕ} {port : ℕ} {band : ℕ} {kind : ℕ} {first : ℕ} {count : ℕ}
    {s : State} (hk : Keeps s0 s) :
    KeepsO s0 (execCamStats t ch tag port band kind first count s) := by
  unfold execCamStats
  refine KeepsO.next ?_
  refine message_keeps ?_ (fun x0 hx1 => ?_)
  · refine begin_keeps ?_
    exact hk
  · exact hx1

theorem execCamReadFrame_keeps {s0 : State} {t : ℕ} {ch : Fin 6} {tag : ℕ} {port : ℕ} {slot : ℕ} {data : DataRef} {s : State}
    (hk : Keeps s0 s) :
    KeepsO s0 (execCamReadFrame t ch tag port slot data s) := by
  unfold execCamReadFrame
  refine KeepsO.next ?_
  refine message_keeps ?_ (fun x0 hx1 => ?_)
  · refine begin_keeps ?_
    exact hk
  · split
    · rename_i q2
      exact hx1
    · rename_i q3
      split
      · rename_i q4
        exact hx1
      · rename_i q5
        split
        · rename_i q6 q7
          exact hx1
        · rename_i q8 q9 q10
          split
          · rename_i q11
            exact hx1
          · rename_i q12
            dsimp only
            refine emit_keeps ?_
            exact hx1

theorem execMotConfig_keeps {s0 : State} {t : ℕ} {ch : Fin 6} {tag : ℕ} {axis : ℕ} {lim : Limits} {stall : ℕ} {s : State}
    (hk : Keeps s0 s) :
    KeepsO s0 (execMotConfig t ch tag axis lim stall s) := by
  unfold execMotConfig
  refine KeepsO.next ?_
  refine message_keeps ?_ (fun x0 hx1 => ?_)
  · refine begin_keeps ?_
    exact hk
  · split
    · rename_i q2
      exact hx1
    · rename_i q3
      lift_lets
      intro u4
      have h5 : Keeps s0 u4 := by
        unfold u4
        refine setFld_keeps ?_
        refine setFld_keeps ?_
        exact hx1
      clear_value u4
      intro u6
      have h7 : Keeps s0 u6 := by
        unfold u6
        refine setFld_keeps ?_
        refine setFld_keeps ?_
        exact h5
      clear_value u6
      intro u8
      have h9 : Keeps s0 u8 := by
        unfold u8
        refine Keeps.foldl _ ?_ (fun x10 a11 hx12 => ?_)
        · exact h7
        · refine setFld_keeps ?_
          exact hx12
      clear_value u8
      split
      · rename_i q13 q14 q15
        dsimp only
        refine KeepsQ.of q15 ?_
        refine claimStall_keeps ?_
        exact h9
      · rename_i q16 q17
        exact hx1

theorem queueMotion_keeps {s0 : State} {s : State} {ch : ℕ} {tag : ℕ} {w : MotStart} (hk : Keeps s0 s) :
    Keeps s0 (queueMotion s ch tag w).1 := by
  unfold queueMotion
  dsimp only
  refine Keeps.other ?_
  exact hk

theorem execMotMove_keeps {s0 : State} {t : ℕ} {ch : Fin 6} {tag : ℕ} {axis : ℕ} {kind : ℕ} {target : ℤ} {vmax : ℕ} {amax : ℕ}
    {dmax : ℕ} {jmax : ℕ} {s : State} (hk : Keeps s0 s) :
    KeepsO s0 (execMotMove t ch tag axis kind target vmax amax dmax jmax s) := by
  unfold execMotMove
  refine KeepsO.next ?_
  refine message_keeps ?_ (fun x0 hx1 => ?_)
  · refine begin_keeps ?_
    exact hk
  · lift_lets
    intro u2
    clear_value u2
    split
    · rename_i q3
      exact hx1
    · rename_i q4
      split
      · rename_i q5
        exact hx1
      · rename_i q6
        refine queueMotion_keeps ?_
        exact hx1

theorem execMotGroupMove_keeps {s0 : State} {t : ℕ} {ch : Fin 6} {tag : ℕ} {group : ℕ} {targets : List ℤ} {s : State}
    (hk : Keeps s0 s) :
    KeepsO s0 (execMotGroupMove t ch tag group targets s) := by
  unfold execMotGroupMove
  refine KeepsO.next ?_
  refine message_keeps ?_ (fun x0 hx1 => ?_)
  · refine begin_keeps ?_
    exact hk
  · lift_lets
    intro u2
    clear_value u2
    split
    · rename_i q3
      exact hx1
    · rename_i q4
      split
      · rename_i q5
        exact hx1
      · rename_i q6
        split
        · rename_i q7
          exact hx1
        · rename_i q8
          split
          · rename_i q9 q10 q11
            exact hx1
          · rename_i q12 q13
            refine queueMotion_keeps ?_
            exact hx1

theorem execMotHome_keeps {s0 : State} {t : ℕ} {ch : Fin 6} {tag : ℕ} {axis : ℕ} {type : ℕ} {s : State} (hk : Keeps s0 s) :
    KeepsO s0 (execMotHome t ch tag axis type s) := by
  unfold execMotHome
  refine KeepsO.next ?_
  refine message_keeps ?_ (fun x0 hx1 => ?_)
  · refine begin_keeps ?_
    exact hk
  · split
    · rename_i q2
      exact hx1
    · rename_i q3
      split
      · rename_i q4
        exact hx1
      · rename_i q5
        refine queueMotion_keeps ?_
        exact hx1

theorem execMotStop_keeps {s0 : State} {t : ℕ} {ch : Fin 6} {tag : ℕ} {axes : ℕ} {kind : ℕ} {s : State} (hk : Keeps s0 s) :
    KeepsO s0 (execMotStop t ch tag axes kind s) := by
  unfold execMotStop
  refine KeepsO.next ?_
  refine message_keeps ?_ (fun x0 hx1 => ?_)
  · refine begin_keeps ?_
    exact hk
  · split
    · rename_i q2
      exact hx1
    · rename_i q3
      dsimp only
      refine Keeps.other ?_
      exact hx1

theorem execMotStatus_keeps {s0 : State} {t : ℕ} {ch : Fin 6} {tag : ℕ} {axis : ℕ} {s : State} (hk : Keeps s0 s) :
    KeepsO s0 (execMotStatus t ch tag axis s) := by
  unfold execMotStatus
  refine KeepsO.next ?_
  refine message_keeps ?_ (fun x0 hx1 => ?_)
  · refine begin_keeps ?_
    exact hk
  · split
    · rename_i q2
      exact hx1
    · rename_i q3
      exact hx1

theorem execLimitInputChange_keeps {s0 : State} {t : ℕ} {axis : Fin 8} {pos : Bool} {level : Bool} {s : State} (hk : Keeps s0 s) :
    KeepsO s0 (execLimitInputChange t axis pos level s) := by
  unfold execLimitInputChange
  lift_lets
  intro u0
  have h1 : Keeps s0 u0 := by
    unfold u0
    refine begin_keeps ?_
    exact hk
  clear_value u0
  intro u2
  clear_value u2
  intro u3
  have h4 : Keeps s0 u3 := by
    unfold u3
    refine setAxis_keeps ?_
    exact h1
  clear_value u3
  intro u5
  clear_value u5
  intro u6
  have h7 : Keeps s0 u6 := by
    unfold u6
    refine causeGone_keeps ?_
    refine causeGone_keeps ?_
    exact h4
  clear_value u6
  refine KeepsO.next ?_
  refine Keeps.ite ?_ ?_
  · exact h4
  · refine Keeps.ite ?_ ?_
    · refine Keeps.ite ?_ ?_
      · refine limitHit_keeps ?_
        exact h4
      · exact h4
    · split
      · rename_i q8 q9 q10
        refine Keeps.ite ?_ ?_
        · refine homeEdge_keeps ?_
          exact h7
        · exact h7
      · rename_i q11 q12
        exact h7

theorem execDriverFault_keeps {s0 : State} {t : ℕ} {axis : Fin 8} {level : Bool} {s : State} (hk : Keeps s0 s) :
    KeepsO s0 (execDriverFault t axis level s) := by
  unfold execDriverFault
  lift_lets
  intro u0
  have h1 : Keeps s0 u0 := by
    unfold u0
    refine setAxis_keeps ?_
    refine begin_keeps ?_
    exact hk
  clear_value u0
  refine KeepsO.next ?_
  refine Keeps.ite ?_ ?_
  · exact h1
  · refine driverFault_keeps ?_
    exact h1

theorem execOutShortAxis_keeps {s0 : State} {t : ℕ} {axis : Fin 8} {out : Fin 3} {s : State} (hk : Keeps s0 s) :
    KeepsO s0 (execOutShortAxis t axis out s) := by
  unfold execOutShortAxis
  lift_lets
  intro u0
  have h1 : Keeps s0 u0 := by
    unfold u0
    refine begin_keeps ?_
    exact hk
  clear_value u0
  intro u2
  clear_value u2
  intro u3
  have h4 : Keeps s0 u3 := by
    unfold u3
    refine setAxis_keeps ?_
    exact h1
  clear_value u3
  refine KeepsO.next ?_
  refine Keeps.ite ?_ ?_
  · exact h4
  · refine motEvent_keeps ?_
    refine sticky_keeps ?_
    refine stopNow_keeps ?_
    exact h4

theorem execHomeInputEdge_keeps {s0 : State} {t : ℕ} {axis : Fin 8} {level : Bool} {s : State} (hk : Keeps s0 s) :
    KeepsO s0 (execHomeInputEdge t axis level s) := by
  unfold execHomeInputEdge
  lift_lets
  intro u0
  have h1 : Keeps s0 u0 := by
    unfold u0
    refine setAxis_keeps ?_
    refine begin_keeps ?_
    exact hk
  clear_value u0
  refine KeepsO.next ?_
  split
  · rename_i q2 q3 q4
    refine Keeps.ite ?_ ?_
    · refine homeEdge_keeps ?_
      exact h1
    · exact h1
  · rename_i q5 q6
    exact h1

theorem execHomeDebounceExpire_keeps {s0 : State} {t : ℕ} {axis : Fin 8} {s : State} (hk : Keeps s0 s) :
    KeepsO s0 (execHomeDebounceExpire t axis s) := by
  unfold execHomeDebounceExpire
  lift_lets
  intro u0
  have h1 : Keeps s0 u0 := by
    unfold u0
    refine begin_keeps ?_
    exact hk
  clear_value u0
  refine KeepsO.next ?_
  split
  · rename_i q2 q3
    exact h1
  · rename_i q4 q5 q6
    split
    · rename_i q7 q8
      exact h1
    · rename_i q9 q10 q11 q12
      refine Keeps.ite ?_ ?_
      · exact h1
      · refine Keeps.ite ?_ ?_
        · refine setHoming_keeps ?_
          exact h1
        · refine latchHome_keeps ?_
          exact h1

theorem execGpioIndexEdge_keeps {s0 : State} {t : ℕ} {gpio : Fin 16} {s : State} (hk : Keeps s0 s) :
    KeepsO s0 (execGpioIndexEdge t gpio s) := by
  unfold execGpioIndexEdge
  refine KeepsO.next ?_
  refine homeIndex_keeps ?_
  refine begin_keeps ?_
  exact hk

end Sys2Proof.Laws
end

