-- ==== Sys2Proof/Laws/KeepsLines.lean ====
section
/-!
SUPPORT. Every operation and command of position, images and lines (chapters 02, 04, 06) keeps the queue and the canonical
banks, one lemma each.
-/
namespace Sys2Proof.Laws

open Sys2Proof.Machine

theorem judgeOverspeed_keeps {s0 : State} {s : State} {c : ℕ} (hk : Keeps s0 s) :
    Keeps s0 (judgeOverspeed s c) := by
  unfold judgeOverspeed
  lift_lets
  intro u0
  clear_value u0
  intro u1
  clear_value u1
  intro u2
  have h3 : Keeps s0 u2 := by
    unfold u2
    refine setChan_keeps ?_
    exact hk
  clear_value u2
  refine Keeps.ite ?_ ?_
  · exact hk
  · refine Keeps.ite ?_ ?_
    · refine raise_keeps ?_
      refine sticky_keeps ?_
      exact h3
    · refine raise_keeps ?_
      refine setChan_keeps ?_
      exact hk

theorem judgeCrawl_keeps {s0 : State} {s : State} (hk : Keeps s0 s) :
    Keeps s0 (judgeCrawl s) := by
  unfold judgeCrawl
  lift_lets
  intro u0
  clear_value u0
  intro u1
  clear_value u1
  intro u2
  clear_value u2
  refine Keeps.ite ?_ ?_
  · refine Keeps.other ?_
    exact hk
  · refine Keeps.ite ?_ ?_
    · refine Keeps.other ?_
      exact hk
    · exact hk

theorem afterUpdate_keeps {s0 : State} {s : State} (hk : Keeps s0 s) :
    Keeps s0 (afterUpdate s) := by
  unfold afterUpdate
  lift_lets
  intro u0
  have h1 : Keeps s0 u0 := by
    unfold u0
    refine reviseAll_keeps ?_
    refine Keeps.foldl _ ?_ (fun x2 a3 hx4 => ?_)
    · refine judgeCrawl_keeps ?_
      exact hk
    · refine judgeOverspeed_keeps ?_
      exact hx4
  clear_value u0
  refine armCameras_keeps ?_
  exact h1

theorem runUpdate_keeps {s0 : State} {s : State} {t : ℕ} {z : ℚ} (hk : Keeps s0 s) :
    Keeps s0 (runUpdate s t z) := by
  unfold runUpdate
  refine afterUpdate_keeps ?_
  refine Keeps.other ?_
  exact hk

theorem flushUpdate_keeps {s0 : State} {s : State} (hk : Keeps s0 s) :
    Keeps s0 (flushUpdate s) := by
  unfold flushUpdate
  split
  · rename_i q0 q1
    exact hk
  · rename_i q2 q3 q4 q5
    refine Keeps.ite ?_ ?_
    · exact hk
    · refine runUpdate_keeps ?_
      refine Keeps.other ?_
      exact hk

theorem fetchNext_keeps {s0 : State} {s : State} {c : ℕ} {st : ℕ} (hk : Keeps s0 s) :
    Keeps s0 (fetchNext s c st) := by
  unfold fetchNext
  lift_lets
  intro u0
  clear_value u0
  intro u1
  clear_value u1
  intro u2
  clear_value u2
  refine Keeps.ite ?_ ?_
  · exact hk
  · split
    · rename_i q3 q4
      exact hk
    · rename_i q5 q6 q7 q8
      refine setChan_keeps ?_
      exact hk

theorem fillBuffers_keeps {s0 : State} {s : State} {c : ℕ} (hk : Keeps s0 s) :
    Keeps s0 (fillBuffers s c) := by
  unfold fillBuffers
  lift_lets
  intro u0
  have h1 : Keeps s0 u0 := by
    unfold u0
    refine Keeps.foldl _ ?_ (fun x2 a3 hx4 => ?_)
    · exact hk
    · refine fetchNext_keeps ?_
      refine fetchNext_keeps ?_
      exact hx4
  clear_value u0
  refine startReads_keeps ?_
  exact h1

theorem judgeSynced_keeps {s0 : State} {s : State} (hk : Keeps s0 s) :
    Keeps s0 (judgeSynced s) := by
  unfold judgeSynced
  refine Keeps.ite ?_ ?_
  · lift_lets
    intro u0
    clear_value u0
    intro u1
    have h2 : Keeps s0 u1 := by
      unfold u1
      refine Keeps.other ?_
      exact hk
    clear_value u1
    refine doorbell_keeps ?_
    refine raise_keeps ?_
    exact h2
  · exact hk

theorem startStage_keeps {s0 : State} {s : State} {n : ℕ} (hk : Keeps s0 s) :
    Keeps s0 (startStage s n) := by
  unfold startStage
  lift_lets
  intro u0
  clear_value u0
  intro u1
  have h2 : Keeps s0 u1 := by
    unfold u1
    refine Keeps.other ?_
    exact hk
  clear_value u1
  intro u4
  have h5 : Keeps s0 u4 := by
    unfold u4
    refine doorbell_keeps ?_
    refine raise_keeps ?_
    exact h2
  clear_value u4
  intro u6
  clear_value u6
  refine Keeps.ite ?_ ?_
  · refine toPeer_keeps ?_
    exact h5
  · refine judgeSynced_keeps ?_
    refine Keeps.other ?_
    exact h5

theorem changeScore_keeps {s0 : State} {s : State} {d : ℤ} (hk : Keeps s0 s) :
    Keeps s0 (changeScore s d) := by
  unfold changeScore
  lift_lets
  intro u0
  clear_value u0
  intro u1
  clear_value u1
  intro u2
  clear_value u2
  intro u3
  clear_value u3
  intro u4
  have h5 : Keeps s0 u4 := by
    unfold u4
    refine Keeps.other ?_
    exact hk
  clear_value u4
  refine Keeps.ite ?_ ?_
  · refine raise_keeps ?_
    refine sticky_keeps ?_
    exact h5
  · exact h5

theorem judgeCover_keeps {s0 : State} {s : State} {c : ℕ} (hk : Keeps s0 s) :
    Keeps s0 (judgeCover s c) := by
  unfold judgeCover
  refine Keeps.ite ?_ ?_
  · refine setFld_keeps ?_
    refine setFld_keeps ?_
    exact hk
  · split
    · rename_i q0 q1
      refine setFld_keeps ?_
      refine setChan_keeps ?_
      exact hk
    · rename_i q2 q3 q4
      lift_lets
      intro u5
      clear_value u5
      intro u6
      clear_value u6
      intro u7
      have h8 : Keeps s0 u7 := by
        unfold u7
        refine setFld_keeps ?_
        exact hk
      clear_value u7
      intro u9
      have h10 : Keeps s0 u9 := by
        unfold u9
        refine setFld_keeps ?_
        exact h8
      clear_value u9
      intro u11
      clear_value u11
      intro u12
      clear_value u12
      intro u13
      have h14 : Keeps s0 u13 := by
        unfold u13
        refine setChan_keeps ?_
        exact h10
      clear_value u13
      refine Keeps.ite ?_ ?_
      · refine raise_keeps ?_
        refine sticky_keeps ?_
        exact h14
      · exact h14

theorem encoderStop_keeps {s0 : State} {s : State} (hk : Keeps s0 s) :
    Keeps s0 (encoderStop s) := by
  unfold encoderStop
  refine orderlyStop_keeps ?_
  refine freeze_keeps ?_
  exact hk

theorem checkEncoder_keeps {s0 : State} {s : State} (hk : Keeps s0 s) :
    Keeps s0 (checkEncoder s) := by
  unfold checkEncoder
  lift_lets
  intro u0
  clear_value u0
  intro u1
  clear_value u1
  intro u2
  clear_value u2
  intro u3
  clear_value u3
  refine Keeps.ite ?_ ?_
  · exact hk
  · refine Keeps.ite ?_ ?_
    · refine Keeps.other ?_
      exact hk
    · refine encoderStop_keeps ?_
      refine Keeps.other ?_
      exact hk

theorem encBit_keeps {s0 : State} {s : State} {e : ℕ} {f : Machine.Field} (hk : Keeps s0 s) :
    Keeps s0 (encBit s e f) := by
  unfold encBit
  refine Keeps.ite ?_ ?_
  · refine checkEncoder_keeps ?_
    exact hk
  · lift_lets
    intro u0
    have h1 : Keeps s0 u0 := by
      unfold u0
      refine sticky_keeps ?_
      refine sticky_keeps ?_
      exact hk
    clear_value u0
    refine checkEncoder_keeps ?_
    refine raise_keeps ?_
    exact h1

theorem openBits_keeps {s0 : State} {s : State} {e : ℕ} (hk : Keeps s0 s) :
    Keeps s0 (openBits s e) := by
  unfold openBits
  refine Keeps.ite ?_ ?_
  · refine Keeps.foldl _ ?_ (fun x0 a1 hx2 => ?_)
    · exact hk
    · refine Keeps.ite ?_ ?_
      · refine encBit_keeps ?_
        exact hx2
      · exact hx2
  · exact hk

theorem countKeyed_keeps {s0 : State} {s : State} (hk : Keeps s0 s) :
    Keeps s0 (countKeyed s) := by
  unfold countKeyed
  lift_lets
  intro u0
  clear_value u0
  intro u1
  clear_value u1
  intro u2
  have h3 : Keeps s0 u2 := by
    unfold u2
    refine Keeps.other ?_
    exact hk
  clear_value u2
  refine Keeps.ite ?_ ?_
  · refine toPeer_keeps ?_
    exact h3
  · exact h3

theorem setEnc_keeps {s0 : State} {s : State} {e : ℕ} {f : Encoder → Encoder} (hk : Keeps s0 s) :
    Keeps s0 (setEnc s e f) := by
  unfold setEnc
  refine Keeps.other ?_
  exact hk

theorem checkSlip_keeps {s0 : State} {s : State} (hk : Keeps s0 s) :
    Keeps s0 (checkSlip s) := by
  unfold checkSlip
  refine Keeps.ite ?_ ?_
  · exact hk
  · lift_lets
    intro u0
    clear_value u0
    intro u1
    clear_value u1
    intro u2
    have h3 : Keeps s0 u2 := by
      unfold u2
      refine Keeps.other ?_
      exact hk
    clear_value u2
    intro u5
    have h6 : Keeps s0 u5 := by
      unfold u5
      refine raise_keeps ?_
      refine sticky_keeps ?_
      exact h3
    clear_value u5
    refine Keeps.ite ?_ ?_
    · exact h3
    · refine Keeps.ite ?_ ?_
      · refine orderlyStop_keeps ?_
        exact h6
      · exact h6

theorem slipCount_keeps {s0 : State} {s : State} {e : ℕ} {delta : ℤ} (hk : Keeps s0 s) :
    Keeps s0 (slipCount s e delta) := by
  unfold slipCount
  refine Keeps.ite ?_ ?_
  · exact hk
  · lift_lets
    intro u0
    clear_value u0
    intro u1
    clear_value u1
    refine Keeps.ite ?_ ?_
    · refine checkSlip_keeps ?_
      refine Keeps.other ?_
      exact hk
    · refine Keeps.other ?_
      exact hk

theorem endFreeze_keeps {s0 : State} {s : State} (hk : Keeps s0 s) :
    Keeps s0 (endFreeze s) := by
  unfold endFreeze
  lift_lets
  intro u0
  clear_value u0
  intro u1
  clear_value u1
  intro u2
  have h3 : Keeps s0 u2 := by
    unfold u2
    refine Keeps.other ?_
    exact hk
  clear_value u2
  intro u5
  have h6 : Keeps s0 u5 := by
    unfold u5
    refine Keeps.ite ?_ ?_
    · exact h3
    · refine raise_keeps ?_
      exact h3
  clear_value u5
  refine checkJob_keeps ?_
  refine Keeps.foldl _ ?_ (fun x7 a8 hx9 => ?_)
  · exact h6
  · refine resumeChan_keeps ?_
    exact hx9

theorem endPassChan_keeps {s0 : State} {s : State} {c : ℕ} (hk : Keeps s0 s) :
    Keeps s0 (endPassChan s c) := by
  unfold endPassChan
  refine Keeps.ite ?_ ?_
  · exact hk
  · lift_lets
    intro u0
    clear_value u0
    intro u1
    have h2 : Keeps s0 u1 := by
      unfold u1
      refine bump_keeps ?_
      exact hk
    clear_value u1
    refine Keeps.ite ?_ ?_
    · exact h2
    · refine raise_keeps ?_
      refine sticky_keeps ?_
      exact h2

theorem startMoves_keeps {s0 : State} {s : State} (hk : Keeps s0 s) :
    Keeps s0 (startMoves s) := by
  unfold startMoves
  refine Keeps.other ?_
  exact hk

theorem endPass_keeps {s0 : State} {s : State} (hk : Keeps s0 s) :
    Keeps s0 (endPass s) := by
  unfold endPass
  lift_lets
  intro u0
  clear_value u0
  intro u1
  have h2 : Keeps s0 u1 := by
    unfold u1
    refine Keeps.ite ?_ ?_
    · refine Keeps.foldl _ ?_ (fun x3 a4 hx5 => ?_)
      · refine withdrawAll_keeps ?_
        exact hk
      · refine endPassChan_keeps ?_
        exact hx5
    · exact hk
  clear_value u1
  intro u6
  have h7 : Keeps s0 u6 := by
    unfold u6
    refine raise_keeps ?_
    exact h2
  clear_value u6
  intro u8
  clear_value u8
  intro u9
  have h10 : Keeps s0 u9 := by
    unfold u9
    refine Keeps.other ?_
    exact h7
  clear_value u9
  intro u12
  have h13 : Keeps s0 u12 := by
    unfold u12
    refine dropFrames_keeps ?_
    refine startMoves_keeps ?_
    exact h10
  clear_value u12
  intro u14
  clear_value u14
  intro u15
  have h16 : Keeps s0 u15 := by
    unfold u15
    refine stopFetch_keeps ?_
    refine Keeps.other ?_
    exact h13
  clear_value u15
  intro u18
  clear_value u18
  intro u19
  clear_value u19
  intro u20
  have h21 : Keeps s0 u20 := by
    unfold u20
    refine Keeps.ite ?_ ?_
    · refine Keeps.other ?_
      exact h16
    · exact h13
  clear_value u20
  refine checkJob_keeps ?_
  refine swapAtPass_keeps ?_
  exact h21

theorem reversal_keeps {s0 : State} {s : State} {first : Bool} (hk : Keeps s0 s) :
    Keeps s0 (reversal s first) := by
  unfold reversal
  refine Keeps.ite ?_ ?_
  · refine endPass_keeps ?_
    exact hk
  · refine Keeps.ite ?_ ?_
    · exact hk
    · refine freeze_keeps ?_
      refine raise_keeps ?_
      refine sticky_keeps ?_
      exact hk

theorem positionCount_keeps {s0 : State} {s : State} {delta : ℤ} (hk : Keeps s0 s) :
    Keeps s0 (positionCount s delta) := by
  unfold positionCount
  lift_lets
  intro u0
  clear_value u0
  intro u1
  clear_value u1
  intro u2
  have h3 : Keeps s0 u2 := by
    unfold u2
    refine Keeps.other ?_
    exact hk
  clear_value u2
  intro u5
  clear_value u5
  intro u6
  have h7 : Keeps s0 u6 := by
    unfold u6
    refine Keeps.other ?_
    exact hk
  clear_value u6
  intro u9
  clear_value u9
  refine Keeps.ite ?_ ?_
  · refine Keeps.ite ?_ ?_
    · refine Keeps.ite ?_ ?_
      · refine endFreeze_keeps ?_
        exact h3
      · exact h3
    · refine Keeps.other ?_
      exact hk
  · refine Keeps.ite ?_ ?_
    · refine reversal_keeps ?_
      refine Keeps.other ?_
      exact h7
    · exact h7

theorem edgeUpdate_keeps {s0 : State} {s : State} {z : ℚ} (hk : Keeps s0 s) :
    Keeps s0 (edgeUpdate s z) := by
  unfold edgeUpdate
  lift_lets
  intro u0
  clear_value u0
  intro u1
  clear_value u1
  intro u2
  clear_value u2
  refine Keeps.ite ?_ ?_
  · refine Keeps.other ?_
    exact hk
  · refine runUpdate_keeps ?_
    refine Keeps.other ?_
    exact hk

theorem countEdge_keeps {s0 : State} {s : State} {e : ℕ} {delta : ℤ} (hk : Keeps s0 s) :
    Keeps s0 (countEdge s e delta) := by
  unfold countEdge
  lift_lets
  intro u0
  have h1 : Keeps s0 u0 := by
    unfold u0
    refine setEnc_keeps ?_
    exact hk
  clear_value u0
  intro u2
  clear_value u2
  intro u3
  clear_value u3
  intro u4
  have h5 : Keeps s0 u4 := by
    unfold u4
    refine Keeps.other ?_
    exact h1
  clear_value u4
  intro u7
  have h8 : Keeps s0 u7 := by
    unfold u7
    refine Keeps.ite ?_ ?_
    · refine raise_keeps ?_
      refine sticky_keeps ?_
      exact h5
    · exact h1
  clear_value u7
  intro u9
  have h10 : Keeps s0 u9 := by
    unfold u9
    refine slipCount_keeps ?_
    exact h8
  clear_value u9
  intro u11
  have h12 : Keeps s0 u11 := by
    unfold u11
    refine positionCount_keeps ?_
    exact h10
  clear_value u11
  refine Keeps.ite ?_ ?_
  · refine edgeUpdate_keeps ?_
    exact h12
  · exact h10

theorem execEncoderTransition_keeps {s0 : State} {t : ℕ} {enc : Fin 2} {a : Bool} {b : Bool} {heldA : ℕ} {heldB : ℕ} {s : State}
    (hk : Keeps s0 s) :
    KeepsO s0 (execEncoderTransition t enc a b heldA heldB s) := by
  unfold execEncoderTransition
  lift_lets
  intro u0
  have h1 : Keeps s0 u0 := by
    unfold u0
    refine flushUpdate_keeps ?_
    refine begin_keeps ?_
    exact hk
  clear_value u0
  intro u2
  clear_value u2
  intro u3
  clear_value u3
  intro u4
  clear_value u4
  intro u5
  clear_value u5
  intro u6
  have h7 : Keeps s0 u6 := by
    unfold u6
    refine setEnc_keeps ?_
    exact h1
  clear_value u6
  intro u8
  have h9 : Keeps s0 u8 := by
    unfold u8
    refine encBit_keeps ?_
    refine setEnc_keeps ?_
    exact h7
  clear_value u8
  intro u10
  clear_value u10
  intro u11
  have h12 : Keeps s0 u11 := by
    unfold u11
    refine countEdge_keeps ?_
    exact h7
  clear_value u11
  refine KeepsO.next ?_
  refine Keeps.ite ?_ ?_
  · refine setEnc_keeps ?_
    exact h1
  · refine Keeps.ite ?_ ?_
    · exact h1
    · refine Keeps.ite ?_ ?_
      · refine Keeps.ite ?_ ?_
        · refine encBit_keeps ?_
          exact h9
        · exact h9
      · refine Keeps.ite ?_ ?_
        · refine encBit_keeps ?_
          exact h12
        · exact h12

theorem execSyntheticUpdate_keeps {s0 : State} {t : ℕ} {s : State} (hk : Keeps s0 s) :
    KeepsO s0 (execSyntheticUpdate t s) := by
  unfold execSyntheticUpdate
  lift_lets
  intro u0
  have h1 : Keeps s0 u0 := by
    unfold u0
    refine flushUpdate_keeps ?_
    refine begin_keeps ?_
    exact hk
  clear_value u0
  intro u2
  clear_value u2
  intro u3
  clear_value u3
  intro u4
  clear_value u4
  intro u5
  clear_value u5
  intro u6
  clear_value u6
  refine KeepsO.next ?_
  refine Keeps.ite ?_ ?_
  · exact h1
  · refine afterUpdate_keeps ?_
    refine Keeps.other ?_
    exact h1

theorem shiftPosition_keeps {s0 : State} {s : State} {d : ℤ} (hk : Keeps s0 s) :
    Keeps s0 (shiftPosition s d) := by
  unfold shiftPosition
  lift_lets
  intro u0
  clear_value u0
  intro u1
  clear_value u1
  intro u2
  clear_value u2
  intro u3
  clear_value u3
  intro u4
  clear_value u4
  intro u5
  clear_value u5
  refine Keeps.other ?_
  exact hk

theorem restartFrames_keeps {s0 : State} {s : State} (hk : Keeps s0 s) :
    Keeps s0 (restartFrames s) := by
  unfold restartFrames
  lift_lets
  intro u0
  have h1 : Keeps s0 u0 := by
    unfold u0
    refine dropFrames_keeps ?_
    exact hk
  clear_value u0
  intro u2
  clear_value u2
  intro u3
  clear_value u3
  intro u4
  clear_value u4
  refine Keeps.other ?_
  exact h1

theorem placePosition_keeps {s0 : State} {s : State} (hk : Keeps s0 s) :
    Keeps s0 (placePosition s) := by
  unfold placePosition
  lift_lets
  intro u0
  clear_value u0
  intro u1
  have h2 : Keeps s0 u1 := by
    unfold u1
    refine Keeps.other ?_
    exact hk
  clear_value u1
  intro u4
  have h5 : Keeps s0 u4 := by
    unfold u4
    refine Keeps.ite ?_ ?_
    · refine shiftPosition_keeps ?_
      exact h2
    · refine shiftPosition_keeps ?_
      exact hk
  clear_value u4
  intro u6
  clear_value u6
  intro u7
  have h8 : Keeps s0 u7 := by
    unfold u7
    refine startMoves_keeps ?_
    refine Keeps.other ?_
    exact h5
  clear_value u7
  refine restartFrames_keeps ?_
  refine Keeps.ite ?_ ?_
  · refine swapAtPass_keeps ?_
    exact h8
  · exact h8

theorem execIndexEdge_keeps {s0 : State} {t : ℕ} {enc : Fin 2} {held : ℕ} {s : State} (hk : Keeps s0 s) :
    KeepsO s0 (execIndexEdge t enc held s) := by
  unfold execIndexEdge
  lift_lets
  intro u0
  have h1 : Keeps s0 u0 := by
    unfold u0
    refine flushUpdate_keeps ?_
    refine begin_keeps ?_
    exact hk
  clear_value u0
  intro u2
  have h3 : Keeps s0 u2 := by
    unfold u2
    refine setEnc_keeps ?_
    exact h1
  clear_value u2
  intro u4
  have h5 : Keeps s0 u4 := by
    unfold u4
    refine Keeps.ite ?_ ?_
    · refine placePosition_keeps ?_
      exact h3
    · exact h3
  clear_value u4
  refine KeepsO.next ?_
  refine Keeps.ite ?_ ?_
  · exact h1
  · refine Keeps.ite ?_ ?_
    · refine setEnc_keeps ?_
      exact h1
    · refine homeIndex_keeps ?_
      exact h5

theorem indexRun_keeps {s0 : State} {s : State} {e : ℕ} {differs : Bool} {get : Encoder → ℕ} {set : Encoder → ℕ → Encoder}
    {f : Machine.Field} (hk : Keeps s0 s) :
    Keeps s0 (indexRun s e differs get set f) := by
  unfold indexRun
  lift_lets
  intro u0
  clear_value u0
  refine Keeps.ite ?_ ?_
  · refine encBit_keeps ?_
    refine setEnc_keeps ?_
    exact hk
  · refine setEnc_keeps ?_
    exact hk

theorem execIndexPulseEnd_keeps {s0 : State} {t : ℕ} {enc : Fin 2} {held : ℕ} {s : State} (hk : Keeps s0 s) :
    KeepsO s0 (execIndexPulseEnd t enc held s) := by
  unfold execIndexPulseEnd
  lift_lets
  intro u0
  have h1 : Keeps s0 u0 := by
    unfold u0
    refine flushUpdate_keeps ?_
    refine begin_keeps ?_
    exact hk
  clear_value u0
  intro u2
  clear_value u2
  intro u3
  have h4 : Keeps s0 u3 := by
    unfold u3
    refine Keeps.ite ?_ ?_
    · refine setEnc_keeps ?_
      exact h1
    · exact h1
  clear_value u3
  intro u5
  clear_value u5
  intro u6
  have h7 : Keeps s0 u6 := by
    unfold u6
    refine indexRun_keeps ?_
    exact h4
  clear_value u6
  intro u8
  have h9 : Keeps s0 u8 := by
    unfold u8
    refine indexRun_keeps ?_
    exact h7
  clear_value u8
  refine KeepsO.next ?_
  refine Keeps.ite ?_ ?_
  · exact h4
  · refine Keeps.ite ?_ ?_
    · refine indexRun_keeps ?_
      exact h4
    · refine indexRun_keeps ?_
      exact h9

theorem execEncoderPairOpen_keeps {s0 : State} {t : ℕ} {enc : Fin 2} {pair : Fin 3} {s : State} (hk : Keeps s0 s) :
    KeepsO s0 (execEncoderPairOpen t enc pair s) := by
  unfold execEncoderPairOpen
  refine KeepsO.next ?_
  refine openBits_keeps ?_
  refine setEnc_keeps ?_
  refine begin_keeps ?_
  exact hk

theorem execEncoderPairClosed_keeps {s0 : State} {t : ℕ} {enc : Fin 2} {pair : Fin 3} {a : Bool} {b : Bool} {s : State}
    (hk : Keeps s0 s) :
    KeepsO s0 (execEncoderPairClosed t enc pair a b s) := by
  unfold execEncoderPairClosed
  refine KeepsO.next ?_
  refine setEnc_keeps ?_
  refine begin_keeps ?_
  exact hk

theorem shedLine_keeps {s0 : State} {s : State} {u : ℕ} {line : ℤ} (hk : Keeps s0 s) :
    Keeps s0 (shedLine s u line) := by
  unfold shedLine
  lift_lets
  intro u0
  have h1 : Keeps s0 u0 := by
    unfold u0
    refine sticky_keeps ?_
    refine bump_keeps ?_
    exact hk
  clear_value u0
  intro u2
  clear_value u2
  intro u3
  have h4 : Keeps s0 u3 := by
    unfold u3
    refine setHub_keeps ?_
    exact h1
  clear_value u3
  refine Keeps.ite ?_ ?_
  · refine raise_keeps ?_
    exact h4
  · exact h4

theorem sendMask_keeps {s0 : State} {s : State} {c : ℕ} {line : ℤ} {r : RowDots} (hk : Keeps s0 s) :
    Keeps s0 (sendMask s c line r) := by
  unfold sendMask
  lift_lets
  intro u0
  clear_value u0
  intro u1
  clear_value u1
  intro u2
  clear_value u2
  rcases e5 : spanOf s c line with ⟨a3, a4⟩
  dsimp only
  refine Keeps.ite ?_ ?_
  · exact hk
  · split
    · rename_i q6 q7
      exact hk
    · rename_i q8 q9 q10
      split
      · rename_i q11 q12
        exact hk
      · rename_i q13 q14 q15
        refine setChan_keeps ?_
        refine toHub_keeps ?_
        exact hk

theorem sendToHub_keeps {s0 : State} {s : State} {c : ℕ} {line : ℤ} {onHist : Bool} {u : ℕ} {rows : List (RowDots × ℤ)}
    (hk : Keeps s0 s) :
    Keeps s0 (sendToHub s c line onHist u rows) := by
  unfold sendToHub
  lift_lets
  intro u0
  have h1 : Keeps s0 u0 := by
    unfold u0
    refine Keeps.ite ?_ ?_
    · exact hk
    · refine Keeps.foldl _ ?_ (fun x2 a3 hx4 => ?_)
      · exact hk
      · refine sendMask_keeps ?_
        exact hx4
  clear_value u0
  intro u5
  have h6 : Keeps s0 u5 := by
    unfold u5
    refine Keeps.foldl _ ?_ (fun x7 a8 hx9 => ?_)
    · exact h1
    · refine toHub_keeps ?_
      exact hx9
  clear_value u5
  refine sendFire_keeps ?_
  exact h6

theorem sendRows_keeps {s0 : State} {s : State} {c : ℕ} {line : ℤ} {onHist : Bool} {due : List (RowDots × ℤ)} (hk : Keeps s0 s) :
    Keeps s0 (sendRows s c line onHist due) := by
  unfold sendRows
  refine Keeps.foldl _ ?_ (fun x0 a1 hx2 => ?_)
  · exact hk
  · refine Keeps.ite ?_ ?_
    · refine shedLine_keeps ?_
      exact hx2
    · refine sendToHub_keeps ?_
      exact hx2

theorem sendLine_keeps {s0 : State} {s : State} {c : ℕ} {line : ℤ} {rows : List RowDots} {onHist : Bool} {f : ℤ} {fs : List ℤ}
    {shift : ℤ} (hk : Keeps s0 s) :
    Keeps s0 (sendLine s c line rows onHist f fs shift) := by
  unfold sendLine
  lift_lets
  intro u0
  clear_value u0
  intro u1
  clear_value u1
  intro u2
  clear_value u2
  intro u3
  clear_value u3
  intro u4
  clear_value u4
  intro u5
  clear_value u5
  intro u6
  have h7 : Keeps s0 u6 := by
    unfold u6
    refine sendRows_keeps ?_
    exact hk
  clear_value u6
  intro u8
  clear_value u8
  intro u9
  have h10 : Keeps s0 u9 := by
    unfold u9
    refine setChan_keeps ?_
    exact h7
  clear_value u9
  refine Keeps.ite ?_ ?_
  · refine setState_keeps ?_
    exact h10
  · exact h10

theorem sendNext_keeps {s0 : State} {s : State} {c : ℕ} (hk : Keeps s0 s) :
    Keeps s0 (sendNext s c) := by
  unfold sendNext
  lift_lets
  intro u0
  clear_value u0
  intro u1
  clear_value u1
  intro u2
  have h3 : Keeps s0 u2 := by
    unfold u2
    refine swapBefore_keeps ?_
    exact hk
  clear_value u2
  refine Keeps.ite ?_ ?_
  · exact hk
  · split
    · rename_i q4 q5
      exact hk
    · rename_i q6 q7 q8 q9
      split
      · rename_i q10 q11
        exact hk
      · rename_i q12 q13 q14 q15
        rcases e18 : holdOrShed s c u0 q13 with ⟨a16, a17⟩
        dsimp only
        refine Keeps.ite ?_ ?_
        · exact hk
        · refine checkJob_keeps ?_
          refine judgeCover_keeps ?_
          refine Keeps.ite ?_ ?_
          · refine sendLine_keeps ?_
            exact h3
          · refine dropLine_keeps ?_
            exact h3

theorem sendOpened_keeps {s0 : State} {s : State} {c : ℕ} {l : SentLine} (hk : Keeps s0 s) :
    Keeps s0 (sendOpened s c l) := by
  unfold sendOpened
  lift_lets
  intro u0
  clear_value u0
  intro u1
  clear_value u1
  intro u2
  clear_value u2
  intro u3
  clear_value u3
  intro u4
  have h5 : Keeps s0 u4 := by
    unfold u4
    refine sendRows_keeps ?_
    exact hk
  clear_value u4
  intro u6
  clear_value u6
  refine Keeps.ite ?_ ?_
  · exact hk
  · refine setChan_keeps ?_
    exact h5

theorem sendLater_keeps {s0 : State} {s : State} {c : ℕ} (hk : Keeps s0 s) :
    Keeps s0 (sendLater s c) := by
  unfold sendLater
  refine Keeps.ite ?_ ?_
  · refine Keeps.foldl _ ?_ (fun x0 a1 hx2 => ?_)
    · exact hk
    · refine sendOpened_keeps ?_
      exact hx2
  · exact hk

theorem execLineSend_keeps {s0 : State} {t : ℕ} {c : Fin 16} {s : State} (hk : Keeps s0 s) :
    KeepsO s0 (execLineSend t c s) := by
  unfold execLineSend
  refine KeepsO.next ?_
  refine sendNext_keeps ?_
  refine sendLater_keeps ?_
  refine flushUpdate_keeps ?_
  refine begin_keeps ?_
  exact hk

theorem missOpened_keeps {s0 : State} {s : State} {c : ℕ} {l : SentLine} (hk : Keeps s0 s) :
    Keeps s0 (missOpened s c l) := by
  unfold missOpened
  lift_lets
  intro u0
  clear_value u0
  intro u1
  clear_value u1
  intro u2
  clear_value u2
  intro u3
  have h4 : Keeps s0 u3 := by
    unfold u3
    refine setChan_keeps ?_
    exact hk
  clear_value u3
  refine Keeps.ite ?_ ?_
  · exact hk
  · refine Keeps.ite ?_ ?_
    · exact h4
    · refine noteMissed_keeps ?_
      refine bump_keeps ?_
      exact h4

theorem applyPath_keeps {s0 : State} {s : State} {p : PathChange} (hk : Keeps s0 s) :
    Keeps s0 (applyPath s p) := by
  unfold applyPath
  lift_lets
  intro u0
  clear_value u0
  intro u1
  have h2 : Keeps s0 u1 := by
    unfold u1
    refine Keeps.other ?_
    exact hk
  clear_value u1
  intro u4
  have h5 : Keeps s0 u4 := by
    unfold u4
    refine setChan_keeps ?_
    exact h2
  clear_value u4
  intro u6
  have h7 : Keeps s0 u6 := by
    unfold u6
    refine sticky_keeps ?_
    refine bump_keeps ?_
    refine setPathNow_keeps ?_
    exact h5
  clear_value u6
  refine raise_keeps ?_
  exact h7

theorem duePaths_keeps {s0 : State} {s : State} {c : ℕ} {line : ℤ} (hk : Keeps s0 s) :
    Keeps s0 (duePaths s c line) := by
  unfold duePaths
  refine Keeps.ite ?_ ?_
  · exact hk
  · refine Keeps.foldl _ ?_ (fun x0 a1 hx2 => ?_)
    · exact hk
    · refine applyPath_keeps ?_
      exact hx2

theorem atBoundary_keeps {s0 : State} {s : State} {c : ℕ} {line : ℤ} (hk : Keeps s0 s) :
    Keeps s0 (atBoundary s c line) := by
  unfold atBoundary
  lift_lets
  intro u0
  have h1 : Keeps s0 u0 := by
    unfold u0
    refine dueCopy_keeps ?_
    refine dueBlocks_keeps ?_
    exact hk
  clear_value u0
  intro u2
  have h3 : Keeps s0 u2 := by
    unfold u2
    refine dueNozzles_keeps ?_
    refine Keeps.ite ?_ ?_
    · refine manualBlock_keeps ?_
      exact h1
    · exact h1
  clear_value u2
  refine issueBlock_keeps ?_
  refine duePaths_keeps ?_
  exact h3

theorem comeToLine_keeps {s0 : State} {s : State} {c : ℕ} {line : ℤ} (hk : Keeps s0 s) :
    Keeps s0 (comeToLine s c line) := by
  unfold comeToLine
  lift_lets
  intro u0
  have h1 : Keeps s0 u0 := by
    unfold u0
    refine manualFrom_keeps ?_
    exact hk
  clear_value u0
  refine Keeps.ite ?_ ?_
  · refine atBoundary_keeps ?_
    exact h1
  · exact h1

theorem dropBuffers_keeps {s0 : State} {s : State} {c : ℕ} {line : ℤ} (hk : Keeps s0 s) :
    Keeps s0 (dropBuffers s c line) := by
  unfold dropBuffers
  lift_lets
  intro u0
  clear_value u0
  intro u1
  clear_value u1
  intro u2
  have h3 : Keeps s0 u2 := by
    unfold u2
    refine Keeps.foldl _ ?_ (fun x4 a5 hx6 => ?_)
    · exact hk
    · refine endRead_keeps ?_
      exact hx6
  clear_value u2
  intro u7
  clear_value u7
  intro u8
  have h9 : Keeps s0 u8 := by
    unfold u8
    refine setChan_keeps ?_
    exact h3
  clear_value u8
  refine fillBuffers_keeps ?_
  exact h9

theorem missNext_keeps {s0 : State} {s : State} {c : ℕ} (hk : Keeps s0 s) :
    Keeps s0 (missNext s c) := by
  unfold missNext
  lift_lets
  intro u0
  clear_value u0
  intro u1
  clear_value u1
  intro u2
  clear_value u2
  intro u3
  clear_value u3
  intro u4
  have h5 : Keeps s0 u4 := by
    unfold u4
    refine swapBefore_keeps ?_
    exact hk
  clear_value u4
  intro u6
  have h7 : Keeps s0 u6 := by
    unfold u6
    refine Keeps.ite ?_ ?_
    · refine comeToLine_keeps ?_
      exact h5
    · exact h5
  clear_value u6
  refine Keeps.ite ?_ ?_
  · exact hk
  · split
    · rename_i q8 q9
      exact hk
    · rename_i q10 q11 q12 q13
      lift_lets
      intro u14
      clear_value u14
      refine Keeps.ite ?_ ?_
      · refine checkJob_keeps ?_
        refine judgeCover_keeps ?_
        refine dropBuffers_keeps ?_
        refine missLine_keeps ?_
        exact h7
      · exact hk

theorem execLineMissedNotReady_keeps {s0 : State} {t : ℕ} {c : Fin 16} {s : State} (hk : Keeps s0 s) :
    KeepsO s0 (execLineMissedNotReady t c s) := by
  unfold execLineMissedNotReady
  lift_lets
  intro u0
  have h1 : Keeps s0 u0 := by
    unfold u0
    refine flushUpdate_keeps ?_
    refine begin_keeps ?_
    exact hk
  clear_value u0
  intro u2
  have h3 : Keeps s0 u2 := by
    unfold u2
    refine Keeps.ite ?_ ?_
    · refine checkJob_keeps ?_
      refine Keeps.foldl _ ?_ (fun x4 a5 hx6 => ?_)
      · exact h1
      · refine missOpened_keeps ?_
        exact hx6
    · exact h1
  clear_value u2
  refine KeepsO.next ?_
  refine missNext_keeps ?_
  exact h3

theorem countCompare_keeps {s0 : State} {s : State} (hk : Keeps s0 s) :
    Keeps s0 (countCompare s) := by
  unfold countCompare
  lift_lets
  intro u0
  clear_value u0
  intro u1
  clear_value u1
  intro u2
  have h3 : Keeps s0 u2 := by
    unfold u2
    refine Keeps.other ?_
    exact hk
  clear_value u2
  refine Keeps.ite ?_ ?_
  · refine changeScore_keeps ?_
    exact h3
  · exact h3

theorem matchLine_keeps {s0 : State} {s : State} {c : ℕ} {line : ℤ} (hk : Keeps s0 s) :
    Keeps s0 (matchLine s c line) := by
  unfold matchLine
  lift_lets
  intro u0
  clear_value u0
  intro u1
  have h2 : Keeps s0 u1 := by
    unfold u1
    refine Keeps.ite ?_ ?_
    · exact hk
    · refine Keeps.other ?_
      exact hk
  clear_value u1
  refine judgeSynced_keeps ?_
  refine countCompare_keeps ?_
  exact h2

theorem endRuns_keeps {s0 : State} {s : State} {c : ℕ} (hk : Keeps s0 s) :
    Keeps s0 (endRuns s c) := by
  unfold endRuns
  refine Keeps.other ?_
  exact hk

theorem mismatch_keeps {s0 : State} {s : State} {c : ℕ} {line : ℤ} (hk : Keeps s0 s) :
    Keeps s0 (mismatch s c line) := by
  unfold mismatch
  lift_lets
  intro u0
  have h1 : Keeps s0 u0 := by
    unfold u0
    refine sticky_keeps ?_
    refine bump_keeps ?_
    refine endRuns_keeps ?_
    exact hk
  clear_value u0
  intro u2
  clear_value u2
  intro u3
  have h4 : Keeps s0 u3 := by
    unfold u3
    refine changeScore_keeps ?_
    refine Keeps.other ?_
    exact h1
  clear_value u3
  intro u6
  clear_value u6
  refine Keeps.ite ?_ ?_
  · exact h4
  · refine raise_keeps ?_
    refine Keeps.other ?_
    exact h4

theorem compareLine_keeps {s0 : State} {s : State} {c : ℕ} {line : ℤ} {equal : Bool} {subst : Bool} (hk : Keeps s0 s) :
    Keeps s0 (compareLine s c line equal subst) := by
  unfold compareLine
  refine Keeps.ite ?_ ?_
  · refine matchLine_keeps ?_
    exact hk
  · refine Keeps.ite ?_ ?_
    · refine countCompare_keeps ?_
      refine bump_keeps ?_
      refine endRuns_keeps ?_
      exact hk
    · refine mismatch_keeps ?_
      exact hk

theorem ownCrc_keeps {s0 : State} {s : State} {c : ℕ} {u : ℕ} {line : ℤ} {crc : ℕ} (hk : Keeps s0 s) :
    Keeps s0 (ownCrc s c u line crc) := by
  unfold ownCrc
  split
  · rename_i q0 q1 q2
    refine compareLine_keeps ?_
    refine Keeps.other ?_
    exact hk
  · rename_i q4 q5
    refine Keeps.other ?_
    exact hk

theorem lineCrcs_keeps {s0 : State} {s : State} {cfg : CfgSet} {c : ℕ} {l : RLine} (hk : Keeps s0 s) :
    Keeps s0 (lineCrcs s cfg c l) := by
  unfold lineCrcs
  refine Keeps.ite ?_ ?_
  · exact hk
  · refine Keeps.foldl _ ?_ (fun x0 a1 hx2 => ?_)
    · exact hk
    · lift_lets
      intro u3
      clear_value u3
      refine Keeps.ite ?_ ?_
      · refine Keeps.ite ?_ ?_
        · refine toPeer_keeps ?_
          exact hx2
        · exact hx2
      · refine ownCrc_keeps ?_
        exact hx2

theorem renderInto_keeps {s0 : State} {s : State} {c : ℕ} {line : ℤ} {streams : ℕ → StreamLine} {m : Image} (hk : Keeps s0 s) :
    Keeps s0 (renderInto s c line streams m) := by
  unfold renderInto
  lift_lets
  intro u0
  clear_value u0
  intro u1
  clear_value u1
  rcases e5 : match bandLine s line with | some k => (renderLadder u0 s.live c k, 0, 0) | none => renderLine u0 s.live c s.job.rep m.width m.height streams (line - s.job.first) with ⟨a2, a3, a4⟩
  dsimp only
  refine lineCrcs_keeps ?_
  refine Keeps.ite ?_ ?_
  · refine bump_keeps ?_
    refine Keeps.ite ?_ ?_
    · refine bump_keeps ?_
      refine bump_keeps ?_
      refine setChan_keeps ?_
      refine recordCoverage_keeps ?_
      exact hk
    · refine sticky_keeps ?_
      refine bump_keeps ?_
      refine bump_keeps ?_
      refine setChan_keeps ?_
      refine recordCoverage_keeps ?_
      exact hk
  · refine Keeps.ite ?_ ?_
    · refine bump_keeps ?_
      refine bump_keeps ?_
      refine setChan_keeps ?_
      refine recordCoverage_keeps ?_
      exact hk
    · refine sticky_keeps ?_
      refine bump_keeps ?_
      refine bump_keeps ?_
      refine setChan_keeps ?_
      refine recordCoverage_keeps ?_
      exact hk

theorem execLineRender_keeps {s0 : State} {t : ℕ} {c : Fin 16} {s : State} (hk : Keeps s0 s) :
    KeepsO s0 (execLineRender t c s) := by
  unfold execLineRender
  lift_lets
  intro u0
  have h1 : Keeps s0 u0 := by
    unfold u0
    refine flushUpdate_keeps ?_
    refine begin_keeps ?_
    exact hk
  clear_value u0
  intro u2
  clear_value u2
  intro u3
  have h4 : Keeps s0 u3 := by
    unfold u3
    refine fillBuffers_keeps ?_
    exact h1
  clear_value u3
  intro u5
  have h6 : Keeps s0 u5 := by
    unfold u5
    refine comeToLine_keeps ?_
    exact h4
  clear_value u5
  refine KeepsO.next ?_
  refine Keeps.ite ?_ ?_
  · exact h1
  · split
    · rename_i q7 q8 q9 q10 q11 q12 q13 q14 q15
      lift_lets
      intro u16
      have h17 : Keeps s0 u16 := by
        unfold u16
        refine renderInto_keeps ?_
        exact h6
      clear_value u16
      refine judgeCover_keeps ?_
      refine dropBuffers_keeps ?_
      exact h17
    · rename_i q18 q19 q20 q21
      exact h4

theorem setBuf_keeps {s0 : State} {s : State} {c : ℕ} {b : BufStrip} {b' : BufStrip} (hk : Keeps s0 s) :
    Keeps s0 (setBuf s c b b') := by
  unfold setBuf
  refine setChan_keeps ?_
  exact hk

theorem decodeFailed_keeps {s0 : State} {s : State} {c : ℕ} {b : BufStrip} {code : ℕ} (hk : Keeps s0 s) :
    Keeps s0 (decodeFailed s c b code) := by
  unfold decodeFailed
  lift_lets
  intro u0
  clear_value u0
  intro u1
  have h2 : Keeps s0 u1 := by
    unfold u1
    refine setFld_keeps ?_
    refine setFld_keeps ?_
    exact hk
  clear_value u1
  intro u3
  have h4 : Keeps s0 u3 := by
    unfold u3
    refine endRead_keeps ?_
    exact h2
  clear_value u3
  intro u5
  have h6 : Keeps s0 u5 := by
    unfold u5
    refine sticky_keeps ?_
    refine bump_keeps ?_
    exact h4
  clear_value u5
  intro u7
  have h8 : Keeps s0 u7 := by
    unfold u7
    refine setBuf_keeps ?_
    exact h4
  clear_value u7
  intro u9
  have h10 : Keeps s0 u9 := by
    unfold u9
    refine sticky_keeps ?_
    refine bump_keeps ?_
    exact h8
  clear_value u9
  intro u11
  have h12 : Keeps s0 u11 := by
    unfold u11
    refine raise_keeps ?_
    exact h10
  clear_value u11
  refine Keeps.ite ?_ ?_
  · refine startReads_keeps ?_
    refine raise_keeps ?_
    refine setBuf_keeps ?_
    exact h6
  · refine Keeps.ite ?_ ?_
    · refine damageStrip_keeps ?_
      exact h12
    · exact h12

theorem execStripDecodeDone_keeps {s0 : State} {t : ℕ} {c : Fin 16} {read : Option (List Byte)} {ecc : List EccAt} {s : State}
    (hk : Keeps s0 s) :
    KeepsO s0 (execStripDecodeDone t c read ecc s) := by
  unfold execStripDecodeDone
  lift_lets
  intro u0
  have h1 : Keeps s0 u0 := by
    unfold u0
    refine flushUpdate_keeps ?_
    refine begin_keeps ?_
    exact hk
  clear_value u0
  intro u2
  clear_value u2
  refine KeepsO.next ?_
  split
  · rename_i q3 q4
    exact h1
  · rename_i q5 q6 q7 q8
    split
    · rename_i q9 q10
      refine decodeFailed_keeps ?_
      exact h1
    · rename_i q11 q12 q13
      lift_lets
      intro u14
      clear_value u14
      intro u15
      have h16 : Keeps s0 u15 := by
        unfold u15
        refine Keeps.foldl _ ?_ (fun x17 a18 hx19 => ?_)
        · exact h1
        · refine noteEcc_keeps ?_
          exact hx19
      clear_value u15
      refine Keeps.ite ?_ ?_
      · refine decodeFailed_keeps ?_
        exact h16
      · dsimp only
        split
        · rename_i q20 q21 q22 q23
          refine decodeFailed_keeps ?_
          exact h16
        · rename_i q24 q25 q26 q27 q28
          refine Keeps.ite ?_ ?_
          · refine endRead_keeps ?_
            refine setBuf_keeps ?_
            exact h16
          · refine decodeFailed_keeps ?_
            exact h16

theorem dropRetry_keeps {s0 : State} {s : State} {h : ℕ} {i : ℕ} (hk : Keeps s0 s) :
    Keeps s0 (dropRetry s h i) := by
  unfold dropRetry
  refine Keeps.other ?_
  exact hk

theorem costChecked_keeps {s0 : State} {s : State} {h : ℕ} {i : ℕ} {hd : StripHead} {bytes : List Byte} {out : List Byte} {cost : ℕ}
    (hk : Keeps s0 s) :
    Keeps s0 (costChecked s h i hd bytes out cost).1 := by
  unfold costChecked
  split
  · rename_i q0
    lift_lets
    intro u1
    clear_value u1
    intro u2
    have h3 : Keeps s0 u2 := by
      unfold u2
      refine sticky_keeps ?_
      refine bump_keeps ?_
      exact hk
    clear_value u2
    dsimp only
    refine raise_keeps ?_
    exact h3
  · rename_i q4
    exact hk

theorem publishStrip_keeps {s0 : State} {s : State} {h : ℕ} {i : ℕ} {bytes : List Byte} {hd : StripHead} {out : List Byte}
    {cost : ℕ} (hk : Keeps s0 s) :
    Keeps s0 (publishStrip s h i bytes hd out cost) := by
  unfold publishStrip
  lift_lets
  intro u0
  have h1 : Keeps s0 u0 := by
    unfold u0
    refine dropRetry_keeps ?_
    exact hk
  clear_value u0
  intro u2
  clear_value u2
  refine Keeps.ite ?_ ?_
  · refine storeStrip_keeps ?_
    exact h1
  · rcases e6 : costChecked u0 h i hd bytes out cost with ⟨a3, a4, a5⟩
    dsimp only
    refine storeStrip_keeps ?_
    refine Keeps.fst_of e6 ?_
    refine costChecked_keeps ?_
    exact h1

theorem execStripRestored_keeps {s0 : State} {t : ℕ} {handle : ℕ} {index : ℕ} {bytes : List Byte} {s : State} (hk : Keeps s0 s) :
    KeepsO s0 (execStripRestored t handle index bytes s) := by
  unfold execStripRestored
  lift_lets
  intro u0
  have h1 : Keeps s0 u0 := by
    unfold u0
    refine begin_keeps ?_
    exact hk
  clear_value u0
  refine KeepsO.next ?_
  split
  · rename_i q2 q3 q4 q5 q6 q7 q8 q9
    refine Keeps.ite ?_ ?_
    · refine publishStrip_keeps ?_
      exact h1
    · exact h1
  · rename_i q10 q11 q12
    exact h1

theorem endIngest_keeps {s0 : State} {s : State} {g : Ingest} {result : ℕ} (hk : Keeps s0 s) :
    Keeps s0 (endIngest s g result) := by
  unfold endIngest
  lift_lets
  intro u0
  clear_value u0
  intro u1
  clear_value u1
  intro u2
  have h3 : Keeps s0 u2 := by
    unfold u2
    refine Keeps.other ?_
    exact hk
  clear_value u2
  refine answer_keeps ?_
  exact h3

theorem rejectCost_keeps {s0 : State} {s : State} {g : Ingest} {engine : ℕ} (hk : Keeps s0 s) :
    Keeps s0 (rejectCost s g engine) := by
  unfold rejectCost
  rcases e2 : fresh s with ⟨a0, a1⟩
  dsimp only
  refine endIngest_keeps ?_
  refine raise_keeps ?_
  refine sticky_keeps ?_
  refine Keeps.snd_of e2 ?_
  refine fresh_keeps ?_
  exact hk

theorem sendStrip_keeps {s0 : State} {s : State} {h : ℕ} {i : ℕ} (hk : Keeps s0 s) :
    Keeps s0 (sendStrip s h i) := by
  unfold sendStrip
  split
  · rename_i q0 q1 q2
    refine toPeer_keeps ?_
    exact hk
  · rename_i q3 q4
    exact hk

theorem setIngest_keeps {s0 : State} {s : State} {g : Ingest} {g' : Ingest} (hk : Keeps s0 s) :
    Keeps s0 (setIngest s g g') := by
  unfold setIngest
  refine Keeps.other ?_
  exact hk

theorem ingestStrip_keeps {s0 : State} {s : State} {g : Ingest} {bytes : List Byte} {cost : ℕ} {lines : ℕ} {used : ℕ} {engine : ℕ}
    (hk : Keeps s0 s) :
    Keeps s0 (ingestStrip s g bytes cost lines used engine) := by
  unfold ingestStrip
  refine Keeps.ite ?_ ?_
  · refine rejectCost_keeps ?_
    exact hk
  · refine Keeps.ite ?_ ?_
    · refine endIngest_keeps ?_
      exact hk
    · lift_lets
      intro u0
      have h1 : Keeps s0 u0 := by
        unfold u0
        refine storeStrip_keeps ?_
        exact hk
      intro u2
      clear_value u2
      intro u3
      have h4 : Keeps s0 u3 := by
        unfold u3
        refine Keeps.other ?_
        exact h1
      intro u6
      have h7 : Keeps s0 u6 := by
        unfold u6
        refine Keeps.ite ?_ ?_
        · refine sendStrip_keeps ?_
          exact h4
        · exact h4
      clear_value u6
      intro u8
      clear_value u8
      intro u9
      have h10 : Keeps s0 u9 := by
        unfold u9
        refine setIngest_keeps ?_
        exact h7
      clear_value u9
      refine Keeps.ite ?_ ?_
      · refine endIngest_keeps ?_
        exact h10
      · exact h10

theorem execRawStripEncoded_keeps {s0 : State} {t : ℕ} {ch : Fin 6} {tag : ℕ} {engine : Fin 4} {s : State} (hk : Keeps s0 s) :
    KeepsO s0 (execRawStripEncoded t ch tag engine s) := by
  unfold execRawStripEncoded
  lift_lets
  intro u0
  have h1 : Keeps s0 u0 := by
    unfold u0
    refine begin_keeps ?_
    exact hk
  clear_value u0
  refine KeepsO.next ?_
  split
  · rename_i q2 q3
    exact h1
  · rename_i q4 q5 q6
    refine Keeps.ite ?_ ?_
    · exact h1
    · split
      · rename_i q7 q8
        refine endIngest_keeps ?_
        exact h1
      · rename_i q9 q10 q11
        lift_lets
        intro u12
        clear_value u12
        rcases e15 : ingestData u0 q5 with ⟨a13, a14⟩
        dsimp only
        refine Keeps.ite ?_ ?_
        · exact h1
        · refine ingestStrip_keeps ?_
          exact h1

theorem noteCodecError_keeps {s0 : State} {s : State} {code : ℕ} {source : ℕ} (hk : Keeps s0 s) :
    Keeps s0 (noteCodecError s code source) := by
  unfold noteCodecError
  refine setFld_keeps ?_
  refine setFld_keeps ?_
  exact hk

theorem rejectIngest_keeps {s0 : State} {s : State} {g : Ingest} {engine : ℕ} {code : ℕ} (hk : Keeps s0 s) :
    Keeps s0 (rejectIngest s g engine code) := by
  unfold rejectIngest
  lift_lets
  intro u0
  have h1 : Keeps s0 u0 := by
    unfold u0
    refine noteCodecError_keeps ?_
    refine sticky_keeps ?_
    exact hk
  clear_value u0
  intro u2
  have h3 : Keeps s0 u2 := by
    unfold u2
    refine raise_keeps ?_
    exact h1
  clear_value u2
  refine endIngest_keeps ?_
  exact h3

theorem execIngestStripDecoded_keeps {s0 : State} {t : ℕ} {ch : Fin 6} {tag : ℕ} {engine : Fin 2} {s : State} (hk : Keeps s0 s) :
    KeepsO s0 (execIngestStripDecoded t ch tag engine s) := by
  unfold execIngestStripDecoded
  lift_lets
  intro u0
  have h1 : Keeps s0 u0 := by
    unfold u0
    refine begin_keeps ?_
    exact hk
  clear_value u0
  refine KeepsO.next ?_
  split
  · rename_i q2 q3
    exact h1
  · rename_i q4 q5 q6
    refine Keeps.ite ?_ ?_
    · exact h1
    · split
      · rename_i q7 q8
        refine endIngest_keeps ?_
        exact h1
      · rename_i q9 q10 q11
        rcases e14 : ingestData u0 q5 with ⟨a12, a13⟩
        dsimp only
        split
        · rename_i q15 q16 q17 q18
          refine Keeps.ite ?_ ?_
          · exact h1
          · refine rejectIngest_keeps ?_
            exact h1
        · rename_i q19 q20 q21 q22 q23
          refine Keeps.ite ?_ ?_
          · refine rejectIngest_keeps ?_
            exact h1
          · refine ingestStrip_keeps ?_
            refine costChecked_keeps ?_
            exact h1

theorem markDamaged_keeps {s0 : State} {s : State} {h : ℕ} {i : ℕ} (hk : Keeps s0 s) :
    Keeps s0 (markDamaged s h i) := by
  unfold markDamaged
  split
  · rename_i q0 q1 q2
    refine damageStrip_keeps ?_
    exact hk
  · rename_i q3 q4
    lift_lets
    intro u5
    clear_value u5
    intro u6
    clear_value u6
    intro u7
    have h8 : Keeps s0 u7 := by
      unfold u7
      refine Keeps.other ?_
      exact hk
    clear_value u7
    refine doorbell_keeps ?_
    refine raise_keeps ?_
    refine sticky_keeps ?_
    exact h8

theorem replReject_keeps {s0 : State} {s : State} {h : ℕ} {i : ℕ} {code : ℕ} (hk : Keeps s0 s) :
    Keeps s0 (replReject s h i code) := by
  unfold replReject
  rcases e2 : fresh s with ⟨a0, a1⟩
  dsimp only
  refine Keeps.ite ?_ ?_
  · refine toPeer_keeps ?_
    refine Keeps.other ?_
    refine dropRetry_keeps ?_
    refine raise_keeps ?_
    refine sticky_keeps ?_
    refine bump_keeps ?_
    refine noteCodecError_keeps ?_
    refine Keeps.snd_of e2 ?_
    refine fresh_keeps ?_
    exact hk
  · refine Keeps.ite ?_ ?_
    · refine Keeps.other ?_
      refine dropRetry_keeps ?_
      refine markDamaged_keeps ?_
      refine raise_keeps ?_
      refine sticky_keeps ?_
      refine bump_keeps ?_
      refine noteCodecError_keeps ?_
      refine Keeps.snd_of e2 ?_
      refine fresh_keeps ?_
      exact hk
    · refine Keeps.other ?_
      refine dropRetry_keeps ?_
      refine raise_keeps ?_
      refine sticky_keeps ?_
      refine bump_keeps ?_
      refine noteCodecError_keeps ?_
      refine Keeps.snd_of e2 ?_
      refine fresh_keeps ?_
      exact hk

theorem execReplStripReceived_keeps {s0 : State} {t : ℕ} {handle : ℕ} {index : ℕ} {bytes : List Byte} {s : State}
    (hk : Keeps s0 s) :
    KeepsO s0 (execReplStripReceived t handle index bytes s) := by
  unfold execReplStripReceived
  lift_lets
  intro u0
  have h1 : Keeps s0 u0 := by
    unfold u0
    refine begin_keeps ?_
    exact hk
  clear_value u0
  refine KeepsO.next ?_
  refine Keeps.ite ?_ ?_
  · exact h1
  · split
    · rename_i q2 q3 q4
      exact h1
    · rename_i q5 q6 q7 q8 q9 q10 q11 q12
      refine publishStrip_keeps ?_
      exact h1
    · rename_i q13 q14 q15 q16 q17 q18 q19
      refine replReject_keeps ?_
      exact h1

theorem execReplRetryTimer_keeps {s0 : State} {t : ℕ} {s : State} (hk : Keeps s0 s) :
    KeepsO s0 (execReplRetryTimer t s) := by
  unfold execReplRetryTimer
  lift_lets
  intro u0
  have h1 : Keeps s0 u0 := by
    unfold u0
    refine begin_keeps ?_
    exact hk
  clear_value u0
  intro u2
  clear_value u2
  intro u3
  have h4 : Keeps s0 u3 := by
    unfold u3
    refine Keeps.foldl _ ?_ (fun x5 a6 hx7 => ?_)
    · exact h1
    · refine toPeer_keeps ?_
      exact hx7
  clear_value u3
  intro u8
  clear_value u8
  intro u9
  clear_value u9
  refine KeepsO.next ?_
  refine Keeps.other ?_
  exact h4

theorem hubReport_keeps {s0 : State} {s : State} {u : ℕ} {ack : HubAck} (hk : Keeps s0 s) :
    Keeps s0 (hubReport s u ack) := by
  unfold hubReport
  lift_lets
  intro u0
  clear_value u0
  intro u1
  clear_value u1
  intro u2
  clear_value u2
  intro u3
  have h4 : Keeps s0 u3 := by
    unfold u3
    refine setHub_keeps ?_
    exact hk
  clear_value u3
  intro u5
  have h6 : Keeps s0 u5 := by
    unfold u5
    refine Keeps.ite ?_ ?_
    · refine raise_keeps ?_
      refine sticky_keeps ?_
      exact h4
    · exact h4
  clear_value u5
  refine Keeps.ite ?_ ?_
  · refine raise_keeps ?_
    refine sticky_keeps ?_
    exact h6
  · exact h6

theorem raiseOnce_keeps {s0 : State} {s : State} {code : ℕ} {source : ℕ} {arg : ℕ} (hk : Keeps s0 s) :
    Keeps s0 (raiseOnce s code source arg) := by
  unfold raiseOnce
  refine Keeps.ite ?_ ?_
  · exact hk
  · refine raise_keeps ?_
    refine Keeps.other ?_
    exact hk

theorem addPending_keeps {s0 : State} {s : State} {f : Machine.Field} {i : ℕ} {source : ℕ} {n : ℕ} (hk : Keeps s0 s) :
    Keeps s0 (addPending s f i source n) := by
  unfold addPending
  lift_lets
  intro u0
  clear_value u0
  intro u1
  have h2 : Keeps s0 u1 := by
    unfold u1
    refine bump_keeps ?_
    exact hk
  clear_value u1
  refine Keeps.ite ?_ ?_
  · refine raiseOnce_keeps ?_
    refine sticky_keeps ?_
    exact h2
  · exact h2

theorem countRow_keeps {s0 : State} {s : State} {c : ℕ} {r : SentRow} (hk : Keeps s0 s) :
    Keeps s0 (countRow s c r) := by
  unfold countRow
  lift_lets
  intro u0
  have h1 : Keeps s0 u0 := by
    unfold u0
    refine addPending_keeps ?_
    exact hk
  clear_value u0
  intro u2
  clear_value u2
  refine addPending_keeps ?_
  refine setChan_keeps ?_
  exact h1

theorem settleLine_keeps {s0 : State} {s : State} {c : ℕ} {u : ℕ} {port : ℕ} {rowB : Bool} {last : ℤ} {fired : ℕ} {count : Bool}
    {l : SentLine} (hk : Keeps s0 s) :
    Keeps s0 (settleLine s c u port rowB last fired count l).1 := by
  unfold settleLine
  lift_lets
  intro u0
  clear_value u0
  intro u1
  clear_value u1
  intro u2
  have h3 : Keeps s0 u2 := by
    unfold u2
    refine Keeps.ite ?_ ?_
    · refine Keeps.foldl _ ?_ (fun x4 a5 hx6 => ?_)
      · exact hk
      · refine countRow_keeps ?_
        exact hx6
    · exact hk
  clear_value u2
  intro u7
  clear_value u7
  intro u8
  have h9 : Keeps s0 u8 := by
    unfold u8
    refine Keeps.ite ?_ ?_
    · refine setChan_keeps ?_
      exact h3
    · exact h3
  clear_value u8
  intro u10
  have h11 : Keeps s0 u10 := by
    unfold u10
    refine Keeps.ite ?_ ?_
    · refine noteMissed_keeps ?_
      refine bump_keeps ?_
      exact h9
    · exact h9
  clear_value u10
  split
  · rename_i q12
    exact h11
  · rename_i q13
    exact h9

theorem settleCut_keeps {s0 : State} {s : State} {u : ℕ} {last : ℤ} (hk : Keeps s0 s) :
    Keeps s0 (settleCut s u last) := by
  unfold settleCut
  refine Keeps.foldl _ ?_ (fun x0 a1 hx2 => ?_)
  · exact hk
  · split
    · rename_i q3
      exact hx2
    · rename_i q4 q5 q6
      refine Keeps.ite ?_ ?_
      · lift_lets
        intro u7
        have h8 : Keeps s0 u7 := by
          unfold u7
          refine setHub_keeps ?_
          exact hx2
        clear_value u7
        intro u9
        have h10 : Keeps s0 u9 := by
          unfold u9
          refine bump_keeps ?_
          exact h8
        clear_value u9
        refine raise_keeps ?_
        refine sticky_keeps ?_
        exact h10
      · exact hx2

theorem ackRow_keeps {s0 : State} {s : State} {u : ℕ} {port : ℕ} {rowB : Bool} {last : ℕ} {fired : ℕ} {count : Bool} {old : Bool}
    (hk : Keeps s0 s) :
    Keeps s0 (ackRow s u port rowB last fired count old) := by
  unfold ackRow
  refine Keeps.foldl _ ?_ (fun x0 a1 hx2 => ?_)
  · exact hk
  · lift_lets
    intro u3
    clear_value u3
    intro u4
    clear_value u4
    refine Keeps.ite ?_ ?_
    · rcases e7 : List.foldl (fun a l => match settleLine a.1 a1 u port rowB u4 fired count l with | (s, l) => (s, a.2 ++ [l])) (x0, []) u3.sent with ⟨a5, a6⟩
      dsimp only
      refine settleCut_keeps ?_
      refine setChan_keeps ?_
      refine Keeps.foldl_fst _ ?_ (fun x8 a9 hx10 => ?_)
      · exact hx2
      · dsimp only
        refine settleLine_keeps ?_
        exact hx10
    · exact hx2

theorem requestPath_keeps {s0 : State} {s : State} {c : ℕ} {hist : Bool} (hk : Keeps s0 s) :
    Keeps s0 (requestPath s c hist) := by
  unfold requestPath
  refine Keeps.ite ?_ ?_
  · exact hk
  · refine Keeps.ite ?_ ?_
    · lift_lets
      intro u0
      clear_value u0
      intro u1
      clear_value u1
      refine Keeps.other ?_
      exact hk
    · lift_lets
      intro u3
      clear_value u3
      intro u4
      clear_value u4
      refine applyPath_keeps ?_
      refine Keeps.other ?_
      exact hk

theorem reportPath_keeps {s0 : State} {s : State} {p : Placement} {old : Bool} (hk : Keeps s0 s) :
    Keeps s0 (reportPath s p old) := by
  unfold reportPath
  refine Keeps.ite ?_ ?_
  · exact hk
  · refine Keeps.foldl _ ?_ (fun x0 a1 hx2 => ?_)
    · exact hk
    · refine requestPath_keeps ?_
      exact hx2

theorem headTemp_keeps {s0 : State} {s : State} {h : ℕ} {p : Placement} {temp : ℤ} {old : Bool} (hk : Keeps s0 s) :
    Keeps s0 (headTemp s h p temp old) := by
  unfold headTemp
  lift_lets
  intro u0
  have h1 : Keeps s0 u0 := by
    unfold u0
    refine setFld_keeps ?_
    exact hk
  intro u2
  dsimp only
  split
  · rename_i q3 q4
    exact h1
  · rename_i q5 q6 q7
    refine Keeps.ite ?_ ?_
    · refine Keeps.ite ?_ ?_
      · refine Keeps.other ?_
        exact h1
      · refine Keeps.other ?_
        exact h1
    · refine Keeps.ite ?_ ?_
      · refine reportPath_keeps ?_
        refine raise_keeps ?_
        refine sticky_keeps ?_
        refine Keeps.other ?_
        refine Keeps.ite ?_ ?_
        · refine Keeps.other ?_
          exact h1
        · refine Keeps.other ?_
          exact h1
      · refine Keeps.other ?_
        refine Keeps.ite ?_ ?_
        · refine Keeps.other ?_
          exact h1
        · refine Keeps.other ?_
          exact h1

theorem ackHead_keeps {s0 : State} {s : State} {u : ℕ} {r : AckRec} {count : Bool} {old : Bool} (hk : Keeps s0 s) :
    Keeps s0 (ackHead s u r count old) := by
  unfold ackHead
  lift_lets
  intro u0
  have h1 : Keeps s0 u0 := by
    unfold u0
    refine Keeps.ite ?_ ?_
    · refine ackRow_keeps ?_
      exact hk
    · exact hk
  clear_value u0
  intro u2
  have h3 : Keeps s0 u2 := by
    unfold u2
    refine Keeps.ite ?_ ?_
    · refine ackRow_keeps ?_
      exact h1
    · exact h1
  clear_value u2
  intro u4
  have h5 : Keeps s0 u4 := by
    unfold u4
    refine Keeps.ite ?_ ?_
    · refine raiseOnce_keeps ?_
      refine sticky_keeps ?_
      refine bump_keeps ?_
      exact h3
    · exact h3
  clear_value u4
  split
  · rename_i q6 q7
    exact h5
  · rename_i q8 q9 q10 q11
    lift_lets
    intro u12
    have h13 : Keeps s0 u12 := by
      unfold u12
      refine headTemp_keeps ?_
      exact h5
    clear_value u12
    intro u14
    have h15 : Keeps s0 u14 := by
      unfold u14
      refine sticky_keeps ?_
      exact h13
    clear_value u14
    intro u16
    clear_value u16
    intro u17
    have h18 : Keeps s0 u17 := by
      unfold u17
      refine Keeps.other ?_
      exact h15
    clear_value u17
    refine Keeps.ite ?_ ?_
    · refine reportPath_keeps ?_
      exact h18
    · exact h13

theorem readAck_keeps {s0 : State} {s : State} {u : ℕ} {ack : HubAck} {count : Bool} (hk : Keeps s0 s) :
    Keeps s0 (readAck s u ack count) := by
  unfold readAck
  lift_lets
  intro u0
  clear_value u0
  refine Keeps.foldl _ ?_ (fun x1 a2 hx3 => ?_)
  · exact hk
  · refine ackHead_keeps ?_
    exact hx3

theorem giveUp_keeps {s0 : State} {s : State} {c : ℕ} (hk : Keeps s0 s) :
    Keeps s0 (giveUp s c) := by
  unfold giveUp
  lift_lets
  intro u0
  clear_value u0
  intro u1
  clear_value u1
  intro u2
  have h3 : Keeps s0 u2 := by
    unfold u2
    refine Keeps.foldl _ ?_ (fun x4 a5 hx6 => ?_)
    · exact hk
    · refine Keeps.ite ?_ ?_
      · refine Keeps.foldl _ ?_ (fun x7 a8 hx9 => ?_)
        · exact hx6
        · refine setHub_keeps ?_
          refine sticky_keeps ?_
          refine bump_keeps ?_
          exact hx9
      · exact hx6
  clear_value u2
  refine setChan_keeps ?_
  exact h3

theorem execLinesUnacked_keeps {s0 : State} {t : ℕ} {c : Fin 16} {s : State} (hk : Keeps s0 s) :
    KeepsO s0 (execLinesUnacked t c s) := by
  unfold execLinesUnacked
  refine KeepsO.next ?_
  refine checkJob_keeps ?_
  refine giveUp_keeps ?_
  refine flushUpdate_keeps ?_
  refine begin_keeps ?_
  exact hk

theorem execHistHoldExpire_keeps {s0 : State} {t : ℕ} {c : Fin 16} {s : State} (hk : Keeps s0 s) :
    KeepsO s0 (execHistHoldExpire t c s) := by
  unfold execHistHoldExpire
  lift_lets
  intro u0
  have h1 : Keeps s0 u0 := by
    unfold u0
    refine flushUpdate_keeps ?_
    refine begin_keeps ?_
    exact hk
  clear_value u0
  intro u2
  clear_value u2
  refine KeepsO.next ?_
  refine Keeps.ite ?_ ?_
  · refine requestPath_keeps ?_
    exact h1
  · exact h1

theorem peerAuthFail_keeps {s0 : State} {s : State} {which : ℕ} (hk : Keeps s0 s) :
    Keeps s0 (peerAuthFail s which) := by
  unfold peerAuthFail
  refine audit_keeps ?_
  refine raise_keeps ?_
  refine sticky_keeps ?_
  exact hk

theorem ifAuthentic_keeps {s0 : State} {s : State} {tagOk : Bool} {act : State → State} (hk : Keeps s0 s)
    (h_act : ∀ x, Keeps s0 x → Keeps s0 (act x)) :
    Keeps s0 (ifAuthentic s tagOk act) := by
  unfold ifAuthentic
  refine Keeps.ite ?_ ?_
  · refine h_act _ ?_
    exact hk
  · refine peerAuthFail_keeps ?_
    exact hk

theorem startResync_keeps {s0 : State} {s : State} (hk : Keeps s0 s) :
    Keeps s0 (startResync s) := by
  unfold startResync
  refine startStage_keeps ?_
  refine Keeps.other ?_
  exact hk

theorem execLineCrcReceive_keeps {s0 : State} {t : ℕ} {c : Fin 16} {hub : Fin 24} {line : ℤ} {crc : ℕ} {subst : Bool} {tagOk : Bool}
    {s : State} (hk : Keeps s0 s) :
    KeepsO s0 (execLineCrcReceive t c hub line crc subst tagOk s) := by
  unfold execLineCrcReceive
  refine KeepsO.next ?_
  refine ifAuthentic_keeps ?_ (fun x0 hx1 => ?_)
  · refine begin_keeps ?_
    exact hk
  · refine Keeps.ite ?_ ?_
    · exact hx1
    · lift_lets
      intro u2
      clear_value u2
      intro u3
      have h4 : Keeps s0 u3 := by
        unfold u3
        refine Keeps.other ?_
        exact hx1
      clear_value u3
      intro u6
      clear_value u6
      split
      · rename_i q7 q8 q9
        refine compareLine_keeps ?_
        refine Keeps.other ?_
        exact h4
      · rename_i q11 q12
        refine Keeps.other ?_
        exact h4

theorem actCreate_keeps {s0 : State} {name : List Byte} {format : ℕ} {lps : ℕ} {width : ℕ} {height : ℕ} {s : State}
    (hk : Keeps s0 s) :
    Keeps s0 (actCreate name format lps width height s).1 := by
  unfold actCreate
  lift_lets
  intro u0
  clear_value u0
  intro u1
  clear_value u1
  intro u2
  clear_value u2
  intro u3
  clear_value u3
  split
  · rename_i q4
    exact hk
  · rename_i q5
    split
    · rename_i q6
      exact hk
    · rename_i q7
      dsimp only
      refine Keeps.other ?_
      exact hk

theorem execImgCreate_keeps {s0 : State} {t : ℕ} {ch : Fin 6} {tag : ℕ} {name : List Byte} {format : ℕ} {lps : ℕ} {width : ℕ}
    {height : ℕ} {s : State} (hk : Keeps s0 s) :
    KeepsO s0 (execImgCreate t ch tag name format lps width height s) := by
  unfold execImgCreate
  refine KeepsO.next ?_
  refine message_keeps ?_ (fun x0 hx1 => ?_)
  · refine begin_keeps ?_
    exact hk
  · refine actCreate_keeps ?_
    exact hx1

theorem actIngest_keeps {s0 : State} {k : ℕ} {tag : ℕ} {handle : ℕ} {form : ℕ} {first : ℕ} {count : ℕ} {data : DataRef} {s : State}
    (hk : Keeps s0 s) :
    Keeps s0 (actIngest k tag handle form first count data s).1 := by
  unfold actIngest
  split
  · rename_i q0 q1
    exact hk
  · rename_i q2 q3 q4
    split
    · rename_i q5
      exact hk
    · rename_i q6
      split
      · rename_i q7
        exact hk
      · rename_i q8
        split
        · rename_i q9
          exact hk
        · rename_i q10
          lift_lets
          intro u11
          clear_value u11
          intro u12
          clear_value u12
          intro u13
          clear_value u13
          intro u14
          clear_value u14
          intro u15
          clear_value u15
          intro u16
          clear_value u16
          dsimp only
          refine Keeps.other ?_
          exact hk

theorem execImgIngest_keeps {s0 : State} {t : ℕ} {ch : Fin 6} {tag : ℕ} {handle : ℕ} {form : ℕ} {first : ℕ} {count : ℕ}
    {data : DataRef} {s : State} (hk : Keeps s0 s) :
    KeepsO s0 (execImgIngest t ch tag handle form first count data s) := by
  unfold execImgIngest
  refine KeepsO.next ?_
  refine message_keeps ?_ (fun x0 hx1 => ?_)
  · refine begin_keeps ?_
    exact hk
  · refine actIngest_keeps ?_
    exact hx1

theorem actDelete_keeps {s0 : State} {handle : ℕ} {s : State} (hk : Keeps s0 s) :
    Keeps s0 (actDelete handle s).1 := by
  unfold actDelete
  split
  · rename_i q0 q1
    exact hk
  · rename_i q2 q3 q4
    split
    · rename_i q5
      exact hk
    · rename_i q6
      lift_lets
      intro u7
      have h8 : Keeps s0 u7 := by
        unfold u7
        refine Keeps.foldl _ ?_ (fun x9 a10 hx11 => ?_)
        · exact hk
        · refine abandonMove_keeps ?_
          exact hx11
      clear_value u7
      intro u12
      clear_value u12
      dsimp only
      refine Keeps.other ?_
      exact h8

theorem execImgDelete_keeps {s0 : State} {t : ℕ} {ch : Fin 6} {tag : ℕ} {handle : ℕ} {s : State} (hk : Keeps s0 s) :
    KeepsO s0 (execImgDelete t ch tag handle s) := by
  unfold execImgDelete
  refine KeepsO.next ?_
  refine message_keeps ?_ (fun x0 hx1 => ?_)
  · refine begin_keeps ?_
    exact hk
  · refine actDelete_keeps ?_
    exact hx1

theorem execImgInfo_keeps {s0 : State} {t : ℕ} {ch : Fin 6} {tag : ℕ} {handle : ℕ} {s : State} (hk : Keeps s0 s) :
    KeepsO s0 (execImgInfo t ch tag handle s) := by
  unfold execImgInfo
  refine KeepsO.next ?_
  refine message_keeps ?_ (fun x0 hx1 => ?_)
  · refine begin_keeps ?_
    exact hk
  · exact hx1

theorem execImgList_keeps {s0 : State} {t : ℕ} {ch : Fin 6} {tag : ℕ} {first : ℕ} {s : State} (hk : Keeps s0 s) :
    KeepsO s0 (execImgList t ch tag first s) := by
  unfold execImgList
  refine KeepsO.next ?_
  refine message_keeps ?_ (fun x0 hx1 => ?_)
  · refine begin_keeps ?_
    exact hk
  · exact hx1

theorem actEncode_keeps {s0 : State} {j : CodecJob} {s : State} (hk : Keeps s0 s) :
    Keeps s0 (actEncode j s).1 := by
  unfold actEncode
  split
  · rename_i q0
    exact hk
  · rename_i q1
    split
    · rename_i q2
      exact hk
    · rename_i q3
      split
      · rename_i q4
        exact hk
      · rename_i q5
        lift_lets
        intro u6
        clear_value u6
        intro u7
        clear_value u7
        intro u8
        clear_value u8
        intro u9
        clear_value u9
        intro u10
        clear_value u10
        intro u11
        have h12 : Keeps s0 u11 := by
          unfold u11
          refine emit_keeps ?_
          refine emit_keeps ?_
          exact hk
        clear_value u11
        split
        · rename_i q13
          rcases e16 : fresh s with ⟨a14, a15⟩
          dsimp only
          refine raise_keeps ?_
          refine noteCodecError_keeps ?_
          refine sticky_keeps ?_
          refine Keeps.snd_of e16 ?_
          refine fresh_keeps ?_
          exact hk
        · rename_i q17
          split
          · rename_i q18 q19 q20
            dsimp only
            refine emit_keeps ?_
            exact h12
          · rename_i q21 q22
            exact h12

theorem execImgEncode_keeps {s0 : State} {t : ℕ} {ch : Fin 6} {tag : ℕ} {job : CodecJob} {s : State} (hk : Keeps s0 s) :
    KeepsO s0 (execImgEncode t ch tag job s) := by
  unfold execImgEncode
  refine KeepsO.next ?_
  refine message_keeps ?_ (fun x0 hx1 => ?_)
  · refine begin_keeps ?_
    exact hk
  · refine actEncode_keeps ?_
    exact hx1

theorem actDecode_keeps {s0 : State} {j : CodecJob} {s : State} (hk : Keeps s0 s) :
    Keeps s0 (actDecode j s).1 := by
  unfold actDecode
  split
  · rename_i q0
    exact hk
  · rename_i q1
    split
    · rename_i q2
      exact hk
    · rename_i q3
      split
      · rename_i q4
        exact hk
      · rename_i q5
        lift_lets
        intro u6
        clear_value u6
        intro u7
        have h8 : Keeps s0 u7 := by
          unfold u7
          refine emit_keeps ?_
          exact hk
        clear_value u7
        intro u9
        clear_value u9
        split
        · rename_i q10
          rcases e13 : fresh u7 with ⟨a11, a12⟩
          dsimp only
          refine noteCodecError_keeps ?_
          refine Keeps.snd_of e13 ?_
          refine fresh_keeps ?_
          exact h8
        · rename_i q14
          exact h8

theorem execImgDecode_keeps {s0 : State} {t : ℕ} {ch : Fin 6} {tag : ℕ} {job : CodecJob} {s : State} (hk : Keeps s0 s) :
    KeepsO s0 (execImgDecode t ch tag job s) := by
  unfold execImgDecode
  refine KeepsO.next ?_
  refine message_keeps ?_ (fun x0 hx1 => ?_)
  · refine begin_keeps ?_
    exact hk
  · refine actDecode_keeps ?_
    exact hx1

theorem execDiagPlacement_keeps {s0 : State} {t : ℕ} {ch : Fin 6} {tag : ℕ} {handle : ℕ} {strip : ℕ} {s : State} (hk : Keeps s0 s) :
    KeepsO s0 (execDiagPlacement t ch tag handle strip s) := by
  unfold execDiagPlacement
  refine KeepsO.next ?_
  refine message_keeps ?_ (fun x0 hx1 => ?_)
  · refine begin_keeps ?_
    exact hk
  · exact hx1

theorem execStripRequest_keeps {s0 : State} {t : ℕ} {handle : ℕ} {index : ℕ} {s : State} (hk : Keeps s0 s) :
    KeepsO s0 (execStripRequest t handle index s) := by
  unfold execStripRequest
  lift_lets
  intro u0
  have h1 : Keeps s0 u0 := by
    unfold u0
    refine begin_keeps ?_
    exact hk
  clear_value u0
  intro u2
  clear_value u2
  intro u3
  clear_value u3
  intro u4
  clear_value u4
  intro u5
  have h6 : Keeps s0 u5 := by
    unfold u5
    refine Keeps.other ?_
    exact h1
  clear_value u5
  refine KeepsO.next ?_
  split
  · rename_i q8 q9
    exact h1
  · rename_i q10 q11 q12
    refine Keeps.ite ?_ ?_
    · split
      · rename_i q13 q14 q15 q16 q17
        refine sendStrip_keeps ?_
        exact h6
      · rename_i q18 q19 q20 q21
        rcases e24 : fresh u5 with ⟨a22, a23⟩
        dsimp only
        refine damageStrip_keeps ?_
        refine noteCodecError_keeps ?_
        refine Keeps.snd_of e24 ?_
        refine fresh_keeps ?_
        exact h6
    · refine Keeps.ite ?_ ?_
      · exact h6
      · refine sendStrip_keeps ?_
        exact h6

end Sys2Proof.Laws
end

