-- ==== Sys2Proof/Laws/KeepsJob.lean ====
section
/-!
SUPPORT. Every operation and command of consumables, sets, jobs and device time (chapters 03, 07, 12) keeps the queue and the canonical
banks, one lemma each.
-/
namespace Sys2Proof.Laws

open Sys2Proof.Machine

theorem startChan_keeps {s0 : State} {s : State} {c : ℕ} {first : ℤ} (hk : Keeps s0 s) :
    Keeps s0 (startChan s c first) := by
  unfold startChan
  lift_lets
  intro u0
  have h1 : Keeps s0 u0 := by
    unfold u0
    refine setChan_keeps ?_
    exact hk
  clear_value u0
  intro u2
  clear_value u2
  intro u3
  clear_value u3
  intro u4
  clear_value u4
  refine setPathNow_keeps ?_
  refine setChan_keeps ?_
  exact h1

theorem changeSource_keeps {s0 : State} {s : State} {src : ℕ} (hk : Keeps s0 s) :
    Keeps s0 (changeSource s src) := by
  unfold changeSource
  refine Keeps.ite ?_ ?_
  · exact hk
  · lift_lets
    intro u0
    clear_value u0
    intro u1
    clear_value u1
    refine raise_keeps ?_
    refine Keeps.other ?_
    exact hk

theorem setTrig_keeps {s0 : State} {s : State} {n : ℕ} {f : Trigger → Trigger} (hk : Keeps s0 s) :
    Keeps s0 (setTrig s n f) := by
  unfold setTrig
  refine Keeps.other ?_
  exact hk

theorem passOccurrences_keeps {s0 : State} {s : State} {n : ℕ} {k : ℕ} {acts : ℕ} (hk : Keeps s0 s) :
    Keeps s0 (passOccurrences s n k acts) := by
  unfold passOccurrences
  lift_lets
  intro u0
  clear_value u0
  refine setTrig_keeps ?_
  exact hk

theorem skipTrigger_keeps {s0 : State} {s : State} {n : ℕ} (hk : Keeps s0 s) :
    Keeps s0 (skipTrigger s n) := by
  unfold skipTrigger
  lift_lets
  intro u0
  clear_value u0
  intro u1
  have h2 : Keeps s0 u1 := by
    unfold u1
    refine setTrig_keeps ?_
    refine passOccurrences_keeps ?_
    exact hk
  clear_value u1
  intro u3
  have h4 : Keeps s0 u3 := by
    unfold u3
    refine setTrig_keeps ?_
    refine passOccurrences_keeps ?_
    exact hk
  clear_value u3
  refine Keeps.ite ?_ ?_
  · exact hk
  · refine Keeps.ite ?_ ?_
    · refine passOccurrences_keeps ?_
      exact hk
    · refine Keeps.ite ?_ ?_
      · refine raise_keeps ?_
        refine sticky_keeps ?_
        exact h2
      · refine sticky_keeps ?_
        exact h4

theorem applyStep_keeps {s0 : State} {s : State} {d : ℤ} (hk : Keeps s0 s) :
    Keeps s0 (applyStep s d) := by
  unfold applyStep
  lift_lets
  intro u0
  clear_value u0
  intro u1
  have h2 : Keeps s0 u1 := by
    unfold u1
    refine Keeps.other ?_
    exact hk
  clear_value u1
  intro u4
  clear_value u4
  intro u5
  clear_value u5
  intro u6
  have h7 : Keeps s0 u6 := by
    unfold u6
    refine Keeps.other ?_
    exact h2
  clear_value u6
  intro u9
  have h10 : Keeps s0 u9 := by
    unfold u9
    refine raise_keeps ?_
    refine sticky_keeps ?_
    exact h7
  clear_value u9
  refine Keeps.ite ?_ ?_
  · refine Keeps.foldl _ ?_ (fun x11 a12 hx13 => ?_)
    · exact h10
    · refine skipTrigger_keeps ?_
      exact hx13
  · exact h10

theorem setIncr_keeps {s0 : State} {s : State} {n : ℕ} (hk : Keeps s0 s) :
    KeepsQ s0 (setIncr s n) := by
  unfold setIncr
  split
  · rename_i q0
    trivial
  · rename_i q1
    refine KeepsQ.mk ?_
    refine Keeps.other ?_
    exact hk

theorem startSlew_keeps {s0 : State} {s : State} {d : ℤ} (hk : Keeps s0 s) :
    Keeps s0 (startSlew s d) := by
  unfold startSlew
  refine Keeps.other ?_
  exact hk

theorem acceptStep_keeps {s0 : State} {s : State} {d : ℤ} (hk : Keeps s0 s) :
    Keeps s0 (acceptStep s d) := by
  unfold acceptStep
  refine Keeps.other ?_
  exact hk

theorem servoAdjust_keeps {s0 : State} {s : State} {a : ServoAct} (hk : Keeps s0 s) :
    Keeps s0 (servoAdjust s a) := by
  unfold servoAdjust
  refine Keeps.ite ?_ ?_
  · exact hk
  · split
    · rename_i q0
      exact hk
    · rename_i q1 q2
      refine KeepsQ.getD ?_ ?_
      · refine setIncr_keeps ?_
        exact hk
      · exact hk
    · rename_i q3 q4
      refine startSlew_keeps ?_
      exact hk
    · rename_i q5 q6
      refine Keeps.ite ?_ ?_
      · refine applyStep_keeps ?_
        exact hk
      · refine Keeps.ite ?_ ?_
        · lift_lets
          intro u7
          have h8 : Keeps s0 u7 := by
            unfold u7
            refine startSlew_keeps ?_
            exact hk
          clear_value u7
          intro u9
          clear_value u9
          refine Keeps.other ?_
          exact h8
        · refine acceptStep_keeps ?_
          exact hk

theorem gatePps_keeps {s0 : State} {s : State} (hk : Keeps s0 s) :
    Keeps s0 (gatePps s) := by
  unfold gatePps
  refine Keeps.ite ?_ ?_
  · refine emit_keeps ?_
    refine Keeps.other ?_
    exact hk
  · exact hk

theorem loseLock_keeps {s0 : State} {s : State} (hk : Keeps s0 s) :
    Keeps s0 (loseLock s) := by
  unfold loseLock
  lift_lets
  intro u0
  clear_value u0
  intro u1
  have h2 : Keeps s0 u1 := by
    unfold u1
    refine gatePps_keeps ?_
    refine Keeps.other ?_
    exact hk
  clear_value u1
  refine raise_keeps ?_
  refine sticky_keeps ?_
  exact h2

theorem judgeLock_keeps {s0 : State} {s : State} (hk : Keeps s0 s) :
    Keeps s0 (judgeLock s) := by
  unfold judgeLock
  refine Keeps.ite ?_ ?_
  · refine raise_keeps ?_
    refine Keeps.other ?_
    exact hk
  · refine Keeps.ite ?_ ?_
    · refine loseLock_keeps ?_
      exact hk
    · exact hk

theorem lockCounters_keeps {s0 : State} {s : State} {err : ℤ} (hk : Keeps s0 s) :
    Keeps s0 (lockCounters s err) := by
  unfold lockCounters
  lift_lets
  intro u0
  clear_value u0
  intro u1
  clear_value u1
  refine Keeps.other ?_
  exact hk

theorem takeMeasurement_keeps {s0 : State} {s : State} {err : ℤ} {act : ServoAct} (hk : Keeps s0 s) :
    Keeps s0 (takeMeasurement s err act) := by
  unfold takeMeasurement
  refine servoAdjust_keeps ?_
  refine judgeLock_keeps ?_
  refine lockCounters_keeps ?_
  refine setFld_keeps ?_
  exact hk

theorem execTimNowLoRead_keeps {s0 : State} {t : ℕ} {s : State} (hk : Keeps s0 s) :
    KeepsO s0 (execTimNowLoRead t s) := by
  unfold execTimNowLoRead
  lift_lets
  intro u0
  have h1 : Keeps s0 u0 := by
    unfold u0
    refine begin_keeps ?_
    exact hk
  clear_value u0
  intro u2
  clear_value u2
  intro u3
  clear_value u3
  refine KeepsO.next ?_
  refine emit_keeps ?_
  refine Keeps.other ?_
  exact h1

theorem camEdge_keeps {s0 : State} {s : State} {i : ℕ} {action : ℕ} {width : ℕ} (hk : Keeps s0 s) :
    Keeps s0 (camEdge s i action width) := by
  unfold camEdge
  lift_lets
  intro u0
  clear_value u0
  intro u1
  clear_value u1
  refine emit_keeps ?_
  refine Keeps.other ?_
  exact hk

theorem gpioEdge_keeps {s0 : State} {s : State} {i : ℕ} {action : ℕ} {width : ℕ} (hk : Keeps s0 s) :
    Keeps s0 (gpioEdge s i action width) := by
  unfold gpioEdge
  lift_lets
  intro u0
  clear_value u0
  intro u1
  clear_value u1
  intro u2
  have h3 : Keeps s0 u2 := by
    unfold u2
    refine setFld_keeps ?_
    exact hk
  clear_value u2
  refine Keeps.ite ?_ ?_
  · refine emit_keeps ?_
    exact h3
  · exact h3

theorem triggerOutput_keeps {s0 : State} {s : State} {n : ℕ} {ctrl : ℕ} (hk : Keeps s0 s) :
    Keeps s0 (triggerOutput s n ctrl) := by
  unfold triggerOutput
  lift_lets
  intro u0
  clear_value u0
  intro u1
  clear_value u1
  intro u2
  clear_value u2
  intro u3
  clear_value u3
  intro u4
  have h5 : Keeps s0 u4 := by
    unfold u4
    refine Keeps.ite ?_ ?_
    · refine camEdge_keeps ?_
      exact hk
    · refine Keeps.ite ?_ ?_
      · refine gpioEdge_keeps ?_
        exact hk
      · refine Keeps.ite ?_ ?_
        · refine setTrig_keeps ?_
          exact hk
        · exact hk
  clear_value u4
  refine Keeps.ite ?_ ?_
  · refine doorbell_keeps ?_
    exact h5
  · exact h5

theorem advanceTrigger_keeps {s0 : State} {s : State} {n : ℕ} {acts : ℕ} (hk : Keeps s0 s) :
    Keeps s0 (advanceTrigger s n acts) := by
  unfold advanceTrigger
  refine Keeps.ite ?_ ?_
  · refine passOccurrences_keeps ?_
    refine setTrig_keeps ?_
    exact hk
  · refine passOccurrences_keeps ?_
    exact hk

theorem execSlewDone_keeps {s0 : State} {t : ℕ} {s : State} (hk : Keeps s0 s) :
    KeepsO s0 (execSlewDone t s) := by
  unfold execSlewDone
  lift_lets
  intro u0
  have h1 : Keeps s0 u0 := by
    unfold u0
    refine begin_keeps ?_
    exact hk
  clear_value u0
  intro u2
  clear_value u2
  refine KeepsO.next ?_
  refine Keeps.ite ?_ ?_
  · refine Keeps.other ?_
    exact h1
  · exact h1

theorem readTxStamp_keeps {s0 : State} {s : State} {p : ℕ} (hk : Keeps s0 s) :
    Keeps s0 (readTxStamp s p) := by
  unfold readTxStamp
  split
  · rename_i q0 q1
    exact hk
  · rename_i q2 q3 q4 q5
    lift_lets
    intro u6
    clear_value u6
    intro u7
    have h8 : Keeps s0 u7 := by
      unfold u7
      refine Keeps.other ?_
      exact hk
    clear_value u7
    refine Keeps.ite ?_ ?_
    · refine emit_keeps ?_
      exact h8
    · exact h8

theorem readExchange_keeps {s0 : State} {s : State} {x : PtpExchange} (hk : Keeps s0 s) :
    Keeps s0 (readExchange s x).1 := by
  unfold readExchange
  split
  · rename_i q0 q1 q2
    dsimp only
    refine Keeps.foldl _ ?_ (fun x3 a4 hx5 => ?_)
    · exact hk
    · refine readTxStamp_keeps ?_
      exact hx5
  · rename_i q6 q7
    exact hk

theorem execServoMeasurement_keeps {s0 : State} {t : ℕ} {err : ℤ} {act : ServoAct} {exch : Option PtpExchange} {s : State}
    (hk : Keeps s0 s) :
    KeepsO s0 (execServoMeasurement t err act exch s) := by
  unfold execServoMeasurement
  lift_lets
  intro u0
  have h1 : Keeps s0 u0 := by
    unfold u0
    refine begin_keeps ?_
    exact hk
  clear_value u0
  refine KeepsO.next ?_
  refine Keeps.ite ?_ ?_
  · exact h1
  · split
    · rename_i q2
      refine takeMeasurement_keeps ?_
      exact h1
    · rename_i q3 q4
      rcases e7 : readExchange u0 q4 with ⟨a5, a6⟩
      dsimp only
      refine Keeps.ite ?_ ?_
      · refine takeMeasurement_keeps ?_
        refine Keeps.fst_of e7 ?_
        refine readExchange_keeps ?_
        exact h1
      · refine Keeps.fst_of e7 ?_
        refine readExchange_keeps ?_
        exact h1

theorem execHoldoverExpire_keeps {s0 : State} {t : ℕ} {s : State} (hk : Keeps s0 s) :
    KeepsO s0 (execHoldoverExpire t s) := by
  unfold execHoldoverExpire
  lift_lets
  intro u0
  have h1 : Keeps s0 u0 := by
    unfold u0
    refine begin_keeps ?_
    exact hk
  clear_value u0
  intro u2
  clear_value u2
  intro u3
  have h4 : Keeps s0 u3 := by
    unfold u3
    refine Keeps.other ?_
    exact h1
  clear_value u3
  refine KeepsO.next ?_
  refine Keeps.ite ?_ ?_
  · exact h1
  · refine Keeps.ite ?_ ?_
    · refine loseLock_keeps ?_
      exact h4
    · exact h4

theorem execPtpEventReceive_keeps {s0 : State} {t : ℕ} {port : Fin 2} {kind : ℕ} {s : State} (hk : Keeps s0 s) :
    KeepsO s0 (execPtpEventReceive t port kind s) := by
  unfold execPtpEventReceive
  lift_lets
  intro u0
  have h1 : Keeps s0 u0 := by
    unfold u0
    refine begin_keeps ?_
    exact hk
  clear_value u0
  intro u2
  clear_value u2
  refine KeepsO.next ?_
  refine Keeps.ite ?_ ?_
  · refine Keeps.other ?_
    exact h1
  · exact h1

theorem execPtpTxTimestamp_keeps {s0 : State} {t : ℕ} {port : Fin 2} {ident : PtpIdent} {reads : ℕ} {s : State} (hk : Keeps s0 s) :
    KeepsO s0 (execPtpTxTimestamp t port ident reads s) := by
  unfold execPtpTxTimestamp
  lift_lets
  intro u0
  have h1 : Keeps s0 u0 := by
    unfold u0
    refine begin_keeps ?_
    exact hk
  clear_value u0
  intro u2
  clear_value u2
  intro u3
  have h4 : Keeps s0 u3 := by
    unfold u3
    refine bump_keeps ?_
    exact h1
  clear_value u3
  intro u5
  clear_value u5
  intro u6
  have h7 : Keeps s0 u6 := by
    unfold u6
    refine Keeps.ite ?_ ?_
    · refine raise_keeps ?_
      refine sticky_keeps ?_
      exact h4
    · refine Keeps.other ?_
      exact h1
  clear_value u6
  refine KeepsO.next ?_
  refine Keeps.ite ?_ ?_
  · exact h1
  · refine Keeps.foldl _ ?_ (fun x9 a10 hx11 => ?_)
    · exact h7
    · refine readTxStamp_keeps ?_
      exact hx11

theorem execTxqEntryStale_keeps {s0 : State} {t : ℕ} {port : Fin 2} {s : State} (hk : Keeps s0 s) :
    KeepsO s0 (execTxqEntryStale t port s) := by
  unfold execTxqEntryStale
  lift_lets
  intro u0
  have h1 : Keeps s0 u0 := by
    unfold u0
    refine begin_keeps ?_
    exact hk
  clear_value u0
  intro u2
  clear_value u2
  intro u3
  clear_value u3
  intro u4
  clear_value u4
  intro u5
  clear_value u5
  refine KeepsO.next ?_
  refine bump_keeps ?_
  refine Keeps.other ?_
  exact h1

theorem execPpsInEdge_keeps {s0 : State} {t : ℕ} {act : ServoAct} {s : State} (hk : Keeps s0 s) :
    KeepsO s0 (execPpsInEdge t act s) := by
  unfold execPpsInEdge
  lift_lets
  intro u0
  have h1 : Keeps s0 u0 := by
    unfold u0
    refine begin_keeps ?_
    exact hk
  intro u2
  have h3 : Keeps s0 u2 := by
    unfold u2
    refine setFld_keeps ?_
    exact h1
  intro u4
  intro u5
  have h6 : Keeps s0 u5 := by
    unfold u5
    refine Keeps.ite ?_ ?_
    · refine takeMeasurement_keeps ?_
      exact h3
    · exact h3
  intro u7
  intro u8
  have h9 : Keeps s0 u8 := by
    unfold u8
    refine Keeps.other ?_
    exact h6
  refine KeepsO.next ?_
  refine Keeps.ite ?_ ?_
  · refine servoAdjust_keeps ?_
    exact h9
  · exact h9

theorem execPpsMissing_keeps {s0 : State} {t : ℕ} {s : State} (hk : Keeps s0 s) :
    KeepsO s0 (execPpsMissing t s) := by
  unfold execPpsMissing
  lift_lets
  intro u0
  have h1 : Keeps s0 u0 := by
    unfold u0
    refine begin_keeps ?_
    exact hk
  clear_value u0
  intro u2
  clear_value u2
  refine KeepsO.next ?_
  split
  · rename_i q3 q4 q5
    refine Keeps.ite ?_ ?_
    · refine raise_keeps ?_
      refine sticky_keeps ?_
      refine Keeps.other ?_
      exact h1
    · exact h1
  · rename_i q7 q8
    exact h1

theorem execPpsOutPulse_keeps {s0 : State} {t : ℕ} {s : State} (hk : Keeps s0 s) :
    KeepsO s0 (execPpsOutPulse t s) := by
  unfold execPpsOutPulse
  lift_lets
  intro u0
  have h1 : Keeps s0 u0 := by
    unfold u0
    refine begin_keeps ?_
    exact hk
  clear_value u0
  intro u2
  clear_value u2
  refine KeepsO.next ?_
  split
  · rename_i q3 q4 q5
    refine Keeps.ite ?_ ?_
    · refine emit_keeps ?_
      refine Keeps.other ?_
      exact h1
    · exact h1
  · rename_i q7 q8
    refine Keeps.ite ?_ ?_
    · exact h1
    · refine emit_keeps ?_
      refine Keeps.other ?_
      exact h1

theorem setElem_keeps {s0 : State} {s : State} {k : ℕ} {f : Element → Element} (hk : Keeps s0 s) :
    Keeps s0 (setElem s k f) := by
  unfold setElem
  lift_lets
  intro u0
  clear_value u0
  intro u1
  clear_value u1
  intro u2
  clear_value u2
  intro u3
  clear_value u3
  refine Keeps.other ?_
  exact hk

theorem sendRequest_keeps {s0 : State} {s : State} {k : ℕ} {seq : ℕ} {inc : ℕ} (hk : Keeps s0 s) :
    Keeps s0 (sendRequest s k seq inc) := by
  unfold sendRequest
  split
  · rename_i q0 q1
    exact hk
  · rename_i q2 q3 q4 q5 q6
    rcases e9 : fresh s with ⟨a7, a8⟩
    dsimp only
    refine toHub_keeps ?_
    refine setElem_keeps ?_
    refine Keeps.snd_of e9 ?_
    refine fresh_keeps ?_
    exact hk

theorem startCommit_keeps {s0 : State} {s : State} {k : ℕ} (hk : Keeps s0 s) :
    Keeps s0 (startCommit s k) := by
  unfold startCommit
  lift_lets
  intro u0
  clear_value u0
  intro u1
  clear_value u1
  refine sendRequest_keeps ?_
  refine setElem_keeps ?_
  exact hk

theorem readCert_keeps {s0 : State} {s : State} {k : ℕ} (hk : Keeps s0 s) :
    Keeps s0 (readCert s k) := by
  unfold readCert
  split
  · rename_i q0 q1
    exact hk
  · rename_i q2 q3 q4 q5 q6
    lift_lets
    intro u7
    clear_value u7
    intro u8
    have h9 : Keeps s0 u8 := by
      unfold u8
      refine setElem_keeps ?_
      exact hk
    clear_value u8
    refine sendCmd_keeps ?_
    exact h9

theorem execConsCommitStart_keeps {s0 : State} {t : ℕ} {k : ℕ} {s : State} (hk : Keeps s0 s) :
    KeepsO s0 (execConsCommitStart t k s) := by
  unfold execConsCommitStart
  lift_lets
  intro u0
  have h1 : Keeps s0 u0 := by
    unfold u0
    refine begin_keeps ?_
    exact hk
  clear_value u0
  refine KeepsO.next ?_
  refine Keeps.ite ?_ ?_
  · exact h1
  · refine Keeps.ite ?_ ?_
    · refine startCommit_keeps ?_
      exact h1
    · refine Keeps.ite ?_ ?_
      · exact h1
      · refine readCert_keeps ?_
        exact h1

theorem consPolicy_keeps {s0 : State} {s : State} (hk : Keeps s0 s) :
    Keeps s0 (consPolicy s) := by
  unfold consPolicy
  refine Keeps.ite ?_ ?_
  · refine orderlyStop_keeps ?_
    exact hk
  · exact hk

theorem consAuthFail_keeps {s0 : State} {s : State} {k : ℕ} {seq : ℕ} (hk : Keeps s0 s) :
    Keeps s0 (consAuthFail s k seq) := by
  unfold consAuthFail
  refine consPolicy_keeps ?_
  refine raiseOnce_keeps ?_
  refine sticky_keeps ?_
  exact hk

theorem setTotal_keeps {s0 : State} {s : State} {k : ℕ} {total : ℕ} {seq : ℕ} (hk : Keeps s0 s) :
    Keeps s0 (setTotal s k total seq) := by
  unfold setTotal
  refine setFld_keeps ?_
  refine setFld_keeps ?_
  exact hk

theorem rebaseElem_keeps {s0 : State} {s : State} {k : ℕ} {chan : ℕ} {tag : ℕ} {seq : ℕ} {total : ℕ} (hk : Keeps s0 s) :
    Keeps s0 (rebaseElem s k chan tag seq total) := by
  unfold rebaseElem
  lift_lets
  intro u0
  have h1 : Keeps s0 u0 := by
    unfold u0
    refine setTotal_keeps ?_
    exact hk
  clear_value u0
  intro u2
  have h3 : Keeps s0 u2 := by
    unfold u2
    refine setElem_keeps ?_
    exact h1
  clear_value u2
  refine answer_keeps ?_
  refine audit_keeps ?_
  refine raise_keeps ?_
  exact h3

theorem keepPending_keeps {s0 : State} {s : State} {k : ℕ} (hk : Keeps s0 s) :
    Keeps s0 (keepPending s k) := by
  unfold keepPending
  lift_lets
  intro u0
  clear_value u0
  intro u1
  clear_value u1
  refine Keeps.other ?_
  exact hk

theorem setPending_keeps {s0 : State} {s : State} {k : ℕ} {n : ℕ} (hk : Keeps s0 s) :
    Keeps s0 (setPending s k n) := by
  unfold setPending
  refine setFld_keeps ?_
  exact hk

theorem execConsReplyReceive_keeps {s0 : State} {t : ℕ} {k : ℕ} {hub : Fin 24} {valid : Bool} {reply : ConsReply} {s : State}
    (hk : Keeps s0 s) :
    KeepsO s0 (execConsReplyReceive t k hub valid reply s) := by
  unfold execConsReplyReceive
  lift_lets
  intro u0
  have h1 : Keeps s0 u0 := by
    unfold u0
    refine begin_keeps ?_
    exact hk
  clear_value u0
  intro u2
  clear_value u2
  rcases e6 : match reply with | ConsReply.reply r g => (false, r, g) | ConsReply.seqReject r g => (true, r, g) with ⟨a3, a4, a5⟩
  dsimp only
  refine KeepsO.next ?_
  refine Keeps.ite ?_ ?_
  · refine discardPacket_keeps ?_
    exact h1
  · refine Keeps.ite ?_ ?_
    · exact h1
    · refine Keeps.ite ?_ ?_
      · refine consAuthFail_keeps ?_
        exact h1
      · refine Keeps.ite ?_ ?_
        · exact h1
        · split
          · rename_i q7 q8 q9 q10
            refine rebaseElem_keeps ?_
            exact h1
          · rename_i q11 q12
            refine Keeps.ite ?_ ?_
            · refine consPolicy_keeps ?_
              refine raiseOnce_keeps ?_
              refine sticky_keeps ?_
              refine setElem_keeps ?_
              exact h1
            · refine Keeps.ite ?_ ?_
              · exact h1
              · refine Keeps.ite ?_ ?_
                · refine consAuthFail_keeps ?_
                  exact h1
                · refine setElem_keeps ?_
                  refine keepPending_keeps ?_
                  refine setPending_keeps ?_
                  refine setTotal_keeps ?_
                  exact h1

theorem resendCommit_keeps {s0 : State} {s : State} {k : ℕ} (hk : Keeps s0 s) :
    Keeps s0 (resendCommit s k) := by
  unfold resendCommit
  refine sendRequest_keeps ?_
  exact hk

theorem consRetry_keeps {s0 : State} {s : State} {k : ℕ} (hk : Keeps s0 s) :
    Keeps s0 (consRetry s k) := by
  unfold consRetry
  refine Keeps.ite ?_ ?_
  · exact hk
  · refine Keeps.ite ?_ ?_
    · refine resendCommit_keeps ?_
      exact hk
    · refine readCert_keeps ?_
      refine setElem_keeps ?_
      exact hk

theorem execConsTimeout_keeps {s0 : State} {t : ℕ} {k : ℕ} {s : State} (hk : Keeps s0 s) :
    KeepsO s0 (execConsTimeout t k s) := by
  unfold execConsTimeout
  lift_lets
  intro u0
  have h1 : Keeps s0 u0 := by
    unfold u0
    refine begin_keeps ?_
    exact hk
  clear_value u0
  intro u2
  clear_value u2
  intro u3
  clear_value u3
  intro u4
  have h5 : Keeps s0 u4 := by
    unfold u4
    refine setElem_keeps ?_
    exact h1
  clear_value u4
  intro u6
  have h7 : Keeps s0 u6 := by
    unfold u6
    refine setElem_keeps ?_
    exact h1
  clear_value u6
  intro u8
  have h9 : Keeps s0 u8 := by
    unfold u8
    refine raiseOnce_keeps ?_
    refine sticky_keeps ?_
    exact h7
  clear_value u8
  refine KeepsO.next ?_
  refine Keeps.ite ?_ ?_
  · exact h1
  · refine Keeps.ite ?_ ?_
    · refine Keeps.ite ?_ ?_
      · exact h1
      · refine Keeps.ite ?_ ?_
        · refine sendRequest_keeps ?_
          exact h5
        · refine consRetry_keeps ?_
          exact h5
    · refine Keeps.ite ?_ ?_
      · refine Keeps.ite ?_ ?_
        · exact h1
        · split
          · rename_i q10 q11 q12 q13
            refine answer_keeps ?_
            refine audit_keeps ?_
            refine setElem_keeps ?_
            exact h9
          · rename_i q14 q15
            exact h9
      · refine Keeps.ite ?_ ?_
        · exact h1
        · refine consRetry_keeps ?_
          exact h1

theorem certPiece_keeps {s0 : State} {s : State} {k : ℕ} {bytes : List Byte} (hk : Keeps s0 s) :
    Keeps s0 (certPiece s k bytes) := by
  unfold certPiece
  lift_lets
  intro u0
  have h1 : Keeps s0 u0 := by
    unfold u0
    refine setElem_keeps ?_
    exact hk
  clear_value u0
  intro u2
  clear_value u2
  intro u3
  have h4 : Keeps s0 u3 := by
    unfold u3
    refine setElem_keeps ?_
    exact h1
  clear_value u3
  intro u5
  have h6 : Keeps s0 u5 := by
    unfold u5
    refine setElem_keeps ?_
    exact h1
  clear_value u5
  refine Keeps.ite ?_ ?_
  · refine readCert_keeps ?_
    exact h1
  · refine Keeps.ite ?_ ?_
    · split
      · rename_i q7 q8 q9
        refine sendRequest_keeps ?_
        refine setElem_keeps ?_
        exact h4
      · rename_i q10 q11
        refine Keeps.ite ?_ ?_
        · refine startCommit_keeps ?_
          exact h4
        · exact h4
    · refine consAuthFail_keeps ?_
      exact h6

theorem execHeadCmdResponse_keeps {s0 : State} {t : ℕ} {hub : Fin 24} {valid : Bool} {cmd : ℕ} {ctag : ℕ} {status : ℕ}
    {args : List Byte} {s : State} (hk : Keeps s0 s) :
    KeepsO s0 (execHeadCmdResponse t hub valid cmd ctag status args s) := by
  unfold execHeadCmdResponse
  lift_lets
  intro u0
  have h1 : Keeps s0 u0 := by
    unfold u0
    refine begin_keeps ?_
    exact hk
  clear_value u0
  refine KeepsO.next ?_
  refine Keeps.ite ?_ ?_
  · refine discardPacket_keeps ?_
    exact h1
  · split
    · rename_i q2 q3
      exact h1
    · rename_i q4 q5 q6
      lift_lets
      intro u7
      have h8 : Keeps s0 u7 := by
        unfold u7
        refine setHub_keeps ?_
        exact h1
      clear_value u7
      split
      · rename_i q9 q10 q11 q12
        refine answer_keeps ?_
        exact h8
      · rename_i q13 q14
        split
        · rename_i q15 q16
          exact h8
        · rename_i q17 q18 q19
          refine Keeps.ite ?_ ?_
          · refine certPiece_keeps ?_
            exact h8
          · refine setElem_keeps ?_
            exact h8

theorem setShadow_keeps {s0 : State} {s : State} {f : CfgSet → CfgSet} (hk : Keeps s0 s) :
    Keeps s0 (setShadow s f) := by
  unfold setShadow
  refine Keeps.other ?_
  exact hk

theorem shadowWrite_keeps {s0 : State} {bad : Bool} {f : CfgSet → CfgSet} {s : State} (hk : Keeps s0 s) :
    Keeps s0 (shadowWrite bad f s).1 := by
  unfold shadowWrite
  split
  · rename_i q0
    exact hk
  · rename_i q1
    split
    · rename_i q2
      exact hk
    · rename_i q3
      dsimp only
      refine setShadow_keeps ?_
      exact hk

theorem finishTable_keeps {s0 : State} {s : State} {x : TableLoad} (hk : Keeps s0 s) :
    Keeps s0 (finishTable s x) := by
  unfold finishTable
  split
  · rename_i q0 q1
    exact hk
  · rename_i q2 q3 q4
    refine Keeps.ite ?_ ?_
    · exact hk
    · lift_lets
      intro u5
      clear_value u5
      intro u6
      have h7 : Keeps s0 u6 := by
        unfold u6
        refine Keeps.other ?_
        exact hk
      clear_value u6
      refine Keeps.ite ?_ ?_
      · exact h7
      · rcases e11 : shadowWrite false (loadWrite x q3.data) u6 with ⟨a9, a10⟩
        dsimp only
        refine answer_keeps ?_
        refine Keeps.fst_of e11 ?_
        refine shadowWrite_keeps ?_
        exact h7

theorem actSetIncr_keeps {s0 : State} {n : ℕ} {s : State} (hk : Keeps s0 s) :
    Keeps s0 (actSetIncr n s).1 := by
  unfold actSetIncr
  split
  · rename_i q0
    exact hk
  · rename_i q1
    split
    · rename_i q2 q3 q4
      dsimp only
      refine KeepsQ.of q4 ?_
      refine setIncr_keeps ?_
      exact hk
    · rename_i q5 q6
      exact hk

theorem rearmWritten_keeps {s0 : State} {s : State} {n : ℕ} (hk : Keeps s0 s) :
    Keeps s0 (rearmWritten s n) := by
  unfold rearmWritten
  lift_lets
  intro u0
  clear_value u0
  intro u1
  clear_value u1
  intro u2
  clear_value u2
  intro u3
  clear_value u3
  refine setTrig_keeps ?_
  exact hk

theorem actLoad_keeps {s0 : State} {bad : Bool} {ref : Bool} {x : TableLoad} {data : DataRef} {s : State} (hk : Keeps s0 s) :
    Keeps s0 (actLoad bad ref x data s).1 := by
  unfold actLoad
  split
  · rename_i q0
    exact hk
  · rename_i q1
    split
    · rename_i q2
      exact hk
    · rename_i q3
      split
      · rename_i q4
        exact hk
      · rename_i q5
        split
        · rename_i q6
          dsimp only
          refine Keeps.other ?_
          exact hk
        · rename_i q8
          split
          · rename_i q9
            exact hk
          · rename_i q10
            dsimp only
            refine setShadow_keeps ?_
            exact hk

theorem execSetTable_keeps {s0 : State} {t : ℕ} {ch : Fin 6} {tag : ℕ} {table : ℕ} {index : ℕ} {offset : ℕ} {length : ℕ}
    {ref : Bool} {data : DataRef} {s : State} (hk : Keeps s0 s) :
    KeepsO s0 (execSetTable t ch tag table index offset length ref data s) := by
  unfold execSetTable
  refine KeepsO.next ?_
  refine message_keeps ?_ (fun x0 hx1 => ?_)
  · refine begin_keeps ?_
    exact hk
  · refine actLoad_keeps ?_
    exact hx1

theorem execSetCopy_keeps {s0 : State} {t : ℕ} {ch : Fin 6} {tag : ℕ} {s : State} (hk : Keeps s0 s) :
    KeepsO s0 (execSetCopy t ch tag s) := by
  unfold execSetCopy
  refine KeepsO.next ?_
  refine message_keeps ?_ (fun x0 hx1 => ?_)
  · refine begin_keeps ?_
    exact hk
  · refine shadowWrite_keeps ?_
    exact hx1

theorem execSetDefaults_keeps {s0 : State} {t : ℕ} {ch : Fin 6} {tag : ℕ} {s : State} (hk : Keeps s0 s) :
    KeepsO s0 (execSetDefaults t ch tag s) := by
  unfold execSetDefaults
  refine KeepsO.next ?_
  refine message_keeps ?_ (fun x0 hx1 => ?_)
  · refine begin_keeps ?_
    exact hk
  · refine shadowWrite_keeps ?_
    exact hx1

theorem noteCosts_keeps {s0 : State} {s : State} {c : CfgSet} {edges : ℕ → ℕ} {chs : List ℕ} (hk : Keeps s0 s) :
    Keeps s0 (noteCosts s c edges chs) := by
  unfold noteCosts
  refine Keeps.foldl _ ?_ (fun x0 a1 hx2 => ?_)
  · exact hk
  · refine setFld_keeps ?_
    exact hx2

theorem actValidate_keeps {s0 : State} {s : State} (hk : Keeps s0 s) :
    Keeps s0 (actValidate s).1 := by
  unfold actValidate
  split
  · rename_i q0
    exact hk
  · rename_i q1
    lift_lets
    intro u2
    clear_value u2
    intro u3
    clear_value u3
    split
    · rename_i q4 q5 q6
      exact hk
    · rename_i q7 q8 q9
      lift_lets
      intro u10
      clear_value u10
      intro u11
      have h12 : Keeps s0 u11 := by
        unfold u11
        refine noteCosts_keeps ?_
        refine Keeps.other ?_
        exact hk
      clear_value u11
      split
      · rename_i q14 q15 q16
        exact hk
      · rename_i q17 q18
        dsimp only
        refine raise_keeps ?_
        exact h12

theorem execSetValidate_keeps {s0 : State} {t : ℕ} {ch : Fin 6} {tag : ℕ} {s : State} (hk : Keeps s0 s) :
    KeepsO s0 (execSetValidate t ch tag s) := by
  unfold execSetValidate
  refine KeepsO.next ?_
  refine message_keeps ?_ (fun x0 hx1 => ?_)
  · refine begin_keeps ?_
    exact hk
  · refine actValidate_keeps ?_
    exact hx1

theorem actSwap_keeps {s0 : State} {point : ℕ} {line : ℕ} {s : State} (hk : Keeps s0 s) :
    Keeps s0 (actSwap point line s).1 := by
  unfold actSwap
  lift_lets
  intro u0
  clear_value u0
  intro u1
  clear_value u1
  split
  · rename_i q2
    exact hk
  · rename_i q3
    split
    · rename_i q4
      exact hk
    · rename_i q5
      split
      · rename_i q6
        dsimp only
        refine Keeps.other ?_
        exact hk
      · rename_i q8
        split
        · rename_i q9
          exact hk
        · rename_i q10
          dsimp only
          refine Keeps.other ?_
          exact hk

theorem execSetSwap_keeps {s0 : State} {t : ℕ} {ch : Fin 6} {tag : ℕ} {point : ℕ} {line : ℕ} {s : State} (hk : Keeps s0 s) :
    KeepsO s0 (execSetSwap t ch tag point line s) := by
  unfold execSetSwap
  refine KeepsO.next ?_
  refine message_keeps ?_ (fun x0 hx1 => ?_)
  · refine begin_keeps ?_
    exact hk
  · refine actSwap_keeps ?_
    exact hx1

theorem execSetCancel_keeps {s0 : State} {t : ℕ} {ch : Fin 6} {tag : ℕ} {s : State} (hk : Keeps s0 s) :
    KeepsO s0 (execSetCancel t ch tag s) := by
  unfold execSetCancel
  refine KeepsO.next ?_
  refine message_keeps ?_ (fun x0 hx1 => ?_)
  · refine begin_keeps ?_
    exact hk
  · split
    · rename_i q2 q3
      exact hx1
    · rename_i q4 q5 q6
      split
      · rename_i q7
        dsimp only
        refine raise_keeps ?_
        refine Keeps.other ?_
        exact hx1
      · rename_i q9
        exact hx1

theorem execSetStatus_keeps {s0 : State} {t : ℕ} {ch : Fin 6} {tag : ℕ} {s : State} (hk : Keeps s0 s) :
    KeepsO s0 (execSetStatus t ch tag s) := by
  unfold execSetStatus
  refine KeepsO.next ?_
  refine message_keeps ?_ (fun x0 hx1 => ?_)
  · refine begin_keeps ?_
    exact hk
  · exact hx1

theorem originOf_keeps {s0 : State} {s : State} {mode : ℕ} (hk : Keeps s0 s) :
    Keeps s0 (originOf s mode) := by
  unfold originOf
  split
  · rename_i q0
    refine placePosition_keeps ?_
    exact hk
  · rename_i q1
    refine Keeps.other ?_
    exact hk
  · rename_i q3 q4 q5
    exact hk

theorem beginJob_keeps {s0 : State} {s : State} {p : JobParams} (hk : Keeps s0 s) :
    Keeps s0 (beginJob s p) := by
  unfold beginJob
  lift_lets
  intro u0
  have h1 : Keeps s0 u0 := by
    unfold u0
    refine noteCosts_keeps ?_
    exact hk
  clear_value u0
  intro u2
  clear_value u2
  intro u3
  have h4 : Keeps s0 u3 := by
    unfold u3
    refine Keeps.other ?_
    exact h1
  clear_value u3
  intro u6
  have h7 : Keeps s0 u6 := by
    unfold u6
    refine Keeps.foldl _ ?_ (fun x8 a9 hx10 => ?_)
    · exact h4
    · refine startChan_keeps ?_
      exact hx10
  clear_value u6
  intro u11
  clear_value u11
  intro u12
  clear_value u12
  intro u13
  have h14 : Keeps s0 u13 := by
    unfold u13
    refine Keeps.other ?_
    exact h7
  clear_value u13
  intro u16
  have h17 : Keeps s0 u16 := by
    unfold u16
    refine raise_keeps ?_
    refine setState_keeps ?_
    exact h14
  clear_value u16
  refine checkEncoder_keeps ?_
  refine Keeps.foldl _ ?_ (fun x18 a19 hx20 => ?_)
  · refine originOf_keeps ?_
    exact h17
  · refine fillBuffers_keeps ?_
    exact hx20

theorem execJobStart_keeps {s0 : State} {t : ℕ} {ch : Fin 6} {tag : ℕ} {p : JobParams} {s : State} (hk : Keeps s0 s) :
    KeepsO s0 (execJobStart t ch tag p s) := by
  unfold execJobStart
  refine KeepsO.next ?_
  refine message_keeps ?_ (fun x0 hx1 => ?_)
  · refine flushUpdate_keeps ?_
    refine begin_keeps ?_
    exact hk
  · split
    · rename_i q2 q3 q4
      exact hx1
    · rename_i q5 q6
      lift_lets
      intro u7
      have h8 : Keeps s0 u7 := by
        unfold u7
        refine beginJob_keeps ?_
        exact hx1
      clear_value u7
      exact h8

theorem execJobPause_keeps {s0 : State} {t : ℕ} {ch : Fin 6} {tag : ℕ} {kind : ℕ} {line : ℕ} {s : State} (hk : Keeps s0 s) :
    KeepsO s0 (execJobPause t ch tag kind line s) := by
  unfold execJobPause
  refine KeepsO.next ?_
  refine message_keeps ?_ (fun x0 hx1 => ?_)
  · refine flushUpdate_keeps ?_
    refine begin_keeps ?_
    exact hk
  · split
    · rename_i q2
      exact hx1
    · rename_i q3
      split
      · rename_i q4
        exact hx1
      · rename_i q5
        split
        · rename_i q6
          exact hx1
        · rename_i q7
          lift_lets
          intro u8
          clear_value u8
          intro u9
          clear_value u9
          dsimp only
          refine checkJob_keeps ?_
          refine Keeps.other ?_
          exact hx1

theorem execJobResume_keeps {s0 : State} {t : ℕ} {ch : Fin 6} {tag : ℕ} {gap : ℕ} {s : State} (hk : Keeps s0 s) :
    KeepsO s0 (execJobResume t ch tag gap s) := by
  unfold execJobResume
  refine KeepsO.next ?_
  refine message_keeps ?_ (fun x0 hx1 => ?_)
  · refine flushUpdate_keeps ?_
    refine begin_keeps ?_
    exact hk
  · lift_lets
    intro u2
    clear_value u2
    intro u3
    have h4 : Keeps s0 u3 := by
      unfold u3
      refine Keeps.ite ?_ ?_
      · exact hx1
      · refine restartFrames_keeps ?_
        refine shiftPosition_keeps ?_
        exact hx1
    clear_value u3
    intro u5
    clear_value u5
    intro u6
    have h7 : Keeps s0 u6 := by
      unfold u6
      refine Keeps.other ?_
      exact h4
    clear_value u6
    intro u9
    have h10 : Keeps s0 u9 := by
      unfold u9
      refine raise_keeps ?_
      refine setState_keeps ?_
      exact h7
    clear_value u9
    split
    · rename_i q11
      exact hx1
    · rename_i q12
      split
      · rename_i q13
        exact hx1
      · rename_i q14
        dsimp only
        refine checkEncoder_keeps ?_
        refine Keeps.foldl _ ?_ (fun x15 a16 hx17 => ?_)
        · exact h10
        · refine fillBuffers_keeps ?_
          exact hx17

theorem execJobStop_keeps {s0 : State} {t : ℕ} {ch : Fin 6} {tag : ℕ} {kind : ℕ} {line : ℕ} {s : State} (hk : Keeps s0 s) :
    KeepsO s0 (execJobStop t ch tag kind line s) := by
  unfold execJobStop
  refine KeepsO.next ?_
  refine message_keeps ?_ (fun x0 hx1 => ?_)
  · refine flushUpdate_keeps ?_
    refine begin_keeps ?_
    exact hk
  · lift_lets
    intro u2
    clear_value u2
    intro u3
    clear_value u3
    intro u4
    clear_value u4
    split
    · rename_i q5
      exact hx1
    · rename_i q6
      split
      · rename_i q7
        exact hx1
      · rename_i q8
        split
        · rename_i q9
          exact hx1
        · rename_i q10
          split
          · rename_i q11
            dsimp only
            refine checkJob_keeps ?_
            refine Keeps.other ?_
            exact hx1
          · rename_i q13
            dsimp only
            refine toReady_keeps ?_
            refine endJob_keeps ?_
            refine Keeps.other ?_
            exact hx1

theorem execJobStatus_keeps {s0 : State} {t : ℕ} {ch : Fin 6} {tag : ℕ} {s : State} (hk : Keeps s0 s) :
    KeepsO s0 (execJobStatus t ch tag s) := by
  unfold execJobStatus
  refine KeepsO.next ?_
  refine message_keeps ?_ (fun x0 hx1 => ?_)
  · refine flushUpdate_keeps ?_
    refine begin_keeps ?_
    exact hk
  · exact hx1

theorem execHeadType_keeps {s0 : State} {t : ℕ} {ch : Fin 6} {tag : ℕ} {id : ℕ} {rec : HeadType} {s : State} (hk : Keeps s0 s) :
    KeepsO s0 (execHeadType t ch tag id rec s) := by
  unfold execHeadType
  refine KeepsO.next ?_
  refine message_keeps ?_ (fun x0 hx1 => ?_)
  · refine begin_keeps ?_
    exact hk
  · refine shadowWrite_keeps ?_
    exact hx1

theorem execHeadPlace_keeps {s0 : State} {t : ℕ} {ch : Fin 6} {tag : ℕ} {rec : PlaceMsg} {s : State} (hk : Keeps s0 s) :
    KeepsO s0 (execHeadPlace t ch tag rec s) := by
  unfold execHeadPlace
  refine KeepsO.next ?_
  refine message_keeps ?_ (fun x0 hx1 => ?_)
  · refine begin_keeps ?_
    exact hk
  · refine shadowWrite_keeps ?_
    exact hx1

theorem execHeadEnergyTable_keeps {s0 : State} {t : ℕ} {ch : Fin 6} {tag : ℕ} {type : ℕ} {entries : List ℕ} {s : State}
    (hk : Keeps s0 s) :
    KeepsO s0 (execHeadEnergyTable t ch tag type entries s) := by
  unfold execHeadEnergyTable
  lift_lets
  intro u0
  clear_value u0
  refine KeepsO.next ?_
  refine message_keeps ?_ (fun x1 hx2 => ?_)
  · refine begin_keeps ?_
    exact hk
  · refine shadowWrite_keeps ?_
    exact hx2

theorem execHeadSupply_keeps {s0 : State} {t : ℕ} {ch : Fin 6} {tag : ℕ} {channel : ℕ} {en : ℕ} {hub : ℕ} {slot : ℕ} {s : State}
    (hk : Keeps s0 s) :
    KeepsO s0 (execHeadSupply t ch tag channel en hub slot s) := by
  unfold execHeadSupply
  lift_lets
  intro u0
  clear_value u0
  refine KeepsO.next ?_
  refine message_keeps ?_ (fun x1 hx2 => ?_)
  · refine begin_keeps ?_
    exact hk
  · refine shadowWrite_keeps ?_
    exact hx2

theorem execHeadNozzleState_keeps {s0 : State} {t : ℕ} {ch : Fin 6} {tag : ℕ} {head : ℕ} {row : ℕ} {action : ℕ} {first : ℕ}
    {count : ℕ} {s : State} (hk : Keeps s0 s) :
    KeepsO s0 (execHeadNozzleState t ch tag head row action first count s) := by
  unfold execHeadNozzleState
  refine KeepsO.next ?_
  refine message_keeps ?_ (fun x0 hx1 => ?_)
  · refine begin_keeps ?_
    exact hk
  · split
    · rename_i q2
      exact hx1
    · rename_i q3
      dsimp only
      refine Keeps.foldl _ ?_ (fun x4 a5 hx6 => ?_)
      · exact hx1
      · refine queueNozzle_keeps ?_
        exact hx6

theorem execClpCoefSet_keeps {s0 : State} {t : ℕ} {ch : Fin 6} {tag : ℕ} {channel : ℕ} {first : ℕ} {count : ℕ} {ref : Bool}
    {data : DataRef} {s : State} (hk : Keeps s0 s) :
    KeepsO s0 (execClpCoefSet t ch tag channel first count ref data s) := by
  unfold execClpCoefSet
  lift_lets
  intro u0
  clear_value u0
  refine KeepsO.next ?_
  refine message_keeps ?_ (fun x1 hx2 => ?_)
  · refine begin_keeps ?_
    exact hk
  · refine actLoad_keeps ?_
    exact hx2

theorem execTimSetIncr_keeps {s0 : State} {t : ℕ} {ch : Fin 6} {tag : ℕ} {incr : ℕ} {s : State} (hk : Keeps s0 s) :
    KeepsO s0 (execTimSetIncr t ch tag incr s) := by
  unfold execTimSetIncr
  refine KeepsO.next ?_
  refine message_keeps ?_ (fun x0 hx1 => ?_)
  · refine begin_keeps ?_
    exact hk
  · refine actSetIncr_keeps ?_
    exact hx1

theorem execTimSlew_keeps {s0 : State} {t : ℕ} {ch : Fin 6} {tag : ℕ} {d : ℤ} {s : State} (hk : Keeps s0 s) :
    KeepsO s0 (execTimSlew t ch tag d s) := by
  unfold execTimSlew
  refine KeepsO.next ?_
  refine message_keeps ?_ (fun x0 hx1 => ?_)
  · refine begin_keeps ?_
    exact hk
  · split
    · rename_i q2
      exact hx1
    · rename_i q3
      split
      · rename_i q4
        exact hx1
      · rename_i q5
        dsimp only
        refine startSlew_keeps ?_
        exact hx1

theorem execTimStep_keeps {s0 : State} {t : ℕ} {ch : Fin 6} {tag : ℕ} {d : ℤ} {s : State} (hk : Keeps s0 s) :
    KeepsO s0 (execTimStep t ch tag d s) := by
  unfold execTimStep
  refine KeepsO.next ?_
  refine message_keeps ?_ (fun x0 hx1 => ?_)
  · refine begin_keeps ?_
    exact hk
  · split
    · rename_i q2
      exact hx1
    · rename_i q3
      dsimp only
      refine acceptStep_keeps ?_
      exact hx1

theorem execTimPpsSecond_keeps {s0 : State} {t : ℕ} {ch : Fin 6} {tag : ℕ} {second : ℕ} {s : State} (hk : Keeps s0 s) :
    KeepsO s0 (execTimPpsSecond t ch tag second s) := by
  unfold execTimPpsSecond
  refine KeepsO.next ?_
  refine message_keeps ?_ (fun x0 hx1 => ?_)
  · refine begin_keeps ?_
    exact hk
  · dsimp only
    refine Keeps.other ?_
    exact hx1

theorem writeTrig_keeps {s0 : State} {s : State} {n : ℕ} {ctrl : ℕ} {time : ℕ} {period : ℕ} {count : ℕ} (hk : Keeps s0 s) :
    Keeps s0 (writeTrig s n ctrl time period count) := by
  unfold writeTrig
  lift_lets
  intro u0
  clear_value u0
  intro u1
  intro u2
  refine Keeps.live ?_ (fun hb3 => ?_)
  · exact hk
  · unfold u2
    refine bankWf_bankSet ?_ _ _ _ _
    refine bankWf_bankSet ?_ _ _ _ _
    refine bankWf_bankSet ?_ _ _ _ _
    unfold u1
    refine bankWf_bankWrite ?_ _ _
    assumption

theorem armTrig_keeps {s0 : State} {s : State} {n : ℕ} {late : Bool} (hk : Keeps s0 s) :
    Keeps s0 (armTrig s n late) := by
  unfold armTrig
  lift_lets
  intro u0
  clear_value u0
  refine setTrig_keeps ?_
  exact hk

theorem actTrigSet_keeps {s0 : State} {n : ℕ} {ctrl : ℕ} {time : ℕ} {period : ℕ} {count : ℕ} {s : State} (hk : Keeps s0 s) :
    Keeps s0 (actTrigSet n ctrl time period count s).1 := by
  unfold actTrigSet
  split
  · rename_i q0
    exact hk
  · rename_i q1
    split
    · rename_i q2
      exact hk
    · rename_i q3
      lift_lets
      intro u4
      have h5 : Keeps s0 u4 := by
        unfold u4
        refine writeTrig_keeps ?_
        exact hk
      clear_value u4
      intro u6
      clear_value u6
      intro u7
      clear_value u7
      intro u8
      have h9 : Keeps s0 u8 := by
        unfold u8
        refine setTrig_keeps ?_
        refine armTrig_keeps ?_
        exact h5
      clear_value u8
      split
      · rename_i q10
        exact hk
      · rename_i q11
        split
        · rename_i q12
          dsimp only
          refine raise_keeps ?_
          refine sticky_keeps ?_
          exact h9
        · rename_i q13
          exact h9

theorem execTimTrigSet_keeps {s0 : State} {t : ℕ} {ch : Fin 6} {tag : ℕ} {trig : ℕ} {ctrl : ℕ} {time : ℕ} {period : ℕ} {count : ℕ}
    {s : State} (hk : Keeps s0 s) :
    KeepsO s0 (execTimTrigSet t ch tag trig ctrl time period count s) := by
  unfold execTimTrigSet
  refine KeepsO.next ?_
  refine message_keeps ?_ (fun x0 hx1 => ?_)
  · refine begin_keeps ?_
    exact hk
  · refine actTrigSet_keeps ?_
    exact hx1

theorem execTimTrigCancel_keeps {s0 : State} {t : ℕ} {ch : Fin 6} {tag : ℕ} {trig : ℕ} {s : State} (hk : Keeps s0 s) :
    KeepsO s0 (execTimTrigCancel t ch tag trig s) := by
  unfold execTimTrigCancel
  refine KeepsO.next ?_
  refine message_keeps ?_ (fun x0 hx1 => ?_)
  · refine begin_keeps ?_
    exact hk
  · split
    · rename_i q2
      exact hx1
    · rename_i q3
      split
      · rename_i q4
        exact hx1
      · rename_i q5
        split
        · rename_i q6
          exact hx1
        · rename_i q7
          dsimp only
          refine setTrig_keeps ?_
          exact hx1

end Sys2Proof.Laws
end

