-- ==== Sys2Proof/Laws/KeepsPair.lean ====
section
/-!
SUPPORT. Every operation and command of the host interfaces and the pair (chapters 10, 11) keeps the queue and the canonical
banks, one lemma each.
-/
namespace Sys2Proof.Laws

open Sys2Proof.Machine

theorem pushRing_keeps {s0 : State} {s : State} {e : Event} (hk : Keeps s0 s) :
    Keeps s0 (pushRing s e) := by
  unfold pushRing
  refine Keeps.other ?_
  exact hk

theorem ringEvent_keeps {s0 : State} {s : State} {e : Event} (hk : Keeps s0 s) :
    Keeps s0 (ringEvent s e) := by
  unfold ringEvent
  refine Keeps.ite ?_ ?_
  · exact hk
  · refine Keeps.ite ?_ ?_
    · lift_lets
      intro u0
      have h1 : Keeps s0 u0 := by
        unfold u0
        refine bump_keeps ?_
        exact hk
      clear_value u0
      intro u2
      clear_value u2
      refine Keeps.other ?_
      exact h1
    · refine pushRing_keeps ?_
      exact hk

theorem logEvent_keeps {s0 : State} {s : State} {e : Event} (hk : Keeps s0 s) :
    Keeps s0 (logEvent s e) := by
  unfold logEvent
  refine Keeps.other ?_
  exact hk

theorem writeEvent_keeps {s0 : State} {s : State} {e : Event} (hk : Keeps s0 s) :
    Keeps s0 (writeEvent s e) := by
  unfold writeEvent
  refine ringEvent_keeps ?_
  refine logEvent_keeps ?_
  exact hk

theorem flushEvents_keeps {s0 : State} {s : State} (hk : Keeps s0 s) :
    Keeps s0 (flushEvents s) := by
  unfold flushEvents
  lift_lets
  intro u0
  clear_value u0
  intro u1
  clear_value u1
  intro u2
  clear_value u2
  intro u3
  clear_value u3
  intro u4
  have h5 : Keeps s0 u4 := by
    unfold u4
    refine Keeps.ite ?_ ?_
    · refine writeEvent_keeps ?_
      refine Keeps.other ?_
      exact hk
    · exact hk
  clear_value u4
  intro u7
  have h8 : Keeps s0 u7 := by
    unfold u7
    refine Keeps.foldl _ ?_ (fun x9 a10 hx11 => ?_)
    · refine Keeps.foldl _ ?_ (fun x12 a13 hx14 => ?_)
      · exact h5
      · refine ringEvent_keeps ?_
        exact hx14
    · refine writeEvent_keeps ?_
      exact hx11
  clear_value u7
  intro u15
  clear_value u15
  intro u16
  have h17 : Keeps s0 u16 := by
    unfold u16
    refine Keeps.other ?_
    exact h8
  clear_value u16
  intro u19
  have h20 : Keeps s0 u19 := by
    unfold u19
    refine doorbell_keeps ?_
    exact h17
  clear_value u19
  refine Keeps.ite ?_ ?_
  · exact h17
  · refine Keeps.ite ?_ ?_
    · refine sendNotify_keeps ?_
      exact h20
    · exact h20

theorem toStandby_keeps {s0 : State} {s : State} (hk : Keeps s0 s) :
    Keeps s0 (toStandby s) := by
  unfold toStandby
  lift_lets
  intro u0
  clear_value u0
  intro u1
  have h2 : Keeps s0 u1 := by
    unfold u1
    refine Keeps.other ?_
    exact hk
  clear_value u1
  intro u4
  have h5 : Keeps s0 u4 := by
    unfold u4
    refine doorbell_keeps ?_
    exact h2
  clear_value u4
  refine changeSource_keeps ?_
  exact h5

theorem loseLease_keeps {s0 : State} {s : State} {cause : ℕ} (hk : Keeps s0 s) :
    Keeps s0 (loseLease s cause) := by
  unfold loseLease
  refine Keeps.ite ?_ ?_
  · exact hk
  · lift_lets
    intro u0
    have h1 : Keeps s0 u0 := by
      unfold u0
      refine Keeps.foldl _ ?_ (fun x2 a3 hx4 => ?_)
      · exact hk
      · refine Keeps.ite ?_ ?_
        · refine emit_keeps ?_
          exact hx4
        · exact hx4
    clear_value u0
    intro u5
    clear_value u5
    intro u6
    have h7 : Keeps s0 u6 := by
      unfold u6
      refine emit_keeps ?_
      refine Keeps.other ?_
      exact h1
    clear_value u6
    refine doorbell_keeps ?_
    refine raise_keeps ?_
    exact h7

theorem sendRecord_keeps {s0 : State} {s : State} {release : Option ℕ} {flush : Bool} (hk : Keeps s0 s) :
    Keeps s0 (sendRecord s release flush) := by
  unfold sendRecord
  lift_lets
  intro u0
  clear_value u0
  intro u1
  clear_value u1
  intro u2
  clear_value u2
  intro u3
  have h4 : Keeps s0 u3 := by
    unfold u3
    refine Keeps.other ?_
    exact hk
  clear_value u3
  intro u6
  clear_value u6
  refine countKeyed_keeps ?_
  refine toPeer_keeps ?_
  refine Keeps.other ?_
  exact h4

theorem releaseLease_keeps {s0 : State} {s : State} {code : ℕ} (hk : Keeps s0 s) :
    Keeps s0 (releaseLease s code) := by
  unfold releaseLease
  refine Keeps.ite ?_ ?_
  · exact hk
  · lift_lets
    intro u0
    clear_value u0
    intro u1
    have h2 : Keeps s0 u1 := by
      unfold u1
      refine loseLease_keeps ?_
      refine sticky_keeps ?_
      refine Keeps.other ?_
      exact hk
    clear_value u1
    refine sendRecord_keeps ?_
    exact h2

theorem handOverNow_keeps {s0 : State} {s : State} {h : ℕ} (hk : Keeps s0 s) :
    Keeps s0 (handOverNow s h) := by
  unfold handOverNow
  refine toStandby_keeps ?_
  refine releaseLease_keeps ?_
  refine raise_keeps ?_
  exact hk

theorem releaseHeld_keeps {s0 : State} {s : State} {single : Bool} {upTo : ℕ} (hk : Keeps s0 s) :
    Keeps s0 (releaseHeld s single upTo) := by
  unfold releaseHeld
  refine Keeps.foldl _ ?_ (fun x0 a1 hx2 => ?_)
  · exact hk
  · refine pump_keeps ?_
    refine setMbx_keeps ?_
    exact hx2

theorem lookAt_keeps {s0 : State} {s : State} {k : ℕ} (hk : Keeps s0 s) :
    Keeps s0 (lookAt s k) := by
  unfold lookAt
  lift_lets
  intro u0
  clear_value u0
  intro u1
  clear_value u1
  intro u2
  clear_value u2
  intro u3
  clear_value u3
  intro u4
  clear_value u4
  intro u5
  clear_value u5
  intro u6
  clear_value u6
  intro u7
  clear_value u7
  intro u8
  clear_value u8
  intro u9
  have h10 : Keeps s0 u9 := by
    unfold u9
    refine refuseTaken_keeps ?_
    refine takePending_keeps ?_
    exact hk
  clear_value u9
  refine Keeps.ite ?_ ?_
  · exact hk
  · refine Keeps.ite ?_ ?_
    · refine endSecure_keeps ?_
      exact hk
    · refine Keeps.ite ?_ ?_
      · refine busyReject_keeps ?_
        refine setMbx_keeps ?_
        exact hk
      · refine Keeps.ite ?_ ?_
        · refine refuseTaken_keeps ?_
          refine takePending_keeps ?_
          exact hk
        · refine Keeps.ite ?_ ?_
          · refine refuseTaken_keeps ?_
            refine takePending_keeps ?_
            exact hk
          · refine Keeps.ite ?_ ?_
            · exact hk
            · refine Keeps.ite ?_ ?_
              · refine endSecure_keeps ?_
                refine raise_keeps ?_
                refine sticky_keeps ?_
                exact h10
              · exact h10

theorem supersede_keeps {s0 : State} {s : State} {epoch : ℕ} (hk : Keeps s0 s) :
    Keeps s0 (supersede s epoch) := by
  unfold supersede
  refine Keeps.ite ?_ ?_
  · refine raise_keeps ?_
    refine toStandby_keeps ?_
    refine sticky_keeps ?_
    refine loseLease_keeps ?_
    exact hk
  · refine toStandby_keeps ?_
    exact hk

theorem reportGap_keeps {s0 : State} {s : State} {c : ℕ} {lr : ℤ} (hk : Keeps s0 s) :
    Keeps s0 (reportGap s c lr) := by
  unfold reportGap
  lift_lets
  intro u0
  clear_value u0
  intro u1
  clear_value u1
  intro u2
  have h3 : Keeps s0 u2 := by
    unfold u2
    refine setFld_keeps ?_
    exact hk
  clear_value u2
  intro u4
  have h5 : Keeps s0 u4 := by
    unfold u4
    refine setFld_keeps ?_
    exact h3
  clear_value u4
  refine Keeps.ite ?_ ?_
  · refine raise_keeps ?_
    refine raise_keeps ?_
    exact h5
  · exact h5

theorem reportGaps_keeps {s0 : State} {s : State} (hk : Keeps s0 s) :
    Keeps s0 (reportGaps s) := by
  unfold reportGaps
  lift_lets
  intro u0
  clear_value u0
  intro u1
  clear_value u1
  intro u2
  have h3 : Keeps s0 u2 := by
    unfold u2
    refine Keeps.other ?_
    exact hk
  clear_value u2
  refine Keeps.foldl _ ?_ (fun x5 a6 hx7 => ?_)
  · exact h3
  · refine reportGap_keeps ?_
    exact hx7

theorem gapAck_keeps {s0 : State} {s : State} {u : ℕ} {ack : HubAck} (hk : Keeps s0 s) :
    Keeps s0 (gapAck s u ack) := by
  unfold gapAck
  refine Keeps.ite ?_ ?_
  · exact hk
  · refine reportGaps_keeps ?_
    refine Keeps.other ?_
    exact hk

theorem takeAck_keeps {s0 : State} {s : State} {u : ℕ} {ack : HubAck} (hk : Keeps s0 s) :
    Keeps s0 (takeAck s u ack) := by
  unfold takeAck
  refine Keeps.ite ?_ ?_
  · split
    · rename_i q0 q1 q2
      refine Keeps.ite ?_ ?_
      · refine checkJob_keeps ?_
        refine readAck_keeps ?_
        exact hk
      · refine Keeps.other ?_
        exact hk
    · rename_i q4 q5
      refine Keeps.other ?_
      exact hk
  · refine gapAck_keeps ?_
    refine checkJob_keeps ?_
    refine readAck_keeps ?_
    exact hk

theorem execHubAckReceive_keeps {s0 : State} {t : ℕ} {hub : Fin 24} {ack : HubAck} {s : State} (hk : Keeps s0 s) :
    KeepsO s0 (execHubAckReceive t hub ack s) := by
  unfold execHubAckReceive
  lift_lets
  intro u0
  have h1 : Keeps s0 u0 := by
    unfold u0
    refine flushUpdate_keeps ?_
    refine begin_keeps ?_
    exact hk
  clear_value u0
  intro u2
  have h3 : Keeps s0 u2 := by
    unfold u2
    refine hubReport_keeps ?_
    exact h1
  clear_value u2
  intro u4
  clear_value u4
  intro u5
  have h6 : Keeps s0 u5 := by
    unfold u5
    refine Keeps.ite ?_ ?_
    · refine supersede_keeps ?_
      refine Keeps.other ?_
      exact h3
    · exact h3
  clear_value u5
  refine KeepsO.next ?_
  refine Keeps.ite ?_ ?_
  · refine discardPacket_keeps ?_
    exact h1
  · refine Keeps.ite ?_ ?_
    · exact h1
    · refine takeAck_keeps ?_
      exact h6

theorem peerSeen_keeps {s0 : State} {s : State} (hk : Keeps s0 s) :
    Keeps s0 (peerSeen s) := by
  unfold peerSeen
  lift_lets
  intro u0
  clear_value u0
  intro u1
  clear_value u1
  intro u2
  have h3 : Keeps s0 u2 := by
    unfold u2
    refine Keeps.other ?_
    exact hk
  clear_value u2
  refine Keeps.ite ?_ ?_
  · refine raise_keeps ?_
    exact h3
  · exact h3

theorem applyPart_keeps {s0 : State} {α : Type} {s : State} {n : ℕ} {pick : ℕ} {x : Option α} {f : State → α → State}
    (hk : Keeps s0 s) (h_f : ∀ x a1, Keeps s0 x → Keeps s0 (f x a1)) :
    Keeps s0 (applyPart s n pick x f) := by
  unfold applyPart
  split
  · rename_i q0
    exact hk
  · rename_i q1 q2
    refine Keeps.ite ?_ ?_
    · refine h_f _ _ ?_
      refine Keeps.other ?_
      exact hk
    · exact hk

theorem applyCamera_keeps {s0 : State} {s : State} {h : HostPart} {k : ℕ} (hk : Keeps s0 s) :
    Keeps s0 (applyCamera s h k) := by
  unfold applyCamera
  lift_lets
  intro u0
  clear_value u0
  intro u1
  clear_value u1
  intro u2
  clear_value u2
  refine setCam_keeps ?_
  exact hk

theorem applyJob_keeps {s0 : State} {s : State} {j : Job} {st : SysSt} {next : List ℤ} (hk : Keeps s0 s) :
    Keeps s0 (applyJob s j st next) := by
  unfold applyJob
  lift_lets
  intro u0
  clear_value u0
  intro u1
  clear_value u1
  intro u2
  have h3 : Keeps s0 u2 := by
    unfold u2
    refine stopFetch_keeps ?_
    exact hk
  clear_value u2
  intro u4
  clear_value u4
  intro u5
  have h6 : Keeps s0 u5 := by
    unfold u5
    refine Keeps.other ?_
    exact h3
  clear_value u5
  intro u8
  have h9 : Keeps s0 u8 := by
    unfold u8
    refine Keeps.ite ?_ ?_
    · refine Keeps.foldl _ ?_ (fun x10 a11 hx12 => ?_)
      · exact h6
      · refine startChan_keeps ?_
        exact hx12
    · refine Keeps.other ?_
      exact hk
  clear_value u8
  intro u14
  clear_value u14
  intro u15
  have h16 : Keeps s0 u15 := by
    unfold u15
    refine Keeps.ite ?_ ?_
    · exact h9
    · refine doorbell_keeps ?_
      refine Keeps.other ?_
      exact h9
  clear_value u15
  refine Keeps.ite ?_ ?_
  · refine Keeps.ite ?_ ?_
    · refine Keeps.foldl _ ?_ (fun x18 a19 hx20 => ?_)
      · exact h16
      · refine fillBuffers_keeps ?_
        exact hx20
    · exact h16
  · refine Keeps.ite ?_ ?_
    · refine stopFetch_keeps ?_
      exact h16
    · exact h16

theorem applySets_keeps {s0 : State} {s : State} {r : SetsSt} (hk : Keeps s0 s) :
    Keeps s0 (applySets s r) := by
  unfold applySets
  lift_lets
  intro u0
  clear_value u0
  intro u1
  clear_value u1
  intro u2
  have h3 : Keeps s0 u2 := by
    unfold u2
    refine Keeps.ite ?_ ?_
    · refine Keeps.ite ?_ ?_
      · refine Keeps.other ?_
        exact hk
      · refine changeAll_keeps ?_
        exact hk
    · exact hk
  clear_value u2
  intro u5
  clear_value u5
  intro u6
  have h7 : Keeps s0 u6 := by
    unfold u6
    refine Keeps.ite ?_ ?_
    · refine changeAll_keeps ?_
      refine Keeps.other ?_
      exact h3
    · exact h3
  clear_value u6
  intro u9
  clear_value u9
  intro u10
  clear_value u10
  refine Keeps.other ?_
  exact h7

theorem applyHost_keeps {s0 : State} {s : State} {h : HostPart} {next : List ℤ} (hk : Keeps s0 s) :
    Keeps s0 (applyHost s h next) := by
  unfold applyHost
  lift_lets
  intro u0
  have h1 : Keeps s0 u0 := by
    unfold u0
    refine applyCamera_keeps ?_
    refine applyCamera_keeps ?_
    exact hk
  clear_value u0
  intro u2
  clear_value u2
  intro u3
  clear_value u3
  intro u4
  have h5 : Keeps s0 u4 := by
    unfold u4
    refine Keeps.other ?_
    exact h1
  clear_value u4
  intro u7
  clear_value u7
  intro u8
  clear_value u8
  intro u9
  have h10 : Keeps s0 u9 := by
    unfold u9
    refine Keeps.live ?_ (fun hb11 => ?_)
    · exact h5
    · refine bankWf_bankTake ?_ _ _
      assumption
  clear_value u9
  intro u12
  have h13 : Keeps s0 u12 := by
    unfold u12
    refine adoptCamera_keeps ?_
    refine adoptCamera_keeps ?_
    exact h10
  clear_value u12
  intro u14
  clear_value u14
  intro u15
  clear_value u15
  intro u16
  have h17 : Keeps s0 u16 := by
    unfold u16
    refine Keeps.other ?_
    exact h13
  clear_value u16
  intro u19
  clear_value u19
  intro u20
  clear_value u20
  refine applyJob_keeps ?_
  refine applySets_keeps ?_
  refine Keeps.other ?_
  exact h17

theorem applyPosition_keeps {s0 : State} {s : State} {p : Machine.PosPart} {compare : Bool} (hk : Keeps s0 s) :
    Keeps s0 (applyPosition s p compare) := by
  unfold applyPosition
  refine Keeps.ite ?_ ?_
  · lift_lets
    intro u0
    clear_value u0
    intro u1
    have h2 : Keeps s0 u1 := by
      unfold u1
      refine Keeps.other ?_
      exact hk
    clear_value u1
    intro u4
    have h5 : Keeps s0 u4 := by
      unfold u4
      refine shiftPosition_keeps ?_
      exact h2
    clear_value u4
    intro u6
    clear_value u6
    intro u7
    clear_value u7
    intro u8
    clear_value u8
    intro u9
    clear_value u9
    intro u10
    clear_value u10
    intro u11
    have h12 : Keeps s0 u11 := by
      unfold u11
      refine Keeps.other ?_
      exact h5
    clear_value u11
    refine restartFrames_keeps ?_
    exact h12
  · refine Keeps.ite ?_ ?_
    · refine mismatch_keeps ?_
      exact hk
    · exact hk

theorem applyCounters_keeps {s0 : State} {s : State} {x : Bank × List (ℕ × ℕ)} (hk : Keeps s0 s) :
    Keeps s0 (applyCounters s x) := by
  unfold applyCounters
  lift_lets
  intro u0
  clear_value u0
  intro u1
  clear_value u1
  intro u2
  clear_value u2
  intro u3
  clear_value u3
  intro u4
  have h5 : Keeps s0 u4 := by
    unfold u4
    refine Keeps.live ?_ (fun hb6 => ?_)
    · exact hk
    · refine bankWf_bankTake ?_ _ _
      assumption
  clear_value u4
  refine checkJob_keeps ?_
  refine Keeps.foldl _ ?_ (fun x7 a8 hx9 => ?_)
  · exact h5
  · refine readAck_keeps ?_
    exact hx9

theorem takeChanges_keeps {s0 : State} {s : State} {bs : List CorrBlock} {ns : List NozzleChange} {ps : List PathChange}
    (hk : Keeps s0 s) :
    Keeps s0 (takeChanges s bs ns ps) := by
  unfold takeChanges
  lift_lets
  intro u0
  have h1 : Keeps s0 u0 := by
    unfold u0
    refine Keeps.foldl _ ?_ (fun x2 a3 hx4 => ?_)
    · exact hk
    · refine takeBlock_keeps ?_
      exact hx4
  clear_value u0
  intro u5
  clear_value u5
  refine pickNozzles_keeps ?_
  refine Keeps.other ?_
  exact h1

theorem applySticky_keeps {s0 : State} {s : State} {set : List (ℕ × ℕ)} {clear : List (ℕ × ℕ)} (hk : Keeps s0 s) :
    Keeps s0 (applySticky s set clear) := by
  unfold applySticky
  lift_lets
  intro u0
  clear_value u0
  intro u1
  intro u2
  intro u3
  have h4 : Keeps s0 u3 := by
    unfold u3
    refine Keeps.foldl _ ?_ (fun x5 a6 hx7 => ?_)
    · refine Keeps.live ?_ (fun hb8 => ?_)
      · exact hk
      · unfold u2
        refine bankWf_foldl (fun b9 a10 hb11 => ?_) _ ?_
        · refine bankWf_bankWrite ?_ _ _
          assumption
        · unfold u1
          refine bankWf_foldl (fun b12 a13 hb14 => ?_) _ ?_
          · refine bankWf_bankWrite ?_ _ _
            assumption
          · assumption
    · refine noteSet_keeps ?_
      exact hx7
  clear_value u3
  intro u15
  clear_value u15
  intro u16
  clear_value u16
  refine Keeps.ite ?_ ?_
  · refine doorbell_keeps ?_
    exact h4
  · exact h4

theorem applyMotion_keeps {s0 : State} {s : State} {m : MotSt} (hk : Keeps s0 s) :
    Keeps s0 (applyMotion s m) := by
  unfold applyMotion
  lift_lets
  intro u0
  clear_value u0
  refine Keeps.other ?_
  exact hk

theorem applyParts_keeps {s0 : State} {s : State} {r : PickRecord} (hk : Keeps s0 s) :
    Keeps s0 (applyParts s r) := by
  unfold applyParts
  lift_lets
  intro u0
  clear_value u0
  intro u1
  clear_value u1
  intro u2
  have h3 : Keeps s0 u2 := by
    unfold u2
    refine applyPart_keeps ?_ (fun x4 a5 hx6 => ?_)
    · exact hk
    · refine applyHost_keeps ?_
      exact hx6
  clear_value u2
  intro u7
  have h8 : Keeps s0 u7 := by
    unfold u7
    refine applyPart_keeps ?_ (fun x9 a10 hx11 => ?_)
    · exact h3
    · refine applyPosition_keeps ?_
      refine Keeps.other ?_
      exact hx11
  clear_value u7
  intro u13
  have h14 : Keeps s0 u13 := by
    unfold u13
    refine applyPart_keeps ?_ (fun x15 a16 hx17 => ?_)
    · exact h8
    · refine applyCounters_keeps ?_
      exact hx17
  clear_value u13
  intro u18
  have h19 : Keeps s0 u18 := by
    unfold u18
    refine applyPart_keeps ?_ (fun x20 a21 hx22 => ?_)
    · exact h14
    · refine Keeps.live ?_ (fun hb23 => ?_)
      · exact hx22
      · refine bankWf_bankTake ?_ _ _
        assumption
  clear_value u18
  intro u24
  have h25 : Keeps s0 u24 := by
    unfold u24
    split
    · rename_i q26 q27 q28 q29 q30
      refine takeChanges_keeps ?_
      exact h19
    · rename_i q31 q32
      exact h19
  clear_value u24
  intro u33
  have h34 : Keeps s0 u33 := by
    unfold u33
    split
    · rename_i q35 q36 q37 q38 q39
      refine Keeps.foldl _ ?_ (fun x40 a41 hx42 => ?_)
      · refine applySticky_keeps ?_
        exact h25
      · refine logEvent_keeps ?_
        exact hx42
    · rename_i q43 q44
      exact h25
  clear_value u33
  intro u45
  have h46 : Keeps s0 u45 := by
    unfold u45
    refine applyPart_keeps ?_ (fun x47 a48 hx49 => ?_)
    · exact h34
    · refine applyMotion_keeps ?_
      exact hx49
  clear_value u45
  intro u50
  have h51 : Keeps s0 u50 := by
    unfold u50
    refine applyPart_keeps ?_ (fun x52 a53 hx54 => ?_)
    · exact h46
    · refine Keeps.other ?_
      exact hx54
  clear_value u50
  intro u56
  clear_value u56
  refine Keeps.other ?_
  exact h51

theorem askMissed_keeps {s0 : State} {s : State} {r : PickRecord} (hk : Keeps s0 s) :
    Keeps s0 (askMissed s r) := by
  unfold askMissed
  split
  · rename_i q0 q1 q2
    lift_lets
    intro u3
    clear_value u3
    intro u4
    clear_value u4
    refine Keeps.ite ?_ ?_
    · exact hk
    · refine toPeer_keeps ?_
      refine Keeps.other ?_
      exact hk
  · rename_i q6 q7
    refine Keeps.other ?_
    exact hk

theorem ackRecord_keeps {s0 : State} {s : State} {r : PickRecord} {refuse : Bool} (hk : Keeps s0 s) :
    Keeps s0 (ackRecord s r refuse) := by
  unfold ackRecord
  refine toPeer_keeps ?_
  exact hk

theorem applyRecord_keeps {s0 : State} {s : State} {r : PickRecord} (hk : Keeps s0 s) :
    Keeps s0 (applyRecord s r) := by
  unfold applyRecord
  lift_lets
  intro u0
  clear_value u0
  intro u1
  clear_value u1
  intro u2
  have h3 : Keeps s0 u2 := by
    unfold u2
    refine askMissed_keeps ?_
    exact hk
  clear_value u2
  intro u4
  clear_value u4
  intro u5
  have h6 : Keeps s0 u5 := by
    unfold u5
    refine applyParts_keeps ?_
    exact h3
  clear_value u5
  intro u7
  clear_value u7
  intro u8
  clear_value u8
  intro u9
  have h10 : Keeps s0 u9 := by
    unfold u9
    refine Keeps.other ?_
    exact h6
  clear_value u9
  intro u12
  have h13 : Keeps s0 u12 := by
    unfold u12
    refine ackRecord_keeps ?_
    exact h10
  clear_value u12
  refine Keeps.ite ?_ ?_
  · refine Keeps.ite ?_ ?_
    · refine applyParts_keeps ?_
      refine Keeps.other ?_
      exact hk
    · exact hk
  · refine Keeps.ite ?_ ?_
    · refine startResync_keeps ?_
      exact h13
    · exact h13

theorem badRecord_keeps {s0 : State} {s : State} (hk : Keeps s0 s) :
    Keeps s0 (badRecord s) := by
  unfold badRecord
  refine peerAuthFail_keeps ?_
  exact hk

theorem receiveRecord_keeps {s0 : State} {s : State} {r : PickRecord} (hk : Keeps s0 s) :
    Keeps s0 (receiveRecord s r) := by
  unfold receiveRecord
  refine Keeps.ite ?_ ?_
  · exact hk
  · lift_lets
    intro u0
    have h1 : Keeps s0 u0 := by
      unfold u0
      refine peerSeen_keeps ?_
      refine countKeyed_keeps ?_
      exact hk
    clear_value u0
    intro u2
    clear_value u2
    intro u3
    have h4 : Keeps s0 u3 := by
      unfold u3
      refine Keeps.ite ?_ ?_
      · refine supersede_keeps ?_
        exact h1
      · exact h1
    clear_value u3
    intro u5
    clear_value u5
    intro u6
    have h7 : Keeps s0 u6 := by
      unfold u6
      refine Keeps.other ?_
      exact h4
    clear_value u6
    refine Keeps.ite ?_ ?_
    · exact h1
    · refine Keeps.ite ?_ ?_
      · refine applyRecord_keeps ?_
        exact h7
      · refine badRecord_keeps ?_
        exact h7

theorem execPickRecordReceive_keeps {s0 : State} {t : ℕ} {tagOk : Bool} {r : PickRecord} {s : State} (hk : Keeps s0 s) :
    KeepsO s0 (execPickRecordReceive t tagOk r s) := by
  unfold execPickRecordReceive
  refine KeepsO.next ?_
  refine ifAuthentic_keeps ?_ (fun x0 hx1 => ?_)
  · refine flushUpdate_keeps ?_
    refine begin_keeps ?_
    exact hk
  · refine receiveRecord_keeps ?_
    exact hx1

theorem execFlushRecordReceive_keeps {s0 : State} {t : ℕ} {tagOk : Bool} {r : PickRecord} {s : State} (hk : Keeps s0 s) :
    KeepsO s0 (execFlushRecordReceive t tagOk r s) := by
  unfold execFlushRecordReceive
  refine KeepsO.next ?_
  refine ifAuthentic_keeps ?_ (fun x0 hx1 => ?_)
  · refine flushUpdate_keeps ?_
    refine begin_keeps ?_
    exact hk
  · refine receiveRecord_keeps ?_
    exact hx1

theorem refuseHandover_keeps {s0 : State} {s : State} (hk : Keeps s0 s) :
    Keeps s0 (refuseHandover s) := by
  unfold refuseHandover
  lift_lets
  intro u0
  clear_value u0
  intro u1
  clear_value u1
  intro u2
  have h3 : Keeps s0 u2 := by
    unfold u2
    refine Keeps.other ?_
    exact hk
  clear_value u2
  split
  · rename_i q5 q6 q7
    refine answer_keeps ?_
    exact h3
  · rename_i q8
    exact h3

theorem acceptHandover_keeps {s0 : State} {s : State} (hk : Keeps s0 s) :
    Keeps s0 (acceptHandover s) := by
  unfold acceptHandover
  split
  · rename_i q0 q1 q2 q3
    refine answer_keeps ?_
    refine Keeps.other ?_
    exact hk
  · rename_i q5 q6
    exact hk

theorem execRecordAckReceive_keeps {s0 : State} {t : ℕ} {pick : ℕ} {refuse : Bool} {synced : Bool} {ready : Bool} {s : State}
    (hk : Keeps s0 s) :
    KeepsO s0 (execRecordAckReceive t pick refuse synced ready s) := by
  unfold execRecordAckReceive
  lift_lets
  intro u0
  have h1 : Keeps s0 u0 := by
    unfold u0
    refine begin_keeps ?_
    exact hk
  clear_value u0
  intro u2
  have h3 : Keeps s0 u2 := by
    unfold u2
    refine peerSeen_keeps ?_
    exact h1
  clear_value u2
  intro u4
  clear_value u4
  intro u5
  have h6 : Keeps s0 u5 := by
    unfold u5
    refine Keeps.other ?_
    exact h3
  clear_value u5
  intro u8
  have h9 : Keeps s0 u8 := by
    unfold u8
    refine releaseHeld_keeps ?_
    exact h6
  clear_value u8
  refine KeepsO.next ?_
  refine Keeps.ite ?_ ?_
  · exact h1
  · refine Keeps.ite ?_ ?_
    · exact h9
    · refine Keeps.ite ?_ ?_
      · refine refuseHandover_keeps ?_
        exact h9
      · refine Keeps.ite ?_ ?_
        · refine acceptHandover_keeps ?_
          exact h9
        · exact h9

theorem releaseLocks_keeps {s0 : State} {s : State} {master : ℕ} (hk : Keeps s0 s) :
    Keeps s0 (releaseLocks s master) := by
  unfold releaseLocks
  refine Keeps.other ?_
  exact hk

theorem degrade_keeps {s0 : State} {s : State} {which : ℕ} (hk : Keeps s0 s) :
    Keeps s0 (degrade s which) := by
  unfold degrade
  refine raise_keeps ?_
  refine sticky_keeps ?_
  exact hk

theorem execPeerLinkLost_keeps {s0 : State} {t : ℕ} {s : State} (hk : Keeps s0 s) :
    KeepsO s0 (execPeerLinkLost t s) := by
  unfold execPeerLinkLost
  lift_lets
  intro u0
  have h1 : Keeps s0 u0 := by
    unfold u0
    refine begin_keeps ?_
    exact hk
  clear_value u0
  intro u2
  clear_value u2
  intro u3
  have h4 : Keeps s0 u3 := by
    unfold u3
    refine releaseLocks_keeps ?_
    refine Keeps.other ?_
    exact h1
  clear_value u3
  intro u6
  clear_value u6
  intro u7
  have h8 : Keeps s0 u7 := by
    unfold u7
    refine degrade_keeps ?_
    refine Keeps.other ?_
    exact h4
  clear_value u7
  intro u10
  clear_value u10
  refine KeepsO.next ?_
  refine Keeps.ite ?_ ?_
  · exact h1
  · refine Keeps.ite ?_ ?_
    · refine Keeps.ite ?_ ?_
      · refine Keeps.other ?_
        exact h8
      · refine Keeps.other ?_
        exact h8
    · exact h4

theorem execHeartbeatInEdge_keeps {s0 : State} {t : ℕ} {s : State} (hk : Keeps s0 s) :
    KeepsO s0 (execHeartbeatInEdge t s) := by
  unfold execHeartbeatInEdge
  lift_lets
  intro u0
  have h1 : Keeps s0 u0 := by
    unfold u0
    refine begin_keeps ?_
    exact hk
  clear_value u0
  intro u2
  clear_value u2
  intro u3
  clear_value u3
  intro u4
  have h5 : Keeps s0 u4 := by
    unfold u4
    refine Keeps.other ?_
    exact h1
  clear_value u4
  refine KeepsO.next ?_
  refine Keeps.ite ?_ ?_
  · exact h1
  · refine Keeps.ite ?_ ?_
    · refine raise_keeps ?_
      exact h5
    · exact h5

theorem execHeartbeatStatic_keeps {s0 : State} {t : ℕ} {s : State} (hk : Keeps s0 s) :
    KeepsO s0 (execHeartbeatStatic t s) := by
  unfold execHeartbeatStatic
  lift_lets
  intro u0
  have h1 : Keeps s0 u0 := by
    unfold u0
    refine begin_keeps ?_
    exact hk
  intro u2
  intro u3
  have h4 : Keeps s0 u3 := by
    unfold u3
    refine Keeps.other ?_
    exact h1
  intro u6
  clear_value u6
  refine KeepsO.next ?_
  refine Keeps.ite ?_ ?_
  · exact h1
  · refine Keeps.ite ?_ ?_
    · refine degrade_keeps ?_
      refine Keeps.other ?_
      exact h4
    · exact h4

theorem execPartnerLost_keeps {s0 : State} {t : ℕ} {s : State} (hk : Keeps s0 s) :
    KeepsO s0 (execPartnerLost t s) := by
  unfold execPartnerLost
  lift_lets
  intro u0
  have h1 : Keeps s0 u0 := by
    unfold u0
    refine begin_keeps ?_
    exact hk
  clear_value u0
  intro u2
  clear_value u2
  intro u3
  have h4 : Keeps s0 u3 := by
    unfold u3
    refine Keeps.other ?_
    exact h1
  clear_value u3
  intro u6
  have h7 : Keeps s0 u6 := by
    unfold u6
    refine raise_keeps ?_
    refine sticky_keeps ?_
    exact h4
  clear_value u6
  refine KeepsO.next ?_
  refine Keeps.ite ?_ ?_
  · exact h1
  · refine releaseHeld_keeps ?_
    exact h7

theorem refuseTakeover_keeps {s0 : State} {s : State} (hk : Keeps s0 s) :
    Keeps s0 (refuseTakeover s) := by
  unfold refuseTakeover
  refine Keeps.ite ?_ ?_
  · exact hk
  · refine raise_keeps ?_
    refine sticky_keeps ?_
    refine Keeps.other ?_
    exact hk

theorem claimActive_keeps {s0 : State} {s : State} (hk : Keeps s0 s) :
    Keeps s0 (claimActive s) := by
  unfold claimActive
  lift_lets
  intro u0
  clear_value u0
  intro u1
  have h2 : Keeps s0 u1 := by
    unfold u1
    refine setFld_keeps ?_
    exact hk
  clear_value u1
  intro u3
  clear_value u3
  intro u4
  clear_value u4
  intro u5
  have h6 : Keeps s0 u5 := by
    unfold u5
    refine emit_keeps ?_
    refine Keeps.other ?_
    exact h2
  clear_value u5
  intro u8
  clear_value u8
  intro u9
  have h10 : Keeps s0 u9 := by
    unfold u9
    refine Keeps.other ?_
    exact h6
  clear_value u9
  intro u12
  have h13 : Keeps s0 u12 := by
    unfold u12
    refine doorbell_keeps ?_
    refine sticky_keeps ?_
    exact h10
  clear_value u12
  refine bump_keeps ?_
  refine raise_keeps ?_
  exact h13

theorem resendLine_keeps {s0 : State} {s : State} {c : ℕ} {l : SentLine} (hk : Keeps s0 s) :
    Keeps s0 (resendLine s c l) := by
  unfold resendLine
  lift_lets
  intro u0
  clear_value u0
  refine Keeps.foldl _ ?_ (fun x1 a2 hx3 => ?_)
  · exact hk
  · refine Keeps.ite ?_ ?_
    · refine shedLine_keeps ?_
      exact hx3
    · refine sendToHub_keeps ?_
      exact hx3

theorem takeoverChan_keeps {s0 : State} {s : State} {c : ℕ} (hk : Keeps s0 s) :
    Keeps s0 (takeoverChan s c) := by
  unfold takeoverChan
  lift_lets
  intro u0
  clear_value u0
  intro u1
  have h2 : Keeps s0 u1 := by
    unfold u1
    refine setChan_keeps ?_
    exact hk
  clear_value u1
  intro u3
  clear_value u3
  intro u4
  have h5 : Keeps s0 u4 := by
    unfold u4
    refine Keeps.foldl _ ?_ (fun x6 a7 hx8 => ?_)
    · exact h2
    · refine resendLine_keeps ?_
      exact hx8
  clear_value u4
  intro u9
  clear_value u9
  intro u10
  clear_value u10
  refine Keeps.other ?_
  exact h5

theorem resendTables_keeps {s0 : State} {s : State} (hk : Keeps s0 s) :
    Keeps s0 (resendTables s) := by
  unfold resendTables
  refine Keeps.foldl _ ?_ (fun x0 a1 hx2 => ?_)
  · exact hk
  · rcases e7 : a1 with ⟨a3, a4, a5, a6⟩
    dsimp only
    refine Keeps.ite ?_ ?_
    · refine toHub_keeps ?_
      exact hx2
    · exact hx2

theorem becomeActive_keeps {s0 : State} {s : State} (hk : Keeps s0 s) :
    Keeps s0 (becomeActive s) := by
  unfold becomeActive
  lift_lets
  intro u0
  have h1 : Keeps s0 u0 := by
    unfold u0
    refine claimActive_keeps ?_
    exact hk
  clear_value u0
  intro u2
  have h3 : Keeps s0 u2 := by
    unfold u2
    refine changeSource_keeps ?_
    exact h1
  clear_value u2
  intro u4
  clear_value u4
  intro u5
  clear_value u5
  intro u6
  have h7 : Keeps s0 u6 := by
    unfold u6
    refine Keeps.other ?_
    exact h3
  clear_value u6
  intro u9
  clear_value u9
  intro u10
  clear_value u10
  intro u11
  have h12 : Keeps s0 u11 := by
    unfold u11
    refine Keeps.other ?_
    exact h7
  clear_value u11
  intro u14
  have h15 : Keeps s0 u14 := by
    unfold u14
    refine Keeps.foldl _ ?_ (fun x16 a17 hx18 => ?_)
    · exact h12
    · refine readAck_keeps ?_
      exact hx18
  clear_value u14
  intro u19
  have h20 : Keeps s0 u19 := by
    unfold u19
    refine Keeps.foldl _ ?_ (fun x21 a22 hx23 => ?_)
    · refine resendTables_keeps ?_
      exact h15
    · refine takeoverChan_keeps ?_
      exact hx23
  clear_value u19
  intro u24
  have h25 : Keeps s0 u24 := by
    unfold u24
    refine Keeps.foldl _ ?_ (fun x26 a27 hx28 => ?_)
    · exact h20
    · refine resendCommit_keeps ?_
      exact hx28
  clear_value u24
  refine checkJob_keeps ?_
  refine colourTakeover_keeps ?_
  refine reportGaps_keeps ?_
  exact h25

theorem execTakeover_keeps {s0 : State} {t : ℕ} {s : State} (hk : Keeps s0 s) :
    KeepsO s0 (execTakeover t s) := by
  unfold execTakeover
  lift_lets
  intro u0
  have h1 : Keeps s0 u0 := by
    unfold u0
    refine flushUpdate_keeps ?_
    refine begin_keeps ?_
    exact hk
  intro u2
  intro u3
  have h4 : Keeps s0 u3 := by
    unfold u3
    split
    · rename_i q5 q6 q7 q8
      refine raise_keeps ?_
      exact h1
    · rename_i q9 q10 q11 q12 q13
      refine Keeps.ite ?_ ?_
      · refine raise_keeps ?_
        exact h1
      · exact h1
    · rename_i q14 q15 q16 q17
      exact h1
  clear_value u3
  refine KeepsO.next ?_
  refine Keeps.ite ?_ ?_
  · exact h1
  · refine Keeps.ite ?_ ?_
    · refine Keeps.ite ?_ ?_
      · refine refuseTakeover_keeps ?_
        exact h1
      · refine becomeActive_keeps ?_
        exact h4
    · exact h1

theorem execLeaseExpire_keeps {s0 : State} {t : ℕ} {s : State} (hk : Keeps s0 s) :
    KeepsO s0 (execLeaseExpire t s) := by
  unfold execLeaseExpire
  lift_lets
  intro u0
  have h1 : Keeps s0 u0 := by
    unfold u0
    refine begin_keeps ?_
    exact hk
  clear_value u0
  refine KeepsO.next ?_
  refine Keeps.ite ?_ ?_
  · refine loseLease_keeps ?_
    exact h1
  · exact h1

theorem execCutTimerExpire_keeps {s0 : State} {t : ℕ} {s : State} (hk : Keeps s0 s) :
    KeepsO s0 (execCutTimerExpire t s) := by
  unfold execCutTimerExpire
  lift_lets
  intro u0
  have h1 : Keeps s0 u0 := by
    unfold u0
    refine begin_keeps ?_
    exact hk
  clear_value u0
  intro u2
  clear_value u2
  intro u3
  have h4 : Keeps s0 u3 := by
    unfold u3
    refine Keeps.other ?_
    exact h1
  clear_value u3
  intro u6
  clear_value u6
  intro u7
  have h8 : Keeps s0 u7 := by
    unfold u7
    refine Keeps.other ?_
    exact h4
  clear_value u7
  intro u10
  clear_value u10
  refine KeepsO.next ?_
  split
  · rename_i q11 q12
    exact h1
  · rename_i q13 q14 q15
    refine Keeps.ite ?_ ?_
    · exact h1
    · refine Keeps.ite ?_ ?_
      · refine loseLease_keeps ?_
        exact h4
      · refine emit_keeps ?_
        refine Keeps.other ?_
        exact h8

theorem execJoinWaitExpire_keeps {s0 : State} {t : ℕ} {s : State} (hk : Keeps s0 s) :
    KeepsO s0 (execJoinWaitExpire t s) := by
  unfold execJoinWaitExpire
  lift_lets
  intro u0
  have h1 : Keeps s0 u0 := by
    unfold u0
    refine begin_keeps ?_
    exact hk
  clear_value u0
  intro u2
  clear_value u2
  refine KeepsO.next ?_
  split
  · rename_i q3 q4 q5
    refine Keeps.ite ?_ ?_
    · refine becomeActive_keeps ?_
      exact h1
    · exact h1
  · rename_i q6 q7
    exact h1

theorem copyStrip_keeps {s0 : State} {s : State} {x : Strip} (hk : Keeps s0 s) :
    Keeps s0 (copyStrip s x) := by
  unfold copyStrip
  lift_lets
  intro u0
  clear_value u0
  refine Keeps.ite ?_ ?_
  · exact hk
  · refine Keeps.ite ?_ ?_
    · refine markDamaged_keeps ?_
      exact hk
    · split
      · rename_i q1 q2 q3 q4 q5
        refine publishStrip_keeps ?_
        exact hk
      · rename_i q6 q7 q8 q9
        refine replReject_keeps ?_
        exact hk

theorem copyStage_keeps {s0 : State} {s : State} {d : ResyncData} (hk : Keeps s0 s) :
    Keeps s0 (copyStage s d) := by
  unfold copyStage
  split
  · rename_i q0 q1
    refine Keeps.other ?_
    exact hk
  · rename_i q3 q4 q5
    lift_lets
    intro u6
    clear_value u6
    intro u7
    clear_value u7
    refine Keeps.foldl _ ?_ (fun x8 a9 hx10 => ?_)
    · refine Keeps.other ?_
      exact hk
    · refine copyStrip_keeps ?_
      exact hx10
  · rename_i q12 q13 q14 q15
    lift_lets
    intro u16
    clear_value u16
    intro u17
    clear_value u17
    intro u18
    clear_value u18
    refine Keeps.live ?_ (fun hb19 => ?_)
    · exact hk
    · refine bankWf_bankTake ?_ _ _
      assumption
  · rename_i q20 q21 q22
    lift_lets
    intro u23
    clear_value u23
    intro u24
    clear_value u24
    intro u25
    have h26 : Keeps s0 u25 := by
      unfold u25
      refine Keeps.live ?_ (fun hb27 => ?_)
      · exact hk
      · refine bankWf_bankTake ?_ _ _
        assumption
    clear_value u25
    intro u28
    clear_value u28
    refine setFld_keeps ?_
    exact h26

theorem takeCopies_keeps {s0 : State} {s : State} {d : ResyncData} (hk : Keeps s0 s) :
    Keeps s0 (takeCopies s d) := by
  unfold takeCopies
  split
  · rename_i q0 q1 q2 q3
    refine Keeps.foldl _ ?_ (fun x4 a5 hx6 => ?_)
    · exact hk
    · refine takeCopy_keeps ?_
      exact hx6
  · rename_i q7 q8
    exact hk

theorem execResyncStageDone_keeps {s0 : State} {t : ℕ} {data : ResyncData} {s : State} (hk : Keeps s0 s) :
    KeepsO s0 (execResyncStageDone t data s) := by
  unfold execResyncStageDone
  lift_lets
  intro u0
  have h1 : Keeps s0 u0 := by
    unfold u0
    refine flushUpdate_keeps ?_
    refine begin_keeps ?_
    exact hk
  clear_value u0
  refine KeepsO.next ?_
  refine Keeps.ite ?_ ?_
  · exact h1
  · refine Keeps.ite ?_ ?_
    · refine Keeps.ite ?_ ?_
      · exact h1
      · refine startStage_keeps ?_
        refine copyStage_keeps ?_
        exact h1
    · refine Keeps.ite ?_ ?_
      · refine takeCopies_keeps ?_
        exact h1
      · exact h1

theorem writeMailbox_keeps {s0 : State} {s : State} {k : ℕ} {off : ℕ} {bs : List Byte} (hk : Keeps s0 s) :
    Keeps s0 (writeMailbox s k off bs) := by
  unfold writeMailbox
  refine Keeps.ite ?_ ?_
  · exact hk
  · refine Keeps.ite ?_ ?_
    · refine sticky_keeps ?_
      exact hk
    · refine setMbx_keeps ?_
      exact hk

theorem execMailboxWrite_keeps {s0 : State} {t : ℕ} {ch : Fin 6} {offset : ℕ} {bytes : List Byte} {s : State} (hk : Keeps s0 s) :
    KeepsO s0 (execMailboxWrite t ch offset bytes s) := by
  unfold execMailboxWrite
  lift_lets
  intro u0
  have h1 : Keeps s0 u0 := by
    unfold u0
    refine begin_keeps ?_
    exact hk
  clear_value u0
  refine KeepsO.next ?_
  refine Keeps.ite ?_ ?_
  · refine writeMailbox_keeps ?_
    exact h1
  · exact h1

theorem postChannel_keeps {s0 : State} {s : State} {k : ℕ} (hk : Keeps s0 s) :
    Keeps s0 (postChannel s k) := by
  unfold postChannel
  refine lookAt_keeps ?_
  refine setMbx_keeps ?_
  exact hk

theorem postFrom_keeps {s0 : State} {s : State} {k : ℕ} {ethernet : Bool} (hk : Keeps s0 s) :
    Keeps s0 (postFrom s k ethernet) := by
  unfold postFrom
  refine Keeps.ite ?_ ?_
  · exact hk
  · refine postChannel_keeps ?_
    refine Keeps.ite ?_ ?_
    · refine Keeps.other ?_
      exact hk
    · exact hk

theorem postDoorbells_keeps {s0 : State} {s : State} {value : ℕ} {ethernet : Bool} (hk : Keeps s0 s) :
    Keeps s0 (postDoorbells s value ethernet) := by
  unfold postDoorbells
  refine Keeps.foldl _ ?_ (fun x0 a1 hx2 => ?_)
  · exact hk
  · refine Keeps.ite ?_ ?_
    · refine postFrom_keeps ?_
      exact hx2
    · exact hx2

theorem execDoorbellPost_keeps {s0 : State} {t : ℕ} {value : ℕ} {s : State} (hk : Keeps s0 s) :
    KeepsO s0 (execDoorbellPost t value s) := by
  unfold execDoorbellPost
  lift_lets
  intro u0
  have h1 : Keeps s0 u0 := by
    unfold u0
    refine begin_keeps ?_
    exact hk
  clear_value u0
  refine KeepsO.next ?_
  refine Keeps.ite ?_ ?_
  · refine postDoorbells_keeps ?_
    exact h1
  · exact h1

theorem releaseReply_keeps {s0 : State} {s : State} {k : ℕ} (hk : Keeps s0 s) :
    Keeps s0 (releaseReply s k) := by
  unfold releaseReply
  lift_lets
  intro u0
  clear_value u0
  split
  · rename_i q1 q2
    exact hk
  · rename_i q3 q4 q5
    split
    · rename_i q6 q7
      refine setMbx_keeps ?_
      exact hk
    · rename_i q8 q9 q10 q11
      refine outFilled_keeps ?_
      refine setMbx_keeps ?_
      exact hk

theorem execReplyRelease_keeps {s0 : State} {t : ℕ} {ch : Fin 6} {s : State} (hk : Keeps s0 s) :
    KeepsO s0 (execReplyRelease t ch s) := by
  unfold execReplyRelease
  lift_lets
  intro u0
  have h1 : Keeps s0 u0 := by
    unfold u0
    refine begin_keeps ?_
    exact hk
  clear_value u0
  refine KeepsO.next ?_
  refine Keeps.ite ?_ ?_
  · refine pump_keeps ?_
    refine releaseReply_keeps ?_
    exact h1
  · exact h1

theorem hostReset_keeps {s0 : State} {s : State} {k : ℕ} (hk : Keeps s0 s) :
    Keeps s0 (hostReset s k) := by
  unfold hostReset
  lift_lets
  intro u0
  have h1 : Keeps s0 u0 := by
    unfold u0
    refine setMbx_keeps ?_
    exact hk
  clear_value u0
  intro u2
  have h3 : Keeps s0 u2 := by
    unfold u2
    refine pump_keeps ?_
    exact h1
  clear_value u2
  intro u4
  have h5 : Keeps s0 u4 := by
    unfold u4
    refine raise_keeps ?_
    refine doorbell_keeps ?_
    refine sticky_keeps ?_
    exact h3
  clear_value u4
  refine endSecure_keeps ?_
  exact h5

theorem execChannelResetHost_keeps {s0 : State} {t : ℕ} {ch : Fin 6} {s : State} (hk : Keeps s0 s) :
    KeepsO s0 (execChannelResetHost t ch s) := by
  unfold execChannelResetHost
  lift_lets
  intro u0
  have h1 : Keeps s0 u0 := by
    unfold u0
    refine begin_keeps ?_
    exact hk
  clear_value u0
  refine KeepsO.next ?_
  refine Keeps.ite ?_ ?_
  · refine hostReset_keeps ?_
    exact h1
  · exact h1

theorem hostDetach_keeps {s0 : State} {s : State} {master : ℕ} (hk : Keeps s0 s) :
    Keeps s0 (hostDetach s master) := by
  unfold hostDetach
  refine releaseLocks_keeps ?_
  refine Keeps.foldl _ ?_ (fun x0 a1 hx2 => ?_)
  · exact hk
  · refine hostReset_keeps ?_
    exact hx2

theorem execPcieReset_keeps {s0 : State} {t : ℕ} {s : State} (hk : Keeps s0 s) :
    KeepsO s0 (execPcieReset t s) := by
  unfold execPcieReset
  lift_lets
  intro u0
  have h1 : Keeps s0 u0 := by
    unfold u0
    refine begin_keeps ?_
    exact hk
  clear_value u0
  intro u2
  clear_value u2
  intro u3
  clear_value u3
  intro u4
  have h5 : Keeps s0 u4 := by
    unfold u4
    refine hostDetach_keeps ?_
    refine Keeps.other ?_
    exact h1
  clear_value u4
  intro u7
  clear_value u7
  refine KeepsO.next ?_
  refine Keeps.ite ?_ ?_
  · exact h1
  · refine Keeps.other ?_
    exact h5

theorem readLock_keeps {s0 : State} {s : State} {l : ℕ} {master : ℕ} (hk : Keeps s0 s) :
    Keeps s0 (readLock s l master).2 := by
  unfold readLock
  lift_lets
  intro u0
  clear_value u0
  intro u1
  clear_value u1
  split
  · rename_i q2
    exact hk
  · rename_i q3
    split
    · rename_i q4
      dsimp only
      refine Keeps.other ?_
      exact hk
    · rename_i q6
      exact hk

theorem execLockRead_keeps {s0 : State} {t : ℕ} {lock : Fin 32} {master : Fin 6} {s : State} (hk : Keeps s0 s) :
    KeepsO s0 (execLockRead t lock master s) := by
  unfold execLockRead
  lift_lets
  intro u0
  have h1 : Keeps s0 u0 := by
    unfold u0
    refine begin_keeps ?_
    exact hk
  clear_value u0
  refine KeepsO.next ?_
  refine Keeps.ite ?_ ?_
  · exact h1
  · rcases e4 : readLock u0 ↑lock ↑master with ⟨a2, a3⟩
    dsimp only
    refine emit_keeps ?_
    refine Keeps.snd_of e4 ?_
    refine readLock_keeps ?_
    exact h1

theorem writeLock_keeps {s0 : State} {s : State} {l : ℕ} {master : ℕ} (hk : Keeps s0 s) :
    Keeps s0 (writeLock s l master) := by
  unfold writeLock
  refine Keeps.ite ?_ ?_
  · refine Keeps.other ?_
    exact hk
  · exact hk

theorem execLockRelease_keeps {s0 : State} {t : ℕ} {lock : Fin 32} {master : Fin 6} {s : State} (hk : Keeps s0 s) :
    KeepsO s0 (execLockRelease t lock master s) := by
  unfold execLockRelease
  refine KeepsO.next ?_
  refine writeLock_keeps ?_
  refine begin_keeps ?_
  exact hk

theorem writeTail_keeps {s0 : State} {s : State} {v : ℕ} (hk : Keeps s0 s) :
    Keeps s0 (writeTail s v) := by
  unfold writeTail
  refine Keeps.ite ?_ ?_
  · lift_lets
    intro u0
    have h1 : Keeps s0 u0 := by
      unfold u0
      refine setFld_keeps ?_
      exact hk
    clear_value u0
    intro u2
    clear_value u2
    refine Keeps.other ?_
    exact h1
  · exact hk

theorem execEvtTailWrite_keeps {s0 : State} {t : ℕ} {value : ℕ} {s : State} (hk : Keeps s0 s) :
    KeepsO s0 (execEvtTailWrite t value s) := by
  unfold execEvtTailWrite
  refine KeepsO.next ?_
  refine writeTail_keeps ?_
  refine begin_keeps ?_
  exact hk

theorem openSession_keeps {s0 : State} {s : State} {src : ℕ} {udp : ℕ} {port : ℕ} (hk : Keeps s0 s) :
    Keeps s0 (openSession s src udp port) := by
  unfold openSession
  lift_lets
  intro u0
  clear_value u0
  intro u1
  clear_value u1
  intro u2
  have h3 : Keeps s0 u2 := by
    unfold u2
    refine Keeps.other ?_
    exact hk
  clear_value u2
  refine raise_keeps ?_
  refine sendDatagram_keeps ?_
  exact h3

theorem dropTransfers_keeps {s0 : State} {s : State} (hk : Keeps s0 s) :
    Keeps s0 (dropTransfers s) := by
  unfold dropTransfers
  lift_lets
  intro u0
  intro u1
  have h2 : Keeps s0 u1 := by
    unfold u1
    refine dropLoad_keeps ?_
    exact hk
  clear_value u1
  intro u3
  clear_value u3
  intro u4
  clear_value u4
  intro u5
  clear_value u5
  refine Keeps.other ?_
  exact h2

theorem endSession_keeps {s0 : State} {s : State} {cause : ℕ} (hk : Keeps s0 s) :
    Keeps s0 (endSession s cause) := by
  unfold endSession
  split
  · rename_i q0 q1
    exact hk
  · rename_i q2 q3 q4
    lift_lets
    intro u5
    clear_value u5
    intro u6
    have h7 : Keeps s0 u6 := by
      unfold u6
      refine Keeps.ite ?_ ?_
      · refine Keeps.other ?_
        exact hk
      · exact hk
    clear_value u6
    intro u9
    have h10 : Keeps s0 u9 := by
      unfold u9
      refine dropTransfers_keeps ?_
      refine hostDetach_keeps ?_
      exact h7
    clear_value u9
    intro u11
    clear_value u11
    refine raise_keeps ?_
    refine Keeps.other ?_
    exact h10

theorem execHello_keeps {s0 : State} {t : ℕ} {src : ℕ} {udp : ℕ} {port : Fin 2} {s : State} (hk : Keeps s0 s) :
    KeepsO s0 (execHello t src udp port s) := by
  unfold execHello
  lift_lets
  intro u0
  have h1 : Keeps s0 u0 := by
    unfold u0
    refine begin_keeps ?_
    exact hk
  clear_value u0
  refine KeepsO.next ?_
  refine Keeps.ite ?_ ?_
  · exact h1
  · split
    · rename_i q2 q3
      refine openSession_keeps ?_
      exact h1
    · rename_i q4 q5 q6
      refine Keeps.ite ?_ ?_
      · refine openSession_keeps ?_
        refine endSession_keeps ?_
        exact h1
      · refine Keeps.ite ?_ ?_
        · exact h1
        · refine openSession_keeps ?_
          refine endSession_keeps ?_
          exact h1

theorem execSessionTimeout_keeps {s0 : State} {t : ℕ} {s : State} (hk : Keeps s0 s) :
    KeepsO s0 (execSessionTimeout t s) := by
  unfold execSessionTimeout
  lift_lets
  intro u0
  have h1 : Keeps s0 u0 := by
    unfold u0
    refine begin_keeps ?_
    exact hk
  clear_value u0
  refine KeepsO.next ?_
  split
  · rename_i q2 q3 q4
    refine Keeps.ite ?_ ?_
    · refine endSession_keeps ?_
      exact h1
    · exact h1
  · rename_i q5 q6
    exact h1

theorem touchSession_keeps {s0 : State} {s : State} (hk : Keeps s0 s) :
    Keeps s0 (touchSession s) := by
  unfold touchSession
  refine Keeps.other ?_
  exact hk

theorem execMsgDatagram_keeps {s0 : State} {t : ℕ} {d : Dgram} {ch : Fin 6} {outAck : Bool} {bytes : List Byte} {s : State}
    (hk : Keeps s0 s) :
    KeepsO s0 (execMsgDatagram t d ch outAck bytes s) := by
  unfold execMsgDatagram
  lift_lets
  intro u0
  have h1 : Keeps s0 u0 := by
    unfold u0
    refine begin_keeps ?_
    exact hk
  clear_value u0
  intro u2
  have h3 : Keeps s0 u2 := by
    unfold u2
    refine touchSession_keeps ?_
    exact h1
  clear_value u2
  intro u4
  clear_value u4
  intro u5
  have h6 : Keeps s0 u5 := by
    unfold u5
    refine Keeps.ite ?_ ?_
    · refine pump_keeps ?_
      refine releaseReply_keeps ?_
      exact h3
    · exact h3
  clear_value u5
  intro u7
  clear_value u7
  intro u8
  have h9 : Keeps s0 u8 := by
    unfold u8
    refine Keeps.other ?_
    exact h6
  clear_value u8
  refine KeepsO.next ?_
  refine Keeps.ite ?_ ?_
  · exact h1
  · refine Keeps.ite ?_ ?_
    · split
      · rename_i q11 q12 q13
        refine sendDatagram_keeps ?_
        exact h3
      · rename_i q14 q15
        exact h3
    · refine Keeps.ite ?_ ?_
      · refine sticky_keeps ?_
        exact h6
      · refine Keeps.ite ?_ ?_
        · exact h6
        · refine postFrom_keeps ?_
          refine setMbx_keeps ?_
          exact h9

theorem sendDataAck_keeps {s0 : State} {s : State} {x : Transfer} (hk : Keeps s0 s) :
    Keeps s0 (sendDataAck s x) := by
  unfold sendDataAck
  lift_lets
  intro u0
  have h1 : Keeps s0 u0 := by
    unfold u0
    refine sendDatagram_keeps ?_
    exact hk
  clear_value u0
  intro u2
  clear_value u2
  refine Keeps.other ?_
  exact h1

theorem execDataAckTimer_keeps {s0 : State} {t : ℕ} {s : State} (hk : Keeps s0 s) :
    KeepsO s0 (execDataAckTimer t s) := by
  unfold execDataAckTimer
  lift_lets
  intro u0
  have h1 : Keeps s0 u0 := by
    unfold u0
    refine begin_keeps ?_
    exact hk
  clear_value u0
  intro u2
  clear_value u2
  refine KeepsO.next ?_
  refine Keeps.foldl _ ?_ (fun x3 a4 hx5 => ?_)
  · exact h1
  · refine sendDataAck_keeps ?_
    exact hx5

theorem execNotifyRepeat_keeps {s0 : State} {t : ℕ} {s : State} (hk : Keeps s0 s) :
    KeepsO s0 (execNotifyRepeat t s) := by
  unfold execNotifyRepeat
  lift_lets
  intro u0
  have h1 : Keeps s0 u0 := by
    unfold u0
    refine begin_keeps ?_
    exact hk
  clear_value u0
  refine KeepsO.next ?_
  split
  · rename_i q2 q3
    exact h1
  · rename_i q4 q5 q6
    lift_lets
    intro u7
    have h8 : Keeps s0 u7 := by
      unfold u7
      refine Keeps.ite ?_ ?_
      · refine sendNotify_keeps ?_
        exact h1
      · exact h1
    clear_value u7
    refine Keeps.foldl _ ?_ (fun x9 a10 hx11 => ?_)
    · exact h8
    · split
      · rename_i q12 q13 q14
        refine sendDatagram_keeps ?_
        exact hx11
      · rename_i q15 q16
        exact hx11

theorem execPairStatus_keeps {s0 : State} {t : ℕ} {ch : Fin 6} {tag : ℕ} {s : State} (hk : Keeps s0 s) :
    KeepsO s0 (execPairStatus t ch tag s) := by
  unfold execPairStatus
  refine KeepsO.next ?_
  refine message_keeps ?_ (fun x0 hx1 => ?_)
  · refine begin_keeps ?_
    exact hk
  · exact hx1

theorem pairMessage_keeps {s0 : State} {act : State → State × MsgRes} {s : State} (h_act : ∀ x, Keeps s0 x → Keeps s0 (act x).1)
    (hk : Keeps s0 s) :
    Keeps s0 (pairMessage act s).1 := by
  unfold pairMessage
  split
  · rename_i q0
    exact hk
  · rename_i q1
    refine h_act _ ?_
    exact hk

theorem execPairConfig_keeps {s0 : State} {t : ℕ} {ch : Fin 6} {tag : ℕ} {value : ℕ} {mask : ℕ} {s : State} (hk : Keeps s0 s) :
    KeepsO s0 (execPairConfig t ch tag value mask s) := by
  unfold execPairConfig
  refine KeepsO.next ?_
  refine message_keeps ?_ (fun x0 hx1 => ?_)
  · refine begin_keeps ?_
    exact hk
  · refine pairMessage_keeps (fun x2 hx3 => ?_) ?_
    · lift_lets
      intro u4
      clear_value u4
      intro u5
      clear_value u5
      intro u6
      clear_value u6
      split
      · rename_i q7
        dsimp only
        refine Keeps.live ?_ (fun hb8 => ?_)
        · exact hx3
        · refine bankWf_bankWrite ?_ _ _
          assumption
      · rename_i q9
        exact hx3
    · exact hx1

theorem execPairHandover_keeps {s0 : State} {t : ℕ} {ch : Fin 6} {tag : ℕ} {lead : ℕ} {s : State} (hk : Keeps s0 s) :
    KeepsO s0 (execPairHandover t ch tag lead s) := by
  unfold execPairHandover
  refine KeepsO.next ?_
  refine message_keeps ?_ (fun x0 hx1 => ?_)
  · refine begin_keeps ?_
    exact hk
  · refine pairMessage_keeps (fun x2 hx3 => ?_) ?_
    · split
      · rename_i q4
        exact hx3
      · rename_i q5
        split
        · rename_i q6
          exact hx3
        · rename_i q7
          split
          · rename_i q8
            exact hx3
          · rename_i q9
            dsimp only
            refine Keeps.other ?_
            exact hx3
    · exact hx1

theorem execPairResync_keeps {s0 : State} {t : ℕ} {ch : Fin 6} {tag : ℕ} {s : State} (hk : Keeps s0 s) :
    KeepsO s0 (execPairResync t ch tag s) := by
  unfold execPairResync
  refine KeepsO.next ?_
  refine message_keeps ?_ (fun x0 hx1 => ?_)
  · refine begin_keeps ?_
    exact hk
  · refine pairMessage_keeps (fun x2 hx3 => ?_) ?_
    · split
      · rename_i q4
        dsimp only
        refine startResync_keeps ?_
        exact hx3
      · rename_i q5
        exact hx3
    · exact hx1

theorem execPairClear_keeps {s0 : State} {t : ℕ} {ch : Fin 6} {tag : ℕ} {bits : ℕ} {s : State} (hk : Keeps s0 s) :
    KeepsO s0 (execPairClear t ch tag bits s) := by
  unfold execPairClear
  refine KeepsO.next ?_
  refine message_keeps ?_ (fun x0 hx1 => ?_)
  · refine begin_keeps ?_
    exact hk
  · refine pairMessage_keeps (fun x2 hx3 => ?_) ?_
    · lift_lets
      intro u4
      clear_value u4
      intro u5
      clear_value u5
      dsimp only
      refine Keeps.live ?_ (fun hb6 => ?_)
      · exact hx3
      · refine bankWf_bankWrite ?_ _ _
        assumption
    · exact hx1

theorem logQueued_keeps {s0 : State} {s : State} (hk : Keeps s0 s) :
    Keeps s0 (logQueued s) := by
  unfold logQueued
  lift_lets
  intro u0
  have h1 : Keeps s0 u0 := by
    unfold u0
    refine Keeps.foldl _ ?_ (fun x2 a3 hx4 => ?_)
    · exact hk
    · refine logEvent_keeps ?_
      exact hx4
  clear_value u0
  intro u5
  clear_value u5
  refine Keeps.other ?_
  exact h1

theorem execMissedPartsRequest_keeps {s0 : State} {t : ℕ} {picks : List ℕ} {s : State} (hk : Keeps s0 s) :
    KeepsO s0 (execMissedPartsRequest t picks s) := by
  unfold execMissedPartsRequest
  lift_lets
  intro u0
  have h1 : Keeps s0 u0 := by
    unfold u0
    refine begin_keeps ?_
    exact hk
  clear_value u0
  refine KeepsO.next ?_
  refine Keeps.ite ?_ ?_
  · exact h1
  · refine Keeps.foldl _ ?_ (fun x2 a3 hx4 => ?_)
    · exact h1
    · refine countKeyed_keeps ?_
      refine toPeer_keeps ?_
      exact hx4

end Sys2Proof.Laws
end

