-- ==== Sys2Proof/Laws/KeepsSecurity.lean ====
section
/-!
SUPPORT. Every operation and command of security, reset and start (chapters 14, 15) keeps the queue and the canonical
banks, one lemma each.
-/
namespace Sys2Proof.Laws

open Sys2Proof.Machine

theorem execPeerLinkSetup_keeps {s0 : State} {t : ℕ} {ok : Bool} {key : ℕ} {s : State} (hk : Keeps s0 s) :
    KeepsO s0 (execPeerLinkSetup t ok key s) := by
  unfold execPeerLinkSetup
  lift_lets
  intro u0
  have h1 : Keeps s0 u0 := by
    unfold u0
    refine begin_keeps ?_
    exact hk
  clear_value u0
  intro u2
  clear_value u2
  refine KeepsO.next ?_
  refine Keeps.ite ?_ ?_
  · exact h1
  · refine Keeps.ite ?_ ?_
    · refine Keeps.other ?_
      exact h1
    · refine peerAuthFail_keeps ?_
      refine Keeps.other ?_
      exact h1

theorem finishImage_keeps {s0 : State} {s : State} {slot : ℕ} {image : List Byte} (hk : Keeps s0 s) :
    Keeps s0 (finishImage s slot image).1 := by
  unfold finishImage
  rcases e2 : judgeImage s image with ⟨a0, a1⟩
  dsimp only
  refine raise_keeps ?_
  refine Keeps.other ?_
  exact hk

theorem finishLoad_keeps {s0 : State} {s : State} (hk : Keeps s0 s) :
    Keeps s0 (finishLoad s) := by
  unfold finishLoad
  split
  · rename_i q0 q1
    exact hk
  · rename_i q2 q3 q4
    split
    · rename_i q5 q6 q7
      refine Keeps.ite ?_ ?_
      · exact hk
      · lift_lets
        intro u8
        clear_value u8
        intro u9
        clear_value u9
        intro u10
        have h11 : Keeps s0 u10 := by
          unfold u10
          refine Keeps.other ?_
          exact hk
        clear_value u10
        rcases e15 : finishImage u10 q3.slot q6.data with ⟨a13, a14⟩
        dsimp only
        refine answer_keeps ?_
        refine audit_keeps ?_
        refine Keeps.fst_of e15 ?_
        refine finishImage_keeps ?_
        exact h11
    · rename_i q16 q17
      exact hk

theorem execDataDatagram_keeps {s0 : State} {t : ℕ} {d : Dgram} {transfer : ℕ} {offset : ℕ} {bytes : List Byte} {s : State}
    (hk : Keeps s0 s) :
    KeepsO s0 (execDataDatagram t d transfer offset bytes s) := by
  unfold execDataDatagram
  lift_lets
  intro u0
  have h1 : Keeps s0 u0 := by
    unfold u0
    refine begin_keeps ?_
    exact hk
  clear_value u0
  intro u2
  have h3 : Keeps s0 u2 := by
    unfold u2
    refine touchSession_keeps ?_
    exact h1
  clear_value u2
  intro u4
  clear_value u4
  refine KeepsO.next ?_
  refine Keeps.ite ?_ ?_
  · exact h1
  · split
    · rename_i q5 q6
      exact h3
    · rename_i q7 q8 q9
      lift_lets
      intro u10
      clear_value u10
      intro u11
      clear_value u11
      intro u12
      have h13 : Keeps s0 u12 := by
        unfold u12
        refine Keeps.other ?_
        exact h3
      clear_value u12
      intro u15
      have h16 : Keeps s0 u15 := by
        unfold u15
        refine Keeps.ite ?_ ?_
        · refine sendDataAck_keeps ?_
          exact h13
        · exact h13
      clear_value u15
      refine Keeps.ite ?_ ?_
      · exact h3
      · refine noteCertified_keeps ?_
        refine finishLoad_keeps ?_
        refine Keeps.foldl _ ?_ (fun x17 a18 hx19 => ?_)
        · exact h16
        · refine finishTable_keeps ?_
          exact hx19

theorem actWarmArm_keeps {s0 : State} {s : State} (hk : Keeps s0 s) :
    Keeps s0 (actWarmArm s).1 := by
  unfold actWarmArm
  split
  · rename_i q0
    exact hk
  · rename_i q1
    dsimp only
    refine setFld_keeps ?_
    refine Keeps.other ?_
    exact hk

theorem lapseSetup_keeps {s0 : State} {s : State} {k : ℕ} (hk : Keeps s0 s) :
    Keeps s0 (lapseSetup s k) := by
  unfold lapseSetup
  refine Keeps.ite ?_ ?_
  · refine audit_keeps ?_
    refine setSession_keeps ?_
    exact hk
  · exact hk

theorem secAct_keeps {s0 : State} {k : ℕ} {op : ℕ} {sub : ℕ} {act : State → State × MsgRes} {s : State}
    (h_act : ∀ x, Keeps s0 x → Keeps s0 (act x).1) (hk : Keeps s0 s) :
    Keeps s0 (secAct k op sub act s).1 := by
  unfold secAct
  split
  · rename_i q0
    exact hk
  · rename_i q1
    split
    · rename_i q2
      exact hk
    · rename_i q3
      refine h_act _ ?_
      exact hk

theorem secMessage_keeps {s0 : State} {s : State} {k : ℕ} {op : ℕ} {tag : ℕ} {changes : Bool} {exempt : Bool} {sub : ℕ}
    {act : State → State × MsgRes} (hk : Keeps s0 s) (h_act : ∀ x, Keeps s0 x → Keeps s0 (act x).1) :
    Keeps s0 (secMessage s k op tag changes exempt sub act) := by
  unfold secMessage
  lift_lets
  intro u0
  have h1 : Keeps s0 u0 := by
    unfold u0
    refine lapseSetup_keeps ?_
    exact hk
  clear_value u0
  intro u2
  clear_value u2
  intro u3
  clear_value u3
  intro u4
  have h5 : Keeps s0 u4 := by
    unfold u4
    refine message_keeps ?_ (fun x6 hx7 => ?_)
    · exact h1
    · rcases e10 : secAct k op sub act x6 with ⟨a8, a9⟩
      dsimp only
      refine Keeps.ite ?_ ?_
      · refine Keeps.fst_of e10 ?_
        refine secAct_keeps (fun x11 hx12 => ?_) ?_
        · refine h_act _ ?_
          exact hx12
        · exact hx7
      · refine audit_keeps ?_
        refine Keeps.fst_of e10 ?_
        refine secAct_keeps (fun x13 hx14 => ?_) ?_
        · refine h_act _ ?_
          exact hx14
        · exact hx7
  clear_value u4
  refine Keeps.ite ?_ ?_
  · refine audit_keeps ?_
    exact h5
  · exact h5

theorem execSecInfo_keeps {s0 : State} {t : ℕ} {ch : Fin 6} {tag : ℕ} {s : State} (hk : Keeps s0 s) :
    KeepsO s0 (execSecInfo t ch tag s) := by
  unfold execSecInfo
  refine KeepsO.next ?_
  refine secMessage_keeps ?_ (fun x0 hx1 => ?_)
  · refine begin_keeps ?_
    exact hk
  · exact hx1

theorem execCertGet_keeps {s0 : State} {t : ℕ} {ch : Fin 6} {tag : ℕ} {offset : ℕ} {s : State} (hk : Keeps s0 s) :
    KeepsO s0 (execCertGet t ch tag offset s) := by
  unfold execCertGet
  refine KeepsO.next ?_
  refine secMessage_keeps ?_ (fun x0 hx1 => ?_)
  · refine begin_keeps ?_
    exact hk
  · split
    · rename_i q2
      exact hx1
    · rename_i q3
      exact hx1

theorem actSessionOpen_keeps {s0 : State} {k : ℕ} {key : List Byte} {nonce : List Byte} {s : State} (hk : Keeps s0 s) :
    Keeps s0 (actSessionOpen k key nonce s).1 := by
  unfold actSessionOpen
  split
  · rename_i q0
    exact hk
  · rename_i q1
    split
    · rename_i q2
      exact hk
    · rename_i q3
      split
      · rename_i q4
        exact hk
      · rename_i q5
        rcases e8 : fresh s with ⟨a6, a7⟩
        dsimp only
        refine setSession_keeps ?_
        refine fresh_keeps ?_
        refine Keeps.snd_of e8 ?_
        refine fresh_keeps ?_
        exact hk

theorem execSessionOpen_keeps {s0 : State} {t : ℕ} {ch : Fin 6} {tag : ℕ} {key : List Byte} {nonce : List Byte} {s : State}
    (hk : Keeps s0 s) :
    KeepsO s0 (execSessionOpen t ch tag key nonce s) := by
  unfold execSessionOpen
  refine KeepsO.next ?_
  refine secMessage_keeps ?_ (fun x0 hx1 => ?_)
  · refine begin_keeps ?_
    exact hk
  · refine actSessionOpen_keeps ?_
    exact hx1

theorem actCertPut_keeps {s0 : State} {k : ℕ} {total : ℕ} {offset : ℕ} {bytes : List Byte} {s : State} (hk : Keeps s0 s) :
    Keeps s0 (actCertPut k total offset bytes s).1 := by
  unfold actCertPut
  lift_lets
  intro u0
  clear_value u0
  intro u1
  clear_value u1
  split
  · rename_i q2
    exact hk
  · rename_i q3
    split
    · rename_i q4
      exact hk
    · rename_i q5
      dsimp only
      refine setSession_keeps ?_
      exact hk

theorem execCertPut_keeps {s0 : State} {t : ℕ} {ch : Fin 6} {tag : ℕ} {total : ℕ} {offset : ℕ} {bytes : List Byte} {s : State}
    (hk : Keeps s0 s) :
    KeepsO s0 (execCertPut t ch tag total offset bytes s) := by
  unfold execCertPut
  refine KeepsO.next ?_
  refine secMessage_keeps ?_ (fun x0 hx1 => ?_)
  · refine begin_keeps ?_
    exact hk
  · refine actCertPut_keeps ?_
    exact hx1

theorem actSessionFinish_keeps {s0 : State} {k : ℕ} {sig : List Byte} {s : State} (hk : Keeps s0 s) :
    Keeps s0 (actSessionFinish k sig s).1 := by
  unfold actSessionFinish
  lift_lets
  intro u0
  clear_value u0
  intro u1
  clear_value u1
  intro u2
  have h3 : Keeps s0 u2 := by
    unfold u2
    refine raise_keeps ?_
    refine sticky_keeps ?_
    exact hk
  clear_value u2
  intro u4
  clear_value u4
  intro u5
  clear_value u5
  intro u6
  clear_value u6
  intro u7
  have h8 : Keeps s0 u7 := by
    unfold u7
    refine setSession_keeps ?_
    exact hk
  clear_value u7
  intro u9
  have h10 : Keeps s0 u9 := by
    unfold u9
    refine setMbx_keeps ?_
    exact h8
  clear_value u9
  split
  · rename_i q11
    exact hk
  · rename_i q12
    split
    · rename_i q13
      dsimp only
      refine setSession_keeps ?_
      exact h3
    · rename_i q14
      dsimp only
      refine raise_keeps ?_
      exact h10

theorem execSessionFinish_keeps {s0 : State} {t : ℕ} {ch : Fin 6} {tag : ℕ} {sig : List Byte} {s : State} (hk : Keeps s0 s) :
    KeepsO s0 (execSessionFinish t ch tag sig s) := by
  unfold execSessionFinish
  refine KeepsO.next ?_
  refine secMessage_keeps ?_ (fun x0 hx1 => ?_)
  · refine begin_keeps ?_
    exact hk
  · refine actSessionFinish_keeps ?_
    exact hx1

theorem execSessionClose_keeps {s0 : State} {t : ℕ} {ch : Fin 6} {tag : ℕ} {s : State} (hk : Keeps s0 s) :
    KeepsO s0 (execSessionClose t ch tag s) := by
  unfold execSessionClose
  refine KeepsO.next ?_
  refine secMessage_keeps ?_ (fun x0 hx1 => ?_)
  · refine begin_keeps ?_
    exact hk
  · dsimp only
    refine endSecure_keeps ?_
    exact hx1

theorem execSessionSetupTimeout_keeps {s0 : State} {t : ℕ} {x : Fin 2} {s : State} (hk : Keeps s0 s) :
    KeepsO s0 (execSessionSetupTimeout t x s) := by
  unfold execSessionSetupTimeout
  lift_lets
  intro u0
  have h1 : Keeps s0 u0 := by
    unfold u0
    refine begin_keeps ?_
    exact hk
  clear_value u0
  intro u2
  clear_value u2
  refine KeepsO.next ?_
  refine lapseSetup_keeps ?_
  exact h1

theorem execSessionIdleExpire_keeps {s0 : State} {t : ℕ} {x : Fin 2} {s : State} (hk : Keeps s0 s) :
    KeepsO s0 (execSessionIdleExpire t x s) := by
  unfold execSessionIdleExpire
  lift_lets
  intro u0
  have h1 : Keeps s0 u0 := by
    unfold u0
    refine begin_keeps ?_
    exact hk
  clear_value u0
  intro u2
  clear_value u2
  refine KeepsO.next ?_
  refine Keeps.ite ?_ ?_
  · refine endSecure_keeps ?_
    exact h1
  · exact h1

theorem actFwLoad_keeps {s0 : State} {k : ℕ} {tag : ℕ} {slot : ℕ} {data : DataRef} {s : State} (hk : Keeps s0 s) :
    Keeps s0 (actFwLoad k tag slot data s).1 := by
  unfold actFwLoad
  split
  · rename_i q0
    exact hk
  · rename_i q1
    split
    · rename_i q2
      exact hk
    · rename_i q3
      split
      · rename_i q4
        exact hk
      · rename_i q5
        lift_lets
        intro u6
        clear_value u6
        intro u7
        have h8 : Keeps s0 u7 := by
          unfold u7
          refine Keeps.other ?_
          exact hk
        intro u10
        clear_value u10
        intro u11
        clear_value u11
        intro u12
        clear_value u12
        split
        · rename_i q13
          dsimp only
          refine Keeps.other ?_
          exact h8
        · rename_i q15
          split
          · rename_i q16
            dsimp only
            refine raise_keeps ?_
            exact h8
          · rename_i q17
            refine finishImage_keeps ?_
            exact h8

theorem execFwLoad_keeps {s0 : State} {t : ℕ} {ch : Fin 6} {tag : ℕ} {slot : ℕ} {data : DataRef} {s : State} (hk : Keeps s0 s) :
    KeepsO s0 (execFwLoad t ch tag slot data s) := by
  unfold execFwLoad
  refine KeepsO.next ?_
  refine noteCertified_keeps ?_
  refine secMessage_keeps ?_ (fun x0 hx1 => ?_)
  · refine begin_keeps ?_
    exact hk
  · refine actFwLoad_keeps ?_
    exact hx1

theorem execFwActivate_keeps {s0 : State} {t : ℕ} {ch : Fin 6} {tag : ℕ} {slot : ℕ} {s : State} (hk : Keeps s0 s) :
    KeepsO s0 (execFwActivate t ch tag slot s) := by
  unfold execFwActivate
  refine KeepsO.next ?_
  refine secMessage_keeps ?_ (fun x0 hx1 => ?_)
  · refine begin_keeps ?_
    exact hk
  · split
    · rename_i q2
      exact hx1
    · rename_i q3
      split
      · rename_i q4
        exact hx1
      · rename_i q5
        dsimp only
        refine raise_keeps ?_
        refine setFld_keeps ?_
        exact hx1

theorem blowFuses_keeps {s0 : State} {s : State} (hk : Keeps s0 s) :
    Keeps s0 (blowFuses s) := by
  unfold blowFuses
  refine Keeps.ite ?_ ?_
  · exact hk
  · refine raise_keeps ?_
    refine setFld_keeps ?_
    exact hk

theorem execFwCommit_keeps {s0 : State} {t : ℕ} {ch : Fin 6} {tag : ℕ} {s : State} (hk : Keeps s0 s) :
    KeepsO s0 (execFwCommit t ch tag s) := by
  unfold execFwCommit
  refine KeepsO.next ?_
  refine secMessage_keeps ?_ (fun x0 hx1 => ?_)
  · refine begin_keeps ?_
    exact hk
  · lift_lets
    intro u2
    clear_value u2
    intro u3
    have h4 : Keeps s0 u3 := by
      unfold u3
      refine Keeps.other ?_
      exact hx1
    clear_value u3
    intro u6
    have h7 : Keeps s0 u6 := by
      unfold u6
      refine blowFuses_keeps ?_
      exact h4
    clear_value u6
    intro u8
    clear_value u8
    exact h7

theorem clearTrust_keeps {s0 : State} {kind : ℕ} {s : State} (hk : Keeps s0 s) :
    Keeps s0 (clearTrust kind s).1 := by
  unfold clearTrust
  split
  · rename_i q0
    dsimp only
    refine raise_keeps ?_
    refine Keeps.other ?_
    exact hk
  · rename_i q2
    dsimp only
    refine raise_keeps ?_
    refine Keeps.other ?_
    exact hk
  · rename_i q4 q5 q6
    exact hk

theorem endOthers_keeps {s0 : State} {s : State} {k : ℕ} (hk : Keeps s0 s) :
    Keeps s0 (endOthers s k) := by
  unfold endOthers
  refine Keeps.foldl _ ?_ (fun x0 a1 hx2 => ?_)
  · exact hk
  · refine Keeps.ite ?_ ?_
    · exact hx2
    · rcases e5 : fresh x0 with ⟨a3, a4⟩
      dsimp only
      refine endSecure_keeps ?_
      refine Keeps.snd_of e5 ?_
      refine fresh_keeps ?_
      exact hx2

theorem installTrust_keeps {s0 : State} {k : ℕ} {kind : ℕ} {slot : ℕ} {cert : List Byte} {s : State} (hk : Keeps s0 s) :
    Keeps s0 (installTrust k kind slot cert s).1 := by
  unfold installTrust
  split
  · rename_i q0
    exact hk
  · rename_i q1
    split
    · rename_i q2
      dsimp only
      refine raise_keeps ?_
      refine endOthers_keeps ?_
      refine Keeps.other ?_
      exact hk
    · rename_i q4
      dsimp only
      refine raise_keeps ?_
      refine Keeps.other ?_
      exact hk
    · rename_i q6 q7 q8
      dsimp only
      refine raise_keeps ?_
      refine Keeps.other ?_
      exact hk

theorem actTrustSet_keeps {s0 : State} {k : ℕ} {kind : ℕ} {slot : ℕ} {total : ℕ} {offset : ℕ} {bytes : List Byte} {s : State}
    (hk : Keeps s0 s) :
    Keeps s0 (actTrustSet k kind slot total offset bytes s).1 := by
  unfold actTrustSet
  lift_lets
  intro u0
  clear_value u0
  intro u1
  clear_value u1
  split
  · rename_i q2
    refine clearTrust_keeps ?_
    exact hk
  · rename_i q3
    split
    · rename_i q4
      exact hk
    · rename_i q5
      split
      · rename_i q6
        dsimp only
        refine Keeps.other ?_
        exact hk
      · rename_i q8
        refine installTrust_keeps ?_
        refine Keeps.other ?_
        exact hk

theorem execTrustSet_keeps {s0 : State} {t : ℕ} {ch : Fin 6} {tag : ℕ} {kind : ℕ} {slot : ℕ} {total : ℕ} {offset : ℕ}
    {bytes : List Byte} {s : State} (hk : Keeps s0 s) :
    KeepsO s0 (execTrustSet t ch tag kind slot total offset bytes s) := by
  unfold execTrustSet
  refine KeepsO.next ?_
  refine noteCertified_keeps ?_
  refine secMessage_keeps ?_ (fun x0 hx1 => ?_)
  · refine begin_keeps ?_
    exact hk
  · refine actTrustSet_keeps ?_
    exact hx1

theorem execTrustClear_keeps {s0 : State} {t : ℕ} {ch : Fin 6} {tag : ℕ} {slot : ℕ} {s : State} (hk : Keeps s0 s) :
    KeepsO s0 (execTrustClear t ch tag slot s) := by
  unfold execTrustClear
  refine KeepsO.next ?_
  refine noteCertified_keeps ?_
  refine secMessage_keeps ?_ (fun x0 hx1 => ?_)
  · refine begin_keeps ?_
    exact hk
  · refine clearTrust_keeps ?_
    exact hx1

theorem actConsReset_keeps {s0 : State} {k : ℕ} {tag : ℕ} {target : ℕ} {index : ℕ} {s : State} (hk : Keeps s0 s) :
    Keeps s0 (actConsReset k tag target index s).1 := by
  unfold actConsReset
  split
  · rename_i q0 q1
    exact hk
  · rename_i q2 q3 q4
    split
    · rename_i q5
      exact hk
    · rename_i q6
      split
      · rename_i q7
        exact hk
      · rename_i q8
        split
        · rename_i q9
          exact hk
        · rename_i q10
          split
          · rename_i q11
            exact hk
          · rename_i q12
            lift_lets
            intro u13
            have h14 : Keeps s0 u13 := by
              unfold u13
              refine setElem_keeps ?_
              exact hk
            clear_value u13
            dsimp only
            refine Keeps.ite ?_ ?_
            · refine sendRequest_keeps ?_
              exact h14
            · refine readCert_keeps ?_
              exact h14

theorem execConsReset_keeps {s0 : State} {t : ℕ} {ch : Fin 6} {tag : ℕ} {target : ℕ} {index : ℕ} {s : State} (hk : Keeps s0 s) :
    KeepsO s0 (execConsReset t ch tag target index s) := by
  unfold execConsReset
  refine KeepsO.next ?_
  refine secMessage_keeps ?_ (fun x0 hx1 => ?_)
  · refine begin_keeps ?_
    exact hk
  · refine actConsReset_keeps ?_
    exact hx1

theorem actConsTransfer_keeps {s0 : State} {target : ℕ} {src : ℕ} {dst : ℕ} {s : State} (hk : Keeps s0 s) :
    Keeps s0 (actConsTransfer target src dst s).1 := by
  unfold actConsTransfer
  split
  · rename_i q0 q1 q2 q3 q4 q5
    lift_lets
    intro u6
    clear_value u6
    intro u7
    clear_value u7
    intro u8
    clear_value u8
    intro u9
    have h10 : Keeps s0 u9 := by
      unfold u9
      refine keepPending_keeps ?_
      refine keepPending_keeps ?_
      refine setPending_keeps ?_
      refine setPending_keeps ?_
      exact hk
    clear_value u9
    intro u11
    have h12 : Keeps s0 u11 := by
      unfold u11
      refine Keeps.ite ?_ ?_
      · refine setElem_keeps ?_
        exact h10
      · exact h10
    clear_value u11
    intro u13
    have h14 : Keeps s0 u13 := by
      unfold u13
      refine Keeps.ite ?_ ?_
      · exact hk
      · refine setElem_keeps ?_
        exact h12
    clear_value u13
    split
    · rename_i q15
      exact hk
    · rename_i q16
      dsimp only
      refine raise_keeps ?_
      exact h14
  · rename_i q17 q18 q19
    exact hk

theorem execConsTransfer_keeps {s0 : State} {t : ℕ} {ch : Fin 6} {tag : ℕ} {target : ℕ} {src : ℕ} {dst : ℕ} {s : State}
    (hk : Keeps s0 s) :
    KeepsO s0 (execConsTransfer t ch tag target src dst s) := by
  unfold execConsTransfer
  refine KeepsO.next ?_
  refine secMessage_keeps ?_ (fun x0 hx1 => ?_)
  · refine begin_keeps ?_
    exact hk
  · refine actConsTransfer_keeps ?_
    exact hx1

theorem actSecConfig_keeps {s0 : State} {value : ℕ} {mask : ℕ} {clear : ℕ} {s : State} (hk : Keeps s0 s) :
    Keeps s0 (actSecConfig value mask clear s).1 := by
  unfold actSecConfig
  lift_lets
  intro u0
  clear_value u0
  intro u1
  clear_value u1
  intro u2
  clear_value u2
  intro u3
  clear_value u3
  intro u4
  clear_value u4
  intro u5
  clear_value u5
  intro u6
  clear_value u6
  intro u7
  intro u8
  intro u9
  have h10 : Keeps s0 u9 := by
    unfold u9
    refine noteCertified_keeps ?_
    refine Keeps.live ?_ (fun hb11 => ?_)
    · exact hk
    · unfold u8
      refine bankWf_bankWrite ?_ _ _
      unfold u7
      refine bankWf_bankWrite ?_ _ _
      assumption
  clear_value u9
  split
  · rename_i q12
    exact hk
  · rename_i q13
    split
    · rename_i q14
      exact hk
    · rename_i q15
      exact h10

theorem execSecConfig_keeps {s0 : State} {t : ℕ} {ch : Fin 6} {tag : ℕ} {value : ℕ} {mask : ℕ} {clear : ℕ} {s : State}
    (hk : Keeps s0 s) :
    KeepsO s0 (execSecConfig t ch tag value mask clear s) := by
  unfold execSecConfig
  refine KeepsO.next ?_
  refine secMessage_keeps ?_ (fun x0 hx1 => ?_)
  · refine begin_keeps ?_
    exact hk
  · refine actSecConfig_keeps ?_
    exact hx1

theorem execDebugChallenge_keeps {s0 : State} {t : ℕ} {ch : Fin 6} {tag : ℕ} {scope : ℕ} {s : State} (hk : Keeps s0 s) :
    KeepsO s0 (execDebugChallenge t ch tag scope s) := by
  unfold execDebugChallenge
  refine KeepsO.next ?_
  refine secMessage_keeps ?_ (fun x0 hx1 => ?_)
  · refine begin_keeps ?_
    exact hk
  · split
    · rename_i q2
      exact hx1
    · rename_i q3
      split
      · rename_i q4
        exact hx1
      · rename_i q5
        rcases e8 : fresh x0 with ⟨a6, a7⟩
        dsimp only
        refine Keeps.other ?_
        refine Keeps.snd_of e8 ?_
        refine fresh_keeps ?_
        exact hx1

theorem actUnlock_keeps {s0 : State} {k : ℕ} {scope : ℕ} {token : List Byte} {s : State} (hk : Keeps s0 s) :
    Keeps s0 (actUnlock k scope token s).1 := by
  unfold actUnlock
  split
  · rename_i q0
    exact hk
  · rename_i q1
    split
    · rename_i q2
      exact hk
    · rename_i q3
      lift_lets
      intro u4
      clear_value u4
      intro u5
      clear_value u5
      intro u6
      have h7 : Keeps s0 u6 := by
        unfold u6
        refine Keeps.other ?_
        exact hk
      clear_value u6
      intro u9
      clear_value u9
      intro u10
      have h11 : Keeps s0 u10 := by
        unfold u10
        refine Keeps.other ?_
        exact h7
      clear_value u10
      split
      · rename_i q13
        exact h7
      · rename_i q14
        dsimp only
        refine noteCertified_keeps ?_
        refine audit_keeps ?_
        refine raise_keeps ?_
        exact h11

theorem execDebugUnlock_keeps {s0 : State} {t : ℕ} {ch : Fin 6} {tag : ℕ} {scope : ℕ} {token : List Byte} {s : State}
    (hk : Keeps s0 s) :
    KeepsO s0 (execDebugUnlock t ch tag scope token s) := by
  unfold execDebugUnlock
  refine KeepsO.next ?_
  refine secMessage_keeps ?_ (fun x0 hx1 => ?_)
  · refine begin_keeps ?_
    exact hk
  · refine actUnlock_keeps ?_
    exact hx1

theorem execAuditRead_keeps {s0 : State} {t : ℕ} {ch : Fin 6} {tag : ℕ} {count : ℕ} {seq : ℕ} {s : State} (hk : Keeps s0 s) :
    KeepsO s0 (execAuditRead t ch tag count seq s) := by
  unfold execAuditRead
  refine KeepsO.next ?_
  refine secMessage_keeps ?_ (fun x0 hx1 => ?_)
  · refine begin_keeps ?_
    exact hk
  · split
    · rename_i q2
      exact hx1
    · rename_i q3
      exact hx1

theorem execAuditSign_keeps {s0 : State} {t : ℕ} {ch : Fin 6} {tag : ℕ} {nonce : List Byte} {s : State} (hk : Keeps s0 s) :
    KeepsO s0 (execAuditSign t ch tag nonce s) := by
  unfold execAuditSign
  refine KeepsO.next ?_
  refine secMessage_keeps ?_ (fun x0 hx1 => ?_)
  · refine begin_keeps ?_
    exact hk
  · split
    · rename_i q2
      exact hx1
    · rename_i q3
      exact hx1

theorem execAuditAcknowledge_keeps {s0 : State} {t : ℕ} {ch : Fin 6} {tag : ℕ} {seq : ℕ} {s : State} (hk : Keeps s0 s) :
    KeepsO s0 (execAuditAcknowledge t ch tag seq s) := by
  unfold execAuditAcknowledge
  refine KeepsO.next ?_
  refine secMessage_keeps ?_ (fun x0 hx1 => ?_)
  · refine begin_keeps ?_
    exact hk
  · split
    · rename_i q2
      exact hx1
    · rename_i q3
      dsimp only
      refine setFld_keeps ?_
      exact hx1

theorem abandonSetup_keeps {s0 : State} {s : State} {k : ℕ} (hk : Keeps s0 s) :
    Keeps s0 (abandonSetup s k) := by
  unfold abandonSetup
  refine Keeps.ite ?_ ?_
  · refine setSession_keeps ?_
    exact hk
  · exact hk

theorem execGlitch_keeps {s0 : State} {t : ℕ} {detector : Fin 4} {s : State} (hk : Keeps s0 s) :
    KeepsO s0 (execGlitch t detector s) := by
  unfold execGlitch
  lift_lets
  intro u0
  have h1 : Keeps s0 u0 := by
    unfold u0
    refine begin_keeps ?_
    exact hk
  clear_value u0
  intro u2
  clear_value u2
  intro u3
  have h4 : Keeps s0 u3 := by
    unfold u3
    refine endSecure_keeps ?_
    refine endSecure_keeps ?_
    refine abandonSetup_keeps ?_
    refine abandonSetup_keeps ?_
    exact h1
  clear_value u3
  intro u5
  clear_value u5
  intro u6
  have h7 : Keeps s0 u6 := by
    unfold u6
    refine Keeps.other ?_
    exact h4
  clear_value u6
  intro u9
  have h10 : Keeps s0 u9 := by
    unfold u9
    refine Keeps.ite ?_ ?_
    · refine toPeer_keeps ?_
      exact h7
    · exact h7
  clear_value u9
  intro u11
  clear_value u11
  intro u12
  clear_value u12
  intro u13
  have h14 : Keeps s0 u13 := by
    unfold u13
    refine setFld_keeps ?_
    refine sticky_keeps ?_
    exact h10
  clear_value u13
  intro u15
  have h16 : Keeps s0 u15 := by
    unfold u15
    refine audit_keeps ?_
    refine raise_keeps ?_
    exact h14
  clear_value u15
  refine KeepsO.next ?_
  refine Keeps.ite ?_ ?_
  · exact h1
  · refine Keeps.ite ?_ ?_
    · refine raise_keeps ?_
      exact h16
    · exact h16

theorem execRngFail_keeps {s0 : State} {t : ℕ} {test : Fin 2} {s : State} (hk : Keeps s0 s) :
    KeepsO s0 (execRngFail t test s) := by
  unfold execRngFail
  lift_lets
  intro u0
  have h1 : Keeps s0 u0 := by
    unfold u0
    refine begin_keeps ?_
    exact hk
  clear_value u0
  intro u2
  clear_value u2
  intro u3
  have h4 : Keeps s0 u3 := by
    unfold u3
    refine Keeps.other ?_
    exact h1
  clear_value u3
  refine KeepsO.next ?_
  refine Keeps.ite ?_ ?_
  · exact h1
  · refine noteCertified_keeps ?_
    refine raise_keeps ?_
    refine sticky_keeps ?_
    exact h4

theorem execJtagInstruction_keeps {s0 : State} {t : ℕ} {i : JtagInstr} {s : State} (hk : Keeps s0 s) :
    KeepsO s0 (execJtagInstruction t i s) := by
  unfold execJtagInstruction
  lift_lets
  intro u0
  have h1 : Keeps s0 u0 := by
    unfold u0
    refine begin_keeps ?_
    exact hk
  clear_value u0
  intro u2
  clear_value u2
  intro u3
  clear_value u3
  intro u4
  clear_value u4
  refine KeepsO.next ?_
  refine Keeps.other ?_
  exact h1

theorem execPowerOn_keeps {s0 : State} {t : ℕ} {s : State} (hk : Keeps s0 s) :
    KeepsO s0 (execPowerOn t s) := by
  unfold execPowerOn
  lift_lets
  intro u0
  have h1 : Keeps s0 u0 := by
    unfold u0
    refine begin_keeps ?_
    exact hk
  clear_value u0
  intro u2
  have h3 : Keeps s0 u2 := by
    unfold u2
    refine Keeps.live ?_ (fun hb4 => ?_)
    · exact h1
    · refine bankWf_bankWrite ?_ _ _
      assumption
  clear_value u2
  intro u5
  clear_value u5
  intro u6
  clear_value u6
  refine KeepsO.next ?_
  refine Keeps.ite ?_ ?_
  · exact h1
  · refine emit_keeps ?_
    refine Keeps.other ?_
    exact h3

theorem inReset_keeps {s0 : State} {s : State} (hk : Keeps s0 s) :
    Keeps s0 (inReset s) := by
  unfold inReset
  lift_lets
  intro u0
  have h1 : Keeps s0 u0 := by
    unfold u0
    refine dropLoad_keeps ?_
    exact hk
  clear_value u0
  intro u2
  clear_value u2
  intro u3
  clear_value u3
  refine Keeps.cleared ?_ (fun hb4 => ?_)
  · exact h1
  · refine bankWf_keptLive ?_
    assumption

theorem outputsDown_keeps {s0 : State} {s : State} (hk : Keeps s0 s) :
    Keeps s0 (outputsDown s) := by
  unfold outputsDown
  lift_lets
  intro u0
  have h1 : Keeps s0 u0 := by
    unfold u0
    refine Keeps.foldl _ ?_ (fun x2 a3 hx4 => ?_)
    · exact hk
    · refine Keeps.ite ?_ ?_
      · refine emit_keeps ?_
        exact hx4
      · exact hx4
  clear_value u0
  intro u5
  have h6 : Keeps s0 u5 := by
    unfold u5
    refine Keeps.ite ?_ ?_
    · refine emit_keeps ?_
      exact h1
    · exact h1
  clear_value u5
  intro u7
  have h8 : Keeps s0 u7 := by
    unfold u7
    refine Keeps.ite ?_ ?_
    · refine emit_keeps ?_
      exact h6
    · exact h6
  clear_value u7
  intro u9
  have h10 : Keeps s0 u9 := by
    unfold u9
    refine Keeps.ite ?_ ?_
    · refine emit_keeps ?_
      exact h8
    · exact h8
  clear_value u9
  intro u11
  clear_value u11
  intro u12
  have h13 : Keeps s0 u12 := by
    unfold u12
    refine Keeps.other ?_
    exact h10
  clear_value u12
  refine emit_keeps ?_
  refine emit_keeps ?_
  exact h13

theorem cutShort_keeps {s0 : State} {s : State} (hk : Keeps s0 s) :
    Keeps s0 (cutShort s) := by
  unfold cutShort
  lift_lets
  intro u0
  clear_value u0
  refine Keeps.ite ?_ ?_
  · exact hk
  · rcases e3 : fresh s with ⟨a1, a2⟩
    dsimp only
    refine setFld_keeps ?_
    refine setFld_keeps ?_
    refine Keeps.snd_of e3 ?_
    refine fresh_keeps ?_
    exact hk

theorem powerLost_keeps {s0 : State} {s : State} (hk : Keeps s0 s) :
    Keeps s0 (powerLost s) := by
  unfold powerLost
  lift_lets
  intro u0
  have h1 : Keeps s0 u0 := by
    unfold u0
    refine inReset_keeps ?_
    refine outputsDown_keeps ?_
    refine cutShort_keeps ?_
    exact hk
  clear_value u0
  intro u2
  clear_value u2
  refine Keeps.other ?_
  exact h1

theorem execVinBelowPor_keeps {s0 : State} {t : ℕ} {s : State} (hk : Keeps s0 s) :
    KeepsO s0 (execVinBelowPor t s) := by
  unfold execVinBelowPor
  lift_lets
  intro u0
  have h1 : Keeps s0 u0 := by
    unfold u0
    refine begin_keeps ?_
    exact hk
  clear_value u0
  refine KeepsO.next ?_
  refine Keeps.ite ?_ ?_
  · exact h1
  · refine powerLost_keeps ?_
    exact h1

theorem assertReset_keeps {s0 : State} {s : State} {self : Option ℕ} {ext : Option ℕ} (hk : Keeps s0 s) :
    Keeps s0 (assertReset s self ext) := by
  unfold assertReset
  lift_lets
  intro u0
  have h1 : Keeps s0 u0 := by
    unfold u0
    split
    · rename_i q2 q3
      refine setFld_keeps ?_
      refine setFld_keeps ?_
      exact hk
    · rename_i q4
      exact hk
  intro u5
  have h6 : Keeps s0 u5 := by
    unfold u5
    refine Keeps.ite ?_ ?_
    · refine setFld_keeps ?_
      exact h1
    · exact h1
  intro u7
  have h8 : Keeps s0 u7 := by
    unfold u7
    split
    · rename_i q9
      exact h6
    · rename_i q10 q11 q12
      refine setFld_keeps ?_
      exact h6
    · rename_i q13
      exact h6
  intro u14
  clear_value u14
  intro u15
  have h16 : Keeps s0 u15 := by
    unfold u15
    refine inReset_keeps ?_
    refine outputsDown_keeps ?_
    refine cutShort_keeps ?_
    exact h8
  clear_value u15
  intro u17
  clear_value u17
  refine Keeps.ite ?_ ?_
  · exact h8
  · refine Keeps.ite ?_ ?_
    · refine Keeps.other ?_
      exact h8
    · refine emit_keeps ?_
      refine Keeps.other ?_
      exact h16

theorem execResetNLow_keeps {s0 : State} {t : ℕ} {ns : ℕ} {taken : Bool} {s : State} (hk : Keeps s0 s) :
    KeepsO s0 (execResetNLow t ns taken s) := by
  unfold execResetNLow
  lift_lets
  intro u0
  have h1 : Keeps s0 u0 := by
    unfold u0
    refine begin_keeps ?_
    exact hk
  clear_value u0
  intro u2
  clear_value u2
  refine KeepsO.next ?_
  refine Keeps.ite ?_ ?_
  · refine assertReset_keeps ?_
    exact h1
  · refine Keeps.ite ?_ ?_
    · refine assertReset_keeps ?_
      exact h1
    · exact h1

theorem execSelfRefreshTimeout_keeps {s0 : State} {t : ℕ} {s : State} (hk : Keeps s0 s) :
    KeepsO s0 (execSelfRefreshTimeout t s) := by
  unfold execSelfRefreshTimeout
  lift_lets
  intro u0
  have h1 : Keeps s0 u0 := by
    unfold u0
    refine begin_keeps ?_
    exact hk
  clear_value u0
  refine KeepsO.next ?_
  refine Keeps.ite ?_ ?_
  · refine setFld_keeps ?_
    exact h1
  · exact h1

theorem execResetRelease_keeps {s0 : State} {t : ℕ} {s : State} (hk : Keeps s0 s) :
    KeepsO s0 (execResetRelease t s) := by
  unfold execResetRelease
  lift_lets
  intro u0
  have h1 : Keeps s0 u0 := by
    unfold u0
    refine begin_keeps ?_
    exact hk
  clear_value u0
  intro u2
  clear_value u2
  intro u3
  have h4 : Keeps s0 u3 := by
    unfold u3
    refine setFld_keeps ?_
    exact h1
  clear_value u3
  intro u5
  clear_value u5
  intro u6
  clear_value u6
  intro u7
  clear_value u7
  intro u8
  clear_value u8
  refine KeepsO.next ?_
  refine Keeps.ite ?_ ?_
  · exact h1
  · refine emit_keeps ?_
    refine Keeps.other ?_
    exact h4

theorem failStart_keeps {s0 : State} {s : State} {step : ℕ} (hk : Keeps s0 s) :
    Keeps s0 (failStart s step) := by
  unfold failStart
  lift_lets
  intro u0
  have h1 : Keeps s0 u0 := by
    unfold u0
    refine setFld_keeps ?_
    exact hk
  clear_value u0
  intro u2
  clear_value u2
  intro u3
  have h4 : Keeps s0 u3 := by
    unfold u3
    refine Keeps.other ?_
    exact h1
  clear_value u3
  refine assertReset_keeps ?_
  exact h4

theorem stepStrap_keeps {s0 : State} {s : State} {info : StartInfo} (hk : Keeps s0 s) :
    Keeps s0 (stepStrap s info) := by
  unfold stepStrap
  split
  · rename_i q0 q1
    lift_lets
    intro u2
    have h3 : Keeps s0 u2 := by
      unfold u2
      refine raise_keeps ?_
      refine sticky_keeps ?_
      exact hk
    clear_value u2
    intro u4
    clear_value u4
    intro u5
    clear_value u5
    intro u6
    clear_value u6
    intro u7
    clear_value u7
    refine Keeps.other ?_
    exact h3
  · rename_i q9 q10 q11
    lift_lets
    intro u12
    have h13 : Keeps s0 u12 := by
      unfold u12
      refine setFld_keeps ?_
      refine setFld_keeps ?_
      exact hk
    clear_value u12
    intro u14
    have h15 : Keeps s0 u14 := by
      unfold u14
      refine Keeps.ite ?_ ?_
      · refine raise_keeps ?_
        refine sticky_keeps ?_
        exact h13
      · exact h13
    clear_value u14
    intro u16
    clear_value u16
    intro u17
    clear_value u17
    intro u18
    clear_value u18
    intro u19
    clear_value u19
    intro u20
    clear_value u20
    refine Keeps.other ?_
    exact h15

theorem stepFuses_keeps {s0 : State} {s : State} {info : StartInfo} (hk : Keeps s0 s) :
    Keeps s0 (stepFuses s info) := by
  unfold stepFuses
  lift_lets
  intro u0
  have h1 : Keeps s0 u0 := by
    unfold u0
    refine Keeps.ite ?_ ?_
    · refine raise_keeps ?_
      refine sticky_keeps ?_
      exact hk
    · exact hk
  clear_value u0
  refine Keeps.ite ?_ ?_
  · exact h1
  · refine setFld_keeps ?_
    exact h1

theorem clearLineCounters_keeps {s0 : State} {s : State} (hk : Keeps s0 s) :
    Keeps s0 (clearLineCounters s) := by
  unfold clearLineCounters
  refine Keeps.live ?_ (fun hb0 => ?_)
  · exact hk
  · refine bankWf_bankKeep ?_ _
    assumption

theorem stepFirmware_keeps {s0 : State} {s : State} {info : StartInfo} {warm : Bool} (hk : Keeps s0 s) :
    KeepsQ s0 (stepFirmware s info warm) := by
  unfold stepFirmware
  lift_lets
  intro u0
  clear_value u0
  intro u1
  have h2 : Keeps s0 u1 := by
    unfold u1
    refine Keeps.ite ?_ ?_
    · refine raise_keeps ?_
      exact hk
    · exact hk
  clear_value u1
  intro u3
  have h4 : ∀ x a1, Keeps s0 x → Keeps s0 (u3 x a1) := by
    intro x5 a6 hx7
    unfold u3
    dsimp only
    refine setFld_keeps ?_
    refine Keeps.other ?_
    exact hx7
  clear_value u3
  intro u9
  clear_value u9
  split
  · rename_i q10
    refine KeepsQ.mk ?_
    refine h4 _ _ ?_
    exact h2
  · rename_i q11
    split
    · rename_i q12
      refine KeepsQ.mk ?_
      refine raise_keeps ?_
      refine sticky_keeps ?_
      refine h4 _ _ ?_
      exact h2
    · rename_i q13
      trivial

theorem pastFaults_keeps {s0 : State} {s : State} (hk : Keeps s0 s) :
    Keeps s0 (pastFaults s) := by
  unfold pastFaults
  lift_lets
  intro u0
  clear_value u0
  intro u1
  have h2 : Keeps s0 u1 := by
    unfold u1
    split
    · rename_i q3 q4 q5
      refine raiseAt_keeps ?_
      refine Keeps.other ?_
      exact hk
    · rename_i q7 q8
      exact hk
  clear_value u1
  intro u9
  clear_value u9
  intro u10
  have h11 : Keeps s0 u10 := by
    unfold u10
    split
    · rename_i q12 q13 q14
      refine raise_keeps ?_
      refine sticky_keeps ?_
      refine Keeps.other ?_
      exact h2
    · rename_i q16 q17
      exact h2
  clear_value u10
  intro u18
  clear_value u18
  intro u19
  clear_value u19
  intro u20
  have h21 : Keeps s0 u20 := by
    unfold u20
    refine Keeps.ite ?_ ?_
    · refine raise_keeps ?_
      refine sticky_keeps ?_
      refine Keeps.other ?_
      exact h11
    · exact h11
  clear_value u20
  intro u23
  clear_value u23
  refine Keeps.ite ?_ ?_
  · refine raise_keeps ?_
    refine sticky_keeps ?_
    refine Keeps.other ?_
    exact h21
  · exact h21

theorem pastChange_keeps {s0 : State} {s : State} {old : SysSt} {new : SysSt} (hk : Keeps s0 s) :
    Keeps s0 (pastChange s old new) := by
  unfold pastChange
  lift_lets
  intro u0
  clear_value u0
  intro u1
  clear_value u1
  refine Keeps.ite ?_ ?_
  · refine logEvent_keeps ?_
    exact hk
  · refine Keeps.other ?_
    exact hk

theorem stepFirmwareStart_keeps {s0 : State} {s : State} {info : StartInfo} {warm : Bool} (hk : Keeps s0 s) :
    Keeps s0 (stepFirmwareStart s info warm) := by
  unfold stepFirmwareStart
  lift_lets
  intro u0
  have h1 : Keeps s0 u0 := by
    unfold u0
    refine setFld_keeps ?_
    exact hk
  clear_value u0
  intro u2
  have h3 : Keeps s0 u2 := by
    unfold u2
    refine pastFaults_keeps ?_
    refine doorbell_keeps ?_
    refine pastChange_keeps ?_
    refine pastChange_keeps ?_
    exact h1
  clear_value u2
  intro u4
  have h5 : Keeps s0 u4 := by
    unfold u4
    refine raise_keeps ?_
    exact h3
  clear_value u4
  intro u6
  have h7 : Keeps s0 u6 := by
    unfold u6
    refine Keeps.foldl _ ?_ (fun x8 a9 hx10 => ?_)
    · exact h5
    · refine moduleReset_keeps ?_
      exact hx10
  clear_value u6
  intro u11
  have h12 : Keeps s0 u11 := by
    unfold u11
    refine Keeps.ite ?_ ?_
    · exact h7
    · rcases e15 : fresh u6 with ⟨a13, a14⟩
      dsimp only
      refine raise_keeps ?_
      refine sticky_keeps ?_
      refine Keeps.other ?_
      refine Keeps.snd_of e15 ?_
      refine fresh_keeps ?_
      exact h7
  clear_value u11
  intro u17
  clear_value u17
  intro u18
  clear_value u18
  intro u19
  clear_value u19
  intro u20
  clear_value u20
  refine Keeps.other ?_
  exact h12

theorem dropTrust_keeps {s0 : State} {s : State} {x : ℕ × ℕ} (hk : Keeps s0 s) :
    Keeps s0 (dropTrust s x) := by
  unfold dropTrust
  lift_lets
  intro u0
  clear_value u0
  intro u1
  have h2 : Keeps s0 u1 := by
    unfold u1
    split
    · rename_i q3 q4
      refine Keeps.other ?_
      exact hk
    · rename_i q6 q7
      refine Keeps.other ?_
      exact hk
    · rename_i q9 q10 q11
      refine Keeps.other ?_
      exact hk
  clear_value u1
  refine raise_keeps ?_
  exact h2

theorem stepMram_keeps {s0 : State} {s : State} {info : StartInfo} (hk : Keeps s0 s) :
    Keeps s0 (stepMram s info) := by
  unfold stepMram
  lift_lets
  intro u0
  have h1 : Keeps s0 u0 := by
    unfold u0
    refine Keeps.foldl _ ?_ (fun x2 a3 hx4 => ?_)
    · exact hk
    · refine dropTrust_keeps ?_
      exact hx4
  clear_value u0
  intro u5
  clear_value u5
  intro u6
  have h7 : Keeps s0 u6 := by
    unfold u6
    refine Keeps.other ?_
    exact h1
  clear_value u6
  split
  · rename_i q9 q10 q11
    refine Keeps.other ?_
    exact h7
  · rename_i q13 q14
    refine sticky_keeps ?_
    refine Keeps.other ?_
    exact h7

theorem effective_keeps {s0 : State} {s : State} (hk : Keeps s0 s) :
    Keeps s0 (effective s) := by
  unfold effective
  refine Keeps.effAll ?_
  exact hk

theorem enterRecovery_keeps {s0 : State} {s : State} {info : StartInfo} {warm : Bool} {cause : ℕ} (hk : Keeps s0 s) :
    Keeps s0 (enterRecovery s info warm cause) := by
  unfold enterRecovery
  lift_lets
  intro u0
  have h1 : Keeps s0 u0 := by
    unfold u0
    refine blowFuses_keeps ?_
    refine setFld_keeps ?_
    refine setFld_keeps ?_
    exact hk
  clear_value u0
  intro u2
  have h3 : Keeps s0 u2 := by
    unfold u2
    refine Keeps.other ?_
    exact h1
  clear_value u2
  intro u5
  have h6 : Keeps s0 u5 := by
    unfold u5
    refine stepFirmwareStart_keeps ?_
    refine stepMram_keeps ?_
    refine KeepsQ.getD ?_ ?_
    · refine stepFirmware_keeps ?_
      exact h3
    · exact h3
  clear_value u5
  intro u7
  have h8 : Keeps s0 u7 := by
    unfold u7
    refine audit_keeps ?_
    exact h6
  clear_value u7
  intro u9
  have h10 : Keeps s0 u9 := by
    unfold u9
    refine raise_keeps ?_
    exact h8
  clear_value u9
  intro u11
  have h12 : Keeps s0 u11 := by
    unfold u11
    refine noteCertified_keeps ?_
    refine effective_keeps ?_
    refine setState_keeps ?_
    exact h10
  clear_value u11
  intro u13
  have h14 : Keeps s0 u13 := by
    unfold u13
    refine logQueued_keeps ?_
    exact h12
  clear_value u13
  intro u15
  clear_value u15
  refine Keeps.other ?_
  exact h14

theorem applyMaps_keeps {s0 : State} {s : State} (hk : Keeps s0 s) :
    Keeps s0 (applyMaps s) := by
  unfold applyMaps
  refine Keeps.other ?_
  exact hk

theorem trainChannel_keeps {s0 : State} {s : State} {info : StartInfo} {n : ℕ} (hk : Keeps s0 s) :
    Keeps s0 (trainChannel s info n) := by
  unfold trainChannel
  lift_lets
  intro u0
  clear_value u0
  intro u1
  clear_value u1
  intro u2
  have h3 : Keeps s0 u2 := by
    unfold u2
    refine setDram_keeps ?_
    exact hk
  clear_value u2
  intro u4
  have h5 : Keeps s0 u4 := by
    unfold u4
    refine setFld_keeps ?_
    refine setFld_keeps ?_
    exact h3
  clear_value u4
  refine judgeEyes_keeps ?_
  exact h5

theorem emptyStore_keeps {s0 : State} {s : State} (hk : Keeps s0 s) :
    Keeps s0 (emptyStore s) := by
  unfold emptyStore
  lift_lets
  intro u0
  clear_value u0
  intro u1
  clear_value u1
  intro u2
  clear_value u2
  refine Keeps.other ?_
  exact hk

theorem warmStore_keeps {s0 : State} {s : State} {info : StartInfo} (hk : Keeps s0 s) :
    Keeps s0 (warmStore s info) := by
  unfold warmStore
  lift_lets
  intro u0
  have h1 : Keeps s0 u0 := by
    unfold u0
    refine Keeps.foldl _ ?_ (fun x2 a3 hx4 => ?_)
    · exact hk
    · refine setDram_keeps ?_
      exact hx4
  clear_value u0
  intro u5
  have h6 : Keeps s0 u5 := by
    unfold u5
    refine Keeps.foldl _ ?_ (fun x7 a8 hx9 => ?_)
    · exact h1
    · refine trainChannel_keeps ?_
      refine raise_keeps ?_
      exact hx9
  clear_value u5
  intro u10
  clear_value u10
  refine Keeps.ite ?_ ?_
  · refine emptyStore_keeps ?_
    refine raise_keeps ?_
    refine raise_keeps ?_
    exact h6
  · refine Keeps.ite ?_ ?_
    · exact h6
    · refine emptyStore_keeps ?_
      refine raise_keeps ?_
      exact h6

theorem coldLanes_keeps {s0 : State} {s : State} {info : StartInfo} (hk : Keeps s0 s) :
    Keeps s0 (coldLanes s info) := by
  unfold coldLanes
  lift_lets
  intro u0
  clear_value u0
  intro u1
  have h2 : Keeps s0 u1 := by
    unfold u1
    refine Keeps.other ?_
    exact hk
  clear_value u1
  refine Keeps.foldl _ ?_ (fun x4 a5 hx6 => ?_)
  · exact h2
  · lift_lets
    intro u7
    clear_value u7
    refine setFld_keeps ?_
    refine setFld_keeps ?_
    exact hx6

theorem coldStore_keeps {s0 : State} {s : State} {info : StartInfo} (hk : Keeps s0 s) :
    Keeps s0 (coldStore s info) := by
  unfold coldStore
  refine Keeps.foldl _ ?_ (fun x0 a1 hx2 => ?_)
  · refine emptyStore_keeps ?_
    exact hk
  · refine trainChannel_keeps ?_
    exact hx2

theorem takeFrameStore_keeps {s0 : State} {s : State} {k : ℕ} (hk : Keeps s0 s) :
    Keeps s0 (takeFrameStore s k) := by
  unfold takeFrameStore
  lift_lets
  intro u0
  clear_value u0
  intro u1
  clear_value u1
  refine Keeps.ite ?_ ?_
  · exact hk
  · refine Keeps.ite ?_ ?_
    · refine sticky_keeps ?_
      exact hk
    · refine Keeps.other ?_
      exact hk

theorem startPairing_keeps {s0 : State} {s : State} (hk : Keeps s0 s) :
    Keeps s0 (startPairing s) := by
  unfold startPairing
  refine Keeps.ite ?_ ?_
  · refine doorbell_keeps ?_
    refine Keeps.other ?_
    exact hk
  · refine Keeps.ite ?_ ?_
    · exact hk
    · refine doorbell_keeps ?_
      refine emit_keeps ?_
      refine Keeps.other ?_
      exact hk

theorem startSummary_keeps {s0 : State} {s : State} (hk : Keeps s0 s) :
    Keeps s0 (startSummary s) := by
  unfold startSummary
  refine Keeps.foldl _ ?_ (fun x0 a1 hx2 => ?_)
  · exact hk
  · lift_lets
    intro u3
    clear_value u3
    refine Keeps.ite ?_ ?_
    · refine setSummary_keeps ?_
      exact hx2
    · exact hx2

theorem reachReady_keeps {s0 : State} {s : State} (hk : Keeps s0 s) :
    Keeps s0 (reachReady s) := by
  unfold reachReady
  lift_lets
  intro u0
  have h1 : Keeps s0 u0 := by
    unfold u0
    refine Keeps.foldl _ ?_ (fun x2 a3 hx4 => ?_)
    · refine startPairing_keeps ?_
      refine effective_keeps ?_
      exact hk
    · refine takeFrameStore_keeps ?_
      exact hx4
  clear_value u0
  intro u5
  have h6 : Keeps s0 u5 := by
    unfold u5
    refine changeSource_keeps ?_
    exact h1
  clear_value u5
  intro u7
  have h8 : Keeps s0 u7 := by
    unfold u7
    refine Keeps.foldl _ ?_ (fun x9 a10 hx11 => ?_)
    · exact h6
    · lift_lets
      intro u12
      clear_value u12
      refine setPathNow_keeps ?_
      refine setChan_keeps ?_
      exact hx11
  clear_value u7
  intro u13
  clear_value u13
  intro u14
  have h15 : Keeps s0 u14 := by
    unfold u14
    refine startGroups_keeps ?_
    refine Keeps.other ?_
    exact h8
  clear_value u14
  intro u17
  have h18 : Keeps s0 u17 := by
    unfold u17
    refine startSummary_keeps ?_
    refine setFld_keeps ?_
    exact h15
  clear_value u17
  refine emit_keeps ?_
  refine noteCertified_keeps ?_
  refine setState_keeps ?_
  exact h18

theorem stepsOn_keeps {s0 : State} {s : State} {info : StartInfo} {warm : Bool} (hk : Keeps s0 s) :
    Keeps s0 (stepsOn s info warm) := by
  unfold stepsOn
  lift_lets
  intro u0
  clear_value u0
  intro u1
  have h2 : Keeps s0 u1 := by
    unfold u1
    refine blowFuses_keeps ?_
    refine setFld_keeps ?_
    exact hk
  clear_value u1
  refine Keeps.ite ?_ ?_
  · refine failStart_keeps ?_
    exact h2
  · split
    · rename_i q3 q4
      refine enterRecovery_keeps ?_
      refine setFld_keeps ?_
      exact h2
    · rename_i q5 q6 q7
      lift_lets
      intro u8
      have h9 : Keeps s0 u8 := by
        unfold u8
        refine stepMram_keeps ?_
        refine KeepsQ.of q7 ?_
        refine stepFirmware_keeps ?_
        exact h2
      clear_value u8
      intro u10
      have h11 : Keeps s0 u10 := by
        unfold u10
        refine Keeps.ite ?_ ?_
        · refine applyMaps_keeps ?_
          refine warmStore_keeps ?_
          exact h9
        · refine coldLanes_keeps ?_
          refine coldStore_keeps ?_
          exact h9
      clear_value u10
      intro u12
      have h13 : Keeps s0 u12 := by
        unfold u12
        refine stepFirmwareStart_keeps ?_
        exact h11
      clear_value u12
      refine Keeps.ite ?_ ?_
      · refine failStart_keeps ?_
        exact h9
      · refine reachReady_keeps ?_
        refine audit_keeps ?_
        exact h13

theorem execStart_keeps {s0 : State} {t : ℕ} {info : StartInfo} {s : State} (hk : Keeps s0 s) :
    KeepsO s0 (execStart t info s) := by
  unfold execStart
  lift_lets
  intro u0
  have h1 : Keeps s0 u0 := by
    unfold u0
    refine begin_keeps ?_
    exact hk
  clear_value u0
  intro u2
  have h3 : Keeps s0 u2 := by
    unfold u2
    refine stepStrap_keeps ?_
    refine stepFuses_keeps ?_
    exact h1
  clear_value u2
  intro u4
  clear_value u4
  intro u5
  clear_value u5
  intro u6
  have h7 : Keeps s0 u6 := by
    unfold u6
    refine Keeps.ite ?_ ?_
    · exact h3
    · refine clearLineCounters_keeps ?_
      exact h3
  clear_value u6
  refine KeepsO.next ?_
  refine Keeps.ite ?_ ?_
  · exact h1
  · refine Keeps.ite ?_ ?_
    · refine failStart_keeps ?_
      exact h1
    · refine Keeps.ite ?_ ?_
      · refine stepsOn_keeps ?_
        exact h7
      · refine enterRecovery_keeps ?_
        exact h7

theorem execStartTimeout_keeps {s0 : State} {t : ℕ} {s : State} (hk : Keeps s0 s) :
    KeepsO s0 (execStartTimeout t s) := by
  unfold execStartTimeout
  lift_lets
  intro u0
  have h1 : Keeps s0 u0 := by
    unfold u0
    refine begin_keeps ?_
    exact hk
  clear_value u0
  intro u2
  have h3 : Keeps s0 u2 := by
    unfold u2
    refine cutShort_keeps ?_
    exact h1
  clear_value u2
  refine KeepsO.next ?_
  refine Keeps.ite ?_ ?_
  · exact h1
  · refine failStart_keeps ?_
    exact h3

theorem execWatchdogExpire_keeps {s0 : State} {t : ℕ} {s : State} (hk : Keeps s0 s) :
    KeepsO s0 (execWatchdogExpire t s) := by
  unfold execWatchdogExpire
  lift_lets
  intro u0
  have h1 : Keeps s0 u0 := by
    unfold u0
    refine begin_keeps ?_
    exact hk
  clear_value u0
  intro u2
  clear_value u2
  refine KeepsO.next ?_
  refine Keeps.ite ?_ ?_
  · exact h1
  · refine assertReset_keeps ?_
    refine Keeps.other ?_
    exact h1

theorem execLockstepMismatch_keeps {s0 : State} {t : ℕ} {s : State} (hk : Keeps s0 s) :
    KeepsO s0 (execLockstepMismatch t s) := by
  unfold execLockstepMismatch
  lift_lets
  intro u0
  have h1 : Keeps s0 u0 := by
    unfold u0
    refine begin_keeps ?_
    exact hk
  clear_value u0
  intro u2
  clear_value u2
  refine KeepsO.next ?_
  refine Keeps.ite ?_ ?_
  · exact h1
  · refine assertReset_keeps ?_
    refine Keeps.other ?_
    exact h1

theorem execWarmArm_keeps {s0 : State} {t : ℕ} {ch : Fin 6} {tag : ℕ} {s : State} (hk : Keeps s0 s) :
    KeepsO s0 (execWarmArm t ch tag s) := by
  unfold execWarmArm
  refine KeepsO.next ?_
  refine message_keeps ?_ (fun x0 hx1 => ?_)
  · refine begin_keeps ?_
    exact hk
  · refine actWarmArm_keeps ?_
    exact hx1

theorem execWarmArmExpire_keeps {s0 : State} {t : ℕ} {s : State} (hk : Keeps s0 s) :
    KeepsO s0 (execWarmArmExpire t s) := by
  unfold execWarmArmExpire
  lift_lets
  intro u0
  have h1 : Keeps s0 u0 := by
    unfold u0
    refine begin_keeps ?_
    exact hk
  clear_value u0
  intro u2
  clear_value u2
  refine KeepsO.next ?_
  split
  · rename_i q3 q4 q5
    refine Keeps.ite ?_ ?_
    · refine setFld_keeps ?_
      refine Keeps.other ?_
      exact h1
    · exact h1
  · rename_i q7 q8
    exact h1

theorem fatal_keeps {s0 : State} {s : State} {b : ℕ} (hk : Keeps s0 s) :
    Keeps s0 (fatal s b) := by
  unfold fatal
  refine Keeps.ite ?_ ?_
  · exact hk
  · lift_lets
    intro u0
    have h1 : Keeps s0 u0 := by
      unfold u0
      refine sticky_keeps ?_
      exact hk
    clear_value u0
    intro u2
    clear_value u2
    intro u3
    have h4 : Keeps s0 u3 := by
      unfold u3
      refine writeEvent_keeps ?_
      exact h1
    clear_value u3
    intro u5
    have h6 : Keeps s0 u5 := by
      unfold u5
      refine Keeps.ite ?_ ?_
      · exact h4
      · refine doorbell_keeps ?_
        exact h4
    clear_value u5
    intro u7
    have h8 : Keeps s0 u7 := by
      unfold u7
      refine releaseLease_keeps ?_
      exact h6
    clear_value u7
    refine Keeps.ite ?_ ?_
    · refine orderlyStop_keeps ?_
      exact h8
    · refine assertReset_keeps ?_
      exact h8

theorem execFatalFault_keeps {s0 : State} {t : ℕ} {b : Fin 5} {s : State} (hk : Keeps s0 s) :
    KeepsO s0 (execFatalFault t b s) := by
  unfold execFatalFault
  refine KeepsO.next ?_
  refine fatal_keeps ?_
  refine begin_keeps ?_
  exact hk

end Sys2Proof.Laws
end

