-- ==== Sys2Proof/Laws/KeepsPick.lean ====
section
/-!
SUPPORT. Every operation and command of temperature, supply, register access and the pick boundary (chapters 01, 12, 16, 18) keeps the queue and the canonical
banks, one lemma each.
-/
namespace Sys2Proof.Laws

open Sys2Proof.Machine

theorem beginPick_keeps {s0 : State} {s : State} (hk : Keeps s0 s) :
    Keeps s0 (beginPick s) := by
  unfold beginPick
  lift_lets
  intro u0
  clear_value u0
  intro u1
  clear_value u1
  refine Keeps.other ?_
  exact hk

theorem stepEvents_keeps {s0 : State} {s : State} (hk : Keeps s0 s) :
    Keeps s0 (stepEvents s) := by
  unfold stepEvents
  lift_lets
  intro u0
  have h1 : Keeps s0 u0 := by
    unfold u0
    refine flushEvents_keeps ?_
    exact hk
  clear_value u0
  intro u2
  clear_value u2
  refine Keeps.other ?_
  exact h1

theorem sampleCounts_keeps {s0 : State} {s : State} (hk : Keeps s0 s) :
    Keeps s0 (sampleCounts s) := by
  unfold sampleCounts
  refine Keeps.other ?_
  exact hk

theorem noteVin_keeps {s0 : State} {s : State} {mv : ℕ} (hk : Keeps s0 s) :
    Keeps s0 (noteVin s mv) := by
  unfold noteVin
  refine setFld_keeps ?_
  exact hk

theorem samplePower_keeps {s0 : State} {s : State} {x : PickInputs} (hk : Keeps s0 s) :
    Keeps s0 (samplePower s x) := by
  unfold samplePower
  lift_lets
  intro u0
  have h1 : Keeps s0 u0 := by
    unfold u0
    refine noteVin_keeps ?_
    refine setFld_keeps ?_
    exact hk
  clear_value u0
  intro u2
  have h3 : Keeps s0 u2 := by
    unfold u2
    refine setFld_keeps ?_
    refine setFld_keeps ?_
    exact h1
  clear_value u2
  intro u4
  have h5 : Keeps s0 u4 := by
    unfold u4
    refine setFld_keeps ?_
    exact h3
  clear_value u4
  intro u6
  clear_value u6
  refine Keeps.other ?_
  exact h5

theorem setSensor_keeps {s0 : State} {s : State} {k : ℕ} {f : Sensor → Sensor} (hk : Keeps s0 s) :
    Keeps s0 (setSensor s k f) := by
  unfold setSensor
  refine Keeps.other ?_
  exact hk

theorem takeReadings_keeps {s0 : State} {s : State} {xs : List TempIn} (hk : Keeps s0 s) :
    Keeps s0 (takeReadings s xs) := by
  unfold takeReadings
  refine Keeps.foldl _ ?_ (fun x0 a1 hx2 => ?_)
  · exact hk
  · split
    · rename_i q3 q4 q5
      refine setSensor_keeps ?_
      exact hx2
    · rename_i q6 q7
      exact hx2

theorem judgeSensor_keeps {s0 : State} {s : State} {x : TempIn} {k : ℕ} (hk : Keeps s0 s) :
    Keeps s0 (judgeSensor s x k) := by
  unfold judgeSensor
  lift_lets
  intro u0
  clear_value u0
  intro u1
  clear_value u1
  intro u2
  have h3 : Keeps s0 u2 := by
    unfold u2
    refine setSensor_keeps ?_
    exact hk
  clear_value u2
  intro u4
  have h5 : Keeps s0 u4 := by
    unfold u4
    refine sticky_keeps ?_
    refine sticky_keeps ?_
    exact h3
  clear_value u4
  refine Keeps.ite ?_ ?_
  · split
    · rename_i q6 q7 q8
      refine setSensor_keeps ?_
      exact hk
    · rename_i q9 q10
      exact hk
  · refine Keeps.ite ?_ ?_
    · exact hk
    · refine raise_keeps ?_
      exact h5

theorem beginHandover_keeps {s0 : State} {s : State} (hk : Keeps s0 s) :
    Keeps s0 (beginHandover s) := by
  unfold beginHandover
  refine Keeps.other ?_
  exact hk

theorem stopStandby_keeps {s0 : State} {s : State} (hk : Keeps s0 s) :
    Keeps s0 (stopStandby s) := by
  unfold stopStandby
  lift_lets
  intro u0
  have h1 : Keeps s0 u0 := by
    unfold u0
    refine raise_keeps ?_
    refine stopFetch_keeps ?_
    exact hk
  clear_value u0
  intro u2
  clear_value u2
  refine Keeps.other ?_
  exact h1

theorem thermalStop_keeps {s0 : State} {s : State} (hk : Keeps s0 s) :
    Keeps s0 (thermalStop s) := by
  unfold thermalStop
  lift_lets
  intro u0
  clear_value u0
  intro u1
  have h2 : Keeps s0 u1 := by
    unfold u1
    refine sticky_keeps ?_
    refine Keeps.other ?_
    exact hk
  clear_value u1
  intro u4
  clear_value u4
  intro u5
  have h6 : Keeps s0 u5 := by
    unfold u5
    refine raise_keeps ?_
    exact h2
  clear_value u5
  refine Keeps.ite ?_ ?_
  · refine Keeps.ite ?_ ?_
    · exact h6
    · refine beginHandover_keeps ?_
      exact h6
  · refine Keeps.ite ?_ ?_
    · refine stopStandby_keeps ?_
      exact h2
    · refine orderlyStop_keeps ?_
      refine raise_keeps ?_
      exact h2

theorem resumeStandby_keeps {s0 : State} {s : State} (hk : Keeps s0 s) :
    Keeps s0 (resumeStandby s) := by
  unfold resumeStandby
  lift_lets
  intro u0
  clear_value u0
  intro u1
  have h2 : Keeps s0 u1 := by
    unfold u1
    refine Keeps.other ?_
    exact hk
  intro u4
  clear_value u4
  intro u5
  have h6 : Keeps s0 u5 := by
    unfold u5
    refine Keeps.ite ?_ ?_
    · refine Keeps.foldl _ ?_ (fun x7 a8 hx9 => ?_)
      · refine Keeps.foldl _ ?_ (fun x10 a11 hx12 => ?_)
        · exact h2
        · refine startChan_keeps ?_
          exact hx12
      · refine fillBuffers_keeps ?_
        exact hx9
    · exact h2
  clear_value u5
  intro u13
  clear_value u13
  refine Keeps.ite ?_ ?_
  · exact h2
  · refine Keeps.ite ?_ ?_
    · refine startStage_keeps ?_
      refine Keeps.other ?_
      exact h6
    · exact h6

theorem coolDown_keeps {s0 : State} {s : State} (hk : Keeps s0 s) :
    Keeps s0 (coolDown s) := by
  unfold coolDown
  lift_lets
  intro u0
  intro u1
  clear_value u1
  intro u2
  have h3 : Keeps s0 u2 := by
    unfold u2
    refine Keeps.other ?_
    exact hk
  intro u5
  clear_value u5
  intro u6
  have h7 : Keeps s0 u6 := by
    unfold u6
    refine Keeps.ite ?_ ?_
    · refine Keeps.ite ?_ ?_
      · refine doorbell_keeps ?_
        refine emit_keeps ?_
        refine Keeps.other ?_
        exact h3
      · exact h3
    · exact hk
  clear_value u6
  refine Keeps.ite ?_ ?_
  · refine resumeStandby_keeps ?_
    exact h7
  · exact h7

theorem judgeStop_keeps {s0 : State} {s : State} (hk : Keeps s0 s) :
    Keeps s0 (judgeStop s) := by
  unfold judgeStop
  lift_lets
  intro u0
  clear_value u0
  intro u1
  clear_value u1
  intro u2
  clear_value u2
  intro u3
  have h4 : Keeps s0 u3 := by
    unfold u3
    refine Keeps.ite ?_ ?_
    · refine Keeps.ite ?_ ?_
      · exact hk
      · refine thermalStop_keeps ?_
        exact hk
    · refine Keeps.other ?_
      exact hk
  clear_value u3
  refine Keeps.ite ?_ ?_
  · refine coolDown_keeps ?_
    exact h4
  · exact h4

theorem setLevel_keeps {s0 : State} {s : State} {k : ℕ} (hk : Keeps s0 s) :
    Keeps s0 (setLevel s k) := by
  unfold setLevel
  lift_lets
  intro u0
  have h1 : Keeps s0 u0 := by
    unfold u0
    refine setFld_keeps ?_
    exact hk
  clear_value u0
  intro u2
  have h3 : Keeps s0 u2 := by
    unfold u2
    refine Keeps.ite ?_ ?_
    · refine sticky_keeps ?_
      exact h1
    · exact h1
  clear_value u2
  intro u4
  clear_value u4
  intro u5
  have h6 : Keeps s0 u5 := by
    unfold u5
    refine raise_keeps ?_
    refine Keeps.other ?_
    exact h3
  clear_value u5
  refine Keeps.ite ?_ ?_
  · refine startEye_keeps ?_
    exact h6
  · exact h6

theorem judgeLevel_keeps {s0 : State} {s : State} (hk : Keeps s0 s) :
    Keeps s0 (judgeLevel s) := by
  unfold judgeLevel
  lift_lets
  intro u0
  clear_value u0
  intro u1
  clear_value u1
  intro u2
  clear_value u2
  intro u3
  clear_value u3
  intro u4
  clear_value u4
  refine Keeps.ite ?_ ?_
  · refine setLevel_keeps ?_
    exact hk
  · refine Keeps.other ?_
    exact hk

theorem noteMax_keeps {s0 : State} {s : State} (hk : Keeps s0 s) :
    Keeps s0 (noteMax s) := by
  unfold noteMax
  rcases e2 : hottest s with ⟨a0, a1⟩
  dsimp only
  refine setFld_keeps ?_
  refine setFld_keeps ?_
  refine setFld_keeps ?_
  refine setFld_keeps ?_
  refine Keeps.other ?_
  exact hk

theorem settleValues_keeps {s0 : State} {s : State} (hk : Keeps s0 s) :
    Keeps s0 (settleValues s) := by
  unfold settleValues
  lift_lets
  intro u0
  clear_value u0
  intro u1
  clear_value u1
  intro u2
  clear_value u2
  intro u3
  clear_value u3
  rcases e6 : List.foldl (fun p k => match fresh p.1 with | (n, s) => (s, p.2 ++ [(k, Config.standIn n)])) (s, u2) u3 with ⟨a4, a5⟩
  dsimp only
  refine Keeps.foldl _ ?_ (fun x7 a8 hx9 => ?_)
  · refine Keeps.foldl_fst _ ?_ (fun x10 a11 hx12 => ?_)
    · exact hk
    · dsimp only
      refine fresh_keeps ?_
      exact hx12
  · refine setFld_keeps ?_
    refine setFld_keeps ?_
    refine setSensor_keeps ?_
    exact hx9

theorem tripEnd_keeps {s0 : State} {s : State} (hk : Keeps s0 s) :
    Keeps s0 (tripEnd s) := by
  unfold tripEnd
  refine Keeps.ite ?_ ?_
  · refine orderlyStop_keeps ?_
    exact hk
  · lift_lets
    intro u0
    have h1 : Keeps s0 u0 := by
      unfold u0
      refine stopFetch_keeps ?_
      exact hk
    clear_value u0
    intro u2
    clear_value u2
    intro u3
    have h4 : Keeps s0 u3 := by
      unfold u3
      refine Keeps.other ?_
      exact h1
    clear_value u3
    refine Keeps.ite ?_ ?_
    · refine toStandby_keeps ?_
      exact h4
    · exact h4

theorem reportTrip_keeps {s0 : State} {s : State} (hk : Keeps s0 s) :
    Keeps s0 (reportTrip s) := by
  unfold reportTrip
  split
  · rename_i q0 q1 q2 q3
    refine Keeps.ite ?_ ?_
    · refine tripEnd_keeps ?_
      refine raise_keeps ?_
      refine sticky_keeps ?_
      refine Keeps.other ?_
      exact hk
    · exact hk
  · rename_i q5 q6
    exact hk

theorem sampleTemps_keeps {s0 : State} {s : State} {xs : List TempIn} (hk : Keeps s0 s) :
    Keeps s0 (sampleTemps s xs) := by
  unfold sampleTemps
  lift_lets
  intro u0
  have h1 : Keeps s0 u0 := by
    unfold u0
    refine takeReadings_keeps ?_
    exact hk
  clear_value u0
  intro u2
  have h3 : Keeps s0 u2 := by
    unfold u2
    refine Keeps.foldl _ ?_ (fun x4 a5 hx6 => ?_)
    · exact h1
    · split
      · rename_i q7 q8 q9
        refine judgeSensor_keeps ?_
        exact hx6
      · rename_i q10 q11
        exact hx6
  clear_value u2
  refine judgeStop_keeps ?_
  refine judgeLevel_keeps ?_
  refine noteMax_keeps ?_
  refine settleValues_keeps ?_
  refine reportTrip_keeps ?_
  exact h3

theorem selfTestFail_keeps {s0 : State} {s : State} {slice : ℕ} {inPath : Bool} (hk : Keeps s0 s) :
    Keeps s0 (selfTestFail s slice inPath) := by
  unfold selfTestFail
  lift_lets
  intro u0
  have h1 : Keeps s0 u0 := by
    unfold u0
    refine raise_keeps ?_
    refine sticky_keeps ?_
    exact hk
  clear_value u0
  refine Keeps.ite ?_ ?_
  · refine changeScore_keeps ?_
    exact h1
  · refine Keeps.ite ?_ ?_
    · refine beginHandover_keeps ?_
      exact h1
    · exact h1

theorem asFailedSlice_keeps {s0 : State} {s : State} (hk : Keeps s0 s) :
    Keeps s0 (asFailedSlice s) := by
  unfold asFailedSlice
  rcases e2 : fresh s with ⟨a0, a1⟩
  dsimp only
  refine selfTestFail_keeps ?_
  refine Keeps.snd_of e2 ?_
  refine fresh_keeps ?_
  exact hk

theorem noteAon_keeps {s0 : State} {s : State} {hz : ℕ} (hk : Keeps s0 s) :
    Keeps s0 (noteAon s hz) := by
  unfold noteAon
  lift_lets
  intro u0
  have h1 : Keeps s0 u0 := by
    unfold u0
    refine setFld_keeps ?_
    exact hk
  clear_value u0
  intro u2
  clear_value u2
  intro u3
  clear_value u3
  intro u4
  clear_value u4
  intro u5
  have h6 : Keeps s0 u5 := by
    unfold u5
    refine Keeps.other ?_
    exact h1
  clear_value u5
  refine Keeps.ite ?_ ?_
  · refine asFailedSlice_keeps ?_
    refine raise_keeps ?_
    refine sticky_keeps ?_
    exact h6
  · exact h6

theorem stepSample_keeps {s0 : State} {s : State} {x : PickInputs} (hk : Keeps s0 s) :
    Keeps s0 (stepSample s x) := by
  unfold stepSample
  lift_lets
  intro u0
  have h1 : Keeps s0 u0 := by
    unfold u0
    refine sampleCounts_keeps ?_
    refine samplePower_keeps ?_
    refine sampleTemps_keeps ?_
    exact hk
  clear_value u0
  intro u2
  have h3 : Keeps s0 u2 := by
    unfold u2
    refine noteAon_keeps ?_
    refine setFld_keeps ?_
    exact h1
  clear_value u2
  split
  · rename_i q4 q5 q6 q7
    refine selfTestFail_keeps ?_
    exact h3
  · rename_i q8 q9
    exact h3

theorem warmCount_keeps {s0 : State} {s : State} (hk : Keeps s0 s) :
    Keeps s0 (warmCount s) := by
  unfold warmCount
  refine Keeps.foldl _ ?_ (fun x0 a1 hx2 => ?_)
  · exact hk
  · lift_lets
    intro u3
    clear_value u3
    refine setChan_keeps ?_
    exact hx2

theorem renewLimits_keeps {s0 : State} {s : State} (hk : Keeps s0 s) :
    Keeps s0 (renewLimits s) := by
  unfold renewLimits
  lift_lets
  intro u0
  have h1 : Keeps s0 u0 := by
    unfold u0
    refine Keeps.foldl _ ?_ (fun x2 a3 hx4 => ?_)
    · refine warmCount_keeps ?_
      exact hk
    · refine setChan_keeps ?_
      exact hx4
  clear_value u0
  intro u5
  clear_value u5
  intro u6
  clear_value u6
  intro u7
  clear_value u7
  intro u8
  clear_value u8
  intro u9
  clear_value u9
  intro u10
  clear_value u10
  refine Keeps.other ?_
  exact h1

theorem recoveryBoundary_keeps {s0 : State} {s : State} {x : PickInputs} (hk : Keeps s0 s) :
    Keeps s0 (recoveryBoundary s x) := by
  unfold recoveryBoundary
  lift_lets
  intro u0
  have h1 : Keeps s0 u0 := by
    unfold u0
    refine beginPick_keeps ?_
    refine stepSample_keeps ?_
    refine renewLimits_keeps ?_
    exact hk
  clear_value u0
  refine Keeps.effPick ?_
  exact h1

theorem sampleSticky_keeps {s0 : State} {s : State} (hk : Keeps s0 s) :
    Keeps s0 (sampleSticky s) := by
  unfold sampleSticky
  refine Keeps.other ?_
  exact hk

theorem takeLatency_keeps {s0 : State} {s : State} {x : ℕ × ℕ × ℕ} (hk : Keeps s0 s) :
    Keeps s0 (takeLatency s x) := by
  unfold takeLatency
  lift_lets
  intro u0
  have h1 : Keeps s0 u0 := by
    unfold u0
    refine noteLatency_keeps ?_
    exact hk
  clear_value u0
  refine Keeps.ite ?_ ?_
  · refine raise_keeps ?_
    refine bump_keeps ?_
    refine sticky_keeps ?_
    exact h1
  · exact h1

theorem sampleStore_keeps {s0 : State} {s : State} {x : PickInputs} (hk : Keeps s0 s) :
    Keeps s0 (sampleStore s x) := by
  unfold sampleStore
  lift_lets
  intro u0
  have h1 : Keeps s0 u0 := by
    unfold u0
    refine Keeps.foldl _ ?_ (fun x2 a3 hx4 => ?_)
    · exact hk
    · refine retrainReport_keeps ?_
      refine refreshReport_keeps ?_
      exact hx4
  clear_value u0
  refine renewLoads_keeps ?_
  refine Keeps.foldl _ ?_ (fun x5 a6 hx7 => ?_)
  · refine Keeps.foldl _ ?_ (fun x8 a9 hx10 => ?_)
    · exact h1
    · refine takeLatency_keeps ?_
      exact hx10
  · refine closeLatency_keeps ?_
    exact hx7

theorem judgeAccel_keeps {s0 : State} {s : State} (hk : Keeps s0 s) :
    Keeps s0 (judgeAccel s) := by
  unfold judgeAccel
  lift_lets
  intro u0
  clear_value u0
  intro u1
  clear_value u1
  intro u2
  clear_value u2
  intro u3
  clear_value u3
  intro u4
  clear_value u4
  intro u5
  clear_value u5
  intro u6
  have h7 : Keeps s0 u6 := by
    unfold u6
    refine Keeps.other ?_
    exact hk
  clear_value u6
  intro u9
  have h10 : Keeps s0 u9 := by
    unfold u9
    refine Keeps.ite ?_ ?_
    · refine sticky_keeps ?_
      exact h7
    · exact h7
  clear_value u9
  refine Keeps.ite ?_ ?_
  · refine raise_keeps ?_
    exact h10
  · exact h10

theorem pickLosses_keeps {s0 : State} {s : State} (hk : Keeps s0 s) :
    Keeps s0 (pickLosses s) := by
  unfold pickLosses
  lift_lets
  intro u0
  have h1 : Keeps s0 u0 := by
    unfold u0
    refine Keeps.foldl _ ?_ (fun x2 a3 hx4 => ?_)
    · exact hk
    · split
      · rename_i q5 q6
        exact hx4
      · rename_i q7 q8
        refine raise_keeps ?_
        refine setHub_keeps ?_
        exact hx4
  clear_value u0
  intro u9
  have h10 : Keeps s0 u9 := by
    unfold u9
    refine Keeps.foldl _ ?_ (fun x11 a12 hx13 => ?_)
    · exact h1
    · split
      · rename_i q14 q15
        exact hx13
      · rename_i q16 q17
        refine raise_keeps ?_
        refine setChan_keeps ?_
        exact hx13
  clear_value u9
  refine Keeps.foldl _ ?_ (fun x18 a19 hx20 => ?_)
  · exact h10
  · split
    · rename_i q21 q22
      exact hx20
    · rename_i q23 q24
      refine raise_keeps ?_
      refine setDram_keeps ?_
      exact hx20

theorem recentre_keeps {s0 : State} {s : State} {n : ℕ} (hk : Keeps s0 s) :
    Keeps s0 (recentre s n) := by
  unfold recentre
  lift_lets
  intro u0
  clear_value u0
  intro u1
  have h2 : Keeps s0 u1 := by
    unfold u1
    refine Keeps.other ?_
    exact hk
  clear_value u1
  refine calDone_keeps ?_
  exact h2

theorem deferBand_keeps {s0 : State} {s : State} {n : ℕ} (hk : Keeps s0 s) :
    Keeps s0 (deferBand s n) := by
  unfold deferBand
  lift_lets
  intro u0
  clear_value u0
  intro u1
  clear_value u1
  refine Keeps.ite ?_ ?_
  · exact hk
  · refine raise_keeps ?_
    refine sticky_keeps ?_
    refine Keeps.other ?_
    exact hk

theorem bandLane_keeps {s0 : State} {s : State} {n : ℕ} (hk : Keeps s0 s) :
    Keeps s0 (bandLane s n) := by
  unfold bandLane
  refine Keeps.ite ?_ ?_
  · exact hk
  · split
    · rename_i q0 q1
      refine recentre_keeps ?_
      exact hk
    · rename_i q2 q3 q4
      lift_lets
      intro u5
      clear_value u5
      intro u6
      clear_value u6
      intro u7
      clear_value u7
      intro u8
      clear_value u8
      intro u9
      have h10 : Keeps s0 u9 := by
        unfold u9
        refine setLane_keeps ?_
        refine setHub_keeps ?_
        exact hk
      clear_value u9
      intro u11
      clear_value u11
      refine Keeps.ite ?_ ?_
      · refine recentre_keeps ?_
        exact hk
      · refine Keeps.ite ?_ ?_
        · exact hk
        · refine Keeps.ite ?_ ?_
          · refine Keeps.other ?_
            exact h10
          · refine deferBand_keeps ?_
            exact hk

theorem calibrateBands_keeps {s0 : State} {s : State} (hk : Keeps s0 s) :
    Keeps s0 (calibrateBands s) := by
  unfold calibrateBands
  refine Keeps.ite ?_ ?_
  · exact hk
  · refine Keeps.foldl _ ?_ (fun x0 a1 hx2 => ?_)
    · exact hk
    · refine bandLane_keeps ?_
      exact hx2

theorem calibrateAtOnce_keeps {s0 : State} {s : State} (hk : Keeps s0 s) :
    Keeps s0 (calibrateAtOnce s) := by
  unfold calibrateAtOnce
  lift_lets
  intro u0
  have h1 : Keeps s0 u0 := by
    unfold u0
    refine Keeps.foldl _ ?_ (fun x2 a3 hx4 => ?_)
    · exact hk
    · refine Keeps.ite ?_ ?_
      · refine calDone_keeps ?_
        exact hx4
      · exact hx4
  clear_value u0
  intro u5
  have h6 : Keeps s0 u5 := by
    unfold u5
    refine Keeps.foldl _ ?_ (fun x7 a8 hx9 => ?_)
    · exact h1
    · refine Keeps.ite ?_ ?_
      · refine calDone_keeps ?_
        exact hx9
      · exact hx9
  clear_value u5
  refine Keeps.foldl _ ?_ (fun x10 a11 hx12 => ?_)
  · exact h6
  · refine Keeps.ite ?_ ?_
    · refine setAxis_keeps ?_
      exact hx12
    · exact hx12

theorem stepPrint_keeps {s0 : State} {s : State} (hk : Keeps s0 s) :
    Keeps s0 (stepPrint s) := by
  unfold stepPrint
  refine Keeps.foldl _ ?_ (fun x0 a1 hx2 => ?_)
  · refine scheduleLadder_keeps ?_
    refine pickNozzles_keeps ?_
    exact hk
  · refine judgeCover_keeps ?_
    exact hx2

theorem takeSteps_keeps {s0 : State} {s : State} (hk : Keeps s0 s) :
    Keeps s0 (takeSteps s) := by
  unfold takeSteps
  lift_lets
  intro u0
  clear_value u0
  intro u1
  clear_value u1
  intro u2
  have h3 : Keeps s0 u2 := by
    unfold u2
    refine Keeps.other ?_
    exact hk
  clear_value u2
  refine Keeps.foldl _ ?_ (fun x5 a6 hx7 => ?_)
  · exact h3
  · refine applyStep_keeps ?_
    exact hx7

theorem peerTime_keeps {s0 : State} {s : State} {x : PickInputs} (hk : Keeps s0 s) :
    Keeps s0 (peerTime s x) := by
  unfold peerTime
  split
  · rename_i q0 q1 q2 q3
    refine Keeps.ite ?_ ?_
    · exact hk
    · refine takeMeasurement_keeps ?_
      exact hk
  · rename_i q4 q5
    exact hk

theorem stepApply_keeps {s0 : State} {s : State} {x : PickInputs} (hk : Keeps s0 s) :
    Keeps s0 (stepApply s x) := by
  unfold stepApply
  lift_lets
  intro u0
  have h1 : Keeps s0 u0 := by
    unfold u0
    refine takeSteps_keeps ?_
    refine peerTime_keeps ?_
    refine Keeps.effPick ?_
    exact hk
  clear_value u0
  intro u3
  have h4 : Keeps s0 u3 := by
    unfold u3
    refine swapAtBoundary_keeps ?_
    refine changeSource_keeps ?_
    exact h1
  clear_value u3
  refine openBits_keeps ?_
  refine openBits_keeps ?_
  exact h4

theorem keepCounts_keeps {s0 : State} {s : State} (hk : Keeps s0 s) :
    Keeps s0 (keepCounts s) := by
  unfold keepCounts
  refine Keeps.other ?_
  exact hk

theorem asPick_keeps {s0 : State} {k : ℕ} {f : State → State} {s : State} (h_f : ∀ x, Keeps s0 x → Keeps s0 (f x))
    (hk : Keeps s0 s) :
    Keeps s0 (asPick k f s) := by
  unfold asPick
  lift_lets
  intro u0
  clear_value u0
  intro u1
  clear_value u1
  intro u2
  have h3 : Keeps s0 u2 := by
    unfold u2
    refine h_f _ ?_
    refine Keeps.other ?_
    exact hk
  clear_value u2
  intro u5
  clear_value u5
  refine Keeps.other ?_
  exact h3

theorem activeStep_keeps {s0 : State} {s : State} {k : ℕ} (hk : Keeps s0 s) :
    Keeps s0 (activeStep s k) := by
  unfold activeStep
  refine Keeps.ite ?_ ?_
  · lift_lets
    intro u0
    have h1 : Keeps s0 u0 := by
      unfold u0
      refine asPick_keeps (fun x2 hx3 => ?_) ?_
      · refine handOverNow_keeps ?_
        exact hx3
      · exact hk
    clear_value u0
    refine Keeps.ite ?_ ?_
    · refine stopStandby_keeps ?_
      exact h1
    · exact h1
  · lift_lets
    intro u4
    clear_value u4
    intro u5
    clear_value u5
    refine asPick_keeps (fun x6 hx7 => ?_) ?_
    · refine sendRecord_keeps ?_
      exact hx7
    · refine Keeps.other ?_
      exact hk

theorem askTime_keeps {s0 : State} {s : State} (hk : Keeps s0 s) :
    Keeps s0 (askTime s) := by
  unfold askTime
  refine Keeps.ite ?_ ?_
  · refine toPeer_keeps ?_
    exact hk
  · exact hk

theorem standbyStep_keeps {s0 : State} {s : State} (hk : Keeps s0 s) :
    Keeps s0 (standbyStep s) := by
  unfold standbyStep
  lift_lets
  intro u0
  clear_value u0
  intro u1
  clear_value u1
  intro u2
  have h3 : Keeps s0 u2 := by
    unfold u2
    refine askTime_keeps ?_
    refine Keeps.other ?_
    exact hk
  clear_value u2
  refine Keeps.ite ?_ ?_
  · refine changeScore_keeps ?_
    refine sticky_keeps ?_
    refine bump_keeps ?_
    exact h3
  · exact h3

theorem heartbeat_keeps {s0 : State} {s : State} (hk : Keeps s0 s) :
    Keeps s0 (heartbeat s) := by
  unfold heartbeat
  refine Keeps.ite ?_ ?_
  · refine emit_keeps ?_
    refine Keeps.other ?_
    exact hk
  · exact hk

theorem stepRecord_keeps {s0 : State} {s : State} {k : ℕ} (hk : Keeps s0 s) :
    Keeps s0 (stepRecord s k) := by
  unfold stepRecord
  lift_lets
  intro u0
  have h1 : Keeps s0 u0 := by
    unfold u0
    refine keepCounts_keeps ?_
    exact hk
  clear_value u0
  intro u2
  have h3 : Keeps s0 u2 := by
    unfold u2
    refine Keeps.ite ?_ ?_
    · refine activeStep_keeps ?_
      exact h1
    · refine Keeps.ite ?_ ?_
      · refine standbyStep_keeps ?_
        exact h1
      · exact h1
  clear_value u2
  intro u4
  clear_value u4
  intro u5
  have h6 : Keeps s0 u5 := by
    unfold u5
    refine heartbeat_keeps ?_
    refine Keeps.other ?_
    exact h3
  clear_value u5
  refine Keeps.ite ?_ ?_
  · exact h6
  · refine releaseHeld_keeps ?_
    exact h6

theorem fullBoundary_keeps {s0 : State} {s : State} {x : PickInputs} (hk : Keeps s0 s) :
    Keeps s0 (fullBoundary s x) := by
  unfold fullBoundary
  lift_lets
  intro u0
  clear_value u0
  intro u1
  have h2 : Keeps s0 u1 := by
    unfold u1
    refine beginPick_keeps ?_
    refine sampleSticky_keeps ?_
    refine sampleStore_keeps ?_
    refine stepSample_keeps ?_
    refine judgeAccel_keeps ?_
    refine renewLimits_keeps ?_
    refine pickLosses_keeps ?_
    exact hk
  clear_value u1
  intro u3
  have h4 : Keeps s0 u3 := by
    unfold u3
    refine calibrateBands_keeps ?_
    refine calibrateAtOnce_keeps ?_
    refine stepPrint_keeps ?_
    refine stepApply_keeps ?_
    exact h2
  clear_value u3
  refine stepRecord_keeps ?_
  refine motionStep_keeps ?_
  exact h4

theorem execPickBoundary_keeps {s0 : State} {t : ℕ} {x : PickInputs} {s : State} (hk : Keeps s0 s) :
    KeepsO s0 (execPickBoundary t x s) := by
  unfold execPickBoundary
  lift_lets
  intro u0
  have h1 : Keeps s0 u0 := by
    unfold u0
    refine flushUpdate_keeps ?_
    refine begin_keeps ?_
    exact hk
  clear_value u0
  intro u2
  have h3 : Keeps s0 u2 := by
    unfold u2
    refine stepEvents_keeps ?_
    refine Keeps.ite ?_ ?_
    · refine recoveryBoundary_keeps ?_
      exact h1
    · refine fullBoundary_keeps ?_
      exact h1
  clear_value u2
  refine KeepsO.next ?_
  refine Keeps.ite ?_ ?_
  · exact h1
  · refine Keeps.ite ?_ ?_
    · refine beginPick_keeps ?_
      exact h1
    · refine Keeps.foldl _ ?_ (fun x4 a5 hx6 => ?_)
      · exact h3
      · refine lookAt_keeps ?_
        exact hx6

theorem sampleAxis_keeps {s0 : State} {s : State} {n : ℕ} {k : ℕ} {samples : List TrigSample} (hk : Keeps s0 s) :
    Keeps s0 (sampleAxis s n k samples) := by
  unfold sampleAxis
  split
  · rename_i q0 q1 q2
    refine bemfSample_keeps ?_
    refine setAxis_keeps ?_
    exact hk
  · rename_i q3 q4
    exact hk

theorem motionTrigger_keeps {s0 : State} {s : State} {k : ℕ} {samples : List TrigSample} (hk : Keeps s0 s) :
    Keeps s0 (motionTrigger s k samples) := by
  unfold motionTrigger
  refine Keeps.foldl _ ?_ (fun x0 a1 hx2 => ?_)
  · exact hk
  · refine Keeps.ite ?_ ?_
    · refine sampleAxis_keeps ?_
      exact hx2
    · exact hx2

theorem sampleTarget_keeps {s0 : State} {s : State} {k : ℕ} {ctrl : ℕ} {samples : List TrigSample} (hk : Keeps s0 s) :
    Keeps s0 (sampleTarget s k ctrl samples) := by
  unfold sampleTarget
  lift_lets
  intro u0
  clear_value u0
  intro u1
  clear_value u1
  split
  · rename_i q2 q3 q4
    refine Keeps.ite ?_ ?_
    · refine bemfSample_keeps ?_
      exact hk
    · refine Keeps.ite ?_ ?_
      · refine setTrig_keeps ?_
        exact hk
      · exact hk
  · rename_i q5 q6
    exact hk

theorem occur_keeps {s0 : State} {s : State} {k : ℕ} {ctrl : ℕ} {samples : List TrigSample} (hk : Keeps s0 s) :
    Keeps s0 (occur s k ctrl samples) := by
  unfold occur
  refine sampleTarget_keeps ?_
  refine triggerOutput_keeps ?_
  exact hk

theorem oldOccurrence_keeps {s0 : State} {s : State} {k : ℕ} {samples : List TrigSample} (hk : Keeps s0 s) :
    Keeps s0 (oldOccurrence s k samples) := by
  unfold oldOccurrence
  split
  · rename_i q0 q1 q2
    refine Keeps.ite ?_ ?_
    · exact hk
    · lift_lets
      intro u3
      have h4 : Keeps s0 u3 := by
        unfold u3
        refine setTrig_keeps ?_
        exact hk
      clear_value u3
      refine Keeps.ite ?_ ?_
      · exact h4
      · refine occur_keeps ?_
        exact h4
  · rename_i q5 q6
    exact hk

theorem hostTrigger_keeps {s0 : State} {s : State} {k : ℕ} {samples : List TrigSample} (hk : Keeps s0 s) :
    Keeps s0 (hostTrigger s k samples) := by
  unfold hostTrigger
  lift_lets
  intro u0
  have h1 : Keeps s0 u0 := by
    unfold u0
    refine oldOccurrence_keeps ?_
    exact hk
  clear_value u0
  refine Keeps.ite ?_ ?_
  · exact h1
  · refine Keeps.ite ?_ ?_
    · refine advanceTrigger_keeps ?_
      exact h1
    · refine advanceTrigger_keeps ?_
      refine occur_keeps ?_
      exact h1

theorem actTrigger_keeps {s0 : State} {s : State} {k : ℕ} {samples : List TrigSample} (hk : Keeps s0 s) :
    Keeps s0 (actTrigger s k samples) := by
  unfold actTrigger
  split
  · rename_i q0 q1
    refine motionTrigger_keeps ?_
    exact hk
  · rename_i q2 q3
    refine Keeps.foldl _ ?_ (fun x4 a5 hx6 => ?_)
    · exact hk
    · refine Keeps.ite ?_ ?_
      · refine fireRows_keeps ?_
        exact hx6
      · exact hx6
  · rename_i q7 q8 q9
    refine hostTrigger_keeps ?_
    exact hk

theorem execTriggerAct_keeps {s0 : State} {t : ℕ} {samples : List TrigSample} {s : State} (hk : Keeps s0 s) :
    KeepsO s0 (execTriggerAct t samples s) := by
  unfold execTriggerAct
  lift_lets
  intro u0
  have h1 : Keeps s0 u0 := by
    unfold u0
    refine begin_keeps ?_
    exact hk
  clear_value u0
  intro u2
  have h3 : Keeps s0 u2 := by
    unfold u2
    refine Keeps.foldl _ ?_ (fun x4 a5 hx6 => ?_)
    · exact h1
    · refine actTrigger_keeps ?_
      exact hx6
  clear_value u2
  refine KeepsO.next ?_
  refine Keeps.other ?_
  exact h3

theorem storeReg_keeps {s0 : State} {s : State} {r : Reg} {v : ℕ} (hk : Keeps s0 s) :
    Keeps s0 (storeReg s r v) := by
  unfold storeReg
  lift_lets
  intro u0
  clear_value u0
  refine Keeps.live ?_ (fun hb1 => ?_)
  · exact hk
  · refine bankWf_bankWrite ?_ _ _
    assumption

theorem clearDoorbells_keeps {s0 : State} {s : State} {v : ℕ} (hk : Keeps s0 s) :
    Keeps s0 (clearDoorbells s v) := by
  unfold clearDoorbells
  lift_lets
  intro u0
  have h1 : Keeps s0 u0 := by
    unfold u0
    refine storeReg_keeps ?_
    exact hk
  clear_value u0
  intro u2
  clear_value u2
  refine Keeps.other ?_
  exact h1

theorem writeMask_keeps {s0 : State} {s : State} {v : ℕ} (hk : Keeps s0 s) :
    Keeps s0 (writeMask s v) := by
  unfold writeMask
  lift_lets
  intro u0
  clear_value u0
  intro u1
  clear_value u1
  intro u2
  have h3 : Keeps s0 u2 := by
    unfold u2
    refine storeReg_keeps ?_
    exact hk
  clear_value u2
  refine Keeps.foldl _ ?_ (fun x4 a5 hx6 => ?_)
  · exact h3
  · refine Keeps.ite ?_ ?_
    · refine notifyBit_keeps ?_
      exact hx6
    · exact hx6

theorem writeMbxStatus_keeps {s0 : State} {s : State} {k : ℕ} {v : ℕ} (hk : Keeps s0 s) :
    Keeps s0 (writeMbxStatus s k v) := by
  unfold writeMbxStatus
  lift_lets
  intro u0
  clear_value u0
  intro u1
  have h2 : Keeps s0 u1 := by
    unfold u1
    refine Keeps.live ?_ (fun hb3 => ?_)
    · exact hk
    · refine bankWf_bankWrite ?_ _ _
      assumption
  clear_value u1
  intro u4
  have h5 : Keeps s0 u4 := by
    unfold u4
    refine Keeps.ite ?_ ?_
    · refine pump_keeps ?_
      refine releaseReply_keeps ?_
      exact h2
    · exact h2
  clear_value u4
  refine Keeps.ite ?_ ?_
  · refine hostReset_keeps ?_
    exact h5
  · exact h5

theorem bar4Write_keeps {s0 : State} {s : State} {off : ℕ} {v : ℕ} (hk : Keeps s0 s) :
    Keeps s0 (bar4Write s off v) := by
  unfold bar4Write
  lift_lets
  intro u0
  clear_value u0
  intro u1
  clear_value u1
  refine Keeps.ite ?_ ?_
  · exact hk
  · refine Keeps.ite ?_ ?_
    · refine postDoorbells_keeps ?_
      exact hk
    · refine Keeps.ite ?_ ?_
      · refine clearDoorbells_keeps ?_
        exact hk
      · refine Keeps.ite ?_ ?_
        · refine writeMask_keeps ?_
          exact hk
        · refine Keeps.ite ?_ ?_
          · refine writeMbxStatus_keeps ?_
            exact hk
          · refine Keeps.ite ?_ ?_
            · refine writeMailbox_keeps ?_
              exact hk
            · refine Keeps.ite ?_ ?_
              · refine writeMailbox_keeps ?_
                exact hk
              · exact hk

theorem barWrite_keeps {s0 : State} {s : State} {off : ℕ} {v : ℕ} {ethernet : Bool} (hk : Keeps s0 s) :
    Keeps s0 (barWrite s off v ethernet) := by
  unfold barWrite
  rcases e3 : barPlace off with ⟨a0, a1, a2⟩
  dsimp only
  refine Keeps.ite ?_ ?_
  · exact hk
  · refine Keeps.ite ?_ ?_
    · refine postDoorbells_keeps ?_
      exact hk
    · refine Keeps.ite ?_ ?_
      · refine writeLock_keeps ?_
        exact hk
      · refine Keeps.ite ?_ ?_
        · refine writeMbxStatus_keeps ?_
          exact hk
        · refine Keeps.ite ?_ ?_
          · refine writeMailbox_keeps ?_
            exact hk
          · refine Keeps.ite ?_ ?_
            · refine writeTail_keeps ?_
              exact hk
            · split
              · rename_i q4 q5 q6
                refine Keeps.ite ?_ ?_
                · refine clearDoorbells_keeps ?_
                  exact hk
                · refine Keeps.ite ?_ ?_
                  · refine writeMask_keeps ?_
                    exact hk
                  · refine Keeps.ite ?_ ?_
                    · refine storeReg_keeps ?_
                      exact hk
                    · exact hk
              · rename_i q7 q8
                exact hk

theorem execRegisterWrite_keeps {s0 : State} {t : ℕ} {bar4 : Bool} {offset : ℕ} {value : ℕ} {s : State} (hk : Keeps s0 s) :
    KeepsO s0 (execRegisterWrite t bar4 offset value s) := by
  unfold execRegisterWrite
  lift_lets
  intro u0
  have h1 : Keeps s0 u0 := by
    unfold u0
    refine flushUpdate_keeps ?_
    refine begin_keeps ?_
    exact hk
  clear_value u0
  refine KeepsO.next ?_
  refine Keeps.ite ?_ ?_
  · exact h1
  · refine Keeps.ite ?_ ?_
    · refine Keeps.ite ?_ ?_
      · exact h1
      · refine bar4Write_keeps ?_
        exact h1
    · refine barWrite_keeps ?_
      exact h1

theorem readReg_keeps {s0 : State} {s : State} {r : Reg} {i : ℕ} {elem : ℕ} {sel : ℕ} {master : ℕ} (hk : Keeps s0 s) :
    Keeps s0 (readReg s r i elem sel master).2 := by
  unfold readReg
  split
  · rename_i q0
    refine readLock_keeps ?_
    exact hk
  · rename_i q1
    split
    · rename_i q2
      dsimp only
      refine Keeps.other ?_
      exact hk
    · rename_i q4
      exact hk

theorem readWord_keeps {s0 : State} {s : State} {code : ℕ} {num : ℕ} {i : ℕ} {elem : ℕ} {w : ℕ} {sel : ℕ} {master : ℕ}
    (hk : Keeps s0 s) :
    KeepsQ2 s0 (readWord s code num i elem w sel master) := by
  unfold readWord
  split
  · rename_i q0 q1 q2
    lift_lets
    intro u3
    clear_value u3
    split
    · rename_i q4
      trivial
    · rename_i q5
      rcases e8 : readReg s q1 i elem sel master with ⟨a6, a7⟩
      dsimp only
      refine KeepsQ2.mk ?_
      refine Keeps.snd_of e8 ?_
      refine readReg_keeps ?_
      exact hk
  · rename_i q9 q10
    split
    · rename_i q11
      trivial
    · rename_i q12
      split
      · rename_i q13 q14 q15
        split
        · rename_i q16
          trivial
        · rename_i q17
          refine KeepsQ2.mk ?_
          exact hk
      · rename_i q18 q19
        trivial

theorem barRead_keeps {s0 : State} {s : State} {off : ℕ} {master : ℕ} (hk : Keeps s0 s) :
    Keeps s0 (barRead s off master).2 := by
  unfold barRead
  split
  · rename_i q0
    exact hk
  · rename_i q1
    rcases e5 : barPlace off with ⟨a2, a3, a4⟩
    dsimp only
    refine KeepsQ2.getD ?_ ?_
    · refine readWord_keeps ?_
      exact hk
    · exact hk

theorem barReads_keeps {s0 s : State} {off n : ℕ} (hk : Keeps s0 s) : Keeps s0 (barReads s off n).2 := by
  induction n generalizing s off with
  | zero => exact hk
  | succ n ih => exact ih (barRead_keeps hk)

theorem execRegReadDatagram_keeps {s0 : State} {t : ℕ} {d : Dgram} {offset : ℕ} {count : ℕ} {s : State} (hk : Keeps s0 s) :
    KeepsO s0 (execRegReadDatagram t d offset count s) := by
  unfold execRegReadDatagram
  lift_lets
  intro u0
  have h1 : Keeps s0 u0 := by
    unfold u0
    refine flushUpdate_keeps ?_
    refine begin_keeps ?_
    exact hk
  clear_value u0
  refine KeepsO.next ?_
  refine Keeps.ite ?_ ?_
  · exact h1
  · rcases e4 : barReads (touchSession u0) offset count with ⟨a2, a3⟩
    dsimp only
    refine sendDatagram_keeps ?_
    refine Keeps.snd_of e4 ?_
    refine barReads_keeps ?_
    refine touchSession_keeps ?_
    exact h1

theorem execRegWriteDatagram_keeps {s0 : State} {t : ℕ} {d : Dgram} {offset : ℕ} {values : List ℕ} {s : State} (hk : Keeps s0 s) :
    KeepsO s0 (execRegWriteDatagram t d offset values s) := by
  unfold execRegWriteDatagram
  lift_lets
  intro u0
  have h1 : Keeps s0 u0 := by
    unfold u0
    refine flushUpdate_keeps ?_
    refine begin_keeps ?_
    exact hk
  clear_value u0
  intro u2
  have h3 : Keeps s0 u2 := by
    unfold u2
    refine Keeps.foldl _ ?_ (fun x4 a5 hx6 => ?_)
    · refine touchSession_keeps ?_
      exact h1
    · refine barWrite_keeps ?_
      exact hx6
  clear_value u2
  refine KeepsO.next ?_
  refine Keeps.ite ?_ ?_
  · exact h1
  · refine sendDatagram_keeps ?_
    exact h3

theorem readWords_keeps {s0 s : State} {code num i elem w sel master n : ℕ} (hk : Keeps s0 s) :
    KeepsQ2 s0 (readWords s code num i elem w sel master n) := by
  have map_ok {α β : Type} (f : α × State → β × State) (hf : ∀ p, (f p).2 = p.2) {o : Option (α × State)} (h : KeepsQ2 s0 o) :
      KeepsQ2 s0 (o.map f) := by
    cases o with
    | none => trivial
    | some p => simpa [KeepsQ2, hf] using h
  induction n generalizing s i elem w with
  | zero => exact hk
  | succ n ih =>
    unfold readWords
    dsimp only
    split
    · trivial
    · rename_i v u e
      have hu : Keeps s0 u := KeepsQ2.of e (readWord_keeps hk)
      refine map_ok (fun x => (v :: x.1, x.2)) (fun p => rfl) ?_
      repeat' split
      all_goals exact ih hu

theorem actRead_keeps {s0 : State} {regId : ℕ} {count : ℕ} {setSel : ℕ} {elem : ℕ} {s : State} (hk : Keeps s0 s) :
    Keeps s0 (actRead regId count setSel elem s).1 := by
  unfold actRead
  split
  · rename_i q0
    exact hk
  · rename_i q1
    split
    · rename_i q2 q3 q4 q5
      dsimp only
      refine KeepsQ2.of q5 ?_
      refine readWords_keeps ?_
      exact hk
    · rename_i q6 q7
      exact hk

theorem execRead_keeps {s0 : State} {t : ℕ} {ch : Fin 6} {tag : ℕ} {cls : ℕ} {regId : ℕ} {count : ℕ} {setSel : ℕ} {elem : ℕ}
    {s : State} (hk : Keeps s0 s) :
    KeepsO s0 (execRead t ch tag cls regId count setSel elem s) := by
  unfold execRead
  refine KeepsO.next ?_
  refine message_keeps ?_ (fun x0 hx1 => ?_)
  · refine flushUpdate_keeps ?_
    refine begin_keeps ?_
    exact hk
  · refine actRead_keeps ?_
    exact hx1

theorem writeMotion_keeps {s0 : State} {s : State} {r : Reg} {es : List Edit} (hk : Keeps s0 s) :
    Keeps s0 (writeMotion s r es).1 := by
  unfold writeMotion
  lift_lets
  intro u0
  have h1 : Keeps s0 u0 := by
    unfold u0
    refine Keeps.live ?_ (fun hb2 => ?_)
    · exact hk
    · refine bankWf_editBank ?_ _ _
      assumption
  clear_value u0
  intro u3
  clear_value u3
  intro u4
  clear_value u4
  split
  · rename_i q5
    split
    · rename_i q6 q7 q8
      exact hk
    · rename_i q9 q10
      exact h1
  · rename_i q11
    split
    · rename_i q12
      exact hk
    · rename_i q13
      split
      · rename_i q14
        exact hk
      · rename_i q15
        exact h1
  · rename_i q16
    split
    · rename_i q17 q18 q19
      dsimp only
      refine KeepsQ.of q19 ?_
      refine claimStall_keeps ?_
      exact h1
    · rename_i q20 q21
      exact hk
  · rename_i q22 q23 q24 q25
    exact h1

theorem writeCamera_keeps {s0 : State} {s : State} {r : Reg} {es : List Edit} (hk : Keeps s0 s) :
    Keeps s0 (writeCamera s r es).1 := by
  unfold writeCamera
  lift_lets
  intro u0
  have h1 : Keeps s0 u0 := by
    unfold u0
    refine Keeps.live ?_ (fun hb2 => ?_)
    · exact hk
    · refine bankWf_editBank ?_ _ _
      assumption
  clear_value u0
  split
  · rename_i q3
    exact hk
  · rename_i q4
    split
    · rename_i q5
      exact hk
    · rename_i q6
      split
      · rename_i q7
        exact h1
      · rename_i q8
        dsimp only
        refine Keeps.foldl _ ?_ (fun x9 a10 hx11 => ?_)
        · exact h1
        · refine camChanged_keeps ?_
          exact hx11

theorem writeTime_keeps {s0 : State} {s : State} {r : Reg} {es : List Edit} (hk : Keeps s0 s) :
    Keeps s0 (writeTime s r es).1 := by
  unfold writeTime
  split
  · rename_i q0
    refine Keeps.foldl_fst _ ?_ (fun x1 a2 hx3 => ?_)
    · exact hk
    · split
      · rename_i q4
        refine actSetIncr_keeps ?_
        exact hx3
      · rename_i q5
        exact hx3
  · rename_i q6
    split
    · rename_i q7
      exact hk
    · rename_i q8
      lift_lets
      intro u9
      have h10 : Keeps s0 u9 := by
        unfold u9
        refine Keeps.live ?_ (fun hb11 => ?_)
        · exact hk
        · refine bankWf_editBank ?_ _ _
          assumption
      clear_value u9
      split
      · rename_i q12
        exact hk
      · rename_i q13
        dsimp only
        refine Keeps.foldl _ ?_ (fun x14 a15 hx16 => ?_)
        · exact h10
        · refine rearmWritten_keeps ?_
          exact hx16
  · rename_i q17
    split
    · rename_i q18
      exact hk
    · rename_i q19
      lift_lets
      intro u20
      have h21 : Keeps s0 u20 := by
        unfold u20
        refine Keeps.live ?_ (fun hb22 => ?_)
        · exact hk
        · refine bankWf_editBank ?_ _ _
          assumption
      clear_value u20
      split
      · rename_i q23
        exact hk
      · rename_i q24
        dsimp only
        refine Keeps.foldl _ ?_ (fun x25 a26 hx27 => ?_)
        · exact h21
        · refine rearmWritten_keeps ?_
          exact hx27
  · rename_i q28
    split
    · rename_i q29
      exact hk
    · rename_i q30
      lift_lets
      intro u31
      have h32 : Keeps s0 u31 := by
        unfold u31
        refine Keeps.live ?_ (fun hb33 => ?_)
        · exact hk
        · refine bankWf_editBank ?_ _ _
          assumption
      clear_value u31
      split
      · rename_i q34
        exact hk
      · rename_i q35
        dsimp only
        refine Keeps.foldl _ ?_ (fun x36 a37 hx38 => ?_)
        · exact h32
        · refine rearmWritten_keeps ?_
          exact hx38
  · rename_i q39
    split
    · rename_i q40
      exact hk
    · rename_i q41
      lift_lets
      intro u42
      have h43 : Keeps s0 u42 := by
        unfold u42
        refine Keeps.live ?_ (fun hb44 => ?_)
        · exact hk
        · refine bankWf_editBank ?_ _ _
          assumption
      clear_value u42
      split
      · rename_i q45
        exact hk
      · rename_i q46
        dsimp only
        refine Keeps.foldl _ ?_ (fun x47 a48 hx49 => ?_)
        · exact h43
        · refine rearmWritten_keeps ?_
          exact hx49
  · rename_i q50
    dsimp only
    refine gatePps_keeps ?_
    refine Keeps.live ?_ (fun hb51 => ?_)
    · exact hk
    · refine bankWf_editBank ?_ _ _
      assumption
  · rename_i q52 q53 q54 q55 q56 q57 q58
    dsimp only
    refine Keeps.live ?_ (fun hb59 => ?_)
    · exact hk
    · refine bankWf_editBank ?_ _ _
      assumption

theorem clearSensorFail_keeps {s0 : State} {s : State} {bits : ℕ} (hk : Keeps s0 s) :
    Keeps s0 (clearSensorFail s bits) := by
  unfold clearSensorFail
  lift_lets
  intro u0
  clear_value u0
  intro u1
  have h2 : Keeps s0 u1 := by
    unfold u1
    refine setFld_keeps ?_
    exact hk
  clear_value u1
  refine Keeps.foldl _ ?_ (fun x3 a4 hx5 => ?_)
  · exact h2
  · refine Keeps.ite ?_ ?_
    · refine setSensor_keeps ?_
      exact hx5
    · exact hx5

theorem renewCover_keeps {s0 : State} {s : State} (hk : Keeps s0 s) :
    Keeps s0 (renewCover s) := by
  unfold renewCover
  refine Keeps.foldl _ ?_ (fun x0 a1 hx2 => ?_)
  · exact hk
  · refine setFld_keeps ?_
    exact hx2

theorem writeSys_keeps {s0 : State} {s : State} {r : Reg} {es : List Edit} (hk : Keeps s0 s) :
    Keeps s0 (writeSys s r es).1 := by
  unfold writeSys
  lift_lets
  intro u0
  clear_value u0
  intro u1
  have h2 : Keeps s0 u1 := by
    unfold u1
    refine Keeps.live ?_ (fun hb3 => ?_)
    · exact hk
    · refine bankWf_editBank ?_ _ _
      assumption
  clear_value u1
  split
  · rename_i q4
    split
    · rename_i q5
      refine actWarmArm_keeps ?_
      exact hk
    · rename_i q6
      exact hk
  · rename_i q7
    dsimp only
    refine clearSensorFail_keeps ?_
    exact hk
  · rename_i q8
    dsimp only
    refine Keeps.ite ?_ ?_
    · refine setFld_keeps ?_
      exact h2
    · exact h2
  · rename_i q9
    dsimp only
    refine Keeps.ite ?_ ?_
    · refine renewCover_keeps ?_
      exact h2
    · exact h2
  · rename_i q10 q11 q12 q13 q14
    dsimp only
    refine Keeps.live ?_ (fun hb15 => ?_)
    · exact hk
    · refine bankWf_editBank ?_ _ _
      assumption

theorem writeLink_keeps {s0 : State} {s : State} {r : Reg} {es : List Edit} (hk : Keeps s0 s) :
    Keeps s0 (writeLink s r es).1 := by
  unfold writeLink
  lift_lets
  intro u0
  have h1 : Keeps s0 u0 := by
    unfold u0
    refine Keeps.live ?_ (fun hb2 => ?_)
    · exact hk
    · refine bankWf_editBank ?_ _ _
      assumption
  clear_value u0
  intro u3
  clear_value u3
  dsimp only
  refine Keeps.ite ?_ ?_
  · refine startEye_keeps ?_
    exact h1
  · exact h1

theorem writeOutside_keeps {s0 : State} {s : State} {r : Reg} {es : List Edit} (hk : Keeps s0 s) :
    Keeps s0 (writeOutside s r es).1 := by
  unfold writeOutside
  split
  · rename_i q0 q1
    refine writeMotion_keeps ?_
    exact hk
  · rename_i q2 q3
    refine writeCamera_keeps ?_
    exact hk
  · rename_i q4 q5
    refine writeTime_keeps ?_
    exact hk
  · rename_i q6 q7
    refine writeSys_keeps ?_
    exact hk
  · rename_i q8 q9
    refine writeLink_keeps ?_
    exact hk
  · rename_i q10 q11 q12 q13 q14 q15
    dsimp only
    refine Keeps.live ?_ (fun hb16 => ?_)
    · exact hk
    · refine bankWf_editBank ?_ _ _
      assumption

theorem actWrite_keeps {s0 : State} {ch : ℕ} {cls : ℕ} {regId : ℕ} {elem : ℕ} {pairs : List (ℕ × ℕ)} {s : State} (hk : Keeps s0 s) :
    Keeps s0 (actWrite ch cls regId elem pairs s).1 := by
  unfold actWrite
  lift_lets
  intro u0
  clear_value u0
  split
  · rename_i q1 q2
    exact hk
  · rename_i q3 q4 q5
    split
    · rename_i q6 q7
      exact hk
    · rename_i q8 q9 q10
      lift_lets
      intro u11
      clear_value u11
      split
      · rename_i q12
        exact hk
      · rename_i q13
        split
        · rename_i q14
          refine shadowWrite_keeps ?_
          exact hk
        · rename_i q15
          refine writeOutside_keeps ?_
          exact hk

theorem execWrite_keeps {s0 : State} {t : ℕ} {ch : Fin 6} {tag : ℕ} {cls : ℕ} {regId : ℕ} {elem : ℕ} {pairs : List (ℕ × ℕ)}
    {s : State} (hk : Keeps s0 s) :
    KeepsO s0 (execWrite t ch tag cls regId elem pairs s) := by
  unfold execWrite
  refine KeepsO.next ?_
  refine message_keeps ?_ (fun x0 hx1 => ?_)
  · refine begin_keeps ?_
    exact hk
  · refine actWrite_keeps ?_
    exact hx1

theorem execSysInfo_keeps {s0 : State} {t : ℕ} {ch : Fin 6} {tag : ℕ} {s : State} (hk : Keeps s0 s) :
    KeepsO s0 (execSysInfo t ch tag s) := by
  unfold execSysInfo
  refine KeepsO.next ?_
  refine message_keeps ?_ (fun x0 hx1 => ?_)
  · refine begin_keeps ?_
    exact hk
  · exact hx1

theorem execSysState_keeps {s0 : State} {t : ℕ} {ch : Fin 6} {tag : ℕ} {s : State} (hk : Keeps s0 s) :
    KeepsO s0 (execSysState t ch tag s) := by
  unfold execSysState
  refine KeepsO.next ?_
  refine message_keeps ?_ (fun x0 hx1 => ?_)
  · refine flushUpdate_keeps ?_
    refine begin_keeps ?_
    exact hk
  · exact hx1

theorem execClearStop_keeps {s0 : State} {t : ℕ} {ch : Fin 6} {tag : ℕ} {s : State} (hk : Keeps s0 s) :
    KeepsO s0 (execClearStop t ch tag s) := by
  unfold execClearStop
  refine KeepsO.next ?_
  refine message_keeps ?_ (fun x0 hx1 => ?_)
  · refine begin_keeps ?_
    exact hk
  · split
    · rename_i q2
      exact hx1
    · rename_i q3
      dsimp only
      refine toReady_keeps ?_
      refine Keeps.other ?_
      exact hx1

theorem execNetConfig_keeps {s0 : State} {t : ℕ} {ch : Fin 6} {tag : ℕ} {port : ℕ} {mode : ℕ} {address : ℕ} {netmask : ℕ}
    {gateway : ℕ} {s : State} (hk : Keeps s0 s) :
    KeepsO s0 (execNetConfig t ch tag port mode address netmask gateway s) := by
  unfold execNetConfig
  refine KeepsO.next ?_
  refine message_keeps ?_ (fun x0 hx1 => ?_)
  · refine begin_keeps ?_
    exact hk
  · split
    · rename_i q2
      exact hx1
    · rename_i q3
      lift_lets
      intro u4
      clear_value u4
      intro u5
      clear_value u5
      dsimp only
      refine Keeps.other ?_
      exact hx1

theorem execDiagSelftest_keeps {s0 : State} {t : ℕ} {ch : Fin 6} {tag : ℕ} {y3 : ℕ} {pass : Bool} {s : State} (hk : Keeps s0 s) :
    KeepsO s0 (execDiagSelftest t ch tag y3 pass s) := by
  unfold execDiagSelftest
  refine KeepsO.next ?_
  refine message_keeps ?_ (fun x0 hx1 => ?_)
  · refine begin_keeps ?_
    exact hk
  · exact hx1

theorem actRestart_keeps {s0 : State} {warm : Bool} {k : ℕ} {tag : ℕ} {s : State} (hk : Keeps s0 s) :
    Keeps s0 (actRestart warm k tag s).1 := by
  unfold actRestart
  split
  · rename_i q0
    exact hk
  · rename_i q1
    lift_lets
    intro u2
    clear_value u2
    intro u3
    have h4 : Keeps s0 u3 := by
      unfold u3
      refine Keeps.ite ?_ ?_
      · refine setFld_keeps ?_
        exact hk
      · exact hk
    clear_value u3
    intro u5
    have h6 : Keeps s0 u5 := by
      unfold u5
      refine setFld_keeps ?_
      exact h4
    clear_value u5
    intro u7
    clear_value u7
    dsimp only
    refine Keeps.other ?_
    exact h6

theorem execDiagRestartWarm_keeps {s0 : State} {t : ℕ} {ch : Fin 6} {tag : ℕ} {s : State} (hk : Keeps s0 s) :
    KeepsO s0 (execDiagRestartWarm t ch tag s) := by
  unfold execDiagRestartWarm
  refine KeepsO.next ?_
  refine message_keeps ?_ (fun x0 hx1 => ?_)
  · refine begin_keeps ?_
    exact hk
  · refine actRestart_keeps ?_
    exact hx1

theorem execDiagRestartCold_keeps {s0 : State} {t : ℕ} {ch : Fin 6} {tag : ℕ} {s : State} (hk : Keeps s0 s) :
    KeepsO s0 (execDiagRestartCold t ch tag s) := by
  unfold execDiagRestartCold
  refine KeepsO.next ?_
  refine message_keeps ?_ (fun x0 hx1 => ?_)
  · refine begin_keeps ?_
    exact hk
  · refine actRestart_keeps ?_
    exact hx1

theorem execLogInfo_keeps {s0 : State} {t : ℕ} {ch : Fin 6} {tag : ℕ} {s : State} (hk : Keeps s0 s) :
    KeepsO s0 (execLogInfo t ch tag s) := by
  unfold execLogInfo
  refine KeepsO.next ?_
  refine message_keeps ?_ (fun x0 hx1 => ?_)
  · refine begin_keeps ?_
    exact hk
  · exact hx1

theorem execLogRead_keeps {s0 : State} {t : ℕ} {ch : Fin 6} {tag : ℕ} {seq : ℕ} {count : ℕ} {s : State} (hk : Keeps s0 s) :
    KeepsO s0 (execLogRead t ch tag seq count s) := by
  unfold execLogRead
  refine KeepsO.next ?_
  refine message_keeps ?_ (fun x0 hx1 => ?_)
  · refine begin_keeps ?_
    exact hk
  · split
    · rename_i q2
      split
      · rename_i q3
        exact hx1
      · rename_i q4
        exact hx1
    · rename_i q5
      split
      · rename_i q6
        exact hx1
      · rename_i q7
        exact hx1

theorem execEvtFilter_keeps {s0 : State} {t : ℕ} {ch : Fin 6} {tag : ℕ} {pairs : List (ℕ × ℕ)} {s : State} (hk : Keeps s0 s) :
    KeepsO s0 (execEvtFilter t ch tag pairs s) := by
  unfold execEvtFilter
  refine KeepsO.next ?_
  refine message_keeps ?_ (fun x0 hx1 => ?_)
  · refine begin_keeps ?_
    exact hk
  · split
    · rename_i q2
      exact hx1
    · rename_i q3
      lift_lets
      intro u4
      intro u5
      clear_value u5
      dsimp only
      refine Keeps.other ?_
      exact hx1

theorem warnActs_keeps {s0 : State} {s : State} {mv : ℕ} (hk : Keeps s0 s) :
    Keeps s0 (warnActs s mv) := by
  unfold warnActs
  lift_lets
  intro u0
  have h1 : Keeps s0 u0 := by
    unfold u0
    refine Keeps.ite ?_ ?_
    · refine sendRecord_keeps ?_
      exact hk
    · exact hk
  clear_value u0
  intro u2
  have h3 : Keeps s0 u2 := by
    unfold u2
    refine bump_keeps ?_
    refine sticky_keeps ?_
    refine logQueued_keeps ?_
    refine keepCounts_keeps ?_
    exact h1
  clear_value u2
  refine raise_keeps ?_
  exact h3

theorem execVinWarn_keeps {s0 : State} {t : ℕ} {mv : ℕ} {s : State} (hk : Keeps s0 s) :
    KeepsO s0 (execVinWarn t mv s) := by
  unfold execVinWarn
  lift_lets
  intro u0
  have h1 : Keeps s0 u0 := by
    unfold u0
    refine begin_keeps ?_
    exact hk
  clear_value u0
  intro u2
  have h3 : Keeps s0 u2 := by
    unfold u2
    refine noteVin_keeps ?_
    exact h1
  clear_value u2
  intro u4
  clear_value u4
  intro u5
  have h6 : Keeps s0 u5 := by
    unfold u5
    refine Keeps.other ?_
    exact h3
  clear_value u5
  refine KeepsO.next ?_
  refine Keeps.ite ?_ ?_
  · exact h1
  · refine Keeps.ite ?_ ?_
    · refine Keeps.other ?_
      exact h3
    · refine Keeps.ite ?_ ?_
      · exact h6
      · refine warnActs_keeps ?_
        exact h6

theorem execVinWarnEnd_keeps {s0 : State} {t : ℕ} {s : State} (hk : Keeps s0 s) :
    KeepsO s0 (execVinWarnEnd t s) := by
  unfold execVinWarnEnd
  lift_lets
  intro u0
  have h1 : Keeps s0 u0 := by
    unfold u0
    refine begin_keeps ?_
    exact hk
  clear_value u0
  intro u2
  clear_value u2
  intro u3
  have h4 : Keeps s0 u3 := by
    unfold u3
    refine Keeps.other ?_
    exact h1
  clear_value u3
  intro u6
  clear_value u6
  refine KeepsO.next ?_
  refine Keeps.ite ?_ ?_
  · exact h1
  · refine Keeps.ite ?_ ?_
    · exact h4
    · refine raise_keeps ?_
      refine setFld_keeps ?_
      exact h4

theorem execVinWarnStop_keeps {s0 : State} {t : ℕ} {s : State} (hk : Keeps s0 s) :
    KeepsO s0 (execVinWarnStop t s) := by
  unfold execVinWarnStop
  lift_lets
  intro u0
  have h1 : Keeps s0 u0 := by
    unfold u0
    refine begin_keeps ?_
    exact hk
  clear_value u0
  intro u2
  clear_value u2
  intro u3
  have h4 : Keeps s0 u3 := by
    unfold u3
    refine sticky_keeps ?_
    refine Keeps.other ?_
    exact h1
  clear_value u3
  intro u6
  have h7 : Keeps s0 u6 := by
    unfold u6
    refine raise_keeps ?_
    exact h4
  clear_value u6
  refine KeepsO.next ?_
  refine Keeps.ite ?_ ?_
  · exact h1
  · refine Keeps.ite ?_ ?_
    · exact h7
    · refine orderlyStop_keeps ?_
      exact h7

theorem execVinHigh_keeps {s0 : State} {t : ℕ} {mv : ℕ} {s : State} (hk : Keeps s0 s) :
    KeepsO s0 (execVinHigh t mv s) := by
  unfold execVinHigh
  lift_lets
  intro u0
  have h1 : Keeps s0 u0 := by
    unfold u0
    refine begin_keeps ?_
    exact hk
  clear_value u0
  refine KeepsO.next ?_
  refine Keeps.ite ?_ ?_
  · exact h1
  · refine raise_keeps ?_
    refine sticky_keeps ?_
    exact h1

theorem execInputTrip_keeps {s0 : State} {t : ℕ} {s : State} (hk : Keeps s0 s) :
    KeepsO s0 (execInputTrip t s) := by
  unfold execInputTrip
  lift_lets
  intro u0
  have h1 : Keeps s0 u0 := by
    unfold u0
    refine begin_keeps ?_
    exact hk
  clear_value u0
  intro u2
  clear_value u2
  refine KeepsO.next ?_
  refine Keeps.ite ?_ ?_
  · exact h1
  · refine powerLost_keeps ?_
    refine Keeps.other ?_
    exact h1

theorem foldBack_keeps {s0 : State} {s : State} (hk : Keeps s0 s) :
    Keeps s0 (foldBack s) := by
  unfold foldBack
  lift_lets
  intro u0
  clear_value u0
  intro u1
  have h2 : Keeps s0 u1 := by
    unfold u1
    refine Keeps.other ?_
    exact hk
  clear_value u1
  refine Keeps.ite ?_ ?_
  · refine raise_keeps ?_
    refine sticky_keeps ?_
    exact h2
  · exact h2

theorem execVencOverload_keeps {s0 : State} {t : ℕ} {s : State} (hk : Keeps s0 s) :
    KeepsO s0 (execVencOverload t s) := by
  unfold execVencOverload
  lift_lets
  intro u0
  have h1 : Keeps s0 u0 := by
    unfold u0
    refine begin_keeps ?_
    exact hk
  clear_value u0
  refine KeepsO.next ?_
  refine Keeps.ite ?_ ?_
  · exact h1
  · refine foldBack_keeps ?_
    exact h1

theorem execVencRetry_keeps {s0 : State} {t : ℕ} {ok : Bool} {s : State} (hk : Keeps s0 s) :
    KeepsO s0 (execVencRetry t ok s) := by
  unfold execVencRetry
  lift_lets
  intro u0
  have h1 : Keeps s0 u0 := by
    unfold u0
    refine begin_keeps ?_
    exact hk
  clear_value u0
  intro u2
  clear_value u2
  refine KeepsO.next ?_
  split
  · rename_i q3 q4
    exact h1
  · rename_i q5 q6 q7
    refine Keeps.ite ?_ ?_
    · exact h1
    · refine Keeps.ite ?_ ?_
      · refine Keeps.other ?_
        exact h1
      · refine foldBack_keeps ?_
        exact h1

theorem execVencBackfeed_keeps {s0 : State} {t : ℕ} {mv : ℕ} {s : State} (hk : Keeps s0 s) :
    KeepsO s0 (execVencBackfeed t mv s) := by
  unfold execVencBackfeed
  lift_lets
  intro u0
  have h1 : Keeps s0 u0 := by
    unfold u0
    refine begin_keeps ?_
    exact hk
  clear_value u0
  intro u2
  clear_value u2
  intro u3
  have h4 : Keeps s0 u3 := by
    unfold u3
    refine Keeps.other ?_
    exact h1
  clear_value u3
  refine KeepsO.next ?_
  refine Keeps.ite ?_ ?_
  · exact h1
  · refine Keeps.ite ?_ ?_
    · refine raise_keeps ?_
      refine sticky_keeps ?_
      exact h4
    · exact h4

theorem execRailFault_keeps {s0 : State} {t : ℕ} {rail : Fin 16} {s : State} (hk : Keeps s0 s) :
    KeepsO s0 (execRailFault t rail s) := by
  unfold execRailFault
  lift_lets
  intro u0
  have h1 : Keeps s0 u0 := by
    unfold u0
    refine begin_keeps ?_
    exact hk
  clear_value u0
  refine KeepsO.next ?_
  refine Keeps.ite ?_ ?_
  · exact h1
  · refine fatal_keeps ?_
    refine logQueued_keeps ?_
    refine raise_keeps ?_
    refine sticky_keeps ?_
    exact h1

theorem execOutShort_keeps {s0 : State} {t : ℕ} {k : Fin 32} {s : State} (hk : Keeps s0 s) :
    KeepsO s0 (execOutShort t k s) := by
  unfold execOutShort
  lift_lets
  intro u0
  have h1 : Keeps s0 u0 := by
    unfold u0
    refine begin_keeps ?_
    exact hk
  clear_value u0
  intro u2
  clear_value u2
  intro u3
  have h4 : Keeps s0 u3 := by
    unfold u3
    refine Keeps.other ?_
    exact h1
  clear_value u3
  intro u6
  have h7 : Keeps s0 u6 := by
    unfold u6
    refine raise_keeps ?_
    refine sticky_keeps ?_
    exact h4
  clear_value u6
  refine KeepsO.next ?_
  refine Keeps.ite ?_ ?_
  · exact h1
  · refine Keeps.ite ?_ ?_
    · refine asFailedSlice_keeps ?_
      exact h7
    · exact h7

theorem tripOutputs_keeps {s0 : State} {s : State} (hk : Keeps s0 s) :
    Keeps s0 (tripOutputs s) := by
  unfold tripOutputs
  lift_lets
  intro u0
  have h1 : Keeps s0 u0 := by
    unfold u0
    refine Keeps.foldl _ ?_ (fun x2 a3 hx4 => ?_)
    · exact hk
    · refine Keeps.ite ?_ ?_
      · refine stopNow_keeps ?_
        exact hx4
      · exact hx4
  clear_value u0
  intro u5
  clear_value u5
  intro u6
  have h7 : Keeps s0 u6 := by
    unfold u6
    refine Keeps.ite ?_ ?_
    · refine doorbell_keeps ?_
      refine emit_keeps ?_
      refine Keeps.other ?_
      exact h1
    · exact h1
  clear_value u6
  intro u9
  have h10 : Keeps s0 u9 := by
    unfold u9
    refine Keeps.ite ?_ ?_
    · refine emit_keeps ?_
      exact h7
    · exact h7
  clear_value u9
  intro u11
  clear_value u11
  intro u12
  clear_value u12
  refine Keeps.other ?_
  exact h10

theorem execThermalTrip_keeps {s0 : State} {t : ℕ} {k : Fin 16} {temp : ℤ} {s : State} (hk : Keeps s0 s) :
    KeepsO s0 (execThermalTrip t k temp s) := by
  unfold execThermalTrip
  lift_lets
  intro u0
  have h1 : Keeps s0 u0 := by
    unfold u0
    refine begin_keeps ?_
    exact hk
  clear_value u0
  intro u2
  have h3 : Keeps s0 u2 := by
    unfold u2
    refine tripOutputs_keeps ?_
    exact h1
  clear_value u2
  intro u4
  clear_value u4
  refine KeepsO.next ?_
  refine Keeps.ite ?_ ?_
  · exact h1
  · refine reportTrip_keeps ?_
    refine Keeps.other ?_
    exact h3

theorem execThrottleFall_keeps {s0 : State} {t : ℕ} {s : State} (hk : Keeps s0 s) :
    KeepsO s0 (execThrottleFall t s) := by
  unfold execThrottleFall
  lift_lets
  intro u0
  have h1 : Keeps s0 u0 := by
    unfold u0
    refine begin_keeps ?_
    exact hk
  clear_value u0
  refine KeepsO.next ?_
  refine Keeps.ite ?_ ?_
  · exact h1
  · refine setLevel_keeps ?_
    exact h1

theorem execSensorFailWrite_keeps {s0 : State} {t : ℕ} {ch : Fin 6} {tag : ℕ} {bits : ℕ} {s : State} (hk : Keeps s0 s) :
    KeepsO s0 (execSensorFailWrite t ch tag bits s) := by
  unfold execSensorFailWrite
  refine KeepsO.next ?_
  refine message_keeps ?_ (fun x0 hx1 => ?_)
  · refine begin_keeps ?_
    exact hk
  · dsimp only
    refine clearSensorFail_keeps ?_
    exact hx1

theorem execSensorReadmitted_keeps {s0 : State} {t : ℕ} {k : Fin 16} {s : State} (hk : Keeps s0 s) :
    KeepsO s0 (execSensorReadmitted t k s) := by
  unfold execSensorReadmitted
  lift_lets
  intro u0
  have h1 : Keeps s0 u0 := by
    unfold u0
    refine begin_keeps ?_
    exact hk
  clear_value u0
  intro u2
  clear_value u2
  intro u3
  have h4 : Keeps s0 u3 := by
    unfold u3
    refine setSensor_keeps ?_
    exact h1
  clear_value u3
  refine KeepsO.next ?_
  split
  · rename_i q5 q6 q7
    refine Keeps.ite ?_ ?_
    · exact h1
    · refine noteMax_keeps ?_
      refine settleValues_keeps ?_
      refine raise_keeps ?_
      exact h4
  · rename_i q8 q9
    exact h1

theorem mgAnswer_keeps {s0 : State} {s : State} {bs : List Byte} (hk : Keeps s0 s) :
    Keeps s0 (mgAnswer s bs) := by
  unfold mgAnswer
  refine Keeps.ite ?_ ?_
  · refine emit_keeps ?_
    exact hk
  · exact hk

theorem execMgReadState_keeps {s0 : State} {t : ℕ} {s : State} (hk : Keeps s0 s) :
    KeepsO s0 (execMgReadState t s) := by
  unfold execMgReadState
  lift_lets
  intro u0
  have h1 : Keeps s0 u0 := by
    unfold u0
    refine begin_keeps ?_
    exact hk
  clear_value u0
  refine KeepsO.next ?_
  refine mgAnswer_keeps ?_
  exact h1

theorem execMgReadRole_keeps {s0 : State} {t : ℕ} {s : State} (hk : Keeps s0 s) :
    KeepsO s0 (execMgReadRole t s) := by
  unfold execMgReadRole
  lift_lets
  intro u0
  have h1 : Keeps s0 u0 := by
    unfold u0
    refine begin_keeps ?_
    exact hk
  clear_value u0
  refine KeepsO.next ?_
  refine mgAnswer_keeps ?_
  exact h1

theorem execMgReadTemp_keeps {s0 : State} {t : ℕ} {s : State} (hk : Keeps s0 s) :
    KeepsO s0 (execMgReadTemp t s) := by
  unfold execMgReadTemp
  lift_lets
  intro u0
  have h1 : Keeps s0 u0 := by
    unfold u0
    refine begin_keeps ?_
    exact hk
  clear_value u0
  refine KeepsO.next ?_
  refine mgAnswer_keeps ?_
  exact h1

theorem execMgReadFaults_keeps {s0 : State} {t : ℕ} {s : State} (hk : Keeps s0 s) :
    KeepsO s0 (execMgReadFaults t s) := by
  unfold execMgReadFaults
  lift_lets
  intro u0
  have h1 : Keeps s0 u0 := by
    unfold u0
    refine begin_keeps ?_
    exact hk
  clear_value u0
  refine KeepsO.next ?_
  refine mgAnswer_keeps ?_
  exact h1

theorem execMgReadLevel_keeps {s0 : State} {t : ℕ} {s : State} (hk : Keeps s0 s) :
    KeepsO s0 (execMgReadLevel t s) := by
  unfold execMgReadLevel
  lift_lets
  intro u0
  have h1 : Keeps s0 u0 := by
    unfold u0
    refine begin_keeps ?_
    exact hk
  clear_value u0
  refine KeepsO.next ?_
  refine mgAnswer_keeps ?_
  exact h1

theorem execMgAlertResponse_keeps {s0 : State} {t : ℕ} {s : State} (hk : Keeps s0 s) :
    KeepsO s0 (execMgAlertResponse t s) := by
  unfold execMgAlertResponse
  lift_lets
  intro u0
  have h1 : Keeps s0 u0 := by
    unfold u0
    refine begin_keeps ?_
    exact hk
  clear_value u0
  refine KeepsO.next ?_
  refine Keeps.ite ?_ ?_
  · refine mgAnswer_keeps ?_
    exact h1
  · exact h1

theorem execMgBusTimeout_keeps {s0 : State} {t : ℕ} {s : State} (hk : Keeps s0 s) :
    KeepsO s0 (execMgBusTimeout t s) := by
  unfold execMgBusTimeout
  refine KeepsO.next ?_
  refine begin_keeps ?_
  exact hk

end Sys2Proof.Laws
end

