-- ==== Sys2Proof/Laws/Message.lean ====
section
/-!
SUPPORT. The course of one message: when a channel takes it, the message is its action followed by its reply; the reply reaches
the channel; and replying changes nothing but the host interface, its doorbell registers and the outputs.
-/
namespace Sys2Proof

open Sys2Proof.Machine

theorem HostOnly.refl (s : State) : HostOnly s s := rfl

theorem HostOnly.trans {a b c : State} (h : HostOnly a b) (k : HostOnly b c) : HostOnly a c := by
  cases a; cases b; cases c
  simp only [HostOnly, State.mk.injEq] at h k ⊢
  simp_all

end Sys2Proof

namespace Sys2Proof.Laws

open Sys2Proof.Machine

theorem hostOnly_setFld (s : State) (f : Field) (i v e : Nat) : HostOnly s (setFld s f i v e) := rfl

theorem hostOnly_setMbx (s : State) (k : Nat) (f : Mbx → Mbx) : HostOnly s (setMbx s k f) := rfl

theorem hostOnly_emit (s : State) (o : Output) : HostOnly s (emit s o) := rfl

theorem hostOnly_raise (s : State) (c src a : Nat) : HostOnly s (raise s c src a) := rfl

theorem hostOnly_sendDatagram (s : State) (kind chan : Nat) (body : List Byte) : HostOnly s (sendDatagram s kind chan body) := by
  unfold sendDatagram; split <;> rfl

theorem hostOnly_sendNotify (s : State) : HostOnly s (sendNotify s) := by
  unfold sendNotify sendDatagram
  split <;> rfl

theorem hostOnly_raiseIrq (s : State) (v : Nat) : HostOnly s (raiseIrq s v) := by
  unfold raiseIrq; dsimp only; split_ifs <;> rfl

theorem hostOnly_notifyBit (s : State) (n : Nat) : HostOnly s (notifyBit s n) := by
  unfold notifyBit
  dsimp only
  have h1 : HostOnly s (if s.sys.ethernet = true ∨ s.rst.both = true then sendNotify s else s) := by
    split
    · exact hostOnly_sendNotify s
    · exact HostOnly.refl s
  generalize (if s.sys.ethernet = true ∨ s.rst.both = true then sendNotify s else s) = u at h1 ⊢
  split
  · exact h1
  · split
    · exact h1.trans (hostOnly_raiseIrq _ _)
    · exact h1

theorem hostOnly_noteSet (s : State) (key mask : Nat) : HostOnly s (noteSet s key mask) := rfl

theorem hostOnly_doorbell (s : State) (n : Nat) : HostOnly s (doorbell s n) := by
  unfold doorbell
  refine HostOnly.trans (hostOnly_noteSet s (regKey .DB_D2H_STATUS 0 0) (2 ^ n)) ?_
  generalize noteSet s (regKey .DB_D2H_STATUS 0 0) (2 ^ n) = u
  dsimp only
  split
  · exact HostOnly.refl u
  · split
    · exact hostOnly_setFld u _ _ _ _
    · exact (hostOnly_setFld u _ _ _ _).trans (hostOnly_notifyBit _ _)

theorem hostOnly_sealOut (s : State) (k : Nat) : HostOnly s (sealOut s k) := by
  unfold sealOut
  split
  · exact HostOnly.refl s
  · split
    · exact HostOnly.refl s
    · split <;> exact hostOnly_setMbx s k _

theorem hostOnly_outFilled (s : State) (k : Nat) : HostOnly s (outFilled s k) := by
  unfold outFilled
  refine (hostOnly_sealOut s k).trans ((hostOnly_doorbell (sealOut s k) (chanBit k)).trans ?_)
  generalize doorbell (sealOut s k) (chanBit k) = u
  dsimp only
  split
  · split
    · exact hostOnly_sendDatagram _ _ _ _
    · exact HostOnly.refl u
  · exact HostOnly.refl u

theorem hostOnly_pump (s : State) (k : Nat) : HostOnly s (pump s k) := by
  unfold pump
  dsimp only
  split
  · exact (hostOnly_setMbx s k _).trans (hostOnly_outFilled _ _)
  · exact hostOnly_setMbx s k _

/-- A reply changes nothing but the host interface, its doorbell registers and the outputs. -/
theorem hostOnly_answer (s : State) (k tag : Nat) (c : Bool) (r : MsgRes) : HostOnly s (answer s k tag c r) := by
  unfold answer
  split
  · exact HostOnly.refl s
  · exact (hostOnly_setMbx s k _).trans (hostOnly_pump _ _)

/-- A message that its channel takes and whose action runs at once is its action, then its reply unless that comes later. -/
theorem message_acts {s : State} {k cls op tag : Nat} {c e : Bool} (h : acts s k cls op tag c e = true)
    (act : State → State × MsgRes) :
    message s k cls op tag c e act =
      if (act (entered s k cls op tag)).2.later then (act (entered s k cls op tag)).1
      else answer (act (entered s k cls op tag)).1 k tag c (act (entered s k cls op tag)).2 := by
  simp only [acts, Bool.and_eq_true, Bool.or_eq_true, Bool.not_eq_true', decide_eq_true_eq, beq_iff_eq] at h
  obtain ⟨⟨⟨⟨⟨⟨h1, h3⟩, h4⟩, h5⟩, h6⟩, h7⟩, h8⟩ := h
  have run : ∀ u, u = takenState s k cls op tag → runMessage (enterFlight u k cls op tag) k tag c e act =
      if (act (entered s k cls op tag)).2.later then (act (entered s k cls op tag)).1
      else answer (act (entered s k cls op tag)).1 k tag c (act (entered s k cls op tag)).2 := by
    rintro u rfl
    have hc : (mbx (enterFlight (takenState s k cls op tag) k cls op tag) k).comparing = false := by
      unfold mbx enterFlight setMbx upd nth at *
      simp only [List.getElem?_modify] at *
      cases hx : (takenState s k cls op tag).host.chans[k]? <;> simp_all
    unfold runMessage
    simp only [hc, Bool.false_eq_true, if_false]
    rw [show setMbx (enterFlight (takenState s k cls op tag) k cls op tag) k (fun m => { m with comparing := false }) =
      entered s k cls op tag from rfl]
    have hs : ¬ (c = true ∧ (entered s k cls op tag).pair.role = .standby ∧ (!e) = true) := by
      intro hh
      have : (takenState s k cls op tag).pair.role = .standby := hh.2.1
      simp_all
    simp only [hs, if_false]
  unfold message
  cases hp : pendingIs (mbx s k) cls op tag with
  | true =>
    simp only [h1, h3, Bool.not_true, Bool.false_eq_true, if_false, if_true]
    exact run _ (by simp [takenState, hp])
  | false =>
    rw [hp] at h4
    simp only [Bool.false_eq_true, false_or] at h4
    simp only [h1, h3, h4.1.1, h4.1.2, Bool.not_true, Bool.false_eq_true, if_false, show ¬ 5 ≤ outstanding (mbx s k) by omega]
    have hu : countTaken s k = takenState s k cls op tag := by simp [takenState, hp]
    rw [hu, h6]
    simp only [if_true]
    exact run _ rfl

/-! ### The reply reaches the channel -/

theorem chans_raiseIrq (s : State) (v : Nat) : (raiseIrq s v).host.chans = s.host.chans := by
  unfold raiseIrq; dsimp only; split_ifs <;> rfl

theorem chans_sendDatagram (s : State) (kind chan : Nat) (body : List Byte) : (sendDatagram s kind chan body).host.chans = s.host.chans := by
  unfold sendDatagram; split <;> rfl

theorem chans_sendNotify (s : State) : (sendNotify s).host.chans = s.host.chans := by
  unfold sendNotify; rw [chans_sendDatagram]

theorem chans_notifyBit (s : State) (n : Nat) : (notifyBit s n).host.chans = s.host.chans := by
  unfold notifyBit
  dsimp only
  have h1 : (if s.sys.ethernet = true ∨ s.rst.both = true then sendNotify s else s).host.chans = s.host.chans := by
    split
    · exact chans_sendNotify s
    · rfl
  generalize (if s.sys.ethernet = true ∨ s.rst.both = true then sendNotify s else s) = u at h1 ⊢
  split
  · exact h1
  · split
    · rw [chans_raiseIrq, h1]
    · exact h1

theorem chans_doorbell (s : State) (n : Nat) : (doorbell s n).host.chans = s.host.chans := by
  unfold doorbell
  refine Eq.trans (b := (noteSet s (regKey .DB_D2H_STATUS 0 0) (2 ^ n)).host.chans) ?_ rfl
  generalize noteSet s (regKey .DB_D2H_STATUS 0 0) (2 ^ n) = u
  dsimp only
  split_ifs
  · rfl
  · rfl
  · rw [chans_notifyBit]; rfl

/-- A channel changed reads as changed. -/
theorem mbx_setMbx {s : State} {k : Nat} (h : k < s.host.chans.length) (f : Mbx → Mbx) : mbx (setMbx s k f) k = f (mbx s k) := by
  simp [mbx, setMbx, upd, nth, List.getElem?_eq_getElem h]

/-- A change that leaves a channel's replies leaves them in every channel. -/
theorem heldReplies_setMbx (s : State) (k j : Nat) (f : Mbx → Mbx) (h : ∀ m, heldReplies (f m) = heldReplies m) :
    heldReplies (mbx (setMbx s k f) j) = heldReplies (mbx s j) := by
  unfold mbx setMbx upd nth
  simp only [List.getElem?_modify]
  cases hx : s.host.chans[j]? with
  | none => simp
  | some m => by_cases e : k = j <;> simp [e, h]

/-- The seal of a reply leaves the replies that the channels hold. -/
theorem heldReplies_sealOut (s : State) (k j : Nat) : heldReplies (mbx (sealOut s k) j) = heldReplies (mbx s j) := by
  unfold sealOut
  split
  · rfl
  · split
    · rfl
    · split <;> exact heldReplies_setMbx _ _ _ _ fun _ => rfl

theorem heldReplies_outFilled (s : State) (k j : Nat) : heldReplies (mbx (outFilled s k) j) = heldReplies (mbx s j) := by
  rw [← heldReplies_sealOut s k j]
  have h (u : State) (e : u.host.chans = (sealOut s k).host.chans) : heldReplies (mbx u j) = heldReplies (mbx (sealOut s k) j) := by
    simp only [mbx, e]
  refine h _ ?_
  unfold outFilled
  refine Eq.trans ?_ (chans_doorbell (sealOut s k) (chanBit k))
  generalize doorbell (sealOut s k) (chanBit k) = u
  dsimp only
  split
  · split
    · exact chans_sendDatagram _ _ _ _
    · rfl
  · rfl

/-- Moving replies out loses none that is not dropped. -/
theorem pumpFlights_keeps {r : Reply} (fs : List Flight) (out : Option Reply) (q : List Reply) (b : Bool)
    (h : r ∈ out.toList ++ q ∨ ∃ f ∈ fs, f.reply = some r ∧ f.drop = false) :
    r ∈ (pumpFlights fs out q b).2.1.toList ++ (pumpFlights fs out q b).2.2.1 ++ (pumpFlights fs out q b).1.filterMap (·.reply) := by
  induction fs generalizing out q b with
  | nil =>
    rcases h with h | ⟨f, hf, -⟩
    · simpa [pumpFlights] using h
    · cases hf
  | cons f fs ih =>
    unfold pumpFlights
    cases hr : f.reply with
    | none =>
      dsimp only
      rcases h with h | ⟨g, hg, hg1, hg2⟩
      · simp only [List.mem_append] at h ⊢; exact Or.inl h
      · refine List.mem_append_right _ (List.mem_filterMap.mpr ⟨g, ?_, hg1⟩)
        exact hg
    | some r' =>
      cases hh : f.hold with
      | some x =>
        dsimp only
        rcases h with h | ⟨g, hg, hg1, hg2⟩
        · simp only [List.mem_append] at h ⊢; exact Or.inl h
        · exact List.mem_append_right _ (List.mem_filterMap.mpr ⟨g, hg, hg1⟩)
      | none =>
        dsimp only
        cases hd : f.drop with
        | true =>
          simp only [if_true]
          refine ih _ _ _ ?_
          rcases h with h | ⟨g, hg, hg1, hg2⟩
          · exact Or.inl h
          · rcases List.mem_cons.mp hg with rfl | hg
            · simp_all
            · exact Or.inr ⟨g, hg, hg1, hg2⟩
        | false =>
          simp only [Bool.false_eq_true, if_false]
          cases out with
          | none =>
            refine ih _ _ _ ?_
            rcases h with h | ⟨g, hg, hg1, hg2⟩
            · left; simp only [Option.toList_none, List.nil_append] at h; simp [h]
            · rcases List.mem_cons.mp hg with rfl | hg
              · left; simp_all
              · exact Or.inr ⟨g, hg, hg1, hg2⟩
          | some o =>
            refine ih _ _ _ ?_
            rcases h with h | ⟨g, hg, hg1, hg2⟩
            · left; simp only [List.mem_append] at h ⊢; tauto
            · rcases List.mem_cons.mp hg with rfl | hg
              · left; simp_all
              · exact Or.inr ⟨g, hg, hg1, hg2⟩

/-- Moving a channel's replies out keeps each of them in the channel. -/
theorem heldReplies_pump {s : State} {k : Nat} {r : Reply} (hk : k < s.host.chans.length)
    (h : r ∈ (mbx s k).out.toList ++ (mbx s k).queue ∨ ∃ f ∈ (mbx s k).flight, f.reply = some r ∧ f.drop = false) :
    r ∈ heldReplies (mbx (pump s k) k) := by
  have key := pumpFlights_keeps (mbx s k).flight (mbx s k).out (mbx s k).queue false h
  unfold pump
  dsimp only
  rcases hp : pumpFlights (mbx s k).flight (mbx s k).out (mbx s k).queue false with ⟨fl, o, q, filled⟩
  rw [hp] at key
  dsimp only at key ⊢
  have hm : r ∈ heldReplies (mbx (setMbx s k fun m => { m with flight := fl, out := o, queue := q }) k) := by
    rw [mbx_setMbx hk]
    exact key
  split
  · rw [heldReplies_outFilled]
    exact hm
  · exact hm

/-- The channel on which a message's action runs holds the message last in execution, and no other of its tag. -/
theorem entered_flight {s : State} {k cls op tag : Nat} {c e : Bool} (h : acts s k cls op tag c e = true) :
    (mbx (entered s k cls op tag) k).flight = (mbx (takenState s k cls op tag) k).flight ++ [{ cls := cls, op := op, tag := tag }] ∧
      (∀ f ∈ (mbx (takenState s k cls op tag) k).flight, f.tag ≠ tag) ∧ k < (entered s k cls op tag).host.chans.length := by
  simp only [acts, Bool.and_eq_true, Bool.not_eq_true', decide_eq_true_eq, beq_iff_eq] at h
  obtain ⟨⟨⟨⟨⟨⟨-, -⟩, -⟩, h5⟩, h6⟩, -⟩, -⟩ := h
  have hb : tagBusy (mbx (takenState s k cls op tag) k) tag = false := by
    unfold takeCheck at h6
    split_ifs at h6 with a b d f g hh
    exact Bool.eq_false_iff.mpr g
  refine ⟨?_, ?_, ?_⟩
  · unfold entered
    rw [mbx_setMbx (by simpa [enterFlight, setMbx, upd] using h5)]
    unfold enterFlight
    rw [mbx_setMbx h5]
  · intro f hf ht
    simp only [tagBusy, Bool.or_eq_false_iff, List.any_eq_false] at hb
    have := hb.1.1 f hf
    simp [ht] at this
  · simpa [entered, enterFlight, setMbx, upd] using h5

theorem length_chans_setMbx (s : State) (k : Nat) (f : Mbx → Mbx) : (setMbx s k f).host.chans.length = s.host.chans.length := by
  simp [setMbx, upd]

end Sys2Proof.Laws
end

