-- ==== Sys2Proof/Laws/Packets.lean ====
section
/-!
SUPPORT. Lemmas about the bytes of packets: how many blocks a packet takes, and how long it is.
-/
namespace Sys2Proof.Machine

theorem leBytes_len (n x : Nat) : (leBytes n x).length = n := by
  induction n generalizing x with
  | zero => rfl
  | succ n ih => simp [leBytes, ih]

theorem packetOf_length (type target line epoch : Nat) (unitB standby : Bool) (payload : List Byte) :
    (packetOf type target line epoch unitB standby payload).length = 16 + payload.length := by
  simp [packetOf, leBytes_len]; omega

/-- A packet of B bytes takes ⌈(B + 2) / 8⌉ blocks (R253). -/
theorem packetBlocks_length (b : List Byte) (h : 7 ≤ b.length) : (packetBlocks b).length = ceilDiv (b.length + 2) 8 := by
  simp [packetBlocks, ceilDiv]; omega

end Sys2Proof.Machine
end

