-- ==== Sys2Proof/Laws/PickBase.lean ====
section
/-!
SUPPORT. What leaves the number of the pick alone: the relation, and the rules by which an operation built from others keeps it.
-/
namespace Sys2Proof.Laws

open Sys2Proof.Machine

/-- The number of the current pick (R16) is `n`. -/
structure SamePick (n : Nat) (u : State) : Prop where
  pick : u.time.pick = n

/-- The same of an operation that may answer nothing. -/
def SamePickQ (n : Nat) : Option State → Prop
  | some u => SamePick n u
  | none => True

/-- The same of an operation that may answer a value and a state. -/
def SamePickQ2 {α : Type} (n : Nat) : Option (α × State) → Prop
  | some (_, u) => SamePick n u
  | none => True

theorem SamePickQ.mk {n : Nat} {u : State} (h : SamePick n u) : SamePickQ n (some u) := h

theorem SamePickQ2.mk {α : Type} {n : Nat} {u : State} {a : α} (h : SamePick n u) : SamePickQ2 n (some (a, u)) := h

theorem SamePick.fst_of {α : Type} {n : Nat} {u : State} {p : State × α} {r : α} (e : p = (u, r)) (h : SamePick n p.1) :
    SamePick n u := by
  rw [e] at h; exact h

theorem SamePick.snd_of {α : Type} {n : Nat} {u : State} {p : α × State} {r : α} (e : p = (r, u)) (h : SamePick n p.2) :
    SamePick n u := by
  rw [e] at h; exact h

theorem SamePickQ.of {n : Nat} {u : State} {p : Option State} (e : p = some u) (h : SamePickQ n p) : SamePick n u := by
  rw [e] at h; exact h

theorem SamePickQ2.of {α : Type} {n : Nat} {u : State} {p : Option (α × State)} {r : α} (e : p = some (r, u))
    (h : SamePickQ2 n p) : SamePick n u := by
  rw [e] at h; exact h

theorem SamePickQ.getD {n : Nat} {d : State} {p : Option State} (hp : SamePickQ n p) (hd : SamePick n d) : SamePick n (p.getD d) := by
  cases p with
  | none => exact hd
  | some u => exact hp

theorem SamePickQ2.getD {α : Type} {n : Nat} {p : Option (α × State)} {d : α × State} (hp : SamePickQ2 n p)
    (hd : SamePick n d.2) : SamePick n (p.getD d).2 := by
  cases p with
  | none => exact hd
  | some u => exact hp

theorem SamePickQ.bind {n : Nat} {p : Option State} {f : State → Option State} (hp : SamePickQ n p)
    (hf : ∀ x, SamePick n x → SamePickQ n (f x)) : SamePickQ n (p.bind f) := by
  cases p with
  | none => exact True.intro
  | some x => exact hf x hp

/-- An update that does not name device time. -/
theorem SamePick.other {n : Nat} {x : State} (h : SamePick n x) {pe o f sy po ho l a b c st se jo pr pa li vi co mo sc rs th pw} :
    SamePick n ⟨pe, o, f, sy, x.time, po, ho, l, a, b, c, st, se, jo, pr, pa, li, vi, co, mo, sc, rs, th, pw⟩ := ⟨h.pick⟩

/-- An update of device time that leaves the number of the pick. -/
theorem SamePick.time {n : Nat} {x : State} (h : SamePick n x) {T : TimeSt} (hT : T.pick = x.time.pick)
    {o f sy po ho l a b c st se jo pr pa li vi co mo sc rs th pw} :
    SamePick n ⟨x.pending, o, f, sy, T, po, ho, l, a, b, c, st, se, jo, pr, pa, li, vi, co, mo, sc, rs, th, pw⟩ := ⟨hT.trans h.pick⟩

theorem SamePick.ite {n : Nat} {a b : State} {c : Prop} [Decidable c] (ha : SamePick n a) (hb : SamePick n b) :
    SamePick n (if c then a else b) := by split <;> assumption

theorem SamePick.foldl {α : Type} {n : Nat} {f : State → α → State} (l : List α) {s : State} (h : SamePick n s)
    (hf : ∀ x a, SamePick n x → SamePick n (f x a)) : SamePick n (l.foldl f s) := by
  induction l generalizing s with
  | nil => exact h
  | cons a l ih => exact ih (hf _ _ h)

theorem SamePick.foldl_fst {α β : Type} {n : Nat} {f : State × β → α → State × β} (l : List α) {p : State × β} (h : SamePick n p.1)
    (hf : ∀ x a, SamePick n x.1 → SamePick n (f x a).1) : SamePick n (l.foldl f p).1 := by
  induction l generalizing p with
  | nil => exact h
  | cons a l ih => exact ih (hf _ _ h)

theorem SamePick.foldl_snd {α β : Type} {n : Nat} {f : β × State → α → β × State} (l : List α) {p : β × State} (h : SamePick n p.2)
    (hf : ∀ x a, SamePick n x.2 → SamePick n (f x a).2) : SamePick n (l.foldl f p).2 := by
  induction l generalizing p with
  | nil => exact h
  | cons a l ih => exact ih (hf _ _ h)

end Sys2Proof.Laws
end

