-- ==== Sys2Proof/Laws/PickNumber.lean ====
section
/-!
SUPPORT. No operation of a pick boundary but the beginning of the pick changes the pick number, one lemma each; and the boundary
raises it by one (R16, R17).
-/
namespace Sys2Proof.Laws

open Sys2Proof.Machine

theorem keepCounts_pick {p0 : Nat} {s : State} (hk : SamePick p0 s) :
    SamePick p0 (keepCounts s) := by
  unfold keepCounts
  refine SamePick.other ?_
  exact hk

/-- What is done under another pick's number leaves the number. -/
theorem asPick_pick {p0 k : Nat} {f : State → State} {s : State} (hk : SamePick p0 s) :
    SamePick p0 (asPick k f s) := ⟨hk.pick⟩

theorem noteSet_pick {p0 : Nat} {s : State} {key : ℕ} {mask : ℕ} (hk : SamePick p0 s) :
    SamePick p0 (noteSet s key mask) := by
  unfold noteSet
  lift_lets
  intro u0
  intro u1
  clear_value u1
  refine SamePick.other ?_
  exact hk

theorem setFld_pick {p0 : Nat} {s : State} {f : Machine.Field} {i : ℕ} {v : ℕ} {e : optParam ℕ 0} (hk : SamePick p0 s) :
    SamePick p0 (setFld s f i v e) := by
  unfold setFld
  refine SamePick.other ?_
  exact hk

theorem emit_pick {p0 : Nat} {s : State} {o : Output} (hk : SamePick p0 s) :
    SamePick p0 (emit s o) := by
  unfold emit
  refine SamePick.other ?_
  exact hk

theorem sendDatagram_pick {p0 : Nat} {s : State} {kind : ℕ} {chan : ℕ} {body : List Byte} (hk : SamePick p0 s) :
    SamePick p0 (sendDatagram s kind chan body) := by
  unfold sendDatagram
  split
  · rename_i q0 q1
    exact hk
  · rename_i q2 q3 q4
    refine emit_pick ?_
    refine SamePick.other ?_
    exact hk

theorem sendNotify_pick {p0 : Nat} {s : State} (hk : SamePick p0 s) :
    SamePick p0 (sendNotify s) := by
  unfold sendNotify
  refine sendDatagram_pick ?_
  refine SamePick.other ?_
  exact hk

theorem raiseIrq_pick {p0 : Nat} {s : State} {v : ℕ} (hk : SamePick p0 s) :
    SamePick p0 (raiseIrq s v) := by
  unfold raiseIrq
  lift_lets
  intro u0
  clear_value u0
  intro u1
  clear_value u1
  refine SamePick.ite ?_ ?_
  · refine SamePick.other ?_
    exact hk
  · refine emit_pick ?_
    refine SamePick.other ?_
    exact hk

theorem notifyBit_pick {p0 : Nat} {s : State} {n : ℕ} (hk : SamePick p0 s) :
    SamePick p0 (notifyBit s n) := by
  unfold notifyBit
  lift_lets
  intro u0
  have h1 : SamePick p0 u0 := by
    unfold u0
    refine SamePick.ite ?_ ?_
    · refine sendNotify_pick ?_
      exact hk
    · exact hk
  clear_value u0
  refine SamePick.ite ?_ ?_
  · exact h1
  · split
    · rename_i q2 q3 q4
      refine raiseIrq_pick ?_
      exact h1
    · rename_i q5 q6
      exact h1

theorem doorbell_pick {p0 : Nat} {s : State} {n : ℕ} (hk : SamePick p0 s) :
    SamePick p0 (doorbell s n) := by
  unfold doorbell
  lift_lets
  intro u0
  have h1 : SamePick p0 u0 := by
    unfold u0
    refine noteSet_pick ?_
    exact hk
  clear_value u0
  intro u2
  clear_value u2
  intro u3
  have h4 : SamePick p0 u3 := by
    unfold u3
    refine setFld_pick ?_
    exact h1
  clear_value u3
  refine SamePick.ite ?_ ?_
  · exact h1
  · refine SamePick.ite ?_ ?_
    · exact h4
    · refine notifyBit_pick ?_
      exact h4

theorem raiseAt_pick {p0 : Nat} {s : State} {time : ℕ} {code : ℕ} {source : ℕ} {arg : ℕ} (hk : SamePick p0 s) :
    SamePick p0 (raiseAt s time code source arg) := by
  unfold raiseAt
  refine SamePick.other ?_
  exact hk

theorem raise_pick {p0 : Nat} {s : State} {code : ℕ} {source : ℕ} {arg : ℕ} (hk : SamePick p0 s) :
    SamePick p0 (raise s code source arg) := by
  unfold raise
  refine raiseAt_pick ?_
  exact hk

theorem changeSource_pick {p0 : Nat} {s : State} {src : ℕ} (hk : SamePick p0 s) :
    SamePick p0 (changeSource s src) := by
  unfold changeSource
  refine SamePick.ite ?_ ?_
  · exact hk
  · lift_lets
    intro u0
    clear_value u0
    intro u1
    refine raise_pick ?_
    refine SamePick.time ?_ ?_
    · exact hk
    · rfl

theorem toStandby_pick {p0 : Nat} {s : State} (hk : SamePick p0 s) :
    SamePick p0 (toStandby s) := by
  unfold toStandby
  lift_lets
  intro u0
  clear_value u0
  intro u1
  have h2 : SamePick p0 u1 := by
    unfold u1
    refine SamePick.other ?_
    exact hk
  clear_value u1
  intro u4
  have h5 : SamePick p0 u4 := by
    unfold u4
    refine doorbell_pick ?_
    exact h2
  clear_value u4
  refine changeSource_pick ?_
  exact h5

theorem loseLease_pick {p0 : Nat} {s : State} {cause : ℕ} (hk : SamePick p0 s) :
    SamePick p0 (loseLease s cause) := by
  unfold loseLease
  refine SamePick.ite ?_ ?_
  · exact hk
  · lift_lets
    intro u0
    have h1 : SamePick p0 u0 := by
      unfold u0
      refine SamePick.foldl _ ?_ (fun x2 a3 hx4 => ?_)
      · exact hk
      · refine SamePick.ite ?_ ?_
        · refine emit_pick ?_
          exact hx4
        · exact hx4
    clear_value u0
    intro u5
    clear_value u5
    intro u6
    have h7 : SamePick p0 u6 := by
      unfold u6
      refine emit_pick ?_
      refine SamePick.other ?_
      exact h1
    clear_value u6
    refine doorbell_pick ?_
    refine raise_pick ?_
    exact h7

theorem setSummary_pick {p0 : Nat} {s : State} {k : ℕ} (hk : SamePick p0 s) :
    SamePick p0 (setSummary s k) := by
  unfold setSummary
  lift_lets
  intro u0
  have h1 : SamePick p0 u0 := by
    unfold u0
    refine SamePick.ite ?_ ?_
    · exact hk
    · refine noteSet_pick ?_
      exact hk
  clear_value u0
  intro u2
  clear_value u2
  intro u3
  have h4 : SamePick p0 u3 := by
    unfold u3
    refine setFld_pick ?_
    exact h1
  clear_value u3
  refine SamePick.ite ?_ ?_
  · exact h1
  · refine SamePick.ite ?_ ?_
    · exact h4
    · refine doorbell_pick ?_
      exact h4

theorem sticky_pick {p0 : Nat} {s : State} {f : Machine.Field} {i : optParam ℕ 0} {b : optParam ℕ 0} (hk : SamePick p0 s) :
    SamePick p0 (sticky s f i b) := by
  unfold sticky
  lift_lets
  intro u0
  have h1 : SamePick p0 u0 := by
    unfold u0
    refine noteSet_pick ?_
    exact hk
  clear_value u0
  intro u2
  clear_value u2
  intro u3
  have h4 : SamePick p0 u3 := by
    unfold u3
    refine setFld_pick ?_
    exact h1
  clear_value u3
  refine SamePick.ite ?_ ?_
  · exact h1
  · refine SamePick.ite ?_ ?_
    · exact h4
    · refine setSummary_pick ?_
      exact h4

theorem toPeer_pick {p0 : Nat} {s : State} {p : PeerItem} (hk : SamePick p0 s) :
    SamePick p0 (toPeer s p) := by
  unfold toPeer
  refine SamePick.ite ?_ ?_
  · exact hk
  · refine emit_pick ?_
    exact hk

theorem countKeyed_pick {p0 : Nat} {s : State} (hk : SamePick p0 s) :
    SamePick p0 (countKeyed s) := by
  unfold countKeyed
  lift_lets
  intro u0
  clear_value u0
  intro u1
  clear_value u1
  intro u2
  have h3 : SamePick p0 u2 := by
    unfold u2
    refine SamePick.other ?_
    exact hk
  clear_value u2
  refine SamePick.ite ?_ ?_
  · refine toPeer_pick ?_
    exact h3
  · exact h3

theorem sendRecord_pick {p0 : Nat} {s : State} {release : Option ℕ} {flush : Bool} (hk : SamePick p0 s) :
    SamePick p0 (sendRecord s release flush) := by
  unfold sendRecord
  lift_lets
  intro u0
  clear_value u0
  intro u1
  clear_value u1
  intro u2
  clear_value u2
  intro u3
  have h4 : SamePick p0 u3 := by
    unfold u3
    refine SamePick.other ?_
    exact hk
  clear_value u3
  intro u6
  clear_value u6
  refine countKeyed_pick ?_
  refine toPeer_pick ?_
  refine SamePick.other ?_
  exact h4

theorem releaseLease_pick {p0 : Nat} {s : State} {code : ℕ} (hk : SamePick p0 s) :
    SamePick p0 (releaseLease s code) := by
  unfold releaseLease
  refine SamePick.ite ?_ ?_
  · exact hk
  · lift_lets
    intro u0
    clear_value u0
    intro u1
    have h2 : SamePick p0 u1 := by
      unfold u1
      refine loseLease_pick ?_
      refine sticky_pick ?_
      refine SamePick.other ?_
      exact hk
    clear_value u1
    refine sendRecord_pick ?_
    exact h2

theorem handOverNow_pick {p0 : Nat} {s : State} {h : ℕ} (hk : SamePick p0 s) :
    SamePick p0 (handOverNow s h) := by
  unfold handOverNow
  refine toStandby_pick ?_
  refine releaseLease_pick ?_
  refine raise_pick ?_
  exact hk

theorem setDram_pick {p0 : Nat} {s : State} {n : ℕ} {f : DramChan → DramChan} (hk : SamePick p0 s) :
    SamePick p0 (setDram s n f) := by
  unfold setDram
  refine SamePick.other ?_
  exact hk

theorem finishAccess_pick {p0 : Nat} {s : State} {u : MemUser} (hk : SamePick p0 s) :
    SamePick p0 (finishAccess s u) := by
  unfold finishAccess
  refine SamePick.foldl _ ?_ (fun x0 a1 hx2 => ?_)
  · exact hk
  · refine setDram_pick ?_
    exact hx2

theorem endRead_pick {p0 : Nat} {s : State} {c : ℕ} {n : ℕ} (hk : SamePick p0 s) :
    SamePick p0 (endRead s c n) := by
  unfold endRead
  lift_lets
  intro u0
  have h1 : SamePick p0 u0 := by
    unfold u0
    refine finishAccess_pick ?_
    exact hk
  clear_value u0
  intro u2
  clear_value u2
  intro u3
  clear_value u3
  refine SamePick.other ?_
  exact h1

theorem setChan_pick {p0 : Nat} {s : State} {c : ℕ} {f : Chan → Chan} (hk : SamePick p0 s) :
    SamePick p0 (setChan s c f) := by
  unfold setChan
  refine SamePick.other ?_
  exact hk

theorem stopFetch_pick {p0 : Nat} {s : State} (hk : SamePick p0 s) :
    SamePick p0 (stopFetch s) := by
  unfold stopFetch
  refine SamePick.foldl _ ?_ (fun x0 a1 hx2 => ?_)
  · exact hk
  · lift_lets
    intro u3
    have h4 : SamePick p0 u3 := by
      unfold u3
      refine SamePick.foldl _ ?_ (fun x5 a6 hx7 => ?_)
      · exact hx2
      · refine endRead_pick ?_
        exact hx7
    clear_value u3
    refine setChan_pick ?_
    exact h4

theorem stopStandby_pick {p0 : Nat} {s : State} (hk : SamePick p0 s) :
    SamePick p0 (stopStandby s) := by
  unfold stopStandby
  lift_lets
  intro u0
  have h1 : SamePick p0 u0 := by
    unfold u0
    refine raise_pick ?_
    refine stopFetch_pick ?_
    exact hk
  clear_value u0
  intro u2
  clear_value u2
  refine SamePick.other ?_
  exact h1

theorem activeStep_pick {p0 : Nat} {s : State} {k : ℕ} (hk : SamePick p0 s) : SamePick p0 (activeStep s k) := by
  unfold activeStep
  refine SamePick.ite ?_ ?_
  · exact SamePick.ite (stopStandby_pick (asPick_pick hk)) (asPick_pick hk)
  · exact asPick_pick ⟨hk.pick⟩

theorem askTime_pick {p0 : Nat} {s : State} (hk : SamePick p0 s) :
    SamePick p0 (askTime s) := by
  unfold askTime
  refine SamePick.ite ?_ ?_
  · refine toPeer_pick ?_
    exact hk
  · exact hk

theorem changeScore_pick {p0 : Nat} {s : State} {d : ℤ} (hk : SamePick p0 s) :
    SamePick p0 (changeScore s d) := by
  unfold changeScore
  lift_lets
  intro u0
  clear_value u0
  intro u1
  clear_value u1
  intro u2
  clear_value u2
  intro u3
  clear_value u3
  intro u4
  have h5 : SamePick p0 u4 := by
    unfold u4
    refine SamePick.other ?_
    exact hk
  clear_value u4
  refine SamePick.ite ?_ ?_
  · refine raise_pick ?_
    refine sticky_pick ?_
    exact h5
  · exact h5

theorem bump_pick {p0 : Nat} {s : State} {f : Machine.Field} {i : optParam ℕ 0} {n : optParam ℕ 1} (hk : SamePick p0 s) :
    SamePick p0 (bump s f i n) := by
  unfold bump
  refine setFld_pick ?_
  exact hk

theorem standbyStep_pick {p0 : Nat} {s : State} (hk : SamePick p0 s) :
    SamePick p0 (standbyStep s) := by
  unfold standbyStep
  lift_lets
  intro u0
  clear_value u0
  intro u1
  clear_value u1
  intro u2
  have h3 : SamePick p0 u2 := by
    unfold u2
    refine askTime_pick ?_
    refine SamePick.other ?_
    exact hk
  clear_value u2
  refine SamePick.ite ?_ ?_
  · refine changeScore_pick ?_
    refine sticky_pick ?_
    refine bump_pick ?_
    exact h3
  · exact h3

theorem heartbeat_pick {p0 : Nat} {s : State} (hk : SamePick p0 s) :
    SamePick p0 (heartbeat s) := by
  unfold heartbeat
  refine SamePick.ite ?_ ?_
  · refine emit_pick ?_
    refine SamePick.other ?_
    exact hk
  · exact hk

theorem setMbx_pick {p0 : Nat} {s : State} {k : ℕ} {f : Mbx → Mbx} (hk : SamePick p0 s) :
    SamePick p0 (setMbx s k f) := by
  unfold setMbx
  refine SamePick.other ?_
  exact hk

theorem sealOut_pick {p0 : Nat} {s : State} {k : ℕ} (hk : SamePick p0 s) :
    SamePick p0 (sealOut s k) := by
  unfold sealOut
  split
  · rename_i q0 q1
    exact hk
  · rename_i q2 q3 q4
    refine SamePick.ite ?_ ?_
    · exact hk
    · refine SamePick.ite ?_ ?_
      · refine setMbx_pick ?_
        exact hk
      · refine setMbx_pick ?_
        exact hk

theorem outFilled_pick {p0 : Nat} {s : State} {k : ℕ} (hk : SamePick p0 s) :
    SamePick p0 (outFilled s k) := by
  unfold outFilled
  lift_lets
  intro u0
  have h1 : SamePick p0 u0 := by
    unfold u0
    refine doorbell_pick ?_
    refine sealOut_pick ?_
    exact hk
  clear_value u0
  refine SamePick.ite ?_ ?_
  · split
    · rename_i q2 q3 q4
      refine sendDatagram_pick ?_
      exact h1
    · rename_i q5 q6
      exact h1
  · exact h1

theorem pump_pick {p0 : Nat} {s : State} {k : ℕ} (hk : SamePick p0 s) :
    SamePick p0 (pump s k) := by
  unfold pump
  lift_lets
  intro u0
  clear_value u0
  rcases e5 : pumpFlights u0.flight u0.out u0.queue false with ⟨a1, a2, a3, a4⟩
  dsimp only
  refine SamePick.ite ?_ ?_
  · refine outFilled_pick ?_
    refine setMbx_pick ?_
    exact hk
  · refine setMbx_pick ?_
    exact hk

theorem releaseHeld_pick {p0 : Nat} {s : State} {single : Bool} {upTo : ℕ} (hk : SamePick p0 s) :
    SamePick p0 (releaseHeld s single upTo) := by
  unfold releaseHeld
  refine SamePick.foldl _ ?_ (fun x0 a1 hx2 => ?_)
  · exact hk
  · refine pump_pick ?_
    refine setMbx_pick ?_
    exact hx2

theorem stepRecord_pick {p0 : Nat} {s : State} {k : ℕ} (hk : SamePick p0 s) :
    SamePick p0 (stepRecord s k) := by
  unfold stepRecord
  lift_lets
  intro u0
  have h1 : SamePick p0 u0 := by
    unfold u0
    refine keepCounts_pick ?_
    exact hk
  clear_value u0
  intro u2
  have h3 : SamePick p0 u2 := by
    unfold u2
    refine SamePick.ite ?_ ?_
    · refine activeStep_pick ?_
      exact h1
    · refine SamePick.ite ?_ ?_
      · refine standbyStep_pick ?_
        exact h1
      · exact h1
  clear_value u2
  intro u4
  clear_value u4
  intro u5
  have h6 : SamePick p0 u5 := by
    unfold u5
    refine heartbeat_pick ?_
    refine SamePick.other ?_
    exact h3
  clear_value u5
  refine SamePick.ite ?_ ?_
  · exact h6
  · refine releaseHeld_pick ?_
    exact h6

theorem setAxis_pick {p0 : Nat} {s : State} {n : ℕ} {f : Axis → Axis} (hk : SamePick p0 s) :
    SamePick p0 (setAxis s n f) := by
  unfold setAxis
  refine SamePick.other ?_
  exact hk

theorem motEvent_pick {p0 : Nat} {s : State} {code : ℕ} {n : ℕ} {arg : ℕ} (hk : SamePick p0 s) :
    SamePick p0 (motEvent s code n arg) := by
  unfold motEvent
  refine SamePick.ite ?_ ?_
  · exact hk
  · refine raise_pick ?_
    refine SamePick.other ?_
    exact hk

theorem completeMoves_pick {p0 : Nat} {s : State} (hk : SamePick p0 s) :
    SamePick p0 (completeMoves s) := by
  unfold completeMoves
  lift_lets
  intro u0
  have h1 : SamePick p0 u0 := by
    unfold u0
    refine SamePick.foldl _ ?_ (fun x2 a3 hx4 => ?_)
    · exact hk
    · lift_lets
      intro u5
      clear_value u5
      refine SamePick.ite ?_ ?_
      · exact hx4
      · split
        · rename_i q6 q7 q8
          lift_lets
          intro u9
          clear_value u9
          intro u10
          clear_value u10
          intro u11
          have h12 : SamePick p0 u11 := by
            unfold u11
            refine setAxis_pick ?_
            exact hx4
          clear_value u11
          refine SamePick.ite ?_ ?_
          · refine motEvent_pick ?_
            exact h12
          · exact hx4
        · rename_i q13 q14
          refine SamePick.ite ?_ ?_
          · refine motEvent_pick ?_
            refine setAxis_pick ?_
            exact hx4
          · exact hx4
  clear_value u0
  refine SamePick.foldl _ ?_ (fun x15 a16 hx17 => ?_)
  · exact h1
  · lift_lets
    intro u18
    have h19 : SamePick p0 u18 := by
      unfold u18
      refine SamePick.other ?_
      exact hx17
    clear_value u18
    refine SamePick.ite ?_ ?_
    · exact hx17
    · refine SamePick.foldl _ ?_ (fun x21 a22 hx23 => ?_)
      · exact h19
      · lift_lets
        intro u24
        have h25 : SamePick p0 u24 := by
          unfold u24
          refine setAxis_pick ?_
          exact hx23
        clear_value u24
        refine SamePick.ite ?_ ?_
        · refine motEvent_pick ?_
          exact h25
        · exact h25

theorem setGroup_pick {p0 : Nat} {s : State} {g : ℕ} {f : GroupRun → GroupRun} (hk : SamePick p0 s) :
    SamePick p0 (setGroup s g f) := by
  unfold setGroup
  refine SamePick.other ?_
  exact hk

theorem rampStop_pick {p0 : Nat} {s : State} {n : ℕ} (hk : SamePick p0 s) :
    SamePick p0 (rampStop s n) := by
  unfold rampStop
  split
  · rename_i q0 q1 q2
    refine setGroup_pick ?_
    exact hk
  · rename_i q3 q4
    refine setAxis_pick ?_
    exact hk

theorem abortHoming_pick {p0 : Nat} {s : State} {n : ℕ} {f : Machine.Field} (hk : SamePick p0 s) :
    SamePick p0 (abortHoming s n f) := by
  unfold abortHoming
  lift_lets
  intro u0
  have h1 : SamePick p0 u0 := by
    unfold u0
    refine sticky_pick ?_
    exact hk
  clear_value u0
  refine motEvent_pick ?_
  exact h1

theorem homingLimits_pick {p0 : Nat} {s : State} {n : ℕ} (hk : SamePick p0 s) :
    SamePick p0 (homingLimits s n) := by
  unfold homingLimits
  split
  · rename_i q0 q1
    exact hk
  · rename_i q2 q3 q4
    lift_lets
    intro u5
    clear_value u5
    refine SamePick.ite ?_ ?_
    · refine rampStop_pick ?_
      refine abortHoming_pick ?_
      exact hk
    · refine SamePick.ite ?_ ?_
      · refine rampStop_pick ?_
        refine abortHoming_pick ?_
        exact hk
      · exact hk

theorem setHoming_pick {p0 : Nat} {s : State} {n : ℕ} {f : Homing → Homing} (hk : SamePick p0 s) :
    SamePick p0 (setHoming s n f) := by
  unfold setHoming
  refine setAxis_pick ?_
  exact hk

theorem homeEdge_pick {p0 : Nat} {s : State} {n : ℕ} {active : Bool} (hk : SamePick p0 s) :
    SamePick p0 (homeEdge s n active) := by
  unfold homeEdge
  split
  · rename_i q0 q1
    exact hk
  · rename_i q2 q3 q4
    refine SamePick.ite ?_ ?_
    · exact hk
    · lift_lets
      intro u5
      clear_value u5
      intro u6
      clear_value u6
      intro u7
      clear_value u7
      refine SamePick.ite ?_ ?_
      · refine rampStop_pick ?_
        refine abortHoming_pick ?_
        exact hk
      · refine setHoming_pick ?_
        exact hk

theorem cutSteps_pick {p0 : Nat} {s : State} {n : ℕ} (hk : SamePick p0 s) :
    SamePick p0 (cutSteps s n) := by
  unfold cutSteps
  refine SamePick.ite ?_ ?_
  · refine emit_pick ?_
    exact hk
  · exact hk

theorem stopNow_pick {p0 : Nat} {s : State} {n : ℕ} {loses : Bool} (hk : SamePick p0 s) :
    SamePick p0 (stopNow s n loses) := by
  unfold stopNow
  lift_lets
  intro u0
  clear_value u0
  intro u1
  clear_value u1
  intro u2
  clear_value u2
  intro u3
  have h4 : SamePick p0 u3 := by
    unfold u3
    split
    · rename_i q5 q6 q7
      refine setGroup_pick ?_
      exact hk
    · rename_i q8 q9
      exact hk
  clear_value u3
  intro u10
  have h11 : SamePick p0 u10 := by
    unfold u10
    refine setAxis_pick ?_
    exact h4
  clear_value u10
  refine SamePick.ite ?_ ?_
  · refine cutSteps_pick ?_
    refine sticky_pick ?_
    exact h11
  · exact h11

theorem causeFault_pick {p0 : Nat} {s : State} {n : ℕ} {f : Machine.Field} (hk : SamePick p0 s) :
    SamePick p0 (causeFault s n f) := by
  unfold causeFault
  refine sticky_pick ?_
  refine setAxis_pick ?_
  exact hk

theorem limitHit_pick {p0 : Nat} {s : State} {n : ℕ} {pos : Bool} (hk : SamePick p0 s) :
    SamePick p0 (limitHit s n pos) := by
  unfold limitHit
  lift_lets
  intro u0
  clear_value u0
  intro u1
  clear_value u1
  intro u2
  clear_value u2
  intro u3
  clear_value u3
  intro u4
  have h5 : SamePick p0 u4 := by
    unfold u4
    refine SamePick.ite ?_ ?_
    · refine rampStop_pick ?_
      exact hk
    · refine stopNow_pick ?_
      exact hk
  clear_value u4
  split
  · rename_i q6 q7 q8
    refine SamePick.ite ?_ ?_
    · refine homeEdge_pick ?_
      exact hk
    · refine abortHoming_pick ?_
      refine stopNow_pick ?_
      exact hk
  · rename_i q9 q10
    refine SamePick.ite ?_ ?_
    · refine motEvent_pick ?_
      refine causeFault_pick ?_
      exact h5
    · refine motEvent_pick ?_
      refine causeFault_pick ?_
      refine stopNow_pick ?_
      exact hk

theorem judgeLimits_pick {p0 : Nat} {s : State} {n : ℕ} (hk : SamePick p0 s) :
    SamePick p0 (judgeLimits s n) := by
  unfold judgeLimits
  lift_lets
  intro u0
  have h1 : SamePick p0 u0 := by
    unfold u0
    refine SamePick.ite ?_ ?_
    · refine limitHit_pick ?_
      exact hk
    · exact hk
  clear_value u0
  refine SamePick.ite ?_ ?_
  · refine limitHit_pick ?_
    exact h1
  · exact h1

theorem driverFault_pick {p0 : Nat} {s : State} {n : ℕ} (hk : SamePick p0 s) :
    SamePick p0 (driverFault s n) := by
  unfold driverFault
  refine motEvent_pick ?_
  refine sticky_pick ?_
  refine stopNow_pick ?_
  exact hk

theorem standingFaults_pick {p0 : Nat} {s : State} {n : ℕ} {axShorts : List (ℕ × ℕ)} (hk : SamePick p0 s) :
    SamePick p0 (standingFaults s n axShorts) := by
  unfold standingFaults
  lift_lets
  intro u0
  have h1 : SamePick p0 u0 := by
    unfold u0
    refine setAxis_pick ?_
    exact hk
  clear_value u0
  intro u2
  clear_value u2
  intro u3
  have h4 : SamePick p0 u3 := by
    unfold u3
    refine SamePick.ite ?_ ?_
    · exact h1
    · refine sticky_pick ?_
      exact h1
  clear_value u3
  intro u5
  have h6 : SamePick p0 u5 := by
    unfold u5
    refine SamePick.ite ?_ ?_
    · refine SamePick.ite ?_ ?_
      · refine driverFault_pick ?_
        exact h4
      · refine sticky_pick ?_
        exact h4
    · exact h4
  clear_value u5
  refine SamePick.foldl _ ?_ (fun x7 a8 hx9 => ?_)
  · exact h6
  · refine SamePick.ite ?_ ?_
    · refine sticky_pick ?_
      exact hx9
    · exact hx9

theorem takeStops_pick {p0 : Nat} {s : State} (hk : SamePick p0 s) :
    SamePick p0 (takeStops s) := by
  unfold takeStops
  lift_lets
  intro u0
  intro u1
  clear_value u1
  refine SamePick.foldl _ ?_ (fun x2 a3 hx4 => ?_)
  · refine SamePick.other ?_
    exact hk
  · rcases e8 : a3 with ⟨a6, a7⟩
    dsimp only
    refine SamePick.foldl _ ?_ (fun x9 a10 hx11 => ?_)
    · exact hx4
    · refine SamePick.ite ?_ ?_
      · exact hx11
      · refine SamePick.ite ?_ ?_
        · refine rampStop_pick ?_
          exact hx11
        · split
          · rename_i q12 q13 q14
            refine SamePick.foldl _ ?_ (fun x15 a16 hx17 => ?_)
            · exact hx11
            · refine stopNow_pick ?_
              exact hx17
          · rename_i q18 q19
            refine stopNow_pick ?_
            exact hx11

theorem groupLimitChanges_pick {p0 : Nat} {s : State} {g : GroupRun} (hk : SamePick p0 s) :
    SamePick p0 (groupLimitChanges s g) := by
  unfold groupLimitChanges
  lift_lets
  intro u0
  clear_value u0
  refine SamePick.ite ?_ ?_
  · exact hk
  · rcases e3 : changeRates g.lead u0 with ⟨a1, a2⟩
    dsimp only
    split
    · rename_i q4 q5 q6 q7 q8
      refine motEvent_pick ?_
      refine sticky_pick ?_
      refine setGroup_pick ?_
      exact hk
    · rename_i q9 q10 q11 q12
      refine setGroup_pick ?_
      exact hk

theorem limitChanges_pick {p0 : Nat} {s : State} {n : ℕ} (hk : SamePick p0 s) :
    SamePick p0 (limitChanges s n) := by
  unfold limitChanges
  lift_lets
  intro u0
  clear_value u0
  intro u1
  clear_value u1
  intro u2
  clear_value u2
  refine SamePick.ite ?_ ?_
  · exact hk
  · rcases e5 : changeRates u0 u1 with ⟨a3, a4⟩
    dsimp only
    split
    · rename_i q6 q7
      refine motEvent_pick ?_
      refine sticky_pick ?_
      refine setAxis_pick ?_
      exact hk
    · rename_i q8
      refine setAxis_pick ?_
      exact hk

theorem answer_pick {p0 : Nat} {s : State} {k : ℕ} {tag : ℕ} {changes : Bool} {r : MsgRes} (hk : SamePick p0 s) :
    SamePick p0 (answer s k tag changes r) := by
  unfold answer
  split
  · rename_i q0 q1
    exact hk
  · rename_i q2 q3 q4
    lift_lets
    intro u5
    clear_value u5
    intro u6
    clear_value u6
    intro u7
    have h8 : SamePick p0 u7 := by
      unfold u7
      refine setMbx_pick ?_
      exact hk
    clear_value u7
    refine pump_pick ?_
    exact h8

theorem startMoveAxis_pick {p0 : Nat} {s : State} {n : ℕ} {jerk : Bool} {target : ℤ} {own : Limits} (hk : SamePick p0 s) :
    SamePick p0 (startMoveAxis s n jerk target own) := by
  unfold startMoveAxis
  lift_lets
  intro u0
  clear_value u0
  refine setAxis_pick ?_
  exact hk

theorem startGroup_pick {p0 : Nat} {s : State} {g : ℕ} {targets : List ℤ} (hk : SamePick p0 s) :
    SamePick p0 (startGroup s g targets) := by
  unfold startGroup
  lift_lets
  intro u0
  clear_value u0
  intro u1
  clear_value u1
  split
  · rename_i q2 q3
    exact hk
  · rename_i q4 q5 q6
    lift_lets
    intro u7
    clear_value u7
    intro u8
    clear_value u8
    intro u9
    have h10 : SamePick p0 u9 := by
      unfold u9
      refine SamePick.foldl _ ?_ (fun x11 a12 hx13 => ?_)
      · exact hk
      · refine setAxis_pick ?_
        exact hx13
    clear_value u9
    intro u14
    clear_value u14
    refine SamePick.other ?_
    exact h10

theorem takeRequest_pick {p0 : Nat} {s : State} {q : MotReq} (hk : SamePick p0 s) :
    SamePick p0 (takeRequest s q) := by
  unfold takeRequest
  lift_lets
  intro u0
  clear_value u0
  intro u1
  have h2 : SamePick p0 u1 := by
    unfold u1
    dsimp only
    split
    · rename_i q3 q4 q5 q6 q7 q8
      refine startMoveAxis_pick ?_
      exact hk
    · rename_i q9 q10 q11 q12
      refine startGroup_pick ?_
      exact hk
    · rename_i q13 q14 q15 q16
      refine setAxis_pick ?_
      exact hk
  clear_value u1
  refine SamePick.ite ?_ ?_
  · refine answer_pick ?_
    exact hk
  · refine answer_pick ?_
    exact h2

theorem stepGroup_pick {p0 : Nat} {s : State} {g : GroupRun} (hk : SamePick p0 s) :
    SamePick p0 (stepGroup s g) := by
  unfold stepGroup
  lift_lets
  intro u0
  clear_value u0
  rcases e6 : profileStep u0.lim u0.jerk u0.hold (if u0.ramp = true then Goal.rest else Goal.reach (u0.target * 2 ^ 32)) u0.x u0.v u0.a with ⟨a1, a2, a3, a4, a5⟩
  dsimp only
  refine SamePick.foldl _ ?_ (fun x7 a8 hx9 => ?_)
  · refine setGroup_pick ?_
    exact hk
  · refine setAxis_pick ?_
    exact hx9

theorem stepAxis_pick {p0 : Nat} {s : State} {n : ℕ} (hk : SamePick p0 s) :
    SamePick p0 (stepAxis s n) := by
  unfold stepAxis
  refine SamePick.ite ?_ ?_
  · exact hk
  · lift_lets
    intro u0
    clear_value u0
    intro u1
    clear_value u1
    split
    · rename_i q2 q3
      refine setAxis_pick ?_
      exact hk
    · rename_i q4 q5 q6 q7
      rcases e13 : profileStep q6 u0.jerk u0.hold q5 u0.x u0.v u0.a with ⟨a8, a9, a10, a11, a12⟩
      dsimp only
      refine SamePick.ite ?_ ?_
      · split
        · rename_i q14 q15 q16
          refine SamePick.ite ?_ ?_
          · refine setAxis_pick ?_
            exact hk
          · refine setAxis_pick ?_
            exact hk
        · rename_i q17 q18
          refine setAxis_pick ?_
          exact hk
      · refine setAxis_pick ?_
        exact hk

theorem emitSteps_pick {p0 : Nat} {s : State} {n : ℕ} (hk : SamePick p0 s) :
    SamePick p0 (emitSteps s n) := by
  unfold emitSteps
  lift_lets
  intro u0
  clear_value u0
  intro u1
  clear_value u1
  intro u2
  clear_value u2
  intro u3
  clear_value u3
  intro u4
  clear_value u4
  intro u5
  intro u6
  have h7 : SamePick p0 u6 := by
    unfold u6
    refine setAxis_pick ?_
    exact hk
  clear_value u6
  refine SamePick.ite ?_ ?_
  · exact hk
  · refine SamePick.ite ?_ ?_
    · exact h7
    · refine emit_pick ?_
      refine SamePick.ite ?_ ?_
      · refine emit_pick ?_
        exact h7
      · exact h7

theorem motionStep_pick {p0 : Nat} {s : State} {axShorts : List (ℕ × ℕ)} (hk : SamePick p0 s) :
    SamePick p0 (motionStep s axShorts) := by
  unfold motionStep
  lift_lets
  intro u0
  clear_value u0
  intro u1
  have h2 : SamePick p0 u1 := by
    unfold u1
    refine SamePick.other ?_
    exact hk
  clear_value u1
  intro u4
  have h5 : SamePick p0 u4 := by
    unfold u4
    refine completeMoves_pick ?_
    exact h2
  clear_value u4
  intro u6
  have h7 : SamePick p0 u6 := by
    unfold u6
    refine SamePick.foldl _ ?_ (fun x8 a9 hx10 => ?_)
    · exact h5
    · refine homingLimits_pick ?_
      refine judgeLimits_pick ?_
      refine standingFaults_pick ?_
      exact hx10
  clear_value u6
  intro u11
  have h12 : SamePick p0 u11 := by
    unfold u11
    refine takeStops_pick ?_
    exact h7
  clear_value u11
  intro u13
  have h14 : SamePick p0 u13 := by
    unfold u13
    refine SamePick.foldl _ ?_ (fun x15 a16 hx17 => ?_)
    · refine SamePick.foldl _ ?_ (fun x18 a19 hx20 => ?_)
      · exact h12
      · refine limitChanges_pick ?_
        exact hx20
    · refine groupLimitChanges_pick ?_
      exact hx17
  clear_value u13
  intro u21
  clear_value u21
  intro u22
  clear_value u22
  intro u23
  have h24 : SamePick p0 u23 := by
    unfold u23
    refine SamePick.ite ?_ ?_
    · refine SamePick.foldl _ ?_ (fun x25 a26 hx27 => ?_)
      · refine SamePick.other ?_
        exact h14
      · refine takeRequest_pick ?_
        exact hx27
    · exact h5
  clear_value u23
  intro u29
  have h30 : SamePick p0 u29 := by
    unfold u29
    refine SamePick.foldl _ ?_ (fun x31 a32 hx33 => ?_)
    · exact h24
    · refine stepGroup_pick ?_
      exact hx33
  clear_value u29
  intro u34
  have h35 : SamePick p0 u34 := by
    unfold u34
    refine SamePick.foldl _ ?_ (fun x36 a37 hx38 => ?_)
    · exact h30
    · refine stepAxis_pick ?_
      exact hx38
  clear_value u34
  intro u39
  have h40 : SamePick p0 u39 := by
    unfold u39
    refine SamePick.foldl _ ?_ (fun x41 a42 hx43 => ?_)
    · exact h35
    · refine setAxis_pick ?_
      exact hx43
  clear_value u39
  refine SamePick.foldl _ ?_ (fun x44 a45 hx46 => ?_)
  · exact h40
  · refine emitSteps_pick ?_
    exact hx46

theorem calDone_pick {p0 : Nat} {s : State} {item : ℕ} {inst : ℕ} {temp : ℤ} (hk : SamePick p0 s) :
    SamePick p0 (calDone s item inst temp) := by
  unfold calDone
  refine raise_pick ?_
  refine bump_pick ?_
  refine setFld_pick ?_
  exact hk

theorem recentre_pick {p0 : Nat} {s : State} {n : ℕ} (hk : SamePick p0 s) :
    SamePick p0 (recentre s n) := by
  unfold recentre
  lift_lets
  intro u0
  clear_value u0
  intro u1
  have h2 : SamePick p0 u1 := by
    unfold u1
    refine SamePick.other ?_
    exact hk
  clear_value u1
  refine calDone_pick ?_
  exact h2

theorem setLane_pick {p0 : Nat} {s : State} {n : ℕ} {f : LaneSt → LaneSt} (hk : SamePick p0 s) :
    SamePick p0 (setLane s n f) := by
  unfold setLane
  refine SamePick.other ?_
  exact hk

theorem setHub_pick {p0 : Nat} {s : State} {u : ℕ} {f : HubSt → HubSt} (hk : SamePick p0 s) :
    SamePick p0 (setHub s u f) := by
  unfold setHub
  refine SamePick.other ?_
  exact hk

theorem deferBand_pick {p0 : Nat} {s : State} {n : ℕ} (hk : SamePick p0 s) :
    SamePick p0 (deferBand s n) := by
  unfold deferBand
  lift_lets
  intro u0
  clear_value u0
  intro u1
  clear_value u1
  refine SamePick.ite ?_ ?_
  · exact hk
  · refine raise_pick ?_
    refine sticky_pick ?_
    refine SamePick.other ?_
    exact hk

theorem bandLane_pick {p0 : Nat} {s : State} {n : ℕ} (hk : SamePick p0 s) :
    SamePick p0 (bandLane s n) := by
  unfold bandLane
  refine SamePick.ite ?_ ?_
  · exact hk
  · split
    · rename_i q0 q1
      refine recentre_pick ?_
      exact hk
    · rename_i q2 q3 q4
      lift_lets
      intro u5
      clear_value u5
      intro u6
      clear_value u6
      intro u7
      clear_value u7
      intro u8
      clear_value u8
      intro u9
      have h10 : SamePick p0 u9 := by
        unfold u9
        refine setLane_pick ?_
        refine setHub_pick ?_
        exact hk
      clear_value u9
      intro u11
      clear_value u11
      refine SamePick.ite ?_ ?_
      · refine recentre_pick ?_
        exact hk
      · refine SamePick.ite ?_ ?_
        · exact hk
        · refine SamePick.ite ?_ ?_
          · refine SamePick.other ?_
            exact h10
          · refine deferBand_pick ?_
            exact hk

theorem calibrateBands_pick {p0 : Nat} {s : State} (hk : SamePick p0 s) :
    SamePick p0 (calibrateBands s) := by
  unfold calibrateBands
  refine SamePick.ite ?_ ?_
  · exact hk
  · refine SamePick.foldl _ ?_ (fun x0 a1 hx2 => ?_)
    · exact hk
    · refine bandLane_pick ?_
      exact hx2

theorem calibrateAtOnce_pick {p0 : Nat} {s : State} (hk : SamePick p0 s) :
    SamePick p0 (calibrateAtOnce s) := by
  unfold calibrateAtOnce
  lift_lets
  intro u0
  have h1 : SamePick p0 u0 := by
    unfold u0
    refine SamePick.foldl _ ?_ (fun x2 a3 hx4 => ?_)
    · exact hk
    · refine SamePick.ite ?_ ?_
      · refine calDone_pick ?_
        exact hx4
      · exact hx4
  clear_value u0
  intro u5
  have h6 : SamePick p0 u5 := by
    unfold u5
    refine SamePick.foldl _ ?_ (fun x7 a8 hx9 => ?_)
    · exact h1
    · refine SamePick.ite ?_ ?_
      · refine calDone_pick ?_
        exact hx9
      · exact hx9
  clear_value u5
  refine SamePick.foldl _ ?_ (fun x10 a11 hx12 => ?_)
  · exact h6
  · refine SamePick.ite ?_ ?_
    · refine setAxis_pick ?_
      exact hx12
    · exact hx12

theorem judgeCover_pick {p0 : Nat} {s : State} {c : ℕ} (hk : SamePick p0 s) :
    SamePick p0 (judgeCover s c) := by
  unfold judgeCover
  refine SamePick.ite ?_ ?_
  · refine setFld_pick ?_
    refine setFld_pick ?_
    exact hk
  · split
    · rename_i q0 q1
      refine setFld_pick ?_
      refine setChan_pick ?_
      exact hk
    · rename_i q2 q3 q4
      lift_lets
      intro u5
      clear_value u5
      intro u6
      clear_value u6
      intro u7
      have h8 : SamePick p0 u7 := by
        unfold u7
        refine setFld_pick ?_
        exact hk
      clear_value u7
      intro u9
      have h10 : SamePick p0 u9 := by
        unfold u9
        refine setFld_pick ?_
        exact h8
      clear_value u9
      intro u11
      clear_value u11
      intro u12
      clear_value u12
      intro u13
      have h14 : SamePick p0 u13 := by
        unfold u13
        refine setChan_pick ?_
        exact h10
      clear_value u13
      refine SamePick.ite ?_ ?_
      · refine raise_pick ?_
        refine sticky_pick ?_
        exact h14
      · exact h14

theorem placeLadder_pick {p0 : Nat} {s : State} {line : ℤ} (hk : SamePick p0 s) :
    SamePick p0 (placeLadder s line) := by
  unfold placeLadder
  lift_lets
  intro u0
  clear_value u0
  intro u1
  clear_value u1
  intro u2
  clear_value u2
  refine SamePick.other ?_
  exact hk

theorem noLadderSlot_pick {p0 : Nat} {s : State} {web : ℤ} (hk : SamePick p0 s) :
    SamePick p0 (noLadderSlot s web) := by
  unfold noLadderSlot
  refine SamePick.ite ?_ ?_
  · exact hk
  · refine raise_pick ?_
    refine sticky_pick ?_
    refine SamePick.other ?_
    exact hk

theorem scheduleLadder_pick {p0 : Nat} {s : State} (hk : SamePick p0 s) :
    SamePick p0 (scheduleLadder s) := by
  unfold scheduleLadder
  lift_lets
  intro u0
  clear_value u0
  intro u1
  clear_value u1
  intro u2
  clear_value u2
  intro u3
  clear_value u3
  refine SamePick.ite ?_ ?_
  · exact hk
  · split
    · rename_i q4 q5 q6
      refine SamePick.ite ?_ ?_
      · exact hk
      · refine SamePick.ite ?_ ?_
        · refine placeLadder_pick ?_
          exact hk
        · refine SamePick.ite ?_ ?_
          · refine placeLadder_pick ?_
            refine noLadderSlot_pick ?_
            exact hk
          · exact hk
    · rename_i q7 q8
      refine SamePick.ite ?_ ?_
      · refine noLadderSlot_pick ?_
        exact hk
      · exact hk

theorem applyNozzle_pick {p0 : Nat} {a : State × ℕ} {x : NozzleChange} (hk : SamePick p0 a.1) :
    SamePick p0 (applyNozzle a x).1 := by
  unfold applyNozzle
  split
  · rename_i q0
    exact hk
  · rename_i q1
    dsimp only
    refine setFld_pick ?_
    exact hk

theorem applyNozzles_pick {p0 : Nat} {s : State} {c : ℕ} {xs : List NozzleChange} (hk : SamePick p0 s) :
    SamePick p0 (applyNozzles s c xs) := by
  unfold applyNozzles
  lift_lets
  intro u0
  clear_value u0
  intro u1
  have h2 : SamePick p0 u1 := by
    unfold u1
    refine SamePick.other ?_
    exact hk
  clear_value u1
  rcases e6 : List.foldl applyNozzle (u1, 0) xs with ⟨a4, a5⟩
  dsimp only
  refine SamePick.ite ?_ ?_
  · refine SamePick.fst_of e6 ?_
    refine SamePick.foldl_fst _ ?_ (fun x7 a8 hx9 => ?_)
    · exact h2
    · refine applyNozzle_pick ?_
      exact hx9
  · refine raise_pick ?_
    refine SamePick.fst_of e6 ?_
    refine SamePick.foldl_fst _ ?_ (fun x10 a11 hx12 => ?_)
    · exact h2
    · refine applyNozzle_pick ?_
      exact hx12

theorem pickNozzles_pick {p0 : Nat} {s : State} (hk : SamePick p0 s) :
    SamePick p0 (pickNozzles s) := by
  unfold pickNozzles
  refine SamePick.foldl _ ?_ (fun x0 a1 hx2 => ?_)
  · exact hk
  · refine applyNozzles_pick ?_
    exact hx2

theorem stepPrint_pick {p0 : Nat} {s : State} (hk : SamePick p0 s) :
    SamePick p0 (stepPrint s) := by
  unfold stepPrint
  refine SamePick.foldl _ ?_ (fun x0 a1 hx2 => ?_)
  · refine scheduleLadder_pick ?_
    refine pickNozzles_pick ?_
    exact hk
  · refine judgeCover_pick ?_
    exact hx2

theorem setTrig_pick {p0 : Nat} {s : State} {n : ℕ} {f : Trigger → Trigger} (hk : SamePick p0 s) :
    SamePick p0 (setTrig s n f) := by
  unfold setTrig
  refine SamePick.time ?_ ?_
  · exact hk
  · rfl

theorem passOccurrences_pick {p0 : Nat} {s : State} {n : ℕ} {k : ℕ} {acts : ℕ} (hk : SamePick p0 s) :
    SamePick p0 (passOccurrences s n k acts) := by
  unfold passOccurrences
  lift_lets
  intro u0
  clear_value u0
  refine setTrig_pick ?_
  exact hk

theorem skipTrigger_pick {p0 : Nat} {s : State} {n : ℕ} (hk : SamePick p0 s) :
    SamePick p0 (skipTrigger s n) := by
  unfold skipTrigger
  lift_lets
  intro u0
  clear_value u0
  intro u1
  have h2 : SamePick p0 u1 := by
    unfold u1
    refine setTrig_pick ?_
    refine passOccurrences_pick ?_
    exact hk
  clear_value u1
  intro u3
  have h4 : SamePick p0 u3 := by
    unfold u3
    refine setTrig_pick ?_
    refine passOccurrences_pick ?_
    exact hk
  clear_value u3
  refine SamePick.ite ?_ ?_
  · exact hk
  · refine SamePick.ite ?_ ?_
    · refine passOccurrences_pick ?_
      exact hk
    · refine SamePick.ite ?_ ?_
      · refine raise_pick ?_
        refine sticky_pick ?_
        exact h2
      · refine sticky_pick ?_
        exact h4

theorem applyStep_pick {p0 : Nat} {s : State} {d : ℤ} (hk : SamePick p0 s) :
    SamePick p0 (applyStep s d) := by
  unfold applyStep
  lift_lets
  intro u0
  intro u1
  have h2 : SamePick p0 u1 := by
    unfold u1
    refine SamePick.time ?_ ?_
    · exact hk
    · rfl
  clear_value u1
  intro u4
  clear_value u4
  intro u5
  intro u6
  have h7 : SamePick p0 u6 := by
    unfold u6
    refine SamePick.time ?_ ?_
    · exact h2
    · rfl
  clear_value u6
  intro u9
  have h10 : SamePick p0 u9 := by
    unfold u9
    refine raise_pick ?_
    refine sticky_pick ?_
    exact h7
  clear_value u9
  refine SamePick.ite ?_ ?_
  · refine SamePick.foldl _ ?_ (fun x11 a12 hx13 => ?_)
    · exact h10
    · refine skipTrigger_pick ?_
      exact hx13
  · exact h10

theorem takeSteps_pick {p0 : Nat} {s : State} (hk : SamePick p0 s) :
    SamePick p0 (takeSteps s) := by
  unfold takeSteps
  lift_lets
  intro u0
  clear_value u0
  intro u1
  intro u2
  have h3 : SamePick p0 u2 := by
    unfold u2
    refine SamePick.time ?_ ?_
    · exact hk
    · rfl
  clear_value u2
  refine SamePick.foldl _ ?_ (fun x5 a6 hx7 => ?_)
  · exact h3
  · refine applyStep_pick ?_
    exact hx7

theorem setIncr_pick {p0 : Nat} {s : State} {n : ℕ} (hk : SamePick p0 s) :
    SamePickQ p0 (setIncr s n) := by
  unfold setIncr
  split
  · rename_i q0
    trivial
  · rename_i q1
    refine SamePickQ.mk ?_
    refine SamePick.time ?_ ?_
    · exact hk
    · rfl

theorem startSlew_pick {p0 : Nat} {s : State} {d : ℤ} (hk : SamePick p0 s) :
    SamePick p0 (startSlew s d) := by
  unfold startSlew
  refine SamePick.time ?_ ?_
  · exact hk
  · rfl

theorem acceptStep_pick {p0 : Nat} {s : State} {d : ℤ} (hk : SamePick p0 s) :
    SamePick p0 (acceptStep s d) := by
  unfold acceptStep
  refine SamePick.time ?_ ?_
  · exact hk
  · rfl

theorem servoAdjust_pick {p0 : Nat} {s : State} {a : ServoAct} (hk : SamePick p0 s) :
    SamePick p0 (servoAdjust s a) := by
  unfold servoAdjust
  refine SamePick.ite ?_ ?_
  · exact hk
  · split
    · rename_i q0
      exact hk
    · rename_i q1 q2
      refine SamePickQ.getD ?_ ?_
      · refine setIncr_pick ?_
        exact hk
      · exact hk
    · rename_i q3 q4
      refine startSlew_pick ?_
      exact hk
    · rename_i q5 q6
      refine SamePick.ite ?_ ?_
      · refine applyStep_pick ?_
        exact hk
      · refine SamePick.ite ?_ ?_
        · lift_lets
          intro u7
          have h8 : SamePick p0 u7 := by
            unfold u7
            refine startSlew_pick ?_
            exact hk
          clear_value u7
          intro u9
          refine SamePick.time ?_ ?_
          · exact h8
          · rfl
        · refine acceptStep_pick ?_
          exact hk

theorem gatePps_pick {p0 : Nat} {s : State} (hk : SamePick p0 s) :
    SamePick p0 (gatePps s) := by
  unfold gatePps
  refine SamePick.ite ?_ ?_
  · refine emit_pick ?_
    refine SamePick.time ?_ ?_
    · exact hk
    · rfl
  · exact hk

theorem loseLock_pick {p0 : Nat} {s : State} (hk : SamePick p0 s) :
    SamePick p0 (loseLock s) := by
  unfold loseLock
  lift_lets
  intro u0
  intro u1
  have h2 : SamePick p0 u1 := by
    unfold u1
    refine gatePps_pick ?_
    refine SamePick.time ?_ ?_
    · exact hk
    · rfl
  clear_value u1
  refine raise_pick ?_
  refine sticky_pick ?_
  exact h2

theorem judgeLock_pick {p0 : Nat} {s : State} (hk : SamePick p0 s) :
    SamePick p0 (judgeLock s) := by
  unfold judgeLock
  refine SamePick.ite ?_ ?_
  · refine raise_pick ?_
    refine SamePick.time ?_ ?_
    · exact hk
    · rfl
  · refine SamePick.ite ?_ ?_
    · refine loseLock_pick ?_
      exact hk
    · exact hk

theorem lockCounters_pick {p0 : Nat} {s : State} {err : ℤ} (hk : SamePick p0 s) :
    SamePick p0 (lockCounters s err) := by
  unfold lockCounters
  lift_lets
  intro u0
  clear_value u0
  intro u1
  refine SamePick.time ?_ ?_
  · exact hk
  · rfl

theorem takeMeasurement_pick {p0 : Nat} {s : State} {err : ℤ} {act : ServoAct} (hk : SamePick p0 s) :
    SamePick p0 (takeMeasurement s err act) := by
  unfold takeMeasurement
  refine servoAdjust_pick ?_
  refine judgeLock_pick ?_
  refine lockCounters_pick ?_
  refine setFld_pick ?_
  exact hk

theorem peerTime_pick {p0 : Nat} {s : State} {x : PickInputs} (hk : SamePick p0 s) :
    SamePick p0 (peerTime s x) := by
  unfold peerTime
  split
  · rename_i q0 q1 q2 q3
    refine SamePick.ite ?_ ?_
    · exact hk
    · refine takeMeasurement_pick ?_
      exact hk
  · rename_i q4 q5
    exact hk

theorem writeEntries_pick {p0 : Nat} {s : State} {c : ℕ} {col : ℕ} {es : List ℕ} (hk : SamePick p0 s) :
    SamePick p0 (writeEntries s c col es) := by
  unfold writeEntries
  refine SamePick.other ?_
  exact hk

theorem manualBlock_pick {p0 : Nat} {s : State} {c : ℕ} {line : ℤ} (hk : SamePick p0 s) :
    SamePick p0 (manualBlock s c line) := by
  unfold manualBlock
  split
  · rename_i q0 q1
    exact hk
  · rename_i q2 q3 q4
    lift_lets
    intro u5
    clear_value u5
    intro u6
    have h7 : SamePick p0 u6 := by
      unfold u6
      refine bump_pick ?_
      refine writeEntries_pick ?_
      exact hk
    clear_value u6
    intro u8
    have h9 : SamePick p0 u8 := by
      unfold u8
      refine raise_pick ?_
      exact h7
    clear_value u8
    intro u10
    clear_value u10
    refine SamePick.ite ?_ ?_
    · refine SamePick.other ?_
      exact h9
    · exact hk

theorem restOfManual_pick {p0 : Nat} {s : State} {c : ℕ} (hk : SamePick p0 s) :
    SamePick p0 (restOfManual s c) := by
  unfold restOfManual
  refine SamePick.foldl _ ?_ (fun x0 a1 hx2 => ?_)
  · exact hk
  · refine manualBlock_pick ?_
    exact hx2

theorem swapSpan_pick {p0 : Nat} {s : State} {c : ℕ} {line : ℤ} {old : CfgSet} {new : CfgSet} (hk : SamePick p0 s) :
    SamePick p0 (swapSpan s c line old new) := by
  unfold swapSpan
  lift_lets
  intro u0
  clear_value u0
  intro u1
  clear_value u1
  intro u2
  clear_value u2
  refine SamePick.ite ?_ ?_
  · exact hk
  · refine setChan_pick ?_
    exact hk

theorem setPathNow_pick {p0 : Nat} {s : State} {c : ℕ} {hist : Bool} (hk : SamePick p0 s) :
    SamePick p0 (setPathNow s c hist) := by
  unfold setPathNow
  refine setFld_pick ?_
  exact hk

theorem swapPath_pick {p0 : Nat} {s : State} {c : ℕ} {line : ℤ} {old : CfgSet} {new : CfgSet} (hk : SamePick p0 s) :
    SamePick p0 (swapPath s c line old new) := by
  unfold swapPath
  refine SamePick.ite ?_ ?_
  · exact hk
  · lift_lets
    intro u0
    clear_value u0
    intro u1
    clear_value u1
    intro u2
    have h3 : SamePick p0 u2 := by
      unfold u2
      refine SamePick.other ?_
      exact hk
    clear_value u2
    refine setPathNow_pick ?_
    refine setChan_pick ?_
    exact h3

theorem swapColour_pick {p0 : Nat} {s : State} {c : ℕ} {old : CfgSet} {new : CfgSet} (hk : SamePick p0 s) :
    SamePick p0 (swapColour s c old new).1 := by
  unfold swapColour
  lift_lets
  intro u0
  clear_value u0
  intro u1
  clear_value u1
  intro u2
  clear_value u2
  intro u3
  clear_value u3
  intro u4
  clear_value u4
  intro u5
  clear_value u5
  intro u6
  intro u7
  intro u8
  clear_value u8
  intro u9
  have h10 : SamePick p0 u9 := by
    unfold u9
    refine SamePick.ite ?_ ?_
    · refine SamePick.other ?_
      exact hk
    · exact hk
  clear_value u9
  intro u12
  have h13 : SamePick p0 u12 := by
    unfold u12
    refine SamePick.ite ?_ ?_
    · refine SamePick.foldl _ ?_ (fun x14 a15 hx16 => ?_)
      · exact h10
      · refine setFld_pick ?_
        exact hx16
    · exact h10
  clear_value u12
  exact h13

theorem setSwap_pick {p0 : Nat} {s : State} {f : Swap → Swap} (hk : SamePick p0 s) :
    SamePick p0 (setSwap s f) := by
  unfold setSwap
  refine SamePick.other ?_
  exact hk

theorem beginManual_pick {p0 : Nat} {s : State} {c : ℕ} (hk : SamePick p0 s) :
    SamePick p0 (beginManual s c) := by
  unfold beginManual
  split
  · rename_i q0 q1
    exact hk
  · rename_i q2 q3 q4
    refine SamePick.ite ?_ ?_
    · exact hk
    · rcases e7 : swapColour s c s.sets.active s.sets.shadow with ⟨a5, a6⟩
      dsimp only
      refine setSwap_pick ?_
      refine bump_pick ?_
      refine SamePick.other ?_
      refine SamePick.fst_of e7 ?_
      refine swapColour_pick ?_
      exact hk

theorem fresh_pick {p0 : Nat} {s : State} (hk : SamePick p0 s) :
    SamePick p0 (fresh s).2 := by
  unfold fresh
  dsimp only
  refine SamePick.other ?_
  exact hk

theorem sendBlocks_pick {p0 : Nat} {s : State} {n : ℕ} {bs : List Block} (hk : SamePick p0 s) :
    SamePick p0 (sendBlocks s n bs) := by
  unfold sendBlocks
  rcases e2 : fresh s with ⟨a0, a1⟩
  dsimp only
  refine emit_pick ?_
  refine SamePick.other ?_
  refine SamePick.snd_of e2 ?_
  refine fresh_pick ?_
  exact hk

theorem onLanes_pick {p0 : Nat} {s : State} {u : ℕ} {p : HubPacket} (hk : SamePick p0 s) :
    SamePick p0 (onLanes s u p) := by
  unfold onLanes
  lift_lets
  intro u0
  clear_value u0
  intro u1
  clear_value u1
  intro u2
  clear_value u2
  intro u3
  clear_value u3
  split
  · rename_i q4 q5
    refine SamePick.foldl _ ?_ (fun x6 a7 hx8 => ?_)
    · exact hk
    · refine sendBlocks_pick ?_
      exact hx8
  · rename_i q9 q10 q11
    refine SamePick.foldl _ ?_ (fun x12 a13 hx14 => ?_)
    · exact hk
    · refine sendBlocks_pick ?_
      exact hx14

theorem toHub_pick {p0 : Nat} {s : State} {hub : ℕ} {p : HubPacket} (hk : SamePick p0 s) :
    SamePick p0 (toHub s hub p) := by
  unfold toHub
  refine SamePick.ite ?_ ?_
  · exact hk
  · refine onLanes_pick ?_
    refine emit_pick ?_
    exact hk

theorem sendCmd_pick {p0 : Nat} {s : State} {u : ℕ} {cmd : ℕ} {args : List Byte} {msg : Option (ℕ × ℕ)} (hk : SamePick p0 s) :
    SamePick p0 (sendCmd s u cmd args msg) := by
  unfold sendCmd
  lift_lets
  intro u0
  clear_value u0
  intro u1
  clear_value u1
  refine SamePick.ite ?_ ?_
  · exact hk
  · refine toHub_pick ?_
    refine setHub_pick ?_
    exact hk

theorem swapHeads_pick {p0 : Nat} {s : State} {c : ℕ} {line : ℤ} {old : CfgSet} {new : CfgSet} (hk : SamePick p0 s) :
    SamePick p0 (swapHeads s c line old new) := by
  unfold swapHeads
  refine SamePick.foldl _ ?_ (fun x0 a1 hx2 => ?_)
  · exact hk
  · rcases e5 : a1 with ⟨a3, a4⟩
    dsimp only
    refine SamePick.ite ?_ ?_
    · exact hx2
    · refine SamePick.ite ?_ ?_
      · split
        · rename_i q6 q7 q8
          refine SamePick.ite ?_ ?_
          · exact hx2
          · refine sendCmd_pick ?_
            exact hx2
        · rename_i q9 q10
          exact hx2
      · refine toHub_pick ?_
        refine SamePick.other ?_
        split
        · rename_i q12 q13 q14
          refine SamePick.ite ?_ ?_
          · exact hx2
          · refine sendCmd_pick ?_
            exact hx2
        · rename_i q15 q16
          exact hx2

theorem changeChannel_pick {p0 : Nat} {s : State} {c : ℕ} {line : ℤ} (hk : SamePick p0 s) :
    SamePick p0 (changeChannel s c line) := by
  unfold changeChannel
  split
  · rename_i q0 q1
    exact hk
  · rename_i q2 q3 q4
    refine SamePick.ite ?_ ?_
    · exact hk
    · lift_lets
      intro u5
      clear_value u5
      intro u6
      clear_value u6
      intro u7
      have h8 : SamePick p0 u7 := by
        unfold u7
        refine swapSpan_pick ?_
        refine swapPath_pick ?_
        refine beginManual_pick ?_
        refine swapHeads_pick ?_
        exact hk
      clear_value u7
      refine setSwap_pick ?_
      exact h8

theorem swapSlots_pick {p0 : Nat} {s : State} {old : CfgSet} {new : CfgSet} (hk : SamePick p0 s) :
    SamePick p0 (swapSlots s old new) := by
  unfold swapSlots
  refine SamePick.foldl _ ?_ (fun x0 a1 hx2 => ?_)
  · exact hk
  · split
    · rename_i q3 q4 q5 q6 q7
      refine raise_pick ?_
      refine sticky_pick ?_
      exact hx2
    · rename_i q8 q9 q10
      exact hx2

theorem completeSwap_pick {p0 : Nat} {s : State} (hk : SamePick p0 s) :
    SamePick p0 (completeSwap s) := by
  unfold completeSwap
  split
  · rename_i q0 q1
    exact hk
  · rename_i q2 q3 q4
    refine SamePick.ite ?_ ?_
    · lift_lets
      intro u5
      clear_value u5
      intro u6
      clear_value u6
      intro u7
      clear_value u7
      intro u8
      clear_value u8
      intro u9
      clear_value u9
      intro u10
      have h11 : SamePick p0 u10 := by
        unfold u10
        refine SamePick.other ?_
        exact hk
      clear_value u10
      refine doorbell_pick ?_
      refine raise_pick ?_
      refine swapSlots_pick ?_
      exact h11
    · exact hk

theorem changeTimed_pick {p0 : Nat} {s : State} (hk : SamePick p0 s) :
    SamePick p0 (changeTimed s) := by
  unfold changeTimed
  split
  · rename_i q0 q1
    exact hk
  · rename_i q2 q3 q4
    refine SamePick.ite ?_ ?_
    · exact hk
    · lift_lets
      intro u5
      clear_value u5
      intro u6
      clear_value u6
      intro u7
      clear_value u7
      intro u8
      have h9 : SamePick p0 u8 := by
        unfold u8
        refine SamePick.ite ?_ ?_
        · exact hk
        · refine SamePick.other ?_
          exact hk
      clear_value u8
      intro u11
      have h12 : SamePick p0 u11 := by
        unfold u11
        refine setSwap_pick ?_
        exact h9
      clear_value u11
      refine SamePick.foldl _ ?_ (fun x13 a14 hx15 => ?_)
      · exact h12
      · refine SamePick.ite ?_ ?_
        · exact hx15
        · refine changeChannel_pick ?_
          exact hx15

theorem changeAll_pick {p0 : Nat} {s : State} (hk : SamePick p0 s) :
    SamePick p0 (changeAll s) := by
  unfold changeAll
  lift_lets
  intro u0
  have h1 : SamePick p0 u0 := by
    unfold u0
    refine SamePick.foldl _ ?_ (fun x2 a3 hx4 => ?_)
    · exact hk
    · refine restOfManual_pick ?_
      refine changeChannel_pick ?_
      exact hx4
  clear_value u0
  refine completeSwap_pick ?_
  refine changeTimed_pick ?_
  exact h1

theorem swapAtBoundary_pick {p0 : Nat} {s : State} (hk : SamePick p0 s) :
    SamePick p0 (swapAtBoundary s) := by
  unfold swapAtBoundary
  split
  · rename_i q0 q1
    exact hk
  · rename_i q2 q3 q4
    refine SamePick.ite ?_ ?_
    · refine changeAll_pick ?_
      exact hk
    · refine SamePick.ite ?_ ?_
      · exact hk
      · refine SamePick.ite ?_ ?_
        · refine completeSwap_pick ?_
          refine changeTimed_pick ?_
          exact hk
        · exact hk

theorem sendFire_pick {p0 : Nat} {s : State} {line : ℤ} {rows : List (ℕ × ℕ × Bool × Option ℕ)} (hk : SamePick p0 s) :
    SamePick p0 (sendFire s line rows) := by
  unfold sendFire
  refine SamePick.foldl _ ?_ (fun x0 a1 hx2 => ?_)
  · exact hk
  · refine toHub_pick ?_
    exact hx2

theorem withdrawChan_pick {p0 : Nat} {s : State} {c : ℕ} (hk : SamePick p0 s) :
    SamePick p0 (withdrawChan s c) := by
  unfold withdrawChan
  lift_lets
  intro u0
  have h1 : SamePick p0 u0 := by
    unfold u0
    exact hk
  clear_value u0
  intro u2
  have h3 : SamePick p0 u2 := by
    unfold u2
    refine SamePick.foldl _ ?_ (fun x4 a5 hx6 => ?_)
    · exact hk
    · refine sendFire_pick ?_
      exact hx6
  clear_value u2
  refine setChan_pick ?_
  exact h3

theorem withdrawAll_pick {p0 : Nat} {s : State} (hk : SamePick p0 s) :
    SamePick p0 (withdrawAll s) := by
  unfold withdrawAll
  refine SamePick.foldl _ ?_ (fun x0 a1 hx2 => ?_)
  · exact hk
  · refine withdrawChan_pick ?_
    exact hx2

theorem endJob_pick {p0 : Nat} {s : State} {cause : ℕ} (hk : SamePick p0 s) :
    SamePick p0 (endJob s cause) := by
  unfold endJob
  lift_lets
  intro u0
  clear_value u0
  intro u1
  have h2 : SamePick p0 u1 := by
    unfold u1
    refine stopFetch_pick ?_
    refine SamePick.other ?_
    exact hk
  clear_value u1
  intro u4
  clear_value u4
  refine doorbell_pick ?_
  refine raise_pick ?_
  refine SamePick.other ?_
  exact h2

theorem rampAll_pick {p0 : Nat} {s : State} (hk : SamePick p0 s) :
    SamePick p0 (rampAll s) := by
  unfold rampAll
  refine SamePick.foldl _ ?_ (fun x0 a1 hx2 => ?_)
  · exact hk
  · refine rampStop_pick ?_
    exact hx2

theorem setState_pick {p0 : Nat} {s : State} {st : SysSt} (hk : SamePick p0 s) :
    SamePick p0 (setState s st) := by
  unfold setState
  refine SamePick.ite ?_ ?_
  · exact hk
  · lift_lets
    intro u0
    clear_value u0
    intro u1
    clear_value u1
    refine doorbell_pick ?_
    refine raise_pick ?_
    refine SamePick.other ?_
    exact hk

theorem orderlyStop_pick {p0 : Nat} {s : State} {cause : ℕ} (hk : SamePick p0 s) :
    SamePick p0 (orderlyStop s cause) := by
  unfold orderlyStop
  refine SamePick.ite ?_ ?_
  · exact hk
  · lift_lets
    intro u0
    have h1 : SamePick p0 u0 := by
      unfold u0
      refine withdrawAll_pick ?_
      exact hk
    clear_value u0
    intro u2
    have h3 : SamePick p0 u2 := by
      unfold u2
      refine SamePick.ite ?_ ?_
      · refine endJob_pick ?_
        exact h1
      · exact h1
    clear_value u2
    intro u4
    have h5 : SamePick p0 u4 := by
      unfold u4
      refine rampAll_pick ?_
      refine raise_pick ?_
      exact h3
    clear_value u4
    intro u6
    clear_value u6
    refine setState_pick ?_
    refine SamePick.other ?_
    exact h5

theorem freeze_pick {p0 : Nat} {s : State} (hk : SamePick p0 s) :
    SamePick p0 (freeze s) := by
  unfold freeze
  refine withdrawAll_pick ?_
  refine SamePick.other ?_
  exact hk

theorem encoderStop_pick {p0 : Nat} {s : State} (hk : SamePick p0 s) :
    SamePick p0 (encoderStop s) := by
  unfold encoderStop
  refine orderlyStop_pick ?_
  refine freeze_pick ?_
  exact hk

theorem checkEncoder_pick {p0 : Nat} {s : State} (hk : SamePick p0 s) :
    SamePick p0 (checkEncoder s) := by
  unfold checkEncoder
  lift_lets
  intro u0
  clear_value u0
  intro u1
  clear_value u1
  intro u2
  clear_value u2
  intro u3
  clear_value u3
  refine SamePick.ite ?_ ?_
  · exact hk
  · refine SamePick.ite ?_ ?_
    · refine SamePick.other ?_
      exact hk
    · refine encoderStop_pick ?_
      refine SamePick.other ?_
      exact hk

theorem encBit_pick {p0 : Nat} {s : State} {e : ℕ} {f : Machine.Field} (hk : SamePick p0 s) :
    SamePick p0 (encBit s e f) := by
  unfold encBit
  refine SamePick.ite ?_ ?_
  · refine checkEncoder_pick ?_
    exact hk
  · lift_lets
    intro u0
    have h1 : SamePick p0 u0 := by
      unfold u0
      refine sticky_pick ?_
      refine sticky_pick ?_
      exact hk
    clear_value u0
    refine checkEncoder_pick ?_
    refine raise_pick ?_
    exact h1

theorem openBits_pick {p0 : Nat} {s : State} {e : ℕ} (hk : SamePick p0 s) :
    SamePick p0 (openBits s e) := by
  unfold openBits
  refine SamePick.ite ?_ ?_
  · refine SamePick.foldl _ ?_ (fun x0 a1 hx2 => ?_)
    · exact hk
    · refine SamePick.ite ?_ ?_
      · refine encBit_pick ?_
        exact hx2
      · exact hx2
  · exact hk

theorem stepApply_pick {p0 : Nat} {s : State} {x : PickInputs} (hk : SamePick p0 s) :
    SamePick p0 (stepApply s x) := by
  unfold stepApply
  lift_lets
  intro u0
  have h1 : SamePick p0 u0 := by
    unfold u0
    refine takeSteps_pick ?_
    refine peerTime_pick ?_
    refine SamePick.other ?_
    exact hk
  clear_value u0
  intro u3
  have h4 : SamePick p0 u3 := by
    unfold u3
    refine swapAtBoundary_pick ?_
    refine changeSource_pick ?_
    exact h1
  clear_value u3
  refine openBits_pick ?_
  refine openBits_pick ?_
  exact h4

theorem sampleSticky_pick {p0 : Nat} {s : State} (hk : SamePick p0 s) :
    SamePick p0 (sampleSticky s) := by
  unfold sampleSticky
  refine SamePick.other ?_
  exact hk

theorem retrainReport_pick {p0 : Nat} {s : State} {n : ℕ} {temp : ℤ} (hk : SamePick p0 s) :
    SamePick p0 (retrainReport s n temp) := by
  unfold retrainReport
  lift_lets
  intro u0
  clear_value u0
  split
  · rename_i q1 q2 q3
    refine setDram_pick ?_
    exact hk
  · rename_i q4 q5
    refine SamePick.ite ?_ ?_
    · refine setDram_pick ?_
      exact hk
    · exact hk

theorem preempt_pick {p0 : Nat} {s : State} {n : ℕ} (hk : SamePick p0 s) :
    SamePick p0 (preempt s n) := by
  unfold preempt
  rcases e2 : fresh s with ⟨a0, a1⟩
  dsimp only
  refine raise_pick ?_
  refine sticky_pick ?_
  refine bump_pick ?_
  refine SamePick.other ?_
  refine setDram_pick ?_
  refine SamePick.snd_of e2 ?_
  refine fresh_pick ?_
  exact hk

theorem refreshReport_pick {p0 : Nat} {s : State} {n : ℕ} {hot : Bool} (hk : SamePick p0 s) :
    SamePick p0 (refreshReport s n hot) := by
  unfold refreshReport
  lift_lets
  intro u0
  clear_value u0
  intro u1
  have h2 : SamePick p0 u1 := by
    unfold u1
    refine setDram_pick ?_
    exact hk
  clear_value u1
  intro u3
  have h4 : SamePick p0 u3 := by
    unfold u3
    refine raise_pick ?_
    refine sticky_pick ?_
    exact h2
  clear_value u3
  refine SamePick.ite ?_ ?_
  · refine SamePick.ite ?_ ?_
    · refine preempt_pick ?_
      exact h4
    · exact h4
  · refine SamePick.ite ?_ ?_
    · refine setDram_pick ?_
      exact hk
    · exact hk

theorem renewLoads_pick {p0 : Nat} {s : State} (hk : SamePick p0 s) :
    SamePick p0 (renewLoads s) := by
  unfold renewLoads
  refine SamePick.ite ?_ ?_
  · refine SamePick.foldl _ ?_ (fun x0 a1 hx2 => ?_)
    · exact hk
    · refine setDram_pick ?_
      exact hx2
  · exact hk

theorem allocGrains_pick {p0 : Nat} {s : State} {len : ℕ} {avoid : List (ℕ × ℕ)} (hk : SamePick p0 s) :
    SamePick p0 (allocGrains s len avoid).2 := by
  unfold allocGrains
  lift_lets
  intro u0
  clear_value u0
  intro u1
  clear_value u1
  intro u2
  clear_value u2
  rcases e5 : fresh s with ⟨a3, a4⟩
  dsimp only
  refine SamePick.snd_of e5 ?_
  refine fresh_pick ?_
  exact hk

theorem request_pick {p0 : Nat} {s : State} {u : MemUser} {cls : ℕ} {write : Bool} {rows : List RowId} (hk : SamePick p0 s) :
    SamePick p0 (request s u cls write rows) := by
  unfold request
  refine SamePick.foldl _ ?_ (fun x0 a1 hx2 => ?_)
  · exact hk
  · refine setDram_pick ?_
    exact hx2

theorem startMove_pick {p0 : Nat} {s : State} {c : ℕ} {h : ℕ} {i : ℕ} (hk : SamePick p0 s) :
    SamePick p0 (startMove s c h i) := by
  unfold startMove
  split
  · rename_i q0 q1
    exact hk
  · rename_i q2 q3 q4
    refine SamePick.ite ?_ ?_
    · exact hk
    · rcases e7 : allocGrains s q3.bytes.length ((startBank s q3.grains).toList ++ picksBanks s h i) with ⟨a5, a6⟩
      dsimp only
      refine request_pick ?_
      refine request_pick ?_
      refine SamePick.other ?_
      refine SamePick.snd_of e7 ?_
      refine allocGrains_pick ?_
      exact hk

theorem closeLatency_pick {p0 : Nat} {s : State} {c : ℕ} (hk : SamePick p0 s) :
    SamePick p0 (closeLatency s c) := by
  unfold closeLatency
  lift_lets
  intro u0
  clear_value u0
  intro u1
  have h2 : SamePick p0 u1 := by
    unfold u1
    refine SamePick.other ?_
    exact hk
  clear_value u1
  intro u4
  have h5 : SamePick p0 u4 := by
    unfold u4
    refine setFld_pick ?_
    exact h2
  clear_value u4
  refine SamePick.ite ?_ ?_
  · split
    · rename_i q6 q7 q8
      refine startMove_pick ?_
      exact h5
    · rename_i q9 q10
      exact h5
  · exact h5

theorem noteLatency_pick {p0 : Nat} {s : State} {c : ℕ} {ns : ℕ} (hk : SamePick p0 s) :
    SamePick p0 (noteLatency s c ns) := by
  unfold noteLatency
  refine SamePick.other ?_
  exact hk

theorem takeLatency_pick {p0 : Nat} {s : State} {x : ℕ × ℕ × ℕ} (hk : SamePick p0 s) :
    SamePick p0 (takeLatency s x) := by
  unfold takeLatency
  lift_lets
  intro u0
  have h1 : SamePick p0 u0 := by
    unfold u0
    refine noteLatency_pick ?_
    exact hk
  clear_value u0
  refine SamePick.ite ?_ ?_
  · refine raise_pick ?_
    refine bump_pick ?_
    refine sticky_pick ?_
    exact h1
  · exact h1

theorem sampleStore_pick {p0 : Nat} {s : State} {x : PickInputs} (hk : SamePick p0 s) :
    SamePick p0 (sampleStore s x) := by
  unfold sampleStore
  lift_lets
  intro u0
  have h1 : SamePick p0 u0 := by
    unfold u0
    refine SamePick.foldl _ ?_ (fun x2 a3 hx4 => ?_)
    · exact hk
    · refine retrainReport_pick ?_
      refine refreshReport_pick ?_
      exact hx4
  clear_value u0
  refine renewLoads_pick ?_
  refine SamePick.foldl _ ?_ (fun x5 a6 hx7 => ?_)
  · refine SamePick.foldl _ ?_ (fun x8 a9 hx10 => ?_)
    · exact h1
    · refine takeLatency_pick ?_
      exact hx10
  · refine closeLatency_pick ?_
    exact hx7

theorem sampleCounts_pick {p0 : Nat} {s : State} (hk : SamePick p0 s) :
    SamePick p0 (sampleCounts s) := by
  unfold sampleCounts
  refine SamePick.other ?_
  exact hk

theorem noteVin_pick {p0 : Nat} {s : State} {mv : ℕ} (hk : SamePick p0 s) :
    SamePick p0 (noteVin s mv) := by
  unfold noteVin
  refine setFld_pick ?_
  exact hk

theorem samplePower_pick {p0 : Nat} {s : State} {x : PickInputs} (hk : SamePick p0 s) :
    SamePick p0 (samplePower s x) := by
  unfold samplePower
  lift_lets
  intro u0
  have h1 : SamePick p0 u0 := by
    unfold u0
    refine noteVin_pick ?_
    refine setFld_pick ?_
    exact hk
  clear_value u0
  intro u2
  have h3 : SamePick p0 u2 := by
    unfold u2
    refine setFld_pick ?_
    refine setFld_pick ?_
    exact h1
  clear_value u2
  intro u4
  have h5 : SamePick p0 u4 := by
    unfold u4
    refine setFld_pick ?_
    exact h3
  clear_value u4
  intro u6
  clear_value u6
  refine SamePick.other ?_
  exact h5

theorem setSensor_pick {p0 : Nat} {s : State} {k : ℕ} {f : Sensor → Sensor} (hk : SamePick p0 s) :
    SamePick p0 (setSensor s k f) := by
  unfold setSensor
  refine SamePick.other ?_
  exact hk

theorem takeReadings_pick {p0 : Nat} {s : State} {xs : List TempIn} (hk : SamePick p0 s) :
    SamePick p0 (takeReadings s xs) := by
  unfold takeReadings
  refine SamePick.foldl _ ?_ (fun x0 a1 hx2 => ?_)
  · exact hk
  · split
    · rename_i q3 q4 q5
      refine setSensor_pick ?_
      exact hx2
    · rename_i q6 q7
      exact hx2

theorem judgeSensor_pick {p0 : Nat} {s : State} {x : TempIn} {k : ℕ} (hk : SamePick p0 s) :
    SamePick p0 (judgeSensor s x k) := by
  unfold judgeSensor
  lift_lets
  intro u0
  clear_value u0
  intro u1
  clear_value u1
  intro u2
  have h3 : SamePick p0 u2 := by
    unfold u2
    refine setSensor_pick ?_
    exact hk
  clear_value u2
  intro u4
  have h5 : SamePick p0 u4 := by
    unfold u4
    refine sticky_pick ?_
    refine sticky_pick ?_
    exact h3
  clear_value u4
  refine SamePick.ite ?_ ?_
  · split
    · rename_i q6 q7 q8
      refine setSensor_pick ?_
      exact hk
    · rename_i q9 q10
      exact hk
  · refine SamePick.ite ?_ ?_
    · exact hk
    · refine raise_pick ?_
      exact h5

theorem beginHandover_pick {p0 : Nat} {s : State} (hk : SamePick p0 s) :
    SamePick p0 (beginHandover s) := by
  unfold beginHandover
  refine SamePick.other ?_
  exact hk

theorem thermalStop_pick {p0 : Nat} {s : State} (hk : SamePick p0 s) :
    SamePick p0 (thermalStop s) := by
  unfold thermalStop
  lift_lets
  intro u0
  clear_value u0
  intro u1
  have h2 : SamePick p0 u1 := by
    unfold u1
    refine sticky_pick ?_
    refine SamePick.other ?_
    exact hk
  clear_value u1
  intro u4
  clear_value u4
  intro u5
  have h6 : SamePick p0 u5 := by
    unfold u5
    refine raise_pick ?_
    exact h2
  clear_value u5
  refine SamePick.ite ?_ ?_
  · refine SamePick.ite ?_ ?_
    · exact h6
    · refine beginHandover_pick ?_
      exact h6
  · refine SamePick.ite ?_ ?_
    · refine stopStandby_pick ?_
      exact h2
    · refine orderlyStop_pick ?_
      refine raise_pick ?_
      exact h2

theorem fetchNext_pick {p0 : Nat} {s : State} {c : ℕ} {st : ℕ} (hk : SamePick p0 s) :
    SamePick p0 (fetchNext s c st) := by
  unfold fetchNext
  lift_lets
  intro u0
  clear_value u0
  intro u1
  clear_value u1
  intro u2
  clear_value u2
  refine SamePick.ite ?_ ?_
  · exact hk
  · split
    · rename_i q3 q4
      exact hk
    · rename_i q5 q6 q7 q8
      refine setChan_pick ?_
      exact hk

theorem beginRead_pick {p0 : Nat} {s : State} {c : ℕ} {n : ℕ} (hk : SamePick p0 s) :
    SamePick p0 (beginRead s c n) := by
  unfold beginRead
  lift_lets
  intro u0
  clear_value u0
  intro u1
  clear_value u1
  refine request_pick ?_
  refine SamePick.other ?_
  exact hk

theorem startReads_pick {p0 : Nat} {s : State} {c : ℕ} (hk : SamePick p0 s) :
    SamePick p0 (startReads s c) := by
  unfold startReads
  lift_lets
  intro u0
  clear_value u0
  intro u1
  clear_value u1
  intro u2
  clear_value u2
  intro u3
  have h4 : SamePick p0 u3 := by
    unfold u3
    refine SamePick.foldl _ ?_ (fun x5 a6 hx7 => ?_)
    · exact hk
    · refine beginRead_pick ?_
      exact hx7
  clear_value u3
  intro u8
  clear_value u8
  refine SamePick.other ?_
  exact h4

theorem fillBuffers_pick {p0 : Nat} {s : State} {c : ℕ} (hk : SamePick p0 s) :
    SamePick p0 (fillBuffers s c) := by
  unfold fillBuffers
  lift_lets
  intro u0
  have h1 : SamePick p0 u0 := by
    unfold u0
    refine SamePick.foldl _ ?_ (fun x2 a3 hx4 => ?_)
    · exact hk
    · refine fetchNext_pick ?_
      refine fetchNext_pick ?_
      exact hx4
  clear_value u0
  refine startReads_pick ?_
  exact h1

theorem startChan_pick {p0 : Nat} {s : State} {c : ℕ} {first : ℤ} (hk : SamePick p0 s) :
    SamePick p0 (startChan s c first) := by
  unfold startChan
  lift_lets
  intro u0
  have h1 : SamePick p0 u0 := by
    unfold u0
    refine setChan_pick ?_
    exact hk
  clear_value u0
  intro u2
  clear_value u2
  intro u3
  clear_value u3
  intro u4
  clear_value u4
  refine setPathNow_pick ?_
  refine setChan_pick ?_
  exact h1

theorem judgeSynced_pick {p0 : Nat} {s : State} (hk : SamePick p0 s) :
    SamePick p0 (judgeSynced s) := by
  unfold judgeSynced
  refine SamePick.ite ?_ ?_
  · lift_lets
    intro u0
    clear_value u0
    intro u1
    have h2 : SamePick p0 u1 := by
      unfold u1
      refine SamePick.other ?_
      exact hk
    clear_value u1
    refine doorbell_pick ?_
    refine raise_pick ?_
    exact h2
  · exact hk

theorem startStage_pick {p0 : Nat} {s : State} {n : ℕ} (hk : SamePick p0 s) :
    SamePick p0 (startStage s n) := by
  unfold startStage
  lift_lets
  intro u0
  clear_value u0
  intro u1
  have h2 : SamePick p0 u1 := by
    unfold u1
    refine SamePick.other ?_
    exact hk
  clear_value u1
  intro u4
  have h5 : SamePick p0 u4 := by
    unfold u4
    refine doorbell_pick ?_
    refine raise_pick ?_
    exact h2
  clear_value u4
  intro u6
  clear_value u6
  refine SamePick.ite ?_ ?_
  · refine toPeer_pick ?_
    exact h5
  · refine judgeSynced_pick ?_
    refine SamePick.other ?_
    exact h5

theorem resumeStandby_pick {p0 : Nat} {s : State} (hk : SamePick p0 s) :
    SamePick p0 (resumeStandby s) := by
  unfold resumeStandby
  lift_lets
  intro u0
  clear_value u0
  intro u1
  have h2 : SamePick p0 u1 := by
    unfold u1
    refine SamePick.other ?_
    exact hk
  intro u4
  clear_value u4
  intro u5
  have h6 : SamePick p0 u5 := by
    unfold u5
    refine SamePick.ite ?_ ?_
    · refine SamePick.foldl _ ?_ (fun x7 a8 hx9 => ?_)
      · refine SamePick.foldl _ ?_ (fun x10 a11 hx12 => ?_)
        · exact h2
        · refine startChan_pick ?_
          exact hx12
      · refine fillBuffers_pick ?_
        exact hx9
    · exact h2
  clear_value u5
  intro u13
  clear_value u13
  refine SamePick.ite ?_ ?_
  · exact h2
  · refine SamePick.ite ?_ ?_
    · refine startStage_pick ?_
      refine SamePick.other ?_
      exact h6
    · exact h6

theorem coolDown_pick {p0 : Nat} {s : State} (hk : SamePick p0 s) :
    SamePick p0 (coolDown s) := by
  unfold coolDown
  lift_lets
  intro u0
  intro u1
  clear_value u1
  intro u2
  have h3 : SamePick p0 u2 := by
    unfold u2
    refine SamePick.other ?_
    exact hk
  intro u5
  clear_value u5
  intro u6
  have h7 : SamePick p0 u6 := by
    unfold u6
    refine SamePick.ite ?_ ?_
    · refine SamePick.ite ?_ ?_
      · refine doorbell_pick ?_
        refine emit_pick ?_
        refine SamePick.other ?_
        exact h3
      · exact h3
    · exact hk
  clear_value u6
  refine SamePick.ite ?_ ?_
  · refine resumeStandby_pick ?_
    exact h7
  · exact h7

theorem judgeStop_pick {p0 : Nat} {s : State} (hk : SamePick p0 s) :
    SamePick p0 (judgeStop s) := by
  unfold judgeStop
  lift_lets
  intro u0
  clear_value u0
  intro u1
  clear_value u1
  intro u2
  clear_value u2
  intro u3
  have h4 : SamePick p0 u3 := by
    unfold u3
    refine SamePick.ite ?_ ?_
    · refine SamePick.ite ?_ ?_
      · exact hk
      · refine thermalStop_pick ?_
        exact hk
    · refine SamePick.other ?_
      exact hk
  clear_value u3
  refine SamePick.ite ?_ ?_
  · refine coolDown_pick ?_
    exact h4
  · exact h4

theorem startEye_pick {p0 : Nat} {s : State} (hk : SamePick p0 s) :
    SamePick p0 (startEye s) := by
  unfold startEye
  lift_lets
  intro u0
  clear_value u0
  intro u1
  clear_value u1
  intro u2
  clear_value u2
  refine SamePick.ite ?_ ?_
  · exact hk
  · refine SamePick.ite ?_ ?_
    · refine SamePick.other ?_
      exact hk
    · refine emit_pick ?_
      refine SamePick.other ?_
      exact hk

theorem setLevel_pick {p0 : Nat} {s : State} {k : ℕ} (hk : SamePick p0 s) :
    SamePick p0 (setLevel s k) := by
  unfold setLevel
  lift_lets
  intro u0
  have h1 : SamePick p0 u0 := by
    unfold u0
    refine setFld_pick ?_
    exact hk
  clear_value u0
  intro u2
  have h3 : SamePick p0 u2 := by
    unfold u2
    refine SamePick.ite ?_ ?_
    · refine sticky_pick ?_
      exact h1
    · exact h1
  clear_value u2
  intro u4
  clear_value u4
  intro u5
  have h6 : SamePick p0 u5 := by
    unfold u5
    refine raise_pick ?_
    refine SamePick.other ?_
    exact h3
  clear_value u5
  refine SamePick.ite ?_ ?_
  · refine startEye_pick ?_
    exact h6
  · exact h6

theorem judgeLevel_pick {p0 : Nat} {s : State} (hk : SamePick p0 s) :
    SamePick p0 (judgeLevel s) := by
  unfold judgeLevel
  lift_lets
  intro u0
  clear_value u0
  intro u1
  clear_value u1
  intro u2
  clear_value u2
  intro u3
  clear_value u3
  intro u4
  clear_value u4
  refine SamePick.ite ?_ ?_
  · refine setLevel_pick ?_
    exact hk
  · refine SamePick.other ?_
    exact hk

theorem noteMax_pick {p0 : Nat} {s : State} (hk : SamePick p0 s) :
    SamePick p0 (noteMax s) := by
  unfold noteMax
  rcases e2 : hottest s with ⟨a0, a1⟩
  dsimp only
  refine setFld_pick ?_
  refine setFld_pick ?_
  refine setFld_pick ?_
  refine setFld_pick ?_
  refine SamePick.other ?_
  exact hk

theorem settleValues_pick {p0 : Nat} {s : State} (hk : SamePick p0 s) :
    SamePick p0 (settleValues s) := by
  unfold settleValues
  lift_lets
  intro u0
  clear_value u0
  intro u1
  clear_value u1
  intro u2
  clear_value u2
  intro u3
  clear_value u3
  rcases e6 : List.foldl (fun p k => match fresh p.1 with | (n, s) => (s, p.2 ++ [(k, Config.standIn n)])) (s, u2) u3 with ⟨a4, a5⟩
  dsimp only
  refine SamePick.foldl _ ?_ (fun x7 a8 hx9 => ?_)
  · refine SamePick.foldl_fst _ ?_ (fun x10 a11 hx12 => ?_)
    · exact hk
    · dsimp only
      refine fresh_pick ?_
      exact hx12
  · refine setFld_pick ?_
    refine setFld_pick ?_
    refine setSensor_pick ?_
    exact hx9

theorem tripEnd_pick {p0 : Nat} {s : State} (hk : SamePick p0 s) :
    SamePick p0 (tripEnd s) := by
  unfold tripEnd
  refine SamePick.ite ?_ ?_
  · refine orderlyStop_pick ?_
    exact hk
  · lift_lets
    intro u0
    have h1 : SamePick p0 u0 := by
      unfold u0
      refine stopFetch_pick ?_
      exact hk
    clear_value u0
    intro u2
    clear_value u2
    intro u3
    have h4 : SamePick p0 u3 := by
      unfold u3
      refine SamePick.other ?_
      exact h1
    clear_value u3
    refine SamePick.ite ?_ ?_
    · refine toStandby_pick ?_
      exact h4
    · exact h4

theorem reportTrip_pick {p0 : Nat} {s : State} (hk : SamePick p0 s) :
    SamePick p0 (reportTrip s) := by
  unfold reportTrip
  split
  · rename_i q0 q1 q2 q3
    refine SamePick.ite ?_ ?_
    · refine tripEnd_pick ?_
      refine raise_pick ?_
      refine sticky_pick ?_
      refine SamePick.other ?_
      exact hk
    · exact hk
  · rename_i q5 q6
    exact hk

theorem sampleTemps_pick {p0 : Nat} {s : State} {xs : List TempIn} (hk : SamePick p0 s) :
    SamePick p0 (sampleTemps s xs) := by
  unfold sampleTemps
  lift_lets
  intro u0
  have h1 : SamePick p0 u0 := by
    unfold u0
    refine takeReadings_pick ?_
    exact hk
  clear_value u0
  intro u2
  have h3 : SamePick p0 u2 := by
    unfold u2
    refine SamePick.foldl _ ?_ (fun x4 a5 hx6 => ?_)
    · exact h1
    · split
      · rename_i q7 q8 q9
        refine judgeSensor_pick ?_
        exact hx6
      · rename_i q10 q11
        exact hx6
  clear_value u2
  refine judgeStop_pick ?_
  refine judgeLevel_pick ?_
  refine noteMax_pick ?_
  refine settleValues_pick ?_
  refine reportTrip_pick ?_
  exact h3

theorem selfTestFail_pick {p0 : Nat} {s : State} {slice : ℕ} {inPath : Bool} (hk : SamePick p0 s) :
    SamePick p0 (selfTestFail s slice inPath) := by
  unfold selfTestFail
  lift_lets
  intro u0
  have h1 : SamePick p0 u0 := by
    unfold u0
    refine raise_pick ?_
    refine sticky_pick ?_
    exact hk
  clear_value u0
  refine SamePick.ite ?_ ?_
  · refine changeScore_pick ?_
    exact h1
  · refine SamePick.ite ?_ ?_
    · refine beginHandover_pick ?_
      exact h1
    · exact h1

theorem asFailedSlice_pick {p0 : Nat} {s : State} (hk : SamePick p0 s) :
    SamePick p0 (asFailedSlice s) := by
  unfold asFailedSlice
  rcases e2 : fresh s with ⟨a0, a1⟩
  dsimp only
  refine selfTestFail_pick ?_
  refine SamePick.snd_of e2 ?_
  refine fresh_pick ?_
  exact hk

theorem noteAon_pick {p0 : Nat} {s : State} {hz : ℕ} (hk : SamePick p0 s) :
    SamePick p0 (noteAon s hz) := by
  unfold noteAon
  lift_lets
  intro u0
  have h1 : SamePick p0 u0 := by
    unfold u0
    refine setFld_pick ?_
    exact hk
  clear_value u0
  intro u2
  clear_value u2
  intro u3
  clear_value u3
  intro u4
  clear_value u4
  intro u5
  have h6 : SamePick p0 u5 := by
    unfold u5
    refine SamePick.other ?_
    exact h1
  clear_value u5
  refine SamePick.ite ?_ ?_
  · refine asFailedSlice_pick ?_
    refine raise_pick ?_
    refine sticky_pick ?_
    exact h6
  · exact h6

theorem stepSample_pick {p0 : Nat} {s : State} {x : PickInputs} (hk : SamePick p0 s) :
    SamePick p0 (stepSample s x) := by
  unfold stepSample
  lift_lets
  intro u0
  have h1 : SamePick p0 u0 := by
    unfold u0
    refine sampleCounts_pick ?_
    refine samplePower_pick ?_
    refine sampleTemps_pick ?_
    exact hk
  clear_value u0
  intro u2
  have h3 : SamePick p0 u2 := by
    unfold u2
    refine noteAon_pick ?_
    refine setFld_pick ?_
    exact h1
  clear_value u2
  split
  · rename_i q4 q5 q6 q7
    refine selfTestFail_pick ?_
    exact h3
  · rename_i q8 q9
    exact h3

theorem judgeAccel_pick {p0 : Nat} {s : State} (hk : SamePick p0 s) :
    SamePick p0 (judgeAccel s) := by
  unfold judgeAccel
  lift_lets
  intro u0
  clear_value u0
  intro u1
  clear_value u1
  intro u2
  clear_value u2
  intro u3
  clear_value u3
  intro u4
  clear_value u4
  intro u5
  clear_value u5
  intro u6
  have h7 : SamePick p0 u6 := by
    unfold u6
    refine SamePick.other ?_
    exact hk
  clear_value u6
  intro u9
  have h10 : SamePick p0 u9 := by
    unfold u9
    refine SamePick.ite ?_ ?_
    · refine sticky_pick ?_
      exact h7
    · exact h7
  clear_value u9
  refine SamePick.ite ?_ ?_
  · refine raise_pick ?_
    exact h10
  · exact h10

theorem warmCount_pick {p0 : Nat} {s : State} (hk : SamePick p0 s) :
    SamePick p0 (warmCount s) := by
  unfold warmCount
  refine SamePick.foldl _ ?_ (fun x0 a1 hx2 => ?_)
  · exact hk
  · lift_lets
    intro u3
    clear_value u3
    refine setChan_pick ?_
    exact hx2

theorem renewLimits_pick {p0 : Nat} {s : State} (hk : SamePick p0 s) :
    SamePick p0 (renewLimits s) := by
  unfold renewLimits
  lift_lets
  intro u0
  have h1 : SamePick p0 u0 := by
    unfold u0
    refine SamePick.foldl _ ?_ (fun x2 a3 hx4 => ?_)
    · refine warmCount_pick ?_
      exact hk
    · refine setChan_pick ?_
      exact hx4
  clear_value u0
  intro u5
  clear_value u5
  intro u6
  clear_value u6
  intro u7
  clear_value u7
  intro u8
  clear_value u8
  intro u9
  clear_value u9
  intro u10
  clear_value u10
  refine SamePick.other ?_
  exact h1

theorem pickLosses_pick {p0 : Nat} {s : State} (hk : SamePick p0 s) :
    SamePick p0 (pickLosses s) := by
  unfold pickLosses
  lift_lets
  intro u0
  have h1 : SamePick p0 u0 := by
    unfold u0
    refine SamePick.foldl _ ?_ (fun x2 a3 hx4 => ?_)
    · exact hk
    · split
      · rename_i q5 q6
        exact hx4
      · rename_i q7 q8
        refine raise_pick ?_
        refine setHub_pick ?_
        exact hx4
  clear_value u0
  intro u9
  have h10 : SamePick p0 u9 := by
    unfold u9
    refine SamePick.foldl _ ?_ (fun x11 a12 hx13 => ?_)
    · exact h1
    · split
      · rename_i q14 q15
        exact hx13
      · rename_i q16 q17
        refine raise_pick ?_
        refine setChan_pick ?_
        exact hx13
  clear_value u9
  refine SamePick.foldl _ ?_ (fun x18 a19 hx20 => ?_)
  · exact h10
  · split
    · rename_i q21 q22
      exact hx20
    · rename_i q23 q24
      refine raise_pick ?_
      refine setDram_pick ?_
      exact hx20

theorem beginPick_rises {s : State} {k : Nat} (h : SamePick k s) : SamePick (k + 1) (beginPick s) := ⟨by
  unfold beginPick; dsimp only; rw [h.pick]⟩

/-- At a boundary in operation the pick number rises by one (R16, R17). -/
theorem fullBoundary_rises {s : State} {x : PickInputs} {k : Nat} (h : SamePick k s) : SamePick (k + 1) (fullBoundary s x) := by
  unfold fullBoundary
  refine stepRecord_pick (motionStep_pick (calibrateBands_pick (calibrateAtOnce_pick (stepPrint_pick (stepApply_pick
    (beginPick_rises ?_))))))
  exact sampleSticky_pick (sampleStore_pick (stepSample_pick (judgeAccel_pick (renewLimits_pick (pickLosses_pick h)))))

/-- At a boundary in the recovery mode the pick number rises by one (R16, R17). -/
theorem recoveryBoundary_rises {s : State} {x : PickInputs} {k : Nat} (h : SamePick k s) :
    SamePick (k + 1) (recoveryBoundary s x) :=
  ⟨(beginPick_rises (stepSample_pick (x := x) (renewLimits_pick h))).pick⟩

end Sys2Proof.Laws
end

