-- ==== Sys2Proof/Laws/Report.lean ====
section
/-!
SUPPORT. Registers read after they are written, and what reporting a fault does: the sticky bit, the summary and doorbell
registers, and the event that waits for the next boundary.
-/
namespace Sys2Proof.Laws

open Sys2Proof.Machine

/-! ### Bits of a register -/

theorem bitsOf_putBits (v lo w x : Nat) : bitsOf (putBits v lo w x) lo w = x % 2 ^ w := by
  unfold bitsOf putBits
  have h0 : v % 2 ^ lo < 2 ^ lo := Nat.mod_lt _ (by positivity)
  have h1 : v / 2 ^ (lo + w) * 2 ^ (lo + w) + x % 2 ^ w * 2 ^ lo + v % 2 ^ lo =
      v % 2 ^ lo + (x % 2 ^ w + v / 2 ^ (lo + w) * 2 ^ w) * 2 ^ lo := by rw [pow_add]; ring
  rw [h1, Nat.add_mul_div_right _ _ (by positivity), Nat.div_eq_of_lt h0, Nat.zero_add, Nat.add_mul_mod_self_right, Nat.mod_mod]

theorem regKey_inj {r q : Reg} {i e j d : Nat} (hi : i < 8192) (he : e < 131072) (hj : j < 8192) (hd : d < 131072)
    (h : regKey r i e = regKey q j d) : r.ctorIdx = q.ctorIdx ∧ i = j ∧ e = d := by
  unfold regKey at h
  omega

theorem regKey_ne {r q : Reg} {i j : Nat} (hi : i < 8192) (hj : j < 8192) (h : r.ctorIdx ≠ q.ctorIdx) :
    regKey r i 0 ≠ regKey q j 0 := fun hk => h (regKey_inj hi (by omega) hj (by omega) hk).1

/-- A field written reads as written, in its width. -/
theorem bankGet_bankSet {b : Bank} (h : bankWf b = true) (f : Field) (i v e : Nat) :
    bankGet (bankSet b f i v e) f i e = v % 2 ^ f.width := by
  unfold bankGet bankSet bankReg
  rw [bankLookup_bankWrite h, bitsOf_putBits]

theorem live_wf {s : State} (h : banksOk s = true) : bankWf s.live = true := by
  simp only [banksOk, Bool.and_eq_true] at h
  exact h.1.1.1

theorem takenState_keeps {s0 s : State} {k cls op tag : Nat} (h : Keeps s0 s) : Keeps s0 (takenState s k cls op tag) := by
  unfold takenState
  split
  · exact takePending_keeps h
  · exact countTaken_keeps h

/-- Taking a message keeps the queue and the canonical banks. -/
theorem entered_keeps {s0 s : State} {k cls op tag : Nat} (h : Keeps s0 s) : Keeps s0 (entered s k cls op tag) :=
  setMbx_keeps (enterFlight_keeps (takenState_keeps h))

theorem banks_begin {s : State} (h : banksOk s = true) (t : Nat) : banksOk (begin s t) = true :=
  (begin_keeps (Keeps.refl s)).banks h

theorem banks_entered {s : State} (h : banksOk s = true) (k cls op tag : Nat) : banksOk (entered s k cls op tag) = true :=
  (entered_keeps (Keeps.refl s)).banks h

/-! ### The registers a state change leaves alone -/

theorem regsKept_refl (s : State) (ks : List Nat) : regsKept s s ks := fun _ _ => rfl

theorem regsKept_trans {a b c : State} {ks : List Nat} (h : regsKept a b ks) (k : regsKept b c ks) : regsKept a c ks :=
  fun j hj => (k j hj).trans (h j hj)

theorem regsKept_mono {a b : State} {ks js : List Nat} (h : regsKept a b ks) (hs : ks ⊆ js) : regsKept a b js :=
  fun j hj => h j fun hk => hj (hs hk)

theorem regsKept_of_live {a b : State} (h : b.live = a.live) (ks : List Nat) : regsKept a b ks := fun j _ => by rw [h]

theorem regsKept_setFld {s : State} (h : bankWf s.live = true) (f : Field) (i v e : Nat) :
    regsKept s (setFld s f i v e) [regKey f.reg i e] := by
  intro j hj
  exact bankLookup_bankWrite_ne h _ (by simpa using hj)

theorem live_sendDatagram (s : State) (kind chan : Nat) (body : List Byte) : (sendDatagram s kind chan body).live = s.live := by
  unfold sendDatagram; split <;> rfl

theorem live_sendNotify (s : State) : (sendNotify s).live = s.live := by unfold sendNotify; rw [live_sendDatagram]

theorem live_raiseIrq (s : State) (v : Nat) : (raiseIrq s v).live = s.live := by
  unfold raiseIrq; dsimp only; split_ifs <;> rfl

theorem live_notifyBit (s : State) (n : Nat) : (notifyBit s n).live = s.live := by
  unfold notifyBit
  dsimp only
  split_ifs <;> (try split) <;> simp [live_sendNotify, live_raiseIrq]

theorem live_noteSet (s : State) (key mask : Nat) : (noteSet s key mask).live = s.live := rfl

/-- A bit of DB_D2H_STATUS set changes no other register. -/
theorem regsKept_doorbell {s : State} (h : bankWf s.live = true) (n : Nat) : regsKept s (doorbell s n) [regKey .DB_D2H_STATUS 0 0] := by
  unfold doorbell
  refine regsKept_trans (regsKept_of_live (live_noteSet s (regKey .DB_D2H_STATUS 0 0) (2 ^ n)) _) ?_
  replace h : bankWf (noteSet s (regKey .DB_D2H_STATUS 0 0) (2 ^ n)).live = true := h
  generalize noteSet s (regKey .DB_D2H_STATUS 0 0) (2 ^ n) = s at h
  dsimp only
  split_ifs
  · exact regsKept_refl _ _
  · exact regsKept_setFld h Fld.DB_D2H_STATUS_STATUS 0 _ 0
  · exact regsKept_trans (regsKept_setFld h Fld.DB_D2H_STATUS_STATUS 0 _ 0) (regsKept_of_live (live_notifyBit _ _) _)

/-- A summary bit set changes no register but FAULT_SUMMARY and DB_D2H_STATUS. -/
theorem regsKept_setSummary {s : State} (h : bankWf s.live = true) (k : Nat) : regsKeptBut s (setSummary s k) [] := by
  unfold setSummary
  have hu : (if k = 0 then s else noteSet s (regKey .FAULT_SUMMARY 0 0) (2 ^ (Fld.FAULT_SUMMARY_SUBSYSTEM.lo + (k - 1)))).live =
      s.live := by split <;> rfl
  refine regsKept_trans (regsKept_of_live hu _) ?_
  rw [← hu] at h
  generalize (if k = 0 then s else noteSet s (regKey .FAULT_SUMMARY 0 0) (2 ^ (Fld.FAULT_SUMMARY_SUBSYSTEM.lo + (k - 1)))) = s at h
  dsimp only
  have h1 : ∀ v, regsKeptBut s (setFld s Fld.FAULT_SUMMARY_SUBSYSTEM 0 v) [] := fun v =>
    regsKept_mono (regsKept_setFld h Fld.FAULT_SUMMARY_SUBSYSTEM 0 v 0) (by intro x hx; simp_all [Fld.FAULT_SUMMARY_SUBSYSTEM])
  split_ifs
  · exact regsKept_refl _ _
  · exact h1 _
  · refine regsKept_trans (h1 _) (regsKept_mono (regsKept_doorbell (bankWf_bankSet h _ _ _ _) 19) ?_)
    intro x hx; simp_all

/-- A sticky bit set changes no other register but the summary and doorbell registers. -/
theorem regsKept_sticky {s : State} (h : bankWf s.live = true) (f : Field) (i b : Nat) :
    regsKeptBut s (sticky s f i b) [regKey f.reg i 0] := by
  unfold sticky
  refine regsKept_trans (regsKept_of_live (live_noteSet s (regKey f.reg i 0) (2 ^ (f.lo + b))) _) ?_
  replace h : bankWf (noteSet s (regKey f.reg i 0) (2 ^ (f.lo + b))).live = true := h
  generalize noteSet s (regKey f.reg i 0) (2 ^ (f.lo + b)) = s at h
  dsimp only
  have h1 : ∀ v, regsKeptBut s (setFld s f i v) [regKey f.reg i 0] := fun v =>
    regsKept_mono (regsKept_setFld h f i v 0) (by intro x hx; simp_all)
  split_ifs
  · exact regsKept_refl _ _
  · exact h1 _
  · refine regsKept_trans (h1 _) (regsKept_mono (regsKept_setSummary (bankWf_bankSet h _ _ _ _) _) ?_)
    intro x hx
    simp only [List.mem_cons, List.not_mem_nil, or_false] at hx ⊢
    exact hx.elim .inl fun hx => .inr (.inl hx)

theorem hostOnly_setSummary (s : State) (k : Nat) : HostOnly s (setSummary s k) := by
  unfold setSummary
  have hu : HostOnly s (if k = 0 then s else
      noteSet s (regKey .FAULT_SUMMARY 0 0) (2 ^ (Fld.FAULT_SUMMARY_SUBSYSTEM.lo + (k - 1)))) := by
    split
    · exact HostOnly.refl s
    · exact hostOnly_noteSet _ _ _
  refine hu.trans ?_
  generalize (if k = 0 then s else noteSet s (regKey .FAULT_SUMMARY 0 0) (2 ^ (Fld.FAULT_SUMMARY_SUBSYSTEM.lo + (k - 1)))) = s
  dsimp only
  split_ifs
  · exact HostOnly.refl s
  · exact hostOnly_setFld s _ _ _ _
  · exact (hostOnly_setFld s _ _ _ _).trans (hostOnly_doorbell _ _)

theorem hostOnly_sticky (s : State) (f : Field) (i b : Nat) : HostOnly s (sticky s f i b) := by
  unfold sticky
  refine (hostOnly_noteSet s (regKey f.reg i 0) (2 ^ (f.lo + b))).trans ?_
  generalize noteSet s (regKey f.reg i 0) (2 ^ (f.lo + b)) = s
  dsimp only
  split_ifs
  · exact HostOnly.refl s
  · exact hostOnly_setFld s _ _ _ _
  · exact (hostOnly_setFld s _ _ _ _).trans (hostOnly_setSummary _ _)

/-! ### The events that wait -/

theorem queued_sendDatagram (s : State) (kind chan : Nat) (body : List Byte) :
    (sendDatagram s kind chan body).host.queued = s.host.queued := by
  unfold sendDatagram; split <;> rfl

theorem queued_sendNotify (s : State) : (sendNotify s).host.queued = s.host.queued := by unfold sendNotify; rw [queued_sendDatagram]

theorem queued_raiseIrq (s : State) (v : Nat) : (raiseIrq s v).host.queued = s.host.queued := by
  unfold raiseIrq; dsimp only; split_ifs <;> rfl

theorem queued_notifyBit (s : State) (n : Nat) : (notifyBit s n).host.queued = s.host.queued := by
  unfold notifyBit
  dsimp only
  split_ifs <;> (try split) <;> simp [queued_sendNotify, queued_raiseIrq]

theorem queued_noteSet (s : State) (key mask : Nat) : (noteSet s key mask).host.queued = s.host.queued := rfl

theorem queued_doorbell (s : State) (n : Nat) : (doorbell s n).host.queued = s.host.queued := by
  unfold doorbell
  rw [← queued_noteSet s (regKey .DB_D2H_STATUS 0 0) (2 ^ n)]
  generalize noteSet s (regKey .DB_D2H_STATUS 0 0) (2 ^ n) = s
  dsimp only
  split_ifs
  · rfl
  · rfl
  · rw [queued_notifyBit]; rfl

theorem queued_setSummary (s : State) (k : Nat) : (setSummary s k).host.queued = s.host.queued := by
  unfold setSummary
  have hu : (if k = 0 then s else
      noteSet s (regKey .FAULT_SUMMARY 0 0) (2 ^ (Fld.FAULT_SUMMARY_SUBSYSTEM.lo + (k - 1)))).host.queued = s.host.queued := by
    split <;> rfl
  rw [← hu]
  generalize (if k = 0 then s else noteSet s (regKey .FAULT_SUMMARY 0 0) (2 ^ (Fld.FAULT_SUMMARY_SUBSYSTEM.lo + (k - 1)))) = s
  dsimp only
  split_ifs
  · rfl
  · rfl
  · rw [queued_doorbell]; rfl

theorem queued_sticky (s : State) (f : Field) (i b : Nat) : (sticky s f i b).host.queued = s.host.queued := by
  unfold sticky
  rw [← queued_noteSet s (regKey f.reg i 0) (2 ^ (f.lo + b))]
  generalize noteSet s (regKey f.reg i 0) (2 ^ (f.lo + b)) = s
  dsimp only
  split_ifs
  · rfl
  · rfl
  · rw [queued_setSummary]; rfl

/-! ### Reporting a fault -/

theorem now_of_hostOnly {s u : State} (h : HostOnly s u) : now u = now s := by
  unfold HostOnly at h
  unfold now
  rw [← h]

theorem liveFld_of_kept {s u : State} {ks : List Nat} (h : regsKept s u ks) (f : Field) (i e : Nat)
    (hk : regKey f.reg i e ∉ ks) : liveFld u f i e = liveFld s f i e := by
  unfold liveFld bankGet bankReg
  rw [h _ hk]

/-- A sticky bit set reads 1. -/
theorem stickyOn_sticky {s : State} (h : bankWf s.live = true) {f : Field} {i b : Nat} (hb : b < f.width)
    (h1 : regKey f.reg i 0 ≠ regKey .DB_D2H_STATUS 0 0) (h2 : regKey f.reg i 0 ≠ regKey .FAULT_SUMMARY 0 0) :
    stickyOn (sticky s f i b) f i b = true := by
  unfold sticky
  replace h : bankWf (noteSet s (regKey f.reg i 0) (2 ^ (f.lo + b))).live = true := h
  generalize noteSet s (regKey f.reg i 0) (2 ^ (f.lo + b)) = s at h
  have key : stickyOn (setFld s f i (liveFld s f i + 2 ^ b)) f i b = !(liveFld s f i).testBit b := by
    unfold stickyOn
    rw [show liveFld (setFld s f i (liveFld s f i + 2 ^ b)) f i = _ from bankGet_bankSet h f i _ 0,
      Nat.testBit_mod_two_pow, Nat.add_comm, Nat.testBit_two_pow_add_eq]
    simp [hb]
  dsimp only
  split_ifs with ha hb
  · exact ha
  · rw [key]; simpa using ha
  · unfold stickyOn
    rw [liveFld_of_kept (regsKept_setSummary (bankWf_bankSet h _ _ _ _) _) f i 0 (by simp [h1, h2])]
    exact key.trans (by simpa using ha)

/-- A sticky bit set and its event raised report the fault. -/
theorem reported {s : State} (h : bankWf s.live = true) {f : Field} {i b c src a : Nat} (hb : b < f.width) (hi : i < 8192)
    (h1 : f.reg.ctorIdx ≠ Reg.DB_D2H_STATUS.ctorIdx) (h2 : f.reg.ctorIdx ≠ Reg.FAULT_SUMMARY.ctorIdx) {a' : Nat}
    (ha : a % 2 ^ 32 = a') : Reported s (raise (sticky s f i b) c src a) f i b ⟨now s, c, src, a'⟩ := by
  subst ha
  refine ⟨stickyOn_sticky h hb (regKey_ne hi (by omega) h1) (regKey_ne hi (by omega) h2), ?_,
    (hostOnly_sticky s f i b).trans (hostOnly_raise _ _ _ _), regsKept_sticky h f i b⟩
  show (sticky s f i b).host.queued ++ [_] = _
  rw [queued_sticky, now_of_hostOnly (hostOnly_sticky s f i b)]

/-- A field's value fits its width. -/
theorem liveFld_lt (s : State) (f : Field) (i e : Nat) : liveFld s f i e < 2 ^ f.width := Nat.mod_lt _ (by positivity)

end Sys2Proof.Laws
end

