-- ==== Sys2Proof/Laws/Secure.lean ====
section
/-!
SUPPORT. The course of a message of class SEC: its action, its audit entry, its reply.
-/
namespace Sys2Proof.Laws

open Sys2Proof.Machine

/-- A message of class SEC that is taken and acted on is its action, its audit entry with the result, and its reply, unless the
reply comes later, when the entry comes with it. -/
theorem secMessage_acts {s : State} {k op tag sub : Nat} {c e : Bool} (h : secActs s k op tag c e sub = true)
    (act : State → State × MsgRes) :
    secMessage s k op tag c e sub act =
      if (act (secEntered s k op tag)).2.later then (act (secEntered s k op tag)).1
      else answer (audit (act (secEntered s k op tag)).1 (0x0C80 + op) k (act (secEntered s k op tag)).2.result) k tag c
        (act (secEntered s k op tag)).2 := by
  simp only [secActs, Bool.and_eq_true, Bool.or_eq_true, Bool.not_eq_true', beq_iff_eq] at h
  obtain ⟨⟨⟨h1, h2⟩, h3⟩, h4⟩ := h
  have he : (if pendingIs (mbx (lapseSetup s k) k) 0x0F op tag then 0 else
      takeCheck (lapseSetup s k) k 0x0F op tag ((mbx (lapseSetup s k) k).secure || setupOp 0x0F op)) = 0 := by
    rcases h2 with h2 | h2 <;> simp [h2]
  have ha : ∀ act, secAct k op sub act (secEntered s k op tag) = act (secEntered s k op tag) := by
    intro act
    unfold secAct
    rw [h3]
    simp only [Bool.not_true, Bool.false_eq_true, if_false]
    rw [if_neg]
    rintro ⟨a, b, d⟩
    simp [a, b, d] at h4
  unfold secMessage
  dsimp only
  rw [he, message_acts h1]
  simp only [ne_eq, not_true_eq_false, and_false, if_false]
  rw [show entered (lapseSetup s k) k 0x0F op tag = secEntered s k op tag from rfl, ha]
  cases (act (secEntered s k op tag)).2.later <;> simp

end Sys2Proof.Laws
end

