-- ==== Sys2Proof/Laws/State.lean ====
section
/-!
SUPPORT. What each update of one part of the state does to the parts, one lemma a part, true by unfolding; and what a list reads as
after one of its entries is changed.
-/
namespace Sys2Proof.Laws

open Sys2Proof.Machine

/-- An entry changed reads as changed. -/
theorem nth_upd {α : Type} {l : List α} {i : Nat} (h : i < l.length) (f : α → α) (d : α) : nth (upd l i f) i d = f (nth l i d) := by
  simp [nth, upd, h]

/-- The other entries read as before. -/
theorem nth_upd_ne {α : Type} {l : List α} {i j : Nat} (h : j ≠ i) (f : α → α) (d : α) : nth (upd l i f) j d = nth l j d := by
  simp only [nth, upd, List.getElem?_modify]
  cases l[j]? <;> simp [Ne.symm h]

@[simp] theorem length_upd {α : Type} (l : List α) (i : Nat) (f : α → α) : (upd l i f).length = l.length := by simp [upd]

@[simp] theorem setFld_pending (s : State) (f : Field) (i v e : Nat) : (setFld s f i v e).pending = s.pending := rfl
@[simp] theorem setFld_out (s : State) (f : Field) (i v e : Nat) : (setFld s f i v e).out = s.out := rfl
@[simp] theorem setFld_freeCtr (s : State) (f : Field) (i v e : Nat) : (setFld s f i v e).freeCtr = s.freeCtr := rfl
@[simp] theorem setFld_sys (s : State) (f : Field) (i v e : Nat) : (setFld s f i v e).sys = s.sys := rfl
@[simp] theorem setFld_time (s : State) (f : Field) (i v e : Nat) : (setFld s f i v e).time = s.time := rfl
@[simp] theorem setFld_pos (s : State) (f : Field) (i v e : Nat) : (setFld s f i v e).pos = s.pos := rfl
@[simp] theorem setFld_host (s : State) (f : Field) (i v e : Nat) : (setFld s f i v e).host = s.host := rfl
@[simp] theorem setFld_pickEff (s : State) (f : Field) (i v e : Nat) : (setFld s f i v e).pickEff = s.pickEff := rfl
@[simp] theorem setFld_startEff (s : State) (f : Field) (i v e : Nat) : (setFld s f i v e).startEff = s.startEff := rfl
@[simp] theorem setFld_frameEff (s : State) (f : Field) (i v e : Nat) : (setFld s f i v e).frameEff = s.frameEff := rfl
@[simp] theorem setFld_store (s : State) (f : Field) (i v e : Nat) : (setFld s f i v e).store = s.store := rfl
@[simp] theorem setFld_sets (s : State) (f : Field) (i v e : Nat) : (setFld s f i v e).sets = s.sets := rfl
@[simp] theorem setFld_job (s : State) (f : Field) (i v e : Nat) : (setFld s f i v e).job = s.job := rfl
@[simp] theorem setFld_print (s : State) (f : Field) (i v e : Nat) : (setFld s f i v e).print = s.print := rfl
@[simp] theorem setFld_pair (s : State) (f : Field) (i v e : Nat) : (setFld s f i v e).pair = s.pair := rfl
@[simp] theorem setFld_link (s : State) (f : Field) (i v e : Nat) : (setFld s f i v e).link = s.link := rfl
@[simp] theorem setFld_vision (s : State) (f : Field) (i v e : Nat) : (setFld s f i v e).vision = s.vision := rfl
@[simp] theorem setFld_colour (s : State) (f : Field) (i v e : Nat) : (setFld s f i v e).colour = s.colour := rfl
@[simp] theorem setFld_mot (s : State) (f : Field) (i v e : Nat) : (setFld s f i v e).mot = s.mot := rfl
@[simp] theorem setFld_sec (s : State) (f : Field) (i v e : Nat) : (setFld s f i v e).sec = s.sec := rfl
@[simp] theorem setFld_rst (s : State) (f : Field) (i v e : Nat) : (setFld s f i v e).rst = s.rst := rfl
@[simp] theorem setFld_thm (s : State) (f : Field) (i v e : Nat) : (setFld s f i v e).thm = s.thm := rfl
@[simp] theorem setFld_pwr (s : State) (f : Field) (i v e : Nat) : (setFld s f i v e).pwr = s.pwr := rfl

@[simp] theorem bump_pending (s : State) (f : Field) (i n : Nat) : (bump s f i n).pending = s.pending := rfl
@[simp] theorem bump_out (s : State) (f : Field) (i n : Nat) : (bump s f i n).out = s.out := rfl
@[simp] theorem bump_freeCtr (s : State) (f : Field) (i n : Nat) : (bump s f i n).freeCtr = s.freeCtr := rfl
@[simp] theorem bump_sys (s : State) (f : Field) (i n : Nat) : (bump s f i n).sys = s.sys := rfl
@[simp] theorem bump_time (s : State) (f : Field) (i n : Nat) : (bump s f i n).time = s.time := rfl
@[simp] theorem bump_pos (s : State) (f : Field) (i n : Nat) : (bump s f i n).pos = s.pos := rfl
@[simp] theorem bump_host (s : State) (f : Field) (i n : Nat) : (bump s f i n).host = s.host := rfl
@[simp] theorem bump_pickEff (s : State) (f : Field) (i n : Nat) : (bump s f i n).pickEff = s.pickEff := rfl
@[simp] theorem bump_startEff (s : State) (f : Field) (i n : Nat) : (bump s f i n).startEff = s.startEff := rfl
@[simp] theorem bump_frameEff (s : State) (f : Field) (i n : Nat) : (bump s f i n).frameEff = s.frameEff := rfl
@[simp] theorem bump_store (s : State) (f : Field) (i n : Nat) : (bump s f i n).store = s.store := rfl
@[simp] theorem bump_sets (s : State) (f : Field) (i n : Nat) : (bump s f i n).sets = s.sets := rfl
@[simp] theorem bump_job (s : State) (f : Field) (i n : Nat) : (bump s f i n).job = s.job := rfl
@[simp] theorem bump_print (s : State) (f : Field) (i n : Nat) : (bump s f i n).print = s.print := rfl
@[simp] theorem bump_pair (s : State) (f : Field) (i n : Nat) : (bump s f i n).pair = s.pair := rfl
@[simp] theorem bump_link (s : State) (f : Field) (i n : Nat) : (bump s f i n).link = s.link := rfl
@[simp] theorem bump_vision (s : State) (f : Field) (i n : Nat) : (bump s f i n).vision = s.vision := rfl
@[simp] theorem bump_colour (s : State) (f : Field) (i n : Nat) : (bump s f i n).colour = s.colour := rfl
@[simp] theorem bump_mot (s : State) (f : Field) (i n : Nat) : (bump s f i n).mot = s.mot := rfl
@[simp] theorem bump_sec (s : State) (f : Field) (i n : Nat) : (bump s f i n).sec = s.sec := rfl
@[simp] theorem bump_rst (s : State) (f : Field) (i n : Nat) : (bump s f i n).rst = s.rst := rfl
@[simp] theorem bump_thm (s : State) (f : Field) (i n : Nat) : (bump s f i n).thm = s.thm := rfl
@[simp] theorem bump_pwr (s : State) (f : Field) (i n : Nat) : (bump s f i n).pwr = s.pwr := rfl

@[simp] theorem emit_pending (s : State) (o : Output) : (emit s o).pending = s.pending := rfl
@[simp] theorem emit_freeCtr (s : State) (o : Output) : (emit s o).freeCtr = s.freeCtr := rfl
@[simp] theorem emit_sys (s : State) (o : Output) : (emit s o).sys = s.sys := rfl
@[simp] theorem emit_time (s : State) (o : Output) : (emit s o).time = s.time := rfl
@[simp] theorem emit_pos (s : State) (o : Output) : (emit s o).pos = s.pos := rfl
@[simp] theorem emit_host (s : State) (o : Output) : (emit s o).host = s.host := rfl
@[simp] theorem emit_live (s : State) (o : Output) : (emit s o).live = s.live := rfl
@[simp] theorem emit_pickEff (s : State) (o : Output) : (emit s o).pickEff = s.pickEff := rfl
@[simp] theorem emit_startEff (s : State) (o : Output) : (emit s o).startEff = s.startEff := rfl
@[simp] theorem emit_frameEff (s : State) (o : Output) : (emit s o).frameEff = s.frameEff := rfl
@[simp] theorem emit_store (s : State) (o : Output) : (emit s o).store = s.store := rfl
@[simp] theorem emit_sets (s : State) (o : Output) : (emit s o).sets = s.sets := rfl
@[simp] theorem emit_job (s : State) (o : Output) : (emit s o).job = s.job := rfl
@[simp] theorem emit_print (s : State) (o : Output) : (emit s o).print = s.print := rfl
@[simp] theorem emit_pair (s : State) (o : Output) : (emit s o).pair = s.pair := rfl
@[simp] theorem emit_link (s : State) (o : Output) : (emit s o).link = s.link := rfl
@[simp] theorem emit_vision (s : State) (o : Output) : (emit s o).vision = s.vision := rfl
@[simp] theorem emit_colour (s : State) (o : Output) : (emit s o).colour = s.colour := rfl
@[simp] theorem emit_mot (s : State) (o : Output) : (emit s o).mot = s.mot := rfl
@[simp] theorem emit_sec (s : State) (o : Output) : (emit s o).sec = s.sec := rfl
@[simp] theorem emit_rst (s : State) (o : Output) : (emit s o).rst = s.rst := rfl
@[simp] theorem emit_thm (s : State) (o : Output) : (emit s o).thm = s.thm := rfl
@[simp] theorem emit_pwr (s : State) (o : Output) : (emit s o).pwr = s.pwr := rfl

@[simp] theorem raise_pending (s : State) (c src a : Nat) : (raise s c src a).pending = s.pending := rfl
@[simp] theorem raise_out (s : State) (c src a : Nat) : (raise s c src a).out = s.out := rfl
@[simp] theorem raise_freeCtr (s : State) (c src a : Nat) : (raise s c src a).freeCtr = s.freeCtr := rfl
@[simp] theorem raise_sys (s : State) (c src a : Nat) : (raise s c src a).sys = s.sys := rfl
@[simp] theorem raise_time (s : State) (c src a : Nat) : (raise s c src a).time = s.time := rfl
@[simp] theorem raise_pos (s : State) (c src a : Nat) : (raise s c src a).pos = s.pos := rfl
@[simp] theorem raise_live (s : State) (c src a : Nat) : (raise s c src a).live = s.live := rfl
@[simp] theorem raise_pickEff (s : State) (c src a : Nat) : (raise s c src a).pickEff = s.pickEff := rfl
@[simp] theorem raise_startEff (s : State) (c src a : Nat) : (raise s c src a).startEff = s.startEff := rfl
@[simp] theorem raise_frameEff (s : State) (c src a : Nat) : (raise s c src a).frameEff = s.frameEff := rfl
@[simp] theorem raise_store (s : State) (c src a : Nat) : (raise s c src a).store = s.store := rfl
@[simp] theorem raise_sets (s : State) (c src a : Nat) : (raise s c src a).sets = s.sets := rfl
@[simp] theorem raise_job (s : State) (c src a : Nat) : (raise s c src a).job = s.job := rfl
@[simp] theorem raise_print (s : State) (c src a : Nat) : (raise s c src a).print = s.print := rfl
@[simp] theorem raise_pair (s : State) (c src a : Nat) : (raise s c src a).pair = s.pair := rfl
@[simp] theorem raise_link (s : State) (c src a : Nat) : (raise s c src a).link = s.link := rfl
@[simp] theorem raise_vision (s : State) (c src a : Nat) : (raise s c src a).vision = s.vision := rfl
@[simp] theorem raise_colour (s : State) (c src a : Nat) : (raise s c src a).colour = s.colour := rfl
@[simp] theorem raise_mot (s : State) (c src a : Nat) : (raise s c src a).mot = s.mot := rfl
@[simp] theorem raise_sec (s : State) (c src a : Nat) : (raise s c src a).sec = s.sec := rfl
@[simp] theorem raise_rst (s : State) (c src a : Nat) : (raise s c src a).rst = s.rst := rfl
@[simp] theorem raise_thm (s : State) (c src a : Nat) : (raise s c src a).thm = s.thm := rfl
@[simp] theorem raise_pwr (s : State) (c src a : Nat) : (raise s c src a).pwr = s.pwr := rfl

@[simp] theorem setMbx_pending (s : State) (k : Nat) (f : Mbx → Mbx) : (setMbx s k f).pending = s.pending := rfl
@[simp] theorem setMbx_out (s : State) (k : Nat) (f : Mbx → Mbx) : (setMbx s k f).out = s.out := rfl
@[simp] theorem setMbx_freeCtr (s : State) (k : Nat) (f : Mbx → Mbx) : (setMbx s k f).freeCtr = s.freeCtr := rfl
@[simp] theorem setMbx_sys (s : State) (k : Nat) (f : Mbx → Mbx) : (setMbx s k f).sys = s.sys := rfl
@[simp] theorem setMbx_time (s : State) (k : Nat) (f : Mbx → Mbx) : (setMbx s k f).time = s.time := rfl
@[simp] theorem setMbx_pos (s : State) (k : Nat) (f : Mbx → Mbx) : (setMbx s k f).pos = s.pos := rfl
@[simp] theorem setMbx_live (s : State) (k : Nat) (f : Mbx → Mbx) : (setMbx s k f).live = s.live := rfl
@[simp] theorem setMbx_pickEff (s : State) (k : Nat) (f : Mbx → Mbx) : (setMbx s k f).pickEff = s.pickEff := rfl
@[simp] theorem setMbx_startEff (s : State) (k : Nat) (f : Mbx → Mbx) : (setMbx s k f).startEff = s.startEff := rfl
@[simp] theorem setMbx_frameEff (s : State) (k : Nat) (f : Mbx → Mbx) : (setMbx s k f).frameEff = s.frameEff := rfl
@[simp] theorem setMbx_store (s : State) (k : Nat) (f : Mbx → Mbx) : (setMbx s k f).store = s.store := rfl
@[simp] theorem setMbx_sets (s : State) (k : Nat) (f : Mbx → Mbx) : (setMbx s k f).sets = s.sets := rfl
@[simp] theorem setMbx_job (s : State) (k : Nat) (f : Mbx → Mbx) : (setMbx s k f).job = s.job := rfl
@[simp] theorem setMbx_print (s : State) (k : Nat) (f : Mbx → Mbx) : (setMbx s k f).print = s.print := rfl
@[simp] theorem setMbx_pair (s : State) (k : Nat) (f : Mbx → Mbx) : (setMbx s k f).pair = s.pair := rfl
@[simp] theorem setMbx_link (s : State) (k : Nat) (f : Mbx → Mbx) : (setMbx s k f).link = s.link := rfl
@[simp] theorem setMbx_vision (s : State) (k : Nat) (f : Mbx → Mbx) : (setMbx s k f).vision = s.vision := rfl
@[simp] theorem setMbx_colour (s : State) (k : Nat) (f : Mbx → Mbx) : (setMbx s k f).colour = s.colour := rfl
@[simp] theorem setMbx_mot (s : State) (k : Nat) (f : Mbx → Mbx) : (setMbx s k f).mot = s.mot := rfl
@[simp] theorem setMbx_sec (s : State) (k : Nat) (f : Mbx → Mbx) : (setMbx s k f).sec = s.sec := rfl
@[simp] theorem setMbx_rst (s : State) (k : Nat) (f : Mbx → Mbx) : (setMbx s k f).rst = s.rst := rfl
@[simp] theorem setMbx_thm (s : State) (k : Nat) (f : Mbx → Mbx) : (setMbx s k f).thm = s.thm := rfl
@[simp] theorem setMbx_pwr (s : State) (k : Nat) (f : Mbx → Mbx) : (setMbx s k f).pwr = s.pwr := rfl

@[simp] theorem setSession_pending (s : State) (k : Nat) (f : SecSession → SecSession) : (setSession s k f).pending = s.pending := rfl
@[simp] theorem setSession_out (s : State) (k : Nat) (f : SecSession → SecSession) : (setSession s k f).out = s.out := rfl
@[simp] theorem setSession_freeCtr (s : State) (k : Nat) (f : SecSession → SecSession) : (setSession s k f).freeCtr = s.freeCtr := rfl
@[simp] theorem setSession_sys (s : State) (k : Nat) (f : SecSession → SecSession) : (setSession s k f).sys = s.sys := rfl
@[simp] theorem setSession_time (s : State) (k : Nat) (f : SecSession → SecSession) : (setSession s k f).time = s.time := rfl
@[simp] theorem setSession_pos (s : State) (k : Nat) (f : SecSession → SecSession) : (setSession s k f).pos = s.pos := rfl
@[simp] theorem setSession_host (s : State) (k : Nat) (f : SecSession → SecSession) : (setSession s k f).host = s.host := rfl
@[simp] theorem setSession_live (s : State) (k : Nat) (f : SecSession → SecSession) : (setSession s k f).live = s.live := rfl
@[simp] theorem setSession_pickEff (s : State) (k : Nat) (f : SecSession → SecSession) : (setSession s k f).pickEff = s.pickEff := rfl
@[simp] theorem setSession_startEff (s : State) (k : Nat) (f : SecSession → SecSession) : (setSession s k f).startEff = s.startEff := rfl
@[simp] theorem setSession_frameEff (s : State) (k : Nat) (f : SecSession → SecSession) : (setSession s k f).frameEff = s.frameEff := rfl
@[simp] theorem setSession_store (s : State) (k : Nat) (f : SecSession → SecSession) : (setSession s k f).store = s.store := rfl
@[simp] theorem setSession_sets (s : State) (k : Nat) (f : SecSession → SecSession) : (setSession s k f).sets = s.sets := rfl
@[simp] theorem setSession_job (s : State) (k : Nat) (f : SecSession → SecSession) : (setSession s k f).job = s.job := rfl
@[simp] theorem setSession_print (s : State) (k : Nat) (f : SecSession → SecSession) : (setSession s k f).print = s.print := rfl
@[simp] theorem setSession_pair (s : State) (k : Nat) (f : SecSession → SecSession) : (setSession s k f).pair = s.pair := rfl
@[simp] theorem setSession_link (s : State) (k : Nat) (f : SecSession → SecSession) : (setSession s k f).link = s.link := rfl
@[simp] theorem setSession_vision (s : State) (k : Nat) (f : SecSession → SecSession) : (setSession s k f).vision = s.vision := rfl
@[simp] theorem setSession_colour (s : State) (k : Nat) (f : SecSession → SecSession) : (setSession s k f).colour = s.colour := rfl
@[simp] theorem setSession_mot (s : State) (k : Nat) (f : SecSession → SecSession) : (setSession s k f).mot = s.mot := rfl
@[simp] theorem setSession_rst (s : State) (k : Nat) (f : SecSession → SecSession) : (setSession s k f).rst = s.rst := rfl
@[simp] theorem setSession_thm (s : State) (k : Nat) (f : SecSession → SecSession) : (setSession s k f).thm = s.thm := rfl
@[simp] theorem setSession_pwr (s : State) (k : Nat) (f : SecSession → SecSession) : (setSession s k f).pwr = s.pwr := rfl

@[simp] theorem setTrig_pending (s : State) (n : Nat) (f : Trigger → Trigger) : (setTrig s n f).pending = s.pending := rfl
@[simp] theorem setTrig_out (s : State) (n : Nat) (f : Trigger → Trigger) : (setTrig s n f).out = s.out := rfl
@[simp] theorem setTrig_freeCtr (s : State) (n : Nat) (f : Trigger → Trigger) : (setTrig s n f).freeCtr = s.freeCtr := rfl
@[simp] theorem setTrig_sys (s : State) (n : Nat) (f : Trigger → Trigger) : (setTrig s n f).sys = s.sys := rfl
@[simp] theorem setTrig_pos (s : State) (n : Nat) (f : Trigger → Trigger) : (setTrig s n f).pos = s.pos := rfl
@[simp] theorem setTrig_host (s : State) (n : Nat) (f : Trigger → Trigger) : (setTrig s n f).host = s.host := rfl
@[simp] theorem setTrig_live (s : State) (n : Nat) (f : Trigger → Trigger) : (setTrig s n f).live = s.live := rfl
@[simp] theorem setTrig_pickEff (s : State) (n : Nat) (f : Trigger → Trigger) : (setTrig s n f).pickEff = s.pickEff := rfl
@[simp] theorem setTrig_startEff (s : State) (n : Nat) (f : Trigger → Trigger) : (setTrig s n f).startEff = s.startEff := rfl
@[simp] theorem setTrig_frameEff (s : State) (n : Nat) (f : Trigger → Trigger) : (setTrig s n f).frameEff = s.frameEff := rfl
@[simp] theorem setTrig_store (s : State) (n : Nat) (f : Trigger → Trigger) : (setTrig s n f).store = s.store := rfl
@[simp] theorem setTrig_sets (s : State) (n : Nat) (f : Trigger → Trigger) : (setTrig s n f).sets = s.sets := rfl
@[simp] theorem setTrig_job (s : State) (n : Nat) (f : Trigger → Trigger) : (setTrig s n f).job = s.job := rfl
@[simp] theorem setTrig_print (s : State) (n : Nat) (f : Trigger → Trigger) : (setTrig s n f).print = s.print := rfl
@[simp] theorem setTrig_pair (s : State) (n : Nat) (f : Trigger → Trigger) : (setTrig s n f).pair = s.pair := rfl
@[simp] theorem setTrig_link (s : State) (n : Nat) (f : Trigger → Trigger) : (setTrig s n f).link = s.link := rfl
@[simp] theorem setTrig_vision (s : State) (n : Nat) (f : Trigger → Trigger) : (setTrig s n f).vision = s.vision := rfl
@[simp] theorem setTrig_colour (s : State) (n : Nat) (f : Trigger → Trigger) : (setTrig s n f).colour = s.colour := rfl
@[simp] theorem setTrig_mot (s : State) (n : Nat) (f : Trigger → Trigger) : (setTrig s n f).mot = s.mot := rfl
@[simp] theorem setTrig_sec (s : State) (n : Nat) (f : Trigger → Trigger) : (setTrig s n f).sec = s.sec := rfl
@[simp] theorem setTrig_rst (s : State) (n : Nat) (f : Trigger → Trigger) : (setTrig s n f).rst = s.rst := rfl
@[simp] theorem setTrig_thm (s : State) (n : Nat) (f : Trigger → Trigger) : (setTrig s n f).thm = s.thm := rfl
@[simp] theorem setTrig_pwr (s : State) (n : Nat) (f : Trigger → Trigger) : (setTrig s n f).pwr = s.pwr := rfl

@[simp] theorem setEnc_pending (s : State) (n : Nat) (f : Encoder → Encoder) : (setEnc s n f).pending = s.pending := rfl
@[simp] theorem setEnc_out (s : State) (n : Nat) (f : Encoder → Encoder) : (setEnc s n f).out = s.out := rfl
@[simp] theorem setEnc_freeCtr (s : State) (n : Nat) (f : Encoder → Encoder) : (setEnc s n f).freeCtr = s.freeCtr := rfl
@[simp] theorem setEnc_sys (s : State) (n : Nat) (f : Encoder → Encoder) : (setEnc s n f).sys = s.sys := rfl
@[simp] theorem setEnc_time (s : State) (n : Nat) (f : Encoder → Encoder) : (setEnc s n f).time = s.time := rfl
@[simp] theorem setEnc_host (s : State) (n : Nat) (f : Encoder → Encoder) : (setEnc s n f).host = s.host := rfl
@[simp] theorem setEnc_live (s : State) (n : Nat) (f : Encoder → Encoder) : (setEnc s n f).live = s.live := rfl
@[simp] theorem setEnc_pickEff (s : State) (n : Nat) (f : Encoder → Encoder) : (setEnc s n f).pickEff = s.pickEff := rfl
@[simp] theorem setEnc_startEff (s : State) (n : Nat) (f : Encoder → Encoder) : (setEnc s n f).startEff = s.startEff := rfl
@[simp] theorem setEnc_frameEff (s : State) (n : Nat) (f : Encoder → Encoder) : (setEnc s n f).frameEff = s.frameEff := rfl
@[simp] theorem setEnc_store (s : State) (n : Nat) (f : Encoder → Encoder) : (setEnc s n f).store = s.store := rfl
@[simp] theorem setEnc_sets (s : State) (n : Nat) (f : Encoder → Encoder) : (setEnc s n f).sets = s.sets := rfl
@[simp] theorem setEnc_job (s : State) (n : Nat) (f : Encoder → Encoder) : (setEnc s n f).job = s.job := rfl
@[simp] theorem setEnc_print (s : State) (n : Nat) (f : Encoder → Encoder) : (setEnc s n f).print = s.print := rfl
@[simp] theorem setEnc_pair (s : State) (n : Nat) (f : Encoder → Encoder) : (setEnc s n f).pair = s.pair := rfl
@[simp] theorem setEnc_link (s : State) (n : Nat) (f : Encoder → Encoder) : (setEnc s n f).link = s.link := rfl
@[simp] theorem setEnc_vision (s : State) (n : Nat) (f : Encoder → Encoder) : (setEnc s n f).vision = s.vision := rfl
@[simp] theorem setEnc_colour (s : State) (n : Nat) (f : Encoder → Encoder) : (setEnc s n f).colour = s.colour := rfl
@[simp] theorem setEnc_mot (s : State) (n : Nat) (f : Encoder → Encoder) : (setEnc s n f).mot = s.mot := rfl
@[simp] theorem setEnc_sec (s : State) (n : Nat) (f : Encoder → Encoder) : (setEnc s n f).sec = s.sec := rfl
@[simp] theorem setEnc_rst (s : State) (n : Nat) (f : Encoder → Encoder) : (setEnc s n f).rst = s.rst := rfl
@[simp] theorem setEnc_thm (s : State) (n : Nat) (f : Encoder → Encoder) : (setEnc s n f).thm = s.thm := rfl
@[simp] theorem setEnc_pwr (s : State) (n : Nat) (f : Encoder → Encoder) : (setEnc s n f).pwr = s.pwr := rfl

@[simp] theorem setChan_pending (s : State) (c : Nat) (f : Chan → Chan) : (setChan s c f).pending = s.pending := rfl
@[simp] theorem setChan_out (s : State) (c : Nat) (f : Chan → Chan) : (setChan s c f).out = s.out := rfl
@[simp] theorem setChan_freeCtr (s : State) (c : Nat) (f : Chan → Chan) : (setChan s c f).freeCtr = s.freeCtr := rfl
@[simp] theorem setChan_sys (s : State) (c : Nat) (f : Chan → Chan) : (setChan s c f).sys = s.sys := rfl
@[simp] theorem setChan_time (s : State) (c : Nat) (f : Chan → Chan) : (setChan s c f).time = s.time := rfl
@[simp] theorem setChan_pos (s : State) (c : Nat) (f : Chan → Chan) : (setChan s c f).pos = s.pos := rfl
@[simp] theorem setChan_host (s : State) (c : Nat) (f : Chan → Chan) : (setChan s c f).host = s.host := rfl
@[simp] theorem setChan_live (s : State) (c : Nat) (f : Chan → Chan) : (setChan s c f).live = s.live := rfl
@[simp] theorem setChan_pickEff (s : State) (c : Nat) (f : Chan → Chan) : (setChan s c f).pickEff = s.pickEff := rfl
@[simp] theorem setChan_startEff (s : State) (c : Nat) (f : Chan → Chan) : (setChan s c f).startEff = s.startEff := rfl
@[simp] theorem setChan_frameEff (s : State) (c : Nat) (f : Chan → Chan) : (setChan s c f).frameEff = s.frameEff := rfl
@[simp] theorem setChan_store (s : State) (c : Nat) (f : Chan → Chan) : (setChan s c f).store = s.store := rfl
@[simp] theorem setChan_sets (s : State) (c : Nat) (f : Chan → Chan) : (setChan s c f).sets = s.sets := rfl
@[simp] theorem setChan_job (s : State) (c : Nat) (f : Chan → Chan) : (setChan s c f).job = s.job := rfl
@[simp] theorem setChan_pair (s : State) (c : Nat) (f : Chan → Chan) : (setChan s c f).pair = s.pair := rfl
@[simp] theorem setChan_link (s : State) (c : Nat) (f : Chan → Chan) : (setChan s c f).link = s.link := rfl
@[simp] theorem setChan_vision (s : State) (c : Nat) (f : Chan → Chan) : (setChan s c f).vision = s.vision := rfl
@[simp] theorem setChan_colour (s : State) (c : Nat) (f : Chan → Chan) : (setChan s c f).colour = s.colour := rfl
@[simp] theorem setChan_mot (s : State) (c : Nat) (f : Chan → Chan) : (setChan s c f).mot = s.mot := rfl
@[simp] theorem setChan_sec (s : State) (c : Nat) (f : Chan → Chan) : (setChan s c f).sec = s.sec := rfl
@[simp] theorem setChan_rst (s : State) (c : Nat) (f : Chan → Chan) : (setChan s c f).rst = s.rst := rfl
@[simp] theorem setChan_thm (s : State) (c : Nat) (f : Chan → Chan) : (setChan s c f).thm = s.thm := rfl
@[simp] theorem setChan_pwr (s : State) (c : Nat) (f : Chan → Chan) : (setChan s c f).pwr = s.pwr := rfl

@[simp] theorem setAxis_pending (s : State) (n : Nat) (f : Axis → Axis) : (setAxis s n f).pending = s.pending := rfl
@[simp] theorem setAxis_out (s : State) (n : Nat) (f : Axis → Axis) : (setAxis s n f).out = s.out := rfl
@[simp] theorem setAxis_freeCtr (s : State) (n : Nat) (f : Axis → Axis) : (setAxis s n f).freeCtr = s.freeCtr := rfl
@[simp] theorem setAxis_sys (s : State) (n : Nat) (f : Axis → Axis) : (setAxis s n f).sys = s.sys := rfl
@[simp] theorem setAxis_time (s : State) (n : Nat) (f : Axis → Axis) : (setAxis s n f).time = s.time := rfl
@[simp] theorem setAxis_pos (s : State) (n : Nat) (f : Axis → Axis) : (setAxis s n f).pos = s.pos := rfl
@[simp] theorem setAxis_host (s : State) (n : Nat) (f : Axis → Axis) : (setAxis s n f).host = s.host := rfl
@[simp] theorem setAxis_live (s : State) (n : Nat) (f : Axis → Axis) : (setAxis s n f).live = s.live := rfl
@[simp] theorem setAxis_pickEff (s : State) (n : Nat) (f : Axis → Axis) : (setAxis s n f).pickEff = s.pickEff := rfl
@[simp] theorem setAxis_startEff (s : State) (n : Nat) (f : Axis → Axis) : (setAxis s n f).startEff = s.startEff := rfl
@[simp] theorem setAxis_frameEff (s : State) (n : Nat) (f : Axis → Axis) : (setAxis s n f).frameEff = s.frameEff := rfl
@[simp] theorem setAxis_store (s : State) (n : Nat) (f : Axis → Axis) : (setAxis s n f).store = s.store := rfl
@[simp] theorem setAxis_sets (s : State) (n : Nat) (f : Axis → Axis) : (setAxis s n f).sets = s.sets := rfl
@[simp] theorem setAxis_job (s : State) (n : Nat) (f : Axis → Axis) : (setAxis s n f).job = s.job := rfl
@[simp] theorem setAxis_print (s : State) (n : Nat) (f : Axis → Axis) : (setAxis s n f).print = s.print := rfl
@[simp] theorem setAxis_pair (s : State) (n : Nat) (f : Axis → Axis) : (setAxis s n f).pair = s.pair := rfl
@[simp] theorem setAxis_link (s : State) (n : Nat) (f : Axis → Axis) : (setAxis s n f).link = s.link := rfl
@[simp] theorem setAxis_vision (s : State) (n : Nat) (f : Axis → Axis) : (setAxis s n f).vision = s.vision := rfl
@[simp] theorem setAxis_colour (s : State) (n : Nat) (f : Axis → Axis) : (setAxis s n f).colour = s.colour := rfl
@[simp] theorem setAxis_sec (s : State) (n : Nat) (f : Axis → Axis) : (setAxis s n f).sec = s.sec := rfl
@[simp] theorem setAxis_rst (s : State) (n : Nat) (f : Axis → Axis) : (setAxis s n f).rst = s.rst := rfl
@[simp] theorem setAxis_thm (s : State) (n : Nat) (f : Axis → Axis) : (setAxis s n f).thm = s.thm := rfl
@[simp] theorem setAxis_pwr (s : State) (n : Nat) (f : Axis → Axis) : (setAxis s n f).pwr = s.pwr := rfl

@[simp] theorem setGroup_pending (s : State) (n : Nat) (f : GroupRun → GroupRun) : (setGroup s n f).pending = s.pending := rfl
@[simp] theorem setGroup_out (s : State) (n : Nat) (f : GroupRun → GroupRun) : (setGroup s n f).out = s.out := rfl
@[simp] theorem setGroup_freeCtr (s : State) (n : Nat) (f : GroupRun → GroupRun) : (setGroup s n f).freeCtr = s.freeCtr := rfl
@[simp] theorem setGroup_sys (s : State) (n : Nat) (f : GroupRun → GroupRun) : (setGroup s n f).sys = s.sys := rfl
@[simp] theorem setGroup_time (s : State) (n : Nat) (f : GroupRun → GroupRun) : (setGroup s n f).time = s.time := rfl
@[simp] theorem setGroup_pos (s : State) (n : Nat) (f : GroupRun → GroupRun) : (setGroup s n f).pos = s.pos := rfl
@[simp] theorem setGroup_host (s : State) (n : Nat) (f : GroupRun → GroupRun) : (setGroup s n f).host = s.host := rfl
@[simp] theorem setGroup_live (s : State) (n : Nat) (f : GroupRun → GroupRun) : (setGroup s n f).live = s.live := rfl
@[simp] theorem setGroup_pickEff (s : State) (n : Nat) (f : GroupRun → GroupRun) : (setGroup s n f).pickEff = s.pickEff := rfl
@[simp] theorem setGroup_startEff (s : State) (n : Nat) (f : GroupRun → GroupRun) : (setGroup s n f).startEff = s.startEff := rfl
@[simp] theorem setGroup_frameEff (s : State) (n : Nat) (f : GroupRun → GroupRun) : (setGroup s n f).frameEff = s.frameEff := rfl
@[simp] theorem setGroup_store (s : State) (n : Nat) (f : GroupRun → GroupRun) : (setGroup s n f).store = s.store := rfl
@[simp] theorem setGroup_sets (s : State) (n : Nat) (f : GroupRun → GroupRun) : (setGroup s n f).sets = s.sets := rfl
@[simp] theorem setGroup_job (s : State) (n : Nat) (f : GroupRun → GroupRun) : (setGroup s n f).job = s.job := rfl
@[simp] theorem setGroup_print (s : State) (n : Nat) (f : GroupRun → GroupRun) : (setGroup s n f).print = s.print := rfl
@[simp] theorem setGroup_pair (s : State) (n : Nat) (f : GroupRun → GroupRun) : (setGroup s n f).pair = s.pair := rfl
@[simp] theorem setGroup_link (s : State) (n : Nat) (f : GroupRun → GroupRun) : (setGroup s n f).link = s.link := rfl
@[simp] theorem setGroup_vision (s : State) (n : Nat) (f : GroupRun → GroupRun) : (setGroup s n f).vision = s.vision := rfl
@[simp] theorem setGroup_colour (s : State) (n : Nat) (f : GroupRun → GroupRun) : (setGroup s n f).colour = s.colour := rfl
@[simp] theorem setGroup_sec (s : State) (n : Nat) (f : GroupRun → GroupRun) : (setGroup s n f).sec = s.sec := rfl
@[simp] theorem setGroup_rst (s : State) (n : Nat) (f : GroupRun → GroupRun) : (setGroup s n f).rst = s.rst := rfl
@[simp] theorem setGroup_thm (s : State) (n : Nat) (f : GroupRun → GroupRun) : (setGroup s n f).thm = s.thm := rfl
@[simp] theorem setGroup_pwr (s : State) (n : Nat) (f : GroupRun → GroupRun) : (setGroup s n f).pwr = s.pwr := rfl

@[simp] theorem setLane_pending (s : State) (n : Nat) (f : LaneSt → LaneSt) : (setLane s n f).pending = s.pending := rfl
@[simp] theorem setLane_out (s : State) (n : Nat) (f : LaneSt → LaneSt) : (setLane s n f).out = s.out := rfl
@[simp] theorem setLane_freeCtr (s : State) (n : Nat) (f : LaneSt → LaneSt) : (setLane s n f).freeCtr = s.freeCtr := rfl
@[simp] theorem setLane_sys (s : State) (n : Nat) (f : LaneSt → LaneSt) : (setLane s n f).sys = s.sys := rfl
@[simp] theorem setLane_time (s : State) (n : Nat) (f : LaneSt → LaneSt) : (setLane s n f).time = s.time := rfl
@[simp] theorem setLane_pos (s : State) (n : Nat) (f : LaneSt → LaneSt) : (setLane s n f).pos = s.pos := rfl
@[simp] theorem setLane_host (s : State) (n : Nat) (f : LaneSt → LaneSt) : (setLane s n f).host = s.host := rfl
@[simp] theorem setLane_live (s : State) (n : Nat) (f : LaneSt → LaneSt) : (setLane s n f).live = s.live := rfl
@[simp] theorem setLane_pickEff (s : State) (n : Nat) (f : LaneSt → LaneSt) : (setLane s n f).pickEff = s.pickEff := rfl
@[simp] theorem setLane_startEff (s : State) (n : Nat) (f : LaneSt → LaneSt) : (setLane s n f).startEff = s.startEff := rfl
@[simp] theorem setLane_frameEff (s : State) (n : Nat) (f : LaneSt → LaneSt) : (setLane s n f).frameEff = s.frameEff := rfl
@[simp] theorem setLane_store (s : State) (n : Nat) (f : LaneSt → LaneSt) : (setLane s n f).store = s.store := rfl
@[simp] theorem setLane_sets (s : State) (n : Nat) (f : LaneSt → LaneSt) : (setLane s n f).sets = s.sets := rfl
@[simp] theorem setLane_job (s : State) (n : Nat) (f : LaneSt → LaneSt) : (setLane s n f).job = s.job := rfl
@[simp] theorem setLane_print (s : State) (n : Nat) (f : LaneSt → LaneSt) : (setLane s n f).print = s.print := rfl
@[simp] theorem setLane_pair (s : State) (n : Nat) (f : LaneSt → LaneSt) : (setLane s n f).pair = s.pair := rfl
@[simp] theorem setLane_vision (s : State) (n : Nat) (f : LaneSt → LaneSt) : (setLane s n f).vision = s.vision := rfl
@[simp] theorem setLane_colour (s : State) (n : Nat) (f : LaneSt → LaneSt) : (setLane s n f).colour = s.colour := rfl
@[simp] theorem setLane_mot (s : State) (n : Nat) (f : LaneSt → LaneSt) : (setLane s n f).mot = s.mot := rfl
@[simp] theorem setLane_sec (s : State) (n : Nat) (f : LaneSt → LaneSt) : (setLane s n f).sec = s.sec := rfl
@[simp] theorem setLane_rst (s : State) (n : Nat) (f : LaneSt → LaneSt) : (setLane s n f).rst = s.rst := rfl
@[simp] theorem setLane_thm (s : State) (n : Nat) (f : LaneSt → LaneSt) : (setLane s n f).thm = s.thm := rfl
@[simp] theorem setLane_pwr (s : State) (n : Nat) (f : LaneSt → LaneSt) : (setLane s n f).pwr = s.pwr := rfl

@[simp] theorem setHub_pending (s : State) (n : Nat) (f : HubSt → HubSt) : (setHub s n f).pending = s.pending := rfl
@[simp] theorem setHub_out (s : State) (n : Nat) (f : HubSt → HubSt) : (setHub s n f).out = s.out := rfl
@[simp] theorem setHub_freeCtr (s : State) (n : Nat) (f : HubSt → HubSt) : (setHub s n f).freeCtr = s.freeCtr := rfl
@[simp] theorem setHub_sys (s : State) (n : Nat) (f : HubSt → HubSt) : (setHub s n f).sys = s.sys := rfl
@[simp] theorem setHub_time (s : State) (n : Nat) (f : HubSt → HubSt) : (setHub s n f).time = s.time := rfl
@[simp] theorem setHub_pos (s : State) (n : Nat) (f : HubSt → HubSt) : (setHub s n f).pos = s.pos := rfl
@[simp] theorem setHub_host (s : State) (n : Nat) (f : HubSt → HubSt) : (setHub s n f).host = s.host := rfl
@[simp] theorem setHub_live (s : State) (n : Nat) (f : HubSt → HubSt) : (setHub s n f).live = s.live := rfl
@[simp] theorem setHub_pickEff (s : State) (n : Nat) (f : HubSt → HubSt) : (setHub s n f).pickEff = s.pickEff := rfl
@[simp] theorem setHub_startEff (s : State) (n : Nat) (f : HubSt → HubSt) : (setHub s n f).startEff = s.startEff := rfl
@[simp] theorem setHub_frameEff (s : State) (n : Nat) (f : HubSt → HubSt) : (setHub s n f).frameEff = s.frameEff := rfl
@[simp] theorem setHub_store (s : State) (n : Nat) (f : HubSt → HubSt) : (setHub s n f).store = s.store := rfl
@[simp] theorem setHub_sets (s : State) (n : Nat) (f : HubSt → HubSt) : (setHub s n f).sets = s.sets := rfl
@[simp] theorem setHub_job (s : State) (n : Nat) (f : HubSt → HubSt) : (setHub s n f).job = s.job := rfl
@[simp] theorem setHub_print (s : State) (n : Nat) (f : HubSt → HubSt) : (setHub s n f).print = s.print := rfl
@[simp] theorem setHub_pair (s : State) (n : Nat) (f : HubSt → HubSt) : (setHub s n f).pair = s.pair := rfl
@[simp] theorem setHub_vision (s : State) (n : Nat) (f : HubSt → HubSt) : (setHub s n f).vision = s.vision := rfl
@[simp] theorem setHub_colour (s : State) (n : Nat) (f : HubSt → HubSt) : (setHub s n f).colour = s.colour := rfl
@[simp] theorem setHub_mot (s : State) (n : Nat) (f : HubSt → HubSt) : (setHub s n f).mot = s.mot := rfl
@[simp] theorem setHub_sec (s : State) (n : Nat) (f : HubSt → HubSt) : (setHub s n f).sec = s.sec := rfl
@[simp] theorem setHub_rst (s : State) (n : Nat) (f : HubSt → HubSt) : (setHub s n f).rst = s.rst := rfl
@[simp] theorem setHub_thm (s : State) (n : Nat) (f : HubSt → HubSt) : (setHub s n f).thm = s.thm := rfl
@[simp] theorem setHub_pwr (s : State) (n : Nat) (f : HubSt → HubSt) : (setHub s n f).pwr = s.pwr := rfl

@[simp] theorem setCam_pending (s : State) (k : Nat) (f : CamPort → CamPort) : (setCam s k f).pending = s.pending := rfl
@[simp] theorem setCam_out (s : State) (k : Nat) (f : CamPort → CamPort) : (setCam s k f).out = s.out := rfl
@[simp] theorem setCam_freeCtr (s : State) (k : Nat) (f : CamPort → CamPort) : (setCam s k f).freeCtr = s.freeCtr := rfl
@[simp] theorem setCam_sys (s : State) (k : Nat) (f : CamPort → CamPort) : (setCam s k f).sys = s.sys := rfl
@[simp] theorem setCam_time (s : State) (k : Nat) (f : CamPort → CamPort) : (setCam s k f).time = s.time := rfl
@[simp] theorem setCam_pos (s : State) (k : Nat) (f : CamPort → CamPort) : (setCam s k f).pos = s.pos := rfl
@[simp] theorem setCam_host (s : State) (k : Nat) (f : CamPort → CamPort) : (setCam s k f).host = s.host := rfl
@[simp] theorem setCam_live (s : State) (k : Nat) (f : CamPort → CamPort) : (setCam s k f).live = s.live := rfl
@[simp] theorem setCam_pickEff (s : State) (k : Nat) (f : CamPort → CamPort) : (setCam s k f).pickEff = s.pickEff := rfl
@[simp] theorem setCam_startEff (s : State) (k : Nat) (f : CamPort → CamPort) : (setCam s k f).startEff = s.startEff := rfl
@[simp] theorem setCam_frameEff (s : State) (k : Nat) (f : CamPort → CamPort) : (setCam s k f).frameEff = s.frameEff := rfl
@[simp] theorem setCam_store (s : State) (k : Nat) (f : CamPort → CamPort) : (setCam s k f).store = s.store := rfl
@[simp] theorem setCam_sets (s : State) (k : Nat) (f : CamPort → CamPort) : (setCam s k f).sets = s.sets := rfl
@[simp] theorem setCam_job (s : State) (k : Nat) (f : CamPort → CamPort) : (setCam s k f).job = s.job := rfl
@[simp] theorem setCam_print (s : State) (k : Nat) (f : CamPort → CamPort) : (setCam s k f).print = s.print := rfl
@[simp] theorem setCam_pair (s : State) (k : Nat) (f : CamPort → CamPort) : (setCam s k f).pair = s.pair := rfl
@[simp] theorem setCam_link (s : State) (k : Nat) (f : CamPort → CamPort) : (setCam s k f).link = s.link := rfl
@[simp] theorem setCam_colour (s : State) (k : Nat) (f : CamPort → CamPort) : (setCam s k f).colour = s.colour := rfl
@[simp] theorem setCam_mot (s : State) (k : Nat) (f : CamPort → CamPort) : (setCam s k f).mot = s.mot := rfl
@[simp] theorem setCam_sec (s : State) (k : Nat) (f : CamPort → CamPort) : (setCam s k f).sec = s.sec := rfl
@[simp] theorem setCam_rst (s : State) (k : Nat) (f : CamPort → CamPort) : (setCam s k f).rst = s.rst := rfl
@[simp] theorem setCam_thm (s : State) (k : Nat) (f : CamPort → CamPort) : (setCam s k f).thm = s.thm := rfl
@[simp] theorem setCam_pwr (s : State) (k : Nat) (f : CamPort → CamPort) : (setCam s k f).pwr = s.pwr := rfl

@[simp] theorem setSensor_pending (s : State) (k : Nat) (f : Sensor → Sensor) : (setSensor s k f).pending = s.pending := rfl
@[simp] theorem setSensor_out (s : State) (k : Nat) (f : Sensor → Sensor) : (setSensor s k f).out = s.out := rfl
@[simp] theorem setSensor_freeCtr (s : State) (k : Nat) (f : Sensor → Sensor) : (setSensor s k f).freeCtr = s.freeCtr := rfl
@[simp] theorem setSensor_sys (s : State) (k : Nat) (f : Sensor → Sensor) : (setSensor s k f).sys = s.sys := rfl
@[simp] theorem setSensor_time (s : State) (k : Nat) (f : Sensor → Sensor) : (setSensor s k f).time = s.time := rfl
@[simp] theorem setSensor_pos (s : State) (k : Nat) (f : Sensor → Sensor) : (setSensor s k f).pos = s.pos := rfl
@[simp] theorem setSensor_host (s : State) (k : Nat) (f : Sensor → Sensor) : (setSensor s k f).host = s.host := rfl
@[simp] theorem setSensor_live (s : State) (k : Nat) (f : Sensor → Sensor) : (setSensor s k f).live = s.live := rfl
@[simp] theorem setSensor_pickEff (s : State) (k : Nat) (f : Sensor → Sensor) : (setSensor s k f).pickEff = s.pickEff := rfl
@[simp] theorem setSensor_startEff (s : State) (k : Nat) (f : Sensor → Sensor) : (setSensor s k f).startEff = s.startEff := rfl
@[simp] theorem setSensor_frameEff (s : State) (k : Nat) (f : Sensor → Sensor) : (setSensor s k f).frameEff = s.frameEff := rfl
@[simp] theorem setSensor_store (s : State) (k : Nat) (f : Sensor → Sensor) : (setSensor s k f).store = s.store := rfl
@[simp] theorem setSensor_sets (s : State) (k : Nat) (f : Sensor → Sensor) : (setSensor s k f).sets = s.sets := rfl
@[simp] theorem setSensor_job (s : State) (k : Nat) (f : Sensor → Sensor) : (setSensor s k f).job = s.job := rfl
@[simp] theorem setSensor_print (s : State) (k : Nat) (f : Sensor → Sensor) : (setSensor s k f).print = s.print := rfl
@[simp] theorem setSensor_pair (s : State) (k : Nat) (f : Sensor → Sensor) : (setSensor s k f).pair = s.pair := rfl
@[simp] theorem setSensor_link (s : State) (k : Nat) (f : Sensor → Sensor) : (setSensor s k f).link = s.link := rfl
@[simp] theorem setSensor_vision (s : State) (k : Nat) (f : Sensor → Sensor) : (setSensor s k f).vision = s.vision := rfl
@[simp] theorem setSensor_colour (s : State) (k : Nat) (f : Sensor → Sensor) : (setSensor s k f).colour = s.colour := rfl
@[simp] theorem setSensor_mot (s : State) (k : Nat) (f : Sensor → Sensor) : (setSensor s k f).mot = s.mot := rfl
@[simp] theorem setSensor_sec (s : State) (k : Nat) (f : Sensor → Sensor) : (setSensor s k f).sec = s.sec := rfl
@[simp] theorem setSensor_rst (s : State) (k : Nat) (f : Sensor → Sensor) : (setSensor s k f).rst = s.rst := rfl
@[simp] theorem setSensor_pwr (s : State) (k : Nat) (f : Sensor → Sensor) : (setSensor s k f).pwr = s.pwr := rfl

@[simp] theorem setDram_pending (s : State) (n : Nat) (f : DramChan → DramChan) : (setDram s n f).pending = s.pending := rfl
@[simp] theorem setDram_out (s : State) (n : Nat) (f : DramChan → DramChan) : (setDram s n f).out = s.out := rfl
@[simp] theorem setDram_freeCtr (s : State) (n : Nat) (f : DramChan → DramChan) : (setDram s n f).freeCtr = s.freeCtr := rfl
@[simp] theorem setDram_sys (s : State) (n : Nat) (f : DramChan → DramChan) : (setDram s n f).sys = s.sys := rfl
@[simp] theorem setDram_time (s : State) (n : Nat) (f : DramChan → DramChan) : (setDram s n f).time = s.time := rfl
@[simp] theorem setDram_pos (s : State) (n : Nat) (f : DramChan → DramChan) : (setDram s n f).pos = s.pos := rfl
@[simp] theorem setDram_host (s : State) (n : Nat) (f : DramChan → DramChan) : (setDram s n f).host = s.host := rfl
@[simp] theorem setDram_live (s : State) (n : Nat) (f : DramChan → DramChan) : (setDram s n f).live = s.live := rfl
@[simp] theorem setDram_pickEff (s : State) (n : Nat) (f : DramChan → DramChan) : (setDram s n f).pickEff = s.pickEff := rfl
@[simp] theorem setDram_startEff (s : State) (n : Nat) (f : DramChan → DramChan) : (setDram s n f).startEff = s.startEff := rfl
@[simp] theorem setDram_frameEff (s : State) (n : Nat) (f : DramChan → DramChan) : (setDram s n f).frameEff = s.frameEff := rfl
@[simp] theorem setDram_sets (s : State) (n : Nat) (f : DramChan → DramChan) : (setDram s n f).sets = s.sets := rfl
@[simp] theorem setDram_job (s : State) (n : Nat) (f : DramChan → DramChan) : (setDram s n f).job = s.job := rfl
@[simp] theorem setDram_print (s : State) (n : Nat) (f : DramChan → DramChan) : (setDram s n f).print = s.print := rfl
@[simp] theorem setDram_pair (s : State) (n : Nat) (f : DramChan → DramChan) : (setDram s n f).pair = s.pair := rfl
@[simp] theorem setDram_link (s : State) (n : Nat) (f : DramChan → DramChan) : (setDram s n f).link = s.link := rfl
@[simp] theorem setDram_vision (s : State) (n : Nat) (f : DramChan → DramChan) : (setDram s n f).vision = s.vision := rfl
@[simp] theorem setDram_colour (s : State) (n : Nat) (f : DramChan → DramChan) : (setDram s n f).colour = s.colour := rfl
@[simp] theorem setDram_mot (s : State) (n : Nat) (f : DramChan → DramChan) : (setDram s n f).mot = s.mot := rfl
@[simp] theorem setDram_sec (s : State) (n : Nat) (f : DramChan → DramChan) : (setDram s n f).sec = s.sec := rfl
@[simp] theorem setDram_rst (s : State) (n : Nat) (f : DramChan → DramChan) : (setDram s n f).rst = s.rst := rfl
@[simp] theorem setDram_thm (s : State) (n : Nat) (f : DramChan → DramChan) : (setDram s n f).thm = s.thm := rfl
@[simp] theorem setDram_pwr (s : State) (n : Nat) (f : DramChan → DramChan) : (setDram s n f).pwr = s.pwr := rfl

@[simp] theorem noteSet_pending (s : State) (key mask : Nat) : (noteSet s key mask).pending = s.pending := rfl
@[simp] theorem noteSet_out (s : State) (key mask : Nat) : (noteSet s key mask).out = s.out := rfl
@[simp] theorem noteSet_freeCtr (s : State) (key mask : Nat) : (noteSet s key mask).freeCtr = s.freeCtr := rfl
@[simp] theorem noteSet_sys (s : State) (key mask : Nat) : (noteSet s key mask).sys = s.sys := rfl
@[simp] theorem noteSet_time (s : State) (key mask : Nat) : (noteSet s key mask).time = s.time := rfl
@[simp] theorem noteSet_pos (s : State) (key mask : Nat) : (noteSet s key mask).pos = s.pos := rfl
@[simp] theorem noteSet_live (s : State) (key mask : Nat) : (noteSet s key mask).live = s.live := rfl
@[simp] theorem noteSet_pickEff (s : State) (key mask : Nat) : (noteSet s key mask).pickEff = s.pickEff := rfl
@[simp] theorem noteSet_startEff (s : State) (key mask : Nat) : (noteSet s key mask).startEff = s.startEff := rfl
@[simp] theorem noteSet_frameEff (s : State) (key mask : Nat) : (noteSet s key mask).frameEff = s.frameEff := rfl
@[simp] theorem noteSet_store (s : State) (key mask : Nat) : (noteSet s key mask).store = s.store := rfl
@[simp] theorem noteSet_sets (s : State) (key mask : Nat) : (noteSet s key mask).sets = s.sets := rfl
@[simp] theorem noteSet_job (s : State) (key mask : Nat) : (noteSet s key mask).job = s.job := rfl
@[simp] theorem noteSet_print (s : State) (key mask : Nat) : (noteSet s key mask).print = s.print := rfl
@[simp] theorem noteSet_pair (s : State) (key mask : Nat) : (noteSet s key mask).pair = s.pair := rfl
@[simp] theorem noteSet_link (s : State) (key mask : Nat) : (noteSet s key mask).link = s.link := rfl
@[simp] theorem noteSet_vision (s : State) (key mask : Nat) : (noteSet s key mask).vision = s.vision := rfl
@[simp] theorem noteSet_colour (s : State) (key mask : Nat) : (noteSet s key mask).colour = s.colour := rfl
@[simp] theorem noteSet_mot (s : State) (key mask : Nat) : (noteSet s key mask).mot = s.mot := rfl
@[simp] theorem noteSet_sec (s : State) (key mask : Nat) : (noteSet s key mask).sec = s.sec := rfl
@[simp] theorem noteSet_rst (s : State) (key mask : Nat) : (noteSet s key mask).rst = s.rst := rfl
@[simp] theorem noteSet_thm (s : State) (key mask : Nat) : (noteSet s key mask).thm = s.thm := rfl
@[simp] theorem noteSet_pwr (s : State) (key mask : Nat) : (noteSet s key mask).pwr = s.pwr := rfl

end Sys2Proof.Laws
end

