-- ==== Sys2Proof/WellFormed.lean ====
section
/-!
DEFINITION. Which operands the interfaces can carry: a command is well formed when each of its operands fits the field, packet
or input that brings it (R376, R377, R384, R407 to R443, R492). What a message does with a value that fits its field and lies
outside its valid range is the message's own meaning; the queue of a run holds well-formed commands.
-/
namespace Sys2Proof

open Sys2Proof.Machine

/-- A number fits an unsigned field of `w` bits. -/
def fits (w x : Nat) : Bool := decide (x < 2 ^ w)

/-- An integer fits a two's complement field of `w` bits. -/
def fitsS (w : Nat) (x : Int) : Bool := decide (-(2 ^ (w - 1) : Nat) ≤ x) && decide (x < (2 ^ (w - 1) : Nat))

/-- The bytes of a strip, its 16-byte header among them (R135, R136). -/
def stripLen (b : List Byte) : Bool := decide (b.length ≤ 2 ^ 20)

/-- The sixteen sensors and four refresh-rate reports of a pick (R17, R545, R118). -/
def pickInputsOk (x : PickInputs) : Bool :=
  decide (x.temps.length = 16) && decide (x.hot.length = 4) && x.temps.all (fun y => fits 12 y.raw) && fits 16 x.gpio

/-- A servo's adjustment (R79 to R81). -/
def servoOk : ServoAct → Bool
  | .none => true
  | .incr n => fits 64 n
  | .slew d => fitsS 64 d
  | .step d => fitsS 64 d

/-- A PTP identifier: messageType, domainNumber, sequenceId (R89). -/
def identOk (x : PtpIdent) : Bool := fits 4 x.kind && fits 8 x.domain && fits 16 x.seq

/-- A PTP exchange on one of the two ports. -/
def exchangeOk : Option PtpExchange → Bool
  | some x => decide (x.port < 2) && identOk x.ident
  | none => true

/-- A word of the store (R104). -/
def eccOk (e : EccAt) : Bool := decide (e.row.chan < 4) && decide (e.row.bank < 16) && decide (e.row.row < 131072) && decide (e.word < 64)

/-- A HUB_ACK's fields (R264). -/
def ackOk (a : HubAck) : Bool :=
  fits 32 a.epoch && fits 64 a.ackTime && fits 16 a.status &&
    a.recs.all fun r => fits 8 r.port && fits 16 r.status && fits 32 r.lastA && fits 32 r.lastB

/-- A pick record's lease part (R337). -/
def recordOk (r : PickRecord) : Bool := fits 64 r.pick && fits 32 r.epoch && fits 64 r.leaseUntil

/-- A datagram's header (R376). -/
def dgramOk (d : Dgram) : Bool := fits 128 d.src && fits 16 d.udp && fits 32 d.session && fits 32 d.seq

/-- A data reference (R428). -/
def refOk (d : DataRef) : Bool := fits 64 d.addr && fits 64 d.length && fits 32 d.transfer && decide (d.fail ≤ 2)

/-- A codec job descriptor (R157). -/
def codecOk (j : CodecJob) : Bool :=
  fits 8 j.op && fits 16 j.lps && fits 32 j.width && fits 32 j.count && fits 64 j.src && fits 64 j.srcLen && fits 64 j.dst &&
    fits 32 j.dstLen && fits 64 j.hdr && fits 64 j.resumeAt && decide (j.fail ≤ 2)

/-- The payload of JOB.START (R434). -/
def jobOk (p : JobParams) : Bool :=
  fits 8 p.originMode && fits 8 p.mode && fitsS 32 p.originX && fits 32 p.drop && fits 32 p.shift && fits 64 p.repeats &&
    fits 16 p.channels && fits 32 p.startGap && fits 48 p.firstLine && fits 64 p.lineCount &&
    fits 32 p.passLines && fits 32 p.passStride && fits 32 p.passCount && fits 32 p.ingestRate &&
    decide (p.images.length ≤ 16) && p.images.all (fits 32)

/-- A head type record (R185). -/
def typeOk (r : HeadType) : Bool :=
  fits 8 r.rows && fits 8 r.phases && fits 16 r.nozzles && fitsS 16 r.shiftB && fitsS 32 r.offsetB && fits 32 r.maxRate &&
    fits 8 r.phaseMode && fits 16 r.volSmall && fits 16 r.volMedium && fits 16 r.volLarge

/-- A placement record (R186). -/
def placeOk (r : PlaceMsg) : Bool :=
  fits 16 r.head && fits 8 r.hub && fits 8 r.port && fits 8 r.type && fits 8 r.chanA && fits 8 r.chanB &&
    fits 8 r.flags && fitsS 32 r.x && fits 16 r.first && fits 16 r.last && fitsS 32 r.y && fits 8 r.mask

/-- The limits of a move (R453). -/
def limitsOk (l : Limits) : Bool := fits 32 l.v && fits 32 l.a && fits 32 l.d && fits 32 l.j

/-- What a start finds (R530): four strap readings. -/
def startOk (i : StartInfo) : Bool := decide (i.strap.length = 4) && decide (i.rate ≤ 7) && decide (i.width ≤ 7)

/-- A command is well formed. -/
def wellFormed : Instr → Bool
  | .pickBoundary t x => fits 64 t && pickInputsOk x
  | .timNowLoRead t => fits 64 t
  | .triggerAct t samples => fits 64 t && (samples.all fun x => fits 4 x.trig)
  | .slewDone t => fits 64 t
  | .servoMeasurement t err act exch => fits 64 t && fitsS 64 err && servoOk act && exchangeOk exch
  | .holdoverExpire t => fits 64 t
  | .ptpEventReceive t _ kind => fits 64 t && fits 4 kind
  | .ptpTxTimestamp t _ ident reads => fits 64 t && identOk ident && decide (reads ≤ 16)
  | .txqEntryStale t _ => fits 64 t
  | .ppsInEdge t act => fits 64 t && servoOk act
  | .ppsMissing t => fits 64 t
  | .ppsOutPulse t => fits 64 t
  | .encoderTransition t _ _ _ _ _ => fits 64 t
  | .syntheticUpdate t => fits 64 t
  | .indexEdge t _ _ => fits 64 t
  | .indexPulseEnd t _ _ => fits 64 t
  | .encoderPairOpen t _ _ => fits 64 t
  | .encoderPairClosed t _ _ _ _ => fits 64 t
  | .lineSend t _ => fits 64 t
  | .lineMissedNotReady t _ => fits 64 t
  | .lineRender t _ => fits 64 t
  | .stripDecodeDone t _ read ecc => fits 64 t && (match read with | some b => stripLen b | none => true) && ecc.all eccOk
  | .stripRestored t handle index bytes => fits 64 t && fits 32 handle && fits 32 index && stripLen bytes
  | .scrubRead t found => fits 64 t && found.all fun e => decide (e.1 < 64)
  | .refreshDue t _ => fits 64 t
  | .retrainStart t _ => fits 64 t
  | .retrainDone t _ temp _ => fits 64 t && fitsS 8 temp
  | .stripMoveCopyDone t _ _ ecc => fits 64 t && ecc.all eccOk
  | .stripMoveCommit t _ => fits 64 t
  | .oldCopyFree t _ => fits 64 t
  | .rawStripEncoded t _ tag _ => fits 64 t && fits 16 tag
  | .ingestStripDecoded t _ tag _ => fits 64 t && fits 16 tag
  | .replStripReceived t handle index bytes => fits 64 t && fits 32 handle && fits 32 index && stripLen bytes
  | .replRetryTimer t => fits 64 t
  | .hubAckReceive t _ ack => fits 64 t && ackOk ack
  | .linesUnacked t _ => fits 64 t
  | .ackLost t _ => fits 64 t
  | .histHoldExpire t _ => fits 64 t
  | .consCommitStart t elem => fits 64 t && decide (elem < 528)
  | .consReplyReceive t elem _ _ _ => fits 64 t && decide (elem < 528)
  | .consTimeout t elem => fits 64 t && decide (elem < 528)
  | .laneLockAcquired t _ _ => fits 64 t
  | .laneDown t _ => fits 64 t
  | .restripeNarrow t _ cut => fits 64 t && (cut.all fun l => fitsS 48 l)
  | .laneStateReceive t _ w => fits 64 t && fits 58 w.before && fits 2 w.header && fits 64 w.payload
  | .laneMarkerReceive t _ w => fits 64 t && fits 58 w.before && fits 2 w.header && fits 64 w.payload
  | .bringupTimeout t _ => fits 64 t
  | .hubUp t _ info => fits 64 t && fits 8 info.caps && fits 8 info.rates && fits 8 info.widths
  | .laneRejoined t _ => fits 64 t
  | .headCmdResponse t _ _ cmd ctag status args => fits 64 t && fits 8 cmd && fits 8 ctag && fits 8 status && decide (args.length ≤ 255)
  | .cmdTimeout t _ ctag => fits 64 t && fits 8 ctag
  | .timeSyncSend t => fits 64 t
  | .timeSyncResponse t _ _ seq t2 t3 => fits 64 t && fits 16 seq && fits 64 t2 && fits 64 t3
  | .eyeStart t => fits 64 t
  | .eyeDone t counts => fits 64 t && counts.length = 8128 && counts.all (fits 64)
  | .frameStartReceive t _ => fits 64 t
  | .rowPacketReceive t _ _ _ samples => fits 64 t && samples.all (fits 10)
  | .frameEndReceive t _ => fits 64 t
  | .frameTruncated t _ => fits 64 t
  | .frameTimeout t _ => fits 64 t
  | .trigFault t _ => fits 64 t
  | .frameProcessed t => fits 64 t
  | .solveDone t => fits 64 t
  | .cciTransferDone t _ _ => fits 64 t
  | .ladderDone t scans => fits 64 t && decide (scans.length ≤ 2)
  | .pickRecordReceive t _ r => fits 64 t && !r.flush && recordOk r
  | .flushRecordReceive t _ r => fits 64 t && r.flush && recordOk r
  | .recordAckReceive t pick _ _ _ => fits 64 t && fits 64 pick
  | .lineCrcReceive t _ _ line crc _ _ => fits 64 t && fitsS 48 line && fits 32 crc
  | .peerLinkLost t => fits 64 t
  | .heartbeatInEdge t => fits 64 t
  | .heartbeatStatic t => fits 64 t
  | .partnerLost t => fits 64 t
  | .takeover t => fits 64 t
  | .leaseExpire t => fits 64 t
  | .cutTimerExpire t => fits 64 t
  | .joinWaitExpire t => fits 64 t
  | .resyncStageDone t _ => fits 64 t
  | .peerLinkSetup t _ _ => fits 64 t
  | .mailboxWrite t _ offset bytes => fits 64 t && decide (offset + bytes.length ≤ 256)
  | .doorbellPost t value => fits 64 t && fits 32 value
  | .replyRelease t _ => fits 64 t
  | .channelResetHost t _ => fits 64 t
  | .pcieReset t => fits 64 t
  | .lockRead t _ _ => fits 64 t
  | .lockRelease t _ _ => fits 64 t
  | .evtTailWrite t value => fits 64 t && fits 32 value
  | .registerWrite t _ offset value => fits 64 t && fits 16 offset && fits 32 value
  | .hello t src udp _ => fits 64 t && fits 128 src && fits 16 udp
  | .sessionTimeout t => fits 64 t
  | .msgDatagram t d _ _ bytes => fits 64 t && dgramOk d && decide (bytes.length ≤ 272)
  | .regReadDatagram t d offset count => fits 64 t && dgramOk d && fits 32 offset && fits 32 count
  | .regWriteDatagram t d offset values => fits 64 t && dgramOk d && fits 32 offset && values.length ≤ 64 && values.all (fits 32)
  | .dataDatagram t d transfer offset bytes => fits 64 t && dgramOk d && fits 32 transfer && fits 64 offset && 1 ≤ bytes.length && bytes.length ≤ 8192
  | .dataAckTimer t => fits 64 t
  | .notifyRepeat t => fits 64 t
  | .read t _ tag cls regId count setSel elem => fits 64 t && fits 16 tag && fits 8 cls && fits 32 regId && fits 16 count && fits 8 setSel && fits 32 elem
  | .write t _ tag cls regId elem pairs => fits 64 t && fits 16 tag && fits 8 cls && fits 32 regId && fits 32 elem && (pairs.length ≤ 27 && pairs.all fun p => fits 32 p.1 && fits 32 p.2)
  | .sysInfo t _ tag => fits 64 t && fits 16 tag
  | .sysState t _ tag => fits 64 t && fits 16 tag
  | .safeStop t _ tag => fits 64 t && fits 16 tag
  | .clearStop t _ tag => fits 64 t && fits 16 tag
  | .netConfig t _ tag port mode address netmask gateway => fits 64 t && fits 16 tag && fits 8 port && fits 8 mode && fits 32 address && fits 32 netmask && fits 32 gateway
  | .setTable t _ tag table index offset length _ data => fits 64 t && fits 16 tag && fits 8 table && fits 16 index && fits 32 offset && fits 32 length && refOk data
  | .setCopy t _ tag => fits 64 t && fits 16 tag
  | .setDefaults t _ tag => fits 64 t && fits 16 tag
  | .setValidate t _ tag => fits 64 t && fits 16 tag
  | .setSwap t _ tag point line => fits 64 t && fits 16 tag && fits 8 point && fits 64 line
  | .setCancel t _ tag => fits 64 t && fits 16 tag
  | .setStatus t _ tag => fits 64 t && fits 16 tag
  | .imgCreate t _ tag name format lps width height => fits 64 t && fits 16 tag && decide (name.length = 32) && fits 8 format && fits 16 lps && fits 32 width && fits 32 height
  | .imgIngest t _ tag handle form first count data => fits 64 t && fits 16 tag && fits 32 handle && fits 8 form && fits 32 first && fits 32 count && refOk data
  | .imgDelete t _ tag handle => fits 64 t && fits 16 tag && fits 32 handle
  | .imgInfo t _ tag handle => fits 64 t && fits 16 tag && fits 32 handle
  | .imgList t _ tag first => fits 64 t && fits 16 tag && fits 32 first
  | .imgEncode t _ tag job => fits 64 t && fits 16 tag && codecOk job
  | .imgDecode t _ tag job => fits 64 t && fits 16 tag && codecOk job
  | .jobStart t _ tag p => fits 64 t && fits 16 tag && jobOk p
  | .jobPause t _ tag kind line => fits 64 t && fits 16 tag && fits 8 kind && fits 64 line
  | .jobResume t _ tag gap => fits 64 t && fits 16 tag && fits 32 gap
  | .jobStop t _ tag kind line => fits 64 t && fits 16 tag && fits 8 kind && fits 64 line
  | .jobStatus t _ tag => fits 64 t && fits 16 tag
  | .headType t _ tag id rec => fits 64 t && fits 16 tag && fits 8 id && typeOk rec
  | .headPlace t _ tag rec => fits 64 t && fits 16 tag && placeOk rec
  | .headEnergyTable t _ tag type entries => fits 64 t && fits 16 tag && fits 8 type && entries.all (fits 16)
  | .headSupply t _ tag channel en hub slot => fits 64 t && fits 16 tag && fits 8 channel && fits 8 en && fits 8 hub && fits 8 slot
  | .headNozzleState t _ tag head row action first count => fits 64 t && fits 16 tag && fits 16 head && fits 8 row && fits 8 action && fits 16 first && fits 16 count
  | .headHubCmd t _ tag hub cmd args => fits 64 t && fits 16 tag && fits 8 hub && fits 8 cmd && decide (args.length ≤ 238)
  | .clpFreeze t _ tag mask value => fits 64 t && fits 16 tag && fits 16 mask && fits 16 value
  | .clpWhiteReset t _ tag ports => fits 64 t && fits 16 tag && fits 8 ports
  | .clpLadderNow t _ tag line => fits 64 t && fits 16 tag && fits 64 line
  | .clpCoefSet t _ tag channel first count _ data => fits 64 t && fits 16 tag && fits 8 channel && fits 32 first && fits 32 count && refOk data
  | .clpReadCoef t _ tag kind index first count => fits 64 t && fits 16 tag && fits 8 kind && fits 8 index && fits 32 first && fits 32 count
  | .camConfig t _ tag port values => fits 64 t && fits 16 tag && fits 8 port && values.length = 8 && values.all (fits 32)
  | .camProfile t _ tag port profile => fits 64 t && fits 16 tag && fits 8 port && decide (profile.length = 16)
  | .camStats t _ tag port band kind first count => fits 64 t && fits 16 tag && fits 8 port && fits 8 band && fits 8 kind && fits 16 first && fits 16 count
  | .camReadFrame t _ tag port slot data => fits 64 t && fits 16 tag && fits 8 port && fits 8 slot && refOk data
  | .timSetIncr t _ tag incr => fits 64 t && fits 16 tag && fits 64 incr
  | .timSlew t _ tag d => fits 64 t && fits 16 tag && fitsS 64 d
  | .timStep t _ tag d => fits 64 t && fits 16 tag && fitsS 64 d
  | .timPpsSecond t _ tag second => fits 64 t && fits 16 tag && fits 64 second
  | .timTrigSet t _ tag trig ctrl time period count => fits 64 t && fits 16 tag && fits 8 trig && fits 32 ctrl && fits 64 time && fits 32 period && fits 32 count
  | .timTrigCancel t _ tag trig => fits 64 t && fits 16 tag && fits 8 trig
  | .motConfig t _ tag axis lim stall => fits 64 t && fits 16 tag && fits 8 axis && limitsOk lim && fits 32 stall
  | .motMove t _ tag axis kind target vmax amax dmax jmax => fits 64 t && fits 16 tag && fits 8 axis && fits 8 kind && fitsS 64 target && limitsOk ⟨vmax, amax, dmax, jmax⟩
  | .motGroupMove t _ tag group targets => fits 64 t && fits 16 tag && fits 8 group && targets.length ≤ 8 && targets.all (fitsS 64)
  | .motHome t _ tag axis type => fits 64 t && fits 16 tag && fits 8 axis && fits 8 type
  | .motStop t _ tag axes kind => fits 64 t && fits 16 tag && fits 8 axes && fits 8 kind
  | .motStatus t _ tag axis => fits 64 t && fits 16 tag && fits 8 axis
  | .diagEyeGrid t _ tag lane data => fits 64 t && fits 16 tag && fits 8 lane && refOk data
  | .diagPlacement t _ tag handle strip => fits 64 t && fits 16 tag && fits 32 handle && fits 32 strip
  | .diagSelftest t _ tag slice _ => fits 64 t && fits 16 tag && fits 16 slice
  | .diagRestartWarm t _ tag => fits 64 t && fits 16 tag
  | .diagRestartCold t _ tag => fits 64 t && fits 16 tag
  | .pairStatus t _ tag => fits 64 t && fits 16 tag
  | .pairConfig t _ tag value mask => fits 64 t && fits 16 tag && fits 32 value && fits 32 mask
  | .pairHandover t _ tag lead => fits 64 t && fits 16 tag && fits 32 lead
  | .pairResync t _ tag => fits 64 t && fits 16 tag
  | .pairClear t _ tag bits => fits 64 t && fits 16 tag && fits 32 bits
  | .logInfo t _ tag => fits 64 t && fits 16 tag
  | .logRead t _ tag seq count => fits 64 t && fits 16 tag && fits 32 seq && fits 8 count
  | .evtFilter t _ tag pairs => fits 64 t && fits 16 tag && (pairs.length ≤ 16 && pairs.all fun p => fits 16 p.1 && fits 16 p.2)
  | .secInfo t _ tag => fits 64 t && fits 16 tag
  | .certGet t _ tag offset => fits 64 t && fits 16 tag && fits 16 offset
  | .sessionOpen t _ tag key nonce => fits 64 t && fits 16 tag && decide (key.length = 49) && decide (nonce.length = 32)
  | .certPut t _ tag total offset bytes => fits 64 t && fits 16 tag && fits 16 total && fits 16 offset && decide (bytes.length ≤ 224)
  | .sessionFinish t _ tag sig => fits 64 t && fits 16 tag && decide (sig.length = 96)
  | .sessionClose t _ tag => fits 64 t && fits 16 tag
  | .sessionSetupTimeout t _ => fits 64 t
  | .sessionIdleExpire t _ => fits 64 t
  | .fwLoad t _ tag slot data => fits 64 t && fits 16 tag && fits 8 slot && refOk data
  | .fwActivate t _ tag slot => fits 64 t && fits 16 tag && fits 8 slot
  | .fwCommit t _ tag => fits 64 t && fits 16 tag
  | .trustSet t _ tag kind slot total offset bytes => fits 64 t && fits 16 tag && fits 8 kind && fits 8 slot && fits 16 total && fits 16 offset && decide (bytes.length ≤ 218)
  | .trustClear t _ tag slot => fits 64 t && fits 16 tag && fits 8 slot
  | .consReset t _ tag target index => fits 64 t && fits 16 tag && fits 8 target && fits 16 index
  | .consTransfer t _ tag target src dst => fits 64 t && fits 16 tag && fits 8 target && fits 16 src && fits 16 dst
  | .secConfig t _ tag value mask clear => fits 64 t && fits 16 tag && fits 32 value && fits 32 mask && fits 32 clear
  | .debugChallenge t _ tag scope => fits 64 t && fits 16 tag && fits 8 scope
  | .debugUnlock t _ tag scope token => fits 64 t && fits 16 tag && fits 8 scope && decide (token.length = 96)
  | .auditRead t _ tag count seq => fits 64 t && fits 16 tag && fits 8 count && fits 32 seq
  | .auditSign t _ tag nonce => fits 64 t && fits 16 tag && decide (nonce.length = 32)
  | .auditAcknowledge t _ tag seq => fits 64 t && fits 16 tag && fits 32 seq
  | .glitch t _ => fits 64 t
  | .rngFail t _ => fits 64 t
  | .jtagInstruction t _ => fits 64 t
  | .limitInputChange t _ _ _ => fits 64 t
  | .driverFault t _ _ => fits 64 t
  | .outShortAxis t _ _ => fits 64 t
  | .homeInputEdge t _ _ => fits 64 t
  | .homeDebounceExpire t _ => fits 64 t
  | .powerOn t => fits 64 t
  | .vinBelowPor t => fits 64 t
  | .resetNLow t _ _ => fits 64 t
  | .selfRefreshTimeout t => fits 64 t
  | .resetRelease t => fits 64 t
  | .start t info => fits 64 t && startOk info
  | .startTimeout t => fits 64 t
  | .watchdogExpire t => fits 64 t
  | .lockstepMismatch t => fits 64 t
  | .warmArm t _ tag => fits 64 t && fits 16 tag
  | .warmArmExpire t => fits 64 t
  | .fatalFault t _ => fits 64 t
  | .vinWarn t _ => fits 64 t
  | .vinWarnEnd t => fits 64 t
  | .vinWarnStop t => fits 64 t
  | .vinHigh t _ => fits 64 t
  | .inputTrip t => fits 64 t
  | .vencOverload t => fits 64 t
  | .vencRetry t _ => fits 64 t
  | .vencBackfeed t _ => fits 64 t
  | .railFault t _ => fits 64 t
  | .outShort t _ => fits 64 t
  | .thermalTrip t _ temp => fits 64 t && fitsS 12 temp
  | .throttleFall t => fits 64 t
  | .sensorFailWrite t _ tag bits => fits 64 t && fits 16 tag && fits 32 bits
  | .sensorReadmitted t _ => fits 64 t
  | .mgReadState t => fits 64 t
  | .mgReadRole t => fits 64 t
  | .mgReadTemp t => fits 64 t
  | .mgReadFaults t => fits 64 t
  | .mgReadLevel t => fits 64 t
  | .mgAlertResponse t => fits 64 t
  | .missedPartsRequest t picks => fits 64 t && picks.all (fits 64)
  | .stripRequest t handle index => fits 64 t && fits 32 handle && fits 32 index
  | .gpioIndexEdge t _ => fits 64 t
  | .laneStateRepeat t _ => fits 64 t
  | .mgBusTimeout t => fits 64 t

end Sys2Proof
end

