-- ==== Sys2Proof/Tests/Slice0.lean ====
section
/-!
SUPPORT. The model's own tests: the checks of WellFormed refuse, and each statement's hypotheses are met by a small state with
concrete operands (a theorem witness_<statement>, a conjunct for each clause). Values come from the manual's tables and rules.
-/
namespace Sys2Proof.Tests

open Sys2Proof Sys2Proof.Machine

set_option Elab.async false

/-- The unit READY after a start, as a standby. -/
def rdy : State := { State.reset with sys := { State.reset.sys with st := .ready } }

/-- The unit READY as SOLO. -/
def solo : State := { rdy with pair := { rdy.pair with role := .solo, lease := true, capable := false } }

/-- The unit READY as ACTIVE, with the lease and the record keys. -/
def lead : State := { rdy with pair := { rdy.pair with role := .active, lease := true, keys := some 1, peerUp := true } }

/-- The standby with the record keys. -/
def follow : State := { rdy with pair := { rdy.pair with keys := some 1 } }

/-- Whether an outcome is a next state. -/
def goesOn : Host.Outcome State Fault Refusal → Bool
  | .next _ => true
  | _ => false

/-- A value read out of the next state. -/
def after {α : Type} (o : Host.Outcome State Fault Refusal) (f : State → α) : Option α :=
  match o with
  | .next u => some (f u)
  | _ => none

/-! ### Witnesses -/

theorem witness_EmptyQueueIdles : State.reset.pending = [] := rfl

theorem witness_QueueUntouched : goesOn (exec (.timNowLoRead 5) rdy) = true := by decide +kernel

theorem witness_RegisterBanksCanonical :
    banksOk rdy = true ∧ goesOn (step { rdy with pending := [.mgReadState 7] }) = true := by decide +kernel

theorem witness_RegisterReadAfterWrite :
    (8191 < 8192 ∧ 131071 < 131072 ∧ (Fld.TIM_LOCK_LOCK_LIMIT).reg ≠ (Fld.TIM_TRIG_TIME_TIME).reg) ∧
    (8191 < 8192 ∧ 0 < 131072 ∧ (0 : Nat) ≠ 8191) ∧
    ((Fld.TIM_PPS_PPS_GATE).reg = (Fld.TIM_PPS_PPS_WIDTH).reg ∧
      ((Fld.TIM_PPS_PPS_GATE).lo + (Fld.TIM_PPS_PPS_GATE).width ≤ (Fld.TIM_PPS_PPS_WIDTH).lo ∨
        (Fld.TIM_PPS_PPS_WIDTH).lo + (Fld.TIM_PPS_PPS_WIDTH).width ≤ (Fld.TIM_PPS_PPS_GATE).lo)) := by decide +kernel

/-- A channel with messages in execution. -/
def busyChan (s : State) (k : Nat) (fs : List Flight) : State := setMbx s k fun m => { m with flight := fs }

/-- SYS.INFO in execution. -/
def infoFlight (tag : Nat) : Flight := { cls := 1, op := 0x10, tag := tag }

theorem witness_ReplyReachesItsChannel :
    let s := busyChan rdy 5 [infoFlight 9]
    5 < s.host.chans.length ∧ (mbx s 5).flight.find? (fun f => f.tag == 9 && f.reply.isNone) = some (infoFlight 9) ∧
      (infoFlight 9).drop = false := by decide +kernel

theorem witness_ReplyFrame : (4 : Nat) ≠ 5 := by decide

theorem witness_TakingAMessage :
    acts rdy 0 1 0x10 0 false false = true ∧ acts rdy 3 1 0x10 0xFFFF false false = true := by decide +kernel

/-- S1 with a session of n messages in use. -/
def sessionOnS1 (s : State) (n : Nat) : State :=
  { s with sec := { s.sec with sessions := [{}, { stage := 2, taken := n, total := 4 }] } }

theorem witness_SixthMessageDiscarded :
    (let s := busyChan rdy 3 ((List.range 5).map infoFlight)
     banksOk s = true ∧ serving s = true ∧ (mbx s 3).pending = false ∧ takesNow s 3 = true ∧ numbersSpent s 3 = false ∧
      3 < s.host.chans.length ∧ 5 ≤ outstanding (mbx s 3)) ∧
    (let s := busyChan (sessionOnS1 rdy 7) 5 ((List.range 5).map infoFlight)
     (mbx s 5).pending = false ∧ takesNow s 5 = true ∧ numbersSpent s 5 = false ∧ 5 < s.host.chans.length ∧ 5 ≤ outstanding (mbx s 5) ∧
      (secSession s 5).stage = 2 ∧ 5 - 4 < s.sec.sessions.length) := by
  decide +kernel

theorem witness_StandbyDeniesChanges : rdy.pair.role = .standby ∧ (mbx rdy 0).comparing = false := by decide +kernel

theorem witness_RecordedMessageNotRepeated :
    let s := setMbx rdy 0 fun m => { m with comparing := true, recent := [⟨7, ⟨1, 0x10, 7, 0, 0, false, false, []⟩⟩], flight := [infoFlight 7] }
    0 < s.host.chans.length ∧ (mbx s 0).comparing = true ∧
      (mbx s 0).recent.find? (·.tag == 7) = some ⟨7, ⟨1, 0x10, 7, 0, 0, false, false, []⟩⟩ ∧ (mbx s 0).flight = [] ++ [infoFlight 7] := by
  decide +kernel

/-- What a pick delivers when every sensor reads 25 °C. -/
def quiet : PickInputs :=
  { temps := List.replicate 16 ⟨0, false, 200⟩ }

theorem witness_PickNumberRises :
    let s := flushUpdate (begin rdy 100000)
    s.time.nextBoundary ≤ now s ∧ barOpen s = true := by decide +kernel

/-- A field with a value everywhere that it can be in force. -/
def put (s : State) (f : Field) (i v : Nat) : State :=
  { s with live := bankSet s.live f i v 0, pickEff := bankSet s.pickEff f i v 0, startEff := bankSet s.startEff f i v 0,
           frameEff := s.frameEff.map fun b => bankSet b f i v 0,
           sets := { s.sets with active := { s.sets.active with regs := bankSet s.sets.active.regs f i v 0 } } }

/-- SOLO with both PTP ports enabled. -/
def ptp : State := put solo Fld.TIM_PTP_PORT_EN 0 3

/-- A transmit time-stamp queue with n entries on port 1, the first of a Sync, the others of Delay_Req messages. -/
def stamps (n : Nat) : State :=
  { ptp with time := { ptp.time with txq := [[], (List.range n).map fun k => ⟨⟨Nat.min k 1, 0, k⟩, k, 0⟩] } }

theorem witness_TimeReadsAndStamps :
    (banksOk ptp = true ∧ ptpPort (begin ptp 1) 0 = true ∧ 3 ≤ 3 ∧ 1 < ptp.time.rxStamps.length) ∧
    (let s := begin (stamps 15) 1
     let q := nth s.time.txq 1 [] ++ [⟨⟨1, 0, 15⟩, ptpStamp s 1, now s⟩]
     banksOk (stamps 15) = true ∧ ptpPort s 1 = true ∧ (nth s.time.txq 1 []).length < 16 ∧ 1 < s.time.txq.length ∧
      (q.take 2).filter (fun e => decide (e.ident.kind = 0 ∨ e.ident.kind = 3)) = [⟨⟨0, 0, 0⟩, 0, 0⟩]) ∧
    (banksOk (stamps 16) = true ∧ ptpPort (begin (stamps 16) 1) 1 = true ∧ 16 ≤ (nth (begin (stamps 16) 1).time.txq 1 []).length) ∧
    (1 < (begin (stamps 16) 100000000).time.txq.length ∧ ((nth (begin (stamps 16) 100000000).time.txq 1 []).countP
      fun e => decide (e.arrived + 100000000 ≤ now (begin (stamps 16) 100000000))) = 16 ∧
     ((nth (begin (stamps 16) 99999999).time.txq 1 []).countP
      fun e => decide (e.arrived + 100000000 ≤ now (begin (stamps 16) 99999999))) = 0) := by decide +kernel

/-- The servo on a source, with the seventh good measurement in a row behind it and second 1 named for the next edge. -/
def nearLock (source : Nat) : State := { solo with time := { solo.time with source := source, goodRun := 7, ppsSecond := some 1 } }

/-- Lock held or not on source 1, PPS_OUT high where `high`, gated where `gate` is 1, and HOLDOVER_TIME of its reset value about to
pass. -/
def oldLock (locked high : Bool) (gate : Nat) : State :=
  let s := put solo Fld.TIM_PPS_PPS_GATE 0 gate
  { s with time := { s.time with source := 1, locked := locked, ppsOut := if high then some (2 ^ 60) else none } }

/-- Trigger n alone armed on HOST_IRQ at device time 1,000, with a period. -/
def dueTrig (n period : Nat) : State :=
  let s := put (put solo Fld.TIM_TRIG_CTRL_TARGET n 6) Fld.TIM_TRIG_PERIOD_PERIOD n period
  setTrig (put s Fld.TIM_TRIG_TIME_TIME n 1000) n fun _ => { armed := true, next := 1000 }

theorem witness_PpsAndLock :
    (banksOk solo = true ∧ solo.time.source ≠ 2) ∧
    (let s := begin (nearLock 2) 1000000005
     s.time.source = 2 ∧ s.time.locked = false ∧ 7 ≤ s.time.goodRun ∧ s.time.ppsSecond = some 1 ∧
      ((now s : Int) - 1000000000 * 1).natAbs < liveFld s Fld.TIM_LOCK_LOCK_LIMIT) ∧
    (({ solo.time with ppsExpected := some 0 } : TimeSt).ppsExpected = some 0 ∧ 0 + 1100000000 ≤ now (begin solo 1100000000)) ∧
    (∀ g : Fin 2, let s := begin (oldLock true false g) (999999998 + 4 * g.val)
     s.time.ppsOut = none ∧ serving s = true ∧ s.sys.st ≠ .recovery ∧ (now s % 1000000000 ≤ 2 ∨ 999999998 ≤ now s % 1000000000) ∧
      s.time.locked = true ∧ liveFld s Fld.TIM_PPS_PPS_GATE = g) ∧
    (let s := begin { solo with time := { solo.time with ppsOut := some 1000 } } 1000
     s.time.ppsOut = some 1000 ∧ 1000 ≤ s.time.counter) ∧
    (begin { solo with time := { solo.time with ppsOut := some 1000 } } 999).time.counter < 1000 ∧
    ((begin (nearLock 1) 0).time.source ≠ 0 ∧ (begin (nearLock 1) 0).time.source ≠ 2) ∧
    (∀ e ∈ nth (begin (stamps 16) 0).time.txq 1 [], e.ident ≠ ⟨1, 0, 16⟩) ∧
    ((nearLock 1).time.source = 1 ∧ (nearLock 1).time.locked = false ∧ 7 ≤ (nearLock 1).time.goodRun ∧
      (0 : Int).natAbs < liveFld (nearLock 1) Fld.TIM_LOCK_LOCK_LIMIT) := by
  refine ⟨?_, ?_, ?_, ?_, ?_, ?_, ?_, ?_, ?_⟩ <;> decide +kernel

theorem witness_PpsAndLock_holdover :
    let t := liveFld solo Fld.TIM_LOCK_HOLDOVER_TIME * 1000000000
    (∀ g : Fin 2, let s := begin (oldLock true true g) t
     s.time.source ≠ 0 ∧ s.time.locked = true ∧ s.time.lastMeasure + liveFld s Fld.TIM_LOCK_HOLDOVER_TIME * 1000000000 ≤ s.time.counter ∧
      s.time.ppsOut.isSome = true ∧ liveFld s Fld.TIM_PPS_PPS_GATE = g) ∧
    (let s := begin (oldLock false false 0) t
     s.time.source ≠ 0 ∧ s.time.locked = false ∧ s.time.lastMeasure + liveFld s Fld.TIM_LOCK_HOLDOVER_TIME * 1000000000 ≤ s.time.counter) ∧
    (begin solo 0).time.slewLeft = 0 := by decide +kernel

theorem witness_PpsAndLock_triggers :
    ∀ n : Fin 8, let s := begin (dueTrig n 1000) 1000
     (∀ k, k < 8 → k ≠ n.val → liveFld s Fld.TIM_TRIG_CTRL_OWNER k = 0 ∧ trigDue s k = false ∧ (trig s k).old = none) ∧
      liveFld s Fld.TIM_TRIG_CTRL_OWNER n = 0 ∧ (trig s n).old = none ∧ trigDue s n = true ∧ (trig s n).lateDue = false ∧
      leaseGated s (trigCtrl s n) = false ∧ liveFld s Fld.TIM_TRIG_CTRL_TARGET n = 6 ∧ n < s.time.trigs.length := by decide +kernel

/-- The host owns the servo. -/
def owned : State := put solo Fld.TIM_CTRL_SERVO_OWNER 0 1

theorem witness_TimeMessages :
    (banksOk owned = true ∧ acts (begin owned 0) 0 8 0x10 1 true false = true ∧ hostServo (entered (begin owned 0) 0 8 0x10 1) = true ∧
      1000000 * (((2 ^ 32 + 4294967 : Nat) : Int) - 2 ^ 32).natAbs ≤ 1000 * 2 ^ 32) ∧
    1000 * 2 ^ 32 < 1000000 * (((2 ^ 32 + 4294968 : Nat) : Int) - 2 ^ 32).natAbs ∧
    (acts (begin owned 0) 3 8 0x11 2 true false = true ∧ hostServo (entered (begin owned 0) 3 8 0x11 2) = true ∧
      (-10000000 : Int).natAbs ≤ 10000000) ∧
    (acts (begin owned 0) 0 8 0x12 3 true false = true ∧ hostServo (entered (begin owned 0) 0 8 0x12 3) = true ∧
      jobOn (entered (begin owned 0) 0 8 0x12 3) = false) ∧
    (let s := { owned with sys := { owned.sys with st := .armed } }
     acts (begin s 0) 0 8 0x12 3 true false = true ∧ hostServo (entered (begin s 0) 0 8 0x12 3) = true ∧
      jobOn (entered (begin s 0) 0 8 0x12 3) = true) ∧
    acts (begin owned 0) 0 8 0x13 4 true false = true ∧
    (acts (begin owned 0) 0 8 0x14 5 true false = true ∧ trigBad 7 6 0xFFFFFFFF = false ∧
      liveFld (entered (begin owned 0) 0 8 0x14 5) Fld.TIM_TRIG_CTRL_OWNER 7 = 0 ∧
      7 < (entered (begin owned 0) 0 8 0x14 5).time.trigs.length ∧ now (entered (begin owned 0) 0 8 0x14 5) + 200 ≤ 200 ∧
      trigNear (entered (begin owned 0) 0 8 0x14 5) 7 = false) ∧
    (trigBad 0 (6 + 2 ^ 9) 0 = false ∧ 199 < now (entered (begin owned 0) 0 8 0x14 5) + 200 ∧ bitsOf (6 + 2 ^ 9) 0 3 ≠ 0 ∧
      bitsOf (6 + 2 ^ 9) 9 2 = 1) ∧
    (acts (begin owned 0) 0 8 0x15 6 true false = true ∧ trigNear (entered (begin owned 0) 0 8 0x15 6) 7 = false) := by
  decide +kernel

/-- Encoder 0 enabled with 2^24 units of line a count, the web at 1 line per 10 µs, and position known. -/
def moving : State :=
  let s := put (put (put solo Fld.POS_ENC_CTRL_ENC_EN 0 1) Fld.POS_SCALE_LINES_PER_COUNT 0 (2 ^ 24)) Fld.POS_PRED_PRED_MIN_RATE 0 1
  { s with pos := { s.pos with crawl := false, pred := { s.pos.pred with v := 1 / 10000 } } }

/-- Its encoder 0 with level Z high since three counts ago, two index pulses too wide behind it. -/
def wideIndex : State :=
  let s := put (put moving Fld.POS_ENC_CTRL_ENC_Z_CHECK 0 1) Fld.POS_ENC_CTRL_ENC_Z_MAX_WIDTH 0 2
  setEnc s 0 fun x => { x with z := true, runZ := 2, count := 3 }

theorem witness_EncoderInputs :
    (1 < (begin moving 0).pos.enc.length ∧ (2 : Fin 3) ≠ 0) ∧
    (let s := flushUpdate (begin moving 25)
     encOn s 0 = true ∧ (enc s 0).openA = false ∧ (enc s 0).openB = false ∧ true ≠ (enc s 0).a ∧ false = (enc s 0).b ∧
      false = (enc s 0).a ∧ true ≠ (enc s 0).b ∧ passesFilter s 0 8 = true ∧ passesFilter s 0 7 = false ∧ (enc s 0).lastEdge = none) ∧
    (let s := flushUpdate (begin (setEnc moving 0 fun x => { x with lastEdge := some 1 }) 26)
     true ≠ (enc s 0).a ∧ true ≠ (enc s 0).b ∧ 0 < s.pos.enc.length ∧ (enc s 0).lastEdge = some 1 ∧ 1 + 25 ≤ s.time.counter) ∧
    (let s := flushUpdate (begin (setEnc moving 0 fun x => { x with lastEdge := some 1 }) 25)
     (enc s 0).lastEdge = some 1 ∧ s.time.counter < 1 + 25) ∧
    ((enc (flushUpdate (begin moving 0)) 0).z = false ∧
      indexChecked (setEnc (flushUpdate (begin moving 0)) 1 fun x => { x with z := false }) 1 = false) ∧
    (let s := flushUpdate (begin wideIndex 0)
     passesFilter s 0 8 = true ∧ (enc s 0).z = true ∧ indexChecked (setEnc s 0 fun x => { x with z := false }) 0 = true ∧
      fld s Fld.POS_ENC_CTRL_ENC_Z_MAX_WIDTH 0 < ((enc s 0).count - (enc s 0).zCount).natAbs ∧ (enc s 0).runZ = 2) ∧
    (let s := flushUpdate (begin moving 20000)
     let l := ((passSign s * linesPerCount s s.pos.source : Int) : Rat) / 2 ^ 24
     s.pos.pred.pend = none ∧ 0 < passVel s ∧ l ≠ 0 ∧
      2 ≤ (s.pos.pred.p + s.pos.pred.v * (((s.time.counter : Int) - (s.pos.pred.tLast : Int) : Int) : Rat) - s.pos.pred.zLast) / l ∧
      s.pos.pred.tLast ≠ s.time.counter) := by
  decide +kernel

/-- A head type of one row with eight nozzles, and head 0 of it on port 0 of hub 0 for channel 0. -/
def headCfg : CfgSet :=
  { solo.sets.active with
    types := [(1, ⟨1, 1, 8, 0, 0, 100000, 0, true, true, 0, 1, 2, 3⟩)],
    places := [(0, ⟨0, 0, 1, some 0, none, false, false, 0, 0, 7, 0, 0⟩)] }

/-- An image of eight pixels by four lines in one strip, stored uncoded. -/
def pic : Image := ⟨1, padName [], 0, 4, 8, 4⟩

/-- Its strip: 32 bytes of 0, all in one token or stored as they are. -/
def codedZero : Encoded := codedStrip 8 (List.replicate 32 0)
def storedZero : Encoded := storedStrip 8 (List.replicate 32 0)

/-- The strip in the store, its decode cost recorded (R147), as copy 1. -/
def zeroStrip (damaged : Bool) : Strip :=
  { handle := 1, index := 0, bytes := storedZero.bytes, cost := storedZero.cost, grains := [3], crc := 0, damaged := damaged, copy := 1 }

/-- A job on channel 0 at device time 0, the web at 1 line per 10 µs, with a channel as given. -/
def printing (x : Chan) : State :=
  { moving with
    sys := { moving.sys with st := .printing }, sets := { moving.sets with active := headCfg },
    store := { moving.store with images := [pic], strips := [zeroStrip false] },
    job := { moving.job with id := 1, channels := 1, images := 1 :: List.replicate 15 0 },
    print := { moving.print with chans := x :: List.replicate 15 {} },
    pos := { moving.pos with frozen := false, indexWait := false } }

/-- The row of head 0. -/
def row0 : RowDots := ⟨0, 0, 0, false, []⟩

/-- Line 100 in the FIFO and next. -/
def line100 : Chan := { next := 100, render := 101, fifo := [⟨100, [row0], false, false⟩] }

/-- The strip of the job in the buffer, with its state, its read on copy 1. -/
def bufStrip (ready reading : Bool) (tries : Nat) : BufStrip :=
  { stream := 0, index := 0, firstLine := 0, lines := 4, tries := tries, ready := ready, reading := reading, copy := 1,
    data := List.replicate 32 0 }
def buffered (ready reading : Bool) (tries : Nat := 0) : Chan := { bufs := [bufStrip ready reading tries] }

/-- Whether a decode is good, with a header that answers a question. -/
def good (d : Decoded) (f : StripHead → Bool) : Bool := match d with | .ok h _ _ => f h | .bad _ _ => false

/-- Line 100 ready on channel 0 at a time, with what the fourth clause of LinesRenderedAndSent asks of it, closing at a time. -/
def sendable (x : Chan) (t : Nat) (send : Bool) : Bool :=
  let s := sendLater (flushUpdate (begin (printing x) t)) 0
  maySend s 0 && decide ((chan s 0).next = 100) && decide (readyLine s 0 100 = some ([row0], false)) &&
    decide (lineFire s 0 100 [row0] = some (1000000, [1000000])) && decide (holdOrShed s 0 100 1000000 = (0, send)) &&
    decide (earliest 1000000 [1000000] + 0 - leadNs s = 940000) && decide (0 < (swapBefore s 0 100).print.chans.length) &&
    decide (linesOff (swapBefore s 0 100) = false) && hubOpen (swapBefore s 0 100) [(row0, 1000000)] 0 == decide (935000 ≤ t)

/-- Line 100, ready or not, with what the fifth clause asks of it. -/
def missable (x : Chan) (t : Nat) (ready : Bool) : Bool :=
  let s1 := flushUpdate (begin (printing x) t)
  let s := checkJob ((chan s1 0).sent.foldl (fun s l => missOpened s 0 l) s1)
  let rows := match readyLine s 0 100 with
    | some r => r.1
    | none => (headRows (cfgAt s 0 100) 0).map fun (h, p, b) => ⟨h, p.hub, p.port, b, []⟩
  mayTransmit s1 0 && maySend s 0 && decide ((chan s 0).next = 100) && rows == [row0] && (readyLine s 0 100).isSome == ready &&
    decide (lineFire s 0 100 rows = some (1000000, [1000000])) &&
    decide (earliest 1000000 [1000000] + (holdOrShed s 0 100 1000000).1 - leadNs s = 940000)

/-- The strip being read, as the last clause takes it: with its copy damaged or not, and a read that gives these bytes. -/
def reads (damaged : Bool) (tries : Nat) (read : List Byte) (p : Decoded → Bool) : Bool :=
  let s0 := printing (buffered false true tries)
  let s := flushUpdate (begin { s0 with store := { s0.store with strips := [zeroStrip damaged] } } 0)
  decodeOrder s 0 == [bufStrip false true tries] && findCopy s 1 == some (zeroStrip damaged) && ownErrors s (zeroStrip damaged) [] == [] &&
    p (decodeWithin (zeroStrip damaged).cost read)

theorem witness_LinesRenderedAndSent :
    (banksOk (printing line100) = true ∧ mayTransmit (flushUpdate (begin moving 0)) 15 = false ∧
      maySend (sendLater (flushUpdate (begin moving 0)) 15) 15 = false) ∧
    (sendable line100 934999 true = true ∧ sendable line100 935000 true = true ∧ sendable line100 940000 true = true ∧
      sendable line100 940001 true = true ∧
      sendable { line100 with lastSent := some 99, lastFire := 999999 } 940000 false = true) ∧
    (missable line100 940000 true = true ∧ missable line100 940001 true = true ∧ missable { next := 100, render := 100 } 939999 false = true ∧
      missable { next := 100, render := 100 } 940000 false = true) ∧
    (let s := flushUpdate (begin (printing (buffered true false)) 0)
     (chan s 0).render = 0 ∧ inJob s 0 = true ∧ linesOff s = false ∧ lineWanted s 0 = true ∧ fifoRoom s 0 0 = true ∧
      jobImage (fillBuffers s 0) 0 = some pic ∧ (streamData (fillBuffers s 0) 0 0 0).isSome = true ∧ s.job.rep.mode ≠ 2 ∧
      0 < (comeToLine (fillBuffers s 0) 0 0).print.chans.length) ∧
    (reads false 0 storedZero.bytes (fun d => good d fun hd => decodedMisfit (printing {}) 1 0 hd == 0) = true ∧
      reads true 0 storedZero.bytes (fun _ => true) = true ∧ reads false 0 [] (fun d => !good d fun _ => true) = true ∧
      reads false 1 [] (fun d => !good d fun _ => true) = true) := by
  refine ⟨?_, ?_, ?_, ?_, ?_⟩ <;> decide +kernel

/-- Hub h in state UP. -/
def upHub (s : State) (h : Nat) : State := setHub s h fun x => { x with state := 3, mask := 1 }

/-- An acknowledgement without records under epoch e. -/
def plainAck (valid : Bool) (e : Nat) : HubAck := ⟨valid, e, 0, 0, 0, []⟩

/-- Channel 0 on the history path with HIST_HOLD warm picks, in the job or not, set to choose its path itself. -/
def warmed (on : Bool) : State :=
  let s := printing { line100 with onHist := true, warmPicks := 2 ^ 16 }
  let s := if on then s else { s with job := { s.job with channels := 0 } }
  { s with sets := { s.sets with active := { s.sets.active with regs := bankSet s.sets.active.regs Fld.FIR_CFG_ENERGY_PATH 0 2 0 } } }

/-- A line sent to hub 23 at device time 0 and not settled. -/
def sentLine : SentLine := { line := 7, sentAt := 0, rows := [⟨0, 23, 0, false, 0, 0, 0, false, false⟩], dots := [] }

theorem witness_LinesSettled :
    (let s := flushUpdate (begin (printing { line100 with sent := [sentLine] }) (1000000 * liveFld solo Fld.FL_CTRL_UNACKED_LIMIT))
     banksOk (printing { line100 with sent := [sentLine] }) = true ∧ (∀ l ∈ (chan s 0).sent, ∀ r ∈ l.rows, r.hub < 24) ∧
      (chan s 0).sent.countP (fun l => decide (l.sentAt + 1000000 * liveFld s Fld.FL_CTRL_UNACKED_LIMIT ≤ now s)) = 1) ∧
    (∀ on : Bool, let s := flushUpdate (begin (warmed on) 0)
     (chan s 0).onHist = true ∧ fld s Fld.FIR_CFG_HIST_HOLD 0 ≤ (chan s 0).warmPicks ∧ s.pair.role ≠ .standby ∧
      (∀ p ∈ s.print.paths, p.chan ≠ 0) ∧ bankGet (cfgOf s 0).regs Fld.FIR_CFG_ENERGY_PATH 0 = 2 ∧ preheatOk (cfgOf s 0) 0 = true ∧
      inJob s 0 = on) ∧
    ((plainAck false 0).valid = false ∧ (plainAck true 1).valid = true) ∧
    (let s := flushUpdate (begin (upHub lead 23) 0)
     (hubOf s 23).state = 3 ∧ 23 < s.link.hubs.length ∧ s.pair.role = .active ∧ liveFld s Fld.PAIR_EPOCH_EPOCH < (plainAck true 1).epoch ∧
      (plainAck true 0).epoch ≤ liveFld s Fld.PAIR_EPOCH_EPOCH) ∧
    (let s := flushUpdate (begin (upHub follow 23) 0)
     (hubOf s 23).state = 3 ∧ s.pair.role = .standby ∧ ∀ x ∈ s.pair.ackTimes, x.1 ≠ 23) ∧
    ([⟨0, 23, 0, false, 0, 0, 0, false, false⟩] : List SentRow)[0]? = some ⟨0, 23, 0, false, 0, 0, 0, false, false⟩ ∧
    ((begin follow 0).pair.role = .standby ∧ peerTalks (begin follow 0) = true ∧ (begin follow 0).pair.crcs = []) := by
  refine ⟨?_, ?_, ?_, ?_, ?_, ?_, ?_⟩ <;> decide +kernel

/-- The channel's command taken at once, on the state where time begins. -/
def takes (s : State) (k cls op tag : Nat) (changes : Bool) (exempt : Bool := false) : Bool := acts (begin s 0) k cls op tag changes exempt

/-- SOLO and READY with the image and its strip. -/
def stored (damaged : Bool) : State := { solo with store := { solo.store with images := [pic], strips := [zeroStrip damaged] } }

theorem witness_ImageMessages :
    (takes solo 0 3 0x10 1 true = true ∧ 1 ≤ 4096 ∧ 1 * lineBytes 1 1048576 ≤ 262144 ∧ 4096 * lineBytes 0 64 ≤ 262144 ∧
      (entered (begin solo 0) 0 3 0x10 1).store.images = []) ∧
    (takes (stored false) 5 3 0x13 1 false = false ∧ takes (stored false) 3 3 0x13 1 false = true ∧
      findImage (entered (begin (stored false) 0) 3 3 0x13 1) 1 = some pic) ∧
    takes (stored false) 0 3 0x14 2 false = true ∧
    (takes (stored false) 0 3 0x12 3 true = true ∧ findImage (entered (begin (stored false) 0) 0 3 0x12 3) 1 = some pic ∧
      jobUses (entered (begin (stored false) 0) 0 3 0x12 3) 1 = false) ∧
    (takes (stored false) 0 10 0x11 4 false = true ∧
      findStrip (entered (begin (stored false) 0) 0 10 0x11 4) 1 0 = some (zeroStrip false)) := by
  decide +kernel

/-- An ingest of the image's strip, raw or coded. -/
def ingest (jlc : Bool) (data : List Byte) : Ingest := { chan := 0, tag := 5, handle := 1, jlc := jlc, next := 0, left := 1, data := data }
def ingesting (jlc : Bool) (data : List Byte) : State :=
  { solo with store := { solo.store with images := [pic], ingests := [ingest jlc data] } }

/-- Two lines of four bytes for the codec's own jobs. -/
def codecJob (op : Nat) (src : List Byte) : CodecJob :=
  { op := op, resume := false, fallback := false, lps := 2, width := 4, count := 1, src := 0, srcLen := src.length, dst := 4096,
    dstLen := 4096, hdr := 8192, resumeAt := 12288, source := src, record := [] }

/-- A streamed job of the image on channel 0, with a rate that no decode of a long strip keeps up with. -/
def streaming (s : State) : State :=
  { s with sys := { s.sys with st := .printing }, sets := { s.sets with active := headCfg },
           job := { s.job with id := 1, streamed := true, channels := 1, images := 1 :: List.replicate 15 0 } }

theorem witness_IngestAndCodecJobs :
    (∀ eth : Bool, let s := { stored false with sys := { (stored false).sys with ethernet := eth } }
     let e := entered (begin s 0) 0 3 0x11 5
     takes s 0 3 0x11 5 true = true ∧ findImage e 1 = some pic ∧ 0 + 1 ≤ imageStrips pic ∧
      rawLength pic 0 1 ≤ ({ length := 32 } : DataRef).length ∧ jobUses e 1 = false ∧ e.sys.ethernet = eth) ∧
    (let s := begin (ingesting false (List.replicate 32 0)) 0
     let g := ingest false (List.replicate 32 0)
     let e := encodeStrip (liveFld s Fld.JLC_CTRL_STORED_FALLBACK == 1) (liveFld s Fld.JLC_CTRL_COST_LIMIT) (imageLine pic)
       (((ingestData s g).1.drop g.used).take (stripLines pic 0 * imageLine pic))
     banksOk s = true ∧ findIngest s 0 5 = some g ∧ findImage s 1 = some pic ∧
      g.used + stripLines pic 0 * imageLine pic ≤ (ingestData s g).1.length ∧ streamedTooCostly s 1 e.cost 4 = false ∧
      ceilDiv e.bytes.length (grainBytes s) * grainBytes s ≤ freeBytes s ∧ g.left < 2) ∧
    (let s := begin (ingesting false (List.replicate 31 0)) 0
     (ingestData s (ingest false (List.replicate 31 0))).1.length < 0 + stripLines pic 0 * imageLine pic) ∧
    (let s := begin (ingesting true codedZero.bytes) 0
     findIngest s 0 5 = some (ingest true codedZero.bytes) ∧ findImage s 1 = some pic ∧
      good (decodeStrip codedZero.bytes) (fun hd => imageCheck pic 0 hd == 0) = true ∧
      good (decodeStrip codedZero.bytes) (fun hd => imageCheck { pic with width := 9 } 0 hd != 0) = true ∧
      streamedTooCostly s 1 0 4 = false) ∧
    (let s := begin (streaming (ingesting true [])) 0
     streamedTooCostly s 1 (2 ^ 40) 4 = true) ∧
    (let s := begin (ingesting true []) 0
     decodeStrip [] = .bad 7 0 ∧ (ingestData s (ingest true [])).2 = true ∧
      (ingestData s { ingest true [] with transfer := some 9 }).2 = false) ∧
    (takes solo 0 3 0x15 6 false = true ∧ (entered (begin solo 0) 0 3 0x15 6).sys.ethernet = false ∧
      encodeOk (codecJob 1 (List.replicate 8 1)) = true) ∧
    (takes solo 0 3 0x16 7 false = true ∧ (entered (begin solo 0) 0 3 0x16 7).sys.ethernet = false ∧
      (decodeJob 1 (jobSource (codecJob 2 codedZero.bytes)) 4096 {}).code = 0) := by
  refine ⟨?_, ?_, ?_, ?_, ?_, ?_, ?_, ?_⟩ <;> decide +kernel

theorem witness_ReplicatedStrips :
    (let s := begin { rdy with store := { rdy.store with images := [pic] } } 0
     banksOk s = true ∧ s.pair.role = .standby ∧ findImage s 1 = some pic ∧ good (decodeStrip codedZero.bytes) (fun h => h.mode == 1) = true ∧
      good (decodeStrip storedZero.bytes) (fun h => h.mode == 0) = true ∧ decodeStrip [] = .bad 7 0 ∧ s.store.retries = [] ∧
      s.thm.tripped = false) ∧
    (let s := begin { lead with store := { lead.store with retries := [⟨1, 0, 3, some 5⟩] } } 5
     s.thm.tripped = false ∧ ∀ r ∈ s.store.retries, r.askAt = some 5 ∧ 5 ≤ now s) ∧
    (findStrip (begin (stored false) 0) 1 0 = some (zeroStrip false) ∧ (zeroStrip false).damaged = false ∧
      (begin (stored false) 0).store.asks = [] ∧ (begin (stored false) 0).thm.tripped = false) ∧
    (findStrip (begin (stored true) 0) 1 0 = some (zeroStrip true) ∧ (zeroStrip true).damaged = true) := by
  decide +kernel

/-- The unit at device time 0 with DRAM channel 3 changed. -/
def dramCase (f : DramChan → DramChan) : State := begin (setDram solo 3 f) 0

/-- A scrub request for every bank. -/
def allBusy (x : DramChan) : DramChan :=
  { x with queue := (List.range 16).map fun b => { cls := 3, bank := b, row := 0, write := false, user := .scrub } }

theorem witness_DramUpkeep :
    let s := dramCase id
    banksOk (setDram solo 3 id) = true ∧
    (throttle s = 0 ∧ s.store.scrubFrom = none ∧ s.store.eccInForce = true ∧
      rowErrors s (scrubRow 0) + 1 < fld s Fld.IMG_SCRUB_ROW_RETIRE_LIMIT) ∧
    (let s := { s with store := { s.store with rowErrs := [(scrubRow 0, fld s Fld.IMG_SCRUB_ROW_RETIRE_LIMIT - 1)] } }
     fld s Fld.IMG_SCRUB_ROW_RETIRE_LIMIT ≤ rowErrors s (scrubRow 0) + 1) ∧
    3 < s.store.dram.length ∧ idleBanks (dramCh s 3) = List.range 16 ∧ (dramCh s 3).debt = 0 ∧ idleBanks (dramCh (dramCase allBusy) 3) = [] ∧
    ((dramCh (dramCase fun x => { allBusy x with debt := 7 }) 3).noPostpone = false ∧
      (dramCh (dramCase fun x => { allBusy x with debt := 7 }) 3).debt < 8) ∧
    8 ≤ (dramCh (dramCase fun x => { allBusy x with debt := 8 }) 3).debt ∧
    (let s := dramCase fun x => { x with due := some 64 }
     (dramCh s 3).due = some 64 ∧ (∀ x ∈ s.store.dram, x.training = false) ∧ 64 ≤ 64) ∧
    (let s := dramCase fun x => { x with due := some 0 }
     coverAllows s = true ∧ s.thm.bandPick ≠ some s.time.pick ∧ s.store.lastBreak = none) ∧
    ((dramCh (dramCase fun x => { x with training := true }) 3).training = true ∧
      ∀ e ∈ [(⟨3, 0, 50, 7⟩ : EyeWidth)], liveFld (dramCase id) Fld.IMG_CTRL_EYE_MIN ≤ e.width) := by decide +kernel

/-- A strip move of channel 15 as far as given. -/
def moveTo (ready : Bool) : StripMove := { chan := 15, handle := 1, index := 0, src := 1, grains := [9], ready := ready }
def movingStrip (ready : Bool) : State := { stored false with store := { (stored false).store with moves := [moveTo ready] } }

/-- The old copy that a move of channel 15 left, with no read on it. -/
def leftCopy : OldCopy := { chan := 15, strip := zeroStrip false }

theorem witness_DramUpkeep_moves :
    (let s := begin (movingStrip false) 0
     moveOf s 15 = some (moveTo false) ∧ (moveTo false).ready = false ∧ findCopy s 1 = some (zeroStrip false) ∧
      ownErrors s (zeroStrip false) [] = [] ∧
      poisoned (ownErrors s (zeroStrip false) [⟨nth (stripRows s [3]) 0 ⟨0, 0, 0⟩, 0, .uncorrectable⟩]) = true) ∧
    (moveOf (begin (movingStrip true) 0) 15 = some (moveTo true) ∧ (moveTo true).ready = true ∧
      findStrip (begin (movingStrip true) 0) 1 0 = some (zeroStrip false)) ∧
    (let s := begin { solo with store := { solo.store with olds := [leftCopy] } } 0
     (s.store.olds.find? fun o => o.chan == (15 : Fin 16).val && o.strip.refs == 0) = some leftCopy) := by decide +kernel

/-- Hub 5 enabled on lanes 22 and 23, its group in a state, its lanes as given. -/
def link (state mask : Nat) (l : LaneSt) : State :=
  let s := put (put (put solo Fld.FL_HUB_HUB_EN 5 1) Fld.FL_HUB_WIDTH 5 2) Fld.FL_HUB_FIRST_LANE 5 22
  setLane (setLane (setHub s 5 fun h => { h with state := state, mask := mask }) 22 fun _ => l) 23 fun _ => l

/-- A lane ready on GROUP_LANE 1. -/
def readyLane : LaneSt := { locked := true, ordered := true, hubRx := true, groupLane := 1 }

/-- The block that arrives at a lane not inverted, behind 58 zero bits, as a control block with seven bytes and its CHECK. -/
def wire (type : Nat) (bs : List Byte) (bad : Bool) : WireBlock :=
  let b := (checkedBlock type bs).bytes
  ⟨0, 2, (scramble 64 (ofLe (if bad then b.take 7 ++ [0] else b)) 0).1⟩

/-- A marker of GROUP_LANE 1 and WIDTH 2 from hub h, or from the unit. -/
def marker (bad fromHub : Bool) (hub : Nat) : WireBlock := wire 0x4B [1, 2, if fromHub then 2 else 0, BitVec.ofNat 8 hub, 0, 0] bad

theorem witness_LaneEvents :
    (banksOk (link 3 1 {}) = true ∧ laneHub (begin (link 3 1 {}) 0) 23 = some 5 ∧ 23 < (begin (link 3 1 {}) 0).link.lanes.length ∧
      (laneOf (begin (link 3 1 {}) 0) 23).locked = false ∧ liveFld (begin (link 3 1 {}) 0) Fld.RST_CAUSE_WARM = 0) ∧
    (let s := begin (link 3 1 readyLane) 0
     (laneOf s 23).locked = true ∧ (receiveBlock s 23 (marker true true 5)).2 = .invalid ∧
      (receiveBlock s 23 ⟨0, 1, 5⟩).2 = .stream ∧ (receiveBlock s 23 (wire 0x2D [2, 1, 0, 0, 0, 0] false)).2 = .laneState 2 1 ∧
      (∀ n ∈ groupLanes s 5, (laneOf s n).map = none ∨ (laneOf s n).hubRx = (2 : Nat).testBit (laneOf s n).groupLane)) ∧
    (let s := begin (link 3 1 readyLane) 0
     (receiveBlock s 23 (marker false true 5)).2 = .marker ⟨1, 2, false, true, 5, 0⟩ ∧ 2 = fld s Fld.FL_HUB_WIDTH 5 ∧ 1 < 2 ∧
      deskewed s 5 0 = true ∧ (receiveBlock s 23 (marker false false 5)).2 = .marker ⟨1, 2, false, false, 5, 0⟩ ∧
      (receiveBlock s 23 (marker false true 6)).2 = .marker ⟨1, 2, false, true, 6, 0⟩ ∧ (laneOf s 23).miswired = false) ∧
    (let s := begin (link 3 1 readyLane) (1000000 * liveFld solo Fld.FL_CTRL_REJOIN_HOLD)
     (hubOf s 5).state = 3 ∧ laneReady (laneOf s 23) = true ∧ (hubOf s 5).mask.testBit (laneOf s 23).groupLane = false ∧
      (hubOf s 5).narrow = none ∧ (laneOf s 23).since + 1000000 * liveFld s Fld.FL_CTRL_REJOIN_HOLD ≤ now s ∧
      5 < s.link.hubs.length) := by refine ⟨?_, ?_, ?_, ?_⟩ <;> decide +kernel

theorem witness_LaneStateRepeats :
    (let s := begin (link 3 1 {}) 0
     (hubOf s 5).state = 3 ∧ (∃ n ∈ groupLanes s 5, laneReady (laneOf s n) = false) ∧ linesOff s = false) ∧
    ((hubOf (begin (link 1 1 {}) 0) 5).state = 1 ∧ (hubOf (begin (link 2 1 {}) 0) 5).state = 2 ∧ (hubOf (begin (link 0 1 {}) 0) 5).state = 0) ∧
    (let s := begin (link 3 2 readyLane) 0
     (hubOf s 5).state = 3 ∧ ∀ n ∈ groupLanes s 5, laneReady (laneOf s n) = true) := by decide +kernel

/-- A command without its answer, asked for by message 4 of channel N3. -/
def asked (attempts : Nat) (msg : Option (Nat × Nat)) : HubCmd := { cmd := 1, tag := 255, args := [], attempts := attempts, sentAt := 0, msg := msg }
def waiting (attempts : Nat) (msg : Option (Nat × Nat)) : State :=
  setHub (link 3 1 {}) 5 fun h => { h with cmds := [asked attempts msg] }

/-- What hub 5 says of itself. -/
def hubSays : HubInfo := ⟨5, 0, 15, 7, 8, 1, 0, 0⟩

theorem witness_HubLife :
    (∀ ready : Bool, let s := begin (link 1 0 (if ready then readyLane else {})) (1000000 * liveFld solo Fld.FL_CTRL_BRINGUP_TIMEOUT)
     banksOk (link 1 0 {}) = true ∧ (hubOf s 5).state = 1 ∧
      (hubOf s 5).trainedAt + 1000000 * liveFld s Fld.FL_CTRL_BRINGUP_TIMEOUT ≤ now s ∧ hubFits s 5 (readyMask s 5) = ready) ∧
    ((hubOf (begin (link 2 2 readyLane) 0) 5).state = 2 ∧ hubSays.hub = 5 ∧ 5 < (begin (link 2 2 readyLane) 0).link.hubs.length) ∧
    (hubOf (begin (setHub (link 3 3 {}) 5 fun h => { h with narrow := some 1 }) 0) 5).narrow = some 1 ∧
    (((hubOf (begin (waiting 1 (some (3, 4))) 0) 5).cmds.find? fun c => c.cmd == 1 && c.tag == 255) = some (asked 1 (some (3, 4))) ∧
      (asked 1 (some (3, 4))).msg = some (3, 4)) ∧
    (((hubOf (begin (waiting 1 none) 9999999) 5).cmds.find? fun c => c.tag == 255) = some (asked 1 none) ∧
      now (begin (waiting 1 none) 9999999) < (asked 1 none).sentAt + 10000000) ∧
    ((asked 2 none).sentAt + 10000000 ≤ now (begin (waiting 2 none) 10000000) ∧ (asked 2 none).attempts < 3) ∧
    ((asked 3 (some (3, 4))).sentAt + 10000000 ≤ now (begin (waiting 3 (some (3, 4))) 10000000) ∧ 3 ≤ (asked 3 (some (3, 4))).attempts) ∧
    (takes (link 3 1 {}) 0 5 0x15 7 false = true ∧ (hubOf (entered (begin (link 3 1 {}) 0) 0 5 0x15 7) 5).state = 3 ∧
      (hubOf (entered (begin (link 3 1 {}) 0) 0 5 0x15 7) 23).state ≠ 3) ∧
    (let s := begin (link 3 1 {}) 200000
     (hubOf s 5).state = 3 ∧ (hubOf s 5).lastAck + 200000 ≤ now s ∧ (hubOf s 5).ackLost = false) := by
  refine ⟨?_, ?_, ?_, ?_, ?_, ?_, ?_, ?_, ?_⟩ <;> decide +kernel

theorem witness_LinkTimeAndEyes :
    (banksOk solo = true ∧ 24 ≤ (begin solo 0).link.hubs.length ∧ (hubOf (begin (link 3 1 {}) 0) 5).state = 3 ∧
      (hubOf (begin (link 3 1 {}) 0) 6).state ≠ 3) ∧
    (hubOf (begin (setHub solo 5 fun h => { h with syncT1 := some 7 }) 9) 5).syncT1 = some 7 ∧
    ((begin solo 0).link.scan = none ∧ liveFld (begin solo 0) Fld.FL_EYE_EYE_LANE < 24 ∧ throttle (begin solo 0) = 0 ∧
      throttle (begin (put solo Fld.THM_STATUS_LEVEL 0 1) 0) = 1) ∧
    ({ solo.link with scan := some (23, 20) } : LinkSt).scan = some (23, 20) ∧
    (let s := { solo with link := { solo.link with grids := [(23, List.replicate 8128 0)] } }
     takes s 0 10 0x10 8 true true = true ∧ (entered (begin s 0) 0 10 0x10 8).sys.ethernet = false ∧ 65024 ≤ 65024 ∧
      ((entered (begin s 0) 0 10 0x10 8).link.grids.find? (·.1 == 23)).isSome = true) := by decide +kernel

/-- An open OFFICER session on S0. -/
def sealedS (s : State) : State :=
  setMbx { s with sec := { s.sec with sessions := [{ stage := 2, role := 4 }, {}] } } 4 fun m => { m with secure := true }

/-- A unit with head 511 on hub 5 and channel 15's supply there, their elements accounted for as given. -/
def inks (a b : Element) : State :=
  let s := put (put (put (link 3 1 {}) Fld.FIR_SUPPLY_SUPPLY_EN 15 1) Fld.FIR_SUPPLY_SUPPLY_HUB 15 5) Fld.FIR_INK_PENDING_INK_PENDING 15 40
  let s := put s Fld.FIR_HEAD_PENDING_HEAD_PENDING 511 60
  { s with print := { s.print with elements := [a, b] },
           sets := { s.sets with active := { s.sets.active with places := [(511, ⟨5, 0, 1, some 0, none, false, false, 0, 0, 7, 0, 0⟩)] } } }

/-- The accounts of head 511 and of channel 15's ink. -/
def headElem : Element := { key := 511 }
def inkElem : Element := { key := 527, certOk := true }
def flying (attempts : Nat) : Element := { key := 527, inFlight := true, seq := 3, amount := 40, attempts := attempts }

theorem witness_ConsumableAccounts :
    (let s := begin (inks headElem inkElem) 1000000000
     banksOk (inks headElem inkElem) = true ∧ mayCommit s 527 = true ∧ commitDue s 527 = true ∧ (elem s 527).certOk = true ∧
      mayCommit s 511 = true ∧ commitDue s 511 = true ∧ (elem s 511).certOk = false ∧ (elem s 511).reading = false ∧ (elem s 511).attempts = 0) ∧
    (let s := begin (inks headElem (flying 1)) 0
     let record := commitRecord 0 3 40 40 0
     527 < 528 ∧ serving s = true ∧ (elem s 527).inFlight = true ∧ (elem s 527).nonce = leAt record 32 16 ∧
      leAt record 4 8 = (elem s 527).identity ∧ (elem s 527).rebase = none ∧ leAt record 12 4 = (elem s 527).seq ∧
      leAt record 16 8 = (elem s 527).amount ∧ leAt record 24 8 = (elemTotal s 527 + (elem s 527).amount) % 2 ^ 64) ∧
    (let s := begin (inks headElem (flying 2)) (consTimeout solo)
     serving s = true ∧ (elem s 527).inFlight = true ∧ (elem s 527).rebase = none ∧ (elem s 527).sentAt + consTimeout s ≤ now s ∧
      (elem s 527).attempts < 3) ∧
    (let s := begin (inks headElem (flying 3)) (consTimeout solo)
     (elem s 527).sentAt + consTimeout s ≤ now s ∧ (elem s 527).attempts = 3 ∧ (0x0605, 527) ∉ s.print.raised) ∧
    (let s := begin (sealedS (inks headElem inkElem)) 0
     let e := secEntered s 4 0x1A 9
     secActs s 4 0x1A 9 true false 0 = true ∧ targetElem 1 15 = some 527 ∧ (elemHub e 527).isSome = true ∧ driving e = true ∧
      e.sec.rngFailed = false ∧ (elem e 527).inFlight = false ∧ (elem e 527).rebase = none) ∧
    (let s := begin (sealedS (inks { headElem with key := 526 } inkElem)) 0
     let e := secEntered s 4 0x1B 9
     secActs s 4 0x1B 9 true false 0 = true ∧ targetElem 1 15 = some 527 ∧ targetElem 1 14 = some 526 ∧ 527 ≠ 526 ∧
      (elem e 527).inFlight = false ∧ (elem e 527).rebase = none ∧ (elem e 526).inFlight = false ∧ (elem e 526).rebase = none ∧
      (elem e 527).seqFault = false ∧ elemPending e 526 + elemPending e 527 < 2 ^ 64) := by
  refine ⟨?_, ?_, ?_, ?_, ?_, ?_⟩ <;> decide +kernel

/-- Port 1 enabled, 8 pixels by 2 rows in one band, with its frames and the row trigger expected. -/
def camera (frames : List CamFrame) (expect : Option RowArm) : State :=
  let s := put (put (put (put solo Fld.CAM_CTRL_CAM_EN 1 1) Fld.CAM_CTRL_BANDS 1 0) Fld.CAM_GEOM_CAM_WIDTH 1 8) Fld.CAM_GEOM_CAM_ROWS 1 2
  setCam s 1 fun p => { p with frames := frames, expect := expect }

/-- A frame with n rows received. -/
def frameOf (n mark : Nat) (ended : Bool) : CamFrame := { got := n, rows := List.replicate n [List.replicate 8 0], mark := mark, ended := ended }

/-- A row trigger at time 0. -/
def armedRow : RowArm := ⟨0, 0, 0, 0, false⟩

theorem witness_FramesReceived :
    (banksOk solo = true ∧ 1 < (begin solo 0).vision.cams.length ∧ camOn (begin solo 0) 1 = false ∧
      receiving (cam (begin solo 0) 1) = none ∧ stickyOn (begin solo 0) Fld.CAM_STATUS_TRIG_FAULT 1 = false) ∧
    (let s := begin (camera [] (some armedRow)) 1000000
     camOn s 1 = true ∧ receiving (cam s 1) = none ∧ (cam s 1).expect = some armedRow ∧ s.vision.serving = none ∧
      armedRow.time + 1000000 ≤ now s) ∧
    (let s := begin (camera [frameOf 1 0 false] none) 0
     receiving (cam s 1) = some (frameOf 1 0 false) ∧ (frameOf 1 0 false).mark = 0 ∧ 0 < camBands s 1 ∧
      (List.replicate 8 0).length = fld s Fld.CAM_GEOM_CAM_WIDTH 1 ∧ 0 = (frameOf 1 0 false).cur.length ∧ overflows s 1 8 = false ∧
      camBands s 1 ≤ (frameOf 1 0 false).cur.length + 1 ∧ (frameOf 1 0 false).rows.length < fld s Fld.CAM_GEOM_CAM_ROWS 1 ∧
      (frameOf 1 0 false).got < fld s Fld.CAM_GEOM_CAM_ROWS 1 ∧
      ([] : List Nat).length ≠ fld s Fld.CAM_GEOM_CAM_WIDTH 1 ∧ 1 ≠ (frameOf 1 0 false).cur.length) ∧
    (let s := begin (put (camera [frameOf 1 0 false] none) Fld.CAM_CTRL_BANDS 1 3) 0
     receiving (cam s 1) = some (frameOf 1 0 false) ∧ (frameOf 1 0 false).cur.length + 1 < camBands s 1 ∧ 3 < camBands s 1) ∧
    (let s := begin (camera [frameOf 2 0 false] none) 0
     receiving (cam s 1) = some (frameOf 2 0 false) ∧ (frameOf 2 0 false).got = fld s Fld.CAM_GEOM_CAM_ROWS 1 ∧
      fld s Fld.CAM_GEOM_CAM_ROWS 1 ≤ (frameOf 2 0 false).rows.length) ∧
    (let s := begin (setCam (camera [frameOf 3 0 false] none) 1 fun p => { p with store := true }) 0
     receiving (cam s 1) = some (frameOf 3 0 false) ∧ fld s Fld.CAM_GEOM_CAM_ROWS 1 < (frameOf 3 0 false).got ∧
      (cam s 1).store = true ∧ fld s Fld.CAM_CTRL_STORE_FRAMES 1 ≠ 0) ∧
    stickyOn (begin (put solo Fld.CAM_STATUS_TRIG_FAULT 1 1) 0) Fld.CAM_STATUS_TRIG_FAULT 1 = true := by
  refine ⟨?_, ?_, ?_, ?_, ?_, ?_, ?_⟩ <;> decide +kernel

/-- The camera with a served frame, a control write, a ladder band placed that port 0 looks at. -/
def served (mark : Nat) : State :=
  let s := camera [frameOf 2 mark true] none
  { s with vision := { s.vision with serving := some 1 } }
def writing (retry : Bool) : State := setCam solo 1 fun p => { p with cci := [{ reg := 0x3500, value := 16, band := 3, retry := retry }] }
def laddered (s : State) : State :=
  let s := put (put { s with sets := { s.sets with active := headCfg } } Fld.CLP_SLOT_LADDER_EN 0 1) Fld.CAM_GEOM_CAM_WIDTH 0 1024
  { s with colour := { s.colour with bands := [(0, 8)] } }

/-- A scan of port 0 that found n dashes. -/
def scanOf (n : Nat) : LadderScan := ⟨0, (List.range n).map fun k => ⟨0, false, k, 100, 0⟩, []⟩

theorem witness_FramesProcessed :
    (banksOk (served 1) = true ∧
      (let s := begin (served 1) 0
       s.vision.serving = some 1 ∧ 1 < s.vision.cams.length ∧ (cam s 1).frames = [frameOf 2 1 true] ∧ (frameOf 2 1 true).ended = true ∧
        (frameOf 2 1 true).mark ≠ 0 ∧ (frameOf 2 1 true).mark ≠ 3 ∧ s.sys.st ≠ .printing)) ∧
    (let s := begin (put (served 0) Fld.CAM_CTRL_AE_EN 1 0) 0
     (cam s 1).frames = [frameOf 2 0 true] ∧ (frameOf 2 0 true).mark = 0 ∧ (frameOf 2 3 true).mark = 3 ∧
      fld s Fld.CLP_CTRL_CLP_EN = 0 ∧ fld s Fld.CAM_CTRL_AE_EN 1 = 0) ∧
    ((frameOf 2 0 true).mark = 0 ∧ (frameOf 2 0 true).ladder = false) ∧
    (((cam (begin (writing false) 0) 1).cci.find? fun x => !x.waits) = some { reg := 0x3500, value := 16, band := 3 } ∧
      1 < (begin (writing false) 0).vision.cams.length) ∧
    ((cam (begin (writing true) 0) 1).cci.find? fun x => !x.waits) = some { reg := 0x3500, value := 16, band := 3, retry := true } ∧
    (let s := begin (laddered solo) 0
     s.colour.bands ≠ [] ∧ ladderPasses s (keptScan s (scanOf 3)) = false) ∧
    (let s := begin (laddered rdy) 0
     s.colour.bands ≠ [] ∧ ladderPasses s (keptScan s (scanOf 4)) = true ∧ s.pair.role = .standby) := by
  refine ⟨?_, ?_, ?_, ?_, ?_, ?_, ?_⟩ <;> decide +kernel

/-- The registers of CAM.CONFIG: the reset values, with frames of 64 pixels by one row, ROW_STEP 2. -/
def camReset : List Nat := (camRegs.map fun r => bankReg solo.live r 0 0).set 1 (64 + 2 ^ 16 + 2 * 2 ^ 23)

/-- The image of a camera port's registers that CAM.CONFIG with these values leaves. -/
def configured (e : State) (values : List Nat) : Bank :=
  (List.range 8).foldl (fun b i => bankWrite b (regKey (nth camRegs i .CAM_CTRL) 1 0) (regDefined (nth camRegs i .CAM_CTRL) (nth values i 0))) e.live

theorem witness_CameraMessages :
    (∀ on : Bool, let e := entered (begin solo 0) 0 12 0x10 1
     let values := if on then camReset.set 0 (nth camReset 0 0 + 1) else camReset
     takes solo 0 12 0x10 1 true = true ∧ values.length = 8 ∧
      bitsOf (nth values 1 0) 0 16 * bitsOf (nth values 1 0) 16 7 * (bitsOf (nth values 0 0) 4 2 + 1) *
        (if bitsOf (nth values 0 0) 3 1 = 1 then 10 else 8) ≤ 8388608 ∧
      (∀ i, i < 8 → regValueOk (nth camRegs i .CAM_CTRL) (nth values i 0) = true) ∧
      coverageFits { e with live := configured e values } e.sets.active = true ∧ camOn e 1 = false ∧
      camOn { e with live := configured e values } 1 = on ∧ 1 < e.vision.cams.length) ∧
    ((∃ i, i < 8 ∧ regValueOk (nth camRegs i .CAM_CTRL) (nth (List.replicate 8 (2 ^ 31)) i 0) = false) ∧
      bitsOf (2 ^ 31) 0 16 * bitsOf (2 ^ 31) 16 7 * (bitsOf (2 ^ 31) 4 2 + 1) * 10 ≤ 8388608) ∧
    (takes solo 0 12 0x11 2 true = true ∧
      (let p : List Byte := [0, 2, 0, 0, 0, 0, 0, 0, 0, 1, 5, 0, 5, 0, 0, 0]
       p.length = 16 ∧ leAt p 1 1 = 2 ∧ leAt p 9 1 = 1 ∧ leAt p 10 2 ≤ leAt p 12 2) ∧
      1 < (entered (begin solo 0) 0 12 0x11 2).vision.cams.length) ∧
    (takes solo 3 12 0x12 3 false = true ∧ 1 < 2 ∧ 3 < 4 ∧ 56 ≤ 56 ∧ 200 + 56 ≤ 256) ∧
    (let s := setCam solo 1 fun p => { p with ring := [(7, [1, 2])] }
     let e := entered (begin s 0) 0 12 0x13 4
     takes s 0 12 0x13 4 false = true ∧ e.sys.ethernet = false ∧ (cam e 1).ring.find? (·.1 == 7) = some (7, [1, 2]) ∧
      ([1, 2] : List Byte).length ≤ ({ length := 2 } : DataRef).length ∧ (cam e 1).ring.find? (·.1 == 0) = none) := by
  refine ⟨?_, ?_, ?_, ?_, ?_⟩ <;> decide +kernel

/-- A job with ladder slots from line 100 on, every 1,000 lines. -/
def slots (job : Bool) : State :=
  let s := put (put { solo with sets := { solo.sets with active := headCfg } } Fld.CLP_LSLOT_LADDER_PERIOD 0 1000) Fld.CLP_LSLOT_LADDER_PHASE 0 100
  let s := put s Fld.CLP_SLOT_LADDER_EN 0 1
  if job then { s with sys := { s.sys with st := .armed }, job := { s.job with channels := 1, first := 101 } } else s

theorem witness_ColourLoop :
    (banksOk rdy = true ∧ throttle (begin rdy 0) < 2 ∧ (begin rdy 0).pair.role = .standby ∧ (begin rdy 0).colour.solving = none ∧
      ({ rdy.colour with solving := some [] } : ColourSt).solving = some [] ∧ (begin solo 0).pair.role ≠ .standby) ∧
    (takes solo 0 6 0x10 1 true = true ∧
      (liveFld (entered (begin (put solo Fld.CLP_FREEZE_FREEZE 0 6) 0) 0 6 0x10 1) Fld.CLP_FREEZE_FREEZE).testBit 2 = true) ∧
    (takes solo 0 6 0x11 2 true = true ∧ 3 < 4 ∧ (entered (begin solo 0) 0 6 0x11 2).vision.cams.length = 2) ∧
    (let e := entered (begin (slots false) 0) 0 6 0x12 3
     takes (slots false) 0 6 0x12 3 true = true ∧ nextSlot e.sets.active 1100 = some 1100 ∧ ladderLines e.sets.active ≠ 0 ∧ jobOn e = false) ∧
    (let e := entered (begin (slots true) 0) 0 6 0x12 3
     takes (slots true) 0 6 0x12 3 true = true ∧ nextSlot e.sets.active 100 = some 100 ∧ ladderLines e.sets.active ≠ 0 ∧ jobOn e = true ∧
      (100 : Int) < unrendered e ∧ unrendered e ≤ 1100) ∧
    (∀ eth : Bool, let s := { solo with sys := { solo.sys with ethernet := eth } }
     let e := entered (begin s 0) 0 6 0x13 4
     takes s 0 6 0x13 4 true = true ∧ e.sets.swap = none ∧ e.sys.ethernet = eth ∧ 15 < 16 ∧ 53246 + 2 ≤ 53248 ∧
      ({ bytes := [0, 0, 255, 255] } : DataRef).bytes.length = 2 * 2 ∧ 2 * 2 ≤ ({ length := 4 } : DataRef).length ∧
      ({ length := 4 } : DataRef).fail = 0) ∧
    (takes solo 0 6 0x14 5 false = true ∧ 112 ≤ 112 ∧ 15 < (if (2 : Nat) = 1 then 8 else 16) ∧ 7 < (if (1 : Nat) = 1 then 8 else 16)) := by
  refine ⟨?_, ?_, ?_, ?_, ?_, ?_, ?_⟩ <;> decide +kernel

/-- Axis 7 enabled, with limit inputs that are active when high, and homing as given. -/
def axis7 (h : Option Homing) : State :=
  let s := put (put (put (put (put solo Fld.MOT_CFG_AX_EN 7 1) Fld.MOT_CFG_LIM_NC 7 0) Fld.MOT_CFG_FLT_EN 7 1) Fld.MOT_PROFILE_VMAX 7 1000) Fld.MOT_GROUP_AXES 3 128
  setAxis s 7 fun m => { m with homing := h, limP := false, limN := false }

/-- A homing with an edge at time 0. -/
def homingOn (kind : Nat) : Homing := { kind := kind, start := 0, edge := some (0, 5) }

/-- Axis 7 moving up or down. -/
def travelling (s : State) (v : Rat) : State := setAxis s 7 fun m => { m with moving := true, v := v }

theorem witness_AxisInputs :
    (7 < (begin (axis7 none) 0).mot.axes.length ∧ banksOk (axis7 none) = true ∧ (axis (begin (axis7 none) 0) 7).homing = none) ∧
    (∀ many : Bool, let h := { homingOn 0 with edges := if many then List.replicate 8 0 else List.replicate 7 0 }
     let s := begin (axis7 (some h)) 0
     (axis s 7).homing = some h ∧ h.kind ≤ 1 ∧ h.stage = 0 ∧ actsOnInputs s = true ∧ s.mot.raised = [] ∧
      (decide (8 < (h.edges.filter (fun x => decide (now s ≤ x + 1000 * fld s Fld.MOT_HOME_HOME_DEBOUNCE 7)) ++ [now s]).length) = many)) ∧
    (∀ kind : Fin 2, let s := begin (axis7 (some (homingOn kind))) (1000 * fld solo Fld.MOT_HOME_HOME_DEBOUNCE 7)
     (axis s 7).homing = some (homingOn kind) ∧ (homingOn kind).edge = some (0, 5) ∧ (homingOn kind).stage = 0 ∧ actsOnInputs s = true ∧
      0 + 1000 * fld s Fld.MOT_HOME_HOME_DEBOUNCE 7 ≤ now s) ∧
    (let h := { homingOn 1 with stage := 1 }
     let s := begin (put (axis7 (some h)) Fld.MOT_HOME_INDEX_SRC 7 19) 0
     (axis s 7).homing = some h ∧ h.stage = 1 ∧ fld s Fld.MOT_HOME_INDEX_SRC 7 = 16 + (3 : Fin 16) ∧ actsOnInputs s = true) ∧
    (let s := begin (axis7 none) 0
     let v := setAxis s 7 fun m => { m with limP := true }
     limitActive s 7 true = false ∧ limitActive v 7 true = true ∧ actsOnInputs s = true ∧ axisDir (axis s 7) ≠ 1 ∧
      limitActive s 7 false = limitActive (setAxis s 7 fun m => { m with limN := false }) 7 false) ∧
    (let s := begin (travelling (axis7 none) 5) 0
     axisDir (axis s 7) = 1 ∧ limitActive s 7 false = false ∧ limitActive s 7 true = false) ∧
    (let s := begin (setAxis (axis7 none) 7 fun m => { m with limP := true }) 0
     limitActive s 7 true = true ∧ limitActive (setAxis s 7 fun m => { m with limP := false }) 7 true = false) ∧
    (fld (begin (axis7 none) 0) Fld.MOT_CFG_FLT_EN 7 ≠ 0 ∧ fld (begin (put solo Fld.MOT_CFG_FLT_EN 7 0) 0) Fld.MOT_CFG_FLT_EN 7 = 0 ∧
      actsOnInputs (begin follow 0) = false) := by
  refine ⟨?_, ?_, ?_, ?_, ?_, ?_, ?_, ?_⟩ <;> decide +kernel

theorem witness_MotionMessages :
    (let e := entered (begin (axis7 none) 0) 0 7 0x11 1
     banksOk (axis7 none) = true ∧ takes (axis7 none) 0 7 0x11 1 true = true ∧ 1000 ≤ liveFld e Fld.MOT_PROFILE_VMAX 7 ∧
      0 ≤ liveFld e Fld.MOT_PROFILE_AMAX 7 ∧ targetOk (axis e 7).x (2 ^ 47 - 1) = true ∧ targetOk (axis e 7).x (1 - 2 ^ 47) = true ∧
      enabledAsWritten e 7 = true ∧ groupOf e 7 = none ∧ faultBars e 7 = false ∧ limitActive e 7 true = false ∧
      limitActive e 7 false = false ∧ enabledAsWritten e 6 = false) ∧
    (let e := entered (begin (axis7 none) 0) 0 7 0x12 2
     let ns := (List.range 8).filter (liveFld e Fld.MOT_GROUP_AXES 3).testBit
     takes (axis7 none) 0 7 0x12 2 true = true ∧ ns = [7] ∧ (∀ i, i < ns.length → targetOk (axis e (nth ns i 0)).x (nth [5] i 0) = true) ∧
      (∀ n ∈ ns, enabledAsWritten e n = true ∧ axisMoves (axis e n) = false ∧ faultBars e n = false)) ∧
    (let s := put (put (axis7 none) Fld.MOT_STALL_STALL_EN 7 1) Fld.MOT_STALL_STALL_MIN_RATE 7 1000
     let e := entered (begin s 0) 0 7 0x13 3
     takes s 0 7 0x13 3 true = true ∧ liveFld e Fld.MOT_STALL_STALL_EN 7 ≠ 0 ∧
      liveFld e Fld.MOT_STALL_STALL_MIN_RATE 7 ≤ liveFld e Fld.MOT_HOME_HOME_SLOW 7 ∧ enabledAsWritten e 7 = true ∧
      groupOf e 7 = none ∧ faultBars e 7 = false) ∧
    (takes solo 0 7 0x14 4 true = true ∧ 255 < 256) ∧
    (takes solo 0 7 0x10 5 true = true ∧ fieldValueOk Fld.MOT_PROFILE_VMAX 2000000 = true ∧
      (∀ f ∈ regFields .MOT_STALL, fieldValueOk f (bitsOf (bankReg solo.live .MOT_STALL 7 0) f.lo f.width) = true) ∧
      (claimStall (entered (begin solo 0) 0 7 0x10 5)).isSome = true) ∧
    takes solo 0 7 0x15 6 false = true := by
  refine ⟨?_, ?_, ?_, ?_, ?_, ?_⟩ <;> decide +kernel

/-- A pair-capable unit at device time t, with the pairing state changed. -/
def paired (s : State) (f : PairSt → PairSt) : State := { s with pair := f s.pair }

theorem witness_PartnerPaths :
    (let s := begin (paired follow fun p => { p with peerUp := true, hbOk := true, hbLast := 1, peerLast := 0 }) 200000
     banksOk follow = true ∧ s.pair.capable = true ∧ s.pair.peerUp = true ∧ s.pair.peerLast + 200000 ≤ now s ∧ now s < s.pair.hbLast + 200000 ∧
      s.pair.role = .standby) ∧
    (let s := begin (paired follow fun p => { p with peerUp := true, hbOk := true, peerLast := 100001 }) 200000
     s.pair.hbOk = true ∧ s.pair.hbLast + 200000 ≤ now s ∧ now s < s.pair.peerLast + 100000) ∧
    (let s := begin (paired lead fun p => { p with peerUp := false, leaseUntil := 200000, cut := some 0 }) 200000
     s.pair.peerUp = false ∧ s.pair.role = .active ∧ s.pair.lease = true ∧ s.pair.partnerLost = false ∧ s.pair.ackAt + 200000 ≤ now s ∧
      s.pair.hbLast + 200000 ≤ now s ∧ s.pair.leaseUntil ≤ now s ∧ s.pair.cut = some 0 ∧ s.time.counter < 0 + 306000) ∧
    (let s := begin (paired lead fun p => { p with cut := some 0 }) 306000
     0 + 306000 ≤ s.time.counter ∧ serving s = true) ∧
    (let s := begin { (paired lead fun p => { p with cut := some 0 }) with sys := { lead.sys with st := .boot } } 306000
     s.pair.lease = true ∧ 0 + 306000 ≤ s.time.counter ∧ serving s = false) := by
  refine ⟨?_, ?_, ?_, ?_, ?_⟩ <;> decide +kernel

/-- A synchronised standby that has applied the record of pick 6. -/
def synced : State := paired follow fun p => { p with synced := true, lastRec := some 6, score := 255, partnerFound := true }

/-- A record in which nothing changed, of pick n. -/
def emptyRecord (n epoch : Nat) : PickRecord := { pick := n, epoch := epoch, leaseUntil := 0 }

/-- SET.DEFAULTS replied to and held for pick p. -/
def heldFlight (p : Nat) : Flight := { cls := 2, op := 0x12, tag := 1, reply := some ⟨2, 0x12, 1, 0, 0, false, false, []⟩, hold := some p }

theorem witness_PairRecords :
    (let s := flushUpdate (begin synced 0)
     banksOk synced = true ∧ peerTalks s = true ∧ s.pair.role = .standby ∧ s.pair.synced = true ∧ s.pair.stage = 0 ∧
      s.pair.lastRec = some 6 ∧ 6 < (emptyRecord 7 0).pick ∧ (emptyRecord 7 0).handover = none ∧
      (emptyRecord 7 0).parts = { steps := (emptyRecord 7 0).parts.steps } ∧ nth s.pair.partAt 5 0 ≤ 7 ∧ s.thm.tripped = false ∧
      s.pair.keyedRecs + 1 ≠ 2 ^ 31 ∧ throttle s < 3) ∧
    (let s := flushUpdate (begin (put lead Fld.PAIR_EPOCH_EPOCH 0 2) 0)
     peerTalks s = true ∧ s.pair.role = .active ∧ s.pair.degPeer = false ∧ (emptyRecord 0 1).epoch < liveFld s Fld.PAIR_EPOCH_EPOCH ∧
      s.pair.keyedRecs + 1 ≠ 2 ^ 31) ∧
    (5 < 6 ∧ 5 < (busyChan lead 5 [heldFlight 4]).host.chans.length ∧ heldFlight 4 ∈ (mbx (busyChan lead 5 [heldFlight 4]) 5).flight ∧
      (heldFlight 4).hold = some 4 ∧ 4 ≤ 4 ∧ (heldFlight 4).reply.isSome = true ∧ (heldFlight 4).drop = false) ∧
    (let s := begin (paired lead fun p => { p with sentRecs := [emptyRecord 4 0, emptyRecord 5 0] }) 0
     s.pair.sentRecs.filter (fun r => [4].contains r.pick && !r.flush) = [emptyRecord 4 0] ∧ s.thm.tripped = false ∧
      s.pair.keyedRecs + 1 < 2 ^ 31 ∧ peerTalks s = true ∧ s.pair.role = .active) ∧
    (let s := flushUpdate (begin (paired follow fun p => { p with stage := 4 }) 0)
     s.pair.role = .standby ∧ peerTalks s = true ∧ s.pair.stage = stageOf (.totals [] []) ∧ stageOf (.sets {}) = 1 ∧
      throttle (flushUpdate (begin (put follow Fld.THM_STATUS_LEVEL 0 3) 0)) = 3) ∧
    (let s := begin follow 0
     s.pair.capable = true ∧ serving s = true ∧ s.sys.st ≠ .recovery ∧ keyUsable s = true ∧ s.sec.rngFailed = false) := by
  refine ⟨?_, ?_, ?_, ?_, ?_, ?_⟩ <;> decide +kernel

theorem witness_TakingOver :
    (let s := flushUpdate (begin (paired synced fun p => { p with released := some 3 }) 0)
     banksOk synced = true ∧ s.pair.role = .standby ∧ s.pair.capable = true ∧ serving s = true ∧ takeoverReady s = true ∧ s.pair.released = some (2 + 1)) ∧
    (let s := flushUpdate (begin (paired synced fun p => { p with handover := some 0 }) 10000)
     takeoverReady s = true ∧ s.pair.released = none ∧ s.pair.handover = some 0 ∧ 0 = s.time.pick ∧ s.time.pickStart + 10000 ≤ now s) ∧
    (let s := flushUpdate (begin synced 200000)
     takeoverReady s = true ∧ s.pair.released = none ∧ s.pair.handover = none ∧ s.pair.partnerFound = true ∧
      s.pair.peerLast + 200000 ≤ now s ∧ s.pair.hbLast + 200000 ≤ now s ∧ s.pair.degPeer = false ∧ s.pair.recLease + 100000 < now s) ∧
    (let s := flushUpdate (begin follow 200000)
     takeoverReady s = false ∧ s.pair.refused = false ∧ ({ s.pair with released := some 1 } : PairSt).released = some (0 + 1) ∧
      s.pair.partnerFound = false) ∧
    (let s := begin (paired follow fun p => { p with joinFrom := some 0 }) (fld follow Fld.PAIR_CTRL_PAIR_JOIN_WAIT * 100000000)
     s.pair.joinFrom = some 0 ∧ s.pair.role = .standby ∧ s.pair.capable = true ∧ serving s = true ∧ s.pair.unitB = false ∧
      0 + fld s Fld.PAIR_CTRL_PAIR_JOIN_WAIT * 100000000 * 1 ≤ now s) ∧
    (liveFld follow Fld.PAIR_EPOCH_EPOCH < 2 ^ 32 - 1 ∧ follow.pair.seenEpoch < 2 ^ 32 - 1 ∧ follow.pair.recEpoch < 2 ^ 32 - 1 ∧
      ∀ h ∈ follow.link.hubs, h.epoch < 2 ^ 32 - 1) := by
  refine ⟨?_, ?_, ?_, ?_, ?_, ?_⟩ <;> decide +kernel

theorem witness_PairMessages :
    (banksOk lead = true ∧ takes lead 0 9 0x10 1 false = true) ∧
    (takes lead 0 9 0x11 1 true true = true ∧ (entered (begin lead 0) 0 9 0x11 1).pair.role ≠ .solo) ∧
    (let e := entered (begin lead 0) 0 9 0x12 1
     takes lead 0 9 0x12 1 true true = true ∧ e.pair.role = .active ∧ e.pair.lease = true ∧ e.pair.handover = none ∧ e.pair.partnerReady = false) ∧
    (let s := paired lead fun p => { p with partnerReady := true }
     takes s 0 9 0x12 1 true true = true ∧ (entered (begin s 0) 0 9 0x12 1).pair.partnerReady = true) ∧
    (takes follow 0 9 0x12 1 true true = true ∧ (entered (begin follow 0) 0 9 0x12 1).pair.role ≠ .active) ∧
    (takes follow 0 9 0x13 1 true true = true ∧ (entered (begin follow 0) 0 9 0x13 1).pair.role = .standby ∧ follow.thm.tripped = false ∧
      takes lead 0 9 0x13 1 true true = true ∧ (entered (begin lead 0) 0 9 0x13 1).pair.role = .active) ∧
    (takes lead 0 9 0x14 1 true true = true ∧ noted (entered (begin lead 0) 0 9 0x14 1) (regKey .PAIR_STATUS 0 0) 3 = false) ∧
    ((begin solo 0).pair.role = .solo ∧ takes solo 0 9 0x11 1 true true = true ∧ takes solo 0 9 0x12 1 true true = true ∧
      takes solo 0 9 0x13 1 true true = true ∧ takes solo 0 9 0x14 1 true true = true) := by
  refine ⟨?_, ?_, ?_, ?_, ?_, ?_, ?_, ?_⟩ <;> decide +kernel

/-- SYS.INFO as 16 bytes, with its own CRC or another, and a length field as given. -/
def header (len : Nat) (wrong : Bool) : List Byte :=
  let front := leBytes 2 len ++ leBytes 1 0x10 ++ leBytes 1 1 ++ leBytes 2 0 ++ leBytes 2 7
  let front := front ++ leBytes 4 0
  front ++ leBytes 4 (crc32c (front ++ leBytes 4 0) + if wrong then 1 else 0)

/-- Channel 0 with bytes in its inbound mailbox. -/
def inboxed (bs : List Byte) (pending : Bool) : State := setMbx solo 0 fun m => { m with inbox := bs, pending := pending }

theorem witness_Mailboxes :
    (banksOk solo = true ∧ barOpen (begin solo 0) = true ∧ 5 < (begin solo 0).host.chans.length ∧ mailboxAccess 252 4 = true ∧
      (mbx (begin solo 0) 5).pending = false) ∧
    (mbx (begin (inboxed [] true) 0) 0).pending = true ∧
    (let s := begin { solo with sys := { solo.sys with st := .boot } } 0
     barOpen s = true ∧ s.rst.both = false ∧ serving s = false) ∧
    (let s := begin (busyChan solo 0 ((List.range 5).map infoFlight)) 0
     s.rst.both = false ∧ serving s = true ∧ (mbx s 0).pending = false ∧ takesNow s 0 = true ∧ numbersSpent s 0 = false ∧
      5 ≤ outstanding (mbx s 0)) ∧
    (let s := begin (inboxed (header 241 false) false) 0
     outstanding (mbx s 0) < 5 ∧ payloadLimit 0 < leAt (mbx s 0).inbox 0 2) ∧
    (let s := begin (inboxed (header 0 true) false) 0
     leAt (mbx s 0).inbox 0 2 ≤ payloadLimit 0 ∧ crcMatches (mbx s 0).inbox = false) ∧
    (let s := begin (inboxed (header 0 false) false) 0
     let posted := setMbx s 0 fun m => { m with pending := true }
     crcMatches (mbx s 0).inbox = true ∧ takeCheck posted 0 (leAt (mbx s 0).inbox 3 1) (leAt (mbx s 0).inbox 2 1) (leAt (mbx s 0).inbox 6 2) true = 0) ∧
    (let r : Reply := ⟨1, 0x10, 7, 0, 0, false, false, []⟩
     let s (q : List Reply) : State := setMbx solo 0 fun m => { m with out := some r, queue := q }
     (mbx (begin (s [r]) 0) 0).queue = r :: [] ∧ (mbx (begin (s []) 0) 0).out = some r ∧ (mbx (begin (s []) 0) 0).queue = [] ∧
      (mbx (begin (s []) 0) 0).flight = []) ∧
    (begin solo 0).sys.ethernet = false := by
  refine ⟨?_, ?_, ?_, ?_, ?_, ?_, ?_, ?_, ?_⟩ <;> decide +kernel

/-- Lock n held by master m. -/
def locked (n m : Nat) : State := { solo with host := { solo.host with locks := solo.host.locks.set n (m + 1) } }

theorem witness_LockReads :
    ((5 : Fin 6).val = 5 ∧ (begin solo 0).sec.scopes.testBit 1 = false) ∧
    (24 ≤ (24 : Fin 32).val ∧ 2 ≤ (2 : Fin 6).val) ∧
    ((23 : Fin 32).val < 24 ∧ nth (begin (locked 23 4) 0).host.locks 23 0 ≠ 0) ∧
    ((1 : Fin 6).val < 2 ∧ nth (begin solo 0).host.locks 31 0 = 0 ∧ 31 < (begin solo 0).host.locks.length) := by decide +kernel

theorem witness_LockRelease :
    nth (begin (locked 31 0) 0).host.locks 31 0 = 0 + 1 ∧ nth (begin (locked 31 0) 0).host.locks 31 0 ≠ 1 + 1 := by decide +kernel

/-- A register's REG_ID (R407). -/
def idOf (r : Reg) (i : Nat) : Nat := (regInfo r).code * 2 ^ 24 + (regInfo r).num * 2 ^ 12 + i

theorem witness_RegisterAccess :
    (banksOk solo = true ∧ (0 + 2 ^ 32 - (2 ^ 32 - 64) % 2 ^ 32) % 2 ^ 32 ≤ 64 ∧ (begin solo 0).host.evHead = 0 ∧
      64 < (0 + 2 ^ 32 - (2 ^ 32 - 65) % 2 ^ 32) % 2 ^ 32 ∧ barOpen (flushUpdate (begin solo 0)) = true ∧
      noted (flushUpdate (begin solo 0)) (regKey .DB_D2H_STATUS 0 0) 18 = false ∧
      noted (doorbell (begin solo 0) 18) (regKey .DB_D2H_STATUS 0 0) 18 = true) ∧
    (regOfId (bitsOf (idOf .TIM_TRIG_TIME 7) 24 8) (bitsOf (idOf .TIM_TRIG_TIME 7) 12 12) = some .TIM_TRIG_TIME ∧
      bitsOf (idOf .TIM_TRIG_TIME 7) 0 12 < (regInfo .TIM_TRIG_TIME).count ∧ 0 < (regInfo .TIM_TRIG_TIME).elems ∧
      0 < (regInfo .TIM_TRIG_TIME).width ∧ takes solo 0 8 1 1 false true = true) ∧
    (let e := entered (begin solo 0) 0 8 1 1
     let id := idOf .TIM_TRIG_TIME 7
     (readWords e (bitsOf id 24 8) (bitsOf id 12 12) (bitsOf id 0 12) 0 0 0 (hostMaster e.sys.ethernet) 2).isSome = true ∧
      readWords e 255 0 0 0 0 0 (hostMaster e.sys.ethernet) 1 = none) ∧
    (let id := idOf .CLP_FREEZE 0
     let e := entered (begin solo 0) 0 6 2 1
     takes solo 0 6 2 1 true (standbyTakes 6 id) = true ∧ regOfId (bitsOf id 24 8) (bitsOf id 12 12) = some .CLP_FREEZE ∧
      writeClass (regInfo .CLP_FREEZE).wclass = some 6 ∧ 255 &&& accessMask .CLP_FREEZE .rw = 255 ∧ 255 &&& accessMask .CLP_FREEZE .w1c = 0 ∧
      (regInfo .CLP_FREEZE).isSet = false ∧ (regInfo .CLP_FREEZE).wclass = .clp ∧
      editOk .CLP_FREEZE (bankReg e.live .CLP_FREEZE 0 0) ⟨0, 0, 3, 255⟩ = true) ∧
    (let id := idOf .POS_BAR 15
     let e := entered (begin solo 0) 0 2 2 1
     takes solo 0 2 2 1 true (standbyTakes 2 id) = true ∧ regOfId (bitsOf id 24 8) (bitsOf id 12 12) = some .POS_BAR ∧
      bitsOf id 0 12 < (regInfo .POS_BAR).count ∧ 0 < (regInfo .POS_BAR).elems ∧ writeClass (regInfo .POS_BAR).wclass = some 2 ∧
      255 &&& accessMask .POS_BAR .rw = 255 ∧ 255 &&& accessMask .POS_BAR .w1c = 0 ∧ (regInfo .POS_BAR).isSet = true ∧
      editOk .POS_BAR (bankReg e.sets.shadow.regs .POS_BAR 15 0) ⟨15, 0, 3, 255⟩ = true ∧ e.sets.swap = none) ∧
    regOfId (bitsOf 0xFF000000 24 8) (bitsOf 0xFF000000 12 12) = none := by
  refine ⟨?_, ?_, ?_, ?_, ?_, ?_⟩ <;> decide +kernel

/-- A unit on Ethernet, with a session open from source 1, message 8 of N0 taken, a transfer, and a reply to be released. -/
def ether : State := { solo with sys := { solo.sys with ethernet := true } }
def sess : Session := { source := 1, udp := 2, port := 0, num := 1, last := 0, taken := [(0, 8)], notify := some 0 }
def xfer : Transfer := { num := 3, length := 131072, data := [1, 2], ackedAt := 0 }
def inTouch : State :=
  setMbx { ether with host := { ether.host with session := some sess, transfers := [xfer] } } 0 fun m =>
    { m with out := some ⟨1, 0x10, 7, 0, 0, false, false, []⟩ }

/-- An ingest that the transfer brings. -/
def fetching (s : State) : State := { s with store := { s.store with ingests := [{ ingest false [] with transfer := some 3 }] } }

/-- A datagram of that session. -/
def gram (seq : Nat) : Dgram := ⟨1, 2, 0, 1, seq⟩

theorem witness_EthernetSession :
    (let s := begin ether 0
     banksOk ether = true ∧ s.sys.ethernet = true ∧ serving s = true ∧ s.host.session = none ∧ inSession s (gram 0) = false ∧
      inSession (flushUpdate s) (gram 0) = false) ∧
    (let s := begin inTouch 1999999999
     s.host.session = some sess ∧ sess.source ≠ 2 ∧ now s < sess.last + 2000000000) ∧
    sess.last + 2000000000 ≤ now (begin inTouch 2000000000) ∧
    (let s := begin inTouch 0
     inSession s (gram 9) = true ∧ (0, (gram 9).seq) ∉ sess.taken ∧ s.rst.both = false ∧ (mbx s 0).pending = false ∧
      (0, (gram 8).seq) ∈ sess.taken ∧ (outBytes (mbx s 0) 0).isSome = true ∧ inSession (flushUpdate s) (gram 8) = true) ∧
    (let s := begin inTouch 0
     s.host.transfers.find? (·.num == 3) = some xfer ∧ xfer.data.length < 3 ∧ 2 ≤ xfer.data.length ∧
      ((xfer.data ++ List.drop (xfer.data.length - 2) []).take xfer.length).length < xfer.ackedAt + 65536 ∧ ackWithheld s 3 = false) ∧
    ackWithheld (begin (put (fetching inTouch) Fld.THM_STATUS_LEVEL 0 4) 0) 3 = true ∧
    ((let s := begin inTouch 1000000
      s.host.transfers = [xfer] ∧ xfer.ackedAt < xfer.data.length ∧ xfer.lastAck + 1000000 ≤ now s) ∧
      now (begin inTouch 999999) < xfer.lastAck + 1000000) ∧
    sess.notify.isSome = true := by
  refine ⟨?_, ?_, ?_, ?_, ?_, ?_, ?_, ?_⟩ <;> decide +kernel

/-- SOLO with its sets changed. -/
def setsAs (f : SetsSt → SetsSt) : State := { solo with sets := f solo.sets }

/-- A swap waiting for line 9. -/
def swapping : State := setsAs fun x => { x with validated := true, swap := some { point := 1, line := 9, whole := false } }

/-- A job on channel 0 whose next line to render is 5, in a state. -/
def jobIn (st : SysSt) (f : SetsSt → SetsSt) : State :=
  let s := printing { render := 5, next := 5 }
  { s with sys := { s.sys with st := st }, sets := f s.sets }

/-- A unit whose shadow set has a tile of 128 by 128 pixels (FAIL 20), or head 0 with a hub that is not enabled (FAIL 19). -/
def badTile : State := setsAs fun x => { x with shadow := { x.shadow with
  regs := bankSet (bankSet x.shadow.regs Fld.WFT_SCREEN_TILE_W 0 128 0) Fld.WFT_SCREEN_TILE_H 0 128 0 } }
def badHub : State := setsAs fun x => { x with shadow := headCfg }

/-- The code with which the shadow set's reed table fails, and that of the first check after it. -/
def reedCode (e : State) : Option Nat :=
  match buildReed e.sets.shadow (hubEnabled e) with
  | .error f => some f.code
  | .ok _ => none
def laterCode (e : State) : Option (Option Nat) :=
  match buildReed e.sets.shadow (hubEnabled e) with
  | .error _ => none
  | .ok es => some ((failOf e { e.sets.shadow with reed := es }).map (·.code))

theorem witness_SetMessages :
    (takes swapping 0 2 0x10 1 true = true ∧ (entered (begin swapping 0) 0 2 0x10 1).sets.swap.isSome = true) ∧
    (takes solo 0 2 0x10 1 true = true ∧ (entered (begin solo 0) 0 2 0x10 1).sets.swap = none ∧ tableSize 5 0 = none ∧
      tableSize 1 15 = some 256 ∧ 256 < 33 + 224 ∧ 32 + 224 ≤ 256 ∧ (List.replicate 224 (0 : Byte)).length = 224 ∧
      bankWf (entered (begin solo 0) 0 2 0x10 1).sets.shadow.regs = true) ∧
    (takes solo 0 2 0x11 1 true = true ∧ takes solo 0 2 0x12 1 true = true ∧ takes swapping 0 2 0x13 1 true = true ∧
      (entered (begin swapping 0) 0 2 0x13 1).sets.swap.isSome = true) ∧
    (let e := entered (begin badHub 0) 0 2 0x13 1
     takes badHub 0 2 0x13 1 true = true ∧ e.sets.swap = none ∧
      reedCode e = some 19) ∧
    (let e := entered (begin badTile 0) 0 2 0x13 1
     takes badTile 0 2 0x13 1 true = true ∧ e.sets.swap = none ∧
      laterCode e = some (some 20)) ∧
    (let e := entered (begin solo 0) 0 2 0x13 1
     takes solo 0 2 0x13 1 true = true ∧
      laterCode e = some none) ∧
    (let s := setsAs fun x => { x with validated := true }
     let e := entered (begin s 0) 0 2 0x14 1
     takes s 0 2 0x14 1 true = true ∧ passMode e = false ∧ e.sets.swap = none ∧ e.sets.validated = true ∧ jobOn e = false) ∧
    (let s := jobIn .armed fun x => { x with validated := true }
     let e := entered (begin s 0) 0 2 0x14 1
     takes s 0 2 0x14 1 true = true ∧ passMode e = false ∧ e.sets.swap = none ∧ e.sets.validated = true ∧ jobOn e = true ∧
      (4 : Int) < unrendered e ∧ unrendered e ≤ 5) ∧
    (takes solo 0 2 0x15 1 true = true ∧ (entered (begin solo 0) 0 2 0x15 1).sets.swap = none ∧ takes swapping 0 2 0x15 1 true = true ∧
      (entered (begin swapping 0) 0 2 0x15 1).sets.swap = some { point := 1, line := 9, whole := false } ∧
      swapUntouched { point := 1, line := 9, whole := false } = true ∧
      swapUntouched { point := 1, line := 9, whole := false, timeDone := true } = false ∧ takes solo 0 2 0x16 1 false = true) := by
  refine ⟨?_, ?_, ?_, ?_, ?_, ?_, ?_, ?_, ?_⟩ <;> decide +kernel

/-- A placement record of head 511. -/
def place511 : PlaceMsg := ⟨511, 23, 31, 63, 0, 0xFF, 3, 0, 0, 7, 0, 15⟩

theorem witness_HeadMessages :
    (takes solo 0 5 0x10 1 true = true ∧ takes solo 0 5 0x11 1 true = true ∧ takes solo 0 5 0x12 1 true = true ∧
      takes solo 0 5 0x13 1 true = true ∧ takes solo 0 5 0x14 1 true = true) ∧
    ((placement place511).isSome = true ∧ placement { place511 with head := 512 } = none) ∧
    (15 < 16 ∧ 1 < 2 ∧ 23 < 24 ∧ 15 < 16 ∧ bankWf (entered (begin solo 0) 0 5 0x13 1).sets.shadow.regs = true) ∧
    (4096 < 4096 + 1 ∧ 511 < 512 ∧ 0 < 4096 ∧ 0 + 4096 ≤ 4096) := by
  refine ⟨?_, ?_, ?_, ?_⟩ <;> decide +kernel

/-- JOB.START of the stored image on channel 0, or with another format. -/
def start1 : JobParams := { channels := 1, images := [1] }

theorem witness_JobMessages :
    (let s := jobIn .armed id
     let e := entered (flushUpdate (begin s 0)) 0 4 0x10 1
     acts (flushUpdate (begin s 0)) 0 4 0x10 1 true false = true ∧ e.sys.st ≠ .ready) ∧
    (let s0 := flushUpdate (begin (stored false) 0)
     let e := entered s0 0 4 0x10 1
     acts s0 0 4 0x10 1 true false = true ∧ e.sys.st = .ready ∧ e.sets.swap = none ∧ (2 ^ 16) % 2 ^ 16 = 0 ∧
      paramsBad { start1 with channels := 0x8000 } = false ∧ (jobChans { start1 with channels := 0x8000 }).find? (imageBad e { start1 with channels := 0x8000 }) = some 15 ∧
      startFails e start1 = none ∧ (startFails e { start1 with channels := 0 }).isSome = true) ∧
    (let e := entered (flushUpdate (begin (jobIn .printing id) 0)) 0 4 0x11 1
     acts (flushUpdate (begin (jobIn .printing id) 0)) 0 4 0x11 1 true false = true ∧ e.sys.st = .printing ∧ passMode e = false ∧
      acts (flushUpdate (begin solo 0)) 0 4 0x11 1 true false = true ∧ (entered (flushUpdate (begin solo 0)) 0 4 0x11 1).sys.st ≠ .printing) ∧
    (let s := jobIn .paused id
     let e := entered (flushUpdate (begin s 0)) 0 4 0x12 1
     acts (flushUpdate (begin s 0)) 0 4 0x12 1 true false = true ∧ e.sys.st = .paused ∧ 0 ≤ resumeShift e 0 ∧
      resumeShift { e with job := { e.job with pauseAt := some 7 } } 0 < 0 ∧
      acts (flushUpdate (begin solo 0)) 0 4 0x12 1 true false = true ∧ (entered (flushUpdate (begin solo 0)) 0 4 0x12 1).sys.st ≠ .paused) ∧
    (let e := entered (flushUpdate (begin (jobIn .printing id) 0)) 0 4 0x13 1
     acts (flushUpdate (begin (jobIn .printing id) 0)) 0 4 0x13 1 true false = true ∧ jobOn e = true ∧ passMode e = false ∧ e.sys.st = .printing ∧
      jobOn (entered (flushUpdate (begin solo 0)) 0 4 0x13 1) = false ∧ (entered (flushUpdate (begin (jobIn .armed id) 0)) 0 4 0x13 1).sys.st = .armed) ∧
    (acts (flushUpdate (begin solo 0)) 0 4 0x14 1 false false = true ∧ takes solo 0 1 0x12 1 true = true ∧ solo.sys.st = .ready ∧
      takes solo 0 1 0x13 1 true = true) := by
  refine ⟨?_, ?_, ?_, ?_, ?_, ?_⟩ <;> decide +kernel

theorem witness_SystemMessages :
    (banksOk solo = true ∧ takes solo 0 1 0x10 1 false = true ∧ acts (flushUpdate (begin solo 0)) 0 1 0x11 1 false false = true) ∧
    (takes solo 0 1 0x14 1 true = true ∧ takes solo 0 10 0x12 1 false true = true) ∧
    (takes solo 0 10 0x13 1 true true = true ∧ jobOn (entered (begin solo 0) 0 10 0x13 1) = false ∧
      takes (jobIn .armed id) 0 10 0x13 1 true true = true ∧ jobOn (entered (begin (jobIn .armed id) 0) 0 10 0x13 1) = true) ∧
    (let s := { solo with sys := { solo.sys with st := .recovery } }
     takes s 0 10 0x13 1 true true = true ∧ (entered (begin s 0) 0 10 0x13 1).sys.st = .recovery) ∧
    (takes solo 0 11 0x10 1 false true = true ∧ takes solo 3 11 0x11 1 false true = true ∧ takes (sealedS solo) 4 11 0x11 1 false true = true ∧
      takes solo 0 11 0x12 1 true true = true ∧ (3 : Fin 6).val < 4 ∧ 4 ≤ (4 : Fin 6).val) := by
  refine ⟨?_, ?_, ?_, ?_, ?_⟩ <;> decide +kernel

/-- SOLO with S0's session as given, and its channel under keys or not. -/
def session (x : SecSession) (keyed : Bool) : State :=
  setMbx { solo with sec := { solo.sec with sessions := [x, {}] } } 4 fun m => { m with secure := keyed }

/-- A message of class SEC on S0 acted on at device time 0. -/
def secTakes (s : State) (op : Nat) (sub : Nat := 0) : Bool := secActs (begin s 0) 4 op 1 false true sub

theorem witness_SecureSessions :
    (banksOk solo = true ∧ secTakes solo 0x10 = true ∧ secTakes solo 0x11 = true ∧ (secSession (secEntered (begin solo 0) 4 0x11 1) 4).stage ≠ 3) ∧
    (let e := secEntered (begin solo 0) 4 0x12 1
     secTakes solo 0x12 = true ∧ (List.replicate 49 (0 : Byte)).length = 49 ∧ (List.replicate 32 (0 : Byte)).length = 32 ∧
      (secSession e 4).stage ≠ 2 ∧ lockedOut e = false ∧ e.sec.scopes = 0 ∧ e.sec.rngFailed = false ∧ 4 - 4 < e.sec.sessions.length) ∧
    (let s := { solo with sec := { solo.sec with rngFailed := true } }
     secTakes s 0x12 = true ∧ (secEntered (begin s 0) 4 0x12 1).sec.rngFailed = true) ∧
    (let s := session { stage := 2, role := 4 } true
     secTakes s 0x12 = true ∧ (secSession (secEntered (begin s 0) 4 0x12 1) 4).stage = 2 ∧ secTakes s 0x15 = true) ∧
    (let e := secEntered (begin (session { stage := 1 } false) 0) 4 0x13 1
     secTakes (session { stage := 1 } false) 0x13 = true ∧ (secSession e 4).stage = 1 ∧ 0 < 4096 ∧ 220 ≤ 220 ∧
      secTakes solo 0x13 = true ∧ (secSession (secEntered (begin solo 0) 4 0x13 1) 4).stage ≠ 1) ∧
    (let s := session { stage := 1, chain := [1, 2], total := 3 } false
     let e := secEntered (begin s 0) 4 0x13 1
     secTakes s 0x13 = true ∧ (secSession e 4).stage = 1 ∧ 2 = (secSession e 4).chain.length ∧ 3 = (secSession e 4).total ∧ 2 + 1 ≤ 3 ∧
      1 ≠ (secSession e 4).chain.length) ∧
    (let s := session { stage := 1, chain := [1, 2], total := 2 } false
     let e := secEntered (begin s 0) 4 0x14 1
     secTakes s 0x14 = true ∧ (secSession e 4).stage = 1 ∧ (secSession e 4).chain ≠ [] ∧
      (secSession e 4).chain.length = (secSession e 4).total ∧ 4 < e.host.chans.length ∧ secTakes solo 0x14 = true) ∧
    (let w := session { stage := 2, role := 4 } true
     4 ≤ 4 ∧ 4 - 4 < w.sec.sessions.length ∧ 4 < w.host.chans.length ∧ (secSession w 4).stage = 2 ∧ (2 : Nat) ≠ 1) ∧
    ((let s := begin (session { stage := 1 } false) 10000000000
      serving s = true ∧ (secSession s 4).stage = 1 ∧ (secSession s 4).openedAt + 10000000000 ≤ now s) ∧
      now (begin (session { stage := 1 } false) 9999999999) < 0 + 10000000000 ∧
      (let s := begin (session { stage := 2 } true) (liveFld solo Fld.SEC_CTRL_SESSION_IDLE * 1000000000)
       (secSession s 4).last + liveFld s Fld.SEC_CTRL_SESSION_IDLE * 1000000000 ≤ now s)) := by
  refine ⟨?_, ?_, ?_, ?_, ?_, ?_, ?_, ?_, ?_⟩ <;> decide +kernel

/-- An OFFICER session on S0, with the security state changed. -/
def officer (f : SecSt → SecSt) : State := let s := session { stage := 2, role := 4 } true; { s with sec := f s.sec }

theorem witness_FirmwareAndTrust :
    (let e := secEntered (begin (officer id) 0) 4 0x16 1
     banksOk (officer id) = true ∧ secTakes (officer id) 0x16 = true ∧ 0 = liveFld e Fld.SEC_STATUS_RUNNING_SLOT ∧
      1 ≠ liveFld e Fld.SEC_STATUS_RUNNING_SLOT ∧ e.sec.load = none ∧ e.sys.ethernet = false ∧ e.rst.both = false ∧ 1 < e.sec.slots.length) ∧
    (let s := officer fun x => { x with load := some ⟨4, 9, 1, 3⟩ }
     secTakes s 0x16 = true ∧ (secEntered (begin s 0) 4 0x16 1).sec.load.isSome = true) ∧
    (let big : DataRef := { bytes := List.replicate 24 0xFF, length := 24 }
     66060032 < leAt (refBytes big) 16 8) ∧
    (let e := secEntered (begin (officer id) 0) 4 0x17 1
     secTakes (officer id) 0x17 = true ∧ slotValid e 0 = true ∧ slotValid e 1 = false) ∧
    (secTakes (officer id) 0x18 = true ∧ (runningSlot (secEntered (begin (officer id) 0) 4 0x18 1)).rollback < 2 ^ 7) ∧
    (secTakes (officer id) 0x19 2 = true ∧ (List.replicate 218 (0 : Byte)).length = 218 ∧ secTakes (officer id) 0x19 1 = true ∧
      (secEntered (begin (officer id) 0) 4 0x19 1).sec.part = none ∧ secTakes (officer id) 0x19 3 = true) := by
  refine ⟨?_, ?_, ?_, ?_, ?_, ?_⟩ <;> decide +kernel

theorem witness_SecurityControl :
    (banksOk (officer id) = true ∧ secTakes (officer id) 0x1C = true ∧
      noted (secEntered (begin (officer id) 0) 4 0x1C 1) (regKey .SEC_STATUS 0 0) 3 = false ∧ secTakes (officer id) 0x1D 1 = true ∧
      (secEntered (begin (officer id) 0) 4 0x1D 1).sec.rngFailed = false) ∧
    (let s := officer fun x => { x with rngFailed := true }
     secTakes s 0x1D 1 = true ∧ (secEntered (begin s 0) 4 0x1D 1).sec.rngFailed = true) ∧
    (let s := put (officer fun x => { x with challenge := some (7, 0) }) Fld.SEC_CTRL_CERT_MODE 0 0
     let e := secEntered (begin s 0) 4 0x1D 1
     secTakes s 0x1D 2 = true ∧ liveFld e Fld.SEC_CTRL_CERT_MODE = 0 ∧ e.sec.challenge = some (7, 0) ∧
      ({ e.sec with challenge := none } : SecSt).challenge = none) ∧
    (let s := put (officer id) Fld.SEC_CTRL_CERT_MODE 0 1
     secTakes s 0x1D 2 = true ∧ liveFld (secEntered (begin s 0) 4 0x1D 1) Fld.SEC_CTRL_CERT_MODE = 1) ∧
    (let s := officer fun x => { x with audit := [⟨1, 0, 0x0C80, 0, 0, 0, 0, 0, 0⟩] }
     let e := secEntered (begin s 0) 4 0x1E 1
     secTakes s 0x1E 1 = true ∧ secTakes s 0x1E 2 = true ∧ e.sec.scopes = 0 ∧ e.sec.audit.getLast?.isSome = true ∧ secTakes s 0x1E 3 = true ∧
      0 ≤ liveFld e Fld.SEC_AUDIT_NEWEST_SEQ ∧ liveFld e Fld.SEC_AUDIT_NEWEST_SEQ < 1) ∧
    (let s := officer fun x => { x with scopes := 1 }
     secTakes s 0x1E 2 = true ∧ (secEntered (begin s 0) 4 0x1E 1).sec.scopes ≠ 0 ∧ (begin s 0).sec.scopes.testBit 0 = true) ∧
    (serving (begin solo 0) = true ∧ fld (begin solo 0) Fld.SEC_CTRL_GLITCH_EN ≠ 0 ∧ (begin follow 0).pair.capable = true ∧
      (begin follow 0).thm.tripped = false ∧
      lockedOut (endSecure (endSecure (abandonSetup (abandonSetup (begin solo 0) 4) 5) 4 6) 5 6) = false) := by
  refine ⟨?_, ?_, ?_, ?_, ?_, ?_, ?_⟩ <;> decide +kernel

/-- The unit in a device state. -/
def at_ (st : SysSt) (s : State := solo) : State := { s with sys := { s.sys with st := st } }

theorem witness_Resets :
    (banksOk (at_ .off) = true ∧ (begin (at_ .off) 0).sys.st = .off ∧ (begin solo 0).sys.st ≠ .off ∧ (begin solo 0).sys.st ≠ .reset ∧
      (begin solo 0).rst.restart = none ∧ (begin (at_ .reset) 0).sys.st = .reset) ∧
    (999 < 1000 ∧ 1499 < 1500 ∧ 1500 ≤ 1500 ∧ 1000 ≤ 1000) ∧
    (let s := begin { solo with rst := { solo.rst with restart := some (0, 7, 0) } } 10000000
     restartDue s = true ∧ s.sys.st ≠ .off ∧ s.sys.st ≠ .reset) ∧
    (let s := { at_ .reset with rst := { (at_ .reset).rst with free := 9 } }
     (begin s 9).rst.free ≤ (begin s 9).time.counter ∧ (begin s 8).time.counter < (begin s 8).rst.free) ∧
    (takes solo 0 1 2 1 true true = true ∧ jobOn (entered (begin solo 0) 0 1 2 1) = false ∧
      (entered (begin solo 0) 0 1 2 1).sys.st ≠ .recovery ∧ takes (jobIn .armed id) 0 1 2 1 true true = true ∧
      jobOn (entered (begin (jobIn .armed id) 0) 0 1 2 1) = true) ∧
    (let s := { solo with rst := { solo.rst with armedAt := some 1 } }
     (begin s 0).rst.armedAt = some 1 ∧ now (begin s 10000000000) < 1 + 10000000000 ∧ 1 + 10000000000 ≤ now (begin s 10000000001)) := by
  refine ⟨?_, ?_, ?_, ?_, ?_, ?_⟩ <;> decide +kernel

theorem witness_Starts :
    ((begin solo 0).sys.st ≠ .boot ∧ (begin State.reset 0).sys.st = .boot) ∧
    (({ clock := false } : StartInfo).clock = false ∧ ({} : StartInfo).clock = true ∧ 3 ≤ ({ fuseFails := 3 } : StartInfo).fuseFails) ∧
    (now (begin State.reset 4999999999) < 5000000000 ∧ 5000000000 ≤ now (begin State.reset 5000000000)) := by decide +kernel

theorem witness_FatalFaults :
    (banksOk solo = true ∧ serving (begin State.reset 0) = false ∧ serving (begin solo 0) = true ∧ (begin solo 0).pair.role = .solo) ∧
    ((3 : Fin 5).val = 3 ∧ serving (begin lead 0) = true ∧ (begin lead 0).pair.role ≠ .solo ∧ (begin lead 0).pair.role = .active) ∧
    (begin solo 0).host.logged ≤ (begin solo 0).host.queued.length := by decide +kernel

/-- SOLO with its supply state changed. -/
def supplied (f : PwrSt → PwrSt) : State := { solo with pwr := f solo.pwr }

theorem witness_SupplyWarnings :
    (banksOk solo = true ∧ (begin (at_ .off) 0).sys.st = .off ∧ (begin (supplied fun x => { x with warning := true }) 0).pwr.warning = true) ∧
    (let s := begin (supplied fun x => { x with warnEnd := some 5 }) 100005
     s.sys.st ≠ .off ∧ s.pwr.warning = false ∧ s.pwr.warnEnd = some 5 ∧ (s.time.counter : Int) ≤ 5 + 100000) ∧
    (let s := begin (supplied fun x => { x with warnEnd := some 5 }) 100006
     s.sys.st ≠ .off ∧ s.sys.st ≠ .reset ∧ s.pwr.warning = false ∧ (5 : Int) + 100000 < (s.time.counter : Int)) ∧
    (let s := begin (supplied fun x => { x with warning := true, warnFrom := 7 }) 10000007
     s.pwr.warning = true ∧ s.sys.st ≠ .reset ∧ s.pwr.stopped = false ∧ s.pwr.warnFrom + 10000000 ≤ (s.time.counter : Int) ∧ serving s = true) ∧
    ((begin solo 0).pwr.warning = false ∧ barOpen (begin solo 0) = true ∧ barOpen (begin (at_ .reset) 0) = false ∧ (begin solo 0).sys.st ≠ .off) := by
  refine ⟨?_, ?_, ?_, ?_, ?_⟩ <;> decide +kernel

theorem witness_OutputFaults :
    (let s := begin (put solo Fld.PWR_CTRL_VENC_EN 0 1) 0
     banksOk solo = true ∧ vencOn s = true ∧ s.pwr.folded = none ∧ barOpen s = true ∧ drivenOut s 2 = true ∧ 2 ∉ s.pwr.shorts ∧
      serving s = true ∧ s.pwr.fed = false) ∧
    (let s := put (supplied fun x => { x with folded := some 4 }) Fld.PWR_CTRL_VENC_EN 0 1
     (begin s 0).pwr.folded = some 4 ∧ ((begin s 100000003).time.counter : Int) < 4 + 100000000 ∧
      (4 : Int) + 100000000 ≤ ((begin s 100000004).time.counter : Int) ∧ vencOn (begin s 100000004) = true) ∧
    (5300 ≤ 5300 ∧ 5300 < 5301 ∧ (begin (at_ .reset) 0).pwr.fed = false ∧ (begin (at_ .reset) 0).sys.st = .reset ∧
      (begin (supplied fun x => { x with fed := true }) 0).pwr.fed = true) := by
  refine ⟨?_, ?_, ?_⟩ <;> decide +kernel

/-- SOLO with one sensor changed. -/
def sensed (k : Nat) (f : Sensor → Sensor) : State := { solo with thm := { solo.thm with sensors := upd solo.thm.sensors k f } }

theorem witness_Temperature :
    (let s := begin solo 0
     banksOk solo = true ∧ barOpen s = true ∧ watched 0 = true ∧ (sensor s 0).excluded = false ∧ (984 : Int) ≤ 984 ∧ s.thm.tripped = false ∧
      (983 : Int) < 984 ∧ serving solo = true ∧
      ({ solo.thm with tripNote := some (3, 984) } : ThmSt).tripNote = some (3, 984) ∧ serving (at_ .boot) = false) ∧
    (let s := { put solo Fld.THM_STATUS_LEVEL 0 1 with thm := { solo.thm with below := 2 ^ 16 } }
     throttle (begin s 0) ≠ 0 ∧ fld (begin s 0) Fld.THM_HOLD_THROTTLE_HOLD ≤ (begin s 0).thm.below ∧
      (∀ y ∈ (begin s 0).thm.sensors, y.excluded = false)) ∧
    (takes solo 0 1 2 1 true true = true ∧ 16 ≤ (entered (begin solo 0) 0 1 2 1).thm.sensors.length ∧
      noted (entered (begin solo 0) 0 1 2 1) (regKey .THM_SENSOR_FAIL 0 0) 15 = false) ∧
    (let s := begin (sensed 15 fun x => { x with excluded := true, passed := some 64 }) 0
     (sensor s 15).passed = some 64 ∧ 15 < s.thm.sensors.length ∧ (sensor s 15).excluded = true ∧ 64 ≤ 64 ∧
      (liveFld s Fld.THM_SENSOR_FAIL_SENSOR_FAIL_BITS).testBit 15 = false) := by
  refine ⟨?_, ?_, ?_, ?_⟩ <;> decide +kernel

theorem witness_ManagementPort :
    serving (begin solo 0) = true ∧ serving (begin State.reset 0) = false ∧
    liveFld (begin (put solo Fld.THM_STATUS_LEVEL 0 1) 0) Fld.THM_STATUS_LEVEL ≠ 0 ∧
    (let s := begin (put solo Fld.FAULT_SUMMARY_SUBSYSTEM 0 (2 ^ 17)) 0
     17 < 18 ∧ (liveFld s Fld.FAULT_SUMMARY_SUBSYSTEM).testBit 17 = true ∧ (liveFld s Fld.FAULT_MASK_MASK).testBit 18 = false) ∧
    (liveFld (begin solo 0) Fld.THM_STATUS_LEVEL = 0 ∧ ∀ k, k < 18 → (liveFld (begin solo 0) Fld.FAULT_SUMMARY_SUBSYSTEM).testBit k = false) := by
  refine ⟨?_, ?_, ?_, ?_, ?_⟩ <;> decide +kernel

/-! ### Worked examples of the manual -/

/-- Chapter 05: the CRC of the nine ASCII bytes "123456789". -/
theorem test_crc_check_value : crc32c [0x31, 0x32, 0x33, 0x34, 0x35, 0x36, 0x37, 0x38, 0x39] = 0xE3069283 := by decide +kernel

/-- The strip of chapter 05's example: two lines of sixteen bytes. -/
def twoLines : List Byte :=
  [0x80, 0x80, 0x80, 0x80, 0x80, 0x80, 0x11, 0x22, 0x33, 0x44, 0x11, 0x22, 0x33, 0x44, 0x05, 0x06,
   0x80, 0x80, 0x80, 0x80, 0xFF, 0xFF, 0x11, 0x22, 0x33, 0x44, 0x11, 0x22, 0x33, 0x44, 0x05, 0x06]

/-- Its payload. -/
def twoLinesCoded : List Byte :=
  [0x43, 0x80, 0x03, 0x11, 0x22, 0x33, 0x44, 0xC0, 0x04, 0x00, 0x01, 0x05, 0x06, 0x80, 0x01, 0xFF, 0xFF, 0xE2, 0xFF]

theorem test_strip_encoded :
    (encodeStrip true 8 16 twoLines).payload = twoLinesCoded ∧ (encodeStrip true 8 16 twoLines).cost = 72 ∧
      (encodeStrip true 8 16 twoLines).bytes.take 16 = [0x4A, 0x4C, 0x43, 0x31, 0x10, 0, 0, 0, 0x02, 0, 0x01, 0, 0x13, 0, 0, 0] := by
  decide +kernel

theorem test_strip_decoded :
    (match decodeStrip (encodeStrip true 8 16 twoLines).bytes with | .ok _ out c => (out, c) | .bad _ _ => ([], 0)) = (twoLines, 72) := by
  decide +kernel

/-- R158, the example with DST_LEN 5, then resumed with 64 bytes. -/
def encJob (resume : Bool) (dstLen : Nat) (record : List Byte) : CodecJob :=
  { op := 1, resume := resume, fallback := true, lps := 2, width := 16, count := 1, src := 0, srcLen := 32, dst := 4096,
    dstLen := dstLen, hdr := 8192, resumeAt := 12288, source := twoLines, record := record }

/-- The bytes that the last command wrote to host memory at an address. -/
def written (s : State) (a : Nat) : List Byte :=
  s.out.flatMap fun o => match o with | .hostWrite b bs => if b = a then bs else [] | _ => []

/-- The first reply of N0. -/
def reply0 (s : State) : Option (Nat × List Byte) := (mbx s 0).out.map fun r => (r.result, r.payload)

theorem test_encode_stops :
    after (exec (.imgEncode 0 0 1 (encJob false 5 [])) solo) reply0 =
      some (some (11, leBytes 4 0 ++ leBytes 8 6 ++ leBytes 4 2 ++ leBytes 1 0)) ∧
    after (exec (.imgEncode 0 0 1 (encJob false 5 [])) solo) (fun u => written u 4096) = some [0x43, 0x80] ∧
    after (exec (.imgEncode 0 0 1 (encJob false 5 [])) solo) (fun u => [(10, 2), (12, 4), (24, 4), (28, 4), (36, 1)].map fun (o, n) =>
      leAt (written u 12288) o n) = some [0, 6, 6, 2, 4] := by refine ⟨?_, ?_, ?_⟩ <;> decide +kernel

theorem test_encode_resumes :
    (after (exec (.imgEncode 0 0 1 (encJob false 5 [])) solo) fun u => written u 12288).bind (fun rec =>
      after (exec (.imgEncode 0 0 1 (encJob true 64 rec)) solo) fun u => (written u 4096, leAt (written u 8192) 12 4)) =
    some (twoLinesCoded.drop 2, 19) := by decide +kernel

/-- R79, the example: device time at the write and one second later. -/
theorem test_set_incr :
    let s := put { solo with time := { solo.time with counter := 5000000000, nextBoundary := 6000100000 } } Fld.TIM_CTRL_SERVO_OWNER 0 1
    after (exec (.timSetIncr 5000000000 0 1 0x100014F8B) s) (fun u => (now u, now (begin u 6000000000))) =
      some (5000000000, 6000019999) := by decide +kernel

/-- R107, the example: with ECC on and GRAIN 4 KiB, address 1,000,000. -/
theorem test_address_mapping : mapAddress 4096 1920 1000000 = (0, 10, 8, 26, 0) := by decide

/-- R216, the example: nozzles 28 to 31 of head 17 at HIST_DEPTH 2, and nozzle 29 at 4. -/
theorem test_energy_index :
    let h : List (List (Nat × Nat)) := [[(34, 30), (34, 31)], [(34, 28), (34, 31)], [(34, 29), (34, 31)], []]
    let at' (depth n code : Nat) : Nat := energyIndex (wasHot h depth 17 false n) code
    (at' 2 28 2, at' 2 29 2, at' 2 30 3, at' 2 31 0, at' 4 29 2) = (5, 4, 7, 0, 5) := by decide +kernel

/-- R312, the example: C = 1.0 and δ = +0.04 under the defaults. -/
theorem test_coefficient_step : newCoef State.reset 0 16384 (4 / 100) = 16302 := by decide +kernel

/-- R165's neighbour R148 and R147 in the example: the cost limit. -/
theorem test_cost_limit : costLimit 32 8 = 132 := by decide

/-! ### One step each -/

/-- R397: master 2 acquires lock 23, and finds it held by itself as 3; lock 24 is not for it. -/
theorem test_lock_read :
    after (exec (.lockRead 0 23 2) solo) (fun u => (u.out, nth u.host.locks 23 0)) = some ([.value [0]], 3) ∧
    after (exec (.lockRead 0 24 2) solo) (fun u => (u.out, nth u.host.locks 24 0)) = some ([.value [7]], 0) := by decide +kernel

/-- R27 to R29: A leading B counts up, with ENC_DIR 1 down; a level that lasts less than ENC_FILTER × 4 ns is no count. -/
theorem test_encoder_direction :
    after (exec (.encoderTransition 25 0 true false 8 0) moving) (fun u => (enc u 0).count) = some 1 ∧
    after (exec (.encoderTransition 25 0 true false 8 0) (put moving Fld.POS_ENC_CTRL_ENC_DIR 0 1)) (fun u => (enc u 0).count) = some (-1) ∧
    after (exec (.encoderTransition 25 0 true false 7 0) moving) (fun u => (enc u 0).count) = some 0 := by
  decide +kernel

/-- R341, R339: SET.DEFAULTS on a standby returns DENIED_PAIR; on the active its reply waits for the record of its pick. -/
theorem test_reply_held :
    after (exec (.setDefaults 0 0 1) follow) (fun u => (mbx u 0).out.map (·.result)) = some (some 13) ∧
    after (exec (.setDefaults 0 0 1) lead) (fun u => ((mbx u 0).out, (mbx u 0).flight.map (·.hold))) = some (none, [some 0]) := by
  decide +kernel

/-- R575 and the ratings: VIN_HIGH is reported at every voltage, VENC_OUT's feed above 5.3 V. -/
theorem test_ratings :
    after (exec (.vinHigh 0 80001) solo) (fun u => stickyOn u Fld.PWR_STATUS_VIN_HIGH) = some true ∧
    after (exec (.vencBackfeed 0 6001) solo) (fun u => (u.pwr.fed, stickyOn u Fld.PWR_STATUS_VENC_FAULT)) = some (true, true) ∧
    after (exec (.vencBackfeed 0 5300) solo) (fun u => u.pwr.fed) = some false := by decide +kernel

/-- Chapter 19's example: LANE_DOWN of FL5 sets FAULT_SUMMARY bit 7 and doorbell bit 19; the event waits for the boundary. -/
theorem test_lane_down :
    let s := put (put (put solo Fld.FL_HUB_HUB_EN 2 1) Fld.FL_HUB_WIDTH 2 4) Fld.FL_HUB_FIRST_LANE 2 4
    let s := setLane (setHub s 2 fun h => { h with state := 3, mask := 15 }) 5 fun _ => readyLane
    after (exec (.laneDown 0 5) s) (fun u => (2 * liveFld u Fld.FAULT_SUMMARY_SUBSYSTEM, (liveFld u Fld.DB_D2H_STATUS_STATUS).testBit 19,
      (u.host.queued.map (·.code)).head?)) = some (0x80, true, some 0x0701) := by decide +kernel

/-- R513, R514: power-on waits 2 ms and 10 µs; a low of 999 ns is ignored and one of 1,500 ns resets. -/
theorem test_reset_low :
    after (exec (.resetNLow 0 999 true) solo) (fun u => u.sys.st) = some .ready ∧
    after (exec (.resetNLow 0 1500 false) solo) (fun u => (u.sys.st, u.rst.free)) = some (.reset, 2010000) := by decide +kernel

/-- R548, the hardware trip: 123 °C is 984 eighths. -/
theorem test_trip :
    after (exec (.thermalTrip 0 1 983) solo) (fun u => u.thm.tripped) = some false ∧
    after (exec (.thermalTrip 0 1 984) solo) (fun u => (u.thm.tripped, u.pair.forceStandby)) = some (true, true) := by decide +kernel


/-- R253, R273: a TIME_SYNC packet is 16 + 24 bytes and takes ⌈42 / 8⌉ blocks; R255 keeps it and not one with a changed byte. -/
theorem test_packet_blocks :
    let p := packetOf 7 64 0 5 true false (List.replicate 24 0)
    (p.length, (packetBlocks p).length, packetFits p, packetFits (p.take 39 ++ [1])) = (40, 6, true, false) := by decide +kernel

/-- R242: LANE_STATE with two lanes locked and used, CHECK the exclusive-or of bytes 1 to 6 with 0xA5. -/
theorem test_lane_state_block :
    outBlocks 0 false false (.laneState 3 1) = [⟨true, [0x2D, 3, 1, 0, 0, 0, 0, 0xA7]⟩] := by decide +kernel

/-- R241: a data bit sent after 58 zero bits comes through, and returns 39 and 58 bits later; the descrambler takes the stream back. -/
theorem test_scrambler :
    (scramble 64 1 0).1 = 1 + 2 ^ 39 + 2 ^ 58 ∧ (descramble 64 (scramble 64 0x8000000000000001 0x155).1 0x155).1 = 0x8000000000000001 := by
  decide +kernel

/-- R215, R19: with PREHEAT_EVERY 4 on the main path only the factor is 1.1825, otherwise 1.12. -/
theorem test_load_factor :
    let c (k : Nat) : CfgSet := { regs := bankSet [] Fld.FIR_CFG_PREHEAT_EVERY 0 k }
    (loadFactor (c 2) 0, loadFactor (c 3) 0, loadFactor (c 5) 0) = (11825, 11200, 11200) := by decide +kernel

/-- R105, R290, R326: two slots of 1 MiB (the reset value of STORE_FRAMES) for a port that was enabled leave 15,102 MiB; a port that
was not takes nothing. -/
theorem test_frame_store :
    let s : State := { State.reset with vision := { cams := [{ enBefore := true }, {}] } }
    imgCapacity ((List.range 2).foldl takeFrameStore s) = 15102 ∧ imgCapacity s = 15104 := by decide +kernel

/-! ### Operands that no interface carries -/

/-- Every command of a list is refused by the checks. -/
def allIll (l : List Instr) : Bool := l.all fun i => !wellFormed i

/-- n zero bytes. -/
def zeros (n : Nat) : List Byte := List.replicate n 0

/-- The ticks and tags that do not fit their fields. -/
theorem test_ill_time_and_tag :
    allIll [.timNowLoRead (2 ^ 64), .hubUp (2 ^ 64) 0 ⟨0, 0, 0, 0, 0, 0, 0, 0⟩, .sysInfo 0 0 65536, .safeStop (2 ^ 64) 0 1,
      .warmArm 0 0 65536, .start (2 ^ 64) { strap := [0, 0, 0, 0] }] = true := by decide +kernel

/-- Numbers wider than a packet's or an input's field, and an element that does not exist. -/
theorem test_ill_link :
    allIll [.hubAckReceive 0 0 ⟨true, 2 ^ 32, 0, 0, 0, []⟩, .hubAckReceive 0 0 ⟨true, 0, 0, 0, 0, [⟨256, 0, 0, 0, 0, 0, 0⟩]⟩,
      .hubUp 0 0 ⟨0, 256, 0, 0, 0, 0, 0, 0⟩, .laneStateReceive 0 0 ⟨2 ^ 58, 1, 0⟩, .laneStateReceive 0 0 ⟨0, 4, 0⟩,
      .laneMarkerReceive 0 0 ⟨0, 2, 2 ^ 64⟩, .laneMarkerReceive 0 0 ⟨2 ^ 58, 2, 0⟩,
      .headCmdResponse 0 0 true 1 256 0 [], .headCmdResponse 0 0 true 1 0 0 (zeros 256), .cmdTimeout 0 0 256,
      .timeSyncResponse 0 0 true 65536 0 0, .timeSyncResponse 0 0 true 0 (2 ^ 64) 0, .consCommitStart 0 528,
      .consTimeout 0 528, .restripeNarrow 0 0 [2 ^ 47], .lineCrcReceive 0 0 0 (-2 ^ 47 - 1) 0 false true,
      .lineCrcReceive 0 0 0 0 (2 ^ 32) false true, .recordAckReceive 0 (2 ^ 64) false false false, .eyeDone 0 []] = true := by decide +kernel

/-- A pick with 15 sensors, with a reading of 13 bits, with three refresh reports; a servo's adjustments; a trigger 16. -/
theorem test_ill_time_inputs :
    allIll [.pickBoundary 0 { temps := List.replicate 15 ⟨0, false, 0⟩ }, .pickBoundary 0 { temps := List.replicate 16 ⟨4096, false, 0⟩ },
      .pickBoundary 0 { temps := List.replicate 16 ⟨0, false, 0⟩, hot := [true, true, true] },
      .pickBoundary 0 { temps := List.replicate 16 ⟨0, false, 0⟩, gpio := 65536 }, .servoMeasurement 0 0 (.incr (2 ^ 64)) none,
      .servoMeasurement 0 0 (.slew (2 ^ 63)) none, .servoMeasurement 0 0 (.step (-2 ^ 63 - 1)) none, .servoMeasurement 0 (2 ^ 63) .none none,
      .servoMeasurement 0 0 .none (some ⟨2, ⟨0, 0, 0⟩⟩), .servoMeasurement 0 0 .none (some ⟨0, ⟨16, 0, 0⟩⟩), .ppsInEdge 0 (.incr (2 ^ 64)),
      .triggerAct 0 [⟨16, 0, 0⟩], .ptpEventReceive 0 0 16, .ptpTxTimestamp 0 0 ⟨0, 0, 65536⟩ 0, .ptpTxTimestamp 0 0 ⟨0, 256, 0⟩ 0,
      .ptpTxTimestamp 0 0 ⟨0, 0, 0⟩ 17, .thermalTrip 0 0 2048,
      .retrainDone 0 0 128 [], .rowPacketReceive 0 0 0 0 [1024], .ladderDone 0 [⟨0, [], []⟩, ⟨0, [], []⟩, ⟨0, [], []⟩]] = true := by
  decide +kernel

/-- Records under the other row's flag, datagrams and host accesses past their fields and lengths. -/
theorem test_ill_interfaces :
    allIll [.pickRecordReceive 0 true { pick := 0, epoch := 0, leaseUntil := 0, flush := true },
      .flushRecordReceive 0 true { pick := 0, epoch := 0, leaseUntil := 0 },
      .pickRecordReceive 0 true { pick := 2 ^ 64, epoch := 0, leaseUntil := 0 },
      .mailboxWrite 0 0 250 (zeros 7), .doorbellPost 0 (2 ^ 32), .registerWrite 0 false 65536 0, .registerWrite 0 true 0 (2 ^ 32),
      .scrubRead 0 [(64, .corrected)], .stripDecodeDone 0 0 none [⟨⟨4, 0, 0⟩, 0, .corrected⟩], .stripMoveCopyDone 0 0 true [⟨⟨0, 16, 0⟩, 0, .corrected⟩],
      .evtTailWrite 0 (2 ^ 32), .hello 0 (2 ^ 128) 0 0,
      .msgDatagram 0 ⟨0, 65536, 0, 0, 0⟩ 0 false [], .msgDatagram 0 ⟨0, 0, 0, 0, 0⟩ 0 false (zeros 273),
      .regReadDatagram 0 ⟨0, 0, 0, 0, 2 ^ 32⟩ 0 1, .regWriteDatagram 0 ⟨0, 0, 0, 0, 0⟩ 0 (List.replicate 65 0),
      .dataDatagram 0 ⟨0, 0, 0, 0, 0⟩ 0 0 [], .dataDatagram 0 ⟨0, 0, 0, 0, 0⟩ 0 0 (zeros 8193), .stripRequest 0 (2 ^ 32) 0,
      .missedPartsRequest 0 [2 ^ 64]] = true := by decide +kernel

/-- Message payloads past their fields: one for each payload with a check of its own. -/
theorem test_ill_payloads :
    allIll [.read 0 0 1 256 0 1 0 0, .write 0 0 1 1 0 0 (List.replicate 28 (0, 0)), .netConfig 0 0 1 0 0 (2 ^ 32) 0 0,
      .setTable 0 0 1 0 0 0 0 false { fail := 3 }, .setSwap 0 0 1 256 0, .imgCreate 0 0 1 (zeros 31) 0 0 0 0,
      .imgIngest 0 0 1 (2 ^ 32) 0 0 0 {}, .imgEncode 0 0 1 ⟨1, false, false, 0, 2 ^ 32, 0, 0, 0, 0, 0, 0, 0, [], [], 0⟩,
      .jobStart 0 0 1 { channels := 65536 }, .jobStart 0 0 1 { images := List.replicate 17 0 }, .jobStart 0 0 1 { firstLine := 2 ^ 48 },
      .headType 0 0 1 0 ⟨256, 0, 0, 0, 0, 0, 0, false, false, 0, 0, 0, 0⟩, .headPlace 0 0 1 ⟨0, 0, 0, 0, 0, 0, 0, 2 ^ 31, 0, 0, 0, 0⟩,
      .headEnergyTable 0 0 1 0 [65536], .headHubCmd 0 0 1 0 1 (zeros 239), .clpCoefSet 0 0 1 0 0 (2 ^ 32) false {}, .clpCoefSet 0 0 1 0 0 0 true { length := 2 ^ 64 }, .camConfig 0 0 1 0 [0],
      .camProfile 0 0 1 0 (zeros 15), .timSlew 0 0 1 (2 ^ 63), .motConfig 0 0 1 0 { v := 2 ^ 32 } 0, .motMove 0 0 1 0 0 (2 ^ 63) 0 0 0 0,
      .motGroupMove 0 0 1 0 (List.replicate 9 0), .evtFilter 0 0 1 (List.replicate 17 (0, 0)), .logRead 0 0 1 0 256] = true := by
  decide +kernel

/-- Keys, nonces, signatures, tokens and certificate pieces of a wrong length; what a start finds. -/
theorem test_ill_security_and_start :
    allIll [.sessionOpen 0 0 1 (zeros 48) (zeros 32), .sessionOpen 0 0 1 (zeros 49) (zeros 31), .sessionFinish 0 0 1 (zeros 95),
      .certPut 0 0 1 0 0 (zeros 225), .trustSet 0 0 1 0 0 0 0 (zeros 219), .debugUnlock 0 0 1 0 (zeros 97), .auditSign 0 0 1 (zeros 33),
      .start 0 { strap := [0, 0, 0] }, .start 0 { strap := [0, 0, 0, 0], rate := 8 }] = true := by decide +kernel

theorem test_ill_strip_too_long (b : List Byte) (h : 2 ^ 20 < b.length) : stripLen b = false :=
  decide_eq_false (by omega)

theorem test_well_formed :
    wellFormed (.pickBoundary 100000 quiet) = true ∧ wellFormed (.sessionOpen 0 5 65535 (zeros 49) (zeros 32)) = true ∧
    wellFormed (.write 0 0 1 1 0 0 (List.replicate 27 (0xFFFFFFFF, 1))) = true ∧
    wellFormed (.pickRecordReceive 0 true { pick := 0, epoch := 0, leaseUntil := 0 }) = true ∧
    wellFormed (.flushRecordReceive 0 false { pick := 0, epoch := 0, leaseUntil := 0, flush := true }) = true ∧
    wellFormed (.imgEncode 0 0 1 (encJob false 5 [])) = true := by decide +kernel

end Sys2Proof.Tests
end

/-! ### The invariant of the register banks (01_architecture R6) -/

namespace Sys2Proof.Laws

open Sys2Proof Sys2Proof.Machine

theorem KeepsO.of {s u : State} {o : Host.Outcome State Fault Refusal} (e : o = .next u) (h : KeepsO s o) : Keeps s u := by
  rw [e] at h; exact h

/-- Every command keeps the queue and the canonical banks: each arm of `exec` by the law of its own meaning. -/
theorem exec_keeps {s0 s : State} (c : Instr) (h : Keeps s0 s) : KeepsO s0 (exec c s) := by
  cases c with
  | pickBoundary => exact execPickBoundary_keeps h
  | timNowLoRead => exact execTimNowLoRead_keeps h
  | triggerAct => exact execTriggerAct_keeps h
  | slewDone => exact execSlewDone_keeps h
  | servoMeasurement => exact execServoMeasurement_keeps h
  | holdoverExpire => exact execHoldoverExpire_keeps h
  | ptpEventReceive => exact execPtpEventReceive_keeps h
  | ptpTxTimestamp => exact execPtpTxTimestamp_keeps h
  | txqEntryStale => exact execTxqEntryStale_keeps h
  | ppsInEdge => exact execPpsInEdge_keeps h
  | ppsMissing => exact execPpsMissing_keeps h
  | ppsOutPulse => exact execPpsOutPulse_keeps h
  | encoderTransition => exact execEncoderTransition_keeps h
  | syntheticUpdate => exact execSyntheticUpdate_keeps h
  | indexEdge => exact execIndexEdge_keeps h
  | indexPulseEnd => exact execIndexPulseEnd_keeps h
  | encoderPairOpen => exact execEncoderPairOpen_keeps h
  | encoderPairClosed => exact execEncoderPairClosed_keeps h
  | lineSend => exact execLineSend_keeps h
  | lineMissedNotReady => exact execLineMissedNotReady_keeps h
  | lineRender => exact execLineRender_keeps h
  | stripDecodeDone => exact execStripDecodeDone_keeps h
  | stripRestored => exact execStripRestored_keeps h
  | scrubRead => exact execScrubRead_keeps h
  | refreshDue => exact execRefreshDue_keeps h
  | retrainStart => exact execRetrainStart_keeps h
  | retrainDone => exact execRetrainDone_keeps h
  | stripMoveCopyDone => exact execStripMoveCopyDone_keeps h
  | stripMoveCommit => exact execStripMoveCommit_keeps h
  | oldCopyFree => exact execOldCopyFree_keeps h
  | rawStripEncoded => exact execRawStripEncoded_keeps h
  | ingestStripDecoded => exact execIngestStripDecoded_keeps h
  | replStripReceived => exact execReplStripReceived_keeps h
  | replRetryTimer => exact execReplRetryTimer_keeps h
  | hubAckReceive => exact execHubAckReceive_keeps h
  | linesUnacked => exact execLinesUnacked_keeps h
  | ackLost => exact execAckLost_keeps h
  | histHoldExpire => exact execHistHoldExpire_keeps h
  | consCommitStart => exact execConsCommitStart_keeps h
  | consReplyReceive => exact execConsReplyReceive_keeps h
  | consTimeout => exact execConsTimeout_keeps h
  | laneLockAcquired => exact execLaneLockAcquired_keeps h
  | laneDown => exact execLaneDown_keeps h
  | restripeNarrow => exact execRestripeNarrow_keeps h
  | laneStateReceive => exact execLaneStateReceive_keeps h
  | laneMarkerReceive => exact execLaneMarkerReceive_keeps h
  | bringupTimeout => exact execBringupTimeout_keeps h
  | hubUp => exact execHubUp_keeps h
  | laneRejoined => exact execLaneRejoined_keeps h
  | headCmdResponse => exact execHeadCmdResponse_keeps h
  | cmdTimeout => exact execCmdTimeout_keeps h
  | timeSyncSend => exact execTimeSyncSend_keeps h
  | timeSyncResponse => exact execTimeSyncResponse_keeps h
  | eyeStart => exact execEyeStart_keeps h
  | eyeDone => exact execEyeDone_keeps h
  | frameStartReceive => exact execFrameStartReceive_keeps h
  | rowPacketReceive => exact execRowPacketReceive_keeps h
  | frameEndReceive => exact execFrameEndReceive_keeps h
  | frameTruncated => exact execFrameTruncated_keeps h
  | frameTimeout => exact execFrameTimeout_keeps h
  | trigFault => exact execTrigFault_keeps h
  | frameProcessed => exact execFrameProcessed_keeps h
  | solveDone => exact execSolveDone_keeps h
  | cciTransferDone => exact execCciTransferDone_keeps h
  | ladderDone => exact execLadderDone_keeps h
  | pickRecordReceive => exact execPickRecordReceive_keeps h
  | flushRecordReceive => exact execFlushRecordReceive_keeps h
  | recordAckReceive => exact execRecordAckReceive_keeps h
  | lineCrcReceive => exact execLineCrcReceive_keeps h
  | peerLinkLost => exact execPeerLinkLost_keeps h
  | heartbeatInEdge => exact execHeartbeatInEdge_keeps h
  | heartbeatStatic => exact execHeartbeatStatic_keeps h
  | partnerLost => exact execPartnerLost_keeps h
  | takeover => exact execTakeover_keeps h
  | leaseExpire => exact execLeaseExpire_keeps h
  | cutTimerExpire => exact execCutTimerExpire_keeps h
  | joinWaitExpire => exact execJoinWaitExpire_keeps h
  | resyncStageDone => exact execResyncStageDone_keeps h
  | peerLinkSetup => exact execPeerLinkSetup_keeps h
  | mailboxWrite => exact execMailboxWrite_keeps h
  | doorbellPost => exact execDoorbellPost_keeps h
  | replyRelease => exact execReplyRelease_keeps h
  | channelResetHost => exact execChannelResetHost_keeps h
  | pcieReset => exact execPcieReset_keeps h
  | lockRead => exact execLockRead_keeps h
  | lockRelease => exact execLockRelease_keeps h
  | evtTailWrite => exact execEvtTailWrite_keeps h
  | registerWrite => exact execRegisterWrite_keeps h
  | hello => exact execHello_keeps h
  | sessionTimeout => exact execSessionTimeout_keeps h
  | msgDatagram => exact execMsgDatagram_keeps h
  | regReadDatagram => exact execRegReadDatagram_keeps h
  | regWriteDatagram => exact execRegWriteDatagram_keeps h
  | dataDatagram => exact execDataDatagram_keeps h
  | dataAckTimer => exact execDataAckTimer_keeps h
  | notifyRepeat => exact execNotifyRepeat_keeps h
  | read => exact execRead_keeps h
  | write => exact execWrite_keeps h
  | sysInfo => exact execSysInfo_keeps h
  | sysState => exact execSysState_keeps h
  | safeStop => exact execSafeStop_keeps h
  | clearStop => exact execClearStop_keeps h
  | netConfig => exact execNetConfig_keeps h
  | setTable => exact execSetTable_keeps h
  | setCopy => exact execSetCopy_keeps h
  | setDefaults => exact execSetDefaults_keeps h
  | setValidate => exact execSetValidate_keeps h
  | setSwap => exact execSetSwap_keeps h
  | setCancel => exact execSetCancel_keeps h
  | setStatus => exact execSetStatus_keeps h
  | imgCreate => exact execImgCreate_keeps h
  | imgIngest => exact execImgIngest_keeps h
  | imgDelete => exact execImgDelete_keeps h
  | imgInfo => exact execImgInfo_keeps h
  | imgList => exact execImgList_keeps h
  | imgEncode => exact execImgEncode_keeps h
  | imgDecode => exact execImgDecode_keeps h
  | jobStart => exact execJobStart_keeps h
  | jobPause => exact execJobPause_keeps h
  | jobResume => exact execJobResume_keeps h
  | jobStop => exact execJobStop_keeps h
  | jobStatus => exact execJobStatus_keeps h
  | headType => exact execHeadType_keeps h
  | headPlace => exact execHeadPlace_keeps h
  | headEnergyTable => exact execHeadEnergyTable_keeps h
  | headSupply => exact execHeadSupply_keeps h
  | headNozzleState => exact execHeadNozzleState_keeps h
  | headHubCmd => exact execHeadHubCmd_keeps h
  | clpFreeze => exact execClpFreeze_keeps h
  | clpWhiteReset => exact execClpWhiteReset_keeps h
  | clpLadderNow => exact execClpLadderNow_keeps h
  | clpCoefSet => exact execClpCoefSet_keeps h
  | clpReadCoef => exact execClpReadCoef_keeps h
  | camConfig => exact execCamConfig_keeps h
  | camProfile => exact execCamProfile_keeps h
  | camStats => exact execCamStats_keeps h
  | camReadFrame => exact execCamReadFrame_keeps h
  | timSetIncr => exact execTimSetIncr_keeps h
  | timSlew => exact execTimSlew_keeps h
  | timStep => exact execTimStep_keeps h
  | timPpsSecond => exact execTimPpsSecond_keeps h
  | timTrigSet => exact execTimTrigSet_keeps h
  | timTrigCancel => exact execTimTrigCancel_keeps h
  | motConfig => exact execMotConfig_keeps h
  | motMove => exact execMotMove_keeps h
  | motGroupMove => exact execMotGroupMove_keeps h
  | motHome => exact execMotHome_keeps h
  | motStop => exact execMotStop_keeps h
  | motStatus => exact execMotStatus_keeps h
  | diagEyeGrid => exact execDiagEyeGrid_keeps h
  | diagPlacement => exact execDiagPlacement_keeps h
  | diagSelftest t ch tag slice pass => exact execDiagSelftest_keeps (y3 := slice) h
  | diagRestartWarm => exact execDiagRestartWarm_keeps h
  | diagRestartCold => exact execDiagRestartCold_keeps h
  | pairStatus => exact execPairStatus_keeps h
  | pairConfig => exact execPairConfig_keeps h
  | pairHandover => exact execPairHandover_keeps h
  | pairResync => exact execPairResync_keeps h
  | pairClear => exact execPairClear_keeps h
  | logInfo => exact execLogInfo_keeps h
  | logRead => exact execLogRead_keeps h
  | evtFilter => exact execEvtFilter_keeps h
  | secInfo => exact execSecInfo_keeps h
  | certGet => exact execCertGet_keeps h
  | sessionOpen => exact execSessionOpen_keeps h
  | certPut => exact execCertPut_keeps h
  | sessionFinish => exact execSessionFinish_keeps h
  | sessionClose => exact execSessionClose_keeps h
  | sessionSetupTimeout => exact execSessionSetupTimeout_keeps h
  | sessionIdleExpire => exact execSessionIdleExpire_keeps h
  | fwLoad => exact execFwLoad_keeps h
  | fwActivate => exact execFwActivate_keeps h
  | fwCommit => exact execFwCommit_keeps h
  | trustSet => exact execTrustSet_keeps h
  | trustClear => exact execTrustClear_keeps h
  | consReset => exact execConsReset_keeps h
  | consTransfer => exact execConsTransfer_keeps h
  | secConfig => exact execSecConfig_keeps h
  | debugChallenge => exact execDebugChallenge_keeps h
  | debugUnlock => exact execDebugUnlock_keeps h
  | auditRead => exact execAuditRead_keeps h
  | auditSign => exact execAuditSign_keeps h
  | auditAcknowledge => exact execAuditAcknowledge_keeps h
  | glitch => exact execGlitch_keeps h
  | rngFail => exact execRngFail_keeps h
  | jtagInstruction => exact execJtagInstruction_keeps h
  | limitInputChange => exact execLimitInputChange_keeps h
  | driverFault => exact execDriverFault_keeps h
  | outShortAxis => exact execOutShortAxis_keeps h
  | homeInputEdge => exact execHomeInputEdge_keeps h
  | homeDebounceExpire => exact execHomeDebounceExpire_keeps h
  | powerOn => exact execPowerOn_keeps h
  | vinBelowPor => exact execVinBelowPor_keeps h
  | resetNLow => exact execResetNLow_keeps h
  | selfRefreshTimeout => exact execSelfRefreshTimeout_keeps h
  | resetRelease => exact execResetRelease_keeps h
  | start => exact execStart_keeps h
  | startTimeout => exact execStartTimeout_keeps h
  | watchdogExpire => exact execWatchdogExpire_keeps h
  | lockstepMismatch => exact execLockstepMismatch_keeps h
  | warmArm => exact execWarmArm_keeps h
  | warmArmExpire => exact execWarmArmExpire_keeps h
  | fatalFault => exact execFatalFault_keeps h
  | vinWarn => exact execVinWarn_keeps h
  | vinWarnEnd => exact execVinWarnEnd_keeps h
  | vinWarnStop => exact execVinWarnStop_keeps h
  | vinHigh => exact execVinHigh_keeps h
  | inputTrip => exact execInputTrip_keeps h
  | vencOverload => exact execVencOverload_keeps h
  | vencRetry => exact execVencRetry_keeps h
  | vencBackfeed => exact execVencBackfeed_keeps h
  | railFault => exact execRailFault_keeps h
  | outShort => exact execOutShort_keeps h
  | thermalTrip => exact execThermalTrip_keeps h
  | throttleFall => exact execThrottleFall_keeps h
  | sensorFailWrite => exact execSensorFailWrite_keeps h
  | sensorReadmitted => exact execSensorReadmitted_keeps h
  | mgReadState => exact execMgReadState_keeps h
  | mgReadRole => exact execMgReadRole_keeps h
  | mgReadTemp => exact execMgReadTemp_keeps h
  | mgReadFaults => exact execMgReadFaults_keeps h
  | mgReadLevel => exact execMgReadLevel_keeps h
  | mgAlertResponse => exact execMgAlertResponse_keeps h
  | missedPartsRequest => exact execMissedPartsRequest_keeps h
  | stripRequest => exact execStripRequest_keeps h
  | gpioIndexEdge => exact execGpioIndexEdge_keeps h
  | laneStateRepeat => exact execLaneStateRepeat_keeps h
  | mgBusTimeout => exact execMgBusTimeout_keeps h
theorem step_of_pending_nil {s : State} (h : s.pending = []) : step s = .next s := by
  simp only [step, h]

theorem step_of_pending_cons {s : State} {c : Instr} {rest : List Instr} (h : s.pending = c :: rest) :
    step s = exec c { s with pending := rest } := by
  simp only [step, h]

/-- The queue is no part of what makes the banks canonical. -/
theorem banksOk_setPending (s : State) (q : List Instr) : banksOk { s with pending := q } = banksOk s := rfl

theorem banksOk_step {s u : State} (hb : banksOk s = true) (hs : step s = .next u) : banksOk u = true := by
  cases hq : s.pending with
  | nil =>
    rw [step_of_pending_nil hq] at hs
    cases hs
    exact hb
  | cons c rest =>
    rw [step_of_pending_cons hq] at hs
    have hk : Keeps { s with pending := rest } u := (exec_keeps c (Keeps.refl _)).of hs
    exact hk.banks ((banksOk_setPending s rest).trans hb)

/-- The empty bank holds every register at its reset value (the Reset columns of the field tables). -/
theorem bankWf_nil : bankWf [] = true := rfl

theorem banksOk_reset : banksOk State.reset = true := by
  simp [banksOk, State.reset, bankWf_nil]

/-- Settles O5: an idle step changes nothing, and a command keeps the banks canonical by the law of its own meaning. -/
theorem registerBanksCanonical : Obligations.RegisterBanksCanonical :=
  fun _ _ => banksOk_step

/-- Settles O6: every bank of the reset state is empty. -/
theorem resetBanksCanonical : Obligations.ResetBanksCanonical :=
  banksOk_reset

end Sys2Proof.Laws

/-! ### Little-endian fields (01_architecture R2) -/

namespace Sys2Proof.Laws

open Sys2Proof Sys2Proof.Machine

theorem ofLe_leBytes (n v : Nat) : ofLe (leBytes n v) = v % 256 ^ n := by
  induction n generalizing v with
  | zero => simp [leBytes, ofLe, Nat.mod_one]
  | succ n ih =>
    calc ofLe (leBytes (n + 1) v)
        = v % 256 + 256 * (v / 256 % 256 ^ n) := by simp [leBytes, ofLe, ih]
      _ = v % 256 ^ (n + 1) := by rw [pow_succ', Nat.mod_mul]

theorem leBytes_ofLe (bs : List Byte) : leBytes bs.length (ofLe bs) = bs := by
  induction bs with
  | nil => rfl
  | cons b bs ih =>
    have hlow : BitVec.ofNat 8 (ofLe (b :: bs)) = b := by
      apply BitVec.eq_of_toNat_eq
      simp only [ofLe, BitVec.toNat_ofNat]
      omega
    have hhigh : ofLe (b :: bs) / 256 = ofLe bs := by
      simp only [ofLe]
      omega
    rw [List.length_cons, leBytes, hlow, hhigh, ih]

theorem getElem?_zero_leBytes_succ (n v : Nat) : (leBytes (n + 1) v)[0]? = some (BitVec.ofNat 8 v) := rfl

/-- Settles O9: reading the bytes of a field by induction on its width, writing them again by induction on the bytes. -/
theorem littleEndianFields : Obligations.LittleEndianFields :=
  fun n v bs => ⟨leBytes_len n v, ofLe_leBytes n v, leBytes_ofLe bs, getElem?_zero_leBytes_succ n v⟩

end Sys2Proof.Laws

/-! ### The number of the pick at a boundary (01_architecture R16, R17) -/

namespace Sys2Proof.Laws

open Sys2Proof Sys2Proof.Machine

/-- An operation that touches the host interface, the registers and the outputs alone leaves the number of the pick. -/
theorem SamePick.of_hostOnly {p0 : Nat} {s u : State} (hk : SamePick p0 s) (h : HostOnly s u) : SamePick p0 u :=
  ⟨(congrArg (fun x : State => x.time.pick) h).trans hk.pick⟩

theorem hostOnly_foldl {α : Type} {f : State → α → State} (hf : ∀ x a, HostOnly x (f x a)) (l : List α) (s : State) :
    HostOnly s (l.foldl f s) := by
  induction l generalizing s with
  | nil => exact HostOnly.refl s
  | cons a l ih => exact (hf s a).trans (ih (f s a))

/-- The counter moves on within the pick. -/
theorem begin_pick (s : State) (t : Nat) : SamePick s.time.pick (begin s t) :=
  SamePick.of_hostOnly (s := { s with out := [], time := advanceTime s.time t (liveFld s Fld.TIM_CTRL_SLEW_RATE) }) ⟨rfl⟩
    (hostOnly_foldl hostOnly_raiseIrq _ _)

/-! #### The update of the predictor that waits for the boundary -/

theorem judgeCrawl_pick {p0 : Nat} {s : State} (hk : SamePick p0 s) : SamePick p0 (judgeCrawl s) := by
  unfold judgeCrawl
  exact SamePick.ite hk.other (SamePick.ite hk.other hk)

theorem judgeOverspeed_pick {p0 c : Nat} {s : State} (hk : SamePick p0 s) : SamePick p0 (judgeOverspeed s c) := by
  unfold judgeOverspeed
  refine SamePick.ite hk (SamePick.ite ?_ ?_)
  · exact raise_pick (sticky_pick (setChan_pick hk))
  · exact raise_pick (setChan_pick hk)

theorem reviseLine_pick {p0 c : Nat} {s : State} {l : SentLine} (hk : SamePick p0 s) : SamePick p0 (reviseLine s c l).1 := by
  unfold reviseLine
  split
  · exact hk
  · dsimp only
    split
    · exact hk
    · exact sendFire_pick hk

theorem reviseChan_pick {p0 c : Nat} {s : State} (hk : SamePick p0 s) : SamePick p0 (reviseChan s c) := by
  unfold reviseChan
  refine setChan_pick (SamePick.foldl_fst _ hk fun x l hx => ?_)
  dsimp only
  split
  · exact hx
  · exact reviseLine_pick hx

theorem reviseAll_pick {p0 : Nat} {s : State} (hk : SamePick p0 s) : SamePick p0 (reviseAll s) := by
  unfold reviseAll
  exact SamePick.ite hk (SamePick.foldl _ hk fun _ _ => reviseChan_pick)

theorem setCam_pick {p0 k : Nat} {s : State} {f : CamPort → CamPort} (hk : SamePick p0 s) : SamePick p0 (setCam s k f) := hk.other

theorem claimTrigger_pick {p0 k : Nat} {s : State} (hk : SamePick p0 s) : SamePick p0 (claimTrigger s k) := by
  unfold claimTrigger
  split
  · exact hk
  · exact setCam_pick (setFld_pick (setFld_pick (setFld_pick (setFld_pick (setFld_pick (setFld_pick hk))))))

theorem freeTrigger_pick {p0 k : Nat} {s : State} (hk : SamePick p0 s) : SamePick p0 (freeTrigger s k) := by
  unfold freeTrigger
  split
  · exact hk
  · exact setCam_pick (setFld_pick (setFld_pick hk))

theorem frameFields_pick {p0 k : Nat} {s : State} (hk : SamePick p0 s) : SamePick p0 (frameFields s k) := by
  unfold frameFields
  extract_lets u want v
  have hu : SamePick p0 u := hk.other
  have hv : SamePick p0 v := SamePick.ite (claimTrigger_pick hu) (SamePick.ite (freeTrigger_pick hu) hu)
  split
  · exact setFld_pick hv
  · exact hv

theorem handOff_pick {p0 : Nat} {s : State} (hk : SamePick p0 s) : SamePick p0 (handOff s) := by
  unfold handOff
  exact SamePick.ite hk (setFld_pick hk.other)

theorem judgeIntegration_pick {p0 k : Nat} {s : State} {base : ℤ} (hk : SamePick p0 s) :
    SamePick p0 (judgeIntegration s k base) := by
  unfold judgeIntegration
  refine SamePick.ite hk (SamePick.ite hk.other (SamePick.ite (handOff_pick hk.other) (SamePick.ite ?_ hk.other)))
  exact raise_pick (sticky_pick hk.other)

theorem armRow_pick {p0 k : Nat} {s : State} {a : RowArm} (hk : SamePick p0 s) : SamePick p0 (armRow s k a) := by
  unfold armRow
  exact SamePick.ite hk (setCam_pick hk)

theorem cutFrame_pick {p0 k : Nat} {s : State} {ladder : Bool} {num : ℤ} (hk : SamePick p0 s) :
    SamePick p0 (cutFrame s k ladder num) := by
  unfold cutFrame
  exact SamePick.ite hk (setCam_pick hk)

theorem countShort_pick {p0 k got : Nat} {s : State} (hk : SamePick p0 s) : SamePick p0 (countShort s k got) :=
  raise_pick (sticky_pick (bump_pick hk))

theorem loseLadder_pick {p0 k : Nat} {s : State} {base : ℤ} (hk : SamePick p0 s) : SamePick p0 (loseLadder s k base) :=
  setCam_pick hk

theorem closeFrame_pick {p0 k : Nat} {s : State} {ladder : Bool} {num base : ℤ} (hk : SamePick p0 s) :
    SamePick p0 (closeFrame s k ladder num base) := by
  unfold closeFrame
  refine SamePick.ite hk (countShort_pick (SamePick.ite ?_ (setCam_pick hk)))
  exact loseLadder_pick (setCam_pick hk)

theorem skipFrame_pick {p0 k : Nat} {s : State} {base : ℤ} (hk : SamePick p0 s) : SamePick p0 (skipFrame s k base) :=
  judgeIntegration_pick (raise_pick (bump_pick hk))

theorem takeRow_pick {p0 k : Nat} {s : State} {a : RowArm} {last : Bool} (hk : SamePick p0 s) :
    SamePick p0 (takeRow s k a last) := by
  unfold takeRow
  extract_lets u
  have hu : SamePick p0 u := SamePick.ite (armRow_pick hk) (cutFrame_pick hk)
  exact SamePick.ite (closeFrame_pick hu) hu

/-- However many rows fall due at an update. -/
theorem armRows_pick {p0 k fuel : Nat} {s : State} {pos : ℤ} {crawl : Bool} {eta : ℤ → Option ℕ} (hk : SamePick p0 s) :
    SamePick p0 (armRows s k pos crawl eta fuel) := by
  induction fuel generalizing s with
  | zero => exact hk
  | succ fuel ih =>
    unfold armRows
    dsimp only
    split
    · exact setCam_pick hk
    · exact SamePick.ite (ih (skipFrame_pick (setCam_pick (setCam_pick hk)))) (ih (takeRow_pick (setCam_pick (setCam_pick hk))))

theorem ladderRowTaken_pick {p0 k : Nat} {s : State} {pos : ℤ} {crawl : Bool} {eta : ℤ → Option ℕ} (hk : SamePick p0 s) :
    SamePickQ p0 (ladderRowTaken s k pos crawl eta) := by
  unfold ladderRowTaken
  split
  · trivial
  · dsimp only
    split
    · trivial
    · exact takeRow_pick (setCam_pick hk)

theorem armLadder_pick {p0 k fuel : Nat} {s : State} {pos : ℤ} {crawl : Bool} {eta : ℤ → Option ℕ} (hk : SamePick p0 s) :
    SamePick p0 (armLadder s k pos crawl eta fuel) := by
  induction fuel generalizing s with
  | zero => exact hk
  | succ fuel ih =>
    unfold armLadder
    split
    · exact hk
    · next u hu => exact ih (SamePickQ.of hu (ladderRowTaken_pick hk))

theorem armCameras_pick {p0 : Nat} {s : State} {pos : ℤ} {crawl frozen : Bool} {eta : ℤ → Option ℕ} (hk : SamePick p0 s) :
    SamePick p0 (armCameras s pos crawl frozen eta) := by
  unfold armCameras
  refine SamePick.foldl _ hk fun x k hx => SamePick.ite hx ?_
  extract_lets u
  have hu : SamePick p0 u := SamePick.ite (frameFields_pick hx) hx
  exact SamePick.ite hu (armLadder_pick (armRows_pick hu))

theorem afterUpdate_pick {p0 : Nat} {s : State} (hk : SamePick p0 s) : SamePick p0 (afterUpdate s) :=
  armCameras_pick (reviseAll_pick (SamePick.foldl _ (judgeCrawl_pick hk) fun _ _ => judgeOverspeed_pick))

theorem flushUpdate_pick {p0 : Nat} {s : State} (hk : SamePick p0 s) : SamePick p0 (flushUpdate s) := by
  unfold flushUpdate
  split
  · exact hk
  · exact SamePick.ite hk (afterUpdate_pick hk.other)

/-! #### The events of the boundary (R402) -/

theorem hostOnly_ringEvent (s : State) (e : Event) : HostOnly s (ringEvent s e) := by
  unfold ringEvent
  split
  · exact HostOnly.refl s
  · split <;> rfl

theorem hostOnly_logEvent (s : State) (e : Event) : HostOnly s (logEvent s e) := by
  unfold logEvent
  rfl

theorem hostOnly_writeEvent (s : State) (e : Event) : HostOnly s (writeEvent s e) :=
  (hostOnly_logEvent s e).trans (hostOnly_ringEvent _ e)

theorem flushEvents_pick {p0 : Nat} {s : State} (hk : SamePick p0 s) : SamePick p0 (flushEvents s) := by
  unfold flushEvents
  extract_lets head q e _ u v _ w x
  have hu : SamePick p0 u := SamePick.ite (SamePick.of_hostOnly hk.other (hostOnly_writeEvent _ e)) hk
  have hv : SamePick p0 v :=
    (hu.of_hostOnly (hostOnly_foldl hostOnly_ringEvent _ _)).of_hostOnly (hostOnly_foldl hostOnly_writeEvent _ _)
  have hw : SamePick p0 w := hv.other
  have hx : SamePick p0 x := doorbell_pick hw
  exact SamePick.ite hw (SamePick.ite (sendNotify_pick hx) hx)

theorem stepEvents_pick {p0 : Nat} {s : State} (hk : SamePick p0 s) : SamePick p0 (stepEvents s) :=
  (flushEvents_pick hk).other

/-! #### The messages that throttling left pending (R549) -/

theorem audit_pick {p0 code k result : Nat} {s : State} (hk : SamePick p0 s) : SamePick p0 (audit s code k result) := by
  unfold audit
  extract_lets x on seq chain e old _ u
  have hu : SamePick p0 u := setFld_pick hk.other
  split
  · exact SamePick.ite (raise_pick (sticky_pick hu)) hu
  · exact hu

theorem dropLoad_pick {p0 : Nat} {s : State} (hk : SamePick p0 s) : SamePick p0 (dropLoad s) := by
  unfold dropLoad
  split
  · exact hk.other
  · exact hk

theorem moduleReset_pick {p0 k : Nat} {s : State} (hk : SamePick p0 s) : SamePick p0 (moduleReset s k) :=
  raise_pick (doorbell_pick (doorbell_pick (sticky_pick (setMbx_pick hk))))

theorem endSecure_pick {p0 k cause : Nat} {s : State} (hk : SamePick p0 s) : SamePick p0 (endSecure s k cause) := by
  unfold endSecure
  split
  · exact hk
  · extract_lets u v w
    have hv : SamePick p0 v := (setMbx_pick (audit_pick (raise_pick hk))).other
    have hw : SamePick p0 w := by
      unfold w
      split
      · exact SamePick.ite (dropLoad_pick hv) hv
      · exact hv
    exact SamePick.ite hw (moduleReset_pick hw)

theorem touchSec_pick {p0 k : Nat} {s : State} (hk : SamePick p0 s) : SamePick p0 (touchSec s k) := by
  unfold touchSec
  exact SamePick.ite hk hk.other

theorem takePending_pick {p0 k : Nat} {s : State} (hk : SamePick p0 s) : SamePick p0 (takePending s k) :=
  bump_pick (setMbx_pick (touchSec_pick (setMbx_pick hk)))

theorem busyReject_pick {p0 k tag : Nat} {s : State} (hk : SamePick p0 s) : SamePick p0 (busyReject s k tag) := by
  unfold busyReject
  extract_lets u ev v w x
  have hx : SamePick p0 x := doorbell_pick (sticky_pick (setMbx_pick (bump_pick (touchSec_pick hk))))
  exact SamePick.ite hx (raise_pick hx)

theorem frameError_pick {p0 k result tag : Nat} {s : State} (hk : SamePick p0 s) : SamePick p0 (frameError s k result tag) := by
  unfold frameError
  extract_lets ev u v
  have hv : SamePick p0 v := setMbx_pick (bump_pick hk)
  exact SamePick.ite hv (raise_pick hv)

theorem refuseTaken_pick {p0 k cls op tag result : Nat} {s : State} (hk : SamePick p0 s) :
    SamePick p0 (refuseTaken s k cls op tag result) :=
  pump_pick (setMbx_pick (SamePick.ite (frameError_pick hk) hk))

theorem lookAt_pick {p0 k : Nat} {s : State} (hk : SamePick p0 s) : SamePick p0 (lookAt s k) := by
  have taken {result : Nat} {cls op tag : Nat} : SamePick p0 (refuseTaken (takePending s k) k cls op tag result) :=
    refuseTaken_pick (takePending_pick hk)
  unfold lookAt
  refine SamePick.ite hk (SamePick.ite (endSecure_pick hk) (SamePick.ite (busyReject_pick (setMbx_pick hk))
    (SamePick.ite taken (SamePick.ite taken (SamePick.ite hk (SamePick.ite ?_ taken))))))
  exact endSecure_pick (raise_pick (sticky_pick taken))

/-! #### The boundary -/

/-- A boundary that has come, in each of the device states that count picks. -/
theorem execPickBoundary_rises {s : State} {t : Nat} {x : PickInputs}
    (hdue : (flushUpdate (begin s t)).time.nextBoundary ≤ now (flushUpdate (begin s t)))
    (hopen : barOpen (flushUpdate (begin s t)) = true) :
    ∃ u, execPickBoundary t x s = .next u ∧ SamePick (s.time.pick + 1) u := by
  have h0 : SamePick s.time.pick (flushUpdate (begin s t)) := flushUpdate_pick (begin_pick s t)
  unfold execPickBoundary
  refine ⟨_, rfl, ?_⟩
  rw [if_neg (by simp [hopen, hdue])]
  refine SamePick.ite (beginPick_rises h0) (SamePick.foldl _ (stepEvents_pick (SamePick.ite ?_ ?_)) fun _ _ => lookAt_pick)
  · exact recoveryBoundary_rises h0
  · exact fullBoundary_rises h0

/-- Settles O16: of all that a boundary does, only the beginning of the next pick names the pick number. -/
theorem pickNumberRises : Obligations.PickNumberRises := by
  intro s t x s0 hdue hopen
  obtain ⟨u, hu, hp⟩ := execPickBoundary_rises (x := x) hdue hopen
  exact ⟨u, hu, hp.pick⟩

end Sys2Proof.Laws

/-! ### The reset controller (15_reset_and_start R513 to R529) -/

namespace Sys2Proof.Laws

open Sys2Proof Sys2Proof.Machine

/-- A field written outside the sets reads as written, in its width. -/
theorem liveFld_setFld {s : State} (h : banksOk s = true) (f : Field) (i v e : Nat) :
    liveFld (setFld s f i v e) f i e = v % 2 ^ f.width :=
  bankGet_bankSet (live_wf h) f i v e

/-- A field of a register written whole is the part of the value that the field covers. -/
theorem bankGet_bankWrite {b : Bank} (h : bankWf b = true) (f : Field) (v : Nat) :
    bankGet (bankWrite b (regKey f.reg 0 0) v) f 0 = bitsOf v f.lo f.width := by
  rw [bankGet, bankReg, bankLookup_bankWrite h]

/-- A message that is taken, and whose action gives its reply at once, is answered on the state that the action leaves. -/
theorem message_answers {s u : State} {k cls op tag : Nat} {c e : Bool} {act : State → State × MsgRes} {r : MsgRes}
    (h : acts s k cls op tag c e = true) (hact : act (entered s k cls op tag) = (u, r)) (hr : r.later = false) :
    message s k cls op tag c e act = answer u k tag c r := by
  rw [message_acts h, hact, if_neg (by simp [hr])]

/-! #### Operations that change the registers, or the outputs, and nothing else -/

/-- From `s` to `u` nothing but the registers outside the sets has changed. -/
def LiveOnly (s u : State) : Prop := ∃ l, u = { s with live := l }

theorem LiveOnly.refl (s : State) : LiveOnly s s := ⟨s.live, rfl⟩

theorem LiveOnly.setFld {s u : State} (h : LiveOnly s u) (f : Field) (i v e : Nat) : LiveOnly s (setFld u f i v e) := by
  obtain ⟨l, rfl⟩ := h
  exact ⟨_, rfl⟩

theorem LiveOnly.ite {s u v : State} {c : Prop} [Decidable c] (hu : LiveOnly s u) (hv : LiveOnly s v) :
    LiveOnly s (if c then u else v) := by
  split <;> assumption

theorem LiveOnly.sys {s u : State} (h : LiveOnly s u) : u.sys = s.sys := by
  obtain ⟨l, rfl⟩ := h
  rfl

/-- From `s` to `u` outputs have joined and nothing else has changed. -/
def EmitsOnly (s u : State) : Prop := ∃ os, u = { s with out := s.out ++ os }

theorem EmitsOnly.refl (s : State) : EmitsOnly s s := ⟨[], by simp⟩

theorem EmitsOnly.emit {s u : State} (h : EmitsOnly s u) (o : Output) : EmitsOnly s (emit u o) := by
  obtain ⟨os, rfl⟩ := h
  exact ⟨os ++ [o], by simp [Machine.emit]⟩

theorem EmitsOnly.ite {s u v : State} {c : Prop} [Decidable c] (hu : EmitsOnly s u) (hv : EmitsOnly s v) :
    EmitsOnly s (if c then u else v) := by
  split <;> assumption

theorem EmitsOnly.foldl {α : Type} {f : State → α → State} {s u : State} (l : List α) (h : EmitsOnly s u)
    (hf : ∀ x a, EmitsOnly s x → EmitsOnly s (f x a)) : EmitsOnly s (l.foldl f u) := by
  induction l generalizing u with
  | nil => exact h
  | cons a l ih => exact ih (hf _ _ h)

theorem EmitsOnly.mem_out {s u : State} (h : EmitsOnly s u) {o : Output} (ho : o ∈ s.out) : o ∈ u.out := by
  obtain ⟨os, rfl⟩ := h
  exact List.mem_append_left os ho

theorem mem_out_emit (s : State) (o : Output) : o ∈ (emit s o).out :=
  List.mem_append_right _ (List.mem_singleton_self o)

/-! #### What a reset puts down and what it keeps -/

/-- A start cut short changes registers alone, and takes at most one free value. -/
theorem cutShort_eq (s : State) : ∃ l n, cutShort s = { s with live := l, freeCtr := n } := by
  unfold cutShort
  extract_lets fails
  split
  · exact ⟨s.live, s.freeCtr, rfl⟩
  · exact ⟨_, s.freeCtr + 1, rfl⟩

/-- A firmware load cut short loses its transfer and its slot, no more. -/
theorem dropLoad_eq (s : State) : ∃ tr ld sl,
    dropLoad s = { s with host := { s.host with transfers := tr }, sec := { s.sec with load := ld, slots := sl } } := by
  unfold dropLoad
  split
  · exact ⟨_, _, _, rfl⟩
  · exact ⟨s.host.transfers, s.sec.load, s.sec.slots, rfl⟩

/-- The outputs at rest: READY low, and PAIR_LEASE if it was high; the time outputs are off, and nothing else changes (R539). -/
theorem outputsDown_eq (s : State) : ∃ os,
    outputsDown s = { s with out := os, time := { s.time with ppsOut := none, camOut := [false, false] } } ∧
      .pin "READY" false ∈ os ∧ (s.pair.lease = true → .pin "PAIR_LEASE" false ∈ os) := by
  unfold outputsDown
  extract_lets a b c d
  have ha : EmitsOnly s a := .foldl _ (.refl s) fun x n hx => .ite (hx.emit _) hx
  have hb : EmitsOnly s b := .ite (ha.emit _) ha
  have hbd : EmitsOnly b d :=
    have hc : EmitsOnly b c := .ite (EmitsOnly.emit (.refl b) _) (.refl b)
    .ite (hc.emit _) hc
  have hd : EmitsOnly s d := .ite (EmitsOnly.emit (.ite (hb.emit _) hb) _) (.ite (hb.emit _) hb)
  have hlease (h : s.pair.lease = true) : .pin "PAIR_LEASE" false ∈ d.out := by
    have hal : a.pair.lease = true := by
      obtain ⟨os, e⟩ := ha
      rw [e]; exact h
    refine hbd.mem_out ?_
    simp only [b, if_pos hal]
    exact mem_out_emit _ _
  obtain ⟨os, e⟩ := hd
  clear_value d
  subst e
  exact ⟨_, rfl, List.mem_append_left _ (List.mem_append_right _ (List.mem_singleton_self _)),
    fun h => List.mem_append_left _ (List.mem_append_left _ (hlease h))⟩

/-- What a reset leaves: the module at rest, with the log, the audit log, the snapshot, the strips unread and what MRAM holds of
the security functions (R516 to R519). -/
structure RestsAfter (s u : State) : Prop where
  sys : u.sys = { st := .reset }
  prev : u.rst.prev = s.sys.st
  fatal : u.rst.fatal = s.rst.fatal
  job : u.job = {}
  log : u.host.log = s.host.log
  audit : u.sec.audit = s.sec.audit
  owner : u.sec.owner = s.sec.owner
  roots : u.sec.roots = s.sec.roots
  sets : u.sets = { snapshot := s.sets.snapshot }
  strips : u.store.strips = s.store.strips.map fun y => { y with refs := 0 }
  lease : u.pair.lease = false
  time : u.time = { s.time with ppsOut := none, camOut := [false, false] }
  ready : .pin "READY" false ∈ u.out
  leasePin : s.pair.lease = true → .pin "PAIR_LEASE" false ∈ u.out

/-- What a reset leaves does not depend on the registers that note its cause. -/
theorem LiveOnly.restsAfter {s v u : State} (hv : LiveOnly s v) (h : RestsAfter v u) : RestsAfter s u := by
  obtain ⟨l, rfl⟩ := hv
  exact ⟨h.sys, h.prev, h.fatal, h.job, h.log, h.audit, h.owner, h.roots, h.sets, h.strips, h.lease, h.time, h.ready, h.leasePin⟩

theorem inReset_restsAfter (s : State) : RestsAfter s (inReset (outputsDown (cutShort s))) := by
  obtain ⟨l, n, hcut⟩ := cutShort_eq s
  obtain ⟨os, hout, hready, hlease⟩ := outputsDown_eq (cutShort s)
  obtain ⟨tr, ld, sl, hdrop⟩ := dropLoad_eq (outputsDown (cutShort s))
  unfold inReset
  rw [hdrop, hout, hcut]
  rw [hcut] at hlease
  exact ⟨rfl, rfl, rfl, rfl, rfl, rfl, rfl, rfl, rfl, rfl, rfl, rfl, hready, hlease⟩

/-! #### A reset recognised (R515, R516, R528) -/

/-- The reset of a running module in a command on `s`: at rest, held until the tick `free`, RESET_N driven low last. -/
def WentDown (s u : State) (free : Nat) : Prop :=
  u.sys = { st := .reset } ∧ u.rst.prev = s.sys.st ∧ u.rst.free = free ∧ u.job = {} ∧
    u.host.log = s.host.log ∧ u.sec.audit = s.sec.audit ∧ u.sets = { snapshot := s.sets.snapshot } ∧
    u.store.strips = s.store.strips.map (fun y => { y with refs := 0 }) ∧ u.pair.lease = false ∧
    u.time = { s.time with ppsOut := none, camOut := [false, false] } ∧ u.out.getLast? = some (.pin "RESET_N" false) ∧
    Output.pin "READY" false ∈ u.out ∧ (s.pair.lease = true → Output.pin "PAIR_LEASE" false ∈ u.out)

/-- A state held in reset until a tick, with RESET_N driven low. -/
def heldUntil (u : State) (free : Nat) : State :=
  emit { u with rst := { u.rst with free := free } } (.pin "RESET_N" false)

theorem RestsAfter.wentDown {s u : State} (h : RestsAfter s u) (free : Nat) : WentDown s (heldUntil u free) free :=
  ⟨h.sys, h.prev, rfl, h.job, h.log, h.audit, h.sets, h.strips, h.lease, h.time, List.getLast?_concat,
    List.mem_append_left _ h.ready, fun hl => List.mem_append_left _ (h.leasePin hl)⟩

/-- A recognised reset notes its source in RST_CAUSE; a running module then goes down. -/
theorem assertReset_up {s : State} (hoff : s.sys.st ≠ .off) (hreset : s.sys.st ≠ .reset) (self ext : Option Nat) :
    ∃ v, LiveOnly s v ∧ assertReset s self ext = heldUntil (inReset (outputsDown (cutShort v)))
      (Nat.max ((inReset (outputsDown (cutShort v))).time.counter + 2000000) (ext.getD 0) + 10000) := by
  unfold assertReset
  extract_lets a b c
  have ha : LiveOnly s a := by
    unfold a
    split
    · exact ((LiveOnly.refl s).setFld _ _ _ _).setFld _ _ _ _
    · exact .refl s
  have hb : LiveOnly s b := .ite (ha.setFld _ _ _ _) ha
  have hc : LiveOnly s c := by
    unfold c
    split
    · exact hb
    · exact hb.setFld _ _ _ _
    · exact hb
  refine ⟨c, hc, ?_⟩
  rw [hc.sys, if_neg hoff, if_neg hreset]
  rfl

theorem assertReset_restsAfter {s : State} (hoff : s.sys.st ≠ .off) (hreset : s.sys.st ≠ .reset) (self ext : Option Nat) :
    ∃ u, RestsAfter s u ∧ assertReset s self ext = heldUntil u (Nat.max (s.time.counter + 2000000) (ext.getD 0) + 10000) := by
  obtain ⟨v, hv, h⟩ := assertReset_up hoff hreset self ext
  have hrest : RestsAfter s (inReset (outputsDown (cutShort v))) := hv.restsAfter (inReset_restsAfter v)
  refine ⟨_, hrest, h.trans ?_⟩
  rw [hrest.time]

theorem assertReset_wentDown {s : State} (hoff : s.sys.st ≠ .off) (hreset : s.sys.st ≠ .reset) (self ext : Option Nat) :
    WentDown s (assertReset s self ext) (Nat.max (s.time.counter + 2000000) (ext.getD 0) + 10000) := by
  obtain ⟨u, hu, h⟩ := assertReset_restsAfter hoff hreset self ext
  rw [h]
  exact hu.wentDown _

theorem assertReset_fatal {s : State} (hoff : s.sys.st ≠ .off) (hreset : s.sys.st ≠ .reset) (self ext : Option Nat) :
    (assertReset s self ext).rst.fatal = s.rst.fatal := by
  obtain ⟨u, hu, h⟩ := assertReset_restsAfter hoff hreset self ext
  rw [h]
  exact hu.fatal

/-- RESET_N low from outside while the module is in reset lengthens the reset (R515). -/
theorem assertReset_inReset {s : State} (h : s.sys.st = .reset) (till : Nat) :
    assertReset s none (some till) =
      { setFld s Fld.RST_CAUSE_PIN_EXT 0 1 with rst := { s.rst with free := Nat.max s.rst.free (till + 10000) } } := by
  have hup : (setFld s Fld.RST_CAUSE_PIN_EXT 0 1).sys.st = .reset := h
  unfold assertReset
  simp only [Option.isSome_some, if_true, hup, reduceCtorEq, if_false, Option.getD_some, setFld_rst]

/-! #### The commands -/

theorem execPowerOn_off {s : State} {t : Nat} (hb : banksOk s = true) (hoff : (begin s t).sys.st = .off) :
    let s0 := begin s t
    ∃ u, execPowerOn t s = .next u ∧ u.sys = { s0.sys with st := .reset } ∧
      u.rst = { s0.rst with prev := .off, free := s0.time.counter + 2010000 } ∧ liveFld u Fld.RST_CAUSE_POR = 1 ∧
      liveFld u Fld.RST_CAUSE_PIN_EXT = 0 ∧ liveFld u Fld.RST_CAUSE_PIN_SELF = 0 ∧ liveFld u Fld.RST_CAUSE_WARM_OK = 0 ∧
      regsKept s0 u [regKey .RST_CAUSE 0 0] ∧ u.out = s0.out ++ [.pin "RESET_N" false] := by
  intro s0
  have hwf : bankWf s0.live = true := live_wf (banks_begin hb t)
  unfold execPowerOn
  extract_lets _ a _
  rw [if_neg (not_not_intro hoff)]
  refine ⟨_, rfl, rfl, rfl, bankGet_bankWrite hwf Fld.RST_CAUSE_POR _, bankGet_bankWrite hwf Fld.RST_CAUSE_PIN_EXT _,
    bankGet_bankWrite hwf Fld.RST_CAUSE_PIN_SELF _, bankGet_bankWrite hwf Fld.RST_CAUSE_WARM_OK _, fun k hk => ?_, rfl⟩
  exact bankLookup_bankWrite_ne hwf _ (by simpa using hk)

theorem execVinBelowPor_on {s : State} {t : Nat} (hon : (begin s t).sys.st ≠ .off) :
    let s0 := begin s t
    ∃ u, execVinBelowPor t s = .next u ∧ u.sys.st = .off ∧ u.host.log = s0.host.log ∧
      u.sec.audit = s0.sec.audit ∧ u.sets = { snapshot := s0.sets.snapshot } ∧ u.store.images = [] ∧ u.store.strips = [] ∧
      u.job = {} ∧ u.sec.owner = s0.sec.owner ∧ u.sec.roots = s0.sec.roots := by
  intro s0
  have h : RestsAfter s0 (inReset (outputsDown (cutShort s0))) := inReset_restsAfter s0
  unfold execVinBelowPor
  extract_lets
  rw [if_neg hon]
  exact ⟨_, rfl, rfl, h.log, h.audit, h.sets, rfl, rfl, h.job, h.owner, h.roots⟩

/-- Whether a low level at RESET_N is recognised (R514). -/
def lowTaken (ns : Nat) (taken : Bool) : Bool := 1500 ≤ ns || (1000 ≤ ns && taken)

/-- Without a restart that is due, RESET_N low is a reset from outside when it is recognised, and else nothing. -/
theorem execResetNLow_pin {s : State} {t : Nat} (hdue : restartDue (begin s t) = false) (ns : Nat) (taken : Bool) :
    execResetNLow t ns taken s = .next (if lowTaken ns taken = true then
      assertReset (begin s t) none (some ((begin s t).time.counter + (ns - 1500))) else begin s t) := by
  unfold execResetNLow
  extract_lets s0 ext
  have hext : ext = if lowTaken ns taken = true then some (s0.time.counter + (ns - 1500)) else none := rfl
  clear_value ext
  rw [hdue, hext]
  cases lowTaken ns taken
  · simp only [Bool.false_eq_true, if_false, Option.isSome_none, s0]
  · simp only [Bool.false_eq_true, if_false, if_true, Option.isSome_some, s0]

/-- A restart that is due is a reset from inside. -/
theorem execResetNLow_restart {s : State} {t : Nat} (hdue : restartDue (begin s t) = true) (taken : Bool) :
    execResetNLow t 0 taken s = .next (assertReset (begin s t) (some 3) none) := by
  unfold execResetNLow
  extract_lets s0 ext
  rw [if_pos hdue]
  rfl

theorem restartDue_none {s : State} (h : s.rst.restart = none) : restartDue s = false := by
  simp [restartDue, h]

theorem execResetNLow_ignored {s : State} {t ns : Nat} {taken : Bool} (hnone : (begin s t).rst.restart = none)
    (h : ns < 1000 ∨ (ns < 1500 ∧ taken = false)) : execResetNLow t ns taken s = .next (begin s t) := by
  have hlow : ¬ lowTaken ns taken = true := by
    rcases h with h | ⟨h, rfl⟩ <;> simp [lowTaken] <;> omega
  rw [execResetNLow_pin (restartDue_none hnone), if_neg hlow]

theorem execResetNLow_down {s : State} {t ns : Nat} {taken : Bool} (hnone : (begin s t).rst.restart = none)
    (h : 1500 ≤ ns ∨ (1000 ≤ ns ∧ taken = true)) (hoff : (begin s t).sys.st ≠ .off) (hreset : (begin s t).sys.st ≠ .reset) :
    ∃ u, execResetNLow t ns taken s = .next u ∧
      WentDown (begin s t) u (Nat.max ((begin s t).time.counter + 2000000) ((begin s t).time.counter + (ns - 1500)) + 10000) := by
  have hlow : lowTaken ns taken = true := by simpa [lowTaken] using h
  rw [execResetNLow_pin (restartDue_none hnone), if_pos hlow]
  exact ⟨_, rfl, assertReset_wentDown hoff hreset _ _⟩

theorem execResetNLow_longer {s : State} {t ns : Nat} {taken : Bool} (hb : banksOk s = true)
    (hnone : (begin s t).rst.restart = none) (h : 1500 ≤ ns) (hreset : (begin s t).sys.st = .reset) :
    let s0 := begin s t
    ∃ u, execResetNLow t ns taken s = .next u ∧ liveFld u Fld.RST_CAUSE_PIN_EXT = 1 ∧
      u.rst = { s0.rst with free := Nat.max s0.rst.free (s0.time.counter + (ns - 1500) + 10000) } ∧
      { u with live := s0.live, rst := s0.rst } = s0 := by
  intro s0
  have hlow : lowTaken ns taken = true := by simp [lowTaken, h]
  rw [execResetNLow_pin (restartDue_none hnone), if_pos hlow, assertReset_inReset hreset]
  exact ⟨_, rfl, liveFld_setFld (banks_begin hb t) Fld.RST_CAUSE_PIN_EXT 0 1 0, rfl, rfl⟩

theorem execSelfRefreshTimeout_inReset {s : State} {t : Nat} (hb : banksOk s = true) (hreset : (begin s t).sys.st = .reset) :
    let s0 := begin s t
    ∃ u, execSelfRefreshTimeout t s = .next u ∧ liveFld u Fld.RST_CAUSE_WARM_OK = 0 ∧
      regsKept s0 u [regKey .RST_CAUSE 0 0] ∧ { u with live := s0.live } = s0 := by
  intro s0
  have hb0 : banksOk s0 = true := banks_begin hb t
  unfold execSelfRefreshTimeout
  extract_lets
  rw [if_pos hreset]
  exact ⟨_, rfl, liveFld_setFld hb0 Fld.RST_CAUSE_WARM_OK 0 0 0, regsKept_setFld (live_wf hb0) Fld.RST_CAUSE_WARM_OK 0 0 0, rfl⟩

theorem execResetRelease_free {s : State} {t : Nat} (hb : banksOk s = true) (hreset : (begin s t).sys.st = .reset)
    (hfree : (begin s t).rst.free ≤ (begin s t).time.counter) :
    let s0 := begin s t
    ∃ u, execResetRelease t s = .next u ∧ u.sys = { st := .boot } ∧
      u.time = {} ∧ u.rst = { s0.rst with warm := liveFld s0 Fld.RST_CAUSE_WARM_OK == 1 } ∧ liveFld u Fld.RST_CAUSE_WARM_OK = 0 ∧
      u.out = s0.out ++ [.pin "RESET_N" true] ∧
      { u with live := s0.live, sys := s0.sys, time := s0.time, rst := s0.rst, pwr := s0.pwr, out := s0.out } = s0 := by
  intro s0
  have hgo : ¬ (s0.sys.st ≠ .reset ∨ s0.time.counter < s0.rst.free) := by
    rintro (h | h)
    · exact h hreset
    · exact absurd hfree (Nat.not_le.mpr h)
  unfold execResetRelease
  extract_lets
  rw [if_neg hgo]
  exact ⟨_, rfl, rfl, rfl, rfl, liveFld_setFld (banks_begin hb t) Fld.RST_CAUSE_WARM_OK 0 0 0, rfl, rfl⟩

theorem execResetRelease_held {s : State} {t : Nat}
    (h : (begin s t).sys.st ≠ .reset ∨ (begin s t).time.counter < (begin s t).rst.free) :
    execResetRelease t s = .next (begin s t) := by
  unfold execResetRelease
  extract_lets
  rw [if_pos h]

/-- A fault that hardware answers with a reset goes down with its code kept for the next start (R608, R609). -/
theorem assertReset_keepsFatal {s : State} (hoff : s.sys.st ≠ .off) (hreset : s.sys.st ≠ .reset) (code cause : Nat) :
    let u := assertReset { s with rst := { s.rst with fatal := some code } } (some cause) none
    u.rst.fatal = some code ∧ WentDown s u (Nat.max (s.time.counter + 2000000) 0 + 10000) :=
  ⟨assertReset_fatal (s := { s with rst := { s.rst with fatal := some code } }) hoff hreset _ _,
    assertReset_wentDown (s := { s with rst := { s.rst with fatal := some code } }) hoff hreset (some cause) none⟩

theorem execWatchdogExpire_up {s : State} {t : Nat} (hoff : (begin s t).sys.st ≠ .off) (hreset : (begin s t).sys.st ≠ .reset) :
    ∃ u, execWatchdogExpire t s = .next u ∧ u.rst.fatal = some 6 ∧
      WentDown (begin s t) u (Nat.max ((begin s t).time.counter + 2000000) 0 + 10000) := by
  unfold execWatchdogExpire
  extract_lets
  rw [if_neg (not_or.mpr ⟨hoff, hreset⟩)]
  exact ⟨_, rfl, assertReset_keepsFatal hoff hreset 6 1⟩

theorem execLockstepMismatch_up {s : State} {t : Nat} (hoff : (begin s t).sys.st ≠ .off) (hreset : (begin s t).sys.st ≠ .reset) :
    ∃ u, execLockstepMismatch t s = .next u ∧ u.rst.fatal = some 7 ∧
      WentDown (begin s t) u (Nat.max ((begin s t).time.counter + 2000000) 0 + 10000) := by
  unfold execLockstepMismatch
  extract_lets
  rw [if_neg (not_or.mpr ⟨hoff, hreset⟩)]
  exact ⟨_, rfl, assertReset_keepsFatal hoff hreset 7 2⟩

theorem actWarmArm_refused {e : State} (h : jobOn e = true ∨ e.sys.st = .recovery) : actWarmArm e = (e, failMsg 5) := if_pos h

theorem actWarmArm_done {e : State} (hb : banksOk e = true) (hjob : jobOn e = false) (hrec : e.sys.st ≠ .recovery) :
    ∃ u, actWarmArm e = (u, okMsg) ∧ u.rst = { e.rst with armedAt := some (now e) } ∧ liveFld u Fld.RST_CAUSE_WARM_OK = 1 ∧
      regsKept e u [regKey .RST_CAUSE 0 0] ∧ { u with rst := e.rst, live := e.live } = e := by
  refine ⟨_, if_neg (not_or.mpr ⟨by simp [hjob], hrec⟩), rfl, ?_, ?_, rfl⟩
  · exact liveFld_setFld (s := { e with rst := { e.rst with armedAt := some (now e) } }) hb Fld.RST_CAUSE_WARM_OK 0 1 0
  · exact regsKept_setFld (live_wf hb) Fld.RST_CAUSE_WARM_OK 0 1 0

theorem execWarmArm_refused {s : State} {t tag : Nat} {ch : Fin 6} (h : acts (begin s t) ch 1 2 tag true true = true)
    (hno : jobOn (entered (begin s t) ch 1 2 tag) = true ∨ (entered (begin s t) ch 1 2 tag).sys.st = .recovery) :
    execWarmArm t ch tag s = .next (answer (entered (begin s t) ch 1 2 tag) ch tag true (failMsg 5)) :=
  congrArg _ (message_answers h (actWarmArm_refused hno) rfl)

theorem execWarmArm_done {s : State} {t tag : Nat} {ch : Fin 6} (hb : banksOk s = true)
    (h : acts (begin s t) ch 1 2 tag true true = true) :
    let e := entered (begin s t) ch 1 2 tag
    jobOn e = false → e.sys.st ≠ .recovery →
      ∃ u, execWarmArm t ch tag s = .next (answer u ch tag true okMsg) ∧ u.rst = { e.rst with armedAt := some (now e) } ∧
        liveFld u Fld.RST_CAUSE_WARM_OK = 1 ∧ regsKept e u [regKey .RST_CAUSE 0 0] ∧ { u with rst := e.rst, live := e.live } = e := by
  intro e hjob hrec
  obtain ⟨u, hact, hu⟩ := actWarmArm_done (banks_entered (banks_begin hb t) ch 1 2 tag) hjob hrec
  exact ⟨u, congrArg _ (message_answers h hact rfl), hu⟩

theorem execWarmArmExpire_early {s : State} {t a : Nat} (ha : (begin s t).rst.armedAt = some a)
    (h : now (begin s t) < a + 10000000000) : execWarmArmExpire t s = .next (begin s t) := by
  unfold execWarmArmExpire
  extract_lets
  rw [ha]
  exact congrArg _ (if_neg (Nat.not_le.mpr h))

theorem execWarmArmExpire_due {s : State} {t a : Nat} (hb : banksOk s = true) (ha : (begin s t).rst.armedAt = some a)
    (h : a + 10000000000 ≤ now (begin s t)) :
    let s0 := begin s t
    ∃ u, execWarmArmExpire t s = .next u ∧ u.rst = { s0.rst with armedAt := none } ∧
      liveFld u Fld.RST_CAUSE_WARM_OK = 0 ∧ { u with rst := s0.rst, live := s0.live } = s0 := by
  intro s0
  unfold execWarmArmExpire
  extract_lets
  rw [ha]
  refine ⟨_, congrArg _ (if_pos h), rfl, ?_, rfl⟩
  exact liveFld_setFld (s := { s0 with rst := { s0.rst with armedAt := none } }) (banks_begin hb t) Fld.RST_CAUSE_WARM_OK 0 0 0

/-- Settles O54: the law of each command of the reset controller, in the statement's order. -/
theorem resets : Obligations.Resets := by
  intro s t hb s0 down
  refine ⟨execPowerOn_off hb, execVinBelowPor_on, fun ns taken hnone => ⟨?_, ?_, ?_⟩, ?_, ?_, ?_, ?_, ?_, ?_, ?_⟩
  · exact execResetNLow_ignored hnone
  · exact execResetNLow_down hnone
  · exact execResetNLow_longer hb hnone
  · exact fun hdue hoff hreset taken => ⟨_, execResetNLow_restart hdue taken, assertReset_wentDown hoff hreset _ _⟩
  · exact execSelfRefreshTimeout_inReset hb
  · exact execResetRelease_free hb
  · exact execResetRelease_held
  · exact fun hoff hreset => ⟨execWatchdogExpire_up hoff hreset, execLockstepMismatch_up hoff hreset⟩
  · rintro ch tag e h rfl
    exact ⟨execWarmArm_refused h, execWarmArm_done hb h⟩
  · exact fun a ha => ⟨execWarmArmExpire_early ha, execWarmArmExpire_due hb ha⟩

end Sys2Proof.Laws

/-! ### A line sent beside a hub that is shed (02_position_and_lines R52, R53; 08_flean_link R279) -/

namespace Sys2Proof.Laws

open Sys2Proof Sys2Proof.Machine

/-! #### Outputs only join those of the command -/

theorem out_ite {s a b : State} {p : Prop} [Decidable p] (ha : s.out <+: a.out) (hb : s.out <+: b.out) :
    s.out <+: (if p then a else b).out := by
  split <;> assumption

theorem out_foldl {α : Type} {f : State → α → State} (hf : ∀ x a, x.out <+: (f x a).out) (l : List α) (s : State) :
    s.out <+: (l.foldl f s).out := by
  induction l generalizing s with
  | nil => exact List.prefix_rfl
  | cons a l ih => exact (hf s a).trans (ih (f s a))

theorem out_emit (s : State) (o : Output) : s.out <+: (emit s o).out := List.prefix_append _ _

theorem out_sendDatagram (s : State) (kind chan : Nat) (body : List Byte) : s.out <+: (sendDatagram s kind chan body).out := by
  unfold sendDatagram
  split
  · exact List.prefix_rfl
  · exact List.prefix_append _ _

theorem out_sendNotify (s : State) : s.out <+: (sendNotify s).out := by
  unfold sendNotify
  exact out_sendDatagram { s with host := { s.host with session := s.host.session.map fun x => { x with notify := some (now s) } } } _ _ _

theorem out_raiseIrq (s : State) (v : Nat) : s.out <+: (raiseIrq s v).out := by
  unfold raiseIrq
  exact out_ite List.prefix_rfl (List.prefix_append _ _)

theorem out_notifyBit (s : State) (n : Nat) : s.out <+: (notifyBit s n).out := by
  unfold notifyBit
  extract_lets u
  have hu : s.out <+: u.out := out_ite (out_sendNotify s) List.prefix_rfl
  refine out_ite hu ?_
  split
  · exact hu.trans (out_raiseIrq u _)
  · exact hu

theorem out_doorbell (s : State) (n : Nat) : s.out <+: (doorbell s n).out := by
  unfold doorbell
  extract_lets u st v
  have hv : s.out <+: v.out := List.prefix_rfl
  exact out_ite List.prefix_rfl (out_ite hv (hv.trans (out_notifyBit v n)))

theorem out_setSummary (s : State) (k : Nat) : s.out <+: (setSummary s k).out := by
  unfold setSummary
  extract_lets u v w
  have hu : s.out <+: u.out := out_ite List.prefix_rfl List.prefix_rfl
  have hw : s.out <+: w.out := hu
  exact out_ite hu (out_ite hw (hw.trans (out_doorbell w 19)))

theorem out_sticky (s : State) (f : Field) (i b : Nat) : s.out <+: (sticky s f i b).out := by
  unfold sticky
  extract_lets u v w
  have hw : s.out <+: w.out := List.prefix_rfl
  exact out_ite List.prefix_rfl (out_ite hw (hw.trans (out_setSummary w _)))

theorem out_setState (s : State) (st : SysSt) : s.out <+: (setState s st).out := by
  unfold setState
  exact out_ite List.prefix_rfl (out_doorbell (raise { s with sys := { s.sys with st := st } } _ _ _) 24)

theorem out_onLanes (s : State) (u : Nat) (p : HubPacket) : s.out <+: (onLanes s u p).out := by
  have hblocks (x : State) (n : Nat) (bs : List Block) : x.out <+: (sendBlocks x n bs).out := List.prefix_append _ _
  unfold onLanes
  extract_lets first ks standby
  split
  · exact out_foldl (fun x _ => hblocks x _ _) _ s
  · exact out_foldl (fun x _ => hblocks x _ _) _ s

theorem out_toHub (s : State) (u : Nat) (p : HubPacket) : s.out <+: (toHub s u p).out := by
  unfold toHub
  exact out_ite List.prefix_rfl ((out_emit s _).trans (out_onLanes _ u p))

theorem out_sendCmd (s : State) (u cmd : Nat) (args : List Byte) (msg : Option (Nat × Nat)) :
    s.out <+: (sendCmd s u cmd args msg).out := by
  unfold sendCmd
  extract_lets tag c
  exact out_ite List.prefix_rfl (out_toHub (setHub s u _) u _)

/-! #### A pending swap carried through sends, and takes nothing back (R424, R425) -/

theorem out_swapHeads (s : State) (c : Nat) (line : Int) (old new : CfgSet) : s.out <+: (swapHeads s c line old new).out := by
  refine out_foldl (fun x a => ?_) _ s
  obtain ⟨h, p⟩ := a
  dsimp -zeta only
  extract_lets mine other before was y es keep _ z
  have hy : x.out <+: y.out := by
    unfold y
    split
    · exact out_ite List.prefix_rfl (out_sendCmd x _ _ _ _)
    · exact List.prefix_rfl
  exact out_ite List.prefix_rfl (out_ite hy (hy.trans (out_toHub z _ _)))

theorem out_swapColour (s : State) (c : Nat) (old new : CfgSet) : s.out <+: (swapColour s c old new).1.out := by
  unfold swapColour
  extract_lets mine corr coef byCorr byCoef keys base live _ u v
  have hu : s.out <+: u.out := out_ite List.prefix_rfl List.prefix_rfl
  exact out_ite (hu.trans (out_foldl (f := fun s e => setFld s Fld.CLP_COEF_COEF c e.2.2 e.2.1) (fun _ _ => List.prefix_rfl) coef u)) hu

theorem out_beginManual (s : State) (c : Nat) : s.out <+: (beginManual s c).out := by
  unfold beginManual
  split
  · exact List.prefix_rfl
  · refine out_ite List.prefix_rfl ?_
    exact out_swapColour s c _ _

theorem out_swapPath (s : State) (c : Nat) (line : Int) (old new : CfgSet) : s.out <+: (swapPath s c line old new).out := by
  unfold swapPath
  exact out_ite List.prefix_rfl List.prefix_rfl

theorem out_swapSpan (s : State) (c : Nat) (line : Int) (old new : CfgSet) : s.out <+: (swapSpan s c line old new).out := by
  unfold swapSpan
  exact out_ite List.prefix_rfl List.prefix_rfl

theorem out_changeChannel (s : State) (c : Nat) (line : Int) : s.out <+: (changeChannel s c line).out := by
  unfold changeChannel
  split
  · exact List.prefix_rfl
  · refine out_ite List.prefix_rfl ?_
    exact (((out_swapHeads s c line _ _).trans (out_beginManual _ c)).trans (out_swapPath _ c line _ _)).trans
      (out_swapSpan _ c line _ _)

theorem out_manualBlock (s : State) (c : Nat) (line : Int) : s.out <+: (manualBlock s c line).out := by
  unfold manualBlock
  split
  · exact List.prefix_rfl
  · exact out_ite List.prefix_rfl List.prefix_rfl

theorem out_restOfManual (s : State) (c : Nat) : s.out <+: (restOfManual s c).out :=
  out_foldl (fun x _ => out_manualBlock x c _) _ s

theorem out_changeTimed (s : State) : s.out <+: (changeTimed s).out := by
  unfold changeTimed
  split
  · exact List.prefix_rfl
  · extract_lets was now' _ u v
    have hu : s.out <+: u.out := out_ite List.prefix_rfl List.prefix_rfl
    have hv : s.out <+: v.out := hu
    exact out_ite List.prefix_rfl
      (hv.trans (out_foldl (fun x c => out_ite List.prefix_rfl (out_changeChannel x c _)) _ v))

theorem out_swapSlots (s : State) (old new : CfgSet) : s.out <+: (swapSlots s old new).out := by
  refine out_foldl (fun x i => ?_) _ s
  split
  · exact out_sticky x _ _ _
  · exact List.prefix_rfl

theorem out_completeSwap (s : State) : s.out <+: (completeSwap s).out := by
  unfold completeSwap
  split
  · exact List.prefix_rfl
  · extract_lets old new inFlight prior _ u
    exact out_ite ((out_swapSlots u old new).trans (out_doorbell (raise (swapSlots u old new) _ _ _) 17)) List.prefix_rfl

theorem out_changeAll (s : State) : s.out <+: (changeAll s).out := by
  unfold changeAll
  extract_lets u
  have hu : s.out <+: u.out := out_foldl (fun x c => (out_changeChannel x c _).trans (out_restOfManual _ c)) _ s
  exact (hu.trans (out_changeTimed u)).trans (out_completeSwap _)

/-! #### The end of a job, and the cover, take nothing back either (R413, R200) -/

theorem out_finishAccess (s : State) (u : MemUser) : s.out <+: (finishAccess s u).out := by
  unfold finishAccess
  exact out_foldl (fun x n => (setDram_out x n _).symm ▸ List.prefix_rfl) _ s

theorem out_endRead (s : State) (c n : Nat) : s.out <+: (endRead s c n).out := by
  unfold endRead
  exact out_finishAccess s (.read c n)

theorem out_endReads (s : State) (c : Nat) (bs : List BufStrip) : s.out <+: (bs.foldl (fun s b => endRead s c b.copy) s).out :=
  out_foldl (fun x (b : BufStrip) => out_endRead x c b.copy) bs s

theorem out_stopFetch (s : State) : s.out <+: (stopFetch s).out := by
  unfold stopFetch
  refine out_foldl (fun x c => ?_) _ s
  exact out_endReads x c _

theorem out_endJob (s : State) (cause : Nat) : s.out <+: (endJob s cause).out := by
  unfold endJob
  extract_lets _ u
  have hu : s.out <+: u.out := by
    unfold u
    exact out_stopFetch { s with sets := { s.sets with prior := [] } }
  clear_value u
  exact hu.trans (out_doorbell (raise { u with job := { u.job with endCause := cause } } _ _ _) 25)

theorem out_toReady (s : State) : s.out <+: (toReady s).out := (out_setState s .ready).trans (out_changeAll _)

theorem out_checkJob (s : State) : s.out <+: (checkJob s).out := by
  unfold checkJob
  extract_lets done
  have hend (cause : Nat) : s.out <+: (toReady (endJob s cause)).out := (out_endJob s cause).trans (out_toReady _)
  have hpause (code source arg : Nat) : s.out <+: (raise (setState s .paused) code source arg).out := by
    rw [raise_out]
    exact out_setState s .paused
  exact out_ite (out_ite (hend 2) (out_ite (hpause _ _ _) (hend 1))) List.prefix_rfl

theorem out_judgeCover (s : State) (c : Nat) : s.out <+: (judgeCover s c).out := by
  unfold judgeCover
  refine out_ite List.prefix_rfl ?_
  split
  · exact List.prefix_rfl
  · extract_lets n ns u v low was w
    have hw : s.out <+: w.out := List.prefix_rfl
    exact out_ite (hw.trans (out_sticky w _ _ _)) hw

/-! #### The counterexample -/

/-- The number of a hub that no link has (R238): `regKey` gives its count of lines shed the key of the pairing epoch. -/
def farHub : Nat := (Reg.PAIR_EPOCH.ctorIdx - Reg.FL_SHED.ctorIdx) * 8192

/-- A row for that hub, which is shed, and one for hub 0, which is up. -/
def farRow : RowDots := ⟨0, farHub, 0, false, []⟩
def nearRow : RowDots := ⟨1, 0, 0, false, []⟩

/-- A job on channel 0 in crawl mode, with line 0 of both rows ready and reached by the web. -/
def farHubState : State :=
  { sys := { st := .printing }, pos := { crawl := true }, job := { channels := 1 }
    print := { chans := [{ fifo := [⟨0, [farRow, nearRow], false, false⟩] }] }
    link := { hubs := [{ state := 3 }] } }

/-- That state as LINE_SEND takes its next line. -/
def farHubNow : State := sendLater (flushUpdate (begin farHubState 0)) 0

/-- What the statement asks of line 0 before it is sent: ready, at the close of its window, its hub 0 open and not withheld. -/
theorem farHubNow_sends :
    banksOk farHubState = true ∧ maySend farHubNow 0 = true ∧ (chan farHubNow 0).next = 0 ∧
      readyLine farHubNow 0 0 = some ([farRow, nearRow], false) ∧
      lineFire farHubNow 0 0 [farRow, nearRow] = some (leadNs farHubNow, [leadNs farHubNow, leadNs farHubNow]) ∧
      holdOrShed farHubNow 0 0 (leadNs farHubNow) = (0, true) ∧
      0 = earliest (leadNs farHubNow) [leadNs farHubNow, leadNs farHubNow] + 0 - leadNs farHubNow ∧
      (0 : Int) - 5000 ≤ now farHubNow ∧ (now farHubNow : Int) ≤ 0 ∧ swapBefore farHubNow 0 0 = farHubNow ∧
      0 < farHubNow.print.chans.length ∧ linesOff farHubNow = false ∧
      hubOpen farHubNow [(farRow, leadNs farHubNow), (nearRow, leadNs farHubNow)] 0 = true ∧ withheld farHubNow 0 = false ∧
      liveFld farHubNow Fld.PAIR_EPOCH_EPOCH = 0 := by
  decide +kernel

/-- The epoch of an output that is a packet to a hub. -/
def hubEpoch : Output → Option Nat
  | .hub _ e _ _ => some e
  | _ => none

/-- The count of the line shed at the far hub has raised the epoch before the packets of hub 0 go: none is under epoch 0. -/
theorem farHubSent_hubEpoch : ∀ o ∈ (sendNext farHubNow 0).out, hubEpoch o ≠ some 0 := by
  decide +kernel

/-- Refutes O21: the statement bounds no hub's number. Line 0 of a job goes to hub 0, which is up, and to hub 327680, which is shed;
the count of lines shed at that number is the register of the pairing epoch, so hub 0's LINE_DATA leaves under epoch 1, not under the
epoch 0 that stood before. -/
theorem not_linesRenderedAndSent : ¬ Obligations.LinesRenderedAndSent := by
  intro h
  obtain ⟨hbanks, hmay, hnext, hready, hfire, hhold, hclose, hsince, huntil, hswap, hchan, hoff, hopen, hup, hepoch⟩ :=
    farHubNow_sends
  obtain ⟨-, -, hsend, -⟩ := h farHubState 0 0 hbanks
  obtain ⟨-, hgo, -⟩ := hsend 0 [farRow, nearRow] false (leadNs farHubNow) [leadNs farHubNow, leadNs farHubNow] 0 true 0 farHubNow
    hmay hnext.symm hready (List.cons_ne_nil _ _) hfire hhold hclose hswap.symm hchan
  obtain ⟨u, hexec, -, -, -, -, -, hpackets⟩ := hgo hsince huntil rfl
  have hpacket := hpackets hoff (nearRow, leadNs farHubNow) (by simp) (by simpa [nearRow] using hopen) hup
  rw [hepoch] at hpacket
  have hout : u.out <+: (sendNext farHubNow 0).out := by
    rw [show sendNext farHubNow 0 = checkJob (judgeCover u 0) from Host.Outcome.next.inj hexec]
    exact (out_judgeCover u 0).trans (out_checkJob _)
  exact farHubSent_hubEpoch _ (hout.mem hpacket) rfl

end Sys2Proof.Laws

/-! ### Registers, lists and bits for the statements of device time (01_architecture R4, R6) -/

namespace Sys2Proof.Laws

open Sys2Proof Sys2Proof.Machine

theorem banks_setFld {s : State} (h : banksOk s = true) (f : Field) (i v e : Nat) : banksOk (setFld s f i v e) = true :=
  (setFld_keeps (Keeps.refl s)).banks h

theorem banks_doorbell {s : State} (h : banksOk s = true) (n : Nat) : banksOk (doorbell s n) = true :=
  (doorbell_keeps (Keeps.refl s)).banks h

/-- A write of one register leaves the fields of another. -/
theorem bankReg_bankSet_ne {b : Bank} (h : bankWf b = true) {f : Field} {r : Reg} (hr : r.ctorIdx ≠ f.reg.ctorIdx) {i j : Nat}
    (hi : i < 8192) (hj : j < 8192) (v : Nat) : bankReg (bankSet b f i v) r j 0 = bankReg b r j 0 :=
  bankLookup_bankWrite_ne h _ (regKey_ne hj hi hr)

theorem bankGet_bankSet_ne {b : Bank} (h : bankWf b = true) {f g : Field} (hr : g.reg.ctorIdx ≠ f.reg.ctorIdx) {i j : Nat}
    (hi : i < 8192) (hj : j < 8192) (v : Nat) : bankGet (bankSet b f i v) g j = bankGet b g j := by
  rw [bankGet, bankReg_bankSet_ne h hr hi hj, bankGet]

theorem liveFld_setFld_ne {s : State} (h : banksOk s = true) {f g : Field} (hr : g.reg.ctorIdx ≠ f.reg.ctorIdx) {i j : Nat}
    (hi : i < 8192) (hj : j < 8192) (v : Nat) : liveFld (setFld s f i v) g j = liveFld s g j :=
  bankGet_bankSet_ne (live_wf h) hr hi hj v

/-- Setting a bit of DB_D2H_STATUS leaves the fields of every other register. -/
theorem liveFld_doorbell_ne {s : State} (h : banksOk s = true) {g : Field} (hr : g.reg.ctorIdx ≠ Reg.DB_D2H_STATUS.ctorIdx)
    {j : Nat} (hj : j < 8192) (n : Nat) : liveFld (doorbell s n) g j = liveFld s g j :=
  liveFld_of_kept (regsKept_doorbell (live_wf h) n) g j 0 (by simpa using regKey_ne hj (by decide) hr)

/-- Setting a sticky bit leaves the fields of a register that is neither its own nor one that collects it (R601). -/
theorem liveFld_sticky_ne {s : State} (h : banksOk s = true) {f g : Field} (hr : g.reg.ctorIdx ≠ f.reg.ctorIdx)
    (hd : g.reg.ctorIdx ≠ Reg.DB_D2H_STATUS.ctorIdx) (hs : g.reg.ctorIdx ≠ Reg.FAULT_SUMMARY.ctorIdx) {i j : Nat}
    (hi : i < 8192) (hj : j < 8192) (b : Nat) : liveFld (sticky s f i b) g j = liveFld s g j := by
  refine liveFld_of_kept (regsKept_sticky (live_wf h) f i b) g j 0 ?_
  simp only [List.mem_cons, List.not_mem_nil, or_false, not_or]
  exact ⟨regKey_ne hj (by decide) hd, regKey_ne hj (by decide) hs, regKey_ne hj hi hr⟩

/-- A bit of DB_D2H_STATUS reads 1 once the module has set it (R396). -/
theorem testBit_doorbell {s : State} (h : banksOk s = true) {n : Nat} (hn : n < 32) :
    (liveFld (doorbell s n) Fld.DB_D2H_STATUS_STATUS).testBit n = true := by
  unfold doorbell
  replace h : banksOk (noteSet s (regKey .DB_D2H_STATUS 0 0) (2 ^ n)) = true := h
  extract_lets u st v
  change banksOk u = true at h
  have hv : st.testBit n = false → (liveFld v Fld.DB_D2H_STATUS_STATUS).testBit n = true := by
    intro hst
    rw [liveFld_setFld h, Nat.testBit_mod_two_pow, Nat.add_comm, Nat.testBit_two_pow_add_eq, hst, Bool.not_false, Bool.and_true]
    exact decide_eq_true hn
  split_ifs with hset
  · exact hset
  · exact hv (by simpa using hset)
  · rw [liveFld, live_notifyBit]
    exact hv (by simpa using hset)

theorem HostOnly.time_eq {s u : State} (h : HostOnly s u) : u.time = s.time := by
  unfold HostOnly at h
  rw [← h]

/-- A field read as a remainder: the bits above it do not matter. -/
theorem bitsOf_eq_mod_div (v lo w : Nat) : bitsOf v lo w = v % 2 ^ (lo + w) / 2 ^ lo := by
  rw [bitsOf, pow_add, Nat.mod_mul_right_div_self]

/-- Replacing a field leaves the bits below it. -/
theorem putBits_mod (v lo w x : Nat) : putBits v lo w x % 2 ^ lo = v % 2 ^ lo := by
  have h : putBits v lo w x = v % 2 ^ lo + 2 ^ lo * (v / 2 ^ (lo + w) * 2 ^ w + x % 2 ^ w) := by
    unfold putBits
    rw [pow_add]
    ring
  rw [h, Nat.add_mul_mod_self_left, Nat.mod_mod]

theorem bitsOf_putBits_below {v lo w x a b : Nat} (h : a + b ≤ lo) : bitsOf (putBits v lo w x) a b = bitsOf v a b := by
  have hd : 2 ^ (a + b) ∣ 2 ^ lo := pow_dvd_pow 2 h
  rw [bitsOf_eq_mod_div, bitsOf_eq_mod_div, ← Nat.mod_mod_of_dvd _ hd, putBits_mod, Nat.mod_mod_of_dvd _ hd]

theorem sat32_lt (x : Int) : sat32 x < 2 ^ 32 := by
  unfold sat32 unsignedOf
  omega

/-- A fold over distinct elements that only one of them changes. -/
theorem foldl_eq_of_one {α β : Type} {f : β → α → β} {l : List α} {n : α} {b : β} (hl : l.Nodup) (hn : n ∈ l)
    (hbefore : ∀ k ∈ l, k ≠ n → f b k = b) (hafter : ∀ k ∈ l, k ≠ n → f (f b n) k = f b n) : l.foldl f b = f b n := by
  have fixed : ∀ (m : List α) (c : β), (∀ k ∈ m, f c k = c) → m.foldl f c = c := by
    intro m c hm
    induction m with
    | nil => rfl
    | cons k m ih => rw [List.foldl_cons, hm k (by simp), ih fun j hj => hm j (by simp [hj])]
  obtain ⟨l₁, l₂, rfl⟩ := List.append_of_mem hn
  rw [List.nodup_append, List.nodup_cons] at hl
  obtain ⟨-, ⟨hn₂, -⟩, hdisj⟩ := hl
  rw [List.foldl_append, List.foldl_cons,
    fixed l₁ b fun k hk => hbefore k (by simp [hk]) (hdisj k hk n (by simp)),
    fixed l₂ _ fun k hk => hafter k (by simp [hk]) fun e => hn₂ (e ▸ hk)]

/-! ### What reset leaves (03_device_time R75; 11_control_interface R382, R396, R400, R403) -/

/-- An empty bank holds every register at its reset value. -/
theorem bankReg_nil (r : Reg) (i e : Nat) : bankReg [] r i e = keyReset (regKey r i e) := rfl

theorem liveFld_reset (f : Field) (i e : Nat) : liveFld State.reset f i e = bitsOf (keyReset (regKey f.reg i e)) f.lo f.width := rfl

theorem keyReset_doorbell :
    keyReset (regKey .DB_D2H_STATUS 0 0) = 0x0020030F ∧ keyReset (regKey .DB_D2H_MASK 0 0) = 0xFFFFFFFF := by
  decide

theorem keyReset_sysId : keyReset (regKey .SYS_ID 0 0) = 0x1E6C8200 := by decide

theorem keyReset_evtTail : keyReset (regKey .EVT_TAIL 0 0) = 0 := by decide

/-- Settles O7: device time and the lists by the model's own initial values, each register by its entry in the field table. -/
theorem resetState : Obligations.ResetState := by
  refine ⟨by decide, rfl, rfl, rfl, rfl, ?_, ?_, keyReset_sysId, rfl, ?_⟩
  · exact (liveFld_reset Fld.DB_D2H_STATUS_STATUS 0 0).trans (congrArg (bitsOf · 0 32) keyReset_doorbell.1)
  · exact (liveFld_reset Fld.DB_D2H_MASK_MASK 0 0).trans (congrArg (bitsOf · 0 32) keyReset_doorbell.2)
  · exact ((liveFld_reset Fld.EVT_TAIL_TAIL 0 0).trans (congrArg (bitsOf · 0 32) keyReset_evtTail)).symm

end Sys2Proof.Laws

/-! ### Reading device time and time-stamps (03_device_time R76, R87 to R90) -/

namespace Sys2Proof.Laws

open Sys2Proof Sys2Proof.Machine

theorem execTimNowLoRead_latches (s : State) (t : Nat) :
    let s0 := begin s t
    ∃ u, execTimNowLoRead t s = .next u ∧ u.out = s0.out ++ [.value [now s0 % 2 ^ 32]] ∧
      u.time.nowHi = now s0 / 2 ^ 32 % 2 ^ 32 ∧ { u with out := s0.out, time := { u.time with nowHi := s0.time.nowHi } } = s0 :=
  ⟨_, rfl, rfl, rfl, rfl⟩

theorem execPtpEventReceive_stamps {s : State} {t kind : Nat} {port : Fin 2} (hport : ptpPort (begin s t) port = true)
    (hkind : kind ≤ 3) (hlen : port < (begin s t).time.rxStamps.length) :
    let s0 := begin s t
    ∃ u, execPtpEventReceive t port kind s = .next u ∧
      nth u.time.rxStamps port 0 = (now s0 + signedOf 16 (liveFld s0 Fld.TIM_ETH_ASYM_ASYM port)).toNat ∧
      { u with time := { u.time with rxStamps := s0.time.rxStamps } } = s0 := by
  intro s0
  unfold execPtpEventReceive
  extract_lets
  rw [if_pos ⟨hport, hkind⟩]
  exact ⟨_, rfl, nth_upd hlen _ 0, rfl⟩

/-- The Follow_Up messages that reading entries sends: those of Sync and Pdelay_Resp (R88). -/
def followUps (p : Nat) (q : List TxStamp) : List Output :=
  (q.filter fun e => decide (e.ident.kind = 0 ∨ e.ident.kind = 3)).map fun e => .followUp p e.ident e.stamp

theorem followUps_append (p : Nat) (q r : List TxStamp) : followUps p (q ++ r) = followUps p q ++ followUps p r := by
  simp [followUps]

/-- From `s` to `u` the PTP stack has read the `n` oldest entries of port p's queue and nothing else has happened (R89). -/
structure StampsRead (p n : Nat) (s u : State) : Prop where
  queue : nth u.time.txq p [] = (nth s.time.txq p []).drop n
  out : u.out = s.out ++ followUps p ((nth s.time.txq p []).take n)
  rest : { u with time := { u.time with txq := s.time.txq }, out := s.out } = s

theorem length_of_nth_cons {α : Type} {l : List (List α)} {p : Nat} {e : α} {q : List α} (h : nth l p [] = e :: q) :
    p < l.length := by
  by_contra hp
  rw [nth, List.getElem?_eq_none (by omega)] at h
  exact (List.cons_ne_nil _ _ h.symm).elim

/-- One more entry read, the oldest that is left. -/
theorem StampsRead.readTxStamp {p n : Nat} {s u : State} (h : StampsRead p n s u) : StampsRead p (n + 1) s (readTxStamp u p) := by
  obtain ⟨hq, hout, hrest⟩ := h
  unfold Machine.readTxStamp
  split
  next hnil =>
    have hlen : (nth s.time.txq p []).length ≤ n := List.drop_eq_nil_iff.mp (hq.symm.trans hnil)
    refine ⟨?_, ?_, hrest⟩
    · rw [hnil, List.drop_eq_nil_of_le (by omega)]
    · rw [hout, List.take_of_length_le hlen, List.take_of_length_le (by omega)]
  next e q hcons =>
    have hdrop : (nth s.time.txq p []).drop n = e :: q := hq.symm.trans hcons
    have htail : (nth s.time.txq p []).drop (n + 1) = q := by rw [← List.drop_drop, hdrop, List.drop_one, List.tail_cons]
    have htake : (nth s.time.txq p []).take (n + 1) = (nth s.time.txq p []).take n ++ [e] := by
      rw [List.take_add, hdrop, List.take_succ_cons, List.take_zero]
    have hread : nth (upd u.time.txq p fun _ => q) p [] = (nth s.time.txq p []).drop (n + 1) :=
      (nth_upd (length_of_nth_cons hcons) _ _).trans htail.symm
    have hsent : u.out ++ followUps p [e] = s.out ++ followUps p ((nth s.time.txq p []).take (n + 1)) := by
      rw [htake, followUps_append, ← List.append_assoc, hout]
    split_ifs with hkind
    · exact ⟨hread, Eq.trans (by simp [followUps, hkind, emit]) hsent, hrest⟩
    · exact ⟨hread, Eq.trans (by simp [followUps, hkind]) hsent, hrest⟩

theorem stampsRead_foldl (p n : Nat) (s : State) : StampsRead p n s ((List.range n).foldl (fun s _ => readTxStamp s p) s) := by
  induction n with
  | zero => exact ⟨rfl, by simp [followUps], rfl⟩
  | succ n ih =>
    rw [List.range_succ, List.foldl_append]
    exact ih.readTxStamp

/-- A transmit time-stamp joins its port's queue, or is lost when the queue is full (R89, R90). -/
def joinQueue (s : State) (p : Nat) (ident : PtpIdent) : State :=
  if 16 ≤ (nth s.time.txq p []).length then
    raise (sticky (bump s Fld.TIM_TXQ_TXQ_LOST p) Fld.TIM_STATUS_TXQ_OVERFLOW) 0x1004 p
      (liveFld (bump s Fld.TIM_TXQ_TXQ_LOST p) Fld.TIM_TXQ_TXQ_LOST p)
  else { s with time := { s.time with txq := upd s.time.txq p fun q => q ++ [⟨ident, ptpStamp s p, now s⟩] } }

theorem execPtpTxTimestamp_enabled {s : State} {t : Nat} {port : Fin 2} (hport : ptpPort (begin s t) port = true)
    (ident : PtpIdent) (reads : Nat) :
    execPtpTxTimestamp t port ident reads s =
      .next ((List.range reads).foldl (fun s _ => readTxStamp s port) (joinQueue (begin s t) port ident)) :=
  congrArg _ (if_neg (by simp [hport]))

theorem execPtpTxTimestamp_queues {s : State} {t reads : Nat} {port : Fin 2} {ident : PtpIdent} {q : List TxStamp}
    (hport : ptpPort (begin s t) port = true) (hroom : (nth (begin s t).time.txq port []).length < 16)
    (hlen : port < (begin s t).time.txq.length)
    (hq : q = nth (begin s t).time.txq port [] ++ [⟨ident, ptpStamp (begin s t) port, now (begin s t)⟩]) :
    let s0 := begin s t
    ∃ u, execPtpTxTimestamp t port ident reads s = .next u ∧ nth u.time.txq port [] = q.drop reads ∧
      u.out = s0.out ++ followUps port (q.take reads) ∧
      { u with time := { u.time with txq := s0.time.txq }, out := s0.out } = s0 := by
  intro s0
  have hjoin : joinQueue s0 port ident = { s0 with time := { s0.time with
      txq := upd s0.time.txq port fun q => q ++ [⟨ident, ptpStamp s0 port, now s0⟩] } } := if_neg (Nat.not_le.mpr hroom)
  have hjoined : nth (joinQueue s0 port ident).time.txq port [] = q := by
    rw [hjoin, hq]
    exact nth_upd hlen _ _
  obtain ⟨hqueue, hout, hrest⟩ := stampsRead_foldl port reads (joinQueue s0 port ident)
  refine ⟨_, execPtpTxTimestamp_enabled hport ident reads, by rw [hqueue, hjoined], by rw [hout, hjoined, hjoin], ?_⟩
  rw [hjoin] at hrest ⊢
  exact congrArg (fun x : State => { x with time := { x.time with txq := s0.time.txq } }) hrest

/-- A time-stamp lost to a full queue is counted and reported (R90). -/
theorem joinQueue_full {s : State} {p : Nat} (hb : banksOk s = true) (hp : p < 8192)
    (hfull : 16 ≤ (nth s.time.txq p []).length) (ident : PtpIdent) :
    let u := joinQueue s p ident
    liveFld u Fld.TIM_TXQ_TXQ_LOST p = (liveFld s Fld.TIM_TXQ_TXQ_LOST p + 1) % 65536 ∧
      Reported (bump s Fld.TIM_TXQ_TXQ_LOST p) u Fld.TIM_STATUS_TXQ_OVERFLOW 0 0
        ⟨now s, 0x1004, p, liveFld u Fld.TIM_TXQ_TXQ_LOST p⟩ := by
  intro u
  have hb1 : banksOk (bump s Fld.TIM_TXQ_TXQ_LOST p) = true := banks_setFld hb _ _ _ _
  have hu : u = raise (sticky (bump s Fld.TIM_TXQ_TXQ_LOST p) Fld.TIM_STATUS_TXQ_OVERFLOW) 0x1004 p
      (liveFld (bump s Fld.TIM_TXQ_TXQ_LOST p) Fld.TIM_TXQ_TXQ_LOST p) := if_pos hfull
  have hlost : liveFld u Fld.TIM_TXQ_TXQ_LOST p = liveFld (bump s Fld.TIM_TXQ_TXQ_LOST p) Fld.TIM_TXQ_TXQ_LOST p := by
    rw [hu]
    exact liveFld_sticky_ne hb1 (f := Fld.TIM_STATUS_TXQ_OVERFLOW) (by decide) (by decide) (by decide) (by decide) hp 0
  refine ⟨hlost.trans (liveFld_setFld hb Fld.TIM_TXQ_TXQ_LOST p _ 0), ?_⟩
  rw [hlost, hu]
  exact reported (live_wf hb1) (by decide) (by decide) (by decide) (by decide)
    (Nat.mod_eq_of_lt (lt_trans (liveFld_lt _ Fld.TIM_TXQ_TXQ_LOST p 0) (by decide)))

theorem execPtpTxTimestamp_full {s : State} {t : Nat} {port : Fin 2} {ident : PtpIdent} (hb : banksOk s = true)
    (hport : ptpPort (begin s t) port = true) (hfull : 16 ≤ (nth (begin s t).time.txq port []).length) :
    let s0 := begin s t
    ∃ u, execPtpTxTimestamp t port ident 0 s = .next u ∧
      liveFld u Fld.TIM_TXQ_TXQ_LOST port = (liveFld s0 Fld.TIM_TXQ_TXQ_LOST port + 1) % 65536 ∧
      stickyOn u Fld.TIM_STATUS_TXQ_OVERFLOW = true ∧ HostOnly s0 u ∧
      u.host.queued = s0.host.queued ++ [⟨now s0, 0x1004, port, liveFld u Fld.TIM_TXQ_TXQ_LOST port⟩] := by
  intro s0
  obtain ⟨hlost, hon, hqueued, hhost, -⟩ := joinQueue_full (banks_begin hb t) (by omega) hfull ident
  exact ⟨_, execPtpTxTimestamp_enabled hport ident 0, hlost, hon, (hostOnly_setFld s0 _ _ _ _).trans hhost, hqueued⟩

theorem execTxqEntryStale_discards {s : State} {t : Nat} {port : Fin 2} (hb : banksOk s = true)
    (hlen : port < (begin s t).time.txq.length) :
    let s0 := begin s t
    ∃ u, execTxqEntryStale t port s = .next u ∧
      nth u.time.txq port [] = (nth s0.time.txq port []).filter (fun e => decide (now s0 < e.arrived + 100000000)) ∧
      liveFld u Fld.TIM_TXQ_TXQ_STALE port = (liveFld s0 Fld.TIM_TXQ_TXQ_STALE port +
        (nth s0.time.txq port []).countP (fun e => decide (e.arrived + 100000000 ≤ now s0))) % 65536 ∧
      { u with time := s0.time, live := s0.live } = s0 := by
  intro s0
  refine ⟨_, rfl, ?_, bankGet_bankSet (live_wf (banks_begin hb t)) Fld.TIM_TXQ_TXQ_STALE port _ 0, rfl⟩
  refine (nth_upd hlen _ []).trans ?_
  simp only [← decide_not, Nat.not_le]
  rfl

/-- Settles O17: the law of each command, in the statement's order. -/
theorem timeReadsAndStamps : Obligations.TimeReadsAndStamps := by
  intro s t hb s0
  refine ⟨execTimNowLoRead_latches s t, ?_, ?_, ?_, ?_⟩
  · exact fun port kind => execPtpEventReceive_stamps
  · exact fun port ident reads q => execPtpTxTimestamp_queues
  · exact fun port ident => execPtpTxTimestamp_full hb
  · exact fun port => execTxqEntryStale_discards hb

end Sys2Proof.Laws

/-! ### The TIM messages (03_device_time R78 to R81, R91, R96 to R99) -/

namespace Sys2Proof.Laws

open Sys2Proof Sys2Proof.Machine

/-- A trigger changed reads as changed. -/
theorem trig_setTrig {s : State} {n : Nat} (h : n < s.time.trigs.length) (f : Trigger → Trigger) :
    trig (setTrig s n f) n = f (trig s n) :=
  nth_upd h f {}

theorem trig_setTrig_ne {s : State} {n k : Nat} (h : k ≠ n) (f : Trigger → Trigger) : trig (setTrig s n f) k = trig s k :=
  nth_upd_ne h f {}

/-- OFFSET is re-based with INCR so that device time is continuous (R79). -/
theorem setIncr_within {s : State} {n : Nat} (h : 1000000 * ((n : Int) - 2 ^ 32).natAbs ≤ 1000 * 2 ^ 32) :
    ∃ u, setIncr s n = some u ∧ u.time.incr = n ∧ now u = now s ∧
      { u with time := { u.time with incr := s.time.incr, offset := s.time.offset } } = s := by
  refine ⟨_, if_neg (Nat.not_lt.mpr h), rfl, ?_, rfl⟩
  have hrebased : s.time.offset + s.time.counter * ((s.time.incr : Int) - n) + s.time.counter * (n : Int) =
      s.time.offset + s.time.counter * (s.time.incr : Int) := by ring
  simp only [now, deviceTime, hrebased]

theorem execTimSetIncr_owned {s : State} {t tag incr : Nat} {ch : Fin 6} {e : State}
    (h : acts (begin s t) ch 8 0x10 tag true false = true) (he : e = entered (begin s t) ch 8 0x10 tag)
    (hown : hostServo e = true) :
    (1000000 * ((incr : Int) - 2 ^ 32).natAbs ≤ 1000 * 2 ^ 32 →
      ∃ u, execTimSetIncr t ch tag incr s = .next (answer u ch tag true okMsg) ∧ u.time.incr = incr ∧ now u = now e ∧
        { u with time := { u.time with incr := e.time.incr, offset := e.time.offset } } = e) ∧
    (1000 * 2 ^ 32 < 1000000 * ((incr : Int) - 2 ^ 32).natAbs →
      execTimSetIncr t ch tag incr s = .next (answer e ch tag true (failMsg 4))) := by
  subst he
  refine ⟨fun hin => ?_, fun hout => ?_⟩
  · obtain ⟨u, hset, hu⟩ := setIncr_within (s := entered (begin s t) ch 8 0x10 tag) hin
    have hact : actSetIncr incr (entered (begin s t) ch 8 0x10 tag) = (u, okMsg) := by
      simp [actSetIncr, hown, hset, okMsg]
    exact ⟨u, congrArg _ (message_answers h hact rfl), hu⟩
  · have hset : setIncr (entered (begin s t) ch 8 0x10 tag) incr = none := if_pos hout
    have hact : actSetIncr incr (entered (begin s t) ch 8 0x10 tag) = (entered (begin s t) ch 8 0x10 tag, failMsg 4) := by
      simp [actSetIncr, hown, hset, failMsg]
    exact congrArg _ (message_answers h hact rfl)

theorem execTimSlew_owned {s : State} {t tag : Nat} {ch : Fin 6} {d : Int} {e : State}
    (h : acts (begin s t) ch 8 0x11 tag true false = true) (he : e = entered (begin s t) ch 8 0x11 tag)
    (hown : hostServo e = true) (hd : d.natAbs ≤ 10000000) :
    execTimSlew t ch tag d s =
      .next (answer { e with time := { e.time with slewLeft := d * 2 ^ 32, slewing := true } } ch tag true okMsg) := by
  subst he
  refine congrArg _ (message_answers h ?_ rfl)
  simp [hown, Nat.not_lt.mpr hd, startSlew, okMsg]

theorem execTimStep_owned {s : State} {t tag : Nat} {ch : Fin 6} {d : Int} {e : State}
    (h : acts (begin s t) ch 8 0x12 tag true false = true) (he : e = entered (begin s t) ch 8 0x12 tag)
    (hown : hostServo e = true) :
    (jobOn e = false → execTimStep t ch tag d s = .next (answer { e with time := { e.time with
        steps := e.time.steps ++ [⟨d, e.time.pick + 2⟩] } } ch tag true okMsg)) ∧
    (jobOn e = true → execTimStep t ch tag d s = .next (answer e ch tag true (failMsg 5))) := by
  subst he
  refine ⟨fun hjob => congrArg _ (message_answers h ?_ rfl), fun hjob => congrArg _ (message_answers h ?_ rfl)⟩
  · simp [hown, hjob, acceptStep, okMsg]
  · simp [hown, hjob, failMsg]

theorem execTimPpsSecond_names {s : State} {t tag second : Nat} {ch : Fin 6} {e : State}
    (h : acts (begin s t) ch 8 0x13 tag true false = true) (he : e = entered (begin s t) ch 8 0x13 tag) :
    execTimPpsSecond t ch tag second s =
      .next (answer { e with time := { e.time with ppsSecond := some second } } ch tag true okMsg) := by
  subst he
  exact congrArg _ (message_answers h rfl rfl)

/-! #### TIM.TRIG_SET and TIM.TRIG_CANCEL -/

theorem trigBad_lt {n ctrl period : Nat} (h : trigBad n ctrl period = false) : n < 8 := by
  by_contra hn
  simp [trigBad, Nat.not_lt.mp hn] at h

/-- The registers of a trigger as TIM.TRIG_SET writes them, OWNER kept (R96, R102). -/
structure TrigWritten (s u : State) (n ctrl time period count : Nat) : Prop where
  ctrl (f : Field) : f.reg = .TIM_TRIG_CTRL → f.lo + f.width ≤ 14 → liveFld u f n = bitsOf ctrl f.lo f.width
  owner : liveFld u Fld.TIM_TRIG_CTRL_OWNER n = liveFld s Fld.TIM_TRIG_CTRL_OWNER n
  time : liveFld u Fld.TIM_TRIG_TIME_TIME n = time % 2 ^ 64
  period : liveFld u Fld.TIM_TRIG_PERIOD_PERIOD n = period % 2 ^ 32
  count : liveFld u Fld.TIM_TRIG_COUNT_COUNT n = count % 2 ^ 32

theorem writeTrig_written {s : State} (hb : banksOk s = true) {n : Nat} (hn : n < 8192) (ctrl time period count : Nat) :
    TrigWritten s (writeTrig s n ctrl time period count) n ctrl time period count := by
  let own := liveFld s Fld.TIM_TRIG_CTRL_OWNER n
  let word := putBits ctrl 14 2 own
  let b0 := bankWrite s.live (regKey .TIM_TRIG_CTRL n 0) word
  let b1 := bankSet b0 Fld.TIM_TRIG_TIME_TIME n time
  let b2 := bankSet b1 Fld.TIM_TRIG_PERIOD_PERIOD n period
  have h0 : bankWf b0 = true := bankWf_bankWrite (live_wf hb) _ _
  have h1 : bankWf b1 = true := bankWf_bankSet h0 _ _ _ _
  have h2 : bankWf b2 = true := bankWf_bankSet h1 _ _ _ _
  have hword : bankReg (bankSet b2 Fld.TIM_TRIG_COUNT_COUNT n count) .TIM_TRIG_CTRL n 0 = word := by
    rw [bankReg_bankSet_ne h2 (by decide) hn hn, bankReg_bankSet_ne h1 (by decide) hn hn,
      bankReg_bankSet_ne h0 (by decide) hn hn]
    exact bankLookup_bankWrite (live_wf hb) _ _
  have hctrl (f : Field) (hf : f.reg = .TIM_TRIG_CTRL) :
      liveFld (writeTrig s n ctrl time period count) f n = bitsOf word f.lo f.width := by
    rw [liveFld, bankGet, hf]
    exact congrArg (bitsOf · f.lo f.width) hword
  have hown : own % 2 ^ 2 = own := Nat.mod_eq_of_lt (liveFld_lt s Fld.TIM_TRIG_CTRL_OWNER n 0)
  refine ⟨fun f hf hlow => (hctrl f hf).trans (bitsOf_putBits_below hlow), ?_, ?_, ?_, bankGet_bankSet h2 _ _ _ _⟩
  · exact ((hctrl Fld.TIM_TRIG_CTRL_OWNER rfl).trans (bitsOf_putBits _ _ _ _)).trans hown
  · refine (bankGet_bankSet_ne h2 (by decide) hn hn count).trans ?_
    exact (bankGet_bankSet_ne h1 (by decide) hn hn period).trans (bankGet_bankSet h0 _ _ _ _)
  · exact (bankGet_bankSet_ne h2 (by decide) hn hn count).trans (bankGet_bankSet h1 _ _ _ _)

/-- A trigger armed in time is due first at TIME, if it has a target (R97). -/
theorem trig_armTrig {s : State} {n : Nat} (h : n < s.time.trigs.length) :
    (trig (armTrig s n false) n).armed = decide (trigFld s Fld.TIM_TRIG_CTRL_TARGET n ≠ 0) ∧
      (trig (armTrig s n false) n).acted = 0 ∧ (trig (armTrig s n false) n).next = trigFld s Fld.TIM_TRIG_TIME_TIME n := by
  unfold armTrig
  rw [trig_setTrig h]
  exact ⟨by simp [bne, beq_eq_decide], rfl, by simp⟩

/-- A trigger set in time is armed at TIME under its new registers (R96, R97). -/
theorem actTrigSet_inTime {e : State} {n ctrl time period count : Nat} (hb : banksOk e = true)
    (hbad : trigBad n ctrl period = false) (hfree : liveFld e Fld.TIM_TRIG_CTRL_OWNER n = 0) (hlen : n < e.time.trigs.length)
    (hlate : now e + 200 ≤ time) (htime : time < 2 ^ 64) :
    ∃ u, actTrigSet n ctrl time period count e = (u, okMsg) ∧ TrigWritten e u n ctrl time period count ∧
      (trig u n).armed = decide (bitsOf ctrl 0 3 ≠ 0) ∧ (trig u n).acted = 0 ∧ (trig u n).next = time ∧
      { u with live := e.live, time := e.time } = e := by
  let w := writeTrig e n ctrl time period count
  let old := if trigNear e n then some ⟨Nat.max (now e) (occTime e n), trigCtrl e n⟩ else (trig e n).old
  let u := setTrig (armTrig w n false) n fun g => { g with old := old }
  have hw : TrigWritten e w n ctrl time period count :=
    writeTrig_written hb ((trigBad_lt hbad).trans (by decide)) ctrl time period count
  have hact : actTrigSet n ctrl time period count e = (u, okMsg) := by
    simp [actTrigSet, hbad, hfree, Nat.not_lt.mpr hlate, okMsg, u, w, old]
  have htrig : trig u n = { trig (armTrig w n false) n with old := old } :=
    trig_setTrig ((length_upd _ _ _).symm ▸ hlen) _
  obtain ⟨harmed, hacted, hnext⟩ := trig_armTrig (s := w) hlen
  have htarget : trigFld w Fld.TIM_TRIG_CTRL_TARGET n = bitsOf ctrl 0 3 := hw.ctrl Fld.TIM_TRIG_CTRL_TARGET rfl (by decide)
  rw [htarget] at harmed
  refine ⟨u, hact, ⟨hw.ctrl, hw.owner, hw.time, hw.period, hw.count⟩, ?_, ?_, ?_, rfl⟩ <;> rw [htrig]
  · exact harmed
  · exact hacted
  · exact hnext.trans (hw.time.trans (Nat.mod_eq_of_lt htime))

/-- A late trigger under REJECT changes nothing (R96). -/
theorem actTrigSet_late {e : State} {n ctrl time period count : Nat} (hb : banksOk e = true)
    (hbad : trigBad n ctrl period = false) (hfree : liveFld e Fld.TIM_TRIG_CTRL_OWNER n = 0)
    (hlate : time < now e + 200) (htarget : bitsOf ctrl 0 3 ≠ 0) (hreject : bitsOf ctrl 9 2 = 1) :
    actTrigSet n ctrl time period count e = (e, failMsg 12) := by
  have hw := writeTrig_written hb ((trigBad_lt hbad).trans (by decide)) ctrl time period count
  have hpolicy : trigFld (writeTrig e n ctrl time period count) Fld.TIM_TRIG_CTRL_LATE_POLICY n = 1 :=
    (hw.ctrl Fld.TIM_TRIG_CTRL_LATE_POLICY rfl (by decide)).trans hreject
  have hrejects : rejectsLate (writeTrig e n ctrl time period count) n = true := by
    simp [rejectsLate, hpolicy]
  simp [actTrigSet, hbad, hfree, hlate, htarget, hrejects, failMsg]

theorem execTimTrigCancel_disarms {s : State} {t tag n : Nat} {ch : Fin 6} {e : State}
    (h : acts (begin s t) ch 8 0x15 tag true false = true) (he : e = entered (begin s t) ch 8 0x15 tag) (hn : n < 8)
    (hfree : liveFld e Fld.TIM_TRIG_CTRL_OWNER n = 0) (hnear : trigNear e n = false) :
    execTimTrigCancel t ch tag n s =
      .next (answer (setTrig e n fun g => { g with armed := false }) ch tag true okMsg) := by
  subst he
  refine congrArg _ (message_answers h ?_ rfl)
  simp [Nat.not_le.mpr hn, hfree, hnear, okMsg]

/-- Settles O19: each message is the law of its action, answered. -/
theorem timeMessages : Obligations.TimeMessages := by
  intro s t ch tag hb
  refine ⟨fun _ _ => execTimSetIncr_owned, fun _ _ => execTimSlew_owned, fun _ _ => execTimStep_owned,
    fun _ _ => execTimPpsSecond_names, ?_, fun _ _ => execTimTrigCancel_disarms⟩
  rintro n ctrl time period count e h rfl hbad hfree hlen
  have hbe : banksOk (entered (begin s t) ch 8 0x14 tag) = true := banks_entered (banks_begin hb t) ch 8 0x14 tag
  refine ⟨fun hlate htime hperiod hcount hnear => ?_, fun hlate htarget hreject => ?_⟩
  · obtain ⟨u, hact, hw, harmed, hacted, hnext, hrest⟩ := actTrigSet_inTime (count := count) hbe hbad hfree hlen hlate htime
    exact ⟨u, congrArg _ (message_answers h hact rfl), hw.time.trans (Nat.mod_eq_of_lt htime),
      hw.period.trans (Nat.mod_eq_of_lt hperiod), hw.count.trans (Nat.mod_eq_of_lt hcount),
      hw.ctrl Fld.TIM_TRIG_CTRL_TARGET rfl (by decide), hw.owner.trans hfree, harmed, hacted, hnext, hrest⟩
  · exact congrArg _ (message_answers h (actTrigSet_late hbe hbad hfree hlate htarget hreject) rfl)

end Sys2Proof.Laws

/-! ### PPS, lock and triggers (03_device_time R80, R84, R85, R90 to R92, R95, R97, R100) -/

namespace Sys2Proof.Laws

open Sys2Proof Sys2Proof.Machine

/-! #### The servo -/

theorem servoAdjust_none (s : State) : servoAdjust s .none = s := by
  unfold servoAdjust
  exact ite_self s

/-- Lock declared: LOCKED reads 1 and event 0x1002 waits with the error measured (R84). -/
def lockDeclared (s : State) : State :=
  raise { s with time := { s.time with locked := true, relock := false } } 0x1002 s.time.source (liveFld s Fld.TIM_ERROR_SERVO_ERROR)

/-- A good measurement behind seven others declares lock (R84). -/
theorem judgeLock_lockCounters {s : State} {err : Int} (hlock : s.time.locked = false) (hrun : 7 ≤ s.time.goodRun)
    (hsecond : s.time.source ≠ 2 ∨ s.time.ppsSecond.isSome) (herr : err.natAbs < liveFld s Fld.TIM_LOCK_LOCK_LIMIT) :
    judgeLock (lockCounters s err) = lockDeclared (lockCounters s err) := by
  unfold judgeLock
  refine if_pos ?_
  have hgood : 8 ≤ (lockCounters s err).time.goodRun := by
    have : (lockCounters s err).time.goodRun = s.time.goodRun + 1 := if_pos herr
    omega
  have hsec : (lockCounters s err).time.source ≠ 2 ∨ (lockCounters s err).time.ppsSecond.isSome = true := hsecond
  have hunlocked : (lockCounters s err).time.locked = false := hlock
  simpa [hgood, hunlocked] using hsec

/-- From `s` to `u` a measured error is recorded and lock declared, and nothing else but the servo's own counts changes (R84). -/
structure MeasuredLock (s u : State) (err : Int) : Prop where
  locked : u.time.locked = true
  holdover : u.time.holdover = false
  second : u.time.ppsSecond = s.time.ppsSecond
  sameTime : now u = now s
  live : u.live = (setFld s Fld.TIM_ERROR_SERVO_ERROR 0 (sat32 err)).live
  queued : u.host.queued = s.host.queued ++ [⟨now s, 0x1002, s.time.source, sat32 err⟩]
  rest : HostOnly s { u with time := s.time }

theorem MeasuredLock.error {s u : State} {err : Int} (hb : banksOk s = true) (h : MeasuredLock s u err) :
    liveFld u Fld.TIM_ERROR_SERVO_ERROR = sat32 err := by
  rw [liveFld, h.live]
  exact (liveFld_setFld hb Fld.TIM_ERROR_SERVO_ERROR 0 _ 0).trans (Nat.mod_eq_of_lt (sat32_lt err))

/-- The eighth good measurement in a row (R84). -/
theorem takeMeasurement_declares {s : State} {err : Int} (hb : banksOk s = true) (hlock : s.time.locked = false)
    (hrun : 7 ≤ s.time.goodRun) (hsecond : s.time.source ≠ 2 ∨ s.time.ppsSecond.isSome)
    (herr : err.natAbs < liveFld s Fld.TIM_LOCK_LOCK_LIMIT) : MeasuredLock s (takeMeasurement s err .none) err := by
  let m := setFld s Fld.TIM_ERROR_SERVO_ERROR 0 (sat32 err)
  have hlimit : liveFld m Fld.TIM_LOCK_LOCK_LIMIT = liveFld s Fld.TIM_LOCK_LOCK_LIMIT :=
    liveFld_setFld_ne hb (by decide) (by decide) (by decide) _
  have herror : liveFld (lockCounters m err) Fld.TIM_ERROR_SERVO_ERROR % 2 ^ 32 = sat32 err := by
    have hread : liveFld (lockCounters m err) Fld.TIM_ERROR_SERVO_ERROR = sat32 err % 2 ^ 32 :=
      liveFld_setFld hb Fld.TIM_ERROR_SERVO_ERROR 0 _ 0
    rw [hread, Nat.mod_mod, Nat.mod_eq_of_lt (sat32_lt err)]
  have hu : takeMeasurement s err .none = lockDeclared (lockCounters m err) :=
    (servoAdjust_none _).trans (judgeLock_lockCounters (s := m) hlock hrun hsecond (hlimit.symm ▸ herr))
  rw [hu]
  exact ⟨rfl, rfl, rfl, rfl, rfl, congrArg (fun a => s.host.queued ++ [⟨now s, 0x1002, s.time.source, a⟩]) herror, rfl⟩

theorem execServoMeasurement_none {s : State} {t : Nat} (hfree : (begin s t).time.source ≠ 0)
    (hpps : (begin s t).time.source ≠ 2) (err : Int) (act : ServoAct) :
    execServoMeasurement t err act none s = .next (takeMeasurement (begin s t) err act) :=
  congrArg _ (if_neg (not_or.mpr ⟨hfree, hpps⟩))

theorem execServoMeasurement_declares {s : State} {t : Nat} {err : Int} (hb : banksOk s = true)
    (hsource : (begin s t).time.source = 1) (hlock : (begin s t).time.locked = false) (hrun : 7 ≤ (begin s t).time.goodRun)
    (herr : err.natAbs < liveFld (begin s t) Fld.TIM_LOCK_LOCK_LIMIT) :
    let s0 := begin s t
    ∃ u, execServoMeasurement t err .none none s = .next u ∧ u.time.locked = true ∧ u.time.holdover = false ∧
      liveFld u Fld.TIM_ERROR_SERVO_ERROR = sat32 err ∧
      u.host.queued = s0.host.queued ++ [⟨now s0, 0x1002, 1, sat32 err⟩] ∧ HostOnly s0 { u with time := s0.time } := by
  intro s0
  have hb0 : banksOk s0 = true := banks_begin hb t
  have hpps : s0.time.source ≠ 2 := by simp [s0, hsource]
  have hm := takeMeasurement_declares hb0 hlock hrun (.inl hpps) herr
  exact ⟨_, execServoMeasurement_none (by simp [hsource]) hpps err .none, hm.locked, hm.holdover, hm.error hb0,
    hm.queued.trans (by rw [hsource]), hm.rest⟩

theorem execServoMeasurement_some (s : State) (t : Nat) (err : Int) (act : ServoAct) (x : PtpExchange) :
    let s0 := begin s t
    let r := readExchange s0 x
    execServoMeasurement t err act (some x) s =
      .next (if s0.time.source = 0 ∨ s0.time.source = 2 then s0 else if r.2 then takeMeasurement r.1 err act else r.1) :=
  rfl

/-- A measurement whose time-stamp was lost or discarded counts for nothing (R90). -/
theorem execServoMeasurement_lost {s : State} {t : Nat} {x : PtpExchange}
    (hlost : ∀ e ∈ nth (begin s t).time.txq x.port [], e.ident ≠ x.ident) (err : Int) (act : ServoAct) :
    execServoMeasurement t err act (some x) s = .next (begin s t) := by
  have hnone : (nth (begin s t).time.txq x.port []).findIdx? (·.ident == x.ident) = none := by
    simpa [List.findIdx?_eq_none_iff] using hlost
  have hread : readExchange (begin s t) x = (begin s t, false) := by
    unfold readExchange
    rw [hnone]
  rw [execServoMeasurement_some, hread]
  exact congrArg _ (ite_self _)

/-! #### The PPS input -/

theorem execPpsInEdge_stamps {s : State} {t : Nat} (hb : banksOk s = true) (act : ServoAct)
    (hsource : (begin s t).time.source ≠ 2) :
    let s0 := begin s t
    ∃ u, execPpsInEdge t act s = .next u ∧ liveFld u Fld.TIM_PPS_IN_TIME_PPS_IN_TIME = now s0 % 2 ^ 64 ∧
      u.time.ppsExpected = some (now s0 + 1000000000) ∧ u.time.ppsSecond = s0.time.ppsSecond.map (· + 1) ∧
      { u with live := s0.live, time := s0.time } = s0 := by
  intro s0
  let m := setFld s0 Fld.TIM_PPS_IN_TIME_PPS_IN_TIME 0 (now s0)
  let u := { m with time := { s0.time with ppsExpected := some (now s0 + 1000000000)
                                           ppsSecond := s0.time.ppsSecond.map (· + 1) } }
  have hu : execPpsInEdge t act s = .next u := by
    unfold execPpsInEdge
    simp only [setFld_time, hsource, if_false]
    rfl
  exact ⟨u, hu, liveFld_setFld (banks_begin hb t) Fld.TIM_PPS_IN_TIME_PPS_IN_TIME 0 _ 0, rfl, rfl, rfl⟩

/-- With SOURCE PPS and no answer of the servo, an edge is stamped, measured, and the next one named (R91). -/
theorem execPpsInEdge_pps {s : State} {t : Nat} (hsource : (begin s t).time.source = 2) :
    let m := setFld (begin s t) Fld.TIM_PPS_IN_TIME_PPS_IN_TIME 0 (now (begin s t))
    let v := takeMeasurement m (ppsError m) .none
    execPpsInEdge t .none s = .next { v with time := { v.time with ppsExpected := some (now v + 1000000000)
                                                                   ppsSecond := v.time.ppsSecond.map (· + 1) } } := by
  unfold execPpsInEdge
  simp only [setFld_time, hsource, if_true, servoAdjust_none, ite_self]

theorem execPpsInEdge_declares {s : State} {t k : Nat} {err : Int} (hb : banksOk s = true)
    (hsource : (begin s t).time.source = 2) (hlock : (begin s t).time.locked = false) (hrun : 7 ≤ (begin s t).time.goodRun)
    (hnamed : (begin s t).time.ppsSecond = some k) (herr : err = (now (begin s t) : Int) - 1000000000 * k)
    (hgood : err.natAbs < liveFld (begin s t) Fld.TIM_LOCK_LOCK_LIMIT) :
    let s0 := begin s t
    ∃ u, execPpsInEdge t .none s = .next u ∧ liveFld u Fld.TIM_PPS_IN_TIME_PPS_IN_TIME = now s0 % 2 ^ 64 ∧
      liveFld u Fld.TIM_ERROR_SERVO_ERROR = sat32 err ∧ u.time.locked = true ∧ u.time.ppsSecond = some (k + 1) ∧
      u.time.ppsExpected = some (now s0 + 1000000000) ∧
      u.host.queued = s0.host.queued ++ [⟨now s0, 0x1002, 2, sat32 err⟩] ∧ HostOnly s0 { u with time := s0.time } := by
  intro s0
  have hb0 : banksOk s0 = true := banks_begin hb t
  let m := setFld s0 Fld.TIM_PPS_IN_TIME_PPS_IN_TIME 0 (now s0)
  have hbm : banksOk m = true := banks_setFld hb0 _ _ _ _
  have hmeasured : ppsError m = err := by
    unfold ppsError
    rw [show m.time.ppsSecond = some k from hnamed, herr]
    rfl
  have hlimit : liveFld m Fld.TIM_LOCK_LOCK_LIMIT = liveFld s0 Fld.TIM_LOCK_LOCK_LIMIT :=
    liveFld_setFld_ne hb0 (by decide) (by decide) (by decide) _
  have hsecond : m.time.ppsSecond.isSome = true := by simp [m, s0, hnamed]
  have hm : MeasuredLock m (takeMeasurement m err .none) err :=
    takeMeasurement_declares hbm hlock hrun (.inr hsecond) (hlimit.symm ▸ hgood)
  have hexec := execPpsInEdge_pps hsource
  dsimp only at hexec
  rw [show ppsError (setFld (begin s t) Fld.TIM_PPS_IN_TIME_PPS_IN_TIME 0 (now (begin s t))) = err from hmeasured] at hexec
  have herror : liveFld (takeMeasurement m err .none) Fld.TIM_ERROR_SERVO_ERROR = sat32 err := hm.error hbm
  have hstamp : liveFld (takeMeasurement m err .none) Fld.TIM_PPS_IN_TIME_PPS_IN_TIME = now s0 % 2 ^ 64 := by
    rw [liveFld, hm.live]
    exact (liveFld_setFld_ne hbm (by decide) (by decide) (by decide) _).trans
      (liveFld_setFld hb0 Fld.TIM_PPS_IN_TIME_PPS_IN_TIME 0 _ 0)
  refine ⟨_, hexec, hstamp, herror, hm.locked, ?_, congrArg (fun n => some (n + 1000000000)) hm.sameTime, ?_,
    (hostOnly_setFld s0 _ _ _ _).trans hm.rest⟩
  · exact congrArg (Option.map (· + 1)) (hm.second.trans hnamed)
  · exact hm.queued.trans (congrArg (fun a => s0.host.queued ++ [⟨now s0, 0x1002, a, sat32 err⟩]) hsource)

theorem execPpsMissing_reports {s : State} {t e : Nat} (hb : banksOk s = true) (he : (begin s t).time.ppsExpected = some e)
    (hlate : e + 1100000000 ≤ now (begin s t)) :
    let s0 := begin s t
    ∃ u, execPpsMissing t s = .next u ∧
      Reported { s0 with time := { s0.time with ppsExpected := some (e + 1000000000) } } u Fld.TIM_STATUS_PPS_MISSING 0 0
        ⟨now s0, 0x1005, 0, e % 2 ^ 32⟩ := by
  intro s0
  unfold execPpsMissing
  extract_lets
  rw [he]
  refine ⟨_, congrArg _ (if_pos hlate), ?_⟩
  exact reported (s := { s0 with time := { s0.time with ppsExpected := some (e + 1000000000) } }) (live_wf (banks_begin hb t))
    (by decide) (by decide) (by decide) (by decide) rfl

/-! #### PPS_OUT -/

theorem execPpsOutPulse_rises {s : State} {t : Nat} (hlow : (begin s t).time.ppsOut = none)
    (hserving : serving (begin s t) = true) (hst : (begin s t).sys.st ≠ .recovery)
    (hsecond : now (begin s t) % 1000000000 ≤ 2 ∨ 999999998 ≤ now (begin s t) % 1000000000)
    (hgate : liveFld (begin s t) Fld.TIM_PPS_PPS_GATE ≠ 1 ∨ (begin s t).time.locked = true) :
    let s0 := begin s t
    ∃ u, execPpsOutPulse t s = .next u ∧ u.out = s0.out ++ [.pps true] ∧
      u.time.ppsOut = some (s0.time.counter + 1000 * liveFld s0 Fld.TIM_PPS_PPS_WIDTH) ∧
      { u with out := s0.out, time := { u.time with ppsOut := s0.time.ppsOut } } = s0 := by
  intro s0
  have hat : atSecond (now s0) = true := by simpa [atSecond] using hsecond
  have hopen : (liveFld s0 Fld.TIM_PPS_PPS_GATE == 1 && !s0.time.locked) = false := by
    rcases hgate with h | h <;> simp [s0, h]
  have hexec : execPpsOutPulse t s = .next (emit { s0 with time := { s0.time with
      ppsOut := some (s0.time.counter + 1000 * liveFld s0 Fld.TIM_PPS_PPS_WIDTH) } } (.pps true)) := by
    unfold execPpsOutPulse
    extract_lets
    rw [hlow]
    exact congrArg _ (if_neg (by simp [s0, hserving, hst, hat, hopen]))
  exact ⟨_, hexec, rfl, rfl, rfl⟩

theorem execPpsOutPulse_falls {s : State} {t f : Nat} (hhigh : (begin s t).time.ppsOut = some f) :
    (f ≤ (begin s t).time.counter → execPpsOutPulse t s =
      .next { begin s t with time := { (begin s t).time with ppsOut := none }, out := (begin s t).out ++ [.pps false] }) ∧
    ((begin s t).time.counter < f → execPpsOutPulse t s = .next (begin s t)) := by
  unfold execPpsOutPulse
  extract_lets
  rw [hhigh]
  exact ⟨fun h => congrArg _ (if_pos h), fun h => congrArg _ (if_neg (Nat.not_le.mpr h))⟩

/-! #### Holdover and the end of a slew -/

theorem gatePps_falls {s : State} (hlock : s.time.locked = false) (hhigh : s.time.ppsOut.isSome = true)
    (hgate : liveFld s Fld.TIM_PPS_PPS_GATE = 1) :
    gatePps s = emit { s with time := { s.time with ppsOut := none } } (.pps false) :=
  if_pos (by simp [hlock, hhigh, hgate])

theorem gatePps_stays {s : State} (h : ¬ (s.time.ppsOut.isSome = true ∧ liveFld s Fld.TIM_PPS_PPS_GATE = 1)) : gatePps s = s :=
  if_neg (by simp only [Bool.and_eq_true, beq_iff_eq]; tauto)

theorem gatePps_live (s : State) : (gatePps s).live = s.live := by
  unfold gatePps
  split <;> rfl

theorem gatePps_rest (s : State) :
    { gatePps s with out := s.out, time := { (gatePps s).time with ppsOut := s.time.ppsOut } } = s := by
  unfold gatePps
  split <;> rfl

/-- Losing lock lowers a gated PPS_OUT and is reported (R85, R92). -/
theorem loseLock_reports {s : State} (hb : banksOk s = true) :
    Reported (gatePps { s with time := { s.time with locked := false, relock := false } }) (loseLock s) Fld.TIM_STATUS_LOCK_LOST 0 0
      ⟨now s, 0x1003, s.time.source, liveFld s Fld.TIM_ERROR_SERVO_ERROR⟩ := by
  let v := gatePps { s with time := { s.time with locked := false, relock := false } }
  have hlive : v.live = s.live := gatePps_live _
  have htime : { v.time with ppsOut := s.time.ppsOut } = { s.time with locked := false, relock := false } :=
    congrArg State.time (gatePps_rest { s with time := { s.time with locked := false, relock := false } })
  have hnow : now v = now s := (congrArg deviceTime htime :)
  have hsource : v.time.source = s.time.source := (congrArg TimeSt.source htime :)
  have herror : liveFld v Fld.TIM_ERROR_SERVO_ERROR = liveFld s Fld.TIM_ERROR_SERVO_ERROR := by rw [liveFld, hlive, liveFld]
  have hfits : liveFld v Fld.TIM_ERROR_SERVO_ERROR % 2 ^ 32 = liveFld v Fld.TIM_ERROR_SERVO_ERROR :=
    Nat.mod_eq_of_lt (liveFld_lt v Fld.TIM_ERROR_SERVO_ERROR 0 0)
  rw [← hnow, ← hsource, ← herror]
  exact reported (by rw [hlive]; exact live_wf hb) (by decide) (by decide) (by decide) (by decide) hfits

theorem execHoldoverExpire_locked {s : State} {t : Nat} (hb : banksOk s = true) (hsource : (begin s t).time.source ≠ 0)
    (hlock : (begin s t).time.locked = true)
    (hdue : (begin s t).time.lastMeasure + liveFld (begin s t) Fld.TIM_LOCK_HOLDOVER_TIME * 1000000000 ≤ (begin s t).time.counter) :
    let s0 := begin s t
    let falls := s0.time.ppsOut.isSome = true ∧ liveFld s0 Fld.TIM_PPS_PPS_GATE = 1
    ∃ u v, execHoldoverExpire t s = .next u ∧
      Reported v u Fld.TIM_STATUS_LOCK_LOST 0 0 ⟨now s0, 0x1003, s0.time.source, liveFld s0 Fld.TIM_ERROR_SERVO_ERROR⟩ ∧
      (falls → v.out = s0.out ++ [.pps false] ∧ v.time.ppsOut = none) ∧
      (¬ falls → v.out = s0.out ∧ v.time.ppsOut = s0.time.ppsOut) ∧
      { v with out := s0.out, time := { v.time with ppsOut := s0.time.ppsOut } } =
        { s0 with time := { s0.time with holdover := true, goodRun := 0, locked := false, relock := false } } := by
  intro s0 falls
  let h := { s0 with time := { s0.time with holdover := true, goodRun := 0 } }
  let l := { s0 with time := { s0.time with holdover := true, goodRun := 0, locked := false, relock := false } }
  have hexec : execHoldoverExpire t s = .next (loseLock h) :=
    congrArg _ ((if_neg (not_or.mpr ⟨hsource, Nat.not_lt.mpr hdue⟩)).trans (if_pos hlock))
  refine ⟨loseLock h, gatePps l, hexec, loseLock_reports (s := h) (banks_begin hb t), ?_, ?_, gatePps_rest l⟩
  · rintro ⟨hhigh, hgate⟩
    rw [gatePps_falls (s := l) rfl hhigh hgate]
    exact ⟨rfl, rfl⟩
  · intro hstays
    rw [gatePps_stays (s := l) hstays]
    exact ⟨rfl, rfl⟩

theorem execHoldoverExpire_unlocked {s : State} {t : Nat} (hsource : (begin s t).time.source ≠ 0)
    (hlock : (begin s t).time.locked = false)
    (hdue : (begin s t).time.lastMeasure + liveFld (begin s t) Fld.TIM_LOCK_HOLDOVER_TIME * 1000000000 ≤ (begin s t).time.counter) :
    execHoldoverExpire t s =
      .next { begin s t with time := { (begin s t).time with holdover := true, goodRun := 0 } } :=
  congrArg _ ((if_neg (not_or.mpr ⟨hsource, Nat.not_lt.mpr hdue⟩)).trans (if_neg (Bool.eq_false_iff.mp hlock)))

theorem execSlewDone_done {s : State} {t : Nat} (h : (begin s t).time.slewLeft = 0) :
    execSlewDone t s = .next { begin s t with time := { (begin s t).time with slewing := false } } :=
  congrArg _ (if_pos h)

/-! #### Triggers -/

/-- A host trigger with nothing to do: no occurrence of its own has come, and none of settings replaced (R97, R99). -/
structure TrigIdle (s : State) (k : Nat) : Prop where
  owner : liveFld s Fld.TIM_TRIG_CTRL_OWNER k = 0
  due : trigDue s k = false
  old : (trig s k).old = none

theorem actTrigger_host {s : State} {k : Nat} (h : liveFld s Fld.TIM_TRIG_CTRL_OWNER k = 0) (samples : List TrigSample) :
    actTrigger s k samples = hostTrigger s k samples := by
  unfold actTrigger
  rw [h]
  rfl

theorem oldOccurrence_none {s : State} {k : Nat} (h : (trig s k).old = none) (samples : List TrigSample) :
    oldOccurrence s k samples = s := by
  unfold oldOccurrence
  rw [h]

theorem TrigIdle.actTrigger {s : State} {k : Nat} (h : TrigIdle s k) (samples : List TrigSample) : actTrigger s k samples = s := by
  rw [actTrigger_host h.owner]
  unfold hostTrigger
  rw [oldOccurrence_none h.old]
  exact if_pos (by simp [h.due])

/-- When a trigger is due rests on the trigger, ALIGN_PICK, TIME and device time. -/
theorem trigDue_congr {s u : State} {k : Nat} (htrig : trig u k = trig s k)
    (htime : { u.time with trigs := s.time.trigs } = s.time)
    (halign : liveFld u Fld.TIM_TRIG_CTRL_ALIGN_PICK k = liveFld s Fld.TIM_TRIG_CTRL_ALIGN_PICK k)
    (hat : liveFld u Fld.TIM_TRIG_TIME_TIME k = liveFld s Fld.TIM_TRIG_TIME_TIME k) : trigDue u k = trigDue s k := by
  have hnow : now u = now s := (congrArg deviceTime htime :)
  have hpick (j : Nat) : startOfPick u j = startOfPick s j := by
    unfold startOfPick
    rw [← htime]
  have hocc : occTime u k = occTime s k := by
    unfold occTime trigFld
    dsimp only
    rw [htrig, halign, hat, hpick]
  unfold trigDue
  rw [htrig, hocc, hnow]

theorem TrigIdle.doorbell {s : State} {k : Nat} (hb : banksOk s = true) (hk : k < 8192) (h : TrigIdle s k) (n : Nat) :
    TrigIdle (doorbell s n) k := by
  have htime : (Machine.doorbell s n).time = s.time := HostOnly.time_eq (hostOnly_doorbell s n)
  have htrig : trig (Machine.doorbell s n) k = trig s k := by rw [trig, htime, trig]
  refine ⟨?_, ?_, ?_⟩
  · rw [liveFld_doorbell_ne hb (by decide) hk]
    exact h.owner
  · rw [trigDue_congr htrig (by rw [htime]) (liveFld_doorbell_ne hb (by decide) hk n) (liveFld_doorbell_ne hb (by decide) hk n)]
    exact h.due
  · rw [htrig]
    exact h.old

theorem TrigIdle.setTrig_ne {s : State} {k n : Nat} (hk : k ≠ n) (h : TrigIdle s k) (f : Trigger → Trigger) :
    TrigIdle (setTrig s n f) k := by
  have htrig : trig (setTrig s n f) k = trig s k := trig_setTrig_ne hk f
  exact ⟨h.owner, (trigDue_congr htrig rfl rfl rfl).trans h.due, htrig ▸ h.old⟩

/-- An occurrence on target HOST_IRQ is doorbell bit 20 alone (R95). -/
theorem occur_doorbell {s : State} {n : Nat} (h : liveFld s Fld.TIM_TRIG_CTRL_TARGET n = 6) :
    occur s n (trigCtrl s n) [] = doorbell s 20 := by
  have hg : ctrlFld Fld.TIM_TRIG_CTRL_TARGET (trigCtrl s n) = 6 := h
  have hout : triggerOutput s n (trigCtrl s n) = doorbell s 20 := by simp [triggerOutput, hg]
  rw [occur, hout]
  rfl

/-- A trigger on HOST_IRQ whose occurrence has come acts, and the next occurrence follows (R95, R97). -/
theorem actTrigger_doorbell {s : State} {n : Nat} (howner : liveFld s Fld.TIM_TRIG_CTRL_OWNER n = 0)
    (hold : (trig s n).old = none) (hdue : trigDue s n = true) (hlate : (trig s n).lateDue = false)
    (hlease : leaseGated s (trigCtrl s n) = false) (htarget : liveFld s Fld.TIM_TRIG_CTRL_TARGET n = 6) :
    actTrigger s n [] = passOccurrences (doorbell s 20) n 1 1 := by
  have htrig : trig (doorbell s 20) n = trig s n := by rw [trig, HostOnly.time_eq (hostOnly_doorbell s 20), trig]
  rw [actTrigger_host howner]
  unfold hostTrigger
  rw [oldOccurrence_none hold]
  simp only [hdue, hlease, Bool.not_true, Bool.false_eq_true, if_false, occur_doorbell htarget]
  exact if_neg (by simp [htrig, hlate])

/-- One occurrence passed that has acted: the next lies a period later (R97). -/
theorem trig_passOccurrences_one {s : State} {n : Nat} (h : n < s.time.trigs.length) :
    let g := trig (passOccurrences s n 1 1) n
    g.acted = (trig s n).acted + 1 ∧ g.next = (trig s n).next + trigFld s Fld.TIM_TRIG_PERIOD_PERIOD n ∧
      g.armed = staysArmed s n ((trig s n).acted + 1) := by
  unfold passOccurrences
  rw [trig_setTrig h]
  exact ⟨rfl, by rw [Nat.one_mul], rfl⟩

theorem staysArmed_iff {s : State} {n acted : Nat} :
    staysArmed s n acted = true ↔ trigFld s Fld.TIM_TRIG_PERIOD_PERIOD n ≠ 0 ∧
      (trigFld s Fld.TIM_TRIG_COUNT_COUNT n = 0 ∨ acted < trigFld s Fld.TIM_TRIG_COUNT_COUNT n) := by
  simp [staysArmed]

theorem execTriggerAct_of_foldl {s u : State} {t : Nat} {samples : List TrigSample}
    (h : (List.range 8).foldl (fun s k => actTrigger s k samples) (begin s t) = u) :
    execTriggerAct t samples s = .next { u with out := netOutputs (begin s t) u.out } := by
  subst h
  rfl

/-- Of the eight triggers one has an occurrence, on target HOST_IRQ: it alone acts (R95, R97, R100). -/
theorem foldl_actTrigger_one {s : State} (hb : banksOk s = true) {n : Nat} (hn : n < 8)
    (hothers : ∀ k, k < 8 → k ≠ n → TrigIdle s k)
    (hact : actTrigger s n [] = passOccurrences (doorbell s 20) n 1 1) :
    (List.range 8).foldl (fun s k => actTrigger s k []) s = passOccurrences (doorbell s 20) n 1 1 := by
  rw [← hact]
  refine foldl_eq_of_one List.nodup_range (List.mem_range.mpr hn) (fun k hk hne => ?_) (fun k hk hne => ?_)
  · exact (hothers k (List.mem_range.mp hk) hne).actTrigger []
  · have hk8 : k < 8 := List.mem_range.mp hk
    have hidle : TrigIdle (passOccurrences (doorbell s 20) n 1 1) k :=
      ((hothers k hk8 hne).doorbell hb (by omega) 20).setTrig_ne hne _
    rw [hact]
    exact hidle.actTrigger []

theorem execTriggerAct_one {s : State} {t : Nat} (hb : banksOk s = true) (n : Fin 8)
    (hothers : ∀ k, k < 8 → k ≠ n.val → TrigIdle (begin s t) k)
    (howner : liveFld (begin s t) Fld.TIM_TRIG_CTRL_OWNER n = 0) (hold : (trig (begin s t) n).old = none)
    (hdue : trigDue (begin s t) n = true) (hlate : (trig (begin s t) n).lateDue = false)
    (hlease : leaseGated (begin s t) (trigCtrl (begin s t) n) = false)
    (htarget : liveFld (begin s t) Fld.TIM_TRIG_CTRL_TARGET n = 6) (hlen : n < (begin s t).time.trigs.length) :
    let s0 := begin s t
    ∃ u, execTriggerAct t [] s = .next u ∧ (liveFld u Fld.DB_D2H_STATUS_STATUS).testBit 20 = true ∧
      (trig u n).acted = (trig s0 n).acted + 1 ∧
      (trig u n).next = (trig s0 n).next + liveFld s0 Fld.TIM_TRIG_PERIOD_PERIOD n ∧
      ((trig u n).armed = true ↔ liveFld s0 Fld.TIM_TRIG_PERIOD_PERIOD n ≠ 0 ∧
        (liveFld s0 Fld.TIM_TRIG_COUNT_COUNT n = 0 ∨ (trig s0 n).acted + 1 < liveFld s0 Fld.TIM_TRIG_COUNT_COUNT n)) := by
  intro s0
  have hb0 : banksOk s0 = true := banks_begin hb t
  have hn : (n : Nat) < 8192 := by omega
  have hact := actTrigger_doorbell howner hold hdue hlate hlease htarget
  have hexec := execTriggerAct_of_foldl (foldl_actTrigger_one hb0 n.isLt hothers hact)
  have htime : (doorbell s0 20).time = s0.time := HostOnly.time_eq (hostOnly_doorbell s0 20)
  have htrig : trig (doorbell s0 20) n = trig s0 n := by rw [trig, htime, trig]
  have hperiod : trigFld (doorbell s0 20) Fld.TIM_TRIG_PERIOD_PERIOD n = liveFld s0 Fld.TIM_TRIG_PERIOD_PERIOD n :=
    liveFld_doorbell_ne hb0 (by decide) hn 20
  have hcount : trigFld (doorbell s0 20) Fld.TIM_TRIG_COUNT_COUNT n = liveFld s0 Fld.TIM_TRIG_COUNT_COUNT n :=
    liveFld_doorbell_ne hb0 (by decide) hn 20
  have hlen' : n < (doorbell s0 20).time.trigs.length := by
    rw [htime]
    exact hlen
  obtain ⟨hacted, hnext, harmed⟩ := trig_passOccurrences_one hlen'
  rw [htrig] at hacted hnext harmed
  rw [hperiod] at hnext
  have hbit : (liveFld (passOccurrences (doorbell s0 20) n 1 1) Fld.DB_D2H_STATUS_STATUS).testBit 20 = true :=
    testBit_doorbell hb0 (by decide)
  generalize passOccurrences (doorbell s0 20) n 1 1 = u at hexec hacted hnext harmed hbit
  generalize netOutputs (begin s t) u.out = shown at hexec
  refine ⟨_, hexec, hbit, hacted, hnext, Bool.eq_iff_iff.mp harmed |>.trans ?_⟩
  rw [staysArmed_iff, hperiod, hcount]

/-- Settles O18: the law of each command, in the statement's order. -/
theorem ppsAndLock : Obligations.PpsAndLock := by
  intro s t hb s0
  refine ⟨execPpsInEdge_stamps hb, fun k err => execPpsInEdge_declares hb, fun e => execPpsMissing_reports hb,
    execPpsOutPulse_rises, fun f => execPpsOutPulse_falls, ?_, ?_, ?_, execHoldoverExpire_locked hb,
    execHoldoverExpire_unlocked, execSlewDone_done, ?_, ?_⟩
  · exact fun err act hfree hpps => execServoMeasurement_none hfree hpps err act
  · exact fun err act x hlost => execServoMeasurement_lost hlost err act
  · exact fun err => execServoMeasurement_declares hb
  · rintro samples u rfl
    rfl
  · intro n hothers
    exact execTriggerAct_one hb n fun k hk hne => ⟨(hothers k hk hne).1, (hothers k hk hne).2.1, (hothers k hk hne).2.2⟩

end Sys2Proof.Laws

/-! ### Operations of the image store (04_image_store R112, R127, R128, R130, R132) -/

namespace Sys2Proof.Laws

open Sys2Proof Sys2Proof.Machine

theorem HostOnly.store_eq {s u : State} (h : HostOnly s u) : u.store = s.store := by
  unfold HostOnly at h
  rw [← h]

theorem HostOnly.thm_eq {s u : State} (h : HostOnly s u) : u.thm = s.thm := by
  unfold HostOnly at h
  rw [← h]

/-- The argument of a strip's events is held in 32 bits (R136). -/
theorem stripArg_mod (s : State) (h i : Nat) : stripArg s h i % 2 ^ 32 = stripArg s h i := by
  unfold stripArg
  split
  · exact Nat.mod_mod _ _
  · rfl

/-- The argument of a strip's events depends on the images alone. -/
theorem stripArg_congr {s u : State} (h : u.store.images = s.store.images) (n i : Nat) : stripArg u n i = stripArg s n i := by
  unfold stripArg findImage
  rw [h]

theorem toPeer_emits {s : State} (h : s.thm.tripped = false) (p : PeerItem) : toPeer s p = emit s (.peer p) :=
  if_neg (by simp [h])

theorem toPeer_emitsOnly (s : State) (p : PeerItem) : EmitsOnly s (toPeer s p) :=
  .ite (.refl s) (EmitsOnly.emit (.refl s) _)

/-! #### Requests and their serving change the DRAM channels alone (R112, R113) -/

/-- From `s` to `u` nothing but the DRAM channels has changed. -/
def DramOnly (s u : State) : Prop := ∃ d, u = { s with store := { s.store with dram := d } }

theorem DramOnly.refl (s : State) : DramOnly s s := ⟨s.store.dram, rfl⟩

theorem DramOnly.trans {a b c : State} (h : DramOnly a b) (k : DramOnly b c) : DramOnly a c := by
  obtain ⟨d, rfl⟩ := h
  obtain ⟨e, rfl⟩ := k
  exact ⟨e, rfl⟩

theorem dramOnly_setDram (s : State) (n : Nat) (f : DramChan → DramChan) : DramOnly s (setDram s n f) := ⟨_, rfl⟩

theorem dramOnly_finishAccess (s : State) (u : MemUser) : DramOnly s (finishAccess s u) :=
  List.foldlRecOn _ _ (DramOnly.refl s) fun x hx n _ => hx.trans (dramOnly_setDram x n _)

theorem dramOnly_request (s : State) (u : MemUser) (cls : Nat) (write : Bool) (rows : List RowId) :
    DramOnly s (request s u cls write rows) :=
  List.foldlRecOn _ _ (DramOnly.refl s) fun x hx n _ => hx.trans (dramOnly_setDram x n _)

theorem dramOnly_access (s : State) (u : MemUser) (cls : Nat) (write : Bool) (rows : List RowId) :
    DramOnly s (access s u cls write rows) :=
  (dramOnly_request s u cls write rows).trans (dramOnly_finishAccess _ u)

theorem DramOnly.live {s u : State} (h : DramOnly s u) : u.live = s.live := by
  obtain ⟨d, rfl⟩ := h
  rfl

theorem DramOnly.time {s u : State} (h : DramOnly s u) : u.time = s.time := by
  obtain ⟨d, rfl⟩ := h
  rfl

theorem DramOnly.images {s u : State} (h : DramOnly s u) : u.store.images = s.store.images := by
  obtain ⟨d, rfl⟩ := h
  rfl

theorem DramOnly.host {s u : State} (h : DramOnly s u) : u.host = s.host := by
  obtain ⟨d, rfl⟩ := h
  rfl

theorem DramOnly.strips {s u : State} (h : DramOnly s u) : u.store.strips = s.store.strips := by
  obtain ⟨d, rfl⟩ := h
  rfl

theorem DramOnly.moves {s u : State} (h : DramOnly s u) : u.store.moves = s.store.moves := by
  obtain ⟨d, rfl⟩ := h
  rfl

/-! #### A move abandoned (R130) -/

/-- A move taken from the list of moves. -/
def withoutMove (s : State) (m : StripMove) : State :=
  { s with store := { s.store with moves := s.store.moves.filter (· != m) } }

/-- A move abandoned leaves the list of moves, its requests are served, and MOVE_FAIL is reported with event 0x0309. -/
theorem abandonMove_reported {s : State} (hb : banksOk s = true) (m : StripMove) :
    ∃ v, DramOnly (withoutMove s m) v ∧
      Reported v (abandonMove s m) Fld.IMG_STATUS_MOVE_FAIL 0 0 ⟨now s, 0x0309, m.handle, stripArg s m.handle m.index⟩ := by
  have hd : DramOnly (withoutMove s m) (finishAccess (withoutMove s m) (.move m.chan)) := dramOnly_finishAccess _ _
  refine ⟨_, hd, ?_⟩
  unfold abandonMove
  change Reported _ (raise (sticky (finishAccess (withoutMove s m) (.move m.chan)) Fld.IMG_STATUS_MOVE_FAIL) 0x0309 m.handle
    (stripArg (finishAccess (withoutMove s m) (.move m.chan)) m.handle m.index)) _ _ _ _
  generalize finishAccess (withoutMove s m) (.move m.chan) = v at hd ⊢
  have htime : now v = now s := congrArg deviceTime hd.time
  have hlive : bankWf v.live = true := hd.live ▸ live_wf hb
  rw [← htime]
  exact reported hlive (by decide) (by decide) (by decide) (by decide)
    ((stripArg_mod v _ _).trans (stripArg_congr hd.images _ _))

theorem abandonMove_store (s : State) (m : StripMove) :
    ∃ d, (abandonMove s m).store = { s.store with moves := s.store.moves.filter (· != m), dram := d } := by
  obtain ⟨d, hd⟩ := dramOnly_finishAccess (withoutMove s m) (.move m.chan)
  have hstore : (abandonMove s m).store = (finishAccess (withoutMove s m) (.move m.chan)).store :=
    HostOnly.store_eq ((hostOnly_sticky _ _ _ _).trans (hostOnly_raise _ _ _ _))
  exact ⟨d, hstore.trans (congrArg State.store hd)⟩

/-! #### The directory under reads (R132) -/

/-- A strip without the count of its reads. -/
def unread (x : Strip) : Strip := { x with refs := 0 }

/-- From `s` to `u` the directory names the same strips, but for the reads on them, and the same retries are due. -/
structure SameDirectory (s u : State) : Prop where
  strips : u.store.strips.map unread = s.store.strips.map unread
  retries : u.store.retries = s.store.retries

theorem SameDirectory.refl (s : State) : SameDirectory s s := ⟨rfl, rfl⟩

theorem SameDirectory.trans {a b c : State} (h : SameDirectory a b) (k : SameDirectory b c) : SameDirectory a c :=
  ⟨k.strips.trans h.strips, k.retries.trans h.retries⟩

theorem SameDirectory.ite {s u v : State} {c : Prop} [Decidable c] (hu : SameDirectory s u) (hv : SameDirectory s v) :
    SameDirectory s (if c then u else v) := by
  split <;> assumption

theorem SameDirectory.of_store {s u : State} (h : u.store = s.store) : SameDirectory s u :=
  ⟨by rw [h], by rw [h]⟩

theorem DramOnly.sameDirectory {s u : State} (h : DramOnly s u) : SameDirectory s u := by
  obtain ⟨d, rfl⟩ := h
  exact ⟨rfl, rfl⟩

theorem sameDirectory_beginRead (s : State) (c n : Nat) : SameDirectory s (beginRead s c n) := by
  let v : State := { s with store := { s.store with
    strips := s.store.strips.map fun y => if y.copy = n then { y with refs := y.refs + 1 } else y } }
  have hstrips : v.store.strips.map unread = s.store.strips.map unread := by
    refine (List.map_map ..).trans (List.map_congr_left fun y _ => ?_)
    simp only [Function.comp_apply]
    split <;> rfl
  exact SameDirectory.trans (b := v) ⟨hstrips, rfl⟩ (dramOnly_request v _ _ _ _).sameDirectory

theorem sameDirectory_startReads (s : State) (c : Nat) : SameDirectory s (startReads s c) := by
  unfold startReads
  extract_lets h bufs go s'
  have hs' : SameDirectory s s' :=
    List.foldlRecOn _ _ (.refl s) fun x hx y _ => hx.trans (sameDirectory_beginRead x c _)
  exact ⟨hs'.strips, hs'.retries⟩

theorem sameDirectory_stripStored (s : State) (h : Nat) : SameDirectory s (stripStored s h) :=
  List.foldlRecOn _ _ (.refl s) fun x hx c _ => hx.trans (.ite (sameDirectory_startReads x c) (.refl x))

theorem sameDirectory_restored (s : State) (h i : Nat) : SameDirectory s (restored s h i) :=
  .of_store (HostOnly.store_eq ((hostOnly_raise s 0x030B h _).trans (hostOnly_doorbell _ 26)))

/-- The directory holds a sound strip of these bytes and this cost, with the CRC of its bytes (R128). -/
def HoldsStrip (u : State) (h i : Nat) (bytes : List Byte) (cost : Nat) : Prop :=
  ∃ x, findStrip u h i = some x ∧ x.damaged = false ∧ x.crc = crc32c x.bytes ∧ x.bytes = bytes ∧ x.cost = cost

theorem map_unread_findStrip (s : State) (h i : Nat) :
    (findStrip s h i).map unread = (s.store.strips.map unread).find? fun x => x.handle == h && x.index == i := by
  rw [List.find?_map]
  rfl

/-- Reads that begin leave a strip held. -/
theorem SameDirectory.holdsStrip {s u : State} {h i cost : Nat} {bytes : List Byte} (hd : SameDirectory s u)
    (hs : HoldsStrip s h i bytes cost) : HoldsStrip u h i bytes cost := by
  obtain ⟨x, hx, hdamaged, hcrc, hbytes, hcost⟩ := hs
  have hmap : (findStrip u h i).map unread = some (unread x) := by
    rw [map_unread_findStrip, hd.strips, ← map_unread_findStrip, hx, Option.map_some]
  obtain ⟨y, hy, hyx⟩ := Option.map_eq_some_iff.mp hmap
  have hb : (unread y).bytes = (unread x).bytes := congrArg Strip.bytes hyx
  have hc : (unread y).crc = (unread x).crc := congrArg Strip.crc hyx
  have hk : (unread y).cost = (unread x).cost := congrArg Strip.cost hyx
  have hm : (unread y).damaged = (unread x).damaged := congrArg Strip.damaged hyx
  exact ⟨y, hy, hm.trans hdamaged, hc.trans (hcrc.trans (congrArg crc32c hb.symm)), hb.trans hbytes, hk.trans hcost⟩

theorem find?_putStrip (l : List Strip) (x : Strip) :
    (putStrip l x).find? (fun y => y.handle == x.handle && y.index == x.index) = some x := by
  unfold putStrip
  have hothers : (l.filter fun y => !(y.handle == x.handle && y.index == x.index)).find?
      (fun y => y.handle == x.handle && y.index == x.index) = none :=
    List.find?_eq_none.mpr fun y hy => by simpa [-Bool.not_and] using (List.mem_filter.mp hy).2
  rw [List.find?_append, hothers]
  simp

/-- A strip stored enters the directory, whatever copy it replaces; then the channels of the job begin to read it. -/
theorem storeStrip_enters (s : State) (h i : Nat) (bytes : List Byte) (cost cls : Nat) :
    ∃ v, HoldsStrip v h i bytes cost ∧ v.store.retries = s.store.retries ∧
      SameDirectory v (storeStrip s h i bytes cost cls) := by
  unfold storeStrip
  extract_lets s1 old left
  have h1 : s1.store.retries = s.store.retries :=
    List.foldlRecOn (motive := fun x : State => x.store.retries = s.store.retries) _ _ rfl fun x hx m _ => by
      obtain ⟨d, hd⟩ := abandonMove_store x m
      rw [hd]
      exact hx
  obtain ⟨gs, hgs⟩ : ∃ gs, allocGrains s1 bytes.length (picksBanks s1 h i) = (gs, { s1 with freeCtr := s1.freeCtr + 1 }) :=
    ⟨_, rfl⟩
  rw [hgs]
  dsimp -zeta only
  extract_lets rows s3 x _ s4 s5
  have h3 : s3.store.retries = s.store.retries := by
    obtain ⟨d, hd⟩ := dramOnly_access (wroteRows { s1 with freeCtr := s1.freeCtr + 1 } rows) (.store h i) cls true rows
    exact (congrArg (fun v : State => v.store.retries) hd).trans h1
  have h4 : HoldsStrip s4 h i bytes cost := ⟨x, find?_putStrip _ x, rfl, rfl, rfl, rfl⟩
  have h5 : SameDirectory s4 s5 := .ite (sameDirectory_stripStored s4 h) (.refl s4)
  refine ⟨s4, h4, h3, h5.trans ?_⟩
  clear_value old
  cases old with
  | none => exact .refl s5
  | some o => exact .ite (sameDirectory_restored s5 h i) (.refl s5)

theorem storeStrip_holds (s : State) (h i : Nat) (bytes : List Byte) (cost cls : Nat) :
    HoldsStrip (storeStrip s h i bytes cost cls) h i bytes cost := by
  obtain ⟨v, hv, -, hsame⟩ := storeStrip_enters s h i bytes cost cls
  exact hsame.holdsStrip hv

theorem storeStrip_retries (s : State) (h i : Nat) (bytes : List Byte) (cost cls : Nat) :
    (storeStrip s h i bytes cost cls).store.retries = s.store.retries := by
  obtain ⟨v, -, hv, hsame⟩ := storeStrip_enters s h i bytes cost cls
  exact hsame.retries.trans hv

end Sys2Proof.Laws

/-! ### Strips between the partners (04_image_store R127; 05_line_codec R154, R155; 10_pairing R367) -/

namespace Sys2Proof.Laws

open Sys2Proof Sys2Proof.Machine

/-- A write of one field leaves the fields below it in the same register. -/
theorem liveFld_setFld_below {s : State} (h : banksOk s = true) {f g : Field} (hr : g.reg = f.reg)
    (hlow : g.lo + g.width ≤ f.lo) (i v : Nat) : liveFld (setFld s f i v) g i = liveFld s g i := by
  have hword : bankReg (bankSet s.live f i v) f.reg i 0 = putBits (bankReg s.live f.reg i 0) f.lo f.width v :=
    bankLookup_bankWrite (live_wf h) _ _
  rw [liveFld, liveFld, bankGet, bankGet, hr]
  exact (congrArg (bitsOf · g.lo g.width) hword).trans (bitsOf_putBits_below hlow)

/-- Where no entry of a list is about a strip, leaving its entries out changes nothing and none is found. -/
theorem filter_find?_of_absent {α : Type} (handle index : α → Nat) {l : List α} {h i : Nat}
    (hnone : ∀ a ∈ l, ¬ (handle a = h ∧ index a = i)) :
    l.filter (fun a => !(handle a == h && index a == i)) = l ∧ l.find? (fun a => handle a == h && index a == i) = none := by
  have hother (a : α) (ha : a ∈ l) : (handle a == h && index a == i) = false := by simpa using hnone a ha
  exact ⟨List.filter_eq_self.mpr fun a ha => by simp [hother a ha], List.find?_eq_none.mpr fun a ha => by simp [hother a ha]⟩

/-- A counter advanced reads one more, in its width. -/
theorem liveFld_bump {s : State} (h : banksOk s = true) (f : Field) (i n : Nat) :
    liveFld (bump s f i n) f i = (liveFld s f i + n) % 2 ^ f.width :=
  liveFld_setFld h f i _ 0

/-! #### A strip published (R154, R155) -/

/-- A strip within its cost limit, or not coded, is kept as it came (R154). -/
theorem costChecked_kept {s : State} {hd : StripHead} {out : List Byte} {cost : Nat}
    (h : hd.mode = 1 → cost ≤ costLimit out.length (liveFld s Fld.JLC_CTRL_COST_LIMIT)) (n i : Nat) (bytes : List Byte) :
    costChecked s n i hd bytes out cost = (s, bytes, cost) :=
  if_neg fun ⟨hmode, hcost⟩ => Nat.not_lt.mpr (h hmode) hcost

theorem costChecked_store (s : State) (n i : Nat) (hd : StripHead) (bytes out : List Byte) (cost : Nat) :
    (costChecked s n i hd bytes out cost).1.store = s.store := by
  unfold costChecked
  split
  · exact HostOnly.store_eq ((hostOnly_setFld s _ _ _ _).trans ((hostOnly_sticky _ _ _ _).trans (hostOnly_raise _ _ _ _)))
  · rfl

/-- A strip published is stored: as it came, in stored form where the coded one is not shorter, or encoded anew where it costs
too much. -/
theorem publishStrip_stores (s : State) (h i : Nat) (bytes : List Byte) (hd : StripHead) (out : List Byte) (cost : Nat) :
    ∃ v b k, publishStrip s h i bytes hd out cost = storeStrip v h i b k 3 ∧ v.store = (dropRetry s h i).store ∧
      (hd.mode = 0 → b = bytes ∧ k = cost) ∧
      (hd.mode = 1 → out.length ≤ hd.length → b = (storedStrip hd.lineWidth out).bytes) ∧
      (hd.mode = 1 → hd.length < out.length → cost ≤ costLimit out.length (liveFld s Fld.JLC_CTRL_COST_LIMIT) →
        b = bytes ∧ k = cost) := by
  unfold publishStrip
  extract_lets u e
  by_cases hlong : hd.mode = 1 ∧ out.length ≤ hd.length
  · rw [if_pos hlong]
    exact ⟨u, _, _, rfl, rfl, fun h0 => by omega, fun _ _ => rfl, fun _ hlt => by omega⟩
  · rw [if_neg hlong]
    rcases hc : costChecked u h i hd bytes out cost with ⟨v, b, k⟩
    have hkept (hk : hd.mode = 1 → cost ≤ costLimit out.length (liveFld s Fld.JLC_CTRL_COST_LIMIT)) :
        b = bytes ∧ k = cost := by
      cases hc.symm.trans (costChecked_kept (s := u) hk h i bytes)
      exact ⟨rfl, rfl⟩
    have hv : v.store = u.store := (congrArg (fun p => p.1.store) hc).symm.trans (costChecked_store u h i hd bytes out cost)
    exact ⟨v, b, k, rfl, hv, fun h0 => hkept fun h1 => by omega, fun h1 hle => absurd ⟨h1, hle⟩ hlong,
      fun _ _ hk => hkept fun _ => hk⟩

theorem publishStrip_retries (s : State) (h i : Nat) (bytes : List Byte) (hd : StripHead) (out : List Byte) (cost : Nat) :
    ∀ r ∈ (publishStrip s h i bytes hd out cost).store.retries, ¬ (r.handle = h ∧ r.index = i) := by
  obtain ⟨v, b, k, hp, hv, -⟩ := publishStrip_stores s h i bytes hd out cost
  rw [hp, storeStrip_retries, hv]
  rintro r hr ⟨hh, hi⟩
  have hkept := (List.mem_filter.mp hr).2
  simp [hh, hi] at hkept

/-- What the directory holds of a strip once it is published. -/
theorem publishStrip_holds (s : State) (h i : Nat) (bytes : List Byte) (hd : StripHead) (out : List Byte) (cost : Nat) :
    ∃ x, findStrip (publishStrip s h i bytes hd out cost) h i = some x ∧ x.damaged = false ∧ x.crc = crc32c x.bytes ∧
      (hd.mode = 0 → x.bytes = bytes ∧ x.cost = cost) ∧
      (hd.mode = 1 → out.length ≤ hd.length → x.bytes = (storedStrip hd.lineWidth out).bytes) ∧
      (hd.mode = 1 → hd.length < out.length → cost ≤ costLimit out.length (liveFld s Fld.JLC_CTRL_COST_LIMIT) →
        x.bytes = bytes ∧ x.cost = cost) := by
  obtain ⟨v, b, k, hp, -, hb⟩ := publishStrip_stores s h i bytes hd out cost
  obtain ⟨x, hx, hdamaged, hcrc, rfl, rfl⟩ := storeStrip_holds v h i b k 3
  exact ⟨x, hp ▸ hx, hdamaged, hcrc, hb⟩

theorem execReplStripReceived_decodes {s : State} {t handle index cost : Nat} {bytes out : List Byte} {m : Image} {hd : StripHead}
    (hrole : (begin s t).pair.role = .standby) (himage : findImage (begin s t) handle = some m)
    (hdec : decodeStrip bytes = .ok hd out cost) :
    execReplStripReceived t handle index bytes s =
      .next (publishStrip (begin s t) handle index (bytes.take (32 + hd.length)) hd out cost) := by
  simp [execReplStripReceived, hrole, himage, hdec]

theorem execStripRestored_decodes {s : State} {t handle index cost : Nat} {bytes out : List Byte} {x : Strip} {hd : StripHead}
    (hstrip : findStrip (begin s t) handle index = some x) (hdec : decodeStrip bytes = .ok hd out cost)
    (hdamaged : x.damaged = true) :
    execStripRestored t handle index bytes s =
      .next (publishStrip (begin s t) handle index (bytes.take (32 + hd.length)) hd out cost) := by
  simp [execStripRestored, hstrip, hdec, hdamaged]

/-! #### A delivery that does not decode (R156, R367) -/

theorem liveFld_noteCodecError {s : State} (hb : banksOk s = true) {code : Nat} (hcode : code < 2 ^ 8) (source : Nat) :
    liveFld (noteCodecError s code source) Fld.JLC_LAST_ERR_ERROR_CODE = code :=
  (liveFld_setFld_below (banks_setFld hb _ _ _ _) (by decide) (by decide) 0 source).trans
    ((liveFld_setFld hb Fld.JLC_LAST_ERR_ERROR_CODE 0 code 0).trans (Nat.mod_eq_of_lt hcode))

theorem liveFld_noteCodecError_ne {s : State} (hb : banksOk s = true) {g : Field}
    (hr : g.reg.ctorIdx ≠ Reg.JLC_LAST_ERR.ctorIdx) (code source : Nat) :
    liveFld (noteCodecError s code source) g = liveFld s g :=
  (liveFld_setFld_ne (banks_setFld hb _ _ _ _) hr (by decide) (by decide) source).trans
    (liveFld_setFld_ne hb hr (by decide) (by decide) code)

/-- A delivery that failed, noted and reported (R156). -/
def rejectNoted (s : State) (h i code source : Nat) : State :=
  raise (sticky (bump (noteCodecError s code source) Fld.JLC_REPL_REPL_REJECTS) Fld.JLC_STATUS_REPL_REJECT) 0x0405 h
    (stripArg (sticky (bump (noteCodecError s code source) Fld.JLC_REPL_REPL_REJECTS) Fld.JLC_STATUS_REPL_REJECT) h i)

/-- The unit with other retries. -/
def withRetries (s : State) (rs : List ReplRetry) : State := { s with store := { s.store with retries := rs } }

theorem hostOnly_rejectNoted (s : State) (h i code source : Nat) : HostOnly s (rejectNoted s h i code source) :=
  HostOnly.trans (b := bump (noteCodecError s code source) Fld.JLC_REPL_REPL_REJECTS) rfl
    ((hostOnly_sticky _ _ _ _).trans (hostOnly_raise _ _ _ _))

theorem rejectNoted_reported {s : State} (hb : banksOk s = true) {h i code : Nat} (hcode : code < 2 ^ 8) (source : Nat) :
    let u := rejectNoted s h i code source
    HostOnly s u ∧ liveFld u Fld.JLC_LAST_ERR_ERROR_CODE = code ∧
      liveFld u Fld.JLC_REPL_REPL_REJECTS = (liveFld s Fld.JLC_REPL_REPL_REJECTS + 1) % 2 ^ 32 ∧
      stickyOn u Fld.JLC_STATUS_REPL_REJECT = true ∧
      u.host.queued = s.host.queued ++ [⟨now s, 0x0405, h, stripArg s h i⟩] := by
  intro u
  let e := noteCodecError s code source
  let a := bump e Fld.JLC_REPL_REPL_REJECTS
  have hbe : banksOk e = true := banks_setFld (banks_setFld hb _ _ _ _) _ _ _ _
  have hba : banksOk a = true := banks_setFld hbe _ _ _ _
  have harg : stripArg (sticky a Fld.JLC_STATUS_REPL_REJECT) h i % 2 ^ 32 = stripArg s h i :=
    (stripArg_mod _ _ _).trans (stripArg_congr (congrArg StoreSt.images (HostOnly.store_eq (hostOnly_sticky a _ _ _))) _ _)
  obtain ⟨hon, hqueued, hhost, hregs⟩ : Reported a u Fld.JLC_STATUS_REPL_REJECT 0 0 ⟨now a, 0x0405, h, stripArg s h i⟩ :=
    reported (live_wf hba) (by decide) (by decide) (by decide) (by decide) harg
  refine ⟨HostOnly.trans (b := a) rfl hhost, ?_, ?_, hon, hqueued⟩
  · rw [liveFld_of_kept hregs Fld.JLC_LAST_ERR_ERROR_CODE 0 0 (by decide)]
    refine (liveFld_setFld_ne hbe (f := Fld.JLC_REPL_REPL_REJECTS) (by decide) (by decide) (by decide) _).trans ?_
    exact liveFld_noteCodecError hb hcode source
  · rw [liveFld_of_kept hregs Fld.JLC_REPL_REPL_REJECTS 0 0 (by decide), liveFld_bump hbe,
      liveFld_noteCodecError_ne hb (by decide)]
    rfl

/-- The failures in a row of a strip's deliveries, with the one at hand (R367). -/
def failsInRow (s : State) (h i : Nat) : Nat := match retryOf s h i with | some r => r.fails + 1 | none => 1

/-- Before its third failure in a row a strip is asked for again at once (R367). -/
theorem replReject_early {s : State} {h i code : Nat} {v : State}
    (hv : v = rejectNoted (fresh s).2 h i code (16 + Config.poolEngine s.freeCtr % 2)) (hfails : failsInRow v h i < 3) :
    replReject s h i code = toPeer (withRetries v (v.store.retries.filter (fun r => !(r.handle == h && r.index == i)) ++
      [⟨h, i, failsInRow v h i, none⟩])) (.askStrip h i) := by
  subst hv
  exact if_pos hfails

/-- The first failure in a row of a strip joins the retries. -/
theorem replReject_first {s : State} {h i : Nat} (hnone : ∀ r ∈ s.store.retries, ¬ (r.handle = h ∧ r.index = i))
    (code : Nat) :
    ∃ source, replReject s h i code = toPeer (withRetries (rejectNoted (fresh s).2 h i code source)
      (s.store.retries ++ [⟨h, i, 1, none⟩])) (.askStrip h i) := by
  obtain ⟨hkeep, hfind⟩ := filter_find?_of_absent ReplRetry.handle ReplRetry.index hnone
  refine ⟨16 + Config.poolEngine s.freeCtr % 2, ?_⟩
  generalize hv : rejectNoted (fresh s).2 h i code (16 + Config.poolEngine s.freeCtr % 2) = v
  have hhost : HostOnly (fresh s).2 v := hv ▸ hostOnly_rejectNoted _ _ _ _ _
  have hretries : v.store.retries = s.store.retries := congrArg StoreSt.retries (HostOnly.store_eq (s := (fresh s).2) hhost)
  have hfails : failsInRow v h i = 1 := by rw [failsInRow, retryOf, hretries, hfind]
  rw [replReject_early hv.symm (by omega), hfails, hretries, hkeep]

theorem execReplStripReceived_fails {s : State} {t handle index code n : Nat} {bytes : List Byte} {m : Image}
    (hrole : (begin s t).pair.role = .standby) (himage : findImage (begin s t) handle = some m)
    (hdec : decodeStrip bytes = .bad code n) :
    execReplStripReceived t handle index bytes s = .next (replReject (begin s t) handle index code) := by
  simp [execReplStripReceived, hrole, himage, hdec]

theorem execReplStripReceived_rejects {s : State} {t handle index code n : Nat} {bytes : List Byte} {m : Image}
    (hb : banksOk s = true) (hrole : (begin s t).pair.role = .standby) (himage : findImage (begin s t) handle = some m)
    (hdec : decodeStrip bytes = .bad code n)
    (hcode : code < 2 ^ 8) (hnone : ∀ r ∈ (begin s t).store.retries, ¬ (r.handle = handle ∧ r.index = index))
    (htrip : (begin s t).thm.tripped = false) :
    let s0 := begin s t
    ∃ u, execReplStripReceived t handle index bytes s = .next u ∧ liveFld u Fld.JLC_LAST_ERR_ERROR_CODE = code ∧
      liveFld u Fld.JLC_REPL_REPL_REJECTS = (liveFld s0 Fld.JLC_REPL_REPL_REJECTS + 1) % 2 ^ 32 ∧
      stickyOn u Fld.JLC_STATUS_REPL_REJECT = true ∧
      u.host.queued = s0.host.queued ++ [⟨now s0, 0x0405, handle, stripArg s0 handle index⟩] ∧
      u.store.retries = s0.store.retries ++ [⟨handle, index, 1, none⟩] ∧ .peer (.askStrip handle index) ∈ u.out := by
  intro s0
  obtain ⟨source, hfirst⟩ := replReject_first hnone code
  obtain ⟨hhost, herr, hcount, hon, hqueued⟩ := rejectNoted_reported (s := (fresh s0).2) (banks_begin hb t) hcode source
    (h := handle) (i := index)
  generalize rejectNoted (fresh s0).2 handle index code source = v at *
  have hpeer : (withRetries v (s0.store.retries ++ [⟨handle, index, 1, none⟩])).thm.tripped = false :=
    (congrArg ThmSt.tripped (HostOnly.thm_eq (s := (fresh s0).2) hhost)).trans htrip
  rw [toPeer_emits hpeer] at hfirst
  refine ⟨_, (execReplStripReceived_fails hrole himage hdec).trans (congrArg _ hfirst), herr, hcount, hon, hqueued, rfl,
    mem_out_emit _ _⟩

/-! #### Retries and requests (R367) -/

theorem foldl_toPeer {α : Type} (f : α → PeerItem) (l : List α) {s : State} (h : s.thm.tripped = false) :
    l.foldl (fun s a => toPeer s (f a)) s = { s with out := s.out ++ l.map fun a => .peer (f a) } := by
  induction l generalizing s with
  | nil => simp
  | cons a l ih =>
    rw [List.foldl_cons, toPeer_emits h, ih (s := emit s (.peer (f a))) h]
    simp [emit]

theorem execReplRetryTimer_asks {s : State} {t : Nat} (htrip : (begin s t).thm.tripped = false) :
    let s0 := begin s t
    ∃ u, execReplRetryTimer t s = .next u ∧
      (∀ r ∈ s0.store.retries, ∀ a, r.askAt = some a → a ≤ now s0 → .peer (.askStrip r.handle r.index) ∈ u.out) ∧
      (∀ r ∈ u.store.retries, ∀ a, r.askAt = some a → now s0 < a) ∧ { u with out := s0.out, store := s0.store } = s0 := by
  intro s0
  unfold execReplRetryTimer
  extract_lets due asked later _
  have hasked : asked = { s0 with
      out := s0.out ++ (s0.store.retries.filter due).map fun r => .peer (.askStrip r.handle r.index) } :=
    foldl_toPeer (fun r : ReplRetry => .askStrip r.handle r.index) _ htrip
  refine ⟨_, rfl, fun r hr a ha hdue => ?_, fun r hr a ha => ?_, ?_⟩
  · have hmem : r ∈ s0.store.retries.filter due := List.mem_filter.mpr ⟨hr, by simp [due, ha, hdue]⟩
    rw [hasked]
    exact List.mem_append_right _ (List.mem_map.mpr ⟨r, hmem, rfl⟩)
  · obtain ⟨q, -, rfl⟩ := List.mem_map.mp hr
    by_cases hq : due q = true
    · rw [if_pos hq] at ha
      cases ha
      omega
    · rw [if_neg hq] at ha
      simpa [due, ha] using hq
  · rw [hasked]

/-- The unit with other requests for its strips noted. -/
def withAsks (s : State) (as : List SendAsk) : State := { s with store := { s.store with asks := as } }

theorem execStripRequest_sends {s : State} {t handle index : Nat} {x : Strip} (hstrip : findStrip (begin s t) handle index = some x)
    (hsound : x.damaged = false) (hnew : ∀ a ∈ (begin s t).store.asks, ¬ (a.handle = handle ∧ a.index = index)) :
    execStripRequest t handle index s =
      .next (sendStrip (withAsks (begin s t) ((begin s t).store.asks ++ [⟨handle, index, 1⟩])) handle index) := by
  obtain ⟨hkeep, hfind⟩ := filter_find?_of_absent SendAsk.handle SendAsk.index hnew
  unfold execStripRequest
  simp only [hstrip, hfind, hkeep, hsound, Option.map_none, Option.getD_none, Nat.zero_add, Nat.reduceEqDiff, if_false,
    Bool.false_eq_true, withAsks]

theorem execStripRequest_first {s : State} {t handle index : Nat} {x : Strip} (hstrip : findStrip (begin s t) handle index = some x)
    (hsound : x.damaged = false) (htrip : (begin s t).thm.tripped = false)
    (hnew : ∀ a ∈ (begin s t).store.asks, ¬ (a.handle = handle ∧ a.index = index)) :
    let s0 := begin s t
    ∃ u, execStripRequest t handle index s = .next u ∧ u.out = s0.out ++ [.peer (.strip handle index (sendForm x))] ∧
      u.store.asks = s0.store.asks ++ [⟨handle, index, 1⟩] ∧
      { u with out := s0.out, store := { u.store with asks := s0.store.asks } } = s0 := by
  intro s0
  let v : State := withAsks s0 (s0.store.asks ++ [⟨handle, index, 1⟩])
  have hfound : findStrip v handle index = some x := hstrip
  have hsend : sendStrip v handle index = emit v (.peer (.strip handle index (sendForm x))) := by
    rw [sendStrip, hfound]
    exact toPeer_emits (s := v) htrip _
  exact ⟨_, (execStripRequest_sends hstrip hsound hnew).trans (congrArg _ hsend), rfl, rfl, rfl⟩

/-- Settles O25: publishing a strip stores it, whether it was delivered or restored; the law of each other command. -/
theorem replicatedStrips : Obligations.ReplicatedStrips := by
  intro s t handle index bytes hb s0 published
  refine ⟨fun m hd out cost hrole himage hdec => ?_, fun m code n => execReplStripReceived_rejects hb, execReplRetryTimer_asks,
    fun x => execStripRequest_first, fun x hd out cost hstrip hdec hdamaged => ?_⟩
  · exact ⟨_, execReplStripReceived_decodes hrole himage hdec, publishStrip_holds s0 _ _ _ _ _ _,
      publishStrip_retries s0 _ _ _ _ _ _⟩
  · exact ⟨_, execStripRestored_decodes hstrip hdec hdamaged, publishStrip_holds s0 _ _ _ _ _ _⟩

end Sys2Proof.Laws

/-! ### Refresh and retraining of the DRAM channels (04_image_store R117, R118, R120 to R122) -/

namespace Sys2Proof.Laws

open Sys2Proof Sys2Proof.Machine

theorem dramCh_setDram {s : State} {n : Nat} (h : n < s.store.dram.length) (f : DramChan → DramChan) :
    dramCh (setDram s n f) n = f (dramCh s n) :=
  nth_upd h f {}

theorem dramCh_setDram_ne {s : State} {n k : Nat} (h : k ≠ n) (f : DramChan → DramChan) :
    dramCh (setDram s n f) k = dramCh s k :=
  nth_upd_ne h f {}

/-- What changes no part of the store does not depend on it. -/
theorem hostOnly_withStore {s u : State} (h : HostOnly s u) (x : StoreSt) :
    HostOnly { s with store := x } { u with store := x } := by
  unfold HostOnly at h ⊢
  exact congrArg (fun v : State => ({ v with store := x } : State)) h

/-! #### Refresh -/

/-- A bank that is idle stays so when it is refreshed. -/
theorem mem_idleBanks_refreshBank {d : DramChan} {b : Nat} (h : b ∈ idleBanks d) : b ∈ idleBanks (refreshBank d b) := by
  have hidle := (List.mem_filter.mp h).2
  exact List.mem_filter.mpr ⟨List.mem_append_right _ (List.mem_singleton_self b), hidle⟩

theorem payDebt_of_debt_zero {d : DramChan} (h : d.debt = 0) : payDebt d = d := by
  unfold payDebt
  split
  · exact if_neg (by omega)
  · rfl

theorem payDebt_debt {d : DramChan} (h : idleBanks d ≠ []) : (payDebt d).debt = d.debt - 1 := by
  unfold payDebt
  split
  · split
    · rfl
    · omega
  · contradiction

/-- A refresh that falls due while a bank is idle (R117). -/
theorem dueRefresh_idle {d : DramChan} {b : Nat} {bs : List Nat} (h : idleBanks d = b :: bs) :
    dueRefresh d = payDebt (refreshBank d b) := by
  unfold dueRefresh
  rw [h]

/-- A refresh that falls due while no bank is idle (R117, R118). -/
theorem dueRefresh_busy {d : DramChan} (h : idleBanks d = []) :
    dueRefresh d = if d.noPostpone ∨ 8 ≤ d.debt then refreshOldest d else { d with debt := d.debt + 1 } := by
  unfold dueRefresh
  rw [h]

theorem dueRefresh_debt_of_idle {d : DramChan} {b : Nat} {bs : List Nat} (h : idleBanks d = b :: bs) :
    (dueRefresh d).debt = d.debt - 1 := by
  have hb : b ∈ idleBanks (refreshBank d b) := mem_idleBanks_refreshBank (h ▸ List.mem_cons_self ..)
  rw [dueRefresh_idle h, payDebt_debt (List.ne_nil_of_mem hb)]
  rfl

theorem refreshOldest_debt (d : DramChan) : (refreshOldest d).debt = d.debt := by
  unfold refreshOldest
  split <;> rfl

theorem refreshOldest_order {d : DramChan} {b : Nat} {bs : List Nat} (h : d.refreshOrder = b :: bs) :
    (refreshOldest d).refreshOrder = bs.filter (· != b) ++ [b] := by
  simp [refreshOldest, refreshBank, h]

theorem execRefreshDue_law {s : State} {t : Nat} {d : Fin 4} (hlen : d < (begin s t).store.dram.length) :
    let s0 := begin s t
    ∃ u, execRefreshDue t d s = .next u ∧ { u with store := { u.store with dram := s0.store.dram } } = s0 ∧
      (∀ n, n ≠ d.val → dramCh u n = dramCh s0 n) ∧
      (∀ b bs, idleBanks (dramCh s0 d) = b :: bs → (dramCh u d).debt = (dramCh s0 d).debt - 1 ∧
        ((dramCh s0 d).debt = 0 → dramCh u d = { dramCh s0 d with
          refreshOrder := (dramCh s0 d).refreshOrder.filter (· != b) ++ [b]
          openRows := (dramCh s0 d).openRows.filter (·.1 != b) })) ∧
      (idleBanks (dramCh s0 d) = [] →
        ((dramCh s0 d).noPostpone = false → (dramCh s0 d).debt < 8 →
          dramCh u d = { dramCh s0 d with debt := (dramCh s0 d).debt + 1 }) ∧
        (((dramCh s0 d).noPostpone = true ∨ 8 ≤ (dramCh s0 d).debt) → (dramCh u d).debt = (dramCh s0 d).debt ∧
          ∀ b bs, (dramCh s0 d).refreshOrder = b :: bs → (dramCh u d).refreshOrder = bs.filter (· != b) ++ [b])) := by
  intro s0
  have hd : dramCh (setDram s0 d dueRefresh) d = dueRefresh (dramCh s0 d) := dramCh_setDram hlen _
  refine ⟨_, rfl, rfl, fun n hn => dramCh_setDram_ne hn _, fun b bs hidle => ?_,
    fun hbusy => ⟨fun hpost hdebt => ?_, fun hfull => ?_⟩⟩
  · refine ⟨hd ▸ dueRefresh_debt_of_idle hidle, fun hzero => ?_⟩
    rw [hd, dueRefresh_idle hidle]
    exact payDebt_of_debt_zero hzero
  · rw [hd, dueRefresh_busy hbusy, if_neg (by simp [hpost, hdebt])]
  · rw [hd, dueRefresh_busy hbusy, if_pos hfull]
    exact ⟨refreshOldest_debt _, fun b bs => refreshOldest_order⟩

/-! #### Retraining -/

/-- A channel due to retrain, with none in training, begins when it has waited 64 picks or its interruption is covered (R121). -/
theorem execRetrainStart_begins {s : State} {t w : Nat} {d : Fin 4} (hlen : d < (begin s t).store.dram.length)
    (hdue : (dramCh (begin s t) d).due = some w) (hnone : ∀ x ∈ (begin s t).store.dram, x.training = false)
    (hmay : 64 ≤ w ∨ coverAllows (begin s t) = true ∧ (begin s t).thm.bandPick ≠ some (begin s t).time.pick ∧
      ∀ p, (begin s t).store.lastBreak = some p → p + 1 < (begin s t).time.pick) :
    let s0 := begin s t
    ∃ u, execRetrainStart t d s = .next u ∧ (dramCh u d).training = true ∧ (dramCh u d).due = none ∧
      u.store.lastBreak = some s0.time.pick ∧ { u with store := s0.store } = s0 := by
  intro s0
  let v := setDram s0 d fun x => { x with training := true, due := none }
  let u : State := { v with store := { v.store with lastBreak := some s0.time.pick } }
  have hd : dramCh u d = { dramCh s0 d with training := true, due := none } := dramCh_setDram hlen _
  have hexec : execRetrainStart t d s = .next u := by
    unfold execRetrainStart
    extract_lets quiet
    have hquiet : 64 ≤ w ∨ (quiet = true ∧ coverAllows s0 = true) := by
      refine hmay.imp_right fun ⟨hcover, hband, hbreak⟩ => ⟨?_, hcover⟩
      simp only [quiet, Bool.and_eq_true, bne_iff_ne]
      refine ⟨?_, hband⟩
      split
      · exact decide_eq_true (hbreak _ ‹_›)
      · rfl
    have hany : s0.store.dram.any (·.training) = false := by simpa using hnone
    rw [hdue]
    refine congrArg _ (if_pos ?_)
    simpa [hany, or_comm] using hquiet
  exact ⟨u, hexec, by rw [hd], by rw [hd], rfl, rfl⟩

/-- Eyes that are all wide enough raise nothing (R111). -/
theorem judgeEyes_wide {s : State} {n : Nat} {eyes : List EyeWidth}
    (h : ∀ e ∈ eyes, liveFld s Fld.IMG_CTRL_EYE_MIN ≤ e.width) : judgeEyes s n eyes = s := by
  induction eyes with
  | nil => rfl
  | cons e eyes ih =>
    rw [judgeEyes, List.foldl_cons, if_neg (Nat.not_lt.mpr (h e (List.mem_cons_self ..)))]
    exact ih fun f hf => h f (List.mem_cons_of_mem _ hf)

theorem hostOnly_calDone (s : State) (item inst : Nat) (temp : Int) : HostOnly s (calDone s item inst temp) := rfl

theorem calDone_queued (s : State) (item inst : Nat) (temp : Int) :
    (calDone s item inst temp).host.queued = s.host.queued ++ [⟨now s, 0x1201, inst, item % 2 ^ 32⟩] := rfl

theorem live_calDone (s : State) (item inst : Nat) (temp : Int) : (calDone s item inst temp).live =
    (bump (setFld s Fld.CAL_TEMP_LAST_CAL_TEMP (calBase item + inst) (unsignedOf 8 temp)) Fld.CAL_COUNT_CALIBRATIONS).live := rfl

/-- A calibration completed is counted (R559). -/
theorem calDone_counts {s : State} (hb : banksOk s = true) {item inst : Nat} (hi : calBase item + inst < 8192) (temp : Int) :
    liveFld (calDone s item inst temp) Fld.CAL_COUNT_CALIBRATIONS = (liveFld s Fld.CAL_COUNT_CALIBRATIONS + 1) % 2 ^ 32 := by
  rw [liveFld, live_calDone]
  refine (liveFld_bump (banks_setFld hb _ _ _ _) Fld.CAL_COUNT_CALIBRATIONS 0 1).trans ?_
  rw [liveFld_setFld_ne hb (by decide) hi (by decide)]
  rfl

/-- A calibration completed leaves the registers that are not CAL_TEMP and CAL_COUNT. -/
theorem liveFld_calDone_ne {s : State} (hb : banksOk s = true) {item inst : Nat} (hi : calBase item + inst < 8192) (temp : Int)
    {g : Field} (ht : g.reg.ctorIdx ≠ Reg.CAL_TEMP.ctorIdx) (hc : g.reg.ctorIdx ≠ Reg.CAL_COUNT.ctorIdx) {j : Nat}
    (hj : j < 8192) :
    liveFld (calDone s item inst temp) g j = liveFld s g j := by
  rw [liveFld, live_calDone]
  refine (liveFld_setFld_ne (banks_setFld hb _ _ _ _) (f := Fld.CAL_COUNT_CALIBRATIONS) hc (by decide) hj _).trans ?_
  exact liveFld_setFld_ne hb ht hi hj _

/-- A channel after its training (R120, R122). -/
def trainedChan (x : DramChan) (temp : Int) (eyes : List EyeWidth) : DramChan :=
  { x with training := false, temp := temp, trained := mergeEyes x.trained eyes, settings := mergeEyes x.settings eyes }

/-- A training whose eyes are all wide enough reports nothing but its end. -/
theorem execRetrainDone_wide {s : State} {t : Nat} {d : Fin 4} {temp : Int} {eyes : List EyeWidth} {w : State}
    (htraining : (dramCh (begin s t) d).training = true)
    (hw : w = setFld (setDram (begin s t) d (trainedChan · temp eyes)) Fld.IMG_TEMP_TRAIN_TEMP d (unsignedOf 8 temp))
    (heyes : ∀ e ∈ eyes, liveFld w Fld.IMG_CTRL_EYE_MIN ≤ e.width) :
    execRetrainDone t d temp eyes s = .next (calDone (raise w 0x0306 d (low32 temp)) 1 d temp) := by
  have hwide : judgeEyes w d eyes = w := judgeEyes_wide heyes
  have hexec : execRetrainDone t d temp eyes s = .next (calDone (raise (judgeEyes w d eyes) 0x0306 d (low32 temp)) 1 d temp) := by
    subst hw
    exact congrArg _ (if_pos htraining)
  rw [hexec, hwide]

theorem execRetrainDone_trained {s : State} {t : Nat} {d : Fin 4} {temp : Int} {eyes : List EyeWidth} (hb : banksOk s = true)
    (hlen : d < (begin s t).store.dram.length) (htraining : (dramCh (begin s t) d).training = true)
    (heyes : ∀ e ∈ eyes, liveFld (begin s t) Fld.IMG_CTRL_EYE_MIN ≤ e.width) :
    let s0 := begin s t
    ∃ u, execRetrainDone t d temp eyes s = .next u ∧ (dramCh u d).training = false ∧ (dramCh u d).temp = temp ∧
      (dramCh u d).settings = mergeEyes (dramCh s0 d).settings eyes ∧
      liveFld u Fld.IMG_TEMP_TRAIN_TEMP d = unsignedOf 8 temp % 256 ∧
      liveFld u Fld.CAL_COUNT_CALIBRATIONS = (liveFld s0 Fld.CAL_COUNT_CALIBRATIONS + 1) % 2 ^ 32 ∧
      u.host.queued = s0.host.queued ++ [⟨now s0, 0x0306, d, low32 temp % 2 ^ 32⟩, ⟨now s0, 0x1201, d, 1⟩] ∧
      HostOnly s0 { u with store := s0.store } := by
  intro s0
  generalize hv : setDram s0 d (trainedChan · temp eyes) = v
  generalize hw : setFld v Fld.IMG_TEMP_TRAIN_TEMP d (unsignedOf 8 temp) = w
  have hd8 : (d : Nat) < 8192 := by omega
  have hc8 : calBase 1 + (d : Nat) < 8192 := by simp only [calBase]; omega
  have hbv : banksOk v = true := hv ▸ banks_begin hb t
  have hbw : banksOk w = true := hw ▸ banks_setFld hbv _ _ _ _
  have hread (g : Field) (hg : g.reg.ctorIdx ≠ Reg.IMG_TEMP.ctorIdx) : liveFld w g = liveFld s0 g := by
    subst hw hv
    exact liveFld_setFld_ne (f := Fld.IMG_TEMP_TRAIN_TEMP) hbv hg hd8 (by decide) _
  have hchan : dramCh w d = trainedChan (dramCh s0 d) temp eyes := by
    subst hw hv
    exact dramCh_setDram hlen _
  have hexec := execRetrainDone_wide (w := w) htraining (hv ▸ hw.symm) fun e he =>
    (hread Fld.IMG_CTRL_EYE_MIN (by decide)).symm ▸ heyes e he
  have hu : dramCh (calDone (raise w 0x0306 d (low32 temp)) 1 d temp) d = trainedChan (dramCh s0 d) temp eyes := hchan
  refine ⟨_, hexec, by rw [hu]; rfl, by rw [hu]; rfl, by rw [hu]; rfl, ?_, ?_, ?_, ?_⟩
  · refine (liveFld_calDone_ne (s := raise w 0x0306 d (low32 temp)) hbw hc8 temp (by decide) (by decide) hd8).trans ?_
    subst hw
    exact liveFld_setFld hbv Fld.IMG_TEMP_TRAIN_TEMP d _ 0
  · refine (calDone_counts (s := raise w 0x0306 d (low32 temp)) hbw hc8 temp).trans ?_
    exact congrArg (fun n => (n + 1) % 2 ^ 32) (hread Fld.CAL_COUNT_CALIBRATIONS (by decide))
  · have hqueued : w.host.queued = s0.host.queued := by subst hw hv; rfl
    have hnow : now w = now s0 := by subst hw hv; rfl
    rw [calDone_queued]
    change (w.host.queued ++ [⟨now w, 0x0306, d, low32 temp % 2 ^ 32⟩]) ++ [⟨now w, 0x1201, d, 1⟩] = _
    rw [hqueued, hnow, List.append_assoc]
    rfl
  · have hlast : HostOnly w (calDone (raise w 0x0306 d (low32 temp)) 1 d temp) :=
      (hostOnly_raise w _ _ _).trans (hostOnly_calDone _ _ _ _)
    refine HostOnly.trans (b := { w with store := s0.store }) ?_ (hostOnly_withStore hlast _)
    subst hw hv
    rfl

end Sys2Proof.Laws

/-! ### Errors in the words of the store and the scrubber (04_image_store R123 to R127) -/

namespace Sys2Proof.Laws

open Sys2Proof Sys2Proof.Machine

theorem HostOnly.pickEff_eq {s u : State} (h : HostOnly s u) : u.pickEff = s.pickEff := by
  unfold HostOnly at h
  rw [← h]

/-- A sticky bit set leaves the fields below it in the same register. -/
theorem liveFld_sticky_below {s : State} (h : banksOk s = true) {f g : Field} (hr : g.reg = f.reg) (hlow : g.lo + g.width ≤ f.lo)
    (hd : g.reg.ctorIdx ≠ Reg.DB_D2H_STATUS.ctorIdx) (hs : g.reg.ctorIdx ≠ Reg.FAULT_SUMMARY.ctorIdx) {i : Nat}
    (hi : i < 8192) :
    liveFld (sticky s f i) g i = liveFld s g i := by
  unfold sticky
  extract_lets u v w
  have hbu : banksOk u = true := h
  have hw : liveFld w g i = liveFld s g i := liveFld_setFld_below hbu hr hlow i _
  split
  · rfl
  split
  · exact hw
  · refine (liveFld_of_kept (regsKept_setSummary (live_wf (banks_setFld hbu _ _ _ _)) _) g i 0 ?_).trans hw
    simpa using ⟨regKey_ne hi (by decide) hd, regKey_ne hi (by decide) hs⟩

/-! #### What treating an error can change -/

/-- From `s` to `u` nothing but what treating errors in words changes has changed: the strips, the errors counted, the retired
rows, the channels, and the host interface, the registers, the outputs and the free values. -/
def ErrorsOnly (s u : State) : Prop :=
  ∃ o f h l xs es rs d, u = { s with out := o, freeCtr := f, host := h, live := l,
                                     store := { s.store with strips := xs, rowErrs := es, retired := rs, dram := d } }

theorem ErrorsOnly.refl (s : State) : ErrorsOnly s s :=
  ⟨s.out, s.freeCtr, s.host, s.live, s.store.strips, s.store.rowErrs, s.store.retired, s.store.dram, rfl⟩

theorem ErrorsOnly.trans {a b c : State} (h : ErrorsOnly a b) (k : ErrorsOnly b c) : ErrorsOnly a c := by
  obtain ⟨_, _, _, _, _, _, _, _, rfl⟩ := h
  obtain ⟨o, f, h, l, xs, es, rs, d, rfl⟩ := k
  exact ⟨o, f, h, l, xs, es, rs, d, rfl⟩

theorem errorsOnly_of_hostOnly {s u : State} (h : HostOnly s u) : ErrorsOnly s u := by
  refine ⟨u.out, s.freeCtr, u.host, u.live, s.store.strips, s.store.rowErrs, s.store.retired, s.store.dram, ?_⟩
  unfold HostOnly at h
  conv_rhs => rw [← h]

theorem ErrorsOnly.now_eq {s u : State} (h : ErrorsOnly s u) : now u = now s := by
  obtain ⟨_, _, _, _, _, _, _, _, rfl⟩ := h
  rfl

theorem ErrorsOnly.images {s u : State} (h : ErrorsOnly s u) : u.store.images = s.store.images := by
  obtain ⟨_, _, _, _, _, _, _, _, rfl⟩ := h
  rfl

theorem ErrorsOnly.scrubAt {s u : State} (h : ErrorsOnly s u) : u.store.scrubAt = s.store.scrubAt := by
  obtain ⟨_, _, _, _, _, _, _, _, rfl⟩ := h
  rfl

/-! #### A row retired (R126) -/

/-- From `s` to `u` nothing but the strips and the free values has changed. -/
def StripsMoved (s u : State) : Prop := ∃ n xs, u = { s with freeCtr := n, store := { s.store with strips := xs } }

theorem StripsMoved.refl (s : State) : StripsMoved s s := ⟨s.freeCtr, s.store.strips, rfl⟩

theorem stripsMoved_clearRow (s : State) (r : RowId) : StripsMoved s (clearRow s r) := by
  unfold clearRow
  refine List.foldlRecOn _ _ (StripsMoved.refl s) fun x hx y _ => List.foldlRecOn _ _ hx fun z hz g _ => ?_
  obtain ⟨n, xs, rfl⟩ := hz
  split
  · exact ⟨n, xs, rfl⟩
  · exact ⟨_, _, rfl⟩

/-- From `s` to `u` a row was retired: it stands in the list, with what is reported of it. -/
structure RowRetired (s u : State) (r : RowId) : Prop where
  rest : ErrorsOnly s u
  retired : u.store.retired = s.store.retired ++ [r]
  queued : s.host.queued <+: u.host.queued
  regs : regsKept s u [regKey .IMG_RETIRED 0 0]

theorem retireRow_retires {s : State} (hb : banksOk s = true) (r : RowId) : RowRetired s (retireRow s r) r := by
  unfold retireRow
  extract_lets _ v w
  have hw : StripsMoved v w := by
    unfold w
    split
    · exact stripsMoved_clearRow v r
    · exact .refl v
  obtain ⟨n, xs, hw⟩ := hw
  clear_value w
  subst hw
  exact ⟨⟨_, _, _, _, _, _, _, _, rfl⟩, rfl, List.prefix_append _ _,
    regsKept_setFld (live_wf hb) Fld.IMG_RETIRED_ROWS_RETIRED 0 _ 0⟩

/-! #### A corrected error (R123, R126) -/

/-- An error counted for a row and its channel. -/
def rowCounted (s : State) (r : RowId) : State :=
  { s with store := { s.store with
    rowErrs := (r, rowErrors s r + 1) :: s.store.rowErrs.filter (·.1 != r)
    dram := upd s.store.dram r.chan fun d => { d with corrected := d.corrected + 1 } } }

theorem rowErrors_rowCounted (s : State) (r : RowId) : rowErrors (rowCounted s r) r = rowErrors s r + 1 := by
  have hfirst : (rowCounted s r).store.rowErrs = (r, rowErrors s r + 1) :: s.store.rowErrs.filter (·.1 != r) := rfl
  rw [rowErrors, hfirst, List.find?_cons_of_pos (by simp)]
  rfl

/-- The registers of a corrected error: ECC_CORRECTED counts it, ECC_CORR reads 1. -/
def correctedNoted (s : State) : State := sticky (bump s Fld.IMG_ECC_ECC_CORRECTED) Fld.IMG_STATUS_ECC_CORR

theorem hostOnly_correctedNoted (s : State) : HostOnly s (correctedNoted s) :=
  (hostOnly_setFld s _ _ _ _).trans (hostOnly_sticky _ _ _ _)

theorem correctedError_eq (s : State) (r : RowId) :
    correctedError s r = if fld s Fld.IMG_SCRUB_ROW_RETIRE_LIMIT ≤ rowErrors s r + 1
      then retireRow (rowCounted (correctedNoted s) r) r else rowCounted (correctedNoted s) r := by
  have hn : rowErrors (correctedNoted s) r = rowErrors s r := by
    rw [rowErrors, rowErrors, HostOnly.store_eq (hostOnly_correctedNoted s)]
  have hlimit : fld (rowCounted (correctedNoted s) r) Fld.IMG_SCRUB_ROW_RETIRE_LIMIT = fld s Fld.IMG_SCRUB_ROW_RETIRE_LIMIT :=
    congrArg (bankGet · Fld.IMG_SCRUB_ROW_RETIRE_LIMIT 0) (HostOnly.pickEff_eq (u := correctedNoted s) (hostOnly_correctedNoted s))
  rw [← hn, ← hlimit]
  rfl

/-- The row's errors grow by one, until the limit retires it. -/
theorem correctedError_counts {s : State} (hb : banksOk s = true) (r : RowId) :
    let u := correctedError s r
    ErrorsOnly s u ∧ stickyOn u Fld.IMG_STATUS_ECC_CORR = true ∧
      liveFld u Fld.IMG_ECC_ECC_CORRECTED = (liveFld s Fld.IMG_ECC_ECC_CORRECTED + 1) % 2 ^ 32 ∧
      (rowErrors s r + 1 < fld s Fld.IMG_SCRUB_ROW_RETIRE_LIMIT →
        u.store.retired = s.store.retired ∧ rowErrors u r = rowErrors s r + 1) ∧
      (fld s Fld.IMG_SCRUB_ROW_RETIRE_LIMIT ≤ rowErrors s r + 1 → u.store.retired = s.store.retired ++ [r]) := by
  intro u
  have hbc : banksOk (bump s Fld.IMG_ECC_ECC_CORRECTED) = true := banks_setFld hb _ _ _ _
  have hbn : banksOk (correctedNoted s) = true := (sticky_keeps (Keeps.refl _)).banks hbc
  have hhost : HostOnly s (correctedNoted s) := hostOnly_correctedNoted s
  have hrest : ErrorsOnly s (rowCounted (correctedNoted s) r) :=
    (errorsOnly_of_hostOnly hhost).trans ⟨_, _, _, _, _, _, _, _, rfl⟩
  have hon : stickyOn (correctedNoted s) Fld.IMG_STATUS_ECC_CORR = true :=
    stickyOn_sticky (live_wf hbc) (by decide) (by decide) (by decide)
  have hcount : liveFld (correctedNoted s) Fld.IMG_ECC_ECC_CORRECTED = (liveFld s Fld.IMG_ECC_ECC_CORRECTED + 1) % 2 ^ 32 :=
    (liveFld_sticky_ne hbc (f := Fld.IMG_STATUS_ECC_CORR) (by decide) (by decide) (by decide) (by decide) (by decide) 0).trans
      (liveFld_bump hb Fld.IMG_ECC_ECC_CORRECTED 0 1)
  have hretired : (correctedNoted s).store.retired = s.store.retired := congrArg StoreSt.retired (HostOnly.store_eq hhost)
  have hu : u = _ := correctedError_eq s r
  by_cases hlimit : fld s Fld.IMG_SCRUB_ROW_RETIRE_LIMIT ≤ rowErrors s r + 1
  · rw [if_pos hlimit] at hu
    have hret : RowRetired (rowCounted (correctedNoted s) r) u r :=
      hu ▸ retireRow_retires (s := rowCounted (correctedNoted s) r) hbn r
    refine ⟨hrest.trans hret.rest, ?_, ?_, fun hlt => by omega, fun _ => hret.retired.trans (congrArg (· ++ [r]) hretired)⟩
    · rw [stickyOn, liveFld_of_kept hret.regs _ _ _ (by decide)]
      exact hon
    · rw [liveFld_of_kept hret.regs _ _ _ (by decide)]
      exact hcount
  · rw [if_neg hlimit] at hu
    rw [hu]
    refine ⟨hrest, hon, hcount, fun _ => ⟨hretired, ?_⟩, fun h => absurd h hlimit⟩
    rw [rowErrors_rowCounted, rowErrors, rowErrors, HostOnly.store_eq hhost]

/-! #### An uncorrectable error (R124, R126, R127) -/

/-- From `s` to `u` strips may have been marked damaged: events have only joined those that wait, and of the registers only
IMG_STATUS and those that collect what happened have changed, and not its ECC_UNCORR. -/
structure StripsMarked (s u : State) : Prop where
  rest : ErrorsOnly s u
  retired : u.store.retired = s.store.retired
  queued : s.host.queued <+: u.host.queued
  regs : regsKeptBut s u [regKey .IMG_STATUS 0 0]
  uncorr : liveFld u Fld.IMG_STATUS_ECC_UNCORR = liveFld s Fld.IMG_STATUS_ECC_UNCORR

theorem StripsMarked.refl (s : State) : StripsMarked s s := ⟨.refl s, rfl, List.prefix_rfl, regsKept_refl _ _, rfl⟩

theorem StripsMarked.trans {a b c : State} (h : StripsMarked a b) (k : StripsMarked b c) : StripsMarked a c :=
  ⟨h.rest.trans k.rest, k.retired.trans h.retired, h.queued.trans k.queued, regsKept_trans h.regs k.regs,
    k.uncorr.trans h.uncorr⟩

theorem EmitsOnly.stripsMarked {s u : State} (h : EmitsOnly s u) : StripsMarked s u := by
  obtain ⟨os, rfl⟩ := h
  exact ⟨⟨_, _, _, _, _, _, _, _, rfl⟩, rfl, List.prefix_rfl, regsKept_refl _ _, rfl⟩

/-- The report of a damaged strip (R127). -/
theorem stripsMarked_report {s : State} (hb : banksOk s = true) (c src a : Nat) :
    StripsMarked s (doorbell (raise (sticky s Fld.IMG_STATUS_STRIP_DAMAGED) c src a) 26) := by
  have hbs : banksOk (sticky s Fld.IMG_STATUS_STRIP_DAMAGED) = true := (sticky_keeps (Keeps.refl _)).banks hb
  have hbr : banksOk (raise (sticky s Fld.IMG_STATUS_STRIP_DAMAGED) c src a) = true := hbs
  have hhost : HostOnly s (doorbell (raise (sticky s Fld.IMG_STATUS_STRIP_DAMAGED) c src a) 26) :=
    (hostOnly_sticky s _ _ _).trans ((hostOnly_raise _ _ _ _).trans (hostOnly_doorbell _ _))
  refine ⟨errorsOnly_of_hostOnly hhost, congrArg StoreSt.retired (HostOnly.store_eq hhost), ?_, ?_, ?_⟩
  · rw [queued_doorbell]
    exact ((queued_sticky s Fld.IMG_STATUS_STRIP_DAMAGED 0 0).symm ▸ List.prefix_append _ _)
  · exact regsKept_trans (regsKept_sticky (live_wf hb) Fld.IMG_STATUS_STRIP_DAMAGED 0 0)
      (regsKept_mono (regsKept_doorbell (live_wf hbr) 26) (by simp))
  · refine (liveFld_doorbell_ne hbr (by decide) (by decide) 26).trans ?_
    exact liveFld_sticky_below hb (f := Fld.IMG_STATUS_STRIP_DAMAGED) (by decide) (by decide) (by decide) (by decide) (by decide)

theorem stripsMarked_damageStrip {s : State} (hb : banksOk s = true) (h i : Nat) : StripsMarked s (damageStrip s h i) := by
  unfold damageStrip
  split
  · exact .refl s
  next x hx =>
    extract_lets _ v w
    have hv : StripsMarked s v := ⟨⟨_, _, _, _, _, _, _, _, rfl⟩, rfl, List.prefix_rfl, regsKept_refl _ _, rfl⟩
    have hw : StripsMarked s w := by
      unfold w
      split
      · exact .refl s
      · exact hv.trans (stripsMarked_report (s := v) hb _ _ _)
    split
    · exact hw.trans (toPeer_emitsOnly w _).stripsMarked
    · exact hw

theorem stripsMarked_foldl {s : State} (hb : banksOk s = true) (xs : List Strip) :
    banksOk (xs.foldl (fun s x => damageStrip s x.handle x.index) s) = true ∧
      StripsMarked s (xs.foldl (fun s x => damageStrip s x.handle x.index) s) :=
  List.foldlRecOn (motive := fun u : State => banksOk u = true ∧ StripsMarked s u) xs _ ⟨hb, .refl s⟩ fun _ hu x _ =>
    ⟨(damageStrip_keeps (Keeps.refl _)).banks hu.1, hu.2.trans (stripsMarked_damageStrip hu.1 x.handle x.index)⟩

/-- The error is counted and reported, and the row retired. -/
theorem uncorrectableError_retires {s : State} (hb : banksOk s = true) (r : RowId) (word : Nat) :
    let u := uncorrectableError s r word
    ErrorsOnly s u ∧ stickyOn u Fld.IMG_STATUS_ECC_UNCORR = true ∧
      liveFld u Fld.IMG_ECC_ECC_UNCORRECTED = (liveFld s Fld.IMG_ECC_ECC_UNCORRECTED + 1) % 2 ^ 32 ∧
      u.store.retired = s.store.retired ++ [r] ∧
      ⟨now s, 0x0302, r.chan, (r.bank * 2 ^ 28 + r.row) % 2 ^ 32⟩ ∈ u.host.queued := by
  unfold uncorrectableError
  extract_lets a b c u
  have hbc : banksOk (bump s Fld.IMG_ECC_ECC_UNCORRECTED) = true := banks_setFld hb _ _ _ _
  obtain ⟨hon, hqueued, hhost, hregs⟩ : Reported (bump s Fld.IMG_ECC_ECC_UNCORRECTED) b Fld.IMG_STATUS_ECC_UNCORR 0 0
      ⟨now s, 0x0302, r.chan, (r.bank * 2 ^ 28 + r.row) % 2 ^ 32⟩ :=
    reported (live_wf hbc) (by decide) (by decide) (by decide) (by decide) rfl
  have hbb : banksOk b = true := (sticky_keeps (Keeps.refl _)).banks hbc
  obtain ⟨hbm, hmarked⟩ := stripsMarked_foldl hbb (stripsAt b r word)
  have hret : RowRetired c u r := retireRow_retires hbm r
  have hsb : HostOnly s b := (hostOnly_setFld s _ _ _ _).trans hhost
  refine ⟨(errorsOnly_of_hostOnly hsb).trans (hmarked.rest.trans hret.rest), ?_, ?_, ?_, ?_⟩
  · rw [stickyOn, liveFld_of_kept hret.regs _ _ _ (by decide), hmarked.uncorr]
    exact hon
  · rw [liveFld_of_kept hret.regs _ _ _ (by decide), liveFld_of_kept hmarked.regs _ _ _ (by decide),
      liveFld_of_kept hregs _ _ _ (by decide)]
    exact liveFld_bump hb Fld.IMG_ECC_ECC_UNCORRECTED 0 1
  · rw [hret.retired, hmarked.retired, HostOnly.store_eq hsb]
  · exact (hmarked.queued.trans hret.queued).subset (hqueued ▸ List.mem_append_right _ (List.mem_singleton_self _))

/-- What a read finds in a word changes no more than treating errors does. -/
theorem errorsOnly_noteEcc {s : State} (hb : banksOk s = true) (e : EccAt) : ErrorsOnly s (noteEcc s e) := by
  unfold noteEcc
  split
  · exact .refl s
  split
  · exact .refl s
  · exact (correctedError_counts hb e.row).1
  · exact (uncorrectableError_retires hb e.row e.word).1

theorem errorsOnly_foldl_noteEcc {s : State} (hb : banksOk s = true) (es : List EccAt) :
    banksOk (es.foldl noteEcc s) = true ∧ ErrorsOnly s (es.foldl noteEcc s) :=
  List.foldlRecOn (motive := fun u : State => banksOk u = true ∧ ErrorsOnly s u) es _ ⟨hb, .refl s⟩ fun _ hu e _ =>
    ⟨(noteEcc_keeps (Keeps.refl _)).banks hu.1, hu.2.trans (errorsOnly_noteEcc hu.1 e)⟩

/-! #### The scrubber (R125) -/

/-- The scrubber's next row read. -/
def scrubbed (s : State) : State :=
  let v := access s .scrub 3 false [scrubRow s.store.scrubAt]
  { v with store := { v.store with
    scrubAt := (v.store.scrubAt + 1) % scrubRows
    scrubFrom := if v.store.scrubAt = 0 then some (now v) else v.store.scrubFrom } }

theorem scrubbed_eq (s : State) : ∃ d f, scrubbed s =
    { s with store := { s.store with dram := d, scrubAt := (s.store.scrubAt + 1) % scrubRows, scrubFrom := f } } := by
  obtain ⟨d, hd⟩ := dramOnly_access s .scrub 3 false [scrubRow s.store.scrubAt]
  unfold scrubbed
  rw [hd]
  exact ⟨d, _, rfl⟩

theorem banks_scrubbed {s : State} (hb : banksOk s = true) : banksOk (scrubbed s) = true := by
  obtain ⟨d, f, hscrub⟩ := scrubbed_eq s
  rw [hscrub]
  exact hb

theorem execScrubRead_throttled {s : State} {t : Nat} (h : 1 ≤ throttle (begin s t)) (found : List (Nat × EccFound)) :
    execScrubRead t found s = .next (begin s t) :=
  congrArg _ (if_pos (.inl h))

theorem execScrubRead_reads {s : State} {t : Nat} (h : throttle (begin s t) = 0)
    (hgo : (begin s t).store.scrubAt ≠ 0 ∨ (begin s t).store.scrubFrom = none) (found : List (Nat × EccFound)) :
    execScrubRead t found s = .next (found.foldl
      (fun u e => noteEcc u ⟨scrubRow (begin s t).store.scrubAt, e.1, e.2⟩) (scrubbed (begin s t))) := by
  unfold execScrubRead
  extract_lets s0 starts r v from' _ w
  have hgo' : ¬ (1 ≤ throttle s0 ∨ (s0.store.scrubAt = 0 ∧ (!starts) = true)) := by
    rintro (hpaused | ⟨hzero, hwait⟩)
    · exact absurd h (Nat.one_le_iff_ne_zero.mp hpaused)
    · have hnone : s0.store.scrubFrom = none := hgo.resolve_left (not_not_intro hzero)
      simp [starts, hnone] at hwait
  rw [if_neg hgo']
  rfl

/-- A row read without an error. -/
theorem execScrubRead_clean {s : State} {t : Nat} (h : throttle (begin s t) = 0)
    (hgo : (begin s t).store.scrubAt ≠ 0 ∨ (begin s t).store.scrubFrom = none) :
    let s0 := begin s t
    ∃ u, execScrubRead t [] s = .next u ∧ u.store.scrubAt = (s0.store.scrubAt + 1) % scrubRows ∧
      u.store.strips = s0.store.strips ∧ { u with store := s0.store } = s0 := by
  intro s0
  obtain ⟨d, f, hscrub⟩ := scrubbed_eq s0
  exact ⟨_, execScrubRead_reads h hgo [], by rw [List.foldl_nil, hscrub], by rw [List.foldl_nil, hscrub],
    by rw [List.foldl_nil, hscrub]⟩

theorem execScrubRead_one {s : State} {t : Nat} (h : throttle (begin s t) = 0)
    (hgo : (begin s t).store.scrubAt ≠ 0 ∨ (begin s t).store.scrubFrom = none) (word : Nat) (found : EccFound) :
    execScrubRead t [(word, found)] s =
      .next (noteEcc (scrubbed (begin s t)) ⟨scrubRow (begin s t).store.scrubAt, word, found⟩) :=
  execScrubRead_reads h hgo [(word, found)]

theorem noteEcc_corrected {s : State} (h : s.store.eccInForce = true) (r : RowId) (word : Nat) :
    noteEcc s ⟨r, word, .corrected⟩ = correctedError s r :=
  if_neg (by simp [h])

theorem noteEcc_uncorrectable {s : State} (h : s.store.eccInForce = true) (r : RowId) (word : Nat) :
    noteEcc s ⟨r, word, .uncorrectable⟩ = uncorrectableError s r word :=
  if_neg (by simp [h])

theorem execScrubRead_corrected {s : State} {t : Nat} (hb : banksOk s = true) (h : throttle (begin s t) = 0)
    (hgo : (begin s t).store.scrubAt ≠ 0 ∨ (begin s t).store.scrubFrom = none) (hecc : (begin s t).store.eccInForce = true)
    (word : Nat) :
    let s0 := begin s t
    let r := scrubRow s0.store.scrubAt
    ∃ u, execScrubRead t [(word, .corrected)] s = .next u ∧ stickyOn u Fld.IMG_STATUS_ECC_CORR = true ∧
      liveFld u Fld.IMG_ECC_ECC_CORRECTED = (liveFld s0 Fld.IMG_ECC_ECC_CORRECTED + 1) % 2 ^ 32 ∧
      u.store.scrubAt = (s0.store.scrubAt + 1) % scrubRows ∧
      (rowErrors s0 r + 1 < fld s0 Fld.IMG_SCRUB_ROW_RETIRE_LIMIT →
        u.store.retired = s0.store.retired ∧ rowErrors u r = rowErrors s0 r + 1) ∧
      (fld s0 Fld.IMG_SCRUB_ROW_RETIRE_LIMIT ≤ rowErrors s0 r + 1 → u.store.retired = s0.store.retired ++ [r]) := by
  intro s0 r
  have hexec := execScrubRead_one h hgo word .corrected
  obtain ⟨d, f, hscrub⟩ := scrubbed_eq s0
  have hcounts := correctedError_counts (banks_scrubbed (banks_begin hb t)) r
  rw [hscrub] at hexec hcounts
  rw [noteEcc_corrected (by exact hecc)] at hexec
  obtain ⟨hrest, hon, hcount, hbelow, hat⟩ := hcounts
  exact ⟨_, hexec, hon, hcount, hrest.scrubAt, hbelow, hat⟩

theorem execScrubRead_uncorrectable {s : State} {t : Nat} (hb : banksOk s = true) (h : throttle (begin s t) = 0)
    (hgo : (begin s t).store.scrubAt ≠ 0 ∨ (begin s t).store.scrubFrom = none) (hecc : (begin s t).store.eccInForce = true)
    (word : Nat) :
    let s0 := begin s t
    let r := scrubRow s0.store.scrubAt
    ∃ u, execScrubRead t [(word, .uncorrectable)] s = .next u ∧ stickyOn u Fld.IMG_STATUS_ECC_UNCORR = true ∧
      liveFld u Fld.IMG_ECC_ECC_UNCORRECTED = (liveFld s0 Fld.IMG_ECC_ECC_UNCORRECTED + 1) % 2 ^ 32 ∧
      u.store.retired = s0.store.retired ++ [r] ∧
      ⟨now s0, 0x0302, r.chan, (r.bank * 2 ^ 28 + r.row) % 2 ^ 32⟩ ∈ u.host.queued := by
  intro s0 r
  have hexec := execScrubRead_one h hgo word .uncorrectable
  obtain ⟨d, f, hscrub⟩ := scrubbed_eq s0
  have hretires := uncorrectableError_retires (banks_scrubbed (banks_begin hb t)) r word
  rw [hscrub] at hexec hretires
  rw [noteEcc_uncorrectable (by exact hecc)] at hexec
  obtain ⟨-, hon, hcount, hretired, hevent⟩ := hretires
  exact ⟨_, hexec, hon, hcount, hretired, hevent⟩

end Sys2Proof.Laws

/-! ### Strip moves (04_image_store R129 to R132) -/

namespace Sys2Proof.Laws

open Sys2Proof Sys2Proof.Machine

/-- What the reads of a move's source found in its own words (R124). -/
def sourceErrors (s : State) (m : StripMove) (ecc : List EccAt) : List EccAt :=
  match findCopy s m.src with | some x => ownErrors s x ecc | none => []

/-- The errors found do not depend on the requests of the channels. -/
theorem sourceErrors_dramOnly {s u : State} (h : DramOnly s u) (m : StripMove) (ecc : List EccAt) :
    sourceErrors u m ecc = sourceErrors s m ecc := by
  obtain ⟨d, rfl⟩ := h
  rfl

/-- A move whose copy is verified (R130). -/
def moveReady (s : State) (m : StripMove) : State :=
  let v := wroteRows s (stripRows s m.grains)
  { v with store := { v.store with moves := v.store.moves.map fun x => if x = m then { x with ready := true } else x } }

/-- The end of a copy: its errors are treated, then the move is ready or abandoned (R123, R124, R130). -/
theorem execStripMoveCopyDone_copied {s : State} {t : Nat} {c : Fin 16} {m : StripMove} (hm : moveOf (begin s t) c = some m)
    (hready : m.ready = false) (ok : Bool) (ecc : List EccAt) :
    let v := finishAccess (begin s t) (.move c)
    let es := sourceErrors v m ecc
    execStripMoveCopyDone t c ok ecc s = .next (if ok && !poisoned es then moveReady (es.foldl noteEcc v) m
      else abandonMove (es.foldl noteEcc v) m) := by
  unfold execStripMoveCopyDone
  extract_lets
  rw [hm]
  exact congrArg _ (if_neg (by simp [hready]))

/-- A copy whose source had no errors: the read-back alone decides. -/
theorem execStripMoveCopyDone_clean {s : State} {t : Nat} {c : Fin 16} {m : StripMove} {ecc : List EccAt}
    (hm : moveOf (begin s t) c = some m) (hready : m.ready = false)
    (hclean : ∀ x, findCopy (begin s t) m.src = some x → ownErrors (begin s t) x ecc = []) (ok : Bool) :
    let v := finishAccess (begin s t) (.move c)
    execStripMoveCopyDone t c ok ecc s = .next (if ok then moveReady v m else abandonMove v m) := by
  have hnone : sourceErrors (finishAccess (begin s t) (.move c)) m ecc = [] := by
    rw [sourceErrors_dramOnly (dramOnly_finishAccess _ _), sourceErrors]
    split
    next x hx => exact hclean x hx
    next => rfl
  have hexec := execStripMoveCopyDone_copied hm hready ok ecc
  dsimp only at hexec
  rw [hexec, hnone]
  cases ok <;> rfl

theorem moveReady_law {s v : State} (hv : DramOnly s v) (m : StripMove) :
    let u := moveReady v m
    u.store.strips = s.store.strips ∧
      u.store.moves = s.store.moves.map (fun x => if x = m then { x with ready := true } else x) ∧
      { u with store := s.store } = s := by
  obtain ⟨d, rfl⟩ := hv
  exact ⟨rfl, rfl, rfl⟩

theorem abandonMove_law {s v : State} (hb : banksOk s = true) (hv : DramOnly s v) (m : StripMove) :
    let u := abandonMove v m
    u.store.strips = s.store.strips ∧ u.store.moves = s.store.moves.filter (· != m) ∧
      stickyOn u Fld.IMG_STATUS_MOVE_FAIL = true ∧
      u.host.queued = s.host.queued ++ [⟨now s, 0x0309, m.handle, stripArg s m.handle m.index⟩] := by
  obtain ⟨d, rfl⟩ := hv
  obtain ⟨w, hw, hon, hqueued, hhost, -⟩ := abandonMove_reported (s := { s with store := { s.store with dram := d } }) hb m
  have hstore := HostOnly.store_eq hhost
  rw [hw.host] at hqueued
  exact ⟨(congrArg StoreSt.strips hstore).trans hw.strips, (congrArg StoreSt.moves hstore).trans hw.moves, hon, hqueued⟩

theorem execStripMoveCopyDone_poisoned {s : State} {t : Nat} {c : Fin 16} {m : StripMove} {ecc : List EccAt} {x : Strip}
    (hb : banksOk s = true) (hm : moveOf (begin s t) c = some m) (hready : m.ready = false)
    (hx : findCopy (begin s t) m.src = some x) (hpoison : poisoned (ownErrors (begin s t) x ecc) = true) (ok : Bool) :
    let s0 := begin s t
    ∃ u, execStripMoveCopyDone t c ok ecc s = .next u ∧ m ∉ u.store.moves ∧ stickyOn u Fld.IMG_STATUS_MOVE_FAIL = true ∧
      ⟨now s0, 0x0309, m.handle, stripArg s0 m.handle m.index⟩ ∈ u.host.queued := by
  intro s0
  have hdone : DramOnly s0 (finishAccess s0 (.move c)) := dramOnly_finishAccess s0 _
  have hes : sourceErrors (finishAccess s0 (.move c)) m ecc = ownErrors s0 x ecc := by
    rw [sourceErrors_dramOnly hdone, sourceErrors, hx]
  have hexec := execStripMoveCopyDone_copied hm hready ok ecc
  dsimp only at hexec
  rw [hes, hpoison, if_neg (by simp)] at hexec
  have hbd : banksOk (finishAccess s0 (.move c)) = true := (finishAccess_keeps (Keeps.refl _)).banks (banks_begin hb t)
  obtain ⟨hbe, herr⟩ := errorsOnly_foldl_noteEcc hbd (ownErrors s0 x ecc)
  obtain ⟨-, hmoves, hon, hqueued⟩ := abandonMove_law hbe (.refl _) m
  have hnow : now (finishAccess s0 (.move c)) = now s0 := congrArg deviceTime hdone.time
  rw [herr.now_eq, hnow, stripArg_congr herr.images, stripArg_congr hdone.images] at hqueued
  refine ⟨_, hexec, ?_, hon, hqueued ▸ List.mem_append_right _ (List.mem_singleton_self _)⟩
  rw [hmoves]
  exact fun hmem => by simpa using (List.mem_filter.mp hmem).2

/-- A ready move committed: the directory names the new copy, and the old one is kept while it is read (R131, R132). -/
theorem execStripMoveCommit_ready {s : State} {t : Nat} {c : Fin 16} {m : StripMove} {x : Strip} (hb : banksOk s = true)
    (hm : moveOf (begin s t) c = some m) (hready : m.ready = true) (hx : findStrip (begin s t) m.handle m.index = some x) :
    let s0 := begin s t
    ∃ u, execStripMoveCommit t c s = .next u ∧
      u.store.strips = s0.store.strips.map (fun y => if y = x then
        { x with grains := m.grains, refs := 0, copy := s0.store.nextCopy } else y) ∧
      u.store.olds = s0.store.olds ++ [⟨c, x⟩] ∧ u.store.moves = s0.store.moves.filter (· != m) ∧
      u.store.nextCopy = s0.store.nextCopy + 1 ∧
      liveFld u Fld.IMG_MOVES_STRIP_MOVES = (liveFld s0 Fld.IMG_MOVES_STRIP_MOVES + 1) % 2 ^ 32 ∧
      { u with live := s0.live, store := s0.store } = s0 := by
  intro s0
  let v : State := { s0 with store := { s0.store with
    strips := s0.store.strips.map fun y => if y = x then
      { x with grains := m.grains, refs := 0, copy := s0.store.nextCopy } else y
    olds := s0.store.olds ++ [⟨c, x⟩]
    moves := s0.store.moves.filter (· != m)
    nextCopy := s0.store.nextCopy + 1 } }
  have hexec : execStripMoveCommit t c s = .next (bump v Fld.IMG_MOVES_STRIP_MOVES) := by
    unfold execStripMoveCommit
    extract_lets
    rw [hm]
    dsimp only
    rw [hx]
    exact congrArg _ (if_neg (by simp [hready]))
  exact ⟨_, hexec, rfl, rfl, rfl, rfl, liveFld_bump (s := v) (banks_begin hb t) Fld.IMG_MOVES_STRIP_MOVES 0 1, rfl⟩

/-- The first old copy of a channel that nothing reads is freed (R132). -/
theorem execOldCopyFree_frees {s : State} {t : Nat} {c : Fin 16} {o : OldCopy}
    (ho : ((begin s t).store.olds.find? fun o => o.chan == c.val && o.strip.refs == 0) = some o) :
    let s0 := begin s t
    ∃ u, execOldCopyFree t c s = .next u ∧
      Raised { s0 with store := { s0.store with olds := s0.store.olds.filter (· != o) } } u
      ⟨now s0, 0x0308, o.strip.handle, stripArg s0 o.strip.handle o.strip.index⟩ := by
  intro s0
  let v : State := { s0 with store := { s0.store with olds := s0.store.olds.filter (· != o) } }
  have hexec : execOldCopyFree t c s = .next (raise v 0x0308 o.strip.handle (stripArg v o.strip.handle o.strip.index)) := by
    unfold execOldCopyFree
    extract_lets
    rw [ho]
    rfl
  have harg : stripArg v o.strip.handle o.strip.index % 2 ^ 32 = stripArg s0 o.strip.handle o.strip.index := stripArg_mod s0 _ _
  refine ⟨_, hexec, ?_⟩
  rw [Raised, ← harg]
  rfl

/-- Settles O26: the law of each command, in the statement's order. -/
theorem dramUpkeep : Obligations.DramUpkeep := by
  intro s t hb s0 r
  refine ⟨execScrubRead_throttled, fun h hgo => ⟨execScrubRead_clean h hgo, fun word hecc => ⟨?_, ?_⟩⟩,
    fun d => execRefreshDue_law, fun d w => execRetrainStart_begins, fun d temp eyes => execRetrainDone_trained hb,
    fun c m ecc hm hready => ⟨?_, ?_⟩,
    fun c m x => execStripMoveCommit_ready hb, fun c o => execOldCopyFree_frees⟩
  · exact execScrubRead_corrected hb h hgo hecc word
  · exact execScrubRead_uncorrectable hb h hgo hecc word
  · intro hclean
    have hdone : DramOnly s0 (finishAccess s0 (.move c)) := dramOnly_finishAccess s0 _
    exact ⟨⟨_, execStripMoveCopyDone_clean hm hready hclean true, moveReady_law hdone m⟩,
      ⟨_, execStripMoveCopyDone_clean hm hready hclean false, abandonMove_law (banks_begin hb t) hdone m⟩⟩
  · exact fun x ok hx hpoison => execStripMoveCopyDone_poisoned hb hm hready hx hpoison ok

end Sys2Proof.Laws

/-! ### Ingest (04_image_store R431; 05_line_codec R152 to R154, R165) -/

namespace Sys2Proof.Laws

open Sys2Proof Sys2Proof.Machine

/-! #### What storing a strip leaves of the ingests (R128) -/

theorem DramOnly.ingests {s u : State} (h : DramOnly s u) : u.store.ingests = s.store.ingests := by
  obtain ⟨d, rfl⟩ := h
  rfl

theorem beginRead_ingests (s : State) (c n : Nat) : (beginRead s c n).store.ingests = s.store.ingests :=
  (dramOnly_request { s with store := { s.store with
    strips := s.store.strips.map fun y => if y.copy = n then { y with refs := y.refs + 1 } else y } } _ _ _ _).ingests

theorem startReads_ingests (s : State) (c : Nat) : (startReads s c).store.ingests = s.store.ingests := by
  unfold startReads
  extract_lets h bufs go u
  exact List.foldlRecOn (motive := fun x : State => x.store.ingests = s.store.ingests) _ _ rfl fun x hx y _ =>
    (beginRead_ingests x c _).trans hx

theorem stripStored_ingests (s : State) (h : Nat) : (stripStored s h).store.ingests = s.store.ingests :=
  List.foldlRecOn (motive := fun x : State => x.store.ingests = s.store.ingests) _ _ rfl fun x hx c _ => by
    split
    · exact (startReads_ingests x c).trans hx
    · exact hx

theorem restored_ingests (s : State) (h i : Nat) : (restored s h i).store.ingests = s.store.ingests :=
  congrArg StoreSt.ingests (HostOnly.store_eq ((hostOnly_raise s 0x030B h _).trans (hostOnly_doorbell _ 26)))

theorem storeStrip_ingests (s : State) (h i : Nat) (bytes : List Byte) (cost cls : Nat) :
    (storeStrip s h i bytes cost cls).store.ingests = s.store.ingests := by
  unfold storeStrip
  extract_lets s1 old left
  have h1 : s1.store.ingests = s.store.ingests :=
    List.foldlRecOn (motive := fun x : State => x.store.ingests = s.store.ingests) _ _ rfl fun x hx m _ => by
      obtain ⟨d, hd⟩ := abandonMove_store x m
      rw [hd]
      exact hx
  obtain ⟨gs, hgs⟩ : ∃ gs, allocGrains s1 bytes.length (picksBanks s1 h i) = (gs, { s1 with freeCtr := s1.freeCtr + 1 }) :=
    ⟨_, rfl⟩
  rw [hgs]
  dsimp -zeta only
  extract_lets rows s3 x _ s4 s5
  have h4 : s4.store.ingests = s.store.ingests :=
    (dramOnly_access (wroteRows { s1 with freeCtr := s1.freeCtr + 1 } rows) (.store h i) cls true rows).ingests.trans h1
  have h5 : s5.store.ingests = s.store.ingests := by
    unfold s5
    split
    · exact (stripStored_ingests s4 h).trans h4
    · exact h4
  clear_value old
  split
  · split
    · exact (restored_ingests s5 h i).trans h5
    · exact h5
  · exact h5

/-- A strip held is in the directory under its bytes, its cost and its CRC, not damaged. -/
theorem HoldsStrip.found {u : State} {h i : Nat} {bytes : List Byte} {cost : Nat} (hs : HoldsStrip u h i bytes cost) :
    ∃ x, findStrip u h i = some x ∧ x.bytes = bytes ∧ x.cost = cost ∧ x.crc = crc32c bytes ∧ x.damaged = false := by
  obtain ⟨x, hx, hdamaged, hcrc, rfl, hcost⟩ := hs
  exact ⟨x, hx, rfl, hcost, hcrc, hdamaged⟩

/-! #### An ingest found, ended and carried on (R431) -/

theorem findIngest_spec {s : State} {k tag : Nat} {g : Ingest} (h : findIngest s k tag = some g) :
    g ∈ s.store.ingests ∧ g.chan = k ∧ g.tag = tag :=
  ⟨List.mem_of_find?_eq_some h, by simpa using List.find?_some h⟩

/-- An ingest gone, with the transfer that brought its bytes. -/
def ingestEnded (s : State) (g : Ingest) : State :=
  { s with
    store := { s.store with ingests := s.store.ingests.filter (· != g) },
    host := { s.host with transfers := s.host.transfers.filter fun x => some x.num != g.transfer } }

theorem endIngest_answers (s : State) (g : Ingest) (result : Nat) :
    endIngest s g result = answer (ingestEnded s g) g.chan g.tag true ⟨result, 0, leBytes 4 g.stored, false⟩ := rfl

/-- An ingest after one more strip is stored; `used` is where its next strip begins. -/
def nextIngest (g : Ingest) (used : Nat) : Ingest :=
  { g with next := g.next + 1, left := g.left - 1, stored := g.stored + 1, used := used, index := g.index + 1 }

theorem nextIngest_ne (g : Ingest) (used : Nat) : nextIngest g used ≠ g := fun h =>
  Nat.succ_ne_self g.stored (congrArg Ingest.stored h)

theorem nextIngest_mem_setIngest {s : State} {g : Ingest} (h : g ∈ s.store.ingests) (used : Nat) :
    nextIngest g used ∈ (setIngest s g (nextIngest g used)).store.ingests :=
  List.mem_map.mpr ⟨g, h, if_pos rfl⟩

theorem not_mem_setIngest (s : State) (g : Ingest) (used : Nat) : g ∉ (setIngest s g (nextIngest g used)).store.ingests := by
  intro h
  obtain ⟨x, -, hx⟩ := List.mem_map.mp h
  split at hx
  · exact nextIngest_ne g used hx
  · contradiction

theorem sendStrip_emitsOnly (s : State) (h i : Nat) : EmitsOnly s (sendStrip s h i) := by
  unfold sendStrip
  split
  · exact toPeer_emitsOnly s _
  · exact .refl s

/-- A strip that the channels of a streamed job can keep up with, and for which there is room, is stored, and its ingest goes on
or, after its last strip, ends. -/
theorem ingestStrip_stores {s : State} {g : Ingest} {bytes : List Byte} {cost lines : Nat}
    (hcost : streamedTooCostly s g.handle cost lines = false)
    (hroom : ceilDiv bytes.length (grainBytes s) * grainBytes s ≤ freeBytes s) (used engine : Nat) :
    ∃ v, HoldsStrip v g.handle g.next bytes cost ∧ v.store.ingests = s.store.ingests ∧
      ingestStrip s g bytes cost lines used engine =
        if (nextIngest g used).left = 0 then endIngest (setIngest v g (nextIngest g used)) (nextIngest g used) 0
        else setIngest v g (nextIngest g used) := by
  let a := storeStrip s g.handle g.next bytes cost
  let b := withAsks a (a.store.asks.filter fun x => !(x.handle == g.handle && x.index == g.next))
  let v := if b.pair.role = .active then sendStrip b g.handle g.next else b
  have hemits : EmitsOnly b v := .ite (sendStrip_emitsOnly b g.handle g.next) (.refl b)
  have hstore : v.store = b.store := by
    obtain ⟨os, hos⟩ := hemits
    rw [hos]
  have hfind : findStrip v g.handle g.next = findStrip b g.handle g.next := by rw [findStrip, hstore, ← findStrip]
  obtain ⟨x, hx, hsound⟩ := storeStrip_holds s g.handle g.next bytes cost 2
  exact ⟨v, ⟨x, hfind.trans hx, hsound⟩, (congrArg StoreSt.ingests hstore).trans (storeStrip_ingests s _ _ _ _ 2),
    (if_neg (by simp [hcost])).trans (if_neg (Nat.not_lt.mpr hroom))⟩

/-- What a strip stored does to its ingest, whatever command ends so: with a strip left the ingest goes on, and after its last one
it is answered with the strips stored (R431). -/
theorem ingestStrip_goesOn {o : Host.Outcome State Fault Refusal} {s : State} {g : Ingest} {k tag : Nat} {bytes : List Byte}
    {cost lines used engine : Nat} (ho : o = .next (ingestStrip s g bytes cost lines used engine))
    (hmem : g ∈ s.store.ingests) (hchan : g.chan = k) (htag : g.tag = tag)
    (hcost : streamedTooCostly s g.handle cost lines = false)
    (hroom : ceilDiv bytes.length (grainBytes s) * grainBytes s ≤ freeBytes s) :
    (2 ≤ g.left → ∃ u, o = .next u ∧ HoldsStrip u g.handle g.next bytes cost ∧ nextIngest g used ∈ u.store.ingests ∧
      g ∉ u.store.ingests) ∧
    (g.left < 2 → ∃ u, o = .next (answer u k tag true (okMsg (leBytes 4 (g.stored + 1)))) ∧
      HoldsStrip u g.handle g.next bytes cost ∧ g ∉ u.store.ingests) := by
  obtain ⟨v, hv, hingests, hexec⟩ := ingestStrip_stores hcost hroom used engine
  have hleft : (nextIngest g used).left = g.left - 1 := rfl
  subst hchan htag
  rw [hexec] at ho
  refine ⟨fun h => ⟨_, ho.trans (congrArg _ (if_neg (by omega))), hv, ?_, not_mem_setIngest v g used⟩,
    fun h => ⟨_, ho.trans (congrArg _ ((if_pos (by omega)).trans (endIngest_answers _ _ 0))), hv, fun hg => ?_⟩⟩
  · exact nextIngest_mem_setIngest (hingests ▸ hmem) used
  · exact not_mem_setIngest v g used (List.mem_filter.mp hg).1

/-! #### A strip that is not stored (R153, R165) -/

theorem banks_sticky {s : State} (h : banksOk s = true) (f : Field) (i b : Nat) : banksOk (sticky s f i b) = true :=
  (sticky_keeps (Keeps.refl s)).banks h

theorem liveFld_noteCodecError_source {s : State} (hb : banksOk s = true) (code : Nat) {source : Nat} (h : source < 2 ^ 5) :
    liveFld (noteCodecError s code source) Fld.JLC_LAST_ERR_ERROR_SOURCE = source :=
  (liveFld_setFld (banks_setFld hb _ _ _ _) Fld.JLC_LAST_ERR_ERROR_SOURCE 0 source 0).trans (Nat.mod_eq_of_lt h)

/-- A failing strip is reported with its code, and ends its ingest (R153). -/
theorem rejectIngest_reports {s : State} (hb : banksOk s = true) (g : Ingest) {engine : Nat} (hengine : engine < 2)
    (code : Nat) :
    ∃ u, rejectIngest s g engine code =
        answer u g.chan g.tag true ⟨if code = 14 then 10 else 4, 0, leBytes 4 g.stored, false⟩ ∧
      (code < 2 ^ 8 → liveFld u Fld.JLC_LAST_ERR_ERROR_CODE = code) ∧ liveFld u Fld.JLC_LAST_ERR_ERROR_SOURCE = 16 + engine ∧
      stickyOn u Fld.JLC_STATUS_INGEST_REJECT = true ∧ u.store.ingests = s.store.ingests.filter (· != g) ∧
      u.host.queued = s.host.queued ++ [⟨now s, 0x0403, 16 + engine, (g.index * 256 + code) % 2 ^ 32⟩] := by
  let a := sticky s Fld.JLC_STATUS_INGEST_REJECT
  let u := raise (noteCodecError a code (16 + engine)) 0x0403 (16 + engine) (g.index * 256 + code)
  have hba : banksOk a = true := banks_sticky hb _ _ _
  have hhost : HostOnly s a := hostOnly_sticky s _ _ _
  have hon : stickyOn a Fld.JLC_STATUS_INGEST_REJECT = true :=
    stickyOn_sticky (live_wf hb) (by decide) (regKey_ne (by decide) (by decide) (by decide))
      (regKey_ne (by decide) (by decide) (by decide))
  have hstill : stickyOn (noteCodecError a code (16 + engine)) Fld.JLC_STATUS_INGEST_REJECT = true := by
    rw [stickyOn, liveFld_noteCodecError_ne hba (by decide)]
    exact hon
  refine ⟨ingestEnded u g, endIngest_answers u g _, fun hcode => liveFld_noteCodecError hba hcode _,
    liveFld_noteCodecError_source hba code (by omega), hstill, ?_, ?_⟩
  · have hstore : a.store = s.store := HostOnly.store_eq hhost
    change a.store.ingests.filter (· != g) = _
    rw [hstore]
  · change a.host.queued ++ [⟨now a, _, _, _⟩] = _
    rw [queued_sticky, now_of_hostOnly hhost]

/-- A strip too costly to stream is reported, and ends its ingest (R165). -/
theorem ingestStrip_tooCostly {s : State} (hb : banksOk s = true) {g : Ingest} {cost lines : Nat}
    (hcost : streamedTooCostly s g.handle cost lines = true) (bytes : List Byte) (used engine : Nat) :
    ∃ u x, ingestStrip s g bytes cost lines used engine = answer u g.chan g.tag true ⟨6, 0, leBytes 4 g.stored, false⟩ ∧
      stickyOn u Fld.JLC_STATUS_INGEST_REJECT = true ∧
      u.host.queued = s.host.queued ++ [⟨now s, 0x0403, 16 + engine, (g.index * 256 + x % 256) % 2 ^ 32⟩] := by
  let arg := g.index * 256 + Config.freeByte s.freeCtr % 256
  let u := raise (sticky (fresh s).2 Fld.JLC_STATUS_INGEST_REJECT) 0x0403 (16 + engine) arg
  obtain ⟨hon, hqueued, -, -⟩ : Reported (fresh s).2 u Fld.JLC_STATUS_INGEST_REJECT 0 0
      ⟨now s, 0x0403, 16 + engine, arg % 2 ^ 32⟩ :=
    reported (s := (fresh s).2) (live_wf hb) (by decide) (by decide) (by decide) (by decide) rfl
  exact ⟨ingestEnded u g, Config.freeByte s.freeCtr, (if_pos hcost).trans (endIngest_answers u g 6), hon, hqueued⟩

theorem ingestStrip_noRoom {s : State} {g : Ingest} {bytes : List Byte} {cost lines : Nat}
    (hcost : streamedTooCostly s g.handle cost lines = false)
    (hroom : freeBytes s < ceilDiv bytes.length (grainBytes s) * grainBytes s) (used engine : Nat) :
    ingestStrip s g bytes cost lines used engine =
      answer (ingestEnded s g) g.chan g.tag true ⟨6, 0, leBytes 4 g.stored, false⟩ :=
  ((if_neg (by simp [hcost])).trans (if_pos hroom)).trans (endIngest_answers s g 6)

/-! #### The commands of an ingest (R152, R153, R431) -/

/-- A message that is taken, and whose reply comes later, leaves what its action leaves. -/
theorem message_later {s u : State} {k cls op tag : Nat} {c e : Bool} {act : State → State × MsgRes} {r : MsgRes}
    (h : acts s k cls op tag c e = true) (hact : act (entered s k cls op tag) = (u, r)) (hr : r.later = true) :
    message s k cls op tag c e act = u := by
  rw [message_acts h, hact, if_pos hr]

/-- The ingest that IMG.INGEST starts: over Ethernet its bytes come by a transfer, else they are read at once. -/
def startedIngest (ethernet : Bool) (k tag handle form first count : Nat) (data : DataRef) : Ingest :=
  { chan := k, tag := tag, handle := handle, jlc := form == 1, next := first, left := count,
    data := if ethernet then [] else refBytes data, transfer := if ethernet then some data.transfer else none }

/-- The unit with an ingest started, and with the transfers that are to bring its bytes. -/
def withIngest (e : State) (g : Ingest) (trs : List Transfer) : State :=
  { e with store := { e.store with ingests := e.store.ingests ++ [g] },
           host := { e.host with transfers := e.host.transfers ++ trs } }

theorem actIngest_starts {e : State} {handle form first count : Nat} {m : Image} {data : DataRef}
    (himage : findImage e handle = some m) (hcount : 0 < count) (hlast : first + count ≤ imageStrips m) (hform : form ≤ 1)
    (hraw : form = 0 → rawLength m first count ≤ data.length)
    (hdamaged : jobUses e handle = true →
      ∀ i, i < count → ∀ x, findStrip e handle (first + i) = some x → x.damaged = true)
    (hread : e.sys.ethernet = false → data.fail = 0) (k tag : Nat) :
    actIngest k tag handle form first count data e =
      (withIngest e (startedIngest e.sys.ethernet k tag handle form first count data)
        (if e.sys.ethernet then [{ num := data.transfer, length := data.length }] else []), ⟨0, 0, [], true⟩) := by
  have hfields : ¬ (count = 0 ∨ imageStrips m < first + count ∨ 1 < form ∨
      form = 0 ∧ data.length < rawLength m first count) := by omega
  have hfree : ¬ (jobUses e handle = true ∧ ((List.range count).any fun i => match findStrip e handle (first + i) with
      | some x => !x.damaged | none => false) = true) := by
    rintro ⟨huses, hany⟩
    obtain ⟨i, hi, hsound⟩ := List.any_eq_true.mp hany
    split at hsound
    · rename_i x hx
      simp [hdamaged huses i (List.mem_range.mp hi) x hx] at hsound
    · contradiction
  have hfail : ¬ (data.fail ≠ 0 ∧ (!e.sys.ethernet) = true) := fun ⟨hne, heth⟩ => hne (hread (by simpa using heth))
  unfold actIngest
  rw [himage]
  exact (if_neg hfields).trans ((if_neg hfree).trans (if_neg hfail))

theorem execRawStripEncoded_waits {s : State} {t tag : Nat} {ch : Fin 6} {g : Ingest} {m : Image}
    (hg : findIngest (begin s t) ch tag = some g) (hraw : g.jlc = false) (hm : findImage (begin s t) g.handle = some m)
    (hlen : (ingestData (begin s t) g).1.length < g.used + stripLines m g.next * imageLine m) (engine : Fin 4) :
    execRawStripEncoded t ch tag engine s = .next (begin s t) := by
  simp [execRawStripEncoded, hg, hraw, hm, hlen]

/-- The next strip of raw lines, as the module encodes it (R152). -/
def encodedNext (s : State) (g : Ingest) (m : Image) : Encoded :=
  encodeStrip (liveFld s Fld.JLC_CTRL_STORED_FALLBACK == 1) (liveFld s Fld.JLC_CTRL_COST_LIMIT) (imageLine m)
    (((ingestData s g).1.drop g.used).take (stripLines m g.next * imageLine m))

theorem execRawStripEncoded_encodes {s : State} {t tag : Nat} {ch : Fin 6} {g : Ingest} {m : Image}
    (hg : findIngest (begin s t) ch tag = some g) (hraw : g.jlc = false) (hm : findImage (begin s t) g.handle = some m)
    (hlen : g.used + stripLines m g.next * imageLine m ≤ (ingestData (begin s t) g).1.length) (engine : Fin 4) :
    execRawStripEncoded t ch tag engine s = .next (ingestStrip (begin s t) g (encodedNext (begin s t) g m).bytes
      (encodedNext (begin s t) g m).cost (stripLines m g.next) (g.used + stripLines m g.next * imageLine m) (engine.val % 2)) := by
  simp [execRawStripEncoded, hg, hraw, hm, Nat.not_lt.mpr hlen, encodedNext]

section Coded

variable {s : State} {t tag : Nat} {ch : Fin 6} {g : Ingest} {m : Image} (hg : findIngest (begin s t) ch tag = some g)
  (hcoded : g.jlc = true) (hm : findImage (begin s t) g.handle = some m)

include hg hcoded hm

theorem execIngestStripDecoded_fits {hd : StripHead} {out : List Byte} {cost : Nat}
    (hdec : decodeStrip ((ingestData (begin s t) g).1.drop g.used) = .ok hd out cost) (hfit : imageCheck m g.next hd = 0)
    {w : State} {b : List Byte} {k : Nat}
    (hchecked : costChecked (begin s t) g.handle g.next hd (((ingestData (begin s t) g).1.drop g.used).take (32 + hd.length))
      out cost = (w, b, k)) (engine : Fin 2) :
    execIngestStripDecoded t ch tag engine s = .next (ingestStrip w g b k hd.lineCount (g.used + (32 + hd.length)) engine) := by
  simp [execIngestStripDecoded, hg, hcoded, hm, hdec, hfit, hchecked]

theorem execIngestStripDecoded_unfit {hd : StripHead} {out : List Byte} {cost : Nat}
    (hdec : decodeStrip ((ingestData (begin s t) g).1.drop g.used) = .ok hd out cost) (hunfit : imageCheck m g.next hd ≠ 0)
    (engine : Fin 2) :
    execIngestStripDecoded t ch tag engine s = .next (rejectIngest (begin s t) g engine (imageCheck m g.next hd)) := by
  simp [execIngestStripDecoded, hg, hcoded, hm, hdec, hunfit]

/-- A strip that does not decode waits for the rest of its bytes, when that may be why; else it is rejected. -/
theorem execIngestStripDecoded_bad {code n : Nat}
    (hdec : decodeStrip ((ingestData (begin s t) g).1.drop g.used) = .bad code n) (engine : Fin 2) :
    execIngestStripDecoded t ch tag engine s = .next (
      if (ingestData (begin s t) g).2 = false ∧ (code = 7 ∨ code = 12) then begin s t
      else rejectIngest (begin s t) g engine code) := by
  simp [execIngestStripDecoded, hg, hcoded, hm, hdec]

end Coded

/-! #### The codec's jobs on host memory (R157, R158) -/

theorem actEncode_encodes {e : State} {j : CodecJob} (heth : e.sys.ethernet = false) (hok : encodeOk j = true)
    (hread : j.fail = 0) (hnew : j.resume = false) :
    let run := encodeJob j.width j.lps (liveFld e Fld.JLC_CTRL_COST_LIMIT) j.fallback
      (cutEvery (j.lps * j.width) j.count ((jobSource j).take (j.count * j.lps * j.width))) 0 0 0 j.dstLen {}
    actEncode j e = (
      { e with out := e.out ++ [.hostWrite j.dst run.output, .hostWrite j.hdr run.headers] ++
          (match run.stopped with | some r => [.hostWrite j.resumeAt r] | none => []) },
      ⟨if run.stopped.isSome then 11 else 0, 0, codecReply run.done run.consumed run.output.length 0, false⟩) := by
  unfold actEncode
  simp only [heth, hok, hread, hnew, Bool.false_eq_true, Bool.not_true, if_false, ne_eq, not_true_eq_false, List.drop_zero,
    Nat.zero_mul]
  generalize encodeJob _ _ _ _ _ _ _ _ _ _ = run
  cases run.stopped <;> simp [emit]

theorem actDecode_decodes {e : State} {j : CodecJob} (heth : e.sys.ethernet = false) (hop : j.op = 2) (hcount : 0 < j.count)
    (hread : j.fail = 0) (hcode : (decodeJob j.count (jobSource j) j.dstLen {}).code = 0) :
    let run := decodeJob j.count (jobSource j) j.dstLen {}
    actDecode j e = (emit e (.hostWrite j.dst run.output),
      ⟨if run.full then 11 else 0, 0, codecReply run.done run.consumed run.output.length 0, false⟩) := by
  have hcount' : j.count ≠ 0 := by omega
  simp [actDecode, heth, hop, hcount', hread, hcode]

/-- Settles O24: what a strip stored and a strip rejected do to their ingest, then the law of each command, in the statement's
order. -/
theorem ingestAndCodecJobs : Obligations.IngestAndCodecJobs := by
  intro s t ch tag hb s0 advanced holds goesOn rejected
  have hb0 : banksOk s0 = true := banks_begin hb t
  have hgoes {i : Instr} {w : State} {g : Ingest} {b : List Byte} {k lines used engine : Nat} (hg : findIngest s0 ch tag = some g)
      (hw : w.store.ingests = s0.store.ingests) (hi : exec i s = .next (ingestStrip w g b k lines used engine)) :
      goesOn i w g b k lines used := by
    intro hcost hroom
    obtain ⟨hmem, hchan, htag⟩ := findIngest_spec hg
    obtain ⟨hmore, hlast⟩ := ingestStrip_goesOn hi (hw ▸ hmem) hchan htag hcost hroom
    exact ⟨fun h => (hmore h).imp fun u ⟨hu, hheld, hrest⟩ => ⟨hu, hheld.found, hrest⟩,
      fun h => (hlast h).imp fun u ⟨hu, hheld, hrest⟩ => ⟨hu, hheld.found, hrest⟩⟩
  have hrejects {i : Instr} {g : Ingest} {engine : Fin 2} {code : Nat} (hg : findIngest s0 ch tag = some g)
      (hi : exec i s = .next (rejectIngest s0 g engine code)) : rejected i g engine code := by
    obtain ⟨-, hchan, htag⟩ := findIngest_spec hg
    obtain ⟨u, hu, hreport⟩ := rejectIngest_reports hb0 g engine.isLt code
    rw [hchan, htag] at hu
    exact ⟨u, hi.trans (congrArg _ hu), hreport⟩
  refine ⟨?_, ?_, ?_, ?_, ?_⟩
  · rintro handle form first count m data e hacts rfl himage hcount hlast hform hraw hdamaged hread
    have hact := actIngest_starts himage hcount hlast hform hraw hdamaged hread ch tag
    refine ⟨_, startedIngest _ ch tag handle form first count data,
      congrArg Host.Outcome.next (message_later hacts hact rfl), rfl, rfl, rfl, rfl, rfl, rfl, rfl, rfl,
      fun heth => ?_, fun heth => ?_, rfl⟩ <;> simp [startedIngest, withIngest, heth]
  · rintro engine g m n hg hraw hm rfl
    obtain ⟨-, hchan, htag⟩ := findIngest_spec hg
    refine ⟨fun hshort => execRawStripEncoded_waits hg hraw hm hshort engine, ?_⟩
    intro hlen e
    have hexec := execRawStripEncoded_encodes hg hraw hm hlen engine
    refine ⟨hgoes hg rfl hexec, fun hcost => ?_, fun hcost hroom => ?_⟩
    · obtain ⟨u, x, hu, hreport⟩ := ingestStrip_tooCostly hb0 hcost e.bytes (g.used + stripLines m g.next * imageLine m)
        (engine.val % 2)
      rw [hchan, htag] at hu
      exact ⟨u, x, hexec.trans (congrArg _ hu), hreport⟩
    · have hu := ingestStrip_noRoom hcost hroom (g.used + stripLines m g.next * imageLine m) (engine.val % 2)
      rw [hchan, htag] at hu
      exact ⟨ingestEnded s0 g, hexec.trans (congrArg _ hu), rfl⟩
  · intro engine g m hg hcoded hm
    refine ⟨fun hd out cost hdec => ⟨fun u b k hfit hchecked => ?_, fun hunfit => ?_⟩,
      fun code n hdec => ⟨fun hno => ?_, fun hpart hwait => ?_⟩⟩
    · have hstore : u.store = s0.store := (congrArg (·.1.store) hchecked).symm.trans (costChecked_store s0 _ _ _ _ _ _)
      exact hgoes hg (congrArg StoreSt.ingests hstore) (execIngestStripDecoded_fits hg hcoded hm hdec hfit hchecked engine)
    · exact hrejects hg (execIngestStripDecoded_unfit hg hcoded hm hdec hunfit engine)
    · refine hrejects hg ((execIngestStripDecoded_bad hg hcoded hm hdec engine).trans (congrArg _ (if_neg ?_)))
      rintro ⟨hpart, hwait⟩
      rcases hno with hwhole | hno
      · exact Bool.false_ne_true (hpart.symm.trans hwhole)
      · omega
    · exact (execIngestStripDecoded_bad hg hcoded hm hdec engine).trans (congrArg _ (if_pos ⟨hpart, hwait⟩))
  · rintro j e hacts rfl heth hok hread hnew
    exact congrArg _ (message_answers hacts (actEncode_encodes heth hok hread hnew) rfl)
  · rintro j e hacts rfl heth hop hcount hread hcode
    exact congrArg _ (message_answers hacts (actDecode_decodes heth hop hcount hread hcode) rfl)

end Sys2Proof.Laws

/-! ### The messages that describe the heads (06_weft_channels R185, R186, R192, R208; 11_control_interface R416, R441) -/

namespace Sys2Proof.Laws

open Sys2Proof Sys2Proof.Machine

/-! #### The shadow set written by a message (R416) -/

/-- A message that would put a set in the place of the shadow set, answered: STATE while a swap is pending, BAD_PARAM when its fields
are not good, and else the shadow set is the new one and not validated. -/
def shadowAnswered (e : State) (k tag : Nat) (good : Prop) [Decidable good] (c : CfgSet) : State :=
  if e.sets.swap.isSome then answer e k tag true (failMsg 5)
  else if good then answer (setShadow e fun _ => c) k tag true okMsg
  else answer e k tag true (failMsg 4)

/-- The model refuses fields by a Boolean and computes the set by a function; a statement names the fields' ranges and the set. -/
theorem message_shadowWrite {s : State} {k cls op tag : Nat} {bad : Bool} {f : CfgSet → CfgSet} {good : Prop} [Decidable good]
    {c : CfgSet} (h : acts s k cls op tag true false = true) (hgood : bad = false ↔ good)
    (hset : good → f (entered s k cls op tag).sets.shadow = c) :
    message s k cls op tag true false (shadowWrite bad f) = shadowAnswered (entered s k cls op tag) k tag good c := by
  unfold shadowAnswered
  split_ifs with hswap hg
  · exact message_answers h (if_pos hswap) rfl
  · exact message_answers h (by simp [shadowWrite, hswap, hgood.mpr hg, setShadow, okMsg, hset hg]) rfl
  · have hbad : bad = true := by simpa using mt hgood.mp hg
    exact message_answers h (by simp [shadowWrite, hswap, hbad, failMsg]) rfl

/-! #### Fields in range -/

theorem typeOk_lt {id : Nat} {r : HeadType} (h : Machine.typeOk id r = true) : id < 64 := by
  simp only [Machine.typeOk, Bool.and_eq_true, decide_eq_true_eq, and_assoc] at h
  exact h.1

theorem energyGood_iff {type : Nat} {entries : List Nat} :
    (decide (64 ≤ type) || entries.length != 8 || entries.any (2 ^ 24 ≤ ·)) = false ↔
      type < 64 ∧ entries.length = 8 ∧ ∀ x ∈ entries, x < 2 ^ 24 := by
  simp [and_assoc]

theorem supplyGood_iff {channel en hub slot : Nat} :
    (decide (16 ≤ channel) || decide (1 < en) || decide (24 ≤ hub) || decide (16 ≤ slot)) = false ↔
      channel < 16 ∧ en < 2 ∧ hub < 24 ∧ slot < 16 := by
  simp only [Bool.or_eq_false_iff, decide_eq_false_iff_not]
  omega

/-! #### Energy tables (R208) -/

theorem find?_tableSet {α : Type} (l : List (Nat × α)) (k : Nat) (v : α) : (tableSet l k v).find? (·.1 == k) = some (k, v) := by
  induction l with
  | nil => simp [tableSet]
  | cons e rest ih =>
    unfold tableSet
    split_ifs with hlt heq
    · simp
    · simp
    · rw [List.find?_cons_of_neg (by simpa using Ne.symm heq), ih]

/-- A set with the energy table of a head type written; a table that holds the reset values is not listed. -/
def withEnergy (c : CfgSet) (type : Nat) (entries : List Nat) : CfgSet :=
  { c with energy := if entries = energyReset then c.energy.filter (·.1 != type) else tableSet c.energy type entries }

/-- A type reads the table written to it, also where it is the reset table and so not listed. -/
theorem setEnergy_withEnergy (c : CfgSet) (type : Nat) (entries : List Nat) :
    setEnergy (withEnergy c type entries) type = entries := by
  unfold setEnergy withEnergy
  split_ifs with hreset
  · have hnone : (c.energy.filter (·.1 != type)).find? (·.1 == type) = none := by simp
    rw [hnone, hreset]
    rfl
  · rw [find?_tableSet]
    rfl

/-! #### FIR_SUPPLY (R236, R441) -/

/-- A set with FIR_SUPPLY of a channel written. -/
def withSupply (c : CfgSet) (channel en hub slot : Nat) : CfgSet :=
  { c with regs := bankWrite c.regs (regKey .FIR_SUPPLY channel 0) (en + 2 * hub + 64 * slot) }

/-- A field of FIR_SUPPLY reads its part of the word written. -/
theorem bankGet_withSupply {c : CfgSet} (h : bankWf c.regs = true) {f : Field} (hf : f.reg = .FIR_SUPPLY)
    (channel en hub slot : Nat) :
    bankGet (withSupply c channel en hub slot).regs f channel = bitsOf (en + 2 * hub + 64 * slot) f.lo f.width := by
  rw [bankGet, hf]
  exact congrArg (bitsOf · f.lo f.width) (bankLookup_bankWrite h _ _)

theorem withSupply_written {c : CfgSet} (h : bankWf c.regs = true) {channel en hub slot : Nat} (hen : en < 2) (hhub : hub < 24)
    (hslot : slot < 16) :
    bankGet (withSupply c channel en hub slot).regs Fld.FIR_SUPPLY_SUPPLY_EN channel = en ∧
    bankGet (withSupply c channel en hub slot).regs Fld.FIR_SUPPLY_SUPPLY_HUB channel = hub ∧
    bankGet (withSupply c channel en hub slot).regs Fld.FIR_SUPPLY_SUPPLY_SLOT channel = slot := by
  rw [bankGet_withSupply h rfl, bankGet_withSupply h rfl, bankGet_withSupply h rfl]
  simp only [bitsOf, Fld.FIR_SUPPLY_SUPPLY_EN, Fld.FIR_SUPPLY_SUPPLY_HUB, Fld.FIR_SUPPLY_SUPPLY_SLOT]
  omega

/-! #### Nozzle states (R192) -/

/-- Changes of nozzle states that wait here and go to the partner, and nothing else changed. -/
def nozzlesQueued (s : State) (xs : List NozzleChange) : State :=
  { s with print := { s.print with nozzles := s.print.nozzles ++ xs, sendNozzles := s.print.sendNozzles ++ xs } }

theorem nozzlesQueued_append (s : State) (xs ys : List NozzleChange) :
    nozzlesQueued (nozzlesQueued s xs) ys = nozzlesQueued s (xs ++ ys) := by
  simp [nozzlesQueued]

/-- The nozzle that a change names and the state that it gives. -/
def nozzleGiven (x : NozzleChange) : Nat × Bool × Nat × Nat := (x.head, x.rowB, x.nozzle, x.state)

/-- One change is queued whether or not a channel has the row; only its channel and its boundary differ. -/
theorem queueNozzle_queues (s : State) (loop : Bool) (head : Nat) (rowB : Bool) (n st : Nat) :
    ∃ x, nozzleGiven x = (head, rowB, n, st) ∧ queueNozzle s loop head rowB n st = nozzlesQueued s [x] := by
  unfold queueNozzle
  cases rowChannel s head rowB with
  | some c => exact ⟨_, rfl, rfl⟩
  | none => exact ⟨_, rfl, rfl⟩

/-- A run of nozzles queues one change each, in order. -/
theorem foldl_queueNozzle (s : State) (loop : Bool) (head : Nat) (rowB : Bool) (first st count : Nat) :
    ∃ xs, (List.range count).foldl (fun s i => queueNozzle s loop head rowB (first + i) st) s = nozzlesQueued s xs ∧
      xs.map nozzleGiven = (List.range count).map fun i => (head, rowB, first + i, st) := by
  induction count with
  | zero => exact ⟨[], by simp [nozzlesQueued], rfl⟩
  | succ count ih =>
    obtain ⟨xs, hfold, hxs⟩ := ih
    obtain ⟨x, hx, hqueue⟩ := queueNozzle_queues (nozzlesQueued s xs) loop head rowB (first + count) st
    refine ⟨xs ++ [x], ?_, ?_⟩
    · rw [List.range_succ, List.foldl_append, hfold, ← nozzlesQueued_append]
      exact hqueue
    · rw [List.range_succ, List.map_append, List.map_append, hxs, List.map_singleton, hx, List.map_singleton]

theorem execHeadNozzleState_bad {s : State} {t tag head row action first count : Nat} {ch : Fin 6}
    (h : acts (begin s t) ch 5 0x14 tag true false = true)
    (hbad : 512 ≤ head ∨ 1 < row ∨ 1 < action ∨ count = 0 ∨ 4096 < count ∨ 4096 < first + count) :
    execHeadNozzleState t ch tag head row action first count s =
      .next (answer (entered (begin s t) ch 5 0x14 tag) ch tag true (failMsg 4)) :=
  congrArg _ (message_answers h (if_pos hbad) rfl)

theorem execHeadNozzleState_queues {s : State} {t tag head row action first count : Nat} {ch : Fin 6}
    (h : acts (begin s t) ch 5 0x14 tag true false = true)
    (hgood : ¬(512 ≤ head ∨ 1 < row ∨ 1 < action ∨ count = 0 ∨ 4096 < count ∨ 4096 < first + count)) :
    ∃ xs, execHeadNozzleState t ch tag head row action first count s =
        .next (answer (nozzlesQueued (entered (begin s t) ch 5 0x14 tag) xs) ch tag true okMsg) ∧
      xs.map nozzleGiven = (List.range count).map fun i => (head, row == 1, first + i, 3 * action) := by
  obtain ⟨xs, hfold, hxs⟩ :=
    foldl_queueNozzle (entered (begin s t) ch 5 0x14 tag) false head (row == 1) first (3 * action) count
  exact ⟨xs, congrArg _ (message_answers h ((if_neg hgood).trans (congrArg (·, okMsg) hfold)) rfl), hxs⟩

/-- Settles O48: the four messages that write the shadow set are one law, each with its range and its record; the fifth queues its
run of nozzles. -/
theorem headMessages : Obligations.HeadMessages := by
  intro s t ch tag
  refine ⟨?type, ?place, ?energy, ?supply, ?nozzles⟩
  case type =>
    rintro id rec e h rfl
    exact congrArg _ (message_shadowWrite h (by simpa using typeOk_lt) fun _ => rfl)
  case place =>
    rintro rec e h rfl
    refine ⟨fun p hp => congrArg _ (message_shadowWrite h (by simp [hp]) fun _ => ?_),
      fun hnone => congrArg _ (message_shadowWrite h (by simp [hnone]) False.elim)⟩
    simp only [hp]
  case energy =>
    rintro type entries e h rfl
    exact ⟨withEnergy _ type entries, congrArg _ (message_shadowWrite h energyGood_iff fun _ => rfl),
      setEnergy_withEnergy _ type entries, rfl⟩
  case supply =>
    rintro channel en hub slot e h rfl
    refine ⟨withSupply _ channel en hub slot, congrArg _ (message_shadowWrite h supplyGood_iff fun _ => rfl), rfl, ?_⟩
    intro hwf _ hen hhub hslot
    obtain ⟨hsupplyEn, hsupplyHub, hsupplySlot⟩ := withSupply_written hwf hen hhub hslot
    exact ⟨hsupplyEn, hsupplyHub, hsupplySlot, fun k hk => bankLookup_bankWrite_ne hwf _ hk⟩
  case nozzles =>
    rintro head row action first count e h rfl
    refine ⟨execHeadNozzleState_bad h, fun hhead hrow haction hcount hmost hlast => ?_⟩
    obtain ⟨xs, hexec, hxs⟩ := execHeadNozzleState_queues (head := head) (row := row) (action := action) (first := first)
      (count := count) h (by omega)
    exact ⟨_, xs, hexec, rfl, rfl, hxs, rfl⟩

end Sys2Proof.Laws

/-! ### The account of a consumable element (07_firing_and_energy R225 to R231; 14_security R499, R502, R503) -/

namespace Sys2Proof.Laws

open Sys2Proof Sys2Proof.Machine

/-! #### Accounts read and changed -/

theorem elem_key (s : State) (k : Nat) : (elem s k).key = k := by
  unfold elem
  cases h : s.print.elements.find? (·.key == k) with
  | none => rfl
  | some e => simpa using List.find?_some h

theorem elem_congr {s u : State} (h : u.print.elements = s.print.elements) (k : Nat) : elem u k = elem s k := by
  rw [elem, elem, h]

/-- The list of accounts once one of them is changed holds the changed account under its name. -/
theorem elem_setElem (f : Element → Element) (hf : ∀ e, (f e).key = e.key) (s : State) (k : Nat) :
    elem (setElem s k f) k = f (elem s k) := by
  have hkey : (f (elem s k)).key = k := (hf _).trans (elem_key s k)
  generalize he : f (elem s k) = e at hkey
  unfold setElem
  rw [he]
  dsimp only
  unfold elem
  split
  next hany =>
    have hcomp : (fun x : Element => (if x.key = k then e else x).key == k) = fun x => x.key == k := by
      funext x
      split <;> simp [*]
    obtain ⟨x, hx⟩ := Option.isSome_iff_exists.mp (List.find?_isSome.mpr (List.any_eq_true.mp hany))
    have hxk : x.key = k := by simpa using List.find?_some hx
    simp [List.find?_map, hcomp, hx, hxk]
  next hany =>
    have hnone : s.print.elements.find? (·.key == k) = none := by
      simpa [List.find?_eq_none] using hany
    simp [List.find?_append, hnone, hkey]

/-- A change of one account leaves the others. -/
theorem elem_setElem_ne (f : Element → Element) (hf : ∀ e, (f e).key = e.key) (s : State) {j k : Nat} (h : j ≠ k) :
    elem (setElem s k f) j = elem s j := by
  have hkey : (f (elem s k)).key = k := (hf _).trans (elem_key s k)
  generalize he : f (elem s k) = e at hkey
  unfold setElem
  rw [he]
  dsimp only
  unfold elem
  split
  next =>
    have hfind : (s.print.elements.map fun x => if x.key = k then e else x).find? (·.key == j) =
        s.print.elements.find? (·.key == j) := by
      induction s.print.elements with
      | nil => rfl
      | cons x xs ih =>
        by_cases hx : x.key = k
        · simp [hx, hkey, h.symm, ih]
        · simp only [List.map_cons, if_neg hx, List.find?_cons, ih]
    rw [hfind]
  next => simp [List.find?_append, hkey, h.symm]

/-- From `s` to `u` nothing but the accounts, the registers outside the sets and what MRAM keeps has changed. -/
def AccountOnly (s u : State) : Prop := ∃ l p r, u = { s with live := l, print := p, rst := r }

theorem AccountOnly.refl (s : State) : AccountOnly s s := ⟨s.live, s.print, s.rst, rfl⟩

theorem AccountOnly.rest {s u : State} (h : AccountOnly s u) : { u with live := s.live, print := s.print, rst := s.rst } = s := by
  obtain ⟨l, p, r, rfl⟩ := h
  rfl

theorem AccountOnly.host {s u : State} (h : AccountOnly s u) : u.host = s.host := by
  obtain ⟨l, p, r, rfl⟩ := h
  rfl

theorem AccountOnly.now_eq {s u : State} (h : AccountOnly s u) : now u = now s := by
  obtain ⟨l, p, r, rfl⟩ := h
  rfl

theorem accountOnly_setElem {s u : State} (h : AccountOnly s u) (k : Nat) (f : Element → Element) : AccountOnly s (setElem u k f) := by
  obtain ⟨l, p, r, rfl⟩ := h
  exact ⟨_, _, _, rfl⟩

theorem accountOnly_setFld {s u : State} (h : AccountOnly s u) (f : Field) (i v : Nat) : AccountOnly s (setFld u f i v) := by
  obtain ⟨l, p, r, rfl⟩ := h
  exact ⟨_, _, _, rfl⟩

theorem accountOnly_keepPending {s u : State} (h : AccountOnly s u) (k : Nat) : AccountOnly s (keepPending u k) := by
  obtain ⟨l, p, r, rfl⟩ := h
  exact ⟨_, _, _, rfl⟩

/-! #### Packets to the hubs (R244, R262) -/

/-- From `s` to `u` nothing but the outputs, the free values used and the link to the hubs has changed. -/
def LinkOnly (s u : State) : Prop := ∃ os n l, u = { s with out := os, freeCtr := n, link := l }

theorem LinkOnly.refl (s : State) : LinkOnly s s := ⟨s.out, s.freeCtr, s.link, rfl⟩

theorem LinkOnly.trans {a b c : State} (h : LinkOnly a b) (k : LinkOnly b c) : LinkOnly a c := by
  obtain ⟨os, n, l, rfl⟩ := h
  obtain ⟨os', n', l', rfl⟩ := k
  exact ⟨os', n', l', rfl⟩

theorem LinkOnly.foldl {α : Type} {f : State → α → State} (hf : ∀ x a, LinkOnly x (f x a)) (l : List α) (s : State) :
    LinkOnly s (l.foldl f s) := by
  induction l generalizing s with
  | nil => exact .refl s
  | cons a l ih => exact (hf s a).trans (ih _)

theorem LinkOnly.print {s u : State} (h : LinkOnly s u) : u.print = s.print := by
  obtain ⟨os, n, l, rfl⟩ := h
  rfl

theorem LinkOnly.host {s u : State} (h : LinkOnly s u) : u.host = s.host := by
  obtain ⟨os, n, l, rfl⟩ := h
  rfl

theorem LinkOnly.live {s u : State} (h : LinkOnly s u) : u.live = s.live := by
  obtain ⟨os, n, l, rfl⟩ := h
  rfl

theorem linkOnly_onLanes (s : State) (u : Nat) (p : HubPacket) : LinkOnly s (onLanes s u p) := by
  have hblocks (x : State) (n : Nat) (bs : List Block) : LinkOnly x (sendBlocks x n bs) := ⟨_, _, _, rfl⟩
  unfold onLanes
  extract_lets first ks standby
  split
  · exact .foldl (fun x _ => hblocks x _ _) _ s
  · exact .foldl (fun x _ => hblocks x _ _) _ s

theorem linkOnly_toHub (s : State) (u : Nat) (p : HubPacket) : LinkOnly s (toHub s u p) := by
  unfold toHub
  split
  · exact .refl s
  · exact LinkOnly.trans ⟨_, _, _, rfl⟩ (linkOnly_onLanes _ u p)

theorem linkOnly_sendCmd (s : State) (u cmd : Nat) (args : List Byte) (msg : Option (Nat × Nat)) :
    LinkOnly s (sendCmd s u cmd args msg) := by
  unfold sendCmd
  extract_lets tag c
  split
  · exact .refl s
  · exact LinkOnly.trans ⟨_, _, _, rfl⟩ (linkOnly_toHub (setHub s u _) u _)

/-- A packet of the unit that holds the lease goes out, not marked STANDBY, when the group's state carries it. -/
theorem toHub_sends {s : State} {u : Nat} {p : HubPacket} (hdrive : driving s = true) (hon : linesOff s = false)
    (hcarry : mayCarry (hubOf s u).state p = true) :
    .hub u (liveFld s Fld.PAIR_EPOCH_EPOCH) false p ∈ (toHub s u p).out := by
  unfold toHub
  rw [hubOf] at hcarry
  rw [if_neg (by simp [hon, hcarry]), hdrive]
  exact (out_onLanes _ u p).subset (mem_out_emit s _)

theorem hubOf_setHub_state (s : State) (u : Nat) {f : HubSt → HubSt} (hf : ∀ h, (f h).state = h.state) :
    (hubOf (setHub s u f) u).state = (hubOf s u).state := by
  by_cases h : u < s.link.hubs.length
  · exact (congrArg _ (nth_upd h f {})).trans (hf _)
  · simp [hubOf, setHub, nth, upd, List.getElem?_eq_none (Nat.le_of_not_lt h)]

/-- A request to a hub whose group is UP goes out with the hub's next tag. -/
theorem sendCmd_sends {s : State} {u : Nat} (hdrive : driving s = true) (hon : linesOff s = false) (hup : (hubOf s u).state = 3)
    (cmd : Nat) (args : List Byte) (msg : Option (Nat × Nat)) :
    .hub u (liveFld s Fld.PAIR_EPOCH_EPOCH) false (.headCmd cmd (hubOf s u).nextTag args) ∈ (sendCmd s u cmd args msg).out := by
  unfold sendCmd
  extract_lets tag c
  rw [if_neg (by simp [mayCarry, hup])]
  refine toHub_sends (s := setHub s u _) hdrive hon ?_
  simp [hubOf_setHub_state, hup, mayCarry]

/-! #### An element asked (R227, R230, R499) -/

/-- An account whose request goes out with a new nonce at a time. -/
def requestedAt (at' nonce : Nat) (e : Element) : Element := { e with nonce := nonce, sentAt := at' }

/-- An account whose certificate is being read, by a request that goes out at a time. -/
def readingAt (at' : Nat) (e : Element) : Element := { e with reading := true, sentAt := at', attempts := Nat.max 1 e.attempts }

/-- An account with a commit in flight (R226). -/
def committing (seq amount : Nat) (e : Element) : Element := { e with inFlight := true, attempts := 1, seq := seq, amount := amount }

/-- An account that a CONS_RESET message waits for (R502). -/
def awaitedBy (k tag : Nat) (e : Element) : Element := { e with rebase := some (k, tag), attempts := 1 }

/-- From `s` to `u` element k was asked: its account reads `e`, the others as before, the packet has gone to the hub if its group is UP,
and the host interface and the registers are as they were. -/
structure Asked (s u : State) (k : Nat) (e : Element) (hub : Nat) (p : HubPacket) : Prop where
  account : elem u k = e
  others : ∀ j, j ≠ k → elem u j = elem s j
  host : u.host = s.host
  live : u.live = s.live
  sent : (hubOf s hub).state = 3 → linesOff s = false → .hub hub (liveFld s Fld.PAIR_EPOCH_EPOCH) false p ∈ u.out

/-- What was asked after a change of the element's account was asked from the state before. -/
theorem Asked.of_setElem {s u : State} {k hub : Nat} {f : Element → Element} {e : Element} {p : HubPacket}
    (hf : ∀ e, (f e).key = e.key) (h : Asked (setElem s k f) u k e hub p) : Asked s u k e hub p where
  account := h.account
  others j hj := (h.others j hj).trans (elem_setElem_ne f hf s hj)
  host := h.host
  live := h.live
  sent := h.sent

/-- An account changed and then packets sent: the element was asked. -/
theorem LinkOnly.asked {s v u : State} {k hub : Nat} {f : Element → Element} {p : HubPacket} (hf : ∀ e, (f e).key = e.key)
    (hv : LinkOnly s v) (hu : LinkOnly (setElem v k f) u)
    (hsent : (hubOf s hub).state = 3 → linesOff s = false → .hub hub (liveFld s Fld.PAIR_EPOCH_EPOCH) false p ∈ u.out) :
    Asked s u k (f (elem s k)) hub p where
  account := by
    rw [elem_congr (congrArg _ hu.print), elem_setElem f hf, elem_congr (congrArg _ hv.print)]
  others j hj := by
    rw [elem_congr (congrArg _ hu.print), elem_setElem_ne f hf v hj, elem_congr (congrArg _ hv.print)]
  host := hu.host.trans hv.host
  live := hu.live.trans hv.live
  sent := hsent

/-- A request of the unit that holds the lease goes to an element that is reached, with a new nonce (R227). -/
theorem sendRequest_asked {s : State} {k hub target slot : Nat} (hdrive : driving s = true)
    (hhub : elemHub s k = some (hub, target, slot)) (seq inc : Nat) :
    ∃ nonce, Asked s (sendRequest s k seq inc) k (requestedAt (now s) nonce (elem s k)) hub
      (.cons k target slot (commitRecord (elem s k).identity seq inc 0 nonce)) := by
  let nonce := Config.random s.freeCtr % 2 ^ 128
  let v := setElem (fresh s).2 k (requestedAt (now s) nonce)
  have hident : (elem v k).identity = (elem s k).identity := by
    rw [elem_setElem (requestedAt (now s) nonce) fun _ => rfl]
    rfl
  have hsend : sendRequest s k seq inc = toHub v hub (.cons k target slot (commitRecord (elem s k).identity seq inc 0 nonce)) := by
    rw [← hident]
    unfold sendRequest
    rw [if_pos hdrive, hhub]
    rfl
  rw [hsend]
  exact ⟨nonce, LinkOnly.asked (f := requestedAt (now s) nonce) (v := (fresh s).2) (fun _ => rfl) ⟨_, _, _, rfl⟩
    (linkOnly_toHub v hub _) fun hup hon => toHub_sends (s := v) hdrive hon (beq_iff_eq.mpr hup)⟩

/-- A piece of the certificate is asked for from where it has been read to (R262, R499). -/
theorem readCert_asked {s : State} {k hub target slot : Nat} (hdrive : driving s = true)
    (hhub : elemHub s k = some (hub, target, slot)) :
    Asked s (readCert s k) k (readingAt (now s) (elem s k)) hub
      (.headCmd 6 (hubOf s hub).nextTag (leBytes 1 target ++ leBytes 1 slot ++ leBytes 2 (elem s k).cert.length)) := by
  unfold readCert
  rw [hhub]
  exact LinkOnly.asked (f := readingAt (now s)) (fun _ => rfl) (.refl s) (linkOnly_sendCmd _ _ _ _ _) fun hup hon =>
    sendCmd_sends (s := setElem s k _) hdrive hon hup 6 _ none

/-! #### The registers of an account (R225, R236) -/

theorem elemRegs_index_lt {k : Nat} (h : k < 528) : (elemRegs k).2.2.2 < 8192 := by
  unfold elemRegs
  split
  · exact (show k < 8192 by omega)
  · exact (show k - 512 < 8192 by omega)

theorem elemRegs_widths (k : Nat) :
    (elemRegs k).1.width = 64 ∧ (elemRegs k).2.1.width = 64 ∧ (elemRegs k).2.2.1.width = 32 := by
  unfold elemRegs
  split <;> exact ⟨rfl, rfl, rfl⟩

/-- The three numbers of an account lie in three registers. -/
theorem elemRegs_apart (k : Nat) :
    (elemRegs k).1.reg.ctorIdx ≠ (elemRegs k).2.1.reg.ctorIdx ∧ (elemRegs k).1.reg.ctorIdx ≠ (elemRegs k).2.2.1.reg.ctorIdx ∧
      (elemRegs k).2.1.reg.ctorIdx ≠ (elemRegs k).2.2.1.reg.ctorIdx := by
  by_cases h : k < 512 <;> simp only [elemRegs, h, if_true, if_false] <;> decide

/-- Two elements count in two registers. -/
theorem pendingKey_ne {j k : Nat} (hj : j < 528) (hk : k < 528) (h : j ≠ k) :
    regKey (elemRegs j).1.reg (elemRegs j).2.2.2 0 ≠ regKey (elemRegs k).1.reg (elemRegs k).2.2.2 0 := by
  intro he
  obtain ⟨hreg, hidx, -⟩ := regKey_inj (elemRegs_index_lt hj) (by decide) (elemRegs_index_lt hk) (by decide) he
  by_cases hj' : j < 512 <;> by_cases hk' : k < 512 <;> simp only [elemRegs, hj', hk', if_true, if_false] at hreg hidx
  · exact h hidx
  · exact absurd hreg (by decide)
  · exact absurd hreg (by decide)
  · omega

theorem elemPending_lt (s : State) (k : Nat) : elemPending s k < 2 ^ 64 :=
  (elemRegs_widths k).1 ▸ liveFld_lt s (elemRegs k).1 (elemRegs k).2.2.2 0

theorem elemPending_setPending {s : State} (hb : banksOk s = true) (k n : Nat) : elemPending (setPending s k n) k = n % 2 ^ 64 :=
  (elemRegs_widths k).1 ▸ liveFld_setFld hb (elemRegs k).1 (elemRegs k).2.2.2 n 0

theorem elemPending_setPending_ne {s : State} (hb : banksOk s = true) {j k : Nat} (hj : j < 528) (hk : k < 528) (h : j ≠ k) (n : Nat) :
    elemPending (setPending s k n) j = elemPending s j :=
  liveFld_of_kept (regsKept_setFld (live_wf hb) (elemRegs k).1 (elemRegs k).2.2.2 n 0) _ _ 0 (by simpa using pendingKey_ne hj hk h)

theorem elemTotal_congr {s u : State} (h : u.live = s.live) (k : Nat) : elemTotal u k = elemTotal s k := by
  rw [elemTotal, elemTotal, liveFld, liveFld, h]

theorem elemPending_congr {s u : State} (h : u.live = s.live) (k : Nat) : elemPending u k = elemPending s k := by
  rw [elemPending, elemPending, liveFld, liveFld, h]

theorem elemSeq_congr {s u : State} (h : u.live = s.live) (k : Nat) : elemSeq u k = elemSeq s k := by
  rw [elemSeq, elemSeq, liveFld, liveFld, h]

theorem elemTotal_setPending {s : State} (hb : banksOk s = true) {k : Nat} (hk : k < 528) (n : Nat) :
    elemTotal (setPending s k n) k = elemTotal s k :=
  liveFld_setFld_ne hb (elemRegs_apart k).1.symm (elemRegs_index_lt hk) (elemRegs_index_lt hk) n

theorem elemSeq_setPending {s : State} (hb : banksOk s = true) {k : Nat} (hk : k < 528) (n : Nat) :
    elemSeq (setPending s k n) k = elemSeq s k :=
  liveFld_setFld_ne hb (elemRegs_apart k).2.1.symm (elemRegs_index_lt hk) (elemRegs_index_lt hk) n

theorem banks_setPending {s : State} (hb : banksOk s = true) (k n : Nat) : banksOk (setPending s k n) = true :=
  banks_setFld hb _ _ _ _

theorem banks_setTotal {s : State} (hb : banksOk s = true) (k total seq : Nat) : banksOk (setTotal s k total seq) = true :=
  banks_setFld (banks_setFld hb _ _ _ _) _ _ _ _

theorem elemTotal_setTotal {s : State} (hb : banksOk s = true) {k : Nat} (hk : k < 528) (total seq : Nat) :
    elemTotal (setTotal s k total seq) k = total % 2 ^ 64 := by
  obtain ⟨-, hwidth, -⟩ := elemRegs_widths k
  obtain ⟨-, -, hne⟩ := elemRegs_apart k
  rw [← hwidth, ← liveFld_setFld hb (elemRegs k).2.1 (elemRegs k).2.2.2 total 0]
  exact liveFld_setFld_ne (banks_setFld hb _ _ _ _) hne (elemRegs_index_lt hk) (elemRegs_index_lt hk) seq

theorem elemSeq_setTotal {s : State} (hb : banksOk s = true) (k total seq : Nat) :
    elemSeq (setTotal s k total seq) k = seq % 2 ^ 32 := by
  obtain ⟨-, -, hwidth⟩ := elemRegs_widths k
  rw [← hwidth]
  exact liveFld_setFld (banks_setFld hb _ _ _ _) _ _ seq 0

/-- A number of n bytes is below 256^n. -/
theorem leAt_lt (bs : List Byte) (off n : Nat) : leAt bs off n < 256 ^ n := by
  have hlen : (bytesAt bs off n).length = n := by simp [bytesAt]
  have hmod := ofLe_leBytes n (leAt bs off n)
  have hback := leBytes_ofLe (bytesAt bs off n)
  rw [hlen] at hback
  rw [leAt, hback] at hmod
  rw [leAt, hmod]
  exact Nat.mod_lt _ (by positivity)

/-! #### A commit begins (R226, R499) -/

theorem mayCommit_iff {s : State} {k : Nat} : mayCommit s k = true ↔
    driving s = true ∧ serving s = true ∧ s.sec.rngFailed = false ∧ (elem s k).inFlight = false ∧ (elem s k).seqFault = false ∧
      (elem s k).rebase = none ∧ elemPending s k ≠ 0 ∧ (elemHub s k).isSome = true := by
  simp [mayCommit, and_assoc]

/-- The whole pending count is asked to be committed, under the number after the last one accepted. -/
theorem startCommit_asked {s : State} {k hub target slot : Nat} (hdrive : driving s = true)
    (hhub : elemHub s k = some (hub, target, slot)) :
    ∃ nonce, Asked s (startCommit s k) k
      (requestedAt (now s) nonce (committing ((elemSeq s k + 1) % 2 ^ 32) (elemPending s k) (elem s k))) hub
      (.cons k target slot (commitRecord (elem s k).identity ((elemSeq s k + 1) % 2 ^ 32) (elemPending s k) 0 nonce)) := by
  let f := committing ((elemSeq s k + 1) % 2 ^ 32) (elemPending s k)
  have hf (e : Element) : (f e).key = e.key := rfl
  obtain ⟨nonce, hasked⟩ := sendRequest_asked (s := setElem s k f) hdrive hhub ((elemSeq s k + 1) % 2 ^ 32) (elemPending s k)
  rw [elem_setElem f hf] at hasked
  exact ⟨nonce, hasked.of_setElem hf⟩

/-- A commit that may go and is due begins when the certificate is good; else the certificate is asked for, unless it is being read. -/
theorem execConsCommitStart_due {s s0 : State} {t k : Nat} (h0 : s0 = begin s t) (hmay : mayCommit s0 k = true)
    (hdue : commitDue s0 k = true) : execConsCommitStart t k s = .next (if (elem s0 k).certOk then startCommit s0 k
      else if (elem s0 k).reading ∨ 0 < (elem s0 k).attempts then s0 else readCert s0 k) := by
  subst h0
  unfold execConsCommitStart
  extract_lets v
  rw [if_neg (by simp [v, hmay, hdue])]

/-! #### The element's record accepted (R229) -/

/-- An account whose commit in flight was accepted, with the record and signature that did so. -/
def acceptedAt (at' : Nat) (record sig : List Byte) (e : Element) : Element :=
  { e with inFlight := false, attempts := 0, lastDone := at', lastRecord := record.take 48, lastSig := sig }

/-- The element's record for the commit in flight accepted. -/
def commitAccepted (s : State) (k total seq : Nat) (record sig : List Byte) : State :=
  setElem (keepPending (setPending (setTotal s k total seq) k (elemPending s k - (elem s k).amount)) k) k
    (acceptedAt (now s) record sig)

theorem execConsReplyReceive_invalid {s s0 : State} {t : Nat} (h0 : s0 = begin s t) (k : Nat) (hub : Fin 24) (reply : ConsReply) :
    execConsReplyReceive t k hub false reply s = .next (discardPacket s0 hub) := by
  subst h0
  rfl

/-- The element's record for the commit in flight is accepted when its signature verifies, and is a failed authentication otherwise. -/
theorem execConsReplyReceive_inFlight {s s0 : State} {t k : Nat} {hub : Fin 24} {record sig : List Byte} (h0 : s0 = begin s t)
    (hserving : serving s0 = true) (hflight : (elem s0 k).inFlight = true) (hnonce : (elem s0 k).nonce = leAt record 32 16)
    (hident : leAt record 4 8 = (elem s0 k).identity) (hrebase : (elem s0 k).rebase = none)
    (hseq : leAt record 12 4 = (elem s0 k).seq) (hinc : leAt record 16 8 = (elem s0 k).amount)
    (htotal : leAt record 24 8 = (elemTotal s0 k + (elem s0 k).amount) % 2 ^ 64) :
    execConsReplyReceive t k hub true (.reply record sig) s = .next
      (if Config.sigOk (Config.certKey (elem s0 k).cert) (record.take 48) sig
        then commitAccepted s0 k (leAt record 24 8) (leAt record 12 4) record sig
        else consAuthFail s0 k (elem s0 k).seq) := by
  subst h0
  have hawaits : awaits (elem (begin s t) k) (leAt record 32 16) = true := by simp [awaits, hflight, hnonce]
  unfold execConsReplyReceive
  dsimp only
  rw [if_neg (by simp), if_neg (by simp [hserving, hawaits])]
  cases hsig : Config.sigOk (Config.certKey (elem (begin s t) k).cert) (record.take 48) sig with
  | false => rfl
  | true =>
    rw [if_neg (by simp), if_neg (by simp [hident]), hrebase]
    dsimp only
    rw [if_neg (by simp), if_neg (by simp [hseq, hinc]), if_neg (by simp [htotal])]
    rfl

theorem commitAccepted_live (s : State) (k total seq : Nat) (record sig : List Byte) :
    (commitAccepted s k total seq record sig).live =
      (setPending (setTotal s k total seq) k (elemPending s k - (elem s k).amount)).live := rfl

theorem commitAccepted_accountOnly (s : State) (k total seq : Nat) (record sig : List Byte) :
    AccountOnly s (commitAccepted s k total seq record sig) :=
  accountOnly_setElem (accountOnly_keepPending
    (accountOnly_setFld (accountOnly_setFld (accountOnly_setFld (.refl s) _ _ _) _ _ _) _ _ _) k) k _

/-- The committed amount moves from the pending count to the total, and no other account changes. -/
theorem commitAccepted_moves {s : State} (hb : banksOk s = true) {k : Nat} (hk : k < 528) (total : Nat) {seq : Nat} (hseq : seq < 2 ^ 32)
    (record sig : List Byte) : let u := commitAccepted s k total seq record sig
    elemTotal u k = total % 2 ^ 64 ∧ elemPending u k = elemPending s k - (elem s k).amount ∧ elemSeq u k = seq ∧
      (elem u k).inFlight = false ∧ ∀ j, j ≠ k → elem u j = elem s j := by
  have hbt := banks_setTotal hb k total seq
  have hpending := elemPending_lt s k
  have hlive := commitAccepted_live s k total seq record sig
  intro u
  refine ⟨?total, ?pending, ?seq, ?flight, fun j hj => ?others⟩
  case total => rw [elemTotal_congr hlive, elemTotal_setPending hbt hk, elemTotal_setTotal hb hk]
  case pending => rw [elemPending_congr hlive, elemPending_setPending hbt, Nat.mod_eq_of_lt (by omega)]
  case seq => rw [elemSeq_congr hlive, elemSeq_setPending hbt hk, elemSeq_setTotal hb, Nat.mod_eq_of_lt hseq]
  case flight => exact congrArg Element.inFlight (elem_setElem (acceptedAt (now s) record sig) (fun _ => rfl) _ k)
  case others => exact elem_setElem_ne (acceptedAt (now s) record sig) (fun _ => rfl) _ hj

/-- A packet that fails R255 is counted for its hub and reported, and no more happens. -/
theorem discardPacket_counts {s : State} (hb : banksOk s = true) {hub : Nat} (h : hub < 8192) : HostOnly s (discardPacket s hub) ∧
    liveFld (discardPacket s hub) Fld.FL_CRC_ERR_CRC_ERRORS hub = (liveFld s Fld.FL_CRC_ERR_CRC_ERRORS hub + 1) % 2 ^ 32 ∧
    stickyOn (discardPacket s hub) Fld.FL_STATUS_CRC_ERROR = true := by
  have hbump : banksOk (bump s Fld.FL_CRC_ERR_CRC_ERRORS hub) = true := banks_setFld hb _ _ _ _
  refine ⟨(hostOnly_setFld s _ _ _ _).trans (hostOnly_sticky (bump s Fld.FL_CRC_ERR_CRC_ERRORS hub) _ _ _), ?_,
    stickyOn_sticky (live_wf hbump) (by decide) (regKey_ne (by decide) (by decide) (by decide))
      (regKey_ne (by decide) (by decide) (by decide))⟩
  exact (liveFld_sticky_ne hbump (by decide) (by decide) (by decide) (by decide) h 0).trans (liveFld_bump hb _ hub 1)

/-! #### A request unanswered (R230) -/

theorem HostOnly.print_eq {s u : State} (h : HostOnly s u) : u.print = s.print := by
  unfold HostOnly at h
  rw [← h]

/-- An account after the third failure of its request: a commit goes on once a second, a CONS_RESET is over (R230). -/
def failedThird (e : Element) : Element := { e with attempts := if e.rebase.isSome then 0 else 4 }

/-- The third failure of a commit reported (R230). -/
def commitTimedOut (s : State) (k : Nat) : State :=
  raiseOnce (sticky (setElem s k failedThird) Fld.FIR_STATUS_CONS_TIMEOUT) 0x0605 k (elem s k).seq

section Unanswered

variable {s s0 : State} {t k : Nat} (h0 : s0 = begin s t) (hserving : serving s0 = true) (hflight : (elem s0 k).inFlight = true)
  (hrebase : (elem s0 k).rebase = none) (hwaited : (elem s0 k).sentAt + consTimeout s0 ≤ now s0)
include h0 hserving hflight hrebase hwaited

theorem execConsTimeout_retries (hfew : (elem s0 k).attempts < 3) :
    execConsTimeout t k s = .next (consRetry (setElem s0 k fun e => { e with attempts := e.attempts + 1 }) k) := by
  subst h0
  have hlong : ¬ now (begin s t) - (elem (begin s t) k).sentAt < consTimeout (begin s t) := by omega
  unfold execConsTimeout
  extract_lets v e waited
  rw [if_neg (by simp [v, e, hserving, hflight]), if_pos hfew, if_neg hlong, if_neg (by simp [v, e, hrebase])]

theorem execConsTimeout_third (hthird : (elem s0 k).attempts = 3) : execConsTimeout t k s = .next (commitTimedOut s0 k) := by
  subst h0
  have hlong : ¬ now (begin s t) - (elem (begin s t) k).sentAt < consTimeout (begin s t) := by omega
  unfold execConsTimeout
  extract_lets v e waited
  have hnone : e.rebase = none := hrebase
  rw [if_neg (by simp [v, e, hserving, hflight]), if_neg (by simp [v, e, hthird]), if_pos hthird, if_neg hlong, hnone]
  rfl

end Unanswered

/-- An event not yet raised for its source in the pick is raised (R237). -/
theorem raiseOnce_new {s : State} {code source : Nat} (h : (code, source) ∉ s.print.raised) (arg : Nat) :
    raiseOnce s code source arg =
      raise { s with print := { s.print with raised := (code, source) :: s.print.raised } } code source arg :=
  if_neg (by simpa using h)

theorem commitTimedOut_reports {s : State} (hb : banksOk s = true) {k : Nat} (hrebase : (elem s k).rebase = none)
    (hnew : (0x0605, k) ∉ s.print.raised) : let u := commitTimedOut s k
    stickyOn u Fld.FIR_STATUS_CONS_TIMEOUT = true ∧ (elem u k).attempts = 4 ∧
      u.host.queued = s.host.queued ++ [⟨now s, 0x0605, k, (elem s k).seq % 2 ^ 32⟩] := by
  intro u
  let v := setElem s k failedThird
  let w := sticky v Fld.FIR_STATUS_CONS_TIMEOUT
  have hw : HostOnly v w := hostOnly_sticky v _ _ _
  have hu : u = raise { w with print := { w.print with raised := (0x0605, k) :: w.print.raised } } 0x0605 k (elem s k).seq :=
    raiseOnce_new (by rw [HostOnly.print_eq hw]; exact hnew) _
  rw [hu]
  refine ⟨?sticky, ?attempts, ?event⟩
  case sticky =>
    exact stickyOn_sticky (s := v) (live_wf hb) (by decide) (regKey_ne (by decide) (by decide) (by decide))
      (regKey_ne (by decide) (by decide) (by decide))
  case attempts =>
    have helem : elem w k = failedThird (elem s k) :=
      (elem_congr (congrArg _ (HostOnly.print_eq hw)) k).trans (elem_setElem failedThird (fun _ => rfl) s k)
    rw [failedThird, hrebase] at helem
    exact congrArg Element.attempts helem
  case event =>
    have hqueued : w.host.queued = s.host.queued := queued_sticky v _ _ _
    have hnow : now w = now v := now_of_hostOnly hw
    exact congrArg₂ (fun q at' => q ++ [⟨at', 0x0605, k, (elem s k).seq % 2 ^ 32⟩]) hqueued hnow

/-! #### The account asked for again (R502) -/

theorem targetElem_lt {target index k : Nat} (h : targetElem target index = some k) : k < 528 := by
  unfold targetElem at h
  split_ifs at h <;> simp only [Option.some.injEq] at h <;> omega

/-- CONS_RESET notes the message that waits, and asks the element with SEQ 0 and INCREMENT 0, or for its certificate first. -/
theorem actConsReset_asks {e : State} {ch tag target index x hub tgt slot : Nat} (hx : targetElem target index = some x)
    (hhub : elemHub e x = some (hub, tgt, slot)) (hdrive : driving e = true) (hrng : e.sec.rngFailed = false)
    (hflight : (elem e x).inFlight = false) (hrebase : (elem e x).rebase = none) :
    ∃ u a p, actConsReset ch tag target index e = (u, ⟨0, 0, [], true⟩) ∧ Asked e u x a hub p ∧ a.rebase = some (ch, tag) ∧
      a.attempts = 1 ∧ a.sentAt = now e ∧
      ((elem e x).certOk = true → p = .cons x tgt slot (commitRecord (elem e x).identity 0 0 0 a.nonce)) := by
  let f := awaitedBy ch tag
  have hf (y : Element) : (f y).key = y.key := rfl
  have hact : actConsReset ch tag target index e =
      (if (elem e x).certOk then sendRequest (setElem e x f) x 0 0 else readCert (setElem e x f) x, ⟨0, 0, [], true⟩) := by
    have hcert : (elem (setElem e x f) x).certOk = (elem e x).certOk := by
      rw [elem_setElem f hf]
      rfl
    unfold actConsReset
    rw [hx]
    dsimp only
    rw [if_neg (by simp [hhub]), if_neg (by simp [hdrive]), if_neg (by simp [hrng]), if_neg (by simp [hflight, hrebase]), ← hcert]
    rfl
  rw [hact]
  cases hcert : (elem e x).certOk with
  | true =>
    obtain ⟨nonce, hasked⟩ := sendRequest_asked (s := setElem e x f) hdrive hhub 0 0
    rw [elem_setElem f hf] at hasked
    exact ⟨_, _, _, rfl, hasked.of_setElem hf, rfl, rfl, rfl, fun _ => rfl⟩
  | false =>
    have hasked := readCert_asked (s := setElem e x f) hdrive hhub
    rw [elem_setElem f hf] at hasked
    exact ⟨_, _, _, rfl, hasked.of_setElem hf, rfl, rfl, rfl, fun h => absurd h (by decide)⟩

theorem execConsReset_later {s s0 u : State} {t tag target index : Nat} {ch : Fin 6} {r : MsgRes} (h0 : s0 = begin s t)
    (h : secActs s0 ch 0x1A tag true false 0 = true)
    (hact : actConsReset ch tag target index (secEntered s0 ch 0x1A tag) = (u, r)) (hr : r.later = true) :
    execConsReset t ch tag target index s = .next u := by
  subst h0
  unfold execConsReset
  rw [secMessage_acts h, hact, if_pos hr]

/-! #### A pending count moved to another element (R503) -/

/-- The whole pending count of element a moved to element b, and kept for both. -/
def pendingMoved (s : State) (a b : Nat) : State :=
  setElem (keepPending (keepPending (setPending (setPending s b (elemPending s b + elemPending s a)) a 0) a) b) a fun y =>
    { y with seqFault := false }

theorem actConsTransfer_moves {e : State} {target src dst a b : Nat} (ha : targetElem target src = some a)
    (hb : targetElem target dst = some b) (hab : a ≠ b) (haf : (elem e a).inFlight = false) (har : (elem e a).rebase = none)
    (hbf : (elem e b).inFlight = false) (hbr : (elem e b).rebase = none) (hfault : (elem e a).seqFault = false) :
    actConsTransfer target src dst e = (raise (pendingMoved e a b) 0x0C0E a b, okMsg (leBytes 8 (elemPending e a))) := by
  unfold actConsTransfer
  rw [ha, hb]
  dsimp only
  rw [if_neg (by simp [haf, har, hbf, hbr]), if_neg hab, if_neg (by simp [hfault])]
  rfl

theorem execConsTransfer_answers {s s0 u : State} {t tag target src dst : Nat} {ch : Fin 6} {payload : List Byte} (h0 : s0 = begin s t)
    (h : secActs s0 ch 0x1B tag true false 0 = true)
    (hact : actConsTransfer target src dst (secEntered s0 ch 0x1B tag) = (u, okMsg payload)) :
    execConsTransfer t ch tag target src dst s = .next (answer (audit u 0x0C9B ch 0) ch tag true (okMsg payload)) := by
  subst h0
  unfold execConsTransfer
  rw [secMessage_acts h, hact, if_neg (by simp [okMsg])]
  rfl

theorem pendingMoved_accountOnly (s : State) (a b : Nat) : AccountOnly s (pendingMoved s a b) :=
  accountOnly_setElem (accountOnly_keepPending (accountOnly_keepPending
    (accountOnly_setFld (accountOnly_setFld (.refl s) _ _ _) _ _ _) a) b) a _

theorem pendingMoved_raises (s : State) {a b : Nat} (hb : b < 528) : (raise (pendingMoved s a b) 0x0C0E a b).host.queued =
    s.host.queued ++ [⟨now s, 0x0C0E, a, b⟩] := by
  have honly := pendingMoved_accountOnly s a b
  have hraise : (raise (pendingMoved s a b) 0x0C0E a b).host.queued =
      (pendingMoved s a b).host.queued ++ [⟨now (pendingMoved s a b), 0x0C0E, a, b % 2 ^ 32⟩] := rfl
  rw [hraise, honly.host, honly.now_eq, Nat.mod_eq_of_lt (by omega)]

theorem pendingMoved_counts {s : State} (hok : banksOk s = true) {a b : Nat} (ha : a < 528) (hb : b < 528) (hab : a ≠ b)
    (hfits : elemPending s b + elemPending s a < 2 ^ 64) :
    elemPending (pendingMoved s a b) a = 0 ∧ elemPending (pendingMoved s a b) b = elemPending s b + elemPending s a := by
  have hokb := banks_setPending hok b (elemPending s b + elemPending s a)
  refine ⟨elemPending_setPending hokb a 0, ?_⟩
  exact (elemPending_setPending_ne hokb hb ha hab.symm 0).trans ((elemPending_setPending hok b _).trans (Nat.mod_eq_of_lt hfits))

/-! #### The statement -/

theorem banks_secEntered {s : State} (hb : banksOk s = true) (k op tag : Nat) : banksOk (secEntered s k op tag) = true :=
  banks_entered ((lapseSetup_keeps (Keeps.refl s)).banks hb) k 0x0F op tag

/-- Settles O31: a request changes one account and sends one packet (`Asked`), whoever makes it; an accepted record and a transfer are
writes of the account's registers; the rest is the branch that each command takes. -/
theorem consumableAccounts : Obligations.ConsumableAccounts := by
  intro s t k hb s0
  have hb0 : banksOk s0 = true := banks_begin hb t
  have h0 : s0 = begin s t := rfl
  clear_value s0
  refine ⟨?start, ?accept, ?discard, ?timeout, ?reset, ?transfer⟩
  case start =>
    intro hmay hdue
    have hexec := execConsCommitStart_due h0 hmay hdue
    obtain ⟨hdrive, -, -, hidle, -, -, -, hreach⟩ := mayCommit_iff.mp hmay
    obtain ⟨⟨hub, target, slot⟩, hhub⟩ := Option.isSome_iff_exists.mp hreach
    refine ⟨_, hub, target, slot, hexec, fun _ => hhub, ?_⟩
    cases hcert : (elem s0 k).certOk with
    | true =>
      obtain ⟨nonce, hasked⟩ := startCommit_asked hdrive hhub
      rw [if_pos rfl]
      refine ⟨hasked.others, fun _ => ?_, fun h => absurd h (by decide)⟩
      rw [hasked.account]
      exact ⟨rfl, rfl, rfl, rfl, rfl, hasked.sent⟩
    | false =>
      rw [if_neg (by decide)]
      by_cases hbusy : (elem s0 k).reading = true ∨ 0 < (elem s0 k).attempts
      · rw [if_pos hbusy]
        refine ⟨fun _ _ => rfl, fun h => absurd h (by decide), fun _ hread hnone => ?_⟩
        exact absurd hbusy (by simp [hread, hnone])
      · have hasked := readCert_asked hdrive hhub
        rw [if_neg hbusy]
        refine ⟨hasked.others, fun h => absurd h (by decide), fun _ _ _ => ?_⟩
        rw [hasked.account]
        exact ⟨rfl, rfl, hidle, hasked.sent⟩
  case accept =>
    intro record sig hub hk hserving hflight hnonce hident hrebase hseq hinc htotal
    obtain ⟨hto, hpe, hse, hfl, hothers⟩ :=
      commitAccepted_moves hb0 hk (leAt record 24 8) (seq := leAt record 12 4) (leAt_lt record 12 4) record sig
    refine ⟨commitAccepted s0 k (leAt record 24 8) (leAt record 12 4) record sig,
      execConsReplyReceive_inFlight h0 hserving hflight hnonce hident hrebase hseq hinc htotal, ?_, hpe, hse.trans hseq, hfl, hothers,
      (commitAccepted_accountOnly _ _ _ _ _ _).rest⟩
    rw [hto, htotal, Nat.mod_mod]
  case discard =>
    exact fun hub reply => ⟨_, execConsReplyReceive_invalid h0 k hub reply, discardPacket_counts hb0 (by omega)⟩
  case timeout =>
    exact fun hserving hflight hrebase hwaited => ⟨execConsTimeout_retries h0 hserving hflight hrebase hwaited, fun hthird hnew =>
      ⟨_, execConsTimeout_third h0 hserving hflight hrebase hwaited hthird, commitTimedOut_reports hb0 hrebase hnew⟩⟩
  case reset =>
    rintro ch tag target index x e h rfl hx hhub hdrive hrng hflight hrebase
    obtain ⟨⟨hub, tgt, slot⟩, hhub⟩ := Option.isSome_iff_exists.mp hhub
    obtain ⟨u, a, p, hact, hasked, hwaits, hattempts, hsent, hpacket⟩ :=
      actConsReset_asks (ch := ch.val) (tag := tag) hx hhub hdrive hrng hflight hrebase
    rw [← hasked.account] at hwaits hattempts hsent hpacket
    refine ⟨u, hub, tgt, slot, execConsReset_later h0 h hact rfl, hhub, hwaits, hattempts, hsent, hasked.others, hasked.host, hasked.live,
      fun hcert hup hon => ?_⟩
    rw [← hpacket hcert]
    exact hasked.sent hup hon
  case transfer =>
    rintro ch tag target src dst a b e h rfl ha hb' hab haf har hbf hbr hfault hfits
    have hact := actConsTransfer_moves ha hb' hab haf har hbf hbr hfault
    obtain ⟨hza, hzb⟩ :=
      pendingMoved_counts (banks_secEntered hb0 ch 0x1B tag) (targetElem_lt ha) (targetElem_lt hb') hab hfits
    refine ⟨_, execConsTransfer_answers h0 h hact, ?_, ?_, pendingMoved_raises _ (targetElem_lt hb')⟩
    · rw [elemPending_congr (raise_live _ _ _ _), hza]
    · rw [elemPending_congr (raise_live _ _ _ _), hzb]

end Sys2Proof.Laws

/-! ### Packets to the hubs, and what they leave alone (08_flean_link R240, R241, R244) -/

namespace Sys2Proof.Laws

open Sys2Proof Sys2Proof.Machine

/-! #### Lanes and hubs read and changed -/

/-- An entry changed is seen at any place as that change or not at all. -/
theorem nth_upd_or {α : Type} (l : List α) (i j : Nat) (f : α → α) (d : α) :
    nth (upd l i f) j d = nth l j d ∨ nth (upd l i f) j d = f (nth l j d) := by
  by_cases hj : j = i
  · subst hj
    by_cases hlen : j < l.length
    · exact .inr (nth_upd hlen f d)
    · left
      simp [nth, upd, List.getElem?_eq_none (Nat.le_of_not_lt hlen)]
  · exact .inl (nth_upd_ne hj f d)

theorem laneOf_setLane {s : State} {n : Nat} (h : n < s.link.lanes.length) (f : LaneSt → LaneSt) :
    laneOf (setLane s n f) n = f (laneOf s n) := nth_upd h f {}

theorem laneOf_setLane_ne {s : State} {n m : Nat} (h : m ≠ n) (f : LaneSt → LaneSt) : laneOf (setLane s n f) m = laneOf s m :=
  nth_upd_ne h f {}

/-- A change of a lane is seen in any lane as that change or not at all. -/
theorem laneOf_setLane_or (s : State) (n m : Nat) (f : LaneSt → LaneSt) :
    laneOf (setLane s n f) m = laneOf s m ∨ laneOf (setLane s n f) m = f (laneOf s m) := nth_upd_or s.link.lanes n m f {}

theorem setLane_setLane (s : State) (n : Nat) (f g : LaneSt → LaneSt) :
    setLane (setLane s n f) n g = setLane s n fun l => g (f l) := by
  simp only [setLane, upd, List.modify_modify_eq]
  rfl

theorem hubOf_setHub {s : State} {n : Nat} (h : n < s.link.hubs.length) (f : HubSt → HubSt) :
    hubOf (setHub s n f) n = f (hubOf s n) := nth_upd h f {}

theorem hubOf_setHub_ne {s : State} {n m : Nat} (h : m ≠ n) (f : HubSt → HubSt) : hubOf (setHub s n f) m = hubOf s m :=
  nth_upd_ne h f {}

@[simp] theorem laneOf_setHub (s : State) (n m : Nat) (f : HubSt → HubSt) : laneOf (setHub s n f) m = laneOf s m := rfl

/-- A hub that differs from the one a missing entry reads as is in the list. -/
theorem hub_lt_of_ne {s : State} {n : Nat} (h : hubOf s n ≠ {}) : n < s.link.hubs.length := by
  by_contra hn
  exact h (by simp [hubOf, nth, List.getElem?_eq_none (Nat.le_of_not_lt hn)])

/-- A hub whose group is not DOWN is in the list. -/
theorem hub_lt_of_state {s : State} {n : Nat} (h : (hubOf s n).state ≠ 0) : n < s.link.hubs.length :=
  hub_lt_of_ne fun he => h (congrArg HubSt.state he)

/-- The hub that a lane serves is not DOWN. -/
theorem laneHub_state {s : State} {n u : Nat} (h : laneHub s n = some u) : (hubOf s u).state ≠ 0 := by
  have hfound := List.find?_some h
  simp only [Bool.and_eq_true, bne_iff_ne, ne_eq] at hfound
  exact hfound.1.2

/-- Unless the transmitters are off, packet `p` has gone to a hub under the epoch and role that the unit has in `s` (R348, R352). -/
def Told (s u : State) (hub : Nat) (p : HubPacket) : Prop :=
  linesOff s = false → .hub hub (liveFld s Fld.PAIR_EPOCH_EPOCH) (!driving s) p ∈ u.out

/-- A group tells its hub what its state carries (R244). -/
theorem toHub_tells {s : State} {hub : Nat} {p : HubPacket} (h : mayCarry (hubOf s hub).state p = true) :
    Told s (toHub s hub p) hub p := fun hon => by
  unfold toHub
  rw [hubOf] at h
  rw [if_neg (by simp [hon, h])]
  exact (out_onLanes _ hub p).subset (mem_out_emit s _)

theorem Told.later {s v u : State} {hub : Nat} {p : HubPacket} (h : Told s v hub p) (ho : v.out <+: u.out) : Told s u hub p :=
  fun hon => ho.subset (h hon)

/-- The state with the number of the next marker of hub u taken (R245). -/
def markTaken (s : State) (u : Nat) : State := setHub s u fun h => { h with markSeq := ((hubOf s u).markSeq + 1) % 2 ^ 16 }

theorem hubOf_markTaken {s : State} {u : Nat} (h : u < s.link.hubs.length) :
    hubOf (markTaken s u) u = { hubOf s u with markSeq := ((hubOf s u).markSeq + 1) % 2 ^ 16 } := hubOf_setHub h _

end Sys2Proof.Laws

/-! #### What sending leaves alone -/

namespace Sys2Proof

open Sys2Proof.Machine Sys2Proof.Laws

theorem SentOnly.refl (s : State) : SentOnly s s := ⟨rfl, fun _ => rfl⟩

/-- A lane after packets were sent differs at most in its scrambler. -/
theorem SentOnly.lane {s u : State} (h : SentOnly s u) (n : Nat) : laneOf u n = { laneOf s n with tx := (laneOf u n).tx } := by
  rw [← h.2 n]

theorem SentOnly.trans {a b c : State} (h : SentOnly a b) (k : SentOnly b c) : SentOnly a c := by
  refine ⟨?_, fun n => ?_⟩
  · exact (congrArg (fun x : State => { x with out := a.out, freeCtr := a.freeCtr, link := { x.link with lanes := a.link.lanes } })
      k.1).trans h.1
  · rw [k.lane n, h.lane n]

theorem SentOnly.foldl {α : Type} {f : State → α → State} (hf : ∀ x a, SentOnly x (f x a)) (l : List α) (s : State) :
    SentOnly s (l.foldl f s) := by
  induction l generalizing s with
  | nil => exact .refl s
  | cons a l ih => exact (hf s a).trans (ih _)

theorem SentOnly.host {s u : State} (h : SentOnly s u) : u.host = s.host := (congrArg State.host h.1 :)

theorem SentOnly.live {s u : State} (h : SentOnly s u) : u.live = s.live := (congrArg State.live h.1 :)

theorem SentOnly.hubOf {s u : State} (h : SentOnly s u) (n : Nat) : hubOf u n = Machine.hubOf s n :=
  (congrArg (fun x => Machine.hubOf x n) h.1 :)

theorem SentOnly.fld {s u : State} (h : SentOnly s u) (f : Field) (i : Nat) : fld u f i = Machine.fld s f i :=
  (congrArg (fun x => Machine.fld x f i) h.1 :)

theorem SentOnly.now_eq {s u : State} (h : SentOnly s u) : now u = now s := (congrArg now h.1 :)

/-- The locks of a group are no part of what sending changes. -/
theorem SentOnly.lockMask {s u : State} (h : SentOnly s u) (n : Nat) : lockMask u n = Machine.lockMask s n := by
  have hlocked (m : Nat) : (laneOf u m).locked = (laneOf s m).locked := (congrArg LaneSt.locked (h.lane m) :)
  have hplace (m : Nat) : (laneOf u m).groupLane = (laneOf s m).groupLane := (congrArg LaneSt.groupLane (h.lane m) :)
  simp only [Machine.lockMask, groupLanes, h.fld, hlocked, hplace]

/-- Hubs changed alike on both sides. -/
theorem SentOnly.setHub {s u : State} (h : SentOnly s u) (n : Nat) (f : HubSt → HubSt) :
    SentOnly (Machine.setHub s n f) (Machine.setHub u n f) :=
  ⟨(congrArg (fun x => Machine.setHub x n f) h.1 :), h.2⟩

theorem SentOnly.markTaken {s u : State} (h : SentOnly s u) (n : Nat) : SentOnly (Laws.markTaken s n) (Laws.markTaken u n) := by
  unfold Laws.markTaken
  rw [h.hubOf]
  exact h.setHub n _

/-- What was said after packets were sent was said in the role and epoch from before. -/
theorem SentOnly.told {s v u : State} {hub : Nat} {p : HubPacket} (h : SentOnly s v) (ht : Told v u hub p) : Told s u hub p :=
  (congrArg (fun x => Told x u hub p) h.1).mp ht

end Sys2Proof

namespace Sys2Proof.Laws

open Sys2Proof Sys2Proof.Machine

theorem sentOnly_sendBlocks (s : State) (n : Nat) (bs : List Block) : SentOnly s (sendBlocks s n bs) := by
  refine ⟨rfl, fun m => ?_⟩
  obtain ⟨tx, htx⟩ : ∃ tx, laneOf (sendBlocks s n bs) = laneOf (setLane s n fun l => { l with tx := tx }) := ⟨_, rfl⟩
  rw [htx]
  rcases laneOf_setLane_or s n m (fun l => { l with tx := tx }) with h | h <;> rw [h]

theorem sentOnly_onLanes (s : State) (u : Nat) (p : HubPacket) : SentOnly s (onLanes s u p) := by
  unfold onLanes
  extract_lets first ks standby
  split
  · exact .foldl (fun x _ => sentOnly_sendBlocks x _ _) _ s
  · exact .foldl (fun x _ => sentOnly_sendBlocks x _ _) _ s

theorem sentOnly_toHub (s : State) (u : Nat) (p : HubPacket) : SentOnly s (toHub s u p) := by
  unfold toHub
  split
  · exact .refl s
  · have hemit (o : Output) : SentOnly s (emit s o) := ⟨rfl, fun _ => rfl⟩
    exact (hemit _).trans (sentOnly_onLanes _ u p)

/-! #### LANE_STATE and the blocks of a bring-up (R245, R248, R277) -/

theorem sentOnly_sendLaneState (s : State) (u : Nat) : SentOnly s (sendLaneState s u) := sentOnly_toHub s u _

theorem out_sendLaneState (s : State) (u : Nat) : s.out <+: (sendLaneState s u).out := out_toHub s u _

theorem sendLaneState_tells {s : State} {u : Nat} (h : (hubOf s u).state ≠ 0) :
    Told s (sendLaneState s u) u (.laneState (lockMask s u) (hubOf s u).mask) :=
  toHub_tells (by simpa [mayCarry] using h)

/-- The three sends of a bring-up: each leaves what the next one says. -/
theorem sendTraining_sends {s : State} {u : Nat} (h : (hubOf s u).state ≠ 0) :
    SentOnly (markTaken s u) (sendTraining s u) ∧ Told s (sendTraining s u) u .idle ∧
      Told s (sendTraining s u) u (.marker (fld s Fld.FL_HUB_WIDTH u) u (((hubOf s u).markSeq + 1) % 2 ^ 16)) ∧
      Told s (sendTraining s u) u (.laneState (lockMask s u) (hubOf s u).mask) := by
  let a := toHub s u .idle
  let b := markTaken a u
  let c := sendMarker a u
  have ha : SentOnly s a := sentOnly_toHub s u .idle
  have hb : SentOnly (markTaken s u) b := ha.markTaken u
  have hbc : SentOnly b c := sentOnly_toHub b u _
  have hc : SentOnly (markTaken s u) c := hb.trans hbc
  have hhub : hubOf c u = { hubOf s u with markSeq := ((hubOf s u).markSeq + 1) % 2 ^ 16 } :=
    (hc.hubOf u).trans (hubOf_markTaken (hub_lt_of_state h))
  have hstate : (hubOf c u).state ≠ 0 := by rw [hhub]; exact h
  have hcd : c.out <+: (sendTraining s u).out := out_sendLaneState c u
  refine ⟨hc.trans (sentOnly_sendLaneState c u), ?idle, ?marker, ?laneState⟩
  case idle =>
    have hidle : Told s a u .idle := toHub_tells (by simpa [mayCarry] using h)
    exact hidle.later ((out_toHub b u _).trans hcd)
  case marker =>
    have hmark : Told b c u (.marker (fld a Fld.FL_HUB_WIDTH u) u (((hubOf a u).markSeq + 1) % 2 ^ 16)) :=
      toHub_tells (by rw [← hbc.hubOf]; simpa [mayCarry] using hstate)
    rw [ha.fld, ha.hubOf] at hmark
    exact hb.told (hmark.later hcd)
  case laneState =>
    have hsaid := hc.told (sendLaneState_tells hstate)
    rw [hc.lockMask, hhub] at hsaid
    exact hsaid

/-! ### LANE_STATE repeated (08_flean_link R248, R277) -/

/-- Settles O28: an UP group with a lane down sends LANE_STATE, a group in its bring-up the three blocks of `sendTraining`. -/
theorem laneStateRepeats : Obligations.LaneStateRepeats := by
  intro s t hub s0 said
  have hexec : exec (.laneStateRepeat t hub) s = .next
      (if (hubOf s0 hub).state = 1 ∨ (hubOf s0 hub).state = 2 then sendTraining s0 hub
        else if (hubOf s0 hub).state = 3 ∧ (groupLanes s0 hub).any (fun n => !laneReady (laneOf s0 n)) then sendLaneState s0 hub
        else s0) := rfl
  rw [hexec]
  clear_value s0
  refine ⟨fun hup hdown => ?up, fun htrain => ?training, fun hquiet => ?quiet⟩
  case up =>
    have hany : (groupLanes s0 hub).any (fun n => !laneReady (laneOf s0 n)) = true := by simpa using hdown
    rw [if_neg (by omega), if_pos ⟨hup, hany⟩]
    exact ⟨_, rfl, sentOnly_sendLaneState s0 hub, sendLaneState_tells (by omega)⟩
  case training =>
    obtain ⟨hsent, hidle, hmarker, hstate⟩ := sendTraining_sends (s := s0) (u := hub) (by omega)
    rw [if_pos htrain]
    exact ⟨_, _, rfl, rfl, hsent, hidle, hmarker, hstate⟩
  case quiet =>
    have hnone : ¬ ((hubOf s0 hub).state = 3 ∧ (groupLanes s0 hub).any (fun n => !laneReady (laneOf s0 n)) = true) := by
      rintro ⟨hup, hany⟩
      obtain ⟨n, hn, hnr⟩ := List.any_eq_true.mp hany
      rcases hquiet with h | ⟨-, hready⟩
      · omega
      · simp [hready n hn] at hnr
    rw [if_neg (by omega), if_neg hnone]

end Sys2Proof.Laws

/-! ### Time synchronisation with the hubs (08_flean_link R273, R274) -/

namespace Sys2Proof.Laws

open Sys2Proof Sys2Proof.Machine

/-- From `s` to `u` packets have gone to hubs, and what the unit keeps of its hubs may have changed, but nothing else. -/
structure HubsSent (s u : State) : Prop where
  rest : { u with out := s.out, freeCtr := s.freeCtr, link := { u.link with lanes := s.link.lanes, hubs := s.link.hubs } } = s
  lanes : ∀ n, { laneOf u n with tx := (laneOf s n).tx } = laneOf s n
  out : s.out <+: u.out

theorem HubsSent.refl (s : State) : HubsSent s s := ⟨rfl, fun _ => rfl, List.prefix_rfl⟩

theorem HubsSent.trans {a b c : State} (h : HubsSent a b) (k : HubsSent b c) : HubsSent a c where
  rest := (congrArg (fun x : State =>
    { x with out := a.out, freeCtr := a.freeCtr, link := { x.link with lanes := a.link.lanes, hubs := a.link.hubs } }) k.rest).trans h.rest
  lanes n := by rw [← h.lanes n, ← k.lanes n]
  out := h.out.trans k.out

theorem HubsSent.foldl {α : Type} {f : State → α → State} (hf : ∀ x a, HubsSent x (f x a)) (l : List α) (s : State) :
    HubsSent s (l.foldl f s) := by
  induction l generalizing s with
  | nil => exact .refl s
  | cons a l ih => exact (hf s a).trans (ih _)

/-- With its hubs as they are now, the unit has only sent packets. -/
theorem HubsSent.sentOnly {s u : State} (h : HubsSent s u) : SentOnly { s with link := { s.link with hubs := u.link.hubs } } u :=
  ⟨(congrArg (fun x : State => { x with link := { x.link with hubs := u.link.hubs } }) h.rest :), h.lanes⟩

theorem HubsSent.now_eq {s u : State} (h : HubsSent s u) : now u = now s := (congrArg now h.rest :)

theorem HubsSent.told {s v u : State} {hub : Nat} {p : HubPacket} (h : HubsSent s v) (ht : Told v u hub p) : Told s u hub p :=
  (congrArg (fun x => Told x u hub p) h.rest).mp ht

/-- A packet sent once a hub's record has changed. -/
theorem hubsSent_toHub_setHub (s : State) (n : Nat) (f : HubSt → HubSt) (p : HubPacket) : HubsSent s (toHub (setHub s n f) n p) where
  rest := (congrArg (fun x : State => { x with link := { x.link with hubs := s.link.hubs } })
    (sentOnly_toHub (setHub s n f) n p).1 :)
  lanes := (sentOnly_toHub (setHub s n f) n p).2
  out := out_toHub (setHub s n f) n p

/-- A hub's record once a TIME_SYNC has left at a time (R273). -/
def synced (at' : Nat) (h : HubSt) : HubSt := { h with syncSeq := (h.syncSeq + 1) % 256, syncT1 := some at' }

/-- The TIME_SYNC that a unit in state `s` has for hub u (R273). -/
def syncPacket (s : State) (u : Nat) : HubPacket :=
  .timeSync (((hubOf s u).syncSeq + 1) % 256) (now s) (hubOf s u).prevOffset (hubOf s u).prevDelay (hubOf s u).prevSeq

/-- TIME_SYNC for one hub. -/
def syncHub (s : State) (u : Nat) : State :=
  if (hubOf s u).state ≠ 3 then s
  else toHub (setHub s u fun h => { h with syncSeq := ((hubOf s u).syncSeq + 1) % 256, syncT1 := some (now s) }) u (syncPacket s u)

theorem execTimeSyncSend_eq (t : Nat) (s : State) : execTimeSyncSend t s = .next ((List.range 24).foldl syncHub (begin s t)) := rfl

theorem syncHub_down {s : State} {u : Nat} (h : (hubOf s u).state ≠ 3) : syncHub s u = s := if_pos h

theorem hubsSent_syncHub (s : State) (u : Nat) : HubsSent s (syncHub s u) := by
  unfold syncHub
  split
  · exact .refl s
  · exact hubsSent_toHub_setHub s u _ _

theorem hubOf_syncHub_ne (s : State) {u n : Nat} (h : n ≠ u) : hubOf (syncHub s u) n = hubOf s n := by
  unfold syncHub
  split
  · rfl
  · exact ((sentOnly_toHub (setHub s u _) u _).hubOf n).trans (hubOf_setHub_ne h _)

theorem syncHub_up {s : State} {u : Nat} (h : (hubOf s u).state = 3) :
    hubOf (syncHub s u) u = synced (now s) (hubOf s u) ∧ Told s (syncHub s u) u (syncPacket s u) := by
  have hlt := hub_lt_of_state (s := s) (n := u) (by omega)
  let v := setHub s u fun h => { h with syncSeq := ((hubOf s u).syncSeq + 1) % 256, syncT1 := some (now s) }
  have hv : hubOf v u = synced (now s) (hubOf s u) := hubOf_setHub hlt _
  have htold : Told v (toHub v u (syncPacket s u)) u (syncPacket s u) :=
    toHub_tells (by rw [hv]; simp [synced, h, mayCarry, syncPacket])
  have hsync : syncHub s u = toHub v u (syncPacket s u) := if_neg (by simp [h])
  rw [hsync]
  exact ⟨((sentOnly_toHub v u _).hubOf u).trans hv, htold⟩

/-- A hub that the round leaves out is as before. -/
theorem hubOf_foldl_syncHub {l : List Nat} {n : Nat} (h : n ∉ l) (s : State) : hubOf (l.foldl syncHub s) n = hubOf s n := by
  induction l generalizing s with
  | nil => rfl
  | cons a l ih =>
    rw [List.mem_cons, not_or] at h
    exact (ih h.2 _).trans (hubOf_syncHub_ne s h.1)

/-- The round reaches each hub once: the others' packets leave it and device time alone. -/
theorem foldl_syncHub_law {l : List Nat} (hl : l.Nodup) {n : Nat} (hn : n ∈ l) (s : State) :
    ((hubOf s n).state = 3 → hubOf (l.foldl syncHub s) n = synced (now s) (hubOf s n) ∧
      Told s (l.foldl syncHub s) n (syncPacket s n)) ∧
    ((hubOf s n).state ≠ 3 → hubOf (l.foldl syncHub s) n = hubOf s n) := by
  obtain ⟨before, after, rfl⟩ := List.append_of_mem hn
  rw [List.nodup_append, List.nodup_cons] at hl
  obtain ⟨-, ⟨hafter, -⟩, hdisj⟩ := hl
  have hbefore : n ∉ before := fun hk => hdisj n hk n (by simp) rfl
  rw [List.foldl_append, List.foldl_cons]
  let v := before.foldl syncHub s
  have hv : HubsSent s v := .foldl hubsSent_syncHub before s
  have hhub : hubOf v n = hubOf s n := hubOf_foldl_syncHub hbefore s
  have hpacket : syncPacket v n = syncPacket s n := by rw [syncPacket, syncPacket, hhub, hv.now_eq]
  rw [hubOf_foldl_syncHub hafter, ← hhub, ← hv.now_eq]
  refine ⟨fun hup => ?_, fun hdown => congrArg (hubOf · n) (syncHub_down hdown)⟩
  obtain ⟨hsynced, htold⟩ := syncHub_up hup
  rw [hpacket] at htold
  exact ⟨hsynced, hv.told (htold.later (HubsSent.foldl hubsSent_syncHub after _).out)⟩

/-- A hub's record once the response to its last TIME_SYNC has come, in 1/16 ns (R274). -/
def syncTaken (now' t1 t2 t3 : Nat) (asym : Int) (h : HubSt) : HubSt :=
  let delay := 8 * (((now' : Int) - t1) - ((t3 : Int) - t2))
  { h with syncT1 := none, prevOffset := satSigned 32 (16 * ((t2 : Int) - t1) - delay - 16 * asym),
           prevDelay := satNat 32 delay.toNat, prevSeq := h.syncSeq }

theorem execTimeSyncResponse_takes {s s0 : State} {t t1 : Nat} {hub : Fin 24} (h0 : s0 = begin s t)
    (hsent : (hubOf s0 hub).syncT1 = some t1) (t2 t3 : Nat) :
    ∃ u, execTimeSyncResponse t hub true (hubOf s0 hub).syncSeq t2 t3 s = .next u ∧
      hubOf u hub = syncTaken (now s0) t1 t2 t3 (signedOf 16 (liveFld s0 Fld.FL_HUB_ASYM hub)) (hubOf s0 hub) ∧
      { u with link := { u.link with hubs := s0.link.hubs } } = s0 := by
  subst h0
  have hlt : hub < (begin s t).link.hubs.length := hub_lt_of_ne fun he => by simp [he] at hsent
  unfold execTimeSyncResponse
  extract_lets v h
  have ht1 : h.syncT1 = some t1 := hsent
  rw [if_neg (by simp), ht1]
  dsimp only
  rw [if_neg (by simp [h, v])]
  exact ⟨_, rfl, hubOf_setHub hlt _, rfl⟩

/-! ### Eye scans (08_flean_link R281; 16_thermal_and_calibration R549) -/

theorem startEye_begins {s : State} (hidle : s.link.scan = none) (hlane : liveFld s Fld.FL_EYE_EYE_LANE < 24) (h : throttle s = 0) :
    startEye s = emit { s with link := { s.link with
        scan := some (liveFld s Fld.FL_EYE_EYE_LANE, liveFld s Fld.FL_EYE_EYE_BITS), scanDue := false } }
      (.eye (liveFld s Fld.FL_EYE_EYE_LANE) (liveFld s Fld.FL_EYE_EYE_BITS)) := by
  unfold startEye
  dsimp only
  rw [if_neg (by simpa [hidle] using hlane), if_neg (by omega)]

theorem startEye_waits {s : State} (hidle : s.link.scan = none) (hlane : liveFld s Fld.FL_EYE_EYE_LANE < 24) (h : 1 ≤ throttle s) :
    startEye s = { s with link := { s.link with scanDue := true } } := by
  unfold startEye
  dsimp only
  rw [if_neg (by simpa [hidle] using hlane), if_pos h]

/-- The width of an eye: the phases without errors about the centre at the centre threshold, held to its field. -/
def eyeWidth (grid : List Nat) : Nat := Nat.min 63 (zeroSpan ((List.range 64).map fun p => nth grid (127 * p + 63) 0) 32)

/-- The height of an eye: the thresholds without errors about the centre at the centre phase. -/
def eyeHeight (grid : List Nat) : Nat := zeroSpan ((List.range 127).map fun v => nth grid (127 * 32 + v) 0) 63

theorem zeroRun_le (l : List Nat) : zeroRun l ≤ l.length := (List.takeWhile_prefix _).length_le

theorem zeroSpan_le (l : List Nat) (c : Nat) : zeroSpan l c ≤ l.length := by
  unfold zeroSpan
  split
  · have hright := zeroRun_le (l.drop c)
    have hleft := zeroRun_le (l.take c).reverse
    simp only [List.length_drop, List.length_reverse, List.length_take] at hright hleft
    omega
  · exact Nat.zero_le _

theorem eyeWidth_le (grid : List Nat) : eyeWidth grid ≤ 63 := Nat.min_le_left _ _

theorem eyeHeight_le (grid : List Nat) : eyeHeight grid ≤ 127 :=
  (zeroSpan_le _ 63).trans (by rw [List.length_map, List.length_range])

/-- The scan over, with its grid kept for its lane. -/
def gridKept (s : State) (n : Nat) (grid : List Nat) : State :=
  { s with link := { s.link with scan := none, grids := (n, grid) :: s.link.grids.filter (·.1 != n) } }

/-- The width and height of a lane's eye in its register. -/
def eyeWritten (s : State) (n w h : Nat) : State := setFld (setFld s Fld.FL_EYE_RES_EYE_WIDTH n w) Fld.FL_EYE_RES_EYE_HEIGHT n h

theorem execEyeDone_reads {s s0 : State} {t n k : Nat} (h0 : s0 = begin s t) (hscan : s0.link.scan = some (n, k))
    {counts grid : List Nat}
    (hgrid : counts.map (Nat.min (2 ^ k)) = grid) : execEyeDone t counts s =
      .next (raise (eyeWritten (gridKept s0 n grid) n (eyeWidth grid) (eyeHeight grid)) 0x070E n
        (eyeHeight grid * 256 + eyeWidth grid)) := by
  subst h0 hgrid
  unfold execEyeDone
  extract_lets v
  have hv : v.link.scan = some (n, k) := hscan
  rw [hv]
  rfl

theorem eyeWritten_registers {s : State} (hb : banksOk s = true) (n : Nat) {w h : Nat} (hw : w ≤ 63) (hh : h ≤ 127) :
    liveFld (eyeWritten s n w h) Fld.FL_EYE_RES_EYE_WIDTH n = w ∧ liveFld (eyeWritten s n w h) Fld.FL_EYE_RES_EYE_HEIGHT n = h ∧
      regsKept s (eyeWritten s n w h) [regKey .FL_EYE_RES n 0] := by
  have hbw := banks_setFld hb Fld.FL_EYE_RES_EYE_WIDTH n w 0
  refine ⟨?width, ?height, ?rest⟩
  case width =>
    have hbelow := liveFld_setFld_below hbw (f := Fld.FL_EYE_RES_EYE_HEIGHT) (g := Fld.FL_EYE_RES_EYE_WIDTH) rfl (by decide) n h
    refine hbelow.trans ((liveFld_setFld hb _ n w 0).trans ?_)
    exact Nat.mod_eq_of_lt (Nat.lt_of_le_of_lt hw (by decide))
  case height =>
    exact (liveFld_setFld hbw Fld.FL_EYE_RES_EYE_HEIGHT n h 0).trans (Nat.mod_eq_of_lt (Nat.lt_of_le_of_lt hh (by decide)))
  case rest =>
    exact regsKept_trans (regsKept_setFld (live_wf hb) Fld.FL_EYE_RES_EYE_WIDTH n w 0)
      (regsKept_setFld (live_wf hbw) Fld.FL_EYE_RES_EYE_HEIGHT n h 0)

theorem execDiagEyeGrid_writes {s e : State} {t tag lane : Nat} {ch : Fin 6} {data : DataRef} {g : Nat × List Nat}
    (h : acts (begin s t) ch 10 0x10 tag true true = true) (he : e = entered (begin s t) ch 10 0x10 tag)
    (hpcie : e.sys.ethernet = false) (hlane : lane < 24) (hroom : 65024 ≤ data.length)
    (hgrid : e.link.grids.find? (·.1 == lane) = some g) :
    execDiagEyeGrid t ch tag lane data s = .next (answer (emit e (.hostWrite data.addr
      ((List.range 8128).flatMap fun i => leBytes 8 (nth g.2 i 0)))) ch tag true okMsg) := by
  subst he
  unfold execDiagEyeGrid
  refine congrArg _ (message_answers h ?_ rfl)
  rw [if_neg (by simp [hpcie]), if_neg (by omega), hgrid]
  rfl

/-- Settles O30: a round of TIME_SYNC is one `syncHub` a hub; a response and an eye are the branch each command takes. -/
theorem linkTimeAndEyes : Obligations.LinkTimeAndEyes := by
  intro s t hb s0
  have hb0 : banksOk s0 = true := banks_begin hb t
  have h0 : s0 = begin s t := rfl
  have hstart : exec (.eyeStart t) s = .next (startEye s0) := rfl
  have hround : exec (.timeSyncSend t) s = .next ((List.range 24).foldl syncHub s0) := execTimeSyncSend_eq t s
  have hinvalid (hub : Fin 24) (seq t2 t3 : Nat) :
      exec (.timeSyncResponse t hub false seq t2 t3) s = .next (discardPacket s0 hub) := rfl
  clear_value s0
  refine ⟨?sync, ?discard, ?response, ?start, ?done, ?grid⟩
  case sync =>
    refine ⟨_, hround, (HubsSent.foldl hubsSent_syncHub _ s0).sentOnly, fun h hh => ?_⟩
    exact foldl_syncHub_law List.nodup_range (List.mem_range.mpr hh) s0
  case discard =>
    exact fun hub seq t2 t3 => ⟨_, hinvalid hub seq t2 t3, discardPacket_counts hb0 (by omega)⟩
  case response =>
    intro hub t1 t2 t3 hsent
    obtain ⟨u, hexec, hhub, hrest⟩ := execTimeSyncResponse_takes h0 hsent t2 t3
    refine ⟨u, hexec, ?_⟩
    rw [hhub]
    exact ⟨rfl, rfl, rfl, rfl, hrest⟩
  case start =>
    rintro n k hidle rfl rfl hlane
    refine ⟨fun hcool => ⟨_, hstart.trans (congrArg _ (startEye_begins hidle hlane hcool)), rfl, rfl, rfl, rfl⟩, fun hhot => ?_⟩
    exact hstart.trans (congrArg _ (startEye_waits hidle hlane hhot))
  case done =>
    intro counts n k hscan hn grid
    have hexec := execEyeDone_reads h0 hscan (counts := counts) (grid := grid) rfl
    have hw := eyeWidth_le grid
    have hh := eyeHeight_le grid
    have hwidth : eyeWidth grid = Nat.min 63 (zeroSpan ((List.range 64).map fun p => nth grid (127 * p + 63) 0) 32) := rfl
    have hheight : eyeHeight grid = zeroSpan ((List.range 127).map fun v => nth grid (127 * 32 + v) 0) 63 := rfl
    generalize eyeWidth grid = w at *
    generalize eyeHeight grid = h at *
    obtain ⟨hwritten, hwrittenh, hregs⟩ := eyeWritten_registers (s := gridKept s0 n grid) hb0 n hw hh
    refine ⟨_, w, h, hexec, rfl, List.find?_cons_of_pos (by simp), hwidth, hheight, hwritten, hwrittenh, ?_, hregs⟩
    have harg : (h * 256 + w) % 2 ^ 32 = h * 256 + w := Nat.mod_eq_of_lt (by omega)
    exact congrArg (fun a => s0.host.queued ++ [(⟨now s0, 0x070E, n, a⟩ : Event)]) harg
  case grid =>
    rintro ch tag lane data g e h rfl hpcie hlane hroom hgrid
    subst h0
    exact execDiagEyeGrid_writes h rfl hpcie hlane hroom hgrid

end Sys2Proof.Laws

/-! ### The lanes of a group (08_flean_link R240 to R246, R277, R280) -/

namespace Sys2Proof.Laws

open Sys2Proof Sys2Proof.Machine

theorem HostOnly.link_eq {s u : State} (h : HostOnly s u) : u.link = s.link := by
  unfold HostOnly at h
  rw [← h]

/-- A group that is not in TRAIN goes on as it was. -/
theorem tryTrained_of_ne {s : State} {u : Nat} (h : (hubOf s u).state ≠ 1) : tryTrained s u = s := if_neg fun hc => h hc.1

theorem endShed_of_not {s : State} {u : Nat} (h : (hubOf s u).shed = false) : endShed s u = s := if_neg (by simp [h])

/-- With no lane maps applied at the start (R250) no marker or polarity contradicts one. -/
theorem warmMaps_cold {s : State} (h : liveFld s Fld.RST_CAUSE_WARM = 0) : warmMaps s = false := by simp [warmMaps, h]

/-! #### Lock gained and lost (R243, R244, R277) -/

/-- A lane's lock noted with its polarity. -/
def lockGained (s : State) (n : Nat) (inv : Bool) : State :=
  setLane s n fun l => { l with locked := true, inverted := inv, since := now s }

theorem execLaneLockAcquired_gains {s s0 : State} {t u : Nat} {lane : Fin 24} (h0 : s0 = begin s t) (hhub : laneHub s0 lane = some u)
    (hlock : (laneOf s0 lane).locked = false) (hcold : liveFld s0 Fld.RST_CAUSE_WARM = 0) (inv : Bool) :
    execLaneLockAcquired t lane inv s = .next (tryTrained (sendLaneState (lockGained s0 lane inv) u) u) := by
  subst h0
  unfold execLaneLockAcquired
  extract_lets v
  have hv : laneHub v lane = some u := hhub
  rw [hv]
  dsimp only
  rw [if_neg (by simp [v, hlock]), warmMaps_cold hcold]
  cases (laneOf v lane).map <;> rfl

/-- A lane's lock and order gone, and the invalid headers that showed it counted. -/
def lockGone (s : State) (n : Nat) : State :=
  setLane (bump s Fld.FL_BLOCK_ERR_BLOCK_ERRORS n lossHeaders) n fun l => { l with locked := false, ordered := false }

/-- A loss of lock counted and reported. -/
def lossReported (s : State) (n far : Nat) : State :=
  raise (sticky (bump s Fld.FL_LOCK_LOSS_LOCK_LOSSES n) Fld.FL_STATUS_LANE_DOWN) 0x0701 n far

/-- A group in TRAIN does not act on a loss. -/
theorem afterLoss_training {s : State} {u : Nat} (h : (hubOf s u).state = 1) : afterLoss s u = s := by
  unfold afterLoss
  extract_lets x left
  have hx : x.state = 1 := h
  rw [if_neg (by omega), if_pos (by omega)]

theorem lossReported_reports {s : State} (hb : banksOk s = true) (n : Nat) {far : Nat} (hfar : far < 2 ^ 32) :
    Reported (bump s Fld.FL_LOCK_LOSS_LOCK_LOSSES n) (lossReported s n far) Fld.FL_STATUS_LANE_DOWN 0 0 ⟨now s, 0x0701, n, far⟩ :=
  reported (live_wf (banks_setFld hb _ _ _ _)) (by decide) (by decide) (by decide) (by decide) (Nat.mod_eq_of_lt hfar)

/-- A report of a fault in FL_STATUS leaves the counters of the lanes. -/
theorem Reported.liveFld_lane {s u : State} {e : Event} (h : Reported s u Fld.FL_STATUS_LANE_DOWN 0 0 e) {f : Field}
    (hf : f.reg = .FL_LOCK_LOSS ∨ f.reg = .FL_BLOCK_ERR) {n : Nat} (hn : n < 8192) : liveFld u f n = liveFld s f n := by
  obtain ⟨-, -, -, hregs⟩ := h
  refine liveFld_of_kept hregs f n 0 ?_
  simp only [List.mem_cons, List.not_mem_nil, or_false, not_or]
  rcases hf with hf | hf <;> rw [hf] <;>
    exact ⟨regKey_ne hn (by decide) (by decide), regKey_ne hn (by decide) (by decide), regKey_ne hn (by decide) (by decide)⟩

theorem lossReported_counts {s : State} (hb : banksOk s = true) {n : Nat} (hn : n < 8192) :
    let u := lossReported (lockGone s n) n 0
    liveFld u Fld.FL_LOCK_LOSS_LOCK_LOSSES n = (liveFld s Fld.FL_LOCK_LOSS_LOCK_LOSSES n + 1) % 2 ^ 32 ∧
      liveFld u Fld.FL_BLOCK_ERR_BLOCK_ERRORS n = (liveFld s Fld.FL_BLOCK_ERR_BLOCK_ERRORS n + 16) % 2 ^ 32 ∧
      stickyOn u Fld.FL_STATUS_LANE_DOWN = true ∧ u.host.queued = s.host.queued ++ [⟨now s, 0x0701, n, 0⟩] := by
  intro u
  let a := bump s Fld.FL_BLOCK_ERR_BLOCK_ERRORS n lossHeaders
  have ha : banksOk a = true := banks_setFld hb _ _ _ _
  have hrep := lossReported_reports (s := lockGone s n) ha n (far := 0) (by decide)
  refine ⟨?losses, ?errors, hrep.1, hrep.2.1⟩
  case losses =>
    rw [Reported.liveFld_lane hrep (.inl rfl) hn, liveFld_bump (s := lockGone s n) ha]
    refine congrArg (fun x => (x + 1) % 2 ^ 32) ?_
    exact liveFld_setFld_ne hb (f := Fld.FL_BLOCK_ERR_BLOCK_ERRORS) (by decide) hn hn _
  case errors =>
    rw [Reported.liveFld_lane hrep (.inr rfl) hn]
    have hother : liveFld (bump (lockGone s n) Fld.FL_LOCK_LOSS_LOCK_LOSSES n) Fld.FL_BLOCK_ERR_BLOCK_ERRORS n =
        liveFld a Fld.FL_BLOCK_ERR_BLOCK_ERRORS n := liveFld_setFld_ne ha (f := Fld.FL_LOCK_LOSS_LOCK_LOSSES) (by decide) hn hn _
    exact hother.trans (liveFld_bump hb _ n 16)

theorem lossReported_link {s : State} (n far : Nat) : (lossReported s n far).link = s.link :=
  HostOnly.link_eq ((hostOnly_setFld s _ _ _ _).trans
    (hostOnly_sticky (bump s Fld.FL_LOCK_LOSS_LOCK_LOSSES n) Fld.FL_STATUS_LANE_DOWN 0 0))

/-- A lane's loss of lock counted, reported and told to its hub. -/
def lossTold (s : State) (n u : Nat) : State := sendLaneState (lossReported (lockGone s n) n 0) u

theorem execLaneDown_loses {s s0 : State} {t u : Nat} {lane : Fin 24} (h0 : s0 = begin s t) (hhub : laneHub s0 lane = some u)
    (hlock : (laneOf s0 lane).locked = true) :
    execLaneDown t lane s = .next (afterLoss (lossTold s0 lane u) u) := by
  subst h0
  unfold execLaneDown
  extract_lets v
  have hv : laneHub v lane = some u := hhub
  rw [hv]
  dsimp only
  rw [if_pos hlock]
  rfl

theorem lossTold_sent (s : State) (n u : Nat) : SentOnly (lossReported (lockGone s n) n 0) (lossTold s n u) :=
  sentOnly_sendLaneState _ u

theorem lossTold_hub (s : State) (n u : Nat) : hubOf (lossTold s n u) u = hubOf s u :=
  ((lossTold_sent s n u).hubOf u).trans (congrArg (fun l : LinkSt => nth l.hubs u {}) (lossReported_link n 0) :)

theorem lossTold_lane {s : State} {n : Nat} (h : n < s.link.lanes.length) (u : Nat) :
    (laneOf (lossTold s n u) n).locked = false ∧ (laneOf (lossTold s n u) n).ordered = false := by
  have hgone : laneOf (lockGone s n) n = { laneOf s n with locked := false, ordered := false } :=
    laneOf_setLane (s := bump s Fld.FL_BLOCK_ERR_BLOCK_ERRORS n lossHeaders) h _
  have hlane : laneOf (lossReported (lockGone s n) n 0) n = laneOf (lockGone s n) n :=
    congrArg (fun l : LinkSt => nth l.lanes n {}) (lossReported_link n 0)
  rw [(lossTold_sent s n u).lane, hlane, hgone]
  exact ⟨rfl, rfl⟩

theorem lossTold_counts {s : State} (hb : banksOk s = true) {n : Nat} (hn : n < 8192) (u : Nat) :
    liveFld (lossTold s n u) Fld.FL_LOCK_LOSS_LOCK_LOSSES n = (liveFld s Fld.FL_LOCK_LOSS_LOCK_LOSSES n + 1) % 2 ^ 32 ∧
      liveFld (lossTold s n u) Fld.FL_BLOCK_ERR_BLOCK_ERRORS n = (liveFld s Fld.FL_BLOCK_ERR_BLOCK_ERRORS n + 16) % 2 ^ 32 ∧
      stickyOn (lossTold s n u) Fld.FL_STATUS_LANE_DOWN = true ∧
      (lossTold s n u).host.queued = s.host.queued ++ [⟨now s, 0x0701, n, 0⟩] := by
  have hlive := (lossTold_sent s n u).live
  simp only [stickyOn, liveFld, hlive, (lossTold_sent s n u).host]
  exact lossReported_counts hb hn

/-! #### A block received (R240 to R242) -/

/-- A lane whose descrambler has taken a block. -/
def heard (s : State) (n rx : Nat) : State := setLane s n fun l => { l with rx := rx }

theorem receiveBlock_heard {s : State} {n : Nat} (h : n < s.link.lanes.length) (w : WireBlock) :
    (receiveBlock s n w).1 = heard s n (laneOf (receiveBlock s n w).1 n).rx := by
  obtain ⟨rx, hrx⟩ : ∃ rx, (receiveBlock s n w).1 = heard s n rx := ⟨_, rfl⟩
  have hlane : laneOf (heard s n rx) n = { laneOf s n with rx := rx } := laneOf_setLane h _
  rw [hrx, hlane]

/-- What a locked lane does with a block it has read. -/
def blockRead (s : State) (u lane : Nat) : RxBlock → State
  | .invalid => invalidBlock s lane
  | .laneState locked _ => takeLaneState s u locked
  | .marker m => if m.hub ≠ u ∨ !m.fromHub then excludeLane s u lane m else takeMarker s u lane m
  | .stream => s

theorem laneBlock_unlocked {s : State} {lane : Nat} (h : (laneOf s lane).locked = false) (u : Nat) (w : WireBlock) :
    laneBlock s u lane w = s := if_pos (by simp [h])

theorem laneBlock_locked {s : State} {lane : Nat} (hlane : lane < s.link.lanes.length) (h : (laneOf s lane).locked = true) (u : Nat)
    (w : WireBlock) : laneBlock s u lane w =
      blockRead (heard s lane (laneOf (receiveBlock s lane w).1 lane).rx) u lane (receiveBlock s lane w).2 := by
  rw [← receiveBlock_heard hlane]
  unfold laneBlock
  rw [if_neg (by simp [h])]
  rcases receiveBlock s lane w with ⟨v, _ | _ | _ | _⟩ <;> rfl

theorem execLaneStateReceive_reads {s s0 : State} {t u : Nat} {lane : Fin 24} (h0 : s0 = begin s t) (hhub : laneHub s0 lane = some u)
    (w : WireBlock) : execLaneStateReceive t lane w s = .next (laneBlock s0 u lane w) := by
  subst h0
  unfold execLaneStateReceive
  dsimp only
  rw [hhub]

theorem execLaneMarkerReceive_reads {s s0 : State} {t u : Nat} {lane : Fin 24} (h0 : s0 = begin s t) (hhub : laneHub s0 lane = some u)
    (w : WireBlock) : execLaneMarkerReceive t lane w s = .next (laneBlock s0 u lane w) := by
  subst h0
  unfold execLaneMarkerReceive
  dsimp only
  rw [hhub]

/-- An invalid block is counted for its lane, whose hold begins again, and no more happens. -/
theorem invalidBlock_counts {s : State} (hb : banksOk s = true) {n : Nat} (hn : n < s.link.lanes.length) (rx : Nat) :
    let v := invalidBlock (heard s n rx) n
    liveFld v Fld.FL_BLOCK_ERR_BLOCK_ERRORS n = (liveFld s Fld.FL_BLOCK_ERR_BLOCK_ERRORS n + 1) % 2 ^ 32 ∧
      laneOf v n = { laneOf s n with since := now s, rx := rx } ∧ (∀ m, m ≠ n → laneOf v m = laneOf s m) ∧
      regsKept s v [regKey .FL_BLOCK_ERR n 0] ∧ { v with live := s.live, link := { v.link with lanes := s.link.lanes } } = s := by
  intro v
  refine ⟨liveFld_bump hb _ n 1, ?lane, ?others, regsKept_setFld (live_wf hb) Fld.FL_BLOCK_ERR_BLOCK_ERRORS n _ 0, rfl⟩
  case lane =>
    have hlen : n < (heard s n rx).link.lanes.length := by simpa [heard, setLane] using hn
    have hheard : laneOf (heard s n rx) n = { laneOf s n with rx := rx } := laneOf_setLane hn _
    refine (laneOf_setLane (s := bump (heard s n rx) Fld.FL_BLOCK_ERR_BLOCK_ERRORS n) hlen _).trans ?_
    exact congrArg (fun l : LaneSt => { l with since := now s }) hheard
  case others =>
    intro m hm
    exact (laneOf_setLane_ne (s := bump (heard s n rx) Fld.FL_BLOCK_ERR_BLOCK_ERRORS n) hm _).trans (laneOf_setLane_ne hm _)

/-! #### LANE_STATE received (R277) -/

/-- The state with the far end's locks noted. -/
def farNoted (s : State) (u locked : Nat) : State := setHub s u fun h => { h with farLocks := locked }

theorem foldl_eq_self {α β : Type} {f : β → α → β} {b : β} (l : List α) (h : ∀ a ∈ l, f b a = b) : l.foldl f b = b := by
  induction l with
  | nil => rfl
  | cons a l ih => rw [List.foldl_cons, h a (by simp), ih fun c hc => h c (by simp [hc])]

/-- LANE_STATE that says what is known of every lane in its place is only noted. -/
theorem takeLaneState_known {s : State} {u locked : Nat} (h : ∀ n ∈ groupLanes s u,
    (laneOf s n).map = none ∨ (laneOf s n).hubRx = locked.testBit (laneOf s n).groupLane) :
    takeLaneState s u locked = tryTrained (farNoted s u locked) u := by
  unfold takeLaneState
  dsimp only
  refine congrArg (tryTrained · u) (foldl_eq_self _ fun n hn => if_pos ?_)
  rcases h n hn with hnone | hknown
  · simp [hnone]
  · simp [hknown]

/-- What a lane knows of its place and its far end is no matter of its descrambler. -/
theorem heard_known {s : State} {u lane rx locked : Nat} (h : ∀ n ∈ groupLanes s u,
    (laneOf s n).map = none ∨ (laneOf s n).hubRx = locked.testBit (laneOf s n).groupLane) (n : Nat)
    (hn : n ∈ groupLanes (heard s lane rx) u) : (laneOf (heard s lane rx) n).map = none ∨
      (laneOf (heard s lane rx) n).hubRx = locked.testBit (laneOf (heard s lane rx) n).groupLane := by
  rcases laneOf_setLane_or s lane n (fun l => { l with rx := rx }) with hl | hl
  · rw [heard, hl]; exact h n hn
  · rw [heard, hl]; exact h n hn

/-! #### Markers received (R245, R246, R250, R251) -/

/-- A lane that is no longer excluded. -/
def included (s : State) (n : Nat) : State :=
  if (laneOf s n).miswired then setLane s n fun l => { l with miswired := false, since := now s } else s

/-- Whether a marker is the first with its MARKER_SEQ. -/
def isFirst (s : State) (u seq : Nat) : Bool := match (hubOf s u).markRef with | some (q, _) => q != seq | none => true

/-- The first marker of its MARKER_SEQ noted, against which the other lanes are deskewed. -/
def markNoted (s : State) (u seq : Nat) : State :=
  if isFirst s u seq then setHub s u fun h => { h with markRef := some (seq, now s) } else s

/-- A lane that a marker has taught its place. -/
def taught (aligned farLock : Bool) (m : Marker) (l : LaneSt) : LaneSt :=
  { l with ordered := aligned || l.ordered, groupLane := m.groupLane, map := some (l.inverted, m.groupLane), hubRx := farLock }

/-- The state after a marker of the group's own hub. -/
def marked (s : State) (u lane : Nat) (m : Marker) : State :=
  setLane (markNoted (included s lane) u m.seq) lane
    (taught (deskewed (included s lane) u m.seq) ((hubOf (markNoted (included s lane) u m.seq) u).farLocks.testBit m.groupLane) m)

/-- From `s` to `u` nothing but the lanes and hubs has changed: a marker that is read sends nothing. -/
def LanesOnly (s u : State) : Prop := { u with link := s.link } = s

theorem lanesOnly_included (s : State) (n : Nat) : LanesOnly s (included s n) := by
  unfold included
  split <;> rfl

theorem included_hub (s : State) (n u : Nat) : hubOf (included s n) u = hubOf s u := by
  unfold included
  split <;> rfl

theorem included_length (s : State) (n : Nat) : (included s n).link.lanes.length = s.link.lanes.length := by
  unfold included
  split
  · simp [setLane]
  · rfl

theorem included_lane {s : State} {n : Nat} (h : n < s.link.lanes.length) :
    ∃ at', laneOf (included s n) n = { laneOf s n with miswired := false, since := at' } := by
  unfold included
  split
  · exact ⟨_, laneOf_setLane h _⟩
  next hm => exact ⟨(laneOf s n).since, by rw [← Bool.eq_false_iff.mpr hm]⟩

theorem included_lane_ne (s : State) {n m : Nat} (h : m ≠ n) : laneOf (included s n) m = laneOf s m := by
  unfold included
  split
  · exact laneOf_setLane_ne h _
  · rfl

theorem markNoted_lanes (s : State) (u seq : Nat) : (markNoted s u seq).link.lanes = s.link.lanes := by
  unfold markNoted
  split <;> rfl

theorem markNoted_lane (s : State) (u seq n : Nat) : laneOf (markNoted s u seq) n = laneOf s n := by
  unfold laneOf
  rw [markNoted_lanes]

theorem lanesOnly_markNoted {s v : State} (h : LanesOnly s v) (u seq : Nat) : LanesOnly s (markNoted v u seq) := by
  unfold markNoted
  split <;> exact h

theorem markNoted_state (s : State) (u seq : Nat) : (hubOf (markNoted s u seq) u).state = (hubOf s u).state := by
  unfold markNoted
  split
  · exact hubOf_setHub_state s u fun _ => rfl
  · rfl

/-- Before the outcome of a bring-up, a marker of the group's own hub is noted and taught, and learns nothing anew in a cold start. -/
theorem takeMarker_own {s : State} {u lane : Nat} {m : Marker} (hwidth : m.width = fld s Fld.FL_HUB_WIDTH u)
    (hplace : m.groupLane < m.width) (hcold : liveFld s Fld.RST_CAUSE_WARM = 0) :
    takeMarker s u lane m = tryTrained (marked s u lane m) u := by
  unfold takeMarker
  extract_lets w v l differs x
  have hv : v = included s lane := rfl
  clear_value v
  subst hv
  have hwarm : warmMaps (included s lane) = false :=
    warmMaps_cold ((congrArg (fun x => liveFld x Fld.RST_CAUSE_WARM) (lanesOnly_included s lane) :).trans hcold)
  rw [if_neg (by simp only [w]; omega)]
  have hx : x = included s lane := if_neg (by simp [hwarm])
  clear_value x
  subst hx
  rfl

/-- What a marker of the group's own hub does to the lanes. -/
theorem marked_law {s : State} {u lane : Nat} (hlane : lane < s.link.lanes.length) (m : Marker) :
    (laneOf (marked s u lane m) lane).groupLane = m.groupLane ∧
      (laneOf (marked s u lane m) lane).map = some ((laneOf s lane).inverted, m.groupLane) ∧
      (laneOf (marked s u lane m) lane).miswired = false ∧
      ((laneOf (marked s u lane m) lane).ordered = true ↔ deskewed s u m.seq = true ∨ (laneOf s lane).ordered = true) ∧
      (∀ n, n ≠ lane → laneOf (marked s u lane m) n = laneOf s n) ∧ { marked s u lane m with link := s.link } = s := by
  have hlen : lane < (markNoted (included s lane) u m.seq).link.lanes.length := by
    rw [markNoted_lanes, included_length]
    exact hlane
  have hdesk : deskewed (included s lane) u m.seq = deskewed s u m.seq := by
    unfold included
    split <;> rfl
  obtain ⟨at', hincluded⟩ := included_lane hlane
  have hlaw : laneOf (marked s u lane m) lane = taught (deskewed s u m.seq)
      ((hubOf (markNoted (included s lane) u m.seq) u).farLocks.testBit m.groupLane) m
      { laneOf s lane with miswired := false, since := at' } := by
    rw [marked, laneOf_setLane hlen, markNoted_lane, hincluded, hdesk]
  rw [hlaw]
  refine ⟨rfl, rfl, rfl, by simp [taught], fun n hn => ?others, lanesOnly_markNoted (lanesOnly_included s lane) u m.seq⟩
  case others => rw [marked, laneOf_setLane_ne hn, markNoted_lane, included_lane_ne s hn]

/-- The same of a lane whose descrambler has just taken the marker. -/
theorem marked_heard_law {s : State} {u lane : Nat} (hlane : lane < s.link.lanes.length) (rx : Nat) (m : Marker) :
    let v := marked (heard s lane rx) u lane m
    (laneOf v lane).groupLane = m.groupLane ∧ (laneOf v lane).map = some ((laneOf s lane).inverted, m.groupLane) ∧
      (laneOf v lane).miswired = false ∧
      ((laneOf v lane).ordered = true ↔ deskewed s u m.seq = true ∨ (laneOf s lane).ordered = true) ∧
      (∀ n, n ≠ lane → laneOf v n = laneOf s n) ∧ { v with link := s.link } = s := by
  have hheard : laneOf (heard s lane rx) lane = { laneOf s lane with rx := rx } := laneOf_setLane hlane _
  have hlen : lane < (heard s lane rx).link.lanes.length := by simpa [heard, setLane] using hlane
  obtain ⟨hgroup, hmap, hwired, hordered, hothers, hrest⟩ := marked_law (u := u) hlen m
  rw [hheard] at hmap hordered
  exact ⟨hgroup, hmap, hwired, hordered, fun n hn => (hothers n hn).trans (laneOf_setLane_ne hn _),
    (congrArg (fun x : State => { x with link := s.link }) hrest :)⟩

theorem marked_state (s : State) (u lane : Nat) (m : Marker) : (hubOf (marked s u lane m) u).state = (hubOf s u).state :=
  (markNoted_state (included s lane) u m.seq).trans (congrArg HubSt.state (included_hub s lane u))

/-- A lane that carries another unit's or hub's markers, with what its descrambler holds. -/
def wronglyWired (s : State) (n rx : Nat) : State := setLane s n fun l => { l with miswired := true, rx := rx }

/-- The exclusion of a lane reported (R251). -/
def wiringReported (s : State) (n : Nat) (m : Marker) : State :=
  raise (sticky s Fld.FL_STATUS_MISWIRED) 0x0709 n ((bit m.unitB + 2 * bit m.fromHub) * 256 + m.hub)

theorem excludeLane_heard {s : State} {lane : Nat} (hlane : lane < s.link.lanes.length) (hwired : (laneOf s lane).miswired = false)
    (u rx : Nat) (m : Marker) : excludeLane (heard s lane rx) u lane m =
      tryTrained (afterLoss (wiringReported (wronglyWired s lane rx) lane m) u) u := by
  have hheard : laneOf (heard s lane rx) lane = { laneOf s lane with rx := rx } := laneOf_setLane hlane _
  have hboth : setLane (heard s lane rx) lane (fun l => { l with miswired := true }) = wronglyWired s lane rx :=
    setLane_setLane s lane _ _
  unfold excludeLane
  rw [if_neg (by simp [hheard, hwired]), hboth]
  rfl

/-! #### A lane that rejoins (R280) -/

/-- The group's mask with a lane that rejoins, told to the hub and reported. -/
def rejoined (s : State) (u lane mask : Nat) : State :=
  raise (toHub (setHub s u fun h => { h with mask := mask }) u (.restripe mask (nextHubLine s u))) 0x0702 lane mask

theorem execLaneRejoined_rejoins {s s0 : State} {t u : Nat} {lane : Fin 24} (h0 : s0 = begin s t) (hhub : laneHub s0 lane = some u)
    (hup : (hubOf s0 u).state = 3) (hready : laneReady (laneOf s0 lane) = true)
    (hout : (hubOf s0 u).mask.testBit (laneOf s0 lane).groupLane = false)
    (hnarrow : (hubOf s0 u).narrow = none)
    (hheld : (laneOf s0 lane).since + 1000000 * liveFld s0 Fld.FL_CTRL_REJOIN_HOLD ≤ now s0)
    {v : State} {w : Nat} (hw : w = (hubOf s0 u).mask ||| 2 ^ (laneOf s0 lane).groupLane)
    (hv : v = rejoined s0 u lane w) :
    execLaneRejoined t lane s = .next (if hubFits v u w then endShed v u else v) := by
  subst h0 hw hv
  unfold execLaneRejoined
  extract_lets x l
  have hx : laneHub x lane = some u := hhub
  rw [hx]
  dsimp only
  rw [if_neg (by
    simp only [not_or]
    exact ⟨not_not.mpr hup, by simp [l, x, hready], by simp [l, x, hout], by simp [x, hnarrow], Nat.not_lt.mpr hheld⟩)]
  rfl

theorem rejoined_law {s : State} {u : Nat} (hup : (hubOf s u).state = 3) (lane mask : Nat) :
    hubOf (rejoined s u lane mask) u = { hubOf s u with mask := mask } ∧
      Told s (rejoined s u lane mask) u (.restripe mask (nextHubLine s u)) ∧
      (rejoined s u lane mask).host.queued = s.host.queued ++ [⟨now s, 0x0702, lane, mask % 2 ^ 32⟩] := by
  let a := setHub s u fun h => { h with mask := mask }
  have ha : hubOf a u = { hubOf s u with mask := mask } := hubOf_setHub (hub_lt_of_state (by omega)) _
  have hsent := sentOnly_toHub a u (.restripe mask (nextHubLine s u))
  have htold : Told a (toHub a u (.restripe mask (nextHubLine s u))) u (.restripe mask (nextHubLine s u)) :=
    toHub_tells (by rw [ha]; simp [hup, mayCarry])
  refine ⟨(hsent.hubOf u).trans ha, htold, ?_⟩
  exact congrArg₂ (fun (q : List Event) at' => q ++ [⟨at', 0x0702, lane, mask % 2 ^ 32⟩]) (congrArg HostIf.queued hsent.host)
    hsent.now_eq

/-! #### The statement -/

/-- Settles O27: a loss and an exclusion are a report before what the group does about it, and a block is what `blockRead` makes of it. -/
theorem laneEvents : Obligations.LaneEvents := by
  intro s t lane u hb s0 hhub hlane
  have hb0 : banksOk s0 = true := banks_begin hb t
  have h0 : s0 = begin s t := rfl
  have hstate : (hubOf s0 u).state ≠ 0 := laneHub_state hhub
  clear_value s0
  refine ⟨?gained, ?lost, ?unlocked, ?block, ?rejoin⟩
  case gained =>
    intro inv hlock hcold
    let a := lockGained s0 lane inv
    have hexec := execLaneLockAcquired_gains h0 hhub hlock hcold inv
    have hsent : SentOnly a (sendLaneState a u) := sentOnly_sendLaneState a u
    have htold : Told a (sendLaneState a u) u (.laneState (lockMask a u) (hubOf a u).mask) := sendLaneState_tells hstate
    rw [← hsent.lockMask] at htold
    refine ⟨_, hexec, fun hne => hexec.trans (congrArg _ (tryTrained_of_ne ?_)), hsent, htold⟩
    rw [hsent.hubOf]
    exact hne
  case lost =>
    intro hlock
    have hexec := execLaneDown_loses h0 hhub hlock
    obtain ⟨hunlocked, hunordered⟩ := lossTold_lane hlane u
    refine ⟨_, hexec, fun htrain => hexec.trans (congrArg _ (afterLoss_training ?_)), hunlocked, hunordered,
      lossTold_counts hb0 (by omega) u⟩
    rw [lossTold_hub]
    exact htrain
  case unlocked =>
    intro w hlock
    have hkeep := laneBlock_unlocked hlock u w
    exact ⟨(execLaneStateReceive_reads h0 hhub w).trans (congrArg _ hkeep),
      (execLaneMarkerReceive_reads h0 hhub w).trans (congrArg _ hkeep)⟩
  case block =>
    intro w rx hlock hrx
    have hread : laneBlock s0 u lane w = blockRead (heard s0 lane rx) u lane (receiveBlock s0 lane w).2 := by
      rw [hrx]
      exact laneBlock_locked hlane hlock u w
    have hexecS : exec (.laneStateReceive t lane w) s = .next (blockRead (heard s0 lane rx) u lane (receiveBlock s0 lane w).2) :=
      (execLaneStateReceive_reads h0 hhub w).trans (congrArg _ hread)
    have hexecM : exec (.laneMarkerReceive t lane w) s = .next (blockRead (heard s0 lane rx) u lane (receiveBlock s0 lane w).2) :=
      (execLaneMarkerReceive_reads h0 hhub w).trans (congrArg _ hread)
    refine ⟨fun hb => ?invalid, fun hb => ?stream, fun locked uses hb => ?laneState, fun m hb => ?own, fun m hb => ?foreign⟩ <;>
      rw [hb] at hexecS hexecM
    case invalid => exact ⟨_, hexecS, hexecM, invalidBlock_counts hb0 hlane rx⟩
    case stream => exact hexecS
    case laneState =>
      intro hknown
      let v := farNoted (heard s0 lane rx) u locked
      have hv : hubOf v u = { hubOf s0 u with farLocks := locked } := hubOf_setHub (hub_lt_of_state hstate) _
      have hexec : exec (.laneStateReceive t lane w) s = .next (tryTrained v u) :=
        hexecS.trans (congrArg _ (takeLaneState_known (heard_known hknown)))
      refine ⟨v, hexec, fun hne => hexec.trans (congrArg _ (tryTrained_of_ne ?_)), rfl, ?_⟩
      · rw [hv]; exact hne
      · rw [hv]
    case own =>
      intro hown hfrom hwidth hplace hcold
      let v := marked (heard s0 lane rx) u lane m
      have hexec : exec (.laneMarkerReceive t lane w) s = .next (tryTrained v u) := by
        refine hexecM.trans (congrArg _ ?_)
        rw [blockRead, if_neg (by simp [hown, hfrom]), takeMarker_own (s := heard s0 lane rx) hwidth hplace hcold]
      refine ⟨v, hexec, fun hne => hexec.trans (congrArg _ (tryTrained_of_ne ?_)), marked_heard_law hlane rx m⟩
      rw [marked_state]
      exact hne
    case foreign =>
      intro hother hwired
      refine ⟨wiringReported (wronglyWired s0 lane rx) lane m, ?_, ?_⟩
      · refine hexecM.trans (congrArg _ ?_)
        rw [blockRead, if_pos (by simpa using hother), excludeLane_heard hlane hwired]
      · exact reported (s := wronglyWired s0 lane rx) (live_wf hb0) (by decide) (by decide) (by decide) (by decide) rfl
  case rejoin =>
    intro hup hready hout hnarrow hheld
    obtain ⟨hhubv, htold, hqueued⟩ := rejoined_law hup lane ((hubOf s0 u).mask ||| 2 ^ (laneOf s0 lane).groupLane)
    have hexec := execLaneRejoined_rejoins h0 hhub hup hready hout hnarrow hheld rfl rfl
    refine ⟨_, _, rfl, hexec, fun hshed => hexec.trans (congrArg _ ?_), ?_, htold, hqueued⟩
    · rw [endShed_of_not (by rw [hhubv]; exact hshed), ite_self]
    · rw [hhubv]

end Sys2Proof.Laws

/-! ### The life of a hub's group (08_flean_link R248, R249, R262, R267, R278; 12_commands_and_sets R441) -/

namespace Sys2Proof.Laws

open Sys2Proof Sys2Proof.Machine

/-! #### Commands to a hub (R262) -/

/-- A change of a hub is seen in it as that change or not at all. -/
theorem hubOf_setHub_or (s : State) (n : Nat) (f : HubSt → HubSt) :
    hubOf (setHub s n f) n = hubOf s n ∨ hubOf (setHub s n f) n = f (hubOf s n) := nth_upd_or s.link.hubs n n f {}

/-- Two changes of a hub that agree on it as it is are one. -/
theorem setHub_congr {s : State} {n : Nat} {f g : HubSt → HubSt} (h : f (hubOf s n) = g (hubOf s n)) :
    setHub s n f = setHub s n g := by
  have hlist : upd s.link.hubs n f = upd s.link.hubs n g := by
    refine List.ext_getElem? fun m => ?_
    simp only [upd, List.getElem?_modify]
    by_cases hm : n = m
    · subst hm
      cases hx : s.link.hubs[n]? with
      | none => rfl
      | some x =>
        have hhub : hubOf s n = x := by simp [hubOf, nth, hx]
        rw [hhub] at h
        simp [h]
    · simp [hm]
  rw [setHub, setHub, hlist]

/-- The request that a command to a hub makes, under the hub's next tag. -/
def cmdOf (s : State) (u cmd : Nat) (args : List Byte) (msg : Option (Nat × Nat)) : HubCmd :=
  { cmd := cmd, tag := (hubOf s u).nextTag, args := args, sentAt := now s, msg := msg }

/-- A request noted as unanswered, and its tag taken. -/
def cmdNoted (s : State) (u : Nat) (c : HubCmd) : State :=
  setHub s u fun h => { h with nextTag := (h.nextTag + 1) % 256, cmds := h.cmds ++ [c] }

theorem sendCmd_eq {s : State} {u cmd : Nat} {args : List Byte}
    (h : mayCarry (hubOf s u).state (.headCmd cmd (hubOf s u).nextTag args) = true) (msg : Option (Nat × Nat)) :
    sendCmd s u cmd args msg =
      toHub (cmdNoted s u (cmdOf s u cmd args msg)) u (.headCmd cmd (hubOf s u).nextTag args) := by
  unfold sendCmd
  extract_lets tag c
  rw [if_neg (by simp [tag, h])]
  refine congrArg (toHub · u (.headCmd cmd (hubOf s u).nextTag args)) (setHub_congr ?_)
  rfl

theorem sendCmd_tells {s : State} {u cmd : Nat} {args : List Byte}
    (h : mayCarry (hubOf s u).state (.headCmd cmd (hubOf s u).nextTag args) = true) (msg : Option (Nat × Nat)) :
    Told s (sendCmd s u cmd args msg) u (.headCmd cmd (hubOf s u).nextTag args) := by
  let a := cmdNoted s u (cmdOf s u cmd args msg)
  have hstate : (hubOf a u).state = (hubOf s u).state := hubOf_setHub_state s u fun _ => rfl
  have htold : Told a (toHub a u (.headCmd cmd (hubOf s u).nextTag args)) u (.headCmd cmd (hubOf s u).nextTag args) :=
    toHub_tells (by rw [hstate]; exact h)
  rw [sendCmd_eq h]
  exact htold

/-- From `s` to `u` packets have gone to hub n: of the state nothing but the link has changed, and of the hubs this one's requests, next
tag and marker count alone. -/
structure SpokenTo (n : Nat) (s u : State) : Prop where
  rest : LinkOnly s u
  others : ∀ m, m ≠ n → hubOf u m = hubOf s m
  hub : ∃ cs tag q, hubOf u n = { hubOf s n with cmds := cs, nextTag := tag, markSeq := q }

theorem SpokenTo.refl (n : Nat) (s : State) : SpokenTo n s s := ⟨.refl s, fun _ _ => rfl, _, _, _, rfl⟩

theorem SpokenTo.trans {n : Nat} {a b c : State} (h : SpokenTo n a b) (k : SpokenTo n b c) : SpokenTo n a c where
  rest := h.rest.trans k.rest
  others m hm := (k.others m hm).trans (h.others m hm)
  hub := by
    obtain ⟨_, _, _, hb⟩ := h.hub
    obtain ⟨cs, tag, q, hc⟩ := k.hub
    exact ⟨cs, tag, q, by rw [hc, hb]⟩

theorem SpokenTo.foldl {α : Type} {n : Nat} {f : State → α → State} (hf : ∀ x a, SpokenTo n x (f x a)) (l : List α) (s : State) :
    SpokenTo n s (l.foldl f s) := by
  induction l generalizing s with
  | nil => exact .refl n s
  | cons a l ih => exact (hf s a).trans (ih _)

theorem spokenTo_setHub (s : State) (n : Nat) {f : HubSt → HubSt}
    (hf : ∀ h, ∃ cs tag q, f h = { h with cmds := cs, nextTag := tag, markSeq := q }) : SpokenTo n s (setHub s n f) where
  rest := ⟨s.out, s.freeCtr, _, rfl⟩
  others m hm := hubOf_setHub_ne hm f
  hub := by
    rcases hubOf_setHub_or s n f with h | h <;> rw [h]
    · exact ⟨_, _, _, rfl⟩
    · exact hf _

theorem spokenTo_toHub (n : Nat) (s : State) (p : HubPacket) : SpokenTo n s (toHub s n p) where
  rest := linkOnly_toHub s n p
  others m _ := (sentOnly_toHub s n p).hubOf m
  hub := ⟨_, _, _, (sentOnly_toHub s n p).hubOf n⟩

theorem spokenTo_sendCmd (n : Nat) (s : State) (cmd : Nat) (args : List Byte) (msg : Option (Nat × Nat)) :
    SpokenTo n s (sendCmd s n cmd args msg) := by
  unfold sendCmd
  extract_lets tag c
  split
  · exact .refl n s
  · exact (spokenTo_setHub s n fun h => ⟨_, _, h.markSeq, rfl⟩).trans (spokenTo_toHub n _ _)

theorem spokenTo_sendTraining (n : Nat) (s : State) : SpokenTo n s (sendTraining s n) := by
  have hmarker (x : State) : SpokenTo n x (sendMarker x n) :=
    (spokenTo_setHub x n fun h => ⟨h.cmds, h.nextTag, _, rfl⟩).trans (spokenTo_toHub n _ _)
  exact ((spokenTo_toHub n s .idle).trans (hmarker _)).trans (spokenTo_toHub n _ _)

theorem spokenTo_sendConfigs (n : Nat) (s : State) (c : CfgSet) : SpokenTo n s (sendConfigs s c n) := by
  refine .foldl (fun x a => ?_) _ s
  dsimp only
  split
  · split
    · exact spokenTo_sendCmd n x _ _ _
    · exact .refl n x
  · exact .refl n x

theorem spokenTo_sendPending (n : Nat) (s : State) : SpokenTo n s (sendPending s n) :=
  .foldl (fun x _ => spokenTo_toHub n x _) _ s

/-! #### TRAIN left and begun again (R248, R249) -/

theorem identify_law {s : State} {u : Nat} (hlt : u < s.link.hubs.length) (mask : Nat) :
    (∀ n, n ≠ u → hubOf (identify s u mask) n = hubOf s n) ∧ (hubOf (identify s u mask) u).state = 2 ∧
      (hubOf (identify s u mask) u).mask = mask ∧ Told s (identify s u mask) u (.laneState (lockMask s u) mask) ∧
      Told s (identify s u mask) u (.headCmd 1 (hubOf s u).nextTag []) ∧ (identify s u mask).host = s.host := by
  let a := setHub s u fun h => { h with state := 2, mask := mask }
  let b := sendLaneState a u
  have ha : hubOf a u = { hubOf s u with state := 2, mask := mask } := hubOf_setHub hlt _
  have hab : SentOnly a b := sentOnly_sendLaneState a u
  have hb : hubOf b u = { hubOf s u with state := 2, mask := mask } := (hab.hubOf u).trans ha
  have hspoken : SpokenTo u b (identify s u mask) := spokenTo_sendCmd u b 1 [] none
  obtain ⟨cs, tag, q, hhub⟩ := hspoken.hub
  have hlanes : Told a b u (.laneState (lockMask a u) (hubOf a u).mask) := sendLaneState_tells (by simp [ha])
  have hinfo : Told b (identify s u mask) u (.headCmd 1 (hubOf b u).nextTag []) := sendCmd_tells (by rw [hb]; rfl) none
  rw [ha] at hlanes
  rw [hb] at hinfo
  refine ⟨fun n hn => ?others, by rw [hhub, hb], by rw [hhub, hb], ?laneState, hab.told hinfo, hspoken.rest.host.trans hab.host⟩
  case others => exact (hspoken.others n hn).trans ((hab.hubOf n).trans (hubOf_setHub_ne hn _))
  case laneState => exact Told.later hlanes (out_sendCmd b u 1 [] none)

/-- A group's record as TRAIN begins. -/
def trainBegun (at' : Nat) (h : HubSt) : HubSt :=
  { h with state := 1, mask := 0, trainedAt := at', narrow := none, markRef := none, cmds := h.cmds.filter (·.msg.isSome) }

theorem startTrain_law {s : State} {u : Nat} (hlt : u < s.link.hubs.length) :
    (∀ n, n ≠ u → hubOf (startTrain s u) n = hubOf s n) ∧ (hubOf (startTrain s u) u).state = 1 ∧
      (hubOf (startTrain s u) u).trainedAt = now s ∧ (startTrain s u).host = s.host := by
  let a := setHub s u (trainBegun (now s))
  have hspoken : SpokenTo u a (startTrain s u) := spokenTo_sendTraining u a
  obtain ⟨cs, tag, q, hhub⟩ := hspoken.hub
  rw [hubOf_setHub hlt] at hhub
  exact ⟨fun n hn => (hspoken.others n hn).trans (hubOf_setHub_ne hn _), congrArg HubSt.state hhub, congrArg HubSt.trainedAt hhub,
    hspoken.rest.host⟩

theorem execBringupTimeout_past {s s0 : State} {t : Nat} {hub : Fin 24} (h0 : s0 = begin s t) (htrain : (hubOf s0 hub).state = 1)
    (hpast : (hubOf s0 hub).trainedAt + 1000000 * liveFld s0 Fld.FL_CTRL_BRINGUP_TIMEOUT ≤ now s0) :
    execBringupTimeout t hub s = .next (if hubFits s0 hub (readyMask s0 hub) then identify s0 hub (readyMask s0 hub)
      else startTrain (raise s0 0x0708 hub 1) hub) := by
  subst h0
  unfold execBringupTimeout
  extract_lets v h
  rw [if_neg (by simp only [not_or]; exact ⟨not_not.mpr htrain, Nat.not_lt.mpr hpast⟩)]

/-! #### A group UP (R248, R262) -/

/-- The record of a group that comes UP with its hub's HUB_INFO. -/
def risen (at' : Nat) (info : HubInfo) (h : HubSt) : HubSt :=
  { h with state := 3, info := some info, lastAck := at', ackLost := false, cmds := h.cmds.filter fun c => c.cmd != 1 || c.msg.isSome }

/-- The group UP, reported, and its heads' configuration and energy tables sent. -/
def hubGreeted (s : State) (u : Nat) (info : HubInfo) : State :=
  sendPending (sendConfigs (raise (setHub s u (risen (now s) info)) 0x0707 u (hubOf s u).mask) s.sets.active u) u

theorem hubGreeted_law {s : State} {u : Nat} (hlt : u < s.link.hubs.length) (info : HubInfo) :
    (∃ cs tag q, hubOf (hubGreeted s u info) u =
        { risen (now s) info (hubOf s u) with cmds := cs, nextTag := tag, markSeq := q }) ∧
      (∀ n, n ≠ u → hubOf (hubGreeted s u info) n = hubOf s n) ∧
      (hubGreeted s u info).host.queued = s.host.queued ++ [⟨now s, 0x0707, u, (hubOf s u).mask % 2 ^ 32⟩] := by
  let a := raise (setHub s u (risen (now s) info)) 0x0707 u (hubOf s u).mask
  have ha : hubOf a u = risen (now s) info (hubOf s u) := hubOf_setHub hlt _
  have hspoken : SpokenTo u a (hubGreeted s u info) :=
    (spokenTo_sendConfigs u a s.sets.active).trans (spokenTo_sendPending u _)
  obtain ⟨cs, tag, q, hhub⟩ := hspoken.hub
  rw [ha] at hhub
  exact ⟨⟨cs, tag, q, hhub⟩, fun n hn => (hspoken.others n hn).trans (hubOf_setHub_ne hn _),
    congrArg HostIf.queued hspoken.rest.host⟩

theorem execHubUp_greets {s s0 : State} {t : Nat} {hub : Fin 24} (h0 : s0 = begin s t) (hident : (hubOf s0 hub).state = 2)
    {info : HubInfo} (hown : info.hub = hub) : execHubUp t hub info s = .next
      (if hubFits (hubGreeted s0 hub info) hub (hubOf s0 hub).mask then endShed (hubGreeted s0 hub info) hub
        else hubGreeted s0 hub info) := by
  have hlt : hub < s0.link.hubs.length := hub_lt_of_state (by omega)
  obtain ⟨⟨cs, tag, q, hhub⟩, -, -⟩ := hubGreeted_law hlt info
  have hmask : (hubOf (hubGreeted s0 hub info) hub).mask = (hubOf s0 hub).mask := (congrArg HubSt.mask hhub :)
  have hrisen : (hubOf (setHub s0 hub (risen (now s0) info)) hub).mask = (hubOf s0 hub).mask :=
    (congrArg HubSt.mask (hubOf_setHub hlt (risen (now s0) info)) :)
  have hgreet : hubGreeted s0 hub info = sendPending (sendConfigs (raise (setHub s0 hub (risen (now s0) info)) 0x0707 hub
      (hubOf (setHub s0 hub (risen (now s0) info)) hub).mask) s0.sets.active hub) hub := by rw [hrisen]; rfl
  rw [← hmask, hgreet]
  subst h0
  unfold execHubUp
  extract_lets v
  rw [if_neg (by simp [v, hident, hown])]
  rfl

/-! #### A group narrowed (R278) -/

/-- The narrower mask taken, with the lines that the re-stripe cut. -/
def narrowed (s : State) (u m : Nat) (cut : List Int) : State :=
  setHub s u fun h => { h with mask := m, narrow := none, cuts := if cut.isEmpty then h.cuts else h.cuts ++ [cut.take 2] }

/-- The narrower mask told to the hub. -/
def restriped (s : State) (u m : Nat) (cut : List Int) : State := toHub (narrowed s u m cut) u (.restripe m (nextHubLine s u))

theorem execRestripeNarrow_narrows {s s0 : State} {t m : Nat} {hub : Fin 24} (h0 : s0 = begin s t)
    (hnarrow : (hubOf s0 hub).narrow = some m) (cut : List Int) : execRestripeNarrow t hub cut s = .next
      (if cut.isEmpty then raise (sticky (restriped s0 hub m cut) Fld.FL_STATUS_RESTRIPED) 0x0703 hub 0 else restriped s0 hub m cut) := by
  subst h0
  unfold execRestripeNarrow
  extract_lets v
  have hv : (hubOf v hub).narrow = some m := hnarrow
  rw [hv]
  rfl

theorem restriped_law {s : State} {u m : Nat} (hnarrow : (hubOf s u).narrow = some m) (cut : List Int) :
    hubOf (restriped s u m cut) u =
        { hubOf s u with mask := m, narrow := none, cuts := if cut.isEmpty then (hubOf s u).cuts else (hubOf s u).cuts ++ [cut.take 2] } ∧
      ((hubOf s u).state = 3 → Told s (restriped s u m cut) u (.restripe m (nextHubLine s u))) ∧
      (restriped s u m cut).host = s.host ∧ (restriped s u m cut).live = s.live := by
  let a := narrowed s u m cut
  have hlt : u < s.link.hubs.length := hub_lt_of_ne fun he => by simp [he] at hnarrow
  have hsent : SentOnly a (restriped s u m cut) := sentOnly_toHub a u _
  have hstate : (hubOf a u).state = (hubOf s u).state := hubOf_setHub_state s u fun _ => rfl
  refine ⟨(hsent.hubOf u).trans (hubOf_setHub hlt _), fun hup => ?_, hsent.host, hsent.live⟩
  have htold : Told a (restriped s u m cut) u (.restripe m (nextHubLine s u)) :=
    toHub_tells (by rw [hstate, hup]; rfl)
  exact htold

/-! #### Answers of a hub, and none (R255, R262, R267) -/

/-- A request answered or given up. -/
def cmdGone (s : State) (u : Nat) (c : HubCmd) : State := setHub s u fun h => { h with cmds := h.cmds.filter (· != c) }

theorem execHeadCmdResponse_answers {s s0 : State} {t cmd ctag k tag : Nat} {hub : Fin 24} {c : HubCmd} (h0 : s0 = begin s t)
    (hc : ((hubOf s0 hub).cmds.find? fun c => c.cmd == cmd && c.tag == ctag) = some c) (hmsg : c.msg = some (k, tag)) (status : Nat)
    (args : List Byte) : execHeadCmdResponse t hub true cmd ctag status args s =
      .next (answer (cmdGone s0 hub c) k tag false ⟨hubResult status, 0, args.take (if k < 4 then 240 else 224), false⟩) := by
  subst h0
  unfold execHeadCmdResponse
  dsimp only
  rw [if_neg (by simp), hc]
  dsimp only
  rw [hmsg]
  rfl

/-- A request that goes out once more. -/
def cmdAgain (s : State) (u : Nat) (c : HubCmd) : State :=
  setHub s u fun h => { h with cmds := h.cmds.map fun x => if x = c then { c with attempts := c.attempts + 1, sentAt := now s } else x }

/-- A request given up and reported. -/
def cmdGivenUp (s : State) (u : Nat) (c : HubCmd) : State :=
  raise (sticky (cmdGone s u c) Fld.FL_STATUS_CMD_TIMEOUT) 0x070B u (c.cmd * 256 + c.tag)

theorem cmdGivenUp_state (s : State) (u : Nat) (c : HubCmd) : (hubOf (cmdGivenUp s u c) u).state = (hubOf s u).state := by
  have hlink : (cmdGivenUp s u c).link = (cmdGone s u c).link :=
    HostOnly.link_eq (hostOnly_sticky (cmdGone s u c) Fld.FL_STATUS_CMD_TIMEOUT 0 0)
  have hgone : (hubOf (cmdGone s u c) u).state = (hubOf s u).state := hubOf_setHub_state s u fun _ => rfl
  rw [hubOf, hlink]
  exact hgone

section Unheard

variable {s s0 : State} {t ctag : Nat} {hub : Fin 24} {c : HubCmd} (h0 : s0 = begin s t)
  (hc : ((hubOf s0 hub).cmds.find? fun c => c.tag == ctag) = some c)
include h0 hc

theorem execCmdTimeout_early (hearly : now s0 < c.sentAt + 10000000) : execCmdTimeout t hub ctag s = .next s0 := by
  subst h0
  unfold execCmdTimeout
  dsimp only
  rw [hc]
  dsimp only
  rw [if_pos hearly]

theorem execCmdTimeout_again (hdue : c.sentAt + 10000000 ≤ now s0) (hfew : c.attempts < 3) :
    execCmdTimeout t hub ctag s = .next (toHub (cmdAgain s0 hub c) hub (.headCmd c.cmd c.tag c.args)) := by
  subst h0
  unfold execCmdTimeout
  dsimp only
  rw [hc]
  dsimp only
  rw [if_neg (Nat.not_lt.mpr hdue), if_pos hfew]
  rfl

theorem execCmdTimeout_answers (hdue : c.sentAt + 10000000 ≤ now s0) (hthird : 3 ≤ c.attempts) {k tag : Nat}
    (hmsg : c.msg = some (k, tag)) :
    execCmdTimeout t hub ctag s = .next (answer (cmdGivenUp s0 hub c) k tag false (failMsg 9)) := by
  subst h0
  unfold execCmdTimeout
  dsimp only
  rw [hc]
  dsimp only
  rw [if_neg (Nat.not_lt.mpr hdue), if_neg (Nat.not_lt.mpr hthird), hmsg]
  rfl

theorem execCmdTimeout_drops (hdue : c.sentAt + 10000000 ≤ now s0) (hthird : 3 ≤ c.attempts) (hmsg : c.msg = none)
    (hother : c.cmd ≠ 1 ∨ (hubOf s0 hub).state ≠ 2) : execCmdTimeout t hub ctag s = .next (cmdGivenUp s0 hub c) := by
  have hasked : ¬ (c.cmd = 1 ∧ (hubOf (cmdGivenUp s0 hub c) hub).state = 2) := by
    rw [cmdGivenUp_state]
    exact fun h => hother.elim (· h.1) (· h.2)
  subst h0
  unfold execCmdTimeout
  dsimp only
  rw [hc]
  dsimp only
  rw [if_neg (Nat.not_lt.mpr hdue), if_neg (Nat.not_lt.mpr hthird), hmsg]
  exact congrArg _ (if_neg hasked)

end Unheard

theorem cmdGivenUp_reported {s : State} (hb : banksOk s = true) (u : Nat) (c : HubCmd) :
    Reported (cmdGone s u c) (cmdGivenUp s u c) Fld.FL_STATUS_CMD_TIMEOUT 0 0 ⟨now s, 0x070B, u, (c.cmd * 256 + c.tag) % 2 ^ 32⟩ :=
  reported (s := cmdGone s u c) (live_wf hb) (by decide) (by decide) (by decide) (by decide) rfl

/-- HEAD.HUB_CMD's action to a hub that is UP: the request goes out, and its answer is the message's reply. -/
theorem execHeadHubCmd_sends {s e : State} {t tag n cmd : Nat} {ch : Fin 6} (h : acts (begin s t) ch 5 0x15 tag false false = true)
    (he : e = entered (begin s t) ch 5 0x15 tag) (hn : n < 24) (hcmd : cmd = 1 ∨ cmd = 5 ∨ cmd = 6) (hup : (hubOf e n).state = 3)
    (args : List Byte) : execHeadHubCmd t ch tag n cmd args s =
      .next (toHub (cmdNoted e n (cmdOf e n cmd args (some (ch.val, tag)))) n (.headCmd cmd (hubOf e n).nextTag args)) := by
  subst he
  unfold execHeadHubCmd
  refine congrArg _ (message_later h (r := ⟨0, 0, [], true⟩) ?_ rfl)
  rw [if_neg (by simp only [not_or]; exact ⟨by omega, by rcases hcmd with h | h | h <;> simp [h]⟩), if_neg (by simp [hup]),
    sendCmd_eq (by rw [hup]; rfl)]

theorem execHeadHubCmd_down {s e : State} {t tag n cmd : Nat} {ch : Fin 6} (h : acts (begin s t) ch 5 0x15 tag false false = true)
    (he : e = entered (begin s t) ch 5 0x15 tag) (hn : n < 24) (hcmd : cmd = 1 ∨ cmd = 5 ∨ cmd = 6) (hdown : (hubOf e n).state ≠ 3)
    (args : List Byte) :
    execHeadHubCmd t ch tag n cmd args s = .next (answer e ch tag false (failMsg 5 (2 * 2 ^ 20 + n))) := by
  subst he
  unfold execHeadHubCmd
  refine congrArg _ (message_answers h ?_ rfl)
  rw [if_neg (by simp only [not_or]; exact ⟨by omega, by rcases hcmd with h | h | h <;> simp [h]⟩), if_pos hdown]
  rfl

theorem execAckLost_reports {s s0 : State} {t : Nat} {hub : Fin 24} (h0 : s0 = begin s t) (hup : (hubOf s0 hub).state = 3)
    (hlate : (hubOf s0 hub).lastAck + 200000 ≤ now s0) (hnew : (hubOf s0 hub).ackLost = false) :
    execAckLost t hub s = .next (raise (sticky (setHub s0 hub fun h => { h with ackLost := true }) Fld.FL_STATUS_ACK_LOST) 0x070A hub
      ((now s0 - (hubOf s0 hub).lastAck) / 1000)) := by
  subst h0
  unfold execAckLost
  extract_lets v h
  rw [if_pos ⟨hup, hlate, by simp [h, v, hnew]⟩]

/-! #### The statement -/

/-- Settles O29: each command of a hub's life takes one branch, and what it sends leaves the group as the branch has made it. -/
theorem hubLife : Obligations.HubLife := by
  intro s t hub hb s0 h0' said
  have hb0 : banksOk s0 = true := banks_begin hb t
  have h0 : s0 = begin s t := rfl
  have hinvalid (cmd ctag status : Nat) (args : List Byte) :
      exec (.headCmdResponse t hub false cmd ctag status args) s = .next (discardPacket s0 hub) := rfl
  clear_value s0
  refine ⟨?bringup, ?up, ?narrow, ?discard, ?answer, ?timeout, ?message, ?silent⟩
  case bringup =>
    intro htrain hpast
    have hexec := execBringupTimeout_past h0 htrain hpast
    have hlt : hub < s0.link.hubs.length := hub_lt_of_state (by rw [htrain]; decide)
    cases hfits : hubFits s0 hub (readyMask s0 hub) with
    | true =>
      rw [hfits, if_pos rfl] at hexec
      obtain ⟨hothers, hstate, hmask, hlanes, hinfo, hhost⟩ := identify_law hlt (readyMask s0 hub)
      exact ⟨_, hexec, hothers, fun _ => ⟨hstate, hmask, hlanes, hinfo, hhost⟩, fun h => absurd h (by decide)⟩
    | false =>
      rw [hfits, if_neg (by decide)] at hexec
      obtain ⟨hothers, hstate, htrained, hhost⟩ := startTrain_law (s := raise s0 0x0708 hub 1) hlt
      exact ⟨_, hexec, hothers, fun h => absurd h (by decide), fun _ => ⟨hstate, htrained, congrArg HostIf.queued hhost⟩⟩
  case up =>
    intro info hident hown
    have hexec := execHubUp_greets h0 hident hown
    obtain ⟨⟨cs, tag, q, hhub⟩, hothers, hqueued⟩ := hubGreeted_law (hub_lt_of_state (by rw [hident]; decide)) info
    refine ⟨_, hexec, fun hshed => hexec.trans (congrArg _ ?_), congrArg HubSt.state hhub, congrArg HubSt.info hhub,
      (congrArg HubSt.mask hhub :), congrArg HubSt.lastAck hhub, hothers, hqueued⟩
    rw [endShed_of_not (by rw [hhub]; exact hshed), ite_self]
  case narrow =>
    intro cut m hnarrow
    have hexec := execRestripeNarrow_narrows h0 hnarrow cut
    obtain ⟨hhub, htold, hhost, hlive⟩ := restriped_law hnarrow cut
    cases cut with
    | nil =>
      let v := restriped s0 hub m []
      let w := raise (sticky v Fld.FL_STATUS_RESTRIPED) 0x0703 hub 0
      have hrep : Reported v w Fld.FL_STATUS_RESTRIPED 0 0 ⟨now v, 0x0703, hub, 0⟩ :=
        reported (by rw [hlive]; exact live_wf hb0) (by decide) (by decide) (by decide) (by decide) rfl
      obtain ⟨hsticky, hqueued, honly, -⟩ := hrep
      have hnow : now v = now s0 := (sentOnly_toHub (narrowed s0 hub m []) hub _).now_eq
      have hw : hubOf w hub = hubOf v hub := congrArg (fun l : LinkSt => nth l.hubs hub.val {}) (HostOnly.link_eq honly)
      rw [hnow, hhost] at hqueued
      rw [hhub] at hw
      exact ⟨w, hexec, congrArg HubSt.mask hw, congrArg HubSt.narrow hw, fun hup => (htold hup).later (out_sticky v _ _ _),
        fun h => absurd rfl h, fun _ => ⟨(congrArg HubSt.cuts hw :), hsticky, hqueued⟩⟩
    | cons x xs =>
      exact ⟨_, hexec, congrArg HubSt.mask hhub, congrArg HubSt.narrow hhub, htold, fun _ => ⟨(congrArg HubSt.cuts hhub :), hhost⟩,
        fun h => absurd h (by simp)⟩
  case discard =>
    exact fun cmd ctag status args => ⟨_, hinvalid cmd ctag status args, discardPacket_counts hb0 (by omega)⟩
  case answer =>
    exact fun cmd ctag status args c k tag hc hmsg => execHeadCmdResponse_answers h0 hc hmsg status args
  case timeout =>
    intro ctag c hc
    refine ⟨execCmdTimeout_early h0 hc, fun hdue hfew => ?again, fun hdue hthird => ?third⟩
    case again =>
      have hstate : (hubOf (cmdAgain s0 hub c) hub).state = h0'.state := hubOf_setHub_state s0 hub fun _ => rfl
      refine ⟨_, execCmdTimeout_again h0 hc hdue hfew, sentOnly_toHub _ hub _, fun hup => ?_⟩
      exact toHub_tells (s := cmdAgain s0 hub c) (by rw [hstate, hup]; rfl)
    case third =>
      exact ⟨_, cmdGivenUp_reported hb0 hub c, fun k tag hmsg => execCmdTimeout_answers h0 hc hdue hthird hmsg,
        execCmdTimeout_drops h0 hc hdue hthird⟩
  case message =>
    intro ch tag n cmd args e h he hn hcmd
    rw [h0] at h he
    refine ⟨fun hup => ?_, fun hdown => execHeadHubCmd_down h he hn hcmd hdown args⟩
    let c := cmdOf e n cmd args (some (ch.val, tag))
    have hsent := sentOnly_toHub (cmdNoted e n c) n (.headCmd cmd (hubOf e n).nextTag args)
    have hnoted : hubOf (cmdNoted e n c) n =
        { hubOf e n with nextTag := ((hubOf e n).nextTag + 1) % 256, cmds := (hubOf e n).cmds ++ [c] } :=
      hubOf_setHub (hub_lt_of_state (by rw [hup]; decide)) _
    refine ⟨_, c, execHeadHubCmd_sends h he hn hcmd hup args, rfl, rfl, rfl, rfl, rfl, ?_, hsent, ?_⟩
    · rw [hsent.hubOf, hnoted]
    · exact toHub_tells (s := cmdNoted e n c) (by rw [hnoted]; simp [hup, mayCarry])
  case silent =>
    intro hup hlate hnew
    exact ⟨_, execAckLost_reports h0 hup hlate hnew, reported (s := setHub s0 hub fun h => { h with ackLost := true }) (live_wf hb0)
      (by decide) (by decide) (by decide) (by decide) rfl⟩

end Sys2Proof.Laws

/-! ### Numbers that no trigger and no head has (03_device_time R95; 09_vision_and_colour_loop R292, R317) -/

namespace Sys2Proof.Laws

open Sys2Proof Sys2Proof.Machine

/-- What a function reads in the next state of an outcome. -/
def readNext {α : Type} (f : State → α) : Host.Outcome State Fault Refusal → Option α
  | .next u => some (f u)
  | _ => none

theorem eq_of_readNext {α : Type} {f : State → α} {o : Host.Outcome State Fault Refusal} {u : State} {a : α}
    (ha : readNext f o = some a) (hu : o = .next u) : f u = a := by
  subst hu
  exact Option.some.inj ha

/-! #### A port that holds a trigger that no unit has (R287, R292) -/

/-- The number of such a trigger: `regKey` gives its TIM_TRIG_CTRL the key of a register of camera port 0. -/
def farTrigger (r : Reg) : Nat := (r.ctorIdx - Reg.TIM_TRIG_CTRL.ctorIdx) * 8192

/-- A unit READY and ACTIVE whose camera port 0, switched on or off, holds that trigger. -/
def farTriggerState (r : Reg) (on : Nat) : State :=
  { sys := { st := .ready }, pair := { role := .active, lease := true }, live := bankSet [] Fld.CAM_CTRL_CAM_EN 0 on
    vision := { cams := [{ trigNo := some (farTrigger r) }, {}] } }

/-- What the statement asks of a frame's start that nothing expects, and the errors that the port has counted before. -/
theorem farTriggerState_unexpected :
    let s := farTriggerState .CAM_ERR 1
    banksOk s = true ∧ 0 < (begin s 0).vision.cams.length ∧ camOn (begin s 0) 0 = true ∧ receiving (cam (begin s 0) 0) = none ∧
      (cam (begin s 0) 0).expect = none ∧ liveFld (begin s 0) Fld.CAM_ERR_FRAMES_ERROR 0 = 0 := by
  decide +kernel

/-- The pulse width of the far trigger, 125, stands in the upper half of the port's count of errors. -/
theorem frameStart_farTrigger :
    readNext (fun u => liveFld u Fld.CAM_ERR_FRAMES_ERROR 0) (exec (.frameStartReceive 0 0) (farTriggerState .CAM_ERR 1)) =
      some (125 * 2 ^ 16 + 1) := by
  decide +kernel

/-- Refutes O32: the statement does not bound the number of the trigger that a port holds. The first unexpected start at port 0 sets the
pulse width of its trigger 679,936, whose register is the port's count of errors, and so that count does not read 1. -/
theorem not_framesReceived : ¬ Obligations.FramesReceived := by
  intro h
  obtain ⟨hbanks, hport, hon, hidle, hnone, hbefore⟩ := farTriggerState_unexpected
  obtain ⟨-, -, hstart, -⟩ := h (farTriggerState .CAM_ERR 1) 0 0 hbanks hport
  obtain ⟨u, code, hexec, -, -, -, herrors, -⟩ := hstart hon hidle hnone
  have hafter : liveFld u Fld.CAM_ERR_FRAMES_ERROR 0 = 125 * 2 ^ 16 + 1 := eq_of_readNext frameStart_farTrigger hexec
  have hone : liveFld u Fld.CAM_ERR_FRAMES_ERROR 0 = (0 + 1) % 2 ^ 32 := hbefore ▸ herrors
  omega

/-! #### A ladder printed by a head that no unit has (R317, R320) -/

/-- The number of such a head: `regKey` gives the state of its nozzle 0 the key of the count of ladders. -/
def farHead : Nat := (Reg.CLP_LADDERS.ctorIdx - Reg.WFT_NOZZLE.ctorIdx) * 4096

/-- A ladder band of channel 0 with one dash, of the far head's one nozzle, in column 5 in the view of port 0; two ladders are done. -/
def farHeadState : State :=
  { live := bankSet [] Fld.CLP_LADDERS_LADDERS 0 2
    frameEff := [bankSet [] Fld.CAM_GEOM_CAM_WIDTH 0 64, []]
    colour := { bands := [(0, 8)] }
    sets := { active := { regs := bankSet [] Fld.CLP_SLOT_LADDER_EN 0 1
                          types := [(1, ⟨1, 1, 1, 0, 0, 0, 0, false, false, 0, 0, 0, 0⟩)]
                          places := [(farHead, ⟨0, 0, 1, some 0, none, false, false, 5, 0, 0, 0, 0⟩)] } } }

/-- A scan of port 0 that found nothing. -/
def emptyScan : LadderScan := ⟨0, [], []⟩

/-- What the statement asks of a ladder that fails: of one dash expected, none was found. -/
theorem farHeadState_fails :
    banksOk farHeadState = true ∧ (begin farHeadState 0).colour.bands ≠ [] ∧
      ladderPasses (begin farHeadState 0) (keptScan (begin farHeadState 0) emptyScan) = false := by
  decide +kernel

/-- The third ladder counted is state 3 of the far nozzle, MASKED: no dash is expected any more, and the ladder passes. -/
theorem ladderDone_farHead :
    readNext (fun u => stickyOn u Fld.CLP_STATUS_LADDER_FAILED) (exec (.ladderDone 0 [emptyScan]) farHeadState) = some false := by
  decide +kernel

/-- Refutes O33: the statement bounds no head's number. A ladder with one dash, of nozzle 0 of head 274,432, was not found; counting it
writes 3 into the count of ladders, which is also that nozzle's state, so the dash is no more expected and LADDER_FAILED stays 0. -/
theorem not_framesProcessed : ¬ Obligations.FramesProcessed := by
  intro h
  obtain ⟨hbanks, hbands, hfails⟩ := farHeadState_fails
  obtain ⟨-, -, hfailed, -⟩ := h farHeadState 0 hbanks
  obtain ⟨u, hexec, hsticky, -⟩ := hfailed emptyScan hbands hfails
  exact Bool.false_ne_true ((eq_of_readNext ladderDone_farHead hexec).symm.trans hsticky)

/-! #### A port switched on that holds a trigger that no unit has (R288, R292) -/

/-- Values in range for the registers of a port: CAM_EN and TRIG_EN with TRIG_WIDTH 0, and frames of 64 pixels by one row. -/
def camValues : List Nat := [1 + 2 ^ 11, 64 + 2 ^ 16 + 2 * 2 ^ 23, 0, 0, 0, 0, 0, 0]

/-- The state on which CAM.CONFIG acts, with port 0 off and the far trigger's register that of its geometry. -/
def farTriggerEntered : State := entered (begin (farTriggerState .CAM_GEOM 0) 0) 0 12 0x10 0

/-- The registers with those values written to port 0. -/
def camWritten : Bank :=
  (List.range 8).foldl (fun b i => bankWrite b (regKey (nth camRegs i .CAM_CTRL) 0 0)
    (regDefined (nth camRegs i .CAM_CTRL) (nth camValues i 0))) farTriggerEntered.live

/-- What the statement asks of a CAM.CONFIG that switches the port on. -/
theorem farTriggerEntered_switchesOn :
    banksOk (farTriggerState .CAM_GEOM 0) = true ∧ acts (begin (farTriggerState .CAM_GEOM 0) 0) 0 12 0x10 0 true false = true ∧
      bitsOf (nth camValues 1 0) 0 16 * bitsOf (nth camValues 1 0) 16 7 * (bitsOf (nth camValues 0 0) 4 2 + 1) *
        (if bitsOf (nth camValues 0 0) 3 1 = 1 then 10 else 8) ≤ 8388608 ∧
      (∀ i, i < 8 → regValueOk (nth camRegs i .CAM_CTRL) (nth camValues i 0) = true) ∧
      coverageFits { farTriggerEntered with live := camWritten } farTriggerEntered.sets.active = true ∧
      camOn { farTriggerEntered with live := camWritten } 0 = true ∧ camOn farTriggerEntered 0 = false ∧
      0 < farTriggerEntered.vision.cams.length ∧ regDefined .CAM_GEOM (nth camValues 1 0) = 64 + 2 ^ 16 + 2 * 2 ^ 23 := by
  decide +kernel

/-- The pulse width of the far trigger, 0, stands in the upper half of the port's geometry. -/
theorem camConfig_farTrigger :
    readNext (fun u => bankReg u.live .CAM_GEOM 0 0) (exec (.camConfig 0 0 0 0 camValues) (farTriggerState .CAM_GEOM 0)) = some 64 := by
  decide +kernel

/-- The reply of the ACTIVE unit is held back (R339), so that answering writes no register. -/
theorem answer_farTriggerEntered {e u : State} (he : e = farTriggerEntered)
    (hrest : { u with live := e.live, vision := e.vision, frameEff := e.frameEff, out := e.out } = e) :
    (answer u 0 0 true okMsg).live = u.live := by
  have hu : u = { e with live := u.live, vision := u.vision, frameEff := u.frameEff, out := u.out } := by
    rw [← hrest]
  rw [hu, he]
  rfl

/-- Refutes O34: the statement does not bound the number of the trigger that a port holds. CAM.CONFIG switches port 0 on and sets the pulse
width of its trigger 573,440, whose register is the port's geometry, so CAM_GEOM does not read as the message gives it. -/
theorem not_cameraMessages : ¬ Obligations.CameraMessages := by
  intro h
  obtain ⟨hbanks, hacts, hsize, hvalues, hfits, hon, hoff, hport, hdefined⟩ := farTriggerEntered_switchesOn
  obtain ⟨hconfig, -⟩ := h (farTriggerState .CAM_GEOM 0) 0 0 0 0 hbanks
  obtain ⟨hwrites, -⟩ := hconfig camValues camWritten _ farTriggerEntered hacts rfl (by decide) rfl rfl hsize rfl
  obtain ⟨-, hswitch⟩ := hwrites hvalues hfits
  obtain ⟨u, hexec, -, -, -, hregs, hrest⟩ := hswitch hon hoff hport
  have hafter : bankReg (answer u 0 0 true okMsg).live .CAM_GEOM 0 0 = 64 := eq_of_readNext camConfig_farTrigger hexec
  rw [answer_farTriggerEntered rfl hrest] at hafter
  have hgeom : bankReg u.live .CAM_GEOM 0 0 = 64 + 2 ^ 16 + 2 * 2 ^ 23 := (hregs 1 (by decide)).trans hdefined
  omega

end Sys2Proof.Laws

/-! ### Solutions and the CLP messages (09_vision_and_colour_loop R307, R312, R316, R321 to R323; 12_commands_and_sets R441) -/

namespace Sys2Proof.Laws

open Sys2Proof Sys2Proof.Machine

/-! #### Ports, bits and numbers in a reply -/

/-- A port changed reads as changed. -/
theorem cam_setCam {s : State} {k : Nat} (h : k < s.vision.cams.length) (f : CamPort → CamPort) : cam (setCam s k f) k = f (cam s k) :=
  nth_upd h f {}

theorem cam_setCam_ne (s : State) {j k : Nat} (h : j ≠ k) (f : CamPort → CamPort) : cam (setCam s k f) j = cam s j :=
  nth_upd_ne h f {}

/-- Replacing a field leaves the bits above it. -/
theorem bitsOf_putBits_above {v lo w x a b : Nat} (h : lo + w ≤ a) : bitsOf (putBits v lo w x) a b = bitsOf v a b := by
  have hlow : x % 2 ^ w * 2 ^ lo + v % 2 ^ lo < 2 ^ (lo + w) :=
    calc x % 2 ^ w * 2 ^ lo + v % 2 ^ lo
        < x % 2 ^ w * 2 ^ lo + 2 ^ lo := by have := Nat.mod_lt v (Nat.two_pow_pos lo); omega
      _ = (x % 2 ^ w + 1) * 2 ^ lo := by ring
      _ ≤ 2 ^ w * 2 ^ lo := Nat.mul_le_mul_right _ (Nat.mod_lt x (Nat.two_pow_pos w))
      _ = 2 ^ (lo + w) := by rw [pow_add, mul_comm]
  have hdiv : putBits v lo w x / 2 ^ (lo + w) = v / 2 ^ (lo + w) := by
    rw [putBits, add_assoc, Nat.add_comm, Nat.add_mul_div_right _ _ (by positivity), Nat.div_eq_of_lt hlow, Nat.zero_add]
  rw [bitsOf, bitsOf, ← Nat.add_sub_cancel' h, pow_add, ← Nat.div_div_eq_div_mul, hdiv, Nat.div_div_eq_div_mul]

/-- A write of one field leaves the fields above it in the same register. -/
theorem liveFld_setFld_above {s : State} (h : banksOk s = true) {f g : Field} (hr : g.reg = f.reg) (habove : f.lo + f.width ≤ g.lo)
    (i v : Nat) : liveFld (setFld s f i v) g i = liveFld s g i := by
  have hword : bankReg (bankSet s.live f i v) f.reg i 0 = putBits (bankReg s.live f.reg i 0) f.lo f.width v :=
    bankLookup_bankWrite (live_wf h) _ _
  rw [liveFld, liveFld, bankGet, bankGet, hr]
  exact (congrArg (bitsOf · g.lo g.width) hword).trans (bitsOf_putBits_above habove)

theorem bytesAt_append_length (a b : List Byte) : bytesAt (a ++ b) 0 a.length = a := by
  refine List.ext_getElem (by simp [bytesAt]) fun i _ hi => ?_
  simp [bytesAt, List.getElem?_append_left hi, hi]

theorem bytesAt_append_right (a b : List Byte) (off n : Nat) : bytesAt (a ++ b) (a.length + off) n = bytesAt b off n := by
  simp only [bytesAt, Nat.add_assoc, List.getElem?_append_right (Nat.le_add_right _ _), Nat.add_sub_cancel_left]

/-- Number i of a row of numbers of `w` bytes each. -/
theorem leAt_flatMap_leBytes (w : Nat) (l : List Nat) {i : Nat} (h : i < l.length) :
    leAt (l.flatMap (leBytes w)) (w * i) w = l[i] % 256 ^ w := by
  induction l generalizing i with
  | nil => exact absurd h (Nat.not_lt_zero i)
  | cons x l ih =>
    have hlen : (leBytes w x).length = w := leBytes_len w x
    rw [List.flatMap_cons, leAt]
    cases i with
    | zero =>
      have := bytesAt_append_length (leBytes w x) (l.flatMap (leBytes w))
      rw [hlen] at this
      rw [Nat.mul_zero, this, ofLe_leBytes, List.getElem_cons_zero]
    | succ i =>
      have := bytesAt_append_right (leBytes w x) (l.flatMap (leBytes w)) (w * i) w
      rw [hlen] at this
      rw [Nat.mul_succ, Nat.add_comm, this, List.getElem_cons_succ]
      exact ih (Nat.lt_of_succ_lt_succ h)

theorem leAt_range_leBytes (w : Nat) (g : Nat → Nat) {n i : Nat} (h : i < n) :
    leAt ((List.range n).flatMap fun i => leBytes w (g i)) (w * i) w = g i % 256 ^ w := by
  rw [← List.flatMap_map, leAt_flatMap_leBytes w _ (by simpa using h), List.getElem_map, List.getElem_range]

theorem length_range_leBytes (w : Nat) (g : Nat → Nat) (n : Nat) : ((List.range n).flatMap fun i => leBytes w (g i)).length = w * n := by
  simp [List.length_flatMap, leBytes_len, Nat.mul_comm]

/-- Cutting bytes off behind a number leaves it. -/
theorem leAt_take {bs : List Byte} {n off w : Nat} (h : off + w ≤ n) : leAt (bs.take n) off w = leAt bs off w := by
  refine congrArg ofLe (List.map_congr_left fun i hi => ?_)
  rw [List.getElem?_take_of_lt (by have := List.mem_range.mp hi; omega)]

/-! #### Solutions (R312, R315) -/

theorem HostOnly.colour_eq {s u : State} (h : HostOnly s u) : u.colour = s.colour := by
  unfold HostOnly at h
  rw [← h]

/-- A solution taken from the service cores. -/
def solvingEnded (s : State) : State := setFld { s with colour := { s.colour with solving := none } } Fld.CLP_STATUS_SOLVING 0 0

/-- The counts of a solve's groups begun anew: `n` skipped, none ill-conditioned. -/
def groupsCounted (s : State) (n : Nat) : State :=
  setFld (setFld (setFld s Fld.CLP_GROUPS_GROUPS_SKIPPED 0 0) Fld.CLP_GROUPS_GROUPS_ILL_COND 0 0) Fld.CLP_GROUPS_GROUPS_SKIPPED 0 n

/-- What a solve with no group to solve leaves, but for the blocks to issue. -/
def solvedNone (s : State) : State :=
  raise (doorbell (bump (groupsCounted (solvingEnded s) (ceilDiv columns (groupSize s))) Fld.CLP_SOLVES_SOLVES) 27) 0x0901 0 0

theorem banks_solvingEnded {s : State} (hb : banksOk s = true) : banksOk (solvingEnded s) = true :=
  banks_setFld (s := { s with colour := { s.colour with solving := none } }) hb _ _ _ _

theorem regsKept_solvingEnded {s : State} (hb : banksOk s = true) : regsKept s (solvingEnded s) [regKey .CLP_STATUS 0 0] :=
  regsKept_setFld (s := { s with colour := { s.colour with solving := none } }) (live_wf hb) Fld.CLP_STATUS_SOLVING 0 0 0

theorem banks_groupsCounted {s : State} (hb : banksOk s = true) (n : Nat) : banksOk (groupsCounted s n) = true :=
  banks_setFld (banks_setFld (banks_setFld hb _ _ _ _) _ _ _ _) _ _ _ _

theorem groupsCounted_law {s : State} (hb : banksOk s = true) (n : Nat) :
    liveFld (groupsCounted s n) Fld.CLP_GROUPS_GROUPS_SKIPPED = n % 2 ^ 32 ∧
      liveFld (groupsCounted s n) Fld.CLP_GROUPS_GROUPS_ILL_COND = 0 ∧ regsKept s (groupsCounted s n) [regKey .CLP_GROUPS 0 0] := by
  have hb1 : banksOk (setFld s Fld.CLP_GROUPS_GROUPS_SKIPPED 0 0) = true := banks_setFld hb _ _ _ _
  have hb2 : banksOk (setFld (setFld s Fld.CLP_GROUPS_GROUPS_SKIPPED 0 0) Fld.CLP_GROUPS_GROUPS_ILL_COND 0 0) = true :=
    banks_setFld hb1 _ _ _ _
  refine ⟨liveFld_setFld hb2 Fld.CLP_GROUPS_GROUPS_SKIPPED 0 n 0, ?_, ?_⟩
  · exact (liveFld_setFld_above hb2 (f := Fld.CLP_GROUPS_GROUPS_SKIPPED) (g := Fld.CLP_GROUPS_GROUPS_ILL_COND) rfl (by decide) 0 n).trans
      (liveFld_setFld hb1 Fld.CLP_GROUPS_GROUPS_ILL_COND 0 0 0)
  · exact regsKept_trans (regsKept_setFld (live_wf hb) Fld.CLP_GROUPS_GROUPS_SKIPPED 0 0 0)
      (regsKept_trans (regsKept_setFld (live_wf hb1) Fld.CLP_GROUPS_GROUPS_ILL_COND 0 0 0)
        (regsKept_setFld (live_wf hb2) Fld.CLP_GROUPS_GROUPS_SKIPPED 0 n 0))

theorem solvedNone_law {s : State} (hb : banksOk s = true) :
    liveFld (solvedNone s) Fld.CLP_SOLVES_SOLVES = (liveFld s Fld.CLP_SOLVES_SOLVES + 1) % 2 ^ 32 ∧
      liveFld (solvedNone s) Fld.CLP_GROUPS_GROUPS_SKIPPED = ceilDiv columns (groupSize s) % 2 ^ 32 ∧
      liveFld (solvedNone s) Fld.CLP_GROUPS_GROUPS_ILL_COND = 0 ∧
      regsKept s (solvedNone s) [regKey .CLP_STATUS 0 0, regKey .CLP_GROUPS 0 0, regKey .CLP_SOLVES 0 0, regKey .DB_D2H_STATUS 0 0] := by
  let v := groupsCounted (solvingEnded s) (ceilDiv columns (groupSize s))
  have hbe := banks_solvingEnded hb
  have hbv : banksOk v = true := banks_groupsCounted hbe _
  have hbw : banksOk (bump v Fld.CLP_SOLVES_SOLVES) = true := banks_setFld hbv _ _ _ _
  obtain ⟨hskipped, hill, hgroups⟩ := groupsCounted_law hbe (ceilDiv columns (groupSize s))
  have hv : regsKept s v [regKey .CLP_STATUS 0 0, regKey .CLP_GROUPS 0 0] :=
    regsKept_trans (regsKept_mono (regsKept_solvingEnded hb) (by simp)) (regsKept_mono hgroups (by simp))
  have hbump : regsKept v (bump v Fld.CLP_SOLVES_SOLVES) [regKey .CLP_SOLVES 0 0] :=
    regsKept_setFld (live_wf hbv) Fld.CLP_SOLVES_SOLVES 0 _ 0
  have hbell : regsKept (bump v Fld.CLP_SOLVES_SOLVES) (solvedNone s) [regKey .DB_D2H_STATUS 0 0] :=
    regsKept_doorbell (live_wf hbw) 27
  have hcounts (g : Field) (hg : g.reg = .CLP_GROUPS) : liveFld (solvedNone s) g = liveFld v g :=
    (liveFld_of_kept hbell g 0 0 (by rw [hg]; decide)).trans (liveFld_of_kept hbump g 0 0 (by rw [hg]; decide))
  refine ⟨?_, (hcounts _ rfl).trans hskipped, (hcounts _ rfl).trans hill, ?_⟩
  · rw [liveFld_of_kept hbell _ 0 0 (by decide), liveFld_bump hbv, liveFld_of_kept hv _ 0 0 (by decide)]
    rfl
  · exact regsKept_trans (regsKept_mono hv (by simp)) (regsKept_trans (regsKept_mono hbump (by simp)) (regsKept_mono hbell (by simp)))

theorem execSolveDone_standby {s s0 : State} {t : Nat} {g : List (Nat × Accum)} (h0 : s0 = begin s t) (hcool : throttle s0 < 2)
    (hg : s0.colour.solving = some g) (hrole : s0.pair.role = .standby) : execSolveDone t s = .next (solvingEnded s0) := by
  simp only [execSolveDone, ← h0, if_neg (Nat.not_le.mpr hcool), hg]
  exact congrArg _ (if_pos hrole)

theorem execSolveDone_idle {s s0 : State} {t : Nat} (h0 : s0 = begin s t) (hcool : throttle s0 < 2)
    (hg : s0.colour.solving = none) : execSolveDone t s = .next s0 := by
  simp only [execSolveDone, ← h0, if_neg (Nat.not_le.mpr hcool), hg]

/-- The groups that a solve found ill-conditioned, reported (R312). -/
def illReported (s : State) : State :=
  if liveFld s Fld.CLP_GROUPS_GROUPS_ILL_COND = 0 then s
  else raise (sticky s Fld.CLP_STATUS_ILL_COND) 0x0903 0 (liveFld s Fld.CLP_GROUPS_GROUPS_ILL_COND)

/-- Of each slot, the solved groups that stand at a limit, reported (R312). -/
def limitsReported (s : State) (groups : List Nat) : State :=
  (List.range 8).foldl (fun s i =>
    let k := if slotUsed s i then atLimit s i groups else 0
    if k = 0 then s else raise (sticky s Fld.CLP_STATUS_COEF_LIMIT) 0x0904 i k) s

theorem limitsReported_nil (s : State) : limitsReported s [] = s :=
  foldl_eq_self _ fun i _ => if_pos (ite_self (c := slotUsed s i = true) 0)

theorem execSolveDone_none {s s0 : State} {t : Nat} (hb : banksOk s0 = true) (h0 : s0 = begin s t) (hcool : throttle s0 < 2)
    (hg : s0.colour.solving = some []) (hrole : s0.pair.role ≠ .standby) :
    ∃ issue, execSolveDone t s = .next { solvedNone s0 with
      colour := { (solvedNone s0).colour with issue := issue, thawed := 0 } } := by
  obtain ⟨-, -, hill, -⟩ := solvedNone_law hb
  have hreports : limitsReported (illReported (solvedNone s0)) [] = solvedNone s0 :=
    (limitsReported_nil _).trans (if_pos hill)
  rw [execSolveDone, ← h0, if_neg (Nat.not_le.mpr hcool), hg, ← hreports]
  exact ⟨_, congrArg _ (if_neg hrole)⟩

theorem solvedNone_coefOf {s : State} (hb : banksOk s = true) {c x : Nat} (hc : c < 8192) (hx : x < 131072) :
    coefOf (solvedNone s) c x = coefOf s c x := by
  obtain ⟨-, -, -, hkept⟩ := solvedNone_law hb
  have hne {r : Reg} (hr : Reg.CLP_COEF.ctorIdx ≠ r.ctorIdx) : regKey .CLP_COEF c x ≠ regKey r 0 0 := fun h =>
    hr (regKey_inj hc hx (by decide) (by decide) h).1
  refine liveFld_of_kept hkept Fld.CLP_COEF_COEF c x ?_
  simp only [List.mem_cons, List.not_mem_nil, or_false, not_or]
  exact ⟨hne (by decide), hne (by decide), hne (by decide), hne (by decide)⟩

/-! #### CLP.FREEZE (R321) -/

/-- FREEZE after a message that names bits and their values. -/
def frozenBits (old mask value : Nat) : Nat := (old &&& (65535 ^^^ mask % 65536)) ||| (value % 65536 &&& mask % 65536)

/-- The channels noted as freed since the last solve, once FREEZE reads `new` in place of `old`. -/
def thawedBits (noted old new : Nat) : Nat := (noted ||| old) &&& (65535 ^^^ new)

theorem testBit_65535 {i : Nat} (h : i < 16) : (65535 : Nat).testBit i = true := by
  rw [show (65535 : Nat) = 2 ^ 16 - 1 from rfl, Nat.testBit_two_pow_sub_one]
  simpa using h

theorem testBit_mod_65536 {i : Nat} (h : i < 16) (x : Nat) : (x % 65536).testBit i = x.testBit i := by
  rw [show (65536 : Nat) = 2 ^ 16 from rfl, Nat.testBit_mod_two_pow]
  simp [h]

theorem testBit_frozenBits {i : Nat} (h : i < 16) (old mask value : Nat) :
    (frozenBits old mask value).testBit i = if mask.testBit i then value.testBit i else old.testBit i := by
  simp only [frozenBits, Nat.testBit_or, Nat.testBit_and, Nat.testBit_xor, testBit_65535 h, testBit_mod_65536 h]
  cases mask.testBit i <;> simp

theorem testBit_thawedBits {i : Nat} (h : i < 16) (noted old new : Nat) :
    (thawedBits noted old new).testBit i = ((noted.testBit i || old.testBit i) && !new.testBit i) := by
  simp only [thawedBits, Nat.testBit_or, Nat.testBit_and, Nat.testBit_xor, testBit_65535 h, Bool.true_bne]

theorem frozenBits_lt (old mask value : Nat) : frozenBits old mask value < 2 ^ 16 :=
  Nat.or_lt_two_pow (Nat.and_lt_two_pow _ (Nat.xor_lt_two_pow (by decide) (Nat.mod_lt _ (by decide))))
    (Nat.and_lt_two_pow _ (Nat.mod_lt _ (by decide)))

/-- FREEZE written, and the channels noted that it frees. -/
def freezeWritten (e : State) (mask value : Nat) : State :=
  let v := liveFld e Fld.CLP_FREEZE_FREEZE
  setFld { e with colour := { e.colour with thawed := thawedBits e.colour.thawed v (frozenBits v mask value) } }
    Fld.CLP_FREEZE_FREEZE 0 (frozenBits v mask value)

theorem execClpFreeze_writes {s e : State} {t tag : Nat} {ch : Fin 6} (h : acts (begin s t) ch 6 0x10 tag true false = true)
    (he : e = entered (begin s t) ch 6 0x10 tag) (mask value : Nat) :
    execClpFreeze t ch tag mask value s = .next (answer (freezeWritten e mask value) ch tag true okMsg) := by
  subst he
  exact congrArg _ (message_answers h rfl rfl)

theorem freezeWritten_freeze {e : State} (hb : banksOk e = true) (mask value : Nat) :
    liveFld (freezeWritten e mask value) Fld.CLP_FREEZE_FREEZE = frozenBits (liveFld e Fld.CLP_FREEZE_FREEZE) mask value := by
  refine (bankGet_bankSet (live_wf hb) Fld.CLP_FREEZE_FREEZE 0 _ 0).trans (Nat.mod_eq_of_lt (frozenBits_lt _ _ _))

/-! #### CLP.WHITE_RESET (R307) -/

/-- A port's white references begun anew when the message names it. -/
def whiteReset (ports : Nat) (s : State) (k : Nat) : State :=
  if ports.testBit k then setCam s k fun p => { p with white := [], whiteNo := p.whiteNo + 1 } else s

theorem cam_whiteReset {s : State} {k : Nat} (h : k < s.vision.cams.length) (ports : Nat) :
    cam (whiteReset ports s k) k =
      if ports.testBit k then { cam s k with white := [], whiteNo := (cam s k).whiteNo + 1 } else cam s k := by
  unfold whiteReset
  split
  · exact cam_setCam h _
  · rfl

theorem cam_whiteReset_ne (ports : Nat) (s : State) {j k : Nat} (h : j ≠ k) : cam (whiteReset ports s k) j = cam s j := by
  unfold whiteReset
  split
  · exact cam_setCam_ne s h _
  · rfl

theorem whiteReset_rest (ports : Nat) (s : State) (k : Nat) : { whiteReset ports s k with vision := s.vision } = s := by
  unfold whiteReset
  split <;> rfl

theorem whiteReset_length (ports : Nat) (s : State) (k : Nat) : (whiteReset ports s k).vision.cams.length = s.vision.cams.length := by
  unfold whiteReset
  split
  · exact length_upd _ _ _
  · rfl

theorem execClpWhiteReset_resets {s e : State} {t tag ports : Nat} {ch : Fin 6} (h : acts (begin s t) ch 6 0x11 tag true false = true)
    (he : e = entered (begin s t) ch 6 0x11 tag) (hports : ports < 4) :
    execClpWhiteReset t ch tag ports s = .next (answer (whiteReset ports (whiteReset ports e 0) 1) ch tag true okMsg) := by
  subst he
  exact congrArg _ (message_answers h (if_neg (Nat.not_le.mpr hports)) rfl)

/-- The two ports' resets do not touch each other. -/
theorem cam_whiteReset_both {e : State} (hlen : e.vision.cams.length = 2) (ports : Nat) {k : Nat} (hk : k < 2) :
    cam (whiteReset ports (whiteReset ports e 0) 1) k =
      if ports.testBit k then { cam e k with white := [], whiteNo := (cam e k).whiteNo + 1 } else cam e k := by
  interval_cases k
  · rw [cam_whiteReset_ne ports _ (by decide), cam_whiteReset (by omega)]
  · rw [cam_whiteReset (by rw [whiteReset_length]; omega), cam_whiteReset_ne ports e (by decide)]

/-! #### CLP.LADDER_NOW (R316) -/

theorem execClpLadderNow_places {s e : State} {t tag line : Nat} {ch : Fin 6} (h : acts (begin s t) ch 6 0x12 tag true false = true)
    (he : e = entered (begin s t) ch 6 0x12 tag) (hslot : nextSlot e.sets.active line = some (line : Int))
    (hlines : ladderLines e.sets.active ≠ 0) (hopen : jobOn e = false ∨ unrendered e ≤ line) :
    execClpLadderNow t ch tag line s = .next (answer (placeLadder e line) ch tag true okMsg) := by
  subst he
  refine congrArg _ (message_answers h ((if_neg (not_or.mpr ⟨not_not.mpr hslot, hlines⟩)).trans (if_neg ?_)) rfl)
  rintro ⟨hjob, hlate⟩
  exact hopen.elim (fun hno => by simp [hno] at hjob) fun hle => absurd hlate (not_lt.mpr hle)

theorem execClpLadderNow_late {s e : State} {t tag line : Nat} {ch : Fin 6} (h : acts (begin s t) ch 6 0x12 tag true false = true)
    (he : e = entered (begin s t) ch 6 0x12 tag) (hslot : nextSlot e.sets.active line = some (line : Int))
    (hlines : ladderLines e.sets.active ≠ 0) (hjob : jobOn e = true) (hlate : (line : Int) < unrendered e) :
    execClpLadderNow t ch tag line s = .next (answer e ch tag true (failMsg 12)) := by
  subst he
  exact congrArg _ (message_answers h ((if_neg (not_or.mpr ⟨not_not.mpr hslot, hlines⟩)).trans (if_pos ⟨hjob, hlate⟩)) rfl)

theorem mem_placeLadder_bands (s : State) (line : Int) : (line, ladderLines s.sets.active) ∈ (placeLadder s line).colour.bands := by
  simp [placeLadder]

/-- Placing a ladder leaves the bands of other lines. -/
theorem mem_placeLadder_bands_ne (s : State) {line : Int} {b : Int × Nat} (h : b.1 ≠ line) :
    b ∈ (placeLadder s line).colour.bands ↔ b ∈ s.colour.bands := by
  have hnew : b ≠ (line, ladderLines s.sets.active) := fun hb => h (congrArg Prod.fst hb)
  simp only [placeLadder, List.mem_append, List.mem_filter, List.mem_singleton, decide_eq_true_eq, hnew, or_false, ← and_or_left]
  exact and_iff_left (lt_or_gt_of_ne h)

/-! #### CLP.COEF_SET (R322) -/

theorem mem_coefWrite {c : CfgSet} {channel first count : Nat} {bytes : List Byte} (hlen : bytes.length = 2 * count) {i : Nat}
    (hi : i < count) : (channel, first + i, leAt bytes (2 * i) 2) ∈ (coefWrite channel first bytes c).coef := by
  refine List.mem_append_right _ (List.mem_map.mpr ⟨i, List.mem_range.mpr ?_, rfl⟩)
  omega

/-- A run of coefficients leaves every other coefficient. -/
theorem mem_coefWrite_other {c : CfgSet} {channel first count : Nat} {bytes : List Byte} (hlen : bytes.length = 2 * count)
    {ch g v : Nat} (h : ¬ (ch = channel ∧ first ≤ g ∧ g < first + count)) :
    (ch, g, v) ∈ (coefWrite channel first bytes c).coef ↔ (ch, g, v) ∈ c.coef := by
  have hn : bytes.length / 2 = count := by omega
  have hkeep : (!((ch == channel) && decide (first ≤ g) && decide (g < first + count))) = true := by
    rw [Bool.not_eq_true', Bool.eq_false_iff]
    simpa [and_assoc] using h
  have hnew : ¬ ∃ i < count, (channel, first + i, leAt bytes (2 * i) 2) = (ch, g, v) := by
    rintro ⟨i, hi, heq⟩
    simp only [Prod.mk.injEq] at heq
    exact h ⟨heq.1.symm, by omega, by omega⟩
  simp only [coefWrite, hn, List.mem_append, List.mem_filter, List.mem_map, List.mem_range, hkeep, and_true, hnew, or_false]

theorem actLoad_writes {e : State} {bad ref : Bool} {x : TableLoad} {data : DataRef} (hswap : e.sets.swap = none) (hgood : bad = false)
    (hinline : ref = false → data.bytes.length = x.length) (hread : ref = true → e.sys.ethernet = false ∧ data.fail = 0) :
    actLoad bad ref x data e = (setShadow e (loadWrite x (if ref then refBytes data else data.bytes)), okMsg) := by
  unfold actLoad
  rw [if_neg (by simp [hswap]), if_neg (by simp [hgood])]
  cases ref with
  | false => simp [hinline rfl, okMsg]
  | true => simp [hread rfl, okMsg]

theorem actLoad_awaits {e : State} {bad : Bool} {x : TableLoad} {data : DataRef} (hswap : e.sets.swap = none) (hgood : bad = false)
    (heth : e.sys.ethernet = true) :
    actLoad bad true x data e = ({ e with host := { e.host with
      tables := e.host.tables ++ [x]
      transfers := e.host.transfers ++ [{ num := data.transfer, length := data.length }] } }, ⟨0, 0, [], true⟩) := by
  unfold actLoad
  rw [if_neg (by simp [hswap]), if_neg (by simp [hgood]), if_neg (by simp), if_pos ⟨rfl, heth⟩]

/-- Whether a CLP.COEF_SET names no channel, runs past the groups, or refers to less data than it needs. -/
def coefBad (channel first count : Nat) (ref : Bool) (data : DataRef) : Bool :=
  decide (16 ≤ channel) || decide (53248 < first + count) || (ref && decide (data.length < 2 * count))

theorem coefBad_eq_false {channel first count : Nat} {ref : Bool} {data : DataRef} (hchannel : channel < 16)
    (hrun : first + count ≤ 53248) (hdata : ref = true → 2 * count ≤ data.length) : coefBad channel first count ref data = false := by
  simp only [coefBad, Bool.or_eq_false_iff, Bool.and_eq_false_imp, decide_eq_false_iff_not]
  exact ⟨⟨by omega, by omega⟩, fun href => Nat.not_lt.mpr (hdata href)⟩

/-- The coefficients of a CLP.COEF_SET put into the shadow set. -/
def coefsSet (e : State) (channel first count : Nat) (bytes : List Byte) : State :=
  setShadow e (coefWrite channel first (bytes.take (2 * count)))

theorem execClpCoefSet_writes {s e : State} {t tag channel first count : Nat} {ch : Fin 6} {ref : Bool} {data : DataRef}
    (h : acts (begin s t) ch 6 0x13 tag true false = true) (he : e = entered (begin s t) ch 6 0x13 tag) (hswap : e.sets.swap = none)
    (hgood : coefBad channel first count ref data = false) (hinline : ref = false → data.bytes.length = 2 * count)
    (hread : ref = true → e.sys.ethernet = false ∧ data.fail = 0) :
    execClpCoefSet t ch tag channel first count ref data s =
      .next (answer (coefsSet e channel first count (if ref then refBytes data else data.bytes)) ch tag true okMsg) := by
  subst he
  exact congrArg _ (message_answers h (actLoad_writes hswap hgood hinline hread) rfl)

theorem execClpCoefSet_awaits {s e : State} {t tag channel first count : Nat} {ch : Fin 6} {data : DataRef}
    (h : acts (begin s t) ch 6 0x13 tag true false = true) (he : e = entered (begin s t) ch 6 0x13 tag) (hswap : e.sets.swap = none)
    (hgood : coefBad channel first count true data = false) (heth : e.sys.ethernet = true) :
    execClpCoefSet t ch tag channel first count true data s = .next { e with host := { e.host with
      tables := e.host.tables ++ [⟨ch, tag, 5, channel, first, 2 * count, data.transfer⟩]
      transfers := e.host.transfers ++ [{ num := data.transfer, length := data.length }] } } := by
  subst he
  exact congrArg _ (message_later h (actLoad_awaits hswap hgood heth) rfl)

theorem length_refBytes (d : DataRef) : (refBytes d).length = d.length := by
  simp only [refBytes, List.length_take, List.length_append, List.length_replicate]
  omega

/-- The data of a run of coefficients reaches to its last one. -/
theorem length_take_coefData {ref : Bool} {data : DataRef} {count : Nat} (hinline : ref = false → data.bytes.length = 2 * count)
    (hdata : ref = true → 2 * count ≤ data.length) :
    ((if ref then refBytes data else data.bytes).take (2 * count)).length = 2 * count := by
  rw [List.length_take]
  cases ref with
  | false => simp [hinline rfl]
  | true => simpa [length_refBytes] using hdata rfl

/-! #### CLP.READ_COEF (R323) -/

/-- An entry that CLP.READ_COEF returns: a coefficient, a delta or a base gain. -/
def coefEntry (s : State) (kind index g : Nat) : Nat :=
  match kind with
  | 0 => coefOf s index g
  | 1 => liveFld s Fld.CLP_DELTA_DELTA index g
  | _ => bitsOf (baseEntry s index g) 0 8

theorem execClpReadCoef_reads {s e : State} {t tag kind index first count : Nat} {ch : Fin 6}
    (h : acts (begin s t) ch 6 0x14 tag false false = true) (he : e = entered (begin s t) ch 6 0x14 tag) (hkind : kind ≤ 2)
    (hcount : count ≤ 112) (hindex : index < if kind = 1 then 8 else 16) :
    execClpReadCoef t ch tag kind index first count s = .next (answer e ch tag false
      (okMsg ((List.range count).flatMap fun i => leBytes 2 (coefEntry e kind index (first + i))))) := by
  subst he
  have hgood : ¬ (2 < kind ∨ 112 < count ∨ (if kind = 1 then 8 else 16) ≤ index) := by omega
  refine congrArg _ (message_answers h (congrArg (Prod.mk _) ((if_neg hgood).trans ?_)) rfl)
  match kind with
  | 0 => rfl
  | 1 => rfl
  | _ + 2 => rfl

/-! #### The statement -/

/-- Settles O35: a solve without groups writes only its counts, which lie beside the coefficients; each message is the law of what it
changes, answered. -/
theorem colourLoop : Obligations.ColourLoop := by
  intro s t hb s0
  have hb0 : banksOk s0 = true := banks_begin hb t
  refine ⟨fun g => execSolveDone_standby rfl, execSolveDone_idle rfl, ?none, ?freeze, ?white, ?ladder, ?set, ?read⟩
  case none =>
    intro hcool hg hrole
    obtain ⟨hsolves, hskipped, -, -⟩ := solvedNone_law hb0
    obtain ⟨issue, hexec⟩ := execSolveDone_none hb0 rfl hcool hg hrole
    refine ⟨_, hexec, ?_, hsolves, hskipped, fun c x hc hx => solvedNone_coefOf hb0 hc hx⟩
    exact (congrArg ColourSt.solving (HostOnly.colour_eq (hostOnly_doorbell _ 27)) :)
  case freeze =>
    intro ch tag mask value e h he
    have hbe : banksOk e = true := by rw [he]; exact banks_entered hb0 ch 6 0x10 tag
    have hfreeze := freezeWritten_freeze hbe mask value
    refine ⟨_, execClpFreeze_writes h he mask value, rfl, rfl, ?_, fun i hi => ?_, fun i hi => ?_⟩
    · exact regsKept_setFld (live_wf hbe) Fld.CLP_FREEZE_FREEZE 0 _ 0
    · rw [hfreeze]
      exact testBit_thawedBits hi _ _ _
    · rw [hfreeze]
      exact testBit_frozenBits hi _ _ _
  case white =>
    intro ch tag ports e h he hports hlen
    refine ⟨_, execClpWhiteReset_resets h he hports, fun k => cam_whiteReset_both hlen ports, ?_⟩
    exact (congrArg (fun x : State => { x with vision := e.vision }) (whiteReset_rest ports (whiteReset ports e 0) 1)).trans
      (whiteReset_rest ports e 0)
  case ladder =>
    intro ch tag line e h he hslot hlines
    refine ⟨fun hopen => ?_, execClpLadderNow_late h he hslot hlines⟩
    exact ⟨_, execClpLadderNow_places h he hslot hlines hopen, mem_placeLadder_bands e line, rfl,
      fun b => mem_placeLadder_bands_ne e, rfl⟩
  case set =>
    rintro ch tag channel first count ref data e bytes h he hswap hchannel hrun rfl hinline hread
    have hgood : coefBad channel first count ref data = false := coefBad_eq_false hchannel hrun fun href => (hread href).1
    have hlen := length_take_coefData hinline fun href => (hread href).1
    refine ⟨fun hpcie => ?_, ?_⟩
    · refine ⟨_, execClpCoefSet_writes h he hswap hgood hinline fun href => ⟨hpcie.resolve_left (by simp [href]), (hread href).2⟩,
        rfl, fun i hi => ?_, fun c g v => mem_coefWrite_other hlen, rfl, rfl⟩
      rw [← leAt_take (n := 2 * count) (by omega)]
      exact mem_coefWrite hlen hi
    · rintro rfl heth
      exact execClpCoefSet_awaits h he hswap hgood heth
  case read =>
    intro ch tag kind index first count e h he hkind hcount hindex
    refine ⟨_, execClpReadCoef_reads h he hkind hcount hindex, length_range_leBytes 2 _ count, ?_⟩
    rintro rfl i hi
    exact leAt_range_leBytes 2 _ hi

end Sys2Proof.Laws

/-! ### What a standby refuses (10_pairing R341) -/

namespace Sys2Proof.Laws

open Sys2Proof Sys2Proof.Machine

theorem HostOnly.pair_eq {s u : State} (h : HostOnly s u) : u.pair = s.pair := by
  unfold HostOnly at h
  rw [← h]

/-- A channel changed into what it is leaves the state. -/
theorem setMbx_eq_self {s : State} {k : Nat} {f : Mbx → Mbx} (h : f (mbx s k) = mbx s k) : setMbx s k f = s := by
  have hchans : upd s.host.chans k f = s.host.chans := by
    refine List.ext_getElem? fun i => ?_
    rw [upd, List.getElem?_modify]
    by_cases hi : k = i
    · subst hi
      unfold mbx nth at h
      cases hk : s.host.chans[k]? with
      | none => rfl
      | some m =>
        rw [hk] at h
        simpa using h
    · simp [hi]
  rw [setMbx, hchans]

/-- Taking a message leaves the pairing state. -/
theorem entered_pair (s : State) (k cls op tag : Nat) : (entered s k cls op tag).pair = s.pair := by
  have htouch (v : State) : (touchSec v k).pair = v.pair := by
    unfold touchSec
    split <;> rfl
  show (takenState s k cls op tag).pair = s.pair
  unfold takenState
  split
  · exact htouch (setMbx s k _)
  · exact htouch s

/-- Settles O14: a channel that compares no records goes straight to the role's refusal. -/
theorem standbyDeniesChanges : Obligations.StandbyDeniesChanges := by
  intro s k tag act hrole hcompare
  have hself : setMbx s k (fun m => { m with comparing := false }) = s := setMbx_eq_self (by rw [← hcompare])
  unfold runMessage
  dsimp only
  rw [hcompare, if_neg (by decide), hself]
  exact if_pos ⟨rfl, hrole, rfl⟩

end Sys2Proof.Laws

/-! ### The messages of class PAIR (10_pairing R329, R357, R364, R369; 12_commands_and_sets R442) -/

namespace Sys2Proof.Laws

open Sys2Proof Sys2Proof.Machine

theorem pairMessage_paired {s : State} (h : s.pair.role ≠ .solo) (act : State → State × MsgRes) : pairMessage act s = act s := if_neg h

theorem pairMessage_solo {s : State} (h : s.pair.role = .solo) (act : State → State × MsgRes) : pairMessage act s = (s, failMsg 13) :=
  if_pos h

/-- On a SOLO unit a message of the pair is refused, whatever its action is (R329). -/
theorem message_solo {s : State} {k op tag : Nat} (h : acts s k 9 op tag true true = true) (hrole : s.pair.role = .solo)
    (act : State → State × MsgRes) :
    message s k 9 op tag true true (pairMessage act) = answer (entered s k 9 op tag) k tag true (failMsg 13) :=
  message_answers h (pairMessage_solo (by rw [entered_pair, hrole]) act) rfl

/-! #### PAIR_CONFIG -/

/-- PAIR_CTRL with the bits that a mask names taken from a value. -/
def ctrlMixed (e : State) (value mask : Nat) : Nat :=
  let old := bankReg e.live .PAIR_CTRL 0 0
  let m := mask % 2 ^ 24
  (old - (old &&& m)) + (value &&& m)

theorem execPairConfig_writes {s e : State} {t tag : Nat} {ch : Fin 6} (h : acts (begin s t) ch 9 0x11 tag true true = true)
    (he : e = entered (begin s t) ch 9 0x11 tag) (hrole : e.pair.role ≠ .solo) (value mask : Nat) :
    execPairConfig t ch tag value mask s = .next (
      if ∀ f ∈ regFields .PAIR_CTRL, fieldValueOk f (bitsOf (ctrlMixed e value mask) f.lo f.width) = true then
        answer { e with live := bankWrite e.live (regKey .PAIR_CTRL 0 0) (ctrlMixed e value mask) } ch tag true okMsg
      else answer e ch tag true (failMsg 4)) := by
  subst he
  split
  next hgood =>
    exact congrArg _ (message_answers h ((pairMessage_paired hrole _).trans (if_pos (List.all_eq_true.mpr hgood))) rfl)
  next hbad =>
    exact congrArg _ (message_answers h ((pairMessage_paired hrole _).trans (if_neg (mt List.all_eq_true.mp hbad))) rfl)

/-! #### PAIR_HANDOVER -/

section Handover

variable {s e : State} {t tag lead : Nat} {ch : Fin 6} (h : acts (begin s t) ch 9 0x12 tag true true = true)
  (he : e = entered (begin s t) ch 9 0x12 tag) (hrole : e.pair.role ≠ .solo)
include h he hrole

theorem execPairHandover_short (hlead : lead < 4) : execPairHandover t ch tag lead s = .next (answer e ch tag true (failMsg 4)) := by
  subst he
  exact congrArg _ (message_answers h ((pairMessage_paired hrole _).trans (if_pos hlead)) rfl)

theorem execPairHandover_state (hlead : 4 ≤ lead)
    (hstate : e.pair.role ≠ .active ∨ e.pair.lease = false ∨ e.pair.handover.isSome = true) :
    execPairHandover t ch tag lead s = .next (answer e ch tag true (failMsg 5)) := by
  subst he
  refine congrArg _ (message_answers h ((pairMessage_paired hrole _).trans ?_) rfl)
  rw [if_neg (Nat.not_lt.mpr hlead)]
  exact if_pos (by simpa only [Bool.not_eq_true'] using hstate)

theorem execPairHandover_unready (hlead : 4 ≤ lead) (hactive : e.pair.role = .active) (hlease : e.pair.lease = true)
    (hnone : e.pair.handover = none) (hready : e.pair.partnerReady = false) :
    execPairHandover t ch tag lead s = .next (answer e ch tag true (failMsg 13)) := by
  subst he
  refine congrArg _ (message_answers h ((pairMessage_paired hrole _).trans ?_) rfl)
  rw [if_neg (Nat.not_lt.mpr hlead), if_neg (by simp [hactive, hlease, hnone])]
  exact if_pos (by simp [hready])

theorem execPairHandover_offers (hlead : 4 ≤ lead) (hactive : e.pair.role = .active) (hlease : e.pair.lease = true)
    (hnone : e.pair.handover = none) (hready : e.pair.partnerReady = true) :
    execPairHandover t ch tag lead s = .next { e with pair := { e.pair with
      handover := some (e.time.pick + lead), handPick := e.time.pick, handHub := none, handMsg := some (ch.val, tag) } } := by
  subst he
  refine congrArg _ (message_later h (r := ⟨0, 0, [], true⟩) ((pairMessage_paired hrole _).trans ?_) rfl)
  rw [if_neg (Nat.not_lt.mpr hlead), if_neg (by simp [hactive, hlease, hnone])]
  exact if_neg (by simp [hready])

end Handover

/-! #### PAIR_RESYNC -/

/-- A stage of resynchronisation below 5 begins (R364): its number, event 0x0B0B, doorbell 29, and the request for its data. -/
theorem startStage_asks (s : State) {n : Nat} (hn : n < 5) :
    (startStage s n).pair = { s.pair with stage := n } ∧
      (s.thm.tripped = false → (startStage s n).out.getLast? = some (.peer (.resync n))) ∧
      (startStage s n).host.queued = s.host.queued ++ [⟨now s, 0x0B0B, unitNo s, n⟩] ∧
      { startStage s n with pair := s.pair, host := s.host, live := s.live, out := s.out } = s := by
  let a := raise { s with pair := { s.pair with stage := n } } 0x0B0B (unitNo s) n
  have hhost : HostOnly a (doorbell a 29) := hostOnly_doorbell a 29
  obtain ⟨os, hos⟩ := toPeer_emitsOnly (doorbell a 29) (.resync n)
  have hstage : startStage s n = toPeer (doorbell a 29) (.resync n) := if_pos hn
  have hpair : (doorbell a 29).pair = a.pair := HostOnly.pair_eq hhost
  have hqueued : (doorbell a 29).host.queued = a.host.queued := queued_doorbell a 29
  have harg : n % 2 ^ 32 = n := Nat.mod_eq_of_lt (by omega)
  refine ⟨?pair, fun htrip => ?out, ?queued, ?rest⟩
  case pair => rw [hstage, hos]; exact hpair
  case out =>
    have htrip' : (doorbell a 29).thm.tripped = false := (congrArg ThmSt.tripped (HostOnly.thm_eq hhost)).trans htrip
    rw [hstage, toPeer_emits htrip']
    exact List.getLast?_concat
  case queued =>
    rw [hstage, hos]
    refine hqueued.trans ?_
    rw [← harg]
    rfl
  case rest =>
    rw [hstage, hos]
    exact congrArg (fun x : State => { x with pair := s.pair, host := s.host, live := s.live, out := s.out }) hhost

theorem execPairResync_restarts {s e : State} {t tag : Nat} {ch : Fin 6} (h : acts (begin s t) ch 9 0x13 tag true true = true)
    (he : e = entered (begin s t) ch 9 0x13 tag) (hrole : e.pair.role = .standby) :
    execPairResync t ch tag s = .next (answer (startResync e) ch tag true okMsg) := by
  subst he
  exact congrArg _ (message_answers h ((pairMessage_paired (by rw [hrole]; decide) _).trans (if_pos hrole)) rfl)

theorem execPairResync_active {s e : State} {t tag : Nat} {ch : Fin 6} (h : acts (begin s t) ch 9 0x13 tag true true = true)
    (he : e = entered (begin s t) ch 9 0x13 tag) (hrole : e.pair.role = .active) :
    execPairResync t ch tag s = .next (answer e ch tag true (failMsg 5)) := by
  subst he
  exact congrArg _ (message_answers h
    ((pairMessage_paired (by rw [hrole]; decide) _).trans (if_neg (by rw [hrole]; decide))) rfl)

/-! #### PAIR_CLEAR -/

/-- The bits of a mask taken out of a word. -/
theorem testBit_sub_and (v m b : Nat) : (v - (v &&& m)).testBit b = (v.testBit b && !m.testBit b) := by
  have hmix := testBit_mix b v m 0
  rw [Nat.zero_and, Nat.add_zero, Nat.zero_testBit] at hmix
  rw [hmix]
  cases m.testBit b <;> simp

theorem testBit_foldl_spared (key w1c b : Nat) (l : List (Nat × Nat)) (v : Nat) :
    (l.foldl (fun v x => if x.1 = key then v - (v &&& (x.2 &&& w1c)) else v) v).testBit b =
      (v.testBit b && !(w1c.testBit b && l.any fun x => x.1 == key && x.2.testBit b)) := by
  induction l generalizing v with
  | nil => simp
  | cons x l ih =>
    rw [List.foldl_cons, ih, List.any_cons]
    by_cases hx : x.1 = key
    · rw [if_pos hx, testBit_sub_and, Nat.testBit_and]
      simp only [hx, beq_self_eq_true, Bool.true_and]
      cases v.testBit b <;> cases w1c.testBit b <;> simp
    · simp only [if_neg hx, beq_eq_false_iff_ne.mpr hx, Bool.false_and, Bool.false_or]

/-- The bits that a write of the cycle under way does not clear are those that the module has set in it (R5). -/
theorem testBit_spared (s : State) (key n v b : Nat) :
    (spared s key (2 ^ n - 1) (v % 2 ^ n)).testBit b = ((v % 2 ^ n).testBit b && !noted s key b) := by
  unfold spared noted
  by_cases htick : s.host.setTick = s.time.counter
  · rw [if_pos htick, testBit_foldl_spared, Nat.testBit_two_pow_sub_one, Nat.testBit_mod_two_pow]
    by_cases hb : b < n <;> simp [hb, htick]
  · simp [htick]

/-- PAIR_STATUS after the bits that PAIR_CLEAR names are cleared. -/
def statusCleared (e : State) (bits : Nat) : State :=
  let v := bankReg e.live .PAIR_STATUS 0 0
  let b := spared e (regKey .PAIR_STATUS 0 0) (2 ^ 16 - 1) (bits % 2 ^ 16)
  { e with live := bankWrite e.live (regKey .PAIR_STATUS 0 0) (v - (v &&& b)) }

theorem execPairClear_clears {s e : State} {t tag : Nat} {ch : Fin 6} (h : acts (begin s t) ch 9 0x14 tag true true = true)
    (he : e = entered (begin s t) ch 9 0x14 tag) (hrole : e.pair.role ≠ .solo) (bits : Nat) :
    execPairClear t ch tag bits s = .next (answer (statusCleared e bits) ch tag true okMsg) := by
  subst he
  exact congrArg _ (message_answers h (pairMessage_paired hrole _) rfl)

theorem testBit_statusCleared {e : State} (hb : banksOk e = true) (bits b : Nat) :
    (bankReg (statusCleared e bits).live .PAIR_STATUS 0 0).testBit b = ((bankReg e.live .PAIR_STATUS 0 0).testBit b &&
      (!(bits % 2 ^ 16).testBit b || noted e (regKey .PAIR_STATUS 0 0) b)) := by
  refine (congrArg (Nat.testBit · b) (bankLookup_bankWrite (live_wf hb) _ _)).trans ?_
  rw [testBit_sub_and, testBit_spared]
  simp

/-! #### The statement -/

/-- Settles O41: on a unit of a pair each message takes the branch of its checks; on a SOLO unit all but PAIR_STATUS are refused. -/
theorem pairMessages : Obligations.PairMessages := by
  intro s t ch tag hb s0
  have hb0 : banksOk s0 = true := banks_begin hb t
  refine ⟨?status, ?config, ?handover, ?resync, ?clear, ?solo⟩
  case status =>
    rintro e h rfl
    exact congrArg _ (message_answers h rfl rfl)
  case config =>
    intro value mask e h he hrole
    exact ⟨ctrlMixed e value mask, fun b => testBit_mix b _ _ _, execPairConfig_writes h he hrole value mask⟩
  case handover =>
    intro lead e h he hrole
    exact ⟨execPairHandover_short h he hrole, execPairHandover_state h he hrole, execPairHandover_unready h he hrole,
      execPairHandover_offers h he hrole⟩
  case resync =>
    intro e h he
    refine ⟨fun hrole => ?_, execPairResync_active h he⟩
    obtain ⟨hpair, hout, hqueued, hrest⟩ :=
      startStage_asks { e with pair := { e.pair with synced := false, matchRun := 0 } } (n := 1) (by decide)
    refine ⟨_, execPairResync_restarts h he hrole, hpair, hout, hqueued, ?_⟩
    exact congrArg (fun x : State => { x with pair := e.pair }) hrest
  case clear =>
    intro bits e h he hrole
    have hbe : banksOk e = true := by rw [he]; exact banks_entered hb0 ch 9 0x14 tag
    exact ⟨_, execPairClear_clears h he hrole bits, testBit_statusCleared hbe bits,
      fun k hk => bankLookup_bankWrite_ne (live_wf hbe) _ (by simpa using hk), rfl⟩
  case solo =>
    intro value mask lead bits hrole
    exact ⟨fun h => congrArg _ (message_solo h hrole _), fun h => congrArg _ (message_solo h hrole _),
      fun h => congrArg _ (message_solo h hrole _), fun h => congrArg _ (message_solo h hrole _)⟩

end Sys2Proof.Laws

/-! ### What the notice of a bit leaves alone on the host interface (11_control_interface R375, R377, R379, R396) -/

namespace Sys2Proof.Laws

open Sys2Proof Sys2Proof.Machine

/-- On the host interface nothing has changed but what notices use: datagrams, interrupts, and the bits noted as set (R5). -/
def NoticesOnly (s u : State) : Prop :=
  { u.host with
    session := s.host.session, dgSeq := s.host.dgSeq, irqSent := s.host.irqSent, irqDue := s.host.irqDue,
    setTick := s.host.setTick, setNow := s.host.setNow } = s.host

theorem NoticesOnly.refl (s : State) : NoticesOnly s s := rfl

theorem NoticesOnly.trans {a b c : State} (h : NoticesOnly a b) (k : NoticesOnly b c) : NoticesOnly a c := by
  have hc := congrArg (fun x : HostIf => { x with
    session := a.host.session, dgSeq := a.host.dgSeq, irqSent := a.host.irqSent, irqDue := a.host.irqDue,
    setTick := a.host.setTick, setNow := a.host.setNow }) k
  exact Eq.trans hc h

theorem NoticesOnly.ite {s u v : State} {p : Prop} [Decidable p] (hu : NoticesOnly s u) (hv : NoticesOnly s v) :
    NoticesOnly s (if p then u else v) := by
  split <;> assumption

theorem NoticesOnly.locks {s u : State} (h : NoticesOnly s u) : u.host.locks = s.host.locks := (congrArg HostIf.locks h :)

theorem noticesOnly_sendDatagram (s : State) (kind chan : Nat) (body : List Byte) : NoticesOnly s (sendDatagram s kind chan body) := by
  unfold sendDatagram
  split <;> rfl

theorem noticesOnly_sendNotify (s : State) : NoticesOnly s (sendNotify s) := by
  let v : State := { s with host := { s.host with session := s.host.session.map fun x => { x with notify := some (now s) } } }
  have hv : NoticesOnly s v := rfl
  exact hv.trans (noticesOnly_sendDatagram v _ _ _)

theorem noticesOnly_raiseIrq (s : State) (v : Nat) : NoticesOnly s (raiseIrq s v) := by
  unfold raiseIrq
  exact .ite rfl rfl

theorem noticesOnly_notifyBit (s : State) (n : Nat) : NoticesOnly s (notifyBit s n) := by
  unfold notifyBit
  extract_lets u
  have hu : NoticesOnly s u := .ite (noticesOnly_sendNotify s) (.refl s)
  refine .ite hu ?_
  split
  · exact hu.trans (noticesOnly_raiseIrq u _)
  · exact hu

theorem noticesOnly_doorbell (s : State) (n : Nat) : NoticesOnly s (doorbell s n) := by
  unfold doorbell
  extract_lets u st v
  have hu : NoticesOnly s u := rfl
  have hv : NoticesOnly s v := rfl
  exact .ite hu (.ite hv (hv.trans (noticesOnly_notifyBit v n)))

theorem noticesOnly_setSummary (s : State) (k : Nat) : NoticesOnly s (setSummary s k) := by
  unfold setSummary
  extract_lets u v w
  have hu : NoticesOnly s u := .ite (.refl s) rfl
  have hw : NoticesOnly s w := hu
  exact .ite hu (.ite hw (hw.trans (noticesOnly_doorbell w 19)))

theorem noticesOnly_sticky (s : State) (f : Field) (i b : Nat) : NoticesOnly s (sticky s f i b) := by
  unfold sticky
  extract_lets u v w
  have hu : NoticesOnly s u := rfl
  have hw : NoticesOnly s w := rfl
  exact .ite hu (.ite hw (hw.trans (noticesOnly_setSummary w _)))

end Sys2Proof.Laws

/-! ### The paths to the partner and the lease (10_pairing R333, R334, R346 to R348, R361, R362; 11_control_interface R400) -/

namespace Sys2Proof.Laws

open Sys2Proof Sys2Proof.Machine

/-! #### Degraded operation (R361) -/

theorem degrade_reported {s : State} (hb : banksOk s = true) {which : Nat} (h : which < 2 ^ 32) :
    Reported s (degrade s which) Fld.PAIR_STATUS_DEGRADED 0 0 ⟨now s, 0x0B06, unitNo s, which⟩ :=
  reported (live_wf hb) (by decide) (by decide) (by decide) (by decide) (Nat.mod_eq_of_lt h)

/-! #### The peer link lost (R333, R400) -/

/-- The peer link down, the locks of its master free, and the unit degraded for it. -/
def linkGone (s : State) : State :=
  let a := releaseLocks { s with pair := { s.pair with peerUp := false } } 2
  { a with pair := { a.pair with degPeer := true } }

theorem execPeerLinkLost_degrades {s s0 : State} {t : Nat} (h0 : s0 = begin s t) (hcap : s0.pair.capable = true)
    (hup : s0.pair.peerUp = true) (hlost : s0.pair.peerLast + 200000 ≤ now s0) (halive : now s0 < s0.pair.hbLast + 200000) :
    ∃ p, execPeerLinkLost t s = .next { degrade (linkGone s0) 1 with pair := p } ∧ p.peerUp = false ∧ p.degPeer = true ∧
      p.role = s0.pair.role ∧ (s0.pair.role = .standby → p.synced = false ∧ p.stage = 0) := by
  have hpair : (degrade (linkGone s0) 1).pair = (linkGone s0).pair :=
    HostOnly.pair_eq ((hostOnly_sticky (linkGone s0) _ _ _).trans (hostOnly_raise _ _ _ _))
  have hexec : execPeerLinkLost t s = .next (
      let d := degrade (linkGone s0) 1
      if d.pair.role = .standby then { d with pair := { d.pair with synced := false, stage := 0 } }
      else { d with pair := { d.pair with partnerSynced := false, partnerReady := false } }) := by
    subst h0
    refine congrArg _ ((if_neg ?_).trans (if_pos halive))
    simp only [hcap, hup, Bool.not_true, Bool.false_eq_true, false_or, Nat.not_lt]
    exact hlost
  by_cases hrole : s0.pair.role = .standby
  · refine ⟨_, hexec.trans (congrArg _ (if_pos ?_)), ?_⟩ <;> rw [hpair]
    · exact hrole
    · exact ⟨rfl, rfl, rfl, fun _ => ⟨rfl, rfl⟩⟩
  · refine ⟨_, hexec.trans (congrArg _ (if_neg ?_)), ?_⟩ <;> rw [hpair]
    · exact hrole
    · exact ⟨rfl, rfl, rfl, fun h => absurd h hrole⟩

theorem nth_map {α β : Type} (f : α → β) (l : List α) (i : Nat) (d : α) : nth (l.map f) i (f d) = f (nth l i d) := by
  unfold nth
  rw [List.getElem?_map, Option.getD_map]

/-! #### The heartbeat (R334, R362) -/

theorem execHeartbeatInEdge_ends {s s0 : State} {t : Nat} (h0 : s0 = begin s t) (hcap : s0.pair.capable = true) :
    ∃ u, execHeartbeatInEdge t s = .next u ∧
      u.pair = { s0.pair with hbOk := true, hbLast := now s0, degHb := false, partnerLost := false } ∧
      u.host = { s0.host with queued := s0.host.queued ++ if s0.pair.degHb then [⟨now s0, 0x0B07, unitNo s0, 2⟩] else [] } ∧
      { u with pair := s0.pair, host := s0.host } = s0 := by
  have hserves : ¬ (!s0.pair.capable) = true := by simp [hcap]
  unfold execHeartbeatInEdge
  rw [← h0]
  dsimp only
  rw [if_neg hserves]
  refine ⟨_, rfl, ?_⟩
  cases s0.pair.degHb with
  | true => exact ⟨rfl, rfl, rfl⟩
  | false => exact ⟨rfl, by simp, rfl⟩

section Static

variable {s s0 : State} {t : Nat} (h0 : s0 = begin s t) (hcap : s0.pair.capable = true) (hok : s0.pair.hbOk = true)
  (hlate : s0.pair.hbLast + 200000 ≤ now s0)
include h0 hcap hok hlate

theorem execHeartbeatStatic_past : execHeartbeatStatic t s = .next (
    if s0.pair.peerUp = true ∧ now s0 < s0.pair.peerLast + 100000 then
      degrade { s0 with pair := { s0.pair with hbOk := false, degHb := true } } 2
    else { s0 with pair := { s0.pair with hbOk := false } }) := by
  subst h0
  refine congrArg _ (if_neg ?_)
  simp only [hcap, hok, Bool.not_true, Bool.false_eq_true, false_or, Nat.not_lt]
  exact hlate

theorem execHeartbeatStatic_degrades (hup : s0.pair.peerUp = true) (hlast : now s0 < s0.pair.peerLast + 100000) :
    execHeartbeatStatic t s = .next (degrade { s0 with pair := { s0.pair with hbOk := false, degHb := true } } 2) := by
  rw [execHeartbeatStatic_past h0 hcap hok hlate, if_pos ⟨hup, hlast⟩]

theorem execHeartbeatStatic_alone (halone : s0.pair.peerUp = false ∨ s0.pair.peerLast + 100000 ≤ now s0) :
    execHeartbeatStatic t s = .next { s0 with pair := { s0.pair with hbOk := false } } := by
  rw [execHeartbeatStatic_past h0 hcap hok hlate, if_neg]
  rintro ⟨hup, hlast⟩
  exact halone.elim (fun h => absurd (hup.symm.trans h) (by decide)) (Nat.not_le.mpr hlast)

end Static

/-! #### The partner lost (R362) -/

/-- The unit prints on without its partner. -/
def aloneNow (s : State) : State :=
  { s with pair := { s.pair with partnerLost := true, partnerSynced := false, partnerReady := false } }

/-- The partner's loss reported. -/
def aloneReported (s : State) : State :=
  raise (sticky (aloneNow s) Fld.PAIR_STATUS_PARTNER_LOST) 0x0B08 (unitNo s) s.pair.ackPick

theorem execPartnerLost_reports {s s0 : State} {t : Nat} (h0 : s0 = begin s t) (hrole : s0.pair.role = .active)
    (hlease : s0.pair.lease = true) (hnew : s0.pair.partnerLost = false) (hack : s0.pair.ackAt + 200000 ≤ now s0)
    (hbeat : s0.pair.hbLast + 200000 ≤ now s0) :
    execPartnerLost t s = .next (releaseHeld (aloneReported s0) true (aloneReported s0).time.pick) := by
  have hback : ¬ (s0.pair.role ≠ .active ∨ (!s0.pair.lease) = true ∨ s0.pair.partnerLost = true ∨
      now s0 < s0.pair.ackAt + twoPicks ∨ now s0 < s0.pair.hbLast + twoPicks) := by
    simp only [hrole, hlease, hnew, ne_eq, not_true_eq_false, Bool.not_true, Bool.false_eq_true, false_or, not_or, Nat.not_lt]
    exact ⟨hack, hbeat⟩
  unfold execPartnerLost
  rw [← h0]
  dsimp only
  rw [if_neg hback]
  rfl

theorem aloneReported_reported {s : State} (hb : banksOk s = true) :
    Reported (aloneNow s) (aloneReported s) Fld.PAIR_STATUS_PARTNER_LOST 0 0 ⟨now s, 0x0B08, unitNo s, s.pair.ackPick % 2 ^ 32⟩ :=
  reported (s := aloneNow s) (live_wf hb) (by decide) (by decide) (by decide) (by decide) rfl

/-! #### The lease lost (R346 to R349) -/

theorem foldl_restSteps (l : List Nat) (s : State) :
    l.foldl (fun s n => if axisMoves (axis s n) then emit s (.step n []) else s) s =
      { s with out := s.out ++ (l.filter fun n => axisMoves (axis s n)).map fun n => .step n [] } := by
  induction l generalizing s with
  | nil => simp
  | cons n l ih =>
    rw [List.foldl_cons, ih, List.filter_cons]
    cases axisMoves (axis s n) with
    | true =>
      simp only [if_true, List.map_cons, emit, List.append_assoc, List.singleton_append]
      rfl
    | false => simp only [Bool.false_eq_true, if_false]

/-- The lease gone: the step outputs rest, PAIR_LEASE is low, and event 0x0B02 tells the cause. -/
def leaseGone (s : State) (cause : Nat) : State :=
  let steps := ((List.range 8).filter fun n => axisMoves (axis s n)).map fun n => Output.step n []
  raise { s with pair := { s.pair with lease := false, cut := none }, out := s.out ++ steps ++ [.pin "PAIR_LEASE" false] }
    0x0B02 (unitNo s) cause

theorem loseLease_eq {s : State} (h : s.pair.lease = true) (cause : Nat) : loseLease s cause = doorbell (leaseGone s cause) 18 := by
  unfold loseLease
  rw [if_neg (by simp [h]), foldl_restSteps]
  rfl

theorem loseLease_law {s : State} (hb : banksOk s = true) (hlease : s.pair.lease = true) {cause : Nat} (hcause : cause < 2 ^ 32) :
    (loseLease s cause).pair = { s.pair with lease := false, cut := none } ∧
      Output.pin "PAIR_LEASE" false ∈ (loseLease s cause).out ∧
      (∀ n, n < 8 → axisMoves (axis s n) = true → Output.step n [] ∈ (loseLease s cause).out) ∧
      (loseLease s cause).host.queued = s.host.queued ++ [⟨now s, 0x0B02, unitNo s, cause⟩] ∧
      (liveFld (loseLease s cause) Fld.DB_D2H_STATUS_STATUS).testBit 18 = true ∧
      regsKept s (loseLease s cause) [regKey .DB_D2H_STATUS 0 0] ∧
      { loseLease s cause with pair := s.pair, host := s.host, live := s.live, out := s.out } = s := by
  rw [loseLease_eq hlease]
  have hbg : banksOk (leaseGone s cause) = true := hb
  have hhost : HostOnly (leaseGone s cause) (doorbell (leaseGone s cause) 18) := hostOnly_doorbell _ 18
  have hout : (leaseGone s cause).out ⊆ (doorbell (leaseGone s cause) 18).out := (out_doorbell _ 18).subset
  refine ⟨HostOnly.pair_eq hhost, hout ?pin, fun n hn hmoves => hout ?step, ?queued, testBit_doorbell hbg (by decide),
    regsKept_doorbell (live_wf hbg) 18, ?rest⟩
  case pin => exact List.mem_append_right _ (List.mem_singleton_self _)
  case step =>
    have hmem : n ∈ (List.range 8).filter fun n => axisMoves (axis s n) := List.mem_filter.mpr ⟨List.mem_range.mpr hn, hmoves⟩
    exact List.mem_append_left _ (List.mem_append_right _ (List.mem_map.mpr ⟨n, hmem, rfl⟩))
  case queued =>
    rw [queued_doorbell]
    conv_rhs => rw [← Nat.mod_eq_of_lt hcause]
    rfl
  case rest => exact congrArg (fun x : State => { x with pair := s.pair, host := s.host, live := s.live, out := s.out }) hhost

theorem execLeaseExpire_loses {s s0 : State} {t : Nat} (h0 : s0 = begin s t) (hrole : s0.pair.role = .active)
    (hlease : s0.pair.lease = true) (hdue : s0.pair.leaseUntil ≤ now s0) : execLeaseExpire t s = .next (loseLease s0 1) := by
  subst h0
  exact congrArg _ (if_pos ⟨hrole, hlease, hdue⟩)

/-! #### The cut timer (R347, R348) -/

/-- The unit as the cut timer leaves it: no heartbeat, and STANDBY in what it sends. -/
def cutOff (s : State) : State := { s with pair := { s.pair with hbRun := false, forceStandby := true } }

/-- The same while the firmware does not run: the lease falls, and its event waits. -/
def cutSilent (s : State) : State :=
  { s with pair := { s.pair with lease := false, cut := none, hbRun := false, forceStandby := true, cutFell := some (now s) },
           out := s.out ++ [.pin "PAIR_LEASE" false] }

section CutTimer

variable {s s0 : State} {t c : Nat} (h0 : s0 = begin s t) (hcut : s0.pair.cut = some c)
include h0 hcut

theorem execCutTimerExpire_early (hearly : s0.time.counter < c + 306000) : execCutTimerExpire t s = .next s0 := by
  unfold execCutTimerExpire
  rw [← h0]
  dsimp only
  rw [hcut]
  exact congrArg _ (if_pos (.inl hearly))

theorem execCutTimerExpire_past (hlease : s0.pair.lease = true) (hdue : c + 306000 ≤ s0.time.counter) :
    execCutTimerExpire t s = .next (if serving s0 = true then loseLease (cutOff s0) 2 else cutSilent s0) := by
  have hruns : ¬ (s0.time.counter < c + 306000 ∨ (!s0.pair.lease) = true) := by simp [hlease, Nat.not_lt.mpr hdue]
  unfold execCutTimerExpire cutOff
  rw [← h0]
  dsimp only
  rw [hcut]
  dsimp only
  rw [if_neg hruns]
  rfl

end CutTimer

/-! #### The statement -/

/-- Settles O38: each path lost or found is one branch of its command; both ways to lose the lease share what the loss does. -/
theorem partnerPaths : Obligations.PartnerPaths := by
  intro s t hb s0
  have hb0 : banksOk s0 = true := banks_begin hb t
  have h0 : s0 = begin s t := rfl
  clear_value s0
  refine ⟨?link, execHeartbeatInEdge_ends h0, ?static, ?partner, ?lease, ?cut⟩
  case link =>
    intro hcap hup hlost halive
    obtain ⟨p, hexec, hdown, hdeg, hrole, hstandby⟩ := execPeerLinkLost_degrades h0 hcap hup hlost halive
    obtain ⟨hsticky, hqueued, hhost, hregs⟩ := degrade_reported (s := linkGone s0) hb0 (which := 1) (by decide)
    refine ⟨_, hexec, hdown, hdeg, hrole, hstandby, hsticky, hqueued, fun l => ?_, hregs, ?_⟩
    · have hlocks : (degrade (linkGone s0) 1).host.locks = (linkGone s0).host.locks :=
        (noticesOnly_sticky (linkGone s0) Fld.PAIR_STATUS_DEGRADED 0 0).locks
      refine (congrArg (nth · l 0) hlocks).trans ?_
      exact nth_map (fun x => if x = 3 then 0 else x) s0.host.locks l 0
    · exact congrArg (fun x : State => { x with pair := s0.pair, host := s0.host }) hhost
  case static =>
    intro hcap hok hlate
    exact ⟨fun hup hlast => ⟨_, execHeartbeatStatic_degrades h0 hcap hok hlate hup hlast,
        degrade_reported (s := { s0 with pair := { s0.pair with hbOk := false, degHb := true } }) hb0 (by decide)⟩,
      execHeartbeatStatic_alone h0 hcap hok hlate⟩
  case partner =>
    intro hrole hlease hnew hack hbeat
    exact ⟨_, execPartnerLost_reports h0 hrole hlease hnew hack hbeat, aloneReported_reported hb0⟩
  case lease =>
    intro hrole hlease hdue
    exact ⟨_, execLeaseExpire_loses h0 hrole hlease hdue, loseLease_law hb0 hlease (by decide)⟩
  case cut =>
    intro c hcut hlease
    refine ⟨execCutTimerExpire_early h0 hcut, fun hdue hserves => ?_, fun hdue hdown => ?_⟩
    · obtain ⟨hpair, hpin, -, hqueued, hbell, -, -⟩ := loseLease_law (s := cutOff s0) (cause := 2) hb0 hlease (by decide)
      refine ⟨_, (execCutTimerExpire_past h0 hcut hlease hdue).trans (congrArg _ (if_pos hserves)), hpair, hpin, hqueued, hbell⟩
    · exact (execCutTimerExpire_past h0 hcut hlease hdue).trans (congrArg _ (if_neg (by simp [hdown])))

end Sys2Proof.Laws

/-! ### Taking over (10_pairing R331, R332, R345, R351 to R353, R357) -/

namespace Sys2Proof.Laws

open Sys2Proof Sys2Proof.Machine

/-! #### When a standby takes over (R351, R357) -/

/-- The fault code of the partner's RELEASE, if it released the lease for a fault (R352). -/
def releasedFor (s : State) : Option Nat :=
  match s.pair.released with
  | some k => if k = 0 then none else some k
  | none => none

theorem releasedFor_eq_none {s : State} : releasedFor s = none ↔ ∀ k, s.pair.released ≠ some (k + 1) := by
  unfold releasedFor
  cases s.pair.released with
  | none => simp
  | some k => cases k <;> simp

theorem releasedFor_of_released {s : State} {k : Nat} (h : s.pair.released = some (k + 1)) : releasedFor s = some (k + 1) := by
  unfold releasedFor
  rw [h]
  rfl

theorem handoverDue_iff {s : State} : handoverDue s = true ↔ ∃ h, s.pair.handover = some h ∧
    (h < s.time.pick ∨ (h = s.time.pick ∧ s.time.pickStart + 10000 ≤ now s)) := by
  unfold handoverDue
  cases s.pair.handover <;> simp

theorem partnerGone_iff {s : State} : partnerGone s = true ↔ s.pair.partnerFound = true ∧ s.pair.peerLast + 200000 ≤ now s ∧
    s.pair.hbLast + 200000 ≤ now s ∧ (if s.pair.degPeer then s.pair.hbLast + 300000 else s.pair.recLease) + 100000 < now s := by
  simp only [partnerGone, Bool.and_eq_true, decide_eq_true_eq, and_assoc]
  exact Iff.rfl

/-- What has the standby take over. -/
def takeoverCause (s : State) : Prop := (releasedFor s).isSome = true ∨ handoverDue s = true ∨ partnerGone s = true

/-- The standby that takes over, with its reason reported. -/
def causeReported (s : State) : State :=
  match releasedFor s, s.pair.handover with
  | some k, _ => raise s 0x0B03 (unitNo s) k
  | none, some h => if handoverDue s then raise s 0x0B0E (unitNo s) h else s
  | none, none => s

theorem causeReported_released {s : State} {k : Nat} (h : s.pair.released = some (k + 1)) :
    causeReported s = raise s 0x0B03 (unitNo s) (k + 1) := by
  rw [causeReported, releasedFor_of_released h]

theorem causeReported_handover {s : State} {h : Nat} (hnone : releasedFor s = none) (hh : s.pair.handover = some h)
    (hdue : handoverDue s = true) : causeReported s = raise s 0x0B0E (unitNo s) h := by
  rw [causeReported, hnone, hh]
  exact if_pos hdue

theorem causeReported_gone {s : State} (hnone : releasedFor s = none) (hdue : handoverDue s = false) : causeReported s = s := by
  rw [causeReported, hnone]
  cases s.pair.handover with
  | none => rfl
  | some h => exact if_neg (by simp [hdue])

theorem standby_serves {s : State} (hrole : s.pair.role = .standby) (hcap : s.pair.capable = true) (hserves : serving s = true) :
    ¬ (s.pair.role ≠ .standby ∨ (!s.pair.capable) = true ∨ (!serving s) = true) := by simp [hrole, hcap, hserves]

section Takeover

variable {s s0 : State} {t : Nat} (h0 : s0 = flushUpdate (begin s t)) (hrole : s0.pair.role = .standby)
  (hcap : s0.pair.capable = true) (hserves : serving s0 = true)
include h0 hrole hcap hserves

theorem execTakeover_takes (hcause : takeoverCause s0) (hready : takeoverReady s0 = true) :
    execTakeover t s = .next (becomeActive (causeReported s0)) := by
  have htakes := standby_serves hrole hcap hserves
  subst h0
  exact congrArg _ ((if_neg htakes).trans ((if_pos hcause).trans (if_neg (by simp [hready]))))

theorem execTakeover_refuses (hcause : takeoverCause s0) (hready : takeoverReady s0 = false) :
    execTakeover t s = .next (refuseTakeover s0) := by
  have htakes := standby_serves hrole hcap hserves
  subst h0
  exact congrArg _ ((if_neg htakes).trans ((if_pos hcause).trans (if_pos (by simp [hready]))))

theorem execTakeover_rests (hcause : ¬ takeoverCause s0) : execTakeover t s = .next s0 := by
  have htakes := standby_serves hrole hcap hserves
  subst h0
  exact congrArg _ ((if_neg htakes).trans (if_neg hcause))

end Takeover

/-- The takeover refused and noted as refused. -/
def takeoverRefused (s : State) : State := { s with pair := { s.pair with refused := true } }

theorem refuseTakeover_reported {s : State} (hb : banksOk s = true) (hnew : s.pair.refused = false) :
    Reported (takeoverRefused s) (refuseTakeover s) Fld.PAIR_STATUS_TAKEOVER_REFUSED 0 0
      ⟨now s, 0x0B0D, unitNo s, s.pair.score % 2 ^ 32⟩ := by
  rw [refuseTakeover, if_neg (by simp [hnew])]
  exact reported (s := takeoverRefused s) (live_wf hb) (by decide) (by decide) (by decide) (by decide) rfl

/-! #### A unit alone (R331) -/

theorem execJoinWaitExpire_waits {s s0 : State} {t a : Nat} (h0 : s0 = begin s t) (hjoin : s0.pair.joinFrom = some a) :
    execJoinWaitExpire t s = .next (
      if s0.pair.role = .standby ∧ s0.pair.capable = true ∧ serving s0 = true ∧
          a + fld s0 Fld.PAIR_CTRL_PAIR_JOIN_WAIT * 100000000 * (if s0.pair.unitB then 2 else 1) ≤ now s0 then becomeActive s0
      else s0) := by
  unfold execJoinWaitExpire
  rw [← h0]
  dsimp only
  rw [hjoin]

/-! #### The role claimed (R332, R353) -/

theorem le_foldl_max (l : List Nat) (m : Nat) : m ≤ l.foldl Nat.max m ∧ ∀ x ∈ l, x ≤ l.foldl Nat.max m := by
  induction l generalizing m with
  | nil => exact ⟨Nat.le_refl m, by simp⟩
  | cons y l ih =>
    obtain ⟨hm, hl⟩ := ih (Nat.max m y)
    refine ⟨(Nat.le_max_left m y).trans hm, fun x hx => ?_⟩
    rcases List.mem_cons.mp hx with rfl | hx
    · exact (Nat.le_max_right m x).trans hm
    · exact hl x hx

theorem foldl_max_lt {l : List Nat} {m n : Nat} (hm : m < n) (hl : ∀ x ∈ l, x < n) : l.foldl Nat.max m < n := by
  induction l generalizing m with
  | nil => exact hm
  | cons y l ih => exact ih (Nat.max_lt.mpr ⟨hm, hl y (by simp)⟩) fun x hx => hl x (by simp [hx])

/-- A new epoch is above every epoch that the unit has seen, while these are below 2^32 - 1 (R332). -/
theorem newEpoch_above {w : State} (hown : liveFld w Fld.PAIR_EPOCH_EPOCH < 2 ^ 32 - 1) (hseen : w.pair.seenEpoch < 2 ^ 32 - 1)
    (hrec : w.pair.recEpoch < 2 ^ 32 - 1) (hhubs : ∀ h ∈ w.link.hubs, h.epoch < 2 ^ 32 - 1) :
    liveFld w Fld.PAIR_EPOCH_EPOCH < newEpoch w ∧ w.pair.seenEpoch < newEpoch w ∧ w.pair.recEpoch < newEpoch w ∧
      ∀ h ∈ w.link.hubs, h.epoch < newEpoch w := by
  let m := Nat.max (liveFld w Fld.PAIR_EPOCH_EPOCH) (Nat.max w.pair.seenEpoch w.pair.recEpoch)
  let top := (w.link.hubs.map (·.epoch)).foldl Nat.max m
  have hlt : top < 2 ^ 32 - 1 := foldl_max_lt (Nat.max_lt.mpr ⟨hown, Nat.max_lt.mpr ⟨hseen, hrec⟩⟩) (by simpa using hhubs)
  have hnew : newEpoch w = top + 1 := Nat.mod_eq_of_lt (Nat.add_lt_of_lt_sub hlt)
  obtain ⟨hm, hl⟩ := le_foldl_max (w.link.hubs.map (·.epoch)) m
  have hothers : Nat.max w.pair.seenEpoch w.pair.recEpoch ≤ top := (Nat.le_max_right _ _).trans hm
  rw [hnew]
  exact ⟨Nat.lt_succ_of_le ((Nat.le_max_left _ _).trans hm), Nat.lt_succ_of_le ((Nat.le_max_left _ _).trans hothers),
    Nat.lt_succ_of_le ((Nat.le_max_right _ _).trans hothers),
    fun h hh => Nat.lt_succ_of_le (hl h.epoch (List.mem_map.mpr ⟨h, hh, rfl⟩))⟩

/-- The unit with the lease and the role of a new epoch, before it reports them. -/
def leaseTaken (s : State) : State :=
  let v := setFld s Fld.PAIR_EPOCH_EPOCH 0 (newEpoch s)
  { v with
    time := { v.time with slewOnly := true }
    out := v.out ++ [.pin "PAIR_LEASE" true]
    pair := { v.pair with
      lease := true, forceStandby := false, cut := some v.time.counter, leaseUntil := now v + 300000, hbRun := true,
      seenEpoch := newEpoch s, role := .active, synced := false, stage := 0, joinFrom := none, released := none, handover := none,
      handHub := none, refused := false, waiting := [], ackAt := now v, partnerSynced := false, partnerReady := false,
      partnerLost := false, degPeer := false, degHb := false, base := {}, sentRecs := [], sentEvents := 0, crcs := [],
      peerCrcs := [], gaps := [] } }

/-- TAKEOVER and doorbell 18 set. -/
def takeoverNoted (s : State) : State := doorbell (sticky (leaseTaken s) Fld.PAIR_STATUS_TAKEOVER) 18

/-- The role's claim before it is counted. -/
def claimRaised (s : State) : State := raise (takeoverNoted s) 0x0B01 (unitNo (takeoverNoted s)) (newEpoch s)

theorem claimActive_eq (s : State) : claimActive s = bump (claimRaised s) Fld.PAIR_TAKEOVERS_TAKEOVERS := rfl

theorem hostOnly_takeoverNoted (s : State) : HostOnly (leaseTaken s) (takeoverNoted s) :=
  (hostOnly_sticky _ _ _ _).trans (hostOnly_doorbell _ 18)

theorem hostOnly_claimActive (s : State) : HostOnly (leaseTaken s) (claimActive s) :=
  (hostOnly_takeoverNoted s).trans ((hostOnly_raise _ _ _ _).trans (hostOnly_setFld _ _ _ _ _))

section Claim

variable {w : State} (hb : banksOk w = true)
include hb

theorem banks_leaseTaken : banksOk (leaseTaken w) = true := banks_setFld hb Fld.PAIR_EPOCH_EPOCH 0 (newEpoch w) 0

theorem banks_claimRaised : banksOk (claimRaised w) = true := banks_doorbell (banks_sticky (banks_leaseTaken hb) _ _ _) 18

theorem regsKept_leaseTaken : regsKept w (leaseTaken w) [regKey .PAIR_EPOCH 0 0] :=
  regsKept_setFld (live_wf hb) Fld.PAIR_EPOCH_EPOCH 0 (newEpoch w) 0

theorem regsKept_claimRaised : regsKeptBut (leaseTaken w) (claimRaised w) [regKey .PAIR_STATUS 0 0] :=
  regsKept_trans (regsKept_sticky (live_wf (banks_leaseTaken hb)) Fld.PAIR_STATUS_TAKEOVER 0 0)
    (regsKept_mono (regsKept_doorbell (live_wf (banks_sticky (banks_leaseTaken hb) _ _ _)) 18) (by simp))

theorem regsKept_claimCounted : regsKept (claimRaised w) (claimActive w) [regKey .PAIR_TAKEOVERS 0 0] :=
  regsKept_setFld (live_wf (banks_claimRaised hb)) Fld.PAIR_TAKEOVERS_TAKEOVERS 0 _ 0

theorem claimActive_registers :
    liveFld (claimActive w) Fld.PAIR_EPOCH_EPOCH = newEpoch w ∧ stickyOn (claimActive w) Fld.PAIR_STATUS_TAKEOVER = true ∧
      (liveFld (claimActive w) Fld.DB_D2H_STATUS_STATUS).testBit 18 = true ∧
      liveFld (claimActive w) Fld.PAIR_TAKEOVERS_TAKEOVERS = (liveFld w Fld.PAIR_TAKEOVERS_TAKEOVERS + 1) % 2 ^ 32 ∧
      regsKeptBut w (claimActive w) [regKey .PAIR_EPOCH 0 0, regKey .PAIR_STATUS 0 0, regKey .PAIR_TAKEOVERS 0 0] := by
  have hsticky : banksOk (sticky (leaseTaken w) Fld.PAIR_STATUS_TAKEOVER) = true := banks_sticky (banks_leaseTaken hb) _ _ _
  have htaken := regsKept_leaseTaken hb
  have hraised := regsKept_claimRaised hb
  have hcounted := regsKept_claimCounted hb
  refine ⟨?epoch, ?status, ?bell, ?count, ?kept⟩
  case epoch =>
    rw [liveFld_of_kept hcounted _ 0 0 (by decide), liveFld_of_kept hraised _ 0 0 (by decide)]
    exact (liveFld_setFld hb Fld.PAIR_EPOCH_EPOCH 0 (newEpoch w) 0).trans (Nat.mod_mod _ _)
  case status =>
    have hbell : liveFld (claimRaised w) Fld.PAIR_STATUS_TAKEOVER =
        liveFld (sticky (leaseTaken w) Fld.PAIR_STATUS_TAKEOVER) Fld.PAIR_STATUS_TAKEOVER :=
      liveFld_doorbell_ne hsticky (by decide) (by decide) 18
    rw [stickyOn, liveFld_of_kept hcounted _ 0 0 (by decide), hbell]
    exact stickyOn_sticky (live_wf (banks_leaseTaken hb)) (by decide) (by decide) (by decide)
  case bell =>
    rw [liveFld_of_kept hcounted _ 0 0 (by decide)]
    exact testBit_doorbell hsticky (by decide)
  case count =>
    rw [claimActive_eq, liveFld_bump (banks_claimRaised hb), liveFld_of_kept hraised _ 0 0 (by decide),
      liveFld_of_kept htaken _ 0 0 (by decide)]
    rfl
  case kept =>
    exact regsKept_trans (regsKept_mono htaken (by simp)) (regsKept_trans (regsKept_mono hraised (by simp))
      (regsKept_mono hcounted (by simp)))

end Claim

theorem claimActive_queued (w : State) :
    (claimActive w).host.queued = w.host.queued ++ [⟨now w, 0x0B01, unitNo w, newEpoch w⟩] := by
  have hnow : now (takeoverNoted w) = now (leaseTaken w) := now_of_hostOnly (hostOnly_takeoverNoted w)
  have hunit : unitNo (takeoverNoted w) = unitNo (leaseTaken w) :=
    congrArg (fun p : PairSt => bit p.unitB) (HostOnly.pair_eq (hostOnly_takeoverNoted w))
  have hqueued : (takeoverNoted w).host.queued = w.host.queued := (queued_doorbell _ 18).trans (queued_sticky _ _ _ _)
  have hepoch : newEpoch w % 2 ^ 32 = newEpoch w := Nat.mod_mod _ _
  show (takeoverNoted w).host.queued ++ [⟨now (takeoverNoted w), 0x0B01, unitNo (takeoverNoted w), newEpoch w % 2 ^ 32⟩] = _
  rw [hqueued, hnow, hunit, hepoch]
  rfl

/-! #### The statement -/

/-- Settles O40: the reasons to take over are tested in turn, and a claim of the role writes three registers and raises one event. -/
theorem takingOver : Obligations.TakingOver := by
  intro s t hb s0 gone due
  have h0 : s0 = flushUpdate (begin s t) := rfl
  have hb0 : banksOk s0 = true := (flushUpdate_keeps (begin_keeps (Keeps.refl s))).banks hb
  clear_value s0
  have hdue {h : Nat} (hh : s0.pair.handover = some h) : handoverDue s0 = true ↔ due h := by
    rw [handoverDue_iff, hh]
    exact ⟨fun ⟨_, e, hd⟩ => Option.some.inj e ▸ hd, fun hd => ⟨h, rfl, hd⟩⟩
  have hundue (hno : ∀ h, s0.pair.handover = some h → ¬ due h) : handoverDue s0 = false := by
    refine Bool.eq_false_iff.mpr fun hd => ?_
    obtain ⟨h, hh, -⟩ := handoverDue_iff.mp hd
    exact hno h hh ((hdue hh).mp hd)
  refine ⟨fun hrole hcap hserves => ⟨fun hready => ⟨fun k hk => ?released,
      fun hk => ⟨fun h hh hd => ?handover, fun hno hgone => ?gone⟩⟩,
    fun hready hnew hcause => ?refuse, fun hk hno hgone => ?rest⟩, ?join, fun w hbw => ?claim⟩
  case released =>
    rw [← causeReported_released hk]
    exact execTakeover_takes h0 hrole hcap hserves (.inl (by rw [releasedFor_of_released hk]; rfl)) hready
  case handover =>
    have hdue' : handoverDue s0 = true := (hdue hh).mpr hd
    rw [← causeReported_handover (releasedFor_eq_none.mpr hk) hh hdue']
    exact execTakeover_takes h0 hrole hcap hserves (.inr (.inl hdue')) hready
  case gone =>
    have hexec := execTakeover_takes h0 hrole hcap hserves (.inr (.inr (partnerGone_iff.mpr hgone))) hready
    rwa [causeReported_gone (releasedFor_eq_none.mpr hk) (hundue hno)] at hexec
  case refuse =>
    have hcause' : takeoverCause s0 := by
      rcases hcause with hgone | ⟨k, hk⟩ | ⟨h, hh, hd⟩
      · exact .inr (.inr (partnerGone_iff.mpr hgone))
      · exact .inl (by rw [releasedFor_of_released hk]; rfl)
      · exact .inr (.inl ((hdue hh).mpr hd))
    exact ⟨_, execTakeover_refuses h0 hrole hcap hserves hcause' hready, refuseTakeover_reported hb0 hnew⟩
  case rest =>
    refine execTakeover_rests h0 hrole hcap hserves ?_
    rintro (hfor | hd | hg)
    · rw [releasedFor_eq_none.mpr hk] at hfor
      exact absurd hfor (by decide)
    · exact absurd hd (by rw [hundue hno]; decide)
    · exact hgone (partnerGone_iff.mp hg)
  case join =>
    intro s1 a hjoin hrole hcap hserves wait
    have hexec := execJoinWaitExpire_waits (s := s) (t := t) rfl hjoin
    exact ⟨fun hdue => hexec.trans (congrArg _ (if_pos ⟨hrole, hcap, hserves, hdue⟩)),
      fun hearly => hexec.trans (congrArg _ (if_neg fun h => Nat.not_le.mpr hearly h.2.2.2))⟩
  case claim =>
    obtain ⟨hepoch, hstatus, hbell, hcount, hkept⟩ := claimActive_registers hbw
    have hhost := hostOnly_claimActive w
    have hpair := HostOnly.pair_eq hhost
    refine ⟨hepoch, newEpoch_above, congrArg PairSt.role hpair, congrArg PairSt.lease hpair, congrArg PairSt.leaseUntil hpair,
      congrArg PairSt.cut hpair, hstatus, hbell, hcount, claimActive_queued w, hkept, HostOnly.time_eq hhost, ?_⟩
    exact congrArg (fun x : State => { x with
      pair := w.pair, host := w.host, live := w.live, out := w.out, time := w.time }) hhost

end Sys2Proof.Laws

/-! ### Replies held and let go (10_pairing R339; 11_control_interface R387) -/

namespace Sys2Proof.Laws

open Sys2Proof Sys2Proof.Machine

/-! #### A channel's replies moved out -/

theorem chans_outFilled (s : State) (k : Nat) : (outFilled s k).host.chans = (sealOut s k).host.chans := by
  unfold outFilled
  refine Eq.trans ?_ (chans_doorbell (sealOut s k) (chanBit k))
  extract_lets v
  split
  · split
    · exact chans_sendDatagram v _ _ _
    · rfl
  · rfl

theorem mbx_setMbx_ne (s : State) {j k : Nat} (h : j ≠ k) (f : Mbx → Mbx) : mbx (setMbx s k f) j = mbx s j :=
  nth_upd_ne h f {}

/-- From `s` to `u` no channel but k has changed, and there are as many. -/
def ChanOnly (k : Nat) (s u : State) : Prop := u.host.chans.length = s.host.chans.length ∧ ∀ j, j ≠ k → mbx u j = mbx s j

theorem ChanOnly.trans {k : Nat} {a b c : State} (h : ChanOnly k a b) (g : ChanOnly k b c) : ChanOnly k a c :=
  ⟨g.1.trans h.1, fun j hj => (g.2 j hj).trans (h.2 j hj)⟩

theorem ChanOnly.of_chans {k : Nat} {s u : State} (h : u.host.chans = s.host.chans) : ChanOnly k s u :=
  ⟨by rw [h], fun j _ => by rw [mbx, h, mbx]⟩

theorem chanOnly_setMbx (s : State) (k : Nat) (f : Mbx → Mbx) : ChanOnly k s (setMbx s k f) :=
  ⟨length_chans_setMbx s k f, fun _ hj => mbx_setMbx_ne s hj f⟩

theorem chanOnly_sealOut (s : State) (k : Nat) : ChanOnly k s (sealOut s k) := by
  unfold sealOut
  split
  · exact .of_chans rfl
  · split
    · exact .of_chans rfl
    · split <;> exact chanOnly_setMbx s k _

theorem chanOnly_pump (s : State) (k : Nat) : ChanOnly k s (pump s k) := by
  unfold pump
  extract_lets m
  split
  next fl o q filled =>
    extract_lets v
    have hv : ChanOnly k s v := chanOnly_setMbx s k _
    split
    · exact hv.trans ((chanOnly_sealOut v k).trans (.of_chans (chans_outFilled v k)))
    · exact hv

theorem flight_sealOut (s : State) (k : Nat) : (mbx (sealOut s k) k).flight = (mbx s k).flight := by
  have hset (f : Mbx → Mbx) (hf : ∀ m, (f m).flight = m.flight) : (mbx (setMbx s k f) k).flight = (mbx s k).flight := by
    rcases Nat.lt_or_ge k s.host.chans.length with hk | hk
    · rw [mbx_setMbx hk, hf]
    · rw [mbx, setMbx, nth, upd, List.getElem?_modify, mbx, nth, List.getElem?_eq_none hk]
      rfl
  unfold sealOut
  split
  · rfl
  · split
    · rfl
    · split <;> exact hset _ fun _ => rfl

theorem pumpFlights_suffix (fs : List Flight) (out : Option Reply) (q : List Reply) (b : Bool) :
    (pumpFlights fs out q b).1 <:+ fs := by
  induction fs generalizing out q b with
  | nil => exact List.suffix_refl _
  | cons f fs ih =>
    have hih (out : Option Reply) (q : List Reply) (b : Bool) : (pumpFlights fs out q b).1 <:+ f :: fs :=
      (ih out q b).trans (List.suffix_cons f fs)
    unfold pumpFlights
    split
    · split
      · exact hih _ _ _
      · split <;> exact hih _ _ _
    · exact List.suffix_refl _

/-- The messages in execution on a channel after its ready replies have moved out were there before. -/
theorem flight_pump_subset {s : State} {k : Nat} (hk : k < s.host.chans.length) : (mbx (pump s k) k).flight ⊆ (mbx s k).flight := by
  have hsuffix := pumpFlights_suffix (mbx s k).flight (mbx s k).out (mbx s k).queue false
  unfold pump
  extract_lets m
  split
  next fl o q filled heq =>
    rw [show pumpFlights (mbx s k).flight (mbx s k).out (mbx s k).queue false = (fl, o, q, filled) from heq] at hsuffix
    extract_lets v
    have hv : (mbx v k).flight = fl := congrArg Mbx.flight (mbx_setMbx hk _)
    split
    · rw [mbx, chans_outFilled, ← mbx, flight_sealOut, hv]
      exact hsuffix.subset
    · rw [hv]
      exact hsuffix.subset

/-! #### Held replies let go -/

/-- One channel's replies held up to a pick let go. -/
def releaseChan (single : Bool) (upTo : Nat) (s : State) (k : Nat) : State :=
  pump (setMbx s k fun m => { m with flight := m.flight.map (letGo single upTo) }) k

theorem releaseHeld_eq (s : State) (single : Bool) (upTo : Nat) :
    releaseHeld s single upTo = (List.range 6).foldl (releaseChan single upTo) s := rfl

theorem chanOnly_releaseChan (single : Bool) (upTo : Nat) (s : State) (k : Nat) : ChanOnly k s (releaseChan single upTo s k) :=
  (chanOnly_setMbx s k _).trans (chanOnly_pump _ k)

theorem foldl_releaseChan_others (single : Bool) (upTo : Nat) {k : Nat} (l : List Nat) (hl : ∀ j ∈ l, j ≠ k) (s : State) :
    (l.foldl (releaseChan single upTo) s).host.chans.length = s.host.chans.length ∧
      mbx (l.foldl (releaseChan single upTo) s) k = mbx s k := by
  induction l generalizing s with
  | nil => exact ⟨rfl, rfl⟩
  | cons j l ih =>
    obtain ⟨hlen, hmbx⟩ := ih (fun i hi => hl i (by simp [hi])) (releaseChan single upTo s j)
    obtain ⟨hlen', hothers⟩ := chanOnly_releaseChan single upTo s j
    exact ⟨hlen.trans hlen', hmbx.trans (hothers k (hl j (by simp)).symm)⟩

/-- What letting the held replies go does to a channel is done by the channel's own turn. -/
theorem releaseHeld_chan (w : State) (single : Bool) (upTo : Nat) {k : Nat} (hk : k < 6) :
    ∃ v, v.host.chans.length = w.host.chans.length ∧ mbx v k = mbx w k ∧
      mbx (releaseHeld w single upTo) k = mbx (releaseChan single upTo v k) k := by
  obtain ⟨l₁, l₂, hl⟩ := List.append_of_mem (List.mem_range.mpr hk)
  have hnodup : (l₁ ++ k :: l₂).Nodup := hl ▸ List.nodup_range
  rw [List.nodup_append, List.nodup_cons] at hnodup
  obtain ⟨-, ⟨hafter, -⟩, hbefore⟩ := hnodup
  obtain ⟨hlen, hmbx⟩ := foldl_releaseChan_others single upTo l₁ (fun j hj => hbefore j hj k (by simp)) w
  refine ⟨l₁.foldl (releaseChan single upTo) w, hlen, hmbx, ?_⟩
  rw [releaseHeld_eq, hl, List.foldl_append, List.foldl_cons]
  exact (foldl_releaseChan_others single upTo l₂ (by rintro j hj rfl; exact hafter hj) _).2

theorem letGo_hold {single : Bool} {upTo p : Nat} {f : Flight} (h : (letGo single upTo f).hold = some p) : upTo < p := by
  unfold letGo at h
  split at h
  next q hq =>
    split at h
    · exact absurd h (by simp)
    next hlate =>
      rw [hq] at h
      exact Option.some.inj h ▸ Nat.not_le.mp hlate
  next hnone => exact absurd (hnone.symm.trans h) (by simp)

theorem letGo_held {upTo p : Nat} {f : Flight} (hhold : f.hold = some p) (hp : p ≤ upTo) (single : Bool) :
    letGo single upTo f = { f with hold := none, reply := f.reply.map fun r => { r with single := single } } := by
  rw [letGo, hhold]
  exact if_pos hp

/-- After held replies are let go up to a pick, those still held are of later picks (R339). -/
theorem releaseHeld_hold {w : State} {single : Bool} {upTo k : Nat} (hk : k < 6) (hlen : k < w.host.chans.length) :
    ∀ f ∈ (mbx (releaseHeld w single upTo) k).flight, ∀ p, f.hold = some p → upTo < p := by
  obtain ⟨v, hlen', hmbx, heq⟩ := releaseHeld_chan w single upTo hk
  intro f hf p hp
  rw [heq] at hf
  have hmem := flight_pump_subset (by rw [length_chans_setMbx, hlen']; exact hlen) hf
  rw [mbx_setMbx (by rw [hlen']; exact hlen)] at hmem
  obtain ⟨g, -, rfl⟩ := List.mem_map.mp hmem
  exact letGo_hold hp

/-- A reply held up to a pick goes out with the picks up to it, marked when no partner holds its change (R339). -/
theorem releaseHeld_goes {w : State} {single : Bool} {upTo k p : Nat} {f : Flight} {r : Reply} (hk : k < 6)
    (hlen : k < w.host.chans.length) (hf : f ∈ (mbx w k).flight) (hhold : f.hold = some p) (hp : p ≤ upTo)
    (hreply : f.reply = some r) (hdrop : f.drop = false) :
    { r with single := single } ∈ heldReplies (mbx (releaseHeld w single upTo) k) := by
  obtain ⟨v, hlen', hmbx, heq⟩ := releaseHeld_chan w single upTo hk
  have hlenv : k < v.host.chans.length := by rw [hlen']; exact hlen
  rw [heq]
  refine heldReplies_pump (by rw [length_chans_setMbx]; exact hlenv) (.inr ⟨letGo single upTo f, ?_, ?_⟩)
  · rw [mbx_setMbx hlenv, hmbx]
    exact List.mem_map.mpr ⟨f, hf, rfl⟩
  · rw [letGo_held hhold hp, hreply]
    exact ⟨rfl, hdrop⟩

theorem hostOnly_releaseHeld (s : State) (single : Bool) (upTo : Nat) : HostOnly s (releaseHeld s single upTo) :=
  hostOnly_foldl (fun x k => (hostOnly_setMbx x k _).trans (hostOnly_pump _ k)) (List.range 6) s

end Sys2Proof.Laws

/-! ### Pick records and resynchronisation (10_pairing R333, R336 to R339, R354, R357, R364; 14_security R500, R501) -/

namespace Sys2Proof.Laws

open Sys2Proof Sys2Proof.Machine

/-! #### What arrives from the partner (R333, R501) -/

theorem ifAuthentic_true (s : State) (act : State → State) : ifAuthentic s true act = act s := if_pos (.inr rfl)

theorem ifAuthentic_false {s : State} (h : peerTalks s = true) (act : State → State) : ifAuthentic s false act = peerAuthFail s 2 :=
  if_neg (by simp [h])

/-- A failure of what the partner sends, reported before it is audited. -/
def authFailed (s : State) (which : Nat) : State := raise (sticky s Fld.SEC_STATUS_PEER_AUTH_FAIL) 0x0C0F (unitNo s) which

theorem peerAuthFail_eq (s : State) (which : Nat) : peerAuthFail s which = audit (authFailed s which) 0x0C0F 0 which := rfl

theorem authFailed_reported {s : State} (hb : banksOk s = true) {which : Nat} (h : which < 2 ^ 32) :
    Reported s (authFailed s which) Fld.SEC_STATUS_PEER_AUTH_FAIL 0 0 ⟨now s, 0x0C0F, unitNo s, which⟩ :=
  reported (live_wf hb) (by decide) (by decide) (by decide) (by decide) (Nat.mod_eq_of_lt h)

/-- A record counted for the key, but for the one that asks for a fresh set-up (R501). -/
theorem countKeyed_eq {s : State} (h : s.pair.keyedRecs + 1 ≠ 2 ^ 31) :
    countKeyed s = { s with pair := { s.pair with keyedRecs := s.pair.keyedRecs + 1 } } := if_neg h

/-- The peer link seen up. -/
def linkSeen (s : State) : State := { s with pair := { s.pair with peerUp := true, peerLast := now s, degPeer := false } }

theorem peerSeen_undegraded {s : State} (h : s.pair.degPeer = false) : peerSeen s = linkSeen s := if_neg (by simp [h])

theorem peerSeen_eq (s : State) : ∃ q, peerSeen s = { linkSeen s with host := { s.host with queued := q } } := by
  unfold peerSeen
  cases s.pair.degPeer with
  | true => exact ⟨_, rfl⟩
  | false => exact ⟨s.host.queued, rfl⟩

/-! #### A record in which no part changed (R337, R338) -/

/-- The picks between the last record applied and a later one. -/
def missedPicks (n pick : Nat) : List Nat := (List.range (pick - n - 1)).map (· + n + 1)

theorem askMissed_eq {s : State} {r : PickRecord} {n : Nat} (hlast : s.pair.lastRec = some n) (hflush : r.flush = false)
    (htrip : s.thm.tripped = false) :
    askMissed s r = { s with
      pair := { s.pair with waiting := s.pair.waiting ++ missedPicks n r.pick }
      out := s.out ++ if missedPicks n r.pick = [] then [] else [.peer (.askParts (missedPicks n r.pick))] } := by
  unfold askMissed
  rw [hlast]
  dsimp only
  rw [← missedPicks]
  cases hlost : missedPicks n r.pick with
  | nil => simp
  | cons p ps =>
    rw [if_neg (by simp [hflush])]
    exact toPeer_emits (s := { s with pair := { s.pair with waiting := s.pair.waiting ++ p :: ps } }) htrip _

theorem askMissed_flush {s : State} {r : PickRecord} {n : Nat} (hlast : s.pair.lastRec = some n) (hflush : r.flush = true) :
    askMissed s r = s := by
  unfold askMissed
  rw [hlast]
  exact if_pos (.inl hflush)

/-- A record without a changed part leaves its list of time steps, and the number of its pick as that of the list. -/
theorem applyParts_unchanged {s : State} {r : PickRecord} {steps : List TimeStep} (hparts : r.parts = { steps := steps })
    (hat : nth s.pair.partAt 5 0 ≤ r.pick) :
    applyParts s r = { s with
      time := { s.time with steps := steps }
      pair := { s.pair with partAt := upd s.pair.partAt 5 fun _ => r.pick, applied := true } } := by
  unfold applyParts
  rw [hparts]
  dsimp only [applyPart]
  rw [if_pos hat]

/-- What a record in which no part changed leaves before it is acknowledged, with the picks it waits for and the outputs so far. -/
def recordTaken (s : State) (r : PickRecord) (waiting : List Nat) (out : List Output) : State :=
  { s with
    out := out
    time := { s.time with steps := r.parts.steps }
    pair := { s.pair with
      waiting := waiting, partAt := upd s.pair.partAt 5 fun _ => r.pick, applied := true
      lastRec := if r.flush then s.pair.lastRec else some r.pick, recLease := r.leaseUntil, recEpoch := r.epoch
      seenEpoch := Nat.max s.pair.seenEpoch r.epoch, gotRecord := true, released := r.release, handover := none
      handHub := r.handHub } }

theorem applyRecord_unchanged {s : State} {r : PickRecord} {n : Nat} {waiting : List Nat} {out : List Output}
    (hsynced : s.pair.synced = true) (hstage : s.pair.stage = 0) (hlast : s.pair.lastRec = some n)
    (hlate : r.flush = true ∨ n < r.pick) (hhand : r.handover = none) (hparts : r.parts = { steps := r.parts.steps })
    (hat : nth s.pair.partAt 5 0 ≤ r.pick)
    (hask : askMissed s r = { s with pair := { s.pair with waiting := waiting }, out := out }) :
    applyRecord s r = ackRecord (recordTaken s r waiting out) r false := by
  have hnew : ¬ (!r.flush && decide (r.pick ≤ n)) = true := by
    rcases hlate with h | h <;> simp [h]
  unfold applyRecord
  extract_lets late _ a restart b refuse p c d
  have hlate' : late = false := by
    show (!r.flush && match s.pair.lastRec with | some n => decide (r.pick ≤ n) | none => false) = false
    rw [hlast]
    exact Bool.eq_false_iff.mpr hnew
  rw [if_neg (by simp [hlate'])]
  have ha : a = { s with pair := { s.pair with waiting := waiting }, out := out } := hask
  have hrestart : restart = false := by
    show (a.pair.stage != 0 && a.pair.recEpoch != 0 && r.epoch != a.pair.recEpoch) = false
    rw [ha]
    simp [hstage]
  have hb : b = { a with
      time := { a.time with steps := r.parts.steps }
      pair := { a.pair with partAt := upd a.pair.partAt 5 fun _ => r.pick, applied := true } } :=
    applyParts_unchanged hparts (by rw [ha]; exact hat)
  have hrefuse : refuse = false := by simp [refuse, refusesHandover, hhand]
  have hc : c = recordTaken s r waiting out := by
    simp only [c, p, hrefuse, hb, ha, hhand]
    rfl
  have hd : d = ackRecord (recordTaken s r waiting out) r false := by
    show ackRecord c r refuse = _
    rw [hc, hrefuse]
  have hdsynced : d.pair.synced = true := by
    obtain ⟨os, hos⟩ := toPeer_emitsOnly (recordTaken s r waiting out)
      (.ack r.pick false (recordTaken s r waiting out).pair.synced (takeoverReady (recordTaken s r waiting out)))
    rw [hd, ackRecord, hos]
    exact hsynced
  rw [if_neg (by simp [hrestart, hdsynced])]
  exact hd

/-- A standby that has heard a record of its partner, before it applies it. -/
def recordHeard (s : State) : State :=
  let v := peerSeen (countKeyed s)
  { v with pair := { v.pair with joinFrom := none, partnerFound := true, refused := false } }

theorem recordHeard_eq {s : State} (hkeyed : s.pair.keyedRecs + 1 ≠ 2 ^ 31) : ∃ q, recordHeard s = { s with
    host := { s.host with queued := q }
    pair := { s.pair with
      peerUp := true, peerLast := now s, degPeer := false, keyedRecs := s.pair.keyedRecs + 1, joinFrom := none
      partnerFound := true, refused := false } } := by
  obtain ⟨q, hq⟩ := peerSeen_eq { s with pair := { s.pair with keyedRecs := s.pair.keyedRecs + 1 } }
  refine ⟨q, ?_⟩
  rw [recordHeard, countKeyed_eq hkeyed, hq]
  rfl

theorem receiveRecord_standby {s : State} {r : PickRecord} (htalks : peerTalks s = true) (hrole : s.pair.role = .standby)
    (hkeyed : s.pair.keyedRecs + 1 ≠ 2 ^ 31) (hcons : r.parts.cons = none) : receiveRecord s r = applyRecord (recordHeard s) r := by
  obtain ⟨q, hq⟩ := recordHeard_eq hkeyed
  have hheard : (peerSeen (countKeyed s)).pair.role = s.pair.role := (congrArg (fun x : State => x.pair.role) hq :)
  unfold receiveRecord
  extract_lets v own w _ x
  have hv : v.pair.role = .standby := hheard.trans hrole
  have hw : w = v := if_neg (by rw [hv]; decide)
  have hx : x = recordHeard s := by
    show { w with pair := { w.pair with joinFrom := none, partnerFound := true, refused := false } } = recordHeard s
    rw [hw]
    rfl
  rw [if_neg (by simp [htalks]), if_neg (by rw [hv]; exact fun h => absurd h.1 (by decide)), hcons]
  exact congrArg (applyRecord · r) hx

/-- The acknowledgement of a synchronised standby (R336). -/
theorem ackRecord_synced {s : State} (hsynced : s.pair.synced = true) (htrip : s.thm.tripped = false) (r : PickRecord) :
    ackRecord s r false = emit s (.peer (.ack r.pick false true (takeoverReady s))) := by
  rw [ackRecord, hsynced, toPeer_emits htrip]

section Unchanged

variable {s : State} {r : PickRecord} {n : Nat} (htalks : peerTalks s = true) (hrole : s.pair.role = .standby)
  (hsynced : s.pair.synced = true) (hstage : s.pair.stage = 0) (hlast : s.pair.lastRec = some n) (hlt : n < r.pick)
  (hhand : r.handover = none) (hparts : r.parts = { steps := r.parts.steps }) (hat : nth s.pair.partAt 5 0 ≤ r.pick)
  (htrip : s.thm.tripped = false) (hkeyed : s.pair.keyedRecs + 1 ≠ 2 ^ 31)
include htalks hrole hsynced hstage hlast hlt hhand hparts hat htrip hkeyed

/-- A record in which no part changed is taken and acknowledged. -/
theorem receiveRecord_unchanged {waiting : List Nat} {out : List Output} (hask : askMissed (recordHeard s) r =
      { recordHeard s with pair := { (recordHeard s).pair with waiting := waiting }, out := out }) :
    ∃ ready, receiveRecord s r =
      emit (recordTaken (recordHeard s) r waiting out) (.peer (.ack r.pick false true ready)) := by
  obtain ⟨q, hq⟩ := recordHeard_eq hkeyed
  refine ⟨_, (receiveRecord_standby htalks hrole hkeyed (by rw [hparts])).trans ((applyRecord_unchanged (by rw [hq]; exact hsynced)
    (by rw [hq]; exact hstage) (by rw [hq]; exact hlast) (.inr hlt) hhand hparts (by rw [hq]; exact hat) hask).trans
    (ackRecord_synced (by rw [hq]; exact hsynced) (by rw [hq]; exact htrip) r))⟩

theorem receiveRecord_pick (hflush : r.flush = false) : ∃ ready, receiveRecord s r = emit
    (recordTaken (recordHeard s) r (s.pair.waiting ++ missedPicks n r.pick)
      (s.out ++ if missedPicks n r.pick = [] then [] else [.peer (.askParts (missedPicks n r.pick))]))
    (.peer (.ack r.pick false true ready)) := by
  obtain ⟨q, hq⟩ := recordHeard_eq hkeyed
  refine receiveRecord_unchanged htalks hrole hsynced hstage hlast hlt hhand hparts hat htrip hkeyed ?_
  rw [hq]
  exact askMissed_eq hlast hflush htrip

theorem receiveRecord_flush (hflush : r.flush = true) : ∃ ready, receiveRecord s r =
    emit (recordTaken (recordHeard s) r s.pair.waiting s.out) (.peer (.ack r.pick false true ready)) := by
  obtain ⟨q, hq⟩ := recordHeard_eq hkeyed
  refine receiveRecord_unchanged htalks hrole hsynced hstage hlast hlt hhand hparts hat htrip hkeyed ?_
  rw [hq]
  exact askMissed_flush (n := n) hlast hflush

end Unchanged

/-- An active goes on in its role under a record of a lower epoch (R354). -/
theorem receiveRecord_lower {s : State} {r : PickRecord} (htalks : peerTalks s = true) (hrole : s.pair.role = .active)
    (hlink : s.pair.degPeer = false) (hlower : r.epoch < liveFld s Fld.PAIR_EPOCH_EPOCH) (hkeyed : s.pair.keyedRecs + 1 ≠ 2 ^ 31) :
    receiveRecord s r =
      { s with pair := { s.pair with peerUp := true, peerLast := now s, keyedRecs := s.pair.keyedRecs + 1 } } := by
  let a : State := { s with pair := { s.pair with keyedRecs := s.pair.keyedRecs + 1 } }
  have hseen : peerSeen (countKeyed s) = linkSeen a := by
    rw [countKeyed_eq hkeyed]
    exact peerSeen_undegraded (s := a) hlink
  have hlink' : ({ s.pair with degPeer := false } : PairSt) = s.pair := by rw [← hlink]
  have hlow : (!(decide (liveFld (linkSeen a) Fld.PAIR_EPOCH_EPOCH < r.epoch ∨
      liveFld (linkSeen a) Fld.PAIR_EPOCH_EPOCH = r.epoch ∧ (linkSeen a).pair.unitB = true))) = true := by
    have hsame : liveFld (linkSeen a) Fld.PAIR_EPOCH_EPOCH = liveFld s Fld.PAIR_EPOCH_EPOCH := rfl
    rw [hsame, Bool.not_eq_true', decide_eq_false_iff_not]
    omega
  unfold receiveRecord
  rw [if_neg (by simp [htalks]), hseen]
  refine (if_pos ⟨hrole, hlow⟩).trans ?_
  exact congrArg (fun p : PairSt => { s with pair := { p with
    peerUp := true, peerLast := now s, keyedRecs := s.pair.keyedRecs + 1 } }) hlink'

/-! #### Acknowledgements and records sent again (R338, R339, R357) -/

/-- What an acknowledgement tells the active of its partner. -/
def ackNoted (s : State) (pick : Nat) (synced ready : Bool) : State :=
  let v := peerSeen s
  { v with pair := { v.pair with
    ackPick := Nat.max v.pair.ackPick pick, ackAt := now v, partnerLost := false, partnerSynced := synced, partnerReady := ready } }

theorem ackNoted_eq (s : State) (pick : Nat) (synced ready : Bool) : ∃ q, ackNoted s pick synced ready = { s with
    host := { s.host with queued := q }
    pair := { s.pair with
      peerUp := true, peerLast := now s, degPeer := false, ackPick := Nat.max s.pair.ackPick pick, ackAt := now s
      partnerLost := false, partnerSynced := synced, partnerReady := ready } } := by
  obtain ⟨q, hq⟩ := peerSeen_eq s
  refine ⟨q, ?_⟩
  rw [ackNoted, hq]
  rfl

theorem execRecordAckReceive_active {s s0 : State} {t : Nat} (h0 : s0 = begin s t) (htalks : peerTalks s0 = true)
    (hrole : s0.pair.role = .active) (pick : Nat) (refuse synced ready : Bool) :
    execRecordAckReceive t pick refuse synced ready s = .next (
      let u := releaseHeld (ackNoted s0 pick synced ready) false pick
      if s0.pair.handover.isNone then u else if refuse then refuseHandover u
      else if s0.pair.handPick ≤ pick then acceptHandover u else u) := by
  obtain ⟨q, hq⟩ := ackNoted_eq s0 pick synced ready
  have hacts : ¬ (s0.pair.role ≠ .active ∨ (!peerTalks s0) = true) := by simp [hrole, htalks]
  unfold execRecordAckReceive
  rw [← h0]
  extract_lets a b _ c u
  have hpair : u.pair = (ackNoted s0 pick synced ready).pair := HostOnly.pair_eq (hostOnly_releaseHeld _ _ _)
  have hhand : u.pair.handover = s0.pair.handover := by rw [hpair, hq]
  have hpick : u.pair.handPick = s0.pair.handPick := by rw [hpair, hq]
  refine congrArg _ ((if_neg hacts).trans ?_)
  rw [hhand, hpick]
  rfl

/-- Records sent again, each counted for the key: none of them is the one that asks for a fresh set-up (R501). -/
theorem foldl_sendAgain (l : List PickRecord) {s : State} (htrip : s.thm.tripped = false)
    (hkeyed : s.pair.keyedRecs + l.length < 2 ^ 31) :
    l.foldl (fun s r => countKeyed (toPeer s (.record r))) s = { s with
      pair := { s.pair with keyedRecs := s.pair.keyedRecs + l.length }
      out := s.out ++ l.map fun r => .peer (.record r) } := by
  induction l generalizing s with
  | nil => simp
  | cons r l ih =>
    rw [List.length_cons] at hkeyed
    let v : State := { emit s (.peer (.record r)) with pair := { s.pair with keyedRecs := s.pair.keyedRecs + 1 } }
    have hone : countKeyed (toPeer s (.record r)) = v := by
      rw [toPeer_emits htrip]
      exact countKeyed_eq (s := emit s (.peer (.record r))) (by rw [emit_pair]; omega)
    have hcount : v.pair.keyedRecs + l.length = s.pair.keyedRecs + (l.length + 1) := by
      show s.pair.keyedRecs + 1 + l.length = _
      omega
    rw [List.foldl_cons, hone, ih (s := v) htrip (by omega), hcount]
    simp [v, emit]

theorem execMissedPartsRequest_sends {s s0 : State} {t : Nat} {picks : List Nat} {rs : List PickRecord} (h0 : s0 = begin s t)
    (hrs : rs = s0.pair.sentRecs.filter fun r => picks.contains r.pick && !r.flush) (htalks : peerTalks s0 = true)
    (hrole : s0.pair.role = .active) (htrip : s0.thm.tripped = false) (hkeyed : s0.pair.keyedRecs + rs.length < 2 ^ 31) :
    execMissedPartsRequest t picks s = .next { s0 with
      pair := { s0.pair with keyedRecs := s0.pair.keyedRecs + rs.length }
      out := s0.out ++ rs.map fun r => .peer (.record r) } := by
  have hacts : ¬ (s0.pair.role ≠ .active ∨ (!peerTalks s0) = true) := by simp [hrole, htalks]
  rw [← foldl_sendAgain rs htrip hkeyed]
  subst hrs h0
  exact congrArg _ (if_neg hacts)

/-! #### Stages of resynchronisation (R364, R549) and the key of the link (R501) -/

theorem execResyncStageDone_stage {s s1 : State} {t : Nat} {data : ResyncData} (h1 : s1 = flushUpdate (begin s t))
    (htalks : peerTalks s1 = true) (hrole : s1.pair.role = .standby) (hstage : s1.pair.stage = stageOf data) :
    execResyncStageDone t data s = .next (
      if 3 ≤ throttle s1 then s1 else startStage (copyStage s1 data) (s1.pair.stage + 1)) := by
  have hacts : ¬ (s1.pair.role ≠ .standby ∨ (!peerTalks s1) = true) := by simp [hrole, htalks]
  subst h1
  exact congrArg _ ((if_neg hacts).trans (if_pos hstage))

theorem execPeerLinkSetup_done {s s0 : State} {t : Nat} (h0 : s0 = begin s t) (hcap : s0.pair.capable = true)
    (hserves : serving s0 = true) (hstate : s0.sys.st ≠ .recovery) (hkey : keyUsable s0 = true) (hrng : s0.sec.rngFailed = false)
    (ok : Bool) (key : Nat) : execPeerLinkSetup t ok key s = .next (
      if ok = true then { s0 with pair := { s0.pair with keys := some key, keyedRecs := 0 } }
      else peerAuthFail { s0 with pair := { s0.pair with keys := none } } 1) := by
  have hacts : ¬ ((!s0.pair.capable) = true ∨ (!serving s0) = true ∨ s0.sys.st = .recovery ∨ (!keyUsable s0) = true ∨
      s0.sec.rngFailed = true) := by simp [hcap, hserves, hstate, hkey, hrng]
  subst h0
  exact congrArg _ (if_neg hacts)

/-! #### The statement -/

/-- Settles O39: a record without changed parts is followed through its taking; letting replies go is each channel's own turn; the
other clauses are one branch each. -/
theorem pairRecords : Obligations.PairRecords := by
  intro s t hb s0 s1
  have h0 : s0 = begin s t := rfl
  have h1 : s1 = flushUpdate (begin s t) := rfl
  have hb0 : banksOk s0 = true := banks_begin hb t
  have hb1 : banksOk s1 = true := (flushUpdate_keeps (begin_keeps (Keeps.refl s))).banks hb
  have hpick (ok : Bool) (r : PickRecord) :
      exec (.pickRecordReceive t ok r) s = .next (ifAuthentic s1 ok fun s => receiveRecord s { r with flush := false }) := rfl
  have hflush (ok : Bool) (r : PickRecord) :
      exec (.flushRecordReceive t ok r) s = .next (ifAuthentic s1 ok fun s => receiveRecord s { r with flush := true }) := rfl
  clear_value s0 s1
  refine ⟨?taken, ?lower, ?forged, ?ack, ?held, ?again, ?stage, ?sets, ?setup⟩
  case taken =>
    intro r n htalks hrole hsynced hstage hlast hlt hhand hparts hat htrip hkeyed lost
    obtain ⟨q, hq⟩ := recordHeard_eq hkeyed
    obtain ⟨ready, hrec⟩ := receiveRecord_pick (r := { r with flush := false }) htalks hrole hsynced hstage hlast hlt hhand hparts
      hat htrip hkeyed rfl
    obtain ⟨ready', hrec'⟩ := receiveRecord_flush (r := { r with flush := true }) htalks hrole hsynced hstage hlast hlt hhand hparts
      hat htrip hkeyed rfl
    rw [hq] at hrec hrec'
    refine ⟨⟨_, ready, (hpick true r).trans (congrArg _ ((ifAuthentic_true _ _).trans hrec)), ?_⟩,
      ⟨_, ready', (hflush true r).trans (congrArg _ ((ifAuthentic_true _ _).trans hrec')), ?_⟩⟩
    · exact ⟨rfl, rfl, rfl, rfl, rfl, rfl, rfl, rfl, rfl, rfl⟩
    · exact ⟨hlast, rfl, rfl, rfl⟩
  case lower =>
    intro r htalks hrole hlink hlower hkeyed
    exact (hpick true r).trans (congrArg _ ((ifAuthentic_true _ _).trans (receiveRecord_lower htalks hrole hlink hlower hkeyed)))
  case forged =>
    intro r htalks
    exact ⟨authFailed s1 2, (hpick false r).trans (congrArg _ (ifAuthentic_false htalks _)),
      (hflush false r).trans (congrArg _ (ifAuthentic_false htalks _)), authFailed_reported hb1 (by decide)⟩
  case ack =>
    intro pick refuse synced ready htalks hrole
    obtain ⟨q, hq⟩ := ackNoted_eq s0 pick synced ready
    refine ⟨ackNoted s0 pick synced ready, ?_, ?_, ?_, execRecordAckReceive_active h0 htalks hrole pick refuse synced ready⟩ <;> rw [hq]
  case held =>
    intro w single upTo k hk hlen
    exact ⟨releaseHeld_hold hk hlen, fun f hf p r hhold hp hreply hdrop => releaseHeld_goes hk hlen hf hhold hp hreply hdrop⟩
  case again =>
    intro picks rs hrs htalks hrole htrip hkeyed
    exact execMissedPartsRequest_sends h0 hrs htalks hrole htrip hkeyed
  case stage =>
    intro data htalks hrole hstage
    have hexec := execResyncStageDone_stage h1 htalks hrole hstage
    exact ⟨fun hcool => hexec.trans (congrArg _ (if_neg (Nat.not_le.mpr hcool))), fun hhot => hexec.trans (congrArg _ (if_pos hhot))⟩
  case sets =>
    intro x htalks hrole hstage hcool htrip
    have hexec := execResyncStageDone_stage (data := .sets x) h1 htalks hrole hstage
    rw [if_neg (Nat.not_le.mpr hcool), hstage] at hexec
    obtain ⟨hpair, hout, hqueued, hrest⟩ := startStage_asks { s1 with sets := x } (n := 2) (by decide)
    exact ⟨_, hexec, (congrArg State.sets hrest :), hpair, hout htrip, hqueued⟩
  case setup =>
    intro key hcap hserves hstate hkey hrng
    have hexec := execPeerLinkSetup_done h0 hcap hserves hstate hkey hrng
    have hrep := authFailed_reported (s := { s0 with pair := { s0.pair with keys := none } }) hb0 (which := 1) (by decide)
    exact ⟨hexec true key, _, hexec false key, hrep⟩

end Sys2Proof.Laws

/-! ### A step, and a field read after a write (12_commands_and_sets R407, 01_architecture R6) -/

namespace Sys2Proof.Laws

open Sys2Proof Sys2Proof.Machine

/-- Every meaning is written as `.next` of the state it leaves, so each arm of `exec` shows that state. -/
theorem exec_next (c : Instr) (s : State) : ∃ u, exec c s = .next u := by
  cases c <;> exact ⟨_, rfl⟩

theorem exec_keepsNext {c : Instr} {s u : State} (h : exec c s = .next u) : Keeps s u :=
  (exec_keeps c (Keeps.refl s)).of h

/-- Settles O1: the queue with its front command is the second case of `step`. -/
theorem stepRunsFront : Obligations.StepRunsFront :=
  fun _ _ _ => step_of_pending_cons rfl

/-- Settles O2: the empty queue is the first case of `step`. -/
theorem emptyQueueIdles : Obligations.EmptyQueueIdles :=
  fun _ => step_of_pending_nil

/-- Settles O3: the law of each command's meaning holds the queue. -/
theorem queueUntouched : Obligations.QueueUntouched :=
  fun _ _ _ h => (exec_keepsNext h).queue

/-- Settles O4: each arm answers a next state, which keeps the queue and the canonical banks. -/
theorem everyCommandCompletes : Obligations.EveryCommandCompletes := by
  intro c s
  obtain ⟨u, hu⟩ := exec_next c s
  exact ⟨u, hu, (exec_keepsNext hu).queue, (exec_keepsNext hu).banks⟩

end Sys2Proof.Laws

namespace Sys2Proof.Laws

open Sys2Proof Sys2Proof.Machine

theorem ctorIdx_inj {r q : Reg} (h : r.ctorIdx = q.ctorIdx) : r = q := by
  rw [← Reg.ofNat_ctorIdx r, h, Reg.ofNat_ctorIdx]

theorem putBits_off {v lo w x a b : Nat} (h : a + b ≤ lo ∨ lo + w ≤ a) : bitsOf (putBits v lo w x) a b = bitsOf v a b :=
  h.elim bitsOf_putBits_below bitsOf_putBits_above

/-- A field that shares no bit with the field written reads as before. -/
theorem bankGet_bankSet_apart {b : Bank} (h : bankWf b = true) {f g : Field} (hr : g.reg = f.reg)
    (hoff : g.lo + g.width ≤ f.lo ∨ f.lo + f.width ≤ g.lo) (i v e : Nat) : bankGet (bankSet b f i v e) g i e = bankGet b g i e := by
  rw [bankGet, bankGet, hr, bankSet, bankReg, bankLookup_bankWrite h, putBits_off hoff]

/-- Settles O8: the word of the register is written whole, and only its own key. -/
theorem registerReadAfterWrite : Obligations.RegisterReadAfterWrite := by
  intro s f g i v e j d hb hi he hj hd
  refine ⟨liveFld_setFld hb f i v e, fun hne => ?_, fun hr hoff => bankGet_bankSet_apart (live_wf hb) hr hoff i v e⟩
  refine liveFld_of_kept (regsKept_setFld (live_wf hb) f i v e) g j d fun hk => ?_
  obtain ⟨hreg, hidx, helem⟩ := regKey_inj hj hd hi he (List.mem_singleton.mp hk)
  exact hne.elim (· (ctorIdx_inj hreg)) (Or.elim · (· hidx) (· helem))

end Sys2Proof.Laws

/-! ### Replies and the taking of messages (11_control_interface R384 to R393, R404) -/

namespace Sys2Proof.Laws

open Sys2Proof Sys2Proof.Machine

/-- A channel changed and its ready replies moved out: the reply of a message in execution that is not dropped stands in it. -/
theorem heldReplies_pump_setMbx {s : State} {k : Nat} (hk : k < s.host.chans.length) {f : Mbx → Mbx} {x : Flight} {r : Reply}
    (hx : x ∈ (f (mbx s k)).flight) (hr : x.reply = some r) (hdrop : x.drop = false) :
    r ∈ heldReplies (mbx (pump (setMbx s k f) k) k) :=
  heldReplies_pump (by rwa [length_chans_setMbx]) (.inr ⟨x, by rwa [mbx_setMbx hk], hr, hdrop⟩)

/-- Settles O10: the message in execution that waits for this reply has it, and a reply stays in its channel. -/
theorem replyReachesItsChannel : Obligations.ReplyReachesItsChannel := by
  intro s k tag changes r f hk hf hdrop
  obtain ⟨htag, hnone⟩ : f.tag = tag ∧ f.reply = none := by simpa using List.find?_some hf
  unfold answer
  rw [hf]
  refine heldReplies_pump_setMbx hk (List.mem_map.mpr ⟨f, List.mem_of_find?_eq_some hf, if_pos ⟨htag, by rw [hnone]; rfl⟩⟩) ?_ hdrop
  rw [replyOf]

theorem live_sealOut (s : State) (k : Nat) : (sealOut s k).live = s.live := by
  unfold sealOut
  split
  · rfl
  · split
    · rfl
    · split <;> rfl

/-- Filling an outbound mailbox changes no register but DB_D2H_STATUS. -/
theorem regsKept_outFilled {s : State} (h : bankWf s.live = true) (k : Nat) :
    regsKept s (outFilled s k) [regKey .DB_D2H_STATUS 0 0] := by
  have hdoor : regsKept s (doorbell (sealOut s k) (chanBit k)) [regKey .DB_D2H_STATUS 0 0] :=
    regsKept_trans (regsKept_of_live (live_sealOut s k) _) (regsKept_doorbell (by rwa [live_sealOut]) _)
  unfold outFilled
  extract_lets v
  split
  · split
    · exact regsKept_trans hdoor (regsKept_of_live (live_sendDatagram v _ _ _) _)
    · exact hdoor
  · exact hdoor

theorem regsKept_pump {s : State} (h : bankWf s.live = true) (k : Nat) : regsKept s (pump s k) [regKey .DB_D2H_STATUS 0 0] := by
  unfold pump
  extract_lets m
  split
  next fl o q filled =>
    extract_lets v
    split
    · exact regsKept_outFilled (s := v) h k
    · exact regsKept_refl _ _

theorem regsKept_answer {s : State} (h : bankWf s.live = true) (k tag : Nat) (changes : Bool) (r : MsgRes) :
    regsKept s (answer s k tag changes r) [regKey .DB_D2H_STATUS 0 0] := by
  unfold answer
  split
  · exact regsKept_refl _ _
  · exact regsKept_pump (s := setMbx s k _) h k

theorem chanOnly_answer (s : State) (k tag : Nat) (changes : Bool) (r : MsgRes) : ChanOnly k s (answer s k tag changes r) := by
  unfold answer
  split
  · exact .of_chans rfl
  · exact (chanOnly_setMbx s k _).trans (chanOnly_pump _ k)

/-- Settles O11: a reply is a change of its channel, whose ready replies then move out. -/
theorem replyFrame : Obligations.ReplyFrame :=
  fun s k tag changes r hb => ⟨hostOnly_answer s k tag changes r, regsKept_answer (live_wf hb) k tag changes r,
    (chanOnly_answer s k tag changes r).2⟩

/-! #### Taking a message -/

/-- On the channels without sessions a message taken is noted in its channel alone (R490). -/
theorem touchSec_plain {k : Nat} (h : k < 4) (s : State) : touchSec s k = s := if_pos (.inl h)

/-- What a message is counted on (R385): the channel as it is, or with its pending message taken out of the inbound mailbox. -/
theorem takenState_eq (s : State) (k cls op tag : Nat) : ∃ f, takenState s k cls op tag = countTaken (setMbx s k f) k := by
  unfold takenState
  split
  · exact ⟨_, rfl⟩
  · exact ⟨id, by rw [setMbx_eq_self rfl]⟩

theorem live_bump (s : State) (f : Field) (i n : Nat) : (bump s f i n).live = bankSet s.live f i (bankGet s.live f i + n) 0 := rfl

/-- On N0 to N3 taking a message counts it and changes nothing outside the host interface (R404). -/
theorem entered_plain {k : Nat} (hk : k < 4) (s : State) (cls op tag : Nat) :
    HostOnly s (entered s k cls op tag) ∧ (entered s k cls op tag).live = (bump s Fld.MBX_TAKEN_MESSAGES_TAKEN k).live := by
  obtain ⟨f, hf⟩ := takenState_eq s k cls op tag
  rw [entered, enterFlight, hf, countTaken, touchSec_plain hk]
  refine ⟨?_, by simp only [setMbx_live, live_bump]⟩
  exact (hostOnly_setMbx s k f).trans ((hostOnly_setMbx _ k _).trans ((hostOnly_setFld _ Fld.MBX_TAKEN_MESSAGES_TAKEN k _ 0).trans
    ((hostOnly_setMbx _ k _).trans (hostOnly_setMbx _ k _))))

/-- Settles O12: the message is counted once, and its channel holds it last in execution. -/
theorem takingAMessage : Obligations.TakingAMessage := by
  intro s k cls op tag changes exempt hb hk hacts
  obtain ⟨hflight, hnew, -⟩ := entered_flight hacts
  obtain ⟨hframe, hlive⟩ := entered_plain hk s cls op tag
  refine ⟨_, hflight, hnew, hframe, ?_, ?_⟩
  · exact regsKept_trans (regsKept_setFld (live_wf hb) Fld.MBX_TAKEN_MESSAGES_TAKEN k _ 0) (regsKept_of_live hlive _)
  · rw [liveFld, hlive]
    exact liveFld_bump hb Fld.MBX_TAKEN_MESSAGES_TAKEN k 1

/-- Settles O15: the recorded reply is put to the message, which was the last to enter execution, before any action. -/
theorem recordedMessageNotRepeated : Obligations.RecordedMessageNotRepeated := by
  intro s k cls op tag changes exempt act r fs hk hcompare hr hflight
  have hrun : runMessage s k tag changes exempt act = pump (setMbx s k fun m => { m with flight := m.flight.map fun f =>
      if f.tag = tag ∧ f.reply.isNone then { f with reply := some { r.reply with isRepeat := true } } else f }) k := by
    unfold runMessage
    dsimp only
    rw [hcompare, if_pos rfl, hr]
  dsimp only
  rw [hrun]
  refine ⟨(hostOnly_setMbx s k _).trans (hostOnly_pump _ k), ?_⟩
  have hmem : ({ cls := cls, op := op, tag := tag } : Flight) ∈ (mbx s k).flight := by simp [hflight]
  exact heldReplies_pump_setMbx hk (List.mem_map.mpr ⟨_, hmem, if_pos ⟨rfl, rfl⟩⟩) rfl rfl

/-! #### A message on a full channel (R388) -/

theorem chans_setSummary (s : State) (k : Nat) : (setSummary s k).host.chans = s.host.chans := by
  unfold setSummary
  extract_lets u v w
  have hu : u.host.chans = s.host.chans := by
    unfold u
    split <;> rfl
  split_ifs
  · exact hu
  · exact hu
  · exact (chans_doorbell w 19).trans hu

theorem chans_sticky (s : State) (f : Field) (i b : Nat) : (sticky s f i b).host.chans = s.host.chans := by
  unfold sticky
  extract_lets u v w
  split_ifs
  · rfl
  · rfl
  · exact chans_setSummary w _

/-- The registers and notices of a message discarded, on a channel that notes its tag. -/
def busyNoted (s : State) (k tag : Nat) : State :=
  doorbell (sticky (setMbx (bump s Fld.MBX_REJECTS_BUSY_REJECTS k) k fun m => { m with rejectTag := tag, busyEv := true })
    Fld.MBX_STATUS_BUSY_REJECT k) 22

theorem busyReject_eq (s : State) (k tag : Nat) : busyReject s k tag = busyNoted (touchSec s k) k tag ∨
    busyReject s k tag = raise (busyNoted (touchSec s k) k tag) 0x1101 (chanBit k) tag := by
  unfold busyReject
  extract_lets u ev v w x
  cases ev
  · exact .inr rfl
  · exact .inl rfl

theorem hostOnly_busyNoted (s : State) (k tag : Nat) : HostOnly s (busyNoted s k tag) :=
  (hostOnly_setFld s Fld.MBX_REJECTS_BUSY_REJECTS k _ 0).trans ((hostOnly_setMbx _ k _).trans
    ((hostOnly_sticky _ Fld.MBX_STATUS_BUSY_REJECT k 0).trans (hostOnly_doorbell _ 22)))

theorem mbx_busyNoted {s : State} {k : Nat} (hk : k < s.host.chans.length) (tag : Nat) :
    mbx (busyNoted s k tag) k = { mbx s k with rejectTag := tag, busyEv := true } := by
  rw [busyNoted, mbx, chans_doorbell, chans_sticky]
  exact mbx_setMbx (s := bump s Fld.MBX_REJECTS_BUSY_REJECTS k) hk _

/-- A message discarded shows in BUSY_REJECT and bit 22 of the doorbell. -/
theorem busyNoted_registers {s : State} (hb : banksOk s = true) {k : Nat} (hk : k < 8192) (tag : Nat) :
    stickyOn (busyNoted s k tag) Fld.MBX_STATUS_BUSY_REJECT k = true ∧
      (liveFld (busyNoted s k tag) Fld.DB_D2H_STATUS_STATUS).testBit 22 = true := by
  have hnoted (v : State) (hv : banksOk v = true) :
      stickyOn (doorbell (sticky v Fld.MBX_STATUS_BUSY_REJECT k) 22) Fld.MBX_STATUS_BUSY_REJECT k = true ∧
        (liveFld (doorbell (sticky v Fld.MBX_STATUS_BUSY_REJECT k) 22) Fld.DB_D2H_STATUS_STATUS).testBit 22 = true := by
    have hs := banks_sticky hv Fld.MBX_STATUS_BUSY_REJECT k 0
    refine ⟨?_, testBit_doorbell hs (by decide)⟩
    rw [stickyOn, liveFld_doorbell_ne hs (by decide) hk, ← stickyOn]
    exact stickyOn_sticky (live_wf hv) (by decide) (regKey_ne hk (by decide) (by decide)) (regKey_ne hk (by decide) (by decide))
  exact hnoted (setMbx (bump s Fld.MBX_REJECTS_BUSY_REJECTS k) k _) (banks_setFld hb Fld.MBX_REJECTS_BUSY_REJECTS k _ 0)

/-- A message taken in a session uses its number and starts the idle time again; nothing else changes (R489, R490). -/
theorem touchSec_rest (s : State) (k : Nat) : HostOnly s { touchSec s k with sec := s.sec } ∧
    (touchSec s k).host = s.host ∧ (touchSec s k).live = s.live := by
  unfold touchSec
  split <;> exact ⟨rfl, rfl, rfl⟩

theorem secSession_touchSec {s : State} {k : Nat} (hk : 4 ≤ k) (hopen : (secSession s k).stage = 2)
    (hlen : k - 4 < s.sec.sessions.length) : (secSession (touchSec s k) k).taken = (secSession s k).taken + 1 := by
  rw [touchSec, if_neg (by omega), secSession, setSession, nth_upd hlen, ← secSession]

/-- A change of the host interface beside one of the security core is one of the host interface but for the core. -/
theorem HostOnly.withSec {s v u : State} (hv : HostOnly s { v with sec := s.sec }) (hu : HostOnly v u) :
    HostOnly s { u with sec := s.sec } := by
  unfold HostOnly at hv hu ⊢
  rw [← hv, ← hu]

theorem HostOnly.sec_eq {s u : State} (h : HostOnly s u) : u.sec = s.sec := by
  unfold HostOnly at h
  rw [← h]

/-- What a message discarded leaves: the number it used in its session, and the notices. -/
theorem busyReject_law {s : State} (hb : banksOk s = true) {k : Nat} (hk : k < s.host.chans.length) (hk' : k < 8192) (tag : Nat) :
    HostOnly (touchSec s k) (busyReject s k tag) ∧ mbx (busyReject s k tag) k = { mbx s k with rejectTag := tag, busyEv := true } ∧
      stickyOn (busyReject s k tag) Fld.MBX_STATUS_BUSY_REJECT k = true ∧
      (liveFld (busyReject s k tag) Fld.DB_D2H_STATUS_STATUS).testBit 22 = true := by
  obtain ⟨-, hhost, -⟩ := touchSec_rest s k
  have hnoted := hostOnly_busyNoted (touchSec s k) k tag
  obtain ⟨hstatus, hdoor⟩ := busyNoted_registers ((touchSec_keeps (Keeps.refl s)).banks hb) hk' tag
  have hchan := mbx_busyNoted (s := touchSec s k) (by rwa [hhost]) tag
  rw [show mbx (touchSec s k) k = mbx s k by rw [mbx, hhost, ← mbx]] at hchan
  rcases busyReject_eq s k tag with h | h
  · exact h ▸ ⟨hnoted, hchan, hstatus, hdoor⟩
  · exact h ▸ ⟨hnoted.trans (hostOnly_raise _ _ _ _), hchan, hstatus, hdoor⟩

/-- Settles O13: the message is discarded by `busyReject`, after its number is used. -/
theorem sixthMessageDiscarded : Obligations.SixthMessageDiscarded := by
  intro s k cls op tag changes exempt act hb hserves hpend htakes hspent hk hk' hfull
  have hmsg : message s k cls op tag changes exempt act = busyReject s k tag := by
    simp [message, hserves, pendingIs, hpend, htakes, hspent, hfull]
  dsimp only
  rw [hmsg]
  obtain ⟨hrest, hchan, hstatus, hdoor⟩ := busyReject_law hb hk hk' tag
  rw [hchan]
  refine ⟨HostOnly.withSec (touchSec_rest s k).1 hrest, fun h4 => ?_, fun h4 hopen hlen => ?_, rfl, hstatus, hdoor, rfl, rfl, rfl⟩
  · rw [HostOnly.sec_eq hrest, touchSec_plain h4]
  · rw [secSession, HostOnly.sec_eq hrest, ← secSession, secSession_touchSec h4 hopen hlen]

end Sys2Proof.Laws

/-! ### Locks (11_control_interface R397 to R400) -/

namespace Sys2Proof.Laws

open Sys2Proof Sys2Proof.Machine

/-- What a lock read answers to a master that may read (R397, R399). -/
theorem execLockRead_eq {s s0 : State} {t : Nat} (h0 : s0 = begin s t) {lock : Fin 32} {master : Fin 6}
    (hmay : master.val = 5 → s0.sec.scopes.testBit 1 = true) :
    exec (.lockRead t lock master) s = .next (emit (readLock s0 lock master).2 (.value [(readLock s0 lock master).1])) := by
  subst h0
  have hbar : ¬(master.val = 5 ∧ (!(begin s t).sec.scopes.testBit 1) = true) := fun ⟨hm, hno⟩ => by simp [hmay hm] at hno
  exact congrArg Host.Outcome.next (if_neg hbar)

theorem readLock_reserved (s : State) {l master : Nat} (hl : 24 ≤ l) (hm : 2 ≤ master) : readLock s l master = (7, s) :=
  if_pos ⟨hl, hm⟩

theorem readLock_held {s : State} {l master : Nat} (hopen : l < 24 ∨ master < 2) (hv : nth s.host.locks l 0 ≠ 0) :
    readLock s l master = (nth s.host.locks l 0, s) := by
  unfold readLock
  rw [if_neg (by omega), if_neg hv]

theorem readLock_free {s : State} {l master : Nat} (hopen : l < 24 ∨ master < 2) (hv : nth s.host.locks l 0 = 0) :
    readLock s l master = (0, { s with host := { s.host with locks := upd s.host.locks l fun _ => master + 1 } }) := by
  unfold readLock
  rw [if_neg (by omega), if_pos hv]

/-- Settles O43: a read is one of the three of `readLock`, or refused before it. -/
theorem lockReads : Obligations.LockReads := by
  intro s t lock master s0 v
  have h0 : s0 = begin s t := rfl
  clear_value s0
  refine ⟨fun hm hscope => ?_, fun hmay => ⟨fun hl hm => ?_, fun hopen hv => ?_, fun hopen hv => ?_⟩⟩
  · subst h0
    exact congrArg Host.Outcome.next (if_pos ⟨hm, by rw [hscope]; rfl⟩)
  · rw [execLockRead_eq h0 hmay, readLock_reserved s0 hl hm]
    rfl
  · rw [execLockRead_eq h0 hmay, readLock_held hopen hv]
    rfl
  · refine ⟨_, execLockRead_eq h0 hmay, ?_⟩
    rw [readLock_free hopen hv]
    exact ⟨rfl, fun hlen => nth_upd hlen _ 0, fun l hl => nth_upd_ne hl _ 0, rfl⟩

/-- Settles O44: the holder's write clears the lock, any other is the other branch. -/
theorem lockRelease : Obligations.LockRelease := by
  intro s t lock master s0
  refine ⟨fun hheld => ⟨_, congrArg Host.Outcome.next (if_pos hheld), ?_, fun l hl => nth_upd_ne hl _ 0, rfl⟩,
    fun hother => congrArg Host.Outcome.next (if_neg hother)⟩
  have hlen : lock < s0.host.locks.length := by
    by_contra h
    rw [nth, List.getElem?_eq_none (by omega)] at hheld
    simp at hheld
  exact nth_upd hlen _ 0

/-! ### The management port (18_power_and_electrical R570, R571) -/

theorem mgAnswer_serving {s : State} (h : serving s = true) (bs : List Byte) :
    mgAnswer s bs = { s with out := s.out ++ [.smbus bs] } := if_pos h

theorem mgAnswer_silent {s : State} (h : serving s = false) (bs : List Byte) : mgAnswer s bs = s := if_neg (by simp [h])

/-- The bits of FAULT_SUMMARY AND NOT FAULT_MASK (R604). -/
theorem testBit_unmasked (s : State) (k : Nat) : (unmasked s).testBit (k + 1) =
    ((liveFld s Fld.FAULT_SUMMARY_SUBSYSTEM).testBit k && !(liveFld s Fld.FAULT_MASK_MASK).testBit (k + 1)) := by
  have hmix := testBit_mix (k + 1) (liveFld s Fld.FAULT_SUMMARY_SUBSYSTEM * 2) (liveFld s Fld.FAULT_MASK_MASK) 0
  rw [Nat.zero_and, Nat.add_zero] at hmix
  have hdouble : (liveFld s Fld.FAULT_SUMMARY_SUBSYSTEM * 2).testBit (k + 1) = (liveFld s Fld.FAULT_SUMMARY_SUBSYSTEM).testBit k := by
    rw [Nat.testBit_add_one, Nat.mul_div_cancel _ (by decide)]
  rw [unmasked, hmix, hdouble]
  cases (liveFld s Fld.FAULT_MASK_MASK).testBit (k + 1) <;> simp

theorem unmasked_even (s : State) : (unmasked s).testBit 0 = false := by
  have hmix := testBit_mix 0 (liveFld s Fld.FAULT_SUMMARY_SUBSYSTEM * 2) (liveFld s Fld.FAULT_MASK_MASK) 0
  rw [Nat.zero_and, Nat.add_zero] at hmix
  rw [unmasked, hmix, Nat.testBit_zero (liveFld s Fld.FAULT_SUMMARY_SUBSYSTEM * 2)]
  simp

/-- MG_ALERT_N has a fault to report when one of the 18 summary bits stands unmasked. -/
theorem unmasked_ne_zero_iff (s : State) : unmasked s ≠ 0 ↔ ∃ k, k < 18 ∧ (liveFld s Fld.FAULT_SUMMARY_SUBSYSTEM).testBit k = true ∧
    (liveFld s Fld.FAULT_MASK_MASK).testBit (k + 1) = false := by
  constructor
  · intro h
    obtain ⟨j, hj⟩ := Nat.exists_testBit_of_ne_zero h
    cases j with
    | zero => exact absurd hj (by rw [unmasked_even]; decide)
    | succ k =>
      rw [testBit_unmasked, Bool.and_eq_true, Bool.not_eq_true'] at hj
      refine ⟨k, ?_, hj⟩
      by_contra hk
      have hlt : liveFld s Fld.FAULT_SUMMARY_SUBSYSTEM < 2 ^ k :=
        (liveFld_lt s Fld.FAULT_SUMMARY_SUBSYSTEM 0 0).trans_le (Nat.pow_le_pow_right (by decide) (Nat.le_of_not_lt hk))
      simp [Nat.testBit_lt_two_pow hlt] at hj
  · rintro ⟨k, -, hset, hmask⟩ hzero
    have hbit := testBit_unmasked s k
    simp [hzero, hset, hmask] at hbit

/-- SYS_ROLE's first byte (R368). -/
theorem leBytes_sysRole (s : State) : leBytes 1 (sysRole s) = leBytes 1 (roleCode s.pair.role + 4 * bit s.pair.unitB +
    8 * bit s.pair.lease + 16 * bit s.pair.peerUp + 32 * bit s.pair.hbOk) := by
  simp only [leBytes, sysRole, List.cons.injEq, and_true]
  exact BitVec.eq_of_toNat_eq (by simp [BitVec.toNat_ofNat, Nat.add_mul_mod_self_left])

/-- The address byte of an alert response (R571). -/
theorem leBytes_mgAddress (s : State) :
    leBytes 1 (2 * mgAddress s) = [if s.pair.unitB = true ∨ s.rst.both = true then 0x9A else 0x98] := by
  simp only [mgAddress, Bool.or_eq_true]
  split <;> rfl

/-- Settles O60: each read is `mgAnswer` of its bytes, the alert response one while MG_ALERT_N is low. -/
theorem managementPort : Obligations.ManagementPort := by
  intro s t s0 say
  have hsay (hs : serving s0 = true) (bs : List Byte) : mgAnswer s0 bs = say bs := mgAnswer_serving hs bs
  have hsilent (hs : serving s0 = false) (bs : List Byte) : Host.Outcome.next (mgAnswer s0 bs) =
      (.next s0 : Host.Outcome State Fault Refusal) := congrArg _ (mgAnswer_silent hs bs)
  have halert : exec (.mgAlertResponse t) s = .next (if alertLow s0 then mgAnswer s0 (leBytes 1 (2 * mgAddress s0)) else s0) := rfl
  have hlow : alertLow s0 = true ↔ serving s0 = true ∧ (liveFld s0 Fld.THM_STATUS_LEVEL ≠ 0 ∨ unmasked s0 ≠ 0) := by
    simp [alertLow, throttle]
  refine ⟨fun hs => ⟨?_, ?_, ?_, ?_, ?_⟩, fun hs => ⟨hsilent hs _, hsilent hs _, hsilent hs _, hsilent hs _, hsilent hs _, ?_⟩,
    ⟨fun hs hopen => ?_, fun hlevel hopen => ?_⟩, rfl⟩
  · exact congrArg _ (hsay hs _)
  · exact congrArg _ ((hsay hs _).trans (congrArg say (leBytes_sysRole s0)))
  · exact congrArg _ (hsay hs _)
  · exact congrArg _ ((hsay hs _).trans (congrArg (fun n => say (leBytes 4 n)) (Nat.mul_comm _ _)))
  · exact congrArg _ (hsay hs _)
  · rw [halert, if_neg (by simp [hlow, hs])]
  · rw [halert, if_pos (hlow.mpr ⟨hs, hopen.imp_right (unmasked_ne_zero_iff s0).mpr⟩), hsay hs, leBytes_mgAddress]
  · rw [halert, if_neg]
    rintro h
    exact (hlow.mp h).2.elim (· hlevel) fun hne => hopen ((unmasked_ne_zero_iff s0).mp hne)

end Sys2Proof.Laws

/-! ### Notices to the host and the records of the security core (11_control_interface R375 to R377, R396; 14_security R508) -/

namespace Sys2Proof.Laws

open Sys2Proof Sys2Proof.Machine

/-! #### What a notice to the host changes -/

/-- From `s` to `u` the host was given notice and nothing else happened: registers outside the sets, the outputs and, of the host
interface, what interrupts, datagrams and the bits set in the cycle are reckoned from. -/
def Notice (s u : State) : Prop := ∃ (l : Bank) (o : List Output) (h : HostIf), u = { s with live := l, out := o, host := { s.host with
  session := h.session, irqSent := h.irqSent, irqDue := h.irqDue, dgSeq := h.dgSeq, setTick := h.setTick, setNow := h.setNow } }

theorem Notice.refl (s : State) : Notice s s := ⟨s.live, s.out, s.host, rfl⟩

theorem Notice.trans {a b c : State} (h : Notice a b) (k : Notice b c) : Notice a c := by
  obtain ⟨_, _, _, rfl⟩ := h
  obtain ⟨l, o, h, rfl⟩ := k
  exact ⟨l, o, h, rfl⟩

theorem Notice.ite {s u v : State} {c : Prop} [Decidable c] (hu : Notice s u) (hv : Notice s v) : Notice s (if c then u else v) := by
  split <;> assumption

theorem notice_setFld (s : State) (f : Field) (i v e : Nat) : Notice s (setFld s f i v e) := ⟨bankSet s.live f i v e, s.out, s.host, rfl⟩

theorem notice_noteSet (s : State) (key mask : Nat) : Notice s (noteSet s key mask) := ⟨s.live, s.out, (noteSet s key mask).host, rfl⟩

theorem notice_sendDatagram (s : State) (kind chan : Nat) (body : List Byte) : Notice s (sendDatagram s kind chan body) := by
  unfold sendDatagram
  split
  · exact .refl s
  · exact ⟨s.live, _, { s.host with dgSeq := s.host.dgSeq + 1 }, rfl⟩

theorem notice_sendNotify (s : State) : Notice s (sendNotify s) :=
  Notice.trans ⟨s.live, s.out, { s.host with session := s.host.session.map fun x => { x with notify := some (now s) } }, rfl⟩
    (notice_sendDatagram _ _ _ _)

theorem notice_raiseIrq (s : State) (v : Nat) : Notice s (raiseIrq s v) := by
  unfold raiseIrq
  extract_lets h last
  exact Notice.ite
    ⟨s.live, s.out, { h with irqDue := if h.irqDue.contains v then h.irqDue else h.irqDue ++ [v] }, rfl⟩
    ⟨s.live, s.out ++ [.irq v], { h with irqSent := (v, now s) :: h.irqSent.filter (·.1 != v)
                                         irqDue := h.irqDue.filter (· != v) }, rfl⟩

theorem notice_notifyBit (s : State) (n : Nat) : Notice s (notifyBit s n) := by
  unfold notifyBit
  extract_lets u
  have hu : Notice s u := (notice_sendNotify s).ite (.refl s)
  split
  · exact hu
  · split
    · exact hu.trans (notice_raiseIrq u _)
    · exact hu

theorem notice_doorbell (s : State) (n : Nat) : Notice s (doorbell s n) := by
  unfold doorbell
  extract_lets u st v
  have hu : Notice s u := notice_noteSet s _ _
  have hv : Notice s v := hu.trans (notice_setFld u _ _ _ _)
  exact hu.ite (hv.ite (hv.trans (notice_notifyBit v n)))

theorem notice_setSummary (s : State) (k : Nat) : Notice s (setSummary s k) := by
  unfold setSummary
  extract_lets u v w
  have hu : Notice s u := (Notice.refl s).ite (notice_noteSet s _ _)
  have hw : Notice s w := hu.trans (notice_setFld u _ _ _ _)
  exact hu.ite (hw.ite (hw.trans (notice_doorbell w 19)))

theorem notice_sticky (s : State) (f : Field) (i b : Nat) : Notice s (sticky s f i b) := by
  unfold sticky
  extract_lets u v w
  have hu : Notice s u := notice_noteSet s _ _
  have hw : Notice s w := hu.trans (notice_setFld u _ _ _ _)
  exact hu.ite (hw.ite (hw.trans (notice_setSummary w _)))

theorem Notice.hostOnly {s u : State} (h : Notice s u) : HostOnly s u := by
  obtain ⟨_, _, _, rfl⟩ := h
  rfl

/-! #### What is reported and recorded besides -/

/-- From `s` to `u` something was reported and nothing else happened: the host was given notice, events wait for the next boundary,
and the security core has recorded it (R401, R480, R508). -/
def LogOnly (s u : State) : Prop := ∃ (l : Bank) (o : List Output) (h : HostIf) (q : List Event) (x : SecSt), u = { s with
  live := l, out := o, sec := { s.sec with audit := x.audit, certified := x.certified }
  host := { s.host with session := h.session, irqSent := h.irqSent, irqDue := h.irqDue, dgSeq := h.dgSeq, setTick := h.setTick,
                        setNow := h.setNow, queued := s.host.queued ++ q } }

theorem LogOnly.trans {a b c : State} (h : LogOnly a b) (k : LogOnly b c) : LogOnly a c := by
  obtain ⟨_, _, _, q, _, rfl⟩ := h
  obtain ⟨l, o, h, r, x, rfl⟩ := k
  exact ⟨l, o, h, q ++ r, x, by simp only [List.append_assoc]⟩

theorem Notice.logOnly {s u : State} (h : Notice s u) : LogOnly s u := by
  obtain ⟨l, o, h, rfl⟩ := h
  exact ⟨l, o, h, [], s.sec, by rw [List.append_nil]⟩

theorem LogOnly.refl (s : State) : LogOnly s s := (Notice.refl s).logOnly

theorem LogOnly.ite {s u v : State} {c : Prop} [Decidable c] (hu : LogOnly s u) (hv : LogOnly s v) :
    LogOnly s (if c then u else v) := by
  split <;> assumption

/-- The security core's own record written. -/
theorem logOnly_sec (s : State) (x : SecSt) : LogOnly s { s with sec := { s.sec with audit := x.audit, certified := x.certified } } :=
  ⟨s.live, s.out, s.host, [], x, by rw [List.append_nil]⟩

theorem logOnly_trail (s : State) (as : List AuditEntry) (seq : Nat) :
    LogOnly s (setFld { s with sec := { s.sec with audit := as } } Fld.SEC_AUDIT_NEWEST_SEQ 0 seq) :=
  (logOnly_sec s { s.sec with audit := as }).trans (notice_setFld _ _ 0 seq 0).logOnly

theorem logOnly_raise (s : State) (c src a : Nat) : LogOnly s (raise s c src a) :=
  ⟨s.live, s.out, s.host, [⟨now s, c, src, a % 2 ^ 32⟩], s.sec, rfl⟩

theorem logOnly_report (s : State) (f : Field) (i b c src a : Nat) : LogOnly s (raise (sticky s f i b) c src a) :=
  (notice_sticky s f i b).logOnly.trans (logOnly_raise _ _ _ _)

theorem logOnly_audit (s : State) (code k result : Nat) : LogOnly s (audit s code k result) := by
  unfold audit
  extract_lets x on seq chain e old v u
  have hu : LogOnly s u := logOnly_trail s _ seq
  split
  · exact (hu.trans (logOnly_report u Fld.SEC_STATUS_AUDIT_OVERWRITE 0 0 _ _ _)).ite hu
  · exact hu

theorem logOnly_noteCertified (s : State) : LogOnly s (noteCertified s) := by
  unfold noteCertified
  extract_lets c
  refine (LogOnly.refl s).ite ?_
  exact (logOnly_sec s { s.sec with certified := c }).trans ((logOnly_raise _ _ _ _).trans (logOnly_audit _ _ _ _))

/-! #### The host interface and the security core -/

/-- From `s` to `u` nothing but the host interface, the registers outside the sets, the outputs and the security core has changed,
and no lock. -/
structure CommsOnly (s u : State) : Prop where
  rest : { u with host := s.host, live := s.live, out := s.out, sec := s.sec } = s
  locks : u.host.locks = s.host.locks

theorem CommsOnly.refl (s : State) : CommsOnly s s := ⟨rfl, rfl⟩

theorem CommsOnly.trans {a b c : State} (h : CommsOnly a b) (k : CommsOnly b c) : CommsOnly a c :=
  ⟨by rw [← h.rest, ← k.rest], k.locks.trans h.locks⟩

theorem CommsOnly.ite {s u v : State} {c : Prop} [Decidable c] (hu : CommsOnly s u) (hv : CommsOnly s v) :
    CommsOnly s (if c then u else v) := by
  split <;> assumption

theorem CommsOnly.foldl {α : Type} {f : State → α → State} (hf : ∀ x a, CommsOnly x (f x a)) (l : List α) (s : State) :
    CommsOnly s (l.foldl f s) := by
  induction l generalizing s with
  | nil => exact .refl s
  | cons a l ih => exact (hf s a).trans (ih _)

theorem LogOnly.commsOnly {s u : State} (h : LogOnly s u) : CommsOnly s u := by
  obtain ⟨_, _, _, _, _, rfl⟩ := h
  exact ⟨rfl, rfl⟩

theorem LogOnly.chans {s u : State} (h : LogOnly s u) : u.host.chans = s.host.chans := by
  obtain ⟨_, _, _, _, _, rfl⟩ := h
  rfl

theorem commsOnly_setMbx (s : State) (k : Nat) (f : Mbx → Mbx) : CommsOnly s (setMbx s k f) := ⟨rfl, rfl⟩

theorem commsOnly_sealOut (s : State) (k : Nat) : CommsOnly s (sealOut s k) := by
  unfold sealOut
  split
  · exact .refl s
  · split
    · exact .refl s
    · split <;> exact commsOnly_setMbx s k _

theorem commsOnly_outFilled (s : State) (k : Nat) : CommsOnly s (outFilled s k) := by
  unfold outFilled
  extract_lets v
  have hv : CommsOnly s v := (commsOnly_sealOut s k).trans (notice_doorbell _ _).logOnly.commsOnly
  split
  · split
    · exact hv.trans (notice_sendDatagram v _ _ _).logOnly.commsOnly
    · exact hv
  · exact hv

theorem commsOnly_pump (s : State) (k : Nat) : CommsOnly s (pump s k) := by
  unfold pump
  extract_lets m
  split
  next fl o q filled => exact ((commsOnly_setMbx s k _).trans (commsOnly_outFilled _ k)).ite (commsOnly_setMbx s k _)

theorem commsOnly_dropLoad (s : State) : CommsOnly s (dropLoad s) := by
  obtain ⟨_, _, _, h⟩ := dropLoad_eq s
  rw [h]
  exact ⟨rfl, rfl⟩

theorem chans_dropLoad (s : State) : (dropLoad s).host.chans = s.host.chans := by
  obtain ⟨_, _, _, h⟩ := dropLoad_eq s
  rw [h]

/-! #### The end of a secure session (R490) -/

/-- What every end of a session does: the event, the audit entry, the keys wiped, and the load of its channel cut short. -/
def sessionWiped (s : State) (k cause : Nat) : State :=
  let s := audit (raise s 0x0C03 (chanBit k) cause) 0x0C03 k cause
  let s := setSession (setMbx s k fun m => { m with secure := false }) k fun _ => {}
  match s.sec.load with
  | some l => if l.chan = k then dropLoad s else s
  | none => s

theorem endSecure_open {s : State} {k : Nat} (hk : 4 ≤ k) (hopen : (secSession s k).stage = 2) (cause : Nat) :
    endSecure s k cause = if cause = 1 then sessionWiped s k cause else moduleReset (sessionWiped s k cause) k :=
  if_neg (by omega)

theorem endSecure_shut {s : State} {k : Nat} (h : k < 4 ∨ (secSession s k).stage ≠ 2) (cause : Nat) : endSecure s k cause = s :=
  if_pos h

theorem endSecure_cases (s : State) (k cause : Nat) : endSecure s k cause = s ∨ endSecure s k cause = sessionWiped s k cause ∨
    endSecure s k cause = moduleReset (sessionWiped s k cause) k := by
  rcases Decidable.em (k < 4 ∨ (secSession s k).stage ≠ 2) with h | h
  · exact .inl (endSecure_shut h cause)
  · rw [endSecure_open (by omega) (by omega)]
    split <;> simp

/-- The session of a channel wiped: a change of the channel between reports, with the firmware load of the channel. -/
theorem sessionWiped_eq (s : State) (k cause : Nat) :
    ∃ v, LogOnly (raise s 0x0C03 (chanBit k) cause) v ∧
      (sessionWiped s k cause = setSession (setMbx v k fun m => { m with secure := false }) k (fun _ => {}) ∨
        sessionWiped s k cause = dropLoad (setSession (setMbx v k fun m => { m with secure := false }) k fun _ => {})) := by
  refine ⟨_, logOnly_audit _ 0x0C03 k cause, ?_⟩
  unfold sessionWiped
  extract_lets v w
  split
  · split
    · exact .inr rfl
    · exact .inl rfl
  · exact .inl rfl

theorem commsOnly_sessionWiped (s : State) (k cause : Nat) : CommsOnly s (sessionWiped s k cause) := by
  obtain ⟨v, hv, h⟩ := sessionWiped_eq s k cause
  have hw : CommsOnly s (setSession (setMbx v k fun m => { m with secure := false }) k fun _ => {}) :=
    ((logOnly_raise s _ _ _).trans hv).commsOnly.trans ⟨rfl, rfl⟩
  rcases h with h | h
  · exact h ▸ hw
  · exact h ▸ hw.trans (commsOnly_dropLoad _)

theorem chans_sessionWiped (s : State) (k cause : Nat) :
    (sessionWiped s k cause).host.chans = upd s.host.chans k fun m => { m with secure := false } := by
  obtain ⟨v, hv, h⟩ := sessionWiped_eq s k cause
  have hw : (setSession (setMbx v k fun m => { m with secure := false }) k fun _ => {}).host.chans =
      upd s.host.chans k fun m => { m with secure := false } := by
    rw [setSession_host, setMbx, ((logOnly_raise s _ _ _).trans hv).chans]
  rcases h with h | h
  · rw [h, hw]
  · rw [h, chans_dropLoad, hw]

/-- A module-side reset (R392) empties its channel and is otherwise a report. -/
theorem moduleReset_logOnly (s : State) (k : Nat) :
    LogOnly (setMbx s k fun m => { m with inbox := [], pending := false, out := none, queue := [], flight := [] })
      (moduleReset s k) :=
  (((notice_sticky _ _ _ _).trans (notice_doorbell _ _)).trans (notice_doorbell _ _)).logOnly.trans (logOnly_raise _ _ _ _)

theorem commsOnly_moduleReset (s : State) (k : Nat) : CommsOnly s (moduleReset s k) :=
  (commsOnly_setMbx s k _).trans (moduleReset_logOnly s k).commsOnly

theorem commsOnly_endSecure (s : State) (k cause : Nat) : CommsOnly s (endSecure s k cause) := by
  rcases endSecure_cases s k cause with h | h | h
  · rw [h]
    exact .refl s
  · exact h ▸ commsOnly_sessionWiped s k cause
  · exact h ▸ (commsOnly_sessionWiped s k cause).trans (commsOnly_moduleReset _ k)

theorem chanOnly_upd {s u : State} {k : Nat} {f : Mbx → Mbx} (h : u.host.chans = upd s.host.chans k f) : ChanOnly k s u :=
  ⟨by rw [h, length_upd], fun j hj => by rw [mbx, h, nth_upd_ne hj, ← mbx]⟩

theorem chanOnly_moduleReset (s : State) (k : Nat) : ChanOnly k s (moduleReset s k) :=
  (chanOnly_setMbx s k _).trans (.of_chans (moduleReset_logOnly s k).chans)

theorem chanOnly_endSecure (s : State) (k cause : Nat) : ChanOnly k s (endSecure s k cause) := by
  have hw : ChanOnly k s (sessionWiped s k cause) := chanOnly_upd (chans_sessionWiped s k cause)
  rcases endSecure_cases s k cause with h | h | h
  · rw [h]
    exact .of_chans rfl
  · exact h ▸ hw
  · exact h ▸ hw.trans (chanOnly_moduleReset _ k)

end Sys2Proof.Laws

/-! ### Mailboxes, posts, releases and host-side resets (11_control_interface R372, R373, R385 to R391) -/

namespace Sys2Proof.Laws

open Sys2Proof Sys2Proof.Machine

/-! #### The bytes of a mailbox -/

theorem getD_append_zeros (m : List Byte) (n i : Nat) : ((m ++ List.replicate n 0)[i]?).getD 0 = (m[i]?).getD 0 := by
  rw [List.getElem?_append]
  split
  · rfl
  next hge =>
    rw [List.getElem?_eq_none (l := m) (Nat.le_of_not_lt hge), List.getElem?_replicate]
    split <;> rfl

/-- A byte of a mailbox written: one of the bytes written, or its own. -/
theorem getD_writeBytes (m : List Byte) (off : Nat) (bs : List Byte) (i : Nat) : ((writeBytes m off bs)[i]?).getD 0 =
    if off ≤ i ∧ i < off + bs.length then (bs[i - off]?).getD 0 else (m[i]?).getD 0 := by
  unfold writeBytes
  extract_lets m'
  have hm' (j : Nat) : (m'[j]?).getD 0 = (m[j]?).getD 0 := getD_append_zeros m _ j
  have hlen : off + bs.length ≤ m'.length := by
    simp only [m', List.length_append, List.length_replicate]
    omega
  have htake : (m'.take off).length = off := by rw [List.length_take]; omega
  have hfront : (m'.take off ++ bs).length = off + bs.length := by rw [List.length_append, htake]
  rcases Nat.lt_or_ge i off with hi | hi
  · rw [List.getElem?_append_left (by omega), List.getElem?_append_left (by omega), List.getElem?_take_of_lt hi, hm', if_neg (by omega)]
  rcases Nat.lt_or_ge i (off + bs.length) with hi' | hi'
  · rw [List.getElem?_append_left (by omega), List.getElem?_append_right (by omega), htake, if_pos ⟨hi, hi'⟩]
  · rw [List.getElem?_append_right (by omega), hfront, List.getElem?_drop, Nat.add_sub_cancel' hi', hm', if_neg (by omega)]

theorem bytesAt_writeBytes (m : List Byte) (off : Nat) (bs : List Byte) : bytesAt (writeBytes m off bs) off bs.length = bs := by
  refine List.ext_getElem (by simp [bytesAt]) fun i hi _ => ?_
  have hlt : i < bs.length := by simpa [bytesAt] using hi
  simp only [bytesAt, List.getElem_map, List.getElem_range, getD_writeBytes]
  rw [if_pos (by omega), Nat.add_sub_cancel_left, List.getElem?_eq_getElem hlt]
  rfl

theorem bytesAt_writeBytes_outside {off i : Nat} {bs : List Byte} (h : i < off ∨ off + bs.length ≤ i) (m : List Byte) :
    bytesAt (writeBytes m off bs) i 1 = bytesAt m i 1 := by
  simp only [bytesAt, List.range_one, List.map_cons, List.map_nil, Nat.add_zero, getD_writeBytes]
  rw [if_neg (by omega)]

/-! #### Each channel in its turn -/

theorem mbx_foldl_others {f : State → Nat → State} (hf : ∀ s j, ChanOnly j s (f s j)) {k : Nat} (l : List Nat) (hl : ∀ j ∈ l, j ≠ k)
    (s : State) : (l.foldl f s).host.chans.length = s.host.chans.length ∧ mbx (l.foldl f s) k = mbx s k := by
  induction l generalizing s with
  | nil => exact ⟨rfl, rfl⟩
  | cons j l ih =>
    obtain ⟨hlen, hmbx⟩ := ih (fun i hi => hl i (List.mem_cons_of_mem j hi)) (f s j)
    exact ⟨hlen.trans (hf s j).1, hmbx.trans ((hf s j).2 k (hl j List.mem_cons_self).symm)⟩

/-- What an operation on every channel does to one is done by the channel's own turn. -/
theorem mbx_foldl_turn {f : State → Nat → State} (hf : ∀ s j, ChanOnly j s (f s j)) {l : List Nat} (hl : l.Nodup) {k : Nat} (hk : k ∈ l)
    (s : State) : ∃ v, v.host.chans.length = s.host.chans.length ∧ mbx v k = mbx s k ∧ mbx (l.foldl f s) k = mbx (f v k) k := by
  obtain ⟨l₁, l₂, rfl⟩ := List.append_of_mem hk
  rw [List.nodup_append, List.nodup_cons] at hl
  obtain ⟨-, ⟨hafter, -⟩, hbefore⟩ := hl
  obtain ⟨hlen, hmbx⟩ := mbx_foldl_others hf l₁ (fun j hj => hbefore j hj k List.mem_cons_self) s
  refine ⟨l₁.foldl f s, hlen, hmbx, ?_⟩
  rw [List.foldl_append, List.foldl_cons]
  exact (mbx_foldl_others hf l₂ (by rintro j hj rfl; exact hafter hj) _).2

/-! #### Posts (R385) -/

/-- A channel's mailbox marked pending. -/
def markPosted (s : State) (k : Nat) : State := setMbx s k fun m => { m with pending := true }

theorem postFrom_alone {s : State} (hboth : s.rst.both = false) (k : Nat) (ethernet : Bool) :
    postFrom s k ethernet = lookAt (markPosted s k) k := by
  have hmay : mayPost s k ethernet = true := by simp [mayPost, hboth]
  unfold postFrom
  rw [hmay, hboth]
  rfl

/-- While the firmware does not run a post stays pending. -/
theorem lookAt_silent {s : State} (h : serving s = false) (k : Nat) : lookAt s k = s := if_pos (.inl (by simp [h]))

/-- A post of several channels, of a module whose firmware does not run. -/
theorem postDoorbells_silent (l : List Nat) (value : Nat) (ethernet : Bool) {s : State} (hboth : s.rst.both = false)
    (hserves : serving s = false) :
    l.foldl (fun s k => if value.testBit (chanBit k) && !(mbx s k).pending then postFrom s k ethernet else s) s =
      l.foldl (fun s k => setMbx s k fun m => { m with pending := m.pending || value.testBit (chanBit k) }) s := by
  induction l generalizing s with
  | nil => rfl
  | cons k l ih =>
    have hstep : (if value.testBit (chanBit k) && !(mbx s k).pending then postFrom s k ethernet else s) =
        setMbx s k fun m => { m with pending := m.pending || value.testBit (chanBit k) } := by
      cases hbit : value.testBit (chanBit k) with
      | false => exact (setMbx_eq_self (by simp)).symm
      | true =>
        cases hpend : (mbx s k).pending with
        | true =>
          rw [if_neg (by decide)]
          exact (setMbx_eq_self (by rw [Bool.or_true, ← hpend])).symm
        | false =>
          rw [postFrom_alone hboth, lookAt_silent (s := markPosted s k) hserves]
          simp [markPosted]
    rw [List.foldl_cons, List.foldl_cons, hstep]
    exact ih hboth hserves

theorem mbx_foldl_setMbx (f : Nat → Mbx → Mbx) {l : List Nat} (hl : l.Nodup) {k : Nat} (hk : k ∈ l) {s : State}
    (hlen : k < s.host.chans.length) : mbx (l.foldl (fun s k => setMbx s k (f k)) s) k = f k (mbx s k) := by
  obtain ⟨v, hv, hmbx, h⟩ := mbx_foldl_turn (fun s j => chanOnly_setMbx s j (f j)) hl hk s
  rw [h, mbx_setMbx (by omega), hmbx]

theorem foldl_setMbx_rest (f : Nat → Mbx → Mbx) (l : List Nat) (s : State) :
    { l.foldl (fun s k => setMbx s k (f k)) s with host := s.host } = s := by
  induction l generalizing s with
  | nil => rfl
  | cons k l ih => exact congrArg (fun u : State => { u with host := s.host }) (ih (setMbx s k (f k)))

theorem chanBit_inj {j k : Nat} (hj : j < 6) (hk : k < 6) : chanBit j = chanBit k ↔ j = k := by
  unfold chanBit
  split_ifs <;> omega

/-- A post of one channel, on which no post is pending. -/
theorem execDoorbellPost_one {s s0 : State} {t : Nat} {ch : Fin 6} (h0 : s0 = begin s t) (hopen : barOpen s0 = true)
    (hboth : s0.rst.both = false) (hpend : (mbx s0 ch).pending = false) :
    exec (.doorbellPost t (2 ^ chanBit ch)) s = .next (lookAt (markPosted s0 ch) ch) := by
  subst h0
  have hone : postDoorbells (begin s t) (2 ^ chanBit ch) (begin s t).sys.ethernet = lookAt (markPosted (begin s t) ch) ch := by
    have hother {k : Nat} (hk : k ∈ List.range 6) (hne : k ≠ ch.val) : (2 ^ chanBit ch).testBit (chanBit k) = false := by
      rw [Nat.testBit_two_pow]
      exact decide_eq_false fun h => hne ((chanBit_inj (List.mem_range.mp hk) ch.isLt).mp h.symm)
    rw [postDoorbells, foldl_eq_of_one List.nodup_range (List.mem_range.mpr ch.isLt)]
    · rw [Nat.testBit_two_pow_self, hpend]
      exact postFrom_alone hboth ch _
    · exact fun k hk hne => by rw [hother hk hne]; rfl
    · exact fun k hk hne => by rw [hother hk hne]; rfl
  exact congrArg Host.Outcome.next ((if_pos hopen).trans hone)

section Posted

variable {s : State} {k : Nat} (hlen : k < s.host.chans.length) (hserves : serving s = true) (htakes : takesNow s k = true)
  (hspent : numbersSpent s k = false)

include hlen in
theorem mbx_markPosted : mbx (markPosted s k) k = { mbx s k with pending := true } := mbx_setMbx hlen _

include hlen hserves htakes in
/-- The module looks at a post that it takes now. -/
theorem lookAt_posted_goesOn : ¬(((!serving (markPosted s k)) = true) ∨ ((!(mbx (markPosted s k) k).pending) = true) ∨
    ((!takesNow (markPosted s k) k) = true)) := by
  have hserves' : serving (markPosted s k) = true := hserves
  have htakes' : takesNow (markPosted s k) k = true := by
    unfold takesNow at htakes ⊢
    rw [mbx_markPosted hlen]
    exact htakes
  simp [hserves', htakes', mbx_markPosted hlen]

include hlen hserves htakes hspent in
theorem lookAt_full (hfull : 5 ≤ outstanding (mbx s k)) : lookAt (markPosted s k) k =
    busyReject (setMbx (markPosted s k) k fun m => { m with pending := false, inbox := [] }) k (leAt (mbx s k).inbox 6 2) := by
  unfold lookAt
  dsimp only
  rw [if_neg (lookAt_posted_goesOn hlen hserves htakes),
    if_neg (show ¬numbersSpent (markPosted s k) k = true from ne_true_of_eq_false hspent), mbx_markPosted hlen]
  exact if_pos hfull

variable (hroom : ¬ 5 ≤ outstanding (mbx s k))

include hlen hserves htakes hspent hroom in
theorem lookAt_long (hlong : payloadLimit k < leAt (mbx s k).inbox 0 2) : lookAt (markPosted s k) k =
    refuseTaken (takePending (markPosted s k) k) k (leAt (mbx s k).inbox 3 1) (leAt (mbx s k).inbox 2 1) (leAt (mbx s k).inbox 6 2) 3 := by
  unfold lookAt
  dsimp only
  rw [if_neg (lookAt_posted_goesOn hlen hserves htakes),
    if_neg (show ¬numbersSpent (markPosted s k) k = true from ne_true_of_eq_false hspent), mbx_markPosted hlen]
  exact (if_neg hroom).trans (if_pos hlong)

variable (hfits : ¬ payloadLimit k < leAt (mbx s k).inbox 0 2)

include hlen hserves htakes hspent hroom hfits in
theorem lookAt_torn (hcrc : crcMatches (mbx s k).inbox = false) : lookAt (markPosted s k) k =
    refuseTaken (takePending (markPosted s k) k) k (leAt (mbx s k).inbox 3 1) (leAt (mbx s k).inbox 2 1) (leAt (mbx s k).inbox 6 2) 10 := by
  unfold lookAt
  dsimp only
  rw [if_neg (lookAt_posted_goesOn hlen hserves htakes),
    if_neg (show ¬numbersSpent (markPosted s k) k = true from ne_true_of_eq_false hspent), mbx_markPosted hlen]
  exact (if_neg hroom).trans ((if_neg hfits).trans (if_pos (by rw [hcrc]; rfl)))

include hlen hserves htakes hspent hroom hfits in
theorem lookAt_passes (hcrc : crcMatches (mbx s k).inbox = true) (hk : k < 4) (hcheck : takeCheck (markPosted s k) k
    (leAt (mbx s k).inbox 3 1) (leAt (mbx s k).inbox 2 1) (leAt (mbx s k).inbox 6 2) true = 0) :
    lookAt (markPosted s k) k = markPosted s k := by
  unfold lookAt
  dsimp only
  rw [if_neg (lookAt_posted_goesOn hlen hserves htakes),
    if_neg (show ¬numbersSpent (markPosted s k) k = true from ne_true_of_eq_false hspent), mbx_markPosted hlen]
  refine (if_neg hroom).trans ((if_neg hfits).trans ((if_neg (by rw [hcrc]; decide)).trans (if_pos ?_)))
  rw [decide_eq_true hk, Bool.true_or]
  exact hcheck

end Posted

/-! #### Releases (R389) -/

/-- A change of a channel keeps what it keeps of the channel's mailbox, also where there is no such channel. -/
theorem mbx_setMbx_prop {P : Mbx → Prop} {s : State} {k : Nat} {f : Mbx → Mbx} (h : P (mbx s k)) (hf : ∀ m, P m → P (f m)) :
    P (mbx (setMbx s k f) k) := by
  rcases nth_upd_or s.host.chans k k f {} with hm | hm
  · rw [mbx, setMbx, hm]
    exact h
  · rw [mbx, setMbx, hm]
    exact hf _ h

theorem sealOut_out (s : State) (k : Nat) :
    (mbx (sealOut s k) k).out = (mbx s k).out ∧ (mbx (sealOut s k) k).queue = (mbx s k).queue := by
  unfold sealOut
  split
  · exact ⟨rfl, rfl⟩
  · split
    · exact ⟨rfl, rfl⟩
    · split <;> exact mbx_setMbx_prop (P := fun m => m.out = (mbx s k).out ∧ m.queue = (mbx s k).queue) ⟨rfl, rfl⟩ fun _ h => h

/-- A full outbound mailbox stays as it is while replies move out, and the queue behind it only grows. -/
theorem pumpFlights_behind (fs : List Flight) (o : Reply) (q : List Reply) :
    (pumpFlights fs (some o) q false).2.1 = some o ∧ (∃ more, (pumpFlights fs (some o) q false).2.2.1 = q ++ more) ∧
      (pumpFlights fs (some o) q false).2.2.2 = false := by
  induction fs generalizing q with
  | nil => exact ⟨rfl, ⟨[], (List.append_nil q).symm⟩, rfl⟩
  | cons f fs ih =>
    unfold pumpFlights
    split
    next r _ _ =>
      split
      · exact ih q
      · obtain ⟨hout, ⟨more, hmore⟩, hfilled⟩ := ih (q ++ [r])
        exact ⟨hout, ⟨[r] ++ more, by rw [hmore, List.append_assoc]⟩, hfilled⟩
    · exact ⟨rfl, ⟨[], (List.append_nil q).symm⟩, rfl⟩

/-- Moving replies out behind a full outbound mailbox changes the channel alone. -/
theorem pump_behind {s : State} {k : Nat} (hlen : k < s.host.chans.length) {o : Reply} (hout : (mbx s k).out = some o) :
    ∃ f, pump s k = setMbx s k f ∧ (mbx (pump s k) k).out = some o ∧ ∃ more, (mbx (pump s k) k).queue = (mbx s k).queue ++ more := by
  obtain ⟨ho, ⟨more, hmore⟩, hfilled⟩ := pumpFlights_behind (mbx s k).flight o (mbx s k).queue
  have hpump : pump s k = setMbx s k fun m => { m with
      flight := (pumpFlights (mbx s k).flight (some o) (mbx s k).queue false).1
      out := (pumpFlights (mbx s k).flight (some o) (mbx s k).queue false).2.1
      queue := (pumpFlights (mbx s k).flight (some o) (mbx s k).queue false).2.2.1 } := by
    unfold pump
    dsimp only
    rw [hout]
    exact if_neg (by rw [hfilled]; decide)
  refine ⟨_, hpump, ?_, more, ?_⟩ <;> rw [hpump, mbx_setMbx hlen]
  · exact ho
  · exact hmore

theorem execReplyRelease_open {s s0 : State} {t : Nat} {ch : Fin 6} (h0 : s0 = begin s t) (hopen : barOpen s0 = true) :
    exec (.replyRelease t ch) s = .next (pump (releaseReply s0 ch) ch) := by
  subst h0
  exact congrArg Host.Outcome.next (if_pos hopen)

theorem releaseReply_next {s : State} {k : Nat} {r r' : Reply} {q : List Reply} (hout : (mbx s k).out = some r)
    (hqueue : (mbx s k).queue = r' :: q) :
    releaseReply s k = outFilled (setMbx s k fun m => { m with out := some r', queue := q }) k := by
  unfold releaseReply
  dsimp only
  rw [hout, hqueue]

theorem releaseReply_last {s : State} {k : Nat} {r : Reply} (hout : (mbx s k).out = some r) (hqueue : (mbx s k).queue = []) :
    releaseReply s k = setMbx s k fun m => { m with out := none } := by
  unfold releaseReply
  dsimp only
  rw [hout, hqueue]

/-- The doorbell bit of a channel whose outbound mailbox has filled (R396). -/
theorem testBit_outFilled {s : State} (hb : banksOk s = true) {k : Nat} (hk : k < 6) :
    (liveFld (outFilled s k) Fld.DB_D2H_STATUS_STATUS).testBit (chanBit k) = true := by
  have hbell : (liveFld (doorbell (sealOut s k) (chanBit k)) Fld.DB_D2H_STATUS_STATUS).testBit (chanBit k) = true :=
    testBit_doorbell ((sealOut_keeps (Keeps.refl s)).banks hb) (by unfold chanBit; split <;> omega)
  unfold outFilled
  extract_lets v
  split
  · split
    · rw [liveFld, live_sendDatagram]
      exact hbell
    · exact hbell
  · exact hbell

theorem outFilled_out (s : State) (k : Nat) : (mbx (outFilled s k) k).out = (mbx s k).out ∧
    (mbx (outFilled s k) k).queue = (mbx s k).queue := by
  rw [mbx, chans_outFilled, ← mbx]
  exact sealOut_out s k

theorem chanOnly_outFilled (s : State) (k : Nat) : ChanOnly k s (outFilled s k) :=
  (chanOnly_sealOut s k).trans (.of_chans (chans_outFilled s k))

/-- The release of a reply behind which another waits. -/
theorem release_next {s : State} (hb : banksOk s = true) {k : Nat} (hk : k < 6) (hlen : k < s.host.chans.length) {r r' : Reply}
    {q : List Reply} (hout : (mbx s k).out = some r) (hqueue : (mbx s k).queue = r' :: q) :
    (mbx (pump (releaseReply s k) k) k).out = some r' ∧ (∃ more, (mbx (pump (releaseReply s k) k) k).queue = q ++ more) ∧
      (liveFld (pump (releaseReply s k) k) Fld.DB_D2H_STATUS_STATUS).testBit (chanBit k) = true ∧
      HostOnly s (pump (releaseReply s k) k) ∧ ChanOnly k s (pump (releaseReply s k) k) := by
  rw [releaseReply_next hout hqueue]
  have hset : mbx (setMbx s k fun m => { m with out := some r', queue := q }) k = { mbx s k with out := some r', queue := q } :=
    mbx_setMbx hlen _
  obtain ⟨ho, hq⟩ := outFilled_out (setMbx s k fun m => { m with out := some r', queue := q }) k
  have hbell := testBit_outFilled (s := setMbx s k fun m => { m with out := some r', queue := q }) hb hk
  have hhost := (hostOnly_setMbx s k fun m => { m with out := some r', queue := q }).trans (hostOnly_outFilled _ k)
  have hchan := (chanOnly_setMbx s k fun m => { m with out := some r', queue := q }).trans (chanOnly_outFilled _ k)
  rw [hset] at ho hq
  generalize outFilled (setMbx s k fun m => { m with out := some r', queue := q }) k = v at ho hq hbell hhost hchan
  obtain ⟨f, hpump, hpout, more, hpqueue⟩ := pump_behind (by rw [hchan.1]; exact hlen) ho
  refine ⟨hpout, ⟨more, by rw [hpqueue, hq]⟩, ?_, hhost.trans (hostOnly_pump v k), hchan.trans (chanOnly_pump v k)⟩
  rw [hpump]
  exact hbell

/-- With no message in execution nothing moves out. -/
theorem pump_idle {s : State} {k : Nat} (h : (mbx s k).flight = []) : pump s k = s := by
  have hm : ({ mbx s k with flight := [] } : Mbx) = mbx s k := by rw [← h]
  unfold pump
  dsimp only
  rw [h]
  exact setMbx_eq_self hm

/-- The release of a channel's last reply. -/
theorem release_last {s : State} {k : Nat} (hlen : k < s.host.chans.length) {r : Reply} (hout : (mbx s k).out = some r)
    (hqueue : (mbx s k).queue = []) (hflight : (mbx s k).flight = []) :
    pump (releaseReply s k) k = setMbx s k fun m => { m with out := none } := by
  rw [releaseReply_last hout hqueue]
  exact pump_idle (by rw [mbx_setMbx hlen]; exact hflight)

/-! #### Host-side resets (R373, R391) -/

/-- A channel's mailboxes and queue are empty. -/
def Emptied (m : Mbx) : Prop := m.inbox = [] ∧ m.pending = false ∧ m.out = none ∧ m.queue = []

/-- Of messages whose replies are discarded none moves out. -/
theorem pumpFlights_dropped {fs : List Flight} (h : ∀ f ∈ fs, f.drop = true) :
    pumpFlights fs none [] false = ((pumpFlights fs none [] false).1, none, [], false) := by
  induction fs with
  | nil => rfl
  | cons f fs ih =>
    have hdrop := h f List.mem_cons_self
    have hih := ih fun g hg => h g (List.mem_cons_of_mem f hg)
    cases hr : f.reply with
    | none => simp only [pumpFlights, hr]
    | some r =>
      cases hh : f.hold with
      | none => simpa only [pumpFlights, hr, hh, hdrop, if_true] using hih
      | some p => simp only [pumpFlights, hr, hh]

/-- The channel as a host-side reset leaves it: mailboxes and queue empty, and of the messages in execution the replies discarded. -/
def resetChan (m : Mbx) : Mbx := { m with
  inbox := [], pending := false, out := none, queue := [], comparing := true
  flight := m.flight.map fun f => { f with drop := true, hold := none } }

/-- What a host-side reset does before it ends the channel's session. -/
def hostCleared (s : State) (k : Nat) : State :=
  raise (doorbell (sticky (pump (setMbx s k resetChan) k) Fld.MBX_STATUS_ABORTED k) 21) 0x1102 (chanBit k) 1

theorem hostReset_eq (s : State) (k : Nat) : hostReset s k = endSecure (hostCleared s k) k 5 := rfl

theorem resetChan_dropped (m : Mbx) : ∀ f ∈ (resetChan m).flight, f.drop = true ∧ f.hold = none := by
  intro f hf
  obtain ⟨g, -, rfl⟩ := List.mem_map.mp hf
  exact ⟨rfl, rfl⟩

/-- No reply of a channel reset moves out. -/
theorem pump_resetChan {s : State} {k : Nat} (hlen : k < s.host.chans.length) :
    pump (setMbx s k resetChan) k = setMbx (setMbx s k resetChan) k fun m => { m with
      flight := (pumpFlights (resetChan (mbx s k)).flight none [] false).1, out := none, queue := [] } := by
  have hset : mbx (setMbx s k resetChan) k = resetChan (mbx s k) := mbx_setMbx hlen _
  have hdropped := pumpFlights_dropped fun f hf => (resetChan_dropped (mbx s k) f hf).1
  unfold pump
  dsimp only
  rw [hset, show (resetChan (mbx s k)).out = none from rfl, show (resetChan (mbx s k)).queue = [] from rfl, hdropped]
  rfl

theorem mbx_hostCleared {s : State} {k : Nat} (hlen : k < s.host.chans.length) : mbx (hostCleared s k) k = { resetChan (mbx s k) with
    flight := (pumpFlights (resetChan (mbx s k)).flight none [] false).1 } := by
  have hchans : (hostCleared s k).host.chans = (pump (setMbx s k resetChan) k).host.chans :=
    (chans_doorbell _ 21).trans (chans_sticky _ Fld.MBX_STATUS_ABORTED k 0)
  rw [mbx, hchans, ← mbx, pump_resetChan hlen, mbx_setMbx (by rwa [length_chans_setMbx]), mbx_setMbx hlen]
  rfl

theorem commsOnly_hostCleared (s : State) (k : Nat) : CommsOnly s (hostCleared s k) :=
  (commsOnly_setMbx s k _).trans ((commsOnly_pump _ k).trans
    (((notice_sticky _ _ _ _).trans (notice_doorbell _ _)).logOnly.trans (logOnly_raise _ _ _ _)).commsOnly)

theorem chanOnly_hostCleared (s : State) (k : Nat) : ChanOnly k s (hostCleared s k) :=
  (chanOnly_setMbx s k _).trans ((chanOnly_pump _ k).trans
    (.of_chans (((notice_sticky _ _ _ _).trans (notice_doorbell _ _)).logOnly.trans (logOnly_raise _ _ _ _)).chans))

theorem hostOnly_hostCleared (s : State) (k : Nat) : HostOnly s (hostCleared s k) :=
  (hostOnly_setMbx s k _).trans ((hostOnly_pump _ k).trans ((hostOnly_sticky _ Fld.MBX_STATUS_ABORTED k 0).trans
    ((hostOnly_doorbell _ 21).trans (hostOnly_raise _ _ _ _))))

theorem Emptied.endSecure {s : State} {k : Nat} (h : Emptied (mbx s k)) (cause : Nat) : Emptied (mbx (endSecure s k cause) k) := by
  have hw : Emptied (mbx (sessionWiped s k cause) k) := by
    rw [mbx, chans_sessionWiped]
    exact mbx_setMbx_prop (f := fun m => { m with secure := false }) h fun _ h => h
  rcases endSecure_cases s k cause with he | he | he
  · rwa [he]
  · rwa [he]
  · rw [he, mbx, (moduleReset_logOnly _ k).chans, ← mbx]
    exact mbx_setMbx_prop hw fun _ _ => ⟨rfl, rfl, rfl, rfl⟩

/-- A host-side reset empties its channel. -/
theorem emptied_hostReset (s : State) (k : Nat) : Emptied (mbx (hostReset s k) k) := by
  rw [hostReset_eq]
  refine Emptied.endSecure ?_ 5
  rcases Nat.lt_or_ge k s.host.chans.length with hlen | hlen
  · rw [mbx_hostCleared hlen]
    exact ⟨rfl, rfl, rfl, rfl⟩
  · rw [mbx, nth, List.getElem?_eq_none (by rw [(chanOnly_hostCleared s k).1]; exact hlen)]
    exact ⟨rfl, rfl, rfl, rfl⟩

theorem chanOnly_hostReset (s : State) (k : Nat) : ChanOnly k s (hostReset s k) :=
  (chanOnly_hostCleared s k).trans (chanOnly_endSecure _ k 5)

theorem commsOnly_hostReset (s : State) (k : Nat) : CommsOnly s (hostReset s k) :=
  (commsOnly_hostCleared s k).trans (commsOnly_endSecure _ k 5)

/-- The registers and the event of a host-side reset. -/
theorem hostCleared_registers {s : State} (hb : banksOk s = true) {k : Nat} (hk : k < 8192) (hlen : k < s.host.chans.length) :
    stickyOn (hostCleared s k) Fld.MBX_STATUS_ABORTED k = true ∧
      (liveFld (hostCleared s k) Fld.DB_D2H_STATUS_STATUS).testBit 21 = true ∧
      (hostCleared s k).host.queued = s.host.queued ++ [⟨now s, 0x1102, chanBit k, 1⟩] ∧
      regsKeptBut s (hostCleared s k) [regKey .MBX_STATUS k 0] := by
  have key (v : State) (hv : banksOk v = true) :
      let u := doorbell (sticky v Fld.MBX_STATUS_ABORTED k) 21
      stickyOn u Fld.MBX_STATUS_ABORTED k = true ∧ (liveFld u Fld.DB_D2H_STATUS_STATUS).testBit 21 = true ∧
        u.host.queued = v.host.queued ∧ now u = now v ∧ regsKeptBut v u [regKey .MBX_STATUS k 0] := by
    have hs := banks_sticky hv Fld.MBX_STATUS_ABORTED k 0
    refine ⟨?_, testBit_doorbell hs (by decide), ?_, ?_, ?_⟩
    · rw [stickyOn, liveFld_doorbell_ne hs (by decide) hk, ← stickyOn]
      exact stickyOn_sticky (live_wf hv) (by decide) (regKey_ne hk (by decide) (by decide)) (regKey_ne hk (by decide) (by decide))
    · rw [queued_doorbell, queued_sticky]
    · exact now_of_hostOnly ((hostOnly_sticky v Fld.MBX_STATUS_ABORTED k 0).trans (hostOnly_doorbell _ 21))
    · exact regsKept_trans (regsKept_sticky (live_wf hv) Fld.MBX_STATUS_ABORTED k 0)
        (regsKept_mono (regsKept_doorbell (live_wf hs) 21) (by simp))
  obtain ⟨hon, hbell, hqueued, hnow, hregs⟩ := key (pump (setMbx s k resetChan) k) (by rw [pump_resetChan hlen]; exact hb)
  refine ⟨hon, hbell, ?_, ?_⟩
  · rw [hostCleared, raise, raiseAt, hnow]
    dsimp only
    rw [hqueued, pump_resetChan hlen]
    rfl
  · refine regsKept_trans (b := pump (setMbx s k resetChan) k) (regsKept_of_live ?_ _) hregs
    rw [pump_resetChan hlen]
    rfl

/-- Every channel reset from the host's side (R373, R378). -/
theorem hostDetach_law (s : State) (master : Nat) :
    (∀ k, k < 6 → Emptied (mbx (hostDetach s master) k)) ∧
      (∀ l, nth (hostDetach s master).host.locks l 0 = if nth s.host.locks l 0 = master + 1 then 0 else nth s.host.locks l 0) ∧
      { hostDetach s master with host := s.host, live := s.live, out := s.out, sec := s.sec } = s := by
  have hcomms := CommsOnly.foldl commsOnly_hostReset (List.range 6) s
  refine ⟨fun k hk => ?_, fun l => ?_, ?_⟩
  · obtain ⟨v, -, -, h⟩ := mbx_foldl_turn chanOnly_hostReset List.nodup_range (List.mem_range.mpr hk) s
    rw [hostDetach, show mbx (releaseLocks ((List.range 6).foldl hostReset s) master) k = mbx ((List.range 6).foldl hostReset s) k from rfl, h]
    exact emptied_hostReset v k
  · rw [hostDetach, releaseLocks]
    dsimp only
    rw [hcomms.locks]
    exact nth_map (fun x => if x = master + 1 then 0 else x) s.host.locks l 0
  · exact hcomms.rest

/-- Settles O42: each access of a mailbox is one branch; a post is looked at by its checks in turn; a reset is each channel's own. -/
theorem mailboxes : Obligations.Mailboxes := by
  intro s t ch hb s0 posted m0 len hopen hlen
  have h0 : s0 = begin s t := rfl
  have hb0 : banksOk s0 = true := banks_begin hb t
  have hwrite (off : Nat) (bytes : List Byte) :
      exec (.mailboxWrite t ch off bytes) s = .next (writeMailbox s0 ch off bytes) := congrArg Host.Outcome.next (if_pos hopen)
  have hpost (value : Nat) : exec (.doorbellPost t value) s = .next (postDoorbells s0 value s0.sys.ethernet) :=
    congrArg Host.Outcome.next (if_pos hopen)
  have hreset : exec (.channelResetHost t ch) s = .next (hostReset s0 ch) := congrArg Host.Outcome.next (if_pos hopen)
  have hpcieReset (hpcie : s0.sys.ethernet = false) : exec (.pcieReset t) s = .next (
      let v := hostDetach { s0 with rst := { s0.rst with n0Owner := if s0.rst.n0Owner = some false then none else s0.rst.n0Owner } } 3
      { v with sys := { v.sys with linkRate := 0, linkWidth := 0 } }) :=
    congrArg Host.Outcome.next (if_neg (by rw [show (begin s t).sys.ethernet = false from hpcie, show barOpen (begin s t) = true from hopen]; decide))
  clear_value s0
  refine ⟨?write, ?ignored, ?silent, ?looked, ?next, ?last, ?reset, ?detach⟩
  case write =>
    intro off bytes hacc hpend
    have hset : writeMailbox s0 ch off bytes = setMbx s0 ch fun m => { m with inbox := writeBytes m.inbox off bytes } :=
      (if_neg (by rw [hacc]; decide)).trans (if_neg (ne_true_of_eq_false hpend))
    have hmbx := mbx_setMbx hlen fun m => { m with inbox := writeBytes m.inbox off bytes }
    refine ⟨_, (hwrite off bytes).trans (congrArg _ hset), ?_, fun i hi => ?_, ?_, fun j hj => mbx_setMbx_ne s0 hj _, rfl⟩ <;> rw [hmbx]
    · exact bytesAt_writeBytes _ off bytes
    · exact bytesAt_writeBytes_outside hi _
  case ignored =>
    intro off bytes hacc hpend
    have hset : writeMailbox s0 ch off bytes = sticky s0 Fld.MBX_STATUS_IGNORED_WRITE ch :=
      (if_neg (by rw [hacc]; decide)).trans (if_pos hpend)
    have hch : ch.val < 8192 := by omega
    exact ⟨_, (hwrite off bytes).trans (congrArg _ hset), chans_sticky s0 _ _ _, hostOnly_sticky s0 _ _ _,
      stickyOn_sticky (live_wf hb0) (by decide) (regKey_ne hch (by decide) (by decide)) (regKey_ne hch (by decide) (by decide)),
      regsKept_sticky (live_wf hb0) _ _ _⟩
  case silent =>
    intro value hboth hserves
    refine ⟨_, (hpost value).trans (congrArg _ (postDoorbells_silent (List.range 6) value s0.sys.ethernet hboth hserves)),
      fun k hk hklen => ?_, foldl_setMbx_rest _ _ s0⟩
    exact mbx_foldl_setMbx (fun k m => { m with pending := m.pending || value.testBit (chanBit k) }) List.nodup_range
      (List.mem_range.mpr hk) hklen
  case looked =>
    intro hboth hserves hpend htakes hspent
    have hone := execDoorbellPost_one h0 hopen hboth hpend
    refine ⟨fun hfull => ?_, fun hroom hlong => ?_, fun hroom hfits hcrc => ?_, fun hroom hfits hcrc hch hcheck => ?_⟩
    · exact hone.trans (congrArg _ (lookAt_full hlen hserves htakes hspent hfull))
    · exact hone.trans (congrArg _ (lookAt_long hlen hserves htakes hspent (Nat.not_le.mpr hroom) hlong))
    · exact hone.trans (congrArg _ (lookAt_torn hlen hserves htakes hspent (Nat.not_le.mpr hroom) (Nat.not_lt.mpr hfits) hcrc))
    · exact hone.trans (congrArg _
        (lookAt_passes hlen hserves htakes hspent (Nat.not_le.mpr hroom) (Nat.not_lt.mpr hfits) hcrc hch hcheck))
  case next =>
    intro r r' q hout hqueue
    obtain ⟨hout', hqueue', hbell, hhost, hchan⟩ := release_next hb0 ch.isLt hlen hout hqueue
    exact ⟨_, execReplyRelease_open h0 hopen, hout', hqueue', hbell, HostOnly.withSec (v := s0) rfl hhost,
      fun _ => HostOnly.sec_eq hhost, hchan.2⟩
  case last =>
    intro r hout hqueue hflight
    exact ⟨_, (execReplyRelease_open h0 hopen).trans (congrArg _ (release_last hlen hout hqueue hflight)), mbx_setMbx hlen _,
      fun j hj => mbx_setMbx_ne s0 hj _, rfl⟩
  case reset =>
    obtain ⟨hon, hbell, hqueued, hregs⟩ := hostCleared_registers hb0 (show ch.val < 8192 by omega) hlen
    have hmbx := mbx_hostCleared hlen
    refine ⟨hostCleared s0 ch, hreset, hostOnly_hostCleared s0 ch, ?_, ?_, ?_, ?_, fun f hf => ?_, (chanOnly_hostCleared s0 ch).2,
      hon, hbell, hqueued, hregs⟩
    iterate 4 rw [hmbx]; rfl
    rw [hmbx] at hf
    exact resetChan_dropped _ f ((pumpFlights_suffix _ _ _ _).subset hf)
  case detach =>
    intro hpcie
    obtain ⟨hempty, hlocks, hrest⟩ := hostDetach_law
      { s0 with rst := { s0.rst with n0Owner := if s0.rst.n0Owner = some false then none else s0.rst.n0Owner } } 3
    refine ⟨_, hpcieReset hpcie, hempty, hlocks, ?_⟩
    generalize hostDetach _ 3 = v at hrest
    have hsys : v.sys = s0.sys := (congrArg State.sys hrest :)
    exact ⟨by rw [← hsys], (congrArg State.job hrest :), (congrArg State.pos hrest :), (congrArg State.print hrest :),
      (congrArg State.sets hrest :), (congrArg State.store hrest :)⟩

end Sys2Proof.Laws

/-! ### The Ethernet session and its datagrams (11_control_interface R376 to R380) -/

namespace Sys2Proof.Laws

open Sys2Proof Sys2Proof.Machine

/-! #### Datagrams -/

theorem sendDatagram_open {s : State} {x : Session} (h : s.host.session = some x) (kind chan : Nat) (body : List Byte) :
    sendDatagram s kind chan body = { s with
      out := s.out ++ [.datagram kind chan s.host.dgSeq body], host := { s.host with dgSeq := s.host.dgSeq + 1 } } := by
  unfold sendDatagram
  rw [h]
  rfl

/-- From `s` to `u` datagrams were sent and nothing else happened. -/
def DatagramsOnly (s u : State) : Prop := ∃ n os, u = { s with out := s.out ++ os, host := { s.host with dgSeq := n } }

theorem DatagramsOnly.refl (s : State) : DatagramsOnly s s := ⟨s.host.dgSeq, [], by rw [List.append_nil]⟩

theorem DatagramsOnly.trans {a b c : State} (h : DatagramsOnly a b) (k : DatagramsOnly b c) : DatagramsOnly a c := by
  obtain ⟨_, os, rfl⟩ := h
  obtain ⟨n, ps, rfl⟩ := k
  exact ⟨n, os ++ ps, by rw [List.append_assoc]⟩

theorem DatagramsOnly.mem_out {s u : State} (h : DatagramsOnly s u) {o : Output} (ho : o ∈ s.out) : o ∈ u.out := by
  obtain ⟨_, _, rfl⟩ := h
  exact List.mem_append_left _ ho

theorem DatagramsOnly.kept {s u : State} (h : DatagramsOnly s u) : u.host.chans = s.host.chans ∧ u.host.session = s.host.session ∧
    { u with host := s.host, out := s.out } = s := by
  obtain ⟨_, _, rfl⟩ := h
  exact ⟨rfl, rfl, rfl⟩

theorem datagramsOnly_send (s : State) (kind chan : Nat) (body : List Byte) : DatagramsOnly s (sendDatagram s kind chan body) := by
  unfold sendDatagram
  split
  · exact .refl s
  · exact ⟨_, _, rfl⟩

/-- The reply that waits in a channel's outbound mailbox goes again (R379). -/
def sendWaiting (s : State) (k : Nat) : State :=
  match outBytes (mbx s k) k with
  | some bs => sendDatagram s 4 (chanBit k) bs
  | none => s

theorem datagramsOnly_sendWaiting (s : State) (k : Nat) : DatagramsOnly s (sendWaiting s k) := by
  unfold sendWaiting
  split
  · exact datagramsOnly_send s 4 _ _
  · exact .refl s

theorem datagramsOnly_foldl (l : List Nat) (s : State) : DatagramsOnly s (l.foldl sendWaiting s) := by
  induction l generalizing s with
  | nil => exact .refl s
  | cons k l ih => exact (datagramsOnly_sendWaiting s k).trans (ih _)

/-- Every waiting reply is among what goes again. -/
theorem mem_out_foldl_sendWaiting {l : List Nat} {k : Nat} (hk : k ∈ l) {s : State} (hsession : s.host.session.isSome = true)
    {bs : List Byte} (hbs : outBytes (mbx s k) k = some bs) : ∃ n, Output.datagram 4 (chanBit k) n bs ∈ (l.foldl sendWaiting s).out := by
  induction l generalizing s with
  | nil => cases hk
  | cons j l ih =>
    obtain ⟨hchans, hopen, -⟩ := (datagramsOnly_sendWaiting s j).kept
    rcases List.mem_cons.mp hk with rfl | hk
    · obtain ⟨x, hx⟩ := Option.isSome_iff_exists.mp hsession
      have hsent : sendWaiting s k = sendDatagram s 4 (chanBit k) bs := by
        unfold sendWaiting
        rw [hbs]
      refine ⟨s.host.dgSeq, (datagramsOnly_foldl l (sendWaiting s k)).mem_out ?_⟩
      rw [hsent, sendDatagram_open hx]
      exact List.mem_append_right _ List.mem_cons_self
    · exact ih hk (hopen ▸ hsession) (by rw [mbx, hchans]; exact hbs)

/-- NOTIFY goes out, and the session waits for its answer (R379). -/
theorem sendNotify_open {s : State} {x : Session} (h : s.host.session = some x) : ∃ body, sendNotify s = { s with
    out := s.out ++ [.datagram 8 0 s.host.dgSeq body]
    host := { s.host with dgSeq := s.host.dgSeq + 1, session := some { x with notify := some (now s) } } } := by
  have hopen : ({ s with host := { s.host with session := s.host.session.map fun x => { x with notify := some (now s) } } } : State)
      = { s with host := { s.host with session := some { x with notify := some (now s) } } } := by rw [h]; rfl
  refine ⟨leBytes 4 (liveFld s Fld.DB_D2H_STATUS_STATUS) ++ leBytes 4 s.host.evHead ++ (ringEvents s).flatMap eventBytes, ?_⟩
  unfold sendNotify
  rw [hopen]
  rfl

/-- NOTIFY_REPEAT: first the NOTIFY that has no answer, then every waiting reply. -/
theorem execNotifyRepeat_sends {s s0 : State} {t : Nat} (h0 : s0 = begin s t) {x : Session} (hx : s0.host.session = some x) :
    exec (.notifyRepeat t) s =
      .next ((List.range 6).foldl sendWaiting (if x.notify.isSome = true then sendNotify s0 else s0)) := by
  subst h0
  have hmatch : execNotifyRepeat t s = .next (match (begin s t).host.session with
    | none => begin s t
    | some x => (List.range 6).foldl sendWaiting (if x.notify.isSome = true then sendNotify (begin s t) else begin s t)) := rfl
  exact hmatch.trans (by rw [hx])

theorem notifyRepeat_law {s : State} {x : Session} (hx : s.host.session = some x) :
    let u := (List.range 6).foldl sendWaiting (if x.notify.isSome = true then sendNotify s else s)
    (∀ k bs, k < 6 → outBytes (mbx s k) k = some bs → ∃ n, Output.datagram 4 (chanBit k) n bs ∈ u.out) ∧
      (x.notify.isSome = true → ∃ n body, Output.datagram 8 0 n body ∈ u.out) ∧ u.host.chans = s.host.chans ∧
      { u with host := s.host, out := s.out } = s := by
  intro u
  obtain ⟨body, hbody⟩ := sendNotify_open hx
  have hv : (if x.notify.isSome = true then sendNotify s else s).host.session.isSome = true ∧
      (if x.notify.isSome = true then sendNotify s else s).host.chans = s.host.chans ∧
      { (if x.notify.isSome = true then sendNotify s else s) with host := s.host, out := s.out } = s := by
    split
    · rw [hbody]
      exact ⟨rfl, rfl, rfl⟩
    · exact ⟨by rw [hx]; rfl, rfl, rfl⟩
  obtain ⟨hopen, hchans, hrest⟩ := hv
  have hsent := datagramsOnly_foldl (List.range 6) (if x.notify.isSome = true then sendNotify s else s)
  obtain ⟨huchans, -, hurest⟩ := hsent.kept
  refine ⟨fun k bs hk hbs => ?_, fun hnotify => ?_, huchans.trans hchans, ?_⟩
  · exact mem_out_foldl_sendWaiting (List.mem_range.mpr hk) hopen (by rw [mbx, hchans]; exact hbs)
  · refine ⟨s.host.dgSeq, body, hsent.mem_out ?_⟩
    rw [if_pos hnotify, hbody]
    exact List.mem_append_right _ List.mem_cons_self
  · exact (congrArg (fun w : State => { w with host := s.host, out := s.out }) hurest).trans hrest

/-! #### The session's beginning and end (R378) -/

theorem openSession_eq (s : State) (src udp port : Nat) : openSession s src udp port = { s with
    out := s.out ++ [.datagram 2 0 s.host.dgSeq []]
    host := { s.host with
      dgSeq := s.host.dgSeq + 1, lastSession := s.host.lastSession + 1
      session := some { source := src, udp := udp, port := port, num := s.host.lastSession + 1, last := now s }
      queued := s.host.queued ++ [⟨now s, 0x1105, port, (s.host.lastSession + 1) % 2 ^ 32⟩] } } := rfl

/-- HELLO on a module that serves Ethernet. -/
theorem execHello_serving {s s0 : State} {t src udp : Nat} {port : Fin 2} (h0 : s0 = begin s t) (heth : s0.sys.ethernet = true)
    (hserves : serving s0 = true) : exec (.hello t src udp port) s = .next (match s0.host.session with
      | none => openSession s0 src udp port
      | some x =>
        if x.source = src ∧ x.udp = udp ∧ x.port = port then openSession (endSession s0 2) src udp port
        else if now s0 < x.last + 2000000000 then s0
        else openSession (endSession s0 1) src udp port) := by
  subst h0
  exact congrArg Host.Outcome.next (if_neg (by simp [heth, hserves]))

theorem nth_range_map {α : Type} (n : Nat) (f : Nat → α) (k : Nat) (d : α) :
    nth ((List.range n).map f) k d = f k ∨ nth ((List.range n).map f) k d = d := by
  rcases Nat.lt_or_ge k n with hk | hk
  · exact .inl (by simp [nth, hk])
  · exact .inr (by simp [nth, hk])

/-- Dropping the transfers discards the messages that wait for them, and their data. -/
theorem dropTransfers_law (s : State) :
    (∀ k, Emptied (mbx s k) → Emptied (mbx (dropTransfers s) k)) ∧
      (dropTransfers s).host.locks = s.host.locks ∧ (dropTransfers s).host.transfers = [] ∧ (dropTransfers s).host.tables = [] ∧
      (dropTransfers s).host.queued = s.host.queued ∧
      { dropTransfers s with host := s.host, sec := s.sec, store := s.store } = s := by
  obtain ⟨tr, ld, sl, hv⟩ := dropLoad_eq s
  unfold dropTransfers
  rw [hv]
  refine ⟨fun k hk => ?_, rfl, rfl, rfl, rfl, rfl⟩
  rw [mbx]
  dsimp only
  rcases nth_range_map s.host.chans.length _ k ({} : Mbx) with h | h
  · rw [h]; exact hk
  · rw [h]; exact ⟨rfl, rfl, rfl, rfl⟩

/-- Channel N0, free again when an Ethernet session held it (R523). -/
def ownerFreed (s : State) : State :=
  if s.rst.n0Owner = some true then { s with rst := { s.rst with n0Owner := none } } else s

theorem ownerFreed_eq (s : State) : ∃ r, ownerFreed s = { s with rst := r } := by
  unfold ownerFreed
  split
  · exact ⟨_, rfl⟩
  · exact ⟨s.rst, rfl⟩

theorem endSession_eq {s : State} {x : Session} (hx : s.host.session = some x) (cause : Nat) :
    endSession s cause = raise { dropTransfers (hostDetach (ownerFreed s) 4) with
      host := { (dropTransfers (hostDetach (ownerFreed s) 4)).host with session := none } } 0x1106 x.port cause := by
  unfold endSession
  rw [hx]
  rfl

/-- What the end of a session leaves. -/
theorem endSession_law {s : State} {x : Session} (hx : s.host.session = some x) (cause : Nat) :
    let u := endSession s cause
    u.host.session = none ∧ u.host.queued.getLast? = some ⟨now s, 0x1106, x.port, cause % 2 ^ 32⟩ ∧ u.host.transfers = [] ∧
      u.host.tables = [] ∧ (∀ k, k < 6 → Emptied (mbx u k)) ∧
      (∀ l, nth u.host.locks l 0 = if nth s.host.locks l 0 = 5 then 0 else nth s.host.locks l 0) ∧
      u.job = s.job ∧ u.pos = s.pos ∧ u.print = s.print := by
  intro u
  have hu : u = _ := endSession_eq hx cause
  clear_value u
  obtain ⟨r, hw⟩ := ownerFreed_eq s
  generalize ownerFreed s = w at hu hw
  obtain ⟨hempty, hlocks, hrest⟩ := hostDetach_law w 4
  obtain ⟨hkeeps, hvlocks, htransfers, htables, -, hvrest⟩ := dropTransfers_law (hostDetach w 4)
  generalize hostDetach w 4 = d at *
  generalize dropTransfers d = v at *
  have htime : now v = now s :=
    congrArg deviceTime ((congrArg State.time hvrest :).trans ((congrArg State.time hrest :).trans (by rw [hw])))
  subst hu
  refine ⟨rfl, ?_, htransfers, htables, fun k hk => hkeeps k (hempty k hk), fun l => ?_, ?_, ?_, ?_⟩
  · exact List.getLast?_concat.trans (congrArg (fun n => some (⟨n, 0x1106, x.port, cause % 2 ^ 32⟩ : Event)) htime)
  · exact (congrArg (nth · l 0) hvlocks).trans ((hlocks l).trans (by rw [hw]))
  · exact (congrArg State.job hvrest :).trans ((congrArg State.job hrest :).trans (by rw [hw]))
  · exact (congrArg State.pos hvrest :).trans ((congrArg State.pos hrest :).trans (by rw [hw]))
  · exact (congrArg State.print hvrest :).trans ((congrArg State.print hrest :).trans (by rw [hw]))

/-! #### Messages and data -/

theorem session_of_inSession {s : State} {d : Dgram} (h : inSession s d = true) : ∃ x, s.host.session = some x := by
  unfold inSession at h
  split at h
  · exact ⟨_, ‹_›⟩
  · simp at h

/-- Whether a SEQ of a channel was already taken in the session. -/
def seqTaken (s : State) (ch seq : Nat) : Bool := match s.host.session with | some x => x.taken.contains (ch, seq) | none => false

/-- A message datagram whose SEQ is new: the mailbox written and the channel posted. -/
def msgNew (s : State) (ch : Nat) (seq : Nat) (bytes : List Byte) : State :=
  if (mbx s ch).pending then sticky s Fld.MBX_STATUS_IGNORED_WRITE ch
  else if !mayPost s ch true then s
  else
    let s := { s with host := { s.host with session := s.host.session.map fun x => { x with taken := x.taken ++ [(ch, seq)] } } }
    postFrom (setMbx s ch fun m => { m with inbox := bytes.take 256 }) ch true

theorem execMsgDatagram_eq {s s0 : State} {t : Nat} (h0 : s0 = begin s t) (d : Dgram) (ch : Fin 6) (outAck : Bool)
    (bytes : List Byte) : exec (.msgDatagram t d ch outAck bytes) s = .next (if (!inSession s0 d) = true then s0
      else if seqTaken (touchSession s0) ch d.seq = true then
        match outBytes (mbx s0 ch) ch with
        | some bs => sendDatagram (touchSession s0) 4 (chanBit ch) bs
        | none => touchSession s0
      else msgNew (if outAck then pump (releaseReply (touchSession s0) ch) ch else touchSession s0) ch d.seq bytes) := by
  subst h0
  rfl

theorem seqTaken_touchSession {s : State} {x : Session} (hx : s.host.session = some x) (ch seq : Nat) :
    seqTaken (touchSession s) ch seq = x.taken.contains (ch, seq) := by
  unfold seqTaken touchSession
  rw [hx]
  rfl

/-- A message whose SEQ was taken: its waiting reply goes again (R379). -/
theorem execMsgDatagram_taken {s s0 : State} {t : Nat} (h0 : s0 = begin s t) {d : Dgram} {ch : Fin 6} {x : Session}
    (hin : inSession s0 d = true) (hx : s0.host.session = some x) (htaken : (ch.val, d.seq) ∈ x.taken) {bs : List Byte}
    (hbs : outBytes (mbx s0 ch) ch = some bs) (outAck : Bool) (bytes : List Byte) :
    exec (.msgDatagram t d ch outAck bytes) s = .next (sendDatagram (touchSession s0) 4 (chanBit ch) bs) := by
  rw [execMsgDatagram_eq h0, if_neg (by simp [hin]), if_pos (by rw [seqTaken_touchSession hx]; simpa using htaken), hbs]

/-- The session that has had a datagram now and has taken a message. -/
def sessionTaken (s : State) (x : Session) (ch seq : Nat) : State :=
  { s with host := { s.host with session := some { x with last := now s, taken := x.taken ++ [(ch, seq)] } } }

/-- A new message, posted by the only attachment, in a mailbox that holds no post. -/
theorem msgNew_posted {s w : State} {ch seq : Nat} (hboth : s.rst.both = false) (hpend : (mbx s ch).pending = false)
    (hw : w = { s with host := { s.host with session := s.host.session.map fun x => { x with taken := x.taken ++ [(ch, seq)] } } })
    (bytes : List Byte) : msgNew s ch seq bytes = postChannel (setMbx w ch fun m => { m with inbox := bytes.take 256 }) ch := by
  have hmay : mayPost s ch true = true := by simp [mayPost, hboth]
  unfold msgNew
  rw [hpend, hmay, ← hw, if_neg Bool.false_ne_true, if_neg (by simp)]
  have hwboth : (setMbx w ch fun m => { m with inbox := bytes.take 256 }).rst.both = false := by rw [hw]; exact hboth
  exact postFrom_alone hwboth ch true

/-- A message with a new SEQ goes into its mailbox and posts the channel. -/
theorem execMsgDatagram_new {s s0 : State} {t : Nat} (h0 : s0 = begin s t) {d : Dgram} {ch : Fin 6} {x : Session}
    (hin : inSession s0 d = true) (hx : s0.host.session = some x) (hnew : (ch.val, d.seq) ∉ x.taken)
    (hboth : s0.rst.both = false) (hpend : (mbx s0 ch).pending = false) (bytes : List Byte) :
    exec (.msgDatagram t d ch false bytes) s =
      .next (postChannel (setMbx (sessionTaken s0 x ch d.seq) ch fun m => { m with inbox := bytes.take 256 }) ch) := by
  have hw : sessionTaken s0 x ch d.seq = { touchSession s0 with host := { (touchSession s0).host with
      session := (touchSession s0).host.session.map fun x => { x with taken := x.taken ++ [(ch.val, d.seq)] } } } := by
    unfold sessionTaken touchSession
    dsimp only
    rw [hx]
    rfl
  rw [execMsgDatagram_eq h0, if_neg (by simp [hin]), if_neg (by rw [seqTaken_touchSession hx]; simpa using hnew),
    if_neg Bool.false_ne_true, msgNew_posted (s := touchSession s0) hboth hpend hw]

/-- The acknowledgement of a transfer goes out, and the transfer notes it (R380). -/
theorem sendDataAck_open {s : State} {x : Session} (hx : s.host.session = some x) (y : Transfer) : sendDataAck s y = { s with
    out := s.out ++ [.datagram 10 0 s.host.dgSeq (leBytes 4 y.num ++ leBytes 4 0 ++ leBytes 8 y.data.length)]
    host := { s.host with
      dgSeq := s.host.dgSeq + 1
      transfers := s.host.transfers.map fun z => if z.num = y.num then { z with ackedAt := y.data.length, lastAck := now s } else z } } := by
  unfold sendDataAck
  rw [sendDatagram_open hx]
  rfl

/-- The session has had a datagram, and the transfer is as `y`. -/
def dataTaken (s : State) (transfer : Nat) (y : Transfer) : State :=
  { touchSession s with host := { (touchSession s).host with
    transfers := s.host.transfers.map fun (z : Transfer) => if z.num = transfer then y else z } }

/-- The transfer with the bytes of an offset in order. -/
def grown (x : Transfer) (offset : Nat) (bytes : List Byte) : Transfer :=
  { x with data := (x.data ++ bytes.drop (x.data.length - offset)).take x.length }

/-- The transfer as it stands, acknowledged where that is due (R380, R549). -/
def dataNoted (s : State) (transfer : Nat) (y : Transfer) : State :=
  if 65536 ≤ y.data.length - y.ackedAt ∧ (!ackWithheld s y.num) = true then sendDataAck (dataTaken s transfer y) y
  else dataTaken s transfer y

/-- The tables and the firmware image that are complete with a transfer. -/
def loadsFinished (s : State) (transfer : Nat) : State :=
  noteCertified (finishLoad ((s.host.tables.filter (·.transfer == transfer)).foldl finishTable s))

theorem execDataDatagram_eq {s s0 : State} {t : Nat} (h0 : s0 = begin s t) (d : Dgram) (transfer offset : Nat) (bytes : List Byte) :
    exec (.dataDatagram t d transfer offset bytes) s = .next (if (!inSession s0 d) = true then s0
      else match s0.host.transfers.find? (·.num == transfer) with
        | none => touchSession s0
        | some x => if x.data.length < offset then touchSession s0
          else loadsFinished (dataNoted s0 transfer (grown x offset bytes)) transfer) := by
  subst h0
  rfl

/-- What an acknowledgement of the data taken leaves. -/
theorem dataTaken_acked {s : State} {x : Session} (hx : s.host.session = some x) (transfer : Nat) {y : Transfer} (hy : y.num = transfer) :
    (sendDataAck (dataTaken s transfer y) y).out =
        s.out ++ [.datagram 10 0 s.host.dgSeq (leBytes 4 y.num ++ leBytes 4 0 ++ leBytes 8 y.data.length)] ∧
      (sendDataAck (dataTaken s transfer y) y).host.transfers = s.host.transfers.map fun (z : Transfer) =>
        if z.num = transfer then { y with ackedAt := y.data.length, lastAck := now s } else z := by
  have hsession : (dataTaken s transfer y).host.session = some { x with last := now s } := by
    unfold dataTaken touchSession
    dsimp only
    rw [hx]
    rfl
  rw [sendDataAck_open hsession]
  refine ⟨rfl, ?_⟩
  unfold dataTaken
  dsimp only
  rw [List.map_map]
  refine List.map_congr_left fun z _ => ?_
  by_cases hz : z.num = transfer
  · simp only [Function.comp_apply, if_pos hz]
    rfl
  · simp only [Function.comp_apply, if_neg hz, hy]

/-- DATA in order is acknowledged each 64 KiB, unless host ingest pauses. -/
theorem dataNoted_law {s : State} {d : Dgram} (hin : inSession s d = true) {transfer : Nat} {y : Transfer} (hy : y.num = transfer) :
    (y.data.length < y.ackedAt + 65536 ∨ ackWithheld s y.num = true → dataNoted s transfer y = dataTaken s transfer y) ∧
    (65536 ≤ y.data.length - y.ackedAt → ackWithheld s y.num = false → ∃ n,
      (dataNoted s transfer y).out = s.out ++ [.datagram 10 0 n (leBytes 4 y.num ++ leBytes 4 0 ++ leBytes 8 y.data.length)] ∧
      (dataNoted s transfer y).host.transfers = s.host.transfers.map fun (z : Transfer) =>
        if z.num = transfer then { y with ackedAt := y.data.length, lastAck := now s } else z) := by
  obtain ⟨x, hx⟩ := session_of_inSession hin
  refine ⟨fun hquiet => ?_, fun hdue hopen => ⟨s.host.dgSeq, ?_⟩⟩
  · refine if_neg fun ⟨hdue, hopen⟩ => ?_
    rcases hquiet with hquiet | hquiet
    · omega
    · simp [hquiet] at hopen
  · have hacked : dataNoted s transfer y = sendDataAck (dataTaken s transfer y) y := if_pos ⟨hdue, by simp [hopen]⟩
    rw [hacked]
    exact dataTaken_acked hx transfer hy

/-- Whether a transfer's acknowledgement is due by the timer. -/
def ackDue (s : State) (x : Transfer) : Bool :=
  x.ackedAt < x.data.length && x.lastAck + 1000000 ≤ now s && !ackWithheld s x.num

theorem execDataAckTimer_eq {s s0 : State} {t : Nat} (h0 : s0 = begin s t) :
    exec (.dataAckTimer t) s = .next ((s0.host.transfers.filter (ackDue s0)).foldl sendDataAck s0) := by
  subst h0
  rfl

theorem dataAckTimer_law {s s0 : State} {t : Nat} (h0 : s0 = begin s t) {x : Transfer} {y : Session}
    (hx : s0.host.transfers = [x]) (hy : s0.host.session = some y) :
    (x.ackedAt < x.data.length → x.lastAck + 1000000 ≤ now s0 → ackWithheld s0 x.num = false → ∃ u, exec (.dataAckTimer t) s = .next u ∧
      u.out = s0.out ++ [.datagram 10 0 s0.host.dgSeq (leBytes 4 x.num ++ leBytes 4 0 ++ leBytes 8 x.data.length)] ∧
      u.host.transfers = [{ x with ackedAt := x.data.length, lastAck := now s0 }] ∧ { u with host := s0.host, out := s0.out } = s0) ∧
    (x.data.length ≤ x.ackedAt ∨ now s0 < x.lastAck + 1000000 ∨ ackWithheld s0 x.num = true →
      exec (.dataAckTimer t) s = .next s0) := by
  rw [execDataAckTimer_eq h0, hx]
  constructor
  · intro hnew hlate hfree
    have hdue : ackDue s0 x = true := by simp [ackDue, hnew, hlate, hfree]
    refine ⟨sendDataAck s0 x, by simp [hdue], ?_⟩
    rw [sendDataAck_open hy]
    exact ⟨rfl, by simp [hx], rfl⟩
  · intro hnone
    have hdue : ackDue s0 x = false := by
      simp only [ackDue, Bool.and_eq_false_iff, decide_eq_false_iff_not, Bool.not_eq_false', Nat.not_lt, Nat.not_le]
      tauto
    simp [hdue]

/-- Settles O46: each datagram's row taken as its definition has it, with the laws of sending, of the session's end and of the
transfers for what it leaves. -/
theorem ethernetSession : Obligations.EthernetSession := by
  intro s t _ s0 s1
  have h0 : s0 = begin s t := rfl
  have h1 : s1 = flushUpdate (begin s t) := rfl
  clear_value s0 s1
  refine ⟨fun src udp port heth hserves => ⟨fun hnone => ?hello, fun x hx hother hsoon => ?ignored⟩, fun x hx => ?timeout,
    fun d ch outAck bytes offset count values transfer hout0 hout1 => ?outside, fun d ch bytes x hin hx => ?message,
    fun d offset count values hin => ?registers, fun d transfer offset bytes x hin hx => ?data,
    fun x y hx hy => dataAckTimer_law h0 hx hy, fun x hx => ?repeated⟩
  case hello =>
    refine ⟨openSession s0 src udp port, ?_, ?_⟩
    · rw [execHello_serving h0 heth hserves, hnone]
    · rw [openSession_eq]
      exact ⟨rfl, rfl, rfl, rfl, rfl⟩
  case ignored =>
    rw [execHello_serving h0 heth hserves, hx]
    dsimp only
    rw [if_neg (by tauto), if_pos hsoon]
  case timeout =>
    have hrun : exec (.sessionTimeout t) s = .next (if x.last + 2000000000 ≤ now s0 then endSession s0 1 else s0) := by
      subst h0
      exact congrArg (fun o => Host.Outcome.next (match o with
        | some (x : Session) => if x.last + 2000000000 ≤ now (begin s t) then endSession (begin s t) 1 else begin s t
        | none => begin s t)) hx
    refine ⟨fun hsoon => by rw [hrun, if_neg (Nat.not_le.mpr hsoon)], fun hlate => ⟨endSession s0 1, by rw [hrun, if_pos hlate], ?_⟩⟩
    exact endSession_law hx 1
  case outside =>
    subst h0 h1
    exact ⟨congrArg Host.Outcome.next (if_pos (by simp [hout0])), congrArg Host.Outcome.next (if_pos (by simp [hout1])),
      congrArg Host.Outcome.next (if_pos (by simp [hout1])), congrArg Host.Outcome.next (if_pos (by simp [hout0]))⟩
  case message =>
    refine ⟨fun hnew hboth hpend => ⟨sessionTaken s0 x ch d.seq, execMsgDatagram_new h0 hin hx hnew hboth hpend bytes, rfl, rfl⟩,
      fun outAck bs htaken hbs => ⟨_, execMsgDatagram_taken h0 hin hx htaken hbs outAck bytes, ?_⟩⟩
    have hsession : (touchSession s0).host.session = some { x with last := now s0 } := by
      unfold touchSession
      rw [hx]
      rfl
    rw [sendDatagram_open hsession]
    exact ⟨hsession, rfl, rfl, rfl⟩
  case registers =>
    subst h1
    refine ⟨fun hpos hle => congrArg Host.Outcome.next (if_neg ?_), fun hcount => congrArg Host.Outcome.next (if_pos (.inr hcount)),
      congrArg Host.Outcome.next (if_neg (by simp [hin]))⟩
    simp only [hin, Bool.not_true, Bool.false_eq_true, false_or]
    omega
  case data =>
    rw [execDataDatagram_eq h0, if_neg (by simp [hin]), hx]
    dsimp only
    have hfound : (x.num == transfer) = true := List.find?_some (p := fun z : Transfer => z.num == transfer) hx
    have hnum : (grown x offset bytes).num = transfer := beq_iff_eq.mp hfound
    obtain ⟨hquiet, hacked⟩ := dataNoted_law hin hnum
    exact ⟨fun hoff => by rw [if_pos hoff], fun hoff => ⟨dataNoted s0 transfer (grown x offset bytes), by
      rw [if_neg (Nat.not_lt.mpr hoff)]; rfl, hquiet, hacked⟩⟩
  case repeated =>
    exact ⟨_, execNotifyRepeat_sends h0 hx, notifyRepeat_law hx⟩

end Sys2Proof.Laws

/-! ### Supply warnings, the electronic fuse and the outputs (18_power_and_electrical) -/

namespace Sys2Proof.Laws

open Sys2Proof Sys2Proof.Machine

/-! #### Registers kept in MRAM, records and the log -/

/-- Leaving entries out does not change what is read at a key that stays. -/
theorem bankLookup_filter {b : Bank} (h : bankWf b = true) {p : Nat × Nat → Bool} {k : Nat} (hk : ∀ v, p (k, v) = true) :
    bankLookup (b.filter p) k = bankLookup b k := by
  induction b with
  | nil => rfl
  | cons e rest ih =>
    obtain ⟨j, v⟩ := e
    obtain ⟨-, habove, hrest⟩ := (bankWf_cons j v rest).mp h
    by_cases hp : p (j, v) = true
    · rw [List.filter_cons_of_pos hp]
      simp only [bankLookup, ih hrest]
    · have hj : j ≠ k := fun hj => hp (hj ▸ hk v)
      rw [List.filter_cons_of_neg hp, ih hrest]
      simp only [bankLookup, hj, if_false]
      split
      · exact bankLookup_below fun e he => Nat.lt_trans ‹_› (habove e he)
      · rfl

theorem bankLookup_bankKeep {b : Bank} (h : bankWf b = true) {keep : Reg → Bool} {r : Reg} {k : Nat}
    (hr : regList[k / (8192 * 131072)]? = some r) (hkeep : keep r = true) : bankLookup (bankKeep b keep) k = bankLookup b k :=
  bankLookup_filter h fun _ => by simp only [hr, hkeep]

/-- From `s` to `u` something went to the peer and nothing else happened. -/
def PeerOnly (s u : State) : Prop := ∃ p q o, u = { s with print := p, pair := q, out := o }

theorem PeerOnly.refl (s : State) : PeerOnly s s := ⟨s.print, s.pair, s.out, rfl⟩

theorem PeerOnly.toPeer {s u : State} (h : PeerOnly s u) (p : PeerItem) : PeerOnly s (toPeer u p) := by
  obtain ⟨pr, pa, os, rfl⟩ := h
  unfold Machine.toPeer
  split
  · exact ⟨pr, pa, os, rfl⟩
  · exact ⟨pr, pa, os ++ [.peer p], rfl⟩

theorem PeerOnly.countKeyed {s u : State} (h : PeerOnly s u) : PeerOnly s (countKeyed u) := by
  obtain ⟨pr, pa, os, rfl⟩ := h
  unfold Machine.countKeyed
  dsimp only
  split
  · exact PeerOnly.toPeer ⟨pr, _, os, rfl⟩ _
  · exact ⟨pr, _, os, rfl⟩

theorem peerOnly_sendRecord (s : State) (release : Option Nat) (flush : Bool) : PeerOnly s (sendRecord s release flush) :=
  (PeerOnly.toPeer ⟨{ s.print with sendBlocks := [], sendNozzles := [], sendPaths := [] }, _, s.out, rfl⟩ _).countKeyed

/-- From `s` to `u` the persistent log has grown and nothing else happened. -/
def LogGrown (s u : State) : Prop := ∃ l n, u = { s with host := { s.host with log := l, logNext := n } }

theorem logGrown_logEvent (s : State) (e : Event) : LogGrown s (logEvent s e) := by
  unfold logEvent
  exact ⟨_, _, rfl⟩

theorem logGrown_foldl (es : List Event) (s : State) : LogGrown s (es.foldl logEvent s) := by
  induction es generalizing s with
  | nil => exact ⟨s.host.log, s.host.logNext, rfl⟩
  | cons e es ih =>
    obtain ⟨_, _, he⟩ := logGrown_logEvent s e
    obtain ⟨l, n, h⟩ := ih (logEvent s e)
    rw [List.foldl_cons, h, he]
    exact ⟨l, n, rfl⟩

/-- The queued events go to the persistent log, and nothing else changes. -/
theorem logQueued_eq (s : State) : ∃ l n, logQueued s = { s with host := { s.host with
    log := l, logNext := n, logged := s.host.queued.length } } := by
  obtain ⟨l, n, h⟩ := logGrown_foldl (s.host.queued.drop s.host.logged) s
  unfold logQueued
  rw [h]
  exact ⟨l, n, rfl⟩

/-! #### Supply warnings (R580 to R583) -/

theorem liveFld_noteVin {s : State} (hb : banksOk s = true) (mv : Nat) : liveFld (noteVin s mv) Fld.PWR_VIN_VIN_MIN_MV =
    Nat.min (liveFld s Fld.PWR_VIN_VIN_MIN_MV) (Nat.min (2 ^ 16 - 1) mv) := by
  have hlt : liveFld s Fld.PWR_VIN_VIN_MIN_MV < 2 ^ 16 := liveFld_lt s Fld.PWR_VIN_VIN_MIN_MV 0 0
  unfold noteVin
  rw [liveFld_setFld hb, satNat, show mv.min (2 ^ 16 - 1) = (2 ^ 16 - 1).min mv from Nat.min_comm _ _]
  exact Nat.mod_eq_of_lt (Nat.lt_of_le_of_lt (Nat.min_le_left _ _) hlt)

theorem regsKept_noteVin {s : State} (hb : banksOk s = true) (mv : Nat) : regsKept s (noteVin s mv) [regKey .PWR_VIN 0 0] :=
  regsKept_setFld (live_wf hb) _ _ _ _

/-- The unit as a new warning finds it: the reading noted, the warning in force, and the flush record sent where one goes. -/
def warnFound (s : State) (mv : Nat) : State :=
  let w : State := { noteVin s mv with pwr := { s.pwr with warning := true, warnFrom := s.time.counter, stopped := false } }
  if w.pair.role = .active ∧ w.pair.lease ∧ w.sys.st ≠ .boot ∧ w.sys.st ≠ .recovery then sendRecord w none true else w

theorem peerOnly_warnFound (s : State) (mv : Nat) : PeerOnly { noteVin s mv with
    pwr := { s.pwr with warning := true, warnFrom := s.time.counter, stopped := false } } (warnFound s mv) := by
  unfold warnFound
  dsimp only
  split
  · exact peerOnly_sendRecord _ _ _
  · exact .refl _

theorem execVinWarn_continued {s s0 : State} {t mv : Nat} (h0 : s0 = begin s t) (hon : s0.sys.st ≠ .off)
    (hfree : s0.pwr.warning = false) {e : Int} (he : s0.pwr.warnEnd = some e) (hsoon : (s0.time.counter : Int) ≤ e + 100000) :
    exec (.vinWarn t mv) s = .next { noteVin s0 mv with pwr := { s0.pwr with warning := true } } := by
  subst h0
  have hcont : continues (noteVin (begin s t) mv) = true := by
    unfold continues noteVin
    simp only [setFld_pwr, setFld_time, he]
    exact decide_eq_true hsoon
  exact congrArg Host.Outcome.next ((if_neg (by simp [hon, hfree])).trans (if_pos hcont))

/-- The unit found with the counts and the events kept in MRAM (R580). -/
def warnKept (s : State) (mv : Nat) : State := logQueued (keepCounts (warnFound s mv))

theorem warnKept_eq (s : State) (mv : Nat) : ∃ p q o l n, warnKept s mv = { noteVin s mv with
    print := p, pair := q, out := o
    pwr := { s.pwr with warning := true, warnFrom := s.time.counter, stopped := false }
    rst := { s.rst with pend := bankKeep (noteVin s mv).live fun r => r == .FIR_HEAD_PENDING || r == .FIR_INK_PENDING }
    host := { s.host with log := l, logNext := n, logged := s.host.queued.length } } := by
  obtain ⟨p, q, o, hfound⟩ := peerOnly_warnFound s mv
  obtain ⟨l, n, hlog⟩ := logQueued_eq (keepCounts (warnFound s mv))
  unfold warnKept
  rw [hlog, hfound]
  exact ⟨p, q, o, l, n, rfl⟩

/-- A warning kept, reported with its bit, its count and its event (R580, R599). -/
def warnTold (s : State) (mv : Nat) : State :=
  raise (bump (sticky (warnKept s mv) Fld.PWR_STATUS_VIN_WARN) Fld.PWR_WARN_WARN_COUNT) 0x0E01 0 mv

theorem execVinWarn_new {s s0 : State} {t mv : Nat} (h0 : s0 = begin s t) (hon : s0.sys.st ≠ .off) (hout : s0.sys.st ≠ .reset)
    (hfree : s0.pwr.warning = false) (hlate : ∀ e, s0.pwr.warnEnd = some e → e + 100000 < (s0.time.counter : Int)) :
    exec (.vinWarn t mv) s = .next (warnTold s0 mv) := by
  subst h0
  have hcont : ¬ continues (noteVin (begin s t) mv) = true := by
    unfold continues noteVin
    simp only [setFld_pwr, setFld_time]
    split
    · rename_i e he
      exact fun h => absurd (of_decide_eq_true h) (Int.not_le.mpr (hlate e he))
    · exact Bool.false_ne_true
  exact congrArg Host.Outcome.next ((if_neg (by simp [hon, hfree])).trans ((if_neg hcont).trans (if_neg hout)))

/-- The counts of firings that MRAM holds after a warning. -/
theorem warnKept_pend {s : State} (hb : banksOk s = true) (mv : Nat) {i : Nat} (hi : i < 512) :
    bankLookup (warnKept s mv).rst.pend (regKey .FIR_HEAD_PENDING i 0) = bankLookup s.live (regKey .FIR_HEAD_PENDING i 0) := by
  obtain ⟨_, _, _, _, _, hkept⟩ := warnKept_eq s mv
  have hnoted : banksOk (noteVin s mv) = true := banks_setFld hb _ _ _ _
  have hreg : regKey .FIR_HEAD_PENDING i 0 / (8192 * 131072) = Reg.FIR_HEAD_PENDING.ctorIdx := by
    unfold regKey
    omega
  have hr : regList[regKey .FIR_HEAD_PENDING i 0 / (8192 * 131072)]? = some .FIR_HEAD_PENDING := by
    rw [hreg]
    rfl
  rw [hkept]
  refine (bankLookup_bankKeep (live_wf hnoted) hr rfl).trans (regsKept_noteVin hb mv _ ?_)
  exact List.not_mem_cons_of_ne_of_not_mem (regKey_ne (by omega) (by omega) (by decide)) List.not_mem_nil

/-- The registers, the counts kept and the events that a new warning leaves. -/
theorem warnTold_law {s : State} (hb : banksOk s = true) (mv : Nat) :
    let u := warnTold s mv
    u.pwr = { s.pwr with warning := true, warnFrom := s.time.counter, stopped := false } ∧
    liveFld u Fld.PWR_VIN_VIN_MIN_MV = Nat.min (liveFld s Fld.PWR_VIN_VIN_MIN_MV) (Nat.min (2 ^ 16 - 1) mv) ∧
    stickyOn u Fld.PWR_STATUS_VIN_WARN = true ∧
    liveFld u Fld.PWR_WARN_WARN_COUNT = (liveFld s Fld.PWR_WARN_WARN_COUNT + 1) % 2 ^ 32 ∧
    u.host.queued = s.host.queued ++ [⟨now s, 0x0E01, 0, mv % 2 ^ 32⟩] ∧
    (∀ i, i < 512 → bankLookup u.rst.pend (regKey .FIR_HEAD_PENDING i 0) = bankLookup s.live (regKey .FIR_HEAD_PENDING i 0)) ∧
    u.host.logged = s.host.queued.length ∧
    regsKeptBut s u [regKey .PWR_VIN 0 0, regKey .PWR_STATUS 0 0, regKey .PWR_WARN 0 0] := by
  obtain ⟨p, q, o, l, n, hkept⟩ := warnKept_eq s mv
  have hpend := fun i hi => warnKept_pend hb mv (i := i) hi
  have hnoted : banksOk (noteVin s mv) = true := banks_setFld hb _ _ _ _
  have hlow : liveFld (warnKept s mv) Fld.PWR_VIN_VIN_MIN_MV =
      Nat.min (liveFld s Fld.PWR_VIN_VIN_MIN_MV) (Nat.min (2 ^ 16 - 1) mv) := by rw [hkept]; exact liveFld_noteVin hb mv
  have hcount : liveFld (warnKept s mv) Fld.PWR_WARN_WARN_COUNT = liveFld s Fld.PWR_WARN_WARN_COUNT := by
    rw [hkept]
    exact liveFld_setFld_ne hb (by decide) (by decide) (by decide) _
  have hvin : regsKept s (warnKept s mv) [regKey .PWR_VIN 0 0] := by rw [hkept]; exact regsKept_noteVin hb mv
  have hkb : banksOk (warnKept s mv) = true := by rw [hkept]; exact hnoted
  have hpwr : (warnKept s mv).pwr = { s.pwr with warning := true, warnFrom := s.time.counter, stopped := false } := by rw [hkept]
  have htime : (warnKept s mv).time = s.time := by rw [hkept]; rfl
  have hqueued : (warnKept s mv).host.queued = s.host.queued := by rw [hkept]
  have hlogged : (warnKept s mv).host.logged = s.host.queued.length := by rw [hkept]
  unfold warnTold
  generalize warnKept s mv = k at *
  have hset := stickyOn_sticky (live_wf hkb) (f := Fld.PWR_STATUS_VIN_WARN) (i := 0) (b := 0) (by decide) (by decide) (by decide)
  have hother {g : Field} (hg : g.reg.ctorIdx ≠ Reg.PWR_STATUS.ctorIdx) (hd : g.reg.ctorIdx ≠ Reg.DB_D2H_STATUS.ctorIdx)
      (hs : g.reg.ctorIdx ≠ Reg.FAULT_SUMMARY.ctorIdx) := liveFld_sticky_ne hkb (f := Fld.PWR_STATUS_VIN_WARN) (g := g) (i := 0) (j := 0)
        hg hd hs (by decide) (by decide) 0
  have hlive := regsKept_sticky (live_wf hkb) Fld.PWR_STATUS_VIN_WARN 0 0
  have hstb := banks_sticky hkb Fld.PWR_STATUS_VIN_WARN 0 0
  obtain ⟨b, os, h, hsticky⟩ := notice_sticky k Fld.PWR_STATUS_VIN_WARN 0 0
  generalize sticky k Fld.PWR_STATUS_VIN_WARN 0 0 = w at *
  have hbump := regsKept_setFld (live_wf hstb) Fld.PWR_WARN_WARN_COUNT 0 (liveFld w Fld.PWR_WARN_WARN_COUNT + 1) 0
  have hcounted := liveFld_bump hstb Fld.PWR_WARN_WARN_COUNT 0 1
  rw [hother (g := Fld.PWR_WARN_WARN_COUNT) (by decide) (by decide) (by decide), hcount] at hcounted
  refine ⟨by rw [hsticky]; exact hpwr, ?_, ?_, hcounted, ?_, by rw [hsticky]; exact hpend, by rw [hsticky]; exact hlogged, ?_⟩
  · exact (liveFld_of_kept hbump Fld.PWR_VIN_VIN_MIN_MV 0 0 (by decide)).trans
      ((hother (g := Fld.PWR_VIN_VIN_MIN_MV) (by decide) (by decide) (by decide)).trans hlow)
  · exact (congrArg (·.testBit 0) (liveFld_of_kept hbump Fld.PWR_STATUS_VIN_WARN 0 0 (by decide))).trans hset
  · rw [hsticky, ← hqueued]
    exact congrArg (fun x => k.host.queued ++ [⟨deviceTime x, 0x0E01, 0, mv % 2 ^ 32⟩]) htime
  · have hstatus : regKey Fld.PWR_STATUS_VIN_WARN.reg 0 0 = regKey .PWR_STATUS 0 0 := rfl
    have hcountReg : regKey Fld.PWR_WARN_WARN_COUNT.reg 0 0 = regKey .PWR_WARN 0 0 := rfl
    rw [hstatus] at hlive
    rw [hcountReg] at hbump
    exact regsKept_trans (regsKept_mono hvin (by simp)) (regsKept_trans (regsKept_mono hlive (by simp)) (regsKept_mono hbump (by simp)))

/-- The length of the warning in force, in microseconds (R582). -/
def warnLength (s : State) : Nat := (((s.time.counter : Int) - s.pwr.warnFrom) / 1000).toNat

/-- A warning at its end, with its length recorded. -/
def warnEndTold (s : State) : State :=
  raise (setFld { s with pwr := { s.pwr with warning := false, warnEnd := some (s.time.counter : Int) } }
    Fld.PWR_WARN_LAST_WARN_LAST 0 (satNat 32 (warnLength s))) 0x0E02 0 (warnLength s)

theorem execVinWarnEnd_ends {s s0 : State} {t : Nat} (h0 : s0 = begin s t) (hwarn : s0.pwr.warning = true) (hout : s0.sys.st ≠ .reset) :
    exec (.vinWarnEnd t) s = .next (warnEndTold s0) := by
  subst h0
  exact congrArg Host.Outcome.next ((if_neg (by simp [hwarn])).trans (if_neg hout))

theorem warnEndTold_law {s : State} (hb : banksOk s = true) :
    (warnEndTold s).pwr = { s.pwr with warning := false, warnEnd := some (s.time.counter : Int) } ∧
    liveFld (warnEndTold s) Fld.PWR_WARN_LAST_WARN_LAST = Nat.min (2 ^ 32 - 1) (warnLength s) ∧
    regsKept s (warnEndTold s) [regKey .PWR_WARN_LAST 0 0] ∧
    (warnEndTold s).host = { s.host with queued := s.host.queued ++ [⟨now s, 0x0E02, 0, warnLength s % 2 ^ 32⟩] } ∧
    { warnEndTold s with pwr := s.pwr, live := s.live, host := s.host } = s := by
  have hset := liveFld_setFld (s := { s with pwr := { s.pwr with warning := false, warnEnd := some (s.time.counter : Int) } }) hb
    Fld.PWR_WARN_LAST_WARN_LAST 0 (satNat 32 (warnLength s)) 0
  have hfits : satNat 32 (warnLength s) % 2 ^ 32 = Nat.min (2 ^ 32 - 1) (warnLength s) := by
    unfold satNat
    rw [show Nat.min (warnLength s) (2 ^ 32 - 1) = Nat.min (2 ^ 32 - 1) (warnLength s) from Nat.min_comm _ _]
    exact Nat.mod_eq_of_lt (Nat.lt_of_le_of_lt (Nat.min_le_left _ _) (by norm_num))
  have hkept := regsKept_setFld (s := { s with pwr := { s.pwr with warning := false, warnEnd := some (s.time.counter : Int) } })
    (live_wf hb) Fld.PWR_WARN_LAST_WARN_LAST 0 (satNat 32 (warnLength s)) 0
  exact ⟨rfl, hset.trans hfits, hkept, rfl, rfl⟩

/-- A loss of the supply (R518, R578): off, with the trip kept and the log as it was. -/
theorem powerLost_law (s : State) : (powerLost s).sys.st = .off ∧ (powerLost s).pwr = { tripped := s.pwr.tripped } ∧
    (powerLost s).host.log = s.host.log := by
  have hpwr : (inReset (outputsDown (cutShort s))).pwr.tripped = s.pwr.tripped := by
    obtain ⟨l, n, hcut⟩ := cutShort_eq s
    obtain ⟨os, hout, -, -⟩ := outputsDown_eq (cutShort s)
    obtain ⟨tr, ld, sl, hdrop⟩ := dropLoad_eq (outputsDown (cutShort s))
    unfold inReset
    rw [hdrop, hout, hcut]
  have hrest := inReset_restsAfter s
  unfold powerLost
  exact ⟨rfl, congrArg (fun b => ({ tripped := b } : PwrSt)) hpwr, hrest.log⟩

/-- A supply fault reported, once the supply's own state has taken it. -/
theorem reported_pwr {s : State} (hb : banksOk s = true) (p : PwrSt) {f : Field} {c src a a' : Nat} (hf : 0 < f.width)
    (h1 : f.reg.ctorIdx ≠ Reg.DB_D2H_STATUS.ctorIdx) (h2 : f.reg.ctorIdx ≠ Reg.FAULT_SUMMARY.ctorIdx) (ha : a % 2 ^ 32 = a') :
    Reported { s with pwr := p } (raise (sticky { s with pwr := p } f) c src a) f 0 0 ⟨now s, c, src, a'⟩ := by
  have hb' : banksOk { s with pwr := p } = true := hb
  exact reported (live_wf hb') hf (by decide) h1 h2 ha

theorem vinWarnStop_stays {s s0 : State} {t : Nat} (h0 : s0 = begin s t)
    (h : s0.pwr.warning = false ∨ s0.pwr.stopped = true ∨ (s0.time.counter : Int) < s0.pwr.warnFrom + 10000000) :
    exec (.vinWarnStop t) s = .next s0 := by
  subst h0
  refine congrArg Host.Outcome.next (if_pos ?_)
  rcases h with h | h | h
  · exact .inl (by rw [h]; rfl)
  · exact .inr (.inl h)
  · exact .inr (.inr (.inl h))

/-- A warning of 10 ms, reported (R583). -/
def vinStopTold (s : State) : State :=
  raise (sticky { s with pwr := { s.pwr with stopped := true } } Fld.PWR_STATUS_VIN_STOP) 0x0E03 0
    (liveFld (sticky { s with pwr := { s.pwr with stopped := true } } Fld.PWR_STATUS_VIN_STOP) Fld.PWR_VIN_VIN_MIN_MV)

theorem execVinWarnStop_stops {s s0 : State} {t : Nat} (h0 : s0 = begin s t) (hwarn : s0.pwr.warning = true)
    (hnew : s0.pwr.stopped = false) (hlong : s0.pwr.warnFrom + 10000000 ≤ (s0.time.counter : Int)) (hserves : serving s0 = true) :
    exec (.vinWarnStop t) s = .next (if s0.pair.role = .standby then vinStopTold s0 else orderlyStop (vinStopTold s0) 5) := by
  subst h0
  have hgo : ¬ ((!(begin s t).pwr.warning) = true ∨ (begin s t).pwr.stopped = true ∨
      ((begin s t).time.counter : Int) < (begin s t).pwr.warnFrom + 10000000 ∨ (!serving (begin s t)) = true) := by
    simp only [hwarn, hnew, hserves, Bool.not_true, Bool.false_eq_true, false_or, or_false]
    exact Int.not_lt.mpr hlong
  have hsticky := HostOnly.pair_eq (hostOnly_sticky { begin s t with
      pwr := { (begin s t).pwr with stopped := true } } Fld.PWR_STATUS_VIN_STOP 0 0)
  have hrole : (vinStopTold (begin s t)).pair.role = (begin s t).pair.role := congrArg PairSt.role hsticky
  exact congrArg Host.Outcome.next ((if_neg hgo).trans (by rw [← hrole]; rfl))

theorem vinStopTold_reported {s : State} (hb : banksOk s = true) :
    Reported { s with pwr := { s.pwr with stopped := true } } (vinStopTold s) Fld.PWR_STATUS_VIN_STOP 0 0
      ⟨now s, 0x0E03, 0, liveFld s Fld.PWR_VIN_VIN_MIN_MV⟩ := by
  have hsame : liveFld (sticky { s with pwr := { s.pwr with stopped := true } } Fld.PWR_STATUS_VIN_STOP) Fld.PWR_VIN_VIN_MIN_MV =
      liveFld s Fld.PWR_VIN_VIN_MIN_MV :=
    liveFld_sticky_ne (s := { s with pwr := { s.pwr with stopped := true } }) hb (by decide) (by decide) (by decide) (by decide) (by decide) 0
  have hlt : liveFld s Fld.PWR_VIN_VIN_MIN_MV < 2 ^ 16 := liveFld_lt s Fld.PWR_VIN_VIN_MIN_MV 0 0
  unfold vinStopTold
  rw [hsame]
  exact reported_pwr hb _ (by decide) (by decide) (by decide) (Nat.mod_eq_of_lt (by omega))

/-- Settles O57: a new warning by the laws of its report, its end and the stop after 10 ms by their definitions, the trip by the law
of a lost supply. -/
theorem supplyWarnings : Obligations.SupplyWarnings := by
  intro s t mv hb s0 low
  have h0 : s0 = begin s t := rfl
  have hb0 : banksOk s0 = true := banks_begin hb t
  clear_value s0
  refine ⟨fun h => ?idle, fun hon hfree e he hsoon => ?continued, fun hon hout hfree hlate => ?new, fun hwarn hout => ?ended,
    fun h => ?noEnd, fun hwarn hnew hlong hserves => ?stop, vinWarnStop_stays h0, fun hopen => ?high, fun h => ?noHigh, fun hon => ?trip⟩
  case idle =>
    subst h0
    exact congrArg Host.Outcome.next (if_pos h)
  case continued =>
    exact ⟨_, execVinWarn_continued h0 hon hfree he hsoon, rfl, liveFld_noteVin hb0 mv, regsKept_noteVin hb0 mv, rfl⟩
  case new => exact ⟨warnTold s0 mv, execVinWarn_new h0 hon hout hfree hlate, warnTold_law hb0 mv⟩
  case ended =>
    intro us
    exact ⟨warnEndTold s0, execVinWarnEnd_ends h0 hwarn hout, warnEndTold_law hb0⟩
  case noEnd =>
    subst h0
    exact congrArg Host.Outcome.next (if_pos (by rw [h]; rfl))
  case stop => exact ⟨vinStopTold s0, execVinWarnStop_stops h0 hwarn hnew hlong hserves, vinStopTold_reported hb0⟩
  case high =>
    refine ⟨raise (sticky s0 Fld.PWR_STATUS_VIN_HIGH) 0x0E04 0 mv, ?_,
      reported (live_wf hb0) (by decide) (by decide) (by decide) (by decide) rfl⟩
    subst h0
    exact congrArg Host.Outcome.next (if_neg (by simp [hopen]))
  case noHigh =>
    subst h0
    exact congrArg Host.Outcome.next (if_pos (by rw [h]; rfl))
  case trip =>
    obtain ⟨hoff, hpwr, hlog⟩ := powerLost_law { s0 with pwr := { s0.pwr with tripped := true } }
    refine ⟨powerLost { s0 with pwr := { s0.pwr with tripped := true } }, ?_, hoff, hpwr, hlog⟩
    subst h0
    exact congrArg Host.Outcome.next (if_neg hon)

/-! #### VENC_OUT and shorted outputs (R591, R595, R596) -/

/-- VENC_OUT folded back while the module reports it. -/
theorem foldBack_reported {s : State} (hb : banksOk s = true) (hopen : barOpen s = true) :
    Reported { s with pwr := { s.pwr with folded := some (s.time.counter : Int) } } (foldBack s) Fld.PWR_STATUS_VENC_FAULT 0 0
      ⟨now s, 0x0E05, 0, 1⟩ := by
  have hfold : foldBack s = raise (sticky { s with pwr := { s.pwr with folded := some (s.time.counter : Int) } }
      Fld.PWR_STATUS_VENC_FAULT) 0x0E05 0 1 := if_pos hopen
  rw [hfold]
  exact reported_pwr hb _ (by decide) (by decide) (by decide) (by decide)

theorem execVencRetry_eq {s s0 : State} {t : Nat} (h0 : s0 = begin s t) {f : Int} (hf : s0.pwr.folded = some f) (ok : Bool) :
    exec (.vencRetry t ok) s = .next (if (s0.time.counter : Int) < f + 100000000 then s0
      else if (ok || !vencOn s0) = true then { s0 with pwr := { s0.pwr with folded := none } } else foldBack s0) := by
  subst h0
  have hmatch : exec (.vencRetry t ok) s = .next (match (begin s t).pwr.folded with
    | none => begin s t
    | some f => if ((begin s t).time.counter : Int) < f + 100000000 then begin s t
      else if (ok || !vencOn (begin s t)) = true then { begin s t with pwr := { (begin s t).pwr with folded := none } }
      else foldBack (begin s t)) := rfl
  rw [hmatch, hf]

/-- A feed of VENC_OUT from outside, reported (R591). -/
def backfeedTold (s : State) : State :=
  raise (sticky { s with pwr := { s.pwr with fed := true } } Fld.PWR_STATUS_VENC_FAULT) 0x0E05 0 2

theorem vencOn_backfeedTold (s : State) : vencOn (backfeedTold s) = false := by
  have hfed : (backfeedTold s).pwr.fed = true := by
    have hsticky := notice_sticky { s with pwr := { s.pwr with fed := true } } Fld.PWR_STATUS_VENC_FAULT 0 0
    obtain ⟨_, _, _, hsticky⟩ := hsticky
    unfold backfeedTold
    rw [hsticky]
    rfl
  simp [vencOn, hfed]

theorem execVencBackfeed_fed {s s0 : State} {t mv : Nat} (h0 : s0 = begin s t) (hmv : 5300 < mv) (hfed : s0.pwr.fed = false)
    (hon : s0.sys.st ≠ .off) : exec (.vencBackfeed t mv) s = .next (if barOpen s0 = true then
backfeedTold s0
      else { s0 with pwr := { s0.pwr with fed := true } }) := by
  subst h0
  exact congrArg Host.Outcome.next (if_neg (by simp [hfed, hon, hmv]))

theorem execVencBackfeed_stays {s s0 : State} {t mv : Nat} (h0 : s0 = begin s t)
    (h : mv ≤ 5300 ∨ s0.pwr.fed = true ∨ s0.sys.st = .off) : exec (.vencBackfeed t mv) s = .next s0 := by
  subst h0
  exact congrArg Host.Outcome.next (if_pos h)

/-- A shorted output, reported (R595). -/
def outShortTold (s : State) (k : Nat) : State :=
  raise (sticky { s with pwr := { s.pwr with shorts := s.pwr.shorts ++ [k] } } Fld.PWR_STATUS_OUT_SHORT) 0x0E08 0 k

theorem on_of_barOpen {s : State} (h : barOpen s = true) : s.sys.st ≠ .off := by
  intro hoff
  simp [barOpen, hoff] at h

theorem closed_of_reset {s : State} (h : s.sys.st = .reset) : barOpen s = false := by simp [barOpen, h]

/-- Settles O58: each row taken as its definition has it, with what is reported by the law of a reported fault. -/
theorem outputFaults : Obligations.OutputFaults := by
  intro s t hb s0 c
  have h0 : s0 = begin s t := rfl
  have hb0 : banksOk s0 = true := banks_begin hb t
  clear_value s0
  refine ⟨fun hon hfull hopen => ?overload, fun h => ?noOverload, fun f hf => ⟨fun ok hsoon => ?early, fun hlate => ?gone,
    fun hlate hon hopen => ?again⟩, fun mv => ⟨fun hmv => execVencBackfeed_stays h0 (.inl hmv), fun hmv hfed hopen => ?fed,
    fun hmv hfed hreset => ?quiet, fun h => execVencBackfeed_stays h0 (.inr h)⟩, fun k => ⟨fun h => ?noShort,
    fun hserves hdriven hnew => ?short⟩⟩
  case overload =>
    refine ⟨foldBack s0, ?_, foldBack_reported hb0 hopen⟩
    subst h0
    exact congrArg Host.Outcome.next (if_neg (by simp [hon, hfull]))
  case noOverload =>
    subst h0
    refine congrArg Host.Outcome.next (if_pos ?_)
    exact h.imp (fun h => by rw [h]; rfl) id
  case early => rw [execVencRetry_eq h0 hf, if_pos hsoon]
  case gone => rw [execVencRetry_eq h0 hf, if_neg (Int.not_lt.mpr hlate), if_pos (Bool.true_or _)]
  case again =>
    exact ⟨foldBack s0, by rw [execVencRetry_eq h0 hf, if_neg (Int.not_lt.mpr hlate), if_neg (by simp [hon])],
      foldBack_reported hb0 hopen⟩
  case fed =>
    refine ⟨backfeedTold s0, ?_, reported_pwr hb0 _ (by decide) (by decide) (by decide) (by decide), vencOn_backfeedTold s0⟩
    rw [execVencBackfeed_fed h0 hmv hfed (on_of_barOpen hopen), if_pos hopen]
  case quiet => rw [execVencBackfeed_fed h0 hmv hfed (by rw [hreset]; decide), closed_of_reset hreset, if_neg Bool.false_ne_true]
  case noShort =>
    subst h0
    refine congrArg Host.Outcome.next (if_pos (.inr ?_))
    exact h.imp (fun h => by rw [h]; rfl) List.contains_iff_mem.mpr
  case short =>
    refine ⟨outShortTold s0 k, ?_, ?_⟩
    · subst h0
      refine congrArg Host.Outcome.next ((if_neg ?_).trans rfl)
      simpa [hserves, hdriven] using hnew
    · exact reported_pwr hb0 _ (by decide) (by decide) (by decide) (Nat.mod_eq_of_lt (by omega))

end Sys2Proof.Laws

/-! ### Fatal faults and starts (15_reset_and_start) -/

namespace Sys2Proof.Laws

open Sys2Proof Sys2Proof.Machine

/-! #### The persistent log -/

theorem getLast?_lastN_concat {α : Type} {n : Nat} (hn : 0 < n) (l : List α) (x : α) : (lastN n (l ++ [x])).getLast? = some x := by
  unfold lastN
  rw [List.getLast?_drop, if_neg (by simp; omega)]
  exact List.getLast?_concat

theorem log_logEvent_last (s : State) (e : Event) : (logEvent s e).host.log.getLast? = some ⟨s.host.logNext, e⟩ := by
  have hlog : (logEvent s e).host.log = lastN 4096 (s.host.log ++ [⟨s.host.logNext, e⟩]) := by
    unfold logEvent
    generalize lastN 4096 (s.host.log ++ [⟨s.host.logNext, e⟩]) = l
    rfl
  rw [hlog]
  exact getLast?_lastN_concat (by decide) _ _

theorem log_ringEvent (s : State) (e : Event) : (ringEvent s e).host.log = s.host.log := by
  unfold ringEvent
  split
  · rfl
  · split <;> rfl

theorem log_foldl_last (q : List Event) (e : Event) (s : State) :
    ((q ++ [e]).foldl logEvent s).host.log.getLast?.map (·.ev) = some e := by
  rw [List.foldl_append, List.foldl_cons, List.foldl_nil, log_logEvent_last]
  rfl

theorem log_logQueued (s : State) : (logQueued s).host.log = ((s.host.queued.drop s.host.logged).foldl logEvent s).host.log := by
  unfold logQueued
  generalize (s.host.queued.drop s.host.logged).foldl logEvent s = u
  rfl

/-- The queued events written to the log: the last of them stands last, and all of them are logged. -/
theorem logQueued_last {s : State} {q : List Event} {e : Event} (hq : s.host.queued = q ++ [e]) (hn : s.host.logged ≤ q.length) :
    ((logQueued s).host.log.getLast?.map (·.ev)) = some e ∧ (logQueued s).host.queued = q ++ [e] ∧
      (logQueued s).host.logged = (logQueued s).host.queued.length ∧ (logQueued s).live = s.live := by
  obtain ⟨l, n, hrest⟩ := logQueued_eq s
  refine ⟨?_, by rw [hrest]; exact hq, by rw [hrest], by rw [hrest]⟩
  rw [log_logQueued, hq, List.drop_append_of_le_length hn]
  exact log_foldl_last _ e s

/-! #### The lease given up (R352) -/

/-- From `s` to `u` the unit has told the host and its partner, and nothing else happened but to the pair, where it keeps its role. -/
def PairTold (s u : State) : Prop := u.pair.role = s.pair.role ∧
  ∃ (l : Bank) (o : List Output) (h : HostIf) (q : List Event) (p : PairSt) (r : PrintSt), u = { s with
    live := l, out := o, pair := p, print := r
    host := { s.host with session := h.session, irqSent := h.irqSent, irqDue := h.irqDue, dgSeq := h.dgSeq, setTick := h.setTick,
                          setNow := h.setNow, queued := s.host.queued ++ q } }

theorem PairTold.trans {a b c : State} (h : PairTold a b) (k : PairTold b c) : PairTold a c := by
  obtain ⟨hrole, _, _, _, q, _, _, rfl⟩ := h
  obtain ⟨krole, l, o, h, r, p, x, rfl⟩ := k
  exact ⟨krole.trans hrole, l, o, h, q ++ r, p, x, by simp only [List.append_assoc]⟩

theorem Notice.pairTold {s u : State} (h : Notice s u) : PairTold s u := by
  obtain ⟨l, o, h, rfl⟩ := h
  exact ⟨rfl, l, o, h, [], s.pair, s.print, by rw [List.append_nil]⟩

theorem PeerOnly.pairTold {s u : State} (h : PeerOnly s u) (hrole : u.pair.role = s.pair.role) : PairTold s u := by
  obtain ⟨r, p, o, rfl⟩ := h
  exact ⟨hrole, s.live, o, s.host, [], p, r, by rw [List.append_nil]⟩

theorem EmitsOnly.pairTold {s u : State} (h : EmitsOnly s u) : PairTold s u := by
  obtain ⟨os, rfl⟩ := h
  exact ⟨rfl, s.live, _, s.host, [], s.pair, s.print, by rw [List.append_nil]⟩

theorem pairTold_pair (s : State) {p : PairSt} (hrole : p.role = s.pair.role) : PairTold s { s with pair := p } :=
  PeerOnly.pairTold ⟨s.print, p, s.out, rfl⟩ hrole

theorem pairTold_raise (s : State) (c src a : Nat) : PairTold s (raise s c src a) :=
  ⟨rfl, s.live, s.out, s.host, [⟨now s, c, src, a % 2 ^ 32⟩], s.pair, s.print, rfl⟩

/-- The lease lost: it is not held, whether it was or not. -/
theorem loseLease_told (s : State) (cause : Nat) : PairTold s (loseLease s cause) ∧ (loseLease s cause).pair.lease = false := by
  unfold loseLease
  split
  · rename_i hfree
    exact ⟨(EmitsOnly.refl s).pairTold, by simpa using hfree⟩
  · extract_lets v x w
    have hv : EmitsOnly s v := .foldl _ (.refl s) fun x n hx => .ite (hx.emit _) hx
    clear_value v
    have hw : PairTold v w := (pairTold_pair v (p := { v.pair with lease := false, cut := none }) rfl).trans
      ((EmitsOnly.refl _).emit _).pairTold
    have hbell := notice_doorbell (raise w 0x0B02 (unitNo w) cause) 18
    refine ⟨(hv.pairTold.trans hw).trans ((pairTold_raise w _ _ _).trans hbell.pairTold), ?_⟩
    obtain ⟨_, _, _, hbell⟩ := hbell
    rw [hbell]
    rfl

theorem pair_toPeer (s : State) (p : PeerItem) : (toPeer s p).pair = s.pair := by
  unfold toPeer
  split <;> rfl

theorem pair_countKeyed (s : State) : (countKeyed s).pair = { s.pair with keyedRecs := s.pair.keyedRecs + 1 } := by
  unfold countKeyed
  dsimp only
  split
  · exact pair_toPeer _ _
  · rfl

/-- A record leaves the lease and the role as they are. -/
theorem sendRecord_pair (s : State) (release : Option Nat) (flush : Bool) :
    (sendRecord s release flush).pair.lease = s.pair.lease ∧ (sendRecord s release flush).pair.role = s.pair.role := by
  unfold sendRecord
  extract_lets
  rw [pair_countKeyed, pair_toPeer]
  exact ⟨rfl, rfl⟩

/-- A release: an active unit holds the lease no more, and only the host and the partner were told. -/
theorem releaseLease_told (s : State) (code : Nat) : PairTold s (releaseLease s code) ∧
    (s.pair.role = .active → (releaseLease s code).pair.lease = false) := by
  unfold releaseLease
  split
  · rename_i h
    exact ⟨(EmitsOnly.refl s).pairTold, fun hactive => by simpa [hactive] using h⟩
  · extract_lets _ v
    have hforced : PairTold s (sticky { s with pair := { s.pair with forceStandby := true } } Fld.PAIR_STATUS_RELEASED) :=
      (pairTold_pair s rfl).trans (notice_sticky _ _ _ _).pairTold
    obtain ⟨hlost, hfree⟩ := loseLease_told (sticky { s with pair := { s.pair with forceStandby := true } } Fld.PAIR_STATUS_RELEASED) 3
    obtain ⟨hlease, hrole⟩ := sendRecord_pair v (some code) false
    exact ⟨(hforced.trans hlost).trans ((peerOnly_sendRecord v _ _).pairTold hrole), fun _ => hlease.trans hfree⟩

/-! #### Fatal faults (R608, R609) -/

/-- A fatal fault noted in SYS_FATAL, the persistent log and the ring. -/
def fatalLogged (s : State) (b : Nat) : State :=
  let u := sticky s (fatalField b)
  let v := writeEvent u ⟨now u, 0x0109, 0, b + 1⟩
  if v.host.evHead = u.host.evHead then v else doorbell v 16

theorem fatal_serving {s : State} (h : serving s = true) (b : Nat) : fatal s b =
    if b = 3 ∧ (releaseLease (fatalLogged s b) (b + 1)).pair.role ≠ .solo then orderlyStop (releaseLease (fatalLogged s b) (b + 1)) 7
    else assertReset (releaseLease (fatalLogged s b) (b + 1)) (some 4) none := by
  unfold fatal
  rw [if_neg (by simp [h])]
  rfl

theorem fatalLogged_law (s : State) (b : Nat) : HostOnly s (fatalLogged s b) ∧
    (fatalLogged s b).host.log.getLast? = some ⟨s.host.logNext, ⟨now s, 0x0109, 0, b + 1⟩⟩ := by
  unfold fatalLogged
  extract_lets u v
  have hu : Notice s u := notice_sticky s _ _ _
  have hv : HostOnly u v := hostOnly_writeEvent u _
  have hlast : v.host.log.getLast? = some ⟨s.host.logNext, ⟨now s, 0x0109, 0, b + 1⟩⟩ := by
    have hnow : now u = now s := now_of_hostOnly hu.hostOnly
    have hnext : u.host.logNext = s.host.logNext := by
      obtain ⟨_, _, _, h⟩ := hu
      rw [h]
    refine (congrArg List.getLast? (log_ringEvent _ _)).trans ((log_logEvent_last u _).trans ?_)
    rw [hnow, hnext]
  split
  · exact ⟨hu.hostOnly.trans hv, hlast⟩
  · have hbell := notice_doorbell v 16
    refine ⟨(hu.hostOnly.trans hv).trans hbell.hostOnly, ?_⟩
    obtain ⟨_, _, _, hbell⟩ := hbell
    rw [hbell]
    exact hlast

/-- What a fatal fault leaves once the lease is released: the log as it was written, and the system, the job and the role as before. -/
theorem fatalReleased_law (s : State) (b : Nat) :
    let v := releaseLease (fatalLogged s b) (b + 1)
    v.host.log.getLast? = some ⟨s.host.logNext, ⟨now s, 0x0109, 0, b + 1⟩⟩ ∧ v.sys = s.sys ∧ v.job = s.job ∧
      v.pair.role = s.pair.role ∧ (s.pair.role = .active → v.pair.lease = false) := by
  obtain ⟨hhost, hlast⟩ := fatalLogged_law s b
  have hpair := HostOnly.pair_eq hhost
  obtain ⟨⟨hrole, _, _, _, _, _, _, hrest⟩, hfree⟩ := releaseLease_told (fatalLogged s b) (b + 1)
  have hsys : (fatalLogged s b).sys = s.sys := (congrArg State.sys hhost :)
  have hjob : (fatalLogged s b).job = s.job := (congrArg State.job hhost :)
  generalize fatalLogged s b = f at *
  rw [hpair] at hrole hfree
  refine ⟨?_, ?_, ?_, hrole, hfree⟩
  · rw [hrest]
    exact hlast
  · rw [hrest]
    exact hsys
  · rw [hrest]
    exact hjob

theorem on_of_serving {s : State} (h : serving s = true) : s.sys.st ≠ .off ∧ s.sys.st ≠ .reset := by
  simp only [serving, Bool.and_eq_true, bne_iff_ne] at h
  exact h.1

theorem fatal_resets {s : State} (h : serving s = true) {b : Nat} (hb : b ≠ 3 ∨ s.pair.role = .solo) :
    (fatal s b).sys.st = .reset ∧ (fatal s b).pair.lease = false ∧
      (fatal s b).host.log.getLast? = some ⟨s.host.logNext, ⟨now s, 0x0109, 0, b + 1⟩⟩ := by
  obtain ⟨hlast, hsys, -, hrole, -⟩ := fatalReleased_law s b
  obtain ⟨hoff, hreset⟩ := on_of_serving h
  have hdown : fatal s b = assertReset (releaseLease (fatalLogged s b) (b + 1)) (some 4) none := by
    rw [fatal_serving h, hrole, if_neg (by tauto)]
  rw [hdown]
  generalize releaseLease (fatalLogged s b) (b + 1) = v at *
  obtain ⟨hst, -, -, -, hlog, -, -, -, hlease, -⟩ := assertReset_wentDown (s := v) (by rwa [hsys]) (by rwa [hsys]) (some 4) none
  exact ⟨by rw [hst], hlease, by rw [hlog]; exact hlast⟩

theorem fatal_stops {s : State} (h : serving s = true) (hpair : s.pair.role ≠ .solo) :
    fatal s 3 = orderlyStop (releaseLease (fatalLogged s 3) 4) 7 := by
  obtain ⟨-, -, -, hrole, -⟩ := fatalReleased_law s 3
  rw [fatal_serving h, hrole, if_pos ⟨rfl, hpair⟩]

theorem fatal_idle {s : State} (h : serving s = false) (b : Nat) : fatal s b = s := by
  unfold fatal
  exact if_pos (by rw [h]; rfl)

/-- A rail's fault, logged before it ends as a fatal fault (R595, R608). -/
def railLogged (s : State) (rail : Nat) : State := logQueued (raise (sticky s Fld.PWR_STATUS_RAIL_FAULT) 0x0E07 0 rail)

theorem railLogged_law {s : State} (hb : banksOk s = true) {rail : Nat} (hr : rail < 2 ^ 32) (hn : s.host.logged ≤ s.host.queued.length) :
    stickyOn (railLogged s rail) Fld.PWR_STATUS_RAIL_FAULT = true ∧
      ((railLogged s rail).host.log.getLast?.map (·.ev)) = some ⟨now s, 0x0E07, 0, rail⟩ ∧
      (railLogged s rail).host.queued = s.host.queued ++ [⟨now s, 0x0E07, 0, rail⟩] ∧
      (railLogged s rail).host.logged = (railLogged s rail).host.queued.length := by
  obtain ⟨hon, hqueued, -, -⟩ := reported (live_wf hb) (f := Fld.PWR_STATUS_RAIL_FAULT) (i := 0) (b := 0) (c := 0x0E07) (src := 0)
    (a := rail) (by decide) (by decide) (by decide) (by decide) (Nat.mod_eq_of_lt hr)
  have hlogged : (raise (sticky s Fld.PWR_STATUS_RAIL_FAULT) 0x0E07 0 rail).host.logged = s.host.logged := by
    obtain ⟨_, _, _, h⟩ := notice_sticky s Fld.PWR_STATUS_RAIL_FAULT 0 0
    rw [h]
    rfl
  unfold railLogged
  generalize raise (sticky s Fld.PWR_STATUS_RAIL_FAULT) 0x0E07 0 rail = v at *
  obtain ⟨hlast, hall, hend, hlive⟩ := logQueued_last hqueued (by rw [hlogged]; exact hn)
  refine ⟨?_, hlast, hall, hend⟩
  unfold stickyOn liveFld at hon ⊢
  rw [hlive]
  exact hon

/-- Settles O56: the fault is in the log when the lease is released, and a reset keeps the log. -/
theorem fatalFaults : Obligations.FatalFaults := by
  intro s t hb s0
  have h0 : s0 = begin s t := rfl
  have hb0 : banksOk s0 = true := banks_begin hb t
  clear_value s0
  have hrun (b : Fin 5) : exec (.fatalFault t b) s = .next (fatal s0 b) := by
    subst h0
    rfl
  refine ⟨fun b => ⟨fun hidle => by rw [hrun, fatal_idle hidle], fun hserves hend => ⟨_, hrun b, fatal_resets hserves hend⟩,
    fun hserves hb3 hpair => ?_⟩, fun rail => ⟨fun hidle => ?_, fun hserves hn => ⟨railLogged s0 rail, ?_,
      railLogged_law hb0 (by omega) hn⟩⟩⟩
  · obtain ⟨hlast, hsys, hjob, -, hfree⟩ := fatalReleased_law s0 3
    exact ⟨_, by rw [hrun, hb3, fatal_stops hserves hpair], hlast, hfree, hsys, hjob⟩
  · subst h0
    exact congrArg Host.Outcome.next (if_pos (by rw [hidle]; rfl))
  · subst h0
    exact congrArg Host.Outcome.next (if_neg (by simp [hserves]))

/-! #### The start (R530 to R538) -/

/-- From `s` to `u` the device state is the same. -/
def SameSt (s u : State) : Prop := u.sys.st = s.sys.st

theorem SameSt.refl (s : State) : SameSt s s := rfl

theorem SameSt.trans {a b c : State} (h : SameSt a b) (k : SameSt b c) : SameSt a c := Eq.trans k h

theorem SameSt.ite {s u v : State} {c : Prop} [Decidable c] (hu : SameSt s u) (hv : SameSt s v) : SameSt s (if c then u else v) := by
  split <;> assumption

theorem SameSt.foldl {α : Type} {f : State → α → State} (hf : ∀ x a, SameSt x (f x a)) (l : List α) (s : State) :
    SameSt s (l.foldl f s) := by
  induction l generalizing s with
  | nil => exact .refl s
  | cons a l ih => exact (hf s a).trans (ih _)

theorem Notice.sameSt {s u : State} (h : Notice s u) : SameSt s u := by
  obtain ⟨_, _, _, rfl⟩ := h
  rfl

theorem LogOnly.sameSt {s u : State} (h : LogOnly s u) : SameSt s u := by
  obtain ⟨_, _, _, _, _, rfl⟩ := h
  rfl

theorem setState_st (s : State) (st : SysSt) : (setState s st).sys.st = st := by
  unfold setState
  split
  · assumption
  · exact (notice_doorbell _ 24).sameSt

theorem sameSt_stepFuses (s : State) (info : StartInfo) : SameSt s (stepFuses s info) := by
  unfold stepFuses
  extract_lets u
  have hu : SameSt s u := (logOnly_report s Fld.RST_CAUSE_FUSE_RETRY 0 0 _ _ _).sameSt.ite (.refl s)
  exact hu.ite (hu.trans (notice_setFld u _ _ _ _).sameSt)

theorem sameSt_stepStrap (s : State) (info : StartInfo) : SameSt s (stepStrap s info) := by
  unfold stepStrap
  split
  · exact (logOnly_report s Fld.RST_CAUSE_STRAP_FAULT 0 0 0x0F04 0 0xFF).sameSt
  · extract_lets u v
    have hu : SameSt s u := ((notice_setFld s _ _ _ _).trans (notice_setFld _ _ _ _ _)).sameSt
    exact (SameSt.ite (hu.trans (logOnly_report u _ _ _ _ _ _).sameSt) hu : SameSt s v)

theorem sameSt_blowFuses (s : State) : SameSt s (blowFuses s) := by
  unfold blowFuses
  exact (SameSt.refl s).ite ((notice_setFld s _ _ _ _).logOnly.trans (logOnly_raise _ _ _ _)).sameSt

theorem sameSt_dropTrust (s : State) (x : Nat × Nat) : SameSt s (dropTrust s x) := by
  unfold dropTrust
  split <;> rfl

theorem sameSt_stepMram (s : State) (info : StartInfo) : SameSt s (stepMram s info) := by
  unfold stepMram
  extract_lets u v
  have hu : SameSt s u := .foldl sameSt_dropTrust _ s
  split
  · exact hu
  · exact hu.trans (notice_sticky _ Fld.SET_STATUS_SNAPSHOT_BAD 0 0).sameSt

theorem sameSt_stepFirmware {s u : State} {info : StartInfo} {warm : Bool} (h : stepFirmware s info warm = some u) : SameSt s u := by
  unfold stepFirmware at h
  extract_lets p v run why at h
  have hv : SameSt s v := (logOnly_raise s _ _ _).sameSt.ite (.refl s)
  split at h
  · cases h
    exact hv
  · split at h
    · cases h
      exact hv.trans (logOnly_report (run v (1 - p)) _ _ _ _ _ _).sameSt
    · cases h

/-- A failed start ends in reset, noted for the next one (R535). -/
theorem failStart_law {s : State} (hoff : s.sys.st ≠ .off) (hreset : s.sys.st ≠ .reset) (step : Nat) :
    (failStart s step).sys.st = .reset ∧ (failStart s step).rst.failed = true := by
  unfold failStart
  extract_lets v _ w
  obtain ⟨x, ⟨l, hx⟩, hdown⟩ := assertReset_up (s := w) hoff hreset (some 5) none
  rw [hdown]
  refine ⟨rfl, ?_⟩
  obtain ⟨m, n, hcut⟩ := cutShort_eq x
  obtain ⟨os, hout, -, -⟩ := outputsDown_eq (cutShort x)
  obtain ⟨tr, ld, sl, hdrop⟩ := dropLoad_eq (outputsDown (cutShort x))
  unfold heldUntil inReset
  rw [hdrop, hout, hcut, hx]
  rfl

/-- A start that enters recovery mode ends in it, with its events in the log alone (R536, R537). -/
theorem enterRecovery_law (s : State) (info : StartInfo) (warm : Bool) (cause : Nat) :
    (enterRecovery s info warm cause).sys.st = .recovery ∧ (enterRecovery s info warm cause).host.queued = [] := by
  unfold enterRecovery
  extract_lets a b c d e f g
  refine ⟨?_, rfl⟩
  have hstate : (setState e .recovery).sys.st = .recovery := setState_st e .recovery
  have hnoted : SameSt (effective (setState e .recovery)) f := (logOnly_noteCertified _).sameSt
  have hlogged : g.sys = f.sys := by
    obtain ⟨_, _, hlog⟩ := logQueued_eq f
    rw [show g = _ from hlog]
  have hst : f.sys.st = .recovery := Eq.trans hnoted hstate
  exact (congrArg (·.st) hlogged).trans hst

theorem reachReady_st (s : State) : (reachReady s).sys.st = .ready := by
  have hend (x : State) : (emit (noteCertified (setState x .ready)) (.pin "READY" true)).sys.st = .ready := by
    have hnoted : (noteCertified (setState x .ready)).sys.st = (setState x .ready).sys.st := (logOnly_noteCertified _).sameSt
    exact hnoted.trans (setState_st x .ready)
  exact hend _

/-- Steps 4 to 10 end in READY, in RECOVERY or in the reset of a failed start. -/
theorem stepsOn_ends {s : State} (hboot : s.sys.st = .boot) (info : StartInfo) (warm : Bool) :
    (stepsOn s info warm).sys.st = .ready ∨ (stepsOn s info warm).sys.st = .recovery ∨ (stepsOn s info warm).sys.st = .reset := by
  have hfails {v : State} (hv : SameSt s v) (step : Nat) : (failStart v step).sys.st = .reset :=
    (failStart_law (s := v) (by rw [hv, hboot]; decide) (by rw [hv, hboot]; decide) step).1
  unfold stepsOn
  extract_lets n u
  have hu : SameSt s u := (notice_setFld s _ _ _ _).sameSt.trans (sameSt_blowFuses _)
  split
  · exact .inr (.inr (hfails hu 4))
  · split
    · exact .inr (.inl (enterRecovery_law _ info warm 4).1)
    · rename_i v hv
      split
      · exact .inr (.inr (hfails ((hu.trans (sameSt_stepFirmware hv)).trans (sameSt_stepMram v info)) 7))
      · exact .inl (reachReady_st _)

theorem execStart_boot {s s0 : State} {t : Nat} (h0 : s0 = begin s t) (hboot : s0.sys.st = .boot) (info : StartInfo) :
    exec (.start t info) s = .next (if info.clock = false then failStart s0 2
      else
        let u := stepStrap (stepFuses s0 info) info
        let warm := startsWarm u info
        let v := if warm then u else clearLineCounters u
        if recoveryCause u info = 0 then stepsOn v info warm else enterRecovery v info warm (recoveryCause u info)) := by
  subst h0
  refine congrArg Host.Outcome.next ((if_neg (fun h => h hboot)).trans ?_)
  cases info.clock <;> rfl

/-- What puts a start into recovery mode in its steps 2 and 3 (R523, R526, R536). -/
theorem recoveryCause_pos {s : State} {info : StartInfo} (h : 3 ≤ info.fuseFails ∨ strapOf info.strap = none ∨
    liveFld s Fld.RST_START_FAILS_FAILED_START_LIMIT ≤ liveFld s Fld.RST_START_FAILS_START_FAILS ∨
    ∃ c, strapOf info.strap = some c ∧ c.testBit 3 = true) : recoveryCause s info ≠ 0 := by
  unfold recoveryCause
  split
  · decide
  · rename_i hfuses
    split
    · decide
    · rename_i c hc
      split
      · decide
      · rename_i hlimit
        obtain h | h | h | ⟨d, hd, hbit⟩ := h
        · exact absurd h hfuses
        · rw [hc] at h
          cases h
        · exact absurd h hlimit
        · obtain rfl : d = c := Option.some.inj (hd.symm.trans hc)
          rw [if_pos hbit]
          decide

/-- Settles O55: every path of a start ends in one of three states, by the laws of a failed start, of recovery mode and of READY. -/
theorem starts : Obligations.Starts := by
  intro s t info s0 s1
  have h0 : s0 = begin s t := rfl
  have h1 : s1 = stepStrap (stepFuses s0 info) info := rfl
  clear_value s1 s0
  refine ⟨fun hno => ?_, fun hboot => ?_⟩
  · subst h0
    exact ⟨congrArg Host.Outcome.next (if_pos hno), congrArg Host.Outcome.next (if_pos (.inl hno))⟩
  · have hoff : s0.sys.st ≠ .off := by rw [hboot]; decide
    have hreset : s0.sys.st ≠ .reset := by rw [hboot]; decide
    have hstrap : SameSt s0 s1 := by
      rw [h1]
      exact (sameSt_stepFuses s0 info).trans (sameSt_stepStrap _ info)
    rw [execStart_boot h0 hboot info, ← h1]
    refine ⟨fun hclock => ⟨_, by rw [if_pos hclock], failStart_law hoff hreset 2⟩, fun hclock hcause => ?_, ?_, fun hsoon => ?_, fun hlate => ?_⟩
    · rw [if_neg (by simp [hclock])]
      dsimp only
      rw [if_neg (recoveryCause_pos hcause)]
      exact ⟨_, rfl, enterRecovery_law _ info _ _⟩
    · refine ⟨_, rfl, ?_⟩
      split
      · exact .inr (.inr (failStart_law hoff hreset 2).1)
      · dsimp only
        split
        · have hcleared : SameSt s1 (clearLineCounters s1) := rfl
          refine stepsOn_ends (Eq.trans ?_ hboot) info _
          exact hstrap.trans ((SameSt.refl s1).ite hcleared)
        · exact .inr (.inl (enterRecovery_law _ info _ _).1)
    · subst h0
      exact congrArg Host.Outcome.next (if_pos (.inr hsoon))
    · have hsame : SameSt s0 (cutShort s0) := by
        obtain ⟨l, n, hcut⟩ := cutShort_eq s0
        rw [hcut]
        rfl
      refine ⟨failStart (cutShort s0) (liveFld (cutShort s0) Fld.RST_START_FAILS_LAST_FAIL_STEP), ?_,
        failStart_law (by rwa [hsame]) (by rwa [hsame]) _⟩
      subst h0
      exact congrArg Host.Outcome.next (if_neg (not_or.mpr ⟨not_not.mpr hboot, Nat.not_lt.mpr hlate⟩))

end Sys2Proof.Laws

/-! ### Temperature (16_thermal_and_calibration) -/

namespace Sys2Proof.Laws

open Sys2Proof Sys2Proof.Machine

/-! #### The hardware trip (R552) -/

theorem tripOutputs_law (s : State) : (tripOutputs s).thm.tripped = true ∧ (tripOutputs s).pair.lease = false ∧
    (tripOutputs s).pair.hbRun = false ∧ (tripOutputs s).pair.hbOut = false ∧ (tripOutputs s).pair.forceStandby = true := by
  unfold tripOutputs
  extract_lets a _ b c
  have hb : b.pair.lease = false := by
    unfold b
    clear_value a
    split
    · exact congrArg PairSt.lease (HostOnly.pair_eq (hostOnly_doorbell _ 18))
    · rename_i hfree
      simpa using hfree
  have hc : c.pair.lease = false := by
    unfold c
    clear_value b
    split
    · exact hb
    · exact hb
  exact ⟨rfl, hc, rfl, rfl, rfl⟩

/-- A trip that the firmware has to report. -/
def tripNoted (s : State) (k : Nat) (temp : Int) : State :=
  { tripOutputs s with thm := { (tripOutputs s).thm with tripNote := some (k, temp) } }

theorem execThermalTrip_trips {s s0 : State} {t : Nat} (h0 : s0 = begin s t) {k : Fin 16} {temp : Int} (hopen : barOpen s0 = true)
    (hw : watched k = true) (hin : (sensor s0 k).excluded = false) (hot : 984 ≤ temp) (hnew : s0.thm.tripped = false) :
    exec (.thermalTrip t k temp) s = .next (reportTrip (tripNoted s0 k temp)) := by
  subst h0
  have hgo : ¬ (!barOpen (begin s t) || !watched k || (sensor (begin s t) k).excluded || decide (temp < 984) || (begin s t).thm.tripped) = true := by
    simp [hopen, hw, hin, hnew, Int.not_lt.mpr hot]
  exact congrArg Host.Outcome.next (if_neg hgo)

theorem execThermalTrip_stays {s s0 : State} {t : Nat} (h0 : s0 = begin s t) {k : Fin 16} {temp : Int}
    (h : watched k = false ∨ (sensor s0 k).excluded = true ∨ temp < 984 ∨ s0.thm.tripped = true) :
    exec (.thermalTrip t k temp) s = .next s0 := by
  subst h0
  refine congrArg Host.Outcome.next (if_pos ?_)
  rcases h with h | h | h | h <;> simp [h]

theorem reportTrip_stays {w : State} (h : serving w = false ∨ w.thm.tripNote = none) : reportTrip w = w := by
  unfold reportTrip
  split
  · rename_i k temp hnote
    refine if_neg fun hserves => ?_
    rcases h with h | h
    · rw [h] at hserves
      cases hserves
    · rw [h] at hnote
      cases hnote
  · rfl

/-- A trip reported with its bit and its event. -/
def tripTold (w : State) (k : Nat) (temp : Int) : State :=
  raise (sticky { w with thm := { w.thm with tripNote := none } } Fld.THM_STATUS_TRIPPED) 0x0D04 k (unsignedOf 32 temp)

theorem reportTrip_serving {w : State} {k : Nat} {temp : Int} (hserves : serving w = true) (hnote : w.thm.tripNote = some (k, temp)) :
    reportTrip w = tripEnd (tripTold w k temp) := by
  unfold reportTrip
  rw [hnote]
  exact if_pos hserves

theorem unsignedOf_lt (w : Nat) (x : Int) : unsignedOf w x < 2 ^ w := by
  have hpos : (0 : Int) < (2 ^ w : Nat) := by positivity
  have hlt := Int.emod_lt_of_pos x hpos
  unfold unsignedOf
  omega

theorem tripTold_reported {w : State} (hb : banksOk w = true) (k : Nat) (temp : Int) :
    Reported { w with thm := { w.thm with tripNote := none } } (tripTold w k temp) Fld.THM_STATUS_TRIPPED 0 0
      ⟨now w, 0x0D04, k, unsignedOf 32 temp⟩ := by
  have hb' : banksOk { w with thm := { w.thm with tripNote := none } } = true := hb
  exact reported (live_wf hb') (by decide) (by decide) (by decide) (by decide) (Nat.mod_eq_of_lt (unsignedOf_lt 32 temp))

/-! #### The throttle level (R548) -/

/-- A sticky bit set leaves the fields above it in its register as they were. -/
theorem liveFld_sticky_above {s : State} (h : banksOk s = true) {f g : Field} (hr : g.reg = f.reg) (habove : f.lo + f.width ≤ g.lo)
    (hd : g.reg.ctorIdx ≠ Reg.DB_D2H_STATUS.ctorIdx) (hs : g.reg.ctorIdx ≠ Reg.FAULT_SUMMARY.ctorIdx) {i : Nat} (hi : i < 8192) :
    liveFld (sticky s f i) g i = liveFld s g i := by
  unfold sticky
  extract_lets u v w
  have hbu : banksOk u = true := h
  have hw : liveFld w g i = liveFld s g i := liveFld_setFld_above hbu hr habove i _
  split
  · rfl
  · split
    · exact hw
    · refine (liveFld_of_kept (regsKept_setSummary (live_wf (banks_setFld hbu _ _ _ _)) _) g i 0 ?_).trans hw
      simp [regKey_ne hi (by decide : 0 < 8192) hd, regKey_ne hi (by decide : 0 < 8192) hs]

/-- The level written, with THROTTLED where it is above 0. -/
def levelShown (s : State) (k : Nat) : State :=
  if 0 < k then sticky (setFld s Fld.THM_STATUS_LEVEL 0 k) Fld.THM_STATUS_THROTTLED else setFld s Fld.THM_STATUS_LEVEL 0 k

/-- The new level reported (R548). -/
def levelTold (s : State) (k : Nat) : State :=
  raise { levelShown s k with thm := { (levelShown s k).thm with below := 0 } } 0x0D02 0 (k + 256 * unsignedOf 8 ((hottest s).1 / 8))

theorem notice_levelShown (s : State) (k : Nat) : Notice s (levelShown s k) := by
  unfold levelShown
  exact ((notice_setFld s _ _ _ _).trans (notice_sticky _ _ _ _)).ite (notice_setFld s _ _ _ _)

theorem setLevel_eq (s : State) (k : Nat) : setLevel s k =
    if k = 0 ∧ s.link.scanDue = true then startEye (levelTold s k) else levelTold s k := by
  obtain ⟨l, o, h, hshown⟩ := notice_levelShown s k
  have hdue : (levelTold s k).link.scanDue = s.link.scanDue := by
    unfold levelTold
    rw [hshown]
    rfl
  rw [← hdue]
  unfold levelTold
  have hhot : hottest s = hottest { levelShown s k with thm := { (levelShown s k).thm with below := 0 } } := by
    rw [hshown]
    rfl
  rw [hhot]
  rfl

theorem levelTold_law {s : State} (hb : banksOk s = true) {k : Nat} (hk : k < 8) :
    throttle (levelTold s k) = k ∧ (levelTold s k).thm = { s.thm with below := 0 } ∧
      (levelTold s k).host.queued = s.host.queued ++ [⟨now s, 0x0D02, 0, k + 256 * unsignedOf 8 ((hottest s).1 / 8)⟩] ∧
      regsKeptBut s (levelTold s k) [regKey .THM_STATUS 0 0] := by
  have hset : liveFld (setFld s Fld.THM_STATUS_LEVEL 0 k) Fld.THM_STATUS_LEVEL = k :=
    (liveFld_setFld hb Fld.THM_STATUS_LEVEL 0 k 0).trans (Nat.mod_eq_of_lt hk)
  have hbset := banks_setFld hb Fld.THM_STATUS_LEVEL 0 k 0
  have hkept : regsKeptBut s (setFld s Fld.THM_STATUS_LEVEL 0 k) [regKey .THM_STATUS 0 0] :=
    regsKept_mono (regsKept_setFld (live_wf hb) Fld.THM_STATUS_LEVEL 0 k 0) (by simp [Fld.THM_STATUS_LEVEL])
  have hshown : liveFld (levelShown s k) Fld.THM_STATUS_LEVEL = k ∧ regsKeptBut s (levelShown s k) [regKey .THM_STATUS 0 0] := by
    unfold levelShown
    split
    · exact ⟨(liveFld_sticky_above hbset (f := Fld.THM_STATUS_THROTTLED) (g := Fld.THM_STATUS_LEVEL) rfl (by decide) (by decide)
        (by decide) (by decide)).trans hset, regsKept_trans hkept (regsKept_sticky (live_wf hbset) Fld.THM_STATUS_THROTTLED 0 0)⟩
    · exact ⟨hset, hkept⟩
  obtain ⟨hlevel, hregs⟩ := hshown
  obtain ⟨l, o, h, hnotice⟩ := notice_levelShown s k
  have harg : (k + 256 * unsignedOf 8 ((hottest s).1 / 8)) % 2 ^ 32 = k + 256 * unsignedOf 8 ((hottest s).1 / 8) := by
    have := unsignedOf_lt 8 ((hottest s).1 / 8)
    exact Nat.mod_eq_of_lt (by omega)
  refine ⟨hlevel, ?_, ?_, hregs⟩
  · unfold levelTold
    rw [hnotice]
    rfl
  · unfold levelTold
    rw [hnotice]
    show s.host.queued ++ [⟨now s, 0x0D02, 0, (k + 256 * unsignedOf 8 ((hottest s).1 / 8)) % 2 ^ 32⟩] = _
    rw [harg]

theorem execThrottleFall_falls {s s0 : State} {t : Nat} (h0 : s0 = begin s t) (hlevel : throttle s0 ≠ 0)
    (hlong : fld s0 Fld.THM_HOLD_THROTTLE_HOLD ≤ s0.thm.below) (hin : ∀ y ∈ s0.thm.sensors, y.excluded = false) :
    exec (.throttleFall t) s = .next (setLevel s0 (throttle s0 - 1)) := by
  subst h0
  have hany : (begin s t).thm.sensors.any (·.excluded) = false := by simpa using hin
  exact congrArg Host.Outcome.next (if_neg (by simp [hlevel, hany]; omega))

theorem execThrottleFall_stays {s s0 : State} {t : Nat} (h0 : s0 = begin s t) (h : throttle s0 = 0 ∨
    s0.thm.below < fld s0 Fld.THM_HOLD_THROTTLE_HOLD ∨ ∃ y ∈ s0.thm.sensors, y.excluded = true) :
    exec (.throttleFall t) s = .next s0 := by
  subst h0
  exact congrArg Host.Outcome.next (if_pos (h.imp_right (.imp_right List.any_eq_true.mpr)))

/-! #### Sensors and their re-admission (R546, R547) -/

theorem sensor_setSensor {s : State} {k : Nat} (h : k < s.thm.sensors.length) (f : Sensor → Sensor) :
    sensor (setSensor s k f) k = f (sensor s k) := nth_upd h f {}

theorem sensor_setSensor_ne (s : State) {k j : Nat} (h : j ≠ k) (f : Sensor → Sensor) : sensor (setSensor s k f) j = sensor s j :=
  nth_upd_ne h f {}

theorem length_setSensor (s : State) (k : Nat) (f : Sensor → Sensor) : (setSensor s k f).thm.sensors.length = s.thm.sensors.length :=
  List.length_modify _ _ _

/-- The sensors of a list that a test names, changed. -/
def sensorsChanged (s : State) (c : Nat → Bool) (f : Sensor → Sensor) (l : List Nat) : State :=
  l.foldl (fun s k => if c k then setSensor s k f else s) s

theorem sensorsChanged_law (c : Nat → Bool) (f : Sensor → Sensor) (l : List Nat) (hl : l.Nodup) (s : State) :
    (∃ xs, sensorsChanged s c f l = { s with thm := { s.thm with sensors := xs } }) ∧
    ∀ k, k < s.thm.sensors.length →
      sensor (sensorsChanged s c f l) k = if k ∈ l ∧ c k = true then f (sensor s k) else sensor s k := by
  induction l generalizing s with
  | nil => exact ⟨⟨s.thm.sensors, rfl⟩, fun k _ => by simp [sensorsChanged]⟩
  | cons j l ih =>
    obtain ⟨hj, hl⟩ := List.nodup_cons.mp hl
    obtain ⟨⟨xs, hrest⟩, hsensor⟩ := ih hl (if c j then setSensor s j f else s)
    have hfold : sensorsChanged s c f (j :: l) = sensorsChanged (if c j then setSensor s j f else s) c f l := rfl
    rw [hfold]
    have hstep : ∃ ys, (if c j then setSensor s j f else s) = { s with thm := { s.thm with sensors := ys } } := by
      split
      · exact ⟨_, rfl⟩
      · exact ⟨s.thm.sensors, rfl⟩
    obtain ⟨ys, hstep⟩ := hstep
    refine ⟨⟨xs, by rw [hrest, hstep]⟩, fun k hk => ?_⟩
    have hlen : (if c j then setSensor s j f else s).thm.sensors.length = s.thm.sensors.length := by
      split
      · exact length_setSensor s j f
      · rfl
    rw [hsensor k (by rw [hlen]; exact hk)]
    by_cases hkj : k = j
    · subst hkj
      by_cases hc : c k = true
      · simp [hj, hc, sensor_setSensor hk]
      · simp [hj, hc]
    · have hsame : sensor (if c j then setSensor s j f else s) k = sensor s k := by
        split
        · exact sensor_setSensor_ne s hkj f
        · rfl
      rw [hsame]
      simp [hkj]

/-- Bits of THM_SENSOR_FAIL cleared: the bits left, and the sensors whose re-admission begins. -/
theorem clearSensorFail_law {s : State} (hb : banksOk s = true) (hlen : 16 ≤ s.thm.sensors.length) (bits : Nat) :
    let u := clearSensorFail s bits
    liveFld u Fld.THM_SENSOR_FAIL_SENSOR_FAIL_BITS = (liveFld s Fld.THM_SENSOR_FAIL_SENSOR_FAIL_BITS -
        (liveFld s Fld.THM_SENSOR_FAIL_SENSOR_FAIL_BITS &&& bits)) ∧
      (∀ k, k < 16 → sensor u k = if bits.testBit k && (liveFld s Fld.THM_SENSOR_FAIL_SENSOR_FAIL_BITS).testBit k then
        { sensor s k with passed := some 0 } else sensor s k) ∧
      regsKept s u [regKey .THM_SENSOR_FAIL 0 0] ∧ { u with live := s.live, thm := { u.thm with sensors := s.thm.sensors } } = s := by
  intro u
  have hu : u = sensorsChanged (setFld s Fld.THM_SENSOR_FAIL_SENSOR_FAIL_BITS 0 (liveFld s Fld.THM_SENSOR_FAIL_SENSOR_FAIL_BITS -
      (liveFld s Fld.THM_SENSOR_FAIL_SENSOR_FAIL_BITS &&& bits)))
    (fun k => bits.testBit k && (liveFld s Fld.THM_SENSOR_FAIL_SENSOR_FAIL_BITS).testBit k) (fun y => { y with passed := some 0 })
    (List.range 16) := rfl
  have hfit : liveFld s Fld.THM_SENSOR_FAIL_SENSOR_FAIL_BITS < 2 ^ 16 := liveFld_lt s Fld.THM_SENSOR_FAIL_SENSOR_FAIL_BITS 0 0
  clear_value u
  generalize liveFld s Fld.THM_SENSOR_FAIL_SENSOR_FAIL_BITS = v at *
  have hset := liveFld_setFld hb Fld.THM_SENSOR_FAIL_SENSOR_FAIL_BITS 0 (v - (v &&& bits)) 0
  have hkept := regsKept_setFld (live_wf hb) Fld.THM_SENSOR_FAIL_SENSOR_FAIL_BITS 0 (v - (v &&& bits)) 0
  obtain ⟨⟨xs, hrest⟩, hsensor⟩ := sensorsChanged_law (fun k => bits.testBit k && v.testBit k) (fun y => { y with passed := some 0 })
    (List.range 16) List.nodup_range (setFld s Fld.THM_SENSOR_FAIL_SENSOR_FAIL_BITS 0 (v - (v &&& bits)))
  rw [← hu] at hrest hsensor
  refine ⟨?_, fun k hk => ?_, ?_, ?_⟩
  · rw [hrest]
    exact hset.trans (Nat.mod_eq_of_lt (Nat.lt_of_le_of_lt (Nat.sub_le _ _) hfit))
  · have := hsensor k (Nat.lt_of_lt_of_le hk hlen)
    rw [this]
    simp only [List.mem_range, hk, true_and]
    rfl
  · rw [hrest]
    exact hkept
  · rw [hrest]
    rfl

/-- A sensor re-admitted, with its event (R547). -/
def readmitted (s : State) (k : Nat) : State :=
  raise (setSensor s k fun y => { y with excluded := false, passed := none }) 0x0D05 k (unsignedOf 32 (sensor s k).reading)

theorem execSensorReadmitted_eq {s s0 : State} {t : Nat} (h0 : s0 = begin s t) {k : Fin 16} {n : Nat} (hn : (sensor s0 k).passed = some n) :
    exec (.sensorReadmitted t k) s = .next (if !(sensor s0 k).excluded ∨ n < 64 ∨
      (liveFld s0 Fld.THM_SENSOR_FAIL_SENSOR_FAIL_BITS).testBit k then s0 else noteMax (settleValues (readmitted s0 k))) := by
  subst h0
  have hmatch : exec (.sensorReadmitted t k) s = .next (match (sensor (begin s t) k).passed with
    | some n => if !(sensor (begin s t) k).excluded ∨ n < 64 ∨
        (liveFld (begin s t) Fld.THM_SENSOR_FAIL_SENSOR_FAIL_BITS).testBit k then begin s t
      else noteMax (settleValues (readmitted (begin s t) k))
    | none => begin s t) := rfl
  rw [hmatch, hn]

theorem execSensorFailWrite_acts {s s0 e : State} {t tag bits : Nat} {ch : Fin 6} (h0 : s0 = begin s t)
    (h : acts s0 ch 1 2 tag true true = true) (he : e = entered s0 ch 1 2 tag) : exec (.sensorFailWrite t ch tag bits) s =
      .next (answer (clearSensorFail e (spared e (regKey .THM_SENSOR_FAIL 0 0) (2 ^ 16 - 1) (bits % 2 ^ 16))) ch tag true okMsg) := by
  subst h0 he
  exact congrArg Host.Outcome.next (message_answers h rfl rfl)

/-- Settles O59: the trip, the fall of a level, the write of THM_SENSOR_FAIL and the re-admission each by the law of its operation. -/
theorem temperature : Obligations.Temperature := by
  intro s t hb s0
  have h0 : s0 = begin s t := rfl
  have hb0 : banksOk s0 = true := banks_begin hb t
  clear_value s0
  refine ⟨fun k temp => ⟨fun hopen hw hin hot hnew => ?trip, execThermalTrip_stays h0⟩, fun w => reportTrip_stays,
    fun w k temp hbw hserves hnote => ⟨tripTold w k temp, reportTrip_serving hserves hnote, tripTold_reported hbw k temp⟩,
    fun hlevel hlong hin => ?fall, execThrottleFall_stays h0, fun ch tag bits e hacts he hlen => ?write,
    fun k n hn hk => ?readmission⟩
  case trip =>
    obtain ⟨htripped, hlease, hrun, hout, hforced⟩ := tripOutputs_law s0
    exact ⟨tripNoted s0 k temp, execThermalTrip_trips h0 hopen hw hin hot hnew, rfl, htripped, hlease, hrun, hout, hforced⟩
  case fall =>
    have hfits : throttle s0 < 8 := liveFld_lt s0 Fld.THM_STATUS_LEVEL 0 0
    refine ⟨levelTold s0 (throttle s0 - 1), ?_, levelTold_law hb0 (by omega)⟩
    rw [execThrottleFall_falls h0 hlevel hlong hin, setLevel_eq]
    have hone : throttle s0 - 1 = 0 ↔ throttle s0 = 1 := by omega
    simp only [hone]
  case write =>
    have hbe : banksOk e = true := by rw [he]; exact banks_entered hb0 _ _ _ _
    have hspared (b : Nat) : (spared e (regKey .THM_SENSOR_FAIL 0 0) (2 ^ 16 - 1) (bits % 2 ^ 16)).testBit b =
        ((bits % 2 ^ 16).testBit b && !noted e (regKey .THM_SENSOR_FAIL 0 0) b) := testBit_spared e _ 16 bits b
    obtain ⟨hbits, hsensors, hregs, hrest⟩ :=
      clearSensorFail_law hbe hlen (spared e (regKey .THM_SENSOR_FAIL 0 0) (2 ^ 16 - 1) (bits % 2 ^ 16))
    refine ⟨_, execSensorFailWrite_acts h0 hacts he, fun b hbit => ?_, fun k hk => ?_, hregs, hrest⟩
    · rw [hbits, testBit_sub_and, hspared, Nat.testBit_mod_two_pow]
      simp [hbit]
    · rw [hsensors k hk, hspared, Nat.testBit_mod_two_pow]
      simp [hk, and_assoc]
  case readmission =>
    intro clear
    rw [execSensorReadmitted_eq h0 hn]
    refine ⟨fun hex hlong hclear => ⟨readmitted s0 k, ?_, sensor_setSensor hk _, fun j hj => sensor_setSensor_ne s0 hj _, ?_⟩, fun hno => ?_⟩
    · rw [if_neg]
      simp only [hex, Bool.not_true, Bool.false_eq_true, false_or, not_or]
      exact ⟨Nat.not_lt.mpr hlong, by rw [hclear]; decide⟩
    · show s0.host.queued ++ [⟨now s0, 0x0D05, k, unsignedOf 32 (sensor s0 k).reading % 2 ^ 32⟩] = _
      rw [Nat.mod_eq_of_lt (unsignedOf_lt 32 _)]
    · rw [if_pos]
      refine hno.imp (fun h => by rw [h]; rfl) (.imp_right fun h => ?_)
      exact Bool.eq_true_of_not_eq_false h

end Sys2Proof.Laws

/-! ### The messages on the module as a whole (12_commands_and_sets R414, R429, R441 to R443) -/

namespace Sys2Proof.Laws

open Sys2Proof Sys2Proof.Machine

/-- A port's configuration put in the place of the one before: it is what the port reads, and the other ports' are as before. -/
theorem find?_replaced {β : Type} (l : List (Nat × β)) (port : Nat) (x : β) :
    (l.filter (·.1 != port) ++ [(port, x)]).find? (·.1 == port) = some (port, x) ∧
      ∀ p, p ≠ port → (l.filter (·.1 != port) ++ [(port, x)]).find? (·.1 == p) = l.find? (·.1 == p) := by
  refine ⟨?_, fun p hp => ?_⟩
  · have hnone : (l.filter (·.1 != port)).find? (·.1 == port) = none := by
      rw [List.find?_eq_none]
      intro y hy
      simpa using (List.mem_filter.mp hy).2
    simp [List.find?_append, hnone]
  · have hkept : (l.filter (·.1 != port)).find? (·.1 == p) = l.find? (·.1 == p) := by
      rw [List.find?_filter]
      congr 1
      funext y
      by_cases hy : y.1 = p
      · simp [hy, hp]
      · simp [hy]
    simp [List.find?_append, hkept, hp.symm]

/-! #### DIAG.RESTART (R442) -/

/-- The unit with a restart that waits for the release of its reply. -/
def restartSet (e : State) (warm : Bool) (k tag : Nat) : State :=
  let v := if e.sys.st == .recovery then setFld e Fld.RST_START_FAILS_START_FAILS 0 0 else e
  { setFld v Fld.RST_CAUSE_WARM_OK 0 (bit (warm && !(e.sys.st == .recovery))) with
    rst := { e.rst with restart := some (k, tag, now e), armedAt := none } }

theorem actRestart_set {e : State} (hjob : jobOn e = false) (warm : Bool) (k tag : Nat) :
    actRestart warm k tag e = (restartSet e warm k tag, okMsg) := by
  unfold actRestart restartSet
  rw [hjob, if_neg Bool.false_ne_true]
  cases e.sys.st == .recovery <;> rfl

theorem restartSet_law {e : State} (hb : banksOk e = true) (warm : Bool) (k tag : Nat) :
    liveFld (restartSet e warm k tag) Fld.RST_CAUSE_WARM_OK = bit (warm && !(e.sys.st == .recovery)) ∧
      (e.sys.st = .recovery → liveFld (restartSet e warm k tag) Fld.RST_START_FAILS_START_FAILS = 0) ∧
      { restartSet e warm k tag with live := e.live, rst := e.rst } = e := by
  have hone (b : Bool) : bit b % 2 ^ 1 = bit b := by cases b <;> rfl
  by_cases hrec : e.sys.st = .recovery
  · have hset := banks_setFld hb Fld.RST_START_FAILS_START_FAILS 0 0 0
    have heq : restartSet e warm k tag = { setFld (setFld e Fld.RST_START_FAILS_START_FAILS 0 0) Fld.RST_CAUSE_WARM_OK 0
        (bit (warm && !(e.sys.st == .recovery))) with rst := { e.rst with restart := some (k, tag, now e), armedAt := none } } := by
      unfold restartSet
      rw [if_pos (beq_iff_eq.mpr hrec)]
    rw [heq]
    refine ⟨(liveFld_setFld hset Fld.RST_CAUSE_WARM_OK 0 _ 0).trans (hone _), fun _ => ?_, rfl⟩
    exact (liveFld_setFld_ne hset (f := Fld.RST_CAUSE_WARM_OK) (g := Fld.RST_START_FAILS_START_FAILS) (by decide) (by decide) (by decide) _).trans
      (liveFld_setFld hb Fld.RST_START_FAILS_START_FAILS 0 0 0)
  · have heq : restartSet e warm k tag = { setFld e Fld.RST_CAUSE_WARM_OK 0 (bit (warm && !(e.sys.st == .recovery))) with
        rst := { e.rst with restart := some (k, tag, now e), armedAt := none } } := by
      unfold restartSet
      rw [if_neg (fun h => hrec (beq_iff_eq.mp h))]
    rw [heq]
    exact ⟨(liveFld_setFld hb Fld.RST_CAUSE_WARM_OK 0 _ 0).trans (hone _), fun h => absurd h hrec, rfl⟩

theorem execDiagRestart_done {s s0 e : State} {t tag : Nat} {ch : Fin 6} (h0 : s0 = begin s t) (h : acts s0 ch 10 0x13 tag true true = true)
    (he : e = entered s0 ch 10 0x13 tag) (hjob : jobOn e = false) :
    exec (.diagRestartWarm t ch tag) s = .next (answer (restartSet e true ch tag) ch tag true okMsg) ∧
      exec (.diagRestartCold t ch tag) s = .next (answer (restartSet e false ch tag) ch tag true okMsg) := by
  subst h0 he
  exact ⟨congrArg Host.Outcome.next (message_answers h (actRestart_set hjob true ch tag) rfl),
    congrArg Host.Outcome.next (message_answers h (actRestart_set hjob false ch tag) rfl)⟩

theorem execDiagRestart_refused {s s0 e : State} {t tag : Nat} {ch : Fin 6} (h0 : s0 = begin s t)
    (h : acts s0 ch 10 0x13 tag true true = true) (he : e = entered s0 ch 10 0x13 tag) (hjob : jobOn e = true) :
    exec (.diagRestartWarm t ch tag) s = .next (answer e ch tag true (failMsg 5)) ∧
      exec (.diagRestartCold t ch tag) s = .next (answer e ch tag true (failMsg 5)) := by
  subst h0 he
  exact ⟨congrArg Host.Outcome.next (message_answers h (if_pos hjob) rfl), congrArg Host.Outcome.next (message_answers h (if_pos hjob) rfl)⟩

/-- Settles O50: each message in execution is its action's answer, and the action is taken as its definition has it. -/
theorem systemMessages : Obligations.SystemMessages := by
  intro s t ch tag hb s0
  have h0 : s0 = begin s t := rfl
  have hb0 : banksOk s0 = true := banks_begin hb t
  clear_value s0
  refine ⟨fun e h he => ?info, fun e h he => ?state, fun port mode address netmask gateway e h he => ⟨fun hbad => ?netBad,
    fun hport hmode => ?net⟩, fun slice pass e h he => ?selftest, fun e h he => ⟨execDiagRestart_refused h0 h he, fun hjob => ?restart⟩,
    fun e h he => ?logInfo, fun seq count e h he => ⟨fun hbad => ?logBad, fun hpos hn hs => ?logRead⟩,
    fun pairs e h he => ⟨fun hlong => ?filterBad, fun hshort => ?filter⟩⟩
  case info =>
    subst h0 he
    exact congrArg Host.Outcome.next (message_answers h rfl rfl)
  case state =>
    subst h0 he
    exact congrArg Host.Outcome.next (message_answers h rfl rfl)
  case netBad =>
    subst h0 he
    exact congrArg Host.Outcome.next (message_answers h (if_pos hbad) rfl)
  case net =>
    obtain ⟨hthis, hother⟩ := find?_replaced e.host.netConfig port [mode, address, netmask, gateway]
    refine ⟨{ e with host := { e.host with
      netConfig := e.host.netConfig.filter (·.1 != port) ++ [(port, [mode, address, netmask, gateway])] } }, ?_, hthis, hother, rfl⟩
    subst h0 he
    exact congrArg Host.Outcome.next (message_answers h (if_neg (by omega)) rfl)
  case selftest =>
    subst h0 he
    exact congrArg Host.Outcome.next (message_answers h rfl rfl)
  case restart =>
    have hbe : banksOk e = true := by rw [he]; exact banks_entered hb0 _ _ _ _
    obtain ⟨hwarm, hcold⟩ := execDiagRestart_done h0 h he hjob
    obtain ⟨huOk, huFails, hu⟩ := restartSet_law hbe true ch tag
    obtain ⟨hvOk, -, hv⟩ := restartSet_law hbe false ch tag
    refine ⟨_, _, hwarm, hcold, rfl, rfl, huOk.trans ?_, hvOk, huFails, hu, hv⟩
    by_cases hrec : e.sys.st = .recovery
    · rw [hrec]
      rfl
    · rw [if_neg hrec, beq_eq_false_iff_ne.mpr hrec]
      rfl
  case logInfo =>
    subst h0 he
    exact congrArg Host.Outcome.next (message_answers h rfl rfl)
  case logBad =>
    subst h0 he
    refine congrArg Host.Outcome.next (message_answers h (if_pos (hbad.imp_right fun hlong => ?_)) rfl)
    rcases hlong with ⟨hn, hlong⟩ | ⟨hs, hlong⟩
    · rwa [if_pos hn]
    · rwa [if_neg (Nat.not_lt.mpr hs)]
  case logRead =>
    subst h0 he
    refine congrArg Host.Outcome.next (message_answers h (if_neg ?_) rfl)
    split <;> omega
  case filterBad =>
    subst h0 he
    exact congrArg Host.Outcome.next (message_answers h (if_pos hlong) rfl)
  case filter =>
    subst h0 he
    exact congrArg Host.Outcome.next (message_answers h (if_neg (Nat.not_lt.mpr hshort)) rfl)

end Sys2Proof.Laws

/-! ### The messages of a job and the orderly stop (12_commands_and_sets R413 to R415, R434 to R440) -/

namespace Sys2Proof.Laws

open Sys2Proof Sys2Proof.Machine

/-! #### The checks of JOB.START (R434) -/

theorem startFails_state {e : State} {p : JobParams} (h : e.sys.st ≠ .ready ∨ e.sets.swap.isSome = true) :
    startFails e p = some (failMsg 5) := if_pos h

theorem startFails_params {e : State} {p : JobParams} (hready : e.sys.st = .ready) (hfree : e.sets.swap = none)
    (h : 2 < p.originMode ∨ 3 < p.mode ∨ p.channels % 2 ^ 16 = 0 ∨ 2 ^ 16 ≤ p.channels ∨ 2 ^ 48 ≤ p.firstLine) :
    startFails e p = some (failMsg 4) := by
  have hbad : paramsBad p = true := by
    simp only [paramsBad, Bool.or_eq_true, decide_eq_true_eq]
    tauto
  exact (if_neg (by simp [hready, hfree])).trans (if_pos hbad)

theorem startFails_image {e : State} {p : JobParams} (hready : e.sys.st = .ready) (hfree : e.sets.swap = none)
    (hgood : paramsBad p = false) {c : Nat} (hc : (jobChans p).find? (imageBad e p) = some c) :
    startFails e p = some (failMsg 4 (1 * 2 ^ 20 + c)) := by
  unfold startFails
  dsimp only
  rw [if_neg (by simp [hready, hfree]), hgood, if_neg Bool.false_ne_true, hc]
  rfl

theorem execJobStart_fails {s s1 e : State} {t tag : Nat} {ch : Fin 6} {p : JobParams} (h1 : s1 = flushUpdate (begin s t))
    (h : acts s1 ch 4 0x10 tag true false = true) (he : e = entered s1 ch 4 0x10 tag) {r : MsgRes} (hr : startFails e p = some r)
    (hnow : r.later = false) : exec (.jobStart t ch tag p) s = .next (answer e ch tag true r) := by
  subst h1 he
  exact congrArg Host.Outcome.next (message_answers h (by rw [hr]) hnow)

theorem execJobStart_begins {s s1 e : State} {t tag : Nat} {ch : Fin 6} {p : JobParams} (h1 : s1 = flushUpdate (begin s t))
    (h : acts s1 ch 4 0x10 tag true false = true) (he : e = entered s1 ch 4 0x10 tag) (hr : startFails e p = none) :
    exec (.jobStart t ch tag p) s = .next (answer (beginJob e p) ch tag true (okMsg (leBytes 4 (beginJob e p).job.id))) := by
  subst h1 he
  exact congrArg Host.Outcome.next (message_answers h (by rw [hr]; rfl) rfl)

/-- No check of JOB.START leaves its reply for later. -/
theorem startFails_answers {e : State} {p : JobParams} {r : MsgRes} (h : startFails e p = some r) : r.later = false := by
  unfold startFails at h
  extract_lets cs hubs at h
  split at h
  · cases h; rfl
  · split at h
    · cases h; rfl
    · split at h
      · cases h; rfl
      · split at h
        · cases h; rfl
        · cases h; rfl
        · split at h
          · cases h; rfl
          · split at h
            · cases h; rfl
            · split at h
              · cases h; rfl
              · split at h
                · cases h; rfl
                · cases h; rfl
                · split at h
                  · cases h; rfl
                  · cases h

/-! #### Pause and stop at a line (R438) -/

theorem execJobPause_eq {s s1 e : State} {t tag kind line : Nat} {ch : Fin 6} (h1 : s1 = flushUpdate (begin s t))
    (h : acts s1 ch 4 0x11 tag true false = true) (he : e = entered s1 ch 4 0x11 tag) :
    exec (.jobPause t ch tag kind line) s = .next (
      if e.sys.st ≠ .printing then answer e ch tag true (failMsg 5)
      else if 1 < kind then answer e ch tag true (failMsg 4)
      else if lineBegun e kind line = true then answer e ch tag true (failMsg 12)
      else answer (checkJob { e with job := { e.job with pauseAt := some (chosenLine e kind line) } }) ch tag true
        (lineReply (toldLine e kind line))) := by
  subst h1 he
  split_ifs with hst hkind hline
  · exact congrArg Host.Outcome.next (message_answers h (if_pos hst) rfl)
  · exact congrArg Host.Outcome.next (message_answers h ((if_neg hst).trans (if_pos hkind)) rfl)
  · exact congrArg Host.Outcome.next (message_answers h ((if_neg hst).trans ((if_neg hkind).trans (if_pos hline))) rfl)
  · exact congrArg Host.Outcome.next (message_answers h ((if_neg hst).trans ((if_neg hkind).trans (if_neg hline))) rfl)

theorem execJobStop_eq {s s1 e : State} {t tag kind line : Nat} {ch : Fin 6} (h1 : s1 = flushUpdate (begin s t))
    (h : acts s1 ch 4 0x13 tag true false = true) (he : e = entered s1 ch 4 0x13 tag) :
    exec (.jobStop t ch tag kind line) s = .next (
      if (!jobOn e) = true then answer e ch tag true (failMsg 5)
      else if 1 < kind then answer e ch tag true (failMsg 4)
      else if lineBegun e kind line = true then answer e ch tag true (failMsg 12)
      else if e.sys.st = .printing then answer
        (checkJob { e with job := { e.job with stopAt := some (chosenLine e kind line) } }) ch tag true (lineReply (toldLine e kind line))
      else answer (toReady (endJob { e with pos := { e.pos with indexWait := false } } 2)) ch tag true
        (lineReply (toldLine e kind line))) := by
  subst h1 he
  split_ifs with hjob hkind hline hprint
  · exact congrArg Host.Outcome.next (message_answers h (if_pos hjob) rfl)
  · exact congrArg Host.Outcome.next (message_answers h ((if_neg hjob).trans (if_pos hkind)) rfl)
  · exact congrArg Host.Outcome.next (message_answers h ((if_neg hjob).trans ((if_neg hkind).trans (if_pos hline))) rfl)
  · exact congrArg Host.Outcome.next (message_answers h
      ((if_neg hjob).trans ((if_neg hkind).trans ((if_neg hline).trans (if_pos hprint)))) rfl)
  · exact congrArg Host.Outcome.next (message_answers h
      ((if_neg hjob).trans ((if_neg hkind).trans ((if_neg hline).trans (if_neg hprint)))) rfl)

theorem chosenLine_unrendered {e : State} (h : passMode e = false) (line : Nat) : chosenLine e 0 line = unrendered e := by
  unfold chosenLine
  rw [h, if_neg Bool.false_ne_true, if_neg (by decide)]

theorem chosenLine_named {e : State} (h : passMode e = false) {line : Nat} (hline : line < 2 ^ 48) : chosenLine e 1 line = line := by
  unfold chosenLine
  rw [h, if_neg Bool.false_ne_true, if_pos rfl, Nat.mod_eq_of_lt hline]

theorem toldLine_chosen {e : State} (h : passMode e = false) (kind line : Nat) : toldLine e kind line = chosenLine e kind line := by
  unfold toldLine
  rw [h, if_neg Bool.false_ne_true]

theorem lineBegun_first (e : State) (line : Nat) : lineBegun e 0 line = false := by simp [lineBegun]

theorem lineBegun_named {e : State} (h : passMode e = false) {line : Nat} (hline : line < 2 ^ 48) :
    lineBegun e 1 line = decide ((line : Int) < unrendered e) := by
  unfold lineBegun
  rw [h, Nat.mod_eq_of_lt hline]
  simp

theorem execJobResume_eq {s s1 e : State} {t tag gap : Nat} {ch : Fin 6} (h1 : s1 = flushUpdate (begin s t))
    (h : acts s1 ch 4 0x12 tag true false = true) (he : e = entered s1 ch 4 0x12 tag) :
    exec (.jobResume t ch tag gap) s = .next (
      if e.sys.st ≠ .paused then answer e ch tag true (failMsg 5)
      else if resumeShift e gap < 0 then answer e ch tag true (failMsg 12)
      else
        let d := resumeShift e gap
        let u := if d = 0 then e else restartFrames (shiftPosition e (-d * 2 ^ 24))
        let v := raise (setState { u with job := { u.job with pauseAt := none, shift := u.job.shift + d } } .armed) 0x0107 0
          (satNat 32 d.toNat)
        answer (checkEncoder (((List.range 16).filter (inJob v)).foldl fillBuffers v)) ch tag true okMsg) := by
  subst h1 he
  by_cases hst : (entered (flushUpdate (begin s t)) ch 4 0x12 tag).sys.st ≠ .paused
  · rw [if_pos hst]
    exact congrArg Host.Outcome.next (message_answers h (if_pos hst) rfl)
  · rw [if_neg hst]
    by_cases hneg : resumeShift (entered (flushUpdate (begin s t)) ch 4 0x12 tag) gap < 0
    · rw [if_pos hneg]
      exact congrArg Host.Outcome.next (message_answers h ((if_neg hst).trans (if_pos hneg)) rfl)
    · rw [if_neg hneg]
      exact congrArg Host.Outcome.next (message_answers h ((if_neg hst).trans (if_neg hneg)) rfl)

/-! #### The orderly stop (R415) -/

theorem orderlyStop_ends {w : State} (h : mayStop w = true) (cause : Nat) :
    (orderlyStop w cause).sys.st = .safeStop ∧ (orderlyStop w cause).sys.stopCause = cause := by
  have hcause (v : State) : (setState v .safeStop).sys.stopCause = v.sys.stopCause := by
    unfold setState
    split
    · rfl
    · obtain ⟨_, _, _, hbell⟩ := notice_doorbell (raise { v with sys := { v.sys with st := .safeStop } } 0x0101 0
        (stateCode .safeStop + 256 * stateCode v.sys.st)) 24
      dsimp only
      rw [hbell]
      rfl
  unfold orderlyStop
  rw [if_neg (by simp [h])]
  dsimp only
  exact ⟨setState_st _ _, hcause _⟩

/-- Settles O49: each message is its action's answer, with the branches of the action taken by the state. -/
theorem jobMessages : Obligations.JobMessages := by
  intro s t ch tag s0 s1
  have h0 : s0 = begin s t := rfl
  have h1 : s1 = flushUpdate (begin s t) := rfl
  clear_value s0 s1
  refine ⟨fun p e h he => ⟨fun hno => ?notReady, fun hready hfree => ⟨fun hbad => ?params, fun c hgood hc => ?image⟩, fun r hr => ?fails,
      execJobStart_begins h1 h he⟩,
    fun kind line e h he => ⟨fun hno => ?noPause, fun hprint hkind => ?pauseKind, fun hprint hline => ⟨fun hkind => ?pauseFirst,
      fun hkind hfit => ?pauseNamed⟩⟩,
    fun gap e h he => ⟨fun hno => ?noResume, fun hpaused hneg => ?resumeLate, fun hpaused hpos => ?resume⟩,
    fun kind line e h he => ⟨fun hno => ?noStop, fun hjob hkind => ?stopKind, fun hkind hline hprint => ?stopFirst,
      fun hkind hst => ?stopNow⟩, fun e h he => ?status, fun e h he => ?safeStop, fun w cause hst => ?stopped, fun e h he => ?clear⟩
  case notReady => exact execJobStart_fails h1 h he (startFails_state hno) rfl
  case params => exact execJobStart_fails h1 h he (startFails_params hready hfree hbad) rfl
  case image => exact execJobStart_fails h1 h he (startFails_image hready hfree hgood hc) rfl
  case fails => exact execJobStart_fails h1 h he hr (startFails_answers hr)
  case noPause => rw [execJobPause_eq h1 h he, if_pos hno]
  case pauseKind => rw [execJobPause_eq h1 h he, if_neg (not_not.mpr hprint), if_pos hkind]
  case pauseFirst =>
    subst hkind
    rw [execJobPause_eq h1 h he, if_neg (not_not.mpr hprint), if_neg (by decide), lineBegun_first, if_neg Bool.false_ne_true,
      toldLine_chosen hline, chosenLine_unrendered hline]
  case pauseNamed =>
    subst hkind
    rw [execJobPause_eq h1 h he, if_neg (not_not.mpr hprint), if_neg (by decide), lineBegun_named hline hfit,
      toldLine_chosen hline, chosenLine_named hline hfit]
    simp only [decide_eq_true_eq]
  case noResume => rw [execJobResume_eq h1 h he, if_pos hno]
  case resumeLate => rw [execJobResume_eq h1 h he, if_neg (not_not.mpr hpaused), if_pos hneg]
  case resume => rw [execJobResume_eq h1 h he, if_neg (not_not.mpr hpaused), if_neg (Int.not_lt.mpr hpos)]
  case noStop => rw [execJobStop_eq h1 h he, if_pos (by rw [hno]; rfl)]
  case stopKind => rw [execJobStop_eq h1 h he, if_neg (by simp [hjob]), if_pos hkind]
  case stopFirst =>
    subst hkind
    have hjob : jobOn e = true := by simp [jobOn, hprint]
    rw [execJobStop_eq h1 h he, if_neg (by simp [hjob]), if_neg (by decide), lineBegun_first, if_neg Bool.false_ne_true, if_pos hprint,
      toldLine_chosen hline, chosenLine_unrendered hline]
  case stopNow =>
    subst hkind
    have hjob : jobOn e = true := by rcases hst with hst | hst <;> simp [jobOn, hst]
    have hprint : e.sys.st ≠ .printing := by rcases hst with hst | hst <;> simp [hst]
    rw [execJobStop_eq h1 h he, if_neg (by simp [hjob]), if_neg (by decide), lineBegun_first, if_neg Bool.false_ne_true, if_neg hprint]
  case status =>
    subst h1 he
    exact congrArg Host.Outcome.next (message_answers h rfl rfl)
  case safeStop =>
    subst h0 he
    split_ifs with hmay hst
    · exact congrArg Host.Outcome.next (message_answers h (if_pos hmay) rfl)
    · exact congrArg Host.Outcome.next (message_answers h ((if_neg hmay).trans (if_pos hst)) rfl)
    · exact congrArg Host.Outcome.next (message_answers h ((if_neg hmay).trans (if_neg hst)) rfl)
  case stopped =>
    have hmay : mayStop w = true := by rcases hst with hst | hst | hst | hst <;> simp [mayStop, jobOn, hst]
    exact orderlyStop_ends hmay cause
  case clear =>
    by_cases hstop : e.sys.st = .safeStop ∧ causePresent e e.sys.stopCause = false
    · rw [if_pos hstop]
      obtain ⟨hst, hgone⟩ := hstop
      subst h0 he
      exact congrArg Host.Outcome.next (message_answers h (if_neg (not_or.mpr ⟨not_not.mpr hst, by simp [hgone]⟩)) rfl)
    · rw [if_neg hstop]
      subst h0 he
      refine congrArg Host.Outcome.next (message_answers h (if_pos ?_) rfl)
      by_contra hno
      obtain ⟨hst, hgone⟩ := not_or.mp hno
      exact hstop ⟨not_not.mp hst, by simpa using hgone⟩

end Sys2Proof.Laws

/-! ### The messages on the configuration sets (12_commands_and_sets R416 to R426) -/

namespace Sys2Proof.Laws

open Sys2Proof Sys2Proof.Machine

/-! #### SET.TABLE (R420) -/

/-- What a SET.TABLE of inline data brings. -/
def tableLoad (ch tag table index off len transfer : Nat) : TableLoad := ⟨ch, tag, table, index, off, len, transfer⟩

theorem actLoad_inline {e : State} (hfree : e.sets.swap = none) {x : TableLoad} {data : DataRef} (hlen : data.bytes.length = x.length) :
    actLoad false false x data e = (setShadow e (loadWrite x data.bytes), okMsg) := by
  unfold actLoad
  simp [hfree, hlen, okMsg]

theorem actLoad_bad {e : State} (hfree : e.sets.swap = none) (ref : Bool) (x : TableLoad) (data : DataRef) :
    actLoad true ref x data e = (e, failMsg 4) := by
  unfold actLoad
  simp [hfree, failMsg]

theorem execSetTable_eq {s s0 e : State} {t tag table index off len : Nat} {ch : Fin 6} {data : DataRef} (h0 : s0 = begin s t)
    (h : acts s0 ch 2 0x10 tag true false = true) (he : e = entered s0 ch 2 0x10 tag) {u : State} {r : MsgRes}
    (hact : actLoad (tableBad table index off len false data) false (tableLoad ch tag table index off len data.transfer) data e = (u, r))
    (hr : r.later = false) : exec (.setTable t ch tag table index off len false data) s = .next (answer u ch tag true r) := by
  subst h0 he
  exact congrArg Host.Outcome.next (message_answers h hact hr)

theorem tableBad_inline (table index off len : Nat) (data : DataRef) : tableBad table index off len false data = true ↔
    tableSize table index = none ∨ (∃ n, tableSize table index = some n ∧ n < off + len) ∨ 224 < len := by
  unfold tableBad
  cases h : tableSize table index with
  | none => simp
  | some n => simp

/-- Bytes written from an offset of a tone curve: each is its entry. -/
theorem tableWrite_tone (index off : Nat) (bytes : List Byte) {c : CfgSet} (hwf : bankWf c.regs = true) :
    ∀ i, i < bytes.length → bankReg (tableWrite 1 index off bytes c).regs .WFT_TONE (256 * index + (off + i)) 0 =
      (nth bytes i 0).toNat := by
  unfold tableWrite
  have hfold (n : Nat) (hn : n ≤ bytes.length) :
      let d := (List.range n).foldl (fun c i => tableByte 1 index c (off + i) (nth bytes i 0)) c
      bankWf d.regs = true ∧
        ∀ i, i < n → bankReg d.regs .WFT_TONE (256 * index + (off + i)) 0 = (nth bytes i 0).toNat := by
    induction n with
    | zero => exact ⟨hwf, fun i hi => absurd hi (Nat.not_lt_zero i)⟩
    | succ n ih =>
      obtain ⟨hprev, hbytes⟩ := ih (by omega)
      rw [List.range_succ, List.foldl_append, List.foldl_cons, List.foldl_nil]
      generalize (List.range n).foldl (fun c i => tableByte 1 index c (off + i) (nth bytes i 0)) c = d at hprev hbytes ⊢
      refine ⟨bankWf_bankWrite hprev _ _, fun i hi => ?_⟩
      by_cases hin : i = n
      · subst hin
        exact bankLookup_bankWrite hprev _ _
      · have hkey : regKey .WFT_TONE (256 * index + (off + i)) 0 ≠ regKey .WFT_TONE (256 * index + (off + n)) 0 := by
          unfold regKey
          generalize Reg.WFT_TONE.ctorIdx = r
          omega
        exact (bankLookup_bankWrite_ne hprev _ hkey).trans (hbytes i (by omega))
  exact (hfold bytes.length (Nat.le_refl _)).2

/-- The shadow set after a SET.TABLE. -/
theorem setShadow_law (e : State) {table index off len : Nat} (ch tag transfer : Nat) (htable : (tableSize table index).isSome = true)
    {bytes : List Byte} (hlen : bytes.length = len) :
    let u := setShadow e (loadWrite (tableLoad ch tag table index off len transfer) bytes)
    u.sets.validated = false ∧ u.sets.shadow = tableWrite table index off bytes e.sets.shadow ∧ { u with sets := e.sets } = e ∧
      { u.sets with shadow := e.sets.shadow, validated := e.sets.validated } = e.sets := by
  have hfive : table ≠ 5 := by
    rintro rfl
    cases htable
  have hload : loadWrite (tableLoad ch tag table index off len transfer) bytes e.sets.shadow =
      tableWrite table index off bytes e.sets.shadow := by
    refine (if_neg hfive).trans ?_
    show tableWrite table index off (bytes.take len) e.sets.shadow = _
    rw [← hlen, List.take_length]
  exact ⟨rfl, hload, rfl, rfl⟩

/-! #### SET.VALIDATE (R421) -/

/-- LINE_COST is all that the note of the costs writes. -/
theorem noteCosts_eq (s : State) (c : CfgSet) (edges : Nat → Nat) (chs : List Nat) : ∃ l, noteCosts s c edges chs = { s with live := l } := by
  unfold noteCosts
  induction chs generalizing s with
  | nil => exact ⟨s.live, rfl⟩
  | cons k chs ih =>
    obtain ⟨l, h⟩ := ih (setFld s Fld.WFT_FIFO_LINE_COST k (satNat 16 (renderCost c k (edges k))))
    exact ⟨l, h⟩

theorem execSetValidate_eq {s s0 e : State} {t tag : Nat} {ch : Fin 6} (h0 : s0 = begin s t)
    (h : acts s0 ch 2 0x13 tag true false = true) (he : e = entered s0 ch 2 0x13 tag) {u : State} {r : MsgRes}
    (hact : actValidate e = (u, r)) (hr : r.later = false) : exec (.setValidate t ch tag) s = .next (answer u ch tag true r) := by
  subst h0 he
  exact congrArg Host.Outcome.next (message_answers h hact hr)

/-- A set that passes: its reed table stands in the shadow set, and LINE_COST is noted. -/
def setPassed (e : State) (es : List ReedEntry) : State :=
  noteCosts { e with sets := { e.sets with shadow := { e.sets.shadow with reed := es }, validated := true } }
    { e.sets.shadow with reed := es } (edgesNow e { e.sets.shadow with reed := es }) (setChannels { e.sets.shadow with reed := es })

theorem actValidate_built {e : State} (hfree : e.sets.swap = none) {es : List ReedEntry}
    (hbuilt : buildReed e.sets.shadow (hubEnabled e) = .ok es) : actValidate e =
      match failOf e { e.sets.shadow with reed := es } with
      | some f => (e, failReply f)
      | none => (raise (setPassed e es) 0x0506 0 es.length, okMsg (leBytes 12 0 ++ leBytes 4 es.length)) := by
  unfold actValidate
  rw [if_neg (by simp [hfree])]
  dsimp only
  rw [hbuilt]
  rfl

theorem actValidate_unbuilt {e : State} (hfree : e.sets.swap = none) {f : Failure}
    (hbuilt : buildReed e.sets.shadow (hubEnabled e) = .error f) : actValidate e = (e, failReply f) := by
  unfold actValidate
  rw [if_neg (by simp [hfree])]
  dsimp only
  rw [hbuilt]

theorem setPassed_law (e : State) (es : List ReedEntry) :
    let u := raise (setPassed e es) 0x0506 0 es.length
    u.sets = { e.sets with shadow := { e.sets.shadow with reed := es }, validated := true } ∧
      u.host = { e.host with queued := e.host.queued ++ [⟨now e, 0x0506, 0, es.length % 2 ^ 32⟩] } ∧
      { u with sets := e.sets, host := e.host, live := e.live } = e := by
  obtain ⟨l, hcosts⟩ := noteCosts_eq { e with sets := { e.sets with shadow := { e.sets.shadow with reed := es }, validated := true } }
    { e.sets.shadow with reed := es } (edgesNow e { e.sets.shadow with reed := es }) (setChannels { e.sets.shadow with reed := es })
  unfold setPassed
  rw [hcosts]
  exact ⟨rfl, rfl, rfl⟩

/-! #### SET.SWAP (R423, R424) -/

/-- A swap accepted. -/
def swapSet (e : State) (w : Swap) : State :=
  { e with sets := { e.sets with swap := some w, point := w.point, line := w.line } }

theorem execSetSwap_eq {s s0 e : State} {t tag point line : Nat} {ch : Fin 6} (h0 : s0 = begin s t)
    (h : acts s0 ch 2 0x14 tag true false = true) (he : e = entered s0 ch 2 0x14 tag) {u : State} {r : MsgRes}
    (hact : actSwap point line e = (u, r)) (hr : r.later = false) :
    exec (.setSwap t ch tag point line) s = .next (answer u ch tag true r) := by
  subst h0 he
  exact congrArg Host.Outcome.next (message_answers h hact hr)

theorem actSwap_params {e : State} {point : Nat}
    (h : 2 < point ∨ (point = 1 ∧ passMode e = true) ∨ (point = 2 ∧ passMode e = false)) (line : Nat) :
    actSwap point line e = (e, failMsg 4) := by
  refine if_pos (h.imp_right (.imp_right fun ⟨hpoint, hpass⟩ => ⟨hpoint, ?_⟩))
  rw [hpass]
  rfl

/-- A point in range for the mode that printing is in. -/
def pointOk (e : State) (point : Nat) : Prop := point = 0 ∨ (point = 1 ∧ passMode e = false)

theorem pointOk.inRange {e : State} {point : Nat} (h : pointOk e point) :
    ¬ (2 < point ∨ (point = 1 ∧ passMode e = true) ∨ (point = 2 ∧ (!passMode e) = true)) := by
  rcases h with rfl | ⟨rfl, hpass⟩
  · simp
  · simp [hpass]

theorem actSwap_state {e : State} {point : Nat} (hpoint : pointOk e point)
    (h : e.sets.swap.isSome = true ∨ e.sets.validated = false) (line : Nat) : actSwap point line e = (e, failMsg 5) := by
  refine (if_neg hpoint.inRange).trans (if_pos (h.imp_right fun hval => ?_))
  rw [hval]
  rfl

theorem swapOpen {e : State} (hfree : e.sets.swap = none) (hval : e.sets.validated = true) :
    ¬ (e.sets.swap.isSome = true ∨ (!e.sets.validated) = true) := by simp [hfree, hval]

theorem actSwap_whole {e : State} (hfree : e.sets.swap = none) (hval : e.sets.validated = true) (hjob : jobOn e = false) (line : Nat) :
    actSwap 0 line e = (swapSet e { point := 0, line := 0, whole := true }, okMsg) := by
  have hrange : pointOk e 0 := .inl rfl
  unfold actSwap
  dsimp only
  rw [if_neg hrange.inRange, if_neg (swapOpen hfree hval), if_pos (by rw [hjob]; rfl)]
  rfl

/-- A swap under a job, at a line that it names. -/
theorem actSwap_underJob {e : State} {point : Nat} (hpoint : pointOk e point) (hfree : e.sets.swap = none)
    (hval : e.sets.validated = true) (hjob : jobOn e = true) (line : Nat) :
    let l : Int := if point = 1 then (line % 2 ^ 48 : Nat) else unrendered e
    actSwap point line e = if point = 1 ∧ l < unrendered e then (e, failMsg 12)
      else (swapSet e { point := point, line := l, whole := false }, okMsg) := by
  have hpoint2 : point ≠ 2 := by rcases hpoint with rfl | ⟨rfl, -⟩ <;> decide
  unfold actSwap
  dsimp only
  rw [if_neg hpoint.inRange, if_neg (swapOpen hfree hval), if_neg (by rw [hjob]; exact Bool.false_ne_true)]
  simp only [hpoint2, false_and, or_false, if_false]
  rfl

theorem actSwap_first {e : State} (hfree : e.sets.swap = none) (hval : e.sets.validated = true) (hjob : jobOn e = true) (line : Nat) :
    actSwap 0 line e = (swapSet e { point := 0, line := unrendered e, whole := false }, okMsg) :=
  (actSwap_underJob (.inl rfl) hfree hval hjob line).trans (if_neg (by simp))

theorem actSwap_named {e : State} (hpass : passMode e = false) (hfree : e.sets.swap = none) (hval : e.sets.validated = true)
    (hjob : jobOn e = true) {line : Nat} (hline : line < 2 ^ 48) : actSwap 1 line e =
      if (line : Int) < unrendered e then (e, failMsg 12) else (swapSet e { point := 1, line := line, whole := false }, okMsg) := by
  have hact := actSwap_underJob (.inr ⟨rfl, hpass⟩) hfree hval hjob line
  simp only [if_true, Nat.mod_eq_of_lt hline, true_and] at hact
  exact hact

/-! #### SET.CANCEL (R425) -/

theorem execSetCancel_eq {s s0 e : State} {t tag : Nat} {ch : Fin 6} (h0 : s0 = begin s t)
    (h : acts s0 ch 2 0x15 tag true false = true) (he : e = entered s0 ch 2 0x15 tag) :
    exec (.setCancel t ch tag) s = .next (match e.sets.swap with
      | none => answer e ch tag true (failMsg 5)
      | some w => if swapUntouched w = true then answer (raise { e with sets := { e.sets with swap := none } } 0x0103 0
          (if w.whole then 0 else low32 w.line)) ch tag true okMsg
        else answer e ch tag true (failMsg 12)) := by
  subst h0 he
  split
  · rename_i hnone
    exact congrArg Host.Outcome.next (message_answers h (by rw [hnone]; rfl) rfl)
  · rename_i w hw
    by_cases hfirst : swapUntouched w = true
    · rw [if_pos hfirst]
      exact congrArg Host.Outcome.next (message_answers h (by rw [hw]; exact if_pos hfirst) rfl)
    · rw [if_neg hfirst]
      exact congrArg Host.Outcome.next (message_answers h (by rw [hw]; exact if_neg hfirst) rfl)

theorem raised_of_lt (e : State) (c src : Nat) {a : Nat} (ha : a < 2 ^ 32) : Raised e (raise e c src a) ⟨now e, c, src, a⟩ := by
  have hmod : a % 2 ^ 32 = a := Nat.mod_eq_of_lt ha
  show _ = raiseAt e (now e) c src a
  unfold raiseAt
  rw [hmod]

/-- Settles O47: each message is its action's answer; the tables, the validation and the swaps by the laws of their actions. -/
theorem setMessages : Obligations.SetMessages := by
  intro s t ch tag s0
  have h0 : s0 = begin s t := rfl
  clear_value s0
  refine ⟨fun table index off len data e h he => ⟨fun hswap => ?tableState, fun hfree hbad => ?tableBad,
      fun n hfree hn hfit hlen hbytes => ?table⟩, fun e h he => ?copy, fun e h he => ?defaults,
    fun e h he => ⟨fun hswap => ?validateState, fun f hfree hbuilt => ?unbuilt, fun es f hfree hbuilt hf => ?fails,
      fun es hfree hbuilt hf => ?passes⟩,
    fun point line e h he => ⟨fun hbad => ?swapBad, fun hpoint hno => ?swapState, fun hpoint hfree hval => ⟨fun hjob => ?whole,
      fun hjob => ?first⟩, fun hpoint hpass hfree hval hjob hline => ?named⟩,
    fun e h he => ⟨fun hnone => ?cancelState, fun w hw => ⟨fun htaken => ?cancelLate, fun hfirst => ?cancel⟩⟩, fun e h he => ?status⟩
  case tableState => exact execSetTable_eq h0 h he (if_pos hswap) rfl
  case tableBad =>
    refine execSetTable_eq h0 h he ?_ rfl
    rw [(tableBad_inline table index off len data).mpr hbad]
    exact actLoad_bad hfree false _ data
  case table =>
    have hgood : tableBad table index off len false data = false := by
      rw [Bool.eq_false_iff]
      intro hbad
      rcases (tableBad_inline table index off len data).mp hbad with hno | ⟨m, hm, hlong⟩ | hlong
      · rw [hn] at hno
        cases hno
      · rw [hn] at hm
        cases hm
        omega
      · omega
    obtain ⟨hval, hshadow, hrest, hsets⟩ := setShadow_law (len := len) e (off := off) ch.val tag data.transfer (by rw [hn]; rfl) hbytes
    refine ⟨_, execSetTable_eq h0 h he ?_ rfl, hval, hshadow, hrest, hsets, fun htone hwf i hi => ?_⟩
    · rw [hgood]
      exact actLoad_inline hfree hbytes
    · subst htone
      rw [hshadow]
      exact tableWrite_tone index off data.bytes hwf i (by omega)
  case copy =>
    subst h0 he
    split_ifs with hswap
    · exact congrArg Host.Outcome.next (message_answers h (if_pos hswap) rfl)
    · exact congrArg Host.Outcome.next (message_answers h ((if_neg hswap).trans (if_neg Bool.false_ne_true)) rfl)
  case defaults =>
    subst h0 he
    split_ifs with hswap
    · exact congrArg Host.Outcome.next (message_answers h (if_pos hswap) rfl)
    · exact congrArg Host.Outcome.next (message_answers h ((if_neg hswap).trans (if_neg Bool.false_ne_true)) rfl)
  case validateState => exact execSetValidate_eq h0 h he (if_pos hswap) rfl
  case unbuilt => exact execSetValidate_eq h0 h he (actValidate_unbuilt hfree hbuilt) rfl
  case fails => exact execSetValidate_eq h0 h he ((actValidate_built hfree hbuilt).trans (by rw [hf])) rfl
  case passes => exact ⟨_, execSetValidate_eq h0 h he ((actValidate_built hfree hbuilt).trans (by rw [hf])) rfl, setPassed_law e es⟩
  case swapBad => exact execSetSwap_eq h0 h he (actSwap_params hbad line) rfl
  case swapState =>
    subst hpoint
    exact execSetSwap_eq h0 h he (actSwap_state (.inl rfl) hno line) rfl
  case whole =>
    subst hpoint
    exact execSetSwap_eq h0 h he (actSwap_whole hfree hval hjob line) rfl
  case first =>
    subst hpoint
    exact execSetSwap_eq h0 h he (actSwap_first hfree hval hjob line) rfl
  case named =>
    subst hpoint
    have hact := actSwap_named hpass hfree hval hjob hline
    split_ifs with hlate
    · exact execSetSwap_eq h0 h he (hact.trans (if_pos hlate)) rfl
    · exact execSetSwap_eq h0 h he (hact.trans (if_neg hlate)) rfl
  case cancelState => rw [execSetCancel_eq h0 h he, hnone]
  case cancelLate =>
    rw [execSetCancel_eq h0 h he, hw]
    dsimp only
    rw [if_neg (by rw [htaken]; exact Bool.false_ne_true)]
  case cancel =>
    refine ⟨_, by rw [execSetCancel_eq h0 h he, hw]; dsimp only; rw [if_pos hfirst], ?_⟩
    have harg : (if w.whole then 0 else low32 w.line) < 2 ^ 32 := by
      split
      · decide
      · exact unsignedOf_lt 32 _
    exact raised_of_lt _ _ _ harg
  case status =>
    subst h0 he
    exact congrArg Host.Outcome.next (message_answers h rfl rfl)

end Sys2Proof.Laws

/-! ### The messages of class MOT (12_commands_and_sets R441; 13_motion) -/

namespace Sys2Proof.Laws

open Sys2Proof Sys2Proof.Machine

/-! #### MOT.MOVE, MOT.GROUP_MOVE and MOT.HOME -/

/-- A MOT.MOVE whose fields are in range. -/
structure MoveInRange (e : State) (n kind : Nat) (target : Int) (v a d j : Nat) : Prop where
  axis : n < 8
  kind : kind < 2
  v : v ≤ liveFld e Fld.MOT_PROFILE_VMAX n
  a : a ≤ liveFld e Fld.MOT_PROFILE_AMAX n
  d : d ≤ liveFld e Fld.MOT_PROFILE_DMAX n
  j : j ≤ liveFld e Fld.MOT_PROFILE_JMAX n
  target : targetOk (Machine.axis e n).x target = true

/-- The range check of MOT.MOVE passes fields in range. -/
theorem MoveInRange.passes {e : State} {n kind : Nat} {target : Int} {v a d j : Nat} (hr : MoveInRange e n kind target v a d j) :
    ¬ (8 ≤ n ∨ 2 ≤ kind ∨ decide (liveFld e Fld.MOT_PROFILE_VMAX n < v) = true ∨ decide (liveFld e Fld.MOT_PROFILE_AMAX n < a) = true ∨
      decide (liveFld e Fld.MOT_PROFILE_DMAX n < d) = true ∨ decide (liveFld e Fld.MOT_PROFILE_JMAX n < j) = true ∨
      (!targetOk (Machine.axis e n).x target) = true) := by
  obtain ⟨haxis, hkind, hv, ha, hd, hj, htarget⟩ := hr
  simp only [decide_eq_true_eq, htarget, Bool.not_true, Bool.false_eq_true, or_false, not_or, Nat.not_le, Nat.not_lt]
  exact ⟨haxis, hkind, hv, ha, hd, hj⟩

/-- A move its axis may make waits for the next boundary with its message (R469). -/
theorem execMotMove_queued {s s0 e : State} {t tag n kind v a d j : Nat} {target : Int} {ch : Fin 6} (h0 : s0 = begin s t)
    (h : acts s0 ch 7 0x11 tag true false = true) (he : e = entered s0 ch 7 0x11 tag) (hr : MoveInRange e n kind target v a d j)
    (hen : enabledAsWritten e n = true) (hgroup : groupOf e n = none) (hfault : faultBars e n = false)
    (hpos : limitActive e n true = false ∨ target * 2 ^ 32 ≤ (axis e n).x)
    (hneg : limitActive e n false = false ∨ (axis e n).x ≤ target * 2 ^ 32) :
    exec (.motMove t ch tag n kind target v a d j) s = .next { e with mot := { e.mot with
      reqs := e.mot.reqs ++ [⟨ch, tag, .move n (kind == 1) target ⟨v, a, d, j⟩⟩] } } := by
  have hfree : ¬ ((!enabledAsWritten e n) = true ∨ (groupOf e n).isSome = true ∨ faultBars e n = true ∨
      (limitActive e n true = true ∧ (axis e n).x < target * 2 ^ 32) ∨
      (limitActive e n false = true ∧ target * 2 ^ 32 < (axis e n).x)) := by
    rw [hen, hgroup, hfault]
    rintro (hx | hx | hx | ⟨hx, hlt⟩ | ⟨hx, hlt⟩)
    · exact absurd hx (by decide)
    · exact absurd hx (by decide)
    · exact absurd hx (by decide)
    · exact hpos.elim (fun hp => absurd (hp.symm.trans hx) (by decide)) fun hp => absurd hlt (Int.not_lt.2 hp)
    · exact hneg.elim (fun hp => absurd (hp.symm.trans hx) (by decide)) fun hp => absurd hlt (Int.not_lt.2 hp)
  subst h0 he
  exact congrArg Host.Outcome.next (message_later h ((if_neg hr.passes).trans (if_neg hfree)) rfl)

/-- A move of an axis that is not enabled is refused, with the axis named (R449). -/
theorem execMotMove_disabled {s s0 e : State} {t tag n kind v a d j : Nat} {target : Int} {ch : Fin 6} (h0 : s0 = begin s t)
    (h : acts s0 ch 7 0x11 tag true false = true) (he : e = entered s0 ch 7 0x11 tag) (hr : MoveInRange e n kind target v a d j)
    (hen : enabledAsWritten e n = false) :
    exec (.motMove t ch tag n kind target v a d j) s = .next (answer e ch tag true (failMsg 5 (8 * 2 ^ 20 + n))) := by
  have hbars : (!enabledAsWritten e n) = true := by rw [hen]; rfl
  subst h0 he
  exact congrArg Host.Outcome.next (message_answers h ((if_neg hr.passes).trans (if_pos (.inl hbars))) rfl)

/-- A group move with a target for each of its axes, all free to move, waits for the next boundary with its message (R456, R469). -/
theorem execMotGroupMove_queued {s s0 e : State} {t tag g : Nat} {targets : List Int} {ns : List Nat} {ch : Fin 6} (h0 : s0 = begin s t)
    (h : acts s0 ch 7 0x12 tag true false = true) (he : e = entered s0 ch 7 0x12 tag) (hg : g < 4)
    (hns : ns = (List.range 8).filter (liveFld e Fld.MOT_GROUP_AXES g).testBit) (hsome : ns ≠ [])
    (hlen : targets.length = ns.length)
    (htargets : ∀ i, i < ns.length → targetOk (axis e (nth ns i 0)).x (nth targets i 0) = true)
    (hfree : ∀ n ∈ ns, enabledAsWritten e n = true ∧ axisMoves (axis e n) = false ∧ faultBars e n = false) :
    exec (.motGroupMove t ch tag g targets) s = .next { e with mot := { e.mot with
      reqs := e.mot.reqs ++ [⟨ch, tag, .group g targets⟩] } } := by
  have hif : (if g < 4 then (List.range 8).filter (liveFld e Fld.MOT_GROUP_AXES g).testBit else []) = ns := (if_pos hg).trans hns.symm
  have hrange : ¬ (4 ≤ g ∨ ns.isEmpty = true) := by simp [hsome, hg]
  have hall : ¬ (List.range ns.length).any (fun i => !targetOk (axis e (nth ns i 0)).x (nth targets i 0)) = true := by
    simpa using htargets
  have hfind : (ns.find? fun n => !enabledAsWritten e n || axisMoves (axis e n) || faultBars e n) = none := by
    refine List.find?_eq_none.2 fun n hn => ?_
    obtain ⟨hen, hrest, hfault⟩ := hfree n hn
    simp [hen, hrest, hfault]
  subst h0 he
  refine congrArg Host.Outcome.next (message_later (r := ⟨0, 0, [], true⟩) h ?_ rfl)
  dsimp only
  rw [hif, if_neg hrange, if_neg (not_not.2 hlen), if_neg hall, hfind]
  rfl

/-- Homing of a kind that the axis supports waits for the next boundary with its message (R458, R469). -/
theorem execMotHome_queued {s s0 e : State} {t tag n kind : Nat} {ch : Fin 6} (h0 : s0 = begin s t)
    (h : acts s0 ch 7 0x13 tag true false = true) (he : e = entered s0 ch 7 0x13 tag) (hn : n < 8) (hkind : kind < 4)
    (hstall : kind = 2 → liveFld e Fld.MOT_STALL_STALL_EN n ≠ 0 ∧
      liveFld e Fld.MOT_STALL_STALL_MIN_RATE n ≤ liveFld e Fld.MOT_HOME_HOME_SLOW n)
    (hen : enabledAsWritten e n = true) (hgroup : groupOf e n = none) (hfault : faultBars e n = false) :
    exec (.motHome t ch tag n kind) s = .next { e with mot := { e.mot with reqs := e.mot.reqs ++ [⟨ch, tag, .home n kind⟩] } } := by
  have hrange : ¬ (8 ≤ n ∨ 4 ≤ kind ∨ (kind = 2 ∧ (liveFld e Fld.MOT_STALL_STALL_EN n = 0 ∨
      liveFld e Fld.MOT_HOME_HOME_SLOW n < liveFld e Fld.MOT_STALL_STALL_MIN_RATE n))) := by
    rintro (hx | hx | ⟨hx, hy⟩)
    · omega
    · omega
    · exact hy.elim (hstall hx).1 fun hlt => absurd (hstall hx).2 (Nat.not_le.2 hlt)
  have hfree : ¬ ((!enabledAsWritten e n) = true ∨ (groupOf e n).isSome = true ∨ faultBars e n = true) := by
    rw [hen, hgroup, hfault]
    decide
  subst h0 he
  exact congrArg Host.Outcome.next (message_later h ((if_neg hrange).trans (if_neg hfree)) rfl)

/-! #### MOT.STOP, MOT.CONFIG and MOT.STATUS -/

/-- A MOT.STOP in range waits for the next boundary and is answered at once (R469). -/
theorem execMotStop_answers {s s0 e : State} {t tag axes kind : Nat} {ch : Fin 6} (h0 : s0 = begin s t)
    (h : acts s0 ch 7 0x14 tag true false = true) (he : e = entered s0 ch 7 0x14 tag) (haxes : axes < 256) (hkind : kind < 2) :
    exec (.motStop t ch tag axes kind) s =
      .next (answer { e with mot := { e.mot with stops := e.mot.stops ++ [(axes, kind)] } } ch tag true okMsg) := by
  subst h0 he
  exact congrArg Host.Outcome.next (message_answers h (if_neg (not_or.2 ⟨Nat.not_le.2 haxes, Nat.not_le.2 hkind⟩)) rfl)

/-- The profile limits of an axis, as MOT.CONFIG writes them (R477). -/
def setProfile (s : State) (n : Nat) (lim : Limits) : State :=
  setFld (setFld (setFld (setFld s Fld.MOT_PROFILE_VMAX n lim.v) Fld.MOT_PROFILE_AMAX n lim.a) Fld.MOT_PROFILE_DMAX n lim.d)
    Fld.MOT_PROFILE_JMAX n lim.j

/-- The stall settings of an axis, as MOT.CONFIG writes them (R472). -/
def setStall (s : State) (n stall : Nat) : State :=
  (regFields .MOT_STALL).foldl (fun s f => setFld s f n (bitsOf stall f.lo f.width)) s

theorem banks_setProfile {s : State} (h : banksOk s = true) (n : Nat) (lim : Limits) : banksOk (setProfile s n lim) = true :=
  banks_setFld (banks_setFld (banks_setFld (banks_setFld h _ _ _ 0) _ _ _ 0) _ _ _ 0) _ _ _ 0

/-- The stall settings leave the fields of every other register. -/
theorem liveFld_setStall_ne {s : State} (h : banksOk s = true) {n stall : Nat} (hn : n < 8192) {g : Field}
    (hg : g.reg.ctorIdx ≠ Reg.MOT_STALL.ctorIdx) : liveFld (setStall s n stall) g n = liveFld s g n := by
  have hfold : ∀ fs : List Field, (∀ f ∈ fs, f.reg = .MOT_STALL) → ∀ s : State, banksOk s = true →
      liveFld (fs.foldl (fun s f => setFld s f n (bitsOf stall f.lo f.width)) s) g n = liveFld s g n := by
    intro fs
    induction fs with
    | nil => exact fun _ _ _ => rfl
    | cons f fs ih =>
      intro hfs s hb
      refine (ih (fun f hf => hfs f (List.mem_cons_of_mem _ hf)) _ (banks_setFld hb _ _ _ 0)).trans ?_
      exact liveFld_setFld_ne hb (by rw [hfs f List.mem_cons_self]; exact hg) hn hn _
  exact hfold _ (by decide) s h

/-- The profile limits read as written, each in its 32 bits (R477). -/
theorem setProfile_reads {s : State} (h : banksOk s = true) (n : Nat) (lim : Limits) :
    liveFld (setProfile s n lim) Fld.MOT_PROFILE_AMAX n = lim.a % 2 ^ 32 ∧
      liveFld (setProfile s n lim) Fld.MOT_PROFILE_DMAX n = lim.d % 2 ^ 32 ∧
      liveFld (setProfile s n lim) Fld.MOT_PROFILE_JMAX n = lim.j % 2 ^ 32 := by
  have hv := banks_setFld h Fld.MOT_PROFILE_VMAX n lim.v 0
  have ha := banks_setFld hv Fld.MOT_PROFILE_AMAX n lim.a 0
  have hd := banks_setFld ha Fld.MOT_PROFILE_DMAX n lim.d 0
  have hbelow : ∀ {u : State}, banksOk u = true → ∀ x, liveFld (setFld u Fld.MOT_PROFILE_DMAX n x) Fld.MOT_PROFILE_AMAX n =
      liveFld u Fld.MOT_PROFILE_AMAX n := fun hu x =>
    liveFld_setFld_below (f := Fld.MOT_PROFILE_DMAX) (g := Fld.MOT_PROFILE_AMAX) hu rfl (by decide) n x
  rw [setProfile, liveFld_setFld hd,
    liveFld_setFld_below (f := Fld.MOT_PROFILE_JMAX) (g := Fld.MOT_PROFILE_AMAX) hd rfl (by decide), hbelow ha,
    liveFld_setFld hv, liveFld_setFld_below (f := Fld.MOT_PROFILE_JMAX) (g := Fld.MOT_PROFILE_DMAX) hd rfl (by decide),
    liveFld_setFld ha]
  exact ⟨rfl, rfl, rfl⟩

/-- MOT.CONFIG with its fields in range: written when the stall detection finds its triggers, else refused (R472). -/
theorem execMotConfig_inRange {s s0 e v : State} {t tag n stall : Nat} {lim : Limits} {ch : Fin 6} (h0 : s0 = begin s t)
    (h : acts s0 ch 7 0x10 tag true false = true) (he : e = entered s0 ch 7 0x10 tag) (hn : n < 8)
    (hvmax : fieldValueOk Fld.MOT_PROFILE_VMAX lim.v = true) (ha : lim.a < 2 ^ 32) (hd : lim.d < 2 ^ 32) (hj : lim.j < 2 ^ 32)
    (hstall : ∀ f ∈ regFields .MOT_STALL, fieldValueOk f (bitsOf stall f.lo f.width) = true) (hv : v = setStall (setProfile e n lim) n stall) :
    (∀ u, claimStall v = some u → exec (.motConfig t ch tag n lim stall) s = .next (answer u ch tag true okMsg)) ∧
      (claimStall v = none → exec (.motConfig t ch tag n lim stall) s = .next (answer e ch tag true (failMsg 6 (8 * 2 ^ 20 + n)))) := by
  have hall : (regFields .MOT_STALL).all (fun f => fieldValueOk f (bitsOf stall f.lo f.width)) = true := List.all_eq_true.2 hstall
  have hrange : ¬ (8 ≤ n ∨ (!fieldValueOk Fld.MOT_PROFILE_VMAX lim.v) = true ∨ 2 ^ 32 ≤ lim.a ∨ 2 ^ 32 ≤ lim.d ∨ 2 ^ 32 ≤ lim.j ∨
      (!(regFields .MOT_STALL).all fun f => fieldValueOk f (bitsOf stall f.lo f.width)) = true) := by
    rw [hvmax, hall]
    simp only [Bool.not_true, Bool.false_eq_true, or_false, false_or, not_or, Nat.not_le]
    exact ⟨hn, ha, hd, hj⟩
  subst h0 he
  have hact : ∀ (x : Option State), claimStall v = x → (if 8 ≤ n ∨ (!fieldValueOk Fld.MOT_PROFILE_VMAX lim.v) = true ∨ 2 ^ 32 ≤ lim.a ∨
      2 ^ 32 ≤ lim.d ∨ 2 ^ 32 ≤ lim.j ∨ (!(regFields .MOT_STALL).all fun f => fieldValueOk f (bitsOf stall f.lo f.width)) = true
      then (entered (begin s t) ch 7 0x10 tag, (⟨4, 0, [], false⟩ : MsgRes))
      else match claimStall (setStall (setProfile (entered (begin s t) ch 7 0x10 tag) n lim) n stall) with
        | some s' => (s', ⟨0, 0, [], false⟩)
        | none => (entered (begin s t) ch 7 0x10 tag, named 6 8 n)) =
      match x with
        | some s' => (s', ⟨0, 0, [], false⟩)
        | none => (entered (begin s t) ch 7 0x10 tag, named 6 8 n) := by
    intro x hx
    rw [if_neg hrange, ← hv, hx]
  exact ⟨fun u hu => congrArg Host.Outcome.next (message_answers h (hact _ hu) rfl),
    fun hu => congrArg Host.Outcome.next (message_answers h (hact _ hu) rfl)⟩

/-- The payload of MOT.STATUS: the axis's eight readouts in the order of their table (R441). -/
def motStatusPayload (e : State) (n : Nat) : List Byte :=
  leBytes 4 (motReadout e .MOT_STATUS n) ++ leBytes 4 (motReadout e .MOT_FAULT n) ++ leBytes 8 (motReadout e .MOT_POS n) ++
    leBytes 8 (motReadout e .MOT_TARGET n) ++ leBytes 4 (motReadout e .MOT_VEL n) ++ leBytes 4 (motReadout e .MOT_LOAD n) ++
    leBytes 8 (motReadout e .MOT_LATCH n) ++ leBytes 4 (motReadout e .MOT_STALLS n)

theorem execMotStatus_answers {s s0 e : State} {t tag n : Nat} {ch : Fin 6} (h0 : s0 = begin s t)
    (h : acts s0 ch 7 0x15 tag false false = true) (he : e = entered s0 ch 7 0x15 tag) (hn : n < 8) :
    exec (.motStatus t ch tag n) s = .next (answer e ch tag false (okMsg (motStatusPayload e n))) := by
  subst h0 he
  exact congrArg Host.Outcome.next (message_answers h (if_neg (Nat.not_le.2 hn)) rfl)

theorem motStatusPayload_length (e : State) (n : Nat) : (motStatusPayload e n).length = 44 := by
  simp only [motStatusPayload, List.length_append, leBytes_len]

/-- MOT_POS stands at offset 8 of the payload. -/
theorem motStatusPayload_pos (e : State) (n : Nat) : leAt (motStatusPayload e n) 8 8 = unsignedOf 48 (countNow e n) := by
  have hhead : (leBytes 4 (motReadout e .MOT_STATUS n) ++ leBytes 4 (motReadout e .MOT_FAULT n)).length = 8 := by
    rw [List.length_append, leBytes_len, leBytes_len]
  have hlt : unsignedOf 48 (countNow e n) < 256 ^ 8 := lt_trans (unsignedOf_lt 48 _) (by decide)
  have hmid : ∀ tail : List Byte, bytesAt (leBytes 8 (motReadout e .MOT_POS n) ++ tail) 0 8 = leBytes 8 (motReadout e .MOT_POS n) := by
    intro tail
    have := bytesAt_append_length (leBytes 8 (motReadout e .MOT_POS n)) tail
    rwa [leBytes_len] at this
  have hright := bytesAt_append_right (leBytes 4 (motReadout e .MOT_STATUS n) ++ leBytes 4 (motReadout e .MOT_FAULT n))
    (leBytes 8 (motReadout e .MOT_POS n) ++ (leBytes 8 (motReadout e .MOT_TARGET n) ++ (leBytes 4 (motReadout e .MOT_VEL n) ++
      (leBytes 4 (motReadout e .MOT_LOAD n) ++ (leBytes 8 (motReadout e .MOT_LATCH n) ++ leBytes 4 (motReadout e .MOT_STALLS n)))))) 0 8
  rw [hhead, hmid] at hright
  have hassoc : motStatusPayload e n = leBytes 4 (motReadout e .MOT_STATUS n) ++ leBytes 4 (motReadout e .MOT_FAULT n) ++
      (leBytes 8 (motReadout e .MOT_POS n) ++ (leBytes 8 (motReadout e .MOT_TARGET n) ++ (leBytes 4 (motReadout e .MOT_VEL n) ++
      (leBytes 4 (motReadout e .MOT_LOAD n) ++ (leBytes 8 (motReadout e .MOT_LATCH n) ++ leBytes 4 (motReadout e .MOT_STALLS n)))))) := by
    simp only [motStatusPayload, List.append_assoc]
  rw [leAt, hassoc, hright, ofLe_leBytes]
  exact Nat.mod_eq_of_lt hlt

/-- Settles O37: every message of the class acts on the state that has taken it, and its checks pass or name the axis. -/
theorem motionMessages : Obligations.MotionMessages := by
  intro s t ch tag hb
  have h0 : begin s t = begin s t := rfl
  refine ⟨?move, ?group, ?home, ?stop, ?config, ?status⟩
  case move =>
    intro n kind target v a d j e h he hn hkind hv ha hd hj htarget
    exact ⟨execMotMove_queued h0 h he ⟨hn, hkind, hv, ha, hd, hj, htarget⟩,
      execMotMove_disabled h0 h he ⟨hn, hkind, hv, ha, hd, hj, htarget⟩⟩
  case group =>
    intro g targets ns e h he hg hns hsome hlen htargets hfree
    exact execMotGroupMove_queued h0 h he hg hns hsome hlen htargets hfree
  case home =>
    intro n kind e h he hn hkind hstall hen hgroup hfault
    exact execMotHome_queued h0 h he hn hkind hstall hen hgroup hfault
  case stop =>
    intro axes kind e h he haxes hkind
    exact execMotStop_answers h0 h he haxes hkind
  case config =>
    intro n lim stall e v h he hn hvmax ha hd hj hstall hv
    have hset : v = setStall (setProfile e n lim) n stall := hv
    have hbe : banksOk e = true := he ▸ banks_entered (banks_begin hb t) ch 7 0x10 tag
    have hn' : n < 8192 := by omega
    have hkeep := fun (g : Field) hg => liveFld_setStall_ne (banks_setProfile hbe n lim) (stall := stall) hn' (g := g) hg
    obtain ⟨hamax, hdmax, hjmax⟩ := setProfile_reads hbe n lim
    obtain ⟨hsome, hnone⟩ := execMotConfig_inRange h0 h he hn hvmax ha hd hj hstall hset
    refine ⟨hsome, hnone, ?_, ?_, ?_⟩ <;> rw [hset]
    · exact (hkeep _ (by decide)).trans (hamax.trans (Nat.mod_eq_of_lt ha))
    · exact (hkeep _ (by decide)).trans (hdmax.trans (Nat.mod_eq_of_lt hd))
    · exact (hkeep _ (by decide)).trans (hjmax.trans (Nat.mod_eq_of_lt hj))
  case status =>
    intro n e h he hn
    exact ⟨_, execMotStatus_answers h0 h he hn, motStatusPayload_length e n, motStatusPayload_pos e n⟩

end Sys2Proof.Laws

/-! ### What the motion inputs do (13_motion R458 to R467) -/

namespace Sys2Proof.Laws

open Sys2Proof Sys2Proof.Machine

/-! #### One axis changed, with its faults -/

/-- From `s` to `u` axis `n` changed, with its motion faults and the notice the host has of them, and nothing else: the motion state
otherwise keeps what other axes hold and the events of the pick. -/
structure AxisOnly (n : Nat) (s u : State) : Prop where
  notice : ∃ m, Notice { s with mot := m } u
  regs : regsKeptBut s u [regKey .MOT_FAULT n 0]
  banks : banksOk u = true
  raised : u.mot.raised = s.mot.raised
  length : u.mot.axes.length = s.mot.axes.length
  others : ∀ j, j ≠ n → axis u j = axis s j

theorem AxisOnly.refl {n : Nat} {s : State} (hb : banksOk s = true) : AxisOnly n s s where
  notice := ⟨s.mot, .refl s⟩
  regs := regsKept_refl _ _
  banks := hb
  raised := rfl
  length := rfl
  others _ _ := rfl

theorem AxisOnly.trans {n : Nat} {a b c : State} (h : AxisOnly n a b) (k : AxisOnly n b c) : AxisOnly n a c where
  notice := by
    obtain ⟨m, l, o, x, rfl⟩ := h.notice
    obtain ⟨m', l', o', x', rfl⟩ := k.notice
    exact ⟨m', l', o', x', rfl⟩
  regs := regsKept_trans h.regs k.regs
  banks := k.banks
  raised := k.raised.trans h.raised
  length := k.length.trans h.length
  others j hj := (k.others j hj).trans (h.others j hj)

theorem AxisOnly.ite {n : Nat} {s u v : State} {c : Prop} [Decidable c] (hu : AxisOnly n s u) (hv : AxisOnly n s v) :
    AxisOnly n s (if c then u else v) := by
  split <;> assumption

theorem axisOnly_setAxis {n : Nat} {s : State} (hb : banksOk s = true) (f : Axis → Axis) : AxisOnly n s (setAxis s n f) where
  notice := ⟨_, .refl _⟩
  regs := regsKept_refl _ _
  banks := hb
  raised := rfl
  length := length_upd _ _ _
  others _ hj := nth_upd_ne hj f _

theorem axisOnly_setGroup {n : Nat} {s : State} (hb : banksOk s = true) (g : Nat) (f : GroupRun → GroupRun) :
    AxisOnly n s (setGroup s g f) where
  notice := ⟨_, .refl _⟩
  regs := regsKept_refl _ _
  banks := hb
  raised := rfl
  length := rfl
  others _ _ := rfl

theorem axisOnly_emit {n : Nat} {s : State} (hb : banksOk s = true) (o : Output) : AxisOnly n s (emit s o) where
  notice := ⟨s.mot, s.live, s.out ++ [o], s.host, rfl⟩
  regs := regsKept_refl _ _
  banks := hb
  raised := rfl
  length := rfl
  others _ _ := rfl

theorem mot_sticky (s : State) (f : Field) (i : Nat) : (sticky s f i).mot = s.mot := by
  obtain ⟨l, o, h, hu⟩ := notice_sticky s f i 0
  rw [hu]

theorem axis_sticky (s : State) (f : Field) (i j : Nat) : axis (sticky s f i) j = axis s j := by rw [axis, mot_sticky, ← axis]

theorem axisOnly_sticky {n : Nat} {s : State} (hb : banksOk s = true) {f : Field} (hf : f.reg = .MOT_FAULT) :
    AxisOnly n s (sticky s f n) where
  notice := ⟨s.mot, notice_sticky s f n 0⟩
  regs := hf ▸ regsKept_sticky (live_wf hb) f n 0
  banks := banks_sticky hb f n 0
  raised := by rw [mot_sticky]
  length := by rw [mot_sticky]
  others j _ := axis_sticky s f n j

theorem axis_setAxis {n : Nat} {s : State} (hn : n < s.mot.axes.length) (f : Axis → Axis) : axis (setAxis s n f) n = f (axis s n) :=
  nth_upd hn f _

/-! #### Stopping an axis -/

theorem axisOnly_rampStop {n : Nat} {s : State} (hb : banksOk s = true) : AxisOnly n s (rampStop s n) := by
  unfold rampStop
  split
  · exact axisOnly_setGroup hb _ _
  · exact axisOnly_setAxis hb _

theorem axis_cutSteps (s : State) (n j : Nat) : axis (cutSteps s n) j = axis s j := by
  unfold cutSteps
  split <;> rfl

/-- A stop at once changes its axis, which keeps its inputs and outputs, moves no more, and is not homed when the cause says so
(R468). -/
structure StoppedNow (n : Nat) (s u : State) (loses : Bool) : Prop where
  only : AxisOnly n s u
  rests : axisMoves (axis u n) = false
  homed : loses = true → (axis u n).homed = false
  flt : (axis u n).flt = (axis s n).flt
  shorts : (axis u n).shorts = (axis s n).shorts
  held : (axis u n).held = (axis s n).held

theorem stopNow_law {n : Nat} {s : State} (hb : banksOk s = true) (hn : n < s.mot.axes.length) (loses : Bool) :
    StoppedNow n s (stopNow s n loses) loses := by
  unfold stopNow
  extract_lets m x fast v u
  have hv : AxisOnly n s v ∧ axis v n = axis s n := by
    change AxisOnly n s (match groupOf s n with | some g => _ | none => _) ∧ axis (match groupOf s n with | some g => _ | none => _) n = _
    split
    · exact ⟨axisOnly_setGroup hb _ _, rfl⟩
    · exact ⟨.refl hb, rfl⟩
  obtain ⟨hvonly, hvaxis⟩ := hv
  have hlen : n < v.mot.axes.length := by rw [hvonly.length]; exact hn
  have hu : AxisOnly n s u := hvonly.trans (axisOnly_setAxis hvonly.banks _)
  have huaxis : axis u n = { axis s n with
      x := x, prev := x, v := 0, a := 0, moving := false, ramp := false, brake := false, hold := false, homing := none
      homed := (axis s n).homed && !(loses || (axisMoves (axis s n) && fast)) } := by
    rw [show axis u n = _ from axis_setAxis hlen _, hvaxis]
  clear_value u
  have hlast : ∀ w, AxisOnly n s w → axis w n = axis u n → StoppedNow n s w loses := fun w hw haxis => by
    refine ⟨hw, ?_, ?_, ?_, ?_, ?_⟩
    · rw [haxis, huaxis]; simp [axisMoves]
    · intro hl; rw [haxis, huaxis, hl]; exact Bool.and_false _
    all_goals rw [haxis, huaxis]
  split
  · have hs := hu.trans (axisOnly_sticky hu.banks (f := Fld.MOT_FAULT_STOPPED_HARD) rfl)
    refine hlast _ (hs.trans ?_) ((axis_cutSteps _ _ _).trans (axis_sticky u _ _ _))
    unfold cutSteps
    exact (axisOnly_emit hs.banks _).ite (.refl hs.banks)
  · exact hlast u hu rfl

/-! #### The event of a motion fault -/

theorem axis_motEvent (s : State) (code n arg j : Nat) : axis (motEvent s code n arg) j = axis s j := by
  unfold motEvent
  split <;> rfl

theorem live_motEvent (s : State) (code n arg : Nat) : (motEvent s code n arg).live = s.live := by
  unfold motEvent
  split <;> rfl

/-- From `s` to `u` a fault of axis `n` was noted: the host has notice of it, an event at most has joined those that wait, and of the
registers outside the sets only MOT_FAULT of the axis has changed. -/
structure MotionNoted (n : Nat) (s u : State) (code arg : Nat) : Prop where
  queued : (code, n) ∉ s.mot.raised → u.host.queued = s.host.queued ++ [⟨now s, code, n, arg⟩]
  hostOnly : HostOnly s { u with mot := s.mot }
  regs : regsKeptBut s u [regKey .MOT_FAULT n 0]

/-- The event of a fault follows what changed on the axis. -/
theorem motionNoted_motEvent {n : Nat} {s v : State} (h : AxisOnly n s v) (code : Nat) {arg : Nat} (harg : arg < 2 ^ 32) :
    MotionNoted n s (motEvent v code n arg) code arg := by
  obtain ⟨m, hnotice⟩ := h.notice
  have hqueued : v.host.queued = s.host.queued := by
    obtain ⟨_, _, _, rfl⟩ := hnotice
    rfl
  have hnow : now v = now s := by
    obtain ⟨_, _, _, rfl⟩ := hnotice
    rfl
  refine ⟨fun hnew => ?_, ?_, ?_⟩
  · have hnot : ¬ v.mot.raised.contains (code, n) = true := by
      rw [h.raised]
      simpa using hnew
    rw [motEvent, if_neg hnot]
    change v.host.queued ++ [⟨now v, code, n, arg % 2 ^ 32⟩] = _
    rw [hqueued, hnow, Nat.mod_eq_of_lt harg]
  · obtain ⟨_, _, _, rfl⟩ := hnotice
    unfold motEvent
    split <;> rfl
  · exact regsKept_trans h.regs (regsKept_of_live (live_motEvent v code n arg) _)

theorem stickyOn_of_live {s u : State} (h : u.live = s.live) (f : Field) (i b : Nat) : stickyOn u f i b = stickyOn s f i b := by
  rw [stickyOn, stickyOn, liveFld, liveFld, h]

/-- A bit of MOT_FAULT set and its event raised. -/
theorem stickyOn_motFault {n : Nat} {s : State} (hb : banksOk s = true) (hn : n < 8) {f : Field} (hf : f.reg = .MOT_FAULT)
    (hw : f.width = 1) (code arg : Nat) : stickyOn (motEvent (sticky s f n) code n arg) f n = true := by
  rw [stickyOn_of_live (live_motEvent (sticky s f n) code n arg)]
  have hkey : ∀ r : Reg, r.ctorIdx ≠ Reg.MOT_FAULT.ctorIdx → regKey f.reg n 0 ≠ regKey r 0 0 := fun r hr =>
    hf ▸ regKey_ne (by omega) (by omega) (Ne.symm hr)
  exact stickyOn_sticky (live_wf hb) (by omega) (hkey _ (by decide)) (hkey _ (by decide))

end Sys2Proof.Laws

/-! ### What each motion input does (13_motion R458 to R467) -/

namespace Sys2Proof.Laws

open Sys2Proof Sys2Proof.Machine

/-! #### Home inputs -/

/-- A home input on which its axis does not home is noted. -/
theorem execHomeInputEdge_noted {s s0 : State} {t : Nat} {n : Fin 8} {level : Bool} (h0 : s0 = begin s t)
    (hn : n.val < s0.mot.axes.length) (hidle : (axis s0 n).homing = none ∨ actsOnInputs s0 = false) :
    exec (.homeInputEdge t n level) s = .next (setAxis s0 n fun m => { m with home := level }) := by
  subst h0
  refine congrArg Host.Outcome.next ?_
  have haxis := axis_setAxis hn fun m => { m with home := level }
  have hact : actsOnInputs (setAxis (begin s t) n fun m => { m with home := level }) = actsOnInputs (begin s t) := rfl
  rw [haxis, hact]
  rcases hidle with hnone | hoff
  · rw [hnone]
  · rw [hoff]
    split <;> rfl

/-- The edge of a home input that a homing sequence has noted: with eight others within the debounce time it aborts the homing, else
it is the last of its edges (R459, R460). -/
theorem homeEdge_law {s : State} {n : Nat} {active : Bool} {h : Homing} {edges : List Nat} (hhome : (axis s n).homing = some h)
    (hstage : h.stage = 0)
    (hedges : edges = h.edges.filter (fun x => decide (now s ≤ x + 1000 * fld s Fld.MOT_HOME_HOME_DEBOUNCE n)) ++ [now s]) :
    homeEdge s n active = if 8 < edges.length then rampStop (abortHoming s n Fld.MOT_FAULT_HOME_UNSTABLE) n
      else setHoming s n fun h => { h with edges := edges, edge := if active then some (now s, countNow s n) else none } := by
  unfold homeEdge
  rw [hhome, hedges]
  exact if_neg (not_not.2 hstage)

/-- A homing that is aborted leaves the other axes, with its event once in the pick (R460). -/
theorem abortHoming_stops {n : Nat} {s : State} (hb : banksOk s = true) (hn : n < 8) {f : Field} (hf : f.reg = .MOT_FAULT)
    (hw : f.width = 1) {u : State} (hu : u = rampStop (abortHoming s n f) n) :
    stickyOn u f n = true ∧ (∀ j, j ≠ n → axis u j = axis s j) ∧
      ((0x0A06, n) ∉ s.mot.raised → ∃ a, u.host.queued = s.host.queued ++ [⟨now s, 0x0A06, n, a⟩]) := by
  subst hu
  have hset := axisOnly_sticky (n := n) hb hf
  have hbits : bitsOf (bankReg (sticky s f n).live .MOT_FAULT n 0) 0 4 < 2 ^ 32 :=
    lt_of_lt_of_le (Nat.mod_lt _ (by decide)) (by decide : 2 ^ 4 ≤ 2 ^ 32)
  have hnoted := motionNoted_motEvent hset 0x0A06 hbits
  have hbanks : banksOk (abortHoming s n f) = true := (abortHoming_keeps (Keeps.refl s)).banks hb
  have hramp : ∀ w : State, (rampStop w n).live = w.live ∧ (rampStop w n).host = w.host := by
    intro w
    unfold rampStop
    split <;> exact ⟨rfl, rfl⟩
  obtain ⟨hlive, hhost⟩ := hramp (abortHoming s n f)
  refine ⟨(stickyOn_of_live hlive _ _ _).trans (stickyOn_motFault hb hn hf hw _ _), fun j hj => ?_, fun hnew =>
    ⟨_, (congrArg HostIf.queued hhost).trans (hnoted.queued hnew)⟩⟩
  exact ((axisOnly_rampStop hbanks).others j hj).trans ((axis_motEvent _ _ _ _ _).trans (hset.others j hj))

/-- A home input on which its axis homes. -/
theorem execHomeInputEdge_edge {s s0 v : State} {t : Nat} {n : Fin 8} {level : Bool} {h : Homing} (h0 : s0 = begin s t)
    (hn : n.val < s0.mot.axes.length) (hhome : (axis s0 n).homing = some h) (hkind : h.kind ≤ 1) (hact : actsOnInputs s0 = true)
    (hv : v = setAxis s0 n fun m => { m with home := level }) :
    exec (.homeInputEdge t n level) s = .next (homeEdge v n (level != (fld s0 Fld.MOT_CFG_HOME_POL n == 1))) := by
  have haxis : axis v n = { axis s0 n with home := level } := hv ▸ axis_setAxis hn fun m => { m with home := level }
  have hactive : homeActive v n = (level != (fld s0 Fld.MOT_CFG_HOME_POL n == 1)) := by
    rw [homeActive, haxis, hv]
    rfl
  have hgo : (actsOnInputs v && decide (h.kind ≤ 1)) = true := by
    rw [show actsOnInputs v = actsOnInputs s0 by rw [hv]; rfl, hact, decide_eq_true hkind]
    rfl
  have hvhome : (axis v n).homing = some h := by rw [haxis]; exact hhome
  rw [← hactive]
  subst h0
  refine congrArg Host.Outcome.next ?_
  rw [← hv, hvhome]
  exact if_pos hgo

/-- The active level of a home input that has stood for its debounce time (R459). -/
theorem execHomeDebounceExpire_law {s s0 : State} {t : Nat} {n : Fin 8} {h : Homing} {at_ : Nat} {count : Int} (h0 : s0 = begin s t)
    (hhome : (axis s0 n).homing = some h) (hedge : h.edge = some (at_, count)) (hact : actsOnInputs s0 = true) (hstage : h.stage = 0)
    (hstood : at_ + 1000 * fld s0 Fld.MOT_HOME_HOME_DEBOUNCE n ≤ now s0) :
    exec (.homeDebounceExpire t n) s = .next (if h.kind = 1 then setHoming s0 n fun h => { h with stage := 1, mark := count }
      else latchHome s0 n count) := by
  have hgo : ¬ ((!actsOnInputs s0) = true ∨ h.stage ≠ 0 ∨ now s0 < at_ + 1000 * fld s0 Fld.MOT_HOME_HOME_DEBOUNCE n) := by
    rw [hact, hstage]
    simpa using hstood
  subst h0
  refine congrArg Host.Outcome.next ?_
  rw [hhome]
  dsimp only
  rw [hedge]
  exact if_neg hgo

/-- Home latched at a count: the latch register and the axis's homing, and nothing else (R459). -/
structure Latched (n : Nat) (s u : State) (count : Int) : Prop where
  others : ∀ j, j ≠ n → axis u j = axis s j
  only : { u with mot := s.mot, live := s.live } = s
  latch : liveFld u Fld.MOT_LATCH_HOME_LATCH n = unsignedOf 48 count
  regs : regsKept s u [regKey .MOT_LATCH n 0]
  axis : axis u n = { Machine.axis s n with homing := (Machine.axis s n).homing.map fun h => { h with latch := some count, stage := 2 } }

theorem latchHome_law {n : Nat} {s : State} (hb : banksOk s = true) (hn : n < s.mot.axes.length) (count : Int) :
    Latched n s (latchHome s n count) count where
  others _ hj := nth_upd_ne hj _ _
  only := rfl
  latch := (liveFld_setFld hb Fld.MOT_LATCH_HOME_LATCH n _ 0).trans (Nat.mod_eq_of_lt (unsignedOf_lt 48 _))
  regs := regsKept_setFld (live_wf hb) Fld.MOT_LATCH_HOME_LATCH n _ 0
  axis := axis_setAxis (s := setFld s Fld.MOT_LATCH_HOME_LATCH n (unsignedOf 48 count)) hn _

/-! #### The index edge -/

/-- What an index edge does to one axis: home is latched when it searches for an index there (R458). -/
def indexAxis (src : Nat) (s : State) (n : Nat) : State :=
  match (axis s n).homing with
  | some h => if h.stage = 1 ∧ fld s Fld.MOT_HOME_INDEX_SRC n = src then latchHome s n (countNow s n) else s
  | none => s

theorem homeIndex_eq (s : State) (src : Nat) :
    homeIndex s src = if (!actsOnInputs s) = true then s else (List.range 8).foldl (indexAxis src) s := rfl

/-- Only the axes of a list, their latches and nothing else changed. -/
structure AxesLatched (ns : List Nat) (s u : State) : Prop where
  only : { u with mot := s.mot, live := s.live } = s
  others : ∀ j, j ∉ ns → axis u j = axis s j
  regs : regsKept s u (ns.map fun n => regKey .MOT_LATCH n 0)
  length : u.mot.axes.length = s.mot.axes.length
  banks : banksOk u = true

theorem AxesLatched.trans {ns ms : List Nat} {a b c : State} (h : AxesLatched ns a b) (k : AxesLatched ms b c) :
    AxesLatched (ns ++ ms) a c where
  only := by
    have hk := k.only
    have hh := h.only
    rw [← hk] at hh
    exact hh
  others j hj := by
    rw [List.mem_append, not_or] at hj
    exact (k.others j hj.2).trans (h.others j hj.1)
  regs := by
    rw [List.map_append]
    exact regsKept_trans (regsKept_mono h.regs (List.subset_append_left _ _)) (regsKept_mono k.regs (List.subset_append_right _ _))
  length := k.length.trans h.length
  banks := k.banks

theorem AxesLatched.refl {s : State} (hb : banksOk s = true) (ns : List Nat) : AxesLatched ns s s :=
  ⟨rfl, fun _ _ => rfl, regsKept_refl _ _, rfl, hb⟩

theorem indexAxis_latched {s : State} (hb : banksOk s = true) (src n : Nat) : AxesLatched [n] s (indexAxis src s n) := by
  unfold indexAxis
  split
  · split
    · refine ⟨rfl, fun j hj => nth_upd_ne (by simpa using hj) _ _, regsKept_setFld (live_wf hb) Fld.MOT_LATCH_HOME_LATCH n _ 0, length_upd _ _ _, ?_⟩
      exact banks_setFld hb Fld.MOT_LATCH_HOME_LATCH n _ 0
    · exact .refl hb _
  · exact .refl hb _

theorem indexAxes_latched {s : State} (hb : banksOk s = true) (src : Nat) (ns : List Nat) :
    AxesLatched ns s (ns.foldl (indexAxis src) s) := by
  induction ns generalizing s with
  | nil => exact .refl hb _
  | cons n ns ih =>
    have h1 := indexAxis_latched hb src n
    exact h1.trans (ih h1.banks)

/-- Axis `n` after the index edge has reached every axis: as the edge leaves the axis itself. -/
theorem indexAxes_axis {s : State} (hb : banksOk s = true) (src : Nat) {n : Nat} (hn : n < 8) :
    ∃ u v, AxesLatched (List.range n) s u ∧ v = indexAxis src u n ∧
      AxesLatched ((List.range 8).drop (n + 1)) v ((List.range 8).foldl (indexAxis src) s) := by
  have hsplit : List.range 8 = List.range n ++ n :: (List.range 8).drop (n + 1) := by
    interval_cases n <;> rfl
  have hu := indexAxes_latched hb src (List.range n)
  have hv := indexAxis_latched hu.banks src n
  refine ⟨_, _, hu, rfl, ?_⟩
  conv => arg 3; rw [hsplit]
  rw [List.foldl_append, List.foldl_cons]
  exact indexAxes_latched hv.banks src _

end Sys2Proof.Laws

/-! ### The index edge, the limits, the driver fault and the shorted outputs (13_motion R458 to R467) -/

namespace Sys2Proof.Laws

open Sys2Proof Sys2Proof.Machine

theorem latchKey_notMem {n : Nat} (hn : n < 8) {ms : List Nat} (hms : ∀ m ∈ ms, m < 8 ∧ m ≠ n) :
    regKey .MOT_LATCH n 0 ∉ ms.map fun m => regKey .MOT_LATCH m 0 := by
  intro hmem
  obtain ⟨m, hm, hkey⟩ := List.mem_map.1 hmem
  obtain ⟨hlt, hne⟩ := hms m hm
  exact hne (regKey_inj (by omega) (by omega) (by omega) (by omega) hkey).2.1

/-- An index edge on a GPIO: axis `n` latches its count when it searches for an index there, and is as before otherwise (R458). -/
theorem execGpioIndexEdge_law {s s0 : State} {t n : Nat} {g : Fin 16} (h0 : s0 = begin s t) (hb : banksOk s0 = true) (hn : n < 8)
    (hlen : n < s0.mot.axes.length) :
    ∃ u, exec (.gpioIndexEdge t g) s = .next u ∧ { u with mot := s0.mot, live := s0.live } = s0 ∧
      (∀ h, (axis s0 n).homing = some h → h.stage = 1 → fld s0 Fld.MOT_HOME_INDEX_SRC n = 16 + g → actsOnInputs s0 = true →
        liveFld u Fld.MOT_LATCH_HOME_LATCH n = unsignedOf 48 (countNow s0 n) ∧
        axis u n = { axis s0 n with homing := some { h with latch := some (countNow s0 n), stage := 2 } }) ∧
      ((actsOnInputs s0 = false ∨ fld s0 Fld.MOT_HOME_INDEX_SRC n ≠ 16 + g ∨ ∀ h, (axis s0 n).homing = some h → h.stage ≠ 1) →
        axis u n = axis s0 n ∧ bankLookup u.live (regKey .MOT_LATCH n 0) = bankLookup s0.live (regKey .MOT_LATCH n 0)) := by
  have hexec : exec (.gpioIndexEdge t g) s = .next (homeIndex s0 (16 + g)) := by
    subst h0
    rfl
  rw [homeIndex_eq] at hexec
  by_cases hact : actsOnInputs s0 = true
  case neg =>
    rw [if_pos (by simpa using hact)] at hexec
    exact ⟨s0, hexec, rfl, fun _ _ _ _ hon => absurd hon hact, fun _ => ⟨rfl, rfl⟩⟩
  rw [if_neg (by simpa using hact)] at hexec
  obtain ⟨u, v, hu, hv, hw⟩ := indexAxes_axis hb (16 + g) hn
  have hmid := indexAxis_latched hu.banks (16 + g) n
  rw [← hv] at hmid
  generalize hlast : (List.range 8).foldl (indexAxis (16 + g)) s0 = w at hw hexec
  have haxis : axis u n = axis s0 n := hu.others n (by simp)
  have htime : u.time = s0.time := by rw [← hu.only]
  have hpick : u.pickEff = s0.pickEff := by rw [← hu.only]
  have hcount : countNow u n = countNow s0 n := by simp only [countNow, xNow, haxis, now, htime]
  have hfld : fld u Fld.MOT_HOME_INDEX_SRC n = fld s0 Fld.MOT_HOME_INDEX_SRC n := by
    change bankGet u.pickEff _ _ = bankGet s0.pickEff _ _
    rw [hpick]
  have hbefore : regKey .MOT_LATCH n 0 ∉ (List.range n).map fun m => regKey .MOT_LATCH m 0 :=
    latchKey_notMem hn fun m hm => by rw [List.mem_range] at hm; omega
  have hdrop : ∀ m ∈ (List.range 8).drop (n + 1), m < 8 ∧ m ≠ n := by
    intro m hm
    obtain ⟨i, hi, rfl⟩ := List.mem_iff_getElem.1 hm
    rw [List.length_drop, List.length_range] at hi
    rw [List.getElem_drop, List.getElem_range]
    omega
  have hafter := latchKey_notMem hn hdrop
  have hwaxis : axis w n = axis v n := hw.others n fun hm => (hdrop n hm).2 rfl
  have hkept : bankLookup w.live (regKey .MOT_LATCH n 0) = bankLookup v.live (regKey .MOT_LATCH n 0) := hw.regs _ hafter
  refine ⟨w, hexec, ((hu.trans hmid).trans hw).only, fun h hh hstage hsrc _ => ?_, fun hnot => ?_⟩
  · have hvl : v = latchHome u n (countNow u n) := by
      rw [hv, indexAxis, haxis, hh]
      exact if_pos ⟨hstage, hfld.trans hsrc⟩
    have hlatch := latchHome_law hu.banks (by rw [hu.length]; exact hlen) (countNow u n)
    rw [← hvl, hcount] at hlatch
    refine ⟨?_, ?_⟩
    · exact (liveFld_of_kept hw.regs Fld.MOT_LATCH_HOME_LATCH n 0 hafter).trans hlatch.latch
    · rw [hwaxis, hlatch.axis, haxis, hh]
      rfl
  · have hvu : v = u := by
      rw [hv, indexAxis, haxis, hfld]
      split
      · next h hh =>
        refine if_neg fun hyes => ?_
        rcases hnot with hoff | hsrc | hstage
        · exact absurd (hoff.symm.trans hact) (by decide)
        · exact hsrc hyes.2
        · exact hstage h hh hyes.1
      · rfl
    exact ⟨hwaxis.trans (hvu ▸ haxis), hkept.trans (hvu ▸ hu.regs _ hbefore)⟩

/-! #### The limits -/

theorem limitActive_congr {u v : State} {n : Nat} (hfld : u.pickEff = v.pickEff) (pos : Bool)
    (haxis : (if pos = true then (axis u n).limP else (axis u n).limN) = if pos = true then (axis v n).limP else (axis v n).limN) :
    limitActive u n pos = limitActive v n pos := by
  have hf : fld u Fld.MOT_CFG_LIM_NC n = fld v Fld.MOT_CFG_LIM_NC n := by
    change bankGet u.pickEff _ _ = bankGet v.pickEff _ _
    rw [hfld]
  rw [limitActive, limitActive, hf, haxis]

/-- The causes without one of them. -/
def lessCause (c lo : Nat) : Nat := if c.testBit lo then c - 2 ^ lo else c

theorem testBit_lessCause (c lo b : Nat) : (lessCause c lo).testBit b = (c.testBit b && !decide (lo = b)) := by
  have hsub : lessCause c lo = c - (c &&& 2 ^ lo) := by
    rw [lessCause, Nat.and_two_pow]
    cases c.testBit lo <;> simp
  rw [hsub, testBit_sub_and, Nat.testBit_two_pow]

theorem axis_causeGone {s : State} {n : Nat} (hn : n < s.mot.axes.length) (lo : Nat) :
    axis (causeGone s n lo) n = { axis s n with cause := lessCause (axis s n).cause lo } := axis_setAxis hn _

/-- A limit that ceases clears its cause and that of a limit on the wrong side, and nothing else (R464, R465). -/
theorem limitCeases_law {v : State} {n : Nat} (hn : n < v.mot.axes.length) (lo : Nat) {u : State}
    (hu : u = causeGone (causeGone v n lo) n 6) :
    (axis u n).cause.testBit lo = false ∧ (axis u n).cause.testBit 6 = false ∧
      (∀ b, b ≠ lo → b ≠ 6 → (axis u n).cause.testBit b = (axis v n).cause.testBit b) ∧
      { axis u n with cause := (axis v n).cause } = axis v n := by
  have haxis : axis u n = { axis v n with cause := lessCause (lessCause (axis v n).cause lo) 6 } := by
    have hlen : n < (causeGone v n lo).mot.axes.length := (length_upd _ _ _).symm ▸ hn
    rw [hu, axis_causeGone hlen, axis_causeGone hn]
  rw [haxis]
  simp only [testBit_lessCause]
  refine ⟨by simp, by simp, fun b hlo h6 => by simp [Ne.symm hlo, Ne.symm h6], trivial⟩

/-- A motion fault whose cause stands, with its event, after what stopped its axis. -/
theorem causeFault_law {n : Nat} {s v u : State} (h : AxisOnly n s v) (hn : n < 8) (hlen : n < s.mot.axes.length) {f : Field}
    (hf : f.reg = .MOT_FAULT) (hw : f.width = 1) {code arg : Nat} (harg : arg < 2 ^ 32) (hu : u = motEvent (causeFault v n f) code n arg) :
    stickyOn u f n = true ∧ (axis u n).cause.testBit f.lo = true ∧ axisMoves (axis u n) = axisMoves (axis v n) ∧
      MotionNoted n s u code arg := by
  have hcause := axisOnly_setAxis (n := n) h.banks fun m => { m with cause := m.cause ||| 2 ^ f.lo }
  have haxis : axis u n = { axis v n with cause := (axis v n).cause ||| 2 ^ f.lo } := by
    rw [hu, axis_motEvent, causeFault, axis_sticky]
    exact axis_setAxis (by rw [h.length]; exact hlen) _
  refine ⟨?_, ?_, ?_, ?_⟩
  · rw [hu]
    exact stickyOn_motFault hcause.banks hn hf hw code arg
  · rw [haxis, Nat.testBit_or, Nat.testBit_two_pow_self, Bool.or_true]
  · rw [haxis]
    rfl
  · rw [hu]
    exact motionNoted_motEvent (h.trans (hcause.trans (axisOnly_sticky hcause.banks hf))) code harg

/-- The cause, the event and its argument of a limit that becomes active: the limit an axis moves toward, or one on the wrong side or
both at once (R464, R465). -/
inductive LimitCause (s : State) (n : Nat) (pos : Bool) : Field → Nat → Nat → Prop where
  | toward (h : axisDir (axis s n) = if pos then 1 else -1) (hother : limitActive s n (!pos) = false) :
      LimitCause s n pos (if pos then Fld.MOT_FAULT_LIMIT_POS else Fld.MOT_FAULT_LIMIT_NEG) 0x0A04 (if pos then 1 else 2)
  | wrong (h : axisDir (axis s n) ≠ (if pos then 1 else -1) ∨ limitActive s n (!pos) = true) :
      LimitCause s n pos Fld.MOT_FAULT_LIM_WRONG 0x0A09
        ((if limitActive s n true then 1 else 0) + (if limitActive s n false then 2 else 0))

/-- An active limit of an axis that does not home: the axis stops, on its ramp only for the limit ahead with LIM_STOP, and the cause
stands with its event (R464, R465). -/
theorem limitHit_law {v : State} {n : Nat} {pos : Bool} (hhome : (axis v n).homing = none) (hon : limitActive v n pos = true)
    {f : Field} {code arg : Nat} (hcause : LimitCause v n pos f code arg) :
    limitHit v n pos = motEvent (causeFault (if code = 0x0A04 ∧ fld v Fld.MOT_CFG_LIM_STOP n = 1 then rampStop v n
      else stopNow v n false) n f) code n arg := by
  have htoward : (if pos = true then axisDir (axis v n) == 1 else axisDir (axis v n) == -1) =
      decide (axisDir (axis v n) = if pos then 1 else -1) := by
    cases pos <;> rfl
  have hboth : (limitActive v n true && limitActive v n false) = limitActive v n (!pos) := by
    cases pos
    · rw [hon, Bool.and_true]; rfl
    · rw [hon, Bool.true_and]; rfl
  unfold limitHit
  simp only [hhome, htoward, hboth]
  cases hcause with
  | toward h hother =>
    rw [if_pos ⟨decide_eq_true h, by rw [hother]; rfl⟩]
    simp only [true_and]
  | wrong h =>
    rw [if_neg (fun hx => h.elim (fun hd => hd (of_decide_eq_true hx.1)) fun hd => by
      have := hx.2; rw [hd] at this; exact absurd this (by decide)), if_neg (by simp)]
    simp only [bit]
    cases limitActive v n true <;> cases limitActive v n false <;> rfl

end Sys2Proof.Laws

/-! ### The motion inputs, settled (13_motion R458 to R467) -/

namespace Sys2Proof.Laws

open Sys2Proof Sys2Proof.Machine

/-- From `s` to `u` a fault stopped axis `n` at once and took its HOMED, with its event (R466, R467). -/
structure HardFault (n : Nat) (s u : State) (f : Field) (code arg : Nat) : Prop where
  set : stickyOn u f n = true
  rests : axisMoves (axis u n) = false
  homed : (axis u n).homed = false
  others : ∀ j, j ≠ n → axis u j = axis s j
  noted : MotionNoted n s u code arg

/-- The fault, with what the axis had of its inputs and outputs. -/
theorem hardFault_law {n : Nat} {s v u : State} (h : AxisOnly n s v) (hn : n < 8) (hlen : n < s.mot.axes.length) {f : Field}
    (hf : f.reg = .MOT_FAULT) (hw : f.width = 1) {code arg : Nat} (harg : arg < 2 ^ 32)
    (hu : u = motEvent (sticky (stopNow v n true) f n) code n arg) :
    HardFault n s u f code arg ∧ (axis u n).flt = (axis v n).flt ∧ (axis u n).shorts = (axis v n).shorts ∧
      (axis u n).held = (axis v n).held := by
  have hstop := stopNow_law h.banks (by rw [h.length]; exact hlen) true
  have hset := hstop.only.trans (axisOnly_sticky hstop.only.banks hf)
  have haxis : ∀ j, axis u j = axis (stopNow v n true) j := fun j => by rw [hu, axis_motEvent, axis_sticky]
  have hothers : ∀ j, j ≠ n → axis u j = axis s j := fun j hj =>
    (haxis j).trans ((hstop.only.others j hj).trans (h.others j hj))
  have hnoted : MotionNoted n s u code arg := hu ▸ motionNoted_motEvent (h.trans hset) code harg
  refine ⟨⟨?_, ?_, ?_, hothers, hnoted⟩, ?_⟩
  · rw [hu]
    exact stickyOn_motFault hstop.only.banks hn hf hw code arg
  all_goals rw [haxis]
  · exact hstop.rests
  · exact hstop.homed rfl
  · exact ⟨hstop.flt, hstop.shorts, hstop.held⟩

/-- An output reported short: it stands among the shorted and the held outputs of its axis. -/
def shortNoted (s : State) (n o : Nat) : State :=
  setAxis s n fun m => { m with
    shorts := if m.shorts.contains o then m.shorts else m.shorts ++ [o]
    held := (if liveFld s Fld.MOT_FAULT_OUT_SHORT n = 1 then (axis s n).held else []) ++ [o] }

theorem shortNoted_mem {s : State} {n : Nat} (hlen : n < s.mot.axes.length) (o : Nat) :
    o ∈ (axis (shortNoted s n o) n).shorts ∧ o ∈ (axis (shortNoted s n o) n).held := by
  rw [shortNoted, axis_setAxis hlen]
  refine ⟨?_, List.mem_append_right _ List.mem_cons_self⟩
  dsimp only
  split
  · next h => simpa using h
  · exact List.mem_append_right _ List.mem_cons_self

theorem execOutShortAxis_law {s s0 : State} {t : Nat} {n : Fin 8} {o : Fin 3} (h0 : s0 = begin s t) :
    exec (.outShortAxis t n o) s = .next (if (!actsOnInputs s0) = true then shortNoted s0 n o
      else motEvent (sticky (stopNow (shortNoted s0 n o) n true) Fld.MOT_FAULT_OUT_SHORT n) 0x0A07 n o) := by
  subst h0
  rfl

/-- A driver fault input, with FLT_EN and in a unit that acts on its inputs or without (R466). -/
theorem execDriverFault_law {s s0 v : State} {t : Nat} {n : Fin 8} {level : Bool} (h0 : s0 = begin s t)
    (hv : v = setAxis s0 n fun m => { m with flt := level }) :
    exec (.driverFault t n level) s = .next (if level = true ∨ fld s0 Fld.MOT_CFG_FLT_EN n = 0 ∨ (!actsOnInputs s0) = true then v
      else motEvent (sticky (stopNow v n true) Fld.MOT_FAULT_DRIVER n) 0x0A05 n 0) := by
  subst h0 hv
  rfl

theorem homing_causeGone (s : State) (n lo : Nat) : (axis (causeGone s n lo) n).homing = (axis s n).homing :=
  (nth_upd_or s.mot.axes n n _ {}).elim (congrArg Axis.homing) (congrArg Axis.homing)

/-- A limit input: nothing more when the limit stays as it was or the unit does not act on its inputs; a limit that becomes active
stops the axis, one that ceases clears its causes (R463 to R465). -/
theorem execLimitInputChange_law {s s0 v : State} {t : Nat} {n : Fin 8} {pos level : Bool} (h0 : s0 = begin s t)
    (hv : v = setAxis s0 n fun m => if pos then { m with limP := level } else { m with limN := level }) :
    (limitActive s0 n pos = limitActive v n pos ∨ limitActive v n pos = true ∧ actsOnInputs s0 = false →
      exec (.limitInputChange t n pos level) s = .next v) ∧
    (limitActive s0 n pos = true → limitActive v n pos = false → (axis v n).homing = none →
      exec (.limitInputChange t n pos level) s = .next (causeGone (causeGone v n (if pos then 4 else 5)) n 6)) ∧
    (limitActive s0 n pos = false → limitActive v n pos = true → actsOnInputs s0 = true →
      exec (.limitInputChange t n pos level) s = .next (limitHit v n pos)) := by
  have hexec : exec (.limitInputChange t n pos level) s = .next (if limitActive s0 n pos = limitActive v n pos then v
      else if limitActive v n pos = true then (if actsOnInputs v = true then limitHit v n pos else v)
      else match (axis (causeGone (causeGone v n (if pos then 4 else 5)) n 6) n).homing with
        | some h => if (actsOnInputs (causeGone (causeGone v n (if pos then 4 else 5)) n 6) && h.kind == 3 &&
              pos == decide (homeDir (causeGone (causeGone v n (if pos then 4 else 5)) n 6) n = 1)) = true
            then homeEdge (causeGone (causeGone v n (if pos then 4 else 5)) n 6) n false
            else causeGone (causeGone v n (if pos then 4 else 5)) n 6
        | none => causeGone (causeGone v n (if pos then 4 else 5)) n 6) := by
    subst h0 hv
    rfl
  have hact : actsOnInputs v = actsOnInputs s0 := by rw [hv]; rfl
  rw [hact] at hexec
  refine ⟨fun hsame => ?_, fun hwas his hhome => ?_, fun hwas his hon => ?_⟩
  · rw [hexec]
    refine congrArg Host.Outcome.next ?_
    by_cases heq : limitActive s0 n pos = limitActive v n pos
    · exact if_pos heq
    · obtain ⟨hon, hoff⟩ := hsame.resolve_left heq
      rw [if_neg heq, if_pos hon, hoff]
      rfl
  · have hkeep : (axis (causeGone (causeGone v n (if pos then 4 else 5)) n 6) n).homing = none :=
      (homing_causeGone _ _ _).trans ((homing_causeGone _ _ _).trans hhome)
    rw [hexec, hwas, his, if_neg (by decide), if_neg (by decide), hkeep]
  · rw [hexec, hwas, his, hon, if_neg (by decide), if_pos rfl, if_pos rfl]

/-- Settles O36: an input is noted on its axis; where the unit acts on it, each fault is one stop, one bit and one event. -/
theorem axisInputs : Obligations.AxisInputs := by
  intro s t n hb s0 hlen
  have h0 : s0 = begin s t := rfl
  have hb0 : banksOk s0 = true := banks_begin hb t
  clear_value s0
  have hn : n.val < 8 := n.isLt
  refine ⟨?noted, ?edge, ?expire, ?index, ?limit, ?release, ?barred, ?driver, ?short⟩
  case noted =>
    intro level hidle
    exact ⟨_, execHomeInputEdge_noted h0 hlen hidle, axis_setAxis hlen _, fun j hj => nth_upd_ne hj _ _, rfl⟩
  case edge =>
    intro level h edges hhome hkind hstage hact hedges
    have hexec := execHomeInputEdge_edge (level := level) (v := setAxis s0 n fun m => { m with home := level }) h0 hlen hhome hkind hact rfl
    have hset := axisOnly_setAxis (n := n) hb0 fun m => { m with home := level }
    have haxis := axis_setAxis hlen fun m => { m with home := level }
    generalize hv : (setAxis s0 n fun m => { m with home := level }) = v at hexec hset haxis
    have hvlen : n.val < v.mot.axes.length := by rw [hset.length]; exact hlen
    have hrest : { v with mot := s0.mot } = s0 := by rw [← hv]; rfl
    have hraised := hset.raised
    have hcount : countNow v n = countNow s0 n := by simp only [countNow, xNow, haxis]; rw [← hv]; rfl
    have hsame : now v = now s0 ∧ v.host = s0.host ∧ fld v Fld.MOT_HOME_HOME_DEBOUNCE n = fld s0 Fld.MOT_HOME_HOME_DEBOUNCE n := by
      rw [← hv]
      exact ⟨rfl, rfl, rfl⟩
    obtain ⟨hnow, hhost, hfld⟩ := hsame
    have hvhome : (axis v n).homing = some h := by rw [haxis]; exact hhome
    have hlaw := homeEdge_law (active := level != (fld s0 Fld.MOT_CFG_HOME_POL n == 1)) (edges := edges) hvhome hstage
      (by rw [hnow, hfld]; exact hedges)
    rw [hnow, hcount] at hlaw
    refine ⟨_, hexec, fun j hj => ?_, fun hfew => ?_, fun hmany => ?_⟩
    · refine Eq.trans ?_ (hset.others j hj)
      rw [hlaw]
      split
      · exact (abortHoming_stops hset.banks hn rfl rfl rfl).2.1 j hj
      · exact nth_upd_ne hj _ _
    · rw [hlaw, if_neg (Nat.not_lt.2 hfew)]
      refine ⟨hrest, ?_⟩
      rw [setHoming, axis_setAxis hvlen, haxis, hhome]
      rfl
    · rw [hlaw, if_pos hmany]
      obtain ⟨hon, -, hevent⟩ := abortHoming_stops (f := Fld.MOT_FAULT_HOME_UNSTABLE) hset.banks hn rfl rfl rfl
      refine ⟨hon, fun hnew => ?_⟩
      rw [hraised, hhost, hnow] at hevent
      exact hevent hnew
  case expire =>
    intro h at_ count hhome hedge hact hstage hstood
    have hexec := execHomeDebounceExpire_law h0 hhome hedge hact hstage hstood
    by_cases hkind : h.kind = 1
    · rw [if_pos hkind] at hexec
      refine ⟨_, hexec, fun j hj => nth_upd_ne hj _ _, rfl, fun hx => absurd hkind hx, fun _ => ⟨rfl, ?_⟩⟩
      rw [setHoming, axis_setAxis hlen, hhome]
      rfl
    · rw [if_neg hkind] at hexec
      have hlatch := latchHome_law hb0 hlen count
      refine ⟨_, hexec, hlatch.others, hlatch.only, fun _ => ⟨hlatch.latch, hlatch.regs, ?_⟩, fun hx => absurd hx hkind⟩
      rw [hlatch.axis, hhome]
      rfl
  case index =>
    exact fun g => execGpioIndexEdge_law h0 hb0 hn hlen
  case limit =>
    intro pos level v hv
    obtain ⟨hsame, hceases, hacts⟩ := execLimitInputChange_law (t := t) (pos := pos) (level := level) h0 hv
    have hset : AxisOnly n s0 v := hv ▸ axisOnly_setAxis hb0 _
    have haxis := hv ▸ axis_setAxis hlen fun m => if pos then { m with limP := level } else { m with limN := level }
    have hvlen : n.val < v.mot.axes.length := by rw [hset.length]; exact hlen
    have hkeeps : (axis v n).homing = (axis s0 n).homing ∧ (axis v n).cause = (axis s0 n).cause ∧
        axisDir (axis v n) = axisDir (axis s0 n) := by
      rw [haxis]
      cases pos <;> exact ⟨rfl, rfl, rfl⟩
    obtain ⟨hhoming, hvcause, hdir⟩ := hkeeps
    have hother : limitActive v n (!pos) = limitActive s0 n (!pos) := by
      refine limitActive_congr (by rw [hv]; rfl) _ ?_
      rw [haxis]
      cases pos <;> rfl
    have hraised := hset.raised
    refine ⟨hsame, fun hwas his hnone => ?_, fun hwas his hact hnone f code arg hcase => ?_⟩
    · have hrest : { v with mot := s0.mot } = s0 := by rw [hv]; rfl
      obtain ⟨hlo, h6, hothers, hall⟩ := limitCeases_law hvlen (if pos then 4 else 5) rfl
      rw [hvcause] at hothers hall
      exact ⟨_, hceases hwas his (hhoming.trans hnone), hrest, hlo, h6, hothers, hall⟩
    · have hcause : LimitCause v n pos f code arg := by
        rcases hcase with ⟨rfl, rfl, rfl, htoward, hoff⟩ | ⟨rfl, rfl, rfl, hwrong⟩
        · exact .toward (hdir.trans htoward) (hother.trans hoff)
        · exact .wrong (by rw [hdir, hother]; exact hwrong)
      have hf : f.reg = .MOT_FAULT ∧ f.width = 1 ∧ arg < 2 ^ 32 := by
        cases hcause with
        | toward => cases pos <;> exact ⟨rfl, rfl, by decide⟩
        | wrong => exact ⟨rfl, rfl, by split_ifs <;> decide⟩
      obtain ⟨hreg, hwidth, harg⟩ := hf
      have hexec := hacts hwas his hact
      rw [limitHit_law (hhoming.trans hnone) his hcause] at hexec
      have hstop : AxisOnly n s0 (if code = 0x0A04 ∧ fld v Fld.MOT_CFG_LIM_STOP n = 1 then rampStop v n else stopNow v n false) :=
        hset.trans ((axisOnly_rampStop hset.banks).ite (stopNow_law hset.banks hvlen false).only)
      obtain ⟨hon, hstands, hmoves, hnoted⟩ := causeFault_law hstop hn hlen hreg hwidth harg rfl
      refine ⟨_, hexec, hon, hstands, fun hnow => hmoves.trans ?_, hnoted.queued, hnoted.hostOnly, hnoted.regs⟩
      have hfld : fld v Fld.MOT_CFG_LIM_STOP n = fld s0 Fld.MOT_CFG_LIM_STOP n := by rw [hv]; rfl
      have hnot : ¬ (code = 0x0A04 ∧ fld v Fld.MOT_CFG_LIM_STOP n = 1) := by
        rw [hfld]
        rintro ⟨hcode, hramp⟩
        exact hnow.elim (fun hx => by omega) fun hx => hx hramp
      rw [if_neg hnot]
      exact (stopNow_law hset.banks hvlen false).rests
  case release =>
    exact (execDriverFault_law h0 rfl).trans (congrArg Host.Outcome.next (if_pos (.inl rfl)))
  case barred =>
    intro hoff
    refine (execDriverFault_law h0 rfl).trans (congrArg Host.Outcome.next (if_pos (.inr (hoff.imp id fun hx => ?_))))
    rw [hx]
    rfl
  case driver =>
    intro hen hact
    have hexec := execDriverFault_law (t := t) (n := n) (level := false) h0 rfl
    rw [if_neg (by simp [hen, hact])] at hexec
    have hset := axisOnly_setAxis (n := n) hb0 fun m => { m with flt := false }
    have hflt := congrArg Axis.flt (axis_setAxis hlen fun m => { m with flt := false })
    obtain ⟨hfault, hkeeps, -, -⟩ := hardFault_law hset hn hlen (f := Fld.MOT_FAULT_DRIVER) (arg := 0) rfl rfl (by decide) rfl
    exact ⟨_, hexec, hfault.set, hkeeps.trans hflt, hfault.rests, hfault.homed, hfault.others, hfault.noted.queued,
      hfault.noted.hostOnly, hfault.noted.regs⟩
  case short =>
    intro o
    have hexec := execOutShortAxis_law (t := t) (n := n) (o := o) h0
    obtain ⟨hshort, hheld⟩ := shortNoted_mem hlen o.val
    have hset : AxisOnly n s0 (shortNoted s0 n o) := axisOnly_setAxis hb0 _
    by_cases hact : actsOnInputs s0 = true
    · rw [if_neg (by simp [hact])] at hexec
      have harg : o.val < 2 ^ 32 := lt_trans o.isLt (by decide)
      obtain ⟨hfault, -, hshorts, hhelds⟩ := hardFault_law hset hn hlen (f := Fld.MOT_FAULT_OUT_SHORT) rfl rfl harg rfl
      exact ⟨_, hexec, hshorts ▸ hshort, hhelds ▸ hheld, hfault.others, fun hoff => absurd (hoff.symm.trans hact) (by decide),
        fun _ => ⟨hfault.set, hfault.rests, hfault.homed, hfault.noted.queued, hfault.noted.hostOnly, hfault.noted.regs⟩⟩
    · rw [if_pos (by simpa using hact)] at hexec
      exact ⟨_, hexec, hshort, hheld, hset.others, fun _ => rfl, fun hon => absurd hon hact⟩

end Sys2Proof.Laws

/-! ### The messages of class IMG and DIAG.PLACEMENT (12_commands_and_sets R430, R433, R441) -/

namespace Sys2Proof.Laws

open Sys2Proof Sys2Proof.Machine

/-! #### IMG.CREATE, IMG.INFO and IMG.LIST -/

/-- The state with an image entered in the directory, and the next handle to try (R427). -/
def imageEntered (e : State) (m : Image) : State :=
  { e with store := { e.store with images := e.store.images ++ [m], nextHandle := m.handle % 4095 + 1 } }

/-- An image with sizes in range, a new name and room is entered in the directory under a free handle (R427, R430). -/
theorem actCreate_entered {e : State} {name : List Byte} {format lps width height : Nat} (hwidth : 0 < width) (hheight : 0 < height)
    (hlps : 1 ≤ lps) (hmax : lps ≤ 4096) (hformat : format ≤ 1) (hname : ∀ m ∈ e.store.images, m.name ≠ padName name)
    (hstrip : lps * lineBytes format width ≤ 262144) (hroom : e.store.images.length < 4095) :
    ∃ h, actCreate name format lps width height e =
      (imageEntered e ⟨h, padName name, format, lps, width, height⟩, okMsg (leBytes 4 h)) := by
  have hline : lineBytes format width ≤ 262144 := le_trans (Nat.le_mul_of_pos_left _ hlps) hstrip
  have hnew : ¬ e.store.images.any (fun m => m.name == padName name) = true := by simpa using hname
  have hrange : ¬ (width = 0 ∨ height = 0 ∨ lps < 1 ∨ 4096 < lps ∨ 1 < format ∨
      e.store.images.any (fun m => m.name == padName name) = true ∨ 262144 < lineBytes format width ∨
      262144 < lps * lineBytes format width) := by
    simp only [hnew, not_or]
    exact ⟨by omega, by omega, by omega, by omega, by omega, Bool.false_ne_true, by omega, by omega⟩
  exact ⟨_, (if_neg hrange).trans (if_neg (Nat.not_le.2 hroom))⟩

theorem insertNat_eq (n : Nat) (l : List Nat) : insertNat n l = l.orderedInsert (· ≤ ·) n := by
  induction l with
  | nil => rfl
  | cons x xs ih => rw [insertNat, List.orderedInsert_cons, ih]

/-- The handles of IMG.LIST are those of the images, sorted. -/
theorem foldr_insertNat (l : List Nat) : l.foldr insertNat [] = l.insertionSort (· ≤ ·) :=
  congrArg (fun f => l.foldr f []) (funext fun n => funext fun xs => insertNat_eq n xs)

/-! #### IMG.DELETE -/

/-- Abandoning the moves of an image leaves the directory's images (R130). -/
theorem abandonMoves_images (ms : List StripMove) (s : State) : (ms.foldl abandonMove s).store.images = s.store.images := by
  induction ms generalizing s with
  | nil => rfl
  | cons m ms ih =>
    obtain ⟨d, hstore⟩ := abandonMove_store s m
    rw [List.foldl_cons, ih, hstore]

/-- The state without an image, its moves abandoned and its strips gone (R433). -/
def imageDeleted (e : State) (handle : Nat) : State :=
  let s := (e.store.moves.filter fun m => m.handle == handle).foldl abandonMove e
  { s with store := { s.store with
    images := s.store.images.filter (·.handle != handle), strips := s.store.strips.filter (·.handle != handle) } }

/-- An image that no job uses leaves the directory with its strips (R133, R433). -/
theorem actDelete_deletes {e : State} {handle : Nat} {m : Image} (hm : findImage e handle = some m) (hidle : jobUses e handle = false) :
    actDelete handle e = (imageDeleted e handle, okMsg) := by
  unfold actDelete
  rw [hm]
  exact if_neg (by rw [hidle]; decide)

theorem imageDeleted_images (e : State) (handle : Nat) :
    (imageDeleted e handle).store.images = e.store.images.filter fun m => m.handle != handle :=
  congrArg (List.filter _) (abandonMoves_images _ e)

theorem imageDeleted_strips (e : State) (handle : Nat) : stripsOf (imageDeleted e handle) handle = [] := by
  simp [stripsOf, imageDeleted]

/-- An image that the directory holds no more is not found. -/
theorem findImage_filtered {u : State} {images : List Image} {handle : Nat}
    (h : u.store.images = images.filter fun m => m.handle != handle) : findImage u handle = none := by
  rw [findImage, h]
  refine List.find?_eq_none.2 fun m hm => ?_
  simpa using (List.mem_filter.1 hm).2

/-! #### DIAG.PLACEMENT -/

/-- What DIAG.PLACEMENT tells of one grain of a strip: where it lies and the check value of its bytes. -/
def grainEntry (s : State) (x : Strip) (p : Nat × Nat) : List Byte :=
  leBytes 1 (grainRow s p.2).chan ++ leBytes 1 (grainRow s p.2).bank ++ leBytes 2 0 ++ leBytes 4 (grainRow s p.2).row ++
    leBytes 4 (crc32c ((x.bytes.drop (p.1 * grainBytes s)).take (grainBytes s)))

/-- The payload of DIAG.PLACEMENT: the first grains of a strip, as many as the channel's message holds (R441). -/
def placementPayload (s : State) (x : Strip) (limit : Nat) : List Byte :=
  (((List.range x.grains.length).zip x.grains).take limit).flatMap (grainEntry s x)

theorem placementPayload_length (s : State) (x : Strip) (limit : Nat) :
    (placementPayload s x limit).length = 12 * Nat.min x.grains.length limit := by
  have hentry : ∀ p, (grainEntry s x p).length = 12 := fun p => by
    simp only [grainEntry, List.length_append, leBytes_len]
  rw [placementPayload, List.length_flatMap, List.map_congr_left fun p _ => hentry p]
  simp only [List.map_const', List.sum_replicate, List.length_take, List.length_zip, List.length_range, Nat.min_self, smul_eq_mul,
    Nat.mul_comm _ 12, Nat.min_comm limit]

/-- Settles O23: each message acts on the state that has taken it, through the directory's own lemmas. -/
theorem imageMessages : Obligations.ImageMessages := by
  intro s t ch tag
  refine ⟨?create, ?info, ?list, ?delete, ?placement⟩
  case create =>
    intro name format lps width height e h he hwidth hheight hlps hmax hformat hname hstrip hroom
    obtain ⟨handle, hact⟩ := actCreate_entered hwidth hheight hlps hmax hformat hname hstrip hroom
    refine ⟨imageEntered e ⟨handle, padName name, format, lps, width, height⟩, handle, ?_, rfl, rfl⟩
    subst he
    exact congrArg Host.Outcome.next (message_answers h hact rfl)
  case info =>
    intro handle m e h he hm
    subst he
    refine congrArg Host.Outcome.next (message_answers h (r := okMsg _) ?_ rfl)
    rw [hm]
    rfl
  case list =>
    intro first e h he
    refine ⟨((e.store.images.map (·.handle)).filter fun h => decide (first ≤ h)).insertionSort (· ≤ ·), ?_,
      List.pairwise_insertionSort _ _, List.perm_insertionSort _ _⟩
    rw [← foldr_insertNat]
    subst he
    exact congrArg Host.Outcome.next (message_answers h rfl rfl)
  case delete =>
    intro handle m e h he hm hidle
    have hact := actDelete_deletes hm hidle
    have himages := imageDeleted_images e handle
    refine ⟨imageDeleted e handle, ?_, findImage_filtered himages, himages, imageDeleted_strips e handle⟩
    subst he
    exact congrArg Host.Outcome.next (message_answers h hact rfl)
  case placement =>
    intro handle strip x e h he hx
    refine ⟨placementPayload e x (if ch.val < 4 then 20 else 18), ?_, placementPayload_length e x _⟩
    subst he
    refine congrArg Host.Outcome.next (message_answers h ?_ rfl)
    rw [hx]
    rfl

end Sys2Proof.Laws

/-! ### Setting up, closing and losing a secure session (14_security R487 to R492) -/

namespace Sys2Proof.Laws

open Sys2Proof Sys2Proof.Machine

/-! #### A message of class SEC -/

/-- A message of class SEC that is taken is answered with its action's result, after its audit entry (R508). -/
theorem secMessage_answers {s u : State} {k op tag sub : Nat} {c e : Bool} {act : State → State × MsgRes} {r : MsgRes}
    (h : secActs s k op tag c e sub = true) (hact : act (secEntered s k op tag) = (u, r)) (hr : r.later = false) :
    secMessage s k op tag c e sub act = answer (audit u (0x0C80 + op) k r.result) k tag c r := by
  rw [secMessage_acts h, hact, if_neg (by rw [hr]; decide)]

/-- The same of a command, from the state that has taken the message. -/
theorem secExec_answers {i : Instr} {s s0 e u : State} {k op tag sub code : Nat} {c x : Bool} {act : State → State × MsgRes} {r : MsgRes}
    (hexec : exec i s = .next (secMessage s0 k op tag c x sub act)) (h : secActs s0 k op tag c x sub = true)
    (he : e = secEntered s0 k op tag) (hcode : 0x0C80 + op = code) (hact : act e = (u, r)) (hr : r.later = false) :
    exec i s = .next (answer (audit u code k r.result) k tag c r) := by
  rw [hexec, secMessage_answers h (he ▸ hact) hr, hcode]

/-! #### The session of a channel -/

theorem secSession_setSession {s : State} {k : Nat} (hlen : k - 4 < s.sec.sessions.length) (f : SecSession → SecSession) :
    secSession (setSession s k f) k = f (secSession s k) := nth_upd hlen f _

theorem LogOnly.secSession {s u : State} (h : LogOnly s u) (k : Nat) : secSession u k = Machine.secSession s k := by
  obtain ⟨_, _, _, _, _, rfl⟩ := h
  rfl

theorem LogOnly.sessions {s u : State} (h : LogOnly s u) : u.sec.sessions = s.sec.sessions := by
  obtain ⟨_, _, _, _, _, rfl⟩ := h
  rfl

/-! #### Ending a session (R490) -/

theorem secSession_dropLoad (s : State) (k : Nat) : secSession (dropLoad s) k = secSession s k := by
  unfold dropLoad
  split <;> rfl

theorem queued_dropLoad (s : State) : (dropLoad s).host.queued = s.host.queued := by
  unfold dropLoad
  split <;> rfl

theorem LogOnly.queued_mono {s u : State} (h : LogOnly s u) {x : Event} (hx : x ∈ s.host.queued) : x ∈ u.host.queued := by
  obtain ⟨_, _, _, _, _, rfl⟩ := h
  exact List.mem_append_left _ hx

/-- The keys of a session that ends are wiped. -/
theorem secSession_sessionWiped {s : State} {k : Nat} (hlen : k - 4 < s.sec.sessions.length) (cause : Nat) :
    secSession (sessionWiped s k cause) k = {} := by
  obtain ⟨v, hv, h⟩ := sessionWiped_eq s k cause
  have hvlen : k - 4 < v.sec.sessions.length := by rw [hv.sessions]; exact hlen
  have hwiped : secSession (setSession (setMbx v k fun m => { m with secure := false }) k fun _ => {}) k = {} :=
    secSession_setSession (s := setMbx v k fun m => { m with secure := false }) hvlen _
  rcases h with h | h
  · rw [h, hwiped]
  · rw [h, secSession_dropLoad, hwiped]

/-- The session that ends is wiped, its channel is no longer secure, and its event waits. -/
theorem sessionWiped_law {s : State} {k : Nat} (hlen : k - 4 < s.sec.sessions.length) (hchan : k < s.host.chans.length) (cause : Nat) :
    secSession (sessionWiped s k cause) k = {} ∧ (mbx (sessionWiped s k cause) k).secure = false ∧
      ⟨now s, 0x0C03, chanBit k, cause % 2 ^ 32⟩ ∈ (sessionWiped s k cause).host.queued := by
  obtain ⟨v, hv, h⟩ := sessionWiped_eq s k cause
  have hevent : ⟨now s, 0x0C03, chanBit k, cause % 2 ^ 32⟩ ∈ v.host.queued :=
    hv.queued_mono (List.mem_append_right _ List.mem_cons_self)
  have hmbx : (mbx (sessionWiped s k cause) k).secure = false := by
    rw [mbx, chans_sessionWiped, nth_upd hchan]
  refine ⟨secSession_sessionWiped hlen cause, hmbx, ?_⟩
  rcases h with h | h
  · rw [h]
    exact hevent
  · rw [h, queued_dropLoad]
    exact hevent

theorem mbx_moduleReset {s : State} {k : Nat} (hchan : k < s.host.chans.length) : mbx (moduleReset s k) k =
    { mbx s k with inbox := [], pending := false, out := none, queue := [], flight := [] } := by
  rw [mbx, (moduleReset_logOnly s k).chans]
  exact mbx_setMbx hchan _

/-- An open session that ends is wiped with its event, and but at SESSION_CLOSE its channel is emptied (R392, R490). -/
theorem endSecure_law {s : State} {k : Nat} (hk : 4 ≤ k) (hlen : k - 4 < s.sec.sessions.length) (hchan : k < s.host.chans.length)
    (hopen : (secSession s k).stage = 2) (cause : Nat) :
    secSession (endSecure s k cause) k = {} ∧ (mbx (endSecure s k cause) k).secure = false ∧
      ⟨now s, 0x0C03, chanBit k, cause % 2 ^ 32⟩ ∈ (endSecure s k cause).host.queued ∧
      (cause ≠ 1 → (mbx (endSecure s k cause) k).flight = [] ∧ (mbx (endSecure s k cause) k).out = none ∧
        (mbx (endSecure s k cause) k).queue = [] ∧ (mbx (endSecure s k cause) k).pending = false) := by
  obtain ⟨hwiped, hplain, hevent⟩ := sessionWiped_law hlen hchan cause
  have hlenw : k < (sessionWiped s k cause).host.chans.length := by rw [chans_sessionWiped, length_upd]; exact hchan
  rw [endSecure_open hk hopen]
  by_cases hcause : cause = 1
  · rw [if_pos hcause]
    exact ⟨hwiped, hplain, hevent, fun h => absurd hcause h⟩
  · rw [if_neg hcause, mbx_moduleReset hlenw]
    have hlog := moduleReset_logOnly (sessionWiped s k cause) k
    exact ⟨(hlog.secSession k).trans hwiped, hplain, hlog.queued_mono hevent, fun _ => ⟨rfl, rfl, rfl, rfl⟩⟩

/-! #### SEC.INFO and CERT_GET (R488, R492) -/

/-- What SEC.INFO tells of a firmware slot. -/
def slotEntry (e : State) (i : Nat) : List Byte :=
  leBytes 4 (nth e.sec.slots i {}).version ++ leBytes 2 (nth e.sec.slots i {}).rollback ++ leBytes 1 (bit (slotValid e i)) ++ [0]

theorem execSecInfo_answers {s s0 e : State} {t tag : Nat} {ch : Fin 6} (h0 : s0 = begin s t)
    (h : secActs s0 ch 0x10 tag false true 0 = true) (he : e = secEntered s0 ch 0x10 tag) :
    exec (.secInfo t ch tag) s = .next (answer (audit e 0x0C90 ch 0) ch tag false (okMsg (
      leBytes 4 (secStatus e) ++ leBytes 4 (bankReg e.live .SEC_FUSE 0 0) ++ leBytes 16 Config.serial ++
      leBytes 16 Config.deviceKeyId ++ slotEntry e 0 ++ slotEntry e 1 ++ leBytes 16 Config.roleOid))) := by
  subst h0
  exact secExec_answers (r := okMsg _) rfl h he rfl rfl rfl

theorem execCertGet_answers {s s0 e : State} {t tag offset : Nat} {ch : Fin 6} (h0 : s0 = begin s t)
    (h : secActs s0 ch 0x11 tag false true 0 = true) (he : e = secEntered s0 ch 0x11 tag) (hstage : (secSession e ch).stage ≠ 3)
    {piece : List Byte} (hpiece : piece = (Config.deviceChain.drop offset).take 220) :
    exec (.certGet t ch tag offset) s = .next (answer (audit e 0x0C91 ch 0) ch tag false
      (okMsg (leBytes 2 Config.deviceChain.length ++ leBytes 2 piece.length ++ piece))) := by
  subst h0 hpiece
  exact secExec_answers (r := okMsg _) rfl h he rfl (if_neg hstage) rfl

/-! #### SESSION_OPEN (R488, R491) -/

/-- The module's own key of a set-up that takes a number of the random source. -/
def ownKey (e : State) : List Byte := bytesAt (Config.ephemeral (Config.random e.freeCtr)) 0 49

/-- The module's own nonce of a set-up. -/
def ownNonce (e : State) : List Byte := leBytes 32 (Config.random (e.freeCtr + 1))

/-- The transcript T1 of a set-up (R488). -/
def transcript1 (e : State) (k : Nat) (key nonce : List Byte) : Nat :=
  Config.sha384 ([0x4A, 0x50, 0x43, 0x38, 0x32, 0x30, 0x30, 0x20, 0x53, 0x45, 0x53, 0x53, 0x49, 0x4F, 0x4E] ++
    leBytes 1 (chanBit k) ++ key ++ nonce ++ ownKey e ++ ownNonce e)

/-- The session of a set-up begun (R488). -/
def setupSession (e : State) (k : Nat) (key nonce : List Byte) : SecSession :=
  { stage := 1, openedAt := now e, t1 := transcript1 e k key nonce, secret := Config.random e.freeCtr, hostKey := key,
    salt := nonce ++ ownNonce e }

/-- The state after a set-up has begun. -/
def setupBegun (e : State) (k : Nat) (key nonce : List Byte) : State :=
  setSession { e with freeCtr := e.freeCtr + 2 } k fun _ => setupSession e k key nonce

theorem actSessionOpen_begins {e : State} {k : Nat} {key nonce : List Byte} (hkey : key.length = 49) (hnonce : nonce.length = 32)
    (hfree : (secSession e k).stage ≠ 2) (hlock : lockedOut e = false) (hscopes : e.sec.scopes = 0) (hrng : e.sec.rngFailed = false) :
    actSessionOpen k key nonce e = (setupBegun e k key nonce, okMsg (ownKey e ++ ownNonce e ++
      bytesAt (Config.deviceSign (leBytes 48 (transcript1 e k key nonce))) 0 96)) := by
  have hlens : ¬ (key.length ≠ 49 ∨ nonce.length ≠ 32) := by simp [hkey, hnonce]
  have hstate : ¬ ((secSession e k).stage = 2 ∨ lockedOut e = true ∨ (!keyUsable e) = true) := by
    simp [hfree, hlock, keyUsable, hscopes]
  exact (if_neg hlens).trans ((if_neg hstate).trans (if_neg (by rw [hrng]; decide)))

theorem bytesAt_length (bs : List Byte) (off n : Nat) : (bytesAt bs off n).length = n := by
  rw [bytesAt, List.length_map, List.length_range]

/-- SESSION_OPEN with a key and a nonce of other lengths, or while no set-up may begin (R488, R491, R505). -/
theorem execSessionOpen_refused {s s0 e : State} {t tag : Nat} {key nonce : List Byte} {ch : Fin 6} (h0 : s0 = begin s t)
    (h : secActs s0 ch 0x12 tag false true 0 = true) (he : e = secEntered s0 ch 0x12 tag) :
    ((key.length ≠ 49 ∨ nonce.length ≠ 32) → exec (.sessionOpen t ch tag key nonce) s =
      .next (answer (audit e 0x0C92 ch 3) ch tag false (failMsg 3))) ∧
    (key.length = 49 → nonce.length = 32 → ((secSession e ch).stage = 2 ∨ lockedOut e = true ∨ e.sec.scopes ≠ 0) →
      exec (.sessionOpen t ch tag key nonce) s = .next (answer (audit e 0x0C92 ch 5) ch tag false (failMsg 5))) ∧
    (key.length = 49 → nonce.length = 32 → (secSession e ch).stage ≠ 2 → lockedOut e = false → e.sec.scopes = 0 →
      e.sec.rngFailed = true →
      exec (.sessionOpen t ch tag key nonce) s = .next (answer (audit e 0x0C92 ch 14) ch tag false (failMsg 14))) := by
  have hlens : key.length = 49 → nonce.length = 32 → ¬ (key.length ≠ 49 ∨ nonce.length ≠ 32) := fun hk hn => by simp [hk, hn]
  have hexec : exec (.sessionOpen t ch tag key nonce) s = .next (secMessage s0 ch 0x12 tag false true 0 (actSessionOpen ch key nonce)) :=
    h0 ▸ rfl
  refine ⟨fun hbad => ?_, fun hk hn hbars => ?_, fun hk hn hfree hlock hscopes hrng => ?_⟩
  · exact secExec_answers (r := failMsg 3) hexec h he rfl (if_pos hbad) rfl
  · have hstate : (secSession e ch).stage = 2 ∨ lockedOut e = true ∨ (!keyUsable e) = true := by simpa [keyUsable] using hbars
    exact secExec_answers (r := failMsg 5) hexec h he rfl ((if_neg (hlens hk hn)).trans (if_pos hstate)) rfl
  · have hstate : ¬ ((secSession e ch).stage = 2 ∨ lockedOut e = true ∨ (!keyUsable e) = true) := by
      simp [hfree, hlock, keyUsable, hscopes]
    exact secExec_answers (r := failMsg 14) hexec h he rfl ((if_neg (hlens hk hn)).trans ((if_neg hstate).trans (if_pos hrng))) rfl

theorem execSessionOpen_begins {s s0 e : State} {t tag : Nat} {key nonce : List Byte} {ch : Fin 6} (h0 : s0 = begin s t)
    (h : secActs s0 ch 0x12 tag false true 0 = true) (he : e = secEntered s0 ch 0x12 tag)
    (hkey : key.length = 49) (hnonce : nonce.length = 32) (hfree : (secSession e ch).stage ≠ 2) (hlock : lockedOut e = false)
    (hscopes : e.sec.scopes = 0) (hrng : e.sec.rngFailed = false) :
    exec (.sessionOpen t ch tag key nonce) s = .next (answer (audit (setupBegun e ch key nonce) 0x0C92 ch 0) ch tag false
      (okMsg (ownKey e ++ ownNonce e ++ bytesAt (Config.deviceSign (leBytes 48 (transcript1 e ch key nonce))) 0 96))) := by
  subst h0
  exact secExec_answers (r := okMsg _) rfl h he rfl (actSessionOpen_begins hkey hnonce hfree hlock hscopes hrng) rfl

/-! #### CERT_PUT (R484, R488) -/

/-- A piece of the host's chain that follows the bytes that the session holds of it, or not. -/
theorem actCertPut_setup {e : State} {k total offset : Nat} {bytes held : List Byte} (hstage : (secSession e k).stage = 1)
    (hheld : held = if offset = 0 then [] else (secSession e k).chain) :
    actCertPut k total offset bytes e = if total = 0 ∨ 4096 < total ∨ 220 < bytes.length ∨ offset ≠ held.length ∨
        total < offset + bytes.length ∨ (offset ≠ 0 ∧ (secSession e k).total ≠ total) then (e, failMsg 4)
      else (setSession e k fun x => { x with chain := held ++ bytes, total := total }, okMsg) := by
  subst hheld
  exact if_neg (not_not.2 hstage)

theorem execCertPut_law {s s0 e : State} {t tag total offset : Nat} {bytes : List Byte} {ch : Fin 6} (h0 : s0 = begin s t)
    (h : secActs s0 ch 0x13 tag false true 0 = true) (he : e = secEntered s0 ch 0x13 tag) :
    ((secSession e ch).stage ≠ 1 → exec (.certPut t ch tag total offset bytes) s =
      .next (answer (audit e 0x0C93 ch 5) ch tag false (failMsg 5))) ∧
    ((secSession e ch).stage = 1 → offset = 0 → 0 < total → total ≤ 4096 → bytes.length ≤ 220 → bytes.length ≤ total →
      exec (.certPut t ch tag total offset bytes) s = .next (answer (audit
        (setSession e ch fun x => { x with chain := bytes, total := total }) 0x0C93 ch 0) ch tag false okMsg)) ∧
    ((secSession e ch).stage = 1 → 0 < offset → offset = (secSession e ch).chain.length → total = (secSession e ch).total →
      total ≤ 4096 → bytes.length ≤ 220 → offset + bytes.length ≤ total →
      exec (.certPut t ch tag total offset bytes) s = .next (answer (audit (setSession e ch fun x =>
        { x with chain := (secSession e ch).chain ++ bytes, total := total }) 0x0C93 ch 0) ch tag false okMsg)) ∧
    ((secSession e ch).stage = 1 → 0 < offset → offset ≠ (secSession e ch).chain.length →
      exec (.certPut t ch tag total offset bytes) s = .next (answer (audit e 0x0C93 ch 4) ch tag false (failMsg 4))) := by
  have hexec : exec (.certPut t ch tag total offset bytes) s =
      .next (secMessage s0 ch 0x13 tag false true 0 (actCertPut ch total offset bytes)) := h0 ▸ rfl
  refine ⟨fun hstage => ?_, fun hstage hfirst hpos hmax hlen hfits => ?_, fun hstage hlater hnext htotal hmax hlen hfits => ?_,
    fun hstage hlater hgap => ?_⟩
  · exact secExec_answers (r := failMsg 5) hexec h he rfl (if_pos hstage) rfl
  · have hact := actCertPut_setup (total := total) (bytes := bytes) hstage (if_pos hfirst).symm
    rw [if_neg (by simp only [List.length_nil]; omega)] at hact
    exact secExec_answers (r := okMsg) hexec h he rfl hact rfl
  · have hact := actCertPut_setup (total := total) (bytes := bytes) hstage (if_neg (Nat.pos_iff_ne_zero.1 hlater)).symm
    rw [if_neg (by omega)] at hact
    exact secExec_answers (r := okMsg) hexec h he rfl hact rfl
  · have hact := actCertPut_setup (total := total) (bytes := bytes) hstage (if_neg (Nat.pos_iff_ne_zero.1 hlater)).symm
    rw [if_pos (.inr (.inr (.inr (.inl hgap))))] at hact
    exact secExec_answers (r := failMsg 4) hexec h he rfl hact rfl

/-! #### SESSION_FINISH (R488, R489) -/

/-- The state after a set-up that fails: reported, and at its end. -/
def finishFailed (e : State) (k bad : Nat) : State :=
  setSession (raise (sticky e Fld.SEC_STATUS_AUTH_FAIL) 0x0C04 (chanBit k) bad) k fun _ => { stage := 3 }

/-- The role of a session that opens: none with no owner root, else the chain's (R486). -/
def finishRole (e : State) (x : SecSession) : Nat := if e.sec.owner.isNone then 0 else Config.certRole x.chain

/-- The state after a session has opened (R489). -/
def finishOpened (e : State) (k : Nat) : State :=
  let x := secSession e k
  raise (setMbx (setSession e k fun _ =>
    { stage := 2, last := now e, role := finishRole e x, subject := Config.sha384 (Config.certLeaf x.chain) % 2 ^ 128,
      unowned := e.sec.owner.isNone, keys := sessionKeys x }) k
    fun m => { m with secure := true, sent := 0, plain := m.queue.length + m.flight.length }) 0x0C02 (chanBit k) (finishRole e x)

theorem actSessionFinish_eq (k : Nat) (sig : List Byte) (e : State) : actSessionFinish k sig e =
    if (secSession e k).stage ≠ 1 ∨ (secSession e k).chain.isEmpty = true ∨ (secSession e k).chain.length ≠ (secSession e k).total then
      (e, failMsg 5)
    else if finishFails e (secSession e k) sig ≠ 0 then (finishFailed e k (finishFails e (secSession e k) sig), failMsg 7)
    else (finishOpened e k, okMsg (leBytes 4 (finishRole e (secSession e k)))) := rfl

/-- What a set-up that fails leaves. -/
theorem finishFailed_law {e : State} (hb : banksOk e = true) {k : Nat} (hlen : k - 4 < e.sec.sessions.length) (bad : Nat) :
    secSession (finishFailed e k bad) k = { stage := 3 } ∧ stickyOn (finishFailed e k bad) Fld.SEC_STATUS_AUTH_FAIL = true ∧
      (finishFailed e k bad).host.queued = e.host.queued ++ [⟨now e, 0x0C04, chanBit k, bad % 2 ^ 32⟩] := by
  have hlog : LogOnly e (raise (sticky e Fld.SEC_STATUS_AUTH_FAIL) 0x0C04 (chanBit k) bad) := logOnly_report e _ _ _ _ _ _
  obtain ⟨hon, hqueued, -, -⟩ : Reported e (raise (sticky e Fld.SEC_STATUS_AUTH_FAIL) 0x0C04 (chanBit k) bad)
      Fld.SEC_STATUS_AUTH_FAIL 0 0 ⟨now e, 0x0C04, chanBit k, bad % 2 ^ 32⟩ :=
    reported (live_wf hb) (by decide) (by decide) (by decide) (by decide) rfl
  exact ⟨secSession_setSession (by rw [hlog.sessions]; exact hlen) _, hon, hqueued⟩

theorem secSession_finishOpened {e : State} {k : Nat} (hlen : k - 4 < e.sec.sessions.length) :
    secSession (finishOpened e k) k =
      { stage := 2, last := now e, role := finishRole e (secSession e k),
        subject := Config.sha384 (Config.certLeaf (secSession e k).chain) % 2 ^ 128, unowned := e.sec.owner.isNone,
        keys := sessionKeys (secSession e k) } :=
  secSession_setSession hlen _

theorem mbx_finishOpened {e : State} {k : Nat} (hchan : k < e.host.chans.length) : (mbx (finishOpened e k) k).secure = true :=
  congrArg Mbx.secure (nth_upd (l := e.host.chans) hchan _ {})

/-- SESSION_FINISH without a whole chain is refused; with one it opens the session or ends the set-up. -/
theorem execSessionFinish_law {s s0 e : State} {t tag : Nat} {sig : List Byte} {ch : Fin 6} (h0 : s0 = begin s t)
    (h : secActs s0 ch 0x14 tag false true 0 = true) (he : e = secEntered s0 ch 0x14 tag) {x : SecSession} (hx : x = secSession e ch) :
    ((x.stage ≠ 1 ∨ x.chain = [] ∨ x.chain.length ≠ x.total) →
      exec (.sessionFinish t ch tag sig) s = .next (answer (audit e 0x0C94 ch 5) ch tag false (failMsg 5))) ∧
    (x.stage = 1 → x.chain ≠ [] → x.chain.length = x.total →
      exec (.sessionFinish t ch tag sig) s = .next (if finishFails e x sig = 0 then
        answer (audit (finishOpened e ch) 0x0C94 ch 0) ch tag false (okMsg (leBytes 4 (finishRole e x)))
        else answer (audit (finishFailed e ch (finishFails e x sig)) 0x0C94 ch 7) ch tag false (failMsg 7))) := by
  have hact := actSessionFinish_eq ch sig e
  rw [← hx] at hact
  subst h0
  refine ⟨fun hbars => ?_, fun hstage hchain hwhole => ?_⟩
  · rw [if_pos (by simpa using hbars)] at hact
    exact secExec_answers (r := failMsg 5) rfl h he rfl hact rfl
  · rw [if_neg (by simp [hstage, hchain, hwhole])] at hact
    by_cases hfails : finishFails e x sig = 0
    · rw [if_neg (not_not.2 hfails)] at hact
      rw [if_pos hfails]
      exact secExec_answers (r := okMsg _) rfl h he rfl hact rfl
    · rw [if_pos hfails] at hact
      rw [if_neg hfails]
      exact secExec_answers (r := failMsg 7) rfl h he rfl hact rfl

/-! #### SESSION_CLOSE and the time limits (R488, R490) -/

theorem execSessionClose_answers {s s0 e : State} {t tag : Nat} {ch : Fin 6} (h0 : s0 = begin s t)
    (h : secActs s0 ch 0x15 tag false true 0 = true) (he : e = secEntered s0 ch 0x15 tag) :
    exec (.sessionClose t ch tag) s = .next (answer (audit (endSecure e ch 1) 0x0C95 ch 0) ch tag false okMsg) := by
  subst h0
  exact secExec_answers (r := okMsg) rfl h he rfl rfl rfl

/-- A set-up past its 10 s is at its end; any other session stays (R488). -/
theorem lapseSetup_law (s : State) (k : Nat) :
    (serving s = true → (secSession s k).stage = 1 → (secSession s k).openedAt + 10000000000 ≤ now s →
      lapseSetup s k = audit (setSession s k fun _ => { stage := 3 }) 0x0C92 k 9) ∧
    ((serving s = false ∨ (secSession s k).stage ≠ 1 ∨ now s < (secSession s k).openedAt + 10000000000) → lapseSetup s k = s) := by
  refine ⟨fun hon hstage hlate => if_pos ⟨hon, hstage, hlate⟩, fun hnot => if_neg ?_⟩
  rintro ⟨hon, hstage, hlate⟩
  rcases hnot with hx | hx | hx
  · exact absurd (hx.symm.trans hon) (by decide)
  · exact hx hstage
  · omega

/-- Settles O51: each message of the set-up through its own law, and the end of a session through that of `endSecure`. -/
theorem secureSessions : Obligations.SecureSessions := by
  intro s t ch tag hb s0
  have h0 : s0 = begin s t := rfl
  have hb0 : banksOk s0 = true := banks_begin hb t
  clear_value s0
  refine ⟨?info, ?cert, ?open_, ?put, ?finish, ?close, ?ends, ?limits⟩
  case info => exact fun e h he => execSecInfo_answers h0 h he
  case cert => exact fun offset e h he hstage => execCertGet_answers h0 h he hstage rfl
  case open_ =>
    intro key nonce e h he
    obtain ⟨hlens, hstate, hrng⟩ := execSessionOpen_refused (key := key) (nonce := nonce) h0 h he
    refine ⟨hlens, fun hk hn => ⟨hstate hk hn, hrng hk hn, fun hfree hlock hscopes hfit => ?_⟩⟩
    exact ⟨setupBegun e ch key nonce, ownKey e, ownNonce e, transcript1 e ch key nonce,
      execSessionOpen_begins h0 h he hk hn hfree hlock hscopes hfit, bytesAt_length _ _ _, leBytes_len _ _,
      fun hlen => secSession_setSession (s := { e with freeCtr := e.freeCtr + 2 }) hlen _, rfl, rfl⟩
  case put => exact fun total offset bytes e h he => execCertPut_law h0 h he
  case finish =>
    intro sig e h he x
    obtain ⟨hbars, hgoes⟩ := execSessionFinish_law (sig := sig) h0 h he (x := x) rfl
    refine ⟨hbars, fun hstage hchain hwhole hlen hchan => ?_⟩
    have hbe : banksOk e = true := he ▸ banks_secEntered hb0 ch 0x14 tag
    have hopened := secSession_finishOpened hlen
    obtain ⟨hended, hfail, hreport⟩ := finishFailed_law hbe hlen (finishFails e x sig)
    refine ⟨finishOpened e ch, finishFailed e ch (finishFails e x sig), ?_, ?_, ?_, ?_, ?_, ?_, ?_, mbx_finishOpened hchan, ?_,
      hended, hfail, hreport⟩
    all_goals rw [hopened]
    · exact hgoes hstage hchain hwhole
    all_goals rfl
  case close => exact fun e h he => execSessionClose_answers h0 h he
  case ends => exact fun w k cause hk hlen hchan hopen => endSecure_law hk hlen hchan hopen cause
  case limits =>
    intro x
    have hsetup : exec (.sessionSetupTimeout t x) s = .next (lapseSetup s0 (4 + x.val)) := h0 ▸ rfl
    have hidle : exec (.sessionIdleExpire t x) s = .next (if (secSession s0 (4 + x.val)).last +
        liveFld s0 Fld.SEC_CTRL_SESSION_IDLE * 1000000000 ≤ now s0 then endSecure s0 (4 + x.val) 2 else s0) := h0 ▸ rfl
    obtain ⟨hlapses, hstays⟩ := lapseSetup_law s0 (4 + x.val)
    rw [hsetup, hidle]
    exact ⟨fun hon hstage hlate => congrArg Host.Outcome.next (hlapses hon hstage hlate),
      fun hnot => congrArg Host.Outcome.next (hstays hnot), fun hlate => congrArg Host.Outcome.next (if_pos hlate),
      fun hearly => congrArg Host.Outcome.next (if_neg (Nat.not_le.2 hearly))⟩

end Sys2Proof.Laws

/-! ### Firmware images and trust anchors (14_security R493 to R498) -/

namespace Sys2Proof.Laws

open Sys2Proof Sys2Proof.Machine

/-- A command of class SEC that looks at the certified configuration after its message (R480). -/
theorem secExec_certified {i : Instr} {s s0 e u : State} {k op tag sub code : Nat} {c x : Bool} {act : State → State × MsgRes} {r : MsgRes}
    (hexec : exec i s = .next (noteCertified (secMessage s0 k op tag c x sub act))) (h : secActs s0 k op tag c x sub = true)
    (he : e = secEntered s0 k op tag) (hcode : 0x0C80 + op = code) (hact : act e = (u, r)) (hr : r.later = false) :
    exec i s = .next (noteCertified (answer (audit u code k r.result) k tag c r)) := by
  rw [hexec, secMessage_answers h (he ▸ hact) hr, hcode]

/-! #### FW_LOAD (R495, R497) -/

/-- The state with a slot that an image has made, and event 0x0C05 (R497). -/
def slotJudged (e : State) (slot : Nat) (j : FwSlot × Nat) : State :=
  raise { e with sec := { e.sec with slots := upd (upd e.sec.slots slot fun x => { x with valid := false }) slot fun _ => j.1 } }
    0x0C05 slot (if j.2 = 0 then j.1.version else 0)

theorem judgeImage_congr {s u : State} (h : u.live = s.live) (image : List Byte) : judgeImage u image = judgeImage s image := by
  unfold judgeImage liveFld
  rw [h]

theorem finishImage_eq {s : State} {image : List Byte} {j : FwSlot × Nat} (hj : j = judgeImage s image) (slot : Nat) :
    finishImage s slot image =
      (raise { s with sec := { s.sec with slots := upd s.sec.slots slot fun _ => j.1 } } 0x0C05 slot (if j.2 = 0 then j.1.version else 0),
       if j.2 = 0 then okMsg (leBytes 4 j.1.version ++ leBytes 2 j.1.rollback) else failMsg j.2) := by
  unfold finishImage
  rw [← hj]
  rcases j with ⟨x, bad⟩
  rfl

/-- A load over PCIe judges the image that host memory holds. -/
theorem actFwLoad_judges {e : State} {k tag slot : Nat} {data : DataRef} (hslot : slot ≤ 1)
    (hrun : slot ≠ liveFld e Fld.SEC_STATUS_RUNNING_SLOT) (hload : e.sec.load = none) (hnet : e.sys.ethernet = false)
    (hboth : e.rst.both = false) (hfail : data.fail = 0) {j : FwSlot × Nat} (hj : j = judgeImage e (refBytes data)) :
    actFwLoad k tag slot data e = (slotJudged e slot j, if j.2 = 0 then okMsg (leBytes 4 j.1.version ++ leBytes 2 j.1.rollback)
      else failMsg j.2) := by
  have hpcie : ¬ (e.sys.ethernet = true ∨ e.rst.both = true ∧ data.transfer ≠ 0) := by simp [hnet, hboth]
  unfold actFwLoad
  rw [if_neg (Nat.not_lt.2 hslot), if_neg hrun, if_neg (by rw [hload]; decide)]
  extract_lets _ v
  have hvpcie : ¬ (v.sys.ethernet = true ∨ v.rst.both = true ∧ data.transfer ≠ 0) := hpcie
  rw [if_neg hvpcie, if_neg (not_not.2 hfail)]
  exact finishImage_eq (hj.trans (judgeImage_congr (u := v) rfl _).symm) slot

theorem execFwLoad_refused {s s0 e : State} {t tag slot : Nat} {data : DataRef} {ch : Fin 6} (h0 : s0 = begin s t)
    (h : secActs s0 ch 0x16 tag false true 0 = true) (he : e = secEntered s0 ch 0x16 tag) :
    (1 < slot → exec (.fwLoad t ch tag slot data) s = .next (noteCertified (answer (audit e 0x0C96 ch 4) ch tag false (failMsg 4)))) ∧
    (slot ≤ 1 → slot = liveFld e Fld.SEC_STATUS_RUNNING_SLOT →
      exec (.fwLoad t ch tag slot data) s = .next (noteCertified (answer (audit e 0x0C96 ch 5) ch tag false (failMsg 5)))) ∧
    (slot ≤ 1 → slot ≠ liveFld e Fld.SEC_STATUS_RUNNING_SLOT → e.sec.load.isSome = true →
      exec (.fwLoad t ch tag slot data) s = .next (noteCertified (answer (audit e 0x0C96 ch 1) ch tag false (failMsg 1)))) := by
  subst h0
  refine ⟨fun hslot => ?_, fun hslot hrun => ?_, fun hslot hrun hload => ?_⟩
  · exact secExec_certified (r := failMsg 4) rfl h he rfl (if_pos hslot) rfl
  · exact secExec_certified (r := failMsg 5) rfl h he rfl ((if_neg (Nat.not_lt.2 hslot)).trans (if_pos hrun)) rfl
  · exact secExec_certified (r := failMsg 1) rfl h he rfl
      ((if_neg (Nat.not_lt.2 hslot)).trans ((if_neg hrun).trans (if_pos hload))) rfl

theorem execFwLoad_judges {s s0 e : State} {t tag slot : Nat} {data : DataRef} {ch : Fin 6} (h0 : s0 = begin s t)
    (h : secActs s0 ch 0x16 tag false true 0 = true) (he : e = secEntered s0 ch 0x16 tag) (hslot : slot ≤ 1)
    (hrun : slot ≠ liveFld e Fld.SEC_STATUS_RUNNING_SLOT) (hload : e.sec.load = none) (hnet : e.sys.ethernet = false)
    (hboth : e.rst.both = false) (hfail : data.fail = 0) {j : FwSlot × Nat} (hj : j = judgeImage e (refBytes data)) :
    exec (.fwLoad t ch tag slot data) s = .next (noteCertified (answer (audit (slotJudged e slot j) 0x0C96 ch j.2) ch tag false
      (if j.2 = 0 then okMsg (leBytes 4 j.1.version ++ leBytes 2 j.1.rollback) else failMsg j.2))) := by
  have hact := actFwLoad_judges (k := ch) (tag := tag) hslot hrun hload hnet hboth hfail hj
  have hresult : ∀ p, (if j.2 = 0 then okMsg p else failMsg j.2).result = j.2 ∧ (if j.2 = 0 then okMsg p else failMsg j.2).later = false := by
    intro p
    split
    · next hz => exact ⟨hz.symm, rfl⟩
    · exact ⟨rfl, rfl⟩
  subst h0
  have hanswer := secExec_certified (i := .fwLoad t ch tag slot data) (s := s) rfl h he rfl hact (hresult _).2
  rw [(hresult _).1] at hanswer
  exact hanswer

/-- The slots after an image has been judged: the image's own, and the others as before. -/
theorem slots_slotJudged {e : State} {slot : Nat} (hlen : slot < e.sec.slots.length) (j : FwSlot × Nat) :
    nth (slotJudged e slot j).sec.slots slot {} = j.1 ∧
      ∀ i, i ≠ slot → nth (slotJudged e slot j).sec.slots i {} = nth e.sec.slots i {} :=
  ⟨nth_upd (by rw [length_upd]; exact hlen) _ _, fun _ hi => (nth_upd_ne hi _ _).trans (nth_upd_ne hi _ _)⟩

/-- The bytes at an offset of the front of an image are those of the image. -/
theorem leAt_bytesAt {bs : List Byte} {n off w : Nat} (h : off + w ≤ n) : leAt (bytesAt bs 0 n) off w = leAt bs off w := by
  refine congrArg ofLe (List.map_congr_left fun i hi => ?_)
  have hlt : off + i < n := by rw [List.mem_range] at hi; omega
  simp only [bytesAt, List.getElem?_map, List.getElem?_range hlt, Nat.zero_add, Option.map_some, Option.getD_some]

/-- An image longer than a slot holds is refused, and its slot is not valid (R495). -/
theorem judgeImage_tooLong {e : State} {image : List Byte} (hlen : 66060032 < leAt image 16 8) :
    (judgeImage e image).2 = 4 ∧ (judgeImage e image).1.valid = false := by
  have hhead : 66060032 < leAt (bytesAt image 0 256) 16 8 := by rw [leAt_bytesAt (by decide)]; exact hlen
  unfold judgeImage
  extract_lets head len body digest x
  rw [if_pos hhead]
  exact ⟨rfl, rfl⟩

/-! #### FW_ACTIVATE and FW_COMMIT (R497, R498) -/

theorem execFwActivate_law {s s0 e : State} {t tag slot : Nat} {ch : Fin 6} (h0 : s0 = begin s t)
    (h : secActs s0 ch 0x17 tag false true 0 = true) (he : e = secEntered s0 ch 0x17 tag) :
    (1 < slot → exec (.fwActivate t ch tag slot) s = .next (answer (audit e 0x0C97 ch 4) ch tag false (failMsg 4))) ∧
    (slot ≤ 1 → slotValid e slot = false →
      exec (.fwActivate t ch tag slot) s = .next (answer (audit e 0x0C97 ch 5) ch tag false (failMsg 5))) ∧
    (slot ≤ 1 → slotValid e slot = true → exec (.fwActivate t ch tag slot) s = .next (answer (audit
      (raise (setFld e Fld.SEC_FUSE_PREFERRED 0 slot) 0x0C06 slot (nth e.sec.slots slot {}).version) 0x0C97 ch 0) ch tag false okMsg)) := by
  subst h0
  refine ⟨fun hslot => ?_, fun hslot hvalid => ?_, fun hslot hvalid => ?_⟩
  · exact secExec_answers (r := failMsg 4) rfl h he rfl (if_pos hslot) rfl
  · exact secExec_answers (r := failMsg 5) rfl h he rfl ((if_neg (Nat.not_lt.2 hslot)).trans (if_pos (by rw [hvalid]; rfl))) rfl
  · exact secExec_answers (r := okMsg) rfl h he rfl ((if_neg (Nat.not_lt.2 hslot)).trans (if_neg (by rw [hvalid]; decide))) rfl

/-- The state with the rollback fuses' target in MRAM (R498). -/
def targetSet (e : State) (target : Nat) : State := { e with sec := { e.sec with target := target } }

theorem execFwCommit_answers {s s0 e : State} {t tag : Nat} {ch : Fin 6} (h0 : s0 = begin s t)
    (h : secActs s0 ch 0x18 tag false true 0 = true) (he : e = secEntered s0 ch 0x18 tag) {u : State}
    (hu : u = blowFuses (targetSet e (Nat.max (liveFld e Fld.SEC_FUSE_ROLLBACK_COUNT) (runningSlot e).rollback))) :
    exec (.fwCommit t ch tag) s = .next (answer (audit u 0x0C98 ch 0) ch tag false (okMsg (
      leBytes 1 (liveFld u Fld.SEC_FUSE_ROLLBACK_COUNT) ++
      leBytes 1 (bit (slotValid u (1 - liveFld u Fld.SEC_STATUS_RUNNING_SLOT)))))) := by
  subst h0 hu
  exact secExec_answers (r := okMsg _) rfl h he rfl rfl rfl

/-- The fuses blown up to the target, never below what they are (R498). -/
theorem blowFuses_law {e : State} (hb : banksOk e = true) {old new index : Nat} (hold : old = liveFld e Fld.SEC_FUSE_ROLLBACK_COUNT)
    (hindex : index < 2 ^ 7) (hnew : new = Nat.max old index) {u : State} (hu : u = blowFuses (targetSet e new)) :
    liveFld u Fld.SEC_FUSE_ROLLBACK_COUNT = new ∧ liveFld u Fld.SEC_STATUS_RUNNING_SLOT = liveFld e Fld.SEC_STATUS_RUNNING_SLOT ∧
      u.sec = { e.sec with target := new } ∧ regsKept e u [regKey .SEC_FUSE 0 0] ∧
      u.host.queued = e.host.queued ++ (if old < new then [⟨now e, 0x0C07, 0, new⟩] else []) := by
  by_cases hle : new ≤ old
  · have hsame : u = targetSet e new := hu.trans (if_pos (hold ▸ hle))
    have heq : new = old := Nat.le_antisymm hle (hnew ▸ Nat.le_max_left _ _)
    rw [hsame, if_neg (Nat.not_lt.2 hle), List.append_nil]
    exact ⟨hold.symm.trans heq.symm, rfl, rfl, regsKept_refl _ _, rfl⟩
  · have hblown : u = raise (setFld (targetSet e new) Fld.SEC_FUSE_ROLLBACK_COUNT 0 new) 0x0C07 0 new :=
      hu.trans (if_neg (hold ▸ hle))
    have hraised : new < 2 ^ 7 := by
      have : new = old ∨ new = index := hnew ▸ max_choice old index
      omega
    have hset := liveFld_setFld (s := targetSet e new) hb Fld.SEC_FUSE_ROLLBACK_COUNT 0 new 0
    have hrun := liveFld_setFld_ne (s := targetSet e new) hb (f := Fld.SEC_FUSE_ROLLBACK_COUNT) (g := Fld.SEC_STATUS_RUNNING_SLOT)
      (by decide) (i := 0) (j := 0) (by decide) (by decide) new
    rw [hblown, if_pos (Nat.not_le.1 hle)]
    refine ⟨hset.trans (Nat.mod_eq_of_lt hraised), hrun, rfl,
      regsKept_setFld (s := targetSet e new) (live_wf hb) Fld.SEC_FUSE_ROLLBACK_COUNT 0 new 0, ?_⟩
    change e.host.queued ++ [⟨now e, 0x0C07, 0, new % 2 ^ 32⟩] = _
    rw [Nat.mod_eq_of_lt (lt_trans hraised (by decide))]

/-! #### TRUST_SET and TRUST_CLEAR (R493) -/

/-- The state that holds the pieces of a certificate, or none. -/
def partSet (e : State) (p : Option TrustPart) : State := { e with sec := { e.sec with part := p } }

/-- The partner's certificate in place, with its event. -/
def partnerSet (e : State) (cert : Option (List Byte)) : State :=
  raise { e with sec := { e.sec with partner := cert } } 0x0C11 2 0

/-- The consumable roots removed, with the event. -/
def rootsCleared (e : State) : State :=
  raise { e with sec := { e.sec with roots := [none, none, none, none] } } 0x0C11 1 0

/-- The first piece of a certificate: it may be the whole one, or one with more to come. -/
theorem actTrustSet_first (k slot total : Nat) {kind : Nat} (hkind : kind ≠ 3) (bytes : List Byte) (e : State) :
    actTrustSet k kind slot total 0 bytes e =
      if 3 < kind ∨ (kind = 1 ∧ 3 < slot) ∨ 218 < bytes.length ∨ 0 ≠ ([] : List Byte).length ∨ total < 0 + bytes.length then (e, failMsg 4)
      else if 0 + bytes.length < total then (partSet e (some ⟨kind, slot, total, bytes⟩), okMsg)
      else installTrust k kind slot bytes (partSet e none) :=
  if_neg hkind

/-- The partner's certificate in one piece. -/
theorem actTrustSet_partner {e : State} {k slot total : Nat} {bytes : List Byte} (hlen : bytes.length = total) (hmax : total ≤ 218) :
    actTrustSet k 2 slot total 0 bytes e = if Config.certParses bytes = true then (partnerSet (partSet e none) (some bytes), okMsg)
      else (partSet e none, failMsg 4) := by
  rw [actTrustSet_first k slot total (by decide), if_neg (by simp only [List.length_nil]; omega), if_neg (by omega)]
  by_cases hparses : Config.certParses bytes = true
  · rw [if_pos hparses]
    exact if_neg (by simp [hparses])
  · rw [if_neg hparses]
    exact if_pos (.inl (by simpa using hparses))

/-- The first piece of a certificate, with more to come. -/
theorem actTrustSet_more {e : State} {k kind slot total : Nat} {bytes : List Byte} (hkind : kind ≤ 2) (hslot : kind = 1 → slot ≤ 3)
    (hmore : bytes.length < total) (hmax : bytes.length ≤ 218) :
    actTrustSet k kind slot total 0 bytes e = (partSet e (some ⟨kind, slot, total, bytes⟩), okMsg) := by
  rw [actTrustSet_first k slot total (by omega), if_neg (by simp only [List.length_nil]; omega), if_pos (by omega)]

/-- A later piece of which the first is not held. -/
theorem actTrustSet_gap {e : State} {k kind slot total offset : Nat} {bytes : List Byte} (hkind : kind ≤ 2) (hlater : 0 < offset)
    (hnone : e.sec.part = none) : actTrustSet k kind slot total offset bytes e = (e, failMsg 4) := by
  unfold actTrustSet
  simp only [hnone, ite_self]
  rw [if_neg (by omega), if_pos (.inr (.inr (.inr (.inl (by simp only [List.length_nil]; omega)))))]
  rfl

/-- Settles O52: each message through its action's law, and the fuses through `blowFuses_law`. -/
theorem firmwareAndTrust : Obligations.FirmwareAndTrust := by
  intro s t ch tag hb s0
  have h0 : s0 = begin s t := rfl
  have hb0 : banksOk s0 = true := banks_begin hb t
  clear_value s0
  refine ⟨?load, ?activate, ?commit, ?set, ?clear⟩
  case load =>
    intro slot data e h he
    obtain ⟨hnoslot, hrunning, hbusy⟩ := execFwLoad_refused (slot := slot) (data := data) h0 h he
    refine ⟨hnoslot, hrunning, hbusy, ?_⟩
    intro hslot hrun hload hnet hboth hfail hlen j
    have hj : j = judgeImage e (refBytes data) := rfl
    clear_value j
    have hlong : 66060032 < leAt (refBytes data) 16 8 → j.2 = 4 ∧ j.1.valid = false := by
      rw [hj]
      exact judgeImage_tooLong
    obtain ⟨hown, hothers⟩ := slots_slotJudged hlen j
    exact ⟨slotJudged e slot j, execFwLoad_judges h0 h he hslot hrun hload hnet hboth hfail hj, hown, hothers, rfl, rfl, hlong⟩
  case activate =>
    intro slot e h he
    obtain ⟨hnoslot, hbad, hgoes⟩ := execFwActivate_law (slot := slot) h0 h he
    have hbe : banksOk e = true := he ▸ banks_secEntered hb0 ch 0x17 tag
    refine ⟨hnoslot, hbad, fun hslot hvalid => ⟨_, hgoes hslot hvalid, ?_, ?_, ?_, rfl, rfl⟩⟩
    · exact (liveFld_setFld hbe Fld.SEC_FUSE_PREFERRED 0 slot 0).trans (Nat.mod_eq_of_lt (Nat.lt_succ_of_le hslot))
    · exact liveFld_setFld_below (f := Fld.SEC_FUSE_PREFERRED) (g := Fld.SEC_FUSE_ROLLBACK_COUNT) hbe rfl (by decide) 0 slot
    · exact regsKept_setFld (live_wf hbe) Fld.SEC_FUSE_PREFERRED 0 slot 0
  case commit =>
    intro e h he hindex old new
    have hbe : banksOk e = true := he ▸ banks_secEntered hb0 ch 0x18 tag
    have hold : old = liveFld e Fld.SEC_FUSE_ROLLBACK_COUNT := rfl
    have hnew : new = Nat.max old (runningSlot e).rollback := rfl
    clear_value new old
    obtain ⟨hcount, hrun, hsec, hregs, hqueued⟩ := blowFuses_law hbe hold hindex hnew rfl
    have hexec := execFwCommit_answers h0 h he (u := blowFuses (targetSet e new)) (by rw [hnew, hold])
    rw [hrun, hcount] at hexec
    exact ⟨_, hexec, hcount, hsec, hregs, hqueued⟩
  case set =>
    intro kind slot total offset bytes e h he
    refine ⟨fun hkind hoffset hlen hmax => ⟨partnerSet (partSet e none) (some bytes), ?_, rfl⟩,
      fun hkind hslot hoffset hmore hmax => ?_, fun hkind hlater hnone => ?_⟩
    · subst hkind hoffset h0
      have hact := actTrustSet_partner (e := e) (k := ch) (slot := slot) hlen hmax
      by_cases hparses : Config.certParses bytes = true
      · rw [if_pos hparses] at hact ⊢
        exact secExec_certified (r := okMsg) rfl h he rfl hact rfl
      · rw [if_neg hparses] at hact ⊢
        exact secExec_certified (r := failMsg 4) rfl h he rfl hact rfl
    · subst hoffset h0
      exact secExec_certified (r := okMsg) rfl h he rfl (actTrustSet_more hkind hslot hmore hmax) rfl
    · subst h0
      exact secExec_certified (r := failMsg 4) rfl h he rfl (actTrustSet_gap hkind hlater hnone) rfl
  case clear =>
    intro slot e h he
    subst h0
    refine ⟨fun hslot => ⟨rootsCleared e, ?_, rfl⟩, fun hslot => ⟨partnerSet e none, ?_, rfl⟩, fun hslot => ?_⟩
    · subst hslot
      exact secExec_certified (r := okMsg) rfl h he rfl rfl rfl
    · subst hslot
      exact secExec_certified (r := okMsg) rfl h he rfl rfl rfl
    · have hact : clearTrust slot e = (e, failMsg 4) := by
        unfold clearTrust
        split
        · omega
        · omega
        · rfl
      exact secExec_certified (r := failMsg 4) rfl h he rfl hact rfl

end Sys2Proof.Laws

/-! ### SEC.CONFIG, debug access and the audit log (14_security R481, R505, R508, R509) -/

namespace Sys2Proof.Laws

open Sys2Proof Sys2Proof.Machine

/-! #### An audit entry (R508, R510) -/

/-- The audit log replaced, with the number of its newest entry. -/
def trailSet (s : State) (as : List AuditEntry) (seq : Nat) : State :=
  setFld { s with sec := { s.sec with audit := as } } Fld.SEC_AUDIT_NEWEST_SEQ 0 seq

/-- The report of an entry lost unread (R510). -/
def overwriteReported (s : State) (o : Nat) : State := raise (sticky s Fld.SEC_STATUS_AUDIT_OVERWRITE) 0x0C10 0 o

/-- What an audit entry does: it carries its code and result, the next number and the time, it is the newest of the log, and a full log
may report a loss. -/
theorem audit_inv (s : State) (code k result : Nat) : ∃ (a : AuditEntry) (as : List AuditEntry), a.code = code ∧ a.result = result ∧
    a.time = now s ∧ a.seq = (liveFld s Fld.SEC_AUDIT_NEWEST_SEQ + 1) % 2 ^ 32 ∧ as.getLast? = some a ∧
    (audit s code k result = trailSet s as a.seq ∨ ∃ o, audit s code k result = overwriteReported (trailSet s as a.seq) o) := by
  unfold audit
  extract_lets x on seq chain a old v u
  refine ⟨a, lastN 4096 (old ++ [a]), rfl, rfl, rfl, rfl, getLast?_lastN_concat (by decide) old a, ?_⟩
  split
  · next o _ =>
    split
    · exact .inr ⟨o.seq, rfl⟩
    · exact .inl rfl
  · exact .inl rfl

theorem trailSet_newest {s : State} (hb : banksOk s = true) (as : List AuditEntry) {seq : Nat} (hseq : seq < 2 ^ 32) :
    liveFld (trailSet s as seq) Fld.SEC_AUDIT_NEWEST_SEQ = seq :=
  (liveFld_setFld (s := { s with sec := { s.sec with audit := as } }) hb Fld.SEC_AUDIT_NEWEST_SEQ 0 seq 0).trans (Nat.mod_eq_of_lt hseq)

theorem banks_trailSet {s : State} (hb : banksOk s = true) (as : List AuditEntry) (seq : Nat) : banksOk (trailSet s as seq) = true :=
  banks_setFld (s := { s with sec := { s.sec with audit := as } }) hb Fld.SEC_AUDIT_NEWEST_SEQ 0 seq 0

theorem liveFld_trailSet {s : State} (hb : banksOk s = true) {g : Field} (hg : g.reg.ctorIdx ≠ Reg.SEC_AUDIT.ctorIdx)
    (as : List AuditEntry) (seq : Nat) : liveFld (trailSet s as seq) g = liveFld s g :=
  liveFld_setFld_ne (s := { s with sec := { s.sec with audit := as } }) hb (f := Fld.SEC_AUDIT_NEWEST_SEQ) hg (by decide) (by decide) seq

/-- A field outside the status and what collects it is as before a loss was reported. -/
theorem liveFld_overwriteReported {s : State} (hb : banksOk s = true) {g : Field} (hg : g.reg.ctorIdx ≠ Reg.SEC_STATUS.ctorIdx)
    (hd : g.reg.ctorIdx ≠ Reg.DB_D2H_STATUS.ctorIdx) (hs : g.reg.ctorIdx ≠ Reg.FAULT_SUMMARY.ctorIdx) (o : Nat) :
    liveFld (overwriteReported s o) g = liveFld s g :=
  liveFld_sticky_ne hb (f := Fld.SEC_STATUS_AUDIT_OVERWRITE) hg hd hs (by decide) (by decide) 0

/-- An audit entry leaves the fields of the registers that it does not write. -/
theorem liveFld_audit {s : State} (hb : banksOk s = true) {g : Field} (ha : g.reg.ctorIdx ≠ Reg.SEC_AUDIT.ctorIdx)
    (hg : g.reg.ctorIdx ≠ Reg.SEC_STATUS.ctorIdx) (hd : g.reg.ctorIdx ≠ Reg.DB_D2H_STATUS.ctorIdx)
    (hs : g.reg.ctorIdx ≠ Reg.FAULT_SUMMARY.ctorIdx) (code k result : Nat) : liveFld (audit s code k result) g = liveFld s g := by
  obtain ⟨a, as, -, -, -, -, -, h | ⟨o, h⟩⟩ := audit_inv s code k result
  · rw [h, liveFld_trailSet hb ha]
  · rw [h, liveFld_overwriteReported (banks_trailSet hb as a.seq) hg hd hs, liveFld_trailSet hb ha]

/-- A bit of SEC_STATUS below AUDIT_OVERWRITE survives an audit entry. -/
theorem liveFld_audit_status {s : State} (hb : banksOk s = true) {g : Field} (hg : g.reg = .SEC_STATUS)
    (hlow : g.lo + g.width ≤ Fld.SEC_STATUS_AUDIT_OVERWRITE.lo) (code k result : Nat) :
    liveFld (audit s code k result) g = liveFld s g := by
  obtain ⟨a, as, -, -, -, -, -, h | ⟨o, h⟩⟩ := audit_inv s code k result
  · rw [h, liveFld_trailSet hb (by rw [hg]; decide)]
  · rw [h]
    refine Eq.trans ?_ (liveFld_trailSet hb (by rw [hg]; decide) as a.seq)
    exact liveFld_sticky_below (f := Fld.SEC_STATUS_AUDIT_OVERWRITE) (banks_trailSet hb as a.seq) hg hlow (by rw [hg]; decide)
      (by rw [hg]; decide) (by decide)

theorem sec_overwriteReported (s : State) (o : Nat) : (overwriteReported s o).sec = s.sec := by
  obtain ⟨_, _, _, h⟩ := notice_sticky s Fld.SEC_STATUS_AUDIT_OVERWRITE 0 0
  change (sticky s Fld.SEC_STATUS_AUDIT_OVERWRITE).sec = s.sec
  rw [h]

/-- The newest entry of the log after an audit entry, and the number that it carries. -/
theorem audit_newest {s : State} (hb : banksOk s = true) (code k result : Nat) :
    ∃ a, (audit s code k result).sec.audit.getLast? = some a ∧ a.code = code ∧ a.result = result ∧ a.time = now s ∧
      a.seq = (liveFld s Fld.SEC_AUDIT_NEWEST_SEQ + 1) % 2 ^ 32 ∧ liveFld (audit s code k result) Fld.SEC_AUDIT_NEWEST_SEQ = a.seq := by
  obtain ⟨a, as, hcode, hresult, htime, hseq, hlast, h⟩ := audit_inv s code k result
  have hnewest := trailSet_newest hb as (seq := a.seq) (hseq ▸ Nat.mod_lt _ (by decide))
  have htrail : (trailSet s as a.seq).sec.audit = as := rfl
  refine ⟨a, ?_, hcode, hresult, htime, hseq, ?_⟩
  · obtain h | ⟨o, h⟩ := h
    · rw [h, htrail, hlast]
    · rw [h, sec_overwriteReported, htrail, hlast]
  · obtain h | ⟨o, h⟩ := h
    · rw [h, hnewest]
    · rw [h, liveFld_overwriteReported (banks_trailSet hb as a.seq) (by decide) (by decide) (by decide), hnewest]

/-! #### SEC.CONFIG (R481, R511) -/

/-- SEC_CTRL with the bits that MASK names written. -/
def configValue (e : State) (value mask : Nat) : Nat :=
  bankReg e.live .SEC_CTRL 0 0 - (bankReg e.live .SEC_CTRL 0 0 &&& mask % 2 ^ 19) + (value &&& mask % 2 ^ 19)

/-- The state with SEC_CTRL written and the named bits of SEC_STATUS cleared, but for those set in the same cycle (R5). -/
def configWritten (e : State) (v clear : Nat) : State :=
  let st := bankReg e.live .SEC_STATUS 0 0
  let left := st - (st &&& spared e (regKey .SEC_STATUS 0 0) (2 ^ 6 - 1) (clear % 2 ^ 6))
  { e with live := bankWrite (bankWrite e.live (regKey .SEC_CTRL 0 0) v) (regKey .SEC_STATUS 0 0) left }

theorem testBit_configValue (e : State) (value mask b : Nat) : (configValue e value mask).testBit b =
    if (mask % 2 ^ 19).testBit b then value.testBit b else (bankReg e.live .SEC_CTRL 0 0).testBit b := testBit_mix b _ _ _

theorem statusKey_ne : regKey .SEC_CTRL 0 0 ≠ regKey .SEC_STATUS 0 0 := regKey_ne (by decide) (by decide) (by decide)

theorem configWritten_law {e : State} (hb : banksOk e = true) (v clear : Nat) :
    bankReg (configWritten e v clear).live .SEC_CTRL 0 0 = v ∧
    (∀ b, (bankReg (configWritten e v clear).live .SEC_STATUS 0 0).testBit b = ((bankReg e.live .SEC_STATUS 0 0).testBit b &&
      (!(clear % 2 ^ 6).testBit b || noted e (regKey .SEC_STATUS 0 0) b))) ∧
    regsKept e (configWritten e v clear) [regKey .SEC_CTRL 0 0, regKey .SEC_STATUS 0 0] := by
  have hctrl := bankWf_bankWrite (live_wf hb) (regKey .SEC_CTRL 0 0) v
  refine ⟨?_, fun b => ?_, fun key hkey => ?_⟩
  · exact (bankLookup_bankWrite_ne hctrl _ statusKey_ne).trans (bankLookup_bankWrite (live_wf hb) _ _)
  · have hread : bankReg (configWritten e v clear).live .SEC_STATUS 0 0 = bankReg e.live .SEC_STATUS 0 0 -
        (bankReg e.live .SEC_STATUS 0 0 &&& spared e (regKey .SEC_STATUS 0 0) (2 ^ 6 - 1) (clear % 2 ^ 6)) :=
      bankLookup_bankWrite hctrl _ _
    rw [hread, testBit_sub_and, testBit_spared, Bool.not_and, Bool.not_not]
  · simp only [List.mem_cons, List.not_mem_nil, or_false, not_or] at hkey
    exact (bankLookup_bankWrite_ne hctrl _ hkey.2).trans (bankLookup_bankWrite_ne (live_wf hb) _ hkey.1)

/-- Whether the certified mode bars a setting of SEC.CONFIG (R481). -/
def configBarred (e : State) (value mask : Nat) : Prop :=
  (bankReg e.live .SEC_CTRL 0 0).testBit 0 = true ∧ (configValue e value mask).testBit 0 = true ∧
    ((mask.testBit 1 = true ∧ (configValue e value mask).testBit 1 = true) ∨
      (bitsOf (mask % 2 ^ 19) 2 12 ≠ 0 ∧ 3600 < bitsOf (configValue e value mask) 2 12))

theorem bitsOf_one_eq_testBit (v lo : Nat) : (bitsOf v lo 1 == 1) = v.testBit lo := by
  rw [bitsOf, pow_one, Nat.testBit_eq_decide_div_mod_eq]
  rfl

/-- The model's own test of a barred setting. -/
theorem configBarred_iff (e : State) (value mask : Nat) :
    ((bitsOf (bankReg e.live .SEC_CTRL 0 0) 0 1 == 1) = true ∧ (bitsOf (configValue e value mask) 0 1 == 1) = true ∧
      ((bitsOf (mask % 2 ^ 19) 1 1 == 1 && bitsOf (configValue e value mask) 1 1 == 1) = true ∨
        (bitsOf (mask % 2 ^ 19) 2 12 != 0 && decide (3600 < bitsOf (configValue e value mask) 2 12)) = true)) ↔
    configBarred e value mask := by
  rw [bitsOf_one_eq_testBit, bitsOf_one_eq_testBit, bitsOf_one_eq_testBit, bitsOf_one_eq_testBit, Nat.testBit_mod_two_pow]
  simp [configBarred]

theorem execSecConfig_law {s s0 e : State} {t tag value mask clear : Nat} {ch : Fin 6} (h0 : s0 = begin s t)
    (h : secActs s0 ch 0x1C tag false true 0 = true) (he : e = secEntered s0 ch 0x1C tag) {v : Nat} (hv : v = configValue e value mask)
    {w : State} (hw : w = configWritten e v clear) :
    (¬ (∀ f ∈ regFields .SEC_CTRL, fieldValueOk f (bitsOf v f.lo f.width) = true) →
      exec (.secConfig t ch tag value mask clear) s = .next (answer (audit e 0x0C9C ch 4) ch tag false (failMsg 4))) ∧
    ((∀ f ∈ regFields .SEC_CTRL, fieldValueOk f (bitsOf v f.lo f.width) = true) → configBarred e value mask →
      exec (.secConfig t ch tag value mask clear) s = .next (answer (audit e 0x0C9C ch 5) ch tag false (failMsg 5))) ∧
    ((∀ f ∈ regFields .SEC_CTRL, fieldValueOk f (bitsOf v f.lo f.width) = true) → ¬ configBarred e value mask →
      exec (.secConfig t ch tag value mask clear) s = .next (answer (audit (noteCertified w) 0x0C9C ch 0) ch tag false
        (okMsg (leBytes 4 (secStatus (noteCertified w)))))) := by
  have hall : (!(regFields .SEC_CTRL).all fun f => fieldValueOk f (bitsOf (configValue e value mask) f.lo f.width)) = true ↔
      ¬ ∀ f ∈ regFields .SEC_CTRL, fieldValueOk f (bitsOf v f.lo f.width) = true := by
    rw [hv, Bool.not_eq_true', ← Bool.not_eq_true, List.all_eq_true]
  have hbarred := configBarred_iff e value mask
  subst h0
  refine ⟨fun hrange => ?_, fun hrange hbars => ?_, fun hrange hbars => ?_⟩
  · exact secExec_answers (r := failMsg 4) rfl h he rfl (if_pos (hall.2 hrange)) rfl
  · exact secExec_answers (r := failMsg 5) rfl h he rfl ((if_neg (mt hall.1 (not_not.2 hrange))).trans (if_pos (hbarred.2 hbars))) rfl
  · subst hw hv
    exact secExec_answers (r := okMsg _) rfl h he rfl ((if_neg (mt hall.1 (not_not.2 hrange))).trans (if_neg (mt hbarred.1 hbars))) rfl

end Sys2Proof.Laws

/-! ### Debug access, the audit log's messages, glitches, the random source and the JTAG port (14_security R483, R504 to R509) -/

namespace Sys2Proof.Laws

open Sys2Proof Sys2Proof.Machine

/-! #### DEBUG.CHALLENGE and DEBUG.UNLOCK (R505) -/

/-- The state with a challenge open or none. -/
def challengeSet (e : State) (c : Option (Nat × Nat)) : State := { e with sec := { e.sec with challenge := c } }

theorem execDebugChallenge_law {s s0 e : State} {t tag scope : Nat} {ch : Fin 6} (h0 : s0 = begin s t)
    (h : secActs s0 ch 0x1D tag false true 1 = true) (he : e = secEntered s0 ch 0x1D tag) :
    ((scope = 0 ∨ 2 < scope) →
      exec (.debugChallenge t ch tag scope) s = .next (answer (audit e 0x0C9D ch 4) ch tag false (failMsg 4))) ∧
    (1 ≤ scope → scope ≤ 2 → e.sec.rngFailed = true →
      exec (.debugChallenge t ch tag scope) s = .next (answer (audit e 0x0C9D ch 14) ch tag false (failMsg 14))) ∧
    (1 ≤ scope → scope ≤ 2 → e.sec.rngFailed = false → ∀ c, c = Config.random e.freeCtr % 2 ^ 256 →
      exec (.debugChallenge t ch tag scope) s = .next (answer (audit
        { e with freeCtr := e.freeCtr + 1, sec := { e.sec with challenge := some (c, now e) } } 0x0C9D ch 0) ch tag false
        (okMsg (leBytes 32 c)))) := by
  subst h0
  refine ⟨fun hbad => ?_, fun hlow hhigh hrng => ?_, fun hlow hhigh hrng c hc => ?_⟩
  · exact secExec_answers (r := failMsg 4) rfl h he rfl (if_pos hbad) rfl
  · exact secExec_answers (r := failMsg 14) rfl h he rfl ((if_neg (by omega)).trans (if_pos hrng)) rfl
  · subst hc
    exact secExec_answers (r := okMsg _) rfl h he rfl ((if_neg (by omega)).trans (if_neg (by rw [hrng]; decide))) rfl

/-- The state with a scope of debug access opened (R505). -/
def scopeOpened (e : State) (ch : Fin 6) (scope : Nat) : State :=
  let w := { challengeSet e none with sec := { (challengeSet e none).sec with scopes := e.sec.scopes ||| scope } }
  noteCertified (audit (raise w 0x0C0C (chanBit ch) scope) 0x0C0C ch scope)

/-- Whether a token verifies against the open challenge, in time (R505). -/
def tokenGood (e : State) (scope : Nat) (token : List Byte) : Bool :=
  match e.sec.challenge with
  | some (c, at') => decide (now e ≤ at' + 60000000000) &&
      Config.sigOk Config.debugKey (leBytes 16 Config.serial ++ leBytes 32 c ++ leBytes 1 scope) token
  | none => false

theorem tokenGood_some {e : State} {c at' : Nat} (hc : e.sec.challenge = some (c, at')) (scope : Nat) (token : List Byte) :
    tokenGood e scope token = true ↔ now e ≤ at' + 60000000000 ∧
      Config.sigOk Config.debugKey (leBytes 16 Config.serial ++ leBytes 32 c ++ leBytes 1 scope) token = true := by
  rw [tokenGood, hc, Bool.and_eq_true, decide_eq_true_eq]

theorem tokenGood_none {e : State} (hc : e.sec.challenge = none) (scope : Nat) (token : List Byte) : tokenGood e scope token = false := by
  rw [tokenGood, hc]

/-- An unlock outside the certified mode: the challenge is used up, and the scope opens for a token that verifies in time. -/
theorem actUnlock_open {e : State} {ch : Fin 6} {scope : Nat} {token : List Byte} (hlow : 1 ≤ scope) (hhigh : scope ≤ 2)
    (hmode : liveFld e Fld.SEC_CTRL_CERT_MODE = 0) :
    actUnlock ch scope token e =
      if tokenGood e scope token = true then (scopeOpened e ch scope, okMsg) else (challengeSet e none, failMsg 7) := by
  refine (if_neg (by omega)).trans ((if_neg (by rw [hmode]; decide)).trans ?_)
  by_cases hgood : tokenGood e scope token = true
  · have hnot : ¬ (!tokenGood e scope token) = true := by simp [hgood]
    rw [if_pos hgood]
    exact if_neg hnot
  · have hyes : (!tokenGood e scope token) = true := by simpa using hgood
    rw [if_neg hgood]
    exact if_pos hyes

theorem execDebugUnlock_law {s s0 e : State} {t tag scope : Nat} {token : List Byte} {ch : Fin 6} (h0 : s0 = begin s t)
    (h : secActs s0 ch 0x1D tag false true 2 = true) (he : e = secEntered s0 ch 0x1D tag) (hlow : 1 ≤ scope) (hhigh : scope ≤ 2) :
    (liveFld e Fld.SEC_CTRL_CERT_MODE = 1 →
      exec (.debugUnlock t ch tag scope token) s = .next (answer (audit e 0x0C9D ch 5) ch tag false (failMsg 5))) ∧
    (liveFld e Fld.SEC_CTRL_CERT_MODE = 0 → ∀ c at', e.sec.challenge = some (c, at') →
      exec (.debugUnlock t ch tag scope token) s = .next (
        if now e ≤ at' + 60000000000 ∧
            Config.sigOk Config.debugKey (leBytes 16 Config.serial ++ leBytes 32 c ++ leBytes 1 scope) token = true then
          answer (audit (scopeOpened e ch scope) 0x0C9D ch 0) ch tag false okMsg
        else answer (audit (challengeSet e none) 0x0C9D ch 7) ch tag false (failMsg 7))) ∧
    (liveFld e Fld.SEC_CTRL_CERT_MODE = 0 → e.sec.challenge = none →
      exec (.debugUnlock t ch tag scope token) s = .next (answer (audit e 0x0C9D ch 7) ch tag false (failMsg 7))) := by
  subst h0
  refine ⟨fun hmode => ?_, fun hmode c at' hc => ?_, fun hmode hc => ?_⟩
  · exact secExec_answers (r := failMsg 5) rfl h he rfl ((if_neg (by omega)).trans (if_pos hmode)) rfl
  · have hact := actUnlock_open (ch := ch) (token := token) hlow hhigh hmode
    have hgood := tokenGood_some hc scope token
    by_cases hyes : now e ≤ at' + 60000000000 ∧
        Config.sigOk Config.debugKey (leBytes 16 Config.serial ++ leBytes 32 c ++ leBytes 1 scope) token = true
    · rw [if_pos (hgood.2 hyes)] at hact
      rw [if_pos hyes]
      exact secExec_answers (r := okMsg) rfl h he rfl hact rfl
    · rw [if_neg (mt hgood.1 hyes)] at hact
      rw [if_neg hyes]
      exact secExec_answers (r := failMsg 7) rfl h he rfl hact rfl
  · have hact := actUnlock_open (ch := ch) (token := token) hlow hhigh hmode
    rw [tokenGood_none hc, if_neg (by decide), show challengeSet e none = e by rw [challengeSet, ← hc]] at hact
    exact secExec_answers (r := failMsg 7) rfl h he rfl hact rfl

/-! #### AUDIT.READ, AUDIT.SIGN and AUDIT.ACKNOWLEDGE (R509) -/

theorem execAuditRead_answers {s s0 e : State} {t tag count seq : Nat} {ch : Fin 6} (h0 : s0 = begin s t)
    (h : secActs s0 ch 0x1E tag false true 1 = true) (he : e = secEntered s0 ch 0x1E tag) :
    exec (.auditRead t ch tag count seq) s = .next (if 1 ≤ count ∧ count ≤ 3 then answer (audit e 0x0C9E ch 0) ch tag false
        (okMsg (((e.sec.audit.filter fun a => decide (seq ≤ a.seq)).take count).flatMap auditBytes))
      else answer (audit e 0x0C9E ch 4) ch tag false (failMsg 4)) := by
  subst h0
  by_cases hcount : 1 ≤ count ∧ count ≤ 3
  · rw [if_pos hcount]
    exact secExec_answers (r := okMsg _) rfl h he rfl (if_neg (by omega)) rfl
  · rw [if_neg hcount]
    exact secExec_answers (r := failMsg 4) rfl h he rfl (if_pos (by omega)) rfl

theorem execAuditSign_law {s s0 e : State} {t tag : Nat} {nonce : List Byte} {ch : Fin 6} (h0 : s0 = begin s t)
    (h : secActs s0 ch 0x1E tag false true 2 = true) (he : e = secEntered s0 ch 0x1E tag) :
    (e.sec.scopes ≠ 0 → exec (.auditSign t ch tag nonce) s = .next (answer (audit e 0x0C9E ch 5) ch tag false (failMsg 5))) ∧
    (e.sec.scopes = 0 → ∀ a, e.sec.audit.getLast? = some a →
      ∀ head, head = leBytes 4 (liveFld e Fld.SEC_AUDIT_NEWEST_SEQ) ++ leBytes 48 (Config.sha384 (auditBytes a)) →
      exec (.auditSign t ch tag nonce) s = .next (answer (audit e 0x0C9E ch 0) ch tag false
        (okMsg (head ++ bytesAt (Config.deviceSign (head ++ nonce)) 0 96)))) := by
  subst h0
  refine ⟨fun hscopes => ?_, fun hscopes a ha head hhead => ?_⟩
  · exact secExec_answers (r := failMsg 5) rfl h he rfl (if_pos (by simpa [keyUsable] using hscopes)) rfl
  · refine secExec_answers (r := okMsg _) rfl h he rfl ((if_neg (by simpa [keyUsable] using hscopes)).trans ?_) rfl
    rw [ha, hhead]
    rfl

theorem execAuditAcknowledge_law {s s0 e : State} {t tag seq : Nat} {ch : Fin 6} (h0 : s0 = begin s t)
    (h : secActs s0 ch 0x1E tag false true 3 = true) (he : e = secEntered s0 ch 0x1E tag) :
    (liveFld e Fld.SEC_AUDIT_NEWEST_SEQ < seq →
      exec (.auditAcknowledge t ch tag seq) s = .next (answer (audit e 0x0C9E ch 4) ch tag false (failMsg 4))) ∧
    (seq ≤ liveFld e Fld.SEC_AUDIT_NEWEST_SEQ → exec (.auditAcknowledge t ch tag seq) s = .next (answer (audit
      (setFld e Fld.SEC_AUDIT_ACKED_SEQ 0 (Nat.max seq (liveFld e Fld.SEC_AUDIT_ACKED_SEQ))) 0x0C9E ch 0) ch tag false okMsg)) := by
  subst h0
  refine ⟨fun hfar => ?_, fun hnear => ?_⟩
  · exact secExec_answers (r := failMsg 4) rfl h he rfl (if_pos hfar) rfl
  · exact secExec_answers (r := okMsg) rfl h he rfl (if_neg (Nat.not_lt.2 hnear)) rfl

/-- The acknowledged number as written, the newest as before, and no other register changed. -/
theorem ackedSet_law {e : State} (hb : banksOk e = true) {seq : Nat} (hseq : seq ≤ liveFld e Fld.SEC_AUDIT_NEWEST_SEQ) {new : Nat}
    (hnew : new = Nat.max seq (liveFld e Fld.SEC_AUDIT_ACKED_SEQ)) :
    liveFld (setFld e Fld.SEC_AUDIT_ACKED_SEQ 0 new) Fld.SEC_AUDIT_ACKED_SEQ = new ∧
      liveFld (setFld e Fld.SEC_AUDIT_ACKED_SEQ 0 new) Fld.SEC_AUDIT_NEWEST_SEQ = liveFld e Fld.SEC_AUDIT_NEWEST_SEQ ∧
      regsKept e (setFld e Fld.SEC_AUDIT_ACKED_SEQ 0 new) [regKey .SEC_AUDIT 0 0] := by
  have hnewest : liveFld e Fld.SEC_AUDIT_NEWEST_SEQ < 2 ^ 32 := liveFld_lt e Fld.SEC_AUDIT_NEWEST_SEQ 0 0
  have hacked : liveFld e Fld.SEC_AUDIT_ACKED_SEQ < 2 ^ 32 := liveFld_lt e Fld.SEC_AUDIT_ACKED_SEQ 0 0
  have hlt : new < 2 ^ 32 := hnew ▸ max_lt (lt_of_le_of_lt hseq hnewest) hacked
  refine ⟨?_, ?_, regsKept_setFld (live_wf hb) Fld.SEC_AUDIT_ACKED_SEQ 0 new 0⟩
  · exact (liveFld_setFld hb Fld.SEC_AUDIT_ACKED_SEQ 0 new 0).trans (Nat.mod_eq_of_lt hlt)
  · exact liveFld_setFld_below (f := Fld.SEC_AUDIT_ACKED_SEQ) (g := Fld.SEC_AUDIT_NEWEST_SEQ) hb rfl (by decide) 0 new

end Sys2Proof.Laws

/-! ### Glitches, the random source and the JTAG port (14_security R483, R504, R506, R507) -/

namespace Sys2Proof.Laws

open Sys2Proof Sys2Proof.Machine

/-! #### The sessions that a glitch ends -/

theorem commsOnly_abandonSetup (s : State) (k : Nat) : CommsOnly s (abandonSetup s k) := by
  unfold abandonSetup
  exact CommsOnly.ite ⟨rfl, rfl⟩ (.refl s)

theorem secSession_setSession_ne {s : State} {k j : Nat} (hj : j - 4 ≠ k - 4) (f : SecSession → SecSession) :
    secSession (setSession s k f) j = secSession s j := nth_upd_ne hj f _

/-- A session that is in any stage is one of the core's. -/
theorem session_inRange {s : State} {k : Nat} (h : (secSession s k).stage ≠ 0) : k - 4 < s.sec.sessions.length := by
  by_contra hlen
  have hnone : secSession s k = {} := by
    unfold secSession nth
    rw [List.getElem?_eq_none (Nat.not_lt.1 hlen)]
    rfl
  exact h (congrArg SecSession.stage hnone)

theorem abandonSetup_stage (s : State) (k : Nat) : (secSession (abandonSetup s k) k).stage ≠ 1 := by
  unfold abandonSetup
  split
  · next h =>
    rw [secSession_setSession (session_inRange (by rw [h]; decide))]
    decide
  · assumption

theorem abandonSetup_other (s : State) {k j : Nat} (hj : j - 4 ≠ k - 4) : secSession (abandonSetup s k) j = secSession s j := by
  unfold abandonSetup
  split
  · exact secSession_setSession_ne hj _
  · rfl

theorem secSession_sessionWiped_other (s : State) {k j : Nat} (hj : j - 4 ≠ k - 4) (cause : Nat) :
    secSession (sessionWiped s k cause) j = secSession s j := by
  obtain ⟨v, hv, h⟩ := sessionWiped_eq s k cause
  have hwiped : secSession (setSession (setMbx v k fun m => { m with secure := false }) k fun _ => {}) j = secSession s j :=
    (secSession_setSession_ne hj _).trans (hv.secSession j)
  rcases h with h | h
  · rw [h, hwiped]
  · rw [h, secSession_dropLoad, hwiped]

theorem endSecure_other (s : State) {k j : Nat} (hj : j - 4 ≠ k - 4) (cause : Nat) :
    secSession (endSecure s k cause) j = secSession s j := by
  rcases endSecure_cases s k cause with h | h | h
  · rw [h]
  · rw [h, secSession_sessionWiped_other s hj]
  · rw [h, (moduleReset_logOnly _ k).secSession, ← secSession_sessionWiped_other s hj cause]
    rfl

/-- A session of a secure channel that is not being set up is closed by its end, if it was not. -/
theorem endSecure_closes {s : State} {k : Nat} (hk : 4 ≤ k) (hsetup : (secSession s k).stage ≠ 1) (cause : Nat) :
    (secSession (endSecure s k cause) k).stage ≠ 1 ∧ (secSession (endSecure s k cause) k).stage ≠ 2 := by
  by_cases hopen : (secSession s k).stage = 2
  · have hlen := session_inRange (s := s) (k := k) (by rw [hopen]; decide)
    have hempty : secSession (endSecure s k cause) k = {} := by
      rw [endSecure_open hk hopen]
      split
      · exact secSession_sessionWiped hlen cause
      · exact ((moduleReset_logOnly _ k).secSession k).trans (secSession_sessionWiped hlen cause)
    rw [hempty]
    decide
  · rw [endSecure_shut (.inr hopen)]
    exact ⟨hsetup, hopen⟩

/-- The state with every set-up abandoned and every session ended (R506). -/
def sessionsEnded (s : State) : State := endSecure (endSecure (abandonSetup (abandonSetup s 4) 5) 4 6) 5 6

theorem commsOnly_sessionsEnded (s : State) : CommsOnly s (sessionsEnded s) :=
  (commsOnly_abandonSetup s 4).trans ((commsOnly_abandonSetup _ 5).trans ((commsOnly_endSecure _ 4 6).trans (commsOnly_endSecure _ 5 6)))

theorem banks_abandonSetup {s : State} (hb : banksOk s = true) (k : Nat) : banksOk (abandonSetup s k) = true := by
  unfold abandonSetup
  split <;> exact hb

theorem banks_endSecure {s : State} (hb : banksOk s = true) (k cause : Nat) : banksOk (endSecure s k cause) = true :=
  (endSecure_keeps (Keeps.refl s)).banks hb

theorem banks_sessionsEnded {s : State} (hb : banksOk s = true) : banksOk (sessionsEnded s) = true :=
  banks_endSecure (banks_endSecure (banks_abandonSetup (banks_abandonSetup hb 4) 5) 4 6) 5 6

theorem sessionsEnded_closed (s : State) : ∀ k, k = 4 ∨ k = 5 →
    (secSession (sessionsEnded s) k).stage ≠ 1 ∧ (secSession (sessionsEnded s) k).stage ≠ 2 := by
  have h4 : (secSession (abandonSetup (abandonSetup s 4) 5) 4).stage ≠ 1 := by
    rw [abandonSetup_other _ (by decide)]
    exact abandonSetup_stage s 4
  have h5 : (secSession (endSecure (abandonSetup (abandonSetup s 4) 5) 4 6) 5).stage ≠ 1 := by
    rw [endSecure_other _ (by decide)]
    exact abandonSetup_stage _ 5
  rintro k (rfl | rfl)
  · rw [sessionsEnded, endSecure_other _ (by decide)]
    exact endSecure_closes (by decide) h4 6
  · exact endSecure_closes (by decide) h5 6

/-! #### A glitch counted and reported (R506, R507) -/

/-- The state with the peer link's keys gone, and its set-up begun again at once. -/
def unkeyed (w : State) : State :=
  let v := { w with pair := { w.pair with keys := none } }
  if v.pair.capable then toPeer v .setup else v

/-- The state with a glitch counted and logged. -/
def glitchLogged (g : State) (d n : Nat) : State :=
  audit (raise (setFld (sticky g Fld.SEC_STATUS_GLITCH) Fld.SEC_GLITCH_GLITCHES 0 n) 0x0C0A d d) 0x0C0A 0 d

theorem execGlitch_law {s s0 g : State} {t : Nat} {d : Fin 4} (h0 : s0 = begin s t) (hon : serving s0 = true)
    (hen : fld s0 Fld.SEC_CTRL_GLITCH_EN ≠ 0) (hg : g = unkeyed (sessionsEnded s0)) {n : Nat}
    (hn : n = satNat 16 (liveFld g Fld.SEC_GLITCH_GLITCHES + 1)) :
    exec (.glitch t d) s = .next (if (lockedOut (glitchLogged g (d.val + 1) n) && !lockedOut g) = true then
      raise (glitchLogged g (d.val + 1) n) 0x0C0B 0 n else glitchLogged g (d.val + 1) n) := by
  have hgo : ¬ ((!serving s0) = true ∨ fld s0 Fld.SEC_CTRL_GLITCH_EN = 0) := by simp [hon, hen]
  have hexec : exec (.glitch t d) s = execGlitch t d s := rfl
  rw [hexec]
  unfold execGlitch
  rw [← h0]
  extract_lets v code w _ x u was m b a
  have hw : w = sessionsEnded s0 := rfl
  have hu : g = u := by
    rw [hg, ← hw]
    rfl
  have hm : n = m := hn.trans (by rw [hu])
  rw [if_neg hgo, hu, hm]
  rfl

/-- What the peer link's set-up changes: its keys and, on the link, the outputs. -/
theorem unkeyed_eq (w : State) : ∃ o, unkeyed w = { w with pair := { w.pair with keys := none }, out := o } ∧
    w.out <+: o ∧ (w.pair.capable = true → w.thm.tripped = false → .peer .setup ∈ o) := by
  unfold unkeyed
  extract_lets _ v
  by_cases hcap : w.pair.capable = true
  · have hvcap : v.pair.capable = true := hcap
    rw [if_pos hvcap, toPeer]
    by_cases htrip : w.thm.tripped = true
    · have hvtrip : v.thm.tripped = true := htrip
      rw [if_pos hvtrip]
      exact ⟨w.out, rfl, List.prefix_rfl, fun _ hx => absurd (hx.symm.trans htrip) (by decide)⟩
    · have hvtrip : ¬ v.thm.tripped = true := htrip
      rw [if_neg hvtrip]
      exact ⟨w.out ++ [.peer .setup], rfl, List.prefix_append _ _, fun _ _ => List.mem_append_right _ List.mem_cons_self⟩
  · have hvcap : ¬ v.pair.capable = true := hcap
    rw [if_neg hvcap]
    exact ⟨w.out, rfl, List.prefix_rfl, fun hx => absurd hx hcap⟩

theorem out_audit (s : State) (code k result : Nat) : s.out <+: (audit s code k result).out := by
  obtain ⟨a, as, -, -, -, -, -, h | ⟨o, h⟩⟩ := audit_inv s code k result
  · rw [h]
    exact List.prefix_rfl
  · rw [h]
    exact out_sticky (trailSet s as a.seq) Fld.SEC_STATUS_AUDIT_OVERWRITE 0 0

/-- A glitch counted and logged: outputs only join, the sessions stay, the bit and the count read as they must, and its event waits. -/
structure GlitchNoted (g u : State) (d n : Nat) : Prop where
  log : LogOnly g u
  out : g.out <+: u.out
  bit : stickyOn u Fld.SEC_STATUS_GLITCH = true
  count : liveFld u Fld.SEC_GLITCH_GLITCHES = n
  event : ⟨now g, 0x0C0A, d, d⟩ ∈ u.host.queued

theorem glitchLogged_noted {g : State} (hb : banksOk g = true) {d n : Nat} (hd : d < 2 ^ 32) (hn : n < 2 ^ 16) :
    GlitchNoted g (glitchLogged g d n) d n := by
  have hnotice := notice_sticky g Fld.SEC_STATUS_GLITCH 0 0
  have hbs := banks_sticky hb Fld.SEC_STATUS_GLITCH 0 0
  have hon : stickyOn (sticky g Fld.SEC_STATUS_GLITCH) Fld.SEC_STATUS_GLITCH = true :=
    stickyOn_sticky (live_wf hb) (by decide) (regKey_ne (by decide) (by decide) (by decide)) (regKey_ne (by decide) (by decide) (by decide))
  have hout := out_sticky g Fld.SEC_STATUS_GLITCH 0 0
  unfold glitchLogged
  generalize sticky g Fld.SEC_STATUS_GLITCH = a at hnotice hbs hon hout
  have hset := hnotice.trans (notice_setFld a Fld.SEC_GLITCH_GLITCHES 0 n 0)
  have hbset : banksOk (setFld a Fld.SEC_GLITCH_GLITCHES 0 n) = true := banks_setFld hbs _ _ _ _
  have hcount : liveFld (setFld a Fld.SEC_GLITCH_GLITCHES 0 n) Fld.SEC_GLITCH_GLITCHES = n :=
    (liveFld_setFld hbs Fld.SEC_GLITCH_GLITCHES 0 n 0).trans (Nat.mod_eq_of_lt hn)
  have hbit : liveFld (setFld a Fld.SEC_GLITCH_GLITCHES 0 n) Fld.SEC_STATUS_GLITCH = liveFld a Fld.SEC_STATUS_GLITCH :=
    liveFld_setFld_ne (f := Fld.SEC_GLITCH_GLITCHES) (g := Fld.SEC_STATUS_GLITCH) hbs (by decide) (by decide) (by decide) n
  have houts : (setFld a Fld.SEC_GLITCH_GLITCHES 0 n).out = a.out := rfl
  generalize setFld a Fld.SEC_GLITCH_GLITCHES 0 n = b at hset hbset hcount hbit houts
  have hnow : now b = now g := now_of_hostOnly hset.hostOnly
  have hbr : banksOk (raise b 0x0C0A d d) = true := hbset
  have hcnt : liveFld (raise b 0x0C0A d d) Fld.SEC_GLITCH_GLITCHES = n := hcount
  have hst : liveFld (raise b 0x0C0A d d) Fld.SEC_STATUS_GLITCH = liveFld a Fld.SEC_STATUS_GLITCH := hbit
  have hevent : (⟨now g, 0x0C0A, d, d⟩ : Event) ∈ (raise b 0x0C0A d d).host.queued := by
    have hd' : d % 2 ^ 32 = d := Nat.mod_eq_of_lt hd
    have hlast : (⟨now b, 0x0C0A, d, d % 2 ^ 32⟩ : Event) ∈ (raise b 0x0C0A d d).host.queued := List.mem_append_right _ List.mem_cons_self
    rwa [hd', hnow] at hlast
  have hraised := hset.logOnly.trans (logOnly_raise b 0x0C0A d d)
  have hroute : a.out <+: (raise b 0x0C0A d d).out := houts ▸ List.prefix_rfl
  generalize raise b 0x0C0A d d = c at hbr hcnt hst hevent hraised hroute
  have haudit := logOnly_audit c 0x0C0A 0 d
  refine ⟨hraised.trans haudit, hout.trans (hroute.trans (out_audit c 0x0C0A 0 d)), ?_, ?_, haudit.queued_mono hevent⟩
  · rw [stickyOn, liveFld_audit_status hbr rfl (by decide), hst]
    exact hon
  · rw [liveFld_audit hbr (by decide) (by decide) (by decide) (by decide), hcnt]

/-- The lockout that a glitch brings about is reported (R507). -/
def lockoutReported (g l : State) (n : Nat) : State := if (lockedOut l && !lockedOut g) = true then raise l 0x0C0B 0 n else l

theorem lockoutReported_law (g l : State) (n : Nat) : LogOnly l (lockoutReported g l n) ∧ (lockoutReported g l n).out = l.out ∧
    (lockoutReported g l n).live = l.live ∧ (lockedOut g = false → lockedOut (lockoutReported g l n) = true →
      ⟨now l, 0x0C0B, 0, n % 2 ^ 32⟩ ∈ (lockoutReported g l n).host.queued) := by
  by_cases hnew : (lockedOut l && !lockedOut g) = true
  · rw [lockoutReported, if_pos hnew]
    exact ⟨logOnly_raise l _ _ _, rfl, rfl, fun _ _ => List.mem_append_right _ List.mem_cons_self⟩
  · rw [lockoutReported, if_neg hnew]
    exact ⟨.refl l, rfl, rfl, fun hwas his => absurd (by rw [hwas, his]; rfl) hnew⟩

theorem CommsOnly.now {s u : State} (h : CommsOnly s u) : Machine.now u = Machine.now s := by
  unfold Machine.now
  rw [← h.rest]

/-- A glitch: the sessions and the peer's keys are gone, and it is counted and reported, with the lockout that it brings. -/
theorem execGlitch_reports {s s0 w : State} {t : Nat} {d : Fin 4} (h0 : s0 = begin s t) (hb : banksOk s0 = true)
    (hon : serving s0 = true) (hen : fld s0 Fld.SEC_CTRL_GLITCH_EN ≠ 0) (hw : w = sessionsEnded s0) {n : Nat}
    (hn : n = Nat.min 65535 (liveFld w Fld.SEC_GLITCH_GLITCHES + 1)) :
    ∃ u, exec (.glitch t d) s = .next u ∧ u.pair.keys = none ∧
      (s0.pair.capable = true → s0.thm.tripped = false → .peer .setup ∈ u.out) ∧ stickyOn u Fld.SEC_STATUS_GLITCH = true ∧
      (∀ k, k = 4 ∨ k = 5 → (secSession u k).stage ≠ 1 ∧ (secSession u k).stage ≠ 2) ∧
      liveFld u Fld.SEC_GLITCH_GLITCHES = n ∧ ⟨now s0, 0x0C0A, d.val + 1, d.val + 1⟩ ∈ u.host.queued ∧
      (lockedOut w = false → lockedOut u = true → ⟨now s0, 0x0C0B, 0, n⟩ ∈ u.host.queued) := by
  have hcomms : CommsOnly s0 w := hw ▸ commsOnly_sessionsEnded s0
  have hclosed : ∀ k, k = 4 ∨ k = 5 → (secSession w k).stage ≠ 1 ∧ (secSession w k).stage ≠ 2 := hw ▸ sessionsEnded_closed s0
  have hbw : banksOk w = true := hw ▸ banks_sessionsEnded hb
  have hpair : w.pair = s0.pair := by rw [← hcomms.rest]
  have hthm : w.thm = s0.thm := by rw [← hcomms.rest]
  have hlaw := execGlitch_law (d := d) (g := unkeyed w) (n := n) h0 hon hen (by rw [hw])
  obtain ⟨o, hunkeyed, -, hsetup⟩ := unkeyed_eq w
  rw [hpair, hthm] at hsetup
  rw [hunkeyed] at hlaw
  have hexec := hlaw (hn.trans (Nat.min_comm _ _))
  have hnw : now w = now s0 := CommsOnly.now hcomms
  have hng : now { w with pair := { w.pair with keys := none }, out := o } = now s0 := hnw
  have hsame : lockedOut { w with pair := { w.pair with keys := none }, out := o } = lockedOut w := rfl
  have hkeys : ({ w with pair := { w.pair with keys := none }, out := o } : State).pair.keys = none := rfl
  have hsessions : ∀ k, secSession { w with pair := { w.pair with keys := none }, out := o } k = secSession w k := fun _ => rfl
  have hbg : banksOk { w with pair := { w.pair with keys := none }, out := o } = true := hbw
  have hout : ({ w with pair := { w.pair with keys := none }, out := o } : State).out = o := rfl
  generalize ({ w with pair := { w.pair with keys := none }, out := o } : State) = g at hexec hng hsame hkeys hsessions hbg hout
  have hlt : n < 2 ^ 16 := by
    have : n ≤ 65535 := hn ▸ Nat.min_le_left _ _
    omega
  have hnoted := glitchLogged_noted (d := d.val + 1) hbg (by omega) hlt
  obtain ⟨hlog, hprefix, hbit, hcount, hevent⟩ := hnoted
  rw [hng] at hevent
  have hnl : now (glitchLogged g (d.val + 1) n) = now s0 := by
    rw [CommsOnly.now hlog.commsOnly, hng]
  generalize glitchLogged g (d.val + 1) n = l at hexec hlog hprefix hbit hcount hevent hnl
  obtain ⟨hlast, hlout, hlive, hlock⟩ := lockoutReported_law g l n
  have hall := hlog.trans hlast
  refine ⟨lockoutReported g l n, hexec, ?_, fun hcap htrip => ?_, ?_, fun k hk => ?_, ?_, hlast.queued_mono hevent, fun hwas his => ?_⟩
  · obtain ⟨_, _, _, _, _, hu⟩ := hall
    rw [hu]
    exact hkeys
  · rw [hlout]
    exact hprefix.subset (hout ▸ hsetup hcap htrip)
  · rw [stickyOn_of_live hlive, hbit]
  · rw [hall.secSession k, hsessions k]
    exact hclosed k hk
  · rw [liveFld, hlive]
    exact hcount
  · have hreported := hlock (hsame.trans hwas) his
    rwa [hnl, Nat.mod_eq_of_lt (lt_trans hlt (by decide))] at hreported

/-! #### The random source and the JTAG port (R483, R504) -/

theorem execRngFail_law {s s0 : State} {t : Nat} {test : Fin 2} (h0 : s0 = begin s t) (hb : banksOk s0 = true) (hon : serving s0 = true) :
    ∃ v, exec (.rngFail t test) s = .next (noteCertified v) ∧
      Reported { s0 with sec := { s0.sec with rngFailed := true } } v Fld.SEC_STATUS_RNG_FAIL 0 0 ⟨now s0, 0x0C09, 0, test.val + 1⟩ := by
  have hgo : ¬ (!serving s0) = true := by simp [hon]
  have harg : (test.val + 1) % 2 ^ 32 = test.val + 1 := Nat.mod_eq_of_lt (lt_of_le_of_lt test.isLt (by decide))
  have hreport := reported (s := { s0 with sec := { s0.sec with rngFailed := true } }) (f := Fld.SEC_STATUS_RNG_FAIL) (i := 0) (b := 0)
    (c := 0x0C09) (src := 0) (live_wf hb) (by decide) (by decide) (by decide) (by decide) harg
  refine ⟨_, ?_, hreport⟩
  subst h0
  exact congrArg Host.Outcome.next (if_neg hgo)

/-- The instruction that the JTAG port acts on, with and without leave to drive pins (R504). -/
def jtagActs (drives : Bool) : JtagInstr → JtagInstr
  | .idcode => .idcode
  | .bypass => .bypass
  | .sample => .sample
  | .extest => if drives then .extest else .bypass
  | .clamp => if drives then .clamp else .bypass
  | .highz => if drives then .highz else .bypass
  | .other => .bypass

theorem execJtagInstruction_eq {s s0 : State} {t : Nat} (h0 : s0 = begin s t) (x : JtagInstr) :
    exec (.jtagInstruction t x) s = .next { s0 with sec := { s0.sec with
      jtag := jtagActs (s0.sys.st == .recovery || s0.sec.scopes.testBit 0) x } } := by
  subst h0
  cases x <;> rfl

theorem jtagActs_drive {x : JtagInstr} (hx : x = .extest ∨ x = .clamp ∨ x = .highz) (drives : Bool) :
    jtagActs drives x = if drives then x else .bypass := by
  obtain rfl | rfl | rfl := hx <;> rfl

/-- Settles O53: the messages through their actions' laws, the audit entry through `audit_inv`, and a glitch step by step. -/
theorem securityControl : Obligations.SecurityControl := by
  intro s t ch tag hb s0
  have h0 : s0 = begin s t := rfl
  have hb0 : banksOk s0 = true := banks_begin hb t
  clear_value s0
  refine ⟨?config, ?challenge, ?unlock, ?read, ?sign, ?ack, ?entry, ?glitch, ?rng, ?jtag⟩
  case config =>
    intro value mask clear e h he
    have hbe : banksOk e = true := he ▸ banks_secEntered hb0 ch 0x1C tag
    obtain ⟨hctrl, hstatus, hregs⟩ := configWritten_law hbe (configValue e value mask) clear
    obtain ⟨hrange, hbars, hgoes⟩ := execSecConfig_law (value := value) (mask := mask) (clear := clear) h0 h he rfl rfl
    refine ⟨configValue e value mask, configWritten e (configValue e value mask) clear, testBit_configValue e value mask, hctrl, hstatus,
      hregs, rfl, ?_⟩
    by_cases hok : ∀ f ∈ regFields .SEC_CTRL, fieldValueOk f (bitsOf (configValue e value mask) f.lo f.width) = true
    · rw [if_neg (not_not.2 hok)]
      by_cases hbarred : configBarred e value mask
      · exact (hbars hok hbarred).trans (congrArg Host.Outcome.next (if_pos hbarred).symm)
      · exact (hgoes hok hbarred).trans (congrArg Host.Outcome.next (if_neg hbarred).symm)
    · rw [if_pos hok]
      exact hrange hok
  case challenge =>
    intro scope e h he
    obtain ⟨hbad, hrng, hgoes⟩ := execDebugChallenge_law (scope := scope) h0 h he
    refine ⟨hbad, hrng, fun hlow hhigh hfit => ⟨Config.random e.freeCtr % 2 ^ 256, Nat.mod_lt _ (Nat.two_pow_pos 256), ?_⟩⟩
    exact hgoes hlow hhigh hfit _ rfl
  case unlock => exact fun scope token e h he hlow hhigh => execDebugUnlock_law h0 h he hlow hhigh
  case read => exact fun count seq e h he => execAuditRead_answers h0 h he
  case sign =>
    intro nonce e h he
    obtain ⟨hbars, hgoes⟩ := execAuditSign_law (nonce := nonce) h0 h he
    exact ⟨hbars, fun hscopes a ha => hgoes hscopes a ha _ rfl⟩
  case ack =>
    intro seq e h he
    have hbe : banksOk e = true := he ▸ banks_secEntered hb0 ch 0x1E tag
    obtain ⟨hfar, hnear⟩ := execAuditAcknowledge_law (seq := seq) h0 h he
    refine ⟨hfar, fun hseq => ?_⟩
    obtain ⟨hacked, hnewest, hregs⟩ := ackedSet_law hbe hseq rfl
    exact ⟨_, hnear hseq, hacked, hnewest, hregs, rfl⟩
  case entry => exact fun w code k result hbw => audit_newest hbw code k result
  case glitch => exact fun d hon hen => execGlitch_reports h0 hb0 hon hen rfl rfl
  case rng => exact fun test hon => execRngFail_law h0 hb0 hon
  case jtag =>
    intro x
    refine ⟨_, execJtagInstruction_eq h0 x, rfl, ?_, ?_, ?_⟩
    · rintro (rfl | rfl | rfl) <;> rfl
    · rintro rfl
      rfl
    · intro hx
      refine (jtagActs_drive hx _).trans ?_
      simp only [Bool.or_eq_true, beq_iff_eq]

end Sys2Proof.Laws
